-- ==== Sys2Proof/Word.lean ====
section
/-! DEFINITION. The words of the machine and their plainest operations. -/

namespace Sys2Proof

/-- A 64-bit scalar value (R72). -/
abbrev W64 := BitVec 64

/-- A 32-bit instruction parcel (R133). -/
abbrev Parcel := BitVec 32

/-- One row of a vector register: 128 bytes, byte 0 in the low bits (R74). -/
abbrev Row := BitVec 1024

/-- One row of an accumulator tile: 64 words of 32 bits, word 0 in the low bits (R80). -/
abbrev AccRow := BitVec 2048

/-- A sparse table in one canonical form: keys strictly rising.  Numbers that the spec counts
(addresses, register numbers, cores, teams) are the keys. -/
abbrev Tab (α : Type) := List (Nat × α)

/-- 64-bit word of a natural number, modulo 2^64. -/
abbrev w64 (n : Nat) : W64 := BitVec.ofNat 64 n

end Sys2Proof
end

