-- ==== Sys2Proof/Config.lean ====
section
/-! DEFINITION. What an implementation fixes and the spec leaves open: free values, constants without
a body of which no proof can learn a value (log 5 to 14). -/

namespace Sys2Proof

/-- Which of the things that can happen next does happen, where the spec leaves the order of agents
open: the step numbered `tick` takes choice `pick tick` modulo the number of choices (log 5). -/
opaque Config.pick : Nat → Nat

/-- Cycles beyond the first that the step numbered `tick` takes (log 6). -/
opaque Config.elapsed : Nat → Nat

/-- A byte of HBM read under a memory key that did not write it: step, address, writing key, reading
key (R105, R407; log 7). -/
opaque Config.garbled : Nat → Nat → Nat → Nat → BitVec 8

/-- A hardware chain pointer in memory: LIST of a barrier object, PWAIT, a directory entry's chain
(R266, R107, R108; log 9). -/
opaque Config.chainHead : Nat → BitVec 64

/-- Which TLB entry a fill replaces when the TLB is full: step number (R355; log 10). -/
opaque Config.victim : Nat → Nat

/-- PEND of SQSTAT while more than 255 SQLDs of the team are outstanding: how many (R90, R214; log 88). -/
opaque Config.manyPend : Nat → BitVec 8

/-- The die's unwrap private key made at the WLATCH of step `tick` (R392; log 11). -/
opaque Config.unwrapKey : Nat → Nat

/-- The die's identity private key (R400; log 11). -/
opaque Config.identityKey : Nat → Nat

/-- Random number of one signature (R399; log 11). -/
opaque Config.signNonce : Nat → Nat

/-- Package serial number (R399; log 11). -/
opaque Config.serial : BitVec 128

/-- Measurement of the firmware chain of a die (R420; log 11). -/
opaque Config.firmwareMeas : Nat → BitVec 384

/-- Error of the transfer of a plane to a core: step number, and 1 for the whole plane; the checksum
fails where it is not 0 (R339; log 32). -/
opaque Config.planeError : Nat → Nat → BitVec 32

/-- TYPE and the credits of the flits that a step sends (R415; log 38). -/
opaque Config.flitHead : Nat → BitVec 8

/-- A byte that host memory or another package's memory returns to this package: step number, place
number, address (log 20). -/
opaque Config.outside : Nat → Nat → Nat → BitVec 8

/-- Does another package refuse a read of its memory: step number, package, address (R286; log 20)? -/
opaque Config.outsideRefuses : Nat → Nat → Nat → Bool

/-- Home die of a context of another package (R17; log 106): package, context. -/
opaque Config.homedAbroad : Nat → Nat → Nat

end Sys2Proof
end

