-- ==== Sys2Proof/Syntax.lean ====
section
/-! DEFINITION. The instructions: one constructor per row of the opcode table.  The first 213 are
instruction forms and carry the fields of their format (R134, R135); the other 78 are the part's own
indivisible steps (95_what_each_step_holds.md), which have no encoding and carry what selects the
item they act on, or what reaches the package from outside. -/

namespace Sys2Proof

/-- Format S (R134): one parcel; FN and the major stand in the constructor. -/
structure FS where
  xd : BitVec 6
  xa : BitVec 6
  xb : BitVec 6
  fea : Bool
  feb : Bool
  deriving DecidableEq, Repr

/-- Format SI (R134). -/
structure FSI where
  xd : BitVec 6
  xa : BitVec 6
  fea : Bool
  imm : BitVec 11
  deriving DecidableEq, Repr

/-- Format SW (R134). -/
structure FSW where
  xd : BitVec 6
  xa : BitVec 6
  xb : BitVec 6
  fea : Bool
  feb : Bool
  st : BitVec 3
  xc : BitVec 6
  fec : Bool
  imm : BitVec 22
  deriving DecidableEq, Repr

/-- Format X3 (R134); `rsvA` and `rsvB` are the reserved fields [19:14] and [27:23]. -/
structure FX3 where
  xd : BitVec 6
  rsvA : BitVec 6
  st : BitVec 3
  rsvB : BitVec 5
  imm : BitVec 64
  deriving DecidableEq, Repr

/-- Format B (R134). -/
structure FB where
  off : BitVec 24
  deriving DecidableEq, Repr

/-- Format BC (R134). -/
structure FBC where
  xa : BitVec 6
  fea : Bool
  cc : BitVec 3
  off : BitVec 14
  deriving DecidableEq, Repr

/-- Format M (R134). -/
structure FM where
  xd : BitVec 6
  xa : BitVec 6
  xb : BitVec 6
  fea : Bool
  feb : Bool
  st : BitVec 3
  scope : BitVec 3
  ord : BitVec 2
  sh : BitVec 2
  fed : Bool
  rsv : Bool
  disp : BitVec 20
  deriving DecidableEq, Repr

/-- Format V (R134). -/
structure FV where
  vd : BitVec 5
  va : BitVec 5
  vb : BitVec 5
  fea : Bool
  feb : Bool
  z : Bool
  st : BitVec 3
  p : BitVec 3
  g : BitVec 3
  t : BitVec 4
  vc : BitVec 5
  fec : Bool
  xs : BitVec 6
  fes : Bool
  mod : BitVec 5
  u : Bool
  deriving DecidableEq, Repr

/-- Format VM (R134). -/
structure FVM where
  vd : BitVec 5
  xa : BitVec 6
  fea : Bool
  xb : BitVec 6
  feb : Bool
  z : Bool
  st : BitVec 3
  p : BitVec 3
  g : BitVec 3
  scope : BitVec 3
  ord : BitVec 2
  sh : BitVec 2
  fed : Bool
  disp : BitVec 15
  deriving DecidableEq, Repr

/-- Format VV (R134); `rsvA`, `rsvB`, `rsvC` are the reserved fields in order. -/
structure FVV where
  vd : BitVec 5
  xa : BitVec 6
  fea : Bool
  xb : BitVec 6
  feb : Bool
  rsvA : Bool
  st : BitVec 3
  rsvB : BitVec 3
  g : BitVec 3
  scope : BitVec 3
  rsvC : BitVec 2
  xm : BitVec 6
  fem : Bool
  disp : BitVec 11
  deriving DecidableEq, Repr

/-- Format E2 (R134). -/
structure FE2 where
  xa : BitVec 6
  fea : Bool
  st : BitVec 3
  scope : BitVec 3
  wv : Bool
  sv : Bool
  ord : BitVec 2
  pt : BitVec 4
  pv : Bool
  ct0 : BitVec 4
  cv0 : Bool
  ct1 : BitVec 4
  cv1 : Bool
  ct2 : BitVec 4
  cv2 : Bool
  wsem : BitVec 8
  ssem : BitVec 8
  deriving DecidableEq, Repr

/-- Format E3 (R134): E2 and a third parcel. -/
structure FE3 where
  e : FE2
  xb : BitVec 6
  feb : Bool
  xc : BitVec 6
  fec : Bool
  imm : BitVec 18
  deriving DecidableEq, Repr

/-- The three scalar floating-point majors 0x10 to 0x12 (R169). -/
inductive FTy where
  | f32 | bf16 | f16
  deriving DecidableEq, Repr

/-- Who sent a launch record (R331, R412, R273). -/
inductive LaunchSrc where
  /-- The host, through the launch window of the context; `window` is the context number. -/
  | host (window : Nat)
  /-- A LAUNCH command of this package, by its command name. -/
  | task (id : Nat)
  /-- A peer package: its number, the issuing context and its gang ID, and its own mark for the answer. -/
  | peer (pkg ctx gang ref : Nat)
  deriving DecidableEq, Repr

/-- One host access through a base address register of the HA-8 (R409): `bar` 0, 2 or 4. -/
structure ApertureAcc where
  bar : Nat
  write : Bool
  off : Nat
  len : Nat
  data : List (BitVec 8)
  deriving DecidableEq, Repr

/-- A message of the fabric (R279, R280, R350): an entry message or an FPUT write. -/
structure FabricMsg where
  /-- 0 write, 1 version create, 2 flag, 3 signal only, 4 blocked write (R350). -/
  kind : Nat
  spkg : Nat
  sctx : Nat
  /-- Sending cluster as die × 16 + cluster. -/
  scl : Nat
  /-- Sending queue pair; 256 + core of the cluster, with `fput`, for a direct put (header value 255). -/
  qp : Nat
  fput : Bool
  /-- Sent beyond the domain over Ethernet to the peer of this index (R418). -/
  eth : Option Nat
  /-- Destination package, as the queue pair or target record names it. -/
  tpkg : Nat
  tctx : Nat
  key : BitVec 64
  gang : Nat
  va : BitVec 64
  sva : BitVec 64
  ver : BitVec 32
  msgno : BitVec 32
  /-- Semaphore of the target context added to once this message is performed. -/
  rsem : Option Nat
  /-- The entry carries WRED, FLAG or RSIG: the 256-message window applies (R288). -/
  windowed : Bool
  payload : List (BitVec 8)
  /-- The team that issued or posted it, by name (for the report of R272). -/
  team : Nat
  /-- The sender's own name for what it belongs to: the entry or the direct put. -/
  ref : Nat
  deriving DecidableEq, Repr

/-- A load or store of another package to this one (R286). -/
structure RemoteReq where
  pkg : Nat
  ctx : Nat
  write : Bool
  /-- Die and local address. -/
  addr : Nat
  len : Nat
  data : BitVec 64
  key : Nat
  ref : Nat
  /-- An element of an ACW there (R258): OP, TY and comparand; `data` is its operand. -/
  atomic : Option (Nat × Nat × BitVec 64)
  deriving DecidableEq, Repr

/-- Registers of the part that no instruction writes and that the host or system software sets
(R410, R422, R424, R342, R285, R286, R405). -/
inductive HostReg where
  | apctl (v : BitVec 64)
  | hwbase (v : BitVec 64)
  | plimit (milliwatts : Nat)
  | downMask (pkg : Nat) (mask : BitVec 4)
  /-- One 32-bit word of a fairness entry: word 0 to 7 (R342). -/
  | fairness (die entry word : Nat) (v : BitVec 32)
  /-- Shares of a port's classes in percent: collective, one-sided, versioned (R285). -/
  | portShare (port a b c : Nat)
  /-- An export granted to a context of another package (R286). -/
  | exportSet (pkg ctx base len : Nat) (r w : Bool)
  | exportClear (pkg ctx : Nat)
  /-- The debug agent releases the task of a team held at BREAK (R179). -/
  | breakRelease (team : Nat)
  deriving DecidableEq, Repr

/-- What bring-up of a die finds (R420). -/
structure Bringup where
  firmwareOk : Bool
  hbmOk : Bool
  /-- Cores (0 to 127 in the die) that fail their self-test. -/
  badCores : List Nat
  /-- Scale-up ports (0 to 17) and the Ethernet port (18 + die) of the die that train, each with the index that its
  link partner reports (R414). -/
  ports : List (Nat × Nat)
  /-- This package's switch port index (R414). -/
  pkg : Nat
  /-- World that the firmware latches. -/
  world : BitVec 8
  lanes : Nat
  /-- CTXBASE as the firmware sets it. -/
  ctxbase : BitVec 56
  /-- PC at which C0x000's first task starts on this die. -/
  entry : BitVec 64
  /-- Section of class 2 that the firmware runs from: first virtual address and frames (key / 65,536). -/
  vbase : Nat
  frames : List Nat
  /-- What the firmware has placed in this die's memory and system space: key and byte. -/
  load : List (Nat × BitVec 8)
  deriving DecidableEq, Repr

/-- A link flit (R415); `crcOk` is the verdict of its CRC-64. -/
structure Flit where
  typ : BitVec 4
  seq : BitVec 12
  ack : BitVec 12
  credits : BitVec 4
  payload : List (BitVec 8)
  crcOk : Bool
  deriving DecidableEq, Repr

/-- Instructions and steps: one constructor per row of the opcode table. -/
inductive Instr where
  /-- ADD (R159). -/
  | add (f : FS)
  /-- ADD_SW (R159). -/
  | addSw (f : FSW)
  /-- SUB (R159). -/
  | sub (f : FS)
  /-- SUB_SW (R159). -/
  | subSw (f : FSW)
  /-- MUL (R159). -/
  | mul (f : FS)
  /-- MUL_SW (R159). -/
  | mulSw (f : FSW)
  /-- MULH (R159). -/
  | mulh (f : FS)
  /-- MULH_SW (R159). -/
  | mulhSw (f : FSW)
  /-- DIV (R160). -/
  | div (f : FS)
  /-- DIV_SW (R160). -/
  | divSw (f : FSW)
  /-- REM (R160). -/
  | rem (f : FS)
  /-- REM_SW (R160). -/
  | remSw (f : FSW)
  /-- AND (R159). -/
  | and (f : FS)
  /-- AND_SW (R159). -/
  | andSw (f : FSW)
  /-- OR (R159). -/
  | or (f : FS)
  /-- OR_SW (R159). -/
  | orSw (f : FSW)
  /-- XOR (R159). -/
  | xor (f : FS)
  /-- XOR_SW (R159). -/
  | xorSw (f : FSW)
  /-- ANDN (R159). -/
  | andn (f : FS)
  /-- ANDN_SW (R159). -/
  | andnSw (f : FSW)
  /-- SHL (R159). -/
  | shl (f : FS)
  /-- SHL_SW (R159). -/
  | shlSw (f : FSW)
  /-- SHR (R159). -/
  | shr (f : FS)
  /-- SHR_SW (R159). -/
  | shrSw (f : FSW)
  /-- SHRA (R159). -/
  | shra (f : FS)
  /-- SHRA_SW (R159). -/
  | shraSw (f : FSW)
  /-- ROTR (R159). -/
  | rotr (f : FS)
  /-- ROTR_SW (R159). -/
  | rotrSw (f : FSW)
  /-- MIN (R159). -/
  | min (f : FS)
  /-- MIN_SW (R159). -/
  | minSw (f : FSW)
  /-- MAX (R159). -/
  | max (f : FS)
  /-- MAX_SW (R159). -/
  | maxSw (f : FSW)
  /-- CLZ (R161). -/
  | clz (f : FS)
  /-- CLZ_SW (R161). -/
  | clzSw (f : FSW)
  /-- CTZ (R161). -/
  | ctz (f : FS)
  /-- CTZ_SW (R161). -/
  | ctzSw (f : FSW)
  /-- POPC (R161). -/
  | popc (f : FS)
  /-- POPC_SW (R161). -/
  | popcSw (f : FSW)
  /-- SEXT (R161). -/
  | sext (f : FSW)
  /-- ZEXT (R161). -/
  | zext (f : FSW)
  /-- SETC (R161). -/
  | setc (f : FSW)
  /-- SEL (R161). -/
  | sel (f : FSW)
  /-- LEA (R161). -/
  | lea (f : FSW)
  /-- BFX (R161). -/
  | bfx (f : FSW)
  /-- BFI (R161). -/
  | bfi (f : FSW)
  /-- ADDI (R162). -/
  | addi (f : FSI)
  /-- ADDI_SW (R162). -/
  | addiSw (f : FSW)
  /-- ANDI (R162). -/
  | andi (f : FSI)
  /-- ANDI_SW (R162). -/
  | andiSw (f : FSW)
  /-- ORI (R162). -/
  | ori (f : FSI)
  /-- ORI_SW (R162). -/
  | oriSw (f : FSW)
  /-- XORI (R162). -/
  | xori (f : FSI)
  /-- XORI_SW (R162). -/
  | xoriSw (f : FSW)
  /-- MOVI (R162). -/
  | movi (f : FSI)
  /-- MOVI_SW (R162). -/
  | moviSw (f : FSW)
  /-- MOVI_X3 (R162). -/
  | moviX3 (f : FX3)
  /-- BR (R163). -/
  | br (f : FB)
  /-- CALL (R163). -/
  | call (f : FB)
  /-- BC (R163). -/
  | bc (f : FBC)
  /-- JMP (R163). -/
  | jmp (f : FS)
  /-- RET (R163). -/
  | ret (f : FS)
  /-- LSTART (R165). -/
  | lstart (f : FSW)
  /-- LNEXT (R166). -/
  | lnext (f : FB)
  /-- LEXIT (R167). -/
  | lexit (f : FB)
  /-- END (R173). -/
  | endTask (f : FS)
  /-- END_SW (R173). -/
  | endTaskSw (f : FSW)
  /-- SPAWN (R174). -/
  | spawn (f : FS)
  /-- SPAWN_SW (R174). -/
  | spawnSw (f : FSW)
  /-- YIELD (R175). -/
  | yield (f : FS)
  /-- YIELD_SW (R175). -/
  | yieldSw (f : FSW)
  /-- TRAP (R176). -/
  | trap (f : FS)
  /-- TRAP_SW (R176). -/
  | trapSw (f : FSW)
  /-- RDCR (R177). -/
  | rdcr (f : FSW)
  /-- WRCR (R178). -/
  | wrcr (f : FSW)
  /-- NOP (R179). -/
  | nop (f : FS)
  /-- NOP_SW (R179). -/
  | nopSw (f : FSW)
  /-- BREAK (R179). -/
  | breakTask (f : FS)
  /-- BREAK_SW (R179). -/
  | breakTaskSw (f : FSW)
  /-- FADD (R169). -/
  | fadd (ty : FTy) (f : FS)
  /-- FADD_SW (R169). -/
  | faddSw (ty : FTy) (f : FSW)
  /-- FSUB (R169). -/
  | fsub (ty : FTy) (f : FS)
  /-- FSUB_SW (R169). -/
  | fsubSw (ty : FTy) (f : FSW)
  /-- FMUL (R169). -/
  | fmul (ty : FTy) (f : FS)
  /-- FMUL_SW (R169). -/
  | fmulSw (ty : FTy) (f : FSW)
  /-- FDIV (R169). -/
  | fdiv (ty : FTy) (f : FS)
  /-- FDIV_SW (R169). -/
  | fdivSw (ty : FTy) (f : FSW)
  /-- FSQRT (R169). -/
  | fsqrt (ty : FTy) (f : FS)
  /-- FSQRT_SW (R169). -/
  | fsqrtSw (ty : FTy) (f : FSW)
  /-- FMIN (R169). -/
  | fmin (ty : FTy) (f : FS)
  /-- FMIN_SW (R169). -/
  | fminSw (ty : FTy) (f : FSW)
  /-- FMAX (R169). -/
  | fmax (ty : FTy) (f : FS)
  /-- FMAX_SW (R169). -/
  | fmaxSw (ty : FTy) (f : FSW)
  /-- FSETC (R170). -/
  | fsetc (ty : FTy) (f : FSW)
  /-- FCVT (R171). -/
  | fcvt (ty : FTy) (f : FSW)
  /-- FFMA (R169). -/
  | ffma (ty : FTy) (f : FSW)
  /-- LD (R206). -/
  | ld (fn : BitVec 4) (f : FM)
  /-- ST (R206). -/
  | st (fn : BitVec 4) (f : FM)
  /-- MARK (R211). -/
  | mark (f : FE2)
  /-- PF (R212). -/
  | pf (f : FE2)
  /-- PF_E3 (R212). -/
  | pfE3 (f : FE3)
  /-- SQLD (R213). -/
  | sqld (f : FE3)
  /-- VADD (R185). -/
  | vadd (f : FV)
  /-- VSUB (R185). -/
  | vsub (f : FV)
  /-- VMUL (R185). -/
  | vmul (f : FV)
  /-- VFMA (R185). -/
  | vfma (f : FV)
  /-- VFMS (R185). -/
  | vfms (f : FV)
  /-- VMIN (R185). -/
  | vmin (f : FV)
  /-- VMAX (R185). -/
  | vmax (f : FV)
  /-- VABS (R185). -/
  | vabs (f : FV)
  /-- VNEG (R185). -/
  | vneg (f : FV)
  /-- VCPYS (R185). -/
  | vcpys (f : FV)
  /-- VRCP (R188). -/
  | vrcp (f : FV)
  /-- VRSQ (R188). -/
  | vrsq (f : FV)
  /-- VEXP2 (R188). -/
  | vexp2 (f : FV)
  /-- VLOG2 (R188). -/
  | vlog2 (f : FV)
  /-- VTANH (R188). -/
  | vtanh (f : FV)
  /-- VSIN (R188). -/
  | vsin (f : FV)
  /-- VCOS (R188). -/
  | vcos (f : FV)
  /-- VIADD (R189). -/
  | viadd (f : FV)
  /-- VISUB (R189). -/
  | visub (f : FV)
  /-- VIMUL (R189). -/
  | vimul (f : FV)
  /-- VIMAD (R189). -/
  | vimad (f : FV)
  /-- VAND (R189). -/
  | vand (f : FV)
  /-- VOR (R189). -/
  | vor (f : FV)
  /-- VXOR (R189). -/
  | vxor (f : FV)
  /-- VNOT (R189). -/
  | vnot (f : FV)
  /-- VSHL (R189). -/
  | vshl (f : FV)
  /-- VSHR (R189). -/
  | vshr (f : FV)
  /-- VSHRA (R189). -/
  | vshra (f : FV)
  /-- VIMIN (R189). -/
  | vimin (f : FV)
  /-- VIMAX (R189). -/
  | vimax (f : FV)
  /-- VIABS (R189). -/
  | viabs (f : FV)
  /-- VCMP (R191). -/
  | vcmp (f : FV)
  /-- VSEL (R192). -/
  | vsel (f : FV)
  /-- VCVT (R194). -/
  | vcvt (f : FV)
  /-- VQNT (R195). -/
  | vqnt (f : FV)
  /-- VDQT (R196). -/
  | vdqt (f : FV)
  /-- VRSUM (R197). -/
  | vrsum (f : FV)
  /-- VRMAX (R197). -/
  | vrmax (f : FV)
  /-- VRMIN (R197). -/
  | vrmin (f : FV)
  /-- VSCAN (R198). -/
  | vscan (f : FV)
  /-- VTRN (R199). -/
  | vtrn (f : FV)
  /-- VBCR (R199). -/
  | vbcr (f : FV)
  /-- VBCC (R199). -/
  | vbcc (f : FV)
  /-- VPERM (R199). -/
  | vperm (f : FV)
  /-- VSLD (R199). -/
  | vsld (f : FV)
  /-- VROT (R199). -/
  | vrot (f : FV)
  /-- VMOV (R200). -/
  | vmov (f : FV)
  /-- VMOV_WHOLE (R200). -/
  | vmovWhole (f : FV)
  /-- VSPL (R200). -/
  | vspl (f : FV)
  /-- VEXT (R200). -/
  | vext (f : FV)
  /-- VINS (R200). -/
  | vins (f : FV)
  /-- VIDX (R200). -/
  | vidx (f : FV)
  /-- PSET (R201). -/
  | pset (f : FV)
  /-- PWHL (R201). -/
  | pwhl (f : FV)
  /-- PMOV (R201). -/
  | pmov (f : FV)
  /-- VSETS (R201). -/
  | vsets (f : FV)
  /-- VLD (R208). -/
  | vld (f : FVM)
  /-- VST (R208). -/
  | vst (f : FVM)
  /-- VLDG (R209). -/
  | vldg (f : FVM)
  /-- VSTX (R209). -/
  | vstx (f : FVM)
  /-- VLDB (R210). -/
  | vldb (f : FVM)
  /-- VLDV (R217). -/
  | vldv (f : FVV)
  /-- VSTV (R218). -/
  | vstv (f : FVV)
  /-- VQRY (R220). -/
  | vqry (f : FVV)
  /-- VRELV (R221). -/
  | vrelv (f : FVV)
  /-- MREC (R230). -/
  | mrec (f : FE3)
  /-- MLDB (R231). -/
  | mldb (f : FE3)
  /-- MMA (R234). -/
  | mma (f : FE3)
  /-- MMAV (R236). -/
  | mmav (f : FE3)
  /-- MMAG (R238). -/
  | mmag (f : FE3)
  /-- MRANK (R239). -/
  | mrank (f : FE3)
  /-- MZERO (R240). -/
  | mzero (f : FE2)
  /-- MDRAIN (R241). -/
  | mdrain (f : FE3)
  /-- MMOVA (R242). -/
  | mmova (f : FE3)
  /-- MMOVV (R242). -/
  | mmovv (f : FE3)
  /-- MQRY (R243). -/
  | mqry (f : FE3)
  /-- CPY (R254). -/
  | cpy (f : FE3)
  /-- CPYV (R255). -/
  | cpyv (f : FE3)
  /-- CPYS (R256). -/
  | cpys (f : FE3)
  /-- ACW (R259). -/
  | acw (f : FE3)
  /-- ACW_ARRIVE (R267). -/
  | acwArrive (f : FE3)
  /-- WAITS (R262). -/
  | waits (f : FE3)
  /-- SIGS (R263). -/
  | sigs (f : FE2)
  /-- SIGS_E3 (R263). -/
  | sigsE3 (f : FE3)
  /-- SEMRD (R265). -/
  | semrd (f : FE3)
  /-- WAITB (R268). -/
  | waitb (f : FE3)
  /-- FQPOST (R270). -/
  | fqpost (f : FE3)
  /-- FMBOX (R270). -/
  | fmbox (f : FE3)
  /-- FPUT (R271). -/
  | fput (f : FE3)
  /-- FFLUSH (R272). -/
  | fflush (f : FE3)
  /-- LAUNCH (R273). -/
  | launch (f : FE3)
  /-- RDPR (R321). -/
  | rdpr (f : FSW)
  /-- WRPR (R321). -/
  | wrpr (f : FSW)
  /-- ERET (R323). -/
  | eret (f : FSW)
  /-- ASAVE (R324). -/
  | asave (f : FSW)
  /-- AREST (R324). -/
  | arest (f : FSW)
  /-- TLBINV (R325). -/
  | tlbinv (f : FS)
  /-- TLBINV_SW (R325). -/
  | tlbinvSw (f : FSW)
  /-- REPLAY (R326). -/
  | replay (f : FS)
  /-- REPLAY_SW (R326). -/
  | replaySw (f : FSW)
  /-- QUAR (R327). -/
  | quar (f : FS)
  /-- QUAR_SW (R327). -/
  | quarSw (f : FSW)
  /-- QSTAT (R327). -/
  | qstat (f : FS)
  /-- QSTAT_SW (R327). -/
  | qstatSw (f : FSW)
  /-- CFGDIFF (R316). -/
  | cfgdiff (f : FS)
  /-- CFGDIFF_SW (R316). -/
  | cfgdiffSw (f : FSW)
  /-- WLATCH (R328). -/
  | wlatch (f : FS)
  /-- WLATCH_SW (R328). -/
  | wlatchSw (f : FSW)
  /-- HALT (R328). -/
  | halt (f : FS)
  /-- HALT_SW (R328). -/
  | haltSw (f : FSW)
  /-- IDLE (R328). -/
  | idle (f : FS)
  /-- IDLE_SW (R328). -/
  | idleSw (f : FSW)
  /-- TASK_START (R29): `team` is the name of the team record. -/
  | taskStart (team : Nat)
  /-- TASK_ISSUE_SELECT (R340): the core whose front end picks. -/
  | taskIssueSelect (core : Nat)
  /-- RESULT_ARRIVAL (R84): a pending result of a core. -/
  | resultArrival (core id : Nat)
  /-- VERSION_ANSWER_ARRIVAL (R216): the team whose task is held for the answer. -/
  | versionAnswerArrival (team : Nat)
  /-- STORE_PERFORM (R113): one piece of a store-queue entry reaches the point `stage` of R114 (1 port, 2 crossbar, 3 die network, 4 ordering point, 5 host memory). -/
  | storePerform (core id piece stage : Nat)
  /-- LOAD_PERFORM (R113): one piece of a load-queue entry; `ext` is what memory outside the package answers, none where it refuses (R286). -/
  | loadPerform (core id piece : Nat) (ext : Option (BitVec 64))
  /-- TLB_WALK_COMPLETE (R356): one page of a queue entry, as `page` = address / 65,536. -/
  | tlbWalkComplete (core id page : Nat)
  /-- TEAM_PLACEMENT (R334): the next team of the launch in slot `slot` of a context is placed; a GATHER launch is placed whole. -/
  | teamPlacement (ctx slot : Nat)
  /-- LAUNCH_SLOT_TAKE (R333): the context whose queues are served. -/
  | launchSlotTake (ctx : Nat)
  /-- TEAM_RETIRE (R28): the team record. -/
  | teamRetire (team : Nat)
  /-- LAUNCH_RECORD_ARRIVAL (R331): who sent the record, the context named and its 256 bytes (R331). -/
  | launchRecordArrival (src : LaunchSrc) (ctx : Nat) (bytes : List (BitVec 8))
  /-- HOST_DOORBELL (R412): launch window and the value stored to its doorbell (R412). -/
  | hostDoorbell (window value : Nat)
  /-- APERTURE_ACCESS (R411): one host access through BAR4 (R411) or BAR0. -/
  | apertureAccess (acc : ApertureAcc)
  /-- REGISTER_WRITE (R5): the register and what is written. -/
  | registerWrite (reg : HostReg)
  /-- SEM_WAIT_REQUEST (R261): a request on its way to the semaphore file. -/
  | semWaitRequest (id : Nat)
  /-- SEM_SIGNAL (R261): a signal on its way to the semaphore file. -/
  | semSignal (id : Nat)
  /-- SEM_READ (R265): a SEMRD of a core. -/
  | semRead (core id : Nat)
  /-- BARRIER_ARRIVE_STEP (R267): an ACW.arrive of a core. -/
  | barrierArriveStep (core id : Nat)
  /-- BARRIER_WAIT_REQUEST (R268): a WAITB request on its way to the bank. -/
  | barrierWaitRequest (id : Nat)
  /-- BARRIER_OBJECT_STORE (R266): a store-queue piece that writes a barrier object. -/
  | barrierObjectStore (core id piece : Nat)
  /-- WAITB_DEADLINE (R268): a parked WAITB record. -/
  | waitbDeadline (id : Nat)
  /-- WAITB_UNLINK (R268): an unlink on its way to the bank. -/
  | waitbUnlink (id : Nat)
  /-- ACW_PORT_STEP (R259): the next element of an ACW. -/
  | acwPortStep (core id : Nat)
  /-- VC_CREATE (R218): a create on its way to its home controller. -/
  | vcCreate (id : Nat)
  /-- VC_READ (R217): one granule of a version read on its way. -/
  | vcRead (id granule : Nat)
  /-- VC_RELEASE (R109): a release, or the recheck of held creates. -/
  | vcRelease (id : Nat)
  /-- VC_QUERY (R220): a VQRY on its way. -/
  | vcQuery (id : Nat)
  /-- MATRIX_COMMAND_START (R224): the core. -/
  | matrixCommandStart (core : Nat)
  /-- PASS_ROW (R245): the next row step of a started matrix command. -/
  | passRow (core id : Nat)
  /-- BUFFER_REFILL (R226): a command that needs its buffer refilled. -/
  | bufferRefill (core id : Nat)
  /-- MMAG_SEGMENT (R238): an MMAG at the start of a segment. -/
  | mmagSegment (core id : Nat)
  /-- COPY_CHUNK (R252): a copy command. -/
  | copyChunk (core id : Nat)
  /-- PARKED_RETRY (R368): a parked command. -/
  | parkedRetry (id : Nat)
  /-- ENTRY_APPEND (R270): an FQPOST or FMBOX command. -/
  | entryAppend (id : Nat)
  /-- ENTRY_FIRE (R278): the head of a queue pair. -/
  | entryFire (die cluster qp : Nat)
  /-- FABRIC_MESSAGE_SEND (R279): the port: 0 to 17 scale-up, 18 + die Ethernet, 22 within the package, 23 launches to peers. -/
  | fabricMessageSend (port : Nat)
  /-- FABRIC_MESSAGE_ARRIVAL (R280): a message that arrives at this package. -/
  | fabricMessageArrival (msg : FabricMsg)
  /-- FABRIC_REFUSAL_RETURN (R280): the answer of a far end: the team that issued, the target, the code (0 for a message performed there) and the message, none for a store. -/
  | fabricRefusalReturn (team target code : Nat) (msg : Option FabricMsg)
  /-- ENTRY_COMPLETE (R281): the queue pair. -/
  | entryComplete (die cluster qp : Nat)
  /-- LAND_FULL_RETRY (R351): the queue pair whose message came back. -/
  | landFullRetry (die cluster qp : Nat)
  /-- LANDING_APPLY (R352): the context that became resident. -/
  | landingApply (die ctx : Nat)
  /-- REMOTE_ACCESS (R286): a load or store of another package. -/
  | remoteAccess (req : RemoteReq)
  /-- FFLUSH_COMPLETE (R272): an FFLUSH, and whether its target is lost. -/
  | fflushComplete (id : Nat) (lost : Bool)
  /-- QUANTUM_END (R338): the core. -/
  | quantumEnd (core : Nat)
  /-- SHADOW_PREPARE (R339): the core. -/
  | shadowPrepare (core : Nat)
  /-- PREEMPTION (R374): the core. -/
  | preemption (core : Nat)
  /-- CONTEXT_RESTORE (R384): the core. -/
  | contextRestore (core : Nat)
  /-- RESIDENCY_CHOICE (R347): the die. -/
  | residencyChoice (die : Nat)
  /-- FAIRNESS_TICK (R344): the die. -/
  | fairnessTick (die : Nat)
  /-- FAIRNESS_WINDOW (R344): the die. -/
  | fairnessWindow (die : Nat)
  /-- USED_ACCRUAL (R344): the die. -/
  | usedAccrual (die : Nat)
  /-- SPIN_DEMOTION (R345): the fairness entry. -/
  | spinDemotion (die entry : Nat)
  /-- MIGRATION_ADVERTISE (R353): the die. -/
  | migrationAdvertise (die : Nat)
  /-- MIGRATION_LANDING (R43): the packed team and the core that takes it. -/
  | migrationLanding (team core : Nat)
  /-- QEPOCH_ADVANCE (R318): the die. -/
  | qepochAdvance (die : Nat)
  /-- SCAN_REQUEST (R360): the scan ring slot. -/
  | scanRequest (die slot : Nat)
  /-- MKEY_NEW (R391): the request in that slot of the ring (R389). -/
  | mkeyNew (die slot : Nat)
  /-- MKEY_KILL (R391): the request in that slot of the ring. -/
  | mkeyKill (die slot : Nat)
  /-- SLOT_LOAD (R394): the request in that slot of the ring. -/
  | slotLoad (die slot : Nat)
  /-- SLOT_CLEAR (R397): the request in that slot of the ring. -/
  | slotClear (die slot : Nat)
  /-- GRANT_SET (R396): the request in that slot of the ring. -/
  | grantSet (die slot : Nat)
  /-- GRANT_CLEAR (R397): the request in that slot of the ring. -/
  | grantClear (die slot : Nat)
  /-- ATTEST (R399): the request in that slot of the ring. -/
  | attest (die slot : Nat)
  /-- ACCEPT (R402): the request in that slot of the ring. -/
  | accept (die slot : Nat)
  /-- RELEASE (R402): the request in that slot of the ring. -/
  | release (die slot : Nat)
  /-- DESTROY (R403): the request in that slot of the ring. -/
  | destroy (die slot : Nat)
  /-- SCRUB (R404): the request in that slot of the ring. -/
  | scrub (die slot : Nat)
  /-- SCRUB_FRAME_ZERO (R404): the dead key whose frames are scrubbed. -/
  | scrubFrameZero (key : Nat)
  /-- DIE_BRINGUP (R420): the results of the self-test, of the firmware check and of discovery. -/
  | dieBringup (die : Nat) (bu : Bringup)
  /-- POWER_LOSS (R405): standby power. -/
  | powerLoss
  /-- POWER_WINDOW (R422): the power measured over the window. -/
  | powerWindow (milliwatts : Nat)
  /-- MACHINE_CHECK (R423): where the error was found. -/
  | machineCheck (die code core ctx addr : Nat)
  /-- DIE_LOSS (R424): the die, of this package or of another. -/
  | dieLoss (pkg die : Nat)
  /-- FLIT_RECEIVE (R415): the flit as it came. -/
  | flitReceive (port : Nat) (flit : Flit)
  /-- LINK_REPLAY (R415): the NAK. -/
  | linkReplay (port seq : Nat)
  /-- LINK_RETRAIN (R415): whether training succeeds. -/
  | linkRetrain (port : Nat) (ok : Bool)
  /-- PORT_DOWN (R416): the port. -/
  | portDown (port : Nat)
  /-- LAUNCH_STATUS_RETURN (R273): the LAUNCH and the answer. -/
  | launchStatusReturn (id code : Nat)
  deriving DecidableEq, Repr

end Sys2Proof
end

