-- ==== Sys2Proof/WellFormed.lean ====
section
/-! DEFINITION. The field checks of the code scanner (R136, R139, R143, R144 reason FIELD): what each
instruction's entry lets its fields hold.  A step row of the table has no fields to check. -/

namespace Sys2Proof

/-- Which register fields an S entry uses; the others hold zero (R136). -/
def FS.uses (f : FS) (d a b : Bool) : Bool :=
  (d || f.xd == 0) && (a || (f.xa == 0 && !f.fea)) && (b || (f.xb == 0 && !f.feb))

/-- Which register fields an SW entry uses; the others hold zero (R136, R158). -/
def FSW.uses (f : FSW) (d a b c : Bool) : Bool :=
  (d || f.xd == 0) && (a || (f.xa == 0 && !f.fea)) && (b || (f.xb == 0 && !f.feb)) &&
    (c || (f.xc == 0 && !f.fec))

/-- POS and WIDTH of BFX and BFI (R161): WIDTH 1 to 64 and POS + WIDTH at most 64. -/
def bitField (imm : BitVec 22) : Bool :=
  let pos := imm.toNat % 64
  let w := imm.toNat / 64 % 128
  decide (1 ≤ w ∧ pos + w ≤ 64)

/-- The numbers of the control registers (R87). -/
def controlReg (n : Nat) : Bool :=
  n ≤ 0xB || (0x10 ≤ n && n ≤ 0x13) || n == 0x18

/-- The control registers that WRCR may name (R87). -/
def controlRegRW (n : Nat) : Bool := n ≤ 3 || n == 7

/-- The numbers of the privileged registers (R317). -/
def privReg (n : Nat) : Bool := n ≤ 0xC || (0x10 ≤ n && n ≤ 0x17)

/-- The privileged registers that WRPR may name (R317). -/
def privRegRW (n : Nat) : Bool := (1 ≤ n && n ≤ 5) || n == 0xC || (0x10 ≤ n && n ≤ 0x17)

/-- OTHER of FCVT (R171): not 7 and not the major's own format; IMM22 [21:4] zero. -/
def fcvtOther (ty : FTy) (imm : BitVec 22) : Bool :=
  let o := imm.toNat % 8
  imm.toNat < 16 && o != 7 && o != (match ty with | .f32 => 0 | .bf16 => 1 | .f16 => 2)

/-- ORD is not 3, and SCOPE is zero without an order (R135, R136). -/
def ordScope (ord : BitVec 2) (scope : BitVec 3) : Bool := ord != 3 && (ord != 0 || scope == 0)

/-- A consumed field whose valid bit is 0 holds zero (R140); ORD is not 3. -/
def FE2.tokens (f : FE2) : Bool :=
  (f.cv0 || f.ct0 == 0) && (f.cv1 || f.ct1 == 0) && (f.cv2 || f.ct2 == 0) && f.ord != 3

/-- No token is produced. -/
def FE2.noProduce (f : FE2) : Bool := !f.pv && f.pt == 0

/-- No token is produced or consumed. -/
def FE2.noTokens (f : FE2) : Bool :=
  f.noProduce && !f.cv0 && !f.cv1 && !f.cv2 && f.ct0 == 0 && f.ct1 == 0 && f.ct2 == 0

/-- No semaphore is named. -/
def FE2.noWaitSig (f : FE2) : Bool := !f.wv && !f.sv && f.wsem == 0 && f.ssem == 0

/-- XA is not used. -/
def FE2.noA (f : FE2) : Bool := f.xa == 0 && !f.fea

/-- XB is not used. -/
def FE3.noB (f : FE3) : Bool := f.xb == 0 && !f.feb

/-- XC is not used. -/
def FE3.noC (f : FE3) : Bool := f.xc == 0 && !f.fec

/-- AFMT and ASC of MMA, MMAV and MMAG (R234): AFMT 1 to 8, scales for MK8 always and for BF16, FP16
and INT4 never. -/
def aFormat (imm : BitVec 18) : Bool :=
  let a := imm.toNat / 16 % 16
  let asc := imm.getLsbD 8
  1 ≤ a && a ≤ 8 && (asc || a != 5) && !(asc && (a == 1 || a == 2 || a == 8))

/-- OFMT of MDRAIN (R241). -/
def outFormat (o : Nat) : Bool := o ≤ 7 || o == 9

/-- G and ROW0 of MMOVA and MMOVV (R242). -/
def moveRows (imm : BitVec 18) : Bool :=
  let g := imm.toNat / 1024 % 8
  let row0 := imm.toNat / 8 % 128
  1 ≤ g && g ≤ 6 && row0 + 8 * g ≤ 128

/-- OP, TY, FETCH of ACW other than arrive (R258). -/
def acwForm (imm : BitVec 18) : Bool :=
  let op := imm.toNat / 4 % 16
  let ty := imm.toNat / 64 % 8
  let fetch := imm.getLsbD 9
  match op with
  | 0 | 2 | 3 | 4 | 5 | 6 | 7 => ty < 4
  | 1 => ty == 4 || ty == 5
  | 8 => ty < 4 && fetch
  | _ => false

/-- T codes FP32, BF16, FP16. -/
def tFloat (t : BitVec 4) : Bool := t.toNat < 3
/-- T codes of the integer element operations (R189). -/
def tInt (t : BitVec 4) : Bool := t == 7 || t == 9 || t == 10 || t == 11
/-- T codes of VCMP and the reductions (R191, R197). -/
def tArith (t : BitVec 4) : Bool := tFloat t || tInt t
/-- Every T code of R182. -/
def tAll (t : BitVec 4) : Bool := t.toNat < 8 || t == 9 || t == 10 || t == 11
/-- T codes of VCVT (R194). -/
def tCvt (t : BitVec 4) : Bool := tAll t && t != 5
/-- The block formats of VQNT and VDQT (R195, R196). -/
def tBlock (t : BitVec 4) : Bool := 3 ≤ t.toNat && t.toNat ≤ 7
/-- The 32-, 16- and 8-bit classes (R199). -/
def tWide (t : BitVec 4) : Bool := tAll t && t != 6

/-- A group of `g` registers from `v` stays within v31 (R77). -/
def inFile (v : BitVec 5) (g : BitVec 3) : Bool := v.toNat + g.toNat ≤ 32

/-- Element width in bits of a T code (R182). -/
def tWidth (t : Nat) : Nat :=
  match t with
  | 0 | 9 => 32
  | 1 | 2 | 10 => 16
  | 6 | 8 => 4
  | _ => 8

/-- The checks common to format V: G 1 to 6, Z only with P, U only with T 9 or 10 (R135, R136). -/
def FV.common (f : FV) : Bool :=
  1 ≤ f.g.toNat && f.g.toNat ≤ 6 && (!f.z || f.p != 0) && (!f.u || f.t == 9 || f.t == 10)

/-- VA is not used. -/
def FV.noVa (f : FV) : Bool := f.va == 0 && !f.fea
/-- VB is not used. -/
def FV.noVb (f : FV) : Bool := f.vb == 0 && !f.feb
/-- VC is not used. -/
def FV.noVc (f : FV) : Bool := f.vc == 0 && !f.fec
/-- XS is not used. -/
def FV.noXs (f : FV) : Bool := f.xs == 0 && !f.fes

/-- Scalar B (R183): with SB the VB field is not used, without it XS is not used. -/
def FV.sbOk (f : FV) : Bool :=
  if f.mod.getLsbD 0 then f.noVb else f.noXs && inFile f.vb f.g

/-- Both groups of a conversion stay within v31 (R193). -/
def cvtGroups (f : FV) : Bool :=
  let wd := tWidth f.t.toNat
  let ws := tWidth (f.mod.toNat % 16)
  let big := max wd ws
  let regs := fun w => (f.g.toNat * w + big - 1) / big
  f.vd.toNat + regs wd ≤ 32 && f.va.toNat + regs ws ≤ 32

/-- The modes of PMOV (R201). -/
def pmovMode (f : FV) : Bool :=
  match f.mod.toNat with
  | 0 => f.noXs
  | 1 => f.vd == 0 && !f.fes
  | 2 => f.va == 0
  | _ => false

/-- The two forms of VSETS (R201). -/
def vsetsMode (f : FV) : Bool :=
  let cols := f.vc.toNat * 16 + f.mod.toNat % 16
  if f.mod.getLsbD 4 then f.vb == 0 && f.vc == 0 && f.t == 0 && f.mod.toNat == 16
  else f.noXs && 1 ≤ f.vb.toNat && f.vb.toNat ≤ 16 && 1 ≤ cols && cols ≤ 1024 / tWidth f.t.toNat

/-- The checks common to format VM (R135, R136). -/
def FVM.common (f : FVM) : Bool :=
  1 ≤ f.g.toNat && f.g.toNat ≤ 6 && (!f.z || f.p != 0) && ordScope f.ord f.scope

/-- The checks common to format VV (R134, R135). -/
def FVV.common (f : FVV) : Bool :=
  1 ≤ f.g.toNat && f.g.toNat ≤ 6 && !f.rsvA && f.rsvB == 0 && f.rsvC == 0

/-- The code scanner's field check of one instruction. -/
def Instr.wf (i : Instr) : Bool :=
  match i with
  | .add f => f.uses true true true
  | .addSw f => f.uses true true true false && f.imm == 0
  | .sub f => f.uses true true true
  | .subSw f => f.uses true true true false && f.imm == 0
  | .mul f => f.uses true true true
  | .mulSw f => f.uses true true true false && f.imm == 0
  | .mulh f => f.uses true true true
  | .mulhSw f => f.uses true true true false && f.imm.toNat < 2
  | .div f => f.uses true true true
  | .divSw f => f.uses true true true false && f.imm.toNat < 2
  | .rem f => f.uses true true true
  | .remSw f => f.uses true true true false && f.imm.toNat < 2
  | .and f => f.uses true true true
  | .andSw f => f.uses true true true false && f.imm == 0
  | .or f => f.uses true true true
  | .orSw f => f.uses true true true false && f.imm == 0
  | .xor f => f.uses true true true
  | .xorSw f => f.uses true true true false && f.imm == 0
  | .andn f => f.uses true true true
  | .andnSw f => f.uses true true true false && f.imm == 0
  | .shl f => f.uses true true true
  | .shlSw f => f.uses true true true false && f.imm.toNat < 64
  | .shr f => f.uses true true true
  | .shrSw f => f.uses true true true false && f.imm.toNat < 64
  | .shra f => f.uses true true true
  | .shraSw f => f.uses true true true false && f.imm.toNat < 64
  | .rotr f => f.uses true true true
  | .rotrSw f => f.uses true true true false && f.imm.toNat < 64
  | .min f => f.uses true true true
  | .minSw f => f.uses true true true false && f.imm.toNat < 2
  | .max f => f.uses true true true
  | .maxSw f => f.uses true true true false && f.imm.toNat < 2
  | .clz f => f.uses true true false
  | .clzSw f => f.uses true true false false && f.imm == 0
  | .ctz f => f.uses true true false
  | .ctzSw f => f.uses true true false false && f.imm == 0
  | .popc f => f.uses true true false
  | .popcSw f => f.uses true true false false && f.imm == 0
  | .sext f => f.uses true true false false && decide (1 ≤ f.imm.toNat ∧ f.imm.toNat ≤ 64)
  | .zext f => f.uses true true false false && decide (1 ≤ f.imm.toNat ∧ f.imm.toNat ≤ 64)
  | .setc f => f.uses true true true false && f.imm.toNat < 6
  | .sel f => f.uses true true true true && f.imm == 0
  | .lea f => f.uses true true true false
  | .bfx f => f.uses true true false false && bitField f.imm && f.imm.toNat < 2 ^ 14
  | .bfi f => f.uses true true true false && bitField f.imm && f.imm.toNat < 2 ^ 13
  | .addi _ => true
  | .addiSw f => f.uses true true false false
  | .andi _ => true
  | .andiSw f => f.uses true true false false
  | .ori _ => true
  | .oriSw f => f.uses true true false false
  | .xori _ => true
  | .xoriSw f => f.uses true true false false
  | .movi f => f.xa == 0 && !f.fea
  | .moviSw f => f.uses true false false false
  | .moviX3 f => f.rsvA == 0 && f.rsvB == 0
  | .br _ => true
  | .call _ => true
  | .bc f => f.cc.toNat < 6
  | .jmp f => f.uses false true false
  | .ret f => f.uses false true false
  | .lstart f => f.uses false true false false && f.st == 0 && 3 ≤ f.imm.toNat / 128
  | .lnext _ => true
  | .lexit _ => true
  | .endTask f => f.uses false false false
  | .endTaskSw f => f.uses false false false false && f.imm == 0
  | .spawn f => f.uses false true true
  | .spawnSw f => f.uses false true false false
  | .yield f => f.uses false true false
  | .yieldSw f => f.uses false true false false && f.imm == 0
  | .trap f => f.uses false true false
  | .trapSw f => f.uses false false false false
  | .rdcr f => f.uses true false false false && controlReg f.imm.toNat
  | .wrcr f => f.uses false true false false && controlRegRW f.imm.toNat
  | .nop f => f.uses false false false
  | .nopSw f => f.uses false false false false && f.imm == 0
  | .breakTask f => f.uses false false false
  | .breakTaskSw f => f.uses false false false false && f.imm == 0
  | .fadd _ f => f.uses true true true
  | .faddSw _ f => f.uses true true true false && f.imm == 0
  | .fsub _ f => f.uses true true true
  | .fsubSw _ f => f.uses true true true false && f.imm == 0
  | .fmul _ f => f.uses true true true
  | .fmulSw _ f => f.uses true true true false && f.imm == 0
  | .fdiv _ f => f.uses true true true
  | .fdivSw _ f => f.uses true true true false && f.imm == 0
  | .fsqrt _ f => f.uses true true false
  | .fsqrtSw _ f => f.uses true true false false && f.imm == 0
  | .fmin _ f => f.uses true true true
  | .fminSw _ f => f.uses true true true false && f.imm == 0
  | .fmax _ f => f.uses true true true
  | .fmaxSw _ f => f.uses true true true false && f.imm == 0
  | .fsetc _ f => f.uses true true true false && f.imm.toNat < 5
  | .fcvt ty f => f.uses true true false false && fcvtOther ty f.imm
  | .ffma _ f => f.uses true true true true && f.imm == 0
  | .ld fn f => !f.fed && !f.rsv && ordScope f.ord f.scope && f.ord != 1 && fn.toNat < 7
  | .st fn f => !f.rsv && ordScope f.ord f.scope && f.ord != 2 && fn.toNat < 4
  | .mark f => f.tokens && f.noA && f.noWaitSig && f.scope == 0 && f.ord == 0
  | .pf f => f.noTokens && f.noWaitSig && f.scope == 0 && f.ord == 0
  | .pfE3 f => f.e.noTokens && f.e.noWaitSig && f.e.scope == 0 && f.e.ord == 0 && f.noB && f.noC
  | .sqld f => f.e.tokens && f.e.ord == 0 && decide (1 ≤ f.imm.toNat ∧ f.imm.toNat ≤ 2048)
  | .vadd f => f.common && tFloat f.t && f.noVc && f.sbOk && inFile f.vd f.g && inFile f.va f.g && inFile f.vb f.g && f.mod.toNat < 2
  | .vsub f => f.common && tFloat f.t && f.noVc && f.sbOk && inFile f.vd f.g && inFile f.va f.g && inFile f.vb f.g && f.mod.toNat < 2
  | .vmul f => f.common && tFloat f.t && f.noVc && f.sbOk && inFile f.vd f.g && inFile f.va f.g && inFile f.vb f.g && f.mod.toNat < 2
  | .vfma f => f.common && tFloat f.t && f.sbOk && inFile f.vd f.g && inFile f.va f.g && inFile f.vb f.g && inFile f.vc f.g && f.mod.toNat < 2
  | .vfms f => f.common && tFloat f.t && f.sbOk && inFile f.vd f.g && inFile f.va f.g && inFile f.vb f.g && inFile f.vc f.g && f.mod.toNat < 2
  | .vmin f => f.common && tFloat f.t && f.noVc && f.sbOk && inFile f.vd f.g && inFile f.va f.g && inFile f.vb f.g && f.mod.toNat < 2
  | .vmax f => f.common && tFloat f.t && f.noVc && f.sbOk && inFile f.vd f.g && inFile f.va f.g && inFile f.vb f.g && f.mod.toNat < 2
  | .vabs f => f.common && tFloat f.t && f.noVc && f.noVb && f.noXs && inFile f.vd f.g && inFile f.va f.g && f.mod == 0
  | .vneg f => f.common && tFloat f.t && f.noVc && f.noVb && f.noXs && inFile f.vd f.g && inFile f.va f.g && f.mod == 0
  | .vcpys f => f.common && tFloat f.t && f.noVc && f.sbOk && inFile f.vd f.g && inFile f.va f.g && inFile f.vb f.g && f.mod.toNat < 2
  | .vrcp f => f.common && tFloat f.t && f.noVc && f.noVb && f.noXs && inFile f.vd f.g && inFile f.va f.g && f.mod == 0 && f.g.toNat < 5
  | .vrsq f => f.common && tFloat f.t && f.noVc && f.noVb && f.noXs && inFile f.vd f.g && inFile f.va f.g && f.mod == 0 && f.g.toNat < 5
  | .vexp2 f => f.common && tFloat f.t && f.noVc && f.noVb && f.noXs && inFile f.vd f.g && inFile f.va f.g && f.mod == 0 && f.g.toNat < 5
  | .vlog2 f => f.common && tFloat f.t && f.noVc && f.noVb && f.noXs && inFile f.vd f.g && inFile f.va f.g && f.mod == 0 && f.g.toNat < 5
  | .vtanh f => f.common && tFloat f.t && f.noVc && f.noVb && f.noXs && inFile f.vd f.g && inFile f.va f.g && f.mod == 0 && f.g.toNat < 5
  | .vsin f => f.common && tFloat f.t && f.noVc && f.noVb && f.noXs && inFile f.vd f.g && inFile f.va f.g && f.mod == 0 && f.g.toNat < 5
  | .vcos f => f.common && tFloat f.t && f.noVc && f.noVb && f.noXs && inFile f.vd f.g && inFile f.va f.g && f.mod == 0 && f.g.toNat < 5
  | .viadd f => f.common && tInt f.t && f.noVc && f.sbOk && inFile f.vd f.g && inFile f.va f.g && inFile f.vb f.g && f.mod.toNat < 4
  | .visub f => f.common && tInt f.t && f.noVc && f.sbOk && inFile f.vd f.g && inFile f.va f.g && inFile f.vb f.g && f.mod.toNat < 4
  | .vimul f => f.common && tInt f.t && f.noVc && f.sbOk && inFile f.vd f.g && inFile f.va f.g && inFile f.vb f.g && f.mod.toNat < 4
  | .vimad f => f.common && tInt f.t && f.sbOk && inFile f.vd f.g && inFile f.va f.g && inFile f.vb f.g && inFile f.vc f.g && f.mod.toNat < 4
  | .vand f => f.common && tInt f.t && f.noVc && f.sbOk && inFile f.vd f.g && inFile f.va f.g && inFile f.vb f.g && f.mod.toNat < 2
  | .vor f => f.common && tInt f.t && f.noVc && f.sbOk && inFile f.vd f.g && inFile f.va f.g && inFile f.vb f.g && f.mod.toNat < 2
  | .vxor f => f.common && tInt f.t && f.noVc && f.sbOk && inFile f.vd f.g && inFile f.va f.g && inFile f.vb f.g && f.mod.toNat < 2
  | .vnot f => f.common && tInt f.t && f.noVc && f.noVb && f.noXs && inFile f.vd f.g && inFile f.va f.g && f.mod == 0
  | .vshl f => f.common && tInt f.t && f.noVc && f.sbOk && inFile f.vd f.g && inFile f.va f.g && inFile f.vb f.g && f.mod.toNat < 2
  | .vshr f => f.common && tInt f.t && f.noVc && f.sbOk && inFile f.vd f.g && inFile f.va f.g && inFile f.vb f.g && f.mod.toNat < 2
  | .vshra f => f.common && tInt f.t && f.noVc && f.sbOk && inFile f.vd f.g && inFile f.va f.g && inFile f.vb f.g && f.mod.toNat < 2
  | .vimin f => f.common && tInt f.t && f.noVc && f.sbOk && inFile f.vd f.g && inFile f.va f.g && inFile f.vb f.g && f.mod.toNat < 2
  | .vimax f => f.common && tInt f.t && f.noVc && f.sbOk && inFile f.vd f.g && inFile f.va f.g && inFile f.vb f.g && f.mod.toNat < 2
  | .viabs f => f.common && tInt f.t && f.noVc && f.noVb && f.noXs && inFile f.vd f.g && inFile f.va f.g && (f.mod == 0 || f.mod == 2)
  | .vcmp f => f.common && tArith f.t && f.noVc && f.sbOk && inFile f.vd f.g && inFile f.va f.g && inFile f.vb f.g && f.mod.toNat < 14 && !(f.mod.toNat / 2 == 6 && tInt f.t)
  | .vsel f => f.common && tAll f.t && f.noXs && inFile f.vd f.g && inFile f.va f.g && inFile f.vb f.g && inFile f.vc f.g && f.mod == 0
  | .vcvt f => f.common && tCvt f.t && f.noVc && f.noVb && f.noXs && cvtGroups f && f.mod.toNat < 16 && tCvt (f.mod.truncate 4) && f.mod.toNat != f.t.toNat
  | .vqnt f => f.common && tBlock f.t && f.noVb && f.noXs && cvtGroups f && tFloat (f.mod.truncate 4) && f.mod.toNat < 16 && !f.fec
  | .vdqt f => f.common && tFloat f.t && f.noVb && f.noXs && cvtGroups f && tBlock (f.mod.truncate 4) && f.mod.toNat < 16
  | .vrsum f => f.common && tArith f.t && f.noVc && f.noVb && f.noXs && inFile f.vd f.g && inFile f.va f.g && f.mod.toNat < 2 && !f.z
  | .vrmax f => f.common && tArith f.t && f.noVc && f.noVb && f.noXs && inFile f.vd f.g && inFile f.va f.g && f.mod.toNat < 2 && !f.z
  | .vrmin f => f.common && tArith f.t && f.noVc && f.noVb && f.noXs && inFile f.vd f.g && inFile f.va f.g && f.mod.toNat < 2 && !f.z
  | .vscan f => f.common && tArith f.t && f.noVc && f.noVb && f.noXs && inFile f.vd f.g && inFile f.va f.g && f.mod == 0
  | .vtrn f => f.common && tWide f.t && f.noVc && f.noVb && f.noXs && inFile f.vd f.g && inFile f.va f.g && f.mod == 0 && f.p == 0 && !f.z
  | .vbcr f => f.common && tWide f.t && f.noVc && f.noVb && inFile f.vd f.g && inFile f.va f.g && f.mod == 0 && f.p == 0 && !f.z
  | .vbcc f => f.common && tWide f.t && f.noVc && f.noVb && inFile f.vd f.g && inFile f.va f.g && f.mod == 0 && f.p == 0 && !f.z
  | .vperm f => f.common && tWide f.t && f.noVc && f.noXs && inFile f.vd f.g && inFile f.va f.g && inFile f.vb f.g && f.mod == 0 && f.p == 0 && !f.z
  | .vsld f => f.common && tWide f.t && f.noVc && inFile f.vd f.g && inFile f.va f.g && inFile f.vb f.g && f.mod == 0 && f.p == 0 && !f.z
  | .vrot f => f.common && tWide f.t && f.noVc && f.noVb && inFile f.vd f.g && inFile f.va f.g && f.mod.toNat < 2 && f.p == 0 && !f.z
  | .vmov f => f.common && tAll f.t && f.noVc && f.noVb && f.noXs && inFile f.vd f.g && inFile f.va f.g && f.mod == 0
  | .vmovWhole f => f.common && tAll f.t && f.noVc && f.noVb && f.noXs && inFile f.vd f.g && inFile f.va f.g && f.mod == 1 && f.p == 0 && !f.z && f.t == 0
  | .vspl f => f.common && tAll f.t && f.noVa && f.noVc && f.noVb && inFile f.vd f.g && f.mod == 0
  | .vext f => f.common && tAll f.t && f.vd == 0 && !f.fes && f.mod.toNat < 8 && f.p == 0 && !f.z && f.g == 1 && f.vb.toNat < 16 && !f.feb && !f.fec
  | .vins f => f.common && tAll f.t && f.noVa && f.mod.toNat < 8 && f.p == 0 && !f.z && f.g == 1 && f.vb.toNat < 16 && !f.feb && !f.fec
  | .vidx f => f.common && tInt f.t && f.noVa && f.noVc && f.noVb && inFile f.vd f.g && f.mod == 0
  | .pset f => f.common && tAll f.t && f.vd.toNat < 8 && f.noVa && !f.feb && !f.fec && f.noXs && f.mod.toNat < 16 && f.g == 1 && f.p == 0 && !f.z
  | .pwhl f => f.common && tAll f.t && f.vd.toNat < 8 && f.noVa && f.noVb && f.noVc && f.mod == 0 && f.g == 1 && f.p == 0 && !f.z
  | .pmov f => f.common && f.t == 0 && f.vd.toNat < 8 && f.va.toNat < 8 && !f.fea && f.noVb && f.noVc && pmovMode f && f.g == 1 && f.p == 0 && !f.z
  | .vsets f => f.common && tAll f.t && f.noVa && f.vd == 0 && !f.feb && !f.fec && vsetsMode f && f.g == 1 && f.p == 0 && !f.z
  | .vld f => f.common && inFile f.vd f.g && !f.fed && f.ord != 1
  | .vst f => f.common && inFile f.vd f.g && !f.z && f.ord != 2
  | .vldg f => f.common && inFile f.vd f.g && !f.fed && f.ord == 0 && f.xb.toNat < 32
  | .vstx f => f.common && inFile f.vd f.g && !f.z && f.ord == 0 && f.xb.toNat < 32
  | .vldb f => f.common && inFile f.vd f.g && !f.fed && f.ord == 0
  | .vldv f => f.common && inFile f.vd f.g
  | .vstv f => f.common && inFile f.vd f.g && f.xm == 0 && !f.fem
  | .vqry f => f.common && f.vd == 0 && f.g == 1 && f.xb == 0 && !f.feb && !f.fem
  | .vrelv f => f.common && f.vd == 0 && f.g == 1 && f.xm == 0 && !f.fem
  | .mrec f => f.e.tokens && f.e.ord == 0 && f.noB && f.noC && f.imm.toNat < 16
  | .mldb f => f.e.tokens && f.e.ord == 0 && f.e.noA && f.imm.toNat < 256
  | .mma f => f.e.tokens && f.e.ord == 0 && f.imm.toNat < 4096 && aFormat f.imm
  | .mmav f => f.e.tokens && f.e.ord == 0 && f.e.noA && f.imm.toNat < 4096 && aFormat f.imm && f.xb.toNat < 32
  | .mmag f => f.e.tokens && f.e.ord == 0 && f.imm &&& 0x3FE08#18 == 0 && aFormat f.imm
  | .mrank f => f.e.tokens && f.e.ord == 0 && f.imm &&& 0x3FF08#18 == 0 && f.imm.toNat / 16 % 16 < 3
  | .mzero f => f.tokens && f.ord == 0 && f.xa.toNat < 8 && !f.fea
  | .mdrain f => f.e.tokens && f.e.ord == 0 && f.imm.toNat < 2 ^ 15 && outFormat (f.imm.toNat / 16 % 16)
  | .mmova f => f.e.tokens && f.e.ord == 0 && !f.e.fea && f.noB && f.noC && moveRows f.imm && f.imm.toNat < 2 ^ 13 && f.e.xa.toNat + f.imm.toNat / 1024 % 8 ≤ 32
  | .mmovv f => f.e.tokens && f.e.ord == 0 && f.noB && f.noC && moveRows f.imm && f.imm.toNat < 2 ^ 14 && f.e.xa.toNat + f.imm.toNat / 1024 % 8 ≤ 32
  | .mqry f => f.e.tokens && f.e.ord == 0 && !f.e.fea && f.noB && f.noC && (f.imm == 0 || (f.imm.toNat % 4 == 1 && f.imm.toNat < 32))
  | .cpy f => f.e.tokens && f.e.ord == 0 && f.imm.toNat < 4
  | .cpyv f => f.e.tokens && f.e.ord == 0 && f.imm.toNat < 8
  | .cpys f => f.e.tokens && f.e.ord == 0 && f.imm.toNat < 4
  | .acw f => f.e.tokens && f.e.ord != 2 && f.e.ord != 3 && acwForm f.imm && (f.imm.getLsbD 9 || f.noC)
  | .acwArrive f => f.e.tokens && f.e.ord == 0 && f.imm.toNat / 4 == 9
  | .waits f => f.e.tokens && f.e.ord == 0 && f.e.noA && f.noC && f.e.noProduce && f.e.wv && !f.e.sv && f.e.ssem == 0
  | .sigs f => f.tokens && f.ord == 0 && !f.wv && f.wsem == 0 && f.sv
  | .sigsE3 f => f.e.tokens && f.e.ord == 0 && f.e.noA && f.noB && f.noC && !f.e.wv && f.e.wsem == 0 && f.e.sv
  | .semrd f => f.e.tokens && f.e.ord == 0 && !f.e.fea && f.noB && f.noC && f.imm.toNat < 256 && f.e.noWaitSig
  | .waitb f => f.e.tokens && f.e.ord == 0 && decide (1 ≤ f.imm.toNat ∧ f.imm.toNat < 65536) && f.e.noProduce && f.e.noWaitSig
  | .fqpost f => f.e.tokens && f.e.ord == 0 && f.imm == 0
  | .fmbox f => f.e.tokens && f.e.ord == 0 && f.imm == 0
  | .fput f => f.e.tokens && f.e.ord == 0 && f.imm == 0
  | .fflush f => f.e.tokens && f.e.ord == 0 && f.noC && f.imm == 0
  | .launch f => f.e.tokens && f.e.ord == 0 && f.imm == 0
  | .rdpr f => f.uses true false true true && privReg f.imm.toNat
  | .wrpr f => f.uses false true true true && privRegRW f.imm.toNat
  | .eret f => f.uses false true false false && f.imm.toNat < 3
  | .asave f => f.uses false true true true && f.imm == 0
  | .arest f => f.uses false true true true && f.imm == 0
  | .tlbinv f => f.uses false true true
  | .tlbinvSw f => f.uses false true true false && f.imm.toNat < 3
  | .replay f => f.uses false true false
  | .replaySw f => f.uses false true false false && f.imm == 0
  | .quar f => f.uses true true true
  | .quarSw f => f.uses true true true false && f.imm == 0
  | .qstat f => f.uses true true false
  | .qstatSw f => f.uses true true false false && f.imm == 0
  | .cfgdiff f => f.uses true true true
  | .cfgdiffSw f => f.uses true true true false && f.imm == 0
  | .wlatch f => f.uses true true false
  | .wlatchSw f => f.uses true true false false && f.imm == 0
  | .halt f => f.uses true true false
  | .haltSw f => f.uses true true false false && f.imm == 0
  | .idle f => f.uses false false false
  | .idleSw f => f.uses false false false false && f.imm == 0
  | .taskStart _ => true
  | .taskIssueSelect _ => true
  | .resultArrival _ _ => true
  | .versionAnswerArrival _ => true
  | .storePerform _ _ _ _ => true
  | .loadPerform _ _ _ _ => true
  | .tlbWalkComplete _ _ _ => true
  | .teamPlacement _ _ => true
  | .launchSlotTake _ => true
  | .teamRetire _ => true
  | .launchRecordArrival _ _ _ => true
  | .hostDoorbell _ _ => true
  | .apertureAccess _ => true
  | .registerWrite _ => true
  | .semWaitRequest _ => true
  | .semSignal _ => true
  | .semRead _ _ => true
  | .barrierArriveStep _ _ => true
  | .barrierWaitRequest _ => true
  | .barrierObjectStore _ _ _ => true
  | .waitbDeadline _ => true
  | .waitbUnlink _ => true
  | .acwPortStep _ _ => true
  | .vcCreate _ => true
  | .vcRead _ _ => true
  | .vcRelease _ => true
  | .vcQuery _ => true
  | .matrixCommandStart _ => true
  | .passRow _ _ => true
  | .bufferRefill _ _ => true
  | .mmagSegment _ _ => true
  | .copyChunk _ _ => true
  | .parkedRetry _ => true
  | .entryAppend _ => true
  | .entryFire _ _ _ => true
  | .fabricMessageSend _ => true
  | .fabricMessageArrival _ => true
  | .fabricRefusalReturn _ _ _ _ => true
  | .entryComplete _ _ _ => true
  | .landFullRetry _ _ _ => true
  | .landingApply _ _ => true
  | .remoteAccess _ => true
  | .fflushComplete _ _ => true
  | .quantumEnd _ => true
  | .shadowPrepare _ => true
  | .preemption _ => true
  | .contextRestore _ => true
  | .residencyChoice _ => true
  | .fairnessTick _ => true
  | .fairnessWindow _ => true
  | .usedAccrual _ => true
  | .spinDemotion _ _ => true
  | .migrationAdvertise _ => true
  | .migrationLanding _ _ => true
  | .qepochAdvance _ => true
  | .scanRequest _ _ => true
  | .mkeyNew _ _ => true
  | .mkeyKill _ _ => true
  | .slotLoad _ _ => true
  | .slotClear _ _ => true
  | .grantSet _ _ => true
  | .grantClear _ _ => true
  | .attest _ _ => true
  | .accept _ _ => true
  | .release _ _ => true
  | .destroy _ _ => true
  | .scrub _ _ => true
  | .scrubFrameZero _ => true
  | .dieBringup _ _ => true
  | .powerLoss => true
  | .powerWindow _ => true
  | .machineCheck _ _ _ _ _ => true
  | .dieLoss _ _ => true
  | .flitReceive _ _ => true
  | .linkReplay _ _ => true
  | .linkRetrain _ _ => true
  | .portDown _ => true
  | .launchStatusReturn _ _ => true

/-- An instruction form, as against one of the part's own steps. -/
def Instr.isForm (i : Instr) : Bool :=
  match i with
  | .taskStart _ => false
  | .taskIssueSelect _ => false
  | .resultArrival _ _ => false
  | .versionAnswerArrival _ => false
  | .storePerform _ _ _ _ => false
  | .loadPerform _ _ _ _ => false
  | .tlbWalkComplete _ _ _ => false
  | .teamPlacement _ _ => false
  | .launchSlotTake _ => false
  | .teamRetire _ => false
  | .launchRecordArrival _ _ _ => false
  | .hostDoorbell _ _ => false
  | .apertureAccess _ => false
  | .registerWrite _ => false
  | .semWaitRequest _ => false
  | .semSignal _ => false
  | .semRead _ _ => false
  | .barrierArriveStep _ _ => false
  | .barrierWaitRequest _ => false
  | .barrierObjectStore _ _ _ => false
  | .waitbDeadline _ => false
  | .waitbUnlink _ => false
  | .acwPortStep _ _ => false
  | .vcCreate _ => false
  | .vcRead _ _ => false
  | .vcRelease _ => false
  | .vcQuery _ => false
  | .matrixCommandStart _ => false
  | .passRow _ _ => false
  | .bufferRefill _ _ => false
  | .mmagSegment _ _ => false
  | .copyChunk _ _ => false
  | .parkedRetry _ => false
  | .entryAppend _ => false
  | .entryFire _ _ _ => false
  | .fabricMessageSend _ => false
  | .fabricMessageArrival _ => false
  | .fabricRefusalReturn _ _ _ _ => false
  | .entryComplete _ _ _ => false
  | .landFullRetry _ _ _ => false
  | .landingApply _ _ => false
  | .remoteAccess _ => false
  | .fflushComplete _ _ => false
  | .quantumEnd _ => false
  | .shadowPrepare _ => false
  | .preemption _ => false
  | .contextRestore _ => false
  | .residencyChoice _ => false
  | .fairnessTick _ => false
  | .fairnessWindow _ => false
  | .usedAccrual _ => false
  | .spinDemotion _ _ => false
  | .migrationAdvertise _ => false
  | .migrationLanding _ _ => false
  | .qepochAdvance _ => false
  | .scanRequest _ _ => false
  | .mkeyNew _ _ => false
  | .mkeyKill _ _ => false
  | .slotLoad _ _ => false
  | .slotClear _ _ => false
  | .grantSet _ _ => false
  | .grantClear _ _ => false
  | .attest _ _ => false
  | .accept _ _ => false
  | .release _ _ => false
  | .destroy _ _ => false
  | .scrub _ _ => false
  | .scrubFrameZero _ => false
  | .dieBringup _ _ => false
  | .powerLoss => false
  | .powerWindow _ => false
  | .machineCheck _ _ _ _ _ => false
  | .dieLoss _ _ => false
  | .flitReceive _ _ => false
  | .linkReplay _ _ => false
  | .linkRetrain _ _ => false
  | .portDown _ => false
  | .launchStatusReturn _ _ => false
  | _ => true

/-- Well formed: an instruction form that passes the scanner's field check. -/
def Instr.WellFormed (i : Instr) : Prop := i.isForm = true ∧ i.wf = true

end Sys2Proof
end

