-- ==== Sys2Proof/Decode.lean ====
section
/-! DEFINITION. Decoding of parcels into instructions and the encoder (R133 to R144), both from the
format table R134 and the opcode map R142. -/

namespace Sys2Proof

/-- The reasons of the code scanner (R144). -/
inductive Reason where
  | length | major | form | function | field | privilege | truncated
  deriving DecidableEq, Repr

/-- The reason's value (R144). -/
def Reason.code : Reason → Nat
  | .length => 1 | .major => 2 | .form => 3 | .function => 4 | .field => 5 | .privilege => 6
  | .truncated => 7

/-- The formats of R134. -/
inductive Format where
  | s | si | sw | x3 | b | bc | m | v | vm | vv | e2 | e3
  deriving DecidableEq, Repr

/-- Parcels of a format (R134). -/
def Format.parcels : Format → Nat
  | .s | .si | .b | .bc => 1
  | .sw | .m | .v | .vm | .vv | .e2 => 2
  | .x3 | .e3 => 3

/-- Fields of an instruction laid out in a format, with its major opcode and function value. -/
inductive Enc where
  | s (major fn : Nat) (f : FS)
  | si (major : Nat) (f : FSI)
  | sw (major fn : Nat) (f : FSW)
  | x3 (major fn : Nat) (f : FX3)
  | b (major : Nat) (f : FB)
  | bc (major : Nat) (f : FBC)
  | m (major fn : Nat) (f : FM)
  | v (major fn : Nat) (f : FV)
  | vm (major fn : Nat) (f : FVM)
  | vv (major fn : Nat) (f : FVV)
  | e2 (major fn : Nat) (f : FE2)
  | e3 (major fn : Nat) (f : FE3)
  deriving DecidableEq, Repr

/-- Major opcodes that R142 assigns. -/
def majorKnown (m : Nat) : Bool :=
  m ≤ 0x06 || (0x08 ≤ m && m ≤ 0x12) || (0x18 ≤ m && m ≤ 0x1A) || (0x20 ≤ m && m ≤ 0x28) ||
    m == 0x30 || m == 0x31 || m == 0x38 || m == 0x39 || (0x3C ≤ m && m ≤ 0x3E)

/-- The format that a major opcode and LEN select (R133, R142); `none` where LEN is not permitted. -/
def formatOf (major len : Nat) : Option Format :=
  match len with
  | 1 =>
    match major with
    | 0x00 | 0x01 | 0x0B | 0x0F | 0x10 | 0x11 | 0x12 | 0x3E => some .s
    | 0x02 | 0x03 | 0x04 | 0x05 | 0x06 => some .si
    | 0x08 | 0x09 | 0x0D | 0x0E => some .b
    | 0x0A => some .bc
    | _ => none
  | 2 =>
    match major with
    | 0x00 | 0x01 | 0x02 | 0x03 | 0x04 | 0x05 | 0x06 | 0x0C | 0x0F | 0x10 | 0x11 | 0x12 | 0x3E => some .sw
    | 0x18 | 0x19 => some .m
    | 0x20 | 0x21 | 0x22 | 0x23 | 0x24 | 0x25 | 0x26 | 0x27 | 0x28 => some .v
    | 0x30 => some .vm
    | 0x31 => some .vv
    | 0x1A | 0x38 | 0x39 | 0x3C | 0x3D => some .e2
    | _ => none
  | 3 =>
    match major with
    | 0x06 => some .x3
    | 0x1A | 0x38 | 0x39 | 0x3C | 0x3D => some .e3
    | _ => none
  | _ => none

/-- Field `[lo + w - 1 : lo]` of the up to 96 bits of an instruction. -/
def fld (x : BitVec 96) (lo w : Nat) : BitVec w := x.extractLsb' lo w

/-- One bit of an instruction. -/
def bitAt (x : BitVec 96) (i : Nat) : Bool := x.getLsbD i

/-- One Boolean field as a bit. -/
abbrev bit1 (b : Bool) : BitVec 1 := BitVec.ofBool b

/-- The fields of format S (R134). -/
def parseS (x : BitVec 96) : FS :=
  { xd := fld x 8 6, xa := fld x 14 6, xb := fld x 20 6, fea := bitAt x 26, feb := bitAt x 27 }

/-- The fields of format SI (R134). -/
def parseSI (x : BitVec 96) : FSI :=
  { xd := fld x 8 6, xa := fld x 14 6, fea := bitAt x 20, imm := fld x 21 11 }

/-- The fields of format SW (R134). -/
def parseSW (x : BitVec 96) : FSW :=
  { xd := fld x 8 6, xa := fld x 14 6, xb := fld x 20 6, fea := bitAt x 26, feb := bitAt x 27, st := fld x 32 3,
    xc := fld x 35 6, fec := bitAt x 41, imm := fld x 42 22 }

/-- The fields of format X3 (R134). -/
def parseX3 (x : BitVec 96) : FX3 :=
  { xd := fld x 8 6, rsvA := fld x 14 6, st := fld x 20 3, rsvB := fld x 23 5, imm := fld x 32 64 }

/-- The fields of format B (R134). -/
def parseB (x : BitVec 96) : FB :=
  { off := fld x 8 24 }

/-- The fields of format BC (R134). -/
def parseBC (x : BitVec 96) : FBC :=
  { xa := fld x 8 6, fea := bitAt x 14, cc := fld x 15 3, off := fld x 18 14 }

/-- The fields of format M (R134). -/
def parseM (x : BitVec 96) : FM :=
  { xd := fld x 8 6, xa := fld x 14 6, xb := fld x 20 6, fea := bitAt x 26, feb := bitAt x 27, st := fld x 32 3,
    scope := fld x 35 3, ord := fld x 38 2, sh := fld x 40 2, fed := bitAt x 42, rsv := bitAt x 43,
    disp := fld x 44 20 }

/-- The fields of format V (R134). -/
def parseV (x : BitVec 96) : FV :=
  { vd := fld x 8 5, va := fld x 13 5, vb := fld x 18 5, fea := bitAt x 23, feb := bitAt x 24, z := bitAt x 31,
    st := fld x 32 3, p := fld x 35 3, g := fld x 38 3, t := fld x 41 4, vc := fld x 45 5, fec := bitAt x 50,
    xs := fld x 51 6, fes := bitAt x 57, mod := fld x 58 5, u := bitAt x 63 }

/-- The fields of format VM (R134). -/
def parseVM (x : BitVec 96) : FVM :=
  { vd := fld x 8 5, xa := fld x 13 6, fea := bitAt x 19, xb := fld x 20 6, feb := bitAt x 26, z := bitAt x 31,
    st := fld x 32 3, p := fld x 35 3, g := fld x 38 3, scope := fld x 41 3, ord := fld x 44 2, sh := fld x 46 2,
    fed := bitAt x 48, disp := fld x 49 15 }

/-- The fields of format VV (R134). -/
def parseVV (x : BitVec 96) : FVV :=
  { vd := fld x 8 5, xa := fld x 13 6, fea := bitAt x 19, xb := fld x 20 6, feb := bitAt x 26, rsvA := bitAt x 31,
    st := fld x 32 3, rsvB := fld x 35 3, g := fld x 38 3, scope := fld x 41 3, rsvC := fld x 44 2,
    xm := fld x 46 6, fem := bitAt x 52, disp := fld x 53 11 }

/-- The fields of format E2 (R134). -/
def parseE2 (x : BitVec 96) : FE2 :=
  { xa := fld x 11 6, fea := bitAt x 17, st := fld x 18 3, scope := fld x 21 3, wv := bitAt x 24,
    sv := bitAt x 25, ord := fld x 26 2, pt := fld x 28 4, pv := bitAt x 32, ct0 := fld x 33 4, cv0 := bitAt x 37,
    ct1 := fld x 38 4, cv1 := bitAt x 42, ct2 := fld x 43 4, cv2 := bitAt x 47, wsem := fld x 48 8,
    ssem := fld x 56 8 }

/-- The fields of format E3 (R134). -/
def parseE3 (x : BitVec 96) : FE3 :=
  { e := parseE2 x, xb := fld x 64 6, feb := bitAt x 70, xc := fld x 71 6, fec := bitAt x 77, imm := fld x 78 18 }

/-- Format S with its fields in place (R134). -/
def packS (major fn : Nat) (f : FS) : BitVec 96 :=
  (0#64 ++ BitVec.ofNat 4 fn ++ bit1 f.feb ++ bit1 f.fea ++ f.xb ++ f.xa ++ f.xd ++
    BitVec.ofNat 6 major ++ 0#2 : BitVec 96)

/-- Format SI with its fields in place (R134). -/
def packSI (major : Nat) (f : FSI) : BitVec 96 :=
  (0#64 ++ f.imm ++ bit1 f.fea ++ f.xa ++ f.xd ++ BitVec.ofNat 6 major ++ 0#2 : BitVec 96)

/-- Format SW with its fields in place (R134). -/
def packSW (major fn : Nat) (f : FSW) : BitVec 96 :=
  (0#32 ++ f.imm ++ bit1 f.fec ++ f.xc ++ f.st ++ BitVec.ofNat 4 fn ++ bit1 f.feb ++ bit1
    f.fea ++ f.xb ++ f.xa ++ f.xd ++ BitVec.ofNat 6 major ++ 1#2 : BitVec 96)

/-- Format X3 with its fields in place (R134). -/
def packX3 (major fn : Nat) (f : FX3) : BitVec 96 :=
  (f.imm ++ BitVec.ofNat 4 fn ++ f.rsvB ++ f.st ++ f.rsvA ++ f.xd ++ BitVec.ofNat 6 major ++
    2#2 : BitVec 96)

/-- Format B with its fields in place (R134). -/
def packB (major : Nat) (f : FB) : BitVec 96 :=
  (0#64 ++ f.off ++ BitVec.ofNat 6 major ++ 0#2 : BitVec 96)

/-- Format BC with its fields in place (R134). -/
def packBC (major : Nat) (f : FBC) : BitVec 96 :=
  (0#64 ++ f.off ++ f.cc ++ bit1 f.fea ++ f.xa ++ BitVec.ofNat 6 major ++ 0#2 : BitVec 96)

/-- Format M with its fields in place (R134). -/
def packM (major fn : Nat) (f : FM) : BitVec 96 :=
  (0#32 ++ f.disp ++ bit1 f.rsv ++ bit1 f.fed ++ f.sh ++ f.ord ++ f.scope ++ f.st ++
    BitVec.ofNat 4 fn ++ bit1 f.feb ++ bit1 f.fea ++ f.xb ++ f.xa ++ f.xd ++ BitVec.ofNat 6
    major ++ 1#2 : BitVec 96)

/-- Format V with its fields in place (R134). -/
def packV (major fn : Nat) (f : FV) : BitVec 96 :=
  (0#32 ++ bit1 f.u ++ f.mod ++ bit1 f.fes ++ f.xs ++ bit1 f.fec ++ f.vc ++ f.t ++ f.g ++ f.p
    ++ f.st ++ bit1 f.z ++ BitVec.ofNat 6 fn ++ bit1 f.feb ++ bit1 f.fea ++ f.vb ++ f.va ++
    f.vd ++ BitVec.ofNat 6 major ++ 1#2 : BitVec 96)

/-- Format VM with its fields in place (R134). -/
def packVM (major fn : Nat) (f : FVM) : BitVec 96 :=
  (0#32 ++ f.disp ++ bit1 f.fed ++ f.sh ++ f.ord ++ f.scope ++ f.g ++ f.p ++ f.st ++ bit1 f.z
    ++ BitVec.ofNat 4 fn ++ bit1 f.feb ++ f.xb ++ bit1 f.fea ++ f.xa ++ f.vd ++ BitVec.ofNat 6
    major ++ 1#2 : BitVec 96)

/-- Format VV with its fields in place (R134). -/
def packVV (major fn : Nat) (f : FVV) : BitVec 96 :=
  (0#32 ++ f.disp ++ bit1 f.fem ++ f.xm ++ f.rsvC ++ f.scope ++ f.g ++ f.rsvB ++ f.st ++ bit1
    f.rsvA ++ BitVec.ofNat 4 fn ++ bit1 f.feb ++ f.xb ++ bit1 f.fea ++ f.xa ++ f.vd ++
    BitVec.ofNat 6 major ++ 1#2 : BitVec 96)

/-- Format E2 with its fields in place (R134). -/
def packE2 (major fn : Nat) (f : FE2) : BitVec 96 :=
  (0#32 ++ f.ssem ++ f.wsem ++ bit1 f.cv2 ++ f.ct2 ++ bit1 f.cv1 ++ f.ct1 ++ bit1 f.cv0 ++
    f.ct0 ++ bit1 f.pv ++ f.pt ++ f.ord ++ bit1 f.sv ++ bit1 f.wv ++ f.scope ++ f.st ++ bit1
    f.fea ++ f.xa ++ BitVec.ofNat 3 fn ++ BitVec.ofNat 6 major ++ 1#2 : BitVec 96)

/-- Format E3 with its fields in place (R134). -/
def packE3 (major fn : Nat) (f : FE3) : BitVec 96 :=
  (f.imm ++ bit1 f.fec ++ f.xc ++ bit1 f.feb ++ f.xb ++ f.e.ssem ++ f.e.wsem ++ bit1 f.e.cv2
    ++ f.e.ct2 ++ bit1 f.e.cv1 ++ f.e.ct1 ++ bit1 f.e.cv0 ++ f.e.ct0 ++ bit1 f.e.pv ++ f.e.pt
    ++ f.e.ord ++ bit1 f.e.sv ++ bit1 f.e.wv ++ f.e.scope ++ f.e.st ++ bit1 f.e.fea ++ f.e.xa
    ++ BitVec.ofNat 3 fn ++ BitVec.ofNat 6 major ++ 2#2 : BitVec 96)

/-- LEN, the major opcode and the format (R144: reasons LENGTH, MAJOR and FORM), read from parcel 0. -/
def formatOfBits (x : BitVec 96) : Except Reason Format :=
  let len := (fld x 0 2).toNat
  let major := (fld x 2 6).toNat
  if len = 3 then .error .length
  else if majorKnown major = false then .error .major
  else match formatOf major (len + 1) with
    | some f => .ok f
    | none => .error .form

/-- The fields of the instruction's format. -/
def parse (x : BitVec 96) (f : Format) : Enc :=
  let major := (fld x 2 6).toNat
  match f with
  | .s => .s major (fld x 28 4).toNat (parseS x)
  | .si => .si major (parseSI x)
  | .sw => .sw major (fld x 28 4).toNat (parseSW x)
  | .x3 => .x3 major (fld x 28 4).toNat (parseX3 x)
  | .b => .b major (parseB x)
  | .bc => .bc major (parseBC x)
  | .m => .m major (fld x 28 4).toNat (parseM x)
  | .v => .v major (fld x 25 6).toNat (parseV x)
  | .vm => .vm major (fld x 27 4).toNat (parseVM x)
  | .vv => .vv major (fld x 27 4).toNat (parseVV x)
  | .e2 => .e2 major (fld x 8 3).toNat (parseE2 x)
  | .e3 => .e3 major (fld x 8 3).toNat (parseE3 x)

/-- The bits of an encoding. -/
def Enc.bits : Enc → BitVec 96
  | .s j k f => packS j k f
  | .si j f => packSI j f
  | .sw j k f => packSW j k f
  | .x3 j k f => packX3 j k f
  | .b j f => packB j f
  | .bc j f => packBC j f
  | .m j k f => packM j k f
  | .v j k f => packV j k f
  | .vm j k f => packVM j k f
  | .vv j k f => packVV j k f
  | .e2 j k f => packE2 j k f
  | .e3 j k f => packE3 j k f

/-- Parcels of an encoding. -/
def Enc.parcels : Enc → Nat
  | .s .. | .si .. | .b .. | .bc .. => 1
  | .sw .. | .m .. | .v .. | .vm .. | .vv .. | .e2 .. => 2
  | .x3 .. | .e3 .. => 3

/-- The instruction of a major and function value in format S (R142): a function value that the
major does not assign is FUNCTION, one whose entry lacks this format FORM. -/
def instrOfS (major fn : Nat) (f : FS) : Except Reason Instr :=
  match major, fn with
  | 0x00, 0 => .ok (.add f)
  | 0x00, 1 => .ok (.sub f)
  | 0x00, 2 => .ok (.mul f)
  | 0x00, 3 => .ok (.mulh f)
  | 0x00, 4 => .ok (.div f)
  | 0x00, 5 => .ok (.rem f)
  | 0x00, 6 => .ok (.and f)
  | 0x00, 7 => .ok (.or f)
  | 0x00, 8 => .ok (.xor f)
  | 0x00, 9 => .ok (.andn f)
  | 0x00, 10 => .ok (.shl f)
  | 0x00, 11 => .ok (.shr f)
  | 0x00, 12 => .ok (.shra f)
  | 0x00, 13 => .ok (.rotr f)
  | 0x00, 14 => .ok (.min f)
  | 0x00, 15 => .ok (.max f)
  | 0x01, 0 => .ok (.clz f)
  | 0x01, 1 => .ok (.ctz f)
  | 0x01, 2 => .ok (.popc f)
  | 0x01, 3 => .error .form
  | 0x01, 4 => .error .form
  | 0x01, 5 => .error .form
  | 0x01, 6 => .error .form
  | 0x01, 7 => .error .form
  | 0x01, 8 => .error .form
  | 0x01, 9 => .error .form
  | 0x0b, 0 => .ok (.jmp f)
  | 0x0b, 1 => .ok (.ret f)
  | 0x0f, 0 => .ok (.endTask f)
  | 0x0f, 1 => .ok (.spawn f)
  | 0x0f, 2 => .ok (.yield f)
  | 0x0f, 3 => .ok (.trap f)
  | 0x0f, 6 => .ok (.nop f)
  | 0x0f, 7 => .ok (.breakTask f)
  | 0x0f, 4 => .error .form
  | 0x0f, 5 => .error .form
  | 0x10, 0 => .ok (.fadd .f32 f)
  | 0x10, 1 => .ok (.fsub .f32 f)
  | 0x10, 2 => .ok (.fmul .f32 f)
  | 0x10, 3 => .ok (.fdiv .f32 f)
  | 0x10, 4 => .ok (.fsqrt .f32 f)
  | 0x10, 5 => .ok (.fmin .f32 f)
  | 0x10, 6 => .ok (.fmax .f32 f)
  | 0x10, 7 => .error .form
  | 0x10, 8 => .error .form
  | 0x10, 9 => .error .form
  | 0x11, 0 => .ok (.fadd .bf16 f)
  | 0x11, 1 => .ok (.fsub .bf16 f)
  | 0x11, 2 => .ok (.fmul .bf16 f)
  | 0x11, 3 => .ok (.fdiv .bf16 f)
  | 0x11, 4 => .ok (.fsqrt .bf16 f)
  | 0x11, 5 => .ok (.fmin .bf16 f)
  | 0x11, 6 => .ok (.fmax .bf16 f)
  | 0x11, 7 => .error .form
  | 0x11, 8 => .error .form
  | 0x11, 9 => .error .form
  | 0x12, 0 => .ok (.fadd .f16 f)
  | 0x12, 1 => .ok (.fsub .f16 f)
  | 0x12, 2 => .ok (.fmul .f16 f)
  | 0x12, 3 => .ok (.fdiv .f16 f)
  | 0x12, 4 => .ok (.fsqrt .f16 f)
  | 0x12, 5 => .ok (.fmin .f16 f)
  | 0x12, 6 => .ok (.fmax .f16 f)
  | 0x12, 7 => .error .form
  | 0x12, 8 => .error .form
  | 0x12, 9 => .error .form
  | 0x3e, 5 => .ok (.tlbinv f)
  | 0x3e, 6 => .ok (.replay f)
  | 0x3e, 7 => .ok (.quar f)
  | 0x3e, 8 => .ok (.qstat f)
  | 0x3e, 9 => .ok (.cfgdiff f)
  | 0x3e, 10 => .ok (.wlatch f)
  | 0x3e, 11 => .ok (.halt f)
  | 0x3e, 12 => .ok (.idle f)
  | 0x3e, 0 => .error .form
  | 0x3e, 1 => .error .form
  | 0x3e, 2 => .error .form
  | 0x3e, 3 => .error .form
  | 0x3e, 4 => .error .form
  | _, _ => .error .function

/-- The instruction of a major and function value in format SW (R142): a function value that the
major does not assign is FUNCTION, one whose entry lacks this format FORM. -/
def instrOfSW (major fn : Nat) (f : FSW) : Except Reason Instr :=
  match major, fn with
  | 0x00, 0 => .ok (.addSw f)
  | 0x00, 1 => .ok (.subSw f)
  | 0x00, 2 => .ok (.mulSw f)
  | 0x00, 3 => .ok (.mulhSw f)
  | 0x00, 4 => .ok (.divSw f)
  | 0x00, 5 => .ok (.remSw f)
  | 0x00, 6 => .ok (.andSw f)
  | 0x00, 7 => .ok (.orSw f)
  | 0x00, 8 => .ok (.xorSw f)
  | 0x00, 9 => .ok (.andnSw f)
  | 0x00, 10 => .ok (.shlSw f)
  | 0x00, 11 => .ok (.shrSw f)
  | 0x00, 12 => .ok (.shraSw f)
  | 0x00, 13 => .ok (.rotrSw f)
  | 0x00, 14 => .ok (.minSw f)
  | 0x00, 15 => .ok (.maxSw f)
  | 0x01, 0 => .ok (.clzSw f)
  | 0x01, 1 => .ok (.ctzSw f)
  | 0x01, 2 => .ok (.popcSw f)
  | 0x01, 3 => .ok (.sext f)
  | 0x01, 4 => .ok (.zext f)
  | 0x01, 5 => .ok (.setc f)
  | 0x01, 6 => .ok (.sel f)
  | 0x01, 7 => .ok (.lea f)
  | 0x01, 8 => .ok (.bfx f)
  | 0x01, 9 => .ok (.bfi f)
  | 0x02, 0 => .ok (.addiSw f)
  | 0x03, 0 => .ok (.andiSw f)
  | 0x04, 0 => .ok (.oriSw f)
  | 0x05, 0 => .ok (.xoriSw f)
  | 0x06, 0 => .ok (.moviSw f)
  | 0x0c, 0 => .ok (.lstart f)
  | 0x0f, 0 => .ok (.endTaskSw f)
  | 0x0f, 1 => .ok (.spawnSw f)
  | 0x0f, 2 => .ok (.yieldSw f)
  | 0x0f, 3 => .ok (.trapSw f)
  | 0x0f, 4 => .ok (.rdcr f)
  | 0x0f, 5 => .ok (.wrcr f)
  | 0x0f, 6 => .ok (.nopSw f)
  | 0x0f, 7 => .ok (.breakTaskSw f)
  | 0x10, 0 => .ok (.faddSw .f32 f)
  | 0x10, 1 => .ok (.fsubSw .f32 f)
  | 0x10, 2 => .ok (.fmulSw .f32 f)
  | 0x10, 3 => .ok (.fdivSw .f32 f)
  | 0x10, 4 => .ok (.fsqrtSw .f32 f)
  | 0x10, 5 => .ok (.fminSw .f32 f)
  | 0x10, 6 => .ok (.fmaxSw .f32 f)
  | 0x10, 7 => .ok (.fsetc .f32 f)
  | 0x10, 8 => .ok (.fcvt .f32 f)
  | 0x10, 9 => .ok (.ffma .f32 f)
  | 0x11, 0 => .ok (.faddSw .bf16 f)
  | 0x11, 1 => .ok (.fsubSw .bf16 f)
  | 0x11, 2 => .ok (.fmulSw .bf16 f)
  | 0x11, 3 => .ok (.fdivSw .bf16 f)
  | 0x11, 4 => .ok (.fsqrtSw .bf16 f)
  | 0x11, 5 => .ok (.fminSw .bf16 f)
  | 0x11, 6 => .ok (.fmaxSw .bf16 f)
  | 0x11, 7 => .ok (.fsetc .bf16 f)
  | 0x11, 8 => .ok (.fcvt .bf16 f)
  | 0x11, 9 => .ok (.ffma .bf16 f)
  | 0x12, 0 => .ok (.faddSw .f16 f)
  | 0x12, 1 => .ok (.fsubSw .f16 f)
  | 0x12, 2 => .ok (.fmulSw .f16 f)
  | 0x12, 3 => .ok (.fdivSw .f16 f)
  | 0x12, 4 => .ok (.fsqrtSw .f16 f)
  | 0x12, 5 => .ok (.fminSw .f16 f)
  | 0x12, 6 => .ok (.fmaxSw .f16 f)
  | 0x12, 7 => .ok (.fsetc .f16 f)
  | 0x12, 8 => .ok (.fcvt .f16 f)
  | 0x12, 9 => .ok (.ffma .f16 f)
  | 0x3e, 0 => .ok (.rdpr f)
  | 0x3e, 1 => .ok (.wrpr f)
  | 0x3e, 2 => .ok (.eret f)
  | 0x3e, 3 => .ok (.asave f)
  | 0x3e, 4 => .ok (.arest f)
  | 0x3e, 5 => .ok (.tlbinvSw f)
  | 0x3e, 6 => .ok (.replaySw f)
  | 0x3e, 7 => .ok (.quarSw f)
  | 0x3e, 8 => .ok (.qstatSw f)
  | 0x3e, 9 => .ok (.cfgdiffSw f)
  | 0x3e, 10 => .ok (.wlatchSw f)
  | 0x3e, 11 => .ok (.haltSw f)
  | 0x3e, 12 => .ok (.idleSw f)
  | _, _ => .error .function

/-- The instruction of a major and function value in format X3 (R142): a function value that the
major does not assign is FUNCTION, one whose entry lacks this format FORM. -/
def instrOfX3 (major fn : Nat) (f : FX3) : Except Reason Instr :=
  match major, fn with
  | 0x06, 0 => .ok (.moviX3 f)
  | _, _ => .error .function

/-- The instruction of a major and function value in format M (R142): a function value that the
major does not assign is FUNCTION, one whose entry lacks this format FORM. -/
def instrOfM (major fn : Nat) (f : FM) : Except Reason Instr :=
  match major, fn with
  | 0x18, _ => if fn < 7 then .ok (.ld (BitVec.ofNat 4 fn) f) else .error .function
  | 0x19, _ => if fn < 4 then .ok (.st (BitVec.ofNat 4 fn) f) else .error .function
  | _, _ => .error .function

/-- The instruction of a major and function value in format V (R142): a function value that the
major does not assign is FUNCTION, one whose entry lacks this format FORM. -/
def instrOfV (major fn : Nat) (f : FV) : Except Reason Instr :=
  match major, fn with
  | 0x20, 0 => .ok (.vadd f)
  | 0x20, 1 => .ok (.vsub f)
  | 0x20, 2 => .ok (.vmul f)
  | 0x20, 3 => .ok (.vfma f)
  | 0x20, 4 => .ok (.vfms f)
  | 0x20, 5 => .ok (.vmin f)
  | 0x20, 6 => .ok (.vmax f)
  | 0x20, 7 => .ok (.vabs f)
  | 0x20, 8 => .ok (.vneg f)
  | 0x20, 9 => .ok (.vcpys f)
  | 0x21, 0 => .ok (.vrcp f)
  | 0x21, 1 => .ok (.vrsq f)
  | 0x21, 2 => .ok (.vexp2 f)
  | 0x21, 3 => .ok (.vlog2 f)
  | 0x21, 4 => .ok (.vtanh f)
  | 0x21, 5 => .ok (.vsin f)
  | 0x21, 6 => .ok (.vcos f)
  | 0x22, 0 => .ok (.viadd f)
  | 0x22, 1 => .ok (.visub f)
  | 0x22, 2 => .ok (.vimul f)
  | 0x22, 3 => .ok (.vimad f)
  | 0x22, 4 => .ok (.vand f)
  | 0x22, 5 => .ok (.vor f)
  | 0x22, 6 => .ok (.vxor f)
  | 0x22, 7 => .ok (.vnot f)
  | 0x22, 8 => .ok (.vshl f)
  | 0x22, 9 => .ok (.vshr f)
  | 0x22, 10 => .ok (.vshra f)
  | 0x22, 11 => .ok (.vimin f)
  | 0x22, 12 => .ok (.vimax f)
  | 0x22, 13 => .ok (.viabs f)
  | 0x23, 0 => .ok (.vcmp f)
  | 0x23, 1 => .ok (.vsel f)
  | 0x24, 0 => .ok (.vcvt f)
  | 0x24, 1 => .ok (.vqnt f)
  | 0x24, 2 => .ok (.vdqt f)
  | 0x25, 0 => .ok (.vrsum f)
  | 0x25, 1 => .ok (.vrmax f)
  | 0x25, 2 => .ok (.vrmin f)
  | 0x25, 3 => .ok (.vscan f)
  | 0x26, 0 => .ok (.vtrn f)
  | 0x26, 1 => .ok (.vbcr f)
  | 0x26, 2 => .ok (.vbcc f)
  | 0x26, 3 => .ok (.vperm f)
  | 0x26, 4 => .ok (.vsld f)
  | 0x26, 5 => .ok (.vrot f)
  | 0x27, 0 => if f.mod.getLsbD 0 then .ok (.vmovWhole f) else .ok (.vmov f)
  | 0x27, 1 => .ok (.vspl f)
  | 0x27, 2 => .ok (.vext f)
  | 0x27, 3 => .ok (.vins f)
  | 0x27, 4 => .ok (.vidx f)
  | 0x28, 0 => .ok (.pset f)
  | 0x28, 1 => .ok (.pwhl f)
  | 0x28, 2 => .ok (.pmov f)
  | 0x28, 3 => .ok (.vsets f)
  | _, _ => .error .function

/-- The instruction of a major and function value in format VM (R142): a function value that the
major does not assign is FUNCTION, one whose entry lacks this format FORM. -/
def instrOfVM (major fn : Nat) (f : FVM) : Except Reason Instr :=
  match major, fn with
  | 0x30, 0 => .ok (.vld f)
  | 0x30, 1 => .ok (.vst f)
  | 0x30, 2 => .ok (.vldg f)
  | 0x30, 3 => .ok (.vstx f)
  | 0x30, 4 => .ok (.vldb f)
  | _, _ => .error .function

/-- The instruction of a major and function value in format VV (R142): a function value that the
major does not assign is FUNCTION, one whose entry lacks this format FORM. -/
def instrOfVV (major fn : Nat) (f : FVV) : Except Reason Instr :=
  match major, fn with
  | 0x31, 0 => .ok (.vldv f)
  | 0x31, 1 => .ok (.vstv f)
  | 0x31, 2 => .ok (.vqry f)
  | 0x31, 3 => .ok (.vrelv f)
  | _, _ => .error .function

/-- The instruction of a major and function value in format E2 (R142): a function value that the
major does not assign is FUNCTION, one whose entry lacks this format FORM. -/
def instrOfE2 (major fn : Nat) (f : FE2) : Except Reason Instr :=
  match major, fn with
  | 0x1a, 0 => .ok (.mark f)
  | 0x1a, 1 => .ok (.pf f)
  | 0x1a, 2 => .error .form
  | 0x38, 6 => .ok (.mzero f)
  | 0x38, 0 => .error .form
  | 0x38, 1 => .error .form
  | 0x38, 2 => .error .form
  | 0x38, 3 => .error .form
  | 0x38, 4 => .error .form
  | 0x38, 5 => .error .form
  | 0x38, 7 => .error .form
  | 0x3c, 5 => .ok (.sigs f)
  | 0x3c, 0 => .error .form
  | 0x3c, 1 => .error .form
  | 0x3c, 2 => .error .form
  | 0x3c, 3 => .error .form
  | 0x3c, 4 => .error .form
  | 0x3c, 6 => .error .form
  | 0x3c, 7 => .error .form
  | 0x39, 0 => .error .form
  | 0x39, 1 => .error .form
  | 0x39, 2 => .error .form
  | 0x3d, 0 => .error .form
  | 0x3d, 1 => .error .form
  | 0x3d, 2 => .error .form
  | 0x3d, 3 => .error .form
  | 0x3d, 4 => .error .form
  | _, _ => .error .function

/-- The instruction of a major and function value in format E3 (R142): a function value that the
major does not assign is FUNCTION, one whose entry lacks this format FORM. -/
def instrOfE3 (major fn : Nat) (f : FE3) : Except Reason Instr :=
  match major, fn with
  | 0x1a, 1 => .ok (.pfE3 f)
  | 0x1a, 2 => .ok (.sqld f)
  | 0x1a, 0 => .error .form
  | 0x38, 0 => .ok (.mrec f)
  | 0x38, 1 => .ok (.mldb f)
  | 0x38, 2 => .ok (.mma f)
  | 0x38, 3 => .ok (.mmav f)
  | 0x38, 4 => .ok (.mmag f)
  | 0x38, 5 => .ok (.mrank f)
  | 0x38, 7 => .ok (.mdrain f)
  | 0x38, 6 => .error .form
  | 0x39, 0 => .ok (.mmova f)
  | 0x39, 1 => .ok (.mmovv f)
  | 0x39, 2 => .ok (.mqry f)
  | 0x3c, 0 => .ok (.cpy f)
  | 0x3c, 1 => .ok (.cpyv f)
  | 0x3c, 2 => .ok (.cpys f)
  | 0x3c, 3 => if f.imm.toNat / 4 % 16 = 9 then .ok (.acwArrive f) else .ok (.acw f)
  | 0x3c, 4 => .ok (.waits f)
  | 0x3c, 5 => .ok (.sigsE3 f)
  | 0x3c, 6 => .ok (.semrd f)
  | 0x3c, 7 => .ok (.waitb f)
  | 0x3d, 0 => .ok (.fqpost f)
  | 0x3d, 1 => .ok (.fmbox f)
  | 0x3d, 2 => .ok (.fput f)
  | 0x3d, 3 => .ok (.fflush f)
  | 0x3d, 4 => .ok (.launch f)
  | _, _ => .error .function

/-- The instruction of a major in format SI (R142). -/
def instrOfSI (major : Nat) (f : FSI) : Except Reason Instr :=
  match major with
  | 0x02 => .ok (.addi f)
  | 0x03 => .ok (.andi f)
  | 0x04 => .ok (.ori f)
  | 0x05 => .ok (.xori f)
  | 0x06 => .ok (.movi f)
  | _ => .error .form

/-- The instruction of a major in format B (R142). -/
def instrOfB (major : Nat) (f : FB) : Except Reason Instr :=
  match major with
  | 0x08 => .ok (.br f)
  | 0x09 => .ok (.call f)
  | 0x0d => .ok (.lnext f)
  | 0x0e => .ok (.lexit f)
  | _ => .error .form

/-- The instruction of a major in format BC (R142). -/
def instrOfBC (major : Nat) (f : FBC) : Except Reason Instr :=
  match major with
  | 0x0a => .ok (.bc f)
  | _ => .error .form

/-- The instruction that an encoding stands for (R142). -/
def instrOf : Enc → Except Reason Instr
  | .s m n f => instrOfS m n f
  | .si m f => instrOfSI m f
  | .sw m n f => instrOfSW m n f
  | .x3 m n f => instrOfX3 m n f
  | .b m f => instrOfB m f
  | .bc m f => instrOfBC m f
  | .m m n f => instrOfM m n f
  | .v m n f => instrOfV m n f
  | .vm m n f => instrOfVM m n f
  | .vv m n f => instrOfVV m n f
  | .e2 m n f => instrOfE2 m n f
  | .e3 m n f => instrOfE3 m n f

/-- The scanner's field check after the instruction is known (R144: reason FIELD). -/
def checkFields (i : Instr) : Except Reason Instr :=
  if i.wf then .ok i else .error .field

/-- Decode the bits of one instruction, bit 0 the least significant bit of parcel 0, with every bit
above the instruction ignored; the reasons are tried in ascending order (R144). -/
def decodeBits (x : BitVec 96) : Except Reason Instr := do
  let f ← formatOfBits x
  let i ← instrOf (parse x f)
  checkFields i

/-- Parcels of the instruction that begins with parcel 0 of `x`, 1 where LEN is reserved (R133). -/
def lengthOfBits (x : BitVec 96) : Nat :=
  match (fld x 0 2).toNat with
  | 1 => 2
  | 2 => 3
  | _ => 1

/-- Bits for the parcels that are not there of an instruction in a format, of which `n` are: among them, for every
choice of the parcels that are there, bits that pass the checks of R136 and R143 if any bits do. -/
def cutFillers (f : Format) (n : Nat) : List (BitVec 96) :=
  let at1 := fun (v : Nat) => BitVec.ofNat 96 (v * 2 ^ 32)
  let pair := fun (a b : List Nat) => (a.map fun x => b.map fun y => x + y).flatten
  let bits := fun (k lo : Nat) => (List.range (2 ^ k)).map (· * 2 ^ lo)
  let imms := bits 12 (32 + 14)
  match f, n with
  | .sw, 1 => [0, 1, 2, 64, 384].map fun i => at1 (i * 2 ^ 10)
  | .v, 1 => (pair (pair [64, 64 + 8] (bits 4 9)) (pair (bits 5 26) (bits 1 31))).map at1
  | .vm, 1 => [at1 64, at1 (64 + 8)]
  | .vv, 1 => [at1 64]
  | .e2, 1 => [0, at1 1]
  | .e3, 1 => (pair [0, 1] imms).map at1
  | .e3, _ => imms.map at1
  | _, _ => [0]

/-- An instruction of which the end of its section leaves only `n` parcels: the reason up to FIELD that they settle,
or an instruction that they begin (R144). -/
def decodeCut (x : BitVec 96) (n : Nat) : Except Reason Instr := do
  let f ← formatOfBits x
  match (cutFillers f n).findSome? fun y => (decodeBits (x ||| y)).toOption with
  | some i => .ok i
  | none => decodeBits x

/-- Little-endian value of a list of bytes. -/
def leNat : List (BitVec 8) → Nat
  | [] => 0
  | b :: bs => b.toNat + 256 * leNat bs

/-- The first `n` bytes of a number, little-endian. -/
def leBytes : Nat → Nat → List (BitVec 8)
  | 0, _ => []
  | n + 1, v => BitVec.ofNat 8 v :: leBytes n (v / 256)

/-- Decode the first instruction of a list of bytes (R133: parcels little-endian at rising word
addresses), with the bytes that follow it.  Total: bytes that are no instruction give the reason of
R144. -/
def decode (bs : List (BitVec 8)) : Except Reason (Instr × List (BitVec 8)) :=
  if bs.length < 4 then .error .truncated
  else
    let n := 4 * lengthOfBits (BitVec.ofNat 96 (leNat (bs.take 4)))
    let x := BitVec.ofNat 96 (leNat (bs.take n))
    if bs.length < n then
      match decodeCut x (bs.length / 4) with
      | .error e => .error e
      | .ok _ => .error .truncated
    else
      match decodeBits x with
      | .error e => .error e
      | .ok i => .ok (i, bs.drop n)

/-- Major opcode of the scalar floating-point type (R142). -/
def FTy.major : FTy → Nat
  | .f32 => 0x10
  | .bf16 => 0x11
  | .f16 => 0x12

/-- The encoding of an instruction form (R142); a step of the part has none. -/
def encOf (i : Instr) : Option Enc :=
  match i with
  | .add f => some (.s 0x00 0 f)
  | .addSw f => some (.sw 0x00 0 f)
  | .sub f => some (.s 0x00 1 f)
  | .subSw f => some (.sw 0x00 1 f)
  | .mul f => some (.s 0x00 2 f)
  | .mulSw f => some (.sw 0x00 2 f)
  | .mulh f => some (.s 0x00 3 f)
  | .mulhSw f => some (.sw 0x00 3 f)
  | .div f => some (.s 0x00 4 f)
  | .divSw f => some (.sw 0x00 4 f)
  | .rem f => some (.s 0x00 5 f)
  | .remSw f => some (.sw 0x00 5 f)
  | .and f => some (.s 0x00 6 f)
  | .andSw f => some (.sw 0x00 6 f)
  | .or f => some (.s 0x00 7 f)
  | .orSw f => some (.sw 0x00 7 f)
  | .xor f => some (.s 0x00 8 f)
  | .xorSw f => some (.sw 0x00 8 f)
  | .andn f => some (.s 0x00 9 f)
  | .andnSw f => some (.sw 0x00 9 f)
  | .shl f => some (.s 0x00 10 f)
  | .shlSw f => some (.sw 0x00 10 f)
  | .shr f => some (.s 0x00 11 f)
  | .shrSw f => some (.sw 0x00 11 f)
  | .shra f => some (.s 0x00 12 f)
  | .shraSw f => some (.sw 0x00 12 f)
  | .rotr f => some (.s 0x00 13 f)
  | .rotrSw f => some (.sw 0x00 13 f)
  | .min f => some (.s 0x00 14 f)
  | .minSw f => some (.sw 0x00 14 f)
  | .max f => some (.s 0x00 15 f)
  | .maxSw f => some (.sw 0x00 15 f)
  | .clz f => some (.s 0x01 0 f)
  | .clzSw f => some (.sw 0x01 0 f)
  | .ctz f => some (.s 0x01 1 f)
  | .ctzSw f => some (.sw 0x01 1 f)
  | .popc f => some (.s 0x01 2 f)
  | .popcSw f => some (.sw 0x01 2 f)
  | .sext f => some (.sw 0x01 3 f)
  | .zext f => some (.sw 0x01 4 f)
  | .setc f => some (.sw 0x01 5 f)
  | .sel f => some (.sw 0x01 6 f)
  | .lea f => some (.sw 0x01 7 f)
  | .bfx f => some (.sw 0x01 8 f)
  | .bfi f => some (.sw 0x01 9 f)
  | .addi f => some (.si 0x02 f)
  | .addiSw f => some (.sw 0x02 0 f)
  | .andi f => some (.si 0x03 f)
  | .andiSw f => some (.sw 0x03 0 f)
  | .ori f => some (.si 0x04 f)
  | .oriSw f => some (.sw 0x04 0 f)
  | .xori f => some (.si 0x05 f)
  | .xoriSw f => some (.sw 0x05 0 f)
  | .movi f => some (.si 0x06 f)
  | .moviSw f => some (.sw 0x06 0 f)
  | .moviX3 f => some (.x3 0x06 0 f)
  | .br f => some (.b 0x08 f)
  | .call f => some (.b 0x09 f)
  | .bc f => some (.bc 0x0a f)
  | .jmp f => some (.s 0x0b 0 f)
  | .ret f => some (.s 0x0b 1 f)
  | .lstart f => some (.sw 0x0c 0 f)
  | .lnext f => some (.b 0x0d f)
  | .lexit f => some (.b 0x0e f)
  | .endTask f => some (.s 0x0f 0 f)
  | .endTaskSw f => some (.sw 0x0f 0 f)
  | .spawn f => some (.s 0x0f 1 f)
  | .spawnSw f => some (.sw 0x0f 1 f)
  | .yield f => some (.s 0x0f 2 f)
  | .yieldSw f => some (.sw 0x0f 2 f)
  | .trap f => some (.s 0x0f 3 f)
  | .trapSw f => some (.sw 0x0f 3 f)
  | .rdcr f => some (.sw 0x0f 4 f)
  | .wrcr f => some (.sw 0x0f 5 f)
  | .nop f => some (.s 0x0f 6 f)
  | .nopSw f => some (.sw 0x0f 6 f)
  | .breakTask f => some (.s 0x0f 7 f)
  | .breakTaskSw f => some (.sw 0x0f 7 f)
  | .fadd ty f => some (.s ty.major 0 f)
  | .faddSw ty f => some (.sw ty.major 0 f)
  | .fsub ty f => some (.s ty.major 1 f)
  | .fsubSw ty f => some (.sw ty.major 1 f)
  | .fmul ty f => some (.s ty.major 2 f)
  | .fmulSw ty f => some (.sw ty.major 2 f)
  | .fdiv ty f => some (.s ty.major 3 f)
  | .fdivSw ty f => some (.sw ty.major 3 f)
  | .fsqrt ty f => some (.s ty.major 4 f)
  | .fsqrtSw ty f => some (.sw ty.major 4 f)
  | .fmin ty f => some (.s ty.major 5 f)
  | .fminSw ty f => some (.sw ty.major 5 f)
  | .fmax ty f => some (.s ty.major 6 f)
  | .fmaxSw ty f => some (.sw ty.major 6 f)
  | .fsetc ty f => some (.sw ty.major 7 f)
  | .fcvt ty f => some (.sw ty.major 8 f)
  | .ffma ty f => some (.sw ty.major 9 f)
  | .ld fn f => some (.m 0x18 fn.toNat f)
  | .st fn f => some (.m 0x19 fn.toNat f)
  | .mark f => some (.e2 0x1a 0 f)
  | .pf f => some (.e2 0x1a 1 f)
  | .pfE3 f => some (.e3 0x1a 1 f)
  | .sqld f => some (.e3 0x1a 2 f)
  | .vadd f => some (.v 0x20 0 f)
  | .vsub f => some (.v 0x20 1 f)
  | .vmul f => some (.v 0x20 2 f)
  | .vfma f => some (.v 0x20 3 f)
  | .vfms f => some (.v 0x20 4 f)
  | .vmin f => some (.v 0x20 5 f)
  | .vmax f => some (.v 0x20 6 f)
  | .vabs f => some (.v 0x20 7 f)
  | .vneg f => some (.v 0x20 8 f)
  | .vcpys f => some (.v 0x20 9 f)
  | .vrcp f => some (.v 0x21 0 f)
  | .vrsq f => some (.v 0x21 1 f)
  | .vexp2 f => some (.v 0x21 2 f)
  | .vlog2 f => some (.v 0x21 3 f)
  | .vtanh f => some (.v 0x21 4 f)
  | .vsin f => some (.v 0x21 5 f)
  | .vcos f => some (.v 0x21 6 f)
  | .viadd f => some (.v 0x22 0 f)
  | .visub f => some (.v 0x22 1 f)
  | .vimul f => some (.v 0x22 2 f)
  | .vimad f => some (.v 0x22 3 f)
  | .vand f => some (.v 0x22 4 f)
  | .vor f => some (.v 0x22 5 f)
  | .vxor f => some (.v 0x22 6 f)
  | .vnot f => some (.v 0x22 7 f)
  | .vshl f => some (.v 0x22 8 f)
  | .vshr f => some (.v 0x22 9 f)
  | .vshra f => some (.v 0x22 10 f)
  | .vimin f => some (.v 0x22 11 f)
  | .vimax f => some (.v 0x22 12 f)
  | .viabs f => some (.v 0x22 13 f)
  | .vcmp f => some (.v 0x23 0 f)
  | .vsel f => some (.v 0x23 1 f)
  | .vcvt f => some (.v 0x24 0 f)
  | .vqnt f => some (.v 0x24 1 f)
  | .vdqt f => some (.v 0x24 2 f)
  | .vrsum f => some (.v 0x25 0 f)
  | .vrmax f => some (.v 0x25 1 f)
  | .vrmin f => some (.v 0x25 2 f)
  | .vscan f => some (.v 0x25 3 f)
  | .vtrn f => some (.v 0x26 0 f)
  | .vbcr f => some (.v 0x26 1 f)
  | .vbcc f => some (.v 0x26 2 f)
  | .vperm f => some (.v 0x26 3 f)
  | .vsld f => some (.v 0x26 4 f)
  | .vrot f => some (.v 0x26 5 f)
  | .vmov f => some (.v 0x27 0 f)
  | .vmovWhole f => some (.v 0x27 0 f)
  | .vspl f => some (.v 0x27 1 f)
  | .vext f => some (.v 0x27 2 f)
  | .vins f => some (.v 0x27 3 f)
  | .vidx f => some (.v 0x27 4 f)
  | .pset f => some (.v 0x28 0 f)
  | .pwhl f => some (.v 0x28 1 f)
  | .pmov f => some (.v 0x28 2 f)
  | .vsets f => some (.v 0x28 3 f)
  | .vld f => some (.vm 0x30 0 f)
  | .vst f => some (.vm 0x30 1 f)
  | .vldg f => some (.vm 0x30 2 f)
  | .vstx f => some (.vm 0x30 3 f)
  | .vldb f => some (.vm 0x30 4 f)
  | .vldv f => some (.vv 0x31 0 f)
  | .vstv f => some (.vv 0x31 1 f)
  | .vqry f => some (.vv 0x31 2 f)
  | .vrelv f => some (.vv 0x31 3 f)
  | .mrec f => some (.e3 0x38 0 f)
  | .mldb f => some (.e3 0x38 1 f)
  | .mma f => some (.e3 0x38 2 f)
  | .mmav f => some (.e3 0x38 3 f)
  | .mmag f => some (.e3 0x38 4 f)
  | .mrank f => some (.e3 0x38 5 f)
  | .mzero f => some (.e2 0x38 6 f)
  | .mdrain f => some (.e3 0x38 7 f)
  | .mmova f => some (.e3 0x39 0 f)
  | .mmovv f => some (.e3 0x39 1 f)
  | .mqry f => some (.e3 0x39 2 f)
  | .cpy f => some (.e3 0x3c 0 f)
  | .cpyv f => some (.e3 0x3c 1 f)
  | .cpys f => some (.e3 0x3c 2 f)
  | .acw f => some (.e3 0x3c 3 f)
  | .acwArrive f => some (.e3 0x3c 3 f)
  | .waits f => some (.e3 0x3c 4 f)
  | .sigs f => some (.e2 0x3c 5 f)
  | .sigsE3 f => some (.e3 0x3c 5 f)
  | .semrd f => some (.e3 0x3c 6 f)
  | .waitb f => some (.e3 0x3c 7 f)
  | .fqpost f => some (.e3 0x3d 0 f)
  | .fmbox f => some (.e3 0x3d 1 f)
  | .fput f => some (.e3 0x3d 2 f)
  | .fflush f => some (.e3 0x3d 3 f)
  | .launch f => some (.e3 0x3d 4 f)
  | .rdpr f => some (.sw 0x3e 0 f)
  | .wrpr f => some (.sw 0x3e 1 f)
  | .eret f => some (.sw 0x3e 2 f)
  | .asave f => some (.sw 0x3e 3 f)
  | .arest f => some (.sw 0x3e 4 f)
  | .tlbinv f => some (.s 0x3e 5 f)
  | .tlbinvSw f => some (.sw 0x3e 5 f)
  | .replay f => some (.s 0x3e 6 f)
  | .replaySw f => some (.sw 0x3e 6 f)
  | .quar f => some (.s 0x3e 7 f)
  | .quarSw f => some (.sw 0x3e 7 f)
  | .qstat f => some (.s 0x3e 8 f)
  | .qstatSw f => some (.sw 0x3e 8 f)
  | .cfgdiff f => some (.s 0x3e 9 f)
  | .cfgdiffSw f => some (.sw 0x3e 9 f)
  | .wlatch f => some (.s 0x3e 10 f)
  | .wlatchSw f => some (.sw 0x3e 10 f)
  | .halt f => some (.s 0x3e 11 f)
  | .haltSw f => some (.sw 0x3e 11 f)
  | .idle f => some (.s 0x3e 12 f)
  | .idleSw f => some (.sw 0x3e 12 f)
  | _ => none

/-- The bytes of an instruction form (R133), nothing for a step. -/
def encode (i : Instr) : List (BitVec 8) :=
  match encOf i with
  | some e => leBytes (4 * e.parcels) e.bits.toNat
  | none => []

/-- What the decoder reads from an instruction whose bits are `w`, bit 0 the least significant bit of
parcel 0; every bit from `nbits` up is 0.  The parcels stand little-endian in memory (R133), and the
decoder gets as many bytes as the longest instruction has. -/
def decodeTableWord (nbits w : Nat) : Option Instr :=
  match decode (leBytes 12 (w % 2 ^ nbits)) with
  | .ok (i, _) => some i
  | .error _ => none

end Sys2Proof
end

