-- ==== Sys2Proof/Machine/State.lean ====
section
/-! DEFINITION. Everything the machine holds: one package of four dies, sixteen clusters each, eight
cores each.  Other packages, the host and the links' far ends are outside; what comes from them stands
in `State.agenda`, what goes to them in `State.outbox`.  Plain data only. -/

namespace Sys2Proof.Machine

/-- Faults of the model itself.  The faults of the spec are next states (R38, R363). -/
inductive Fault where
  /-- An instruction row was executed while no task is selected for issue.  Raised by the operation
  that finds the issuing task.  Safe: no run of `step` executes an instruction without one. -/
  | noTask
  deriving DecidableEq, Repr

/-- What the model refuses. -/
inductive Refusal where
  /-- The instruction has no meaning yet; `mnemonic` as in the opcode table.  Safe. -/
  | notModelled (mnemonic : String)
  /-- The bytes at the PC are no instruction, which no scanned section holds (R147).  Raised by `step`.
  Safe: the machine stops where the hardware would take a machine check. -/
  | undecodable
  /-- The agenda of a state names an instruction form, which only a task's fetch may bring.  Raised by
  `step`.  Safe: such an agenda stands for no input. -/
  | notAnEvent
  deriving DecidableEq, Repr

/-- Where a byte lives. -/
inductive Loc where
  /-- This package's memory: `key` is die × 2^46 + local address, or a scratchpad byte (R99, R93). -/
  | mem (key : Nat)
  /-- Host memory: offset from device local 0x2000_0000_0000 on CD0 (R413). -/
  | host (off : Nat)
  /-- Memory of another package of the domain: package, die × 2^46 + local address (R100). -/
  | remote (pkg addr : Nat)
  /-- A granule of a V-region of the issuing context, by its region number (R101). -/
  | region (n : Nat)
  deriving DecidableEq, Repr

/-- One thing that a token stands for (R81, R125). -/
inductive Dep where
  /-- An engine command, by name. -/
  | cmd (id : Nat)
  /-- A MARK: every queue entry of the team named below `seq` has taken its value or been accepted. -/
  | mem (team seq : Nat)
  deriving DecidableEq, Repr

/-- A token (R81); it is done once nothing in the list is outstanding. -/
inductive Tok where
  | unproduced
  | produced (deps : List Dep)
  deriving DecidableEq, Repr

/-- Why a task stands still after an instruction that holds younger ones. -/
inductive Hold where
  | free
  /-- A VLDV or VSTV waits for the version controllers' answer (R216, R218). -/
  | answer (id : Nat)
  /-- A BREAK waits for its record's release (R179, R322). -/
  | brk
  /-- A HALT waits until the cores that it asked, which ran the context as it reached them, have halted it (R328). -/
  | halting (ctx : Nat) (cores : List Nat)
  /-- A WAITS or WAITB has issued, and the task ends once its older accesses have translated (R34, R250); its
  continuation stands under this name. -/
  | ending (rec : Nat)
  deriving DecidableEq, Repr

/-- A continuation record (R33), with the registers it carries. -/
structure Rec where
  id : Nat
  pc : W64
  live : W64
  regs : Tab W64
  /-- KIND: 0 SPAWN, 1 WAITS, 2 WAITB, 3 VLDV, 4 YIELD, 5 handler. -/
  kind : Nat
  /-- STATE: 0 parked, 1 ready, 2 running, 3 aborted for requeue. -/
  state : Nat
  obj : W64
  arg : W64
  deadline : Nat
  status : Nat
  scope : Nat
  /-- Units of 64 bytes in the pool (R37). -/
  units : Nat
  /-- Global physical addresses of its units, the header's first (R33, R37). -/
  places : List Nat
  /-- TASKID of the task that started from it and was aborted (R92). -/
  seq : Option (BitVec 32)
  /-- Tokens that the wait's request still waits for (R262, R268). -/
  deps : List Dep
  /-- GNOMON at which it parked. -/
  since : Nat
  deriving DecidableEq, Repr

/-- A running task (R30). -/
structure Task where
  pc : W64
  x : Tab W64
  /-- Bit i set: xi is empty (R84). -/
  xEmpty : BitVec 64
  /-- Physical vector registers: key = register × 16 + row. -/
  v : Tab Row
  /-- Bit i set: physical register i is empty. -/
  vEmpty : BitVec 32
  /-- p1 to p7; a register not listed holds 0x3FFF (R78). -/
  p : Tab (BitVec 16)
  /-- k0 to k15; a token not listed is unproduced. -/
  tok : Tab Tok
  rows : BitVec 5
  cols : BitVec 9
  wc : BitVec 2
  left : BitVec 35
  active : BitVec 8
  last : BitVec 3
  rs : BitVec 4
  rrb : BitVec 4
  semBase : BitVec 8
  seq : BitVec 32
  /-- Return stack, newest first (R163). -/
  ret : List W64
  /-- The fault that the target of the last transfer met in translation, raised as it is fetched (R164). -/
  badFetch : Option Nat
  /-- The record it started from; none for a team's first task. -/
  origin : Option Nat
  /-- MARKs not yet satisfied, each with all it waits for (R211). -/
  marks : List (List Dep)
  /-- Acquire loads that have not taken their value (R121). -/
  acqs : List Nat
  hold : Hold
  /-- Handler task: a further fault terminates the launch (R40, R364). -/
  handler : Bool
  /-- The model's mark: the last attempt to issue was held (R13). -/
  held : Bool
  /-- The model's stamp of the last issue (R340). -/
  issued : Nat
  deriving DecidableEq, Repr

/-- A logical B-buffer's load descriptor (R223). -/
structure BufDesc where
  /-- The 64-byte record. -/
  record : BitVec 512
  k0 : Nat
  n0 : Nat
  passes : Nat
  kend : Nat
  ncount : Nat
  /-- Name of the load, to tell whose tile a physical buffer holds. -/
  stamp : Nat
  deriving DecidableEq, Repr

/-- What a physical B-buffer holds (R226, R397). -/
structure PhysBuf where
  team : Nat
  stamp : Nat
  /-- Tile bytes: column n at n × 2048 (one element string of P passes). -/
  cols : Tab (BitVec 16384)
  /-- Scale codes: column n, block j at n × 128 + j. -/
  scales : Tab (BitVec 8)
  /-- Section whose measurement admitted a sealed fill (R226), with its grant. -/
  sect : Option Nat
  grant : Option Nat
  deriving DecidableEq, Repr

/-- A team record (R24 to R30, R223, R379). -/
structure Team where
  ctx : Nat
  slot : Nat
  index : Nat
  /-- Core it occupies; none while it migrates. -/
  core : Option Nat
  /-- Team slot of the core. -/
  tslot : Nat
  allot : Nat
  acct : Nat
  prio : Nat
  /-- Logical tile i is physical tile `tiles[i]` (R80). -/
  tiles : List Nat
  tilesUsed : List Nat
  /-- Groups as (number, count, rank) in ascending number (R23). -/
  groups : List (Nat × Nat × Nat)
  fpmode : BitVec 4
  fpflags : BitVec 5
  sat : Bool
  scales : List (BitVec 8)
  /-- SQLDs outstanding, oldest first: name and places reserved (R214). -/
  sqPend : List (Nat × Nat)
  qrec : Tab (BitVec 512)
  bufs : Tab BufDesc
  task : Option Task
  /-- The first task's aborted run awaits ERET (R365). -/
  startAborted : Bool
  /-- TASKID of an aborted first task. -/
  startSeq : Option (BitVec 32)
  recs : List Rec
  /-- Ready tasks, oldest first: record names, 0 for START (R36). -/
  ready : List Nat
  started : BitVec 32
  /-- 4 KiB regions of the allotment written since placement (R381). -/
  dirty : BitVec 512
  mqCode : BitVec 8
  /-- Refusals recorded per target since the last FFLUSH to it: target (bit 10 Ethernet) and first code. -/
  refusals : List (Nat × Nat)
  /-- Puts and entry messages not yet performed at their targets: name, target, and for a put its task's TASKID. -/
  posted : List (Nat × Nat × Option (BitVec 32))
  /-- Launch terminated: no further task starts (R40). -/
  dead : Bool
  deriving DecidableEq, Repr

/-- A piece of at most 8 aligned bytes of a load or store (R128), or a versioned granule of 128. -/
structure Piece where
  va : W64
  len : Nat
  loc : Option Loc
  mkey : Nat
  /-- The alignment that the access's entry asks for is met (R205). -/
  aligned : Bool
  /-- Store data, or the value taken. -/
  data : BitVec 64
  /-- Bits of `data` that a store writes. -/
  mask : BitVec 64
  /-- 0 in the queue; 1 to 5 the points of R114 reached; a load has taken its value at 4. -/
  stage : Nat
  epoch : Nat
  /-- Stamps of its acceptance by the port, the crossbar and the die network (R114). -/
  in1 : Nat
  in2 : Nat
  in3 : Nat
  deriving DecidableEq, Repr

/-- One run of bits that a vector load moves into a row. -/
structure Run where
  /-- Physical register × 16 + row. -/
  row : Nat
  dstBit : Nat
  /-- First bit of the source, counted from virtual address 0. -/
  srcBit : Nat
  nbits : Nat
  /-- Bits of the row written as zero after the run (inactive elements under Z). -/
  zero : Nat
  /-- The pieces that hold it: the first and how many. -/
  first : Nat
  count : Nat
  deriving DecidableEq, Repr

/-- Where a load's value goes. -/
inductive LoadDst where
  | none
  /-- Scalar register, bytes, sign extension (R206). -/
  | x (d : Nat) (bytes : Nat) (signed : Bool)
  | v (regs : List Nat) (runs : List Run)
  deriving DecidableEq, Repr

/-- What a queue entry is. -/
inductive AccKind where
  | load | store | prefetch
  /-- Writes of an engine command, past the core's port (R125). -/
  | engine
  /-- VQRY, VLDV, VSTV, VRELV: the work itself is the versioned request of the same name. -/
  | ver
  /-- The reads of an SQLD (R213). -/
  | scales
  deriving DecidableEq, Repr

/-- An entry of a core's load or store queue (R204, R366). -/
structure Access where
  id : Nat
  team : Nat
  ctx : Nat
  seq : BitVec 32
  pc : W64
  kind : AccKind
  entries : Nat
  /-- Some piece still waits for a translation (R355). -/
  xlate : Bool
  pieces : List Piece
  dst : LoadDst
  /-- Scope of a release (R120). -/
  rel : Option Nat
  acq : Bool
  /-- Pieces take their values in their order (R209). -/
  inOrder : Bool
  /-- Pieces that make one atomic unit: 16 for the granules of a CPYV read, else 1 (R128). -/
  grain : Nat
  /-- The engine command or SQLD it belongs to, else 0. -/
  cmd : Nat
  deriving DecidableEq, Repr

/-- A long-latency result on its way to its registers (R84, R86). -/
structure Result where
  id : Nat
  team : Nat
  xs : Option (Nat × W64)
  rows : Tab Row
  regs : List Nat
  deriving DecidableEq, Repr

/-- The queues that commands wait in (R223, R248). -/
inductive Queue where
  | matrix
  | copy (ch : Nat)
  | sync
  | fput
  | fabric
  | mailbox
  /-- SQLDs (R213). -/
  | scale
  deriving DecidableEq, Repr

/-- What a wait field has come to (R141, R261). -/
inductive WaitSt where
  | none | waiting | granted
  deriving DecidableEq, Repr

/-- An engine command, with the values it read at issue (R228, R250). -/
structure Cmd where
  id : Nat
  instr : Instr
  queue : Queue
  team : Nat
  ctx : Nat
  core : Nat
  pc : W64
  seq : BitVec 32
  xa : W64
  xb : W64
  xc : W64
  ftz : Bool
  /-- Vector rows read at issue (MMAV, MMOVV). -/
  rows : List Row
  deps : List Dep
  wait : WaitSt
  wsem : Nat
  sig : Option Nat
  scope : Nat
  /-- Physical tile, where the command uses one. -/
  tile : Option Nat
  /-- Physical vector registers or the scalar register it fills. -/
  regs : List Nat
  started : Bool
  parked : Bool
  /-- A REPLAY or a restore has reached the parked command (R326, R368). -/
  retry : Bool
  /-- A request is on its way; for a matrix command, it holds the array (R224). -/
  sent : Bool
  dead : Bool
  /-- MPC: segment, pass, row; `chunk` of a copy or element of an ACW, message of an FPUT. -/
  seg : Nat
  pass : Nat
  row : Nat
  chunk : Nat
  /-- Columns of the current segment or buffer: P of it. -/
  passes : Nat
  /-- Comparands of a cas. -/
  vals : List W64
  /-- Translated units of a command that has been translated whole: an ACW's elements, then its return
  array. -/
  units : List Piece
  /-- B-buffer in use: number and the load's stamp. -/
  buf : Option (Nat × Nat)
  /-- Segment status while a refused segment is being cleared. -/
  status : Nat
  /-- Code section that holds the PC, for R232. -/
  sect : Option Nat
  /-- Scale codes drawn for the current pass row. -/
  drawn : List (BitVec 8)
  /-- Create held on PWAIT (R255). -/
  held : Bool
  /-- Fault code it parked with. -/
  code : Nat
  deriving DecidableEq, Repr

/-- Interval of the range scoreboard (R110). -/
structure SbEntry where
  cmd : Nat
  /-- 0 translated, 1 scratchpad window, 2 CSM window (R111). -/
  form : Nat
  team : Nat
  ctx : Nat
  lo : Nat
  hi : Nat
  deriving DecidableEq, Repr

/-- A TLB entry (R355): the leaf as the walk read it. -/
structure TlbEntry where
  ctx : Nat
  /-- Virtual page number: address / 2^16, or / 2^29 when `big`. -/
  vpn : Nat
  big : Bool
  leaf : BitVec 64
  deriving DecidableEq, Repr

/-- A line of the instruction cache (R10, R145, R325): context and virtual page under which it was fetched,
the line's number in memory (key / 128), and its bytes. -/
structure ILine where
  ctx : Nat
  vpn : Nat
  line : Nat
  bytes : BitVec 1024
  deriving DecidableEq, Repr

/-- An entry of a core's ready-task queue (R36): team, record, and the step since which it has been ready. -/
structure Waiting where
  team : Nat
  record : Nat
  since : Nat
  deriving DecidableEq, Repr

/-- A scan request as the scanner has read it (R360), once its frames are locked: the section that it is to
become, its slot's key, and the frame addresses that it lists. -/
structure ScanJob where
  sect : Nat
  key : Nat
  cls : Nat
  ctx : Nat
  vbase : Nat
  sem : Nat
  mkey : Nat
  gpas : List Nat
  deriving DecidableEq, Repr

/-- A core. -/
structure Core where
  /-- Active plane: 128 words (R315); a word not listed is 0. -/
  plane : Tab W64
  shadow : Tab W64
  /-- CFGSTAT.SHADOW (R318). -/
  shadowSt : BitVec 2
  /-- ACCOWN (R318): bits 11:0 CTX, bit 15 VALID. -/
  accown : Tab (BitVec 16)
  /-- Accumulator tiles: key = tile × 128 + row. -/
  acc : Tab AccRow
  bufs : Tab PhysBuf
  loads : List Access
  stores : List Access
  results : List Result
  cmds : List Cmd
  sb : List SbEntry
  lfsr : BitVec 32
  tlb : List TlbEntry
  /-- Instruction cache, the line filled last first (R10). -/
  icache : List ILine
  /-- Ready-task queue and the tasks that have spilled, each oldest first (R36, R341). -/
  queue : List Waiting
  spilled : List Waiting
  /-- Passed its self-test (R420). -/
  usable : Bool
  /-- GNOMON at which the present quantum began, and quanta kept by the active context (R338). -/
  quantum : Nat
  kept : Nat
  /-- GNOMON at which each context last ran here. -/
  lastRan : Tab Nat
  /-- A pre-emption is under way (R374). -/
  halting : Bool
  /-- The context chosen to run next, while the present one leaves the core (R338). -/
  next : Option Nat
  /-- Contexts halted by HALT and not to be chosen until the quantum ends (R328). -/
  barred : List Nat
  /-- Its configuration failed twice (R339). -/
  removed : Bool
  deriving DecidableEq, Repr

/-- A work entry in a queue pair's chain (R276, R278), with the team, PC and TASKID of its command. -/
structure FEntry where
  id : Nat
  team : Nat
  ctx : Nat
  pc : W64
  seq : BitVec 32
  record : BitVec 512
  /-- Name given when it fired, 0 before. -/
  ref : Nat
  /-- Messages formed. -/
  made : Nat
  /-- A message of it was refused before it left: 1, and 2 where that was its last (R281, R418). -/
  cut : Nat
  deriving DecidableEq, Repr

/-- A message that waits to leave, or the local write of a FLAG, with its translated units. -/
structure FItem where
  entry : Nat
  msg : FabricMsg
  units : List Piece
  deriving DecidableEq, Repr

/-- A message returned by LAND_FULL (R351): refusals so far, and GNOMON of its next try; none while it is on its
way again. -/
structure Retry where
  msg : FabricMsg
  count : Nat
  due : Option Nat
  deriving DecidableEq, Repr

/-- The engine state of a queue pair, or of a core's direct-put path (R275, R278, R288); a queue pair's
descriptor is in memory. -/
structure Qp where
  /-- Entries not yet complete, oldest first. -/
  entries : List FEntry
  /-- Messages formed and not yet sent, oldest first. -/
  out : List FItem
  /-- Number of the next message. -/
  msgno : BitVec 32
  /-- Messages sent and not performed at the target; one that is refused never is (R281, R282). -/
  unperformed : Nat
  /-- Messages returned by LAND_FULL and not accepted since, in the order in which they were first sent
  (R351). -/
  retry : List Retry
  parked : Bool
  /-- A REPLAY has reached the parked entry (R326). -/
  replay : Bool
  /-- Fault it parked with. -/
  code : Nat
  addr : W64
  deriving DecidableEq, Repr

/-- A cluster's shared parts. -/
structure Cluster where
  /-- Communication master (R421). -/
  master : Option Nat
  tlb : List TlbEntry
  qps : Tab Qp
  deriving DecidableEq, Repr

/-- A record of the fault queue as its release needs it (R322, R323). -/
structure FaultRec where
  index : Nat
  code : Nat
  source : Nat
  team : Nat
  /-- Origin record, 0 for a first task. -/
  origin : Nat
  /-- Parked command; for a BREAK, TASKID of the task that it holds. -/
  cmd : Nat
  core : Nat
  flags : Nat
  unit : Nat
  mpc : Nat
  parked : Bool
  term : Bool
  released : Bool
  pc : W64
  addr : W64
  deriving DecidableEq, Repr

/-- A sealed key slot (R394, R395). -/
structure KeySlot where
  key : BitVec 256
  meas : BitVec 384
  tlo : Nat
  thi : Nat
  owner : Nat
  deriving DecidableEq, Repr

/-- A grant (R396). -/
structure Grant where
  ctx : Nat
  slot : Nat
  tlo : Nat
  thi : Nat
  meas : BitVec 384
  deriving DecidableEq, Repr

/-- A recorded scrub (R404). -/
structure ScrubRec where
  die : Nat
  key : Nat
  runs : List (Nat × Nat)
  run : Nat
  frame : Nat
  epoch : Nat
  sem : Nat
  slot : Nat
  deriving DecidableEq, Repr

/-- A fairness entry in effect (R342), as its eight 32-bit words' fields. -/
structure Fair where
  key : Nat
  kind : Nat
  valid : Bool
  base : Nat
  inc : Nat
  weight : Nat
  demotion : Nat
  demoted : Bool
  boost : Nat
  cap : Nat
  allow : Nat
  gathered : Nat
  share : Nat
  spin : Nat
  used : Nat
  landed : BitVec 32
  nacks : BitVec 32
  /-- GNOMON since when each of its contexts that is spinning has been so (R345). -/
  spins : Tab Nat
  deriving DecidableEq, Repr

/-- A run of quarantined frames (R327). -/
structure QuarRun where
  frame : Nat
  len : Nat
  epoch : Nat
  deriving DecidableEq, Repr

/-- A die. -/
structure Die where
  up : Bool
  lost : Bool
  gnomon : W64
  world : BitVec 8
  latched : Bool
  hcore : BitVec 7
  hpc : BitVec 55
  fqbase : BitVec 56
  fqsize : BitVec 13
  fqhead : BitVec 12
  fqtail : BitVec 12
  fq : List FaultRec
  tagbase : BitVec 46
  qepoch : BitVec 32
  quar : List QuarRun
  fair : Tab Fair
  /-- Words written to fairness entries that wait for a tick: entry × 8 + word, and 2^20 for each tick that was due
  before the write (R342, R344). -/
  fairPend : Tab (BitVec 32)
  slots : Tab KeySlot
  grants : Tab Grant
  /-- Unwrap private key (R392). -/
  unwrap : Option Nat
  /-- Frame index to claiming context (R401). -/
  claims : Tab Nat
  /-- Handshake SEQ last served per context (R402). -/
  hsSeq : Tab Nat
  fwmeas : BitVec 384
  /-- PSN of the next packet to each Ethernet peer to which one has gone (R417). -/
  psn : Tab (BitVec 24)
  /-- Newest message numbers received per sending path (R288). -/
  window : Tab (List (BitVec 32))
  /-- 50 µs ticks, 10 ms windows, µs of USED, 10 µs of QEPOCH, 200 µs choices and 10 µs advertisements
  handled so far (R344, R318, R347, R353). -/
  tick : Nat
  win : Nat
  usedAt : Nat
  epochAt : Nat
  choice : Nat
  advertAt : Nat
  /-- Scan and request doorbells not yet served, in order: 0 scan, 1 Alidade. -/
  bells : List (Nat × Nat)
  /-- The scan request whose frames are locked and that waits for QDONE (R360). -/
  scan : Option ScanJob
  /-- Requests taken from Alidade's ring whose answer waits for that of an earlier one: slot and STATUS (R389). -/
  owed : Tab Nat
  /-- Free slots and largest allotment last advertised (R353). -/
  advert : Option (Nat × Nat)
  deriving DecidableEq, Repr

/-- Residency of a context on a die (R337). -/
inductive Resid where
  | out | arriving | resident | leaving
  deriving DecidableEq, Repr

/-- A waiter of a semaphore, a barrier object or a granule. -/
inductive Waiter where
  /-- A continuation: team and record; `n` is WAITS's count or WAITB's phase. -/
  | task (team rec n : Nat)
  /-- An engine command's wait field, or a CPYV chunk. -/
  | cmd (core id : Nat)
  deriving DecidableEq, Repr

/-- A launch that holds a slot of its context (R333). -/
structure Launch where
  slot : Nat
  entry : W64
  args : W64
  fhandler : W64
  teams : Nat
  allot : Nat
  acct : Nat
  prio : Nat
  gather : Bool
  nomig : Bool
  diemask : Nat
  /-- Groups: number and members in rank order (R21). -/
  groups : Tab (List Nat)
  done : Option Nat
  doneinc : BitVec 32
  tag : W64
  /-- Teams placed so far. -/
  placed : Nat
  /-- Teams retired or discarded. -/
  retired : Nat
  terminated : Bool
  order : Nat
  deriving DecidableEq, Repr

/-- A context that is live or resident. -/
structure Ctx where
  /-- Descriptor words as each die read them when the context became resident there: die, then byte
  offset / 8 (R314). -/
  desc : Tab (Tab W64)
  /-- Residency per die; a die not listed is OUT. -/
  resid : Tab Resid
  /-- Semaphores in the home die's file (R261). -/
  sems : Tab (BitVec 32)
  launches : List Launch
  /-- Group tables copied at acceptance: priority × 2^32 + ring slot number (R21). -/
  gtabs : Tab (Tab (List Nat))
  /-- Die on which this context moves to ARRIVING as soon as the one it displaces is OUT (R347). -/
  nextOn : Tab Nat
  /-- Remote key kept for incoming checks (R287, R314). -/
  rkey : Option W64
  /-- Key under which the messages of the landing buffer were accepted, where `rkey` has been dropped since
  (R287). -/
  landKey : Option W64
  /-- Units of 64 KiB of CSM assigned to it: cluster × 256 + unit (R95, R106). -/
  csm : List Nat
  /-- Sender's path and entry of each message in the landing buffer, from HEAD on (R281, R349). -/
  landed : List (Nat × Nat)
  /-- Messages taken off the landing buffer that wait behind a held create of their queue pair, each with its
  sender's path and entry (R281, R352). -/
  behind : List (FabricMsg × Nat × Nat)
  deriving DecidableEq, Repr

/-- A request between a core and a memory-side unit, on its way. -/
inductive Req where
  /-- WAITS continuation's or wait field's request (R261). -/
  | semWait (ctx sem : Nat) (w : Waiter)
  /-- An addition: the command or launch behind it; `team` 0 for a launch's DONEINC (R264), whose TAG
  stands in `pc`.  `deps` are the consumed tokens of a SIGS, none for a signal field; `seq` is the TASKID of
  the command's task. -/
  | semSig (ctx sem amount : Nat) (team cmd core : Nat) (pc : W64) (scope : Nat)
      (deps : Option (List Dep)) (seq : BitVec 32)
  /-- WAITB request: object key, phase and timeout in µs (R268). -/
  | barWait (key phase t team rec : Nat)
  | unlink (key team rec : Nat)
  /-- An addition of the fabric, an entry's DONE or a message's, that its home die could not make yet (R281,
  R336); `team` 0 for a message of another package. -/
  | fabricAdd (ctx sem team core : Nat) (pc : W64) (seq : BitVec 32)
  deriving DecidableEq, Repr

/-- Versioned operations (R109). -/
inductive VOp where
  | create | read | release | query
  deriving DecidableEq, Repr

/-- Who asked for a versioned operation. -/
inductive VSrc where
  | task (team core : Nat)
  | copy (core cmd : Nat)
  | fabric (qp : Nat)
  /-- An entry of a landing buffer: sender's path and entry (R352). -/
  | landing (path ref : Nat)
  deriving DecidableEq, Repr

/-- What a version read has of one granule (R217). -/
inductive VGot where
  | data (r : Row)
  | fault (code : Nat)
  /-- Not yet created: region and granule. -/
  | wait (region granule : Nat)
  deriving DecidableEq, Repr

/-- A versioned operation at or on its way to the home controller (R215 to R221). -/
structure VReq where
  op : VOp
  src : VSrc
  ctx : Nat
  pc : W64
  va : W64
  count : Nat
  ver : W64
  /-- Data of a create. -/
  rows : List Row
  /-- Outcomes taken so far: granule and its 128 bytes, or a code (R217). -/
  got : Tab VGot
  /-- Destination rows: physical register × 16 + row, per granule; or the scalar register. -/
  dst : List Nat
  xm : W64
  scope : Nat
  /-- The queue entry to free, and the oldest-access bound of its release. -/
  seq : Nat
  /-- Held on PWAIT. -/
  held : Bool
  /-- Finished: 0 done, a code, or 0x1000 park; with the fault address. -/
  answer : Option (Nat × W64)
  msg : Option FabricMsg
  /-- Region and first granule of a held create, which writes its ring by physical address (R369). -/
  region : Nat
  granule : Nat
  deriving DecidableEq, Repr

/-- What has left the package. -/
inductive Out where
  | message (m : FabricMsg)
  /-- An RDMA WRITE to an Ethernet peer, under the addresses of its entry's 64 bytes (R417, R418): PSN, whether it
  bears an immediate, VA, R_Key and length of its RETH, and its payload, which the Peivitra header begins. -/
  | roce (entry : List (BitVec 8)) (psn : BitVec 24) (imm : Bool) (va rkey len : Nat) (payload : List (BitVec 8))
      (m : FabricMsg)
  /-- A store to another package: team, package, address, length, data (R130). -/
  | store (id pkg addr len : Nat) (data mask : BitVec 64)
  /-- One element of an ACW on its way to another package: its port there does the step of R259. -/
  | atomic (id pkg addr op ty : Nat) (fetch : Bool) (operand comparand : BitVec 64)
  /-- A load from another package: entry, package, address and length (R286). -/
  | load (id pkg addr len : Nat)
  /-- A posted write to host memory, by host bus address (R413). -/
  | hostWrite (addr len : Nat) (data mask : BitVec 64)
  /-- A PCIe read of host memory (R413): of a load, or with length 0 the one that reads back the last posted write to
  a page. -/
  | hostFetch (addr len : Nat)
  | launch (id pkg ctx srcCtx gang : Nat) (bytes : List (BitVec 8))
  | launchStatus (pkg ref code : Nat)
  | refusal (pkg : Nat) (m : FabricMsg) (code : Nat)
  | performed (pkg : Nat) (m : FabricMsg)
  | remoteAnswer (pkg ref : Nat) (data : Option (BitVec 64)) (code : Nat)
  | msix (vector : Nat)
  /-- Answer to an aperture or register read; none for Unsupported Request. -/
  | hostRead (data : Option (List (BitVec 8)))
  | flit (port : Nat) (f : Flit)
  /-- The payload of a flit that a port has accepted, handed on (R415). -/
  | delivered (port : Nat) (payload : List (BitVec 8))
  | nak (port : Nat) (seq : BitVec 12)
  | dieLost (die : Nat)
  /-- A BREAK is reported to the debug agent (R179). -/
  | breakReport (team : Nat)
  deriving DecidableEq, Repr

/-- An export to a context of another package (R286). -/
structure Export where
  pkg : Nat
  ctx : Nat
  base : Nat
  len : Nat
  r : Bool
  w : Bool
  deriving DecidableEq, Repr

/-- A scale-up or host link's sender and receiver (R415). -/
structure Port where
  up : Bool
  nextSeq : BitVec 12
  expect : BitVec 12
  /-- Unacknowledged flits, oldest first. -/
  retry : List Flit
  /-- What those flits carry, each with the SEQ of its last flit. -/
  sent : List (BitVec 12 × Out)
  /-- Loads that have left by it and are not answered, and what it sends again for a port that went down (R416). -/
  asked : List Out
  resent : List Out
  replays : Nat
  /-- Class shares in percent: collective, one-sided, versioned (R285). -/
  shares : Nat × Nat × Nat
  /-- Class whose turn it is, and what is left of its share of the round. -/
  cls : Nat
  credit : Nat
  /-- Path served last in each class, and the deficit of each path (R285). -/
  turn : Tab Nat
  deficit : Tab Nat
  deriving DecidableEq, Repr

/-- A locked, scanned code section (R360, R361). -/
structure Section where
  id : Nat
  die : Nat
  ctx : Nat
  cls : Nat
  vbase : Nat
  pages : Nat
  /-- Physical frames (key / 65,536) in section order. -/
  frames : List Nat
  /-- Boundary bitmap: bit i is 1 when parcel i begins an instruction (R145). -/
  bitmap : Nat
  meas : BitVec 384
  admitted : Bool
  /-- While it is being admitted: QEPOCH when its frames were locked (R360). -/
  epoch : Nat
  deriving DecidableEq, Repr

/-- What a core keeps of a pre-empted context apart from the team records, which hold the tasks, the
scale entries and the scratchpads (R376 to R381): its commands in issue order. -/
structure Image where
  ctx : Nat
  core : Nat
  /-- Key of its first byte, the memory key it was written under, and its teams in order, each with whether its
  task record follows (R378). -/
  place : Nat
  mkey : Nat
  teams : List (Nat × Bool)
  /-- Names of its commands in the order of their records, and those of them that are still to be restored. -/
  order : List Nat
  cmds : List Cmd
  sb : List SbEntry
  deriving DecidableEq, Repr

/-- A packed team in transit (R43). -/
structure Pack where
  team : Nat
  toDie : Nat
  /-- Core of that die whose resources it has taken. -/
  toCore : Nat
  /-- Time left of each WAITB record. -/
  left : Tab Nat
  deriving DecidableEq, Repr

/-- A launch that is to be terminated once a TERM record has room (R364, R423, R424). -/
structure Doom where
  ctx : Nat
  slot : Nat
  code : Nat
  die : Nat
  core : Nat
  addr : Nat
  deriving DecidableEq, Repr

/-- A machine-check log record (R423). -/
structure McRec where
  code : Nat
  die : Nat
  core : Nat
  ctx : Nat
  addr : Nat
  stamp : Nat
  deriving DecidableEq, Repr

/-- The machine. -/
structure State where
  /-- HBM, CSM physical image, system space and scratchpads: address and byte (R93 to R99). -/
  mem : List (Host.Cell)
  /-- Memory key plus 1 under which each 128-byte granule of HBM was last written (R105); a granule that
  nothing has written is not listed. -/
  tags : Tab Nat
  dies : Tab Die
  clusters : Tab Cluster
  cores : Tab Core
  teams : Tab Team
  ctxs : Tab Ctx
  /-- Semaphore waiter chains: context × 256 + number (R261). -/
  semChains : Tab (List Waiter)
  /-- Barrier waiter chains by object key (R266). -/
  barChains : Tab (List Waiter)
  /-- Known barrier objects. -/
  barriers : List Nat
  /-- Granule waiter chains: (context × 256 + region) × 2^26 + granule (R108). -/
  verChains : Tab (List Waiter)
  /-- PWAIT chains: context × 256 + region (R107). -/
  pwait : Tab (List Nat)
  reqs : Tab Req
  vreqs : Tab VReq
  /-- Fabric messages of this package to itself. -/
  net : List FabricMsg
  /-- Commands that are not complete, those never to complete included (R81, R244). -/
  openCmds : List Nat
  sections : List Section
  images : List Image
  packs : List Pack
  ctxbase : BitVec 56
  qdone : BitVec 32
  /-- Memory keys: 0 free, 1 live, 2 dead (R391); the world each was made for. -/
  mkeys : Tab (Nat × Nat)
  scrubs : List ScrubRec
  exports : List Export
  apctl : W64
  hwbase : W64
  aperr : BitVec 32
  lanes : BitVec 4
  linkUp : Bool
  /-- Launch windows: staged bytes (window × 256 + offset) and status words (R412). -/
  staged : Tab (BitVec 8)
  winStatus : Tab W64
  plimit : Nat
  duty : Nat
  mclog : List McRec
  /-- Place in the log of the next record, the oldest's once it holds 256, and corrected soft errors counted (R423). -/
  mcNext : Nat
  corrected : Nat
  doomed : List Doom
  downMask : Tab (BitVec 4)
  ports : Tab Port
  pkg : BitVec 8
  lostPkgs : List Nat
  lostDies : List (Nat × Nat)
  /-- Sending path to its entry of which a message was refused here: the entry's addition is not made
  (R281). -/
  refusedRefs : Tab Nat
  /-- Sending path to the number of its message that was refused here with LAND_FULL; later ones wait until it
  has come again (R280). -/
  fullNos : Tab (BitVec 32)
  /-- The model's own: inputs and choices to come, the task that issues, fresh names, steps taken, what
  has left. -/
  agenda : List Instr
  focus : Option Nat
  nextId : Nat
  ticks : Nat
  outbox : List Out
  deriving DecidableEq, Repr

/-- A fairness entry after reset (R342). -/
def fairReset : Fair where
  key := 0; kind := 0; valid := false; base := 0; inc := 1; weight := 1; demotion := 4
  demoted := false; boost := 0; cap := 64; allow := 255; gathered := 0; share := 0; spin := 100
  used := 0; landed := 0; nacks := 0; spins := []

/-- A die in reset (R318, R420). -/
def dieReset : Die where
  up := false; lost := false; gnomon := 0; world := 0; latched := false; hcore := 0; hpc := 0
  fqbase := 0; fqsize := 16; fqhead := 0; fqtail := 0; fq := []; tagbase := 0; qepoch := 0
  quar := []; fair := []; fairPend := []; slots := []; grants := []; unwrap := none; claims := []
  hsSeq := []; fwmeas := 0; psn := []; window := []; tick := 0; win := 0
  usedAt := 0; epochAt := 0; choice := 0; advertAt := 0; bells := []; scan := none; owed := []; advert := none

/-- A cluster in reset. -/
def clusterReset : Cluster where
  master := none; tlb := []; qps := []

/-- A core in reset (R89, R318); its accumulators read 0 (DESIGN CHOICE, log 1). -/
def coreReset : Core where
  plane := []; shadow := []; shadowSt := 0; accown := []; acc := []; bufs := []; loads := []
  stores := []; results := []; cmds := []; sb := []; lfsr := 1; tlb := []; icache := []; queue := []; spilled := []
  usable := false; quantum := 0; kept := 0; lastRan := []; halting := false; next := none; barred := []; removed := false

/-- A link in reset: down (R420). -/
def portReset : Port where
  up := false; nextSeq := 0; expect := 0; retry := []; sent := []; asked := []; resent := []; replays := 0; shares := (0, 0, 0); cls := 0
  credit := 0; turn := []; deficit := []

/-- The package right after reset: every die down, memory with nothing listed, every register at the
value the spec gives or the log names (R318, R410, R420, R422). -/
def State.reset : State where
  mem := []; tags := []
  dies := []; clusters := []; cores := []; teams := []; ctxs := []
  semChains := []; barChains := []; barriers := []; verChains := []; pwait := []
  reqs := []; vreqs := []; net := []; openCmds := []; sections := []; images := []; packs := []
  ctxbase := 0; qdone := 0; mkeys := []; scrubs := []; exports := []
  apctl := 0; hwbase := 0; aperr := 0; lanes := 0; linkUp := false; staged := []; winStatus := []
  plimit := 2600000; duty := 16; mclog := []; mcNext := 0; corrected := 0; doomed := []; downMask := []; ports := []; pkg := 0
  lostPkgs := []; lostDies := []; refusedRefs := []; fullNos := []
  agenda := []; focus := none; nextId := 16; ticks := 0; outbox := []

end Sys2Proof.Machine
end

