-- ==== Sys2Proof/Machine/Ops.lean ====
section
/-! DEFINITION. The named operations over tables, registers, memory and translation, and taking a
fault. -/

namespace Sys2Proof.Machine

/-! ## Tables -/

/-- Value at a key, `d` where the key is not listed. -/
def tabGet {α : Type} (d : α) : Tab α → Nat → α
  | [], _ => d
  | (k, v) :: t, i => if k = i then v else tabGet d t i

/-- Value at a key, if listed. -/
def tabFind {α : Type} : Tab α → Nat → Option α
  | [], _ => none
  | (k, v) :: t, i => if k = i then some v else tabFind t i

/-- List a value at a key, in place of the one listed there. -/
def tabPut {α : Type} : Tab α → Nat → α → Tab α
  | [], i, v => [(i, v)]
  | (k, w) :: t, i, v =>
    if k = i then (i, v) :: t else if i < k then (i, v) :: (k, w) :: t else (k, w) :: tabPut t i v

/-- Remove a key. -/
def tabDel {α : Type} : Tab α → Nat → Tab α
  | [], _ => []
  | (k, w) :: t, i => if k = i then tabDel t i else (k, w) :: tabDel t i

/-- Write a value; a value equal to what an unlisted key reads as is not listed. -/
def tabSet {α : Type} [DecidableEq α] (d : α) (t : Tab α) (i : Nat) (v : α) : Tab α :=
  if v = d then tabDel t i else tabPut t i v

/-- Keys strictly rising. -/
def tabSorted {α : Type} : Tab α → Bool
  | [] => true
  | [_] => true
  | (k, _) :: (k', v') :: t => k < k' && tabSorted ((k', v') :: t)

/-! ## Cores, clusters, dies, contexts, teams -/

/-- Core number of COREID [8:0] (R92): die × 128 + cluster × 8 + core. -/
def dieOf (core : Nat) : Nat := core / 128

/-- Cluster number in the package: die × 16 + cluster. -/
def clusterOf (core : Nat) : Nat := core / 8

def State.core (s : State) (c : Nat) : Core := tabGet coreReset s.cores c
def State.die (s : State) (d : Nat) : Die := tabGet dieReset s.dies d
def State.cluster (s : State) (c : Nat) : Cluster := tabGet clusterReset s.clusters c
def State.setCore (s : State) (c : Nat) (k : Core) : State := { s with cores := tabPut s.cores c k }
def State.setDie (s : State) (d : Nat) (k : Die) : State := { s with dies := tabPut s.dies d k }
def State.setCluster (s : State) (c : Nat) (k : Cluster) : State :=
  { s with clusters := tabPut s.clusters c k }
def State.setTeam (s : State) (u : Nat) (t : Team) : State := { s with teams := tabPut s.teams u t }
def State.setCtx (s : State) (n : Nat) (c : Ctx) : State := { s with ctxs := tabPut s.ctxs n c }
def State.modCore (s : State) (c : Nat) (f : Core → Core) : State := s.setCore c (f (s.core c))
def State.modDie (s : State) (d : Nat) (f : Die → Die) : State := s.setDie d (f (s.die d))
def State.modCluster (s : State) (c : Nat) (f : Cluster → Cluster) : State :=
  s.setCluster c (f (s.cluster c))

/-- A context not known to the package. -/
def ctxNone : Ctx where
  desc := []; resid := []; sems := []; launches := []; gtabs := []; nextOn := []
  rkey := none; landKey := none; csm := []; landed := []; behind := []

def State.ctx (s : State) (n : Nat) : Ctx := tabGet ctxNone s.ctxs n
def State.modCtx (s : State) (n : Nat) (f : Ctx → Ctx) : State := s.setCtx n (f (s.ctx n))
def State.modTeam (s : State) (u : Nat) (f : Team → Team) : State :=
  match tabFind s.teams u with
  | some t => s.setTeam u (f t)
  | none => s

/-- The running task of a team replaced. -/
def State.setTask (s : State) (u : Nat) (t : Task) : State :=
  s.modTeam u fun m => { m with task := some t }

/-- A fresh name. -/
def State.fresh (s : State) : Nat × State := (s.nextId, { s with nextId := s.nextId + 1 })

/-- The system team of a die (R312). -/
def sysTeam (die : Nat) : Nat := die + 1

/-- Context of a core's active plane, if the plane is valid (R315). -/
def Core.activeCtx (k : Core) : Option Nat :=
  let w := tabGet 0 k.plane 0
  if w.getLsbD 63 then some (w.toNat % 4096) else none

/-! ## Scalar registers -/

/-- Read of a scalar register: x0 reads zero (R72). -/
def Task.getX (t : Task) (r : BitVec 6) : W64 := if r = 0 then 0 else tabGet 0 t.x r.toNat

/-- Write of a scalar register: x0 discards it (R72); the register reads full (R84). -/
def Task.setX (t : Task) (r : BitVec 6) (v : W64) : Task :=
  if r = 0 then t else { t with x := tabSet 0 t.x r.toNat v }

/-- Bit `i` of a mask set. -/
def setBit {n : Nat} (m : BitVec n) (i : Nat) : BitVec n := m ||| (1#n <<< i)

/-- Bit `i` of a mask cleared. -/
def clearBit {n : Nat} (m : BitVec n) (i : Nat) : BitVec n := m &&& ~~~(1#n <<< i)

/-- Is a scalar register empty (R84)?  x0 is always full (R72). -/
def Task.xIsEmpty (t : Task) (r : BitVec 6) : Bool := r != 0 && t.xEmpty.getLsbD r.toNat

/-- Mark a scalar register empty (R84). -/
def Task.emptyX (t : Task) (r : BitVec 6) : Task :=
  if r = 0 then t else { t with xEmpty := setBit t.xEmpty r.toNat }

/-- The next instruction, `bytes` further on. -/
def Task.advance (t : Task) (bytes : Nat) : Task := { t with pc := t.pc + w64 bytes }

/-! ## Vector registers -/

/-- Physical register of a name through the rotating window (R82). -/
def Task.phys (t : Task) (n : Nat) : Nat :=
  if n < 16 then n else if t.active = 0 then n else 16 + (n + 16 - 16 - t.rrb.toNat) % 16

/-- One row of a vector register by its name. -/
def Task.vrow (t : Task) (n row : Nat) : Row := tabGet 0 t.v (t.phys n * 16 + row)

/-- One row written. -/
def Task.setVrow (t : Task) (n row : Nat) (r : Row) : Task :=
  { t with v := tabSet 0 t.v (t.phys n * 16 + row) r }

/-- Is some register of a group empty? -/
def Task.vIsEmpty (t : Task) (n g : Nat) : Bool :=
  (List.range g).any fun i => t.vEmpty.getLsbD (t.phys (n + i))

/-- Mark each register of a group empty (R84). -/
def Task.emptyV (t : Task) (n g : Nat) : Task :=
  { t with vEmpty := (List.range g).foldl (fun m i => setBit m (t.phys (n + i))) t.vEmpty }

/-- A predicate's 16 bits (R78): p0 and an unwritten predicate read 0x3FFF. -/
def Task.pred (t : Task) (p : Nat) : BitVec 16 := if p = 0 then 0x3FFF else tabGet 0x3FFF t.p p

/-- A predicate written; p0 discards it. -/
def Task.setPred (t : Task) (p : Nat) (v : BitVec 16) : Task :=
  if p = 0 then t else { t with p := tabSet 0x3FFF t.p p v }

/-- BYTES of VSHAPE (R75): the bytes of a row that belong to the tile. -/
def Task.shapeBits (t : Task) : Nat := t.cols.toNat * (32 / 2 ^ t.wc.toNat)

/-! ## Memory -/

/-- What an address that memory does not list reads as (DESIGN CHOICE, log 3). -/
def memDefault : BitVec 8 := 0

/-- One byte of memory as it is stored. -/
def State.byte (s : State) (k : Nat) : BitVec 8 := tabGet memDefault s.mem k

/-- One byte of memory written. -/
def State.setByte (s : State) (k : Nat) (b : BitVec 8) : State :=
  { s with mem := tabSet memDefault s.mem k b }

/-- The canonical form of memory: addresses strictly rising, none equal to the default. -/
def Memory.wf (m : List Host.Cell) : Bool := tabSorted m && m.all fun c => c.2 != memDefault

/-- Key of a byte by die and local address (R99). -/
def physKey (die loc : Nat) : Nat := die * 2 ^ 46 + loc

/-- First key of a team's scratchpad allotment. -/
def padKey (team : Nat) : Nat := 2 ^ 57 + team * 2 ^ 21

/-- Key of a CSM byte: the CSM physical image of a cluster in system space (DESIGN CHOICE, log 13). -/
def csmKey (die cluster off : Nat) : Nat := physKey die (0x380000000000 + cluster * 2 ^ 24 + off)

/-- Is a key in the HBM of a die? -/
def isHbm (k : Nat) : Bool := k < 2 ^ 48 && k % 2 ^ 46 < 0x003000000000

/-- Backed HBM (R99): the first 976,562 frames of each stack. -/
def backed (loc : Nat) : Bool := loc < 0x003000000000 && loc % 2 ^ 36 / 65536 < 976562

/-! ## Registers of the die's system space (R342, R360, R389, R423) -/

/-- Local addresses in a die's system space: fairness entries, the two doorbells and Ethernet peers as
the spec places them; queue-pair descriptors and the machine-check log as log 12 does. -/
def fairLocal : Nat := 0x300100000000
def scanRing : Nat := 0x300200000000
def scanBell : Nat := 0x300200002000
def aliRing : Nat := 0x300300000000
def aliBell : Nat := 0x300300010000
def peerLocal : Nat := 0x300400000000
def qpLocal : Nat := 0x390000000000
def mcLocal : Nat := 0x3A0000000000

/-- Key of a queue pair's descriptor (R275). -/
def qpKey (cluster qp : Nat) : Nat := physKey (cluster / 16) (qpLocal + (cluster % 16 * 256 + qp) * 32)

/-- A fairness entry as 256 bits (R342). -/
def Fair.toNat (f : Fair) : Nat :=
  f.key + f.kind * 2 ^ 16 + (if f.valid then 2 ^ 17 else 0) + f.base * 2 ^ 18 + f.inc * 2 ^ 22 +
    f.weight * 2 ^ 26 + f.demotion * 2 ^ 30 + (if f.demoted then 2 ^ 34 else 0) + f.boost * 2 ^ 40 +
    f.cap * 2 ^ 48 + f.allow * 2 ^ 56 + f.gathered * 2 ^ 64 + f.share * 2 ^ 72 + f.spin * 2 ^ 96 +
    f.used % 2 ^ 32 * 2 ^ 128 + f.landed.toNat * 2 ^ 160 + f.nacks.toNat * 2 ^ 192

/-- The RW fields of an entry taken from 256 bits; WEIGHT 0 reads as 1 (R342). -/
def Fair.withRW (f : Fair) (n : Nat) : Fair :=
  { f with
    key := n % 2 ^ 16, kind := n / 2 ^ 16 % 2, valid := n.testBit 17, base := n / 2 ^ 18 % 16
    inc := n / 2 ^ 22 % 16, weight := max 1 (n / 2 ^ 26 % 16), demotion := n / 2 ^ 30 % 16
    cap := n / 2 ^ 48 % 256, allow := n / 2 ^ 56 % 256, share := n / 2 ^ 72 % 1024
    spin := n / 2 ^ 96 % 2 ^ 16 }

/-- One 32-bit word of an entry written (R342). -/
def Fair.setWord (f : Fair) (i : Nat) (v : BitVec 32) : Fair :=
  let n := f.toNat
  f.withRW (n % 2 ^ (32 * i) + v.toNat * 2 ^ (32 * i) + n / 2 ^ (32 * (i + 1)) * 2 ^ (32 * (i + 1)))

/-- A machine-check record as 32 bytes (R423). -/
def McRec.toNat (r : McRec) : Nat :=
  r.code % 256 + r.die % 256 * 2 ^ 8 + r.core % 2 ^ 16 * 2 ^ 16 + r.ctx % 2 ^ 16 * 2 ^ 32 +
    r.addr % 2 ^ 64 * 2 ^ 64 + r.stamp % 2 ^ 64 * 2 ^ 128

/-- The byte at a key that a register shows, if one lies there: a fairness entry, the machine-check log, or CHAIN
of a queue pair (R275; log 9). -/
def State.deviceByte (s : State) (k : Nat) : Option (BitVec 8) :=
  let die := k / 2 ^ 46
  let loc := k % 2 ^ 46
  if 4 ≤ die then none
  else if fairLocal ≤ loc ∧ loc < fairLocal + 8192 then
    let off := loc - fairLocal
    some (BitVec.ofNat 8 ((tabGet fairReset (s.die die).fair (off / 32)).toNat / 2 ^ (8 * (off % 32))))
  else if die = 0 ∧ mcLocal ≤ loc ∧ loc < mcLocal + 8192 then
    let off := loc - mcLocal
    (s.mclog[off / 32]?).map fun r => BitVec.ofNat 8 (r.toNat / 2 ^ (8 * (off % 32)))
  else if qpLocal ≤ loc ∧ loc < qpLocal + 131072 ∧ 24 ≤ (loc - qpLocal) % 32 then
    let off := loc - qpLocal
    let idle := match tabFind (s.cluster (die * 16 + off / 8192)).qps (off / 32 % 256) with
      | some q => q.entries.isEmpty
      | none => true
    some (if idle then 0 else BitVec.ofNat 8 ((Config.chainHead s.ticks).toNat / 2 ^ (8 * (off % 32 - 24))))
  else none

/-- Holds the Alidade of the die at a key the memory key of index `mk` (R391)?  MKEY_NEW installs it on the dies
that are latched into its world.  An index that none has handed out has no world. -/
def State.installed (s : State) (mk k : Nat) : Bool :=
  match tabFind s.mkeys mk with
  | some (1, w) => (s.die (k / 2 ^ 46)).latched && (s.die (k / 2 ^ 46)).world.toNat == w
  | _ => true

/-- A byte as an access with memory key `mk` reads it (R105). -/
def State.readByte (s : State) (mk k : Nat) : BitVec 8 :=
  if isHbm k then
    let tag := tabGet 0 s.tags (k / 128)
    if (tag = 0 ∨ tag = mk + 1) ∧ s.installed mk k = true then s.byte k else Config.garbled s.ticks k (tag - 1) mk
  else match s.deviceByte k with
    | some b => b
    | none => s.byte k

/-- `n` bytes from a key up. -/
def State.readBytes (s : State) (mk k : Nat) : Nat → List (BitVec 8)
  | 0 => []
  | n + 1 => s.readByte mk k :: s.readBytes mk (k + 1) n

/-- Little-endian number of `n` bytes. -/
def State.readNat (s : State) (mk k n : Nat) : Nat := leNat (s.readBytes mk k n)

/-- Before part of a granule is written under another key, the rest becomes what that key reads
(R105: the controller merges the write with the rest of the granule). -/
def State.rekeyGranule (s : State) (mk k : Nat) : State :=
  if isHbm k then
    let g := k / 128
    let tag := tabGet 0 s.tags g
    let s' :=
      if tag = 0 ∨ tag = mk + 1 then s
      else (List.range 128).foldl (fun s i => s.setByte (g * 128 + i) (s.readByte mk (g * 128 + i))) s
    { s' with tags := tabPut s'.tags g (mk + 1) }
  else s

/-- Bytes written from a key up, as an access with memory key `mk` writes them. -/
def State.writeBytes (s : State) (mk k : Nat) : List (BitVec 8) → State
  | [] => s
  | b :: bs => ((s.rekeyGranule mk k).setByte k b).writeBytes mk (k + 1) bs

/-- A number written as `n` little-endian bytes. -/
def State.writeNat (s : State) (mk k n v : Nat) : State := s.writeBytes mk k (leBytes n v)

/-- Key of a global physical address of this package (R99). -/
def gpaKey (a : Nat) : Nat := a % 2 ^ 48

/-- Word `k` of a context's descriptor as it stands in the table at CTXBASE (R314). -/
def State.descMem (s : State) (ctx k : Nat) : W64 :=
  BitVec.ofNat 64 (s.readNat 0 (gpaKey (s.ctxbase.toNat + 256 * ctx + 8 * k)) 8)

/-- The same as a die read it when the context became resident there; where it is not resident on that die,
as the lowest-numbered die that holds it read it, else as it stands in the table (R314). -/
def State.descOn (s : State) (die ctx k : Nat) : W64 :=
  match tabFind (s.ctx ctx).desc die, (s.ctx ctx).desc with
  | some d, _ => tabGet 0 d k
  | none, (_, d) :: _ => tabGet 0 d k
  | none, [] => s.descMem ctx k

/-- HOME as a context's descriptor gives it. -/
def State.descHome (s : State) (ctx : Nat) : Nat := (s.descOn 4 ctx 0).toNat / 256 % 4

/-- Word `k` of a context's descriptor as its home die read it (R314). -/
def State.descWord (s : State) (ctx k : Nat) : W64 := s.descOn (s.descHome ctx) ctx k

/-- Word `k` of the active plane in which a context runs: that of a core, or else of the lowest-numbered core
that runs it (R315); none where it runs nowhere. -/
def State.planeWord (s : State) (core ctx k : Nat) : Option W64 :=
  if (s.core core).activeCtx = some ctx then some (tabGet 0 (s.core core).plane k)
  else (s.cores.find? fun e => e.2.activeCtx == some ctx).map fun e => tabGet 0 e.2.plane k

/-- MKEY of a context as a core sees it (R105, R315). -/
def State.keyOn (s : State) (core ctx : Nat) : Nat :=
  ((s.planeWord core ctx 2).getD (s.descWord ctx 2)).toNat % 4096

/-- MKEY of a context. -/
def State.ctxKey (s : State) (ctx : Nat) : Nat := s.keyOn 512 ctx

/-- Home die of a context (R17): HOME of the plane in which it runs, or of its descriptor. -/
def State.homeDie (s : State) (ctx : Nat) : Nat :=
  match s.planeWord 512 ctx 5 with
  | some w => w.toNat % 4
  | none => s.descHome ctx

/-- Gang of a context (R42, R315). -/
def State.gangOf (s : State) (ctx : Nat) : Nat :=
  match s.planeWord 512 ctx 3 with
  | some w => w.toNat % 2 ^ 16
  | none => (s.descWord ctx 0).toNat / 2 ^ 32 % 2 ^ 16

/-- CPOOL of a context as a core sees it (R33, R315). -/
def State.poolBase (s : State) (core ctx : Nat) : Nat :=
  match s.planeWord core ctx 4 with
  | some w => w.toNat % 2 ^ 55
  | none => (s.descWord ctx 4).toNat % 2 ^ 56

/-- VRTAB of a context as a core sees it (R107, R315). -/
def State.vrtab (s : State) (core ctx : Nat) : Nat :=
  match s.planeWord core ctx 6 with
  | some w => w.toNat % 2 ^ 55
  | none => (s.descWord ctx 7).toNat % 2 ^ 56

/-- STATE of a context: 0 free, 1 live, 2 suspended, 3 destroyed (R314). -/
def State.ctxState (s : State) (ctx : Nat) : Nat :=
  s.readNat 0 (gpaKey (s.ctxbase.toNat + 256 * ctx)) 1 % 4

/-- Residency of a context on a die (R337); C0x000 runs on every die that is up, outside the slots
(R312). -/
def State.residOn (s : State) (ctx die : Nat) : Resid :=
  if ctx = 0 then if (s.die die).up then .resident else .out else tabGet .out (s.ctx ctx).resid die

/-- STATE written (R403, R423, R424). -/
def State.setCtxState (s : State) (ctx v : Nat) : State :=
  s.writeNat 0 (gpaKey (s.ctxbase.toNat + 256 * ctx)) 1 v

/-! ## Fault codes (R363) -/

def cFetchNotPresent : Nat := 0x01
def cFetchNotExec : Nat := 0x02
def cFetchStraddle : Nat := 0x03
def cBranchTarget : Nat := 0x04
def cLoadNotPresent : Nat := 0x10
def cStoreNotPresent : Nat := 0x11
def cAccessDenied : Nat := 0x12
def cAlign : Nat := 0x13
def cRange : Nat := 0x14
def cSealAccess : Nat := 0x20
def cSealGrant : Nat := 0x21
def cSealTag : Nat := 0x22
def cSealKey : Nat := 0x23
def cVersionGone : Nat := 0x30
def cVersionFar : Nat := 0x31
def cVersionOrder : Nat := 0x32
def cVersionWrap : Nat := 0x33
def cVersionRegion : Nat := 0x34
def cScaleQueue : Nat := 0x40
def cAccNotOwned : Nat := 0x41
def cFeTrap : Nat := 0x42
def cShape : Nat := 0x43
def cToken : Nat := 0x44
def cBarrierOverrun : Nat := 0x50
def cSemOverflow : Nat := 0x51
def cFabricAcl : Nat := 0x58
def cPeerLost : Nat := 0x59
def cLandFull : Nat := 0x5A
def cCfgCheck : Nat := 0x5B
def cUserTrap : Nat := 0x70

/-- ACCESS_DENIED as a far end returns it for a message that its exports do not admit (R286, R300; log 107). -/
def cExport : Nat := 0x112

/-! ## Address spaces and translation -/

/-- The paths of R102. -/
inductive Path where
  /-- LD, ST and the other plain accesses, copies, A streams and one-sided fabric accesses. -/
  | plain
  | versioned
  /-- MLDB and MMAG of a record whose SEALED bit is 0. -/
  | tensor
  /-- MLDB and MMAG of a sealed record, and CPYS. -/
  | sealed
  | fetch
  | debug
  deriving DecidableEq, Repr

/-- The outcome of a path on a page type 0 to 4 (R102): a fault code, or permitted. -/
def typeFault (p : Path) (typ : Nat) : Option Nat :=
  match p, typ with
  | .plain, 0 => none
  | .plain, 1 => some cVersionRegion
  | .plain, 2 => some cSealAccess
  | .plain, _ => some cAccessDenied
  | .versioned, 1 => none
  | .versioned, 2 => some cSealAccess
  | .versioned, 4 => some cAccessDenied
  | .versioned, _ => some cVersionRegion
  | .tensor, 0 => none
  | .tensor, 1 => some cVersionRegion
  | .tensor, 2 => some cSealAccess
  | .tensor, _ => some cAccessDenied
  | .sealed, 2 => none
  | .sealed, _ => some cSealAccess
  | .fetch, 3 => none
  | .fetch, _ => some cFetchNotExec
  | .debug, 2 => some cSealAccess
  | .debug, _ => none

/-- Who translates: core (for its die, plane and TLB), team and context. -/
structure Who where
  core : Nat
  team : Nat
  ctx : Nat
  deriving DecidableEq, Repr

/-- What translation of an address gives. -/
inductive Xl where
  | ok (loc : Loc) (mkey : Nat)
  /-- A V page: region number (R101). -/
  | ver (region : Nat)
  | bad (code : Nat)
  /-- No TLB entry: a walk is needed (R355). -/
  | miss
  deriving DecidableEq, Repr

/-- Fields of a page-table entry (R357). -/
def leafP (e : BitVec 64) : Bool := e.getLsbD 0
def leafL (e : BitVec 64) : Bool := e.getLsbD 1
def leafR (e : BitVec 64) : Bool := e.getLsbD 2
def leafW (e : BitVec 64) : Bool := e.getLsbD 3
def leafType (e : BitVec 64) : Nat := e.toNat / 16 % 8
def leafClass (e : BitVec 64) : Nat := e.toNat / 128 % 4
def leafRsv (e : BitVec 64) : Nat := e.toNat / 512 % 8
def leafFrame (e : BitVec 64) : Nat := e.toNat / 4096 % 2 ^ 40
def leafKey (e : BitVec 64) : Nat := e.toNat / 2 ^ 52

/-- Frame index of a local HBM address (R103). -/
def frameIndex (loc : Nat) : Nat := loc / 2 ^ 36 * 976562 + loc % 2 ^ 36 / 65536

/-- Does the frame at a global physical address belong to this package? -/
def State.ownPkg (s : State) (gpa : Nat) : Bool :=
  let pkg := gpa / 2 ^ 48
  pkg == 255 || pkg == s.pkg.toNat

/-- Does a run of `n` local frames hold one inside its die's tag array (R103)? -/
def State.inTags (s : State) (die loc n : Nat) : Bool :=
  let t := (s.die die).tagbase.toNat
  t < loc + 65536 * n && loc < t + 749999616

/-- Frames of a run of `n` that lie in the backed part of their stack (R99). -/
def backedRun (loc n : Nat) : Nat := if backed loc then min n (976562 - loc % 2 ^ 36 / 65536) else 0

/-- The section to which the frame at a key is locked (R360). -/
def State.lockOf (s : State) (key : Nat) : Option Section :=
  s.sections.find? fun c => c.frames.contains (key / 65536)

/-- Is one of a run of `n` frames locked (R361)? -/
def State.lockedRun (s : State) (key n : Nat) : Bool :=
  s.sections.any fun c => c.frames.any fun f => decide (key / 65536 ≤ f) && decide (f < key / 65536 + n)

/-- Does a claim forbid a leaf of context `ctx` with memory key `k` and a page type that names `n` frames
from a local address up (R401)? -/
def State.claimBad (s : State) (ctx k typ die loc n : Nat) : Bool :=
  (s.die die).claims.any fun e => decide (frameIndex loc ≤ e.1) && decide (e.1 < frameIndex loc + n) &&
    (e.2 != ctx || k != s.ctxKey ctx || (typ != 0 && typ != 2))

/-- The leaf checks of R358, R361 and R401 that a walk of context `ctx` makes, over every frame that the leaf
names. -/
def State.leafBad (s : State) (ctx : Nat) (big : Bool) (e : BitVec 64) : Bool :=
  let typ := leafType e
  let gpa := leafFrame e * 65536
  let n := if big then 8192 else 1
  let loc := gpa % 2 ^ 46
  let die := gpa / 2 ^ 46 % 4
  let held := if s.ownPkg gpa then backedRun loc n else 0
  (big && (leafFrame e % 8192 != 0 || typ == 1 || typ == 3)) ||
  5 ≤ typ || (typ == 4 && ctx != 0) ||
  (typ == 1 && 256 ≤ leafFrame e) ||
  (typ == 3 && (leafW e || leafClass e == 3 ||
    !((s.lockOf (gpaKey gpa)).any fun c => c.admitted))) ||
  ((typ == 2 || typ == 3 || typ == 4) && held < n) ||
  (typ != 1 && 0 < held && (s.inTags die loc held || s.claimBad ctx (leafKey e) typ die loc held ||
    (leafW e && s.lockedRun (gpaKey gpa) held))) ||
  leafRsv e != 0

/-- A non-leaf entry's checks (R358). -/
def State.tableBad (s : State) (e : BitVec 64) : Bool :=
  let gpa := leafFrame e * 65536
  leafR e || leafW e || leafType e != 0 || leafClass e != 0 || leafKey e != 0 || leafRsv e != 0 ||
    !(s.ownPkg gpa && backed (gpa % 2 ^ 46))

/-- Access kinds of a walk (R356). -/
inductive AKind where
  | read | write | fetch
  deriving DecidableEq, Repr

/-- The not-present fault of an access kind (R356). -/
def AKind.absent : AKind → Nat
  | .read => cLoadNotPresent
  | .write => cStoreNotPresent
  | .fetch => cFetchNotPresent

/-- The fault of a malformed entry (R356). -/
def AKind.malformed : AKind → Nat
  | .fetch => cFetchNotExec
  | _ => cAccessDenied

/-- First-level table of a context as a core sees it (R356): its active plane's PTROOT, or the
descriptor's where another context is active there. -/
def State.ptroot (s : State) (w : Who) : Nat :=
  if (s.core w.core).activeCtx = some w.ctx then (tabGet 0 (s.core w.core).plane 1).toNat % 2 ^ 56
  else (s.descOn (dieOf w.core) w.ctx 1).toNat % 2 ^ 56

/-- One entry of a table (R356). -/
def State.tableEntry (s : State) (table i : Nat) : BitVec 64 :=
  BitVec.ofNat 64 (s.readNat 0 (gpaKey (table + 8 * i)) 8)

/-- Do requests from one die to another pass the die-to-die ports (R387)? -/
def State.worldOk (s : State) (a b : Nat) : Bool :=
  a == b || ((s.die a).latched && (s.die b).latched && (s.die a).world == (s.die b).world)

/-- What stops a walk of a core's die from reading a table (R387, R424): its die is lost, or of another
world. -/
def State.tableStop (s : State) (w : Who) (table : Nat) : Option Nat :=
  let die := table / 2 ^ 46 % 4
  if (s.die die).lost then some cPeerLost
  else if !s.worldOk (dieOf w.core) die then some cAccessDenied
  else none

/-- The third level of the walk, from a table up (R356). -/
def State.walk3 (s : State) (w : Who) (table va : Nat) (kind : AKind) : Except Nat (BitVec 64 × Bool) :=
  match s.tableStop w table with
  | some c => .error c
  | none =>
    let e := s.tableEntry table (va / 2 ^ 16 % 8192)
    if !leafP e then .error kind.absent
    else if !leafL e || s.leafBad w.ctx false e then .error kind.malformed
    else .ok (e, false)

/-- The second level of the walk. -/
def State.walk2 (s : State) (w : Who) (table va : Nat) (kind : AKind) : Except Nat (BitVec 64 × Bool) :=
  match s.tableStop w table with
  | some c => .error c
  | none =>
    let e := s.tableEntry table (va / 2 ^ 29 % 8192)
    if !leafP e then .error kind.absent
    else if leafL e then
      if s.leafBad w.ctx true e then .error kind.malformed else .ok (e, true)
    else if s.tableBad e then .error kind.malformed
    else s.walk3 w (leafFrame e * 65536) va kind

/-- The walk (R356): the leaf and whether it ends at the second level, or a fault. -/
def State.walk (s : State) (w : Who) (va : Nat) (kind : AKind) : Except Nat (BitVec 64 × Bool) :=
  match s.tableStop w (s.ptroot w) with
  | some c => .error c
  | none =>
    let e := s.tableEntry (s.ptroot w) (va / 2 ^ 42 % 8192)
    if !leafP e then .error kind.absent
    else if leafL e || s.tableBad e then .error kind.malformed
    else s.walk2 w (leafFrame e * 65536) va kind

/-- A TLB entry that matches (R355). -/
def tlbHit (t : List TlbEntry) (ctx va : Nat) : Option TlbEntry :=
  t.find? fun e => e.ctx == ctx && e.vpn == (if e.big then va / 2 ^ 29 else va / 2 ^ 16)

/-- Where a global physical address leads an access of a core (R99, R286, R387). -/
def State.resolve (s : State) (core ctx gpa : Nat) : Except Nat Loc :=
  let pkg := gpa / 2 ^ 48
  let die := gpa / 2 ^ 46 % 4
  let loc := gpa % 2 ^ 46
  let hbm := loc < 0x003000000000
  let host := 0x200000000000 ≤ loc ∧ loc < 0x300000000000
  if !s.ownPkg gpa then
    if 144 ≤ pkg then .error cRange
    else if 0x300000000000 ≤ loc then .error cAccessDenied
    else if !hbm || !backed loc then .error cRange
    else if s.lostPkgs.contains pkg || s.lostDies.contains (pkg, die) then .error cPeerLost
    else .ok (.remote pkg (physKey die loc))
  else if hbm then
    if !backed loc then .error cRange
    else if (s.die die).lost then .error cPeerLost
    else if !s.worldOk (dieOf core) die then .error cAccessDenied
    else .ok (.mem (physKey die loc))
  else if host then
    if die ≠ 0 then .error cRange
    else if !s.worldOk (dieOf core) 0 then .error cAccessDenied
    else .ok (.host (loc - 0x200000000000))
  else if loc < 0x300000000000 then .error cRange
  else if ctx ≠ 0 then .error cAccessDenied
  else if (s.die die).lost then .error cPeerLost
  else if !s.worldOk (dieOf core) die then .error cAccessDenied
  else .ok (.mem (physKey die loc))

/-- The checks after the walk (R205 steps 4 to 6, R388). -/
def State.useLeaf (s : State) (w : Who) (va : Nat) (e : BitVec 64) (big : Bool) (p : Path)
    (write : Bool) : Xl :=
  let typ := leafType e
  let gpa := leafFrame e * 65536 + (if big then va % 2 ^ 29 else va % 2 ^ 16)
  let perm := p = .fetch ∨ (if write then leafW e else leafR e) = true
  if typ = 1 then
    match typeFault p 1 with
    | some c => .bad c
    | none => if perm then .ver (leafFrame e % 256) else .bad cAccessDenied
  else
    match s.resolve w.core w.ctx gpa with
    | .error c => .bad c
    | .ok loc =>
      match typeFault p typ with
      | some c => .bad c
      | none =>
        if p = .fetch ∧ leafClass e = 1 ∧ 128 ≤ (s.die (dieOf w.core)).world.toNat then .bad cFetchNotExec
        else if perm then .ok loc (leafKey e) else .bad cAccessDenied

/-- CSMTAB entry of a cluster as a die read it with the descriptor, and as the table holds it where the context
is resident nowhere (R314). -/
def State.csmEntry (s : State) (die ctx cl : Nat) : W64 :=
  match (s.ctx ctx).desc with
  | [] => BitVec.ofNat 64 (s.readNat 0 (gpaKey ((s.descMem ctx 13).toNat % 2 ^ 56 + 8 * cl)) 8)
  | _ => s.descOn die ctx (64 + cl)

/-- CSM allotment of a context in a cluster (R95, R315): base and size in bytes, and SEALOFF.  The
core's plane gives it, or the descriptor's table where another context is active. -/
def State.csmAllot (s : State) (w : Who) (cl : Nat) : Nat × Nat × Nat :=
  let word :=
    if (s.core w.core).activeCtx = some w.ctx then tabGet 0 (s.core w.core).plane (64 + cl)
    else s.csmEntry (dieOf w.core) w.ctx cl
  (word.toNat % 256 * 65536, word.toNat / 256 % 512 * 65536, word.toNat / 2 ^ 20 % 8192 * 4096)

/-- A window address (R93, R94, R95, R98, R102). -/
def State.window (s : State) (w : Who) (va len : Nat) (p : Path) : Xl :=
  let sel := va / 2 ^ 48 % 64
  if sel = 0 then
    if va / 2 ^ 21 % 2 ^ 27 ≠ 0 then .bad cRange
    else
      let off := va % 2 ^ 21
      match tabFind s.teams w.team with
      | none => .bad cRange
      | some t =>
        if t.allot * 65536 < off + len then .bad cRange
        else match typeFault p 0 with
          | some c => .bad c
          | none => .ok (.mem (padKey w.team + off)) 0
  else if sel = 1 then
    if va / 2 ^ 30 % 2 ^ 18 ≠ 0 then .bad cRange
    else
      let cl := va / 2 ^ 24 % 64
      let off := va % 2 ^ 24
      let (base, size, sealOff) := s.csmAllot w cl
      let span := size - sealOff
      if size < off + len then .bad cRange
      else if sealOff < size ∧ size - span / 256 < off + len then .bad cRange
      else if (s.die (cl / 16)).lost then .bad cPeerLost
      else if !s.worldOk (dieOf w.core) (cl / 16) then .bad cAccessDenied
      else match typeFault p (if sealOff ≤ off then 2 else 0) with
        | some c => .bad c
        | none => .ok (.mem (csmKey (cl / 16) (cl % 16) (base + off))) 0
  else .bad cRange

/-- Steps 1 to 6 of R205 but alignment, with the TLBs alone. -/
def State.look (s : State) (w : Who) (va : W64) (len : Nat) (p : Path) (write : Bool) : Xl :=
  let a := va.toNat
  if 2 ^ 55 ≤ a then .bad cRange
  else if 2 ^ 54 ≤ a then s.window w a len p
  else
    match tlbHit (s.core w.core).tlb w.ctx a with
    | some e => s.useLeaf w a e.leaf e.big p write
    | none =>
      match tlbHit (s.cluster (clusterOf w.core)).tlb w.ctx a with
      | some e => s.useLeaf w a e.leaf e.big p write
      | none => .miss

/-- The access kind of a walk for a path. -/
def walkKind (p : Path) (write : Bool) : AKind := if p = .fetch then .fetch else if write then .write else .read

/-- The same with the walk made on a miss: engines, fetches and the fabric (R355; log 14). -/
def State.xlate (s : State) (w : Who) (va : W64) (len : Nat) (p : Path) (write : Bool) : Xl :=
  match s.look w va len p write with
  | .miss =>
    match s.walk w va.toNat (walkKind p write) with
    | .error c => .bad c
    | .ok (e, big) => s.useLeaf w va.toNat e big p write
  | r => r

/-- A TLB filled: 512 entries in a core, 16,384 in a cluster; a full one loses an entry (R355). -/
def tlbFill (cap victim : Nat) (t : List TlbEntry) (e : TlbEntry) : List TlbEntry :=
  let t := t.filter fun x => !(x.ctx == e.ctx && x.vpn == e.vpn && x.big == e.big)
  if t.length < cap then e :: t else e :: t.eraseIdx (victim % cap)

/-- Both TLBs filled by a completed walk (R355). -/
def State.fillTlbs (s : State) (w : Who) (va : Nat) (leaf : BitVec 64) (big : Bool) : State :=
  let e : TlbEntry := ⟨w.ctx, if big then va / 2 ^ 29 else va / 2 ^ 16, big, leaf⟩
  (s.modCore w.core fun c => { c with tlb := tlbFill 512 (Config.victim s.ticks) c.tlb e }).modCluster
    (clusterOf w.core) fun c => { c with tlb := tlbFill 16384 (Config.victim s.ticks) c.tlb e }

/-- The walk that an engine, a fetch or the fabric makes on a miss fills both TLBs, as a task's does
(R355). -/
def State.fillMiss (s : State) (w : Who) (p : Path) (write : Bool) (va : Nat) : State :=
  if 2 ^ 54 ≤ va ∨ (tlbHit (s.core w.core).tlb w.ctx va).isSome ∨
      (tlbHit (s.cluster (clusterOf w.core)).tlb w.ctx va).isSome then s
  else match s.walk w va (walkKind p write) with
    | .error _ => s
    | .ok (e, big) => s.fillTlbs w va e big

/-- The pages of a list of units, each named once where units follow one another. -/
def pagesOf : List (Nat × Nat) → List Nat
  | [] => []
  | (va, n) :: us =>
    let ps := pagesOf us
    let last := (va + n - 1) / 65536
    let ps := if ps.head? = some last then ps else last :: ps
    if ps.head? = some (va / 65536) then ps else va / 65536 :: ps

/-- The same for every page of a list of units. -/
def State.fillUnits (s : State) (w : Who) (p : Path) (write : Bool) (us : List (Nat × Nat)) : State :=
  (pagesOf us).foldl (fun s page => s.fillMiss w p write (65536 * page)) s

/-- Does the HBM controller refuse an access that bears memory key `mk` (R361, R391, R404)? -/
def State.refused (s : State) (mk key : Nat) (write : Bool) : Bool :=
  isHbm key &&
    ((tabGet (0, 0) s.mkeys mk).1 == 2 ||
      (write && ((s.lockOf key).isSome ||
        s.scrubs.any fun r => r.die == key / 2 ^ 46 && r.runs.any fun q =>
          q.1 ≤ key % 2 ^ 46 / 65536 && key % 2 ^ 46 / 65536 < q.1 + q.2)))

/-! ## Queues and tokens -/

/-- Has a load-queue entry taken its value?  One that waits for an older one to leave has (R116); a VLDV, which
has no pieces, takes its own with its answer. -/
def Access.taken (a : Access) : Bool :=
  (a.kind == .load || (a.kind == .ver && !a.pieces.isEmpty)) && !a.xlate && a.pieces.all fun p => p.stage == 4

/-- Has every load of a team named below `seq` taken its value (R117, R120)? -/
def State.loadsTaken (s : State) (core team seq : Nat) : Bool :=
  (s.core core).loads.all fun a =>
    a.team != team || a.cmd != 0 || seq ≤ a.id || a.kind == .prefetch || a.taken

/-- The stage of R114 at which a store counts as performed for a scope. -/
def scopeStage (scope : Nat) : Nat :=
  match scope with
  | 0 | 1 => 1
  | 2 => 2
  | 3 => 3
  | 5 => 5
  | _ => 4

/-- The last stage of a piece: host memory has one more than the ordering point (R413). -/
def Piece.lastStage (p : Piece) : Nat :=
  match p.loc with
  | some (.host _) => 5
  | _ => 4

/-- Is a piece performed for a scope? -/
def Piece.performedFor (p : Piece) (scope : Nat) : Bool := min (scopeStage scope) p.lastStage ≤ p.stage

/-- Is every store of a team named below `seq` performed for a scope (R117, R120)? -/
def State.storesPerformed (s : State) (core team seq scope : Nat) : Bool :=
  (s.core core).stores.all fun a => a.team != team || a.cmd != 0 || seq ≤ a.id || a.pieces.all (·.performedFor scope)

/-- Has every write that was sent again for a port that went down been performed (R416)? -/
def State.noResent (s : State) : Bool := s.ports.all fun p => p.2.resent.isEmpty

/-- The condition of a release at a scope (R120) for what is named below `seq`; one at HOST waits for the writes sent
again too (R419). -/
def State.releaseReady (s : State) (core team seq scope : Nat) : Bool :=
  s.loadsTaken core team seq && s.storesPerformed core team seq scope && (scope != 5 || s.noResent)

/-- Has every queue entry of a team translated (R39, R366)? -/
def State.translated (s : State) (core team : Nat) : Bool :=
  (s.core core).loads.all (fun a => a.team != team || !a.xlate || a.kind == .prefetch) &&
    (s.core core).stores.all (fun a => a.team != team || !a.xlate)

/-- Is a thing that a token stands for complete (R81, R125, R211)? -/
def State.depDone (s : State) : Dep → Bool
  | .cmd id => !s.openCmds.contains id
  | .mem team seq =>
    match tabFind s.teams team with
    | some t =>
      match t.core with
      | some c => s.releaseReady c team seq 1
      | none => true
    | none => true

/-- Is it complete, and has no write of it anything left to reach?  A token forgets it then. -/
def State.depOver (s : State) (d : Dep) : Bool :=
  s.depDone d && (match d with
    | .cmd id => s.cores.all fun c => c.2.stores.all fun a => a.cmd != id
    | .mem _ _ => true)

/-- Are all of them complete? -/
def State.depsDone (s : State) (ds : List Dep) : Bool := ds.all s.depDone

/-- Units of a record with `n` live registers (R37). -/
def recUnits (n : Nat) : Nat := 1 + (n + 7) / 8

/-- Registers that a live mask names, x0 apart (R32). -/
def liveRegs (m : W64) : List Nat := (List.range 64).filter fun i => i != 0 && m.getLsbD i

/-- Bytes written by an agent of the part that is no task, each unless its frame or its key refuses it
(R361, R391, R404). -/
def State.agentWrite (s : State) (mk k : Nat) : List (BitVec 8) → State
  | [] => s
  | b :: bs => (if s.refused mk k true then s else (s.rekeyGranule mk k).setByte k b).agentWrite mk (k + 1) bs

/-- A number written so, as `n` little-endian bytes. -/
def State.agentNat (s : State) (mk k n v : Nat) : State := s.agentWrite mk k (leBytes n v)

/-- Pool units in use by a context's records or reserved by its VLDVs, the image directory included
(R37). -/
def State.poolUsed (s : State) (ctx : Nat) : Nat :=
  512 + (s.teams.map fun e => if e.2.ctx = ctx then (e.2.recs.map (·.units)).sum else 0).sum +
    (s.vreqs.map fun e => if e.2.ctx = ctx ∧ e.2.op = .read then recUnits (liveRegs e.2.xm).length else 0).sum

/-- Units of a context's pool (R314). -/
def State.poolSize (s : State) (ctx : Nat) : Nat := (s.descWord ctx 5).toNat % 2 ^ 32

/-- Numbers of the pool units that a context's records hold, counted from a pool base. -/
def State.unitsHeld (s : State) (base ctx : Nat) : List Nat :=
  (s.teams.map fun e => if e.2.ctx = ctx then (e.2.recs.map fun r =>
    r.places.map fun a => (a - base) / 64).flatten else []).flatten

/-- The least number of a list. -/
def least : List Nat → Option Nat
  | [] => none
  | x :: xs => match least xs with
    | none => some x
    | some y => some (min x y)

/-- The pool units that a new record of `n` units takes: the lowest run of free ones behind the directory,
or the lowest free ones where no run is long enough (DESIGN CHOICE, log 8). -/
def freeUnits (held : List Nat) (size n : Nat) : List Nat :=
  match least ((512 :: held.map (· + 1)).filter fun c =>
      decide (512 ≤ c) && decide (c + n ≤ size) && held.all fun u => decide (u < c) || decide (c + n ≤ u)) with
  | some c => (List.range n).map (c + ·)
  | none => (((List.range (held.length + n)).map (512 + ·)).filter fun c =>
      decide (c < size) && !held.contains c).take n

/-- Global physical addresses of the units of a new record of a context (R33, R37). -/
def State.poolPlaces (s : State) (core ctx n : Nat) : List Nat :=
  let base := s.poolBase core ctx
  (freeUnits (s.unitsHeld base ctx) (s.poolSize ctx) n).map fun u => base + 64 * u

/-- A record's global physical address, 0 for none (R33). -/
def Rec.addr (r : Rec) : Nat := r.places.headD 0

/-- The eight words of a record's header (R33); LINK is the part's own (log 9). -/
def Rec.words (r : Rec) (index slot : Nat) (link : BitVec 64) : List Nat :=
  [r.pc.toNat, r.live.toNat,
    index % 2 ^ 16 + slot % 2 ^ 16 * 2 ^ 16 + r.kind % 256 * 2 ^ 32 + r.state % 256 * 2 ^ 40,
    r.obj.toNat, r.arg.toNat, r.deadline % 2 ^ 64, r.status % 2 ^ 32, link.toNat]

/-- Do the writes of a core, where one is named, get through the die-to-die ports to a key (R387)? -/
def State.reaches (s : State) (core : Option Nat) (k : Nat) : Bool :=
  match core with
  | some c => s.worldOk (dieOf c) (k / 2 ^ 46)
  | none => true

/-- A record's header written to the pool, under its context's key (R33, R105), where the ports let the write through
(R387). -/
def State.showRec (s : State) (uid id : Nat) : State :=
  match tabFind s.teams uid with
  | none => s
  | some t =>
    match t.recs.find? fun r => r.id == id with
    | none => s
    | some r =>
      match r.places with
      | [] => s
      | a :: _ =>
        if s.reaches t.core (gpaKey a) then
          s.agentWrite (s.keyOn (t.core.getD 512) t.ctx) (gpaKey a)
            ((r.words t.index t.slot (Config.chainHead s.ticks)).map (leBytes 8)).flatten
        else s

/-- The register values of a record written to its units, eight to a unit, in ascending register order
(R32, R37). -/
def State.fillRec (s : State) (core : Option Nat) (mk : Nat) (places : List Nat) (vals : List W64) : State :=
  vals.zipIdx.foldl (fun s v => match places[1 + v.2 / 8]? with
    | some a => if s.reaches core (gpaKey a) then s.agentNat mk (gpaKey a + 8 * (v.2 % 8)) 8 v.1.toNat else s
    | none => s) s

/-- A record added to its team and written to the pool (R32, R33, R37); one at STATE 1 is enqueued. -/
def State.addRec (s : State) (uid : Nat) (r : Rec) : State :=
  match tabFind s.teams uid with
  | none => s
  | some t =>
    let core := t.core.getD 512
    let r := { r with places := s.poolPlaces core t.ctx r.units }
    let s := s.setTeam uid { t with
      recs := t.recs ++ [r], ready := if r.state = 1 then t.ready ++ [r.id] else t.ready }
    (s.fillRec t.core (s.keyOn core t.ctx) r.places ((liveRegs r.live).map (tabGet 0 r.regs))).showRec uid r.id

/-- A record changed, and its header with it. -/
def State.modRec (s : State) (uid id : Nat) (f : Rec → Rec) : State :=
  (s.modTeam uid fun t => { t with recs := t.recs.map fun r => if r.id = id then f r else r }).showRec uid id

/-! ## Versioned regions and their chains (R107, R108) -/

/-- A V-region as its descriptor gives it. -/
structure Region where
  addr : Nat
  base : Nat
  size : Nat
  k : Nat
  home : Nat
  w : Nat
  floor : Nat
  ring : Nat
  dir : Nat
  deriving DecidableEq, Repr

/-- A region's descriptor, if it is valid. -/
def State.region (s : State) (ctx n : Nat) : Option Region :=
  let a := gpaKey (s.vrtab 512 ctx + 64 * n)
  let f := fun off len => s.readNat 0 (a + off) len
  if f 13 1 < 128 then none
  else some ⟨a, f 0 8, f 8 4, f 12 1, f 13 1 % 4, f 16 4 % 2 ^ 21, f 20 4, f 24 8, f 32 8⟩

/-- Key of a granule's waiter chain. -/
def verKey (ctx region g : Nat) : Nat := (ctx * 256 + region) * 2 ^ 26 + g

/-- The chain of a granule replaced, with bits 127:64 of its directory entry: 0 for an empty chain (R108;
log 9). -/
def State.setVerChain (s : State) (key : Nat) (l : List Waiter) : State :=
  let s := { s with verChains := tabSet [] s.verChains key l }
  let ctx := key / 2 ^ 34
  match s.region ctx (key / 2 ^ 26 % 256) with
  | none => s
  | some r => s.agentNat (s.ctxKey ctx) (gpaKey (r.dir + 16 * (key % 2 ^ 26)) + 8) 8
      (if l.isEmpty then 0 else (Config.chainHead s.ticks).toNat)

/-- The waiters that `gone` names leave the chains of all granules. -/
def State.dropVerWaiters (s : State) (gone : Waiter → Bool) : State :=
  s.verChains.foldl (fun s e =>
    if e.2.any gone then s.setVerChain e.1 (e.2.filter fun w => !gone w) else s) s

/-- The PWAIT chain of a region replaced, with its descriptor's field: 0 for an empty chain (R107; log 9). -/
def State.setPwait (s : State) (ctx n : Nat) (l : List Nat) : State :=
  let s := { s with pwait := tabSet [] s.pwait (ctx * 256 + n) l }
  match s.region ctx n with
  | none => s
  | some r => s.agentNat 0 (r.addr + 48) 8 (if l.isEmpty then 0 else (Config.chainHead s.ticks).toNat)

/-! ## Faults -/

/-- Is a team's launch to be terminated as soon as its record has room?  It has been aborted (R423, R424). -/
def State.isDoomed (s : State) (t : Team) : Bool := s.doomed.any fun d => d.ctx == t.ctx && d.slot == t.slot

/-- The launch of a team. -/
def State.launchOf (s : State) (t : Team) : Option Launch :=
  (s.ctx t.ctx).launches.find? fun l => l.slot == t.slot

/-- One machine-check record: logged, in the place of the oldest once the log holds 256, and MSI-X 2,047 raised
(R423). -/
def State.logCheck (s : State) (code die core ctx addr : Nat) : State :=
  let r : McRec := ⟨code, die, core, ctx, addr, (s.die die).gnomon.toNat⟩
  let t : State := { s with outbox := s.outbox ++ [.msix 2047] }
  if s.mclog.length < 256 then { t with mclog := s.mclog ++ [r], mcNext := (s.mclog.length + 1) % 256 }
  else { t with mclog := s.mclog.set (s.mcNext % 256) r, mcNext := (s.mcNext + 1) % 256 }

/-- The newest record of the log. -/
def State.lastCheck (s : State) : Option McRec :=
  if s.mclog.length < 256 then s.mclog.getLast? else s.mclog[(s.mcNext + 255) % 256]?

/-- The global physical address that a virtual address of a context names on a core; 0 where it names none. -/
def State.physAddr (s : State) (w : Who) (va : W64) : Nat :=
  match s.xlate w va 1 .debug false with
  | .ok (.mem k) _ => if k < 2 ^ 48 then s.pkg.toNat * 2 ^ 48 + k else 0
  | .ok (.remote p a) _ => p * 2 ^ 48 + a
  | _ => 0

/-- The die's record of a fault of a task of C0x000 (R313, R423).  ADDR is physical, and 0 for a fault whose address
is a tile, a number or a value of the task's. -/
def State.logFault (s : State) (uid core code : Nat) (addr : W64) : State :=
  let a := if 0x40 ≤ code ∧ code ≠ cPeerLost then 0 else s.physAddr ⟨core, uid, 0⟩ addr
  s.logCheck 0xE4 (dieOf core) core 0 a

/-- A running task is gone: its results in flight are discarded (R86), loads still in the queue
complete without a destination, commands fill nothing of it, its origin record is freed (R34), and of a WAITS
or WAITB that was still to end it nothing is left. -/
def State.endTask (s : State) (uid : Nat) : State :=
  match tabFind s.teams uid with
  | none => s
  | some t =>
    match t.task with
    | none => s
    | some k =>
      let stale : Nat → Bool := fun id => some id == k.origin || k.hold == Hold.ending id
      let s := s.setTeam uid { t with task := none, recs := t.recs.filter fun r => !stale r.id, ready := t.ready.filter fun r => r == 0 || !stale r }
      let s : State := { s with reqs := s.reqs.filter fun e => match e.2 with
        | .semWait _ _ (.task u id _) => !(u == uid && k.hold == Hold.ending id)
        | .barWait _ _ _ u id => !(u == uid && k.hold == Hold.ending id)
        | _ => true }
      let s : State := { s with
        focus := if s.focus = some uid then none else s.focus
        images := s.images.map fun m =>
          { m with cmds := m.cmds.map fun d => if d.team = uid then { d with regs := [] } else d } }
      match t.core with
      | none => s
      | some c => s.modCore c fun q => { q with
          results := q.results.filter fun r => r.team != uid
          loads := q.loads.map fun a => if a.team = uid then { a with dst := .none } else a
          cmds := q.cmds.map fun d => if d.team = uid then { d with regs := [] } else d }

/-- Queue entries of a team from name `from` on are discarded (R365 step 1, R131). -/
def State.dropYounger (s : State) (core uid bound : Nat) : State :=
  let s := s.modCore core fun q => { q with
    loads := q.loads.filter fun a => a.team != uid || a.cmd != 0 || a.id < bound
    stores := q.stores.filter fun a => a.team != uid || a.cmd != 0 || a.id < bound }
  { s with vreqs := s.vreqs.filter fun e =>
      !(e.2.src == .task uid core && bound ≤ e.2.seq && !e.2.held) }

/-- Stores of a team that have not left the store queue are discarded, and its loads (R38). -/
def State.dropUnperformed (s : State) (core uid : Nat) : State :=
  let s := s.modCore core fun q => { q with
    loads := q.loads.filter fun a => a.team != uid || a.cmd != 0
    stores := (q.stores.map fun a =>
      if a.team = uid ∧ a.cmd = 0 then { a with pieces := a.pieces.filter fun p => 0 < p.stage } else a).filter
        fun a => !a.pieces.isEmpty }
  { s with vreqs := s.vreqs.filter fun e => !(e.2.src == .task uid core && !e.2.held) }

/-- (A << 8) | KIND of a record (R40, R362); 0 for none. -/
def originWord (r : Option Rec) : W64 :=
  match r with
  | some r => w64 (r.addr * 2 ^ 8 + r.kind)
  | none => 0

/-- Everything a fault record says (R362). -/
structure FaultInfo where
  die : Nat
  code : Nat
  source : Nat
  flags : Nat
  unit : Nat
  ctx : Nat
  core : Nat
  pc : W64
  addr : W64
  tag : W64
  team : Nat
  mpc : Nat
  origin : W64
  /-- Names for the release of the record. -/
  uid : Nat
  recId : Nat
  /-- Parked command; for a BREAK, TASKID of the task that it holds. -/
  cmd : Nat
  deriving DecidableEq, Repr

/-- FQBASE + 64 × FQTAIL of a die (R322). -/
def Die.tailAddr (d : Die) : Nat := d.fqbase.toNat + 64 * d.fqtail.toNat

/-- COUNT of FQTAIL (R318): records written and not released. -/
def Die.fqCount (d : Die) : Nat := (d.fq.filter fun r => !r.released).length

/-- QEPOCH of a die at its GNOMON (R318): an advance that is due counts for what happens in its ac or later (R373). -/
def Die.epochNow (d : Die) : BitVec 32 :=
  if d.up then d.qepoch + BitVec.ofNat 32 (d.gnomon.toNat / 9400 - d.epochAt) else d.qepoch

/-- Ticks of a die that are due and not yet made (R344). -/
def Die.ticksDue (d : Die) : Nat := if d.up then d.gnomon.toNat / 47000 - d.tick else 0

/-- Is a tick of a die due, or a window (R344)? -/
def Die.fairDue (d : Die) : Bool :=
  d.up && (decide (d.tick < d.gnomon.toNat / 47000) || decide (d.win < d.gnomon.toNat / 9400000))

/-- Has QDONE reached an epoch?  Epochs are compared modulo 2^32, so one is behind where it is less than 2^31 older
(R318, R369; log 113). -/
def State.quiesced (s : State) (epoch : Nat) : Bool := decide ((s.qdone - BitVec.ofNat 32 epoch).toNat < 2 ^ 31)

/-- Is a die's fault queue full (R322)?  A record behind an unreleased one keeps its place in the ring. -/
def Die.fqFull (d : Die) : Bool := d.fqsize.toNat ≤ d.fq.length

/-- The eight words of a fault record (R362). -/
def FaultInfo.words (i : FaultInfo) (epoch : BitVec 32) : List Nat :=
  [i.code % 256 + i.source * 2 ^ 8 + i.flags * 2 ^ 16 + i.unit * 2 ^ 24 + i.ctx % 4096 * 2 ^ 32 +
      i.core % 512 * 2 ^ 48,
    i.pc.toNat, i.addr.toNat, i.tag.toNat, i.team % 2 ^ 32 + epoch.toNat * 2 ^ 32, i.mpc,
    i.origin.toNat, 0]

/-- A task of the system context made ready on a die, at a PC and with x1 to x5 (R322). -/
def State.startSystem (s : State) (die : Nat) (pc : W64) (regs : Tab W64) : State :=
  let (id, s) := s.fresh
  s.addRec (sysTeam die)
    { id := id, pc := pc, live := 0x3E, regs := regs, kind := 5, state := 1, obj := 0, arg := 0, deadline := 0
      status := 0, scope := 0, units := 2, places := [], seq := none, deps := [], since := 0 }

/-- A record written to the fault queue of the die, FQTAIL advanced, and a handler task of C0x000
started at HPC (R322).  The queue has room. -/
def State.queueFault (s : State) (i : FaultInfo) : State :=
  let d := s.die i.die
  let base := physKey i.die (d.tailAddr % 2 ^ 46)
  let s := s.agentWrite 0 base ((i.words d.epochNow).map (leBytes 8)).flatten
  let r : FaultRec :=
    { index := d.fqtail.toNat, code := i.code, source := i.source, team := i.uid, origin := i.recId
      cmd := i.cmd, core := i.core, flags := i.flags, unit := i.unit, mpc := i.mpc, parked := i.flags.testBit 2, term := i.flags.testBit 3, released := false
      pc := i.pc, addr := i.addr }
  let s := s.modDie i.die fun d => { d with
    fq := d.fq ++ [r]
    fqtail := BitVec.ofNat 12 ((d.fqtail.toNat + 1) % d.fqsize.toNat) }
  s.startSystem i.die (d.hpc.zeroExtend 64)
    [(1, w64 d.tailAddr), (2, w64 i.code), (3, w64 (0x80000000 + i.core)), (4, i.addr), (5, w64 i.ctx)]

/-- A finished launch leaves its slot, and its DONEINC is sent (R20). -/
def State.settleLaunch (s : State) (ctx slot : Nat) : State :=
  match (s.ctx ctx).launches.find? fun l => l.slot == slot with
  | none => s
  | some l =>
    if l.retired < l.teams then s
    else
      let s := s.modCtx ctx fun c => { c with launches := c.launches.filter fun l => l.slot != slot }
      match l.done with
      | none => s
      | some n =>
        let (id, s) := s.fresh
        { s with reqs := tabPut s.reqs id (.semSig ctx n l.doneinc.toNat 0 0 0 l.tag 5 none 0) }

/-- SQLDs of these names are no longer outstanding, and the places that they reserved are free (R214). -/
def State.dropSqlds (s : State) (ids : List Nat) : State :=
  { s with teams := s.teams.map fun t =>
      if t.2.sqPend.any fun q => ids.contains q.1 then
        (t.1, { t.2 with sqPend := t.2.sqPend.filter fun q => !ids.contains q.1 })
      else t }

/-- A command that is discarded: it does nothing more and its token never becomes done (R244, R252). -/
def State.dropCmds (s : State) (core : Nat) (p : Cmd → Bool) : State :=
  let ids := ((s.core core).cmds.filter p).map (·.id)
  (s.modCore core fun q => { q with
    sb := q.sb.filter fun e => !ids.contains e.cmd
    loads := q.loads.filter fun a => a.cmd == 0 || !ids.contains a.cmd
    cmds := q.cmds.filter fun c => !p c }).dropSqlds ids

/-- One team of a terminated launch: its task is aborted and its records go (R20, R40), with what waits on
their behalf.  Of its commands those that have not started or are parked are discarded and the others run on
(DESIGN CHOICE, log 86). -/
def State.killTeam (s : State) (uid : Nat) : State :=
  match tabFind s.teams uid with
  | none => s
  | some t =>
    let stops : Cmd → Bool := fun d => d.team == uid && (!d.started || d.parked)
    let ids := (s.cores.map fun c => (c.2.cmds.filter stops).map (·.id)).flatten ++
      (s.images.map fun m => (m.cmds.filter stops).map (·.id)).flatten
    let s := match t.core with
      | some c => (s.dropUnperformed c uid).dropCmds c stops
      | none => s
    let images := s.images.map fun m => { m with cmds := m.cmds.filter fun d => !stops d }
    let s : State := { s with images := images }
    let gone : Waiter → Bool := fun w => match w with
      | .task u _ _ => u == uid
      | .cmd _ id => ids.contains id
    let s := s.dropVerWaiters gone
    let s : State := { s with
      semChains := s.semChains.map fun e => (e.1, e.2.filter fun w => !gone w)
      reqs := s.reqs.filter fun e => match e.2 with
        | .semWait _ _ w => !gone w
        | .barWait _ _ _ u _ => u != uid
        | _ => true }
    (s.endTask uid).modTeam uid fun t =>
      { t with recs := [], ready := [], startAborted := false, dead := true }

/-- A launch is terminated: every team of it is discarded (R20, R40). -/
def State.killLaunch (s : State) (ctx slot : Nat) : State :=
  let s := s.modCtx ctx fun c => { c with launches := c.launches.map fun l =>
    if l.slot = slot then
      { l with terminated := true, retired := l.retired + (l.teams - l.placed), placed := l.teams }
    else l }
  let s := (s.teams.filter fun e => e.2.ctx == ctx && e.2.slot == slot && !e.2.dead).foldl
    (fun s e => s.killTeam e.1) s
  s.settleLaunch ctx slot

/-- What a fault record says beside the code and the addresses (R362): SOURCE, FLAGS, UNIT and MPC. -/
structure Found where
  source : Nat
  flags : Nat
  unit : Nat
  mpc : Nat
  deriving DecidableEq, Repr

/-- A fault passed to FHANDLER (R40): a handler task of the team with x1 to x4, or, where FHANDLER is 0
or a handler task faulted, a TERM record and the end of the launch (R364).  `none` while that record
must wait for room.  A team whose launch is terminated takes no handler, and a fault of C0x000 is only recorded
(R313). -/
def State.passFault (s : State) (uid : Nat) (core : Nat) (code : Nat) (pc addr : W64) (x4 : W64)
    (handler : Bool) (fd : Found) : Option State :=
  match tabFind s.teams uid with
  | none => some s
  | some t =>
    if t.ctx = 0 then some (s.logFault uid core code addr)
    else
    match s.launchOf t with
    | none => some s
    | some l =>
      if t.dead then some s
      else if l.fhandler = 0 ∨ handler then
        if (s.die (dieOf core)).fqFull then none
        else
          let s := s.queueFault
            { die := dieOf core, code := code, source := fd.source, flags := fd.flags + 8, unit := fd.unit
              ctx := t.ctx, core := core, pc := pc, addr := addr, tag := l.tag
              team := t.index + t.slot * 2 ^ 16, mpc := fd.mpc, origin := x4, uid := uid, recId := 0, cmd := 0 }
          some (s.killLaunch t.ctx t.slot)
      else
        let (id, s) := s.fresh
        some (s.addRec uid
          { id := id, pc := l.fhandler, live := 0x1E
            regs := [(1, w64 code), (2, pc), (3, addr), (4, x4)], kind := 5, state := 1, obj := 0
            arg := 0, deadline := 0, status := 0, scope := 0, units := 2, places := [], seq := none
            deps := [], since := 0 })

/-- Requeue faults (R38, R363); ACC_NOT_OWNED is one where another context holds the tile. -/
def requeues (code : Nat) (lent : Bool) : Bool :=
  code == cFetchNotPresent || code == cFetchStraddle || code == cLoadNotPresent ||
    code == cStoreNotPresent || (code == cAccNotOwned && lent)

/-- A fault as an instruction or a queue entry finds it. -/
structure Raise where
  code : Nat
  addr : W64
  write : Bool
  fetch : Bool
  /-- ACC_NOT_OWNED with the tile held by another context. -/
  lent : Bool
  deriving DecidableEq, Repr

/-- FLAGS of a task's fault (R362). -/
def Raise.flags (f : Raise) : Nat := (if f.write then 1 else 0) + (if f.fetch then 2 else 0)

/-- TAKING A FAULT of a task (R38, R40, R313, R322, R364, R365): the PC of the faulting instruction and
the name of the first queue entry that is discarded; older entries leave their queues, whichever way the
fault is settled (R365 step 1, R294; log 83).  `none` while the fault must wait for room in the
fault queue, and the task stays at its boundary. -/
def State.takeFault (s : State) (uid : Nat) (pc : W64) (f : Raise) (bound : Nat) : Option State :=
  match tabFind s.teams uid with
  | none => some s
  | some t =>
    match t.task, t.core with
    | some k, some c =>
      let origin := k.origin.bind fun o => t.recs.find? fun r => r.id == o
      if t.ctx = 0 then
        some (((s.dropYounger c uid bound).endTask uid).logFault uid c f.code f.addr)
      else if requeues f.code f.lent then
        if (s.die (dieOf c)).fqFull then none
        else
          let tag := match s.launchOf t with
            | some l => l.tag
            | none => 0
          let keep := origin.map fun r => { r with state := 3, seq := some k.seq }
          let s := (s.dropYounger c uid bound).endTask uid
          let s := s.modTeam uid fun t => match keep with
            | some r => { t with recs := t.recs ++ [r] }
            | none => { t with startAborted := true, startSeq := some k.seq }
          let s := match keep with
            | some r => s.showRec uid r.id
            | none => s
          some (s.queueFault
            { die := dieOf c, code := f.code, source := 0, flags := f.flags, unit := 0
              ctx := t.ctx, core := c, pc := pc, addr := f.addr, tag := tag
              team := t.index + t.slot * 2 ^ 16, mpc := 0, origin := originWord origin, uid := uid
              recId := k.origin.getD 0, cmd := 0 })
      else
        let s := (s.dropYounger c uid bound).endTask uid
        s.passFault uid c f.code pc f.addr (originWord origin) k.handler ⟨0, f.flags, 0, 0⟩
    | _, _ => some s

/-- The return from a requeue fault (R323, R365 step 4): the aborted task's origin is ready again, with
its TASKID. -/
def State.requeue (s : State) (uid recId : Nat) : State :=
  (s.modTeam uid fun t =>
    if recId = 0 then
      if t.startAborted then { t with startAborted := false, ready := t.ready ++ [0] } else t
    else if t.recs.any fun r => r.id == recId && r.state == 3 then
      { t with
        recs := t.recs.map fun r => if r.id = recId then { r with state := 1 } else r
        ready := t.ready ++ [recId] }
    else t).showRec uid recId

/-- A parked continuation made ready with a status (R32, R34, R115). -/
def State.wakeRec (s : State) (uid recId status : Nat) : State :=
  (s.modTeam uid fun t =>
    if t.recs.any fun r => r.id == recId && r.state == 0 then
      { t with
        recs := t.recs.map fun r => if r.id = recId then { r with state := 1, status := status } else r
        ready := t.ready ++ [recId] }
    else t).showRec uid recId

end Sys2Proof.Machine
end

