-- ==== Sys2Proof/Machine/Operands.lean ====
section
/-! DEFINITION. The frame of issue: which task issues, stage predication, full and empty operands, and
how an instruction ends (R13, R83, R85, R138). -/

namespace Sys2Proof.Machine

/-- The task that issues, with its team and core. -/
structure Env where
  uid : Nat
  team : Team
  task : Task
  core : Nat
  deriving DecidableEq, Repr

/-- The task selected for issue. -/
def State.issuer (s : State) : Option Env :=
  match s.focus with
  | none => none
  | some u =>
    match tabFind s.teams u with
    | none => none
    | some t =>
      match t.task, t.core with
      | some k, some c => some ⟨u, t, k, c⟩
      | _, _ => none

/-- Who translates for the issuing task. -/
def Env.who (e : Env) : Who := ⟨e.core, e.uid, e.team.ctx⟩

/-- Die of the issuing task. -/
def Env.die (e : Env) : Nat := dieOf e.core

/-- A source operand with its FE bit (R85). -/
inductive SrcOp where
  | x (r : BitVec 6) (fe : Bool)
  | v (n g : Nat) (fe : Bool)
  deriving DecidableEq, Repr

/-- A destination operand. -/
inductive DstOp where
  | x (r : BitVec 6)
  | v (n g : Nat)
  deriving DecidableEq, Repr

/-- Is a source empty? -/
def Task.srcEmpty (t : Task) : SrcOp → Bool
  | .x r _ => t.xIsEmpty r
  | .v n g _ => t.vIsEmpty n g

/-- Does a source trap: empty with FE = 1 (R85)? -/
def Task.srcTraps (t : Task) : SrcOp → Bool
  | .x r fe => fe && t.xIsEmpty r
  | .v n g fe => fe && t.vIsEmpty n g

/-- Is a destination empty (R85)? -/
def Task.dstEmpty (t : Task) : DstOp → Bool
  | .x r => t.xIsEmpty r
  | .v n g => t.vIsEmpty n g

/-- What an instruction comes to once its operands are there. -/
inductive Act where
  | done (s : State)
  /-- It does not issue: its task stays before it (R13). -/
  | hold
  | fault (r : Raise)

/-- A plain fault code with its address. -/
def Act.raise (code : Nat) (addr : W64) : Act := .fault ⟨code, addr, false, false, false⟩

/-- The task after an instruction has issued. -/
def State.commit (s : State) (e : Env) (t : Task) : State :=
  { s.setTask e.uid { t with held := false, issued := s.ticks } with focus := none }

/-- May a team's task issue on a core: its context is active there and not halting (R315), or it is of C0x000,
whose tasks run beside the active context (R312; log 29)?  A launch that has been aborted issues no more (R423). -/
def State.mayIssue (s : State) (core : Nat) (t : Team) : Bool :=
  (t.ctx == 0 || ((s.core core).activeCtx == some t.ctx && !(s.core core).halting)) && !s.isDoomed t

/-- Is a team's task to be asked next on a core: it may issue there, and has not been found held in this
round (R340)? -/
def State.asks (s : State) (core : Nat) (t : Team) : Bool :=
  t.core == some core && s.mayIssue core t &&
    match t.task with
    | some k => !k.held && k.hold == .free
    | none => false

/-- When a team's task last issued. -/
def Team.lastIssue (t : Team) : Nat :=
  match t.task with
  | some k => k.issued
  | none => 0

/-- Comes the task of one team before that of another: C0x000's before a tenant's (log 29), then by PRIO, then by
when it issued last (R340)? -/
def Team.asksBefore (y x : Team) : Bool :=
  if (y.ctx == 0) != (x.ctx == 0) then y.ctx == 0
  else decide (x.prio < y.prio) || (x.prio == y.prio && decide (y.lastIssue < x.lastIssue))

/-- The team of those asked whose launch has the highest PRIO and whose task issued least recently
(R340). -/
def firstAsked : List (Nat × Team) → Option (Nat × Team)
  | [] => none
  | x :: xs =>
    match firstAsked xs with
    | none => some x
    | some y =>
      if y.2.asksBefore x.2 then some y else some x

/-- The task that a core's front end asks next. -/
def State.nextAsked (s : State) (core : Nat) : Option Nat :=
  (firstAsked (s.teams.filter fun t => s.asks core t.2)).map (·.1)

/-- The task stays before the instruction (R13), and the front end asks the next one in the same round
(R340). -/
def State.holdTask (s : State) (e : Env) : State :=
  let s := s.setTask e.uid { e.task with held := true }
  { s with focus := s.nextAsked e.core }

/-- A fault of the instruction at the task's PC.  It is taken once the task's older accesses have
translated, since one of them may fault first (R366), and it waits for room in the fault queue (R322). -/
def State.raise (s : State) (e : Env) (r : Raise) : State :=
  if s.translated e.core e.uid then
    match s.takeFault e.uid e.task.pc r s.nextId with
    | some s' => { s' with focus := none }
    | none => s.holdTask e
  else s.holdTask e

/-- Is a stage active (R83)?  With no loop active every stage is. -/
def Task.stageActive (t : Task) (st : Nat) : Bool := t.active == 0 || t.active.getLsbD st

/-- Issue of the selected task's instruction of `bytes` bytes in stage `st`.  A source with FE = 1 that is empty
traps before anything else can hold the instruction (DESIGN CHOICE, log 89). -/
def issue (st : Nat) (bytes : Nat) (srcs : List SrcOp) (dsts : List DstOp) (body : Env → State → Act)
    (s : State) : Host.Outcome State Fault Refusal :=
  match s.issuer with
  | none => .fault .noTask
  | some e =>
    if e.task.hold ≠ .free then .next (s.holdTask e)
    else if e.task.stageActive st = false then .next (s.commit e (e.task.advance bytes))
    else if srcs.any e.task.srcTraps then .next (s.raise e ⟨cFeTrap, 0, false, false, false⟩)
    else if srcs.any e.task.srcEmpty || dsts.any e.task.dstEmpty then .next (s.holdTask e)
    else match body e s with
      | .done s' => .next s'
      | .hold => .next (s.holdTask e)
      | .fault r => .next (s.raise e r)

/-- An instruction whose whole effect is one scalar result. -/
def scalar (st bytes : Nat) (d : BitVec 6) (srcs : List SrcOp) (val : Task → W64) (s : State) :
    Host.Outcome State Fault Refusal :=
  issue st bytes srcs [.x d]
    (fun e s => .done (s.commit e ((e.task.setX d (val e.task)).advance bytes))) s

/-- Sources of format S. -/
def FS.srcs (f : FS) : List SrcOp := [.x f.xa f.fea, .x f.xb f.feb]

/-- Sources of format SW without XC. -/
def FSW.srcs (f : FSW) : List SrcOp := [.x f.xa f.fea, .x f.xb f.feb]

/-- Sources of format SW with XC. -/
def FSW.srcs3 (f : FSW) : List SrcOp := [.x f.xa f.fea, .x f.xb f.feb, .x f.xc f.fec]

/-- A signed immediate widened to 64 bits (R137). -/
def sx {n : Nat} (v : BitVec n) : W64 := v.signExtend 64

/-- One as a 64-bit value where a condition holds, else zero. -/
def boolW (b : Bool) : W64 := if b then 1 else 0

/-- A two-source operation in format S. -/
def scalarS (f : FS) (op : W64 → W64 → W64) (s : State) : Host.Outcome State Fault Refusal :=
  scalar 0 4 f.xd (FS.srcs f) (fun t => op (t.getX f.xa) (t.getX f.xb)) s

/-- A two-source operation in format SW, with IMM22. -/
def scalarSW (f : FSW) (op : W64 → W64 → BitVec 22 → W64) (s : State) :
    Host.Outcome State Fault Refusal :=
  scalar f.st.toNat 8 f.xd (FSW.srcs f) (fun t => op (t.getX f.xa) (t.getX f.xb) f.imm) s

/-- An instruction that changes only its own task. -/
def taskOp (st bytes : Nat) (srcs : List SrcOp) (f : Task → Task) (s : State) :
    Host.Outcome State Fault Refusal :=
  issue st bytes srcs [] (fun e s => .done (s.commit e (f e.task))) s

end Sys2Proof.Machine
end

