-- ==== Sys2Proof/Machine/Fetch.lean ====
section
/-! DEFINITION. Fetching an instruction's bytes, the task that may issue, time, and the state that
`withFetchWord` builds. -/

namespace Sys2Proof.Machine

/-- What a fetch gives. -/
inductive Fetched where
  | instr (i : Instr)
  | fault (r : Raise)
  | undecodable

/-- A fault of a fetch. -/
def fetchRaise (code : Nat) (addr : W64) : Raise := ⟨code, addr, false, true, false⟩

/-- The line of a core's instruction cache that holds a byte of code, by context, virtual page and place (R10, R145,
R325; log 87). -/
def State.cached (s : State) (w : Who) (va k : Nat) : Option ILine :=
  (s.core w.core).icache.find? fun l => l.ctx == w.ctx && l.vpn == va / 65536 && l.line == k / 128

/-- Key of a code byte by virtual address, and the memory key of its page.  A read of a line that the cache does not
hold is refused where the page's key is dead (R391). -/
def State.codeByte (s : State) (e : Env) (pc : W64) : Except Nat (Nat × Nat) :=
  match s.xlate e.who pc 4 .fetch false with
  | .ok (.mem k) mkey =>
    if (s.cached e.who pc.toNat k).isNone && s.refused mkey k false then .error cAccessDenied else .ok (k, mkey)
  | .ok _ _ => .error cFetchNotExec
  | .bad c => .error c
  | .ver _ => .error cFetchNotExec
  | .miss => .error cFetchNotPresent

/-- The leaf under which a core fetches an address: a TLB entry or the walk's (R356). -/
def State.fetchLeaf (s : State) (w : Who) (va : Nat) : Except Nat (BitVec 64 × Bool) :=
  match tlbHit (s.core w.core).tlb w.ctx va with
  | some e => .ok (e.leaf, e.big)
  | none =>
    match tlbHit (s.cluster (clusterOf w.core)).tlb w.ctx va with
    | some e => .ok (e.leaf, e.big)
    | none => s.walk w va .fetch

/-- The boundary bitmap's bit for the parcel at a key (R145). -/
def State.isStart (s : State) (key : Nat) : Bool :=
  match s.lockOf key with
  | none => false
  | some c => c.bitmap.testBit (c.frames.idxOf (key / 65536) * 16384 + key % 65536 / 4)

/-- The check of a transfer's target (R147, R164); `true` where the transfer raises BRANCH_TARGET.  An
absent page and a malformed entry fault at the fetch of the target instead; a window or an address
without a translation lies outside every section (DEDUCED, log 16). -/
def State.badTarget (s : State) (w : Who) (target : W64) : Bool :=
  if target.toNat % 4 ≠ 0 then true
  else if 2 ^ 54 ≤ target.toNat then true
  else match s.fetchLeaf w target.toNat with
    | .error _ => false
    | .ok (e, big) =>
      if leafType e ≠ 3 then true
      else !s.isStart (gpaKey (leafFrame e * 65536 +
        (if big then target.toNat % 2 ^ 29 else target.toNat % 2 ^ 16)))

/-- The fault that a transfer's target meets in translation: it is raised when the target is fetched, whatever
the page has become by then (R164). -/
def State.targetFault (s : State) (w : Who) (target : W64) : Option Nat :=
  if 2 ^ 54 ≤ target.toNat then none
  else match s.fetchLeaf w target.toNat with
    | .error c => some c
    | .ok _ => none

/-! ## The instruction cache (R10, R145, R325; log 87) -/

/-- One byte of code, from the instruction cache where it holds the line. -/
def State.codeAt (s : State) (w : Who) (va mkey k : Nat) : BitVec 8 :=
  match s.cached w va k with
  | some l => l.bytes.extractLsb' (8 * (k % 128)) 8
  | none => s.readByte mkey k

/-- `n` bytes of code of one page. -/
def State.codeBytes (s : State) (w : Who) (va mkey k : Nat) : Nat → List (BitVec 8)
  | 0 => []
  | n + 1 => s.codeAt w va mkey k :: s.codeBytes w va mkey (k + 1) n

/-- The line of a byte of code brought into the cache: 2,048 lines of 128 bytes, of which the one filled
first makes room. -/
def State.cacheLine (s : State) (w : Who) (va mkey k : Nat) : State :=
  match s.cached w va k with
  | some _ => s
  | none =>
    let l : ILine := ⟨w.ctx, va / 65536, k / 128, BitVec.ofNat 1024 (s.readNat mkey (k / 128 * 128) 128)⟩
    s.modCore w.core fun c => { c with icache := (l :: c.icache).take 2048 }

/-- Is a task at its first fetch (R147, R365)?  A task that has issued nothing has no stamp of an issue. -/
def Env.atStart (e : Env) : Bool := e.task.issued == 0

/-- Bytes of the instruction whose first parcel lies at a place. -/
def State.codeLength (s : State) (w : Who) (va mkey k : Nat) : Nat :=
  4 * lengthOfBits (BitVec.ofNat 96 (leNat (s.codeBytes w va mkey k 4)))

/-- Fetch of the issuing task's instruction (R147, R367): both pages of an instruction that spans two
are translated before it is decoded, and the first fetch of every task is checked as a transfer is (R365). -/
def State.fetch (s : State) (e : Env) : Fetched :=
  let pc := e.task.pc
  if e.atStart && s.badTarget e.who pc then .fault (fetchRaise cBranchTarget pc)
  else match e.task.badFetch with
  | some c => .fault (fetchRaise c pc)
  | none => match s.codeByte e pc with
  | .error c => .fault (fetchRaise c pc)
  | .ok (k, mkey) =>
    let n := s.codeLength e.who pc.toNat mkey k
    let room := 65536 - pc.toNat % 65536
    if n ≤ room then
      match s.codeByte e (pc + w64 (n - 1)) with
      | .error c => .fault (fetchRaise c pc)
      | .ok _ => match decode (s.codeBytes e.who pc.toNat mkey k n) with
      | .ok (i, _) => .instr i
      | .error _ => .undecodable
    else
      let pc2 := pc + w64 room
      match s.codeByte e pc2 with
      | .error c => .fault (fetchRaise (if c = cAccessDenied then c else cFetchStraddle) pc2)
      | .ok (k2, mkey2) =>
        let lock := fun k => (s.lockOf k).map (·.id)
        if lock k ≠ lock k2 then .fault (fetchRaise cFetchStraddle pc2)
        else match decode (s.codeBytes e.who pc.toNat mkey k room ++
            s.codeBytes e.who pc2.toNat mkey2 k2 (n - room)) with
          | .ok (i, _) => .instr i
          | .error _ => .undecodable

/-- What a fetch leaves in the TLBs and the instruction cache: the translations of its pages, and the lines
of its first and its last byte (R145, R355, R367). -/
def State.fetchFill (s : State) (e : Env) : State :=
  let pc := e.task.pc
  let s := s.fillMiss e.who .fetch false pc.toNat
  match s.codeByte e pc with
  | .error _ => s
  | .ok (k, mkey) =>
    let n := s.codeLength e.who pc.toNat mkey k
    let last := pc + w64 (n - 1)
    let s := s.cacheLine e.who pc.toNat mkey k
    if n ≤ 65536 - pc.toNat % 65536 then s.cacheLine e.who pc.toNat mkey (k + n - 1)
    else
      let s := s.fillMiss e.who .fetch false last.toNat
      match s.codeByte e last with
      | .error _ => s
      | .ok (k2, mkey2) => s.cacheLine e.who last.toNat mkey2 k2

/-- The selected task, if it may still issue on its core (R315). -/
def State.runner (s : State) : Option Env :=
  match s.issuer with
  | none => none
  | some e =>
    if s.mayIssue e.core e.team then some e else none

/-- Time moves on: GNOMON of every die that is up (R9). -/
def State.tick (s : State) : State :=
  { s with
    ticks := s.ticks + 1
    dies := s.dies.map fun e =>
      if e.2.up then (e.1, { e.2 with gnomon := e.2.gnomon + w64 (1 + Config.elapsed s.ticks) }) else e }

/-- Virtual address at which `withFetchWord` places its instruction. -/
def fetchVa : Nat := 0x10000000

/-- Key of the frame that holds it. -/
def fetchFrame : Nat := 0x100000000

/-- A task at its start (R30).  FPMODE is the team's and stands as its previous task left it (DEDUCED, log 92). -/
def taskStart (pc : W64) (regs : Tab W64) (seq : BitVec 32) (origin : Option Nat) (handler : Bool) :
    Task where
  pc := pc; x := regs; xEmpty := 0; v := []; vEmpty := 0; p := []; tok := []; rows := 16; cols := 32
  wc := 0; left := 0; active := 0; last := 0; rs := 0; rrb := 0; semBase := 0; seq := seq; ret := []
  badFetch := none
  origin := origin; marks := []; acqs := []; hold := .free; handler := handler; held := false
  issued := 0

/-- A team at placement (R24, R26, R223). -/
def teamStart (ctx slot index core tslot allot acct prio : Nat) (tiles : List Nat)
    (groups : List (Nat × Nat × Nat)) : Team where
  ctx := ctx; slot := slot; index := index; core := some core; tslot := tslot; allot := allot
  acct := acct; prio := prio; tiles := tiles; tilesUsed := []; groups := groups; fpmode := 0
  fpflags := 0; sat := false; scales := []; sqPend := []; qrec := []; bufs := []; task := none
  startAborted := false; startSeq := none; recs := []; ready := [0]; started := 0; dirty := 0
  mqCode := 0; refusals := []; posted := []; dead := false

/-- The launch that `withFetchWord` lets run: one team, 64 KiB of scratchpad, eight tiles. -/
def fetchLaunch : Launch where
  slot := 0; entry := w64 fetchVa; args := 0; fhandler := 0; teams := 1; allot := 1; acct := 8
  prio := 0; gather := false; nomig := false; diemask := 0; groups := []; done := none; doneinc := 0
  tag := 0; placed := 1; retired := 0; terminated := false; order := 0

/-- See `State.withFetchWord`. -/
def fetchState (s : State) (bytes : List (BitVec 8)) : State :=
  let leaf : BitVec 64 := BitVec.ofNat 64 (0x33 + (255 * 2 ^ 48 + fetchFrame) / 65536 * 4096)
  let s := s.modDie 0 fun d => { d with up := true, latched := true }
  let s := s.modCore 0 fun c => { c with
    usable := true
    plane := [(0, w64 (2 ^ 63 + 1))]
    tlb := [⟨1, fetchVa / 65536, false, leaf⟩] }
  let s := s.modCtx 1 fun c => { c with
    desc := [(0, [(0, 1)])], resid := [(0, .resident)], launches := [fetchLaunch] }
  let s := s.setTeam 16 { teamStart 1 0 0 0 0 1 8 0 [0, 1, 2, 3, 4, 5, 6, 7] [] with
    task := some (taskStart (w64 fetchVa) [] 0 none false), ready := [], started := 1 }
  let s := s.writeBytes 0 fetchFrame bytes
  { s with
    sections := [⟨1, 0, 1, 0, fetchVa, 1, [fetchFrame / 65536], 2 ^ 16384 - 1, 0, true, 0⟩]
    focus := some 16, nextId := 17, agenda := [] }

end Sys2Proof.Machine
end

