-- ==== Sys2Proof/Machine/Crypto.lean ====
section
/-! DEFINITION. The published algorithms that the spec names: CRC-32C (R316), AES-256 with GCM and key
wrap (R103, R393), SHA-384 and HKDF (R146, R394) and P-384 (R392, R399).  The spec names them and does
not restate them (PRESUMED, log 27). -/

namespace Sys2Proof.Machine

/-! ## CRC-32C (R316) -/

/-- Eight steps of the reflected polynomial 0x1EDC_6F41. -/
def crcByte (c : BitVec 32) : Nat → BitVec 32
  | 0 => c
  | n + 1 => crcByte (if c.getLsbD 0 then (c >>> 1) ^^^ 0x82F63B78#32 else c >>> 1) n

/-- CRC-32C of bytes in address order. -/
def crc32c (bs : List (BitVec 8)) : BitVec 32 :=
  ~~~(bs.foldl (fun c b => crcByte (c ^^^ b.zeroExtend 32) 8) (~~~(0#32)))

/-! ## AES-256 (FIPS 197) -/

/-- Product in GF(2^8) modulo x^8 + x^4 + x^3 + x + 1. -/
def gfMul (a b : BitVec 8) : Nat → BitVec 8
  | 0 => 0
  | n + 1 =>
    let a2 := (a <<< 1) ^^^ (if a.getLsbD 7 then 0x1B#8 else 0)
    (if b.getLsbD 0 then a else 0) ^^^ gfMul a2 (b >>> 1) n

/-- Product of two bytes. -/
def gf (a b : BitVec 8) : BitVec 8 := gfMul a b 8

/-- Inverse: the 254th power; 0 for 0. -/
def gfInv (a : BitVec 8) : BitVec 8 :=
  let a2 := gf a a
  let a4 := gf a2 a2
  let a8 := gf a4 a4
  let a16 := gf a8 a8
  let a32 := gf a16 a16
  let a64 := gf a32 a32
  let a128 := gf a64 a64
  gf a128 (gf a64 (gf a32 (gf a16 (gf a8 (gf a4 a2)))))

/-- The substitution box. -/
def aesSub (a : BitVec 8) : BitVec 8 :=
  let b := gfInv a
  b ^^^ b.rotateLeft 1 ^^^ b.rotateLeft 2 ^^^ b.rotateLeft 3 ^^^ b.rotateLeft 4 ^^^ 0x63#8

/-- Its inverse. -/
def aesUnsub (a : BitVec 8) : BitVec 8 :=
  gfInv (a.rotateLeft 1 ^^^ a.rotateLeft 3 ^^^ a.rotateLeft 6 ^^^ 0x05#8)

/-- Exclusive or of two byte strings. -/
def xorBytes (a b : List (BitVec 8)) : List (BitVec 8) := List.zipWith (· ^^^ ·) a b

/-- Key expansion: words after the first eight, newest first, from word `i` on. -/
def aesExpand (i : Nat) (rcon : BitVec 8) (ws : List (List (BitVec 8))) : Nat → List (List (BitVec 8))
  | 0 => ws
  | n + 1 =>
    let t := ws.headD []
    let t := if i % 8 = 0 then
        (match (t.drop 1 ++ t.take 1).map aesSub with
          | x :: xs => (x ^^^ rcon) :: xs
          | [] => [])
      else if i % 8 = 4 then t.map aesSub else t
    aesExpand (i + 1) (if i % 8 = 0 then gf rcon 2 else rcon) (xorBytes t (ws.getD 7 []) :: ws) n

/-- Bytes four at a time. -/
def words4 (bs : List (BitVec 8)) : Nat → List (List (BitVec 8))
  | 0 => []
  | n + 1 => bs.take 4 :: words4 (bs.drop 4) n

/-- The 15 round keys of 16 bytes. -/
def aesKeys (key : List (BitVec 8)) : List (List (BitVec 8)) :=
  let ws := (aesExpand 8 1 (words4 key 8).reverse 52).reverse
  (List.range 15).map fun r => ((ws.drop (4 * r)).take 4).flatten

/-- A permutation of the 16 bytes. -/
def permBytes (b : List (BitVec 8)) (f : Nat → Nat) : List (BitVec 8) :=
  (List.range 16).map fun i => b.getD (f i) 0

/-- One column mixed by a row of four factors. -/
def mixColumn (c m : List (BitVec 8)) : List (BitVec 8) :=
  (List.range 4).map fun r =>
    (List.range 4).foldl (fun a k => a ^^^ gf (m.getD ((k + 4 - r) % 4) 0) (c.getD k 0)) 0

/-- The four columns mixed. -/
def mixColumns (b m : List (BitVec 8)) : List (BitVec 8) :=
  ((words4 b 4).map fun c => mixColumn c m).flatten

/-- Encryption of one block. -/
def aesEncrypt (ks : List (List (BitVec 8))) (b : List (BitVec 8)) : List (BitVec 8) :=
  let shift := fun (b : List (BitVec 8)) => permBytes b fun i => (i + 4 * (i % 4)) % 16
  let s := (List.range 13).foldl (fun s r =>
    xorBytes (mixColumns (shift (s.map aesSub)) [2, 3, 1, 1]) (ks.getD (r + 1) [])) (xorBytes b (ks.getD 0 []))
  xorBytes (shift (s.map aesSub)) (ks.getD 14 [])

/-- Decryption of one block. -/
def aesDecrypt (ks : List (List (BitVec 8))) (b : List (BitVec 8)) : List (BitVec 8) :=
  let unshift := fun (b : List (BitVec 8)) => permBytes b fun i => (i + 16 - 4 * (i % 4)) % 16
  let s := (List.range 13).foldl (fun s r =>
    mixColumns (xorBytes ((unshift s).map aesUnsub) (ks.getD (13 - r) [])) [14, 11, 13, 9])
    (xorBytes b (ks.getD 14 []))
  xorBytes ((unshift s).map aesUnsub) (ks.getD 0 [])

/-! ## Galois/Counter Mode (SP 800-38D) with a 96-bit nonce and no associated data (R103) -/

/-- Big-endian number of bytes. -/
def beNat (bs : List (BitVec 8)) : Nat := bs.foldl (fun n b => n * 256 + b.toNat) 0

/-- `n` big-endian bytes of a number. -/
def beBytes (n v : Nat) : List (BitVec 8) := (leBytes n v).reverse

/-- Product in GF(2^128), the first bit of a block being the coefficient of 1. -/
def ghashMul (x v z : BitVec 128) : Nat → BitVec 128
  | 0 => z
  | n + 1 =>
    ghashMul (x <<< 1)
      (if v.getLsbD 0 then (v >>> 1) ^^^ (0xE1#128 <<< 120) else v >>> 1)
      (if x.getLsbD 127 then z ^^^ v else z) n

/-- GHASH of whole blocks. -/
def ghash (h : BitVec 128) : List (BitVec 128) → BitVec 128 → BitVec 128
  | [], y => y
  | b :: bs, y => ghash h bs (ghashMul (y ^^^ b) h 0 128)

/-- Bytes sixteen at a time as blocks, the last padded with zeros. -/
def blocks16 (bs : List (BitVec 8)) : Nat → List (BitVec 128)
  | 0 => []
  | n + 1 =>
    BitVec.ofNat 128 (beNat ((bs.take 16 ++ List.replicate 16 0).take 16)) :: blocks16 (bs.drop 16) n

/-- Counter-mode key stream for `n` blocks from counter `c` up. -/
def gcmStream (ks : List (List (BitVec 8))) (nonce : List (BitVec 8)) (c : Nat) : Nat → List (BitVec 8)
  | 0 => []
  | n + 1 => aesEncrypt ks (nonce ++ beBytes 4 c) ++ gcmStream ks nonce (c + 1) n

/-- The tag of a ciphertext. -/
def gcmTag (ks : List (List (BitVec 8))) (nonce ct : List (BitVec 8)) : List (BitVec 8) :=
  let h := BitVec.ofNat 128 (beNat (aesEncrypt ks (List.replicate 16 0)))
  let s := ghash h (blocks16 ct ((ct.length + 15) / 16) ++ [BitVec.ofNat 128 (8 * ct.length)]) 0
  xorBytes (beBytes 16 s.toNat) (gcmStream ks nonce 1 1)

/-- A sealed chunk opened (R103, R104): none where its tag does not match. -/
def gcmOpen (key nonce ct tag : List (BitVec 8)) : Option (List (BitVec 8)) :=
  let ks := aesKeys key
  if gcmTag ks nonce ct = tag then some (xorBytes ct (gcmStream ks nonce 2 ((ct.length + 15) / 16)))
  else none

/-! ## Key wrap (RFC 3394) -/

/-- One step of unwrapping: A and R[i] from counter `t`. -/
def unwrapStep (ks : List (List (BitVec 8))) (n : Nat) (st : List (BitVec 8) × List (List (BitVec 8)))
    (t : Nat) : List (BitVec 8) × List (List (BitVec 8)) :=
  let i := (t - 1) % n
  let b := aesDecrypt ks (xorBytes st.1 (beBytes 8 t) ++ st.2.getD i [])
  (b.take 8, st.2.set i (b.drop 8))

/-- Bytes eight at a time. -/
def words8 (bs : List (BitVec 8)) : Nat → List (List (BitVec 8))
  | 0 => []
  | n + 1 => bs.take 8 :: words8 (bs.drop 8) n

/-- AES-256 key unwrap: none where the integrity check fails. -/
def keyUnwrap (key w : List (BitVec 8)) : Option (List (BitVec 8)) :=
  let n := w.length / 8 - 1
  let ks := aesKeys key
  let (a, r) := ((List.range (6 * n)).map fun i => 6 * n - i).foldl (unwrapStep ks n)
    (w.take 8, words8 (w.drop 8) n)
  if a = List.replicate 8 0xA6 then some r.flatten else none

/-! ## SHA-384 (FIPS 180-4), HMAC and HKDF (RFC 5869) -/

/-- Is a number above 1 without a divisor from `d` up? -/
def primeFrom (p d : Nat) : Nat → Bool
  | 0 => true
  | n + 1 => if p < d * d then true else if p % d = 0 then false else primeFrom p (d + 1) n

/-- The primes below `n`, in order. -/
def primesBelow (n : Nat) : List Nat := (List.range n).filter fun p => 2 ≤ p && primeFrom p 2 p

/-- Largest number whose `k`-th power is at most `v`, by bits from `b` down. -/
def rootOf (k v : Nat) (r : Nat) : Nat → Nat
  | 0 => r
  | b + 1 => rootOf k v (if (r + 2 ^ b) ^ k ≤ v then r + 2 ^ b else r) b

/-- The first 64 bits of the fractional part of a square root. -/
def sqrtFrac (p : Nat) : BitVec 64 := BitVec.ofNat 64 (rootOf 2 (p * 2 ^ 128) 0 70)

/-- The first 64 bits of the fractional part of a cube root. -/
def cbrtFrac (p : Nat) : BitVec 64 := BitVec.ofNat 64 (rootOf 3 (p * 2 ^ 192) 0 70)

/-- The 80 round constants. -/
def shaK : List (BitVec 64) := (primesBelow 410).map cbrtFrac

/-- The initial value: the ninth to sixteenth primes. -/
def sha384Init : List (BitVec 64) := (((primesBelow 54).drop 8).take 8).map sqrtFrac

/-- Message schedule, newest word first. -/
def shaSchedule (ws : List (BitVec 64)) : Nat → List (BitVec 64)
  | 0 => ws
  | n + 1 =>
    let a := ws.getD 1 0
    let b := ws.getD 14 0
    let s1 := a.rotateRight 19 ^^^ a.rotateRight 61 ^^^ (a >>> 6)
    let s0 := b.rotateRight 1 ^^^ b.rotateRight 8 ^^^ (b >>> 7)
    shaSchedule ((s1 + ws.getD 6 0 + s0 + ws.getD 15 0) :: ws) n

/-- One round on the eight working variables. -/
def shaRound (v : List (BitVec 64)) (kw : BitVec 64 × BitVec 64) : List (BitVec 64) :=
  match v with
  | [a, b, c, d, e, f, g, h] =>
    let t1 := h + (e.rotateRight 14 ^^^ e.rotateRight 18 ^^^ e.rotateRight 41) +
      ((e &&& f) ^^^ (~~~e &&& g)) + kw.1 + kw.2
    let t2 := (a.rotateRight 28 ^^^ a.rotateRight 34 ^^^ a.rotateRight 39) +
      ((a &&& b) ^^^ (a &&& c) ^^^ (b &&& c))
    [t1 + t2, a, b, c, d + t1, e, f, g]
  | v => v

/-- One block of 128 bytes. -/
def shaBlock (h : List (BitVec 64)) (blk : List (BitVec 8)) : List (BitVec 64) :=
  let w := (words8 blk 16).map fun x => BitVec.ofNat 64 (beNat x)
  let ws := (shaSchedule w.reverse 64).reverse
  List.zipWith (· + ·) h ((List.zip shaK ws).foldl shaRound h)

/-- Whole blocks in order. -/
def shaBlocks (h : List (BitVec 64)) (bs : List (BitVec 8)) : Nat → List (BitVec 64)
  | 0 => h
  | n + 1 => shaBlocks (shaBlock h (bs.take 128)) (bs.drop 128) n

/-- SHA-384. -/
def sha384 (bs : List (BitVec 8)) : List (BitVec 8) :=
  let n := bs.length
  let pad := bs ++ [0x80] ++ List.replicate ((239 - n % 128) % 128) 0 ++ beBytes 16 (8 * n)
  ((shaBlocks sha384Init pad (pad.length / 128)).map fun w => beBytes 8 w.toNat).flatten.take 48

/-- HMAC with SHA-384, for keys of at most 128 bytes. -/
def hmac384 (key bs : List (BitVec 8)) : List (BitVec 8) :=
  let k := key ++ List.replicate (128 - key.length) 0
  sha384 (k.map (· ^^^ 0x5C) ++ sha384 (k.map (· ^^^ 0x36) ++ bs))

/-- HKDF-SHA-384 with one block of output. -/
def hkdf384 (salt ikm info : List (BitVec 8)) (len : Nat) : List (BitVec 8) :=
  (hmac384 (hmac384 salt ikm) (info ++ [1])).take len

/-! ## P-384 (FIPS 186, SEC 2) -/

def p384p : Nat := 2 ^ 384 - 2 ^ 128 - 2 ^ 96 + 2 ^ 32 - 1
def p384b : Nat := 0xb3312fa7e23ee7e4988e056be3f82d19181d9c6efe8141120314088f5013875ac656398d8a2ed19d2a85c8edd3ec2aef
def p384n : Nat := 0xffffffffffffffffffffffffffffffffffffffffffffffffc7634d81f4372ddf581a0db248b0a77aecec196accc52973
def p384gx : Nat := 0xaa87ca22be8b05378eb1c71ef320ad746e1d3b628ba79b9859f741e082542a385502f25dbf55296c3a545e3872760ab7
def p384gy : Nat := 0x3617de4a96262c6f5d9e98bf9292dc29f8f41dbd289a147ce9da3113b5f0b8c00a60b1ce1d7e819d7a431d7c90ea0e5f

/-- A power modulo `m`, by the exponent's bits from `b` down. -/
def powMod (m a e r : Nat) : Nat → Nat
  | 0 => r
  | b + 1 => powMod m a e (let q := r * r % m; if e.testBit b then q * a % m else q) b

/-- Inverse modulo a prime of at most 384 bits. -/
def invMod (m a : Nat) : Nat := powMod m (a % m) (m - 2) 1 384

/-- A point; none is the point at infinity. -/
abbrev Point := Option (Nat × Nat)

/-- Sum of two points. -/
def pointAdd (a b : Point) : Point :=
  let p := p384p
  match a, b with
  | none, q => q
  | q, none => q
  | some (x1, y1), some (x2, y2) =>
    if x1 = x2 ∧ (y1 + y2) % p = 0 then none
    else
      let l := if x1 = x2 then (3 * x1 * x1 + (p - 3)) * invMod p (2 * y1) % p
        else (y2 + p - y1) * invMod p (x2 + p - x1) % p
      let x3 := (l * l + 2 * p - x1 - x2) % p
      some (x3, (l * (x1 + p - x3) + p - y1) % p)

/-- A multiple of a point, by the factor's bits from `b` down. -/
def pointMul (k : Nat) (q r : Point) : Nat → Point
  | 0 => r
  | b + 1 => pointMul k q (let d := pointAdd r r; if k.testBit b then pointAdd d q else d) b

/-- The public point of a private key. -/
def publicPoint (d : Nat) : Point := pointMul d (some (p384gx, p384gy)) none 384

/-- The 97-byte uncompressed encoding (R393). -/
def pointBytes (q : Point) : List (BitVec 8) :=
  match q with
  | some (x, y) => 4 :: (beBytes 48 x ++ beBytes 48 y)
  | none => List.replicate 97 0

/-- A point from its encoding, if it is one of the curve. -/
def pointOf (bs : List (BitVec 8)) : Point :=
  let x := beNat ((bs.drop 1).take 48)
  let y := beNat ((bs.drop 49).take 48)
  if bs.head? = some 4 ∧ x < p384p ∧ y < p384p ∧
      y * y % p384p = (x * x * x + (p384p - 3) * x + p384b) % p384p then some (x, y)
  else none

/-- Private key from a free value: 1 to n − 1. -/
def privateKey (v : Nat) : Nat := v % (p384n - 1) + 1

/-- ECDSA signature of a SHA-384 hash with nonce `k`: two 48-byte big-endian integers (R399). -/
def ecdsaSign (d k : Nat) (hash : List (BitVec 8)) : List (BitVec 8) :=
  let r := match publicPoint k with
    | some (x, _) => x % p384n
    | none => 0
  beBytes 48 r ++ beBytes 48 (invMod p384n k * (beNat hash + r * d) % p384n)

end Sys2Proof.Machine
end

