-- ==== Sys2Proof/Machine/Control.lean ====
section
/-! DEFINITION. Control transfers, software-pipelined loops, and the task and control-register
instructions: majors 0x08 to 0x0F (R163 to R179). -/

namespace Sys2Proof.Machine

/-! ## Transfers -/

/-- A transfer to `target` from a task state (R163, R164): the check, then the new PC.  The target's page is
translated as a fetch is, and an absent or malformed one faults when the target is fetched. -/
def transfer (e : Env) (t : Task) (target : W64) (s : State) : Act :=
  if s.badTarget e.who target then Act.raise cBranchTarget target
  else .done ((s.fillMiss e.who .fetch false target.toNat).commit e
    { t with pc := target, badFetch := s.targetFault e.who target })

/-- PC + 4 × OFF (R137). -/
def Task.target {n : Nat} (t : Task) (off : BitVec n) : W64 := t.pc + (sx off <<< 2)

/-- The condition CC on a value (R135). -/
def ccHolds (cc : Nat) (v : W64) : Bool :=
  match cc with
  | 0 => v == 0
  | 1 => v != 0
  | 2 => v.slt 0
  | 3 => !v.slt 0
  | 4 => (0 : W64).slt v
  | _ => !(0 : W64).slt v

/-- BR (R163). -/
def execBr (f : FB) (s : State) : Host.Outcome State Fault Refusal :=
  issue 0 4 [] [] (fun e s => transfer e e.task (e.task.target f.off) s) s

/-- CALL (R163): x63 := PC + 4, which the return stack of 8 entries also takes. -/
def execCall (f : FB) (s : State) : Host.Outcome State Fault Refusal :=
  issue 0 4 [] [.x 63]
    (fun e s =>
      let link := e.task.pc + 4
      transfer e { e.task.setX 63 link with ret := (link :: e.task.ret).take 8 } (e.task.target f.off) s) s

/-- BC (R163). -/
def execBc (f : FBC) (s : State) : Host.Outcome State Fault Refusal :=
  issue 0 4 [.x f.xa f.fea] []
    (fun e s =>
      if ccHolds f.cc.toNat (e.task.getX f.xa) then transfer e e.task (e.task.target f.off) s
      else .done (s.commit e (e.task.advance 4))) s

/-- JMP (R163). -/
def execJmp (f : FS) (s : State) : Host.Outcome State Fault Refusal :=
  issue 0 4 [.x f.xa f.fea] [] (fun e s => transfer e e.task (e.task.getX f.xa) s) s

/-- RET (R163): as JMP, and the return stack loses its newest entry. -/
def execRet (f : FS) (s : State) : Host.Outcome State Fault Refusal :=
  issue 0 4 [.x f.xa f.fea] []
    (fun e s => transfer e { e.task with ret := e.task.ret.drop 1 } (e.task.getX f.xa) s) s

/-! ## Loops -/

/-- LSTAGE and LOOPC cleared: no loop (R166, R167). -/
def Task.noLoop (t : Task) : Task :=
  { t with active := 0, last := 0, rs := 0, rrb := 0, left := 0 }

/-- The effect of LSTART on its task (R165). -/
def Task.lstart (t : Task) (n : Nat) (imm : BitVec 22) : Task :=
  let last := imm.extractLsb' 0 3
  if n = 0 then { t.noLoop with pc := t.pc + w64 (4 * (imm.toNat / 128)) }
  else
    { t with
      left := BitVec.ofNat 35 (n + last.toNat - 1), last := last, rs := imm.extractLsb' 3 4
      rrb := 0, active := 1, pc := t.pc + 8 }

/-- LSTART (R165).  Its jump to EXIT is not among the transfers that R147 checks, and goes unchecked
(DEDUCED, log 91). -/
def execLstart (f : FSW) (s : State) : Host.Outcome State Fault Refusal :=
  taskOp f.st.toNat 8 [.x f.xa f.fea] (fun t => t.lstart ((t.getX f.xa).toNat % 2 ^ 32) f.imm) s

/-- The effect of LNEXT on a task with a loop active and LEFT above 0, the PC apart (R166). -/
def Task.lnext (t : Task) : Task :=
  let left := t.left - 1
  let new0 : BitVec 8 := if t.last.toNat ≤ left.toNat then 1 else 0
  let mask : BitVec 8 := BitVec.ofNat 8 (2 * 2 ^ t.last.toNat - 1)
  { t with left := left, active := ((t.active <<< 1) ||| new0) &&& mask, rrb := t.rrb + t.rs }

/-- LNEXT (R166): executes in every kernel iteration (R138). -/
def execLnext (f : FB) (s : State) : Host.Outcome State Fault Refusal :=
  match s.issuer with
  | none => .fault .noTask
  | some e =>
    let t := e.task
    if t.hold ≠ .free then .next (s.holdTask e)
    else if t.active = 0 then .next (s.commit e (t.advance 4))
    else if t.left = 0 then .next (s.commit e (t.noLoop.advance 4))
    else match transfer e t.lnext (t.target f.off) s with
      | .done s' => .next s'
      | .hold => .next (s.holdTask e)
      | .fault r => .next (s.raise e r)

/-- LEXIT (R167): stage 0. -/
def execLexit (f : FB) (s : State) : Host.Outcome State Fault Refusal :=
  issue 0 4 [] [] (fun e s => transfer e e.task.noLoop (e.task.target f.off) s) s

/-! ## Ending, spawning and yielding -/

/-- The values of the registers that a live mask names (R32). -/
def Task.liveValues (t : Task) (m : W64) : Tab W64 :=
  (liveRegs m).filterMap fun i =>
    let v := t.getX (BitVec.ofNat 6 i)
    if v = 0 then none else some (i, v)

/-- Is every register that a live mask names full (R32, R174)? -/
def Task.liveFull (t : Task) (m : W64) : Bool :=
  (liveRegs m).all fun i => !t.xIsEmpty (BitVec.ofNat 6 i)

/-- Tasks and continuations that count against the limit of 1,024 (R35). -/
def Team.records (t : Team) : Nat :=
  t.recs.length +
    (match t.task with
      | some k => if k.origin = none then 1 else 0
      | none => 0) +
    (if t.ready.contains 0 || t.startAborted then 1 else 0)

/-- A record written by the issuing task, named `id` (R32, R33). -/
def Env.record (e : Env) (id : Nat) (pc : W64) (m : W64) (kind state : Nat) : Rec where
  id := id; pc := pc; live := m &&& ~~~(1 : W64); regs := e.task.liveValues m; kind := kind
  state := state; obj := 0; arg := 0; deadline := 0; status := 0; scope := 0
  units := recUnits (liveRegs m).length; places := []; seq := none; deps := []; since := 0

/-- Has the context's pool room for a record of this mask (R37)? -/
def State.poolRoom (s : State) (ctx : Nat) (m : W64) : Bool :=
  s.poolUsed ctx + recUnits (liveRegs m).length ≤ s.poolSize ctx

/-- END (R173).  It issues once the task's older accesses have translated, so that a fault among them
still finds its task (DEDUCED, log 18). -/
def endOp (st bytes : Nat) (s : State) : Host.Outcome State Fault Refusal :=
  issue st bytes [] []
    (fun e s => if s.translated e.core e.uid then .done (s.endTask e.uid) else .hold) s

/-- END in format S (R173). -/
def execEndTask (_f : FS) (s : State) : Host.Outcome State Fault Refusal := endOp 0 4 s

/-- END in format SW (R158, R173). -/
def execEndTaskSw (f : FSW) (s : State) : Host.Outcome State Fault Refusal := endOp f.st.toNat 8 s

/-- SPAWN (R174): a ready task of the same team at `target`, held for full registers, for its older
accesses' translation (R39), for the limit of R35 and for the pool (R37). -/
def spawn (e : Env) (bytes : Nat) (mask target : W64) (s : State) : Act :=
  if !e.task.liveFull mask then .hold
  else if !s.translated e.core e.uid then .hold
  else if 1024 ≤ e.team.records then .hold
  else if !s.poolRoom e.team.ctx mask then .hold
  else
    let (id, s) := s.fresh
    .done ((s.addRec e.uid (e.record id target mask 0 1)).commit e (e.task.advance bytes))

/-- SPAWN in format S (R172): XB holds the target. -/
def execSpawn (f : FS) (s : State) : Host.Outcome State Fault Refusal :=
  issue 0 4 (FS.srcs f) []
    (fun e s => spawn e 4 (e.task.getX f.xa) (e.task.getX f.xb) s) s

/-- SPAWN in format SW (R172): target PC + 4 × IMM22. -/
def execSpawnSw (f : FSW) (s : State) : Host.Outcome State Fault Refusal :=
  issue f.st.toNat 8 [.x f.xa f.fea] []
    (fun e s => spawn e 8 (e.task.getX f.xa) (e.task.target f.imm) s) s

/-- YIELD (R175): the task ends and leaves a ready continuation of KIND 4. -/
def yield (e : Env) (bytes : Nat) (mask : W64) (s : State) : Act :=
  if !e.task.liveFull mask then .hold
  else if !s.translated e.core e.uid then .hold
  else if !s.poolRoom e.team.ctx mask then .hold
  else
    let (id, s) := s.fresh
    .done ((s.endTask e.uid).addRec e.uid (e.record id (e.task.pc + w64 bytes) mask 4 1))

/-- YIELD in format S (R175). -/
def execYield (f : FS) (s : State) : Host.Outcome State Fault Refusal :=
  issue 0 4 [.x f.xa f.fea] [] (fun e s => yield e 4 (e.task.getX f.xa) s) s

/-- YIELD in format SW (R158, R175). -/
def execYieldSw (f : FSW) (s : State) : Host.Outcome State Fault Refusal :=
  issue f.st.toNat 8 [.x f.xa f.fea] [] (fun e s => yield e 8 (e.task.getX f.xa) s) s

/-- TRAP in format S (R176): USER_TRAP with the value of XA as x3. -/
def execTrap (f : FS) (s : State) : Host.Outcome State Fault Refusal :=
  issue 0 4 [.x f.xa f.fea] [] (fun e _ => Act.raise cUserTrap (e.task.getX f.xa)) s

/-- TRAP in format SW (R176): the value is IMM22. -/
def execTrapSw (f : FSW) (s : State) : Host.Outcome State Fault Refusal :=
  issue f.st.toNat 8 [] [] (fun _ _ => Act.raise cUserTrap (sx f.imm)) s

/-! ## Control registers -/

/-- GROUPRANK[j] (R23, R92). -/
def groupRank (t : Team) (j : Nat) : W64 :=
  match t.groups[j]? with
  | some (g, count, rank) => w64 (rank + count * 2 ^ 16 + g * 2 ^ 40 + 2 ^ 63)
  | none => 0

/-- PEND of SQSTAT (R90): its 8 bits count to 255, and the spec states no value above (log 88). -/
def pendField (n : Nat) : Nat := if n < 256 then n else (Config.manyPend n).toNat

/-- The value of a control register (R87 to R92, R177). -/
def readControl (s : State) (e : Env) (n : Nat) : W64 :=
  let t := e.task
  match n with
  | 0x000 => w64 (t.rows.toNat + t.cols.toNat * 2 ^ 8 + t.wc.toNat * 2 ^ 24)
  | 0x001 => w64 (e.team.fpmode.toNat + (s.core e.core).lfsr.toNat * 2 ^ 32)
  | 0x002 => w64 e.team.fpflags.toNat
  | 0x003 => boolW e.team.sat
  | 0x004 => w64 (e.team.scales.length + pendField e.team.sqPend.length * 2 ^ 16)
  | 0x005 => t.left.zeroExtend 64
  | 0x006 => w64 (t.active.toNat + t.last.toNat * 2 ^ 8 + t.rs.toNat * 2 ^ 12 + t.rrb.toNat * 2 ^ 16)
  | 0x007 => t.semBase.zeroExtend 64
  | 0x008 => t.seq.zeroExtend 64
  | 0x009 => w64 (e.team.index + e.team.slot * 2 ^ 16)
  | 0x00A => w64 (e.core + s.pkg.toNat * 2 ^ 16)
  | 0x00B => w64 e.team.ctx
  | 0x010 => groupRank e.team 0
  | 0x011 => groupRank e.team 1
  | 0x012 => groupRank e.team 2
  | 0x013 => groupRank e.team 3
  | _ => (s.die e.die).gnomon

/-- RDCR (R177).  Floating-point flags are set at issue in this model, so a read of FPFLAGS finds those
of every older instruction. -/
def execRdcr (f : FSW) (s : State) : Host.Outcome State Fault Refusal :=
  issue f.st.toNat 8 [] [.x f.xd]
    (fun e s => .done (s.commit e
      ((e.task.setX f.xd (readControl s e f.imm.toNat)).advance 8))) s

/-- Does a VSHAPE value hold legal ROWS and COLS (R76)? -/
def shapeOk (v : W64) : Bool :=
  let rows := v.toNat % 32
  let cols := v.toNat / 256 % 512
  let wc := v.toNat / 2 ^ 24 % 4
  1 ≤ rows && rows ≤ 16 && 1 ≤ cols && cols ≤ 32 * 2 ^ wc

/-- VSHAPE written from a value (R88). -/
def Task.setShape (t : Task) (v : W64) : Task :=
  { t with rows := v.extractLsb' 0 5, cols := v.extractLsb' 8 9, wc := v.extractLsb' 24 2 }

/-- WRCR (R178). -/
def execWrcr (f : FSW) (s : State) : Host.Outcome State Fault Refusal :=
  issue f.st.toNat 8 [.x f.xa f.fea] []
    (fun e s =>
      let v := e.task.getX f.xa
      let t := e.task.advance 8
      match f.imm.toNat with
      | 0x000 =>
        if shapeOk v then .done (s.commit e (t.setShape v)) else Act.raise cShape 0
      | 0x001 =>
        let seed : BitVec 32 := v.extractLsb' 32 32
        let s := s.modTeam e.uid fun m => { m with fpmode := v.truncate 4 }
        let s := s.modCore e.core fun c => { c with lfsr := if seed = 0 then 1 else seed }
        .done (s.commit e t)
      | 0x002 =>
        .done ((s.modTeam e.uid fun m => { m with fpflags := m.fpflags &&& ~~~(v.truncate 5) }).commit e t)
      | 0x003 =>
        .done ((s.modTeam e.uid fun m => { m with sat := m.sat && !v.getLsbD 0 }).commit e t)
      | _ => .done (s.commit e { t with semBase := v.truncate 8 })) s

/-! ## NOP and BREAK -/

/-- NOP (R179). -/
def execNop (_f : FS) (s : State) : Host.Outcome State Fault Refusal :=
  taskOp 0 4 [] (fun t => t.advance 4) s

/-- NOP in format SW (R179). -/
def execNopSw (f : FSW) (s : State) : Host.Outcome State Fault Refusal :=
  taskOp f.st.toNat 8 [] (fun t => t.advance 8) s

/-- BREAK (R179, R322): with DEBUG set in the active plane, a record with code 0x00, and the task is
held before its next instruction; otherwise nothing. -/
def breakOp (st bytes : Nat) (s : State) : Host.Outcome State Fault Refusal :=
  issue st bytes [] []
    (fun e s =>
      if (tabGet 0 (s.core e.core).plane 7).getLsbD 0 = false then
        .done (s.commit e (e.task.advance bytes))
      else if (s.die e.die).fqFull then .hold
      else
        let origin := e.task.origin.bind fun o => e.team.recs.find? fun r => r.id == o
        let s := s.queueFault
          { die := e.die, code := 0, source := 6, flags := 0, unit := 0, ctx := e.team.ctx
            core := e.core, pc := e.task.pc, addr := 0
            tag := (match s.launchOf e.team with
              | some l => l.tag
              | none => 0)
            team := e.team.index + e.team.slot * 2 ^ 16, mpc := 0, origin := originWord origin
            uid := e.uid, recId := e.task.origin.getD 0, cmd := e.task.seq.toNat }
        let s := { s with outbox := s.outbox ++ [Out.breakReport e.uid] }
        .done (s.commit e { e.task.advance bytes with hold := .brk })) s

/-- BREAK in format S (R179). -/
def execBreakTask (_f : FS) (s : State) : Host.Outcome State Fault Refusal := breakOp 0 4 s

/-- BREAK in format SW (R158, R179). -/
def execBreakTaskSw (f : FSW) (s : State) : Host.Outcome State Fault Refusal := breakOp f.st.toNat 8 s

end Sys2Proof.Machine
end

