-- ==== Sys2Proof/Machine/Flags.lean ====
section
/-! DEFINITION. Number formats, exact values, rounding and the FPFLAGS bits (R45 to R71). -/

namespace Sys2Proof.Machine

/-! ## Exact values -/

/-- An exact value: NaN, an infinity, or ± m × 2^e with its sign kept at zero (R47, R49). -/
inductive FVal where
  | nan
  | inf (neg : Bool)
  | fin (neg : Bool) (m : Nat) (e : Int)
  deriving DecidableEq, Repr

/-- FPFLAGS bits (R60, R89). -/
abbrev Fl := BitVec 5

def flNX : Fl := 0x01
def flUF : Fl := 0x02
def flOF : Fl := 0x04
def flDZ : Fl := 0x08
def flIV : Fl := 0x10

/-- The rounding in force (R58, R61): the four modes of RM, or stochastic with 16 bits of the LFSR. -/
inductive Rnd where
  | rne | rtz | rdn | rup
  | sto (u : Nat)
  deriving DecidableEq, Repr

/-- FPMODE.RM (R58). -/
def rndOf (rm : Nat) : Rnd :=
  match rm with
  | 0 => .rne
  | 1 => .rtz
  | 2 => .rdn
  | _ => .rup

/-- Zero with a sign. -/
def FVal.zero (neg : Bool) : FVal := .fin neg 0 0

/-- Value of an integer, times 2^e. -/
def FVal.ofInt (i : Int) (e : Int := 0) : FVal := .fin (decide (i < 0)) i.natAbs e

/-- Sign inverted (R186). -/
def FVal.neg : FVal → FVal
  | .nan => .nan
  | .inf s => .inf (!s)
  | .fin s m e => .fin (!s) m e

/-- Multiplied by 2^k. -/
def FVal.scale (k : Int) : FVal → FVal
  | .fin s m e => .fin s m (e + k)
  | x => x

/-- Does it have a non-zero finite magnitude? -/
def FVal.isFinNonzero : FVal → Bool
  | .fin _ m _ => m != 0
  | _ => false

def FVal.isNan : FVal → Bool
  | .nan => true
  | _ => false

def FVal.isInf : FVal → Bool
  | .inf _ => true
  | _ => false

/-- floor(log2) of a non-zero finite magnitude. -/
def FVal.log2 : FVal → Int
  | .fin _ m e => (m.log2 : Int) + e
  | _ => 0

/-- ± m as an integer. -/
def signed (neg : Bool) (m : Nat) : Int := if neg then -(m : Int) else m

/-! ## Exact arithmetic and the special cases of R170 and R186 -/

/-- Sum, with the sign of an exact zero as IEEE 754 gives it: that of both zeros, else +0, or −0 under
RDN (R170). -/
def FVal.add (r : Rnd) (a b : FVal) : FVal × Fl :=
  match a, b with
  | .nan, _ => (.nan, 0)
  | _, .nan => (.nan, 0)
  | .inf s, .inf q => if s = q then (.inf s, 0) else (.nan, flIV)
  | .inf s, _ => (.inf s, 0)
  | _, .inf q => (.inf q, 0)
  | .fin s m e, .fin q n f =>
    if m = 0 ∧ n = 0 then (.zero (if s = q then s else decide (r = .rdn)), 0)
    else
      let k := min e f
      let v := signed s (m * 2 ^ (e - k).toNat) + signed q (n * 2 ^ (f - k).toNat)
      if v = 0 then (.zero (decide (r = .rdn)), 0) else (FVal.ofInt v k, 0)

/-- Product. -/
def FVal.mul (a b : FVal) : FVal × Fl :=
  match a, b with
  | .nan, _ => (.nan, 0)
  | _, .nan => (.nan, 0)
  | .inf s, .inf q => (.inf (s != q), 0)
  | .inf s, .fin q n _ => if n = 0 then (.nan, flIV) else (.inf (s != q), 0)
  | .fin s m _, .inf q => if m = 0 then (.nan, flIV) else (.inf (s != q), 0)
  | .fin s m e, .fin q n f => (.fin (s != q) (m * n) (e + f), 0)

/-- a × b + c formed exactly (R69); 0 × ∞ is invalid even when c is NaN (R170). -/
def FVal.fma (r : Rnd) (a b c : FVal) : FVal × Fl :=
  let p := FVal.mul a b
  if p.1 = .nan then p
  else
    let q := FVal.add r p.1 c
    (q.1, p.2 ||| q.2)

/-- A quotient or root that is not exact carries one more bit, set, below all the bits that any format
keeps: it then rounds as the exact value does. -/
def sticky (neg : Bool) (q : Nat) (exact : Bool) (e : Int) : FVal :=
  .fin neg (2 * q + if exact then 0 else 1) (e - 1)

/-- Quotient (R170). -/
def FVal.div (a b : FVal) : FVal × Fl :=
  match a, b with
  | .nan, _ => (.nan, 0)
  | _, .nan => (.nan, 0)
  | .inf _, .inf _ => (.nan, flIV)
  | .inf s, .fin q _ _ => (.inf (s != q), 0)
  | .fin s _ _, .inf q => (.zero (s != q), 0)
  | .fin s m e, .fin q n f =>
    if n = 0 then (if m = 0 then (.nan, flIV) else (.inf (s != q), flDZ))
    else
      let num := m * 2 ^ 128
      (sticky (s != q) (num / n) (num % n == 0) (e - f - 128), 0)

/-- floor(√n) for n < 4^k, from a root `r` so far. -/
def isqrt (n : Nat) : Nat → Nat → Nat
  | 0, r => r
  | k + 1, r => if (r + 2 ^ k) * (r + 2 ^ k) ≤ n then isqrt n k (r + 2 ^ k) else isqrt n k r

/-- Square root (R170). -/
def FVal.sqrt (a : FVal) : FVal × Fl :=
  match a with
  | .nan => (.nan, 0)
  | .inf true => (.nan, flIV)
  | .inf false => (.inf false, 0)
  | .fin s m e =>
    if m = 0 then (.zero s, 0)
    else if s then (.nan, flIV)
    else
      let odd : Bool := e % 2 != 0
      let n := (if odd then 2 * m else m) * 2 ^ 128
      let q := isqrt n 100 0
      (sticky false q (q * q == n) ((if odd then e - 1 else e) / 2 - 64), 0)

/-- Order of two values: none where either is NaN; −0 equals +0 (R170, R191). -/
def FVal.cmp (a b : FVal) : Option Ordering :=
  match a, b with
  | .nan, _ => none
  | _, .nan => none
  | .inf s, .inf q => some (if s = q then .eq else if s then .lt else .gt)
  | .inf s, _ => some (if s then .lt else .gt)
  | _, .inf q => some (if q then .gt else .lt)
  | .fin s m e, .fin q n f =>
    let k := min e f
    some (compare (signed s (m * 2 ^ (e - k).toNat)) (signed q (n * 2 ^ (f - k).toNat)))

/-- Is the sign bit set? -/
def FVal.isNeg : FVal → Bool
  | .nan => false
  | .inf s => s
  | .fin s _ _ => s

/-- Is `a` below `b`, with −0 below +0 (R70)? -/
def FVal.below (a b : FVal) : Bool :=
  match FVal.cmp a b with
  | some .lt => true
  | some .eq => a.isNeg && !b.isNeg
  | _ => false

/-- The smaller (R70). -/
def FVal.min (a b : FVal) : FVal :=
  if a = .nan ∨ b = .nan then .nan else if FVal.below b a then b else a

/-- The larger (R70). -/
def FVal.max (a b : FVal) : FVal :=
  if a = .nan ∨ b = .nan then .nan else if FVal.below a b then b else a

/-! ## Rounding -/

/-- m × 2^e rounded to a multiple of 2^q: the multiple, and whether it is inexact (R58, R61). -/
def roundAt (r : Rnd) (neg : Bool) (m : Nat) (e q : Int) : Nat × Bool :=
  if q ≤ e then (m * 2 ^ (e - q).toNat, false)
  else
    let d := (q - e).toNat
    let k := m / 2 ^ d
    let rem := m % 2 ^ d
    if rem = 0 then (k, false)
    else
      let up : Bool := match r with
        | .rne => decide (2 ^ d < 2 * rem) || (2 * rem == 2 ^ d && k % 2 == 1)
        | .rtz => false
        | .rdn => neg
        | .rup => !neg
        | .sto u => decide (65536 ≤ rem * 65536 / 2 ^ d + u)
      (if up then k + 1 else k, true)

/-- A floating-point format (R47, R48). -/
structure FFmt where
  mant : Nat
  ebits : Nat
  bias : Nat
  /-- Largest finite code. -/
  maxCode : Nat
  infCode : Option Nat
  nanCode : Option Nat
  deriving DecidableEq, Repr

def fp32 : FFmt := ⟨23, 8, 127, 0x7F7FFFFF, some 0x7F800000, some 0x7FC00000⟩
def bf16 : FFmt := ⟨7, 8, 127, 0x7F7F, some 0x7F80, some 0x7FC0⟩
def fp16 : FFmt := ⟨10, 5, 15, 0x7BFF, some 0x7C00, some 0x7E00⟩
def e4m3 : FFmt := ⟨3, 4, 7, 0x7E, none, some 0x7F⟩
def e5m2 : FFmt := ⟨2, 5, 15, 0x7B, some 0x7C, some 0x7E⟩
def e2m1 : FFmt := ⟨1, 2, 1, 0x7, none, none⟩

/-- The floating-point format of a code (R45). -/
def ffmt : Nat → Option FFmt
  | 0 => some fp32
  | 1 => some bf16
  | 2 => some fp16
  | 3 => some e4m3
  | 4 => some e5m2
  | 6 => some e2m1
  | _ => none

/-- Width in bits of a format code (R45). -/
def fmtWidth : Nat → Nat
  | 0 => 32
  | 1 => 16
  | 2 => 16
  | 6 => 4
  | 8 => 4
  | 9 => 32
  | 10 => 16
  | _ => 8

/-- Bits of a format below its sign. -/
def FFmt.low (f : FFmt) : Nat := f.mant + f.ebits

/-- Exact value of an element code, a subnormal read as zero under FTZ (R47, R59). -/
def FFmt.decode (f : FFmt) (ftz : Bool) (c : Nat) : FVal :=
  let s := c.testBit f.low
  let a := c % 2 ^ f.low
  if f.maxCode < a then (if f.infCode = some a then .inf s else .nan)
  else
    let e := a / 2 ^ f.mant
    let m := a % 2 ^ f.mant
    if e = 0 then (if ftz then .zero s else .fin s m (1 - (f.bias : Int) - f.mant))
    else .fin s (2 ^ f.mant + m) ((e : Int) - f.bias - f.mant)

/-- A magnitude code with its sign. -/
def FFmt.withSign (f : FFmt) (s : Bool) (a : Nat) : Nat := if s then 2 ^ f.low + a else a

/-- What a finite value beyond the largest finite becomes (R64): OF and NX; under RTZ every finite
input of E4M3 above 448 gives 448 with NX only. -/
def FFmt.overflow (f : FFmt) (r : Rnd) (s : Bool) : Nat × Fl :=
  let a := match f.infCode with
    | none => f.maxCode
    | some i => match r, s with
      | .rne, _ => i
      | .rup, false => i
      | .rdn, true => i
      | _, _ => f.maxCode
  (f.withSign s a, if f = e4m3 ∧ r = .rtz then flNX else flOF ||| flNX)

/-- A value converted to a floating-point format, rounded once, with its flags (R59, R60, R64). -/
def FFmt.encode (f : FFmt) (r : Rnd) (ftz : Bool) (x : FVal) : Nat × Fl :=
  match x with
  | .nan => (match f.nanCode with
    | some c => (c, 0)
    | none => (0, flIV))
  | .inf s => (match f.infCode with
    | some c => (f.withSign s c, 0)
    | none => (f.withSign s f.maxCode, flOF))
  | .fin s m e =>
    if m = 0 then (f.withSign s 0, 0)
    else
      let top := (m.log2 : Int) + e
      let emin := 1 - (f.bias : Int)
      let q := (if emin ≤ top then top else emin) - f.mant
      let (k, inexact) := roundAt r s m e q
      let code := (q + f.mant + f.bias - 1).toNat * 2 ^ f.mant + k
      let fl := (if inexact then flNX else 0) ||| (if inexact ∧ top < emin then flUF else 0)
      if f.maxCode < code then f.overflow r s
      else if ftz ∧ code ≠ 0 ∧ code < 2 ^ f.mant then (f.withSign s 0, flUF ||| flNX)
      else (f.withSign s code, fl)

/-- A value converted to the integers of a range (R64). -/
def encodeInt (lo hi : Int) (r : Rnd) (x : FVal) : Int × Fl :=
  match x with
  | .nan => (0, flIV)
  | .inf s => (if s then lo else hi, flOF)
  | .fin s m e =>
    let (k, inexact) := roundAt r s m e 0
    let v := signed s k
    if v < lo then (lo, flOF ||| flNX)
    else if hi < v then (hi, flOF ||| flNX)
    else (v, if inexact then flNX else 0)

/-- A scaled value converted to MK8 (R57, R64): the magnitudes are the multiples of 2^−6. -/
def encodeMk8 (r : Rnd) (x : FVal) : Nat × Fl :=
  match x with
  | .nan => (0x80, 0)
  | .inf _ => (0x80, flIV)
  | .fin s m e =>
    if m = 0 then (0, 0)
    else
      let (k, inexact) := roundAt r s m e (-6)
      if 0x7F < k then ((if s then 0x80 else 0) + 0x7F, flOF ||| flNX)
      else
        let fl := (if inexact then flNX else 0) |||
          (if (m.log2 : Int) + e < -6 then flUF ||| flNX else 0)
        (if k = 0 then 0 else (if s then 0x80 else 0) + k, fl)

/-- Value of an integer code of `w` bits. -/
def intOf (w : Nat) (sgn : Bool) (c : Nat) : Int :=
  let c := c % 2 ^ w
  if sgn && c.testBit (w - 1) then (c : Int) - 2 ^ w else c

/-- Low `w` bits of an integer. -/
def lowInt (w : Nat) (i : Int) : Nat := (i % 2 ^ w).toNat

/-- Is an integer type read as signed (R50, R182)?  U selects unsigned for INT16 and INT32. -/
def isSigned (t : Nat) (u : Bool) : Bool := t == 7 || t == 8 || ((t == 9 || t == 10) && !u)

/-- Range of an integer type (R50). -/
def intRange (t : Nat) (u : Bool) : Int × Int :=
  let w := fmtWidth t
  if isSigned t u then (-(2 ^ (w - 1)), 2 ^ (w - 1) - 1) else (0, 2 ^ w - 1)

/-- Exact value of an element code under a scale code (R52, R53, R63).  `mx`: an INT8 code is an MXINT8
element (R50). -/
def widen (fmt : Nat) (mx ftz : Bool) (sc c : Nat) : FVal :=
  if sc = 0xFF then .nan
  else
    let v := match ffmt fmt with
      | some f => f.decode ftz c
      | none =>
        if fmt = 5 then
          (if c % 128 = 0 then (if c.testBit 7 then FVal.nan else .zero false)
           else .fin (c.testBit 7) (c % 128) (-6))
        else FVal.ofInt (intOf (fmtWidth fmt) (isSigned fmt false) c) (if fmt = 7 ∧ mx then -6 else 0)
    v.scale ((sc : Int) - 127)

/-- A value converted to an unblocked format, with U for an integer target (R64, R194). -/
def encodeTo (fmt : Nat) (u : Bool) (r : Rnd) (ftz : Bool) (x : FVal) : Nat × Fl :=
  match ffmt fmt with
  | some f => f.encode r ftz x
  | none =>
    if fmt = 5 then encodeMk8 r x
    else
      let (lo, hi) := intRange fmt u
      let (v, fl) := encodeInt lo hi r x
      (lowInt (fmtWidth fmt) v, fl)

/-- round_rne to FP32 (R63). -/
def toFp32 (ftz : Bool) (x : FVal) : Nat := (fp32.encode .rne ftz x).1

/-! ## Blocks -/

/-- emax of a block format (R54). -/
def blockEmax : Nat → Int
  | 3 => 8
  | 4 => 15
  | 6 => 2
  | _ => 0

/-- The scale chosen for a block's inputs (R54): the exponent X, or none for the scale 0xFF. -/
def blockScale (fmt : Nat) (xs : List FVal) : Option Int :=
  if fmt ≠ 5 ∧ xs.any (fun x => x.isNan || x.isInf) then none
  else
    let tops := (xs.filter FVal.isFinNonzero).map FVal.log2
    match tops with
    | [] => some 0
    | t :: ts =>
      let x := ts.foldl max t - blockEmax fmt
      some (max (-127) (min 127 x))

/-- One element of a block quantised under the exponent X, with its flags (R54, R57, R64, R195). -/
def quantElem (fmt : Nat) (x : Option Int) (r : Rnd) (ftz : Bool) (v : FVal) : Nat × Fl :=
  match x with
  | none => (0, if v.isInf then flIV else 0)
  | some x =>
    if fmt = 7 then
      let (i, fl) := encodeInt (-128) 127 r (v.scale (6 - x))
      (lowInt 8 i, fl)
    else encodeTo fmt false r ftz (v.scale (-x))

/-- Scale code of an exponent X; 0xFF where there is none. -/
def scaleCode : Option Int → Nat
  | none => 0xFF
  | some x => (x + 127).toNat

/-! ## Stochastic rounding -/

/-- One step of the core's LFSR (R61). -/
def lfsrStep (l : BitVec 32) : BitVec 32 :=
  let b := l.getLsbD 31 ^^ l.getLsbD 21 ^^ l.getLsbD 1 ^^ l.getLsbD 0
  (l <<< 1) ||| (if b then 1 else 0)

/-- `n` steps. -/
def lfsrSteps : Nat → BitVec 32 → BitVec 32
  | 0, l => l
  | n + 1, l => lfsrSteps n (lfsrStep l)

/-- Does format `d` (with U) hold every value of format `c`, so that the conversion is a widening (R64)? -/
def widens (c d : Nat) (u : Bool) : Bool :=
  match ffmt c, ffmt d with
  | some a, some b =>
    a.mant ≤ b.mant && a.bias + a.mant ≤ b.bias + b.mant &&
      a.maxCode / 2 ^ a.mant - a.bias ≤ b.maxCode / 2 ^ b.mant - b.bias
  | some _, none => false
  | none, some b =>
    (let (lo, hi) := intRange c false
     max (-lo) hi ≤ 2 ^ (b.mant + 1))
  | none, none =>
    (let (lo, hi) := intRange c false
     let (lo', hi') := intRange d u
     lo' ≤ lo && hi ≤ hi')

/-! ## The matrix pass -/

/-- trunc(p / 2^q) as an integer, toward zero (R66). -/
def truncAt (q : Int) : FVal → Int
  | .fin s m e => signed s (if q ≤ e then m * 2 ^ (e - q).toNat else m / 2 ^ (q - e).toNat)
  | _ => 0

/-- A floating-point pass over its products, into an FP32 accumulator word (R66, R59). -/
def fpPass (ftz : Bool) (ps : List FVal) (acc : Nat) : Nat :=
  let a := fp32.decode ftz acc
  let pos := ps.any fun p => p == .inf false
  let neg := ps.any fun p => p == .inf true
  if a = .nan ∨ ps.any FVal.isNan ∨ (pos ∧ neg) then 0x7FC00000
  else if pos ∨ neg then toFp32 ftz (FVal.add .rne a (.inf neg)).1
  else
    let nz := ps.filter FVal.isFinNonzero
    let s := match nz.map FVal.log2 with
      | [] => 0
      | t :: ts =>
        let q := ts.foldl max t - 50
        toFp32 ftz (FVal.ofInt ((nz.map (truncAt q)).sum) q)
    toFp32 ftz (FVal.add .rne a (fp32.decode ftz s)).1

/-- An integer pass (R67): the new accumulator word, and whether it saturated. -/
def intPass (sum : Int) (acc : Nat) : Nat × Bool :=
  let v := intOf 32 true acc + sum
  let c := max (-(2 ^ 31)) (min (2 ^ 31 - 1) v)
  (lowInt 32 c, c != v)

end Sys2Proof.Machine
end

