-- ==== Sys2Proof/Machine/ScalarFp.lean ====
section
/-! DEFINITION. Scalar floating-point instructions: majors 0x10 to 0x12 (R169 to R171). -/

namespace Sys2Proof.Machine

/-- Rounding mode of the issuing team (R58). -/
def Team.rnd (t : Team) : Rnd := rndOf (t.fpmode.toNat % 4)

/-- FPMODE.FTZ (R59). -/
def Team.ftz (t : Team) : Bool := t.fpmode.getLsbD 2

/-- FPMODE.SR (R61). -/
def Team.sr (t : Team) : Bool := t.fpmode.getLsbD 3

/-- FPFLAGS with the flags of an instruction added (R60). -/
def State.addFlags (s : State) (uid : Nat) (fl : Fl) : State :=
  s.modTeam uid fun t => { t with fpflags := t.fpflags ||| fl }

/-- Format of a major (R169). -/
def fpFmt : FTy → FFmt
  | .f32 => fp32
  | .bf16 => bf16
  | .f16 => fp16

/-- The bits of a register that a format reads (R73). -/
def fpBits (ty : FTy) (v : W64) : Nat :=
  match ty with
  | .f32 => v.toNat % 2 ^ 32
  | _ => v.toNat % 2 ^ 16

/-- An instruction whose effect is one scalar result and floating-point flags. -/
def scalarFl (st bytes : Nat) (d : BitVec 6) (srcs : List SrcOp) (val : Team → Task → W64 × Fl)
    (s : State) : Host.Outcome State Fault Refusal :=
  issue st bytes srcs [.x d]
    (fun e s =>
      let r := val e.team e.task
      .done ((s.addFlags e.uid r.2).commit e ((e.task.setX d r.1).advance bytes))) s

/-- A register as an exact value of a format (R59, R73). -/
def fpRead (ty : FTy) (m : Team) (v : W64) : FVal := (fpFmt ty).decode m.ftz (fpBits ty v)

/-- An exact result rounded once to the major's format, the rest of the register zero (R69, R73). -/
def fpRound (ty : FTy) (m : Team) (x : FVal × Fl) : W64 × Fl :=
  let (c, fl) := (fpFmt ty).encode m.rnd m.ftz x.1
  (w64 c, x.2 ||| fl)

/-- A two-operand function in format S (R169). -/
def fpS (ty : FTy) (f : FS) (op : Rnd → FVal → FVal → FVal × Fl) (s : State) :
    Host.Outcome State Fault Refusal :=
  scalarFl 0 4 f.xd (FS.srcs f)
    (fun m t => fpRound ty m (op m.rnd (fpRead ty m (t.getX f.xa)) (fpRead ty m (t.getX f.xb)))) s

/-- A two-operand function in format SW (R158, R169). -/
def fpSW (ty : FTy) (f : FSW) (op : Rnd → FVal → FVal → FVal × Fl) (s : State) :
    Host.Outcome State Fault Refusal :=
  scalarFl f.st.toNat 8 f.xd (FSW.srcs f)
    (fun m t => fpRound ty m (op m.rnd (fpRead ty m (t.getX f.xa)) (fpRead ty m (t.getX f.xb)))) s

/-- FADD, format S (R169, R170). -/
def execFadd (ty : FTy) (f : FS) (s : State) : Host.Outcome State Fault Refusal :=
  fpS ty f (fun r a b => FVal.add r a b) s

/-- FADD, format SW. -/
def execFaddSw (ty : FTy) (f : FSW) (s : State) : Host.Outcome State Fault Refusal :=
  fpSW ty f (fun r a b => FVal.add r a b) s

/-- FSUB, format S (R169, R170). -/
def execFsub (ty : FTy) (f : FS) (s : State) : Host.Outcome State Fault Refusal :=
  fpS ty f (fun r a b => FVal.add r a b.neg) s

/-- FSUB, format SW. -/
def execFsubSw (ty : FTy) (f : FSW) (s : State) : Host.Outcome State Fault Refusal :=
  fpSW ty f (fun r a b => FVal.add r a b.neg) s

/-- FMUL, format S (R169, R170). -/
def execFmul (ty : FTy) (f : FS) (s : State) : Host.Outcome State Fault Refusal :=
  fpS ty f (fun _ a b => FVal.mul a b) s

/-- FMUL, format SW. -/
def execFmulSw (ty : FTy) (f : FSW) (s : State) : Host.Outcome State Fault Refusal :=
  fpSW ty f (fun _ a b => FVal.mul a b) s

/-- FDIV, format S (R169, R170). -/
def execFdiv (ty : FTy) (f : FS) (s : State) : Host.Outcome State Fault Refusal :=
  fpS ty f (fun _ a b => FVal.div a b) s

/-- FDIV, format SW. -/
def execFdivSw (ty : FTy) (f : FSW) (s : State) : Host.Outcome State Fault Refusal :=
  fpSW ty f (fun _ a b => FVal.div a b) s

/-- FSQRT, format S (R169, R170). -/
def execFsqrt (ty : FTy) (f : FS) (s : State) : Host.Outcome State Fault Refusal :=
  fpS ty f (fun _ a _ => FVal.sqrt a) s

/-- FSQRT, format SW. -/
def execFsqrtSw (ty : FTy) (f : FSW) (s : State) : Host.Outcome State Fault Refusal :=
  fpSW ty f (fun _ a _ => FVal.sqrt a) s

/-- FMIN, format S (R169, R170). -/
def execFmin (ty : FTy) (f : FS) (s : State) : Host.Outcome State Fault Refusal :=
  fpS ty f (fun _ a b => (FVal.min a b, 0)) s

/-- FMIN, format SW. -/
def execFminSw (ty : FTy) (f : FSW) (s : State) : Host.Outcome State Fault Refusal :=
  fpSW ty f (fun _ a b => (FVal.min a b, 0)) s

/-- FMAX, format S (R169, R170). -/
def execFmax (ty : FTy) (f : FS) (s : State) : Host.Outcome State Fault Refusal :=
  fpS ty f (fun _ a b => (FVal.max a b, 0)) s

/-- FMAX, format SW. -/
def execFmaxSw (ty : FTy) (f : FSW) (s : State) : Host.Outcome State Fault Refusal :=
  fpSW ty f (fun _ a b => (FVal.max a b, 0)) s

/-- The condition of FSETC, and IV of lt and le with a NaN (R170). -/
def fsetcHolds (cond : Nat) (a b : FVal) : Bool × Fl :=
  match FVal.cmp a b with
  | none => (cond == 1 || cond == 4, if cond = 2 ∨ cond = 3 then flIV else 0)
  | some o => match cond with
    | 0 => (o == .eq, 0)
    | 1 => (o != .eq, 0)
    | 2 => (o == .lt, 0)
    | 3 => (o != .gt, 0)
    | _ => (false, 0)

/-- FSETC (R170). -/
def execFsetc (ty : FTy) (f : FSW) (s : State) : Host.Outcome State Fault Refusal :=
  scalarFl f.st.toNat 8 f.xd (FSW.srcs f)
    (fun m t =>
      let r := fsetcHolds f.imm.toNat (fpRead ty m (t.getX f.xa)) (fpRead ty m (t.getX f.xb))
      (boolW r.1, r.2)) s

/-- Range of an integer OTHER: 3 INT32, 4 INT64, 5 Z32, 6 Z64 (R171). -/
def otherRange : Nat → Int × Int
  | 3 => (-(2 ^ 31), 2 ^ 31 - 1)
  | 4 => (-(2 ^ 63), 2 ^ 63 - 1)
  | 5 => (0, 2 ^ 32 - 1)
  | _ => (0, 2 ^ 64 - 1)

/-- The integer that OTHER reads from a register (R171). -/
def otherInt (o : Nat) (v : W64) : Int :=
  match o with
  | 3 => intOf 32 true v.toNat
  | 4 => intOf 64 true v.toNat
  | 5 => intOf 32 false v.toNat
  | _ => intOf 64 false v.toNat

/-- The floating-point format of an OTHER below 3. -/
def otherTy : Nat → FTy
  | 0 => .f32
  | 1 => .bf16
  | _ => .f16

/-- FCVT's value (R171): OTHER in IMM22 [2:0], DIR in [3]. -/
def fcvtVal (ty : FTy) (imm : BitVec 22) (m : Team) (v : W64) : W64 × Fl :=
  let o := imm.toNat % 8
  if imm.getLsbD 3 then
    fpRound ty m (if o < 3 then fpRead (otherTy o) m v else FVal.ofInt (otherInt o v), 0)
  else if o < 3 then fpRound (otherTy o) m (fpRead ty m v, 0)
  else
    let (lo, hi) := otherRange o
    let (i, fl) := encodeInt lo hi m.rnd (fpRead ty m v)
    (w64 (lowInt 64 i), fl)

/-- FCVT (R171). -/
def execFcvt (ty : FTy) (f : FSW) (s : State) : Host.Outcome State Fault Refusal :=
  scalarFl f.st.toNat 8 f.xd [.x f.xa f.fea] (fun m t => fcvtVal ty f.imm m (t.getX f.xa)) s

/-- FFMA (R169, R170): one rounding. -/
def execFfma (ty : FTy) (f : FSW) (s : State) : Host.Outcome State Fault Refusal :=
  scalarFl f.st.toNat 8 f.xd (FSW.srcs3 f)
    (fun m t => fpRound ty m (FVal.fma m.rnd (fpRead ty m (t.getX f.xa)) (fpRead ty m (t.getX f.xb))
      (fpRead ty m (t.getX f.xc)))) s

end Sys2Proof.Machine
end

