-- ==== Sys2Proof/Machine/Sfu.lean ====
section
/-! DEFINITION. The seven special functions (R187, R188): each computed in fixed point with 512 bits
after the point, and marked inexact by a bit below all that a format keeps, unless it is exact (log 17). -/

namespace Sys2Proof.Machine

/-- Bits after the point. -/
def fxBits : Nat := 512

/-- 1.0 in fixed point. -/
def fxOne : Nat := 2 ^ fxBits

/-- Σ 1 / ((2i+1) n^(2i+1)), alternating where `alt`: terms from `k` = 2i+1 with `p` = 1/n^k. -/
def arcSum (n : Nat) (alt : Bool) : Nat → Nat → Nat → Int
  | 0, _, _ => 0
  | fuel + 1, k, p =>
    (p / k : Nat) + (if alt then -1 else 1) * arcSum n alt fuel (k + 2) (p / (n * n))

/-- π, by Machin's formula. -/
def fxPi : Nat := (16 * arcSum 5 true 120 1 (fxOne / 5) - 4 * arcSum 239 true 40 1 (fxOne / 239)).toNat

/-- ln 2 = 2 artanh(1/3). -/
def fxLn2 : Nat := (2 * arcSum 3 false 170 1 (fxOne / 3)).toNat

/-- Σ t^k / k!, from the term `term` of index `k`. -/
def expSum (t : Nat) : Nat → Nat → Nat → Nat
  | 0, _, _ => 0
  | fuel + 1, k, term => term + expSum t fuel (k + 1) (term * t / fxOne / (k + 1))

/-- 2^f for 0 ≤ f < 1. -/
def fxExp2 (f : Nat) : Nat := expSum (f * fxLn2 / fxOne) 110 0 fxOne

/-- t^k/k! with alternating signs, every second power: the series of sine and cosine. -/
def trigSum (t : Nat) : Nat → Nat → Nat → Int
  | 0, _, _ => 0
  | fuel + 1, k, term =>
    (term : Int) - trigSum t fuel (k + 2) (term * t / fxOne * t / fxOne / ((k + 1) * (k + 2)))

/-- sin(π u) for 0 ≤ u ≤ 1/2. -/
def fxSinPi (u : Nat) : Nat :=
  let t := u * fxPi / fxOne
  (trigSum t 70 1 t).toNat

/-- cos(π u) for 0 ≤ u ≤ 1/2. -/
def fxCosPi (u : Nat) : Nat := (trigSum (u * fxPi / fxOne) 70 0 fxOne).toNat

/-- ln(1 + d) for 0 ≤ d < 1, as 2 artanh(d / (2 + d)). -/
def lnSum (z2 : Nat) : Nat → Nat → Nat → Nat
  | 0, _, _ => 0
  | fuel + 1, k, p => p / k + lnSum z2 fuel (k + 2) (p * z2 / fxOne)

/-- ln y for 1 ≤ y < 2. -/
def fxLn (y : Nat) : Nat :=
  let z := (y - fxOne) * fxOne / (y + fxOne)
  2 * lnSum (z * z / fxOne) 170 1 z

/-- A fixed-point magnitude as an inexact value. -/
def fxVal (neg : Bool) (v : Nat) : FVal := sticky neg v false (-(fxBits : Int))

/-- m × 2^e as fixed point (exact for every input value whose exponent is above −512). -/
def toFx (m : Nat) (e : Int) : Nat :=
  if -(fxBits : Int) ≤ e then m * 2 ^ (e + fxBits).toNat else m / 2 ^ (-(fxBits : Int) - e).toNat

/-- VRCP (R188). -/
def sfuRcp (x : FVal) : FVal × Fl :=
  match x with
  | .fin s m _ => if m = 0 then (.inf s, flDZ) else FVal.div (FVal.ofInt 1) x
  | .inf s => (.zero s, 0)
  | .nan => (.nan, 0)

/-- VRSQ (R188): 1/√(m 2^e), with an even exponent below the root. -/
def sfuRsq (x : FVal) : FVal × Fl :=
  match x with
  | .nan => (.nan, 0)
  | .inf s => if s then (.nan, flIV) else (.zero false, 0)
  | .fin s m e =>
    if m = 0 then (.inf s, flDZ)
    else if s then (.nan, flIV)
    else
      let odd : Bool := e % 2 != 0
      let n := if odd then 2 * m else m
      let h := (if odd then e - 1 else e) / 2
      let v := 2 ^ 256 / n
      let q := isqrt v 129 0
      (sticky false q (q * q * n == 2 ^ 256) (-h - 128), 0)

/-- VEXP2 (R188). -/
def sfuExp2 (x : FVal) : FVal × Fl :=
  match x with
  | .nan => (.nan, 0)
  | .inf s => (if s then .zero false else .inf false, 0)
  | .fin s m e =>
    if m = 0 then (FVal.ofInt 1, 0)
    else if 11 ≤ (m.log2 : Int) + e then (sticky false 1 false (if s then -4096 else 4096), 0)
    else
      let fx := toFx m e
      let whole := fx / fxOne
      let frac := fx % fxOne
      if frac = 0 then (.fin false 1 (if s then -(whole : Int) else whole), 0)
      else if s then (sticky false (fxExp2 (fxOne - frac)) false (-(whole : Int) - 1 - fxBits), 0)
      else (sticky false (fxExp2 frac) false ((whole : Int) - fxBits), 0)

/-- VLOG2 (R188). -/
def sfuLog2 (x : FVal) : FVal × Fl :=
  match x with
  | .nan => (.nan, 0)
  | .inf s => if s then (.nan, flIV) else (.inf false, 0)
  | .fin s m e =>
    if m = 0 then (.inf true, flDZ)
    else if s then (.nan, flIV)
    else
      let k := m.log2
      let n : Int := (k : Int) + e
      if m = 2 ^ k then ((if n = 0 then .zero false else FVal.ofInt n), 0)
      else
        let v : Int := n * fxOne + (fxLn (m * 2 ^ (fxBits - k)) * fxOne / fxLn2 : Nat)
        (fxVal (decide (v < 0)) v.natAbs, 0)

/-- VTANH (R188): (1 − u)/(1 + u) with u = e^(−2|x|). -/
def sfuTanh (x : FVal) : FVal × Fl :=
  match x with
  | .nan => (.nan, 0)
  | .inf s => (FVal.ofInt (if s then -1 else 1), 0)
  | .fin s m e =>
    if m = 0 then (.zero s, 0)
    else if 6 ≤ (m.log2 : Int) + e then (fxVal s (fxOne - 1), 0)
    else
      let y := 2 * toFx m e * fxOne / fxLn2
      let u := fxExp2 (fxOne - y % fxOne) / 2 ^ (y / fxOne + 1)
      (fxVal s ((fxOne - u) * fxOne / (fxOne + u)), 0)

/-- |x| modulo 2 in fixed point. -/
def halfTurns (m : Nat) (e : Int) : Nat :=
  if 1 ≤ e then 0 else toFx m e % (2 * fxOne)

/-- VSIN (R188): sin(π x). -/
def sfuSin (x : FVal) : FVal × Fl :=
  match x with
  | .nan => (.nan, 0)
  | .inf _ => (.nan, flIV)
  | .fin s m e =>
    let r := halfTurns m e
    let r1 := r % fxOne
    if m = 0 ∨ r1 = 0 then (.zero s, 0)
    else
      let neg := s != decide (fxOne < r)
      let u := if fxOne / 2 < r1 then fxOne - r1 else r1
      if u = fxOne / 2 then (FVal.ofInt (if neg then -1 else 1), 0)
      else (fxVal neg (fxSinPi u), 0)

/-- VCOS (R188): cos(π x). -/
def sfuCos (x : FVal) : FVal × Fl :=
  match x with
  | .nan => (.nan, 0)
  | .inf _ => (.nan, flIV)
  | .fin _ m e =>
    if m = 0 then (FVal.ofInt 1, 0)
    else
      let r := halfTurns m e
      let r1 := if fxOne < r then 2 * fxOne - r else r
      if r1 = 0 then (FVal.ofInt 1, 0)
      else if r1 = fxOne then (FVal.ofInt (-1), 0)
      else if r1 = fxOne / 2 then (.zero false, 0)
      else if r1 < fxOne / 2 then (fxVal false (fxCosPi r1), 0)
      else (fxVal true (fxCosPi (fxOne - r1)), 0)

end Sys2Proof.Machine
end

