-- ==== Sys2Proof/Machine/Vector.lean ====
section
/-! DEFINITION. The common frame of the vector instructions, and the element-wise ones: majors 0x20 to
0x23 (R181 to R192). -/

namespace Sys2Proof.Machine

/-! ## The frame -/

/-- Width code of an element width (R78, R182). -/
def wcOf (w : Nat) : Nat :=
  match w with
  | 32 => 0
  | 16 => 1
  | 8 => 2
  | _ => 3

/-- Elements of width `w` in a row of the tile; none where the quotient is not whole (R75). -/
def Task.perRow (t : Task) (w : Nat) : Option Nat :=
  if t.shapeBits % w = 0 then some (t.shapeBits / w) else none

/-- Is the governing predicate of width `w` (R79)?  p0 governs every width. -/
def Task.predFits (t : Task) (p w : Nat) : Bool := p == 0 || (t.pred p).toNat / 2 ^ 14 == wcOf w

/-- Elements of `n` that a predicate leaves active (R78). -/
def Task.activeN (t : Task) (p n : Nat) : Nat :=
  if p = 0 then n
  else
    let v := (t.pred p).toNat
    min n (if v / 2 ^ 14 = 3 then 2 * (v % 2 ^ 14) else v % 2 ^ 14)

/-- Bits `off` to `off + w − 1` of a row. -/
def rowGet (r : Row) (off w : Nat) : Nat := (r.extractLsb' off w).toNat

/-- The same bits written. -/
def rowPut (r : Row) (off w v : Nat) : Row :=
  (r &&& ~~~(BitVec.ofNat 1024 (2 ^ w - 1) <<< off)) ||| (BitVec.ofNat 1024 (v % 2 ^ w) <<< off)

/-- Element (row, col) of a register by name (R74). -/
def Task.elemRC (t : Task) (w n row col : Nat) : Nat := rowGet (t.vrow n row) (col * w) w

/-- Element (row, col) written. -/
def Task.putRC (t : Task) (w n row col v : Nat) : Task :=
  t.setVrow n row (rowPut (t.vrow n row) (col * w) w v)

/-- Element of index `i` of the group at `n`, with `c` elements in a row (R77). -/
def Task.elem (t : Task) (w c n i : Nat) : Nat :=
  let per := t.rows.toNat * c
  t.elemRC w (n + i / per) (i % per / c) (i % c)

/-- The same element written. -/
def Task.putElem (t : Task) (w c n i v : Nat) : Task :=
  let per := t.rows.toNat * c
  t.putRC w (n + i / per) (i % per / c) (i % c) v

/-- Elements written from index `i` on; `none` leaves one as it is (R181). -/
def Task.putElems (t : Task) (w c n : Nat) : Nat → List (Option Nat) → Task
  | _, [] => t
  | i, some v :: vs => (t.putElem w c n i v).putElems w c n (i + 1) vs
  | i, none :: vs => t.putElems w c n (i + 1) vs

/-- Fields of format V as numbers. -/
def vN (r : BitVec 5) : Nat := r.toNat

/-- SB (R183). -/
def FV.sb (f : FV) : Bool := f.mod.getLsbD 0

/-- Width of the type T. -/
def FV.w (f : FV) : Nat := fmtWidth f.t.toNat

/-- Sources of one, two and three operands. -/
def FV.srcA (f : FV) : SrcOp := .v f.va.toNat f.g.toNat f.fea
def FV.srcB (f : FV) (sb : Bool) : SrcOp :=
  if sb then .x f.xs f.fes else .v f.vb.toNat f.g.toNat f.feb
def FV.srcC (f : FV) : SrcOp := .v f.vc.toNat f.g.toNat f.fec

/-- SHAPE (R184). -/
def shapeFault : Act := Act.raise cShape 0

/-- Values of an element-wise instruction over `n` elements, the first `act` of them active, with the
flags of the active ones (R79, R181). -/
def frameVals (z : Bool) (n act : Nat) (op : Nat → Nat × Fl) : List (Option Nat) × Fl :=
  let rs := (List.range (min n act)).map op
  (rs.map (fun r => some r.1) ++ List.replicate (n - act) (if z then some 0 else none),
    rs.foldl (fun fl r => fl ||| r.2) 0)

/-- An element-wise instruction (R181): sources, and the operation on element `i` of the tile of `c`
elements a row, as the task stands before any write. -/
def vecEach (f : FV) (srcs : List SrcOp) (op : Team → Task → Nat → Nat → Nat × Fl) (s : State) :
    Host.Outcome State Fault Refusal :=
  issue f.st.toNat 8 srcs [.v f.vd.toNat f.g.toNat]
    (fun e s =>
      let t := e.task
      match t.perRow (FV.w f) with
      | none => shapeFault
      | some c =>
        if !t.predFits f.p.toNat (FV.w f) then shapeFault
        else
          let n := f.g.toNat * t.rows.toNat * c
          let (vals, fl) := frameVals f.z n (t.activeN f.p.toNat n) (op e.team t c)
          .done ((s.addFlags e.uid fl).commit e
            ((t.putElems (FV.w f) c f.vd.toNat 0 vals).advance 8))) s

/-- Element `i` of VA, VB or the scalar, and VC. -/
def FV.a (f : FV) (t : Task) (c i : Nat) : Nat := t.elem (FV.w f) c f.va.toNat i
def FV.b (f : FV) (sb : Bool) (t : Task) (c i : Nat) : Nat :=
  if sb then (t.getX f.xs).toNat % 2 ^ (FV.w f) else t.elem (FV.w f) c f.vb.toNat i
def FV.c (f : FV) (t : Task) (c i : Nat) : Nat := t.elem (FV.w f) c f.vc.toNat i

/-! ## Floating point: major 0x20 -/

/-- Format of T in majors 0x20 and 0x21. -/
def FV.fmt (f : FV) : FFmt := (ffmt f.t.toNat).getD fp32

/-- One rounding to the format of T (R69, R185). -/
def FV.round (f : FV) (m : Team) (x : FVal × Fl) : Nat × Fl :=
  let (c, fl) := (FV.fmt f).encode m.rnd m.ftz x.1
  (c, x.2 ||| fl)

/-- An element as an exact value (R59). -/
def FV.val (f : FV) (m : Team) (c : Nat) : FVal := (FV.fmt f).decode m.ftz c

/-- A floating-point operation of two operands. -/
def vecFp2 (f : FV) (op : Rnd → FVal → FVal → FVal × Fl) (s : State) :
    Host.Outcome State Fault Refusal :=
  vecEach f [FV.srcA f, FV.srcB f (FV.sb f)]
    (fun m t c i => FV.round f m
      (op m.rnd (FV.val f m (FV.a f t c i)) (FV.val f m (FV.b f (FV.sb f) t c i)))) s

/-- A floating-point operation of three operands. -/
def vecFp3 (f : FV) (op : Rnd → FVal → FVal → FVal → FVal × Fl) (s : State) :
    Host.Outcome State Fault Refusal :=
  vecEach f [FV.srcA f, FV.srcB f (FV.sb f), FV.srcC f]
    (fun m t c i => FV.round f m
      (op m.rnd (FV.val f m (FV.a f t c i)) (FV.val f m (FV.b f (FV.sb f) t c i))
        (FV.val f m (FV.c f t c i)))) s

/-- VADD (R185). -/
def execVadd (f : FV) (s : State) : Host.Outcome State Fault Refusal :=
  vecFp2 f (fun r a b => FVal.add r a b) s

/-- VSUB (R185). -/
def execVsub (f : FV) (s : State) : Host.Outcome State Fault Refusal :=
  vecFp2 f (fun r a b => FVal.add r a b.neg) s

/-- VMUL (R185). -/
def execVmul (f : FV) (s : State) : Host.Outcome State Fault Refusal :=
  vecFp2 f (fun _ a b => FVal.mul a b) s

/-- VFMA (R185). -/
def execVfma (f : FV) (s : State) : Host.Outcome State Fault Refusal :=
  vecFp3 f (fun r a b c => FVal.fma r a b c) s

/-- VFMS (R185). -/
def execVfms (f : FV) (s : State) : Host.Outcome State Fault Refusal :=
  vecFp3 f (fun r a b c => FVal.fma r a b c.neg) s

/-- VMIN (R70, R185). -/
def execVmin (f : FV) (s : State) : Host.Outcome State Fault Refusal :=
  vecFp2 f (fun _ a b => (FVal.min a b, 0)) s

/-- VMAX (R70, R185). -/
def execVmax (f : FV) (s : State) : Host.Outcome State Fault Refusal :=
  vecFp2 f (fun _ a b => (FVal.max a b, 0)) s

/-- A value with a given sign; NaN stays NaN. -/
def FVal.withSign (neg : Bool) : FVal → FVal
  | .nan => .nan
  | .inf _ => .inf neg
  | .fin _ m e => .fin neg m e

/-- A sign operation: exact, no flag, NaN to the canonical NaN (R186). -/
def FV.signed (f : FV) (x : FVal) : Nat × Fl := (((FV.fmt f).encode .rne false x).1, 0)

/-- VABS (R185, R186). -/
def execVabs (f : FV) (s : State) : Host.Outcome State Fault Refusal :=
  vecEach f [FV.srcA f]
    (fun m t c i => FV.signed f ((FV.val f m (FV.a f t c i)).withSign false)) s

/-- VNEG (R185, R186). -/
def execVneg (f : FV) (s : State) : Host.Outcome State Fault Refusal :=
  vecEach f [FV.srcA f] (fun m t c i => FV.signed f (FV.val f m (FV.a f t c i)).neg) s

/-- VCPYS (R185, R186). -/
def execVcpys (f : FV) (s : State) : Host.Outcome State Fault Refusal :=
  vecEach f [FV.srcA f, FV.srcB f (FV.sb f)]
    (fun m t c i =>
      let b := FV.val f m (FV.b f (FV.sb f) t c i)
      FV.signed f (if b.isNan then .nan else (FV.val f m (FV.a f t c i)).withSign b.isNeg)) s

/-! ## Special functions: major 0x21 -/

/-- Rows of the registers of a group, keyed as results carry them (R84). -/
def Task.groupRows (t : Task) (n g : Nat) : Tab Row :=
  (List.range (16 * g)).map fun i => (t.phys (n + i / 16) * 16 + i % 16, t.vrow (n + i / 16) (i % 16))

/-- Physical registers of a group. -/
def Task.physList (t : Task) (n g : Nat) : List Nat := (List.range g).map fun i => t.phys (n + i)

/-- A special function (R187): VD is marked empty, and its new contents are on their way (R84); its flags are set now
(DESIGN CHOICE, log 116). -/
def vecSfu (f : FV) (fn : FVal → FVal × Fl) (s : State) : Host.Outcome State Fault Refusal :=
  issue f.st.toNat 8 [FV.srcA f] [.v f.vd.toNat f.g.toNat]
    (fun e s =>
      let t := e.task
      match t.perRow (FV.w f) with
      | none => shapeFault
      | some c =>
        if !t.predFits f.p.toNat (FV.w f) then shapeFault
        else
          let n := f.g.toNat * t.rows.toNat * c
          let (vals, fl) := frameVals f.z n (t.activeN f.p.toNat n) (fun i =>
            let x := fn (FV.val f e.team (FV.a f t c i))
            let r := (FV.fmt f).encode .rne e.team.ftz x.1
            (r.1, x.2 ||| r.2))
          let done := t.putElems (FV.w f) c f.vd.toNat 0 vals
          let (id, s) := s.fresh
          let s := s.modCore e.core fun k => { k with
            results := k.results ++ [⟨id, e.uid, none, done.groupRows f.vd.toNat f.g.toNat,
              t.physList f.vd.toNat f.g.toNat⟩] }
          .done ((s.addFlags e.uid fl).commit e ((t.emptyV f.vd.toNat f.g.toNat).advance 8))) s

/-- VRCP (R188). -/
def execVrcp (f : FV) (s : State) : Host.Outcome State Fault Refusal := vecSfu f sfuRcp s

/-- VRSQ (R188). -/
def execVrsq (f : FV) (s : State) : Host.Outcome State Fault Refusal := vecSfu f sfuRsq s

/-- VEXP2 (R188). -/
def execVexp2 (f : FV) (s : State) : Host.Outcome State Fault Refusal := vecSfu f sfuExp2 s

/-- VLOG2 (R188). -/
def execVlog2 (f : FV) (s : State) : Host.Outcome State Fault Refusal := vecSfu f sfuLog2 s

/-- VTANH (R188). -/
def execVtanh (f : FV) (s : State) : Host.Outcome State Fault Refusal := vecSfu f sfuTanh s

/-- VSIN (R188). -/
def execVsin (f : FV) (s : State) : Host.Outcome State Fault Refusal := vecSfu f sfuSin s

/-- VCOS (R188). -/
def execVcos (f : FV) (s : State) : Host.Outcome State Fault Refusal := vecSfu f sfuCos s

/-! ## Integers: major 0x22 -/

/-- An element read by T and U. -/
def FV.int (f : FV) (c : Nat) : Int := intOf (FV.w f) (isSigned f.t.toNat f.u) c

/-- An exact integer result: the low bits, or saturated (R190). -/
def FV.intRes (f : FV) (v : Int) : Nat :=
  let (lo, hi) := intRange f.t.toNat f.u
  lowInt (FV.w f) (if f.mod.getLsbD 1 then max lo (min hi v) else v)

/-- An integer operation of two operands on codes. -/
def vecInt2 (f : FV) (op : Nat → Nat → Nat) (s : State) : Host.Outcome State Fault Refusal :=
  vecEach f [FV.srcA f, FV.srcB f (FV.sb f)]
    (fun _ t c i => (op (FV.a f t c i) (FV.b f (FV.sb f) t c i), 0)) s

/-- VIADD (R189, R190). -/
def execViadd (f : FV) (s : State) : Host.Outcome State Fault Refusal :=
  vecInt2 f (fun a b => FV.intRes f (FV.int f a + FV.int f b)) s

/-- VISUB (R189, R190). -/
def execVisub (f : FV) (s : State) : Host.Outcome State Fault Refusal :=
  vecInt2 f (fun a b => FV.intRes f (FV.int f a - FV.int f b)) s

/-- VIMUL (R189, R190). -/
def execVimul (f : FV) (s : State) : Host.Outcome State Fault Refusal :=
  vecInt2 f (fun a b => FV.intRes f (FV.int f a * FV.int f b)) s

/-- VIMAD (R189, R190). -/
def execVimad (f : FV) (s : State) : Host.Outcome State Fault Refusal :=
  vecEach f [FV.srcA f, FV.srcB f (FV.sb f), FV.srcC f]
    (fun _ t c i => (FV.intRes f (FV.int f (FV.a f t c i) * FV.int f (FV.b f (FV.sb f) t c i) +
      FV.int f (FV.c f t c i)), 0)) s

/-- VAND (R189). -/
def execVand (f : FV) (s : State) : Host.Outcome State Fault Refusal :=
  vecInt2 f (fun a b => a &&& b) s

/-- VOR (R189). -/
def execVor (f : FV) (s : State) : Host.Outcome State Fault Refusal :=
  vecInt2 f (fun a b => a ||| b) s

/-- VXOR (R189). -/
def execVxor (f : FV) (s : State) : Host.Outcome State Fault Refusal :=
  vecInt2 f (fun a b => a ^^^ b) s

/-- VNOT (R189). -/
def execVnot (f : FV) (s : State) : Host.Outcome State Fault Refusal :=
  vecEach f [FV.srcA f] (fun _ t c i => (2 ^ (FV.w f) - 1 - FV.a f t c i, 0)) s

/-- VSHL (R189, R190). -/
def execVshl (f : FV) (s : State) : Host.Outcome State Fault Refusal :=
  vecInt2 f (fun a b => a * 2 ^ (b % (FV.w f)) % 2 ^ (FV.w f)) s

/-- VSHR (R189, R190). -/
def execVshr (f : FV) (s : State) : Host.Outcome State Fault Refusal :=
  vecInt2 f (fun a b => a / 2 ^ (b % (FV.w f))) s

/-- VSHRA (R189, R190): copies of bit w−1 in, whatever U. -/
def execVshra (f : FV) (s : State) : Host.Outcome State Fault Refusal :=
  vecInt2 f (fun a b => lowInt (FV.w f) (intOf (FV.w f) true a / 2 ^ (b % (FV.w f)))) s

/-- VIMIN (R189). -/
def execVimin (f : FV) (s : State) : Host.Outcome State Fault Refusal :=
  vecInt2 f (fun a b => if FV.int f a ≤ FV.int f b then a else b) s

/-- VIMAX (R189). -/
def execVimax (f : FV) (s : State) : Host.Outcome State Fault Refusal :=
  vecInt2 f (fun a b => if FV.int f a ≤ FV.int f b then b else a) s

/-- VIABS (R189, R190). -/
def execViabs (f : FV) (s : State) : Host.Outcome State Fault Refusal :=
  vecEach f [FV.srcA f]
    (fun _ t c i => (FV.intRes f ((FV.int f (FV.a f t c i)).natAbs : Int), 0)) s

/-! ## Compare and select: major 0x23 -/

/-- COND on an order; none where an operand is NaN (R191). -/
def vcmpHolds (cond : Nat) (o : Option Ordering) : Bool × Fl :=
  match o with
  | none => (cond == 1 || cond == 6, if 2 ≤ cond ∧ cond ≤ 5 then flIV else 0)
  | some o => match cond with
    | 0 => (o == .eq, 0)
    | 1 => (o != .eq, 0)
    | 2 => (o == .lt, 0)
    | 3 => (o != .gt, 0)
    | 4 => (o == .gt, 0)
    | 5 => (o != .lt, 0)
    | _ => (false, 0)

/-- VCMP (R191). -/
def execVcmp (f : FV) (s : State) : Host.Outcome State Fault Refusal :=
  vecEach f [FV.srcA f, FV.srcB f (FV.sb f)]
    (fun m t c i =>
      let a := FV.a f t c i
      let b := FV.b f (FV.sb f) t c i
      let o := match ffmt f.t.toNat with
        | some _ => FVal.cmp (FV.val f m a) (FV.val f m b)
        | none => some (compare (FV.int f a) (FV.int f b))
      let r := vcmpHolds (f.mod.toNat / 2 % 8) o
      (if r.1 then 2 ^ (FV.w f) - 1 else 0, r.2)) s

/-- VSEL (R192): bit by bit. -/
def execVsel (f : FV) (s : State) : Host.Outcome State Fault Refusal :=
  vecEach f [FV.srcA f, FV.srcB f false, FV.srcC f]
    (fun _ t c i =>
      let m := FV.c f t c i
      ((FV.a f t c i &&& m) ||| (FV.b f false t c i &&& (2 ^ (FV.w f) - 1 - m)), 0)) s

end Sys2Proof.Machine
end

