-- ==== Sys2Proof/Machine/VecMove.lean ====
section
/-! DEFINITION. Conversions, reductions, rearrangements, moves and predicates: vector majors 0x24 to
0x28 (R193 to R201). -/

namespace Sys2Proof.Machine

/-! ## Conversions: major 0x24 -/

/-- Source format code (R193). -/
def FV.from (f : FV) : Nat := f.mod.toNat % 16

/-- Registers of a narrower operand: ceil(G × n / W) (R193). -/
def narrowRegs (g n wide : Nat) : Nat := (g * n + wide - 1) / wide

/-- Registers of the operand of width `w`, the other having width `o`. -/
def convRegs (g w o : Nat) : Nat := if w < o then narrowRegs g w o else g

/-- Low 16 bits of the LFSR after each of `n` element positions of 16 steps, and its state after all
(R61). -/
def lfsrDraws : Nat → BitVec 32 → List Nat × BitVec 32
  | 0, l => ([], l)
  | n + 1, l =>
    let l' := lfsrSteps 16 l
    let r := lfsrDraws n l'
    (l'.toNat % 2 ^ 16 :: r.1, r.2)

/-- The rounding of each element position, and the LFSR after the instruction (R61, R202). -/
def roundings (stochastic : Bool) (r : Rnd) (n : Nat) (l : BitVec 32) : List Rnd × BitVec 32 :=
  if stochastic then
    let d := lfsrDraws n l
    (d.1.map .sto, d.2)
  else (List.replicate n r, l)

/-- The issue of a conversion with its extra vector source or destination. -/
def convIssue (f : FV) (extraSrc : List SrcOp) (extraDst : List DstOp) (body : Env → State → Act)
    (s : State) : Host.Outcome State Fault Refusal :=
  let ws := fmtWidth (FV.from f)
  let wd := FV.w f
  issue f.st.toNat 8 (.v f.va.toNat (convRegs f.g.toNat ws wd) f.fea :: extraSrc)
    (.v f.vd.toNat (convRegs f.g.toNat wd ws) :: extraDst) body s

/-- Elements of a conversion (R193). -/
def FV.convN (f : FV) (t : Task) (perWide : Nat) : Nat := f.g.toNat * t.rows.toNat * perWide

/-- VCVT (R194): one rounding from the exact value. -/
def execVcvt (f : FV) (s : State) : Host.Outcome State Fault Refusal :=
  convIssue f [] []
    (fun e s =>
      let t := e.task
      let ws := fmtWidth (FV.from f)
      let wd := FV.w f
      match t.perRow (max ws wd) with
      | none => shapeFault
      | some cw =>
        if !t.predFits f.p.toNat wd then shapeFault
        else
          let n := FV.convN f t cw
          let cs := t.shapeBits / ws
          let sto := e.team.sr && !widens (FV.from f) f.t.toNat f.u
          let (rnds, lfsr) := roundings sto e.team.rnd n (s.core e.core).lfsr
          let (vals, fl) := frameVals f.z n (t.activeN f.p.toNat n) (fun i =>
            encodeTo f.t.toNat f.u (rnds.getD i .rne) e.team.ftz
              (widen (FV.from f) false e.team.ftz 0x7F (t.elem ws cs f.va.toNat i)))
          let s := s.modCore e.core fun k => { k with lfsr := lfsr }
          .done ((s.addFlags e.uid fl).commit e
            ((t.putElems wd (t.shapeBits / wd) f.vd.toNat 0 vals).advance 8))) s

/-- Byte j of a register, over its 16 rows of 128 bytes (R195). -/
def Task.scaleByte (t : Task) (n j : Nat) : Nat := t.elemRC 8 n (j / 128) (j % 128)

/-- One block of VQNT: its scale byte, its active elements and the flags (R54, R195). -/
def quantBlock (f : FV) (t : Task) (ftz : Bool) (rnds : List Rnd) (act j : Nat) :
    Option (Nat × List Nat × Fl) :=
  let ws := fmtWidth (FV.from f)
  let cs := t.shapeBits / ws
  let n := min 32 (act - 32 * j)
  if n = 0 then none
  else
    let xs := (List.range n).map fun k =>
      widen (FV.from f) false ftz 0x7F (t.elem ws cs f.va.toNat (32 * j + k))
    let x := blockScale f.t.toNat xs
    let qs := xs.zipIdx.map fun (v, k) =>
      quantElem f.t.toNat x (rnds.getD (32 * j + k) .rne) ftz v
    some (scaleCode x, qs.map (·.1), qs.foldl (fun fl q => fl ||| q.2) 0)

/-- VQNT (R54, R195); under Z the elements of a block with no active element are zeroed as R181 gives
(DEDUCED, log 94). -/
def execVqnt (f : FV) (s : State) : Host.Outcome State Fault Refusal :=
  convIssue f [] [.v f.vc.toNat 1]
    (fun e s =>
      let t := e.task
      let ws := fmtWidth (FV.from f)
      let wd := FV.w f
      match t.perRow (max ws wd) with
      | none => shapeFault
      | some cw =>
        let n := FV.convN f t cw
        let cd := t.shapeBits / wd
        if !t.predFits f.p.toNat wd || cd % 32 != 0 || n % 32 != 0 then shapeFault
        else
          let act := t.activeN f.p.toNat n
          let (rnds, lfsr) := roundings e.team.sr e.team.rnd n (s.core e.core).lfsr
          let blocks := (List.range (n / 32)).map fun j => (j, quantBlock f t e.team.ftz rnds act j)
          let step := fun (r : Task × Fl) (b : Nat × Option (Nat × List Nat × Fl)) =>
            match b.2 with
            | none => r
            | some (code, qs, fl) =>
              let t' := r.1.putRC 8 f.vc.toNat (b.1 / 128) (b.1 % 128) code
              (t'.putElems wd cd f.vd.toNat (32 * b.1) (qs.map some), r.2 ||| fl)
          let (t', fl) := blocks.foldl step (t, 0)
          let tail := List.replicate (n - act) (if f.z then some 0 else none)
          let s := s.modCore e.core fun k => { k with lfsr := lfsr }
          .done ((s.addFlags e.uid fl).commit e
            ((t'.putElems wd cd f.vd.toNat act tail).advance 8))) s

/-- VDQT (R196). -/
def execVdqt (f : FV) (s : State) : Host.Outcome State Fault Refusal :=
  convIssue f [.v f.vc.toNat 1 f.fec] []
    (fun e s =>
      let t := e.task
      let ws := fmtWidth (FV.from f)
      let wd := FV.w f
      match t.perRow (max ws wd) with
      | none => shapeFault
      | some cw =>
        let n := FV.convN f t cw
        let cs := t.shapeBits / ws
        if !t.predFits f.p.toNat wd || cs % 32 != 0 || n % 32 != 0 then shapeFault
        else
          let (vals, fl) := frameVals f.z n (t.activeN f.p.toNat n) (fun i =>
            encodeTo f.t.toNat false e.team.rnd e.team.ftz
              (widen (FV.from f) true e.team.ftz (t.scaleByte f.vc.toNat (i / 32))
                (t.elem ws cs f.va.toNat i)))
          .done ((s.addFlags e.uid fl).commit e
            ((t.putElems wd (t.shapeBits / wd) f.vd.toNat 0 vals).advance 8))) s

/-! ## Reductions: major 0x25 -/

/-- One level of the tree of R71: adjacent pairs added and rounded. -/
def treeLevel (add : Nat → Nat → Nat × Fl) : List Nat → List Nat × Fl
  | a :: b :: xs =>
    let r := add a b
    let q := treeLevel add xs
    (r.1 :: q.1, r.2 ||| q.2)
  | xs => (xs, 0)

/-- `k` levels. -/
def treeLevels (add : Nat → Nat → Nat × Fl) : Nat → List Nat → List Nat × Fl
  | 0, xs => (xs, 0)
  | k + 1, xs =>
    let r := treeLevel add xs
    let q := treeLevels add k r.1
    (q.1, r.2 ||| q.2)

/-- Smallest k with n ≤ 2^k, from `i` with `fuel` tries. -/
def ceilLog2 (n : Nat) : Nat → Nat → Nat
  | 0, i => i
  | fuel + 1, i => if n ≤ 2 ^ i then i else ceilLog2 n fuel (i + 1)

/-- The pairwise tree over codes, padded with +0 (R71). -/
def treeSum (add : Nat → Nat → Nat × Fl) (xs : List Nat) : Nat × Fl :=
  let k := ceilLog2 xs.length 16 0
  let r := treeLevels add k (xs ++ List.replicate (2 ^ k - xs.length) 0)
  (r.1.headD 0, r.2)

/-- A code with a subnormal flushed and a NaN canonical (R49, R59). -/
def FV.clean (f : FV) (m : Team) (c : Nat) : Nat :=
  ((FV.fmt f).encode .rne false (FV.val f m c)).1

/-- One addition with one rounding on codes (R71). -/
def FV.addCodes (f : FV) (m : Team) (a b : Nat) : Nat × Fl :=
  FV.round f m (FVal.add m.rnd (FV.val f m a) (FV.val f m b))

/-- The active elements of one row of a group. -/
def FV.rowElems (f : FV) (t : Task) (c act base : Nat) : List Nat :=
  (List.range (min c (act - base))).map fun k => t.elem (FV.w f) c f.va.toNat (base + k)

/-- A reduction of each row of each register (R197). -/
def vecReduce (f : FV) (red : Team → List Nat → Nat × Fl) (s : State) :
    Host.Outcome State Fault Refusal :=
  issue f.st.toNat 8 [FV.srcA f] [.v f.vd.toNat f.g.toNat]
    (fun e s =>
      let t := e.task
      match t.perRow (FV.w f) with
      | none => shapeFault
      | some c =>
        if !t.predFits f.p.toNat (FV.w f) then shapeFault
        else
          let lines := f.g.toNat * t.rows.toNat
          let act := t.activeN f.p.toNat (lines * c)
          let rs := (List.range lines).map fun r => red e.team (FV.rowElems f t c act (r * c))
          let vals := rs.map fun r =>
            if f.mod.getLsbD 0 then List.replicate c (some r.1)
            else some r.1 :: List.replicate (c - 1) none
          let fl := rs.foldl (fun fl r => fl ||| r.2) 0
          .done ((s.addFlags e.uid fl).commit e
            ((t.putElems (FV.w f) c f.vd.toNat 0 vals.flatten).advance 8))) s

/-- Is T a floating-point type? -/
def FV.isFp (f : FV) : Bool := (ffmt f.t.toNat).isSome

/-- VRSUM (R71, R197): integers wrap. -/
def execVrsum (f : FV) (s : State) : Host.Outcome State Fault Refusal :=
  vecReduce f (fun m xs =>
    if FV.isFp f then treeSum (FV.addCodes f m) (xs.map (FV.clean f m))
    else (lowInt (FV.w f) ((xs.map (FV.int f)).sum), 0)) s

/-- VRMAX (R70, R197). -/
def execVrmax (f : FV) (s : State) : Host.Outcome State Fault Refusal :=
  vecReduce f (fun m xs =>
    if FV.isFp f then
      (((FV.fmt f).encode .rne false ((xs.map (FV.val f m)).foldl FVal.max (.inf true))).1, 0)
    else (lowInt (FV.w f) ((xs.map (FV.int f)).foldl max (intRange f.t.toNat f.u).1), 0)) s

/-- VRMIN (R70, R197). -/
def execVrmin (f : FV) (s : State) : Host.Outcome State Fault Refusal :=
  vecReduce f (fun m xs =>
    if FV.isFp f then
      (((FV.fmt f).encode .rne false ((xs.map (FV.val f m)).foldl FVal.min (.inf false))).1, 0)
    else (lowInt (FV.w f) ((xs.map (FV.int f)).foldl min (intRange f.t.toNat f.u).2), 0)) s

/-- Running sums after the first element (R71). -/
def scanFrom (add : Nat → Nat → Nat × Fl) : Nat → List Nat → List Nat × Fl
  | _, [] => ([], 0)
  | a, x :: xs =>
    let r := add a x
    let q := scanFrom add r.1 xs
    (r.1 :: q.1, r.2 ||| q.2)

/-- The inclusive prefix of a row's active elements (R71). -/
def scanRow (add : Nat → Nat → Nat × Fl) : List Nat → List Nat × Fl
  | [] => ([], 0)
  | x :: xs =>
    let q := scanFrom add x xs
    (x :: q.1, q.2)

/-- VSCAN (R71, R198). -/
def execVscan (f : FV) (s : State) : Host.Outcome State Fault Refusal :=
  issue f.st.toNat 8 [FV.srcA f] [.v f.vd.toNat f.g.toNat]
    (fun e s =>
      let t := e.task
      match t.perRow (FV.w f) with
      | none => shapeFault
      | some c =>
        if !t.predFits f.p.toNat (FV.w f) then shapeFault
        else
          let lines := f.g.toNat * t.rows.toNat
          let act := t.activeN f.p.toNat (lines * c)
          let rs := (List.range lines).map fun r =>
            let xs := FV.rowElems f t c act (r * c)
            if FV.isFp f then scanRow (FV.addCodes f e.team) (xs.map (FV.clean f e.team))
            else scanRow (fun a b => (lowInt (FV.w f) ((a : Int) + b), 0)) xs
          let vals := (rs.map fun r => r.1.map some).flatten
          let rest := List.replicate (lines * c - act) (if f.z then some 0 else none)
          let fl := rs.foldl (fun fl r => fl ||| r.2) 0
          .done ((s.addFlags e.uid fl).commit e
            ((t.putElems (FV.w f) c f.vd.toNat 0 (vals ++ rest)).advance 8))) s

/-! ## Rearrangements: major 0x26 -/

/-- Writes to element positions (register, row, column) of one register. -/
def Task.putList (t : Task) (w n : Nat) : List (Nat × Nat × Nat) → Task
  | [] => t
  | (r, c, v) :: xs => (t.putRC w n r c v).putList w n xs

/-- All (row, column) pairs. -/
def cells (rows c : Nat) : List (Nat × Nat) :=
  ((List.range rows).map fun r => (List.range c).map fun k => (r, k)).flatten

/-- A rearrangement (R199): the check, then for each (row, column) of the tile where its element goes
and what it is, register by register. -/
def rearrange (f : FV) (srcs : List SrcOp) (bad : Task → Nat → Bool)
    (cell : Task → Nat → Nat → Nat → Nat → Nat × Nat × Nat) (s : State) :
    Host.Outcome State Fault Refusal :=
  issue f.st.toNat 8 srcs [.v f.vd.toNat f.g.toNat]
    (fun e s =>
      let t := e.task
      match t.perRow (FV.w f) with
      | none => shapeFault
      | some c =>
        if bad t c then shapeFault
        else
          let t' := (List.range f.g.toNat).foldl (fun t' g =>
            t'.putList (FV.w f) (f.vd.toNat + g)
              ((cells t.rows.toNat c).map fun (r, k) => cell t c g r k)) t
          .done (s.commit e (t'.advance 8))) s

/-- Element (r, c) of register g of VA and of VB. -/
def FV.aRC (f : FV) (t : Task) (g r c : Nat) : Nat := t.elemRC (FV.w f) (f.va.toNat + g) r c
def FV.bRC (f : FV) (t : Task) (g r c : Nat) : Nat := t.elemRC (FV.w f) (f.vb.toNat + g) r c

/-- Value of XS, unsigned. -/
def FV.xsVal (f : FV) (t : Task) : Nat := (t.getX f.xs).toNat

/-- VTRN (R199). -/
def execVtrn (f : FV) (s : State) : Host.Outcome State Fault Refusal :=
  rearrange f [FV.srcA f] (fun _ c => decide (16 < c))
    (fun t _ g r k => (k, r, FV.aRC f t g r k)) s

/-- VBCR (R199). -/
def execVbcr (f : FV) (s : State) : Host.Outcome State Fault Refusal :=
  rearrange f [FV.srcA f, .x f.xs f.fes] (fun t _ => decide (t.rows.toNat ≤ FV.xsVal f t))
    (fun t _ g r k => (r, k, FV.aRC f t g (FV.xsVal f t) k)) s

/-- VBCC (R199). -/
def execVbcc (f : FV) (s : State) : Host.Outcome State Fault Refusal :=
  rearrange f [FV.srcA f, .x f.xs f.fes] (fun t c => decide (c ≤ FV.xsVal f t))
    (fun t _ g r k => (r, k, FV.aRC f t g r (FV.xsVal f t))) s

/-- VPERM (R199). -/
def execVperm (f : FV) (s : State) : Host.Outcome State Fault Refusal :=
  rearrange f [FV.srcA f, FV.srcB f false] (fun _ _ => false)
    (fun t c g r k =>
      let j := FV.bRC f t g r k
      (r, k, if j < c then FV.aRC f t g r j else 0)) s

/-- VSLD (R199). -/
def execVsld (f : FV) (s : State) : Host.Outcome State Fault Refusal :=
  rearrange f [FV.srcA f, FV.srcB f false, .x f.xs f.fes] (fun t c => decide (c < FV.xsVal f t))
    (fun t c g r k =>
      let j := k + FV.xsVal f t
      (r, k, if j < c then FV.aRC f t g r j else FV.bRC f t g r (j - c))) s

/-- VROT (R199): along columns, or along rows with MOD[0] = 1. -/
def execVrot (f : FV) (s : State) : Host.Outcome State Fault Refusal :=
  rearrange f [FV.srcA f, .x f.xs f.fes] (fun _ _ => false)
    (fun t c g r k =>
      (r, k,
        if f.mod.getLsbD 0 then FV.aRC f t g ((r + FV.xsVal f t) % t.rows.toNat) k
        else FV.aRC f t g r ((k + FV.xsVal f t) % c))) s

/-! ## Moves: major 0x27 -/

/-- VMOV (R200). -/
def execVmov (f : FV) (s : State) : Host.Outcome State Fault Refusal :=
  vecEach f [FV.srcA f] (fun _ t c i => (FV.a f t c i, 0)) s

/-- One whole register copied from the task `src`. -/
def Task.copyReg (t src : Task) (d a : Nat) : Task :=
  (List.range 16).foldl (fun t r => t.setVrow d r (src.vrow a r)) t

/-- VMOV, whole (R200). -/
def execVmovWhole (f : FV) (s : State) : Host.Outcome State Fault Refusal :=
  issue f.st.toNat 8 [FV.srcA f] [.v f.vd.toNat f.g.toNat]
    (fun e s => .done (s.commit e
      (((List.range f.g.toNat).foldl
        (fun t i => t.copyReg e.task (f.vd.toNat + i) (f.va.toNat + i)) e.task).advance 8))) s

/-- VSPL (R200). -/
def execVspl (f : FV) (s : State) : Host.Outcome State Fault Refusal :=
  vecEach f [.x f.xs f.fes] (fun _ t _ _ => (FV.xsVal f t % 2 ^ (FV.w f), 0)) s

/-- Row and column that VEXT and VINS encode (R200). -/
def FV.pos (f : FV) : Nat × Nat := (f.vb.toNat % 16, f.vc.toNat * 8 + f.mod.toNat % 8)

/-- Is the position outside the tile (R200)? -/
def Task.outside (t : Task) (p : Nat × Nat) (c : Nat) : Bool :=
  decide (t.rows.toNat ≤ p.1) || decide (c ≤ p.2)

/-- VEXT's scalar (R200): integers by T and U, floating elements zero-extended. -/
def FV.extVal (f : FV) (c : Nat) : W64 :=
  if isSigned f.t.toNat f.u then w64 (lowInt 64 (FV.int f c)) else w64 c

/-- VEXT (R200). -/
def execVext (f : FV) (s : State) : Host.Outcome State Fault Refusal :=
  issue f.st.toNat 8 [.v f.va.toNat 1 f.fea] [.x f.xs]
    (fun e s =>
      let t := e.task
      match t.perRow (FV.w f) with
      | none => shapeFault
      | some c =>
        if t.outside (FV.pos f) c then shapeFault
        else
          let v := t.elemRC (FV.w f) f.va.toNat (FV.pos f).1 (FV.pos f).2
          .done (s.commit e ((t.setX f.xs (FV.extVal f v)).advance 8))) s

/-- VINS (R200). -/
def execVins (f : FV) (s : State) : Host.Outcome State Fault Refusal :=
  issue f.st.toNat 8 [.x f.xs f.fes] [.v f.vd.toNat 1]
    (fun e s =>
      let t := e.task
      match t.perRow (FV.w f) with
      | none => shapeFault
      | some c =>
        if t.outside (FV.pos f) c then shapeFault
        else
          .done (s.commit e
            ((t.putRC (FV.w f) f.vd.toNat (FV.pos f).1 (FV.pos f).2 (FV.xsVal f t)).advance 8))) s

/-- VIDX (R200). -/
def execVidx (f : FV) (s : State) : Host.Outcome State Fault Refusal :=
  vecEach f [.x f.xs f.fes] (fun _ t _ i => ((i + FV.xsVal f t) % 2 ^ (FV.w f), 0)) s

/-! ## Predicates and shape: major 0x28 -/

/-- A predicate's bits from WC and COUNT (R78). -/
def predOf (wc count : Nat) : BitVec 16 := BitVec.ofNat 16 (count + wc * 2 ^ 14)

/-- Predicate number in VD or VA (R201). -/
def predNo (r : BitVec 5) : Nat := r.toNat % 8

/-- PSET (R201). -/
def execPset (f : FV) (s : State) : Host.Outcome State Fault Refusal :=
  taskOp f.st.toNat 8 []
    (fun t => (t.setPred (predNo f.vd) (predOf (wcOf (FV.w f))
      (f.vb.toNat * 512 + f.vc.toNat * 16 + f.mod.toNat % 16))).advance 8) s

/-- COUNT of PWHL (R201). -/
def pwhlCount (w : Nat) (v : W64) : Nat :=
  let n := v.toInt.toNat
  min (if w = 4 then (n + 1) / 2 else n) 16383

/-- PWHL (R201). -/
def execPwhl (f : FV) (s : State) : Host.Outcome State Fault Refusal :=
  taskOp f.st.toNat 8 [.x f.xs f.fes]
    (fun t => (t.setPred (predNo f.vd)
      (predOf (wcOf (FV.w f)) (pwhlCount (FV.w f) (t.getX f.xs)))).advance 8) s

/-- PMOV (R201): MOD[1:0] selects the copy. -/
def execPmov (f : FV) (s : State) : Host.Outcome State Fault Refusal :=
  match f.mod.toNat % 4 with
  | 0 => taskOp f.st.toNat 8 []
      (fun t => (t.setPred (predNo f.vd) (t.pred (predNo f.va))).advance 8) s
  | 1 => scalar f.st.toNat 8 f.xs [] (fun t => (t.pred (predNo f.va)).zeroExtend 64) s
  | _ => taskOp f.st.toNat 8 [.x f.xs f.fes]
      (fun t => (t.setPred (predNo f.vd) ((t.getX f.xs).truncate 16)).advance 8) s

/-- VSETS (R76, R201). -/
def execVsets (f : FV) (s : State) : Host.Outcome State Fault Refusal :=
  if f.mod.getLsbD 4 then
    issue f.st.toNat 8 [.x f.xs f.fes] []
      (fun e s =>
        let v := e.task.getX f.xs
        if shapeOk v then .done (s.commit e ((e.task.setShape v).advance 8)) else shapeFault) s
  else
    taskOp f.st.toNat 8 []
      (fun t => { t.advance 8 with
        rows := f.vb
        cols := BitVec.ofNat 9 (f.vc.toNat * 16 + f.mod.toNat % 16)
        wc := BitVec.ofNat 2 (wcOf (FV.w f)) }) s

end Sys2Proof.Machine
end

