-- ==== Sys2Proof/Machine/Access.lean ====
section
/-! DEFINITION. What the memory and engine instructions share: tokens, the holds of MARK, acquires and
the range scoreboard, pieces of an access and the order of their checks, and the queues (R81, R110,
R111, R117, R121, R128, R204, R205, R366). -/

namespace Sys2Proof.Machine

/-! ## Tokens (R81, R140) -/

/-- Numbers of the consumed tokens. -/
def FE2.cts (f : FE2) : List Nat :=
  (if f.cv0 then [f.ct0.toNat] else []) ++ (if f.cv1 then [f.ct1.toNat] else []) ++
    (if f.cv2 then [f.ct2.toNat] else [])

/-- What the consumed tokens stand for; none where one is unproduced, which raises TOKEN. -/
def Task.consume (t : Task) : List Nat → Option (List Dep)
  | [] => some []
  | k :: ks =>
    match tabGet .unproduced t.tok k, t.consume ks with
    | .produced ds, some r => some (ds ++ r)
    | _, _ => none

/-- The produced token now stands for `ds` too (R81). -/
def Task.produce (t : Task) (s : State) (f : FE2) (ds : List Dep) : Task :=
  if f.pv then
    let old := match tabGet .unproduced t.tok f.pt.toNat with
      | .unproduced => []
      | .produced d => d.filter fun x => !s.depOver x
    { t with tok := tabPut t.tok f.pt.toNat (.produced (old ++ ds)) }
  else t

/-- TOKEN (R81). -/
def tokenFault : Act := Act.raise cToken 0

/-! ## Holds -/

/-- May a load, store, SQLD or engine command issue behind the task's MARKs and acquires (R117, R121,
R211)? -/
def State.memClear (s : State) (e : Env) : Bool :=
  e.task.marks.all s.depsDone &&
    e.task.acqs.all fun a => !(s.core e.core).loads.any fun l => l.id == a && !l.taken

/-- May a command of R39 issue? -/
def State.cmdClear (s : State) (e : Env) : Bool := s.memClear e && s.translated e.core e.uid

/-- Address form of R111: 0 translated, 1 scratchpad window, 2 CSM window. -/
def addrForm (va : Nat) : Nat := if va < 2 ^ 54 then 0 else if va / 2 ^ 48 % 64 = 0 then 1 else 2

/-- Does an access of the team overlap a recorded range (R111)? -/
def State.sbHit (s : State) (e : Env) (va len : Nat) : Bool :=
  (s.core e.core).sb.any fun b =>
    b.form == addrForm va && (if b.form = 1 then b.team == e.uid else b.ctx == e.team.ctx) &&
      decide (b.lo < va + len) && decide (va < b.hi)

/-- Entries of the load queue in use (R204). -/
def Core.loadsUsed (k : Core) : Nat := (k.loads.map (·.entries)).sum

/-- Does a store entry still wait in the store queue (R204)?  A store to another package waits until the
scale-up port has accepted it. -/
def Access.queued (a : Access) : Bool :=
  a.pieces.isEmpty || a.pieces.any fun p =>
    match p.loc with
    | some (.remote _ _) => p.stage < 3
    | _ => p.stage == 0

/-- Entries of the store queue in use (R204). -/
def Core.storesUsed (k : Core) : Nat :=
  ((k.stores.filter Access.queued).map (·.entries)).sum

/-! ## Pieces (R128) -/

/-- A piece not yet translated. -/
def newPiece (va len : Nat) (data mask : BitVec 64) : Piece where
  va := w64 va; len := len; loc := none; mkey := 0; aligned := true; data := data; mask := mask; stage := 0; epoch := 0
  in1 := 0; in2 := 0; in3 := 0

/-- The range of `len` bytes at `va` in units of aligned 8 bytes. -/
def splitRange (va : Nat) : Nat → Nat → List (Nat × Nat)
  | 0, _ => []
  | _, 0 => []
  | fuel + 1, len =>
    let n := min len (8 - va % 8)
    (va, n) :: splitRange (va + n) fuel (len - n)

/-- Units of a range. -/
def units (va len : Nat) : List (Nat × Nat) := splitRange va (len / 8 + 2) len

/-- Pieces of a range that reads. -/
def readPieces (va len : Nat) : List Piece := (units va len).map fun u => newPiece u.1 u.2 0 0

/-- Pieces that write the bits of `v` that `m` names, from address `va` up. -/
def writePieces (va len v m : Nat) : List Piece :=
  (units va len).map fun u =>
    newPiece u.1 u.2 (BitVec.ofNat 64 (v / 2 ^ (8 * (u.1 - va)) % 2 ^ (8 * u.2)))
      (BitVec.ofNat 64 (m / 2 ^ (8 * (u.1 - va)) % 2 ^ (8 * u.2)))

/-- Steps 1 and 2 of R205, then the rest with the TLBs. -/
def State.check (s : State) (w : Who) (aligned : Bool) (va : W64) (len : Nat) (p : Path)
    (write : Bool) : Xl :=
  match s.look w va len p write with
  | .bad c => if c ≠ cRange ∧ aligned = false then .bad cAlign
      else if c = cRange ∧ aligned = false ∧ va.toNat < 2 ^ 54 then .bad cAlign else .bad c
  | r => if aligned then r else .bad cAlign

/-- Current QEPOCH of a core's die (R369, R373). -/
def State.epoch (s : State) (core : Nat) : Nat := (s.die (dieOf core)).epochNow.toNat

/-- A piece with its translation, where it has one. -/
def Piece.placed (p : Piece) (epoch : Nat) (x : Xl) : Piece :=
  match x with
  | .ok loc k => { p with loc := some loc, mkey := k, epoch := epoch }
  | .ver r => { p with loc := some (.region r), epoch := epoch }
  | _ => p

/-- The lowest address among those listed. -/
def lowest : List (Nat × Nat) → Option (Nat × Nat)
  | [] => none
  | x :: xs => match lowest xs with
    | none => some x
    | some y => if x.1 ≤ y.1 then some x else some y

/-- The outcome of translating the pieces not yet placed: the placed pieces, the lowest fault as address and
code, and the lowest address without a TLB entry. -/
def State.place (s : State) (w : Who) (p : Path) (write : Bool) (ps : List Piece) :
    List Piece × Option (Nat × Nat) × Option (Nat × Nat) :=
  let ep := s.epoch w.core
  let rs := ps.map fun q =>
    (q, if q.loc.isSome then Xl.ok (q.loc.getD (.mem 0)) q.mkey
      else s.check w q.aligned q.va q.len p write)
  (rs.map fun r => if r.1.loc.isSome then r.1 else r.1.placed ep r.2,
    lowest (rs.filterMap fun r => match r.2 with
      | .bad c => some (r.1.va.toNat, c)
      | _ => none),
    lowest (rs.filterMap fun r => match r.2 with
      | .miss => some (r.1.va.toNat, 0)
      | _ => none))

/-- Is the fault below every address that still has no translation (R205)? -/
def faultFirst (bad miss : Option (Nat × Nat)) : Option (Nat × Nat) :=
  match bad, miss with
  | some b, some m => if b.1 < m.1 then some b else none
  | b, _ => b

/-- The path of a queue entry (R102). -/
def AccKind.path : AccKind → Path
  | .ver => .versioned
  | _ => .plain

/-- Does a queue entry count as a write (R356)?  VRELV is not among those listed there. -/
def AccKind.writes : AccKind → Bool
  | .store => true
  | .engine => true
  | _ => false

/-- What it takes to enter an access into its queue. -/
structure AccSpec where
  kind : AccKind
  entries : Nat
  pieces : List Piece
  dst : LoadDst
  rel : Option Nat
  acq : Bool
  inOrder : Bool

/-- Has the queue of an access room for it (R204)? -/
def State.room (s : State) (core : Nat) (store : Bool) (n : Nat) : Bool :=
  if store then (s.core core).storesUsed + n ≤ 32 else (s.core core).loadsUsed + n ≤ 64

/-- Does an older access in the same queue still wait for its translation?  Accesses translate in issue order within
their queue, which is the core's (R366). -/
def State.behindWalk (s : State) (core : Nat) (store : Bool) : Bool :=
  (if store then (s.core core).stores else (s.core core).loads).any fun a =>
    a.cmd == 0 && a.xlate && a.kind != .prefetch

/-- An access entered into its queue (R204, R205, R366): the pieces that the TLBs translate are placed, the
others wait for their walks. -/
def State.enter (s : State) (e : Env) (store : Bool) (sp : AccSpec) (id : Nat) (ps : List Piece) :
    State :=
  let a : Access :=
    { id := id, team := e.uid, ctx := e.team.ctx, seq := e.task.seq, pc := e.task.pc, kind := sp.kind
      entries := sp.entries, xlate := ps.any (fun p => p.loc.isNone), pieces := ps, dst := sp.dst
      rel := sp.rel, acq := sp.acq, inOrder := sp.inOrder, grain := 1, cmd := 0 }
  s.modCore e.core fun k =>
    if store then { k with stores := k.stores ++ [a] } else { k with loads := k.loads ++ [a] }

/-- Registers that a load fills: they are marked empty (R84). -/
def Task.emptyDst (t : Task) : LoadDst → Task
  | .none => t
  | .x d _ _ => t.emptyX (BitVec.ofNat 6 d)
  | .v regs _ => { t with vEmpty := regs.foldl setBit t.vEmpty }

/-! ## Values of loads -/

/-- `n` bits of loaded pieces from bit `src` of the address space up. -/
def loadBits (ps : List Piece) (src n : Nat) : Nat :=
  (ps.map fun p =>
    let lo := 8 * p.va.toNat
    if lo + 8 * p.len ≤ src ∨ src + n ≤ lo then 0
    else if src ≤ lo then p.data.toNat * 2 ^ (lo - src)
    else p.data.toNat / 2 ^ (src - lo)).foldl (· ||| ·) 0 % 2 ^ n

/-- The rows that a vector load writes, over the contents that its registers had (R208, R209, R210). -/
def loadRows (t : Task) (ps : List Piece) (runs : List Run) : Tab Row :=
  runs.foldl (fun rs r =>
    let old := (tabFind rs r.row).getD (tabGet 0 t.v r.row)
    let v := loadBits ((ps.drop r.first).take r.count) r.srcBit r.nbits
    tabPut rs r.row (rowPut (rowPut old r.dstBit r.nbits v) (r.dstBit + r.nbits) r.zero 0)) []

/-- A scalar load's register value (R206). -/
def loadScalar (ps : List Piece) (bytes : Nat) (sgn : Bool) : W64 :=
  let v := match ps with
    | p :: _ => p.data.toNat
    | [] => 0
  w64 (lowInt 64 (intOf (8 * bytes) sgn v))

/-- A load that has taken its value leaves the queue, and its result is on its way (R84, R204). -/
def State.finishLoad (s : State) (core : Nat) (a : Access) : State :=
  let s := s.modCore core fun k => { k with loads := k.loads.filter fun b => b.id != a.id }
  let res : Option Result :=
    match tabFind s.teams a.team with
    | none => none
    | some m => match m.task, a.dst with
      | none, _ => none
      | _, .none => none
      | some _, .x d n sg => some ⟨a.id, a.team, some (d, loadScalar a.pieces n sg), [], []⟩
      | some t, .v regs runs => some ⟨a.id, a.team, none, loadRows t a.pieces runs, regs⟩
  match res with
  | none => s
  | some r => s.modCore core fun k => { k with results := k.results ++ [r] }

/-- Loads of a team that have taken their values leave its queue, the oldest first; none passes an older one
(R116, R204). -/
def State.leaveLoads (s : State) (core uid : Nat) : Nat → State
  | 0 => s
  | n + 1 =>
    match (s.core core).loads.find? fun a => a.team == uid && a.cmd == 0 && a.kind != .prefetch with
    | none => s
    | some a => if a.taken then (s.finishLoad core a).leaveLoads core uid n else s

/-- The same for every load of the team. -/
def State.loadsLeave (s : State) (core uid : Nat) : State :=
  s.leaveLoads core uid (s.core core).loads.length

/-- A load or store issued: held, faulting or entered, and the task moved on (R13, R111, R204). -/
def accessAct (e : Env) (bytes : Nat) (store : Bool) (sp : AccSpec) (s : State) : Act :=
  if !s.memClear e then .hold
  else if !s.room e.core store sp.entries then .hold
  else if sp.pieces.any fun q => s.sbHit e q.va.toNat q.len then .hold
  else
    let (ps, bad, miss) := if s.behindWalk e.core store then (sp.pieces, none, none)
      else s.place e.who sp.kind.path sp.kind.writes sp.pieces
    match faultFirst bad miss with
    | some (va, c) => .fault ⟨c, w64 va, sp.kind.writes, false, false⟩
    | none =>
      let (id, s) := s.fresh
      let t := (e.task.advance bytes).emptyDst sp.dst
      let s := (s.enter e store sp id ps).commit e (if sp.acq then { t with acqs := t.acqs ++ [id] } else t)
      .done (if ps.isEmpty then
        (if store then s.modCore e.core fun k => { k with stores := k.stores.filter fun a => a.id != id }
          else s.loadsLeave e.core e.uid)
        else s)

/-! ## Physical overlap -/

/-- Do two places overlap? -/
def Loc.overlaps (a : Loc) (n : Nat) (b : Loc) (m : Nat) : Bool :=
  match a, b with
  | .mem x, .mem y => decide (x < y + m) && decide (y < x + n)
  | .host x, .host y => decide (x < y + m) && decide (y < x + n)
  | .remote p x, .remote q y => p == q && decide (x < y + m) && decide (y < x + n)
  | _, _ => false

/-- Do two pieces overlap? -/
def Piece.overlaps (p q : Piece) : Bool :=
  match p.loc, q.loc with
  | some a, some b => a.overlaps p.len b q.len
  | _, _ => false

/-- From which stage on an accepted store of core `c` lies before every later access of core `r` to its
location (R114): the port for one core, the crossbar for a cluster, the network for a die. -/
def sharedStage (c r : Nat) : Nat :=
  if c = r then 1 else if clusterOf c = clusterOf r then 2 else if dieOf c = dieOf r then 3 else 4

/-- Must a read of core `r` wait behind an accepted store (R114)? -/
def State.readBlocked (s : State) (r : Nat) (loc : Loc) (len : Nat) : Bool :=
  s.cores.any fun c => c.2.stores.any fun a => a.pieces.any fun q =>
    decide (sharedStage c.1 r ≤ q.stage) && decide (q.stage < 4) &&
      (match q.loc with
        | some l => l.overlaps q.len loc len
        | none => false)

/-- Stamp of a piece at a stage. -/
def Piece.stampAt (p : Piece) (stage : Nat) : Nat :=
  match stage with
  | 1 => p.in1
  | 2 => p.in2
  | _ => p.in3

/-- Is `q` of core `c` ahead of `p` of core `d` (R114)? -/
def pieceAhead (c : Nat) (q : Piece) (d : Nat) (p : Piece) : Bool :=
  let k := sharedStage c d
  decide (k < 4) && decide (k ≤ q.stage) && (decide (p.stage < k) || decide (q.stampAt k < p.stampAt k))

/-- May a piece go on to `stage`: no store ahead of it at its location stands before that stage, and
before the ordering point none stands unperformed? -/
def State.mayAdvance (s : State) (core : Nat) (p : Piece) (stage : Nat) : Bool :=
  s.cores.all fun c => c.2.stores.all fun a => a.pieces.all fun q =>
    !(q.overlaps p && pieceAhead c.1 q core p && decide (q.stage < min stage 4))

/-- A piece moved on to `stage`, with stamps for the points it passes. -/
def Piece.moveTo (p : Piece) (stage stamp : Nat) : Piece :=
  { p with
    stage := stage
    in1 := if p.stage < 1 then stamp else p.in1
    in2 := if p.stage < 2 ∧ 2 ≤ stage then stamp else p.in2
    in3 := if p.stage < 3 ∧ 3 ≤ stage then stamp else p.in3 }

/-- Regions of a team's allotment that a write to its scratchpad marks (R381). -/
def State.markDirty (s : State) (k len : Nat) : State :=
  if 2 ^ 57 ≤ k then
    let u := (k - 2 ^ 57) / 2 ^ 21
    let off := (k - 2 ^ 57) % 2 ^ 21
    s.modTeam u fun t => { t with dirty := setBit (setBit t.dirty (off / 4096)) ((off + len - 1) / 4096) }
  else s

/-- A store to a die's fairness entries: the words wait for the next tick whose ac has not come (R342, R344). -/
def State.fairWrite (s : State) (die off : Nat) : Nat → Nat → Nat → State
  | 0, _, _ => s
  | n + 1, data, mask =>
    let d := s.die die
    let w := off / 4
    let sh := 8 * (off % 4)
    let at_ := d.ticksDue * 2 ^ 20 + w
    let old := (((List.range (d.ticksDue + 1)).reverse.findSome? fun n => tabFind d.fairPend (n * 2 ^ 20 + w))).getD
      (BitVec.ofNat 32 ((tabGet fairReset d.fair (w / 8)).toNat / 2 ^ (32 * (w % 8))))
    let m : BitVec 32 := BitVec.ofNat 32 (mask % 256 * 2 ^ sh)
    let v := (old &&& ~~~m) ||| (BitVec.ofNat 32 (data % 256 * 2 ^ sh) &&& m)
    (if mask % 256 = 0 then s else s.modDie die fun d => { d with fairPend := tabPut d.fairPend at_ v }).fairWrite
      die (off + 1) n (data / 256) (mask / 256)

/-- A doorbell stored to: `v` is the slot plus 1 (R360, R389). -/
def State.ring (s : State) (die bell v : Nat) : State :=
  if 1 ≤ v ∧ v ≤ 64 then s.modDie die fun d => { d with bells := d.bells ++ [(bell, v - 1)] } else s

/-- A queue pair whose STATE a store has made 1 is opened: numbers start at 0 (R288). -/
def State.openQp (s t : State) (k : Nat) : State :=
  let off := k % 2 ^ 46 - qpLocal
  if qpLocal ≤ k % 2 ^ 46 ∧ off < 16 * 256 * 32 ∧ off % 32 = 0 ∧ s.byte k % 4 ≠ 1 ∧ t.byte k % 4 = 1 then
    t.modCluster (k / 2 ^ 46 * 16 + off / 8192) fun c => { c with qps := tabDel c.qps (off / 32 % 256) }
  else t

/-- The refusal of a message or store recorded against a team and target: the first since the team's
last FFLUSH there counts (R272). -/
def State.recordRefusal (s : State) (team target code : Nat) : State :=
  s.modTeam team fun t =>
    if t.refusals.any fun r => r.1 == target then t
    else { t with refusals := t.refusals ++ [(target, code)] }

/-! ## Scale-up links (R286, R414, R415) -/

/-- Number of the host link among the ports. -/
def hostPort : Nat := 24

def State.port (s : State) (p : Nat) : Port := tabGet portReset s.ports p
def State.setPort (s : State) (p : Nat) (q : Port) : State := { s with ports := tabPut s.ports p q }

/-- Is a plane live? -/
def State.planeUp (s : State) (i : Nat) : Bool := (tabGet portReset s.ports i).up

/-- Live planes in ascending order (R414). -/
def State.livePlanes (s : State) : List Nat := (List.range 18).filter s.planeUp

/-- Plane of an access to an address of another package (R414). -/
def State.planeFor (s : State) (pkg addr : Nat) : Option Nat :=
  let live := s.livePlanes
  live[(addr / 2 ^ 16 % 2 ^ 30 ^^^ pkg) % max 1 live.length]?

/-- Is a place lost with its die or package (R286, R424)? -/
def State.locLost (s : State) (l : Loc) : Bool :=
  match l with
  | .mem k => decide (k < 2 ^ 48) && (s.die (k / 2 ^ 46)).lost
  | .remote pkg a => s.lostPkgs.contains pkg || s.lostDies.contains (pkg, a / 2 ^ 46)
  | _ => false

/-- The bytes that flits carry of something sent (log 38). -/
def Out.bytes : Out → List (BitVec 8)
  | .message m => m.payload
  | .roce _ _ _ _ _ _ payload _ => payload
  | .store _ _ _ len data _ => leBytes len data.toNat
  | .atomic _ _ _ _ _ _ x y => leBytes 8 x.toNat ++ leBytes 8 y.toNat
  | .load _ _ addr _ => leBytes 8 addr
  | .launch _ _ _ _ _ bytes => bytes
  | .hostWrite _ len data _ => leBytes len data.toNat
  | .hostFetch addr _ => leBytes 8 addr
  | _ => []

/-- Flits from a sequence number on: 244 payload bytes each (R415). -/
def flitsOf (head : BitVec 8) (seq ack : BitVec 12) (bs : List (BitVec 8)) : Nat → List Flit
  | 0 => []
  | n + 1 => ⟨head.extractLsb' 0 4, seq, ack, head.extractLsb' 4 4, bs.take 244, true⟩ ::
      flitsOf head (seq + 1) ack (bs.drop 244) n

/-- Flits that something takes. -/
def Out.flits (o : Out) : Nat := max 1 ((o.bytes.length + 243) / 244)

/-- Has a port's retry buffer of 1,024 flits room for one more message (R415), and is nothing left that a port which
went down has to send again first (R416)? -/
def State.portRoom (s : State) (port : Nat) : Bool :=
  decide ((s.port port).retry.length + 17 ≤ 1024) &&
    (decide (18 ≤ port) || s.ports.all fun p => decide (18 ≤ p.1) || p.2.up || p.2.sent.isEmpty)

/-- Something leaves by a scale-up port or the host link, which keeps its flits until they are acknowledged (R415). -/
def State.transmit (s : State) (port : Nat) (o : Out) : State :=
  let p := tabGet portReset s.ports port
  let fs := flitsOf (Config.flitHead s.ticks) p.nextSeq (p.expect - 1) o.bytes o.flits
  let next := p.nextSeq + BitVec.ofNat 12 o.flits
  { s with
    ports := tabPut s.ports port { p with
      nextSeq := next, retry := p.retry ++ fs, sent := p.sent ++ [(next - 1, o)]
      asked := match o with
        | .load _ _ _ _ => p.asked ++ [o]
        | _ => p.asked }
    outbox := s.outbox ++ [o] }

/-- Has the link by which an access leaves the package room for it (R413, R415)?  With no live plane none has (R416). -/
def State.wayFree (s : State) (l : Loc) : Bool :=
  match l with
  | .remote pkg addr => (s.planeFor pkg addr).any s.portRoom
  | .host _ => s.portRoom hostPort
  | _ => true

/-- Host bus address of a byte of host memory (R413). -/
def State.hostAddr (s : State) (off : Nat) : Nat := (s.hwbase.toNat + off) % 2 ^ 64

/-- An access to another package leaves by its plane. -/
def State.sendAccess (s : State) (pkg addr : Nat) (o : Out) : State :=
  match s.planeFor pkg addr with
  | some p => s.transmit p o
  | none => s

/-! ## Fields that software cannot write (R5, R6) -/

/-- The bits of the byte at an offset of a record that software may write: `fs` lists first byte, bytes and bits;
every other bit is RSV or HW. -/
def fieldMask (fs : List (Nat × Nat × BitVec 8)) (off : Nat) : BitVec 8 :=
  match fs.find? fun f => decide (f.1 ≤ off) && decide (off < f.1 + f.2.1) with
  | some f => f.2.2
  | none => 0

/-- Queue-pair descriptor (R275). -/
def qpFields : List (Nat × Nat × BitVec 8) :=
  [(0, 1, 0x03), (2, 1, 0x0F), (4, 1, 0xFF), (5, 1, 0x0F), (6, 1, 0xFF), (7, 1, 0x0F), (8, 1, 0xFF), (9, 1, 0x01),
    (10, 2, 0xFF), (16, 8, 0xFF)]

/-- Ethernet peer (R418). -/
def peerFields : List (Nat × Nat × BitVec 8) :=
  [(0, 1, 0x01), (1, 23, 0xFF), (0x18, 3, 0xFF), (0x1C, 3, 0xFF)]

/-- Context descriptor (R314). -/
def ctxFields : List (Nat × Nat × BitVec 8) :=
  [(0, 2, 0x03), (2, 1, 0x0F), (3, 1, 0x03), (4, 3, 0xFF), (8, 9, 0xFF), (0x11, 1, 0x0F), (0x18, 20, 0xFF),
    (0x30, 44, 0xFF), (0x60, 16, 0xFF)]

/-- Launch ring descriptor (R330). -/
def ringFields : List (Nat × Nat × BitVec 8) := [(0, 9, 0xFF), (9, 1, 0x1F)]

/-- Entry of a launch access-control table (R332). -/
def aclFields : List (Nat × Nat × BitVec 8) := [(0, 1, 0xFF), (1, 1, 0x8F), (2, 1, 0xFF), (3, 1, 0x0F)]

/-- V-region descriptor, FLOOR while it is not valid only (R107). -/
def regionFields (valid : Bool) : List (Nat × Nat × BitVec 8) :=
  [(0, 13, 0xFF), (13, 1, 0x83), (16, 2, 0xFF), (18, 1, 0x1F), (24, 16, 0xFF)] ++
    if valid then [] else [(20, 4, 0xFF)]

/-- Header of a landing buffer's entry (R350). -/
def landFields : List (Nat × Nat × BitVec 8) :=
  [(0, 1, 0xFF), (1, 1, 0x01), (2, 3, 0xFF), (5, 1, 0x0F), (6, 19, 0xFF), (0x20, 16, 0xFF)]

/-- Header of a continuation record (R33). -/
def recFields : List (Nat × Nat × BitVec 8) := [(0, 22, 0xFF), (0x18, 28, 0xFF), (0x38, 8, 0xFF)]

/-- Unit of the image directory (R377). -/
def imageFields : List (Nat × Nat × BitVec 8) := [(0, 12, 0xFF), (0x10, 9, 0xFF)]

/-- A directory entry's byte (R108): LATEST alone is software's to write. -/
def dirByte (off : Nat) : BitVec 8 := if off % 16 < 4 then 0xFF else 0

/-- The same for a byte of the directory of a valid region of a context, if one lies there. -/
def State.dirMask (s : State) (ctx k : Nat) : Option (BitVec 8) :=
  (List.range 256).findSome? fun n => match s.region ctx n with
    | some r => if gpaKey r.dir ≤ k ∧ k < gpaKey r.dir + 16 * r.size then some (dirByte (k - gpaKey r.dir)) else none
    | none => none

/-- The same for a byte of a record that a context's descriptor names, if one lies there: launch rings,
launch access-control table, landing buffer (R349, R350), V-region descriptors and directories (R107, R108), image
directory (R377). -/
def State.ctxRecordMask (s : State) (ctx k : Nat) : Option (BitVec 8) :=
  let lq := gpaKey ((s.descWord ctx 9).toNat % 2 ^ 56)
  let acl := gpaKey ((s.descWord ctx 8).toNat % 2 ^ 56)
  let land := gpaKey ((s.descWord ctx 10).toNat % 2 ^ 56)
  let vr := gpaKey (s.vrtab 512 ctx)
  let pool := gpaKey (s.poolBase 512 ctx)
  let entries := (s.descWord ctx 11).toNat % 2 ^ 32
  if lq ≠ 0 ∧ lq ≤ k ∧ k < lq + 128 then some (fieldMask ringFields ((k - lq) % 32))
  else if acl ≠ 0 ∧ acl ≤ k ∧ k < acl + 512 then some (fieldMask aclFields ((k - acl) % 8))
  else if land ≠ 0 ∧ land ≤ k ∧ k < land + 64 then some 0
  else if land ≠ 0 ∧ land ≤ k ∧ k < land + 64 + 4160 * entries then
    some (if (k - land - 64) % 4160 < 64 then fieldMask landFields ((k - land - 64) % 4160) else 0xFF)
  else if pool ≠ 0 ∧ pool ≤ k ∧ k < pool + 32768 then some (fieldMask imageFields ((k - pool) % 64))
  else if vr ≠ 0 ∧ vr ≤ k ∧ k < vr + 16384 then
    some (fieldMask (regionFields ((s.byte ((k - vr) / 64 * 64 + vr + 13)).getLsbD 7)) ((k - vr) % 64))
  else if vr ≠ 0 then s.dirMask ctx k
  else none

/-- Record of a fault queue (R362). -/
def faultFields : List (Nat × Nat × BitVec 8) :=
  [(0, 2, 0xFF), (2, 1, 0x0F), (3, 2, 0xFF), (5, 1, 0x0F), (6, 1, 0xFF), (7, 1, 0x01), (8, 48, 0xFF)]

/-- The same for a byte of a die's fault queue (R322). -/
def State.faultMask (s : State) (k : Nat) : Option (BitVec 8) :=
  s.dies.findSome? fun d =>
    let base := physKey d.1 (d.2.fqbase.toNat % 2 ^ 46)
    if d.2.fqbase ≠ 0 ∧ base ≤ k ∧ k < base + 64 * d.2.fqsize.toNat then some (fieldMask faultFields ((k - base) % 64))
    else none

/-- The same for the header of a continuation record (R33), which stands in its context's pool. -/
def State.recMask (s : State) (k : Nat) : Option (BitVec 8) :=
  s.teams.findSome? fun t => t.2.recs.findSome? fun r => match r.places with
    | [] => none
    | a :: _ => if gpaKey a ≤ k ∧ k < gpaKey a + 64 then some (fieldMask recFields (k - gpaKey a)) else none

/-- The bits of a byte of memory that software may write: in the records that the spec lays out, not RSV and not HW
(R5, R6; log 97). -/
def State.softByte (s : State) (k : Nat) : BitVec 8 :=
  let loc := k % 2 ^ 46
  let table := gpaKey s.ctxbase.toNat
  if qpLocal ≤ loc ∧ loc < qpLocal + 131072 then fieldMask qpFields ((loc - qpLocal) % 32)
  else if peerLocal ≤ loc ∧ loc < peerLocal + 65536 then fieldMask peerFields ((loc - peerLocal) % 64)
  else if 0x300000000000 ≤ table ∧ table ≤ k ∧ k < table + 4096 * 256 then fieldMask ctxFields ((k - table) % 256)
  else (((s.recMask k).orElse fun _ => s.faultMask k).orElse fun _ => s.ctxs.findSome? fun c => s.ctxRecordMask c.1 k).getD 0xFF

/-- The same for `n` bytes from a key up. -/
def State.softMask (s : State) (k : Nat) : Nat → BitVec 64
  | 0 => 0
  | n + 1 => (s.softMask (k + 1) n <<< 8) ||| (s.softByte k).zeroExtend 64

/-- The bits of a piece written where `mask` names them, as one unit (R105, R128). -/
def State.writePiece (s : State) (k mk len : Nat) (data mask : BitVec 64) : State :=
  let loc := k % 2 ^ 46
  let die := k / 2 ^ 46
  if die < 4 ∧ fairLocal ≤ loc ∧ loc < fairLocal + 8192 then
    s.fairWrite die (loc - fairLocal) len data.toNat mask.toNat
  else if die < 4 ∧ loc = scanBell then s.ring die 0 (data &&& mask).toNat
  else if die < 4 ∧ loc = aliBell then s.ring die 1 (data &&& mask).toNat
  else
    let old := BitVec.ofNat 64 (s.readNat mk k len)
    let mask := if die < 4 then mask &&& s.softMask k len else mask
    let t := (s.writeNat mk k len (((old &&& ~~~mask) ||| (data &&& mask)).toNat)).markDirty k len
    if die < 4 then s.openQp t k else t

/-! ## Queue pairs (R275, R279) -/

/-- A queue pair's descriptor. -/
structure QpDesc where
  state : Nat
  weight : Nat
  ctx : Nat
  tctx : Nat
  /-- Target as R272 numbers it: a package, or 1,024 + Ethernet peer. -/
  target : Nat
  key : Nat
  deriving DecidableEq, Repr

/-- The target that a package number names: 255 is this package (R99). -/
def State.pkgTarget (s : State) (p : Nat) : Nat := if p = 255 then s.pkg.toNat else p

/-- The descriptor as it stands in system space. -/
def State.qpDesc (s : State) (cl qp : Nat) : QpDesc :=
  let f := fun off len => s.readNat 0 (qpKey cl qp + off) len
  { state := f 0 2 % 4, weight := max 1 (f 2 1 % 16), ctx := f 4 2 % 4096, tctx := f 6 2 % 4096
    target := if f 9 1 % 2 = 1 then 1024 + f 10 2 % 1024 else s.pkgTarget (f 8 1)
    key := f 16 8 }

/-- STATE of a queue pair written by the engine (R279, R289). -/
def State.setQpState (s : State) (cl qp v : Nat) : State := s.writeNat 0 (qpKey cl qp) 1 v

/-- A queue pair with nothing posted. -/
def qpNone : Qp where
  entries := []; out := []; msgno := 0; unperformed := 0; retry := []; parked := false
  replay := false; code := 0; addr := 0

/-- Queue pair, or direct-put path 256 + core, of a cluster. -/
def State.qp (s : State) (cl qp : Nat) : Qp := tabGet qpNone (s.cluster cl).qps qp
def State.setQp (s : State) (cl qp : Nat) (q : Qp) : State :=
  s.modCluster cl fun c => { c with qps := tabPut c.qps qp q }

/-- One occurrence of a posted write taken off its team's list (R272). -/
def dropPosted (r t : Nat) : List (Nat × Nat × Option (BitVec 32)) → List (Nat × Nat × Option (BitVec 32))
  | [] => []
  | p :: ps => if p.1 = r ∧ p.2.1 = t then ps else p :: dropPosted r t ps

def State.dropMark (s : State) (team ref target : Nat) : State :=
  s.modTeam team fun t => { t with posted := dropPosted ref target t.posted }

/-- The queue pair and entry that a local write belongs to. -/
def State.entryOf (s : State) (id : Nat) : Option (Nat × Nat × FEntry) :=
  s.clusters.findSome? fun c => c.2.qps.findSome? fun q =>
    (q.2.entries.find? fun e => e.id == id).map fun e => (c.1, q.1, e)

/-! ## Work entries (R276, R277, R279) -/

/-- A field of a work entry by offset and size. -/
def entF (r : BitVec 512) (off len : Nat) : Nat := r.toNat / 2 ^ (8 * off) % 2 ^ (8 * len)

def entOp (r : BitVec 512) : Nat := entF r 0 1
def entFmt (r : BitVec 512) : Nat := entF r 1 1
def entFirst (r : BitVec 512) : Bool := (entF r 2 1).testBit 0
def entFinal (r : BitVec 512) : Bool := (entF r 2 1).testBit 1
def entLocal (r : BitVec 512) : Bool := (entF r 2 1).testBit 2
def entLen (r : BitVec 512) : Nat := entF r 0x0C 4

/-- A semaphore field: its number where its valid bit is 1. -/
def entSem (r : BitVec 512) (off : Nat) : Option Nat :=
  let v := entF r off 2
  if v.testBit 15 then some (v % 256) else none

/-- Bytes of an element of a transport format, and of its scale. -/
def fmtBytes (f : Nat) : Nat := fmtWidth f / 8
def fmtScaled (f : Nat) : Nat := if f = 3 ∨ f = 4 then 1 else 0

/-- Whole blocks of one WRED message (R279): 32, 64 or 124. -/
def blocksPer (f : Nat) : Nat := 4096 / (32 * fmtBytes f + fmtScaled f)

/-- Messages of an entry; the local write of a FLAG counts as one. -/
def entryMsgs (r : BitVec 512) : Nat :=
  match entOp r with
  | 1 => (entLen r / 32 + blocksPer (entFmt r) - 1) / blocksPer (entFmt r)
  | 3 => if entLocal r ∧ (entSem r 0x34).isSome then 2 else 1
  | _ => (entLen r + 4095) / 4096

/-- An entry leaves its queue pair with its messages that have not been sent, which FFLUSH no longer waits for (R279). -/
def State.dropEntry (s : State) (cl qp : Nat) (e : FEntry) (target : Nat) : State :=
  let q := s.qp cl qp
  let unsent := (q.out.filter fun i => i.entry == e.id && i.units.isEmpty).length +
    (if e.ref ≠ 0 ∧ e.made < entryMsgs e.record then 1 else 0)
  let s := s.setQp cl qp { q with
    entries := q.entries.filter fun x => x.id != e.id, out := q.out.filter fun i => i.entry != e.id }
  (List.range unsent).foldl (fun s _ => s.dropMark e.team e.ref target) s

/-- A queue pair stopped by an entry: the entry is not sent, STATE 2, and the code recorded for the team's FFLUSH
(R279). -/
def State.qpError (s : State) (cl qp : Nat) (d : QpDesc) (e : FEntry) (code : Nat) : State :=
  ((s.dropEntry cl qp e d.target).setQpState cl qp 2).recordRefusal e.team d.target code

end Sys2Proof.Machine
end

