-- ==== Sys2Proof/Machine/Command.lean ====
section
/-! DEFINITION. What every engine command shares: its issue, its order behind tokens and wait
semaphores, its memory accesses, its completion, its faults and its parking (R39, R41, R125, R140, R141,
R228, R244, R250, R252, R253). -/

namespace Sys2Proof.Machine

/-! ## Issue -/

/-- A semaphore number with SEMBASE added (R91). -/
def Task.sem (t : Task) (n : Nat) : Nat := (n + t.semBase.toNat) % 256

/-- Name of the section that holds a PC (R146). -/
def State.sectionAt (s : State) (w : Who) (pc : W64) : Option Nat :=
  match s.fetchLeaf w pc.toNat with
  | .error _ => none
  | .ok (e, big) => (s.lockOf (gpaKey (leafFrame e * 65536 +
      (if big then pc.toNat % 2 ^ 29 else pc.toNat % 2 ^ 16)))).map (·.id)

/-- A command as it is accepted. -/
def newCmd (s : State) (e : Env) (i : Instr) (f : FE2) (q : Queue) (id : Nat) (deps : List Dep)
    (xa xb xc : W64) : Cmd where
  id := id; instr := i; queue := q; team := e.uid; ctx := e.team.ctx; core := e.core; pc := e.task.pc
  seq := e.task.seq; xa := xa; xb := xb; xc := xc; ftz := e.team.ftz; rows := []; deps := deps
  wait := if f.wv then .waiting else .none
  wsem := e.task.sem f.wsem.toNat
  sig := if f.sv then some (e.task.sem f.ssem.toNat) else none
  scope := f.scope.toNat; tile := none; regs := []; started := false; parked := false; retry := false; sent := false
  dead := false; seg := 0; pass := 0; row := 0; chunk := 0; passes := 0; vals := []; units := []; buf := none
  status := 0; sect := s.sectionAt e.who e.task.pc; drawn := []; held := false; code := 0

/-- A command entered into its queue; its wait field's request waits for it to be ready (R141). -/
def State.pushCmd (s : State) (c : Cmd) : State :=
  let s := s.modCore c.core fun k => { k with cmds := k.cmds ++ [c] }
  let s := { s with openCmds := s.openCmds ++ [c.id] }
  if c.wait = .waiting then
    let (r, s) := s.fresh
    { s with reqs := tabPut s.reqs r (.semWait c.ctx c.wsem (.cmd c.core c.id)) }
  else s

/-- Is a wait field not yet granted? -/
def Cmd.waiting (c : Cmd) : Bool := c.wait == .waiting

/-- Commands of a queue of a core. -/
def Core.inQueue (k : Core) (q : Queue) : Nat := (k.cmds.filter fun c => c.queue == q).length

/-- Copy commands of a core over its four channels. -/
def Queue.isCopy : Queue → Bool
  | .copy _ => true
  | _ => false

/-- Has the queue room for one more command (R223, R248)? -/
def State.cmdRoom (s : State) (core : Nat) (q : Queue) : Bool :=
  match q with
  | .matrix => (s.core core).inQueue .matrix < 64
  | .copy ch => (s.core core).inQueue (.copy ch) < 16
  | .sync => (s.core core).inQueue .sync < 16
  | .fput => (s.core core).inQueue .fput < 8
  | .scale => true
  | q => (s.cores.filter fun e => clusterOf e.1 == clusterOf core).foldl
      (fun n e => n + e.2.inQueue q) 0 < 16

/-- The address form and window extents of an address operand, at issue (R250); none where in order. -/
def State.formBad (s : State) (e : Env) (va : W64) (len : Nat) : Bool :=
  if 2 ^ 55 ≤ va.toNat then true
  else if va.toNat < 2 ^ 54 then decide (0 < len ∧ 2 ^ 54 < va.toNat + len)
  else match s.window e.who va.toNat len .plain with
    | .bad c => c == cRange
    | _ => false

/-- A range recorded by the scoreboard, out to 128-byte granules (R110). -/
def sbRange (e : Env) (id : Nat) (va : W64) (len : Nat) : SbEntry :=
  ⟨id, addrForm va.toNat, e.uid, e.team.ctx, va.toNat / 128 * 128,
    if len = 0 then 0 else (va.toNat + len + 127) / 128 * 128⟩

/-- What holds an engine command before it issues (R13, R39, R111, R117, R248): MARKs and acquires, the translation
of older accesses, its queue's room and the scoreboard's. -/
def State.cmdHeld (s : State) (e : Env) (q : Queue) (after hold : Bool) (sb : List (W64 × Nat)) : Bool :=
  hold || !s.memClear e || (after && !s.translated e.core e.uid) || !s.cmdRoom e.core q ||
    32 < (s.core e.core).sb.length + sb.length

/-- The issue of an engine command in format E2 or E3 (R13, R39, R81, R140, R248, R250): the holds, TOKEN, the
entry's own checks, and acceptance of the command that `make` completes. -/
def cmdAct (e : Env) (bytes : Nat) (i : Instr) (f : FE2) (q : Queue) (x : W64 × W64 × W64)
    (after : Bool) (bad : Option (Nat × W64)) (hold : Bool) (sb : List (W64 × Nat))
    (regs : Task → Task) (make : Cmd → Cmd) (s : State) : Act :=
  if s.cmdHeld e q after hold sb then .hold
  else match e.task.consume (FE2.cts f) with
  | none => tokenFault
  | some deps =>
    match bad with
    | some (c, a) => Act.raise c a
    | none =>
      let (id, s) := s.fresh
      let c := make (newCmd s e i f q id (deps.filter fun d => !s.depOver d) x.1 x.2.1 x.2.2)
      let s := s.pushCmd c
      let s := s.modCore e.core fun k =>
        { k with sb := k.sb ++ sb.map fun r => sbRange e id r.1 r.2 }
      .done (s.commit e ((regs (e.task.produce s f [.cmd id])).advance bytes))

/-- The first check that fails, in order (R250). -/
def firstBad : List (Bool × Nat × W64) → Option (Nat × W64)
  | [] => none
  | (b, c, a) :: xs => if b then some (c, a) else firstBad xs

/-! ## Readiness -/

/-- Who translates for a command. -/
def Cmd.who (c : Cmd) : Who := ⟨c.core, c.team, c.ctx⟩

/-- A command of a core by name. -/
def State.cmd (s : State) (core id : Nat) : Option Cmd := (s.core core).cmds.find? fun c => c.id == id

/-- A command replaced. -/
def State.setCmd (s : State) (c : Cmd) : State :=
  s.modCore c.core fun k => { k with cmds := k.cmds.map fun d => if d.id = c.id then c else d }

/-- Commands of the team that a command stands behind in its queue. -/
def State.olderCmds (s : State) (c : Cmd) : List Cmd :=
  (s.core c.core).cmds.filter fun d => d.queue == c.queue && d.team == c.team && decide (d.id < c.id)

/-- Does a queue keep the issue order of a team's commands (R224, R251, R270)? -/
def Queue.ordered : Queue → Bool
  | .matrix => true
  | .copy _ => true
  | .mailbox => true
  | .fabric => true
  | _ => false

/-- MQRY waits for its consumed tokens and for no other command (R243). -/
def Cmd.isQuery (c : Cmd) : Bool :=
  match c.instr with
  | .mqry _ => true
  | _ => false

/-- Does an older command of the team in a queue let this one start?  On a copy channel it does as soon as
neither a token nor its wait semaphore holds it, for commands started run in any order (R126, R251), unless it is
parked (R368); in the other ordered queues it has started and is not parked (R224, R270). -/
def State.letsStart (s : State) (d : Cmd) : Bool :=
  match d.queue with
  | .copy _ => !d.parked && (d.started || (s.depsDone d.deps && !d.waiting))
  | _ => d.started && !d.parked

/-- Is a command at the point where only its wait semaphore may still hold it: its tokens done and every
older command of the team in its queue past its own (R125, R141, R224, R251)? -/
def State.cmdReady (s : State) (c : Cmd) : Bool :=
  s.depsDone c.deps && (!c.queue.ordered || c.isQuery || (s.olderCmds c).all s.letsStart)

/-- May it start or go on?  An MQRY with a wait semaphore waits for it too (R141, R243; DESIGN CHOICE, log 118). -/
def State.cmdRuns (s : State) (c : Cmd) : Bool :=
  !c.parked && !c.waiting && (c.started || s.cmdReady c)

/-! ## Memory accesses of engines -/

/-- A translated unit of a range: address, length, place and memory key. -/
structure Span where
  va : Nat
  len : Nat
  loc : Loc
  mkey : Nat

/-- Units of a range translated for an engine, from the lowest address up, or the first fault as address
and code (R205, R252). -/
def State.spans (s : State) (w : Who) (p : Path) (write : Bool) :
    List (Nat × Nat) → Except (Nat × Nat) (List Span)
  | [] => .ok []
  | (va, len) :: us =>
    match s.xlate w (w64 va) len p write with
    | .ok loc k =>
      (match s.spans w p write us with
      | .ok r => .ok (⟨va, len, loc, k⟩ :: r)
      | .error x => .error x)
    | .bad c => .error (va, c)
    | _ => .error (va, cVersionRegion)

/-- One byte at a place `i` bytes on. -/
def State.byteAt (s : State) (mkey i : Nat) : Loc → BitVec 8
  | .mem k => s.readByte mkey (k + i)
  | .host o => Config.outside s.ticks 0 (o + i)
  | .remote p a => Config.outside s.ticks (p + 1) (a + i)
  | .region _ => 0

/-- The bytes of translated units. -/
def State.readSpans (s : State) (sp : List Span) : List (BitVec 8) :=
  (sp.map fun u => (List.range u.len).map fun i => s.byteAt u.mkey i u.loc).flatten

/-- Does a read of any of them wait behind an accepted store (R114)? -/
def State.spansBlocked (s : State) (core : Nat) (sp : List Span) : Bool :=
  sp.any fun u => s.readBlocked core u.loc u.len

/-- Does the memory controller refuse any of them, or another package a read of its memory (R286, R361, R391,
R404; log 20)? -/
def State.spansRefused (s : State) (sp : List Span) (write : Bool) : Option Nat :=
  (sp.find? fun u => match u.loc with
    | .mem k => s.refused u.mkey k write
    | .remote p a => !write && Config.outsideRefuses s.ticks p a
    | _ => false).map (·.va)

/-- Pieces that write bytes to translated units. -/
def writeSpans (stamp epoch : Nat) : List Span → List (BitVec 8) → List Piece
  | [], _ => []
  | u :: us, bs =>
    { newPiece u.va u.len (BitVec.ofNat 64 (leNat (bs.take u.len))) (BitVec.ofNat 64 (2 ^ (8 * u.len) - 1))
      with loc := some u.loc, mkey := u.mkey, stage := 1, epoch := epoch, in1 := stamp } ::
      writeSpans stamp epoch us (bs.drop u.len)

/-- The writes of an engine command leave through the core's port (R125): performed for CORE at once,
and for wider scopes as they go on.  They bear the epoch at which they were translated, this one where no other
is named (R369). -/
def State.engineStore (s : State) (core team ctx cmd : Nat) (seq : BitVec 32) (pc : W64)
    (sp : List Span) (bs : List (BitVec 8)) (grain : Nat := 1) (epoch : Option Nat := none) : State :=
  if sp.isEmpty then s
  else
    let (id, s) := s.fresh
    let a : Access :=
      { id := id, team := team, ctx := ctx, seq := seq, pc := pc, kind := .engine, entries := 0
        xlate := false, pieces := writeSpans id (epoch.getD (s.epoch core)) sp bs, dst := .none, rel := none
        acq := false, inOrder := false, grain := grain, cmd := cmd }
    s.modCore core fun k => { k with stores := k.stores ++ [a] }

/-- The writes of a command, in atomic units of `grain` pieces (R128). -/
def State.engineWrite (s : State) (c : Cmd) (sp : List Span) (bs : List (BitVec 8)) (grain : Nat := 1)
    (epoch : Option Nat := none) : State :=
  s.engineStore c.core c.team c.ctx c.id c.seq c.pc sp bs grain epoch

/-- Are the writes of a command performed for a scope (R120, R123, R419)? -/
def State.cmdWritten (s : State) (core id scope : Nat) : Bool :=
  (scope != 5 || s.noResent) && (s.core core).stores.all fun a => a.cmd != id || a.pieces.all (·.performedFor scope)

/-- Are the writes of the producers of consumed tokens performed for a scope (R120)? -/
def State.depsWritten (s : State) (core : Nat) (ds : List Dep) (scope : Nat) : Bool :=
  ds.all fun d => match d with
    | .cmd id => s.cmdWritten core id scope
    | .mem _ _ => true

/-- Scoreboard entries freed once a command is over and its last write is performed (R110). -/
def State.freeSb (s : State) (core id : Nat) : State :=
  if (s.core core).cmds.any (fun c => c.id == id) || !s.cmdWritten core id 4 then s
  else s.modCore core fun k => { k with sb := k.sb.filter fun b => b.cmd != id }

/-! ## Completion, faults, parking -/

/-- A command is complete: its token is done, and its signal is on its way (R125, R141, R253). -/
def State.finishCmd (s : State) (c : Cmd) : State :=
  let s := s.modCore c.core fun k => { k with cmds := k.cmds.filter fun d => d.id != c.id }
  let s := { s with openCmds := s.openCmds.filter fun i => i != c.id }
  let s := s.freeSb c.core c.id
  match c.sig with
  | none => s
  | some n =>
    let (r, s) := s.fresh
    { s with reqs := tabPut s.reqs r (.semSig c.ctx n 1 c.team c.id c.core c.pc c.scope none c.seq) }

/-- Waiters and requests of commands that are gone leave the semaphore file. -/
def State.dropWaiters (s : State) (core : Nat) (ids : List Nat) : State :=
  let gone : Waiter → Bool := fun w => match w with
    | .cmd c id => c == core && ids.contains id
    | _ => false
  let s := s.dropVerWaiters gone
  { s with
    semChains := s.semChains.map fun e => (e.1, e.2.filter fun w => !gone w)
    reqs := s.reqs.filter fun e => match e.2 with
      | .semWait _ _ w => !gone w
      | _ => true }

/-- Commands of a core discarded with everything that waits on their behalf (R244, R252). -/
def State.discard (s : State) (core : Nat) (p : Cmd → Bool) : State :=
  let ids := ((s.core core).cmds.filter p).map (·.id)
  (s.dropWaiters core ids).dropCmds core p

/-- The task of a team aborted as for a fault passed to FHANDLER (R38). -/
def State.abortTask (s : State) (uid : Nat) : State :=
  match tabFind s.teams uid with
  | some t => (match t.core with
    | some c => (s.dropUnperformed c uid).endTask uid
    | none => s.endTask uid)
  | none => s

/-- A fault against a team that comes from its command or signal (R244, R252, R264, R442): the running
task is aborted, and the fault passes to FHANDLER with x4 = 0.  `none` while a record must wait. -/
def State.faultTeam (s : State) (uid core code : Nat) (pc addr : W64) (seq : BitVec 32)
    (fd : Found) : Option State :=
  match tabFind s.teams uid with
  | none => some s
  | some t =>
    let own := match t.task with
      | some k => k.handler && k.seq == seq
      | none => false
    if t.ctx = 0 then
      -- the number of a semaphore is no address (R264)
      some ((s.abortTask uid).logFault uid core code (if code = cPeerLost ∧ addr.toNat < 256 then 2 ^ 55 else addr))
    else (s.abortTask uid).passFault uid core code pc addr 0 own fd

/-- Communication master of a cluster, its core 0 where it has none (R421). -/
def State.master (s : State) (cl : Nat) : Nat := (s.cluster cl).master.getD (8 * cl)

/-- CORE of a record: for SOURCE 3 the communication master of the cluster (R362). -/
def State.foundCore (s : State) (core source : Nat) : Nat :=
  if source = 3 then s.master (clusterOf core) else core

/-- UNIT of a command's record (R362): the copy channel, or the queue pair of a fabric command; a direct put
has none (DESIGN CHOICE, log 28). -/
def Cmd.unit (c : Cmd) : Nat :=
  match c.queue with
  | .copy ch => ch
  | .fabric => c.xb.toNat % 256
  | .mailbox => c.xb.toNat % 256
  | _ => 0

/-- MPC as a fault record gives it (R362): that of MQRY (R243) for a matrix command, the chunk of a copy, the
message of a put. -/
def Cmd.mpc (c : Cmd) : Nat :=
  match c.queue with
  | .matrix => c.row % 128 + c.pass % 8 * 2 ^ 8 + c.seg % 2 ^ 12 * 2 ^ 12
  | .copy _ => c.chunk
  | .fput => c.chunk
  | _ => 0

/-- A command fault (R244, R252): the command and the later ones that `also` names are discarded. -/
def State.cmdFault (s : State) (c : Cmd) (code : Nat) (addr : W64) (source : Nat) (also : Cmd → Bool)
    (write : Bool := false) : Option State :=
  let s := s.discard c.core fun d => d.id == c.id || (decide (c.id < d.id) && d.team == c.team && also d)
  let s := if source = 1 then s.modTeam c.team fun t => { t with mqCode := BitVec.ofNat 8 code } else s
  s.faultTeam c.team (s.foundCore c.core source) code c.pc addr c.seq
    ⟨source, if write then 1 else 0, c.unit, c.mpc⟩

/-- A command parks at its MPC with a record (R41, R368).  `none` while the fault queue is full.  A put that
has sent nothing is not begun by it (R374). -/
def State.parkCmd (s : State) (c : Cmd) (code : Nat) (addr : W64) (source : Nat) : Option State :=
  if (s.die (dieOf c.core)).fqFull then none
  else
    let write := if code = cStoreNotPresent then 1 else 0
    let info := match tabFind s.teams c.team with
      | some t => ((match s.launchOf t with
        | some l => l.tag
        | none => 0), t.index + t.slot * 2 ^ 16)
      | none => (0, 0)
    let s := s.setCmd { c with
      parked := true, retry := false, started := c.started || c.queue != .fput, code := code }
    let s := if source = 1 then s.modTeam c.team fun t => { t with mqCode := BitVec.ofNat 8 code } else s
    some (s.queueFault
      { die := dieOf c.core, code := code, source := source, flags := 4 + write, unit := c.unit
        ctx := c.ctx, core := s.foundCore c.core source
        pc := c.pc, addr := addr, tag := info.1, team := info.2, mpc := c.mpc, origin := 0, uid := c.team, recId := 0, cmd := c.id })

/-- Does a code park (R41, R363)? -/
def parks (code : Nat) : Bool := code == cLoadNotPresent || code == cStoreNotPresent

/-- SOURCE of a command's faults (R362; log 28). -/
def Cmd.source (c : Cmd) : Nat :=
  match c.queue with
  | .matrix => 1
  | .copy _ => 2
  | .fput => 3
  | .fabric => 3
  | .mailbox => 3
  | _ => 0

/-- A state or, where something must wait, the old one. -/
def orStay (s : State) (o : Option State) : Host.Outcome State Fault Refusal := .next (o.getD s)

end Sys2Proof.Machine
end

