-- ==== Sys2Proof/Machine/Memory.lean ====
section
/-! DEFINITION. Memory instructions: majors 0x18, 0x19, 0x1A and 0x30 (R206 to R214). -/

namespace Sys2Proof.Machine

/-! ## LD and ST -/

/-- Address of format M (R137). -/
def FM.addr (f : FM) (t : Task) : W64 :=
  t.getX f.xa + (t.getX f.xb <<< f.sh.toNat) + sx f.disp

/-- Bytes of an LD or ST function (R206). -/
def accessBytes (fn : Nat) : Nat :=
  match fn with
  | 0 => 1
  | 1 => 2
  | 2 => 4
  | 3 => 8
  | 4 => 1
  | 5 => 2
  | _ => 4

/-- One aligned access, or the misaligned one that raises ALIGN. -/
def oneAccess (a : W64) (n v m : Nat) : List Piece :=
  [{ newPiece 0 n (BitVec.ofNat 64 v) (BitVec.ofNat 64 m) with va := a, aligned := decide (a.toNat % n = 0) }]

/-- LD (R206, R207). -/
def execLd (fn : BitVec 4) (f : FM) (s : State) : Host.Outcome State Fault Refusal :=
  issue f.st.toNat 8 [.x f.xa f.fea, .x f.xb f.feb] [.x f.xd]
    (fun e s =>
      let n := accessBytes fn.toNat
      accessAct e 8 false
        { kind := .load, entries := 1, pieces := oneAccess (FM.addr f e.task) n 0 0
          dst := if f.xd = 0 then .none else .x f.xd.toNat n (decide (4 ≤ fn.toNat))
          rel := none, acq := f.ord == 2, inOrder := false } s) s

/-- ST (R206, R207). -/
def execSt (fn : BitVec 4) (f : FM) (s : State) : Host.Outcome State Fault Refusal :=
  issue f.st.toNat 8 [.x f.xa f.fea, .x f.xb f.feb, .x f.xd f.fed] []
    (fun e s =>
      let n := accessBytes fn.toNat
      accessAct e 8 true
        { kind := .store, entries := 1
          pieces := oneAccess (FM.addr f e.task) n ((e.task.getX f.xd).toNat % 2 ^ (8 * n))
            (2 ^ (8 * n) - 1)
          dst := .none, rel := if f.ord = 1 then some f.scope.toNat else none, acq := false
          inOrder := false } s) s

/-! ## Tile loads and stores -/

/-- Address of format VM (R137). -/
def FVM.addr (f : FVM) (t : Task) : W64 :=
  t.getX f.xa + (t.getX f.xb <<< f.sh.toNat) + sx f.disp

/-- Base of VLDG and VSTX (R209). -/
def FVM.base (f : FVM) (t : Task) : W64 := t.getX f.xa + sx f.disp

/-- Element width of VSHAPE. -/
def Task.shapeW (t : Task) : Nat := 32 / 2 ^ t.wc.toNat

/-- Active elements of line `r` of `c` elements, of `act` active in the group (R78). -/
def lineActive (c act r : Nat) : Nat := min c (act - r * c)

/-- Key of line `r` of the group at `n`: physical register × 16 + row. -/
def Task.lineKey (t : Task) (n r : Nat) : Nat :=
  t.phys (n + r / t.rows.toNat) * 16 + r % t.rows.toNat

/-- The first `n` bits of line `r`. -/
def Task.lineBits (t : Task) (vd r n : Nat) : Nat := rowGet (tabGet 0 t.v (t.lineKey vd r)) 0 n

/-- The frame of a tile access: width, elements a row, lines and active elements, or SHAPE (R208).  A MARK, an acquire
and a queue without room hold it before it can fault (R13, R117, R204). -/
def tileFrame (f : FVM) (store : Bool) (body : Env → Nat → Nat → Nat → Nat → State → Act) (e : Env) (s : State) :
    Act :=
  let t := e.task
  let w := t.shapeW
  let c := t.cols.toNat
  let lines := f.g.toNat * t.rows.toNat
  if !t.predFits f.p.toNat w then
    if !s.memClear e || !s.room e.core store f.g.toNat then .hold else shapeFault
  else body e w c lines (t.activeN f.p.toNat (lines * c)) s

/-- Is an address aligned to elements of `w` bits (R208)?  Any byte will do for 4-bit elements. -/
def elemAligned (w : Nat) (a : W64) : Bool := w == 4 || a.toNat % (w / 8) == 0

/-- The pieces of an access; a misaligned one is checked at its start only, where it raises ALIGN. -/
def withAlign (ok : Bool) (a : W64) (ps : List Piece) : List Piece :=
  if ok || ps.isEmpty then ps else [{ newPiece 0 1 0 0 with va := a, aligned := false }]

/-- A tile load's access. -/
def tileLoad (f : FVM) (e : Env) (ps : List Piece) (runs : List Run) (inOrder : Bool)
    (s : State) : Act :=
  accessAct e 8 false
    { kind := .load, entries := f.g.toNat, pieces := ps
      dst := .v (e.task.physList f.vd.toNat f.g.toNat) runs
      rel := none, acq := f.ord == 2, inOrder := inOrder } s

/-- A tile store's access. -/
def tileStore (f : FVM) (e : Env) (ps : List Piece) (s : State) : Act :=
  accessAct e 8 true
    { kind := .store, entries := f.g.toNat, pieces := ps, dst := .none
      rel := if f.ord = 1 then some f.scope.toNat else none, acq := false, inOrder := true } s

/-- Bits zeroed after the active elements of a line under Z. -/
def zeroBits (f : FVM) (w c n : Nat) : Nat := if f.z then (c - n) * w else 0

/-- VLD (R208). -/
def execVld (f : FVM) (s : State) : Host.Outcome State Fault Refusal :=
  issue f.st.toNat 8 [.x f.xa f.fea, .x f.xb f.feb] [.v f.vd.toNat f.g.toNat]
    (tileFrame f false fun e w c lines act s =>
      let a := FVM.addr f e.task
      let ps := readPieces a.toNat ((act * w + 7) / 8)
      let runs := (List.range lines).map fun r =>
        let n := lineActive c act r
        ⟨e.task.lineKey f.vd.toNat r, 0, 8 * a.toNat + r * c * w, n * w, zeroBits f w c n, 0, ps.length⟩
      tileLoad f e (withAlign (elemAligned w a) a ps) runs false s) s

/-- The active bits of a group as one number, line after line (R208). -/
def groupBits (t : Task) (vd w c act : Nat) : Nat → Nat
  | 0 => 0
  | r + 1 => t.lineBits vd r (lineActive c act r * w) * 2 ^ (r * c * w) + groupBits t vd w c act r

/-- VST (R208). -/
def execVst (f : FVM) (s : State) : Host.Outcome State Fault Refusal :=
  issue f.st.toNat 8 [.x f.xa f.fea, .x f.xb f.feb, .v f.vd.toNat f.g.toNat f.fed] []
    (tileFrame f true fun e w c lines act s =>
      let a := FVM.addr f e.task
      let v := groupBits e.task f.vd.toNat w c act lines
      let ps := writePieces a.toNat ((act * w + 7) / 8) v (2 ^ (act * w) - 1)
      tileStore f e (withAlign (elemAligned w a) a ps) s) s

/-- Address of group row `k` (R209): the index word k of VB, signed and shifted. -/
def FVM.rowAddr (f : FVM) (t : Task) (k : Nat) : W64 :=
  let idx : BitVec 32 := BitVec.ofNat 32 (t.elemRC 32 (f.xb.toNat % 32) (k / 32) (k % 32))
  FVM.base f t + (idx.signExtend 64 <<< f.sh.toNat)

/-- VLDG (R209): rows take their values in ascending k. -/
def execVldg (f : FVM) (s : State) : Host.Outcome State Fault Refusal :=
  issue f.st.toNat 8 [.x f.xa f.fea, .v (f.xb.toNat % 32) 1 f.feb] [.v f.vd.toNat f.g.toNat]
    (tileFrame f false fun e w c lines act s =>
      let rows := (List.range lines).map fun r =>
        let n := lineActive c act r
        let a := FVM.rowAddr f e.task r
        (r, n, a, if n = 0 then [] else withAlign (elemAligned w a) a
          (readPieces a.toNat ((n * w + 7) / 8)))
      let ps := (rows.map fun q => q.2.2.2).flatten
      let runs := rows.map fun (r, n, a, q) =>
        ⟨e.task.lineKey f.vd.toNat r, 0, 8 * a.toNat, n * w, zeroBits f w c n,
          ((rows.take r).map fun q => q.2.2.2.length).sum, q.length⟩
      tileLoad f e ps runs true s) s

/-- VSTX (R209): rows leave in ascending k. -/
def execVstx (f : FVM) (s : State) : Host.Outcome State Fault Refusal :=
  issue f.st.toNat 8
    [.x f.xa f.fea, .v (f.xb.toNat % 32) 1 f.feb, .v f.vd.toNat f.g.toNat f.fed] []
    (tileFrame f true fun e w c lines act s =>
      let ps := (List.range lines).map fun r =>
        let n := lineActive c act r
        let a := FVM.rowAddr f e.task r
        if n = 0 then [] else withAlign (elemAligned w a) a
          (writePieces a.toNat ((n * w + 7) / 8) (e.task.lineBits f.vd.toNat r (n * w)) (2 ^ (n * w) - 1))
      tileStore f e ps.flatten s) s

/-- VLDB (R210): the whole row is read if any element is active. -/
def execVldb (f : FVM) (s : State) : Host.Outcome State Fault Refusal :=
  issue f.st.toNat 8 [.x f.xa f.fea, .x f.xb f.feb] [.v f.vd.toNat f.g.toNat]
    (tileFrame f false fun e w c lines act s =>
      let a := FVM.addr f e.task
      let ps := if act = 0 then [] else readPieces a.toNat ((c * w + 7) / 8)
      let runs := (List.range lines).map fun r =>
        let n := lineActive c act r
        ⟨e.task.lineKey f.vd.toNat r, 0, 8 * a.toNat, n * w, zeroBits f w c n, 0, ps.length⟩
      tileLoad f e (withAlign (elemAligned w a) a ps) runs false s) s

/-! ## MARK, PF and SQLD -/

/-- MARK (R117, R211): it holds younger memory and engine work of its task until all older loads have
taken their values, all older stores are performed for CORE and its consumed tokens are done; its
produced token stands for the same. -/
def execMark (f : FE2) (s : State) : Host.Outcome State Fault Refusal :=
  issue f.st.toNat 8 [] []
    (fun e s =>
      match e.task.consume (FE2.cts f) with
      | none => tokenFault
      | some deps =>
        let ds := .mem e.uid s.nextId :: deps.filter fun d => !s.depOver d
        let t := e.task.produce s f ds
        .done (s.commit e ({ t with
          marks := t.marks.filter (fun m => !s.depsDone m) ++ [ds] }.advance 8))) s

/-- What a PF that no walk holds does: where a load could use the address, both TLBs take its leaf (R212). -/
def State.prefetchHit (s : State) (w : Who) (a : W64) : State :=
  match s.look w a 1 .plain false, tlbHit (s.core w.core).tlb w.ctx a.toNat,
      tlbHit (s.cluster (clusterOf w.core)).tlb w.ctx a.toNat with
  | .ok _ _, some l, _ => if a.toNat < 2 ^ 54 then s.fillTlbs w a.toNat l.leaf l.big else s
  | .ok _ _, none, some l => if a.toNat < 2 ^ 54 then s.fillTlbs w a.toNat l.leaf l.big else s
  | _, _, _ => s

/-- PF (R12, R111, R204, R212): it takes a free load entry and waits for an overlapping range as a load does; its
entry stands in the load queue until its address has been looked up. -/
def prefetch (e : Env) (bytes : Nat) (a : W64) (s : State) : Act :=
  if !s.room e.core false 1 || s.sbHit e a.toNat 1 then .hold
  else
    let (id, s) := s.fresh
    let s := s.enter e false
      { kind := .prefetch, entries := 1, pieces := [], dst := .none, rel := none, acq := false
        inOrder := false } id [{ newPiece 0 1 0 0 with va := a }]
    .done (s.commit e (e.task.advance bytes))

/-- PF in format E2 (R212). -/
def execPf (f : FE2) (s : State) : Host.Outcome State Fault Refusal :=
  issue f.st.toNat 8 [.x f.xa f.fea] [] (fun e s => prefetch e 8 (e.task.getX f.xa) s) s

/-- PF in format E3 (R212): the address plus IMM18. -/
def execPfE3 (f : FE3) (s : State) : Host.Outcome State Fault Refusal :=
  issue f.e.st.toNat 12 [.x f.e.xa f.e.fea] []
    (fun e s => prefetch e 12 (e.task.getX f.e.xa + sx f.imm) s) s

/-- Sources of format E3. -/
def FE3.srcA (f : FE3) : SrcOp := .x f.e.xa f.e.fea
def FE3.srcB (f : FE3) : SrcOp := .x f.xb f.feb
def FE3.srcC (f : FE3) : SrcOp := .x f.xc f.fec

/-- Scale bytes in the queue of a core or reserved there (R214): the active context's, since those of a
context that has left the core stand in its image (R376). -/
def State.scalesHeld (s : State) (core : Nat) : Nat :=
  (s.teams.map fun t =>
    if t.2.core = some core ∧ (s.core core).activeCtx = some t.2.ctx then t.2.scales.length + (t.2.sqPend.map (·.2)).sum else 0).sum

/-- The units of the rows that an SQLD reads. -/
def sqldPieces (a : W64) (stride : W64) (per : Nat) : Nat → Nat → List Piece
  | 0, _ => []
  | n + 1, r => readPieces (a + w64 r * stride).toNat per ++ sqldPieces a stride per n (r + 1)

/-- The lowest faulting byte of an access whose pages are all walked before it is accepted (R213). -/
def State.placeAll (s : State) (w : Who) (p : Path) (ps : List Piece) :
    List Piece × Option (Nat × Nat) :=
  let ep := s.epoch w.core
  let rs := ps.map fun q => (q, s.xlate w q.va q.len p false)
  (rs.map fun r => r.1.placed ep r.2,
    lowest (rs.filterMap fun r => match r.2 with
      | .bad c => some (r.1.va.toNat, c)
      | _ => none))

/-- SQLD (R213, R214). -/
def execSqld (f : FE3) (s : State) : Host.Outcome State Fault Refusal :=
  issue f.e.st.toNat 12 [FE3.srcA f, FE3.srcB f, FE3.srcC f] []
    (fun e s =>
      let a := e.task.getX f.e.xa
      let rows := (e.task.getX f.xb).toNat
      let per := f.imm.toNat % 4096
      let stride := e.task.getX f.xc
      let n := rows * per
      let ps := sqldPieces a stride per (min rows 2048) 0
      let (ps, bad) := s.placeAll e.who .plain ps
      if !s.cmdClear e || decide (n ≤ 2048 ∧ 2048 < s.scalesHeld e.core + n) then .hold
      else match e.task.consume (FE2.cts f.e) with
      | none => tokenFault
      | some _ =>
        if 2048 < n then Act.raise cRange a
        else match bad with
          | some (va, c) => Act.raise c (w64 va)
          | none =>
              let id := s.nextId
              let s := s.fillUnits e.who .plain false (ps.map fun p => (p.va.toNat, p.len))
              let pend := s.modTeam e.uid fun t => { t with sqPend := t.sqPend ++ [(id, n)] }
              match cmdAct e 12 (.sqld f) f.e .scale (a, 0, stride) true none false [] (fun t => t)
                  (fun c => { c with chunk := n }) pend with
              | .done s' =>
                .done (s'.modCore e.core fun k => { k with loads := k.loads ++
                  [{ id := id, team := e.uid, ctx := e.team.ctx, seq := e.task.seq, pc := e.task.pc
                     kind := .scales, entries := 0, xlate := false, pieces := ps, dst := .none
                     rel := none, acq := false, inOrder := false, grain := 1, cmd := id }] })
              | r => r) s

end Sys2Proof.Machine
end

