-- ==== Sys2Proof/Machine/Queue.lean ====
section
/-! DEFINITION. What the load and store queues do on their own: translation, taking values, performing
stores, and results on their way to registers (R84, R86, R113, R116, R205, R355, R356, R366). -/

namespace Sys2Proof.Machine

/-! ## Results -/

/-- A result written into its task's registers, which then read full (R84). -/
def Task.takeResult (t : Task) (r : Result) : Task :=
  let t := match r.xs with
    | some (d, v) => { t.setX (BitVec.ofNat 6 d) v with xEmpty := clearBit t.xEmpty d }
    | none => t
  { t with
    v := r.rows.foldl (fun m e => tabSet 0 m e.1 e.2) t.v
    vEmpty := r.regs.foldl clearBit t.vEmpty }

/-- RESULT_ARRIVAL (R84, R86, R265): a result whose task has ended was discarded with it; that of a SEMRD ends
its command. -/
def execResultArrival (core id : Nat) (s : State) : Host.Outcome State Fault Refusal :=
  match (s.core core).results.find? fun r => r.id == id with
  | none => .next s
  | some r =>
    let s := s.modCore core fun k => { k with results := k.results.filter fun q => q.id != id }
    let s : State := match s.cmd core id with
      | some c => if c.queue = Queue.sync then s.finishCmd c else s
      | none => s
    .next (s.modTeam r.team fun m => { m with task := m.task.map fun t => t.takeResult r })

/-! ## Loads -/

/-- Older entries of the same task in a queue. -/
def olderOf (q : List Access) (a : Access) : List Access :=
  q.filter fun b => b.team == a.team && b.cmd == 0 && decide (b.id < a.id)

/-- Older entries of a core's queue, whichever task's they are (R366). -/
def olderIn (q : List Access) (a : Access) : List Access :=
  q.filter fun b => b.cmd == 0 && decide (b.id < a.id)

/-- The ordering point that a place belongs to (R113): scratchpad array, CSM bank, HBM stack, controller,
host memory, or the place itself on another package. -/
def Loc.point : Loc → Nat × Nat
  | .mem k =>
    if 2 ^ 48 ≤ k then (0, 0)
    else if isHbm k then (1, k / 2 ^ 36)
    else (2, k / 2 ^ 24 * 64 + k / 128 % 64)
  | .host _ => (3, 0)
  | .remote p a => (4, p * 2 ^ 12 + a / 2 ^ 36)
  | .region _ => (5, 0)

/-- Have two pieces one ordering point? -/
def Piece.samePoint (p q : Piece) : Bool :=
  match p.loc, q.loc with
  | some a, some b => a.point == b.point
  | _, _ => true

/-- May a piece of a load take its value now (R114, R116, R209, R366)?  Two loads of a task reach one ordering
point in program order. -/
def State.mayLoad (s : State) (core : Nat) (a : Access) (i : Nat) (p : Piece) : Bool :=
  match p.loc with
  | none => false
  | some loc =>
    decide (p.stage < 4) &&
      (match a.kind with
        | .load => (olderOf (s.core core).loads a).all fun b => b.kind == .prefetch ||
            (!b.xlate && b.pieces.all fun q => q.stage == 4 || !q.samePoint p)
        | .scales => (match s.cmd core a.cmd with
            | some c => s.cmdRuns c
            | none => false)
        | _ => false) &&
      (!a.inOrder || (a.pieces.take i).all fun q => q.stage == 4) &&
      !s.readBlocked core loc p.len

/-- The entry `a` of a queue replaced. -/
def putAccess (q : List Access) (a : Access) : List Access := q.map fun b => if b.id = a.id then a else b

/-- An access that the memory side refuses after its translation (R286, R361, R391, R424): a fault of its
task, or of its team where that task has ended; the local write of a work entry stops its queue pair (R279,
R363).  A refused write is never performed; what the scoreboard recorded for its command is freed with it (R110;
DESIGN CHOICE, log 110). -/
def State.refuseAccess (s : State) (core : Nat) (a : Access) (va : W64) (write : Bool) (code : Nat) :
    Option State :=
  let gone := s.modCore core fun k => { k with
    loads := k.loads.filter fun b => b.id != a.id
    stores := k.stores.filter fun b => b.id != a.id }
  let gone := if a.cmd = 0 then gone else gone.freeSb core a.cmd
  if a.cmd ≠ 0 then
    match s.cmd core a.cmd with
    | some c => gone.cmdFault c code va (if c.queue = .matrix then 1 else 2)
        (fun d => d.queue == c.queue || (d.queue.isCopy && c.queue.isCopy)) write
    | none => match s.entryOf a.cmd with
      | some (cl, qp, e) => some (gone.qpError cl qp (s.qpDesc cl qp) e code)
      | none => gone.faultTeam a.team core code a.pc va a.seq ⟨0, if write then 1 else 0, 0, 0⟩
  else match tabFind s.teams a.team with
    | some t => if t.task.any (fun k => k.seq == a.seq) then
          s.takeFault a.team a.pc ⟨code, va, write, false, false⟩ a.id
        else gone.passFault a.team core code a.pc va 0 false ⟨0, if write then 1 else 0, 0, 0⟩
    | none => some gone

/-- What asks for a load's value outside the package: a PCIe read of host memory, or a load of another package (R286,
R413, R414). -/
def Piece.request (s : State) (a : Access) (p : Piece) : Option Out :=
  match p.loc with
  | some (.remote pkg addr) => some (.load a.id pkg addr p.len)
  | some (.host off) => some (.hostFetch (s.hostAddr off) p.len)
  | _ => none

/-- A load's request leaves by its plane or the host link, and its piece waits for the answer (stage 3). -/
def State.askLoad (s : State) (core : Nat) (a : Access) (i : Nat) (p : Piece) (o : Out) : State :=
  let s := match p.loc with
    | some (.remote pkg addr) => s.sendAccess pkg addr o
    | _ => s.transmit hostPort o
  s.modCore core fun k => { k with
    loads := putAccess k.loads { a with pieces := a.pieces.set i { p with stage := 3 } } }

/-- A load is answered: it is not asked again (R416). -/
def State.answered (s : State) (o : Option Out) : State :=
  match o with
  | none => s
  | some o => { s with ports := s.ports.map fun p => (p.1, { p.2 with asked := p.2.asked.erase o }) }

/-- SQLDs that are whole and first in their team's order append their scales (R213, R214; DESIGN CHOICE, log 105); one
that reads nothing is done at once. -/
def State.finishScales (s : State) (core : Nat) : Nat → State
  | 0 => s
  | fuel + 1 =>
    match (s.core core).loads.find? fun a => a.kind == .scales && a.pieces.all (fun p => p.stage == 4) &&
        (match s.cmd core a.cmd, tabFind s.teams a.team with
          | some c, some t => s.cmdRuns c && (a.pieces.isEmpty || t.sqPend.head?.map (·.1) == some a.id)
          | _, _ => false) with
    | none => s
    | some a =>
      let bytes := (a.pieces.map fun p => leBytes p.len p.data.toNat).flatten
      let s := s.modTeam a.team fun t => { t with
        scales := t.scales ++ bytes, sqPend := t.sqPend.filter fun q => q.1 != a.id }
      let s := s.modCore core fun k => { k with loads := k.loads.filter fun b => b.id != a.id }
      (match s.cmd core a.cmd with
        | some c => s.finishCmd c
        | none => s).finishScales core fuel

/-- The value that a piece of a load takes: memory's, or what answers from outside the package. -/
def State.loadValue (s : State) (p : Piece) (ext : Option (BitVec 64)) : Option Nat :=
  match p.loc with
  | some (.mem k) => if s.refused p.mkey k false then none else some (s.readNat p.mkey k p.len)
  | some (.host _) => ext.map fun v => v.toNat % 2 ^ (8 * p.len)
  | some (.remote _ _) => ext.map fun v => v.toNat % 2 ^ (8 * p.len)
  | _ => some 0

/-- LOAD_PERFORM (R113): one piece takes its value; the last one lets the load leave its queue.  Outside the package
the value comes as the answer to a request (R413, R414). -/
def execLoadPerform (core id piece : Nat) (ext : Option (BitVec 64)) (s : State) :
    Host.Outcome State Fault Refusal :=
  match (s.core core).loads.find? fun a => a.id == id with
  | none => .next s
  | some a =>
    match a.pieces[piece]? with
    | none => .next (s.finishScales core (s.core core).loads.length)
    | some p =>
      if !s.mayLoad core a piece p then .next (s.finishScales core (s.core core).loads.length)
      else if p.loc.any s.locLost then orStay s (s.refuseAccess core a p.va false cPeerLost)
      else if (p.request s a).isSome ∧ p.stage < 3 then
        .next (match p.request s a with
          | some o => if p.loc.all s.wayFree then s.askLoad core a piece p o else s
          | none => s)
      else
      let s := s.answered (p.request s a)
      match s.loadValue p ext with
        | none => orStay s (s.refuseAccess core a p.va false cAccessDenied)
        | some v =>
          let a := { a with pieces := a.pieces.set piece { p with data := BitVec.ofNat 64 v, stage := 4 } }
          let s := s.modCore core fun k => { k with loads := putAccess k.loads a }
          if a.kind = .scales then .next (s.finishScales core (s.core core).loads.length)
          else .next (s.loadsLeave core a.team)

/-! ## Stores -/

/-- Does a piece write a barrier object that the banks know (R266)? -/
def State.onBarrier (s : State) (p : Piece) : Bool :=
  match p.loc with
  | some (.mem k) => s.barriers.any fun b => decide (b < k + p.len) && decide (k < b + 16)
  | _ => false

/-- Has a store-queue entry left the queue, or is it a release that a younger store may pass (R116,
R120; DEDUCED, log 21)? -/
def State.passable (s : State) (core : Nat) (b : Access) (p : Piece) : Bool :=
  match b.kind with
  | .ver => false
  | _ => !b.xlate && (b.pieces.all (fun q => decide (1 ≤ q.stage)) ||
      (match b.rel with
        | some sc => !s.releaseReady core b.team b.id sc && b.pieces.all fun q => !q.overlaps p
        | none => false))

/-- May a piece of a store go on to `stage` (R116, R120, R366)? -/
def State.mayStore (s : State) (core : Nat) (a : Access) (i : Nat) (p : Piece) (stage : Nat) : Bool :=
  p.loc.isSome && decide (p.stage < stage) && decide (stage ≤ p.lastStage) &&
    (decide (1 ≤ p.stage) ||
      (!a.xlate && (a.pieces.take i).all (fun q => decide (1 ≤ q.stage)) &&
        ((olderOf (s.core core).stores a).all fun b => s.passable core b p) &&
        ((olderIn (s.core core).stores a).all fun b => !b.xlate) &&
        (match a.rel with
          | some sc => s.releaseReady core a.team a.id sc
          | none => true))) &&
    s.mayAdvance core p stage

/-- An entry whose pieces have all come to their last points leaves the state. -/
def State.settleStore (s : State) (core : Nat) (a : Access) : State :=
  let s := s.modCore core fun k => { k with
    stores := if a.pieces.all fun q => q.stage == q.lastStage then k.stores.filter fun b => b.id != a.id
      else putAccess k.stores a }
  if a.cmd = 0 then s else s.freeSb core a.cmd

/-- A piece moved on, without effect on memory. -/
def State.advancePiece (s : State) (core : Nat) (a : Access) (i stage : Nat) (p : Piece) : State :=
  let (stamp, s) := s.fresh
  s.settleStore core { a with pieces := a.pieces.set i (p.moveTo stage stamp) }

/-- What leaves the package when a piece reaches a point (R130, R413, R414). -/
def State.sendPiece (s : State) (a : Access) (p : Piece) (stage : Nat) : State :=
  match p.loc with
  | some (.remote pkg addr) =>
    if p.stage < 3 ∧ 3 ≤ stage ∧ !s.locLost (.remote pkg addr) then
      s.sendAccess pkg addr (Out.store a.id pkg addr p.len p.data p.mask)
    else s
  | some (.host off) =>
    let s := if p.stage < 4 ∧ 4 ≤ stage then
        s.transmit hostPort (Out.hostWrite (s.hostAddr off) p.len p.data p.mask)
      else s
    if p.stage < 5 ∧ 5 ≤ stage then s.transmit hostPort (Out.hostFetch (s.hostAddr (off / 4096 * 4096)) 0) else s
  | _ => s

/-- Has the link that a piece leaves by on its way to a stage room for it, or is its target lost? -/
def State.pieceRoom (s : State) (p : Piece) (stage : Nat) : Bool :=
  match p.loc with
  | some (.remote pkg addr) => !decide (p.stage < 3 ∧ 3 ≤ stage) || s.locLost (.remote pkg addr) ||
      s.wayFree (.remote pkg addr)
  | some (.host off) => !decide (4 ≤ stage) || s.wayFree (.host off)
  | _ => true

/-- A piece comes to its ordering point: it is written, or refused (R113, R361, R391, R424). -/
def State.performPiece (s : State) (core : Nat) (a : Access) (i stage : Nat) (p : Piece) :
    Host.Outcome State Fault Refusal :=
  let t := s.advancePiece core a i stage p
  match p.loc with
  | some (.mem k) =>
    if s.locLost (.mem k) then orStay s (t.refuseAccess core a p.va true cPeerLost)
    else if s.refused p.mkey k true then orStay s (t.refuseAccess core a p.va true cAccessDenied)
    else .next ((s.writePiece k p.mkey p.len p.data p.mask).advancePiece core a i stage p)
  | some (.remote pkg addr) =>
    .next (if s.locLost (.remote pkg addr) then t.recordRefusal a.team pkg cPeerLost else t)
  | _ => .next t

/-- Does a piece write another package's memory that is lost (R286)? -/
def Piece.lostRemote (p : Piece) (s : State) : Bool :=
  match p.loc with
  | some (.remote pkg addr) => s.locLost (.remote pkg addr)
  | _ => false

/-- May a piece go on to a stage, with room on its way (R116, R415)? -/
def State.mayMove (s : State) (core : Nat) (a : Access) (i : Nat) (p : Piece) (stage : Nat) : Bool :=
  s.mayStore core a i p stage && s.pieceRoom p stage &&
    (!decide (4 ≤ stage) || !s.onBarrier p)

/-- One piece that may go on does. -/
def State.movePiece (s : State) (core id piece stage : Nat) : Host.Outcome State Fault Refusal :=
  match (s.core core).stores.find? fun a => a.id == id with
  | none => .next s
  | some a =>
    match a.pieces[piece]? with
    | none => .next s
    | some p =>
      if !s.mayMove core a piece p stage then .next s
      else if p.stage < 3 ∧ 3 ≤ stage ∧ p.lostRemote s then
        orStay s ((s.advancePiece core a piece 4 p).refuseAccess core a p.va true cPeerLost)
      else
        let s := s.sendPiece a p stage
        if p.stage < 4 ∧ 4 ≤ stage then s.performPiece core a piece stage p
        else .next (s.advancePiece core a piece stage p)

/-- Pieces from `i` on go on one after another, in one step. -/
def State.movePieces (s : State) (core id stage i : Nat) : Nat → Host.Outcome State Fault Refusal
  | 0 => .next s
  | n + 1 =>
    match s.movePiece core id i stage with
    | .next t => t.movePieces core id stage (i + 1) n
    | r => r

/-- STORE_PERFORM (R113, R114, R128): one piece reaches a point, or the pieces of one atomic unit together; at
the ordering point they are performed. -/
def execStorePerform (core id piece stage : Nat) (s : State) : Host.Outcome State Fault Refusal :=
  match (s.core core).stores.find? fun a => a.id == id with
  | none => .next s
  | some a =>
    if a.grain ≤ 1 then s.movePiece core id piece stage
    else
      let first := piece / a.grain * a.grain
      if ((a.pieces.drop first).take a.grain).zipIdx.all fun p => s.mayMove core a (first + p.2) p.1 stage then
        s.movePieces core id stage first a.grain
      else .next s

/-! ## Translation -/

/-- A fault of a queue entry, taken once every older entry of the task has translated (R365, R366). -/
def State.faultAccess (s : State) (core : Nat) (a : Access) (va : Nat) (code : Nat) : State :=
  let older := olderOf (s.core core).loads a ++ olderOf (s.core core).stores a
  if older.any fun b => b.xlate && b.kind != .prefetch then s
  else (s.takeFault a.team a.pc ⟨code, w64 va, a.kind.writes, false, false⟩ a.id).getD s

/-- The lowest piece of an entry without a translation. -/
def Access.nextMiss (a : Access) : Option Piece :=
  match lowest (a.pieces.filterMap fun p => if p.loc.isNone then some (p.va.toNat, 0) else none) with
  | none => none
  | some (va, _) => a.pieces.find? fun p => p.loc.isNone && p.va.toNat == va

/-- The page of that piece. -/
def Access.nextPage (a : Access) : Option Nat := a.nextMiss.map fun p => p.va.toNat / 65536

/-- Entries of a die's cores that wait for their translation. -/
def State.walksOf (s : State) (die : Nat) : List Access :=
  (s.cores.map fun k => if dieOf k.1 = die then (k.2.loads ++ k.2.stores).filter (·.xlate) else []).flatten

/-- Has an entry one of its die's 256 walkers, its own or that of an older entry which resolves the same page
(R355)? -/
def State.hasWalker (s : State) (core : Nat) (a : Access) : Bool :=
  let older := (((s.walksOf (dieOf core)).filter fun b => decide (b.id < a.id)).map fun b =>
    (b.ctx, b.nextPage)).eraseDups
  older.contains (a.ctx, a.nextPage) || decide (older.length < 256)

/-- Are all 256 walkers of a die busy (R355)? -/
def State.walkersBusy (s : State) (die : Nat) : Bool :=
  decide (256 ≤ ((s.walksOf die).map fun b => (b.ctx, b.nextPage)).eraseDups.length)

/-- Has a step made a walk on a die: filled a TLB there, or found a page absent? -/
def State.walked (s t : State) (die : Nat) : Bool :=
  (t.cores.any fun k => dieOf k.1 == die && k.2.tlb != (s.core k.1).tlb) ||
    (t.clusters.any fun c => c.1 / 16 == die && c.2.tlb != (s.cluster c.1).tlb) ||
    decide ((s.die die).fqCount < (t.die die).fqCount)

/-- A step of an engine or the fabric that needs a walk waits for a walker (R355; log 14). -/
def withWalker (die : Nat) (w : State → Host.Outcome State Fault Refusal) (s : State) : Host.Outcome State Fault Refusal :=
  if s.walkersBusy die then
    match w s with
    | .next t => if s.walked t die then .next s else .next t
    | r => r
  else w s

/-- A completed walk fills the TLBs of the core that asked, and of those of its die whose entries have joined
it (R355). -/
def State.fillJoined (s : State) (w : Who) (va : Nat) (e : BitVec 64) (big : Bool) : State :=
  s.cores.foldl (fun t k =>
    if dieOf k.1 = dieOf w.core ∧ k.1 ≠ w.core ∧ ((k.2.loads ++ k.2.stores).any fun a =>
        a.xlate && a.ctx == w.ctx && a.nextPage == some (va / 65536)) then
      t.fillTlbs { w with core := k.1 } va e big
    else t) (s.fillTlbs w va e big)

/-- The task of a team ends if it waits for nothing but the translation of its older accesses to do so (R34,
R250). -/
def State.settleEnding (s : State) (core uid : Nat) : State :=
  match (tabFind s.teams uid).bind (·.task) with
  | none => s
  | some k =>
    match k.hold with
    | .ending _ => if s.translated core uid then (s.setTask uid { k with hold := .free }).endTask uid else s
    | _ => s

/-- The pieces of an entry translated as far as the TLBs go (R205). -/
def State.placeAccess (s : State) (core : Nat) (a : Access) : State :=
  let (ps, bad, miss) := s.place ⟨core, a.team, a.ctx⟩ a.kind.path a.kind.writes a.pieces
  match faultFirst bad miss with
  | some (va, c) => s.faultAccess core a va c
  | none =>
    let a := { a with pieces := ps, xlate := ps.any fun p => p.loc.isNone }
    (s.modCore core fun k => { k with
      loads := putAccess k.loads a, stores := putAccess k.stores a }).settleEnding core a.team

/-- The walk for a piece that the TLBs do not translate: its leaf, where there is one to walk to. -/
def State.walkFor (s : State) (w : Who) (k : AccKind) (p : Piece) : Except Nat (Option (BitVec 64 × Bool)) :=
  match s.check w p.aligned p.va p.len k.path k.writes with
  | .miss =>
    (match s.walk w p.va.toNat (if k.writes then .write else .read) with
    | .error c => .error c
    | .ok r => .ok (some r))
  | _ => .ok none

/-- The end of a PF: by the TLBs or by a walk (R212). -/
def State.endPrefetch (s : State) (core : Nat) (a : Access) (p : Piece) : State :=
  let w : Who := ⟨core, a.team, a.ctx⟩
  let drop := s.modCore core fun k => { k with loads := k.loads.filter fun b => b.id != a.id }
  match s.walkFor w .prefetch p with
  | .error _ => drop
  | .ok none => drop.prefetchHit w p.va
  | .ok (some (e, big)) =>
    match s.useLeaf w p.va.toNat e big .plain false with
    | .ok _ _ => drop.fillJoined w p.va.toNat e big
    | _ => drop

/-- TLB_WALK_COMPLETE (R205, R355, R356, R366): the translation of the lowest page of an entry that still has
none, by a walk where neither TLB has it; entries translate in issue order within their queue. -/
def execTlbWalkComplete (core id page : Nat) (s : State) : Host.Outcome State Fault Refusal :=
  let k := s.core core
  match (k.loads ++ k.stores).find? fun a => a.id == id && a.xlate with
  | none => .next s
  | some a =>
    let queue := if k.stores.any fun b => b.id == id then k.stores else k.loads
    match a.nextMiss with
    | none => .next s
    | some p =>
      let w : Who := ⟨core, a.team, a.ctx⟩
      if p.va.toNat / 65536 ≠ page || !s.hasWalker core a ||
          ((olderIn queue a).any fun b => b.xlate && b.kind != .prefetch && a.kind != .prefetch) then .next s
      else if a.kind = .prefetch then .next (s.endPrefetch core a p)
      else match s.walkFor w a.kind p with
        | .error c => .next (s.faultAccess core a p.va.toNat c)
        | .ok none => .next (s.placeAccess core a)
        | .ok (some (e, big)) => .next ((s.fillJoined w p.va.toNat e big).placeAccess core a)

end Sys2Proof.Machine
end

