-- ==== Sys2Proof/Machine/Sync.lean ====
section
/-! DEFINITION. Semaphores and barrier objects: the semaphore file, the banks' barrier steps, and WAITS,
SIGS, SEMRD and WAITB with the requests they send (R261 to R268). -/

namespace Sys2Proof.Machine

/-! ## The semaphore file (R261) -/

/-- A semaphore's value. -/
def State.semVal (s : State) (ctx n : Nat) : BitVec 32 := tabGet 0 (s.ctx ctx).sems n

/-- A semaphore set. -/
def State.setSem (s : State) (ctx n : Nat) (v : BitVec 32) : State :=
  s.modCtx ctx fun c => { c with sems := tabSet 0 c.sems n v }

/-- Chain of waiters of a semaphore, head first. -/
def State.semChain (s : State) (ctx n : Nat) : List Waiter := tabGet [] s.semChains (ctx * 256 + n)

/-- The chain replaced. -/
def State.setSemChain (s : State) (ctx n : Nat) (l : List Waiter) : State :=
  { s with semChains := tabSet [] s.semChains (ctx * 256 + n) l }

/-- How much a waiter takes: a wait field counts 1. -/
def Waiter.count : Waiter → Nat
  | .task _ _ n => n
  | .cmd _ _ => 1

/-- A command's wait field granted, wherever the command stands. -/
def grantCmd (id : Nat) (c : Cmd) : Cmd := if c.id = id then { c with wait := .granted } else c

/-- A waiter proceeds (R261). -/
def State.proceed (s : State) : Waiter → State
  | .task team r _ => s.wakeRec team r 0
  | .cmd core id =>
    let s := s.modCore core fun k => { k with cmds := k.cmds.map (grantCmd id) }
    { s with images := s.images.map fun m => { m with cmds := m.cmds.map (grantCmd id) } }

/-- A wait at the file (R261). -/
def State.semWait (s : State) (ctx n : Nat) (w : Waiter) : State :=
  if (s.semChain ctx n).isEmpty ∧ w.count ≤ (s.semVal ctx n).toNat then
    (s.setSem ctx n (BitVec.ofNat 32 ((s.semVal ctx n).toNat - w.count))).proceed w
  else s.setSemChain ctx n (s.semChain ctx n ++ [w])

/-- Waiters from the head on proceed while the value lets them (R261). -/
def State.semDrain (s : State) (ctx n : Nat) : List Waiter → State
  | [] => s.setSemChain ctx n []
  | w :: ws =>
    if w.count ≤ (s.semVal ctx n).toNat then
      ((s.setSem ctx n (BitVec.ofNat 32 ((s.semVal ctx n).toNat - w.count))).proceed w).semDrain ctx n ws
    else s.setSemChain ctx n (w :: ws)

/-- An addition at the file; none where it would overflow, and nothing changes (R261). -/
def State.semAdd (s : State) (ctx n a : Nat) : Option State :=
  if 2 ^ 32 ≤ (s.semVal ctx n).toNat + a then none
  else some ((s.setSem ctx n (BitVec.ofNat 32 ((s.semVal ctx n).toNat + a))).semDrain ctx n
    (s.semChain ctx n))

/-! ## Requests at the file -/

/-- A request taken off its way. -/
def State.dropReq (s : State) (id : Nat) : State := { s with reqs := tabDel s.reqs id }

/-- A request sent on its way. -/
def State.putReq (s : State) (r : Req) : State :=
  let (id, s) := s.fresh
  { s with reqs := tabPut s.reqs id r }

/-- A record of a team. -/
def State.recOf (s : State) (team r : Nat) : Option Rec :=
  (tabFind s.teams team).bind fun t => t.recs.find? fun q => q.id == r

/-- Does the home die's semaphore file hold a context's semaphores, or is it lost (R336)? -/
def State.semsHere (s : State) (ctx : Nat) : Bool :=
  (s.die (s.homeDie ctx)).lost || s.residOn ctx (s.homeDie ctx) != .out

/-- Does the task that a record continues still stand, for older accesses of it have not translated (R34)? -/
def State.endsLater (s : State) (team r : Nat) : Bool :=
  match (tabFind s.teams team).bind (·.task) with
  | some k => k.hold == .ending r
  | none => false

/-- SEM_WAIT_REQUEST (R141, R261, R262): a WAITS sends its request once its task has ended and its consumed
tokens are done, a wait field once only the semaphore may still hold its command.  A lost home die resumes the
continuation with PEER_LOST (R262). -/
def execSemWaitRequest (id : Nat) (s : State) : Host.Outcome State Fault Refusal :=
  match tabFind s.reqs id with
  | some (.semWait ctx n w) =>
    let lost := (s.die (s.homeDie ctx)).lost
    (match w with
    | .task team r _ =>
      (match s.recOf team r with
      | none => .next (s.dropReq id)
      | some q =>
        if s.endsLater team r ∨ !s.depsDone q.deps ∨ !s.semsHere ctx then .next s
        else if lost then .next ((s.dropReq id).wakeRec team r cPeerLost)
        else .next ((s.dropReq id).semWait ctx n w))
    | .cmd core c =>
      (match s.cmd core c with
      | none => .next s
      | some q =>
        if !s.cmdReady q ∨ !s.semsHere ctx then .next s
        else if lost then orStay s ((s.dropReq id).cmdFault q cPeerLost (w64 n) q.source
          fun d => d.queue == q.queue || (d.queue.isCopy && q.queue.isCopy))
        else .next ((s.dropReq id).semWait ctx n w)))
  | _ => .next s

/-- Are the stores and engine writes of the teams of a context that have retired performed for HOST
(R20)? -/
def State.hostReleased (s : State) (ctx : Nat) : Bool :=
  s.noResent && s.cores.all fun k => k.2.stores.all fun a =>
    a.ctx != ctx || (tabFind s.teams a.team).isSome || a.pieces.all (·.performedFor 5)

/-- May an addition be sent (R120, R253, R263, R20)? -/
def State.mayAdd (s : State) (ctx team cmd core scope : Nat) (deps : Option (List Dep)) : Bool :=
  match deps with
  | some ds => s.depsDone ds && s.releaseReady core team cmd scope && s.depsWritten core ds scope
  | none => if team = 0 then s.hostReleased ctx else s.cmdWritten core cmd scope

/-- SEM_OVERFLOW of a launch's completion semaphore, reported to system software (R20; DEDUCED, log 22). -/
def State.launchOverflow (s : State) (ctx n : Nat) (tag : W64) : Option State :=
  let d := s.homeDie ctx
  if (s.die d).fqFull then none
  else some (s.queueFault
    { die := d, code := cSemOverflow, source := 5, flags := 0, unit := 0, ctx := ctx, core := d * 128
      pc := 0, addr := w64 n, tag := tag, team := 0, mpc := 0, origin := 0, uid := 0, recId := 0
      cmd := 0 })

/-- An addition for the fabric: made at once, or as a request on its way while the home die does not hold the
context's semaphores (R281, R336); `team` 0 where what is reported has no team of this package to go to (R264;
log 98).  A lost home die makes none, and PEER_LOST is reported (R424). -/
def State.fabricAdd (s : State) (ctx n team core : Nat) (pc : W64) (seq : BitVec 32) : State :=
  if s.semsHere ctx then
    let lost := (s.die (s.homeDie ctx)).lost
    match if lost then none else s.semAdd ctx n 1 with
    | some t => t
    | none =>
      if team = 0 then s
      else (s.faultTeam team core (if lost then cPeerLost else cSemOverflow) pc (w64 n) seq ⟨0, 0, 0, 0⟩).getD
        (s.putReq (.fabricAdd ctx n team core pc seq))
  else s.putReq (.fabricAdd ctx n team core pc seq)

/-- SEM_SIGNAL of the fabric: an addition that waited for its semaphores, or for room for its report. -/
def State.fabricSignal (s : State) (id : Nat) : State :=
  match tabFind s.reqs id with
  | some (.fabricAdd ctx n team core pc seq) =>
    if s.semsHere ctx then (s.dropReq id).fabricAdd ctx n team core pc seq else s
  | _ => s

/-- SEM_SIGNAL (R253, R261, R263, R264, R281): the addition is made and a SIGS is then complete; a refused one
is reported against the issuing team. -/
def execSemSignal (id : Nat) (s : State) : Host.Outcome State Fault Refusal :=
  match tabFind s.reqs id with
  | some (.semSig ctx n amount team cmd core pc scope deps seq) =>
    if deps.isSome ∧ (s.cmd core cmd).isNone then
      .next (if s.images.any fun m => m.cmds.any fun c => c.id == cmd then s else s.dropReq id)
    else if !s.mayAdd ctx team cmd core scope deps ∨ !s.semsHere ctx then .next s
    else
      let closed := fun s : State => match deps, s.cmd core cmd with
        | some _, some c => s.finishCmd c
        | _, _ => s
      if (s.die (s.homeDie ctx)).lost then
        let t := closed (s.dropReq id)
        orStay s (if team = 0 then some t
          else t.faultTeam team core cPeerLost pc (w64 n) seq ⟨0, 0, 0, 0⟩)
      else match (s.dropReq id).semAdd ctx n amount with
        | some t => .next (closed t)
        | none =>
          let t := closed (s.dropReq id)
          orStay s (if team = 0 then t.launchOverflow ctx n pc
            else t.faultTeam team core cSemOverflow pc (w64 n) seq ⟨0, 0, 0, 0⟩)
  | some (.fabricAdd _ _ _ _ _ _) => .next (s.fabricSignal id)
  | _ => .next s

/-! ## WAITS, SIGS and SEMRD -/

/-- The record that a wait leaves, and the end of its task (R31, R34): at once, or as soon as its older accesses
have translated (R250; log 18). -/
def State.leaveRec (s : State) (e : Env) (bytes : Nat) (r : Rec) : State :=
  (if s.translated e.core e.uid then s.endTask e.uid
   else s.commit e { e.task.advance bytes with hold := .ending r.id }).addRec e.uid r

/-- What holds a wait before it issues (R32, R37): not the translation of older accesses (R250). -/
def State.waitHeld (s : State) (e : Env) (mask : W64) : Bool :=
  !e.task.liveFull mask || !s.poolRoom e.team.ctx mask

/-- WAITS (R31, R262): the task ends and leaves a continuation of KIND 1, whose request follows its
consumed tokens. -/
def execWaits (f : FE3) (s : State) : Host.Outcome State Fault Refusal :=
  issue f.e.st.toNat 12 [FE3.srcB f] []
    (fun e s =>
      match e.task.consume (FE2.cts f.e) with
      | none => tokenFault
      | some deps =>
        let mask := e.task.getX f.xb
        if s.waitHeld e mask then .hold
        else
          let (id, s) := s.fresh
          let n := e.task.sem f.e.wsem.toNat
          let r := { e.record id (e.task.pc + 12) mask 1 0 with
            obj := w64 n, arg := f.imm.zeroExtend 64, scope := f.e.scope.toNat, deps := deps
            since := (s.die e.die).gnomon.toNat }
          .done ((s.leaveRec e 12 r).putReq (.semWait e.team.ctx n (.task e.uid id f.imm.toNat)))) s

/-- SIGS (R263): the command waits for its addition. -/
def sigs (e : Env) (bytes : Nat) (i : Instr) (f : FE2) (amount : W64) (s : State) : Act :=
  let bad := firstBad [(decide (2 ^ 32 ≤ amount.toNat), cShape, 0)]
  let id := s.nextId
  match cmdAct e bytes i f .sync (amount, 0, 0) true bad false [] (fun t => t)
      (fun c => { c with sig := none }) s with
  | .done s =>
    .done (s.putReq (.semSig e.team.ctx (e.task.sem f.ssem.toNat) amount.toNat e.uid id e.core e.task.pc
      f.scope.toNat (some ((e.task.consume (FE2.cts f)).getD [])) e.task.seq))
  | r => r

/-- SIGS in format E2 (R263): the amount is XA. -/
def execSigs (f : FE2) (s : State) : Host.Outcome State Fault Refusal :=
  issue f.st.toNat 8 [.x f.xa f.fea] []
    (fun e s => sigs e 8 (.sigs f) f (e.task.getX f.xa) s) s

/-- SIGS in format E3 (R263): the amount is IMM18. -/
def execSigsE3 (f : FE3) (s : State) : Host.Outcome State Fault Refusal :=
  issue f.e.st.toNat 12 [] []
    (fun e s => sigs e 12 (.sigsE3 f) f.e (f.imm.zeroExtend 64) s) s

/-- SEMRD (R265): XA is empty until the value arrives. -/
def execSemrd (f : FE3) (s : State) : Host.Outcome State Fault Refusal :=
  issue f.e.st.toNat 12 [] [.x f.e.xa]
    (fun e s =>
      cmdAct e 12 (.semrd f) f.e .sync (0, 0, 0) false none false [] (fun t => t.emptyX f.e.xa)
        (fun c => { c with regs := [f.e.xa.toNat], wsem := e.task.sem (f.imm.toNat % 256) }) s) s

/-- SEM_READ (R265): the file answers a SEMRD whose consumed tokens are done; the command ends as its value
arrives in XA, and here where its task has ended (R86). -/
def execSemRead (core id : Nat) (s : State) : Host.Outcome State Fault Refusal :=
  match s.cmd core id with
  | none => .next s
  | some c =>
    match c.instr with
    | .semrd _ =>
      if c.sent then
        .next (if (s.core core).results.any fun r => r.id == id then s else s.finishCmd c)
      else if !s.depsDone c.deps || !s.semsHere c.ctx then .next s
      else if (s.die (s.homeDie c.ctx)).lost then
        orStay s (s.cmdFault c cPeerLost (w64 c.wsem) 0 fun _ => false)
      else
        let v : W64 := (s.semVal c.ctx c.wsem).zeroExtend 64
        .next (match c.regs with
          | d :: _ => (s.setCmd { c with sent := true }).modCore core fun k => { k with
              results := k.results ++ [⟨c.id, c.team, some (d, v), [], []⟩] }
          | [] => s.finishCmd c)
    | _ => .next s

/-! ## Barrier objects (R266) -/

/-- The fields of an object. -/
structure Bar where
  expect : Nat
  pending : Nat
  phase : Nat
  err : Bool
  waiters : Nat
  list : Nat
  deriving DecidableEq, Repr

/-- Fields of the 16 bytes. -/
def Bar.ofNat (w : Nat) : Bar :=
  ⟨w % 2 ^ 16, w / 2 ^ 16 % 2 ^ 16, w / 2 ^ 32 % 16, w.testBit 36, w / 2 ^ 40 % 2 ^ 24, w / 2 ^ 64 % 2 ^ 64⟩

/-- The 16 bytes; RSV is 0. -/
def Bar.toNat (b : Bar) : Nat :=
  b.expect + b.pending * 2 ^ 16 + b.phase * 2 ^ 32 + (if b.err then 2 ^ 36 else 0) +
    b.waiters % 2 ^ 24 * 2 ^ 40 + b.list * 2 ^ 64

/-- The object at a key.  Before the first operation on it no waiter stands on it, whatever software has stored
in WAITERS and LIST, which are the bank's (R5, R266). -/
def State.bar (s : State) (k : Nat) : Bar :=
  let o := Bar.ofNat (s.readNat 0 k 16)
  if s.barriers.contains k then o else { o with waiters := 0, list := 0 }

/-- An object written, and known to its bank from now on (log 23). -/
def State.setBar (s : State) (k : Nat) (b : Bar) : State :=
  let s := s.writeNat 0 k 16 b.toNat
  if s.barriers.contains k then s else { s with barriers := s.barriers ++ [k] }

/-- Every waiter of an object wakes with status 0 (R267). -/
def State.wakeBar (s : State) (k : Nat) : State :=
  let l : List Waiter := tabGet [] s.barChains k
  let s := { s with barChains := tabDel s.barChains k }
  l.foldl (fun s w => s.proceed w) s

/-- The status word of an arrival that leaves an object so (R267). -/
def Bar.status (o : Bar) (code : Nat) : Nat := code + o.phase * 2 ^ 8 + o.pending * 2 ^ 16

/-- An arrival of `n` (R267): its status word, and the object after it. -/
def State.arrive (s : State) (k n : Nat) : Nat × State :=
  let o := s.bar k
  if o.pending < n then (o.status cBarrierOverrun, s.setBar k { o with err := true })
  else
    let left : Bar := { o with pending := o.pending - n }
    let done : Bar := { o with phase := (o.phase + 1) % 16, pending := o.expect, waiters := 0, list := 0 }
    if o.pending = n then (done.status 0, (s.setBar k done).wakeBar k) else (left.status 0, s.setBar k left)

/-- A waiter parks on an object (R268). -/
def State.parkBar (s : State) (k : Nat) (w : Waiter) : State :=
  let o := s.bar k
  let s := s.setBar k { o with
    waiters := o.waiters + 1
    list := if o.waiters = 0 then (Config.chainHead s.ticks).toNat else o.list }
  { s with barChains := tabPut s.barChains k (tabGet [] s.barChains k ++ [w]) }

/-- Die of the bank at a key. -/
def keyDie (k : Nat) : Nat := k / 2 ^ 46 % 4

/-- The object that an address names for a context (R267, R268): its key or a fault. -/
def State.objKey (s : State) (w : Who) (va : W64) : Except Nat Nat :=
  if va.toNat < 2 ^ 54 ∨ 2 ^ 55 ≤ va.toNat ∨ va.toNat / 2 ^ 48 % 64 ≠ 1 then .error cRange
  else match s.window w va.toNat 16 .plain with
    | .ok (.mem k) _ => .ok k
    | .bad c => .error c
    | _ => .error cRange

/-- Is the object's address out of the CSM window (R250, R267)? -/
def State.objRange (s : State) (w : Who) (va : W64) : Bool :=
  match s.objKey w va with
  | .error c => c == cRange
  | .ok _ => false

/-- WAITB (R268): the task ends and leaves a continuation of KIND 2; where the bank's die is lost it is
ready at once with PEER_LOST. -/
def execWaitb (f : FE3) (s : State) : Host.Outcome State Fault Refusal :=
  issue f.e.st.toNat 12 [FE3.srcA f, FE3.srcB f, FE3.srcC f] []
    (fun e s =>
      let va := e.task.getX f.e.xa
      let phase := (e.task.getX f.xb).toNat
      let mask := e.task.getX f.xc
      match e.task.consume (FE2.cts f.e) with
      | none => tokenFault
      | some deps =>
        match firstBad [(s.objRange e.who va, cRange, va), (decide (va.toNat % 16 ≠ 0), cAlign, va),
            (decide (15 < phase), cShape, 0)] with
        | some (c, a) => Act.raise c a
        | none =>
          if s.waitHeld e mask then .hold
          else
            let key := s.objKey e.who va
            match key with
            | .error c =>
              if c ≠ cPeerLost then Act.raise c va
              else
                let (id, s) := s.fresh
                let r := { e.record id (e.task.pc + 12) mask 2 0 with
                  obj := va, arg := w64 phase, scope := f.e.scope.toNat }
                .done ((s.leaveRec e 12 r).wakeRec e.uid id cPeerLost)
            | .ok k =>
              let (id, s) := s.fresh
              let r := { e.record id (e.task.pc + 12) mask 2 0 with
                obj := va, arg := w64 phase, scope := f.e.scope.toNat, deps := deps
                since := (s.die e.die).gnomon.toNat }
              .done ((s.leaveRec e 12 r).putReq (.barWait k phase (f.imm.toNat % 65536) e.uid id))) s

/-- Core of a team; while it migrates it has none, and 512 stands for that. -/
def State.teamCore (s : State) (team : Nat) : Nat := ((tabFind s.teams team).bind (·.core)).getD 512

/-- Die that holds a team's records: that of its core (R33). -/
def State.teamDie (s : State) (team : Nat) : Nat :=
  match (tabFind s.teams team).bind (·.core) with
  | some c => dieOf c
  | none => 0

/-- The time that a record just parked may wait (R268): DEADLINE on the die that holds it, or, of a team in
transit, the time that it has left when it lands (R43). -/
def State.setDeadline (s : State) (team r d : Nat) : State :=
  if s.packs.any fun p => p.team == team then
    { s with packs := s.packs.map fun p => if p.team = team then { p with left := tabPut p.left r d } else p }
  else s.modRec team r fun q => { q with deadline := (s.die (s.teamDie team)).gnomon.toNat + d }

/-- BARRIER_WAIT_REQUEST (R268): the bank's decision, behind the accepted stores of the team's core to the object
(R114, R122). -/
def execBarrierWaitRequest (id : Nat) (s : State) : Host.Outcome State Fault Refusal :=
  match tabFind s.reqs id with
  | some (.barWait k phase t team r) =>
    (match s.recOf team r with
    | none => .next (s.dropReq id)
    | some q =>
      if s.endsLater team r ∨ !s.depsDone q.deps ∨ s.readBlocked (s.teamCore team) (.mem k) 16 then .next s
      else if (s.die (keyDie k)).lost then .next ((s.dropReq id).wakeRec team r cPeerLost)
      else if (s.bar k).phase ≠ phase then .next (((s.dropReq id).setBar k (s.bar k)).wakeRec team r 0)
      else .next (((s.dropReq id).parkBar k (.task team r phase)).setDeadline team r (940 * t)))
  | _ => .next s

/-- Object key on whose chain a record stands. -/
def State.barOf (s : State) (team r : Nat) : Option Nat :=
  (s.barChains.find? fun e => e.2.any fun w => match w with
    | .task t q _ => t == team && q == r
    | _ => false).map (·.1)

/-- Team that holds a record by name. -/
def State.teamOfRec (s : State) (r : Nat) : Option Nat :=
  (s.teams.find? fun t => t.2.recs.any fun q => q.id == r).map (·.1)

/-- Is an unlink of a record on its way? -/
def State.unlinking (s : State) (team r : Nat) : Bool :=
  s.reqs.any fun e => match e.2 with
    | .unlink _ u q => u == team && q == r
    | _ => false

/-- WAITB_DEADLINE (R268, R337): the die that holds a parked record whose deadline has passed sends an
unlink, while the context is resident there. -/
def execWaitbDeadline (id : Nat) (s : State) : Host.Outcome State Fault Refusal :=
  match s.teamOfRec id with
  | none => .next s
  | some team =>
    match s.recOf team id, tabFind s.teams team with
    | some q, some t =>
      let d := s.teamDie team
      if q.kind ≠ 2 ∨ q.state ≠ 0 ∨ q.deadline = 0 ∨ t.core = none ∨
          (s.die d).gnomon.toNat < q.deadline ∨ s.residOn t.ctx d ≠ .resident ∨ s.unlinking team id then .next s
      else match s.barOf team id with
        | none => .next s
        | some k =>
          .next (s.putReq (.unlink k team id))
    | _, _ => .next s

/-- A waiter taken off an object's chain, if it still stands there, and readied with a status (R268). -/
def State.unlinkBar (s : State) (k team r status : Nat) : State :=
  let l : List Waiter := tabGet [] s.barChains k
  let gone : Waiter → Bool := fun w => match w with
    | .task t q _ => t == team && q == r
    | _ => false
  if l.any gone then
    let l := l.filter fun w => !gone w
    let o := s.bar k
    let s := s.setBar k { o with waiters := o.waiters - 1, list := if l.isEmpty then 0 else o.list }
    ({ s with barChains := tabSet [] s.barChains k l }).wakeRec team r status
  else s

/-- WAITB_UNLINK (R268): TIMEOUT, if the waiter is still on the chain. -/
def execWaitbUnlink (id : Nat) (s : State) : Host.Outcome State Fault Refusal :=
  match tabFind s.reqs id with
  | some (.unlink k team r) => .next ((s.dropReq id).unlinkBar k team r 0x100)
  | _ => .next s

/-! ## Stores to a barrier object (R266) -/

/-- Byte `i` of a piece as it would be stored over `old`, if the piece writes it. -/
def Piece.byteAt (p : Piece) (i : Nat) (old : BitVec 8) : Option (BitVec 8) :=
  let m := p.mask.extractLsb' (8 * i) 8
  if m = 0 then none else some ((old &&& ~~~m) ||| (p.data.extractLsb' (8 * i) 8 &&& m))

/-- A store of the bytes of a piece at offset `off` of an object: bytes 0 to 4 take effect, RSV apart;
bytes 5 to 15 only with no waiter and all zero. -/
def storeBar (w : Nat) (p : Piece) (off : Nat) : Nat :=
  let bs : List (BitVec 8) := leBytes 16 w
  let old := fun i => bs.getD (off + i) 0
  let news := (List.range p.len).filterMap fun i => (p.byteAt i (old i)).map fun b => (off + i, b)
  let high := (Bar.ofNat w).waiters = 0 ∧ news.all (fun e => decide (e.1 < 5) || e.2 == 0) = true
  leNat (bs.zipIdx.map fun q =>
    match news.find? fun e => e.1 == q.2 with
    | some e => if e.1 < 4 then e.2 else if e.1 = 4 then e.2 &&& 0x1F else if high then e.2 else q.1
    | none => q.1)

/-- A piece written to the object at or around key `k`; a change of PHASE wakes its waiters (R266). -/
def State.storeObject (s : State) (k : Nat) (p : Piece) : State :=
  let b := k / 16 * 16
  let old := s.bar b
  let new := Bar.ofNat (storeBar old.toNat p (k - b))
  if old.phase ≠ new.phase ∧ old.waiters ≠ 0 then
    (s.setBar b { new with waiters := 0, list := 0 }).wakeBar b
  else s.setBar b new

/-- BARRIER_OBJECT_STORE (R266): a store-queue piece that writes an object reaches its bank, where that is not lost
(R424). -/
def execBarrierObjectStore (core id piece : Nat) (s : State) : Host.Outcome State Fault Refusal :=
  match (s.core core).stores.find? fun a => a.id == id with
  | none => .next s
  | some a =>
    match a.pieces[piece]? with
    | none => .next s
    | some p =>
      match p.loc with
      | some (.mem k) =>
        if !s.mayStore core a piece p 4 || !s.onBarrier p then .next s
        else if s.locLost (.mem k) then
          orStay s ((s.advancePiece core a piece 4 p).refuseAccess core a p.va true cPeerLost)
        else .next ((s.storeObject k p).advancePiece core a piece 4 p)
      | _ => .next s

end Sys2Proof.Machine
end

