-- ==== Sys2Proof/Machine/Version.lean ====
section
/-! DEFINITION. Versioned regions: their descriptors and directories, the home controllers' decisions,
VLDV, VSTV, VQRY and VRELV, and what happens to a fabric message once it is performed or refused at
this package (R107 to R109, R215 to R221, R272, R281). -/

namespace Sys2Proof.Machine

/-! ## Fabric messages performed or refused here (R272, R280, R281) -/

/-- Target of a message as its sender names it (R272): a package, or 1,024 + Ethernet peer. -/
def msgTarget (m : FabricMsg) : Nat :=
  match m.eth with
  | some p => 1024 + p
  | none => m.tpkg

/-- Does a message come from this package? -/
def State.ownMsg (s : State) (m : FabricMsg) : Bool := m.spkg == s.pkg.toNat && m.eth == none

/-- Queue pair, or direct-put path 256 + core, of a cluster changed. -/
def State.modQp (s : State) (cl qp : Nat) (g : Qp → Qp) : State :=
  s.modCluster cl fun c => match tabFind c.qps qp with
    | some q => { c with qps := tabPut c.qps qp (g q) }
    | none => c

/-- The sender of this package learns that a message is no longer on its way: performed, or refused for good,
and then it never counts as performed (R281, R282, R351). -/
def State.msgOver (s : State) (m : FabricMsg) (performed : Bool) : State :=
  let s := s.modTeam m.team fun t => { t with posted := dropPosted m.ref (msgTarget m) t.posted }
  s.modQp m.scl m.qp fun q => { q with
    unperformed := if performed then q.unperformed - 1 else q.unperformed
    retry := q.retry.filter fun r => r.msg != m }

/-- A message of this package has been performed, or placed in a landing buffer (R272). -/
def State.msgLanded (s : State) (m : FabricMsg) : State := if s.ownMsg m then s.msgOver m true else s

/-- A queue pair whose target is lost (R289): every entry is refused, and STATE becomes 2. -/
def State.loseQp (s : State) (cl qp target : Nat) : State :=
  match tabFind (s.cluster cl).qps qp with
  | none => s.writeNat 0 (qpKey cl qp) 1 2
  | some q =>
    let s := q.entries.foldl (fun s e =>
      (s.recordRefusal e.team target cPeerLost).modTeam e.team fun t =>
        { t with posted := t.posted.filter fun p => p.1 != e.ref || e.ref == 0 || p.2.1 != target }) s
    (s.modQp cl qp fun q => { q with entries := [], out := [], retry := [], parked := false, replay := false }).writeNat
      0 (qpKey cl qp) 1 2

/-- A message that the target's exports did not admit stops its queue pair (R300; log 107): STATE 2, and no more of
its entry is sent. -/
def State.stopQp (s : State) (m : FabricMsg) : State :=
  let s := s.setQpState m.scl m.qp 2
  match (s.qp m.scl m.qp).entries.find? fun e => e.ref == m.ref with
  | some e => s.dropEntry m.scl m.qp e (msgTarget m)
  | none => s

/-- A refusal for good reaches the sender of this package (R272, R280): its code is recorded, and the queue pair
stays open, but for PEER_LOST (R289) and for a message that the exports did not admit (R300). -/
def State.sendRefused (s : State) (m : FabricMsg) (code : Nat) : State :=
  let s := (s.msgOver m false).recordRefusal m.team (msgTarget m) (code % 256)
  if m.fput then s
  else if code = cPeerLost then s.loseQp m.scl m.qp (msgTarget m)
  else if code = cExport then s.stopQp m
  else s

/-- The path a message came by: its sender, cluster and queue pair. -/
def msgPath (m : FabricMsg) : Nat :=
  (match m.eth with
    | some p => 1024 + p
    | none => m.spkg) * 2 ^ 20 + m.scl * 512 + m.qp

/-- The semaphore of an entry's last message added to, unless a message of the entry was refused (R281).
An overflow is reported against the team that posted it, where that team is of this package (R264). -/
def State.addRsem (s : State) (m : FabricMsg) (path ref : Nat) : State :=
  match m.rsem with
  | none => s
  | some n =>
    if tabFind s.refusedRefs path = some ref then s
    else s.fabricAdd m.tctx n (if s.ownMsg m then m.team else 0) (8 * m.scl) 0 0

/-- A message performed here: its semaphore is added to, and its sender is told (R281). -/
def State.msgDone (s : State) (m : FabricMsg) : State :=
  let s := s.addRsem m (msgPath m) m.ref
  let s := s.msgLanded m
  if s.ownMsg m then s else { s with outbox := s.outbox ++ [.performed m.spkg m] }

/-- A message refused here: nothing of it is placed, and its code returns to the sender (R280). -/
def State.msgRefused (s : State) (m : FabricMsg) (code : Nat) : State :=
  let s := { s with refusedRefs := tabPut s.refusedRefs (msgPath m) m.ref }
  if s.ownMsg m then s.sendRefused m code
  else { s with outbox := s.outbox ++ [.refusal m.spkg m code] }

/-! ## Granules (R107, R108) -/

/-- LATEST of a granule (R108). -/
def State.latest (s : State) (ctx : Nat) (r : Region) (g : Nat) : Nat :=
  s.readNat (s.ctxKey ctx) (gpaKey (r.dir + 16 * g)) 4

/-- Key of the slot of a version (R108). -/
def Region.slot (r : Region) (g v : Nat) : Nat := gpaKey (r.ring + (g * r.k + v % r.k) * 128)

/-- The 128 bytes of a version. -/
def State.slotRow (s : State) (ctx : Nat) (r : Region) (g v : Nat) : Row :=
  BitVec.ofNat 1024 (s.readNat (s.ctxKey ctx) (r.slot g v) 128)

/-- The region and granule that an address names for a context (R101, R107), or the fault; an address
outside its region's granules names none (DEDUCED, log 24). -/
def State.granule (s : State) (w : Who) (va : W64) (write : Bool) : Except Nat (Nat × Region × Nat) :=
  match s.xlate w va 128 .versioned write with
  | .ver n =>
    (match s.region w.ctx n with
    | none => .error cVersionRegion
    | some r =>
      if va.toNat < r.base ∨ r.base + 128 * r.size ≤ va.toNat then .error cVersionRegion
      else if (s.die r.home).lost then .error cPeerLost
      else if !s.worldOk (dieOf w.core) r.home then .error cAccessDenied
      else .ok (n, r, (va.toNat - r.base) / 128))
  | .bad c => .error c
  | _ => .error cVersionRegion

/-! ## The controller's decisions (R109) -/

/-- A read of version `v` of a granule. -/
def State.readVersion (s : State) (ctx n : Nat) (r : Region) (g v : Nat) : VGot :=
  let l := s.latest ctx r g
  if v = 0xFFFFFFFF then .fault cVersionWrap
  else if 2 ^ 32 ≤ v then .fault cVersionFar
  else if v ≤ l then
    if l < v + r.k then .data (s.slotRow ctx r g v) else .fault cVersionGone
  else if v ≤ l + r.w then .wait n g
  else .fault cVersionFar

/-- A waiter on a version that has been made (R109, R255): a continuation is ready with status 0, a CPYV chunk reads
again. -/
def State.versionMade (s : State) : Waiter → State
  | .task t r _ => s.wakeRec t r 0
  | .cmd c i =>
    let free := fun (q : Cmd) => if q.id = i then { q with held := false } else q
    let s := s.modCore c fun k => { k with cmds := k.cmds.map free }
    { s with images := s.images.map fun m => { m with cmds := m.cmds.map free } }

/-- Is version `v` what a waiter of a granule waits for?  A CPYV chunk looks again at any. -/
def Waiter.wants (v : Nat) : Waiter → Bool
  | .task _ _ m => m == v
  | .cmd _ _ => true

/-- Waiters on version `v` of a granule woken in park order (R109). -/
def State.wakeVer (s : State) (ctx n g v : Nat) : State :=
  let l : List Waiter := tabGet [] s.verChains (verKey ctx n g)
  let s := if l.any (Waiter.wants v) then s.setVerChain (verKey ctx n g) (l.filter fun w => !w.wants v) else s
  (l.filter (Waiter.wants v)).foldl State.versionMade s

/-- Version `v` of a run of granules created (R109, R218). -/
def State.makeVersions (s : State) (ctx n : Nat) (r : Region) (v : Nat) : Nat → List Row → State
  | _, [] => s
  | g, row :: rows =>
    let mk := s.ctxKey ctx
    let s := (s.agentNat mk (r.slot g v) 128 row.toNat).agentNat mk (gpaKey (r.dir + 16 * g)) 4 v
    (s.wakeVer ctx n g v).makeVersions ctx n r v (g + 1) rows

/-- What a create comes to (R109, R218). -/
inductive Create where
  | made (s : State)
  | dropped (s : State)
  | park
  /-- A code, and the granule's number in the request. -/
  | fault (code k : Nat)

/-- The first granule of a request whose version `v` is not the next. -/
def State.wrongOrder (s : State) (ctx : Nat) (r : Region) (g v : Nat) : Nat → Option Nat
  | 0 => none
  | m + 1 =>
    match s.wrongOrder ctx r g v m with
    | some k => some k
    | none => if v = s.latest ctx r (g + m) + 1 then none else some m

/-- The decision on a create of `rows` from granule `g` up (R109, R218, R282). -/
def State.create (s : State) (ctx n : Nat) (r : Region) (g v : Nat) (rows : List Row) (fabric : Bool) :
    Create :=
  if v = 0xFFFFFFFF ∧ !fabric then .fault cVersionWrap 0
  else match s.wrongOrder ctx r g v rows.length with
    | some k =>
      if fabric ∧ ((List.range rows.length).all fun j => decide (v ≤ s.latest ctx r (g + j))) then
        .dropped (s.agentNat 0 (r.addr + 40) 8 (s.readNat 0 (r.addr + 40) 8 + 1))
      else .fault cVersionOrder k
    | none => if r.floor + r.k ≤ v then .park else .made (s.makeVersions ctx n r v g rows)

/-! ## Creates held on the floor (R109, R218, R219) -/

/-- A create appended to its region's PWAIT chain. -/
def State.parkCreate (s : State) (id : Nat) (q : VReq) (n g : Nat) : State :=
  let s := s.setPwait q.ctx n (tabGet [] s.pwait (q.ctx * 256 + n) ++ [id])
  { s with vreqs := tabPut s.vreqs id { q with held := true, region := n, granule := g } }

/-- Does the task of a team wait for this answer? -/
def State.awaits (s : State) (team id : Nat) : Bool :=
  match (tabFind s.teams team).bind (·.task) with
  | some k => k.hold == .answer id
  | none => false

/-- A request answered: code 0 where it is done, and the fault address. -/
def State.answer (s : State) (id : Nat) (q : VReq) (code : Nat) (addr : W64) : State :=
  match q.src with
  | .task team core =>
    let s := s.modCore core fun k => { k with
      loads := k.loads.filter fun a => a.id != id
      stores := k.stores.filter fun a => a.id != id }
    let s := s.loadsLeave core team
    if s.awaits team id then
      { s with vreqs := tabPut s.vreqs id { q with held := false, answer := some (code, addr) } }
    else { s with vreqs := tabDel s.vreqs id }
  | .copy core c =>
    if (s.cmd core c).isSome || s.images.any fun m => m.cmds.any fun d => d.id == c then
      { s with vreqs := tabPut s.vreqs id { q with held := false, answer := some (code, addr) } }
    else { s with vreqs := tabDel s.vreqs id }
  | .fabric _ =>
    let s := { s with vreqs := tabDel s.vreqs id }
    match q.msg with
    | some m => if code = 0 then s.msgDone m else s.msgRefused m code
    | none => s
  | .landing path ref =>
    let s := { s with vreqs := tabDel s.vreqs id }
    if code = 0 then match q.msg with
      | some m => s.addRsem m path ref
      | none => s
    else { s with refusedRefs := tabPut s.refusedRefs path ref }

/-- A held create let go and decided again; `false` where the floor still holds it. -/
def State.recheck (s : State) (id : Nat) : State × Bool :=
  match tabFind s.vreqs id with
  | none => (s, true)
  | some q =>
    match s.region q.ctx q.region with
    | none => (s, false)
    | some r =>
      match s.create q.ctx q.region r q.granule q.ver.toNat q.rows q.msg.isSome with
      | .made s => (s.answer id q 0 0, true)
      | .dropped s => (s.answer id q 0 0, true)
      | .park => (s, false)
      | .fault c k => (s.answer id q c (q.va + w64 (128 * k)), true)

/-- Held creates of a region let go one at a time in PWAIT order. -/
def State.letGo (s : State) (ctx n : Nat) : List Nat → State
  | [] => s
  | id :: ids =>
    let (s, gone) := s.recheck id
    let s := if gone then
      s.setPwait ctx n ((tabGet [] s.pwait (ctx * 256 + n)).filter fun i => i != id) else s
    s.letGo ctx n ids

/-- A release to `f` (R109): the floor only rises. -/
def State.releaseFloor (s : State) (ctx n : Nat) (r : Region) (f : Nat) : State :=
  if f ≤ r.floor then s
  else (s.agentNat 0 (r.addr + 20) 4 f).letGo ctx n (tabGet [] s.pwait (ctx * 256 + n))

/-! ## The instructions (R215 to R221) -/

/-- Address of format VV (R137). -/
def FVV.addr (f : FVV) (t : Task) : W64 := t.getX f.xa + (sx f.disp <<< 7)

/-- A version request as its instruction leaves it. -/
def newVReq (e : Env) (op : VOp) (va : W64) (count : Nat) (ver : W64) (rows : List Row)
    (dst : List Nat) (xm : W64) (scope id : Nat) : VReq where
  op := op; src := .task e.uid e.core; ctx := e.team.ctx; pc := e.task.pc; va := va; count := count
  ver := ver; rows := rows; got := []; dst := dst; xm := xm; scope := scope; seq := id; held := false
  answer := none; msg := none; region := 0; granule := 0

/-- Steps 1 and 2 of R205 for the first granule, before a request leaves. -/
def State.granuleBad (s : State) (w : Who) (va : W64) (write : Bool) : Option Nat :=
  match s.check w (decide (va.toNat % 128 = 0)) va 128 .versioned write with
  | .bad c => if c = cRange ∨ c = cAlign then some c else none
  | _ => none

/-- A VLDV or VSTV issued: the request is on its way, the registers that it fills are empty (R84), and the task is
held for the answer (R216). -/
def versionAct (e : Env) (op : VOp) (va : W64) (m : Nat) (mk : Nat → VReq) (blocked : Bool) (fills : List Nat)
    (s : State) : Act :=
  let store := op == .create
  if blocked || !s.memClear e || !s.room e.core store 1 || s.sbHit e va.toNat (128 * m) then .hold
  else match s.granuleBad e.who va store with
    | some c => .fault ⟨c, va, store, false, false⟩
    | none =>
      let (id, s) := s.fresh
      let s := s.enter e store ⟨.ver, 1, [], .none, none, false, false⟩ id []
      let s := { s with vreqs := tabPut s.vreqs id (mk id) }
      .done (s.commit e { (e.task.advance 8).emptyDst (.v fills []) with hold := .answer id })

/-- Row keys of the first `m` rows of a group (R215). -/
def Task.groupKeys (t : Task) (vd m : Nat) : List Nat := (List.range m).map fun k => t.lineKey vd k

/-- VLDV (R215 to R217): held too for the registers of the live mask and the record it may write. -/
def execVldv (f : FVV) (s : State) : Host.Outcome State Fault Refusal :=
  issue f.st.toNat 8 [.x f.xa f.fea, .x f.xb f.feb, .x f.xm f.fem] [.v f.vd.toNat f.g.toNat]
    (fun e s =>
      let m := f.g.toNat * e.task.rows.toNat
      let mask := e.task.getX f.xm
      versionAct e .read (FVV.addr f e.task) m
        (fun id => newVReq e .read (FVV.addr f e.task) m (e.task.getX f.xb) []
          (e.task.groupKeys f.vd.toNat m) mask f.scope.toNat id)
        (!e.task.liveFull mask || !s.poolRoom e.team.ctx mask)
        (e.task.physList f.vd.toNat f.g.toNat) s) s

/-- VSTV (R215, R216, R218): the rows are read at issue. -/
def execVstv (f : FVV) (s : State) : Host.Outcome State Fault Refusal :=
  issue f.st.toNat 8 [.x f.xa f.fea, .x f.xb f.feb, .v f.vd.toNat f.g.toNat false] []
    (fun e s =>
      let m := f.g.toNat * e.task.rows.toNat
      versionAct e .create (FVV.addr f e.task) m
        (fun id => newVReq e .create (FVV.addr f e.task) m (e.task.getX f.xb)
          ((e.task.groupKeys f.vd.toNat m).map fun k => tabGet 0 e.task.v k) [] 0 f.scope.toNat id)
        false [] s) s

/-- VQRY (R220). -/
def execVqry (f : FVV) (s : State) : Host.Outcome State Fault Refusal :=
  issue f.st.toNat 8 [.x f.xa f.fea] [.x f.xm]
    (fun e s =>
      let a := FVV.addr f e.task
      accessAct e 8 false
        { kind := .ver, entries := 1
          pieces := [{ newPiece 0 128 0 0 with va := a, aligned := decide (a.toNat % 128 = 0) }]
          dst := if f.xm = 0 then .none else .x f.xm.toNat 8 false
          rel := none, acq := false, inOrder := false } s) s

/-- VRELV (R221): the floor that XB[31:0] names. -/
def execVrelv (f : FVV) (s : State) : Host.Outcome State Fault Refusal :=
  issue f.st.toNat 8 [.x f.xa f.fea, .x f.xb f.feb] []
    (fun e s =>
      let a := FVV.addr f e.task
      accessAct e 8 true
        { kind := .ver, entries := 1
          pieces := [{ newPiece 0 128 ((e.task.getX f.xb) &&& 0xFFFFFFFF) 0 with
            va := a, aligned := decide (a.toNat % 128 = 0) }]
          dst := .none, rel := none, acq := false, inOrder := true } s) s

/-! ## The controllers' steps -/

/-- Who translates for a task's request. -/
def VReq.who (q : VReq) (team core : Nat) : Who := ⟨core, team, q.ctx⟩

/-- VA of granule `k` of a request. -/
def VReq.at (q : VReq) (k : Nat) : W64 := q.va + w64 (128 * k)

/-- The granules of a create, all in the region of the first (R218): region and first granule, or the
fault of the lowest granule. -/
def State.createSpan (s : State) (w : Who) (va : W64) :
    Nat → Except (Nat × W64) (Nat × Region × Nat)
  | 0 => match s.granule w va true with
    | .ok x => .ok x
    | .error c => .error (c, va)
  | k + 1 =>
    match s.createSpan w va k with
    | .error x => .error x
    | .ok x =>
      let a := va + w64 (128 * (k + 1))
      match s.granule w a true with
      | .error c => .error (c, a)
      | .ok y => if y.1 = x.1 then .ok x else .error (cVersionRegion, a)

/-- VC_CREATE (R218): a VSTV leaves as a release at its scope (R120), and the home controller takes it
whole; a fault of a granule's own address comes before that of a version above 32 bits (log 95). -/
def execVcCreate (id : Nat) (s : State) : Host.Outcome State Fault Refusal :=
  match tabFind s.vreqs id with
  | none => .next s
  | some q =>
    match q.src with
    | .task team core =>
      if q.op ≠ .create ∨ q.held ∨ q.answer.isSome ∨ !s.releaseReady core team id q.scope then .next s
      else
        let s := s.fillUnits (q.who team core) .versioned true (units q.va.toNat (128 * q.count))
        match s.createSpan (q.who team core) q.va (q.count - 1) with
        | .error (c, a) => .next (s.answer id q c a)
        | .ok (n, r, g) =>
          match s.create q.ctx n r g q.ver.toNat q.rows false with
          | .made s => .next (s.answer id q 0 0)
          | .dropped s => .next (s.answer id q 0 0)
          | .fault c k => .next (s.answer id q c (q.at k))
          | .park => .next ((s.modCore core fun k => { k with
              stores := k.stores.filter fun a => a.id != id }).parkCreate id q n g)
    | _ => .next s

/-- The answer that granule outcomes form (R217): the lowest fault, else a park, else the data. -/
def readAnswer (q : VReq) : Nat × W64 :=
  match q.got.findSome? fun e => match e.2 with
    | .fault c => some (c, q.at e.1)
    | _ => none with
  | some x => x
  | none => if q.got.any fun e => match e.2 with
      | .wait _ _ => true
      | _ => false then (0x1000, 0) else (0, 0)

/-- Have the older loads and stores of a team translated (R366)?  A VLDV may end its task, and a fault of theirs must
find it (R34). -/
def State.olderPlaced (s : State) (core team id : Nat) : Bool :=
  let k := s.core core
  (k.loads ++ k.stores).all fun a => a.team != team || a.cmd != 0 || id ≤ a.id || !a.xlate ||
    a.kind == .prefetch

/-- Have the older VQRYs of a team taken their values (R116)? -/
def State.queriesTaken (s : State) (core team id : Nat) : Bool :=
  (s.core core).loads.all fun a => a.team != team || a.kind != .ver || id ≤ a.id || a.pieces.all fun p => p.stage == 4

/-- VC_READ (R217): one granule's outcome, taken in one step; the order of the faults of a version above
32 bits is log 95's. -/
def execVcRead (id k : Nat) (s : State) : Host.Outcome State Fault Refusal :=
  match tabFind s.vreqs id with
  | none => .next s
  | some q =>
    match q.src with
    | .task team core =>
      if q.op ≠ .read ∨ q.answer.isSome ∨ q.count ≤ k ∨ (tabFind q.got k).isSome ∨
          !s.olderPlaced core team id || !s.queriesTaken core team id then .next s
      else
        let s := s.fillMiss (q.who team core) .versioned false (q.at k).toNat
        let out : VGot := match s.granule (q.who team core) (q.at k) false with
          | .error c => .fault c
          | .ok (n, r, g) => s.readVersion q.ctx n r g q.ver.toNat
        let q := { q with got := tabPut q.got k out }
        if q.got.length < q.count then .next { s with vreqs := tabPut s.vreqs id q }
        else
          let a := readAnswer q
          .next (s.answer id q a.1 a.2)
    | _ => .next s

/-- The core and queue entry of a VQRY or VRELV on its way. -/
def State.verAccess (s : State) (id : Nat) (store : Bool) : Option (Nat × Access × Piece) :=
  s.cores.findSome? fun c =>
    ((if store then c.2.stores else c.2.loads).find? fun a => a.id == id && a.kind == .ver).bind
      fun a => a.pieces.head?.map fun p => (c.1, a, p)

/-- VC_QUERY (R220): FLOOR and LATEST, once older loads of the place have taken their values; the entry leaves its
queue in its turn (R116). -/
def execVcQuery (id : Nat) (s : State) : Host.Outcome State Fault Refusal :=
  match s.verAccess id false with
  | none => .next s
  | some (core, a, p) =>
    if p.loc.isNone || p.stage == 4 ||
        !((olderOf (s.core core).loads a).all fun b => b.kind == .prefetch ||
          (!b.xlate && b.pieces.all fun q => q.stage == 4 || !q.samePoint p)) then .next s
    else match s.granule ⟨core, a.team, a.ctx⟩ p.va false with
      | .error c => .next (s.faultAccess core a p.va.toNat c)
      | .ok (_, r, g) =>
        let v := r.floor * 2 ^ 32 + s.latest a.ctx r g
        let a := { a with pieces := [{ p with data := BitVec.ofNat 64 v, stage := 4 }] }
        .next ((s.modCore core fun k => { k with loads := putAccess k.loads a }).loadsLeave core a.team)

/-- VC_RELEASE (R109, R221): a VRELV leaves in program order among its task's stores. -/
def execVcRelease (id : Nat) (s : State) : Host.Outcome State Fault Refusal :=
  match s.verAccess id true with
  | none => .next s
  | some (core, a, p) =>
    if p.loc.isNone || !((olderOf (s.core core).stores a).all fun b => !b.xlate &&
        b.pieces.all fun q => decide (1 ≤ q.stage)) then .next s
    else match s.granule ⟨core, a.team, a.ctx⟩ p.va false with
      | .error c => .next (s.faultAccess core a p.va.toNat c)
      | .ok (n, r, _) =>
        let s := s.modCore core fun k => { k with stores := k.stores.filter fun b => b.id != id }
        .next (s.releaseFloor a.ctx n r p.data.toNat)

/-! ## The answer -/

/-- The rows that a VLDV's granules bring, and its group full again (R84, R217). -/
def Task.takeRows (t : Task) : List Nat → Tab VGot → Task
  | d :: ds, (_, .data r) :: gs =>
    { t with v := tabSet 0 t.v d r, vEmpty := clearBit t.vEmpty (d / 16) }.takeRows ds gs
  | _, _ => t

/-- The lowest granule whose version is not yet created: its number in the request, region and
granule. -/
def firstWait (q : VReq) : Option (Nat × Nat × Nat) :=
  q.got.findSome? fun e => match e.2 with
    | .wait n g => some (e.1, n, g)
    | _ => none

/-- A VLDV parks (R31, R217): the task ends and leaves a continuation of KIND 3 at the VLDV, which is
ready at once if the version has been created meanwhile, or, with PEER_LOST, if the region's home die has been
lost (R44). -/
def State.parkRead (s : State) (e : Env) (q : VReq) : State :=
  match firstWait q with
  | none => s
  | some (k, n, g) =>
    let (id, s) := s.fresh
    let r := { e.record id q.pc q.xm 3 0 with
      obj := q.at k, arg := q.ver, scope := q.scope, since := (s.die e.die).gnomon.toNat }
    let s := s.leaveRec e 8 r
    let (there, lost) := match s.region q.ctx n with
      | some r => (decide (q.ver.toNat ≤ s.latest q.ctx r g), (s.die r.home).lost)
      | none => (false, false)
    if lost then s.wakeRec e.uid id cPeerLost
    else if there then s.wakeRec e.uid id 0
    else
      let key := verKey q.ctx n g
      s.setVerChain key (tabGet [] s.verChains key ++ [.task e.uid id q.ver.toNat])

/-- Has a core a context's image saved? -/
def State.saved (s : State) (core ctx : Nat) : Bool := s.images.any fun m => m.core == core && m.ctx == ctx

/-- VERSION_ANSWER_ARRIVAL (R216 to R219): the answer reaches the task that is held for it, when its context is
active on its core and its image is not the one that counts. -/
def execVersionAnswerArrival (team : Nat) (s : State) : Host.Outcome State Fault Refusal :=
  match tabFind s.teams team with
  | none => .next s
  | some t =>
    match t.task, t.core with
    | some k, some core =>
      (match k.hold with
      | .answer id =>
        (match tabFind s.vreqs id with
        | none => .next s
        | some q =>
          match q.answer with
          | none => .next s
          | some (code, addr) =>
            let gone := { s with vreqs := tabDel s.vreqs id }
            if (t.ctx ≠ 0 ∧ (s.core core).activeCtx ≠ some t.ctx) ∨ s.saved core t.ctx then .next s
            else if code = 0x1000 then .next (gone.parkRead ⟨team, t, k, core⟩ q)
            else if code = 0 then
              let k := if q.op = .read then k.takeRows q.dst q.got else k
              .next (gone.setTask team { k with hold := .free, held := false })
            else orStay s (gone.takeFault team q.pc ⟨code, addr, q.op == .create, false, false⟩ gone.nextId))
      | _ => .next s)
    | _, _ => .next s

end Sys2Proof.Machine
end

