-- ==== Sys2Proof/Machine/Copy.lean ====
section
/-! DEFINITION. The copy engine: CPY, CPYV, CPYS, ACW and ACW.arrive, their chunks and elements, and the
retry of parked commands (R251 to R260, R267, R368). -/

namespace Sys2Proof.Machine

/-! ## Issue -/

/-- Channel of a copy command (R249). -/
def FE3.channel (f : FE3) : Queue := .copy (f.imm.toNat % 4)

/-- Do two ranges of one address form overlap (R254)? -/
def rangesOverlap (a b : W64) (n : Nat) : Bool :=
  addrForm a.toNat == addrForm b.toNat && decide (a.toNat < b.toNat + n) && decide (b.toNat < a.toNat + n)

/-- The three register operands of format E3. -/
def FE3.vals (f : FE3) (t : Task) : W64 × W64 × W64 := (t.getX f.e.xa, t.getX f.xb, t.getX f.xc)

/-- CPY (R250, R254). -/
def execCpy (f : FE3) (s : State) : Host.Outcome State Fault Refusal :=
  issue f.e.st.toNat 12 [FE3.srcA f, FE3.srcB f, FE3.srcC f] []
    (fun e s =>
      let (a, b, c) := FE3.vals f e.task
      let n := c.toNat
      let bad := firstBad [(s.formBad e a n, cRange, a), (s.formBad e b n, cRange, b),
        (rangesOverlap a b n || decide (2 ^ 32 < n), cShape, 0)]
      cmdAct e 12 (.cpy f) f.e (FE3.channel f) (a, b, c) true bad false [(a, n), (b, n)] (fun t => t)
        (fun c => c) s) s

/-- CPYV (R250, R255). -/
def execCpyv (f : FE3) (s : State) : Host.Outcome State Fault Refusal :=
  issue f.e.st.toNat 12 [FE3.srcA f, FE3.srcB f, FE3.srcC f] []
    (fun e s =>
      let (a, b, c) := FE3.vals f e.task
      let n := 128 * (c.toNat / 2 ^ 32 % 2 ^ 16 + 1)
      let bad := firstBad [(s.formBad e a n, cRange, a), (s.formBad e b n, cRange, b),
        (decide (a.toNat % 128 ≠ 0), cAlign, a), (decide (b.toNat % 128 ≠ 0), cAlign, b),
        (decide (2 ^ 48 ≤ c.toNat), cShape, 0)]
      cmdAct e 12 (.cpyv f) f.e (FE3.channel f) (a, b, c) true bad false [(a, n), (b, n)] (fun t => t)
        (fun c => c) s) s

/-- CPYS (R250, R256). -/
def execCpys (f : FE3) (s : State) : Host.Outcome State Fault Refusal :=
  issue f.e.st.toNat 12 [FE3.srcA f, FE3.srcB f, FE3.srcC f] []
    (fun e s =>
      let (a, b, c) := FE3.vals f e.task
      let n := c.toNat
      let bad := firstBad [(s.formBad e a n, cRange, a), (s.formBad e b n, cRange, b),
        (decide (a.toNat % 4096 ≠ 0), cAlign, a), (decide (b.toNat % 4096 ≠ 0), cAlign, b),
        (decide (n % 4096 ≠ 0), cAlign, 0), (decide (2 ^ 32 < n), cShape, 0)]
      cmdAct e 12 (.cpys f) f.e (FE3.channel f) (a, b, c) true bad false [(a, n), (b, n)] (fun t => t)
        (fun c => c) s) s

/-! ## Chunks of CPY, CPYV and CPYS -/

/-- A fault found in a chunk (R252): a page that is not present parks the command at its MPC, any other
fault is a command fault that takes the team's later copy commands with it. -/
def State.chunkFault (s : State) (c : Cmd) (va code : Nat) (write : Bool := false) :
    Host.Outcome State Fault Refusal :=
  orStay s (if parks code then s.parkCmd c code (w64 va) 2
    else s.cmdFault c code (w64 va) 2 (fun d => d.queue.isCopy) write)

/-- A chunk is finished; after the last one the command is complete. -/
def State.chunkDone (s : State) (c : Cmd) (chunks : Nat) : State :=
  if c.chunk + 1 < chunks then
    s.setCmd { c with started := true, chunk := c.chunk + 1, held := false }
  else s.finishCmd c

/-- Where the tag of a sealed chunk lies (R98, R103): its key by the chunk's address and place. -/
def State.tagKey (s : State) (w : Who) (va : Nat) (loc : Loc) : Nat :=
  if 2 ^ 54 ≤ va then
    let cl := va / 2 ^ 24 % 64
    let (base, size, sealOff) := s.csmAllot w cl
    csmKey (cl / 16) (cl % 16)
      (base + (size - (size - sealOff) / 256) + 16 * ((va % 2 ^ 24 - sealOff) / 4096))
  else match loc with
    | .mem k =>
      let die := k / 2 ^ 46
      let loc := k % 2 ^ 46
      physKey die ((s.die die).tagbase.toNat + 256 * frameIndex loc + 16 * (loc % 65536 / 4096))
    | _ => 0

/-- Does the read of a sealed chunk's tag wait behind an accepted write of it (R114, R256)? -/
def State.tagBlocked (s : State) (c : Cmd) (rd : List Span) : Bool :=
  match rd with
  | [] => false
  | r :: _ => s.readBlocked c.core (.mem (s.tagKey c.who r.va r.loc)) 16

/-- A chunk that only moves bytes: reads, then writes (R252, R254; the source is checked first,
DESIGN CHOICE, log 25). -/
def State.moveChunk (s : State) (c : Cmd) (p : Path) (src dst len chunks : Nat)
    (tags : List Span → List Span → State → State) : Host.Outcome State Fault Refusal :=
  let s := (s.fillUnits c.who p false (units src len)).fillUnits c.who p true (units dst len)
  match s.spans c.who p false (units src len), s.spans c.who p true (units dst len) with
  | .error (va, code), _ => s.chunkFault c va code
  | _, .error (va, code) => s.chunkFault c va code true
  | .ok rd, .ok wr =>
    if s.spansBlocked c.core rd || (p == .sealed && s.tagBlocked c rd) then .next s
    else match s.spansRefused rd false with
      | some va => s.chunkFault c va cAccessDenied
      | none => .next ((tags rd wr (s.engineWrite c wr (s.readSpans rd))).chunkDone c chunks)

/-- Bytes of chunk `k` of `n` bytes. -/
def chunkLen (n k : Nat) : Nat := min 4096 (n - 4096 * k)

/-- The tag of a chunk moved from its source's to its destination's tag location (R256). -/
def State.moveTag (s : State) (c : Cmd) (rd wr : List Span) : State :=
  match rd, wr with
  | r :: _, d :: _ =>
    let tag := s.readBytes 0 (s.tagKey c.who r.va r.loc) 16
    let k := s.tagKey c.who d.va d.loc
    s.engineWrite c [⟨d.va, 8, .mem k, 0⟩, ⟨d.va, 8, .mem (k + 8), 0⟩] tag
  | _, _ => s

/-- Outcomes of a chunk's version reads, in granule order. -/
def State.readGranules (s : State) (c : Cmd) (va v : Nat) : Nat → List VGot
  | 0 => []
  | m + 1 => s.readGranules c va v m ++
      [match s.granule c.who (w64 (va + 128 * m)) false with
        | .error e => .fault e
        | .ok (n, r, g) => s.readVersion c.ctx n r g v]

/-- The lowest fault of granule outcomes, or the lowest granule not yet created. -/
def gotFault (l : List VGot) : Option (Nat × Nat) :=
  l.zipIdx.findSome? fun e => match e.1 with
    | .fault c => some (e.2, c)
    | _ => none

def gotWait (l : List VGot) : Option (Nat × Nat) :=
  l.findSome? fun e => match e with
    | .wait n g => some (n, g)
    | _ => none

/-- The bytes of versions read. -/
def gotBytes (l : List VGot) : List (BitVec 8) :=
  (l.map fun e => match e with
    | .data r => leBytes 128 r.toNat
    | _ => []).flatten

/-- A chunk of a CPYV read (R255). -/
def State.versionRead (s : State) (c : Cmd) (m k : Nat) : Host.Outcome State Fault Refusal :=
  let cnt := min 32 (m - 32 * k)
  let src := c.xb.toNat + 4096 * k
  let s := (s.fillUnits c.who .versioned false (units src (128 * cnt))).fillUnits c.who .plain true
    (units (c.xa.toNat + 4096 * k) (128 * cnt))
  let got := s.readGranules c src (c.xc.toNat % 2 ^ 32) cnt
  match gotFault got with
  | some (j, code) => s.chunkFault c (src + 128 * j) code
  | none =>
    match s.spans c.who .plain true (units (c.xa.toNat + 4096 * k) (128 * cnt)) with
    | .error (va, code) => s.chunkFault c va code true
    | .ok wr =>
      match gotWait got with
      | some (n, g) =>
        let s := s.setCmd { c with started := true, held := true }
        let key := verKey c.ctx n g
        .next (s.setVerChain key (tabGet [] s.verChains key ++ [.cmd c.core c.id]))
      | none => .next ((s.engineWrite c wr (gotBytes got) 16).chunkDone c ((m + 31) / 32))

/-- Rows of 128 bytes. -/
def rowsOf (bs : List (BitVec 8)) : Nat → List Row
  | 0 => []
  | m + 1 => BitVec.ofNat 1024 (leNat (bs.take 128)) :: rowsOf (bs.drop 128) m

/-- The answer of a create of a command held on PWAIT. -/
def State.copyAnswer (s : State) (c : Cmd) : Option (Nat × Nat × W64) :=
  s.vreqs.findSome? fun e =>
    if e.2.src = .copy c.core c.id then e.2.answer.map fun a => (e.1, a) else none

/-- A chunk of a CPYV create (R218, R219, R255): one operation of the home controller, or held on PWAIT. -/
def State.versionCreate (s : State) (c : Cmd) (m k : Nat) : Host.Outcome State Fault Refusal :=
  let cnt := min 32 (m - 32 * k)
  let dst := c.xa.toNat + 4096 * k
  let s := (s.fillUnits c.who .plain false (units (c.xb.toNat + 4096 * k) (128 * cnt))).fillUnits c.who .versioned
    true (units dst (128 * cnt))
  match s.spans c.who .plain false (units (c.xb.toNat + 4096 * k) (128 * cnt)),
      s.createSpan c.who (w64 dst) (cnt - 1) with
  | .error (va, code), _ => s.chunkFault c va code
  | _, .error (code, va) => s.chunkFault c va.toNat code true
  | .ok rd, .ok (n, r, g) =>
    if c.vals.any fun v => v != w64 n then s.chunkFault c dst cVersionRegion true
    else if s.spansBlocked c.core rd then .next s
    else match s.spansRefused rd false with
      | some va => s.chunkFault c va cAccessDenied
      | none =>
        let c := { c with vals := [w64 n], started := true }
        let rows := rowsOf (s.readSpans rd) cnt
        let v := c.xc.toNat % 2 ^ 32
        match s.create c.ctx n r g v rows false with
        | .made s => .next (s.chunkDone c ((m + 31) / 32))
        | .dropped s => .next (s.chunkDone c ((m + 31) / 32))
        | .fault code j => s.chunkFault c (dst + 128 * j) code true
        | .park =>
          let (id, s) := s.fresh
          .next ((s.setCmd { c with held := true }).parkCreate id
            { op := .create, src := .copy c.core c.id, ctx := c.ctx, pc := c.pc, va := w64 dst
              count := cnt, ver := w64 v, rows := rows, got := [], dst := [], xm := 0
              scope := c.scope, seq := id, held := true, answer := none, msg := none, region := n
              granule := g } n g)

/-- A CPYV chunk, or the answer that a held one waits for. -/
def State.versionChunk (s : State) (c : Cmd) (cr : Bool) : Host.Outcome State Fault Refusal :=
  let m := c.xc.toNat / 2 ^ 32 % 2 ^ 16 + 1
  if c.held then
    match s.copyAnswer c with
    | none => .next s
    | some (id, code, va) =>
      let s := { s with vreqs := tabDel s.vreqs id }
      if code = 0 then .next (s.chunkDone c ((m + 31) / 32)) else s.chunkFault c va.toNat code true
  else if cr then s.versionCreate c m c.chunk else s.versionRead c m c.chunk

/-- COPY_CHUNK (R252 to R256): the next chunk of a copy command. -/
def execCopyChunk (core id : Nat) (s : State) : Host.Outcome State Fault Refusal :=
  match s.cmd core id with
  | none => .next s
  | some c =>
    if !s.cmdRuns c then .next s
    else
      let n := c.xc.toNat
      let k := c.chunk
      match c.instr with
      | .cpy _ =>
        if n = 0 then .next (s.finishCmd c)
        else s.moveChunk c .plain (c.xb.toNat + 4096 * k) (c.xa.toNat + 4096 * k) (chunkLen n k)
          ((n + 4095) / 4096) fun _ _ s => s
      | .cpys _ =>
        if n = 0 then .next (s.finishCmd c)
        else s.moveChunk c .sealed (c.xb.toNat + 4096 * k) (c.xa.toNat + 4096 * k) 4096 (n / 4096)
          fun rd wr s => s.moveTag c rd wr
      | .cpyv f => s.versionChunk c (f.imm.getLsbD 2)
      | _ => .next s

/-- PARKED_RETRY (R326, R368): a parked command, or the parked entry of the queue pair numbered
id − 2^40 as cluster × 512 + queue pair, that a REPLAY or a restore has reached tries again. -/
def execParkedRetry (id : Nat) (s : State) : Host.Outcome State Fault Refusal :=
  if 2 ^ 40 ≤ id then
    .next (s.modQp ((id - 2 ^ 40) / 512) (id % 512) fun q =>
      if q.parked && q.replay then { q with parked := false, replay := false } else q)
  else
    .next { s with cores := s.cores.map fun k => (k.1, { k.2 with
      cmds := k.2.cmds.map fun c =>
        if c.id = id ∧ c.parked = true ∧ c.retry = true then { c with parked := false, retry := false } else c }) }

/-! ## ACW (R257 to R260) -/

/-- Element size of a TY code. -/
def acwWidth (ty : Nat) : Nat := if ty = 2 ∨ ty = 3 then 8 else if ty = 5 then 2 else 4

/-- The new value of an element (R259). -/
def acwOp (op ty old b ret : Nat) : Nat :=
  let w := acwWidth ty
  let sgn := ty == 0 || ty == 2
  let less := fun x y => decide (intOf (8 * w) sgn x < intOf (8 * w) sgn y)
  match op with
  | 0 => (old + b) % 2 ^ (8 * w)
  | 1 =>
    let f := if ty = 4 then fp32 else bf16
    (f.encode .rne false (FVal.add .rne (f.decode false old) (f.decode false b)).1).1
  | 2 => if less b old then b else old
  | 3 => if less old b then b else old
  | 4 => old &&& b
  | 5 => old ||| b
  | 6 => old ^^^ b
  | 7 => b
  | _ => if old = ret then b else old

/-- ACW (R250, R257, R258). -/
def execAcw (f : FE3) (s : State) : Host.Outcome State Fault Refusal :=
  issue f.e.st.toNat 12 [FE3.srcA f, FE3.srcB f, FE3.srcC f] []
    (fun e s =>
      let (a, b, c) := FE3.vals f e.task
      let w := acwWidth (f.imm.toNat / 64 % 8)
      let n := w * (f.imm.toNat / 1024 + 1)
      let fetch := f.imm.getLsbD 9
      let bad := firstBad [(s.formBad e a n || addrForm a.toNat == 1, cRange, a),
        (fetch && s.formBad e c n, cRange, c), (decide (a.toNat % w ≠ 0), cAlign, a),
        (fetch && decide (c.toNat % w ≠ 0), cAlign, c)]
      cmdAct e 12 (.acw f) f.e (FE3.channel f) (a, b, c) true bad false
        ((a, n) :: if fetch then [(c, n)] else []) (fun t => t) (fun c => c) s) s

/-- The condition under which a releasing ACW's elements are sent (R260). -/
def State.acwReleased (s : State) (c : Cmd) (rel : Bool) : Bool :=
  !rel || (s.releaseReady c.core c.team c.id c.scope && s.depsWritten c.core c.deps c.scope)

/-- Elements of an array as ranges. -/
def elements (a : W64) (w : Nat) : Nat → List (Nat × Nat)
  | 0 => []
  | n + 1 => elements a w n ++ [((a + w64 (w * n)).toNat, w)]

/-- Translated units kept with their command. -/
def unitPieces (epoch : Nat) (l : List Span) : List Piece :=
  l.map fun u => { newPiece u.va u.len 0 0 with loc := some u.loc, mkey := u.mkey, epoch := epoch }

/-- Fault of an ACW's destination in host memory (R258). -/
def hostSpan (l : List Span) : Option Nat :=
  (l.find? fun u => match u.loc with
    | .host _ => true
    | _ => false).map (·.va)

/-- An ACW starts (R252, R258, R259): destination and return array are translated, and the comparands
of a cas are read. -/
def State.acwStart (s : State) (c : Cmd) (f : FE3) : Host.Outcome State Fault Refusal :=
  let w := acwWidth (f.imm.toNat / 64 % 8)
  let cnt := f.imm.toNat / 1024 + 1
  let fetch := f.imm.getLsbD 9
  let cas := f.imm.toNat / 4 % 16 == 8
  let s := (s.fillUnits c.who .plain true (elements c.xa w cnt)).fillUnits c.who .plain true
    (if fetch then elements c.xc w cnt else [])
  match s.spans c.who .plain true (elements c.xa w cnt),
      s.spans c.who .plain true (if fetch then elements c.xc w cnt else []) with
  | .error (va, code), _ => s.chunkFault c va code true
  | _, .error (va, code) => s.chunkFault c va code true
  | .ok dst, .ok ret =>
    match hostSpan dst with
    | some va => s.chunkFault c va cAccessDenied true
    | none =>
      if cas && s.spansBlocked c.core ret then .next s
      else
        let vals := if cas then ret.map fun u => w64 (leNat (s.readSpans [u])) else []
        let ep := s.epoch c.core
        .next (s.setCmd { c with
          started := true, vals := vals, units := unitPieces ep dst ++ unitPieces ep ret })

/-- The bytes at a place, without their granule's other data, as one element. -/
def State.elemAt (s : State) (p : Piece) : Nat :=
  match p.loc with
  | some l => leNat ((List.range p.len).map fun i => s.byteAt p.mkey i l)
  | none => 0

/-- An element on its way to another package, where its write is performed as a store's is (R120, R130): a
store of no bits of this side, accepted by the scale-up port. -/
def State.trackAtomic (s : State) (c : Cmd) (d : Piece) : State :=
  let (id, s) := s.fresh
  let a : Access :=
    { id := id, team := c.team, ctx := c.ctx, seq := c.seq, pc := c.pc, kind := .engine, entries := 0
      xlate := false, pieces := [{ d with stage := 3, in1 := id, in2 := id, in3 := id }]
      dst := .none, rel := none, acq := false, inOrder := false, grain := 1, cmd := c.id }
  s.modCore c.core fun k => { k with stores := k.stores ++ [a] }

/-- One element performed at its port, at a barrier object by its bank (R259, R266), or the code with which the memory
refuses it (R361, R391, R424). -/
def State.acwElem (s : State) (c : Cmd) (f : FE3) (d : Piece) : Except Nat (Nat × State) :=
  let op := f.imm.toNat / 4 % 16
  let ty := f.imm.toNat / 64 % 8
  let b := c.xb.toNat % 2 ^ (8 * d.len)
  let old := s.elemAt d
  let p := { d with
    data := BitVec.ofNat 64 (acwOp op ty old b ((c.vals.getD c.chunk 0).toNat))
    mask := BitVec.ofNat 64 (2 ^ (8 * d.len) - 1) }
  if d.loc.any s.locLost then .error cPeerLost
  else match d.loc with
  | some (.mem k) =>
    if s.refused d.mkey k true then .error cAccessDenied
    else .ok (old, if s.onBarrier p then s.storeObject k p else s.writePiece k d.mkey d.len p.data p.mask)
  | some (.remote pkg addr) =>
    .ok (old, (s.sendAccess pkg addr
      (.atomic c.id pkg addr op ty (f.imm.getLsbD 9) (w64 b) (c.vals.getD c.chunk 0))).trackAtomic c d)
  | _ => .ok (old, s)

/-- ACW_PORT_STEP (R252, R259, R260): the next element of an ACW, which is first translated whole. -/
def execAcwPortStep (core id : Nat) (s : State) : Host.Outcome State Fault Refusal :=
  match s.cmd core id with
  | none => .next s
  | some c =>
    match c.instr with
    | .acw f =>
      if !s.cmdRuns c || !s.acwReleased c (f.e.ord == 1) then .next s
      else if c.units.isEmpty then s.acwStart c f
      else
        let cnt := f.imm.toNat / 1024 + 1
        match c.units[c.chunk]? with
        | none => .next s
        | some d =>
          match d.loc with
          | none => .next s
          | some l =>
            if s.readBlocked core l d.len || !(s.locLost l || s.wayFree l) then .next s
            else match s.acwElem c f d with
              | .error code => s.chunkFault { c with chunk := 0 } d.va.toNat code true
              | .ok (old, s) =>
                let s := match c.units[cnt + c.chunk]? with
                  | some r => (match r.loc with
                    | some l => s.engineWrite c [⟨r.va.toNat, r.len, l, r.mkey⟩] (leBytes r.len old) 1 (some r.epoch)
                    | none => s)
                  | none => s
                .next (if c.chunk + 1 < cnt then s.setCmd { c with chunk := c.chunk + 1 } else s.finishCmd c)
    | _ => .next s

/-! ## ACW.arrive (R267) -/

/-- ACW.arrive (R250, R267): checks of the object, the status address and the count. -/
def execAcwArrive (f : FE3) (s : State) : Host.Outcome State Fault Refusal :=
  issue f.e.st.toNat 12 [FE3.srcA f, FE3.srcB f, FE3.srcC f] []
    (fun e s =>
      let (a, b, c) := FE3.vals f e.task
      let bad := firstBad [(s.objRange e.who a, cRange, a), (c != 0 && s.formBad e c 4, cRange, c),
        (decide (a.toNat % 16 ≠ 0), cAlign, a), (decide (c.toNat % 4 ≠ 0), cAlign, c),
        (b == 0 || decide (2 ^ 16 ≤ b.toNat), cShape, 0)]
      cmdAct e 12 (.acwArrive f) f.e (FE3.channel f) (a, b, c) true bad false [(a, 16)] (fun t => t)
        (fun c => c) s) s

/-- BARRIER_ARRIVE_STEP (R252, R260, R267): a release at its scope, then the bank's step and the status
word. -/
def execBarrierArriveStep (core id : Nat) (s : State) : Host.Outcome State Fault Refusal :=
  match s.cmd core id with
  | none => .next s
  | some c =>
    match c.instr with
    | .acwArrive _ =>
      if !s.cmdRuns c || !s.acwReleased c true then .next s
      else
        let s := s.fillUnits c.who .plain true (if c.xc = 0 then [] else [(c.xc.toNat, 4)])
        match s.objKey c.who c.xa, s.spans c.who .plain true (if c.xc = 0 then [] else [(c.xc.toNat, 4)]) with
        | .error code, _ => s.chunkFault c c.xa.toNat code
        | _, .error (va, code) => s.chunkFault c va code true
        | .ok k, .ok st =>
          if s.readBlocked core (.mem k) 16 then .next s
          else
            let (status, s) := s.arrive k c.xb.toNat
            .next ((s.engineWrite c st (leBytes 4 status)).finishCmd c)
    | _ => .next s

end Sys2Proof.Machine
end

