-- ==== Sys2Proof/Machine/Matrix.lean ====
section
/-! DEFINITION. Issue of the matrix instructions: tile ownership, the checks of R228, and the commands
they give to the core's matrix engine (R227 to R243, R319). -/

namespace Sys2Proof.Machine

/-! ## Tiles (R26, R80, R319) -/

/-- ACCOWN of a tile (R318). -/
def Core.owner (k : Core) (i : Nat) : BitVec 16 := tabGet 0 k.accown i

/-- Is a tile held by a context? -/
def ownedBy (w : BitVec 16) (ctx : Nat) : Bool := w.getLsbD 15 && w.toNat % 4096 == ctx

/-- ACCOWN of a tile that a context holds. -/
def ownWord (ctx : Nat) : BitVec 16 := BitVec.ofNat 16 (2 ^ 15 + ctx % 4096)

/-- Rows `from` up of a tile written as zero. -/
def Core.zeroRows (k : Core) (tile first : Nat) : Nat → Core
  | 0 => k
  | n + 1 => ({ k with acc := tabSet 0 k.acc (tile * 128 + (first + n) % 128) 0 }).zeroRows tile first n

/-- Use of a logical tile (R26, R319): the physical tile, and the state in which the context holds it;
or ACC_NOT_OWNED, with the physical tile where another context holds it. -/
def State.useTile (s : State) (e : Env) (n : Nat) : Except Raise (Nat × State) :=
  match if n < e.team.acct then e.team.tiles[n]? else none with
  | none => .error ⟨cAccNotOwned, 0, false, false, false⟩
  | some i =>
    let own := (s.core e.core).owner i
    let used := fun s : State => s.modTeam e.uid fun t =>
      if t.tilesUsed.contains n then t else { t with tilesUsed := t.tilesUsed ++ [n] }
    if ownedBy own e.team.ctx then .ok (i, used s)
    else if own.getLsbD 15 then .error ⟨cAccNotOwned, w64 i, false, false, true⟩
    else .ok (i, used (s.modCore e.core fun k =>
      { k.zeroRows i 0 128 with accown := tabSet 0 k.accown i (ownWord e.team.ctx) }))

/-! ## Issue (R228) -/

/-- Issue of a matrix command: the holds (R13, R248), TOKEN, then the tile, then the entry's own checks, and acceptance. -/
def matrixAct (e : Env) (bytes : Nat) (i : Instr) (f : FE2) (x : W64 × W64 × W64) (tile : Option Nat)
    (bad : Option (Nat × W64)) (regs : Task → Task) (make : Cmd → Cmd) (s : State) : Act :=
  match tile with
  | none => cmdAct e bytes i f .matrix x true bad false [] regs make s
  | some n =>
    if s.cmdHeld e .matrix true false [] then .hold
    else match e.task.consume (FE2.cts f), s.useTile e n with
    | none, _ => tokenFault
    | _, .error r => .fault r
    | some _, .ok (p, t) =>
      cmdAct e bytes i f .matrix x true bad false [] regs (fun c => make { c with tile := some p }) t

/-- SHAPE where a condition holds (R228). -/
def shapeIf (b : Bool) : Option (Nat × W64) := if b then some (cShape, 0) else none

/-- ROW0 and M of an XC operand (R234). -/
def rowsBad (xc : W64) (reserved : W64) : Bool :=
  decide (128 < xc.toNat % 128 + (xc.toNat / 256 % 128 + 1)) || xc &&& reserved != 0

/-- MREC (R230). -/
def execMrec (f : FE3) (s : State) : Host.Outcome State Fault Refusal :=
  issue f.e.st.toNat 12 [FE3.srcA f] []
    (fun e s =>
      let a := e.task.getX f.e.xa
      matrixAct e 12 (.mrec f) f.e (a, 0, 0) none
        (if a.toNat % 64 ≠ 0 then some (cAlign, a) else none) (fun t => t) (fun c => c) s) s

/-- MLDB (R231). -/
def execMldb (f : FE3) (s : State) : Host.Outcome State Fault Refusal :=
  issue f.e.st.toNat 12 [FE3.srcB f, FE3.srcC f] []
    (fun e s =>
      let k0 := e.task.getX f.xb
      matrixAct e 12 (.mldb f) f.e (0, k0, e.task.getX f.xc) none
        (shapeIf (decide (k0.toNat % 32 ≠ 0))) (fun t => t) (fun c => c) s) s

/-- Bits of XC that MMA and MMAV reserve (R234). -/
def mmaReserved : W64 := ~~~0x7F7F#64

/-- MMA (R234). -/
def execMma (f : FE3) (s : State) : Host.Outcome State Fault Refusal :=
  issue f.e.st.toNat 12 [FE3.srcA f, FE3.srcB f, FE3.srcC f] []
    (fun e s =>
      matrixAct e 12 (.mma f) f.e (FE3.vals f e.task) (some (f.imm.toNat % 8))
        (shapeIf (rowsBad (e.task.getX f.xc) mmaReserved)) (fun t => t) (fun c => c) s) s

/-- Registers that an MMAV reads (R236): 256 bytes for each row of each pass. -/
def mmavRegs (f : FE3) (xc : W64) : Nat :=
  ((xc.toNat / 256 % 128 + 1) * (f.imm.toNat / 512 % 8 + 1) + 7) / 8

/-- MMAV (R236): the registers are read at issue; how many there are depends on XC. -/
def execMmav (f : FE3) (s : State) : Host.Outcome State Fault Refusal :=
  issue f.e.st.toNat 12 [FE3.srcC f] []
    (fun e s =>
      let xc := e.task.getX f.xc
      let v := f.xb.toNat % 32
      let g := mmavRegs f xc
      let shown := min g (32 - v)
      if e.task.vIsEmpty v shown then (if f.feb then Act.raise cFeTrap 0 else .hold)
      else
        let rows := ((List.range shown).map fun i =>
          (List.range 16).map fun r => e.task.vrow (v + i) r).flatten
        matrixAct e 12 (.mmav f) f.e (0, 0, xc) (some (f.imm.toNat % 8))
          (shapeIf (rowsBad xc mmaReserved || decide (32 < v + g))) (fun t => t)
          (fun c => { c with rows := rows }) s) s

/-- MMAG (R238): the largest table must fit the allotment from XA. -/
def execMmag (f : FE3) (s : State) : Host.Outcome State Fault Refusal :=
  issue f.e.st.toNat 12 [FE3.srcA f, FE3.srcB f, FE3.srcC f] []
    (fun e s =>
      let a := e.task.getX f.e.xa
      let range := addrForm a.toNat != 1 || s.formBad e a (16 + 16 * 4096)
      matrixAct e 12 (.mmag f) f.e (FE3.vals f e.task) (some (f.imm.toNat % 8))
        (if range then some (cRange, a) else none) (fun t => t) (fun c => c) s) s

/-- Bits of XC that MRANK reserves (R239). -/
def mrankReserved : W64 := ~~~0xFFFFFFFF7F7F#64

/-- MRANK (R239). -/
def execMrank (f : FE3) (s : State) : Host.Outcome State Fault Refusal :=
  issue f.e.st.toNat 12 [FE3.srcA f, FE3.srcB f, FE3.srcC f] []
    (fun e s =>
      matrixAct e 12 (.mrank f) f.e (FE3.vals f e.task) (some (f.imm.toNat % 8))
        (shapeIf (rowsBad (e.task.getX f.xc) mrankReserved)) (fun t => t) (fun c => c) s) s

/-- MZERO (R240). -/
def execMzero (f : FE2) (s : State) : Host.Outcome State Fault Refusal :=
  issue f.st.toNat 8 [] []
    (fun e s => matrixAct e 8 (.mzero f) f (0, 0, 0) (some (f.xa.toNat % 8)) none (fun t => t)
      (fun c => c) s) s

/-- Rows of an MDRAIN (R241). -/
def drainRows (f : FE3) : Nat := f.imm.toNat / 256 % 128 + 1

/-- First row of an MDRAIN. -/
def drainRow0 (xb : W64) : Nat := xb.toNat / 2 ^ 32 % 128

/-- MDRAIN (R241). -/
def execMdrain (f : FE3) (s : State) : Host.Outcome State Fault Refusal :=
  issue f.e.st.toNat 12 [FE3.srcA f, FE3.srcB f, FE3.srcC f] []
    (fun e s =>
      let xb := e.task.getX f.xb
      matrixAct e 12 (.mdrain f) f.e (FE3.vals f e.task) (some (f.imm.toNat % 8))
        (shapeIf (decide (128 < drainRow0 xb + drainRows f) || decide (2 ^ 39 ≤ xb.toNat)))
        (fun t => t) (fun c => c) s) s

/-- G of MMOVA and MMOVV (R242). -/
def moveRegs (f : FE3) : Nat := f.imm.toNat / 1024 % 8

/-- MMOVA (R242): the group is marked empty. -/
def execMmova (f : FE3) (s : State) : Host.Outcome State Fault Refusal :=
  let v := f.e.xa.toNat % 32
  issue f.e.st.toNat 12 [] [.v v (moveRegs f)]
    (fun e s =>
      matrixAct e 12 (.mmova f) f.e (0, 0, 0) (some (f.imm.toNat % 8)) none
        (fun t => t.emptyV v (moveRegs f))
        (fun c => { c with regs := e.task.physList v (moveRegs f) }) s) s

/-- MMOVV (R242): the group is read at issue. -/
def execMmovv (f : FE3) (s : State) : Host.Outcome State Fault Refusal :=
  let v := f.e.xa.toNat % 32
  issue f.e.st.toNat 12 [.v v (moveRegs f) f.e.fea] []
    (fun e s =>
      let rows := ((List.range (moveRegs f)).map fun i =>
        (List.range 16).map fun r => e.task.vrow (v + i) r).flatten
      matrixAct e 12 (.mmovv f) f.e (0, 0, 0) (some (f.imm.toNat % 8)) none (fun t => t)
        (fun c => { c with rows := rows }) s) s

/-- MQRY (R243): names a tile without using it. -/
def execMqry (f : FE3) (s : State) : Host.Outcome State Fault Refusal :=
  issue f.e.st.toNat 12 [] [.x f.e.xa]
    (fun e s =>
      matrixAct e 12 (.mqry f) f.e (0, 0, 0) none none (fun t => t.emptyX f.e.xa)
        (fun c => { c with regs := if f.e.xa = 0 then [] else [f.e.xa.toNat] }) s) s

end Sys2Proof.Machine
end

