-- ==== Sys2Proof/Machine/MatrixRun.lean ====
section
/-! DEFINITION. The matrix engine: operand records, buffer fills and refills, pass rows, MMAG segments,
ranking, draining and moves, and how its commands start, park and fault (R223 to R246, R66, R67). -/

namespace Sys2Proof.Machine

/-! ## Operand records (R229, R230) -/

/-- The fields of an operand record. -/
structure OpRec where
  base : Nat
  cstride : Nat
  kext : Nat
  sbase : Nat
  sstride : Nat
  next : Nat
  fmt : Nat
  sc : Bool
  sealed : Bool
  keyslot : Nat
  grant : Nat
  tensor : Nat
  deriving DecidableEq, Repr

/-- `n` bytes of a record from offset `off`. -/
def recField (r : BitVec 512) (off n : Nat) : Nat := r.toNat / 2 ^ (8 * off) % 2 ^ (8 * n)

/-- A record's fields. -/
def opRec (r : BitVec 512) : OpRec where
  base := recField r 0 8
  cstride := recField r 8 4
  kext := recField r 0x0C 4 % 2 ^ 17
  sbase := recField r 0x10 8
  sstride := recField r 0x18 4
  next := recField r 0x1C 2
  fmt := recField r 0x1E 1 % 16
  sc := (recField r 0x1E 1).testBit 4
  sealed := (recField r 0x1F 1).testBit 0
  keyslot := recField r 0x20 2 % 1024
  grant := recField r 0x22 2 % 4096
  tensor := recField r 0x24 4

/-- Does a record fail MREC's checks (R230)? -/
def recordBad (r : BitVec 512) : Bool :=
  let o := opRec r
  o.fmt == 0 || decide (8 < o.fmt) || (o.fmt == 5 && !o.sc) ||
    ((o.fmt == 1 || o.fmt == 2 || o.fmt == 8) && o.sc) ||
    o.kext == 0 || decide (65536 < o.kext) || o.next == 0 || o.cstride % 16 != 0 ||
    recField r 0x0C 4 / 2 ^ 17 != 0 || recField r 0x1E 1 / 32 != 0 || recField r 0x1F 1 / 2 != 0 ||
    recField r 0x20 2 / 1024 != 0 || recField r 0x22 2 / 4096 != 0 || recField r 0x28 24 != 0 ||
    (o.sealed && (o.base % 4096 != 0 || (o.sc && decide (o.sbase < o.base))))

/-- Pass K of a format's class (R233). -/
def classK (fmt : Nat) : Nat :=
  match fmt with
  | 1 => 128
  | 2 => 128
  | 6 => 512
  | 8 => 512
  | _ => 256

/-- May an A format be paired with a B format (R233)? -/
def paired (a b : Nat) : Bool :=
  let c16 := fun f => f == 1 || f == 2
  let c8 := fun f => f == 3 || f == 4 || f == 5 || f == 7
  (c16 a && c16 b) || (c8 a && c8 b) || (a == 6 && b == 6) || (a == 8 && b == 8)

/-- Is the pass an integer pass (R233, R67)? -/
def intPair (a : Nat) (asc : Bool) (b : Nat) (bsc : Bool) : Bool :=
  (a == 7 && b == 7 && !asc && !bsc) || (a == 8 && b == 8)

/-! ## Faults and reads of the engine (R244) -/

/-- A fault of a matrix command (R244): an absent page parks it at its MPC, off the array; any other is
a command fault that takes the team's later matrix commands with it. -/
def State.matrixFault (s : State) (c : Cmd) (va code : Nat) (write : Bool := false) :
    Host.Outcome State Fault Refusal :=
  orStay s (if parks code then s.parkCmd { c with sent := false } code (w64 va) 1
    else s.cmdFault c code (w64 va) 1 (fun d => d.queue == .matrix) write)

/-- What a read of the engine comes to. -/
inductive Got (α : Type) where
  | ok (x : α)
  | wait
  | fault (va code : Nat)

/-- Bytes of a range read for a command. -/
def State.engineRead (s : State) (c : Cmd) (p : Path) (va len : Nat) : Got (List (BitVec 8)) :=
  match s.spans c.who p false (units va len) with
  | .error (a, code) => .fault a code
  | .ok sp =>
    if s.spansBlocked c.core sp then .wait
    else match s.spansRefused sp false with
      | some a => .fault a cAccessDenied
      | none => .ok (s.readSpans sp)

/-- Ranges read one after another. -/
def State.engineReads (s : State) (c : Cmd) (p : Path) :
    List (Nat × Nat) → Got (List (List (BitVec 8)))
  | [] => .ok []
  | (va, len) :: rs =>
    match s.engineRead c p va len with
    | .fault a code => .fault a code
    | .wait => .wait
    | .ok b => match s.engineReads c p rs with
      | .ok bs => .ok (b :: bs)
      | r => r

/-! ## Filling a buffer (R226, R231, R232) -/

/-- Measurement of a code section, by name. -/
def State.measOf (s : State) (sect : Option Nat) : Option (BitVec 384) :=
  (sect.bind fun i => s.sections.find? fun c => c.id == i).map (·.meas)

/-- The grant and key checks of a sealed record (R232 steps 1 and 2). -/
def State.sealCheck (s : State) (c : Cmd) (o : OpRec) : Except Nat (BitVec 256) :=
  let d := s.die (dieOf c.core)
  match tabFind d.grants o.grant with
  | none => .error cSealGrant
  | some g =>
    if g.ctx ≠ c.ctx ∨ g.slot ≠ o.keyslot ∨ o.tensor < g.tlo ∨ g.thi < o.tensor ∨
        s.measOf c.sect ≠ some g.meas then .error cSealGrant
    else match tabFind d.slots o.keyslot with
      | none => .error cSealKey
      | some k => .ok k.key

/-- Chunk numbers that a range needs, counted from BASE. -/
def chunksOf (base : Nat) (r : Nat × Nat) : List Nat :=
  if r.2 = 0 then []
  else (List.range ((r.1 + r.2 - 1 - base) / 4096 + 1 - (r.1 - base) / 4096)).map
    fun i => (r.1 - base) / 4096 + i

/-- One chunk decrypted and its tag checked (R103, R104, R232). -/
def State.openChunk (s : State) (c : Cmd) (o : OpRec) (key : BitVec 256) (n : Nat) :
    Got (List (BitVec 8)) :=
  let va := o.base + 4096 * n
  match s.spans c.who .sealed false (units va 4096) with
  | .error (a, code) => .fault a code
  | .ok sp =>
    if s.spansBlocked c.core sp || s.tagBlocked c sp then .wait
    else match s.spansRefused sp false, sp with
      | some a, _ => .fault a cAccessDenied
      | none, [] => .fault va cSealTag
      | none, u :: _ =>
        let tag := s.readBytes 0 (s.tagKey c.who va u.loc) 16
        let nonce := leBytes 4 o.tensor ++ leBytes 4 n ++ [0, 0, 0, 0]
        match gcmOpen (leBytes 32 key.toNat) nonce (s.readSpans sp) tag with
        | some b => .ok b
        | none => .fault va cSealTag

/-- Chunks opened in ascending order. -/
def State.openChunks (s : State) (c : Cmd) (o : OpRec) (key : BitVec 256) :
    List Nat → Got (Tab (List (BitVec 8)))
  | [] => .ok []
  | n :: ns =>
    match s.openChunk c o key n with
    | .fault a code => .fault a code
    | .wait => .wait
    | .ok b => match s.openChunks c o key ns with
      | .ok t => .ok (tabPut t n b)
      | r => r

/-- Bytes of a range from opened chunks. -/
def sliceChunks (base : Nat) (t : Tab (List (BitVec 8))) (r : Nat × Nat) : List (BitVec 8) :=
  (List.range r.2).map fun i =>
    let off := r.1 + i - base
    (tabGet [] t (off / 4096)).getD (off % 4096) 0

/-- A list without repeats, ascending. -/
def ascending (l : List Nat) : List Nat := (l.foldl (fun (t : Tab Unit) n => tabPut t n ()) []).map (·.1)

/-- Bytes of the ranges of a B tensor, by the path that its record asks for. -/
def State.tensorReads (s : State) (c : Cmd) (o : OpRec) (rs : List (Nat × Nat)) :
    Got (List (List (BitVec 8))) :=
  if o.sealed then
    match s.sealCheck c o with
    | .error code => .fault 0 code
    | .ok key =>
      match s.openChunks c o key (ascending (rs.map (chunksOf o.base)).flatten) with
      | .ok t => .ok (rs.map (sliceChunks o.base t))
      | .wait => .wait
      | .fault a code => .fault a code
  else s.engineReads c .tensor rs

/-- The ranges of a load, each column's elements and then its scales (R231). -/
def loadRanges (o : OpRec) (d : BufDesc) : List (Nat × Nat) :=
  let w := fmtWidth o.fmt
  ((List.range d.ncount).map fun n =>
    (o.base + (d.n0 + n) * o.cstride + d.k0 * w / 8, (d.kend * w + 7) / 8) ::
      if o.sc then [(o.sbase + (d.n0 + n) * o.sstride + d.k0 / 32, (d.kend + 31) / 32)] else []).flatten

/-- What such ranges have brought: the columns and, where there are any, their scales. -/
def splitLoad {α : Type} (sc : Bool) : List α → List α × List α
  | [] => ([], [])
  | [x] => ([x], [])
  | x :: y :: l =>
    if sc then let r := splitLoad sc l; (x :: r.1, y :: r.2) else (x :: y :: l, [])

/-- A physical buffer filled from a load descriptor for a command (R226, R231, R232). -/
def State.fillBuf (s : State) (c : Cmd) (d : BufDesc) : Got PhysBuf :=
  let o := opRec d.record
  match s.tensorReads c o (loadRanges o d) with
  | .wait => .wait
  | .fault a code => .fault a code
  | .ok bs =>
    let (cb, sb) := splitLoad o.sc bs
    .ok {
      team := c.team, stamp := d.stamp
      cols := cb.zipIdx.map fun e => (e.2, BitVec.ofNat 16384 (leNat e.1))
      scales := (sb.zipIdx.map fun e => e.1.zipIdx.map fun f => (e.2 * 128 + f.2, f.1)).flatten
      sect := if o.sealed then c.sect else none
      grant := if o.sealed then some o.grant else none }

/-- The path on which a record's tensor is read (R102). -/
def OpRec.path (o : OpRec) : Path := if o.sealed then .sealed else .tensor

/-- The walks of a buffer's fill fill the TLBs (R355). -/
def State.fillLoad (s : State) (c : Cmd) (d : BufDesc) : State :=
  let o := opRec d.record
  s.fillUnits c.who o.path false (loadRanges o d)

/-- The load descriptor of a record (R231): none where k0, n0 or P is out of its extents. -/
def descOf (r : BitVec 512) (k0 n0 passes stamp : Nat) : Option BufDesc :=
  let o := opRec r
  if o.kext ≤ k0 ∨ o.next ≤ n0 then none
  else some ⟨r, k0, n0, passes, min (passes * classK o.fmt) (o.kext - k0), min 64 (o.next - n0), stamp⟩

/-- Does a core's physical buffer `n` hold the tile of a descriptor, as a command may use it (R226)? -/
def State.tileThere (s : State) (c : Cmd) (n : Nat) (d : BufDesc) : Bool :=
  match tabFind (s.core c.core).bufs n with
  | none => false
  | some b => b.team == c.team && b.stamp == d.stamp &&
      (!(opRec d.record).sealed || (s.measOf b.sect).isSome && s.measOf b.sect == s.measOf c.sect)

/-- A buffer's tile lost, and its descriptor left empty (R232). -/
def State.loseBuf (s : State) (c : Cmd) (n : Nat) : State :=
  (s.modCore c.core fun k => { k with bufs := tabDel k.bufs n }).modTeam c.team fun t =>
    { t with bufs := tabDel t.bufs n }

/-- Is a fault of a load one of the sealed checks, whose failure loses the buffer (R232)?  Any other leaves the tile and
the descriptor as they were. -/
def OpRec.losesBy (o : OpRec) (code : Nat) : Bool :=
  o.sealed && (code == cSealGrant || code == cSealKey || code == cSealTag)

/-- A buffer lost to a sealed check, and kept after any other fault (R232). -/
def State.failBuf (s : State) (c : Cmd) (n : Nat) (o : OpRec) (code : Nat) : State :=
  if o.losesBy code then s.loseBuf c n else s

/-- A filled buffer in place, with its team's descriptor. -/
def State.putBuf (s : State) (c : Cmd) (n : Nat) (d : BufDesc) (b : PhysBuf) : State :=
  (s.modCore c.core fun k => { k with bufs := tabPut k.bufs n b }).modTeam c.team fun t =>
    { t with bufs := tabPut t.bufs n d }

/-- Buffers filled under a grant that no longer stands are emptied (R397). -/
def State.purgeBufs (s : State) (core : Nat) : State :=
  let d := s.die (dieOf core)
  s.modCore core fun k => { k with bufs := k.bufs.filter fun b => match b.2.grant with
    | some g => (tabFind d.grants g).isSome
    | none => true }

/-! ## What commands touch, and their start (R224, R225) -/

/-- Does a command use the array (R224)? -/
def usesArray : Instr → Bool
  | .mma _ => true
  | .mmav _ => true
  | .mmag _ => true
  | .mrank _ => true
  | _ => false

/-- Is a command carried out row by row? -/
def byRows : Instr → Bool
  | .mdrain _ => true
  | i => usesArray i

/-- Physical buffers that an array command uses. -/
def buffersUsed : Instr → List Nat
  | .mma f => [f.imm.toNat / 8 % 2]
  | .mmav f => [f.imm.toNat / 8 % 2]
  | .mmag _ => [0, 1]
  | .mldb f => [f.imm.toNat / 16 % 2]
  | _ => []

/-- Does a command draw from the scale queue? -/
def drawsScales : Instr → Bool
  | .mma f => f.imm.getLsbD 8
  | .mmav f => f.imm.getLsbD 8
  | .mmag f => f.imm.getLsbD 8
  | _ => false

/-- Record slots that a command touches. -/
def slotsUsed : Instr → List Nat
  | .mrec f => [f.imm.toNat % 16]
  | .mldb f => [f.imm.toNat % 16]
  | _ => []

/-- Do two commands of a core touch one resource of the engine (R225)? -/
def Cmd.shares (c d : Cmd) : Bool :=
  (c.tile.isSome && c.tile == d.tile) ||
    (c.team == d.team &&
      ((buffersUsed c.instr).any (fun n => (buffersUsed d.instr).contains n) ||
        (slotsUsed c.instr).any (fun n => (slotsUsed d.instr).contains n) ||
        (drawsScales c.instr && drawsScales d.instr)))

/-- Matrix commands of a core. -/
def Core.matrix (k : Core) : List Cmd := k.cmds.filter fun c => c.queue == .matrix

/-- The command that holds the array. -/
def Core.arrayUser (k : Core) : Option Cmd := k.matrix.find? fun c => usesArray c.instr && c.sent

/-- May a command start, or take the array again after a park (R224, R225)? -/
def State.startable (s : State) (c : Cmd) : Bool :=
  let k := s.core c.core
  s.cmdRuns c && !(byRows c.instr && c.started && (!usesArray c.instr || c.sent)) &&
    (k.matrix.all fun d => c.id ≤ d.id || !c.shares d) &&
    (!usesArray c.instr || k.arrayUser.isNone) &&
    (match c.instr, k.arrayUser with
      | .mldb _, some u => (buffersUsed c.instr).all fun n => !(buffersUsed u.instr).contains n
      | _, _ => true)

/-- Names of the startable commands. -/
def State.oldestStart (s : State) (core : Nat) : Option Cmd :=
  match lowest (((s.core core).matrix.filter s.startable).map fun c => (c.id, 0)) with
  | some (id, _) => s.cmd core id
  | none => none

/-! ## Commands of one step -/

/-- MREC (R230). -/
def State.runMrec (s : State) (c : Cmd) (slot : Nat) : Host.Outcome State Fault Refusal :=
  let s := s.fillUnits c.who .plain false (units c.xa.toNat 64)
  match s.engineRead c .plain c.xa.toNat 64 with
  | .wait => .next s
  | .fault a code => s.matrixFault c a code
  | .ok bs =>
    let r := BitVec.ofNat 512 (leNat bs)
    if recordBad r then s.matrixFault c c.xa.toNat cShape
    else .next ((s.modTeam c.team fun t => { t with qrec := tabPut t.qrec slot r }).finishCmd c)

/-- MLDB (R231, R232). -/
def State.runMldb (s : State) (c : Cmd) (f : FE3) : Host.Outcome State Fault Refusal :=
  let n := f.imm.toNat / 16 % 2
  let passes := f.imm.toNat / 32 % 8 + 1
  match (tabFind s.teams c.team).bind fun t => tabFind t.qrec (f.imm.toNat % 16) with
  | none => s.matrixFault c 0 cShape
  | some r =>
    match descOf r c.xb.toNat c.xc.toNat passes c.id with
    | none => s.matrixFault c 0 cShape
    | some d =>
      let s := s.fillLoad c d
      match s.fillBuf c d with
      | .wait => .next s
      | .fault a code =>
        (s.failBuf c n (opRec r) code).matrixFault c a code
      | .ok b => .next ((s.putBuf c n d b).finishCmd c)

/-- Accumulator row of a command's tile. -/
def State.accRow (s : State) (c : Cmd) (row : Nat) : AccRow :=
  tabGet 0 (s.core c.core).acc (c.tile.getD 0 * 128 + row)

/-- The row written. -/
def State.setAccRow (s : State) (c : Cmd) (row : Nat) (v : AccRow) : State :=
  s.modCore c.core fun k => { k with acc := tabSet 0 k.acc (c.tile.getD 0 * 128 + row) v }

/-- Rows `first` up written as zero, those of the tile only. -/
def State.zeroAcc (s : State) (c : Cmd) (first : Nat) : Nat → State
  | 0 => s
  | n + 1 =>
    let s := if first + n < 128 then s.setAccRow c (first + n) 0 else s
    s.zeroAcc c first n

/-- Word `n` of an accumulator row. -/
def accWord (r : AccRow) (n : Nat) : Nat := (r.extractLsb' (32 * n) 32).toNat

/-- A row of 64 words. -/
def accOf (ws : List Nat) : AccRow :=
  BitVec.ofNat 2048 ((ws.zipIdx.map fun e => e.1 % 2 ^ 32 * 2 ^ (32 * e.2)).sum)

/-- MMOVA (R242): the group's rows are on their way. -/
def State.runMmova (s : State) (c : Cmd) (f : FE3) : State :=
  let row0 := f.imm.toNat / 8 % 128
  let rows := (c.regs.zipIdx.map fun e => ((List.range 8).map fun j =>
    let a := s.accRow c (row0 + 8 * e.2 + j)
    [(e.1 * 16 + 2 * j, a.extractLsb' 0 1024), (e.1 * 16 + 2 * j + 1, a.extractLsb' 1024 1024)]).flatten).flatten
  let s := if c.regs.isEmpty then s else s.modCore c.core fun k => { k with
    results := k.results ++ [⟨c.id, c.team, none, rows.foldl (fun t r => tabPut t r.1 r.2) [], c.regs⟩] }
  s.finishCmd c

/-- One accumulator row of an MMOVV (R242). -/
def moveIn (add ftz : Bool) (old : AccRow) (lo hi : Row) : AccRow :=
  let v : AccRow := hi ++ lo
  if add then accOf ((List.range 64).map fun n =>
    toFp32 ftz (FVal.add .rne (fp32.decode ftz (accWord old n)) (fp32.decode ftz (accWord v n))).1)
  else v

/-- MMOVV (R242). -/
def State.runMmovv (s : State) (c : Cmd) (f : FE3) : State :=
  let row0 := f.imm.toNat / 8 % 128
  let add := f.imm.getLsbD 13
  let s := (List.range (8 * moveRegs f)).foldl (fun s i =>
    s.setAccRow c (row0 + i) (moveIn add c.ftz (s.accRow c (row0 + i)) (c.rows.getD (2 * i) 0)
      (c.rows.getD (2 * i + 1) 0))) s
  s.finishCmd c

/-- FN of a matrix command as MQRY gives it (R243). -/
def matrixFn : Instr → Nat
  | .mrec _ => 0
  | .mldb _ => 1
  | .mma _ => 2
  | .mmav _ => 3
  | .mmag _ => 4
  | .mrank _ => 5
  | .mzero _ => 6
  | .mdrain _ => 7
  | .mmova _ => 8
  | .mmovv _ => 9
  | _ => 10

/-- Does a command write its tile (R243)? -/
def writesTile : Instr → Bool
  | .mdrain f => f.imm.getLsbD 3
  | .mmova _ => false
  | _ => true

/-- The engine state that MQRY reads (R243); the MQRY itself does not count (DEDUCED, log 26). -/
def State.engineState (s : State) (c : Cmd) : Nat :=
  let l := (s.core c.core).matrix.filter fun d => d.team == c.team && d.id != c.id
  let code := match tabFind s.teams c.team with
    | some t => t.mqCode.toNat
    | none => 0
  let head := match (lowest (l.map fun d => (d.id, 0))).bind fun x => l.find? fun d => d.id == x.1 with
    | some d => d.mpc + matrixFn d.instr * 2 ^ 24 + 2 ^ 28 + (if d.parked then 2 ^ 29 else 0)
    | none => 0
  head + code * 2 ^ 32 + l.length * 2 ^ 40

/-- The tile state that MQRY reads (R243). -/
def State.tileState (s : State) (c : Cmd) (n : Nat) : Nat :=
  match tabFind s.teams c.team with
  | none => 0
  | some t =>
    match if n < t.acct then t.tiles[n]? else none with
    | none => 0
    | some i =>
      (if (s.core c.core).matrix.any fun d => d.tile == some i && writesTile d.instr then 1 else 0) +
        (if ownedBy ((s.core c.core).owner i) t.ctx then 2 else 0)

/-- MQRY (R243): the value is on its way. -/
def State.runMqry (s : State) (c : Cmd) (f : FE3) : State :=
  let v := if f.imm.toNat % 4 = 0 then s.engineState c else s.tileState c (f.imm.toNat / 4 % 8)
  let s := match c.regs with
    | d :: _ =>
      let r : Result := ⟨c.id, c.team, some (d, w64 v), [], []⟩
      s.modCore c.core fun k => { k with results := k.results ++ [r] }
    | [] => s
  s.finishCmd c

/-- MATRIX_COMMAND_START (R224, R225): the oldest startable command starts; one that needs a single step
is carried out. -/
def execMatrixCommandStart (core : Nat) (s : State) : Host.Outcome State Fault Refusal :=
  match s.oldestStart core with
  | none => .next s
  | some c =>
    let c := { c with started := true }
    let s' := s.setCmd c
    match c.instr with
    | .mrec f => s'.runMrec c (f.imm.toNat % 16)
    | .mldb f => s'.runMldb c f
    | .mzero _ => .next ((s'.zeroAcc c 0 128).finishCmd c)
    | .mmova f => .next (s'.runMmova c f)
    | .mmovv f => .next (s'.runMmovv c f)
    | .mqry f => .next (s'.runMqry c f)
    | i => .next (s.setCmd { c with sent := usesArray i })

/-! ## Pass rows (R234, R66, R67) -/

/-- Element `k` of `w` bits of a byte string. -/
def elemOf (v w k : Nat) : Nat := v / 2 ^ (w * k) % 2 ^ w

/-- The pairs of codes and scales of column `n` in pass `p`: those within the extents (R234). -/
def passPairs (b : PhysBuf) (d : BufDesc) (afmt : Nat) (a : Nat) (sa : List (BitVec 8)) (p n : Nat) :
    List (Nat × Nat × Nat × Nat) :=
  let o := opRec d.record
  let kp := classK o.fmt
  let col := (tabGet 0 b.cols n).toNat
  if d.ncount ≤ n then []
  else (List.range (min kp (d.kend - p * kp))).map fun k =>
    let kk := p * kp + k
    (elemOf a (fmtWidth afmt) k, (sa.getD (k / 32) 0x7F).toNat, elemOf col (fmtWidth o.fmt) kk,
      if o.sc then (tabGet 0 b.scales (n * 128 + kk / 32)).toNat else 0x7F)

/-- The new word of column `n`, and whether it saturated (R66, R67). -/
def passWord (c : Cmd) (b : PhysBuf) (d : BufDesc) (afmt : Nat) (asc : Bool) (a : Nat)
    (sa : List (BitVec 8)) (p n old : Nat) : Nat × Bool :=
  let o := opRec d.record
  let l := passPairs b d afmt a sa p n
  if intPair afmt asc o.fmt o.sc then
    let w := fmtWidth afmt
    intPass ((l.map fun q => intOf w true q.1 * intOf w true q.2.2.1).sum) old
  else
    (fpPass c.ftz (l.map fun q =>
      (FVal.mul (widen afmt true c.ftz q.2.1 q.1) (widen o.fmt true c.ftz q.2.2.2 q.2.2.1)).1) old, false)

/-- MSTAT.SAT set (R67). -/
def State.setSat (s : State) (team : Nat) (b : Bool) : State :=
  if b then s.modTeam team fun t => { t with sat := true } else s

/-- One pass row added into all 64 words of an accumulator row, with its scales drawn (R234, R235). -/
def State.applyRow (s : State) (c : Cmd) (b : PhysBuf) (d : BufDesc) (afmt : Nat) (asc : Bool)
    (a : List (BitVec 8)) (sa : List (BitVec 8)) (row p : Nat) : State :=
  let old := s.accRow c row
  let ws := (List.range 64).map fun n => passWord c b d afmt asc (leNat a) sa p n (accWord old n)
  let s := s.modTeam c.team fun t => { t with scales := t.scales.drop sa.length }
  (s.setAccRow c row (accOf (ws.map (·.1)))).setSat c.team (ws.any (·.2))

/-- The scales of a pass row (R235): drawn from the queue where ASC is 1. -/
def State.drawScales (s : State) (c : Cmd) (asc : Bool) (kp : Nat) : Got (List (BitVec 8)) :=
  if !asc then .ok []
  else match tabFind s.teams c.team with
    | none => .wait
    | some t =>
      if kp / 32 ≤ t.scales.length then .ok (t.scales.take (kp / 32))
      else if t.sqPend.isEmpty then .fault 0 cScaleQueue else .wait

/-- The fault of a row whose address is not aligned to its elements (R234): RANGE of its bytes comes first, and ALIGN
before what their pages would raise, as for a load (R205). -/
def State.rowFault (s : State) (c : Cmd) (write : Bool) (row : W64) (us : List (Nat × Nat)) : Nat × Nat :=
  match us.find? fun u => match s.check c.who false (w64 u.1) u.2 .plain write with
    | .bad x => x == cRange
    | _ => false with
  | some u => (u.1, cRange)
  | none => (row.toNat, cAlign)

/-- Bytes of a pass row of A read from memory (R234): aligned to A's elements. -/
def State.aRow (s : State) (c : Cmd) (afmt : Nat) (row off : W64) : Got (List (BitVec 8)) :=
  let w := fmtWidth afmt
  if w ≠ 4 ∧ row.toNat % (w / 8) ≠ 0 then
    let f := s.rowFault c false row (units (row + off).toNat 256)
    .fault f.1 f.2
  else s.engineRead c .plain (row + off).toNat 256

/-- AFMT and ASC of an instruction. -/
def afmtOf (f : FE3) : Nat := f.imm.toNat / 16 % 16
def ascOf (f : FE3) : Bool := f.imm.getLsbD 8

/-- The command after a pass row: rows inner, passes outer; after the last row of a pass MPC names row 0 of
the next (DEDUCED, log 96). -/
def Cmd.nextRow (c : Cmd) (rows : Nat) : Cmd :=
  if c.row + 1 < rows then { c with row := c.row + 1 } else { c with row := 0, pass := c.pass + 1 }

/-- An array command is complete. -/
def State.endArray (s : State) (c : Cmd) : State := (s.finishCmd c).purgeBufs c.core

/-- A pass row of MMA or MMAV, whose A bytes `get` brings (R234, R236). -/
def State.mmaRow (s : State) (c : Cmd) (f : FE3) (get : Nat → Nat → Got (List (BitVec 8))) :
    Host.Outcome State Fault Refusal :=
  let n := f.imm.toNat / 8 % 2
  let passes := f.imm.toNat / 512 % 8 + 1
  let rows := c.xc.toNat / 256 % 128 + 1
  match (tabFind s.teams c.team).bind fun t => tabFind t.bufs n with
  | none => s.matrixFault c 0 cShape
  | some d =>
    let o := opRec d.record
    if d.passes < passes || !paired (afmtOf f) o.fmt then s.matrixFault c 0 cShape
    else if !s.tileThere c n d then .next s
    else match tabFind (s.core c.core).bufs n with
      | none => .next s
      | some b =>
        match get c.row c.pass, s.drawScales c (ascOf f) (classK o.fmt) with
        | .fault a code, _ => s.matrixFault c a code
        | .wait, _ => .next s
        | _, .fault a code => s.matrixFault c a code
        | _, .wait => .next s
        | .ok a, .ok sa =>
          let s := s.applyRow c b d (afmtOf f) (ascOf f) a sa (c.xc.toNat % 128 + c.row) c.pass
          let c := c.nextRow rows
          .next (if c.pass < passes then s.setCmd c else s.endArray c)

/-- A row of A in vector registers (R236). -/
def Cmd.vectorRow (c : Cmd) (passes m p : Nat) : List (BitVec 8) :=
  let i := 2 * (m * passes + p)
  leBytes 128 (c.rows.getD i 0).toNat ++ leBytes 128 (c.rows.getD (i + 1) 0).toNat

/-! ## Ranking (R239) -/

/-- x > y and x = y in the total order of R239. -/
def rankGt (x y : FVal) : Bool :=
  match FVal.cmp x y with
  | some .gt => true
  | some _ => false
  | none => !x.isNan && y.isNan

def rankEq (x y : FVal) : Bool :=
  match FVal.cmp x y with
  | some .eq => true
  | some _ => false
  | none => x.isNan && y.isNan

/-- How many scores rank before score `t`. -/
def rankOf (xs : List FVal) (t : Nat) : Nat :=
  let x := xs.getD t .nan
  (xs.zipIdx.filter fun e => rankGt e.1 x || (rankEq e.1 x && decide (e.2 < t))).length

/-- A row of MRANK (R239); FTZ reads its subnormal scores as zero (DESIGN CHOICE, log 117). -/
def State.mrankRow (s : State) (c : Cmd) (f : FE3) : Host.Outcome State Fault Refusal :=
  let fmt := (ffmt (afmtOf f)).getD fp32
  let w := fmtWidth (afmtOf f)
  let rows := c.xc.toNat / 256 % 128 + 1
  let n0 := c.xc.toNat / 2 ^ 16 % 2 ^ 16
  let len := c.xc.toNat / 2 ^ 32 % 2 ^ 16 + 1
  let row := c.xa + w64 c.row * c.xb
  if row.toNat % (w / 8) ≠ 0 then
    let f := s.rowFault c false row (units row.toNat (len * w / 8))
    s.matrixFault c f.1 f.2
  else
    let s := s.fillUnits c.who .plain false (units row.toNat (len * w / 8))
    match s.engineRead c .plain row.toNat (len * w / 8) with
    | .wait => .next s
    | .fault a code => s.matrixFault c a code
    | .ok bs =>
      let v := leNat bs
      let xs := (List.range len).map fun j => fmt.decode c.ftz (elemOf v w j)
      let old := s.accRow c (c.xc.toNat % 128 + c.row)
      let ws := (List.range 64).map fun n =>
        if n0 + n < len then intPass (rankOf xs (n0 + n)) (accWord old n) else (accWord old n, false)
      let s := (s.setAccRow c (c.xc.toNat % 128 + c.row) (accOf (ws.map (·.1)))).setSat c.team (ws.any (·.2))
      .next (if c.row + 1 < rows then s.setCmd { c with row := c.row + 1 } else s.endArray c)

/-! ## Draining (R241) -/

/-- One word as its output element, and whether it was clamped; the scaled formats take a block's
exponent. -/
def drainElem (fmt : Nat) (ftz : Bool) (x : Option Int) (w : Nat) : Nat × Bool :=
  match fmt with
  | 9 => (w, false)
  | 0 => (toFp32 ftz (fp32.decode ftz w), false)
  | 1 => ((bf16.encode .rne ftz (fp32.decode ftz w)).1, false)
  | 2 => ((fp16.encode .rne ftz (fp32.decode ftz w)).1, false)
  | _ =>
    let v := fp32.decode ftz w
    let (q, fl) := quantElem fmt x .rne ftz v
    (q, (fl &&& flOF != 0 && fmt != 4) || (fmt == 7 && fl &&& flIV != 0 && !v.isNan && !v.isInf))

/-- FP32 words keep a NaN as it is (R241). -/
def drainWord (fmt : Nat) (ftz : Bool) (x : Option Int) (w : Nat) : Nat × Bool :=
  if fmt = 0 ∧ ¬(ftz = true ∧ (FFmt.decode fp32 false w).isFinNonzero = true ∧
      (FFmt.decode fp32 true w).isFinNonzero = false) then (w, false)
  else if fmt = 0 then (w / 2 ^ 31 * 2 ^ 31, false)
  else drainElem fmt ftz x w

/-- The packed elements of a row, its two scale bytes, and whether an element was clamped. -/
def drainRow (fmt : Nat) (ftz : Bool) (r : AccRow) : List (BitVec 8) × List (BitVec 8) × Bool :=
  let ws := (List.range 64).map (accWord r)
  let scaled := decide (3 ≤ fmt) && decide (fmt ≤ 7)
  let xs := (List.range 2).map fun b =>
    blockScale fmt (((ws.drop (32 * b)).take 32).map (fp32.decode ftz))
  let qs := ws.zipIdx.map fun e => drainWord fmt ftz (xs.getD (e.2 / 32) none) e.1
  let w := if fmt = 9 then 32 else fmtWidth fmt
  let v := (qs.zipIdx.map fun e => e.1.1 * 2 ^ (w * e.2)).sum
  (leBytes (64 * w / 8) v, if scaled then xs.map fun x => BitVec.ofNat 8 (scaleCode x) else [],
    qs.any (·.2))

/-- A row of MDRAIN: translated whole, then read, written and cleared. -/
def State.drainStep (s : State) (c : Cmd) (f : FE3) : Host.Outcome State Fault Refusal :=
  let fmt := f.imm.toNat / 16 % 16
  let row := c.xa + w64 c.row * sx (c.xb.extractLsb' 0 32)
  let acc := drainRow0 c.xb + c.row
  let w := if fmt = 9 then 32 else fmtWidth fmt
  let (bs, sc, sat) := drainRow fmt c.ftz (s.accRow c acc)
  let s := (s.fillUnits c.who .plain true (units row.toNat bs.length)).fillUnits c.who .plain true
    (units (c.xc + w64 (2 * c.row)).toNat sc.length)
  if w ≠ 4 ∧ row.toNat % (w / 8) ≠ 0 then
    let f := s.rowFault c true row (units row.toNat bs.length)
    s.matrixFault c f.1 f.2
  else match s.spans c.who .plain true (units row.toNat bs.length),
      s.spans c.who .plain true (units (c.xc + w64 (2 * c.row)).toNat sc.length) with
    | .error (a, code), _ => s.matrixFault c a code true
    | _, .error (a, code) => s.matrixFault c a code true
    | .ok d, .ok e =>
      let s := (s.engineWrite c d bs).engineWrite c e sc
      let s := if f.imm.getLsbD 3 then s.setAccRow c acc 0 else s
      let s := s.setSat c.team sat
      .next (if c.row + 1 < drainRows f then s.setCmd { c with row := c.row + 1 } else s.finishCmd c)

/-! ## Gathered weights (R237, R238) -/

/-- Is a code one that refuses a segment with a status (R238)? -/
def segmentStatus (code : Nat) : Bool :=
  code == cShape || code == cSealAccess || code == cSealGrant || code == cSealKey || code == cSealTag

/-- The status word of the segment written, and the next segment or the end.  A command that its page parks
keeps the status, and the retry writes it and nothing else (R245, R368). -/
def State.closeSegment (s : State) (c : Cmd) (count status : Nat) : Host.Outcome State Fault Refusal :=
  let us := units (c.xa + w64 (0x1C + 16 * c.seg)).toNat 4
  let s := s.fillUnits c.who .plain true us
  match s.spans c.who .plain true us with
  | .error (a, code) =>
    s.matrixFault { c with status := status + 1, vals := [0, 0, 0, 0, w64 count] } a code true
  | .ok sp =>
    let s := (s.engineWrite c sp (leBytes 4 status)).purgeBufs c.core
    .next (if c.seg + 1 < count then s.setCmd { c with
        seg := c.seg + 1, pass := 0, row := 0, passes := 0, buf := none, vals := [], status := 0 }
      else s.endArray c)

/-- A refused segment: its rows are zero (R238). -/
def State.refuseSegment (s : State) (c : Cmd) (row cnt count status : Nat) :
    Host.Outcome State Fault Refusal :=
  (s.zeroAcc c row cnt).closeSegment c count status

/-- The load of a segment once its entry is read (R238). -/
def State.loadSegment (s : State) (c : Cmd) (f : FE3) (e : List (BitVec 8)) (astride : W64)
    (n0 count : Nat) : Host.Outcome State Fault Refusal :=
  let fld := fun off n => leNat ((e.drop off).take n)
  let row := fld 0 1
  let cnt := fld 1 1
  let k0 := fld 8 4
  if fld 2 2 ≠ 0 ∨ 127 < row ∨ cnt = 0 ∨ 128 < row + cnt ∨ k0 % 32 ≠ 0 then
    s.refuseSegment c row cnt count cShape
  else
    let s := s.fillUnits c.who .plain false (units (c.xb + w64 (64 * fld 4 4)).toNat 64)
    match s.engineRead c .plain (c.xb + w64 (64 * fld 4 4)).toNat 64 with
    | .wait => .next s
    | .fault a code =>
      if segmentStatus code then s.refuseSegment c row cnt count code else s.matrixFault c a code
    | .ok bs =>
      let r := BitVec.ofNat 512 (leNat bs)
      let o := opRec r
      let passes := (o.kext - k0 + classK o.fmt - 1) / classK o.fmt
      if recordBad r || !paired (afmtOf f) o.fmt || decide (o.kext ≤ k0) || decide (8 < passes) then
        s.refuseSegment c row cnt count cShape
      else match descOf r k0 n0 passes c.id with
        | none => s.refuseSegment c row cnt count cShape
        | some d =>
          let (stamp, s) := s.fresh
          let d := { d with stamp := stamp }
          let s := s.fillLoad c d
          match s.fillBuf c d with
          | .wait => .next s
          | .fault a code =>
            if segmentStatus code then (s.failBuf c (c.seg % 2) o code).refuseSegment c row cnt count code
            else s.matrixFault c a code
          | .ok b =>
            .next ((s.putBuf c (c.seg % 2) d b).setCmd { c with
              passes := passes, buf := some (c.seg % 2, stamp)
              vals := [w64 row, w64 cnt, w64 k0, astride, w64 count] })

/-- MMAG_SEGMENT (R238): the header and the entry of the segment are read, and its B extent is loaded
and checked. -/
def execMmagSegment (core id : Nat) (s : State) : Host.Outcome State Fault Refusal :=
  match s.cmd core id with
  | none => .next s
  | some c =>
    match c.instr with
    | .mmag f =>
      let us := [(c.xa.toNat, 16), ((c.xa + w64 (16 + 16 * c.seg)).toNat, 16)]
      if !c.sent || c.parked || c.passes != 0 || c.status != 0 then .next s
      else
        let s := s.fillUnits c.who .plain false us
        match s.engineReads c .plain us with
        | .wait => .next s
        | .fault a code => s.matrixFault c a code
        | .ok [h, e] =>
          let fld := fun off n => leNat ((h.drop off).take n)
          let count := fld 0 4
          if count = 0 ∨ 4096 < count ∨ fld 10 2 ≠ 0 ∨ fld 12 4 ≠ 0 then s.matrixFault c c.xa.toNat cShape
          else s.loadSegment c f e (sx (BitVec.ofNat 32 (fld 4 4))) (fld 8 2) count
        | .ok _ => .next s
    | _ => .next s

/-- A pass row of a segment. -/
def State.mmagRow (s : State) (c : Cmd) (f : FE3) : Host.Outcome State Fault Refusal :=
  match c.vals, c.buf with
  | [_, _, _, _, count], none => if c.status = 0 then .next s else s.closeSegment c count.toNat (c.status - 1)
  | [row, cnt, k0, astride, count], some (n, stamp) =>
    if c.status ≠ 0 then s.closeSegment c count.toNat (c.status - 1)
    else (match (tabFind s.teams c.team).bind fun t => tabFind t.bufs n with
    | none => .next s
    | some d =>
      let o := opRec d.record
      if d.stamp ≠ stamp || !s.tileThere c n d then .next s
      else match tabFind (s.core c.core).bufs n with
        | none => .next s
        | some b =>
          let r := row.toNat + c.row
          let off := k0.toNat * fmtWidth (afmtOf f) / 8 + 256 * c.pass
          let s := s.fillUnits c.who .plain false [((c.xc + w64 r * astride + w64 off).toNat, 256)]
          match s.aRow c (afmtOf f) (c.xc + w64 r * astride) (w64 off),
              s.drawScales c (ascOf f) (classK o.fmt) with
          | .fault a code, _ => s.matrixFault c a code
          | .wait, _ => .next s
          | _, .fault a code => s.matrixFault c a code
          | _, .wait => .next s
          | .ok a, .ok sa =>
            let s := s.applyRow c b d (afmtOf f) (ascOf f) a sa r c.pass
            let c := c.nextRow cnt.toNat
            if c.pass < c.passes then .next (s.setCmd c)
            else (s.setCmd c).closeSegment c count.toNat 0)
  | _, _ => .next s

/-- PASS_ROW (R234, R236, R238, R239, R241, R245): the next row step of a started command. -/
def execPassRow (core id : Nat) (s : State) : Host.Outcome State Fault Refusal :=
  match s.cmd core id with
  | none => .next s
  | some c =>
    if !c.started || c.parked || (usesArray c.instr && !c.sent) then .next s
    else match c.instr with
      | .mma f =>
        let s := s.fillUnits c.who .plain false
          [((c.xa + w64 c.row * c.xb + w64 (256 * c.pass)).toNat, 256)]
        s.mmaRow c f fun m p => s.aRow c (afmtOf f) (c.xa + w64 m * c.xb) (w64 (256 * p))
      | .mmav f => s.mmaRow c f fun m p => .ok (c.vectorRow (f.imm.toNat / 512 % 8 + 1) m p)
      | .mmag f => s.mmagRow c f
      | .mrank f => s.mrankRow c f
      | .mdrain f => s.drainStep c f
      | _ => .next s

/-- The buffer that a started array command needs now. -/
def Cmd.needs (c : Cmd) : Option Nat :=
  match c.instr with
  | .mma f => some (f.imm.toNat / 8 % 2)
  | .mmav f => some (f.imm.toNat / 8 % 2)
  | .mmag _ => c.buf.map (·.1)
  | _ => none

/-- BUFFER_REFILL (R226, R232, R238, R245, R246): the physical buffer is filled again from the logical
buffer's load descriptor, under the command's own section. -/
def execBufferRefill (core id : Nat) (s : State) : Host.Outcome State Fault Refusal :=
  match s.cmd core id with
  | none => .next s
  | some c =>
    match c.needs with
    | none => .next s
    | some n =>
      match (tabFind s.teams c.team).bind fun t => tabFind t.bufs n with
      | none =>
        (match c.instr, c.vals with
          | .mmag _, [row, cnt, _, _, count] =>
            if c.sent && !c.parked && c.status == 0 then s.refuseSegment c row.toNat cnt.toNat count.toNat cSealGrant
            else .next s
          | _, _ => .next s)
      | some d =>
        if !c.sent || c.parked || c.status != 0 || s.tileThere c n d then .next s
        else
          let s := s.fillLoad c d
          match s.fillBuf c d with
          | .wait => .next s
          | .ok b => .next (s.putBuf c n d b)
          | .fault a code =>
            if parks code then s.matrixFault c a code
            else
              let t := s.failBuf c n (opRec d.record) code
              match c.instr, c.vals with
              | .mmag _, [row, cnt, _, _, count] =>
                if segmentStatus code then t.refuseSegment c row.toNat cnt.toNat count.toNat code
                else t.matrixFault c a code
              | _, _ => t.matrixFault c a code

end Sys2Proof.Machine
end

