-- ==== Sys2Proof/Machine/Fabric.lean ====
section
/-! DEFINITION. The fabric engine: FQPOST, FMBOX, FPUT, FFLUSH and LAUNCH at issue, work entries and their
messages, arbitration, arrival, landing buffers and accesses of other packages (R270 to R289, R343,
R349 to R352, R414, R442). -/

namespace Sys2Proof.Machine

/-! ## Issue (R250, R270 to R273) -/

/-- FQPOST and FMBOX at issue. -/
def post (i : Instr) (f : FE3) (q : Queue) (master : Bool) (s : State) :
    Host.Outcome State Fault Refusal :=
  issue f.e.st.toNat 12 [FE3.srcA f, FE3.srcB f, FE3.srcC f] []
    (fun e s =>
      let (a, b, c) := FE3.vals f e.task
      let bad := firstBad [
        (master && (s.cluster (clusterOf e.core)).master != some e.core, cAccessDenied, 0),
        (s.formBad e a 64, cRange, a), (c != 0 && s.formBad e c 4, cRange, c),
        (decide (a.toNat % 64 ≠ 0), cAlign, a), (decide (c.toNat % 4 ≠ 0), cAlign, c),
        (decide (256 ≤ b.toNat), cShape, 0)]
      cmdAct e 12 i f.e q (a, b, c) true bad false [] (fun t => t) (fun c => c) s) s

/-- FQPOST (R270). -/
def execFqpost (f : FE3) (s : State) : Host.Outcome State Fault Refusal :=
  post (.fqpost f) f .fabric true s

/-- FMBOX (R270). -/
def execFmbox (f : FE3) (s : State) : Host.Outcome State Fault Refusal :=
  post (.fmbox f) f .mailbox false s

/-- FPUT (R271). -/
def execFput (f : FE3) (s : State) : Host.Outcome State Fault Refusal :=
  issue f.e.st.toNat 12 [FE3.srcA f, FE3.srcB f, FE3.srcC f] []
    (fun e s =>
      let (a, b, c) := FE3.vals f e.task
      let bad := firstBad [(s.formBad e a 32, cRange, a),
        (s.formBad e b (c.toNat % 4096 + 1), cRange, b), (decide (a.toNat % 32 ≠ 0), cAlign, a),
        (decide (c.toNat / 4096 % 16 ≠ 0), cShape, 0)]
      cmdAct e 12 (.fput f) f.e .fput (a, b, c) true bad false [] (fun t => t) (fun c => c) s) s

/-- Is a value a target of FFLUSH (R272)? -/
def flushTarget (v : Nat) : Bool :=
  if v / 1024 % 2 = 1 then v < 2048 else v < 256 && (v < 144 || v == 255)

/-- FFLUSH (R272). -/
def execFflush (f : FE3) (s : State) : Host.Outcome State Fault Refusal :=
  issue f.e.st.toNat 12 [FE3.srcA f, FE3.srcB f] []
    (fun e s =>
      let (a, b, _) := FE3.vals f e.task
      let bad := firstBad [(b != 0 && s.formBad e b 4, cRange, b), (decide (b.toNat % 4 ≠ 0), cAlign, b),
        (!flushTarget a.toNat, cShape, 0)]
      cmdAct e 12 (.fflush f) f.e .sync (a, 0, b) true bad false [] (fun t => t) (fun c => c) s) s

/-- LAUNCH (R273); its status address is a multiple of 4 (DESIGN CHOICE, log 111). -/
def execLaunch (f : FE3) (s : State) : Host.Outcome State Fault Refusal :=
  issue f.e.st.toNat 12 [FE3.srcA f, FE3.srcB f, FE3.srcC f] []
    (fun e s =>
      let (a, b, c) := FE3.vals f e.task
      let pkg := b.toNat / 2 ^ 16 % 256
      let bad := firstBad [(s.formBad e a 256, cRange, a), (c != 0 && s.formBad e c 4, cRange, c),
        (decide (a.toNat % 256 ≠ 0), cAlign, a), (decide (c.toNat % 4 ≠ 0), cAlign, c),
        (b &&& ~~~(0xFF0FFF : W64) != 0 || decide (144 ≤ pkg ∧ pkg < 255), cShape, 0)]
      cmdAct e 12 (.launch f) f.e .sync (a, b, c) true bad false [] (fun t => t) (fun c => c) s) s

/-! ## Status words and faults of fabric commands (R442, R363) -/

/-- A command by its name, wherever it stands. -/
def State.findCmd (s : State) (id : Nat) : Option Cmd :=
  s.cores.findSome? fun k => k.2.cmds.find? fun c => c.id == id

/-- A fault of a fabric command's own access: an absent page parks it until REPLAY; any other is a
command fault, which takes the commands with it that `also` names (DESIGN CHOICE, log 119). -/
def State.fabricFault (s : State) (c : Cmd) (va code : Nat) (also : Cmd → Bool) (write : Bool := false) :
    Host.Outcome State Fault Refusal :=
  orStay s (if parks code then s.parkCmd c code (w64 va) 3
    else s.cmdFault c code (w64 va) 3 also write)

/-- The address of the status word, if the command has one. -/
def Cmd.statusUnit (c : Cmd) : List (Nat × Nat) := if c.xc = 0 then [] else [(c.xc.toNat, 4)]

/-- Units of the status word, translated for a write before the command does anything (R442). -/
def State.statusSpan (s : State) (c : Cmd) : Except (Nat × Nat) (List Span) :=
  s.spans c.who .plain true c.statusUnit

/-- The walks of a fabric command's status word and of the record that it reads fill the TLBs (R355). -/
def State.fillFabric (s : State) (c : Cmd) (len : Nat) : State :=
  (s.fillUnits c.who .plain true c.statusUnit).fillUnits c.who .plain false (units c.xa.toNat len)

/-- The status word is written, under the epoch at which it was translated (R369), then the command is
complete. -/
def State.statusDone (s : State) (c : Cmd) (st : List Span) (code : Nat) : State :=
  (s.engineWrite c st (leBytes 4 code) 1 (c.units.head?.map (·.epoch))).finishCmd c

/-- Bytes read by an engine: not yet, refused at an address, or there. -/
inductive Read where
  | wait
  | bad (va code : Nat)
  | ok (bs : List (BitVec 8))

/-- Bytes of a range as an engine of context `w.ctx` reads them. -/
def State.engineBytes (s : State) (w : Who) (va : W64) (len : Nat) : Read :=
  match s.spans w .plain false (units va.toNat len) with
  | .error (a, c) => .bad a c
  | .ok sp =>
    if s.spansBlocked w.core sp then .wait
    else match s.spansRefused sp false with
      | some a => .bad a cAccessDenied
      | none => .ok (s.readSpans sp)

/-! ## Queue pairs and work entries (R275 to R277) -/

/-- Is a value a multiple of another? -/
def isMul (v n : Nat) : Bool := v % n == 0

/-- The checks of R277 on a posted entry. -/
def entryOk (r : BitVec 512) : Bool :=
  let flags := entF r 2 1
  let len := entLen r
  let lsrc := entF r 0x10 8
  let lin := entF r 0x18 8
  let rdst := entF r 0x20 8
  let ldst := entF r 0x28 8
  let ver := entF r 0x30 4
  let rsv := fun off => entF r off 2 / 256 % 128
  entF r 3 1 == 0 && rsv 4 == 0 && rsv 6 == 0 && rsv 0x34 == 0 && entF r 0x36 10 == 0 &&
    (match entOp r with
      | 0 => entFmt r == 0 && flags == 0 && 1 ≤ len && len ≤ 2 ^ 20 && lin == 0 && ldst == 0 && ver == 0
      | 1 => (entFmt r == 0 || entFmt r == 1 || entFmt r == 3 || entFmt r == 4) && flags < 4 &&
          32 ≤ len && len ≤ 65536 && isMul len 32 && isMul lsrc 4 &&
          (if entFirst r then lin == 0 else isMul lin 64) && isMul rdst 64 &&
          (if entFinal r then isMul ldst 64 else ldst == 0) && ver == 0
      | 2 => entFmt r == 0 && flags == 0 && 128 ≤ len && len ≤ 2 ^ 20 && isMul len 128 &&
          isMul lsrc 128 && lin == 0 && isMul rdst 128 && ldst == 0 && ver < 0xFFFFFFFF
      | 3 => entFmt r == 0 && (flags == 0 || flags == 4) && len == 8 && lsrc == 0 && ver == 0 &&
          (if entLocal r then rdst == 0 && isMul ldst 8 else isMul rdst 8 && ldst == 0)
      | _ => false)

/-- Do the older mailbox commands of the cluster let this one leave (R270, R368)? -/
def State.mailboxTurn (s : State) (c : Cmd) : Bool :=
  c.queue != .mailbox || s.cores.all fun k => clusterOf k.1 != clusterOf c.core || k.2.cmds.all fun d =>
    d.queue != .mailbox || c.id ≤ d.id || (d.parked && d.team != c.team)

/-- An entry linked at the tail of its queue pair's chain (R270). -/
def State.append (s : State) (c : Cmd) (r : BitVec 512) : State :=
  let cl := clusterOf c.core
  let n := c.xb.toNat
  let (id, s) := s.fresh
  let q := s.qp cl n
  let e : FEntry := ⟨id, c.team, c.ctx, c.pc, c.seq, r, 0, 0, 0⟩
  s.setQp cl n { q with entries := q.entries ++ [e] }

/-- ENTRY_APPEND (R270, R275, R277, R442). -/
def execEntryAppend (id : Nat) (s : State) : Host.Outcome State Fault Refusal :=
  match s.findCmd id with
  | none => .next s
  | some c =>
    if !(c.queue == .fabric || c.queue == .mailbox) || !s.cmdRuns c || !s.mailboxTurn c then .next s
    else
      let s := s.fillFabric c 64
      match s.statusSpan c with
      | .error (va, code) => s.fabricFault c va code (fun _ => false) true
      | .ok st =>
        let d := s.qpDesc (clusterOf c.core) c.xb.toNat
        if d.state ≠ 1 ∨ d.ctx ≠ c.ctx then .next (s.statusDone c st cAccessDenied)
        else match s.engineBytes c.who c.xa 64 with
          | .wait => .next s
          | .bad va code => s.fabricFault c va code fun d => d.queue == c.queue
          | .ok bs =>
            let r := BitVec.ofNat 512 (leNat bs)
            if entryOk r then .next ((s.append c r).statusDone c st 0)
            else .next (s.statusDone c st cShape)

/-! ## Forming messages (R279, R281 to R283) -/

/-- One block of WRED (R283): packed elements and scale from the contribution's 128 bytes, and the
incoming elements and scale unless FIRST. -/
def wredBlock (f : Nat) (x : List (BitVec 8)) (inp : Option (List (BitVec 8) × Nat)) :
    List (BitVec 8) × Nat :=
  let w := fmtBytes f
  let ys := (List.range 32).map fun i =>
    let y := fp32.decode false (leNat ((x.drop (4 * i)).take 4))
    match inp with
    | none => y
    | some (es, sc) =>
      let p := widen f true false sc (leNat ((es.drop (w * i)).take w))
      fp32.decode false (toFp32 false (FVal.add .rne p y).1)
  if fmtScaled f = 1 then
    let k := blockScale f ys
    ((ys.map fun y => leBytes w (quantElem f k .rne false y).1).flatten, scaleCode k)
  else ((ys.map fun y => leBytes w (encodeTo f false .rne false y).1).flatten, 0x7F)

/-- Blocks of a WRED message: elements, then scales. -/
def wredBlocks (f : Nat) (x : List (BitVec 8)) (es : List (BitVec 8)) (scs : List (BitVec 8))
    (first : Bool) : Nat → List (BitVec 8) × List (BitVec 8)
  | 0 => ([], [])
  | n + 1 =>
    let k := 32 * fmtBytes f
    let sc := match scs with
      | b :: _ => b.toNat
      | [] => 0x7F
    let (o, c) := wredBlock f (x.take 128) (if first then none else some (es.take k, sc))
    let (os, cs) := wredBlocks f (x.drop 128) (es.drop k) (scs.drop 1) first n
    (o ++ os, if fmtScaled f = 1 then BitVec.ofNat 8 c :: cs else cs)

/-- What forming a message gives: its item with the local writes, or why not. -/
inductive Formed where
  | wait
  | bad (va code : Nat)
  | item (i : FItem) (wr : List (List Span × List (BitVec 8)))

/-- A message of an entry. -/
def State.entryMsg (s : State) (cl qp : Nat) (d : QpDesc) (e : FEntry) (no : BitVec 32) (last : Bool)
    (kind va sva : Nat) (payload : List (BitVec 8)) : FabricMsg :=
  let rsig := entSem e.record 0x34
  { kind := kind, spkg := s.pkg.toNat, sctx := e.ctx, scl := cl, qp := qp, fput := false
    eth := if d.target < 1024 then none else some (d.target - 1024)
    tpkg := d.target % 1024, tctx := d.tctx, key := BitVec.ofNat 64 d.key, gang := s.gangOf e.ctx
    va := BitVec.ofNat 64 va, sva := BitVec.ofNat 64 sva, ver := BitVec.ofNat 32 (entF e.record 0x30 4)
    msgno := no, rsem := if last then rsig else none
    windowed := entOp e.record == 1 || entOp e.record == 3 || rsig.isSome
    payload := payload, team := e.team, ref := e.ref }

/-- Bytes of ranges one after another. -/
def State.engineRanges (s : State) (w : Who) : List (W64 × Nat) → Read
  | [] => .ok []
  | (va, n) :: rs =>
    match s.engineBytes w va n with
    | .ok bs => (match s.engineRanges w rs with
      | .ok cs => .ok (bs ++ cs)
      | r => r)
    | r => r

/-- The part of a packed buffer that holds blocks j to j + k − 1 of n elements (R277). -/
def packed (f base n j k : Nat) : List (W64 × Nat) :=
  (w64 (base + 32 * fmtBytes f * j), 32 * fmtBytes f * k) ::
    if fmtScaled f = 1 then [(w64 (base + n * fmtBytes f + j), k)] else []

/-- A WRED message from block `j` on, of `k` blocks (R279, R283). -/
def State.formWred (s : State) (w : Who) (r : BitVec 512) (j k : Nat)
    (mkItem : Nat → Nat → Nat → List (BitVec 8) → FItem) : Formed :=
  let f := entFmt r
  let n := entLen r
  match s.engineBytes w (w64 (entF r 0x10 8 + 128 * j)) (128 * k),
      s.engineRanges w (if entFirst r then [] else packed f (entF r 0x18 8) n j k) with
  | .bad va c, _ => .bad va c
  | _, .bad va c => .bad va c
  | .ok x, .ok inp =>
    let m := 32 * fmtBytes f * k
    let (es, cs) := wredBlocks f x (inp.take m) (inp.drop m) (entFirst r) k
    let it := mkItem (if fmtScaled f = 1 then 4 else 0) (entF r 0x20 8 + 32 * fmtBytes f * j)
      (if fmtScaled f = 1 then entF r 0x20 8 + n * fmtBytes f + j else 0) (es ++ cs)
    if entFinal r then
      match s.spans w .plain true ((packed f (entF r 0x28 8) n j k).map fun q =>
          units q.1.toNat q.2).flatten with
      | .error (va, c) => .bad va c
      | .ok sp => match s.spansRefused sp true with
        | some va => .bad va cAccessDenied
        | none => .item it [(sp, es ++ cs)]
    else .item it []
  | _, _ => .wait

/-- Message `i` of an entry. -/
def State.form (s : State) (cl qp : Nat) (d : QpDesc) (e : FEntry) (no : BitVec 32) (i : Nat) : Formed :=
  let r := e.record
  let w : Who := ⟨s.master cl, 0, e.ctx⟩
  let mkItem := fun kind va sva payload =>
    (⟨e.id, s.entryMsg cl qp d e no (i + 1 == entryMsgs r) kind va sva payload, []⟩ : FItem)
  match entOp r with
  | 1 =>
    let p := blocksPer (entFmt r)
    s.formWred w r (p * i) (min p (entLen r / 32 - p * i)) mkItem
  | 3 =>
    let val := leBytes 8 (entF r 0x18 8)
    if entLocal r then
      if i = 0 then
        match s.spans w .plain true [(entF r 0x28 8, 8)] with
        | .error (va, c) => .bad va c
        | .ok sp => match s.spansRefused sp true with
          | some va => .bad va cAccessDenied
          | none => .item { mkItem 3 0 0 [] with units := unitPieces (s.epoch w.core) sp } []
      else .item (mkItem 3 0 0 []) []
    else .item (mkItem 2 (entF r 0x20 8) 0 val) []
  | op =>
    let o := 4096 * i
    match s.engineBytes w (w64 (entF r 0x10 8 + o)) (min 4096 (entLen r - o)) with
    | .wait => .wait
    | .bad va c => .bad va c
    | .ok bs => .item (mkItem (if op = 2 then 1 else 0) (entF r 0x20 8 + o) 0 bs) []

/-! ## Firing (R278, R279) -/

/-- What firing has formed: items, local writes, and the fault it met. -/
structure Firing where
  items : List FItem
  writes : List (List Span × List (BitVec 8))
  bad : Option (Nat × Nat)

/-- Messages from number `i` on until one cannot be formed. -/
def State.formAll (s : State) (cl qp : Nat) (d : QpDesc) (e : FEntry) (no : BitVec 32) (i : Nat) :
    Nat → Firing
  | 0 => ⟨[], [], none⟩
  | n + 1 =>
    match s.form cl qp d e no i with
    | .wait => ⟨[], [], none⟩
    | .bad va c => ⟨[], [], some (va, c)⟩
    | .item it wr =>
      let no := if it.units.isEmpty then no + 1 else no
      let r := s.formAll cl qp d e no (i + 1) n
      ⟨it :: r.items, wr ++ r.writes, r.bad⟩

/-- The first entry not formed whole. -/
def Qp.next (q : Qp) : Option FEntry := q.entries.find? fun e => e.made < entryMsgs e.record

/-- An entry replaced. -/
def Qp.put (q : Qp) (e : FEntry) : Qp :=
  { q with entries := q.entries.map fun x => if x.id = e.id then e else x }

/-- Writes to a target that a team's FFLUSH waits for (R272). -/
def State.addPosted (s : State) (team ref target n : Nat) (seq : Option (BitVec 32)) : State :=
  s.modTeam team fun t => { t with posted := t.posted ++ List.replicate n (ref, target, seq) }

/-- Is a target lost (R286, R289)? -/
def State.targetLost (s : State) (t : Nat) : Bool := t < 1024 && s.lostPkgs.contains t

/-- Is what a queue pair aims at lost (R289, R424): its package, or there the home die of its target context
(log 106)? -/
def State.aimLost (s : State) (d : QpDesc) : Bool :=
  s.targetLost d.target || (decide (d.target < 1024) && d.target != s.pkg.toNat &&
    s.lostDies.contains (d.target, Config.homedAbroad d.target d.tctx % 4))

/-- May an entry that has not fired fire: its semaphore holds THRESH, at a home die that holds its
context's semaphores (R278, R336)? -/
def State.armed (s : State) (e : FEntry) : Bool :=
  match entSem e.record 4 with
  | none => true
  | some n => s.residOn e.ctx (s.homeDie e.ctx) == .resident &&
      decide (entF e.record 8 4 ≤ (s.semVal e.ctx n).toNat)

/-- First bytes of the pages of a range of `n` bytes, as units. -/
def pageStarts (va n : Nat) : List (Nat × Nat) :=
  (List.range ((va % 65536 + n + 65535) / 65536)).map fun i => (if i = 0 then va else (va / 65536 + i) * 65536, 1)

/-- The walks for an entry's local operands fill the TLBs of the communication master's core and cluster (R279,
R355). -/
def State.fillEntry (s : State) (cl : Nat) (e : FEntry) : State :=
  let r := e.record
  let w : Who := ⟨s.master cl, 0, e.ctx⟩
  let n := entLen r
  let buf := fun off => ((packed (entFmt r) (entF r off 8) n 0 (n / 32)).map fun q => pageStarts q.1.toNat q.2).flatten
  match entOp r with
  | 1 =>
    let s := s.fillUnits w .plain false (pageStarts (entF r 0x10 8) (4 * n))
    let s := if entFirst r then s else s.fillUnits w .plain false (buf 0x18)
    if entFinal r then s.fillUnits w .plain true (buf 0x28) else s
  | 3 => if entLocal r then s.fillUnits w .plain true [(entF r 0x28 8, 8)] else s
  | _ => s.fillUnits w .plain false (pageStarts (entF r 0x10 8) n)

/-- Local writes of the messages formed. -/
def State.localWrites (s : State) (cl : Nat) (e : FEntry) :
    List (List Span × List (BitVec 8)) → State
  | [] => s
  | w :: ws => (s.engineStore (s.master cl) e.team e.ctx e.id e.seq e.pc w.1 w.2).localWrites cl e ws

/-- An entry parks at the message not yet formed, with a record (R279, R368). -/
def State.parkEntry (s : State) (cl qp : Nat) (e : FEntry) (va code : Nat) : State :=
  let info := match tabFind s.teams e.team with
    | some t => ((match s.launchOf t with
      | some l => l.tag
      | none => 0), t.index + t.slot * 2 ^ 16)
    | none => (0, 0)
  let q := s.qp cl qp
  let s := s.setQp cl qp { q with parked := true, replay := false, code := code, addr := w64 va }
  s.queueFault
    { die := cl / 16, code := code, source := 3, flags := 4 + if code = cStoreNotPresent then 1 else 0
      unit := qp, ctx := e.ctx, core := s.master cl, pc := e.pc, addr := w64 va, tag := info.1
      team := info.2, mpc := e.made, origin := 0, uid := e.team, recId := 0
      cmd := 2 ^ 40 + cl * 512 + qp }

/-- The items formed stand ready to leave. -/
def State.sendable (s : State) (cl qp : Nat) (d : QpDesc) (q : Qp) (e : FEntry) (r : Firing) : State :=
  let n := (r.items.filter fun i => i.units.isEmpty).length
  let made := e.made + r.items.length
  let s := s.setQp cl qp { q.put { e with made := made } with
    out := q.out ++ r.items, msgno := q.msgno + BitVec.ofNat 32 n }
  let s := (s.localWrites cl e r.writes).addPosted e.team e.ref d.target n none
  if made = entryMsgs e.record then s.dropMark e.team e.ref d.target else s

/-- ENTRY_FIRE (R278, R279, R289): the first entry of a queue pair that is not formed whole fires, or goes
on after it was held or parked. -/
def execEntryFire (die cluster qp : Nat) (s : State) : Host.Outcome State Fault Refusal :=
  let cl := die * 16 + cluster
  let q := s.qp cl qp
  let d := s.qpDesc cl qp
  match q.next with
  | none => .next s
  | some e =>
    if 256 ≤ qp ∨ d.state ≠ 1 ∨ q.parked ∨ (e.ref = 0 ∧ !s.armed e) then .next s
    else if s.aimLost d then .next (s.qpError cl qp d e cPeerLost)
    else
      let s := s.fillEntry cl e
      let (name, s1) := if e.ref = 0 then s.fresh else (e.ref, s)
      let s1 := if e.ref = 0 then s1.addPosted e.team name d.target 1 none else s1
      let e := { e with ref := name }
      let r := s1.formAll cl qp d e q.msgno e.made (entryMsgs e.record - e.made)
      match r.bad with
      | some (va, code) =>
        if !parks code then .next ((s1.setQp cl qp (q.put e)).qpError cl qp d e code)
        else if (s.die die).fqFull then .next s
        else .next ((s1.sendable cl qp d q e r).parkEntry cl qp { e with made := e.made + r.items.length }
          va code)
      | none => .next (s1.sendable cl qp d q e r)

/-! ## Sending (R271, R281, R282, R285, R414) -/

/-- Have the local writes of an entry been performed for PACKAGE (R281)? -/
def State.entryWritten (s : State) (cl id : Nat) : Bool := s.cmdWritten (s.master cl) id 4

/-- The item that a queue pair would send now, none while a message of it is to be sent again (R280).  A FLAG waits
until every earlier entry has completed and all its messages are performed, and its signal waits for its local
write (R282). -/
def State.qpItem (s : State) (cl qp : Nat) : Option FItem :=
  let q := s.qp cl qp
  match q.out, q.retry with
  | i :: _, [] =>
    (match q.entries.find? fun e => e.id == i.entry with
      | some e =>
        if entOp e.record = 3 ∧ !(q.entries.head?.map (·.id) == some e.id && q.unperformed == 0 &&
            s.entryWritten cl e.id) then none
        else some i
      | none => some i)
  | _, _ => none

/-- What a direct put reads (R271). -/
inductive Put where
  | wait
  | bad (va code : Nat)
  | msg (m : FabricMsg)

/-- The message of an FPUT. -/
def State.putMsg (s : State) (c : Cmd) : Put :=
  let cl := clusterOf c.core
  let path := 256 + c.core % 8
  match s.engineBytes c.who c.xa 32 with
  | .wait => .wait
  | .bad va code => .bad va code
  | .ok bs =>
    let r := leNat bs
    let f := fun off len => r / 2 ^ (8 * off) % 2 ^ (8 * len)
    let eth := f 0x13 1
    if 4096 ≤ f 0x10 2 ∨ 144 ≤ f 0x12 1 ∨ 2 ≤ eth ∨ (eth = 0 ∧ f 0x14 2 ≠ 0) ∨ 1024 ≤ f 0x14 2 ∨
        f 0x16 10 ≠ 0 then .bad c.xa.toNat cShape
    else match s.engineBytes c.who c.xb (c.xc.toNat % 4096 + 1) with
      | .wait => .wait
      | .bad va code => .bad va code
      | .ok data => .msg
          { kind := 0, spkg := s.pkg.toNat, sctx := c.ctx, scl := cl, qp := path, fput := true
            eth := if eth = 1 then some (f 0x14 2) else none
            tpkg := f 0x12 1, tctx := f 0x10 2, key := BitVec.ofNat 64 (f 8 8), gang := s.gangOf c.ctx
            va := BitVec.ofNat 64 (f 0 8 + c.xc.toNat / 65536), sva := 0, ver := 0
            msgno := (s.qp cl path).msgno, rsem := none, windowed := false, payload := data
            team := c.team, ref := c.id }

/-- The FPUT that a core would send now. -/
def State.putCmd (s : State) (core : Nat) : Option Cmd :=
  if !(s.qp (clusterOf core) (256 + core % 8)).retry.isEmpty then none
  else (s.core core).cmds.find? fun c => c.queue == .fput && s.cmdRuns c &&
    !((s.core core).cmds.any fun d => d.queue == .fput && d.team == c.team && d.id < c.id && d.parked)

/-- Is an Ethernet peer's entry in use (R418)? -/
def State.peerValid (s : State) (die p : Nat) : Bool :=
  s.byte (physKey die (peerLocal + 64 * p)) % 2 == 1

/-- Port by which a message leaves (R281, R414, R417): scale-up plane, 18 + die, or 22 for one that does
not leave the package or is refused here; none while its Ethernet port has not trained (R420; log 104). -/
def State.portOf (s : State) (m : FabricMsg) : Option Nat :=
  match m.eth with
  | some p =>
    if !s.peerValid (m.scl / 16) p then some 22
    else if s.planeUp (18 + m.scl / 16) then some (18 + m.scl / 16) else none
  | none =>
    if m.tpkg = s.pkg.toNat ∨ s.targetLost m.tpkg then some 22
    else
      let live := s.livePlanes
      if m.fput then live[(m.tpkg + m.scl % 16) % max 1 live.length]?
      else (live.find? fun i => m.qp % 18 ≤ i).orElse fun _ => live.head?

/-- Class of a message (R285): 0 collective, 1 one-sided, 2 versioned. -/
def msgClass (m : FabricMsg) (op : Nat) : Nat :=
  if m.kind = 1 then 2 else if op = 1 ∨ op = 3 then 0 else 1

/-- A path with something to send: its number, class, weight and bytes. -/
structure Ready where
  path : Nat
  cls : Nat
  weight : Nat
  size : Nat
  deriving DecidableEq, Repr

/-- OP of the entry an item belongs to. -/
def Qp.opOf (q : Qp) (i : FItem) : Nat :=
  match q.entries.find? fun e => e.id == i.entry with
  | some e => entOp e.record
  | none => if i.msg.kind = 1 then 2 else 0

/-- Queue pairs with something to send at a port. -/
def State.readyQps (s : State) (port : Nat) : List Ready :=
  (s.clusters.map fun c => c.2.qps.filterMap fun q =>
    if 256 ≤ q.1 then none
    else match s.qpItem c.1 q.1 with
      | none => none
      | some i =>
        if (if i.units.isEmpty then s.portOf i.msg else some 22) = some port then
          some ⟨c.1 * 512 + q.1, msgClass i.msg (q.2.opOf i), (s.qpDesc c.1 q.1).weight, max 1 i.msg.payload.length⟩
        else none).flatten

/-- Cores with a direct put to send at a port. -/
def State.readyPuts (s : State) (port : Nat) : List Ready :=
  s.cores.filterMap fun k =>
    match s.putCmd k.1 with
    | none => none
    | some c =>
      let at22 := match s.putMsg c with
        | .wait => none
        | .bad _ _ => some (22, 1)
        | .msg m => (s.portOf m).map fun p => (p, m.payload.length)
      match at22 with
      | some (p, n) => if p = port then some ⟨clusterOf k.1 * 512 + 256 + k.1 % 8, 1, 1, n⟩ else none
      | none => none

/-- One choice of deficit round robin (R285) among keys with sizes, in ascending order: the key, and the
pointer and deficits after it.  `n` bounds the keys passed over. -/
def drr (quantum : Nat → Nat) (ready : List (Nat × Nat)) (turn : Nat) (deficit : Tab Nat) :
    Nat → Option (Nat × Nat × Tab Nat)
  | 0 => none
  | n + 1 =>
    match ready.find? fun r => r.1 == turn && decide (r.2 ≤ tabGet 0 deficit turn) with
    | some r => some (turn, turn, tabPut deficit turn (tabGet 0 deficit turn - r.2))
    | none =>
      match (ready.find? fun r => turn < r.1).orElse fun _ => ready.head? with
      | none => none
      | some r => drr quantum ready r.1 (tabPut deficit r.1 (tabGet 0 deficit r.1 + quantum r.1)) n

/-- Share of a class (R285). -/
def Port.share (p : Port) (c : Nat) : Nat :=
  if c = 0 then p.shares.1 else if c = 1 then p.shares.2.1 else p.shares.2.2

/-- The path that a port serves next, and the port after it: the class by its share, then the path of
the class by its weight; what has nothing to send lends its share. -/
def Port.choose (p : Port) (rs : List Ready) : Option (Nat × Port) :=
  let live := p.deficit.filter fun d => rs.any fun r => r.path + 3 == d.1 || d.1 ≤ 2
  let pick := fun c =>
    let l := rs.filter fun r => r.cls == c
    (drr (fun k => 4096 * ((l.find? fun r => r.path == k).map (·.weight)).getD 1)
      (l.map fun r => (r.path + 3, r.size)) (tabGet 0 p.turn c) live (l.length + 2)).map fun x => (c, x)
  let picks := [0, 1, 2].filterMap pick
  let size := fun (k : Nat) => ((rs.find? fun r => r.path + 3 == k).map (·.size)).getD 1
  let starved := picks.all fun x => p.share x.1 == 0
  let cls := drr (fun c => if starved then 4096 else 4096 * p.share c) (picks.map fun x => (x.1, size x.2.1))
    p.cls (live.filter fun d => d.1 ≤ 2) 9
  match cls with
  | none => none
  | some (c, _, cd) =>
    match picks.find? fun x => x.1 == c with
    | none => none
    | some (_, key, turn, pd) =>
      let deficit := cd.foldl (fun t e => tabPut t e.1 e.2) (pd.filter fun d => 3 ≤ d.1)
      some (key - 3, { p with cls := c, turn := tabPut p.turn c turn, deficit := deficit })

/-- The Peivitra header of a message to an Ethernet peer (R417). -/
def roceHeader (m : FabricMsg) : List (BitVec 8) :=
  leBytes 8 m.key.toNat ++ leBytes 2 m.gang ++ leBytes 1 m.kind ++ leBytes 1 (m.rsem.getD 0) ++
    leBytes 4 m.msgno.toNat ++ leBytes 4 m.ver.toNat ++ leBytes 12 0

/-- A message leaves for an Ethernet peer, under the peer's entry (R417, R418; log 104): an RDMA WRITE of its header
and data in packets of at most 4,096 bytes, with an immediate where it bears RSIG; its first PSN is the entry's. -/
def State.sendRoce (s : State) (m : FabricMsg) (p : Nat) : State :=
  let die := m.scl / 16
  let entry := s.readBytes 0 (physKey die (peerLocal + 64 * p)) 64
  let psn := (tabFind (s.die die).psn p).getD (BitVec.ofNat 24 (leNat ((entry.drop 0x1C).take 3)))
  let bytes := roceHeader m ++ m.payload
  let s := s.modDie die fun d => { d with
    psn := tabPut d.psn p (psn + BitVec.ofNat 24 ((bytes.length + 4095) / 4096)) }
  { s with outbox := s.outbox ++
    [.roce entry psn m.rsem.isSome m.va.toNat m.tctx bytes.length bytes m] }

/-- A message leaves for another package (R414, R417). -/
def State.sendOut (s : State) (m : FabricMsg) : State :=
  match m.eth, s.portOf m with
  | some p, _ => s.sendRoce m p
  | none, some p => if p < 18 then s.transmit p (.message m) else { s with outbox := s.outbox ++ [.message m] }
  | none, none => s

/-- Is the port by which a message leaves there, with room for it (R414, R415)? -/
def State.mayLeave (s : State) (m : FabricMsg) : Bool :=
  match s.portOf m with
  | some p => 18 ≤ p || s.portRoom p
  | none => false

/-- A message leaves the port. -/
def State.leave (s : State) (m : FabricMsg) : State :=
  let q := s.qp m.scl m.qp
  let s := s.setQp m.scl m.qp { q with unperformed := q.unperformed + 1 }
  if s.ownMsg m ∧ m.tpkg = s.pkg.toNat then { s with net := s.net ++ [m] }
  else s.sendOut m

/-- A message refused before it leaves (R289, R418). -/
def State.refusedHere (s : State) (m : FabricMsg) : Option Nat :=
  match m.eth with
  | some p => if s.peerValid (m.scl / 16) p then none else some cAccessDenied
  | none => if s.targetLost m.tpkg then some cPeerLost else none

/-- A message of an entry that was refused before it left is never performed (R282); the entry's addition is not made,
and if it was the last one the entry does not complete (R281). -/
def State.cutEntry (s : State) (m : FabricMsg) : State :=
  s.modQp m.scl m.qp fun q => { q with
    unperformed := q.unperformed + 1
    entries := q.entries.map fun e =>
      if e.ref = m.ref then
        { e with cut := if e.made = entryMsgs e.record ∧ !q.out.any (fun i => i.entry == e.id) then 2 else 1 }
      else e }

/-- A formed message sent, or its refusal recorded. -/
def State.sendMsg (s : State) (m : FabricMsg) : State :=
  match s.refusedHere m with
  | none => s.leave m
  | some code =>
    let s := (s.dropMark m.team m.ref (msgTarget m)).recordRefusal m.team (msgTarget m) code
    if m.fput then s
    else if code = cPeerLost then s.loseQp m.scl m.qp (msgTarget m)
    else s.cutEntry m

/-- A queue pair's oldest item leaves. -/
def State.sendQp (s : State) (cl qp : Nat) : State :=
  match s.qpItem cl qp with
  | none => s
  | some i =>
    let q := s.qp cl qp
    let s := s.setQp cl qp { q with out := q.out.drop 1 }
    if i.units.isEmpty then
      s.sendMsg (if q.entries.any fun e => e.id == i.entry && e.cut != 0 then { i.msg with rsem := none } else i.msg)
    else match q.entries.find? fun e => e.id == i.entry with
      | none => s
      | some e => s.engineStore (s.master cl) e.team e.ctx e.id e.seq e.pc
          (i.units.filterMap fun p => p.loc.map fun l => ⟨p.va.toNat, p.len, l, p.mkey⟩)
          (leBytes 8 (entF e.record 0x18 8)) 1 (i.units.head?.map (·.epoch))

/-- A core's direct put leaves; its command is complete (R271). -/
def State.sendPut (s : State) (core : Nat) : Host.Outcome State Fault Refusal :=
  match s.putCmd core with
  | none => .next s
  | some c =>
    let s := (s.fillUnits c.who .plain false (units c.xa.toNat 32)).fillUnits c.who .plain false
      [(c.xb.toNat, c.xc.toNat % 4096 + 1)]
    match s.putMsg c with
    | .wait => .next s
    | .bad va code => s.fabricFault c va code fun d => d.queue == .fput
    | .msg m =>
      let path := 256 + core % 8
      let q := s.qp m.scl path
      let s := s.setQp m.scl path { q with msgno := q.msgno + 1 }
      .next (((s.addPosted c.team c.id (msgTarget m) 1 (some c.seq)).sendMsg m).finishCmd c)

/-- The release of a LAUNCH (R273): at SCOPE, or DOMAIN for another package. -/
def State.launchReady (s : State) (c : Cmd) : Bool :=
  let pkg := s.pkgTarget (c.xb.toNat / 2 ^ 16 % 256)
  let scope := if pkg = s.pkg.toNat then c.scope else if c.scope = 5 then 5 else max 6 c.scope
  s.cmdRuns c && s.releaseReady c.core c.team c.id scope && s.depsWritten c.core c.deps scope

/-- Plane of a LAUNCH to another package: that of the direct puts of its core's cluster (R414; DESIGN CHOICE, log 75). -/
def State.launchPlane (s : State) (pkg core : Nat) : Option Nat :=
  s.livePlanes[(pkg + clusterOf core % 16) % max 1 s.livePlanes.length]?

/-- The oldest LAUNCH that may leave for another package: a lost one refuses it here. -/
def State.peerLaunch (s : State) : Option Cmd :=
  s.cores.findSome? fun k => k.2.cmds.find? fun c =>
    (match c.instr with
      | .launch _ => true
      | _ => false) && !c.sent && s.launchReady c &&
      s.pkgTarget (c.xb.toNat / 2 ^ 16 % 256) != s.pkg.toNat &&
      (s.lostPkgs.contains (s.pkgTarget (c.xb.toNat / 2 ^ 16 % 256)) ||
        (s.launchPlane (s.pkgTarget (c.xb.toNat / 2 ^ 16 % 256)) c.core).any s.portRoom)

/-- A LAUNCH leaves for another package with its record and gang ID (R273, R442). -/
def State.sendLaunch (s : State) (c : Cmd) : Host.Outcome State Fault Refusal :=
  let s := s.fillFabric c 256
  match s.statusSpan c with
  | .error (va, code) => s.fabricFault c va code (fun _ => false) true
  | .ok st =>
    match s.engineBytes c.who c.xa 256 with
    | .wait => .next s
    | .bad va code => s.fabricFault c va code fun d => d.queue == .sync
    | .ok bs =>
      let pkg := s.pkgTarget (c.xb.toNat / 2 ^ 16 % 256)
      if s.lostPkgs.contains pkg then .next (s.statusDone c st cPeerLost)
      else
        let s := s.setCmd { c with started := true, sent := true, units := unitPieces (s.epoch c.core) st }
        .next (match s.launchPlane pkg c.core with
          | some p => s.transmit p (.launch c.id pkg (c.xb.toNat % 4096) c.ctx (s.gangOf c.ctx) bs)
          | none => s)

/-- Something that a port which went down has sent, sent again by the plane that R414 now gives (R416); none while that
has no room.  What is no access, message or launch has nothing to go again, nor has a message that would not leave. -/
def State.sendAgain (s : State) (o : Out) : Option State :=
  let by_ := fun (p : Option Nat) => match p with
    | some p => if p = 22 then some s else if (s.port p).retry.length + 17 ≤ 1024 then
          let t := s.transmit p o
          some (t.setPort p { t.port p with resent := (t.port p).resent ++ [o] })
        else none
    | none => none
  match o with
  | .message m => by_ (s.portOf m)
  | .store _ pkg addr _ _ _ => by_ (s.planeFor pkg addr)
  | .atomic _ pkg addr _ _ _ _ _ => by_ (s.planeFor pkg addr)
  | .load _ pkg addr _ => by_ (s.planeFor pkg addr)
  | .launch id pkg _ _ _ _ => by_ (s.launchPlane pkg (((s.findCmd id).map (·.core)).getD 0))
  | _ => some s

/-- What a port that went down still has to send again, in its order, as far as the other planes have room (R416). -/
def State.reroute (s : State) (port : Nat) : Nat → State
  | 0 => s
  | n + 1 =>
    match (s.port port).sent with
    | [] => s
    | (_, o) :: os =>
      match (s.setPort port { s.port port with sent := os }).sendAgain o with
      | some t => t.reroute port n
      | none => s

/-- FABRIC_MESSAGE_SEND (R279, R281, R285, R414): the message that a port's arbitration chooses; for a port that is
down, what it has to send again by others (R416). -/
def execFabricMessageSend (port : Nat) (s : State) : Host.Outcome State Fault Refusal :=
  if port < 18 ∧ (s.port port).up = false then .next (s.reroute port 1)
  else if port = 23 then
    match s.peerLaunch with
    | none => .next s
    | some c => s.sendLaunch c
  else if port < 18 ∧ !s.portRoom port then .next s
  else
    match (tabGet portReset s.ports port).choose (s.readyQps port ++ s.readyPuts port) with
    | none => .next s
    | some (path, p) =>
      let s := { s with ports := tabPut s.ports port p }
      if path % 512 < 256 then .next (s.sendQp (path / 512) (path % 512))
      else s.sendPut (path / 512 * 8 + (path % 512 - 256))

/-- ENTRY_COMPLETE (R281): the oldest entry has sent its last message, and its local writes are
performed; DONE is added, by a home die that still stands.  An entry whose last message never left goes without. -/
def execEntryComplete (die cluster qp : Nat) (s : State) : Host.Outcome State Fault Refusal :=
  let cl := die * 16 + cluster
  let q := s.qp cl qp
  match q.entries with
  | [] => .next s
  | e :: es =>
    if e.ref = 0 ∨ e.made < entryMsgs e.record ∨ q.out.any (fun i => i.entry == e.id) ∨
        !s.entryWritten cl e.id then .next s
    else
      let s' := s.setQp cl qp { q with entries := es }
      match if e.cut = 2 then none else entSem e.record 6 with
      | none => .next s'
      | some n =>
        .next (if (s.die (s.homeDie e.ctx)).lost then s'
          else s'.fabricAdd e.ctx n e.team (s.master cl) e.pc e.seq)

/-! ## Answers to the sender (R272, R280, R351) -/

/-- A message put among those to be sent again, in the order of their numbers. -/
def putRetry (r : Retry) : List Retry → List Retry
  | [] => [r]
  | x :: xs =>
    if x.msg = r.msg then r :: xs
    else if (x.msg.msgno - r.msg.msgno).toNat < 2 ^ 31 then r :: x :: xs
    else x :: putRetry r xs

/-- A message comes back with LAND_FULL: it is kept for its next try, whose wait doubles with every refusal up to
1,024 µs (R351). -/
def State.landFull (s : State) (m : FabricMsg) : State :=
  s.modQp m.scl m.qp fun q =>
    let n := ((q.retry.find? fun r => r.msg == m).map (·.count)).getD 0 + 1
    let wait := 940 * min (2 ^ (n - 1)) 1024
    { q with retry := putRetry ⟨m, n, some ((s.die (m.scl / 16)).gnomon.toNat + wait)⟩ q.retry }

/-- FABRIC_REFUSAL_RETURN (R272, R280, R286, R351): a far end's answer reaches the sender. -/
def execFabricRefusalReturn (team target code : Nat) (msg : Option FabricMsg) (s : State) :
    Host.Outcome State Fault Refusal :=
  match msg with
  | none => .next (if code = 0 then s else s.recordRefusal team target code)
  | some m =>
    if !(m.spkg == s.pkg.toNat) then .next s
    else if code = cLandFull then .next (s.landFull m)
    else .next (if code = 0 then s.msgOver m true else s.sendRefused m code)

/-- LAND_FULL_RETRY (R351): the first message kept is sent again once its wait is over; those behind it wait until it
is accepted (R280). -/
def execLandFullRetry (die cluster qp : Nat) (s : State) : Host.Outcome State Fault Refusal :=
  let cl := die * 16 + cluster
  let q := s.qp cl qp
  match q.retry with
  | [] => .next s
  | r :: rs =>
    if !(r.due.any fun t => decide (t ≤ (s.die die).gnomon.toNat)) || !s.mayLeave r.msg then .next s
    else
      let s := s.setQp cl qp { q with retry := { r with due := none } :: rs }
      .next (if s.targetLost (msgTarget r.msg) then s.sendRefused r.msg cPeerLost
        else if (s.refusedHere r.msg).isSome then s.sendRefused r.msg cAccessDenied
        else if r.msg.eth.isNone ∧ r.msg.tpkg = s.pkg.toNat then { s with net := r.msg :: s.net }
        else s.sendOut r.msg)

/-! ## Fairness counts (R342, R343, R345) -/

/-- The valid entry of a gang (R342). -/
def Die.gangEntry (d : Die) (gang : Nat) : Option (Nat × Fair) :=
  if gang = 0 then none else d.fair.find? fun e => e.2.valid && e.2.kind == 0 && e.2.key == gang

/-- An entry changed. -/
def State.modFair (s : State) (die gang : Nat) (g : Fair → Fair) : State :=
  match (s.die die).gangEntry gang with
  | some (i, f) => s.modDie die fun d => { d with fair := tabPut d.fair i (g f) }
  | none => s

/-- A counted message (R343): BOOST and GATHERED rise, and a demotion ends (R345). -/
def Fair.count (f : Fair) : Fair :=
  let add := min f.inc (min (f.cap - f.boost) (f.allow - f.gathered))
  { f with boost := f.boost + add, gathered := f.gathered + add, demoted := false, spins := [] }

def State.countMsg (s : State) (die gang : Nat) : State := s.modFair die gang Fair.count

/-- Who a target context's incoming messages translate as: a core of its home die. -/
def State.fabricWho (s : State) (ctx : Nat) : Who := ⟨s.homeDie ctx * 128, 0, ctx⟩

/-- The die that owns a message's target address (R343). -/
def State.targetDie (s : State) (m : FabricMsg) : Nat :=
  if m.kind = 3 then s.homeDie m.tctx
  else match s.xlate (s.fabricWho m.tctx) m.va 1 (if m.kind = 1 then .versioned else .plain) true with
    | .ok (.mem k) _ => if k < 2 ^ 48 then k / 2 ^ 46 else s.homeDie m.tctx
    | .ver n => (match s.region m.tctx n with
      | some r => r.home
      | none => s.homeDie m.tctx)
    | _ => s.homeDie m.tctx

/-! ## Placing a message (R280 to R282, R352) -/

/-- A unit of 8 aligned bytes or less written at a place, barrier objects as their banks take it. -/
def State.putUnit (s : State) (u : Span) (bs : List (BitVec 8)) : State :=
  let p : Piece := { newPiece u.va u.len (BitVec.ofNat 64 (leNat bs)) (BitVec.ofNat 64 (2 ^ (8 * u.len) - 1))
    with loc := some u.loc, mkey := u.mkey }
  match u.loc with
  | .mem k => if s.onBarrier p then s.storeObject k p else s.writePiece k u.mkey u.len p.data p.mask
  | .host o => s.transmit hostPort (.hostWrite (s.hostAddr o) u.len p.data p.mask)
  | .remote pkg a => s.sendAccess pkg a (.store 0 pkg a u.len p.data p.mask)
  | .region _ => s

def State.putUnits (s : State) : List Span → List (BitVec 8) → State
  | [], _ => s
  | u :: us, bs => (s.putUnit u (bs.take u.len)).putUnits us (bs.drop u.len)

/-- What becomes of a message at its target. -/
inductive Placed where
  | done (s : State)
  | held (s : State)
  | dropped (s : State)
  | refused (code : Nat) (va : W64)

/-- Ranges that a message writes (R350): its payload, or elements and scales. -/
def msgRanges (m : FabricMsg) : List (Nat × Nat) :=
  let n := m.payload.length
  match m.kind with
  | 3 => []
  | 4 => units m.va.toNat (n / 33 * 32) ++ units m.sva.toNat (n / 33)
  | _ => units m.va.toNat n

/-- Has this package granted the sender of a message the memory that it writes (R286, R387; log 99)? -/
def State.granted (s : State) (m : FabricMsg) (sp : List Span) : Bool :=
  s.ownMsg m || m.eth.isSome || sp.all fun u => match u.loc with
    | .mem k => s.exports.any fun e => e.pkg == m.spkg && e.ctx == m.sctx && e.w && decide (e.base ≤ k) &&
        decide (k + u.len ≤ e.base + e.len)
    | _ => false

/-- A message's data placed, its page checks made first (R280), and, of another package of the domain, the exports
consulted (R387). -/
def State.placeMsg (s : State) (m : FabricMsg) (src : VSrc) : Placed :=
  let w := s.fabricWho m.tctx
  let s := s.fillUnits w (if m.kind = 1 then .versioned else .plain) true (msgRanges m)
  if m.kind = 1 then
    let cnt := m.payload.length / 128
    match s.createSpan w m.va (cnt - 1) with
    | .error (c, a) => .refused c a
    | .ok (n, r, g) =>
      let rows := rowsOf m.payload cnt
      match s.create m.tctx n r g m.ver.toNat rows true with
      | .made s => .done s
      | .dropped s => .dropped s
      | .fault c k => .refused c (m.va + w64 (128 * k))
      | .park =>
        let (id, s) := s.fresh
        .held (s.parkCreate id
          { op := .create, src := src, ctx := m.tctx, pc := 0, va := m.va, count := cnt
            ver := m.ver.zeroExtend 64, rows := rows, got := [], dst := [], xm := 0, scope := 0
            seq := id, held := true, answer := none, msg := some m, region := n, granule := g } n g)
  else match s.spans w .plain true (msgRanges m) with
    | .error (va, c) => .refused c (w64 va)
    | .ok sp =>
      match s.spansRefused sp true with
      | some va => .refused cAccessDenied (w64 va)
      | none =>
        if !s.ownMsg m ∧ (hostSpan sp).isSome then .refused cAccessDenied m.va
        else if !s.granted m sp then .refused cExport m.va
        else .done (s.putUnits sp m.payload)

/-! ## Arrival (R280, R287, R288, R336, R350, R351) -/

/-- How far a message number lies behind the newest, modulo 2^32. -/
def behind (newest no : BitVec 32) : Nat := (newest - no).toNat

/-- Is a number a repeat, or 256 or more behind the newest (R288)?  The list holds the newest first. -/
def isRepeat (w : List (BitVec 32)) (no : BitVec 32) : Bool :=
  match w with
  | [] => false
  | n :: _ => decide (behind n no < 2 ^ 31) && (decide (256 ≤ behind n no) || w.contains no)

/-- The window with a number taken. -/
def takeNo (w : List (BitVec 32)) (no : BitVec 32) : List (BitVec 32) :=
  match w with
  | [] => [no]
  | n :: _ =>
    if behind n no < 2 ^ 31 then w ++ [no] else no :: w.filter fun x => decide (behind no x < 256)

/-- A message's number taken into its path's window at the target (R288). -/
def State.noteNo (s : State) (die : Nat) (m : FabricMsg) : State :=
  if !m.windowed then s
  else s.modDie die fun d => { d with
    window := tabPut d.window (msgPath m) (takeNo (tabGet [] d.window (msgPath m)) m.msgno) }

/-- Control block of a context's landing buffer (R349): its key, HEAD, TAIL, COUNT, DROPS, LANDN. -/
structure Land where
  key : Nat
  /-- Memory key of the context (R105). -/
  mkey : Nat
  head : Nat
  tail : Nat
  count : Nat
  drops : Nat
  size : Nat

def State.land (s : State) (ctx : Nat) : Land :=
  let k := gpaKey ((s.descWord ctx 10).toNat % 2 ^ 56)
  let mk := s.ctxKey ctx
  let f := fun off => s.readNat mk (k + off) 4
  ⟨k, mk, f 0, f 4, f 8, f 12, (s.descWord ctx 11).toNat % 2 ^ 32⟩

def State.setLand (s : State) (l : Land) : State :=
  s.agentNat l.mkey l.key 16 (l.head + l.tail * 2 ^ 32 + l.count * 2 ^ 64 + l.drops % 2 ^ 32 * 2 ^ 96)

/-- The messages of a context's landing buffer that are not applied discarded (R287); DROPS counts them. -/
def State.dropLanded (s : State) (ctx : Nat) : State :=
  let l := s.land ctx
  let s := if l.count = 0 then s
    else s.setLand { l with head := l.tail, count := 0, drops := l.drops + l.count }
  s.modCtx ctx fun c => { c with landed := [], behind := [] }

/-- The remote key against which a context's messages are judged, kept from its first use on (R287, R314); what
was accepted under another key is discarded. -/
def State.remoteKey (s : State) (ctx : Nat) : W64 × State :=
  match (s.ctx ctx).rkey with
  | some k => (k, s)
  | none =>
    let k := s.descMem ctx 3
    let s := match (s.ctx ctx).landKey with
      | some old => if old = k then s else s.dropLanded ctx
      | none => s
    (k, s.modCtx ctx fun c => { c with rkey := some k, landKey := none })

/-- The kept remote key of a context dropped; if it has been replaced, what was accepted under it and is not
applied is discarded (R287, R314). -/
def State.dropRemoteKey (s : State) (ctx : Nat) : State :=
  let c := s.ctx ctx
  match c.rkey.orElse (fun _ => c.landKey) with
  | none => s
  | some k =>
    let same := k = s.descMem ctx 3
    let s := s.modCtx ctx fun c => { c with rkey := none, landKey := if same then some k else none }
    if same then s else s.dropLanded ctx

/-- Header of an entry (R350). -/
def landHeader (m : FabricMsg) (stamp : Nat) : Nat :=
  m.kind + (if m.rsem.isSome then 2 ^ 8 else 0) + m.payload.length * 2 ^ 16 + m.sctx * 2 ^ 32 +
    m.spkg % 256 * 2 ^ 48 + (if m.fput then 255 else m.qp % 256) * 2 ^ 56 + m.va.toNat * 2 ^ 64 +
    m.ver.toNat * 2 ^ 128 + m.msgno.toNat * 2 ^ 160 + m.rsem.getD 0 * 2 ^ 192 + stamp * 2 ^ 256 +
    m.sva.toNat * 2 ^ 320

/-- A message appended to the landing buffer. -/
def State.appendLand (s : State) (l : Land) (m : FabricMsg) : State :=
  let a := l.key + 64 + 4160 * l.tail
  let stamp := (s.die (l.key / 2 ^ 46)).gnomon.toNat
  let s := (s.agentNat l.mkey a 64 (landHeader m stamp)).agentWrite l.mkey (a + 64) m.payload
  let s := s.setLand { l with tail := (l.tail + 1) % max 1 l.size, count := l.count + 1 }
  s.modCtx m.tctx fun c => { c with landed := c.landed ++ [(msgPath m, m.ref)] }

/-- Is the home die of a context RESIDENT (R336)? -/
def State.homeResident (s : State) (ctx : Nat) : Bool :=
  s.residOn ctx (s.homeDie ctx) == .resident

/-- A message has come to its turn: if it was refused with LAND_FULL before, those behind it wait no longer
(R280). -/
def State.cameAgain (s : State) (m : FabricMsg) : State :=
  if tabFind s.fullNos (msgPath m) = some m.msgno then { s with fullNos := tabDel s.fullNos (msgPath m) } else s

/-- A message that lands: LAND_FULL, or appended, counted, and performed for its sender (R272, R351). -/
def State.landMsg (s : State) (m : FabricMsg) : State :=
  let die := s.homeDie m.tctx
  let l := s.land m.tctx
  if l.size ≤ l.count then
    let s := s.modFair die m.gang fun f => { f with nacks := f.nacks + 1 }
    let s : State := if m.fput then s else { s with fullNos := tabPut s.fullNos (msgPath m) m.msgno }
    if s.ownMsg m then s.landFull m else { s with outbox := s.outbox ++ [.refusal m.spkg m cLandFull] }
  else
    let s := ((s.cameAgain m).appendLand l m).noteNo die m
    let s := (s.modFair die m.gang fun f => { f with landed := f.landed + 1 }).countMsg die m.gang
    let s := s.msgLanded m
    if s.ownMsg m then s else { s with outbox := s.outbox ++ [.performed m.spkg m] }

/-- A message at its target, its turn come. -/
def State.arriveMsg (s : State) (m : FabricMsg) : State :=
  let live := s.ctxState m.tctx = 1 ∨ s.ctxState m.tctx = 2
  let home := s.homeDie m.tctx
  let (key, s) := s.remoteKey m.tctx
  if (s.die home).lost then (s.cameAgain m).msgRefused m cPeerLost
  else if !live ∨ key ≠ m.key then (s.cameAgain m).msgRefused m cAccessDenied
  else if m.windowed && isRepeat (tabGet [] (s.die home).window (msgPath m)) m.msgno then
    let s := (s.cameAgain m).msgLanded m
    if s.ownMsg m then s else { s with outbox := s.outbox ++ [.performed m.spkg m] }
  else if !s.homeResident m.tctx then s.landMsg m
  else
    let die := s.targetDie m
    let s := s.cameAgain m
    match s.placeMsg m (.fabric m.qp) with
    | .done t => ((t.noteNo home m).countMsg die m.gang).msgDone m
    | .held t => (t.noteNo home m).countMsg die m.gang
    | .dropped t => (t.noteNo home m).msgDone m
    | .refused code _ => s.msgRefused m code

/-- Is a create of a sending path held on PWAIT? -/
def State.pathHeld (s : State) (path : Nat) : Bool :=
  s.vreqs.any fun v => v.2.held && (match v.2.src, v.2.msg with
    | .fabric _, some x => msgPath x == path
    | .landing p _, _ => p == path
    | _, _ => false)

/-- Does a message of a path taken off the landing buffer wait behind a held create? -/
def Ctx.behindOn (c : Ctx) (path : Nat) : Bool := c.behind.any fun b => b.2.1 == path

/-- Must a message wait for an earlier one of its queue pair: one refused with LAND_FULL that has not come again, one
in transit before it, or, where it would not land, one whose create is held on PWAIT (R280, R281, R352)? -/
def State.msgWaits (s : State) (m : FabricMsg) (before : List FabricMsg) : Bool :=
  let path := msgPath m
  let ahead := before.any fun x => msgPath x == path
  !m.fput && ((match tabFind s.fullNos path with
    | some n => if m.msgno = n then false else if (m.msgno - n).toNat < 2 ^ 31 then true else ahead
    | none => ahead) || (s.homeResident m.tctx && (s.pathHeld path || (s.ctx m.tctx).behindOn path)))

/-- Is a tick due on some die, or a window (R344)?  A message that comes in its ac or later counts after it
(R354). -/
def State.tickDue (s : State) : Bool :=
  s.dies.any fun d => d.2.fairDue

/-- Must a message of this package's own wait behind stores that lie before every later access of its sender's fabric
engine to what it writes (R114)? -/
def State.msgBlocked (s : State) (m : FabricMsg) : Bool :=
  let before := fun (c : Nat) => if clusterOf c = m.scl then 2 else if dieOf c = m.scl / 16 then 3 else 4
  match s.spans (s.fabricWho m.tctx) .plain true (msgRanges m) with
  | .error _ => false
  | .ok sp => s.ownMsg m && s.homeResident m.tctx && s.cores.any fun c => c.2.stores.any fun a => a.pieces.any fun q =>
      decide (before c.1 ≤ q.stage) && decide (q.stage < 4) && sp.any fun u => match q.loc with
        | some l => l.overlaps q.len u.loc u.len
        | none => false

/-- FABRIC_MESSAGE_ARRIVAL (R280, R281, R287, R288, R343): a message of this package's own in transit, or
one from outside, which waits in transit if it has come before its turn. -/
def execFabricMessageArrival (msg : FabricMsg) (s : State) : Host.Outcome State Fault Refusal :=
  match s.net.findIdx? fun x => x == msg with
  | some i =>
    if s.tickDue ∨ s.msgWaits msg (s.net.take i) ∨ s.msgBlocked msg then .next s
    else .next ({ s with net := s.net.eraseIdx i }.arriveMsg msg)
  | none =>
    if s.ownMsg msg then .next s
    else if s.tickDue ∨ s.msgWaits msg s.net then .next { s with net := s.net ++ [msg] }
    else .next (s.arriveMsg msg)

/-! ## Landing buffers applied (R337, R352) -/

/-- The message that the entry at HEAD holds, whose sender's path is `path`. -/
def State.landEntry (s : State) (ctx path : Nat) (l : Land) : FabricMsg :=
  let a := l.key + 64 + 4160 * l.head
  let f := fun off len => s.readNat l.mkey (a + off) len
  { kind := f 0 1, spkg := f 6 1, sctx := f 4 2 % 4096, scl := 0, qp := f 7 1, fput := f 7 1 == 255
    eth := if path / 2 ^ 20 < 1024 then none else some (path / 2 ^ 20 - 1024)
    tpkg := s.pkg.toNat, tctx := ctx, key := 0, gang := 0, va := BitVec.ofNat 64 (f 8 8)
    sva := BitVec.ofNat 64 (f 0x28 8), ver := BitVec.ofNat 32 (f 0x10 4)
    msgno := BitVec.ofNat 32 (f 0x14 4), rsem := if f 1 1 % 2 = 1 then some (f 0x18 1) else none
    windowed := false, payload := s.readBytes l.mkey (a + 64) (f 2 2), team := 0, ref := 0 }

/-- The entry at HEAD taken off; `applied` entries no longer count (R349). -/
def State.popLand (s : State) (ctx : Nat) (l : Land) (applied : Nat) : State :=
  (s.setLand { l with head := (l.head + 1) % max 1 l.size, count := l.count - applied }).modCtx ctx
      fun c => { c with landed := c.landed.drop 1 }

/-- One landed message applied as it would have been on arrival (R352): placed, its RSEM added after its data, or
discarded with a record.  `none` while the record must wait for room in the fault queue. -/
def State.applyMsg (s : State) (ctx : Nat) (m : FabricMsg) (path ref : Nat) : Option State :=
  match s.placeMsg m (.landing path ref) with
  | .done t => some (t.addRsem m path ref)
  | .held t => some t
  | .dropped t => some (t.addRsem m path ref)
  | .refused code va =>
    let l := s.land ctx
    let t := s.setLand { l with drops := l.drops + 1 }
    let t := { t with refusedRefs := tabPut t.refusedRefs path ref }
    let die := s.homeDie ctx
    if code = cVersionOrder then some t
    else if (s.die die).fqFull then none
    else some (t.queueFault
      { die := die, code := code, source := 4, flags := 1, unit := 0, ctx := ctx, core := die * 128
        pc := 0, addr := va, tag := 0, team := m.sctx + m.spkg * 2 ^ 16, mpc := 0, origin := 0
        uid := 0, recId := 0, cmd := 0 })

/-- The entry at HEAD applied, or set aside behind a held create of its queue pair, where it counts on until it is
applied (R281, R352; log 108). -/
def State.applyLand (s : State) (ctx : Nat) (l : Land) : Option State :=
  let (path, ref) := (s.ctx ctx).landed.headD (0, 0)
  let m := s.landEntry ctx path l
  if !m.fput && (s.pathHeld path || (s.ctx ctx).behindOn path) then
    some ((s.popLand ctx l 0).modCtx ctx fun c => { c with behind := c.behind ++ [(m, path, ref)] })
  else (s.popLand ctx l 1).applyMsg ctx m path ref

/-- The first message set aside whose queue pair no held create stops any longer. -/
def State.freed (s : State) (ctx : Nat) : Option (FabricMsg × Nat × Nat) :=
  (s.ctx ctx).behind.find? fun b => !s.pathHeld b.2.1

/-- Residency of a context on a die set (R337). -/
def State.setResid (s : State) (ctx die : Nat) (r : Resid) : State :=
  s.modCtx ctx fun c => { c with resid := tabSet Resid.out c.resid die r }

/-- WAITB records of a context whose deadline passed meanwhile resume with TIMEOUT (R337). -/
def State.lateWaits (s : State) (ctx : Nat) : State :=
  let late := (s.teams.map fun t =>
    if t.2.ctx = ctx then t.2.recs.filterMap fun q =>
      if q.kind = 2 ∧ q.state = 0 ∧ q.deadline ≠ 0 ∧
          q.deadline ≤ (s.die (s.teamDie t.1)).gnomon.toNat then some (t.1, q.id) else none
    else []).flatten
  late.foldl (fun s x => match s.barOf x.1 x.2 with
    | some k => s.unlinkBar k x.1 x.2 0x100
    | none => s) s

/-- LANDING_APPLY (R337, R352): at the home die's arrival the next entry is applied; with none left, none set aside
either, the context becomes RESIDENT there.  A message set aside behind a held create is applied once that is
performed. -/
def execLandingApply (die ctx : Nat) (s : State) : Host.Outcome State Fault Refusal :=
  if s.homeDie ctx ≠ die then .next s
  else match s.freed ctx with
  | some b =>
    let l := s.land ctx
    let t := (s.setLand { l with count := l.count - 1 }).modCtx ctx fun c => { c with behind := c.behind.erase b }
    orStay s (t.applyMsg ctx b.1 b.2.1 b.2.2)
  | none =>
    if tabGet Resid.out (s.ctx ctx).resid die ≠ .arriving then .next s
    else
    let l := s.land ctx
    if l.count = 0 then .next ((s.setResid ctx die .resident).lateWaits ctx)
    else if l.count ≤ (s.ctx ctx).behind.length then .next s
    else orStay s (s.applyLand ctx l)

/-! ## Accesses of other packages (R286) -/

/-- Does an access write?  An element of an ACW does. -/
def remoteWrites (r : RemoteReq) : Bool := r.write || r.atomic.isSome

/-- Does an export admit an access? -/
def State.exported (s : State) (r : RemoteReq) : Bool :=
  s.exports.any fun e => e.pkg == r.pkg && e.ctx == r.ctx && decide (e.base ≤ r.addr) &&
    decide (r.addr + r.len ≤ e.base + e.len) && (if remoteWrites r then e.w else e.r)

/-- The code with which an access from outside is refused (R99, R286). -/
def State.remoteBad (s : State) (r : RemoteReq) : Option Nat :=
  let loc := r.addr % 2 ^ 46
  let die := r.addr / 2 ^ 46 % 4
  if 0x300000000000 ≤ loc ∨ (0x200000000000 ≤ loc ∧ die = 0) then some cAccessDenied
  else if !backed loc then some cRange
  else if (s.die (r.addr / 2 ^ 46 % 4)).lost then some cPeerLost
  else if !s.exported r || s.refused r.key r.addr (remoteWrites r) then some cAccessDenied
  else none

/-- REMOTE_ACCESS (R127, R286): the access is checked against the exports, then performed or refused; an element of
an ACW reads and writes in one step (R258, R259). -/
def execRemoteAccess (req : RemoteReq) (s : State) : Host.Outcome State Fault Refusal :=
  let answer := fun (s : State) d c => { s with outbox := s.outbox ++ [.remoteAnswer req.pkg req.ref d c] }
  match s.remoteBad req with
  | some c => .next (answer s none c)
  | none =>
    match req.atomic with
    | some (op, ty, ret) =>
      let n := acwWidth ty
      let old := s.readNat req.key req.addr n
      let new := acwOp op ty old (req.data.toNat % 2 ^ (8 * n)) (ret.toNat % 2 ^ (8 * n))
      .next (answer (s.writePiece req.addr req.key n (BitVec.ofNat 64 new) (BitVec.ofNat 64 (2 ^ (8 * n) - 1)))
        (some (BitVec.ofNat 64 old)) 0)
    | none =>
    if req.write then
      let n := min req.len 8
      .next (answer (s.writePiece req.addr req.key n req.data (BitVec.ofNat 64 (2 ^ (8 * n) - 1))) none 0)
    else .next (answer s (some (BitVec.ofNat 64 (s.readNat req.key req.addr (min req.len 8)))) 0)

/-! ## FFLUSH (R272) -/

/-- Target of an FFLUSH. -/
def State.flushTo (s : State) (c : Cmd) : Nat :=
  let v := c.xa.toNat
  if 1024 ≤ v then v else s.pkgTarget v

/-- Does a place belong to a target? -/
def State.toTarget (s : State) (l : Loc) (t : Nat) : Bool :=
  match l with
  | .remote p _ => p == t
  | _ => s.pkg.toNat == t

/-- The target that a put not yet sent names, as its record stands (R271). -/
def State.putTarget (s : State) (c : Cmd) : Option Nat :=
  match s.engineBytes c.who c.xa 32 with
  | .ok bs =>
    let f := fun off len => leNat ((bs.drop off).take len)
    some (if f 0x13 1 = 1 then 1024 + f 0x14 2 else s.pkgTarget (f 0x12 1))
  | _ => none

/-- Package that something which a port sends again writes to (R416). -/
def Out.target : Out → Option Nat
  | .message m => some m.tpkg
  | .store _ pkg _ _ _ _ => some pkg
  | .atomic _ pkg _ _ _ _ _ _ => some pkg
  | _ => none

/-- Are the task's covered stores and puts, the messages of the team's entries that have fired, and what was sent again
to the target performed there (R272, R416, R441; log 109)? -/
def State.flushed (s : State) (c : Cmd) (t : Nat) : Bool :=
  ((s.core c.core).stores.all fun a => a.team != c.team || a.seq != c.seq || a.cmd != 0 || c.id ≤ a.id ||
    a.pieces.all fun p => (match p.loc with
      | some l => !s.toTarget l t
      | none => false) || p.performedFor 4) &&
  ((s.core c.core).cmds.all fun d => d.queue != .fput || d.team != c.team || d.seq != c.seq || c.id ≤ d.id ||
    (s.putTarget d).any (· != t)) &&
  (match tabFind s.teams c.team with
    | some m => m.posted.all fun p => p.2.1 != t || p.2.2.any (· != c.seq) || c.id ≤ p.1
    | none => true) &&
  s.ports.all fun p => p.2.resent.all fun o => o.target != some t

/-- The first refusal recorded for a team and target. -/
def State.refusalOf (s : State) (team t : Nat) : Nat :=
  match tabFind s.teams team with
  | some m => ((m.refusals.find? fun r => r.1 == t).map (·.2)).getD 0
  | none => 0

/-- FFLUSH_COMPLETE (R272, R442): the command starts by translating its status address; once what it
covers is performed, or the target is lost, the status is written and the token becomes done. -/
def execFflushComplete (id : Nat) (lost : Bool) (s : State) : Host.Outcome State Fault Refusal :=
  match s.findCmd id with
  | none => .next s
  | some c =>
    let isFlush := match c.instr with
      | .fflush _ => true
      | _ => false
    if !isFlush ∨ !s.cmdRuns c then .next s
    else if !c.sent then
      let s := s.fillFabric c 0
      match s.statusSpan c with
      | .error (va, code) => s.fabricFault c va code (fun _ => false) true
      | .ok st => .next (s.setCmd { c with
          started := true, sent := true, units := unitPieces (s.epoch c.core) st })
    else
      let t := s.flushTo c
      let gone := s.targetLost t || (lost && decide (1024 ≤ t))
      if !gone && !s.flushed c t then .next s
      else
        let code := if gone then cPeerLost else s.refusalOf c.team t
        let s := s.modTeam c.team fun m => { m with refusals := m.refusals.filter fun r => r.1 != t }
        let st := c.units.filterMap fun p => p.loc.map fun l => (⟨p.va.toNat, p.len, l, p.mkey⟩ : Span)
        .next (s.statusDone c st code)

/-- LAUNCH_STATUS_RETURN (R273): the answer to a LAUNCH sent to a peer. -/
def execLaunchStatusReturn (id code : Nat) (s : State) : Host.Outcome State Fault Refusal :=
  match s.findCmd id with
  | none => .next s
  | some c =>
    let isLaunch := match c.instr with
      | .launch _ => true
      | _ => false
    if !isLaunch ∨ !c.sent then .next s
    else
      let st := c.units.filterMap fun p => p.loc.map fun l => (⟨p.va.toNat, p.len, l, p.mkey⟩ : Span)
      .next (s.statusDone c st code)

end Sys2Proof.Machine
end

