-- ==== Sys2Proof/Machine/System.lean ====
section
/-! DEFINITION. The thirteen system instructions of major 0x3E (R312 to R328). -/

namespace Sys2Proof.Machine

/-! ## Common operands (R320, R321) -/

/-- The core that XB selects, or none where SHAPE is raised (R320). -/
def selectCore (e : Env) (v : W64) : Option Nat :=
  let n := v.toNat
  if n.testBit 31 = false then some e.core
  else if n / 2 ^ 32 = 0 ∧ n / 2 ^ 9 % 2 ^ 22 = 0 ∧ n % 512 / 128 = e.die then some (n % 512)
  else none

/-- The register number used, or none where it leaves its row (R321). -/
def regNumber (imm : BitVec 22) (xc : W64) : Option Nat :=
  let base := imm.toNat % 4096
  let n := base + xc.toNat
  if n = base ∨ (16 ≤ base ∧ n < 24) then some n else none

/-- SHAPE raised. -/
def shapeAct : Act := Act.raise cShape 0

/-! ## RDPR and WRPR (R317, R318, R321) -/

/-- Class of the section that holds a task's PC (R312). -/
def State.classAt (s : State) (e : Env) : Nat :=
  match s.sectionAt e.who e.task.pc with
  | some id => ((s.sections.find? fun c => c.id == id).map (·.cls)).getD 0
  | none => 0

/-- A privileged register's value. -/
def State.readPriv (s : State) (e : Env) (core n : Nat) : W64 :=
  let d := s.die e.die
  let k := s.core core
  match n with
  | 0x000 => w64 (s.classAt e)
  | 0x001 => s.ctxbase.zeroExtend 64
  | 0x002 => d.hcore.zeroExtend 64
  | 0x003 => d.hpc.zeroExtend 64
  | 0x004 => d.fqbase.zeroExtend 64
  | 0x005 => d.fqsize.zeroExtend 64
  | 0x006 => d.fqhead.zeroExtend 64
  | 0x007 => w64 (d.fqtail.toNat + d.fqCount * 2 ^ 16)
  | 0x008 => d.epochNow.zeroExtend 64
  | 0x009 => s.qdone.zeroExtend 64
  | 0x00A => w64 (d.world.toNat + if d.latched then 256 else 0)
  | 0x00B => w64 (k.shadowSt.toNat + (tabGet 0 k.plane 0).toNat % 4096 * 16)
  | 0x00C => d.tagbase.zeroExtend 64
  | n => (k.owner (n - 16)).zeroExtend 64

/-- RDPR (R321). -/
def execRdpr (f : FSW) (s : State) : Host.Outcome State Fault Refusal :=
  issue f.st.toNat 8 [.x f.xb f.feb, .x f.xc f.fec] [.x f.xd]
    (fun e s =>
      match selectCore e (e.task.getX f.xb), regNumber f.imm (e.task.getX f.xc) with
      | some core, some n => .done (s.commit e ((e.task.setX f.xd (s.readPriv e core n)).advance 8))
      | _, _ => shapeAct) s

/-- Is a value a permitted FQSIZE (R318)? -/
def fqSizeOk (v : Nat) : Bool := (List.range 9).any fun i => v == 16 * 2 ^ i

/-- A privileged register written; RSV and HW bits are ignored (R318, R321). -/
def State.writePriv (s : State) (e : Env) (core n : Nat) (v : W64) : State :=
  let mod := fun g => s.modDie e.die g
  let busy := !(s.die e.die).fq.isEmpty
  match n with
  | 0x001 => { s with ctxbase := v.extractLsb' 0 56 }
  | 0x002 => mod fun d => { d with hcore := v.extractLsb' 0 7 }
  | 0x003 => mod fun d => { d with hpc := v.extractLsb' 0 55 }
  | 0x004 => if busy then s else mod fun d => { d with fqbase := v.extractLsb' 0 56 }
  | 0x005 => if busy || !fqSizeOk (v.toNat % 2 ^ 13) then s
      else mod fun d => { d with fqsize := v.extractLsb' 0 13 }
  | 0x00C => mod fun d => { d with tagbase := v.extractLsb' 0 46 }
  | n => s.modCore core fun k => { k with
      accown := tabSet 0 k.accown (n - 16) (v.extractLsb' 0 16 &&& 0x8FFF) }

/-- Has every accepted command of a core that touches a tile finished with it (R225, R319)? -/
def State.tileFree (s : State) (core tile : Nat) : Bool :=
  (s.core core).cmds.all fun c => c.tile != some tile

/-- WRPR (R319, R321): a write to ACCOWN waits for the earlier commands that touch the tile. -/
def execWrpr (f : FSW) (s : State) : Host.Outcome State Fault Refusal :=
  issue f.st.toNat 8 [.x f.xa f.fea, .x f.xb f.feb, .x f.xc f.fec] []
    (fun e s =>
      match selectCore e (e.task.getX f.xb), regNumber f.imm (e.task.getX f.xc) with
      | some core, some n =>
        if 16 ≤ n ∧ !s.tileFree core (n - 16) then .hold
        else .done ((s.writePriv e core n (e.task.getX f.xa)).commit e (e.task.advance 8))
      | _, _ => shapeAct) s

/-! ## ERET (R323, R364, R365) -/

/-- Fault record of a die that an address names, written and not released. -/
def State.faultAt (s : State) (die : Nat) (a : W64) : Option FaultRec :=
  (s.die die).fq.find? fun r => !r.released &&
    a.toNat == (s.die die).fqbase.toNat + 64 * r.index

/-- A record released; FQHEAD goes past released records. -/
def State.releaseFault (s : State) (die : Nat) (r : FaultRec) : State :=
  s.modDie die fun d =>
    let fq := d.fq.map fun q => if q.index = r.index then { q with released := true } else q
    let gone := (fq.takeWhile (·.released)).length
    { d with
      fq := fq.drop gone
      fqhead := BitVec.ofNat 12 ((d.fqhead.toNat + gone) % max 1 d.fqsize.toNat) }

/-- Origin record of an aborted task that awaits ERET (R365). -/
def Team.aborted (t : Team) (origin : Nat) : Option Rec :=
  t.recs.find? fun q => q.id == origin && q.state == 3

/-- An aborted task that is not requeued leaves its origin (R34). -/
def Team.dropAborted (t : Team) (origin : Nat) : Team :=
  if origin = 0 then { t with startAborted := false }
  else { t with recs := t.recs.filter fun q => !(q.id == origin && q.state == 3) }

/-- What a TERM record repeats of a record that is passed on (R362). -/
def FaultRec.found (r : FaultRec) : Found := ⟨r.source, r.flags % 4, r.unit, r.mpc⟩

/-- The task that a BREAK's record holds (R322). -/
def Team.broken (t : Team) (r : FaultRec) : Option Task :=
  t.task.bind fun k => if r.code = 0 ∧ r.source = 6 ∧ k.hold = .brk ∧ k.seq.toNat = r.cmd then some k else none

/-- A task's record passed to FHANDLER, or its launch terminated (R40, R323): the task that a BREAK holds ends,
an aborted one is not requeued.  `none` while a TERM record must wait for room. -/
def State.passRecord (s : State) (r : FaultRec) (term : Bool) : Option State :=
  match tabFind s.teams r.team with
  | none => some s
  | some t =>
    match t.broken r with
    | some k =>
      let o := k.origin.bind fun o => t.recs.find? fun q => q.id == o
      (s.endTask r.team).passFault r.team r.core r.code r.pc r.addr (originWord o) (term || k.handler) r.found
    | none =>
      if r.source = 6 ∧ term = false then some s
      else
      let o := t.aborted r.origin
      let handler := term || o.any fun q => q.kind == 5
      (s.modTeam r.team fun t => t.dropAborted r.origin).passFault r.team r.core r.code r.pc r.addr (originWord o)
        handler r.found

/-- The later commands of the same team and engine (R244, R252, R323). -/
def sameEngine (c d : Cmd) : Bool := d.queue == c.queue || (d.queue.isCopy && c.queue.isCopy)

/-- A parked command and the later ones of its engine discarded, on its core or in a save image. -/
def State.dropParked (s : State) (c : Cmd) : State :=
  let gone := fun d => d.id == c.id || (decide (c.id < d.id) && d.team == c.team && sameEngine c d)
  let s := s.discard c.core gone
  { s with images := s.images.map fun m =>
    { m with
      cmds := m.cmds.filter fun d => !gone d
      sb := m.sb.filter fun b => !(m.cmds.any fun d => gone d && d.id == b.cmd) } }

/-- A parked command by its name, on a core or in a save image. -/
def State.findParked (s : State) (id : Nat) : Option Cmd :=
  ((s.findCmd id).orElse fun _ => s.images.findSome? fun m => m.cmds.find? fun c => c.id == id).bind
    fun c => if c.parked then some c else none

/-- ACTION 1 or 2 on a record with PARKED = 1 (R323). -/
def State.actParked (s : State) (r : FaultRec) (term : Bool) : Option State :=
  if 2 ^ 40 ≤ r.cmd then
    let cl := (r.cmd - 2 ^ 40) / 512
    let qp := r.cmd % 512
    let q := s.qp cl qp
    match q.parked, q.next with
    | true, some e =>
      let s := (s.setQp cl qp { q with parked := false, replay := false }).qpError cl qp (s.qpDesc cl qp) e r.code
      if term then s.passRecord r true
      else s.faultTeam e.team r.core r.code e.pc r.addr e.seq r.found
    | _, _ => some s
  else match s.findParked r.cmd with
    | none => some s
    | some c =>
      let s := s.dropParked c
      if term then s.passRecord r true
      else
        let s := if r.source = 1 then s.modTeam c.team fun t => { t with mqCode := BitVec.ofNat 8 r.code } else s
        s.faultTeam c.team r.core r.code c.pc r.addr c.seq r.found

/-- The effect of ERET on a record (R323, R364).  `none` while a TERM record must wait for room. -/
def State.settleFault (s : State) (r : FaultRec) (action : Nat) : Option State :=
  if r.term then some s
  else if r.parked then if action = 0 then some s else s.actParked r (action == 2)
  else if action = 0 ∧ r.code = 0 ∧ r.source = 6 then
    some (s.modTeam r.team fun t => match t.broken r with
      | some k => { t with task := some { k with hold := .free } }
      | none => t)
  else if action = 0 ∧ r.source = 0 ∧ requeues r.code true = true then some (s.requeue r.team r.origin)
  else s.passRecord r (action == 2)

/-- ERET (R323): it ends the task, like END once its older accesses have translated (log 18). -/
def execEret (f : FSW) (s : State) : Host.Outcome State Fault Refusal :=
  issue f.st.toNat 8 [.x f.xa f.fea] []
    (fun e s =>
      if !s.translated e.core e.uid then .hold
      else
        let s' := s.endTask e.uid
        match s.faultAt e.die (e.task.getX f.xa) with
        | none => .done s'
        | some r =>
          match (s'.releaseFault e.die r).settleFault r (f.imm.toNat % 4) with
          | some t => .done t
          | none => .hold) s

/-! ## ASAVE and AREST (R324) -/

/-- Bytes of a tile: row r at 256r, its words in column order. -/
def Core.tileBytes (k : Core) (tile : Nat) : List (BitVec 8) :=
  ((List.range 128).map fun r => leBytes 256 (tabGet 0 k.acc (tile * 128 + r)).toNat).flatten

/-- A tile written from bytes, from row `r` on. -/
def Core.loadTile (k : Core) (tile r : Nat) (bs : List (BitVec 8)) : Nat → Core
  | 0 => k
  | n + 1 =>
    { k with acc := tabSet 0 k.acc (tile * 128 + r) (BitVec.ofNat 2048 (leNat (bs.take 256))) }.loadTile tile
      (r + 1) (bs.drop 256) n

/-- Bytes of a save area. -/
def areaBytes : Nat := 32768

/-- The operands of ASAVE and AREST: core and tile, or SHAPE. -/
def areaOperands (e : Env) (f : FSW) : Option (Nat × Nat) :=
  let tile := (e.task.getX f.xc).toNat
  match selectCore e (e.task.getX f.xb) with
  | some core => if tile < 8 ∧ (e.task.getX f.xa).toNat % 128 = 0 then some (core, tile) else none
  | none => none

/-- ASAVE (R324). -/
def execAsave (f : FSW) (s : State) : Host.Outcome State Fault Refusal :=
  issue f.st.toNat 8 [.x f.xa f.fea, .x f.xb f.feb, .x f.xc f.fec] []
    (fun e s =>
      let a := e.task.getX f.xa
      match areaOperands e f with
      | none => shapeAct
      | some (core, tile) =>
        if !s.tileFree core tile then .hold
        else match s.spans e.who .plain true (units a.toNat areaBytes) with
          | .error (va, c) => .fault ⟨c, w64 va, true, false, false⟩
          | .ok sp =>
            match s.spansRefused sp true with
            | some va => .fault ⟨cAccessDenied, w64 va, true, false, false⟩
            | none =>
              if s.spansBlocked e.core sp then .hold
              else
                let s := s.fillUnits e.who .plain true (units a.toNat areaBytes)
                let s := s.putUnits sp ((s.core core).tileBytes tile)
                let s := s.modCore core fun k =>
                  { k.zeroRows tile 0 128 with accown := tabSet 0 k.accown tile (k.owner tile &&& 0x7FFF) }
                .done (s.commit e (e.task.advance 8))) s

/-- AREST (R324). -/
def execArest (f : FSW) (s : State) : Host.Outcome State Fault Refusal :=
  issue f.st.toNat 8 [.x f.xa f.fea, .x f.xb f.feb, .x f.xc f.fec] []
    (fun e s =>
      match areaOperands e f with
      | none => shapeAct
      | some (core, tile) =>
        if !s.tileFree core tile then .hold
        else match s.engineBytes e.who (e.task.getX f.xa) areaBytes with
          | .wait => .hold
          | .bad va c => .fault ⟨c, w64 va, false, false, false⟩
          | .ok bs =>
            let s := s.fillUnits e.who .plain false (units (e.task.getX f.xa).toNat areaBytes)
            let s := s.modCore core fun k => k.loadTile tile 0 bs 128
            .done (s.commit e (e.task.advance 8))) s

/-! ## TLBINV and REPLAY (R287, R325, R326) -/

/-- Does a TLB entry match an invalidation? -/
def tlbMatch (mode : Nat) (xa xb : W64) (t : TlbEntry) : Bool :=
  match mode with
  | 0 => t.ctx == xb.toNat && t.vpn == (if t.big then xa.toNat / 2 ^ 29 else xa.toNat / 2 ^ 16)
  | 1 => t.ctx == xb.toNat
  | _ => true

/-- Does a line of the instruction cache match one? -/
def lineMatch (mode : Nat) (xa xb : W64) (l : ILine) : Bool :=
  match mode with
  | 0 => l.ctx == xb.toNat && l.vpn == xa.toNat / 2 ^ 16
  | 1 => l.ctx == xb.toNat
  | _ => true

/-- An invalidation (R325): every TLB of the package, and the instruction-cache lines of the pages. -/
def State.invalidate (s : State) (mode : Nat) (xa xb : W64) : State :=
  let keep := fun (t : List TlbEntry) => t.filter fun x => !tlbMatch mode xa xb x
  let s := { s with
    cores := s.cores.map fun k => (k.1, { k.2 with
      tlb := keep k.2.tlb, icache := k.2.icache.filter fun l => !lineMatch mode xa xb l })
    clusters := s.clusters.map fun k => (k.1, { k.2 with tlb := keep k.2.tlb }) }
  if mode = 1 then s.dropRemoteKey xb.toNat else s

/-- TLBINV in a mode. -/
def tlbinv (e : Env) (bytes mode : Nat) (xa xb : W64) (s : State) : Act :=
  if mode < 2 ∧ 4096 ≤ xb.toNat then shapeAct
  else .done ((s.invalidate mode xa xb).commit e (e.task.advance bytes))

/-- TLBINV in format S means mode 0 (R325). -/
def execTlbinv (f : FS) (s : State) : Host.Outcome State Fault Refusal :=
  issue 0 4 (FS.srcs f) []
    (fun e s => tlbinv e 4 0 (e.task.getX f.xa) (e.task.getX f.xb) s) s

/-- TLBINV in format SW (R325). -/
def execTlbinvSw (f : FSW) (s : State) : Host.Outcome State Fault Refusal :=
  issue f.st.toNat 8 (FSW.srcs f) []
    (fun e s => tlbinv e 8 (f.imm.toNat % 4) (e.task.getX f.xa) (e.task.getX f.xb) s) s

/-- A replay reaches the parked accesses of the contexts that `p` names on a die (R326). -/
def State.replayDie (s : State) (die : Nat) (p : Nat → Bool) : State :=
  { s with
    cores := s.cores.map fun k => if dieOf k.1 = die then (k.1, { k.2 with
        cmds := k.2.cmds.map fun c => if c.parked ∧ p c.ctx then { c with retry := true } else c }) else k
    clusters := s.clusters.map fun k => if k.1 / 16 = die then (k.1, { k.2 with
        qps := k.2.qps.map fun q => if q.2.parked ∧ q.2.entries.any (fun e => p e.ctx) then
          (q.1, { q.2 with replay := true }) else q }) else k }

/-- REPLAY (R326). -/
def replay (e : Env) (bytes : Nat) (xa : W64) (s : State) : Act :=
  let n := xa.toNat
  if 2 ^ 13 ≤ n then shapeAct
  else .done ((s.replayDie e.die fun c => n.testBit 12 || c == n % 4096).commit e (e.task.advance bytes))

/-- REPLAY in format S. -/
def execReplay (f : FS) (s : State) : Host.Outcome State Fault Refusal :=
  issue 0 4 [.x f.xa f.fea] [] (fun e s => replay e 4 (e.task.getX f.xa) s) s

/-- REPLAY in format SW. -/
def execReplaySw (f : FSW) (s : State) : Host.Outcome State Fault Refusal :=
  issue f.st.toNat 8 [.x f.xa f.fea] [] (fun e s => replay e 8 (e.task.getX f.xa) s) s

/-! ## QUAR and QSTAT (R327, R370, R401, R404) -/

/-- An instruction that writes one result. -/
def sysResult (e : Env) (bytes : Nat) (d : BitVec 6) (v : W64) (s : State) : Act :=
  .done (s.commit e ((e.task.setX d v).advance bytes))

/-- Does a run of frames hold one that a context has claimed (R401)?  Frames are numbered as address
bits [55:16]. -/
def State.runClaimed (s : State) (frame len : Nat) : Bool :=
  (List.range len).any fun i =>
    let a := (frame + i) * 65536
    s.ownPkg a && backed (a % 2 ^ 46) &&
      (tabFind (s.die (a / 2 ^ 46 % 4)).claims (frameIndex (a % 2 ^ 46))).isSome

/-- QUAR (R327). -/
def quar (e : Env) (bytes : Nat) (d : BitVec 6) (xa xb : W64) (s : State) : Act :=
  let a := xa.toNat
  let n := xb.toNat
  if a % 65536 ≠ 0 ∨ 2 ^ 56 ≤ a ∨ n = 0 ∨ 8192 < n ∨ s.runClaimed (a / 65536) n = true then
    sysResult e bytes d 2 s
  else if 4096 ≤ (s.die e.die).quar.length then sysResult e bytes d 1 s
  else
    let run : QuarRun := ⟨a / 65536, n, (s.die e.die).epochNow.toNat⟩
    sysResult e bytes d 0 (s.modDie e.die fun k => { k with quar := k.quar ++ [run] })

/-- QUAR in format S. -/
def execQuar (f : FS) (s : State) : Host.Outcome State Fault Refusal :=
  issue 0 4 (FS.srcs f) [.x f.xd] (fun e s => quar e 4 f.xd (e.task.getX f.xa) (e.task.getX f.xb) s) s

/-- QUAR in format SW. -/
def execQuarSw (f : FSW) (s : State) : Host.Outcome State Fault Refusal :=
  issue f.st.toNat 8 (FSW.srcs f) [.x f.xd]
    (fun e s => quar e 8 f.xd (e.task.getX f.xa) (e.task.getX f.xb) s) s

/-- Does a pending scrub still hold a frame of a run (R404)? -/
def State.runScrubbed (s : State) (q : QuarRun) : Bool :=
  s.scrubs.any fun r => r.runs.any fun x =>
    let f := (r.die * 2 ^ 46) / 65536 + x.1
    let g := gpaKey (q.frame * 65536) / 65536
    decide (f < g + q.len) && decide (g < f + x.2)

/-- May QSTAT release a run (R327, R370)? -/
def State.releasable (s : State) (q : QuarRun) : Bool :=
  s.quiesced q.epoch && !s.runScrubbed q

/-- A frame number that no frame has: an unlocked place of a section. -/
def noFrame : Nat := 2 ^ 48

/-- The frames of a run unlocked (R361, R370); a section with none left is gone. -/
def State.unlockRun (s : State) (q : QuarRun) : State :=
  let f := gpaKey (q.frame * 65536) / 65536
  let un := fun x => if f ≤ x ∧ x < f + q.len then noFrame else x
  let l := s.sections.map fun c => { c with frames := c.frames.map un }
  { s with sections := l.filter fun c => c.frames.any fun x => x != noFrame }

/-- QSTAT (R327). -/
def qstat (e : Env) (bytes : Nat) (d : BitVec 6) (xa : W64) (s : State) : Act :=
  let l := (s.die e.die).quar
  if xa = 0 then
    match l with
    | [] => sysResult e bytes d 0 s
    | q :: qs =>
      if s.releasable q then
        sysResult e bytes d (w64 (q.frame * 65536 + (q.len - 1)))
          ((s.modDie e.die fun k => { k with quar := qs }).unlockRun q)
      else sysResult e bytes d 0 s
  else if xa = 1 then
    sysResult e bytes d (w64 (l.length + (l.filter s.releasable).length * 2 ^ 16)) s
  else shapeAct

/-- QSTAT in format S. -/
def execQstat (f : FS) (s : State) : Host.Outcome State Fault Refusal :=
  issue 0 4 [.x f.xa f.fea] [.x f.xd] (fun e s => qstat e 4 f.xd (e.task.getX f.xa) s) s

/-- QSTAT in format SW. -/
def execQstatSw (f : FSW) (s : State) : Host.Outcome State Fault Refusal :=
  issue f.st.toNat 8 [.x f.xa f.fea] [.x f.xd] (fun e s => qstat e 8 f.xd (e.task.getX f.xa) s) s

/-! ## CFGDIFF (R315, R316, R328) -/

/-- The 1,024 bytes of a plane. -/
def planeBytes (p : Tab W64) : List (BitVec 8) :=
  ((List.range 128).map fun i => leBytes 8 (tabGet 0 p i).toNat).flatten

/-- The bits of a plane's word that are not RSV (R315); RSV bits read 0 and discard what is written (R6). -/
def planeMask (w : Nat) : W64 :=
  match w with
  | 0 => 0x8000000000000FFF
  | 1 => 0x00FFFFFFFFFFFFFF
  | 2 => 0xFFF
  | 3 => 0xFFFFFF
  | 4 => 0x007FFFFFFFFFFFFF
  | 5 => 0x3
  | 6 => 0x007FFFFFFFFFFFFF
  | 7 => 0x1
  | w => if 64 ≤ w ∧ w < 128 then 0x1FFF1FFFF else 0

/-- A difference list applied to a plane. -/
def applyDiff (p : Tab W64) : List (Nat × W64) → Tab W64
  | [] => p
  | (w, v) :: l => applyDiff (tabSet 0 p w (v &&& planeMask w)) l

/-- A core takes a difference list with its checksum (R316): ready, or refused with CFG_CHECK. -/
def Core.takeDiff (k : Core) (l : List (Nat × W64)) (crc : BitVec 32) : Core :=
  let p := applyDiff k.plane l
  if crc32c (planeBytes p) = crc then { k with shadow := p, shadowSt := 1 }
  else { k with shadow := [], shadowSt := 2 }

/-- A list's entries from its bytes; none where an RSV byte is not 0 or a WORD is above 127. -/
def diffEntries (bs : List (BitVec 8)) : Nat → Option (List (Nat × W64))
  | 0 => some []
  | n + 1 =>
    let w := leNat (bs.take 8)
    if 128 ≤ w then none
    else (diffEntries (bs.drop 16) n).map fun l => (w, w64 (leNat ((bs.drop 8).take 8))) :: l

/-- COUNT of a list's header, and its CRC; none where it is refused (R316). -/
def diffHeader (bs : List (BitVec 8)) : Option (Nat × BitVec 32) :=
  let n := leNat (bs.take 2)
  if n = 0 ∨ 128 < n ∨ leNat ((bs.drop 2).take 2) ≠ 0 ∨ leNat ((bs.drop 8).take 8) ≠ 0 then none
  else some (n, BitVec.ofNat 32 (leNat ((bs.drop 4).take 4)))

/-- Cores that CFGDIFF names (R328). -/
def namedCores (die v : Nat) : List Nat :=
  ((List.range 16).map fun cl => (List.range 8).filterMap fun c =>
    if v.testBit cl ∧ (v / 2 ^ 16 % 256 = 0 ∨ v.testBit (16 + c) = true) then some (die * 128 + cl * 8 + c)
    else none).flatten

/-- A list, or its refusal, applied on every named core. -/
def State.diffCores (s : State) (diff : Option (List (Nat × W64) × BitVec 32)) : List Nat → State
  | [] => s
  | c :: cs => (s.modCore c fun k => match diff with
      | some (l, crc) => k.takeDiff l crc
      | none => { k with shadow := [], shadowSt := 2 }).diffCores diff cs

/-- CFGDIFF (R316, R328). -/
def cfgdiff (e : Env) (bytes : Nat) (d : BitVec 6) (xa xb : W64) (s : State) : Act :=
  let finish := fun (s : State) cs =>
    sysResult e bytes d (if cs.all fun c => (s.core c).shadowSt == 1 then 0 else w64 cCfgCheck) s
  if 2 ^ 24 ≤ xb.toNat then shapeAct
  else
    let cs := namedCores e.die xb.toNat
    match s.engineBytes e.who xa 16 with
    | .wait => .hold
    | .bad va c => .fault ⟨c, w64 va, false, false, false⟩
    | .ok hd =>
      let s := s.fillUnits e.who .plain false (units xa.toNat 16)
      match diffHeader hd with
      | none => finish (s.diffCores none cs) cs
      | some (n, crc) =>
        match s.engineBytes e.who (xa + 16) (16 * n) with
        | .wait => .hold
        | .bad va c => .fault ⟨c, w64 va, false, false, false⟩
        | .ok bs =>
          let s := s.fillUnits e.who .plain false (units (xa + 16).toNat (16 * n))
          finish (s.diffCores ((diffEntries bs n).map fun l => (l, crc)) cs) cs

/-- CFGDIFF in format S. -/
def execCfgdiff (f : FS) (s : State) : Host.Outcome State Fault Refusal :=
  issue 0 4 (FS.srcs f) [.x f.xd]
    (fun e s => cfgdiff e 4 f.xd (e.task.getX f.xa) (e.task.getX f.xb) s) s

/-- CFGDIFF in format SW. -/
def execCfgdiffSw (f : FSW) (s : State) : Host.Outcome State Fault Refusal :=
  issue f.st.toNat 8 (FSW.srcs f) [.x f.xd]
    (fun e s => cfgdiff e 8 f.xd (e.task.getX f.xa) (e.task.getX f.xb) s) s

/-! ## WLATCH, HALT and IDLE (R328, R386, R392) -/

/-- A world latched, with a fresh unwrap key (R386, R392). -/
def State.latch (s : State) (die : Nat) (w : BitVec 8) : State :=
  s.modDie die fun d =>
    { d with world := w, latched := true, unwrap := some (privateKey (Config.unwrapKey s.ticks)) }

/-- WLATCH (R328). -/
def wlatch (e : Env) (bytes : Nat) (d : BitVec 6) (xa : W64) (s : State) : Act :=
  if 256 ≤ xa.toNat then shapeAct
  else if (s.die e.die).latched then sysResult e bytes d 1 s
  else sysResult e bytes d 0 (s.latch e.die (xa.extractLsb' 0 8))

/-- WLATCH in format S. -/
def execWlatch (f : FS) (s : State) : Host.Outcome State Fault Refusal :=
  issue 0 4 [.x f.xa f.fea] [.x f.xd] (fun e s => wlatch e 4 f.xd (e.task.getX f.xa) s) s

/-- WLATCH in format SW. -/
def execWlatchSw (f : FSW) (s : State) : Host.Outcome State Fault Refusal :=
  issue f.st.toNat 8 [.x f.xa f.fea] [.x f.xd] (fun e s => wlatch e 8 f.xd (e.task.getX f.xa) s) s

/-- Cores of a die whose active context is the one named. -/
def State.coresOf (s : State) (die ctx : Nat) : List Nat :=
  s.cores.filterMap fun k => if dieOf k.1 = die ∧ k.2.activeCtx = some ctx then some k.1 else none

/-- A pre-emption requested on cores (R374), which the halted context leaves until their quanta end. -/
def State.requestHalt (s : State) (ctx : Nat) (bar : Bool) : List Nat → State
  | [] => s
  | c :: cs => (s.modCore c fun k => { k with
      halting := true
      barred := if bar && !k.barred.contains ctx then ctx :: k.barred else k.barred }).requestHalt ctx bar cs

/-- HALT (R328): the request reaches every core of the die at once; the task is held until those that run the
context then have halted it. -/
def halt (e : Env) (bytes : Nat) (d : BitVec 6) (xa : W64) (s : State) : Act :=
  let n := xa.toNat
  if n = 0 ∨ 4096 ≤ n then shapeAct
  else
    let cs := s.coresOf e.die n
    let t := (e.task.setX d (w64 cs.length)).advance bytes
    let due := cs.filter fun c => !((s.core c).halting && s.saved c n)
    .done ((s.requestHalt n true cs).commit e (if due.isEmpty then t else { t with hold := .halting n due }))

/-- HALT in format S. -/
def execHalt (f : FS) (s : State) : Host.Outcome State Fault Refusal :=
  issue 0 4 [.x f.xa f.fea] [.x f.xd] (fun e s => halt e 4 f.xd (e.task.getX f.xa) s) s

/-- HALT in format SW. -/
def execHaltSw (f : FSW) (s : State) : Host.Outcome State Fault Refusal :=
  issue f.st.toNat 8 [.x f.xa f.fea] [.x f.xd] (fun e s => halt e 8 f.xd (e.task.getX f.xa) s) s

/-- IDLE in format S (R328): the task ends as by END; stopped clocks change timing only. -/
def execIdle (_f : FS) (s : State) : Host.Outcome State Fault Refusal := endOp 0 4 s

/-- IDLE in format SW (R328). -/
def execIdleSw (f : FSW) (s : State) : Host.Outcome State Fault Refusal := endOp f.st.toNat 8 s

end Sys2Proof.Machine
end

