-- ==== Sys2Proof/Machine/Launch.lean ====
section
/-! DEFINITION. Launch records and queues, ranks of contexts, placement, task start, issue and
retirement (R17 to R30, R118, R273, R330 to R335, R340 to R347). -/

namespace Sys2Proof.Machine

/-! ## Launch queues (R330) -/

/-- A launch ring: key of its descriptor, BASE, SIZE, HEAD and TAIL. -/
structure Ring where
  key : Nat
  base : Nat
  size : Nat
  head : Nat
  tail : Nat

/-- The ring of a priority of a context. -/
def State.launchRing (s : State) (ctx prio : Nat) : Ring :=
  let k := gpaKey ((s.descWord ctx 9).toNat % 2 ^ 56 + 32 * prio)
  let f := fun off n => s.readNat 0 (k + off) n
  ⟨k, f 0 8 % 2 ^ 56, f 8 2 % 2 ^ 13, f 12 4, f 16 4⟩

/-- Records in a ring. -/
def Ring.used (r : Ring) : Nat := (r.tail + 2 ^ 32 - r.head) % 2 ^ 32

/-- Key of the slot that record number `n` of a ring uses. -/
def Ring.slotKey (r : Ring) (n : Nat) : Nat := gpaKey (r.base + 256 * (n % max 1 r.size))

/-- A field of a launch record: `n` bytes at an offset (R18). -/
def recF (bs : List (BitVec 8)) (off n : Nat) : Nat := leNat ((bs.drop off).take n)

/-- DIEMASK of a launch: 0 permits every die (R18). -/
def permits (mask d : Nat) : Bool := mask == 0 || mask.testBit d

/-- DIES of a context (R314). -/
def State.diesOf (s : State) (ctx : Nat) : Nat := (s.descWord ctx 0).toNat / 2 ^ 16 % 16

/-! ## What fits where (R24, R80, R334) -/

/-- May the scheduler use a core (R420, R339)? -/
def State.coreUsable (s : State) (c : Nat) : Bool :=
  let d := s.die (dieOf c)
  let k := s.core c
  decide (c < 512) && d.up && !d.lost && k.usable && !k.removed

/-- Core on which a team's next task runs; a system team's is the handler core (R322). -/
def State.startCore (s : State) (uid : Nat) (t : Team) : Option Nat :=
  if uid < 16 then some ((uid - 1) * 128 + (s.die (uid - 1)).hcore.toNat) else t.core

/-- Placed teams of a core, which hold its resources (R24): with those in transit to it (R353; log 62), a system team
there or whose next task runs there (R312; log 29), and without those of a context that is OUT on its die (R439;
log 112). -/
def State.teamsOn (s : State) (core : Nat) : List (Nat × Team) :=
  s.teams.filter fun t => s.residOn t.2.ctx (dieOf core) != .out &&
    (t.2.core == some core || (decide (t.1 < 16) && s.startCore t.1 t.2 == some core) ||
      s.packs.any fun p => p.team == t.1 && p.toCore == core)

/-- Free scratchpad of a core in units of 64 KiB. -/
def State.padFree (s : State) (core : Nat) : Nat := 32 - ((s.teamsOn core).map fun t => t.2.allot).sum

/-- Physical tiles that no other placed team of a context holds. -/
def State.tilesFree (s : State) (core ctx : Nat) : List Nat :=
  (List.range 8).filter fun i => !(s.teamsOn core).any fun t => t.2.ctx == ctx && t.2.tiles.contains i

/-- Does a team fit on a core (R24)? -/
def State.fits (s : State) (core ctx allot acct : Nat) : Bool :=
  s.coreUsable core && decide ((s.teamsOn core).length < 8) && decide (allot ≤ s.padFree core) &&
    decide (acct ≤ (s.tilesFree core ctx).length)

/-- Cores of a die. -/
def dieCores (die : Nat) : List Nat := (List.range 128).map fun i => die * 128 + i

/-- The first of the best items of a list. -/
def firstBest {α : Type} (key : α → Nat) : List α → Option α
  | [] => none
  | x :: xs =>
    match firstBest key xs with
    | none => some x
    | some y => if key x < key y then some y else some x

/-- The core of a die with the most free scratchpad on which a team fits (R334). -/
def State.coreFor (s : State) (die ctx allot acct : Nat) : Option Nat :=
  firstBest s.padFree ((dieCores die).filter fun c => s.fits c ctx allot acct)

/-- Free team slots of a die. -/
def State.freeSlots (s : State) (die : Nat) : Nat :=
  (((dieCores die).filter s.coreUsable).map fun c => 8 - (s.teamsOn c).length).sum

/-- Dies on which a context's teams may be placed now (R334). -/
def State.openDies (s : State) (ctx mask : Nat) : List Nat :=
  (List.range 4).filter fun d =>
    permits mask d && (s.diesOf ctx).testBit d && s.residOn ctx d == .resident

/-- The core that R334 gives the next team of a launch. -/
def State.placeFor (s : State) (ctx : Nat) (l : Launch) : Option Nat :=
  let dies := (s.openDies ctx l.diemask).filter fun d => (s.coreFor d ctx l.allot l.acct).isSome
  (firstBest s.freeSlots dies).bind fun d => s.coreFor d ctx l.allot l.acct

/-! ## Ranks (R342, R345 to R347) -/

/-- The fairness entry that a context uses on a die, with its index (R342). -/
def State.fairOf (s : State) (die ctx : Nat) : Option (Nat × Fair) :=
  let g := s.gangOf ctx
  (s.die die).fair.find? fun e => e.2.valid &&
    (if g = 0 then e.2.kind == 1 && e.2.key == ctx else e.2.kind == 0 && e.2.key == g)

/-- Engine commands of a context on a core, in flight or saved with it. -/
def State.cmdsOf (s : State) (core ctx : Nat) : List Cmd :=
  (s.core core).cmds.filter (fun c => c.ctx == ctx) ++
    ((s.images.filter fun m => m.core == core && m.ctx == ctx).map (·.cmds)).flatten

/-- Has a team a running or ready task? -/
def Team.live (t : Team) : Bool := t.task.isSome || !t.ready.isEmpty

/-- Has a context a launch with a team that is not placed and fits a core (R338)? -/
def State.unplacedFor (s : State) (core ctx : Nat) : Bool :=
  (s.ctx ctx).launches.any fun l => decide (l.placed < l.teams) && permits l.diemask (dieOf core) &&
    (s.diesOf ctx).testBit (dieOf core) && s.fits core ctx l.allot l.acct

/-- Has a context work on a core (R338)?  A handler task that is ready waits on the handler core (R322). -/
def State.hasWork (s : State) (core ctx : Nat) : Bool :=
  s.teams.any (fun t => t.2.ctx == ctx && (if t.2.task.isSome then t.2.core == some core
      else !t.2.ready.isEmpty && s.startCore t.1 t.2 == some core)) ||
    !(s.cmdsOf core ctx).isEmpty || s.unplacedFor core ctx

/-- Has a context a queued launch that a die may serve? -/
def State.queuedFor (s : State) (die ctx : Nat) : Bool :=
  (List.range 4).any fun p =>
    let r := s.launchRing ctx p
    (List.range (min r.used r.size)).any fun i =>
      permits (s.readNat 0 (r.slotKey (r.head + i) + 0x1F) 1 / 4 % 16) die

/-- Has a context demand of its own on a die (R346)? -/
def State.wants (s : State) (die ctx : Nat) : Bool :=
  (s.diesOf ctx).testBit die &&
    ((dieCores die).any (fun c => s.hasWork c ctx) ||
      (s.ctx ctx).launches.any (fun l => decide (l.placed < l.teams) && permits l.diemask die) ||
      s.queuedFor die ctx)

/-- Demand of a context on a die; its home die has that of every die (R346). -/
def State.demand (s : State) (die ctx : Nat) : Bool :=
  s.wants die ctx || (s.homeDie ctx == die && (List.range 4).any fun d => s.wants d ctx)

/-- Contexts whose descriptor says live. -/
def State.liveCtxs (s : State) : List Nat := (List.range 4096).filter fun c => s.ctxState c == 1

/-- EPRI of a context on a die (R346); 0 with no entry. -/
def State.epri (s : State) (die ctx : Nat) : Nat :=
  match s.fairOf die ctx with
  | none => 0
  | some (_, f) => 16 * f.base + f.boost - (if f.demoted then 16 * f.demotion else 0)

/-- USED of an entry of a die, with the µs that have passed since it was last raised (R344). -/
def State.usedNow (s : State) (die i : Nat) (f : Fair) : Nat :=
  f.used + ((s.die die).gnomon.toNat / 940 - (s.die die).usedAt) * ((dieCores die).filter fun c =>
    (s.core c).activeCtx.any fun x => (s.fairOf die x).any fun e => e.1 == i).length

/-- Is the entry of a context behind its share (R346)? -/
def State.isBehind (s : State) (die ctx : Nat) : Bool :=
  match s.fairOf die ctx with
  | none => false
  | some (i, f) =>
    let tau := (s.die die).gnomon.toNat % 9400000 / 940 + 1
    decide (s.usedNow die i f * 8 < f.share * tau) &&
      s.liveCtxs.any fun c => (s.fairOf die c).any (fun e => e.1 == i) && s.demand die c

/-- GNOMON at which a context last ran on a core; now if it is active there. -/
def State.ranOn (s : State) (core ctx : Nat) : Nat :=
  if (s.core core).activeCtx = some ctx then (s.die (dieOf core)).gnomon.toNat
  else tabGet 0 (s.core core).lastRan ctx

/-- GNOMON at which a context last had a core of a die. -/
def State.ranIn (s : State) (die ctx : Nat) : Nat :=
  (dieCores die).foldl (fun m c => max m (s.ranOn c ctx)) 0

/-- A context's place in the order of R347. -/
structure Rank where
  behind : Bool
  epri : Nat
  ran : Nat

/-- Does one rank come before another (R347)? -/
def Rank.before (a b : Rank) : Bool :=
  if a.behind != b.behind then a.behind
  else if a.epri ≠ b.epri then b.epri < a.epri
  else a.ran < b.ran

/-- Are two ranks equal but for their ages? -/
def Rank.ties (a b : Rank) : Bool := a.behind == b.behind && a.epri == b.epri

/-- Rank on a die. -/
def State.dieRank (s : State) (die ctx : Nat) : Rank := ⟨s.isBehind die ctx, s.epri die ctx, s.ranIn die ctx⟩

/-- Rank for a core. -/
def State.coreRank (s : State) (core ctx : Nat) : Rank :=
  ⟨s.isBehind (dieOf core) ctx, s.epri (dieOf core) ctx, s.ranOn core ctx⟩

/-- The first-ranked of a list; the lower number where two ranks are equal. -/
def topRank (rank : Nat → Rank) : List Nat → Option Nat
  | [] => none
  | c :: cs =>
    match topRank rank cs with
    | none => some c
    | some d => if (rank d).before (rank c) then some d else some c

/-- The last-ranked of a list. -/
def lastRank (rank : Nat → Rank) : List Nat → Option Nat
  | [] => none
  | c :: cs =>
    match lastRank rank cs with
    | none => some c
    | some d => if (rank c).before (rank d) then some d else some c

/-! ## Placement (R24 to R26, R333 to R335, R347) -/

/-- A team's groups, in ascending group number, at most four (R22, R23). -/
def Launch.groupsOf (l : Launch) (index : Nat) : List (Nat × Nat × Nat) :=
  (l.groups.filterMap fun g => (g.2.findIdx? fun m => m == index).map fun r => (g.1, g.2.length, r)).take 4

/-- The lowest team slot that none of a core's teams has. -/
def freeSlot (l : List (Nat × Team)) : Nat := ((List.range 8).find? fun i => !l.any fun t => t.2.tslot == i).getD 0

/-- The lowest free team slot of a core. -/
def State.slotFor (s : State) (core : Nat) : Nat := freeSlot (s.teamsOn core)

/-- A launch's fields changed. -/
def State.modLaunch (s : State) (ctx slot : Nat) (g : Launch → Launch) : State :=
  s.modCtx ctx fun c => { c with launches := c.launches.map fun l => if l.slot = slot then g l else l }

/-- The next team of a launch placed on a core (R24, R26, R80): its allotment reads zero. -/
def State.placeTeam (s : State) (ctx : Nat) (l : Launch) (core : Nat) : State :=
  let tiles := (s.tilesFree core ctx).take l.acct
  let t := teamStart ctx l.slot l.placed core (s.slotFor core) l.allot l.acct l.prio tiles
    (l.groupsOf l.placed)
  let (uid, s) := s.fresh
  (s.setTeam uid t).modLaunch ctx l.slot fun l => { l with placed := l.placed + 1 }

/-- Every team of a launch placed in one step, or none where they do not all fit (R25). -/
def State.placeWhole (s : State) (ctx : Nat) (l : Launch) : Nat → Option State
  | 0 => some s
  | n + 1 =>
    match s.placeFor ctx l with
    | none => none
    | some core => (s.placeTeam ctx l core).placeWhole ctx { l with placed := l.placed + 1 } n

/-- What placing a launch's next team, or a GATHER launch whole, gives: its core and the state. -/
def State.placeNext (s : State) (ctx : Nat) (l : Launch) : Option (Nat × State) :=
  if l.teams ≤ l.placed then none
  else match s.placeFor ctx l with
    | none => none
    | some core =>
      if l.gather then (s.placeWhole ctx l (l.teams - l.placed)).map fun t => (core, t)
      else some (core, s.placeTeam ctx l core)

/-- Does one launch come before another of its context (R333)? -/
def Launch.before (a b : Launch) : Bool := b.prio < a.prio || (a.prio == b.prio && a.order < b.order)

/-- Does a launch that cannot place its next team, or a GATHER launch all of them, now stand before another
(R333), or is it a GATHER launch that holds back one of equal or lower priority (R335)? -/
def State.holdsBack (s : State) (ctx : Nat) (m l : Launch) : Bool :=
  m.slot != l.slot && decide (m.placed < m.teams) &&
    (if (s.placeNext ctx m).isSome then m.before l else m.gather && decide (l.prio ≤ m.prio))

/-- The launch of a context that placement serves now, its core and the state after it: none holds it back
(R333, R335; log 31). -/
def State.serveCtx (s : State) (ctx : Nat) : Option (Launch × Nat × State) :=
  let ls := (s.ctx ctx).launches
  ls.findSome? fun l =>
    if ls.any fun m => s.holdsBack ctx m l then none
    else (s.placeNext ctx l).map fun r => (l, r.1, r.2)

/-- Cores on which a placement has put teams. -/
def State.coresTaken (s t : State) : List Nat :=
  t.teams.filterMap fun e => if (tabFind s.teams e.1).isSome then none else e.2.core

/-- Does a context that ranks before another on some core's die compete for a team slot that a placement of the
other, from `s` to `t`, takes (R347)?  While a tick is due, which may change the ranks, any that competes holds it
back (R344). -/
def State.rivals (s t : State) (ctx : Nat) : Bool :=
  let cores := s.coresTaken t
  s.ctxs.any fun c => c.1 != ctx && match s.serveCtx c.1 with
    | none => false
    | some r => (s.coresTaken r.2.2).any fun core => cores.contains core &&
        ((s.die (dieOf core)).fairDue || (s.dieRank (dieOf core) c.1).before (s.dieRank (dieOf core) ctx))

/-- TEAM_PLACEMENT (R334): the launch in a slot is the one its context serves, and no context that ranks
before it competes for the same cores (R347). -/
def execTeamPlacement (ctx slot : Nat) (s : State) : Host.Outcome State Fault Refusal :=
  match s.serveCtx ctx with
  | none => .next s
  | some (l, _, t) => if l.slot ≠ slot ∨ s.rivals t ctx = true then .next s else .next t

/-! ## Launch slots (R333) -/

/-- A record's launch as it takes slot `slot`. -/
def launchOfRecord (bs : List (BitVec 8)) (slot order : Nat) (groups : Tab (List Nat)) : Launch :=
  let done := recF bs 0x2A 2
  { slot := slot, entry := BitVec.ofNat 64 (recF bs 0 8), args := BitVec.ofNat 64 (recF bs 8 8)
    fhandler := BitVec.ofNat 64 (recF bs 0x10 8), teams := recF bs 0x18 2 + 1, allot := recF bs 0x1C 1
    acct := recF bs 0x1D 1, prio := recF bs 0x1E 1 % 4, gather := (recF bs 0x1F 1).testBit 0
    nomig := (recF bs 0x1F 1).testBit 1, diemask := recF bs 0x1F 1 / 4 % 16, groups := groups
    done := if done.testBit 15 then some (done % 256) else none
    doneinc := BitVec.ofNat 32 (recF bs 0x2C 4), tag := BitVec.ofNat 64 (recF bs 0x30 8), placed := 0
    retired := 0, terminated := false, order := order }

/-- The priority whose ring's head is taken next. -/
def State.headPrio (s : State) (ctx : Nat) : Option Nat :=
  [3, 2, 1, 0].find? fun p => (s.launchRing ctx p).head != (s.launchRing ctx p).tail

/-- The lowest free launch slot of a context. -/
def State.freeLaunch (s : State) (ctx : Nat) : Option Nat :=
  (List.range 16).find? fun i => !(s.ctx ctx).launches.any fun l => l.slot == i

/-- LAUNCH_SLOT_TAKE (R333): with a slot free, the head record of the highest-priority queue of a live,
resident context becomes a launch. -/
def execLaunchSlotTake (ctx : Nat) (s : State) : Host.Outcome State Fault Refusal :=
  match s.freeLaunch ctx, s.headPrio ctx with
  | some slot, some p =>
    if s.ctxState ctx ≠ 1 ∨ !s.homeResident ctx then .next s
    else
      let r := s.launchRing ctx p
      let key := p * 2 ^ 32 + r.head % max 1 r.size
      let bs := s.readBytes 0 (r.slotKey r.head) 256
      let l := launchOfRecord bs slot s.nextId (tabGet [] (s.ctx ctx).gtabs key)
      let s := s.agentNat 0 (r.key + 12) 4 ((r.head + 1) % 2 ^ 32)
      .next ({ s with nextId := s.nextId + 1 }.modCtx ctx fun c => { c with
        launches := c.launches ++ [l], gtabs := tabDel c.gtabs key })
  | _, _ => .next s

/-! ## Ticks and windows (R342, R344) -/

/-- Every entry of a die changed. -/
def State.mapFair (s : State) (die : Nat) (g : Nat → Fair → Fair) : State :=
  s.modDie die fun d => { d with fair := d.fair.map fun e => (e.1, g e.1 e.2) }

/-- RW fields written since the last tick take effect (R342, R344); those written behind ticks that were due then wait
for theirs. -/
def Die.takeFair (d : Die) : Die :=
  { d with
    fair := (d.fairPend.filter fun w => decide (w.1 < 2 ^ 20)).foldl (fun t w =>
      let i := w.1 / 8
      tabPut t i ((tabGet fairReset t i).setWord (w.1 % 8) w.2)) d.fair
    fairPend := (d.fairPend.filter fun w => decide (2 ^ 20 ≤ w.1)).map fun w => (w.1 - 2 ^ 20, w.2) }

/-- USED of a die's entries raised for the µs up to a given one, in which its planes have been what they are
(R344): a plane changes only behind it. -/
def State.accrueTo (s : State) (die now : Nat) : State :=
  let d := s.die die
  if now ≤ d.usedAt then s
  else
    let users := (dieCores die).filterMap fun c =>
      (s.core c).activeCtx.bind fun x => (s.fairOf die x).map (·.1)
    let s := s.mapFair die fun i f =>
      { f with used := f.used + (now - d.usedAt) * (users.filter fun u => u == i).length }
    s.modDie die fun d => { d with usedAt := now }

/-- USED of a die brought up to now, but not past the next tick, which may change what its entries match. -/
def State.accrue (s : State) (die : Nat) : State :=
  s.accrueTo die (min ((s.die die).gnomon.toNat / 940) (((s.die die).tick + 1) * 50))

/-- The next 50 µs tick of a die (R344). -/
def State.nextTick (s : State) (die : Nat) : State :=
  let n := (s.die die).tick + 1
  ((s.accrueTo die (n * 50)).mapFair die fun _ f => { f with boost := min (f.boost - 1) f.cap }).modDie die
    fun d => { d.takeFair with tick := n }

/-- The next 10 ms window of a die (R344). -/
def State.nextWindow (s : State) (die : Nat) : State :=
  let n := (s.die die).win + 1
  ((s.accrueTo die (n * 10000)).mapFair die fun _ f => { f with gathered := 0, used := 0 }).modDie die
    fun d => { d with win := n }

/-- Does the next tick of a die begin a window that has not begun yet (R344)? -/
def Die.windowFirst (d : Die) : Bool := (d.tick + 1) % 200 == 0 && decide (d.win < (d.tick + 1) / 200)

/-- A number of ticks of a die, each behind the window that it begins. -/
def State.makeTicks (s : State) (die : Nat) : Nat → State
  | 0 => s
  | n + 1 => ((if (s.die die).windowFirst then s.nextWindow die else s).nextTick die).makeTicks die n

/-- The ticks of a die that are due, made (R344, R354). -/
def State.settleTicks (s : State) (die : Nat) : State := s.makeTicks die (s.die die).ticksDue

/-! ## Acceptance of a launch record (R18, R19, R21, R331, R332) -/

/-- Is a PC an instruction start of an executable user section of a context (R19)? -/
def State.userStart (s : State) (ctx va : Nat) : Bool :=
  s.sections.any fun c => c.ctx == ctx && c.admitted && c.cls == 0 && decide (c.vbase ≤ va) &&
    decide (va < c.vbase + 65536 * c.pages) && va % 4 == 0 && c.bitmap.testBit ((va - c.vbase) / 4) &&
    (c.frames.getD ((va - c.vbase) / 65536) noFrame != noFrame)

/-- Bytes of a context's memory as the scheduler reads them when it accepts a record. -/
def State.schedBytes (s : State) (w : Who) (va len : Nat) : Option (List (BitVec 8)) :=
  match s.spans w .plain false (units va len) with
  | .error _ => none
  | .ok sp => if (s.spansRefused sp false).isSome then none else some (s.readSpans sp)

/-- The members of a group and whether a bit that R21 reserves is set; none where the array is no group's
(R19, R21), a count outside 1 to 65,536 among them (DESIGN CHOICE, log 90). -/
def State.readMembers (s : State) (w : Who) (va count teams : Nat) : Option (List Nat × Bool) :=
  if count = 0 ∨ 65536 < count then none
  else match s.schedBytes w va (4 * count) with
    | none => none
    | some bs =>
      let raw := (List.range count).map fun i => recF bs (4 * i) 4
      let ms := raw.map fun m => m % 2 ^ 16
      if ms.any (fun m => decide (m ≥ teams)) || decide ((ascending ms).length < count) then none
      else some (ms, raw.any fun m => decide (2 ^ 16 ≤ m))

/-- The group table copied, and whether a bit that R21 reserves is set in it; none where an entry is no group
(R19, R21; log 58). -/
def State.readGroups (s : State) (w : Who) (gtab teams : Nat) : Nat → Nat → Option (Tab (List Nat) × Bool)
  | _, 0 => some ([], false)
  | i, n + 1 => do
    let e ← s.schedBytes w (gtab + 16 * i) 16
    let g ← s.readMembers w (recF e 0 8) (recF e 8 4) teams
    let r ← s.readGroups w gtab teams (i + 1) n
    return ((i, g.1) :: r.1, g.2 || r.2 || recF e 12 4 != 0)

/-- Is some team in more than four groups (R19)? -/
def crowded (groups : Tab (List Nat)) : Bool :=
  groups.any fun g => g.2.any fun m => decide (4 < (groups.filter fun h => h.2.contains m).length)

/-- Teams of a launch that one empty core takes (R19, R24). -/
def perCore (allot acct : Nat) : Nat :=
  min 8 (min (if allot = 0 then 8 else 32 / allot) (if acct = 0 then 8 else 8 / acct))

/-- Is a byte or bit that R18 reserves not zero? -/
def recReserved (bs : List (BitVec 8)) : Bool :=
  recF bs 0x1A 2 != 0 || decide (4 ≤ recF bs 0x1E 1) || decide (64 ≤ recF bs 0x1F 1) ||
    recF bs 0x2A 2 / 256 % 128 != 0 || (bs.drop 0x38).any (· != 0)

/-- The reason with which R19 refuses a record, the lowest that holds, or its group table. -/
def State.recordReason (s : State) (w : Who) (ctx : Nat) (bs : List (BitVec 8)) :
    Except Nat (Tab (List Nat)) :=
  let teams := recF bs 0x18 2 + 1
  let handler := recF bs 0x10 8
  let mask := recF bs 0x1F 1 / 4 % 16
  let allot := recF bs 0x1C 1
  let acct := recF bs 0x1D 1
  let gc := recF bs 0x28 2
  let dies := (List.range 4).filter fun d => permits mask d && (s.diesOf ctx).testBit d
  let groups := if 256 < gc then none else s.readGroups w (recF bs 0x20 8) teams 0 gc
  let cores := (dies.map fun d => ((dieCores d).filter s.coreUsable).length).sum
  if !s.userStart ctx (recF bs 0 8) || (handler != 0 && !s.userStart ctx handler) then .error 1
  else if 32 < allot ∨ 8 < acct ∨ dies.isEmpty then .error 2
  else match groups with
    | none => .error 3
    | some (t, rsv) =>
      if crowded t then .error 3
      else if recReserved bs || rsv then .error 4
      else if (recF bs 0x1F 1).testBit 0 ∧ cores * perCore allot acct < teams then .error 5
      else .ok t

/-- Does a context's launch access-control table admit a peer's launch (R332)? -/
def State.lacl (s : State) (ctx pkg sctx prio : Nat) : Bool :=
  (List.range 64).any fun i =>
    let e := s.readNat 0 (gpaKey ((s.descWord ctx 8).toNat % 2 ^ 56 + 8 * i)) 8
    e.testBit 15 && (e.testBit 8 || e % 256 == pkg) && (e.testBit 9 || e / 2 ^ 16 % 4096 == sctx) &&
      decide (prio ≤ e / 2 ^ 10 % 4)

/-- A record checked in the order of R331 and accepted into its queue: the code, 0 for accepted. -/
def State.acceptLaunch (s : State) (w : Who) (ctx : Nat) (bs : List (BitVec 8))
    (peer : Option (Nat × Nat)) : Nat × State :=
  let prio := recF bs 0x1E 1 % 4
  if s.ctxState ctx ≠ 1 then (cFabricAcl, s)
  else if (s.die (s.homeDie ctx)).lost then (cPeerLost, s)
  else if peer.any fun p => !s.lacl ctx p.1 p.2 prio then (cFabricAcl, s)
  else match s.recordReason w ctx bs with
    | .error c => (c, s)
    | .ok groups =>
      let r := s.launchRing ctx prio
      if r.size ≤ r.used then (6, s)
      else
        let s := (s.agentWrite 0 (r.slotKey r.tail) bs).agentNat 0 (r.key + 16) 4 ((r.tail + 1) % 2 ^ 32)
        (0, s.modCtx ctx fun c => { c with
          gtabs := tabPut c.gtabs (prio * 2 ^ 32 + r.tail % max 1 r.size) groups })

/-- Does the copying of a LAUNCH's group tables wait behind stores of its core (R114)? -/
def State.groupsBlocked (s : State) (c : Cmd) (bs : List (BitVec 8)) : Bool :=
  let gtab := recF bs 0x20 8
  let gc := recF bs 0x28 2
  let blocked := fun va len => match s.spans c.who .plain false (units va len) with
    | .ok sp => s.spansBlocked c.core sp
    | .error _ => false
  decide (gc ≤ 256) && (blocked gtab (16 * gc) || (List.range gc).any fun i =>
    match s.schedBytes c.who (gtab + 16 * i) 16 with
    | some e => decide (recF e 8 4 ≤ 65536) && blocked (recF e 0 8) (4 * recF e 8 4)
    | none => false)

/-- A LAUNCH command into its own package (R273). -/
def State.ownLaunch (s : State) (c : Cmd) : Host.Outcome State Fault Refusal :=
  let s := s.fillFabric c 256
  match s.statusSpan c with
  | .error (va, code) => s.fabricFault c va code (fun _ => false) true
  | .ok st =>
    match s.engineBytes c.who c.xa 256 with
    | .wait => .next s
    | .bad va code => s.fabricFault c va code fun d => d.queue == .sync
    | .ok bs =>
      if c.xb.toNat % 4096 ≠ c.ctx then .next (s.statusDone c st cFabricAcl)
      else if s.groupsBlocked c bs then .next s
      else
        let (code, s) := s.acceptLaunch c.who c.ctx bs none
        .next (s.statusDone c st code)

/-- A status word's fields put together (R412). -/
def winWord (seq code : Nat) : W64 := w64 (seq % 2 ^ 32 + code % 256 * 2 ^ 32)

/-- LAUNCH_RECORD_ARRIVAL (R331): a record of the host, once its link is up (R420), of a LAUNCH of this package, or of a
peer, whose count falls behind the ticks that are due (R344, R354). -/
def execLaunchRecordArrival (src : LaunchSrc) (ctx : Nat) (bytes : List (BitVec 8)) (s : State) :
    Host.Outcome State Fault Refusal :=
  match src with
  | .host w =>
    if !s.linkUp then .next s
    else
      let (code, s) := s.acceptLaunch (s.fabricWho ctx) ctx bytes none
      .next { s with
        winStatus := tabSet 0 s.winStatus w (winWord ((tabGet 0 s.winStatus w).toNat % 2 ^ 32) code) }
  | .task id =>
    (match s.findCmd id with
    | none => .next s
    | some c =>
      let own := match c.instr with
        | .launch _ => s.pkgTarget (c.xb.toNat / 2 ^ 16 % 256) == s.pkg.toNat
        | _ => false
      if own && !c.sent && s.launchReady c then s.ownLaunch c else .next s)
  | .peer pkg sctx gang ref =>
    let (code, s) := s.acceptLaunch (s.fabricWho ctx) ctx bytes (some (pkg, sctx))
    let s := if code = 0 then (s.settleTicks (s.homeDie ctx)).countMsg (s.homeDie ctx) gang else s
    .next { s with outbox := s.outbox ++ [.launchStatus pkg ref code] }

/-! ## Tasks start, are selected, and teams retire (R27 to R30, R34, R92, R118, R340) -/

/-- Have the loads of a team on a core taken their values, and are its stores performed for the team (R118)? -/
def State.settledOn (s : State) (core uid : Nat) : Bool :=
  s.loadsTaken core uid s.nextId && s.storesPerformed core uid s.nextId 0

/-- May a task of a team start on a core (R29, R118, R315)?  C0x000's runs beside the core's active context (R312; log
29); where its team has run on another core before, it needs a team slot of the new one (R24). -/
def State.mayStart (s : State) (uid : Nat) (t : Team) (core : Nat) : Bool :=
  t.task.isNone && !t.dead && !s.isDoomed t &&
    (t.ctx == 0 || ((s.core core).activeCtx == some t.ctx && !(s.core core).halting)) &&
    (t.core == some core || decide ((s.teamsOn core).length ≤ 8)) &&
    s.settledOn core uid && s.settledOn (t.core.getD core) uid

/-- The team's first task (R27, R365). -/
def Team.startFirst (t : Team) (l : Launch) : Team :=
  let seq := t.startSeq.getD t.started
  { t with
    task := some (taskStart l.entry (tabSet 0 (tabSet 0 [] 1 (w64 t.index)) 2 l.args) seq none false)
    started := if t.startSeq.isSome then t.started else t.started + 1
    startSeq := none
    ready := t.ready.drop 1 }

/-- A task from a record (R32, R34, R35): a resumed WAITS or WAITB finds its status in x1, and so does a
VLDV whose home die is lost (R424). -/
def Team.startRec (t : Team) (r : Rec) : Team :=
  let regs := if r.kind = 1 ∨ r.kind = 2 ∨ (r.kind = 3 ∧ r.status ≠ 0) then tabSet 0 r.regs 1 (w64 r.status) else r.regs
  { t with
    task := some (taskStart r.pc regs (r.seq.getD t.started) (some r.id) (r.kind == 5))
    started := if r.seq.isSome then t.started else t.started + 1
    recs := t.recs.map fun q => if q.id = r.id then { q with state := 2 } else q
    ready := t.ready.drop 1 }

/-- TASK_START (R29): the oldest ready task of a team starts once its context is active; a system team may move to
another core with it. -/
def execTaskStart (team : Nat) (s : State) : Host.Outcome State Fault Refusal :=
  match tabFind s.teams team with
  | none => .next s
  | some t =>
    match s.startCore team t, t.ready with
    | some core, n :: _ =>
      if !s.mayStart team t core then .next s
      else
        let t := if t.core = some core then t else { t with
          core := some core, tslot := freeSlot ((s.teamsOn core).filter fun x => x.1 != team) }
        if n = 0 then match s.launchOf t with
          | some l => .next (s.setTeam team (t.startFirst l))
          | none => .next s
        else match t.recs.find? fun r => r.id == n with
          | some r => .next ((s.setTeam team (t.startRec r)).showRec team r.id)
          | none => .next (s.setTeam team { t with ready := t.ready.drop 1 })
    | _, _ => .next s

/-- Every task of a core to be asked again. -/
def State.newRound (s : State) (core : Nat) : State :=
  { s with teams := s.teams.map fun t => if t.2.core = some core then
      (t.1, { t.2 with task := t.2.task.map fun k => { k with held := false } }) else t }

/-- TASK_ISSUE_SELECT (R340): a round of a core's front end begins with the first task of the order;
each held one passes the turn on.  Throttled cores issue in `duty` of 16 ac (R422). -/
def execTaskIssueSelect (core : Nat) (s : State) : Host.Outcome State Fault Refusal :=
  if s.duty ≤ (s.die (dieOf core)).gnomon.toNat % 16 then .next s
  else
    let s := s.newRound core
    .next { s with focus := s.nextAsked core }

/-- Is a request the addition of a command or SIGS of a team? -/
def Req.signals (uid : Nat) : Req → Bool
  | .semSig _ _ _ team _ _ _ _ _ _ => team == uid
  | .fabricAdd _ _ team _ _ _ => team == uid
  | _ => false

/-- Has a team nothing left, its signals made (R28, R264)? -/
def State.teamOver (s : State) (uid : Nat) (t : Team) : Bool :=
  t.task.isNone && t.ready.isEmpty && t.recs.isEmpty && !t.startAborted &&
    !(s.reqs.any fun r => r.2.signals uid) &&
    !(s.cores.any fun k => k.2.cmds.any fun c => c.team == uid) &&
    !(s.images.any fun m => m.cmds.any fun c => c.team == uid)

/-- Tiles of a team zeroed and given up where ACCOWN names its context (R28, R319). -/
def Core.giveTiles (k : Core) (ctx : Nat) : List Nat → Core
  | [] => k
  | i :: is =>
    (if ownedBy (k.owner i) ctx then
      { k.zeroRows i 0 128 with accown := tabSet 0 k.accown i (k.owner i &&& 0x7FFF) }
    else k).giveTiles ctx is

/-- Bytes of a team's allotment gone from memory: they read zero. -/
def State.clearPad (s : State) (uid : Nat) : State :=
  { s with mem := s.mem.filter fun c => !(decide (padKey uid ≤ c.1) && decide (c.1 < padKey (uid + 1))) }

/-- TEAM_RETIRE (R28, R20): the allotment and the owned tiles are zeroed, the slot is free, and the last
team of a launch completes it. -/
def execTeamRetire (team : Nat) (s : State) : Host.Outcome State Fault Refusal :=
  match tabFind s.teams team with
  | none => .next s
  | some t =>
    match t.core with
    | none => .next s
    | some core =>
      if team < 16 ∨ !s.teamOver team t ∨ (s.die (dieOf core)).lost then .next s
      else
        let s := (s.modCore core fun k => { k.giveTiles t.ctx t.tiles with
          bufs := k.bufs.filter fun b => b.2.team != team }).clearPad team
        let s := { s with teams := tabDel s.teams team }
        .next ((s.modLaunch t.ctx t.slot fun l => { l with retired := l.retired + 1 }).settleLaunch
          t.ctx t.slot)

end Sys2Proof.Machine
end

