-- ==== Sys2Proof/Machine/Sched.lean ====
section
/-! DEFINITION. The die scheduler: quanta and planes, residency, fairness ticks, quiescence epochs and
migration (R43, R132, R314 to R318, R336 to R339, R344 to R347, R353, R369). -/

namespace Sys2Proof.Machine

/-! ## Planes (R315, R316, R339) -/

/-- The plane that a context's descriptor, as a die read it, gives (R314, R315). -/
def State.planeOf (s : State) (die ctx : Nat) : Tab W64 :=
  let word := s.descOn die ctx
  let words : List (Nat × W64) :=
    [(0, w64 (ctx % 4096 + 2 ^ 63)), (1, word 1), (2, word 2), (3, word 0 >>> 32), (4, word 4), (5, word 0 >>> 8),
     (6, word 7), (7, word 0 >>> 25)]
  let csm := (List.range 64).map fun i => (64 + i, s.csmEntry die ctx i)
  applyDiff [] (words ++ csm)

/-- Words in which two planes differ, or all 128. -/
def planeDiff (whole : Bool) (old new : Tab W64) : List (Nat × W64) :=
  (List.range 128).filterMap fun i =>
    if whole || tabGet 0 old i != tabGet 0 new i then some (i, tabGet 0 new i) else none

/-- The scheduler sends a core the plane of a context, as a difference list or whole; the transfer may
fail (log 32). -/
def State.sendPlane (s : State) (core ctx : Nat) (whole : Bool) : State :=
  let p := s.planeOf (dieOf core) ctx
  let crc := crc32c (planeBytes p) ^^^ Config.planeError s.ticks (if whole then 1 else 0)
  s.modCore core fun k => k.takeDiff (planeDiff whole k.plane p) crc

/-- A shadow prepared for a context (R339): after a failed check a CFG_CHECK record is written and the
whole plane is sent; a second failure removes the core.  `none` while the record must wait for room. -/
def State.prepareShadow (s : State) (core ctx : Nat) : Option State :=
  let t := s.sendPlane core ctx false
  if (t.core core).shadowSt = 1 then some t
  else if (s.die (dieOf core)).fqFull then none
  else
    let t := t.queueFault
      { die := dieOf core, code := cCfgCheck, source := 5, flags := 0, unit := 0, ctx := ctx, core := core
        pc := 0, addr := 0, tag := 0, team := 0, mpc := 0, origin := 0, uid := 0, recId := 0, cmd := 0 }
    let t := t.sendPlane core ctx true
    if (t.core core).shadowSt = 1 then some t
    else some ((t.modCore core fun k => { k with removed := true }).logCheck 0xE5 (dieOf core) core 0 0)

/-! ## The choice of a core's context (R338, R347) -/

/-- Cycles of a quantum. -/
def quantumLen : Nat := 188000

/-- Is a core free for its next context: halted with its image written, or with no valid plane? -/
def State.idle (s : State) (core : Nat) : Bool :=
  match (s.core core).activeCtx with
  | none => true
  | some c => (s.core core).halting && s.saved core c

/-- Candidates of a core (R338): the resident contexts with a team placed on it or one that is not placed and
fits it.  C0x000 is none: its tasks run beside the active context (R312; log 29). -/
def State.candidatesOf (s : State) (core : Nat) : List Nat :=
  (s.ctxs.map (·.1)).filter fun c => c != 0 && s.residOn c (dieOf core) == .resident &&
    !(s.core core).barred.contains c &&
    ((s.teamsOn core).any (fun t => t.2.ctx == c) || s.unplacedFor core c)

/-- WEIGHT of a context on a die (R342). -/
def State.weight (s : State) (die ctx : Nat) : Nat := ((s.fairOf die ctx).map fun e => max 1 e.2.weight).getD 1

/-- The context that a core runs next: the first-ranked; one that ties with the current context keeps
the core for WEIGHT quanta (R338). -/
def State.nextCtx (s : State) (core : Nat) (current : Option Nat) : Option Nat :=
  let l := s.candidatesOf core
  match topRank (s.coreRank core) l with
  | none => none
  | some top =>
    match current with
    | none => some top
    | some c =>
      let ties := l.filter fun x => (s.coreRank core x).ties (s.coreRank core top)
      if !ties.contains c then some top
      else if ties.length = 1 ∨ (s.core core).kept + 1 < s.weight (dieOf core) c then some c
      else topRank (s.coreRank core) (ties.filter fun x => x != c)

/-- A quantum begins. -/
def State.newQuantum (s : State) (core kept : Nat) : State :=
  s.modCore core fun k => { k with
    quantum := (s.die (dieOf core)).gnomon.toNat, kept := kept, barred := [] }

/-- The candidate that a core switches to at once where its active context has no work: the first-ranked of those
that have (R338; DEDUCED, log 30). -/
def State.workCtx (s : State) (core : Nat) : Option Nat :=
  topRank (s.coreRank core) ((s.candidatesOf core).filter (s.hasWork core))

/-- A core's present context halted for another one. -/
def State.switchFrom (s : State) (core c n : Nat) : State :=
  (s.modCore core fun k => { k with next := some n }).requestHalt c false [core]

/-- QUANTUM_END (R338): at the end of a quantum, or at once where the active context has no work, the
next context is chosen, behind a tick that is due (R344); a switch begins with the halt of the present one. -/
def execQuantumEnd (core : Nat) (s : State) : Host.Outcome State Fault Refusal :=
  let k := s.core core
  let ended := decide (k.quantum + quantumLen ≤ (s.die (dieOf core)).gnomon.toNat)
  if !s.coreUsable core ∨ (s.die (dieOf core)).fairDue = true then .next s
  else if k.halting then .next (if ended then s.newQuantum core 0 else s)
  else match k.activeCtx with
    | none => .next (if ended then s.newQuantum core 0 else s)
    | some c =>
      if ended then
        let t := s.newQuantum core 0
        match (s.newQuantum core k.kept).nextCtx core (some c) with
        | none => .next t
        | some n => .next (if n = c then s.newQuantum core (k.kept + 1) else t.switchFrom core c n)
      else if s.hasWork core c then .next s
      else match s.workCtx core with
        | none => .next s
        | some n => .next (if n = c then s else s.switchFrom core c n)

/-- SHADOW_PREPARE (R339): in the last 20 µs of a quantum the next context's plane is written into the
shadow. -/
def execShadowPrepare (core : Nat) (s : State) : Host.Outcome State Fault Refusal :=
  let k := s.core core
  let late := decide (k.quantum + quantumLen - 18800 ≤ (s.die (dieOf core)).gnomon.toNat)
  if !s.coreUsable core ∨ !late then .next s
  else match s.nextCtx core k.activeCtx with
    | none => .next s
    | some n =>
      if k.activeCtx = some n ∨ (k.shadowSt = 1 ∧ (tabGet 0 k.shadow 0).toNat % 4096 = n) then .next s
      else orStay s (s.prepareShadow core n)

/-! ## Residency (R314, R336, R337, R347, R377, R386) -/

/-- Has every core of a die left a context? -/
def State.offDie (s : State) (die ctx : Nat) : Bool :=
  (s.coresOf die ctx).all fun c => (s.core c).halting && s.saved c ctx

/-- Is a request not yet sent: one of a saved command, or of a continuation whose tokens are not done? -/
def State.unsent (s : State) (r : Req) : Bool :=
  let stored := fun id => s.images.any fun m => m.cmds.any fun c => c.id == id
  match r with
  | .semWait _ _ (.cmd _ id) => stored id
  | .semWait _ _ (.task t q _) => (match s.recOf t q with
    | some x => !s.depsDone x.deps
    | none => true)
  | .semSig _ _ _ _ cmd _ _ _ (some _) _ => stored cmd
  | _ => false

/-- Is no operation on a context's semaphores under way, and no directly accepted message whose create is held
(R337; log 100)? -/
def State.semIdle (s : State) (ctx : Nat) : Bool :=
  s.reqs.all (fun e => (match e.2 with
    | .semWait c _ _ => c != ctx
    | .semSig c _ _ _ _ _ _ _ _ _ => c != ctx
    | .fabricAdd c _ _ _ _ _ => c != ctx
    | _ => true) || s.unsent e.2) &&
    s.vreqs.all fun v => v.2.ctx != ctx || (match v.2.src with
      | .fabric _ => false
      | _ => true)

/-- Key of a context's semaphore save area. -/
def State.semSave (s : State) (ctx : Nat) : Nat := gpaKey ((s.descWord ctx 12).toNat % 2 ^ 56)

/-- The 256 semaphores written to SEMSAVE, four bytes each (R337; DEDUCED, log 33). -/
def State.saveSems (s : State) (ctx : Nat) : State :=
  let bs := ((List.range 256).map fun n => leBytes 4 (s.semVal ctx n).toNat).flatten
  (s.agentWrite 0 (s.semSave ctx) bs).modCtx ctx fun c => { c with sems := [] }

/-- The 256 semaphores loaded from SEMSAVE. -/
def State.loadSems (s : State) (ctx : Nat) : State :=
  let k := s.semSave ctx
  let vals := (List.range 256).map fun n => (n, BitVec.ofNat 32 (s.readNat 0 (k + 4 * n) 4))
  s.modCtx ctx fun c => { c with sems := vals.foldl (fun t v => tabSet 0 t v.1 v.2) [] }

/-- A die reads the descriptor as it makes a context resident, the CSM allotment entries with it (R314): words 0
to 13, and the entry of cluster i as word 64 + i. -/
def State.latchDesc (s : State) (die ctx : Nat) : State :=
  let tab := gpaKey ((s.descMem ctx 13).toNat % 2 ^ 56)
  let words := ((List.range 14).map fun i => (i, s.descMem ctx i)) ++
    (List.range 64).map fun i => (64 + i, (BitVec.ofNat 64 (s.readNat 0 (tab + 8 * i) 8) : W64))
  s.modCtx ctx fun c => { c with desc := tabPut c.desc die (words.foldl (fun t w => tabSet 0 t w.1 w.2) []) }

/-- Units of CSM that a plane, or a descriptor's entries in the same words, give (R95). -/
def csmUnits (plane : Tab W64) : List Nat :=
  ((List.range 64).map fun cl =>
    let w := (tabGet 0 plane (64 + cl)).toNat
    (List.range (min 256 (w / 256 % 512))).map fun i => cl * 256 + (w % 256 + i) % 256).flatten

/-- Units of CSM that the planes in which a context runs and its descriptor give it. -/
def State.csmGiven (s : State) (ctx : Nat) : List Nat :=
  ascending (((s.ctx ctx).desc.map fun d => csmUnits d.2).flatten ++
    (s.cores.map fun k => if k.2.activeCtx = some ctx then csmUnits k.2.plane else []).flatten)

/-- Key of a unit of CSM. -/
def csmUnitKey (u : Nat) : Nat := csmKey (u / 4096) (u / 256 % 16) (u % 256 * 65536)

/-- Units of CSM zeroed; a barrier object in them is none any more. -/
def State.zeroCsm (s : State) (us : List Nat) : State :=
  let inside := fun k => us.any fun u => decide (csmUnitKey u ≤ k) && decide (k < csmUnitKey u + 65536)
  if us.isEmpty then s
  else { s with mem := s.mem.filter fun c => !inside c.1, barriers := s.barriers.filter fun k => !inside k }

/-- The CSM units that have been assigned to a context or released by it since it was last looked at are zeroed; what
is assigned to it is no other context's any more (R106; log 101). -/
def State.assignCsm (s : State) (ctx : Nat) : State :=
  let old := (s.ctx ctx).csm
  let new := s.csmGiven ctx
  if old = new then s
  else
    let came := new.filter fun u => !old.contains u
    let s := s.zeroCsm (came ++ old.filter fun u => !new.contains u)
    let s : State := { s with ctxs := s.ctxs.map fun c =>
      (c.1, { c.2 with csm := c.2.csm.filter fun u => !came.contains u }) }
    s.modCtx ctx fun c => { c with csm := new }

/-- OUT to ARRIVING (R337). -/
def State.arriveCtx (s : State) (die ctx : Nat) : State :=
  let s := (s.latchDesc die ctx).assignCsm ctx
  let s := if s.homeDie ctx = die then s.loadSems ctx else s
  (s.setResid ctx die .arriving).modCtx ctx fun c => { c with nextOn := tabDel c.nextOn die }

/-- RESIDENT to LEAVING (R337): its cores on the die are halted. -/
def State.leaveDie (s : State) (die ctx : Nat) : State :=
  (s.setResid ctx die .leaving).requestHalt ctx false
    ((s.coresOf die ctx).filter fun c => !(s.core c).halting)

/-- LEAVING to OUT where all is done (R337); a context that displaces it then moves to ARRIVING (R347). -/
def State.finishLeave (s : State) (die ctx : Nat) : State :=
  let home := s.homeDie ctx
  let others := (List.range 4).all fun d => d == die || s.residOn ctx d == .out
  if s.residOn ctx die ≠ .leaving ∨ !s.offDie die ctx ∨ (home = die ∧ (!others ∨ !s.semIdle ctx)) then s
  else
    let s := if home = die then s.saveSems ctx else s
    let s := s.setResid ctx die .out
    let s := s.modCtx ctx fun c => { c with desc := tabDel c.desc die }
    match s.ctxs.find? fun c => tabFind c.2.nextOn die == some ctx with
    | some c => s.arriveCtx die c.1
    | none => s

/-- One context's moves on a die that no choice causes (R337). -/
def State.settleCtx (s : State) (die ctx : Nat) : State :=
  let home := s.homeDie ctx
  let h := s.residOn ctx home
  match s.residOn ctx die with
  | .arriving => if die ≠ home ∧ h = .resident then s.setResid ctx die .resident else s
  | .resident =>
    if (s.die home).lost then s
    else if 2 ≤ s.ctxState ctx ∨ (die ≠ home ∧ h ≠ .resident) then s.leaveDie die ctx else s
  | .leaving => s.finishLeave die ctx
  | .out => s

/-- May a context hold a slot of a die (R337, R377, R386)? -/
def State.mayReside (s : State) (die ctx : Nat) : Bool :=
  let w0 := (s.descMem ctx 0).toNat
  let d := s.die die
  let pool := gpaKey ((s.descMem ctx 4).toNat % 2 ^ 56)
  ctx != 0 && s.ctxState ctx == 1 && (s.diesOf ctx).testBit die && d.up && d.latched &&
    w0 / 2 ^ 48 % 256 == d.world.toNat && (!w0.testBit 24 || decide (128 ≤ d.world.toNat)) &&
    (dieCores die).all fun c =>
      decide (2682944 ≤ s.readNat ((s.descMem ctx 2).toNat % 4096) (pool + 64 * c + 8) 4)

/-- Contexts that hold a slot of a die. -/
def State.slotHolders (s : State) (die : Nat) : List Nat :=
  (s.ctxs.filter fun c => c.1 != 0 && s.residOn c.1 die != .out).map (·.1)

/-- One slot of a die given (R347): a free one to the first-ranked context with demand, or the
last-ranked resident's to one that ranks before it. -/
def State.giveSlot (s : State) (die : Nat) (atOnce : Bool) : State :=
  let waiting := s.liveCtxs.filter fun c => s.residOn c die == .out &&
    (tabFind (s.ctx c).nextOn die).isNone && s.demand die c && s.mayReside die c
  let holders := s.slotHolders die
  match topRank (s.dieRank die) waiting with
  | none => s
  | some c =>
    if atOnce && !(s.isBehind die c && decide (16 ≤ holders.length)) then s
    else if holders.length < 16 then s.arriveCtx die c
    else
      let free := holders.filter fun v => s.residOn v die == .resident
      match lastRank (s.dieRank die) free with
      | none => s
      | some v =>
        if (s.dieRank die c).before (s.dieRank die v) then
          (s.leaveDie die v).modCtx c fun x => { x with nextOn := tabPut x.nextOn die v }
        else s

/-- A number of slots given. -/
def State.giveSlots (s : State) (die : Nat) (atOnce : Bool) : Nat → State
  | 0 => s
  | n + 1 => (s.giveSlot die atOnce).giveSlots die atOnce n

/-- RESIDENCY_CHOICE (R337, R347): the moves that are due on a die, and the choice of every 200 µs, or
the displacement at once for an entry that is behind; a tick that is due goes first (R438). -/
def execResidencyChoice (die : Nat) (s : State) : Host.Outcome State Fault Refusal :=
  let d := s.die die
  if !d.up ∨ d.lost ∨ d.fairDue = true then .next s
  else
    let s := (s.ctxs.map (·.1)).foldl (fun s c => if c = 0 then s else s.settleCtx die c) s
    let n := d.gnomon.toNat / quantumLen
    if d.choice < n then .next ((s.giveSlots die false 16).modDie die fun d => { d with choice := n })
    else .next (s.giveSlots die true 1)

/-! ## Fairness (R344, R345) -/

/-- FAIRNESS_TICK (R344): the next 50 µs tick of a die. -/
def execFairnessTick (die : Nat) (s : State) : Host.Outcome State Fault Refusal :=
  let d := s.die die
  .next (if !d.up ∨ d.gnomon.toNat < (d.tick + 1) * 47000 ∨ d.windowFirst = true then s else s.nextTick die)

/-- FAIRNESS_WINDOW (R344): the next 10 ms window of a die begins. -/
def execFairnessWindow (die : Nat) (s : State) : Host.Outcome State Fault Refusal :=
  let d := s.die die
  .next (if !d.up ∨ d.gnomon.toNat < (d.win + 1) * 9400000 ∨ d.tick + 1 < (d.win + 1) * 200 then s else s.nextWindow die)

/-- USED_ACCRUAL (R344): USED rises for every µs that has passed. -/
def execUsedAccrual (die : Nat) (s : State) : Host.Outcome State Fault Refusal :=
  .next (if (s.die die).up then s.accrue die else s)

/-- Is a context spinning on a die (R345)? -/
def State.spinning (s : State) (die ctx : Nat) : Bool :=
  let there := s.teams.filter fun t => t.2.ctx == ctx && t.2.core.any fun c => dieOf c == die
  s.residOn ctx die == .resident && !there.isEmpty && there.all (fun t => !t.2.live) &&
    (dieCores die).all (fun c => (s.core c).cmds.all fun q => q.ctx != ctx) &&
    there.any fun t => t.2.recs.any fun r => r.state == 0

/-- Has a task of a context become ready on a die since an earlier state?  One that was woken in transit does as its
team lands (R353). -/
def State.newlyReady (s0 s : State) (die ctx : Nat) : Bool :=
  s.teams.any fun t => t.2.ctx == ctx && t.2.core.any (fun c => dieOf c == die) &&
    t.2.ready.any fun r => !(match tabFind s0.teams t.1 with
      | some u => u.core.any (fun c => dieOf c == die) && u.ready.contains r
      | none => false)

/-- How long each context of an entry has been spinning, and the end of a demotion, followed from one step
to the next (R345). -/
def State.followSpin (s0 s : State) : State :=
  { s with dies := s.dies.map fun d =>
    if d.2.fair.isEmpty then d
    else (d.1, { d.2 with fair := d.2.fair.map fun e =>
      let users := (s.ctxs.map (·.1)).filter fun c => (s.fairOf d.1 c).any fun x => x.1 == e.1
      (e.1, { e.2 with
        demoted := e.2.demoted && !users.any fun c => s0.newlyReady s d.1 c
        spins := users.filterMap fun c =>
          if s.spinning d.1 c then some (c, (tabFind e.2.spins c).getD d.2.gnomon.toNat) else none }) }) }

/-- SPIN_DEMOTION (R345): one of the entry's contexts has been spinning for SPIN µs. -/
def execSpinDemotion (die entry : Nat) (s : State) : Host.Outcome State Fault Refusal :=
  match tabFind (s.die die).fair entry with
  | none => .next s
  | some f =>
    if !f.valid ∨ f.spin = 0 ∨ !f.spins.any (fun x => decide (x.2 + 940 * f.spin ≤ (s.die die).gnomon.toNat)) then .next s
    else .next (s.modDie die fun d => { d with fair := tabPut d.fair entry { f with demoted := true } })

/-! ## Quiescence (R318, R369) -/

/-- Is a translated unit still in flight (R369)? -/
def Piece.inFlight (p : Piece) : Bool :=
  match p.loc with
  | none => false
  | some (.remote _ _) => decide (p.stage < 3)
  | some _ => decide (p.stage < 4)

/-- Epochs of the accesses in flight in the package. -/
def State.epochsOut (s : State) : List Nat :=
  (s.cores.map fun k =>
    ((k.2.loads.map (·.pieces)).flatten ++ (k.2.stores.map (·.pieces)).flatten ++
      ((k.2.cmds.filter fun c => c.started && !c.parked).map (·.units)).flatten).filterMap fun p =>
        if p.inFlight then some p.epoch else none).flatten ++
    (s.clusters.map fun k => (k.2.qps.map fun q => (q.2.out.map (·.units)).flatten).flatten.filterMap fun p =>
      if p.inFlight then some p.epoch else none).flatten

/-- QDONE (R318, R369): the newest epoch with nothing of it or earlier in flight, at most QEPOCH − 1 of
every die that is up; epochs are compared modulo 2^32, and a die that comes up later takes it back (log 113). -/
def State.newQdone (s : State) : BitVec 32 :=
  let es := s.epochsOut ++ ((s.dies.filter fun d => d.2.up && !d.2.lost).map fun d => d.2.epochNow.toNat)
  match es.map fun e => (BitVec.ofNat 32 e - s.qdone).toInt with
  | [] => s.qdone
  | r :: rs => s.qdone + BitVec.ofInt 32 (rs.foldl min r - 1)

/-- QEPOCH_ADVANCE (R318, R369): QEPOCH of a die advances every 10 µs; QDONE follows. -/
def execQepochAdvance (die : Nat) (s : State) : Host.Outcome State Fault Refusal :=
  let d := s.die die
  let s := if !d.up ∨ d.gnomon.toNat / 9400 ≤ d.epochAt then s
    else s.modDie die fun d => { d with qepoch := d.qepoch + 1, epochAt := d.epochAt + 1 }
  .next { s with qdone := s.newQdone }

/-! ## The ready-task queue (R36, R37, R341) -/

/-- Ready tasks of a core's teams that have a record, each team's in the order in which they became ready. -/
def State.readyOn (s : State) (core : Nat) : List (Nat × Nat) :=
  (s.teams.map fun t => if t.2.core = some core then
    (t.2.ready.filter fun r => r != 0).map fun r => (t.1, r) else []).flatten

/-- The youngest task of the lowest priority in a list with the oldest first. -/
def youngestLow (prio : Waiting → Nat) : List Waiting → Option Waiting
  | [] => none
  | w :: ws => match youngestLow prio ws with
    | none => some w
    | some v => if prio w < prio v then some w else some v

/-- A task put among others by its age. -/
def byAge (w : Waiting) : List Waiting → List Waiting
  | [] => [w]
  | v :: vs => if w.since < v.since then w :: v :: vs else v :: byAge w vs

/-- A task enqueued: with 256 in the queue, the youngest of the lowest priority spills (R341). -/
def enqueue (prio : Waiting → Nat) (q : List Waiting × List Waiting) (w : Waiting) : List Waiting × List Waiting :=
  if q.1.length < 256 then (q.1 ++ [w], q.2)
  else match youngestLow prio (q.1 ++ [w]) with
    | none => q
    | some v => ((q.1 ++ [w]).erase v, byAge v q.2)

/-- The address of a spilled task's record written to the spill area, at the place of the record's first unit
(R36, R37; log 63), where the die-to-die ports let the write through (R387). -/
def State.writeSpill (s : State) (w : Waiting) : State :=
  match tabFind s.teams w.team with
  | none => s
  | some t =>
    match t.recs.find? fun r => r.id == w.record with
    | none => s
    | some r =>
      let die := dieOf (t.core.getD 0)
      let unit := (r.addr - s.poolBase (t.core.getD 512) t.ctx) / 64
      let place := gpaKey ((s.descOn die t.ctx 6).toNat % 2 ^ 56 + 8 * unit)
      if s.reaches t.core place then s.agentNat 0 place 8 r.addr else s

/-- The queue of a core brought up to what its teams have ready: tasks that started leave it, spilled ones return
in age order as room frees, and new ones enter it (R341). -/
def State.syncQueue (s : State) (core : Nat) : State :=
  let k := s.core core
  let want := s.readyOn core
  let stays := fun (w : Waiting) => want.contains (w.team, w.record)
  let known := (k.queue ++ k.spilled).map fun w => (w.team, w.record)
  let new := (want.filter fun r => !known.contains r).map fun r => (⟨r.1, r.2, s.ticks⟩ : Waiting)
  let queue := k.queue.filter stays
  let spilled := k.spilled.filter stays
  let room := 256 - queue.length
  let prio := fun (w : Waiting) => ((tabFind s.teams w.team).map (·.prio)).getD 0
  let q := new.foldl (enqueue prio) ((spilled.take room).foldr byAge queue, spilled.drop room)
  if q.1 = k.queue ∧ q.2 = k.spilled then s
  else
    let s := s.modCore core fun c => { c with queue := q.1, spilled := q.2 }
    (q.2.filter fun w => !k.spilled.contains w).foldl (fun s w => s.writeSpill w) s

/-- The queues of all cores. -/
def State.syncQueues (s : State) : State := s.cores.foldl (fun s k => s.syncQueue k.1) s

/-! ## Migration (R43, R132, R353) -/

/-- Is nothing of a team under way on its core (R43, R132)? -/
def State.quiet (s : State) (core uid : Nat) : Bool :=
  let k := s.core core
  (k.loads.all fun a => a.team != uid) && (k.results.all fun r => r.team != uid) &&
    (k.cmds.all fun c => c.team != uid) &&
    k.stores.all fun a => a.team != uid || a.pieces.all fun p => p.performedFor 4

/-- May a team move (R43)?  It has not been dispatched, or has no running or ready task. -/
def State.movable (s : State) (uid : Nat) (t : Team) : Bool :=
  match t.core, s.launchOf t with
  | some core, some l =>
    decide (16 ≤ uid) && !t.dead && t.task.isNone && !l.nomig && t.tilesUsed.isEmpty &&
      (t.ready.isEmpty || (t.ready == [0] && t.started == 0)) && s.quiet core uid && !s.saved core t.ctx
  | _, _ => false

/-- Waits a team only for its core's context? -/
def State.waitsCore (s : State) (t : Team) : Bool :=
  t.task.isNone && !t.ready.isEmpty && t.core.any fun c => (s.core c).activeCtx != some t.ctx

/-- When a team was fully parked: the last time one of its records parked. -/
def Team.parkedAt (t : Team) : Nat := t.recs.foldl (fun m r => max m r.since) 0

/-- A team put into a list in the order of the time since which its members have been parked. -/
def byParked (t : Nat × Team) : List (Nat × Team) → List (Nat × Team)
  | [] => [t]
  | u :: us => if t.2.parkedAt < u.2.parkedAt then t :: u :: us else u :: byParked t us

/-- Placed teams of a die that may move, in the order of R353: not yet dispatched first, then the longest
parked. -/
def State.moveOrder (s : State) (die : Nat) : List (Nat × Team) :=
  let l := s.teams.filter fun t => (t.2.core.any fun c => dieOf c == die) && s.movable t.1 t.2
  l.filter (fun t => !t.2.ready.isEmpty) ++
    (l.filter fun t => t.2.ready.isEmpty && !t.2.recs.isEmpty).foldr byParked []

/-- The receiving die: the advertising die permitted for a team of a context with the most free slots; with its core
on which the team will land. -/
def State.receiver (s : State) (die ctx allot acct mask : Nat) : Option (Nat × Nat) :=
  let fit := (s.openDies ctx mask).filter fun d => d != die &&
    (match (s.die d).advert with
    | some (n, pad) => decide (0 < n) && decide (allot ≤ pad)
    | none => false) && (s.coreFor d ctx allot acct).isSome
  (firstBest (fun d => (((s.die d).advert).map (·.1)).getD 0) fit).bind fun d =>
    (s.coreFor d ctx allot acct).map fun c => (d, c)

/-- Unplaced teams of a context that fit no core of a die, sent each to the die that receives it, where it is placed
(R353; log 62); a GATHER launch is placed whole by R335 alone. -/
def State.sendUnplaced (s : State) (die ctx : Nat) : Nat → State
  | 0 => s
  | n + 1 =>
    match s.serveCtx ctx with
    | none => s
    | some (l, _, _) =>
      if l.gather || !permits l.diemask die || (s.coreFor die ctx l.allot l.acct).isSome then s
      else match s.receiver die ctx l.allot l.acct l.diemask with
        | none => s
        | some (_, c) =>
          let t := s.placeTeam ctx l c
          if s.rivals t ctx then s else t.sendUnplaced die ctx n

/-- A team packed (R43): it gives up what it held and takes matching resources on the receiving core. -/
def State.packTeam (s : State) (die uid : Nat) (t : Team) (toDie toCore : Nat) : State :=
  let now := (s.die die).gnomon.toNat
  let left := t.recs.filterMap fun r =>
    if r.kind = 2 ∧ r.deadline ≠ 0 then some (r.id, r.deadline - now) else none
  let s := match t.core with
    | some c => s.modCore c fun k => { k with bufs := k.bufs.filter fun b => b.2.team != uid }
    | none => s
  { s.setTeam uid { t with
      core := none, tslot := s.slotFor toCore, tiles := (s.tilesFree toCore t.ctx).take t.acct } with
    packs := s.packs ++ [⟨uid, toDie, toCore, left⟩] }

/-- The teams of a list sent, each to the die that receives it; one that no die takes stays (R353). -/
def State.sendTeams (s : State) (die : Nat) : List (Nat × Team) → State
  | [] => s
  | (uid, t) :: ts =>
    (match (s.launchOf t).bind fun l => s.receiver die t.ctx t.allot t.acct l.diemask with
    | none => s
    | some (d, c) => s.packTeam die uid t d c).sendTeams die ts

/-- Teams of a context's launches that are not placed. -/
def State.unplaced (s : State) (ctx : Nat) : Nat := ((s.ctx ctx).launches.map fun l => l.teams - l.placed).sum

/-- MIGRATION_ADVERTISE (R353): once every team on its way to it has landed a die advertises, and where one of
its teams waits for a core it sends those that may move, unplaced teams first. -/
def execMigrationAdvertise (die : Nat) (s : State) : Host.Outcome State Fault Refusal :=
  let d := s.die die
  if !d.up ∨ d.gnomon.toNat / 9400 ≤ d.advertAt ∨ (s.packs.any fun p => p.toDie == die) = true then .next s
  else
    let pad := (dieCores die).foldl (fun m c => if s.coreUsable c then max m (s.padFree c) else m) 0
    let s := s.modDie die fun k => { k with
      advert := some (s.freeSlots die, pad), advertAt := k.gnomon.toNat / 9400 }
    let short := s.teams.any (fun t => (t.2.core.any fun c => dieOf c == die) && s.waitsCore t.2) ||
      s.ctxs.any fun c => s.residOn c.1 die == .resident && c.2.launches.any fun l =>
        decide (l.placed < l.teams) && permits l.diemask die && (s.coreFor die c.1 l.allot l.acct).isNone
    if !short then .next s
    else
      let here := (s.ctxs.map (·.1)).filter fun c => s.residOn c die == .resident
      let s := here.foldl (fun s c => s.sendUnplaced die c (s.unplaced c)) s
      .next (s.sendTeams die (s.moveOrder die))

/-- MIGRATION_LANDING (R43, R353): the team stands on the core of the receiving die whose resources it has taken,
and its deadlines, in their records too, are counted from that die's GNOMON. -/
def execMigrationLanding (team core : Nat) (s : State) : Host.Outcome State Fault Refusal :=
  match s.packs.find? (fun p => p.team == team), tabFind s.teams team with
  | some p, some t =>
    if p.toCore ≠ core then .next s
    else
      let now := (s.die p.toDie).gnomon.toNat
      let recs := t.recs.map fun r => match tabFind p.left r.id with
        | some n => { r with deadline := now + n }
        | none => r
      let s : State := { s.setTeam team { t with core := some core, recs := recs } with
        packs := s.packs.filter fun q => q.team != team }
      .next (p.left.foldl (fun s x => s.showRec team x.1) s)
  | _, _ => .next s

end Sys2Proof.Machine
end

