-- ==== Sys2Proof/Machine/Preempt.lean ====
section
/-! DEFINITION. Pre-emption, the save image and restore (R374 to R385). -/

namespace Sys2Proof.Machine

/-! ## The halt (R374, R375) -/

/-- Teams of a context placed on a core. -/
def State.teamsOf (s : State) (core ctx : Nat) : List (Nat × Team) :=
  s.teams.filter fun t => t.2.core == some core && t.2.ctx == ctx

/-- Does a task wait for an answer that is on its way (R374 step 1)?  A create held on PWAIT is saved. -/
def State.awaiting (s : State) (t : Team) : Bool :=
  t.task.any fun k => match k.hold with
    | .answer id => (match tabFind s.vreqs id with
      | some q => !q.held
      | none => true)
    | .ending _ => true
    | _ => false

/-- Has a queue entry not left its queue (R204)?  SQLDs stay with the scale queue (log 34), and a PF has left it once
it has translated. -/
def Access.waits (a : Access) : Bool :=
  a.cmd == 0 && match a.kind with
    | .prefetch => a.xlate
    | .scales => false
    | .load => true
    | _ => a.queued

/-- Entries of a context's tasks that have not left. -/
def State.entriesOf (s : State) (core ctx : Nat) : List Access :=
  ((s.core core).loads ++ (s.core core).stores).filter fun a => a.ctx == ctx && a.waits

/-- Is it host memory that an entry waits for (R375)? -/
def Access.hostBound (a : Access) : Bool :=
  a.rel == some 5 || a.pieces.any fun p => match p.loc with
    | some (.host _) => true
    | _ => false

/-- Is an entry one of its team's running task?  One of a task that has ended can abort none, and the halt waits
for it (DESIGN CHOICE, log 34). -/
def State.ofTask (s : State) (a : Access) : Bool :=
  match (tabFind s.teams a.team).bind (·.task) with
  | some k => k.seq == a.seq
  | none => false

/-- The oldest entry of a team in a list. -/
def oldestOf (uid : Nat) (l : List Access) : Option Access :=
  firstBest (fun a => 2 ^ 64 - a.id) (l.filter fun a => a.team == uid)

/-- Is a command of a copy channel or the synchronisation queue one that completes before the halt: an
ACW that has started (R374 step 4)? -/
def Cmd.mustEnd (c : Cmd) : Bool :=
  match c.instr with
  | .acw _ => c.started && !c.parked
  | .acwArrive _ => c.started && !c.parked
  | _ => false

/-- Is a piece of a store on its way to a scratchpad, whose image is to hold it (R376, R381)?  One that waits in the
store queue is that queue's. -/
def Piece.toPad (p : Piece) (cmd : Nat) : Bool :=
  (cmd != 0 || decide (0 < p.stage)) && decide (p.stage < 4) && match p.loc with
    | some (.mem k) => decide (2 ^ 57 ≤ k)
    | _ => false

/-- May a core be saved: answers, results, ACWs and the accepted writes to scratchpads are through (R374 steps 1, 2, 4
and 5)? -/
def State.drained (s : State) (core ctx : Nat) : Bool :=
  let mine := s.teamsOf core ctx
  mine.all (fun t => !s.awaiting t.2) &&
    (s.core core).results.all (fun r => !mine.any fun t => t.1 == r.team) &&
    ((s.core core).cmds.all fun c => c.ctx != ctx || !c.mustEnd) &&
    (s.core core).stores.all fun a => a.ctx != ctx || !a.pieces.any (·.toPad a.cmd)

/-- A task whose access waits for the host is aborted and is ready again from its origin, with no record
(R375). -/
def State.abortReady (s : State) (core uid bound : Nat) : State :=
  match tabFind s.teams uid with
  | none => s
  | some t =>
    match t.task with
    | none => s.dropYounger core uid bound
    | some k =>
      let origin := k.origin.bind fun o => t.recs.find? fun r => r.id == o
      let s := (s.dropYounger core uid bound).endTask uid
      (s.modTeam uid fun t => match origin with
        | some r => { t with
            recs := t.recs ++ [{ r with state := 1, seq := some k.seq }], ready := r.id :: t.ready }
        | none => { t with startSeq := some k.seq, ready := 0 :: t.ready }).showRec uid (k.origin.getD 0)

/-- Every task of the list aborted so. -/
def State.abortAll (s : State) (core : Nat) (l : List Access) : List Nat → State
  | [] => s
  | u :: us =>
    (match oldestOf u l with
    | some a => s.abortReady core u a.id
    | none => s).abortAll core l us

/-! ## The image (R377 to R381) -/

/-- Is a command saved with its context: every one but SQLDs, and sent entries of the synchronisation
queue and the fabric, which complete where they are (R376)? -/
def Cmd.savedWith (c : Cmd) : Bool :=
  match c.queue with
  | .matrix => true
  | .copy _ => true
  | .sync => !c.sent
  | .fput => !c.started
  | _ => false

/-- The eight-byte words of a block. -/
def blockWords (b : List (BitVec 8)) : List Nat := (List.range 32).map fun i => recF b (8 * i) 8

/-- Code of a block of 256 bytes: 0 zero, 1 one repeated word, 2 raw (R381). -/
def blockCode (b : List (BitVec 8)) : Nat :=
  match blockWords b with
  | [] => 0
  | w :: ws => if ws.all fun x => x == w then (if w = 0 then 0 else 1) else 2

/-- Payload of a block. -/
def blockBytes (b : List (BitVec 8)) : List (BitVec 8) :=
  match blockCode b with
  | 0 => []
  | 1 => b.take 8
  | _ => b

/-- Two-bit codes of blocks put together. -/
def codeMap : List (List (BitVec 8)) → Nat
  | [] => 0
  | b :: bs => blockCode b + 4 * codeMap bs

/-- Bytes cut into blocks of 256. -/
def blocks (bs : List (BitVec 8)) : Nat → List (List (BitVec 8))
  | 0 => []
  | n + 1 => bs.take 256 :: blocks (bs.drop 256) n

/-- The coded scratchpad of a team: its dirty regions (R381). -/
def State.padImage (s : State) (uid : Nat) (t : Team) : List (BitVec 8) :=
  ((List.range 512).map fun r =>
    if t.dirty.getLsbD r then
      let bl := blocks (s.readBytes 0 (padKey uid + 4096 * r) 4096) 16
      leBytes 8 (r + codeMap bl * 2 ^ 32) ++ (bl.map blockBytes).flatten
    else []).flatten

/-- The 256 bytes of a physical vector register. -/
def Task.regBytes (t : Task) (r : Nat) : List (List (BitVec 8)) :=
  let bs := ((List.range 16).map fun i => leBytes 128 (tabGet 0 t.v (r * 16 + i)).toNat).flatten
  blocks bs 8

/-- Bytes of a record that nothing of it takes. -/
def noBytes (n : Nat) : List (BitVec 8) := List.replicate n 0

/-- Code of a token in a task record: 0 unproduced, 1 pending, 2 done (R380). -/
def State.tokCode (s : State) : Tok → Nat
  | .unproduced => 0
  | .produced ds => if s.depsDone ds then 2 else 1

/-- A task record and its vector payload (R380).  Where the rule gives a field no offset, the fields stand in its
order (DESIGN CHOICE, log 35): PC, ORIGIN, TASKID, VSHAPE, LOOPC, LSTAGE with RRB, token states, SEMBASE, FLAGS. -/
def State.taskImage (s : State) (t : Team) (k : Task) : List (BitVec 8) :=
  let origin := k.origin.bind fun o => t.recs.find? fun r => r.id == o
  let toks := ((List.range 16).map fun i => s.tokCode (tabGet .unproduced k.tok i) * 4 ^ i).sum
  let flags := (match k.hold with
    | .answer _ => 1
    | .brk => 2
    | _ => 0)
  let ps := ((List.range 7).map fun i => leBytes 2 (k.pred (i + 1)).toNat).flatten
  let xs := ((List.range 63).map fun i => leBytes 8 (tabGet 0 k.x (i + 1)).toNat).flatten
  let bl := ((List.range 32).map fun r => k.regBytes r).flatten
  leBytes 8 k.pc.toNat ++ leBytes 8 (originWord origin).toNat ++ leBytes 4 k.seq.toNat ++
    leBytes 4 (k.rows.toNat + k.cols.toNat * 2 ^ 8 + k.wc.toNat * 2 ^ 24) ++ leBytes 8 k.left.toNat ++
    leBytes 4 (k.active.toNat + k.last.toNat * 2 ^ 8 + k.rs.toNat * 2 ^ 12 + k.rrb.toNat * 2 ^ 16) ++
    leBytes 4 toks ++ leBytes 1 k.semBase.toNat ++ leBytes 1 flags ++ noBytes 4 ++ ps ++ noBytes 4 ++ xs ++ noBytes 8 ++
    leBytes 64 (codeMap bl) ++ (bl.map blockBytes).flatten

/-- A buffer descriptor as 128 bytes: its record, then what it covers (R223; log 35). -/
def bufImage : Option BufDesc → List (BitVec 8)
  | none => noBytes 128
  | some d => leBytes 64 d.record.toNat ++
      ([d.k0, d.n0, d.passes, d.kend, d.ncount, d.stamp, 1, 0].map (leBytes 8)).flatten

/-- A team record (R379).  What the rule gives no offset stands in the record's first 64 bytes (DESIGN CHOICE, log
35): index, launch slot, team slot, FLAGS, FPMODE, FPFLAGS, MSTAT, tile map, and the address of the oldest ready
continuation. -/
def Team.image (t : Team) : List (BitVec 8) :=
  let slots := ((List.range 16).map fun i => leBytes 64 (tabGet 0 t.qrec i).toNat).flatten
  let scales := t.scales.take 2048
  let flags := (if t.task.isSome then 1 else 0) + (if t.ready.contains 0 then 2 else 0)
  let oldest := (t.ready.findSome? fun n => t.recs.find? fun r => r.id == n).map (·.addr)
  leBytes 2 t.index ++ leBytes 1 t.slot ++ leBytes 1 t.tslot ++ leBytes 4 flags ++ leBytes 1 t.fpmode.toNat ++
    leBytes 1 t.fpflags.toNat ++ leBytes 2 t.sat.toNat ++
    ((List.range 8).map fun i => BitVec.ofNat 8 (t.tiles.getD i 255)) ++ leBytes 2 t.scales.length ++ noBytes 2 ++
    leBytes 8 (oldest.getD 0) ++ noBytes 32 ++ slots ++ bufImage (tabFind t.bufs 0) ++ bufImage (tabFind t.bufs 1) ++
    leBytes 64 t.dirty.toNat ++ scales ++ noBytes (2048 - scales.length) ++ noBytes 0x280

/-- Image of a team with its task and scratchpad. -/
def State.teamImage (s : State) (uid : Nat) (t : Team) : List (BitVec 8) :=
  t.image ++ (match t.task with
    | some k => s.taskImage t k
    | none => []) ++ s.padImage uid t

/-- Number of a queue in a command record (DESIGN CHOICE, log 35). -/
def Queue.code : Queue → Nat
  | .matrix => 0
  | .copy ch => 1 + ch
  | .sync => 5
  | .fput => 6
  | .fabric => 7
  | .mailbox => 8
  | .scale => 9

/-- State of a command in its record: queued, started, parked or held (DESIGN CHOICE, log 35). -/
def Cmd.stateCode (c : Cmd) : Nat := if c.held then 3 else if c.parked then 2 else if c.started then 1 else 0

/-- PT of a command with its valid bit, as its parcels hold them (R134); the link to the task is its TASKID. -/
def Cmd.token (c : Cmd) : Nat :=
  let n := leNat ((encode c.instr).take 12)
  if n.testBit 32 then 128 + n / 2 ^ 28 % 16 else 0

/-- SSEM of a command as resolved (R91, R378): a SIGS's is that of its addition. -/
def State.signalOf (s : State) (c : Cmd) : Option Nat :=
  c.sig.orElse fun _ => s.reqs.findSome? fun e => match e.2 with
    | .semSig _ n _ _ id _ _ _ (some _) _ => if id = c.id then some n else none
    | _ => none

/-- DEP of a command among those of an image: bit j is set while it waits for command j (R378). -/
def depMask (cmds : List Cmd) (c : Cmd) : Nat :=
  (cmds.zipIdx.map fun d => if c.deps.contains (.cmd d.1.id) then 2 ^ d.2 else 0).sum

/-- A field with its valid bit 15. -/
def optField (v : Option Nat) : Nat :=
  match v with
  | some n => n + 2 ^ 15
  | none => 0

/-- A command record (R378): its fields in the rule's order, DEP at 0x40 (log 35). -/
def State.cmdImage (s : State) (cmds : List Cmd) (c : Cmd) : List (BitVec 8) :=
  let parcels := (encode c.instr).take 12
  let wsem := match c.wait with
    | .none => none
    | _ => some c.wsem
  parcels ++ noBytes (12 - parcels.length) ++
    leBytes 1 (((tabFind s.teams c.team).map (·.tslot)).getD 0) ++ leBytes 1 c.queue.code ++ leBytes 1 c.stateCode ++
    leBytes 1 c.token ++ leBytes 4 c.seq.toNat ++ noBytes 4 ++ leBytes 8 c.xa.toNat ++ leBytes 8 c.xb.toNat ++
    leBytes 8 c.xc.toNat ++ leBytes 8 c.mpc ++ leBytes 2 (optField wsem) ++ leBytes 2 (optField (s.signalOf c)) ++
    leBytes 2 (optField c.regs.head?) ++ noBytes 2 ++ leBytes 19 (depMask cmds c) ++ noBytes 45

/-- A core image (R378). -/
def State.coreImage (s : State) (core ctx : Nat) (cmds : List Cmd) : List (BitVec 8) :=
  let ts := s.teamsOf core ctx
  let tasks := (ts.filter fun t => t.2.task.isSome).length
  leBytes 2 ctx ++ leBytes 2 core ++ leBytes 1 ts.length ++ leBytes 1 tasks ++ leBytes 2 cmds.length ++
    noBytes 56 ++ (cmds.map (s.cmdImage cmds)).flatten ++ (ts.map fun t => s.teamImage t.1 t.2).flatten

/-- Key of a core's unit of a context's image directory (R377). -/
def State.dirKey (s : State) (ctx core : Nat) : Nat := gpaKey (s.poolBase core ctx + 64 * core)

/-- PINNED: the tiles that saved matrix commands name (R377). -/
def pinned (cmds : List Cmd) : Nat :=
  ((List.range 8).map fun i => if cmds.any fun c => c.queue == .matrix && c.tile == some i then 2 ^ i
    else 0).sum

/-- A HALT of a context that waits for a core waits for it no longer; its task goes on once it waits for none. -/
def Hold.halted (h : Hold) (core ctx : Nat) : Hold :=
  match h with
  | .halting c l => if c = ctx then (if (l.filter (· != core)).isEmpty then .free else .halting c (l.filter (· != core)))
      else h
  | h => h

/-- A core has halted a context: the tasks that wait in a HALT for it go on once every core that their request found
running the context has (R328). -/
def State.freeHalts (s : State) (core ctx : Nat) : State :=
  { s with teams := s.teams.map fun t =>
      (t.1, { t.2 with task := t.2.task.map fun k => { k with hold := k.hold.halted core ctx } }) }

/-- The context saved: its commands leave the core, its image and the directory are written, its buffers
are dropped (R376, R377). -/
def State.saveCtx (s : State) (core ctx : Nat) : State :=
  let k := s.core core
  let mine := fun (c : Cmd) => c.ctx == ctx && c.savedWith
  let cmds := (k.cmds.filter mine).map fun c => { c with
    sent := if c.queue = .matrix then false else c.sent }
  let mates := (s.teamsOf core ctx).map fun t => (t.1, t.2.task.isSome)
  let uids := mates.map (·.1)
  let dir := s.dirKey ctx core
  let mk := s.keyOn core ctx
  let place := gpaKey (s.readNat mk dir 8)
  let img := s.coreImage core ctx cmds
  let s := (s.agentWrite mk place img).agentNat mk (dir + 12) 4 img.length
  let s := s.agentNat mk (dir + 0x19) 1 (pinned cmds)
  let now := (s.die (dieOf core)).gnomon.toNat
  let s := s.modCore core fun k => { k with
    cmds := k.cmds.filter fun c => !mine c
    sb := k.sb.filter fun b => !cmds.any fun c => c.id == b.cmd
    bufs := k.bufs.filter fun b => !uids.contains b.2.team
    lastRan := tabPut k.lastRan ctx now }
  { s with images := s.images ++
    [⟨ctx, core, place, mk, mates, cmds.map (·.id), cmds, k.sb.filter fun b => cmds.any fun c => c.id == b.cmd⟩] }

/-- PREEMPTION (R374 to R381): once everything has drained the context is saved; tasks whose accesses
wait for the host are aborted first. -/
def execPreemption (core : Nat) (s : State) : Host.Outcome State Fault Refusal :=
  let k := s.core core
  match k.activeCtx with
  | none => .next s
  | some ctx =>
    if !k.halting ∨ s.saved core ctx ∨ !s.drained core ctx then .next s
    else
      let l := s.entriesOf core ctx
      let own := l.filter s.ofTask
      let uids := ascending (own.map (·.team))
      if !l.isEmpty then
        if uids.all (fun u => (oldestOf u own).any (·.hostBound)) then .next (s.abortAll core own uids) else .next s
      else
        let die := dieOf core
        .next ((((s.saveCtx core ctx).freeHalts core ctx).finishLeave die ctx))

/-! ## Restore (R383, R384) -/

/-- A tile brought back from ACCAREA, or none while its read must wait or its record has no room. -/
def State.bringTile (s : State) (core ctx i : Nat) : Option State :=
  let dir := s.dirKey ctx core
  let mk := s.keyOn core ctx
  let area := s.readNat mk (dir + 16) 8
  let saved := s.readNat mk (dir + 24) 1
  let clear := fun s : State => s.agentNat mk (dir + 24) 1 (saved - 2 ^ i)
  if !saved.testBit i then some s
  else if !(s.teamsOf core ctx).any fun t => decide (i < t.2.acct) then some (clear s)
  else if ((s.core core).owner i).getLsbD 15 then some s
  else match s.engineBytes ⟨core, sysTeam (dieOf core), 0⟩ (w64 (area + areaBytes * i)) areaBytes with
    | .wait => none
    | .ok bs =>
      let s := s.fillUnits ⟨core, sysTeam (dieOf core), 0⟩ .plain false (units (area + areaBytes * i) areaBytes)
      some (clear (s.modCore core fun k =>
        { k.loadTile i 0 bs 128 with accown := tabSet 0 k.accown i (ownWord ctx) }))
    | .bad _ code =>
      if (s.die (dieOf core)).fqFull then none
      else some ((s.modCore core fun k => { k with accown := tabSet 0 k.accown i (ownWord 0) }).queueFault
        { die := dieOf core, code := code, source := 5, flags := 0, unit := 0, ctx := ctx, core := core
          pc := 0, addr := w64 i, tag := 0, team := 0, mpc := 0, origin := 0, uid := 0, recId := 0, cmd := 0 })

/-- The tiles from `i` on brought back. -/
def State.bringTiles (s : State) (core ctx i : Nat) : Nat → Option State
  | 0 => some s
  | n + 1 => (s.bringTile core ctx i).bind fun t => t.bringTiles core ctx (i + 1) n

/-- Bytes that a block of a code takes in an image (R381). -/
def blockLen (code : Nat) : Nat :=
  match code with
  | 0 => 0
  | 1 => 8
  | _ => 256

/-- The 256 bytes of a block from its code and its payload. -/
def blockOf (code : Nat) (bs : List (BitVec 8)) : List (BitVec 8) :=
  match code with
  | 0 => List.replicate 256 0
  | 1 => (List.replicate 32 (bs.take 8)).flatten
  | _ => bs.take 256

/-- `n` blocks decoded by a map from a place on: their bytes, and the place behind them (R381). -/
def State.unblock (s : State) (mk map place : Nat) : Nat → List (BitVec 8) × Nat
  | 0 => ([], place)
  | n + 1 =>
    let len := blockLen (map % 4)
    let rest := s.unblock mk (map / 4) (place + len) n
    (blockOf (map % 4) (s.readBytes mk place len) ++ rest.1, rest.2)

/-- `n` dirty regions decoded into a team's scratchpad, from a place on (R381): the place behind them. -/
def State.unpad (s : State) (uid mk place : Nat) : Nat → State × Nat
  | 0 => (s, place)
  | n + 1 =>
    let hd := s.readNat mk place 8
    let bl := s.unblock mk (hd / 2 ^ 32) (place + 8) 16
    (s.writeBytes 0 (padKey uid + 4096 * (hd % 512)) bl.1).unpad uid mk bl.2 n

/-- Key of the command record of an image in a place of its order (R378). -/
def Image.cmdAt (m : Image) (j : Nat) : Nat := m.place + 64 + 128 * j

/-- The commands of an image whose records name a token of a task by its TASKID (R378, R380). -/
def State.madeUnder (s : State) (m : Image) (uid tok seq : Nat) : List Dep :=
  m.order.zipIdx.filterMap fun d =>
    if (m.cmds.any fun c => c.id == d.1 && c.team == uid) && s.readNat m.mkey (m.cmdAt d.2 + 15) 1 == 128 + tok &&
        s.readNat m.mkey (m.cmdAt d.2 + 16) 4 == seq then some (.cmd d.1) else none

/-- A token from its two bits in a task record (R380): a pending one stands for the commands of the image that its task
produced under it, and for what else State holds of it that is in no image. -/
def State.readTok (s : State) (m : Image) (uid code seq i : Nat) (old : Tok) : Tok :=
  let ds := match old with
    | .produced ds => ds
    | .unproduced => []
  match code with
  | 0 => .unproduced
  | 1 => .produced ((ds.filter fun d => !m.order.any fun id => d == .cmd id) ++ s.madeUnder m uid i seq)
  | _ => .produced (if s.depsDone ds then ds else [])

/-- What holds a task, as FLAGS of its record say (R380). -/
def Hold.read (h : Hold) (flags : Nat) : Hold :=
  match h with
  | .answer id => if flags.testBit 0 then .answer id else .free
  | .brk => if flags.testBit 1 then .brk else .free
  | h => if flags.testBit 1 then .brk else h

/-- The record from which a task started, as ORIGIN of its task record names it (R362, R380). -/
def Team.readOrigin (t : Team) (word : W64) (old : Option Nat) : Option Nat :=
  if originWord (old.bind fun o => t.recs.find? fun r => r.id == o) = word then old
  else (t.recs.find? fun r => originWord (some r) == word).map (·.id)

/-- A task's registers from its record, and its vector registers from the payload (R380). -/
def State.readTask (s : State) (m : Image) (uid place : Nat) (t : Team) (k : Task) : Task × Nat :=
  let mk := m.mkey
  let f := fun off n => s.readNat mk (place + off) n
  let bl := s.unblock mk (f 0x240 64) (place + 640) 256
  let row := fun i => BitVec.ofNat 1024 (leNat ((bl.1.drop (128 * i)).take 128))
  ({ k with
      pc := w64 (f 0 8), origin := t.readOrigin (w64 (f 8 8)) k.origin, seq := BitVec.ofNat 32 (f 0x10 4)
      tok := (List.range 16).foldl (fun l i => tabSet .unproduced l i
        (s.readTok m uid (f 0x24 4 / 4 ^ i % 4) (f 0x10 4) i (tabGet .unproduced k.tok i))) []
      hold := k.hold.read (f 0x29 1), rows := BitVec.ofNat 5 (f 0x14 1), cols := BitVec.ofNat 9 (f 0x15 2)
      wc := BitVec.ofNat 2 (f 0x17 1), left := BitVec.ofNat 35 (f 0x18 8), active := BitVec.ofNat 8 (f 0x20 1)
      last := BitVec.ofNat 3 (f 0x21 1), rs := BitVec.ofNat 4 (f 0x21 1 / 16), rrb := BitVec.ofNat 4 (f 0x22 1)
      semBase := BitVec.ofNat 8 (f 0x28 1)
      p := (List.range 7).foldl (fun t i => tabSet 0x3FFF t (i + 1) (BitVec.ofNat 16 (f (0x2E + 2 * i) 2))) []
      x := (List.range 63).foldl (fun t i => tabSet 0 t (i + 1) (w64 (f (0x40 + 8 * i) 8))) []
      v := (List.range 512).foldl (fun t i => tabSet 0 t i (row i)) [] }, bl.2)

/-- A buffer descriptor read back (R223; log 35). -/
def State.readBuf (s : State) (mk place : Nat) : Option BufDesc :=
  let f := fun i => s.readNat mk (place + 64 + 8 * i) 8
  if f 6 = 1 then some ⟨BitVec.ofNat 512 (s.readNat mk place 64), f 0, f 1, f 2, f 3, f 4, f 5⟩ else none

/-- A team's record read back (R379, R384): its slots and buffer descriptors, its scale entries, behind which those
stand that came in meanwhile, and its dirty bitmap. -/
def State.readTeam (s : State) (mk place : Nat) (t : Team) : Team :=
  let n := s.readNat mk (place + 0x14) 2
  { t with
    fpmode := BitVec.ofNat 4 (s.readNat mk (place + 8) 1), fpflags := BitVec.ofNat 5 (s.readNat mk (place + 9) 1)
    sat := (s.readNat mk (place + 10) 1).testBit 0
    qrec := (List.range 16).foldl (fun q i => tabSet 0 q i (BitVec.ofNat 512 (s.readNat mk (place + 0x40 + 64 * i) 64))) []
    bufs := [0, 1].filterMap fun i => (s.readBuf mk (place + 0x440 + 128 * i)).map fun d => (i, d)
    dirty := BitVec.ofNat 512 (s.readNat mk (place + 0x540) 64)
    scales := s.readBytes mk (place + 0x580) (min n 2048) ++ t.scales.drop n }

/-- The teams of an image restored one after another from a place on (R384 steps 3 and 5): each allotment is
zeroed and decoded.  A team that has gone meanwhile is passed over. -/
def State.bringTeams (s : State) (img : Image) (place : Nat) : List (Nat × Bool) → State
  | [] => s
  | (uid, run) :: us =>
    let mk := img.mkey
    let t := tabFind s.teams uid
    let dirty : BitVec 512 := BitVec.ofNat 512 (s.readNat mk (place + 0x540) 64)
    let back := match run, t, t.bind (·.task) with
      | true, some m, some k =>
        let r := s.readTask img uid (place + 4096) m k
        (some r.1, r.2)
      | true, _, _ => (none, (s.unblock mk (s.readNat mk (place + 4096 + 0x240) 64) (place + 4736) 256).2)
      | false, _, k => (k, place + 4096)
    let s' := match t with
      | some m => (s.clearPad uid).setTeam uid { s.readTeam mk place m with task := back.1 }
      | none => s
    let r := s'.unpad uid mk back.2 ((List.range 512).filter fun i => dirty.getLsbD i).length
    (if t.isSome then r.1 else s).bringTeams img r.2 us

/-- The image of a context on a core read back, where it has one (R384 steps 3 and 5). -/
def State.readImage (s : State) (core ctx : Nat) : State :=
  match s.images.find? fun m => m.core == core && m.ctx == ctx with
  | none => s
  | some m => s.bringTeams m (m.cmdAt (s.readNat m.mkey (m.place + 6) 2)) m.teams

/-- A number whose low part, below `w`, is replaced. -/
def lowPart (old w new : Nat) : Nat := old / w * w + new % w

/-- A command at the MPC that its record gives (R243, R245, R252, R378). -/
def Cmd.atMpc (c : Cmd) (v : Nat) : Cmd :=
  match c.queue with
  | .matrix => { c with
      row := lowPart c.row 128 v, pass := lowPart c.pass 8 (v / 2 ^ 8), seg := lowPart c.seg 4096 (v / 2 ^ 12) }
  | .copy _ => { c with chunk := v }
  | .fput => { c with chunk := v }
  | _ => c

/-- A command as its record in the image holds it (R378, R384): TASKID, operands, MPC, semaphores, destination, and
the commands of the image for which it waits; the rest is State's (log 39). -/
def State.readCmd (s : State) (m : Image) (c : Cmd) : Cmd :=
  let f := fun off n => s.readNat m.mkey (m.cmdAt (m.order.idxOf c.id) + off) n
  let others := c.deps.filter fun d => !m.order.any fun id => d == .cmd id
  let inside := m.order.zipIdx.filterMap fun d => if (f 64 19).testBit d.2 then some (Dep.cmd d.1) else none
  { c.atMpc (f 48 8) with
    seq := BitVec.ofNat 32 (f 16 4), xa := w64 (f 24 8), xb := w64 (f 32 8), xc := w64 (f 40 8)
    wsem := match c.wait with
      | .none => c.wsem
      | _ => f 56 2 % 256
    sig := c.sig.map fun _ => f 58 2 % 256
    regs := match c.regs with
      | [] => []
      | _ :: rs => f 60 2 % 2 ^ 15 :: rs
    deps := others ++ inside }

/-- The saved commands back in their queues; the context's parked accesses on the die retry, as a REPLAY makes them
(R368, R384). -/
def State.bringCmds (s : State) (core ctx : Nat) : State :=
  match s.images.find? fun m => m.core == core && m.ctx == ctx with
  | none => s
  | some m =>
    let back := m.cmds.map (s.readCmd m)
    let s := s.modCore core fun k => { k with cmds := back ++ k.cmds, sb := m.sb ++ k.sb }
    { s with images := s.images.filter fun m => !(m.core == core && m.ctx == ctx) }.replayDie (dieOf core) fun c =>
      c == ctx

/-- The shadow with a context's plane: the prepared one if it names the context, else built again
(R339). -/
def State.readyShadow (s : State) (core ctx : Nat) : Option State :=
  let k := s.core core
  if k.shadowSt = 1 ∧ (tabGet 0 k.shadow 0).toNat % 4096 = ctx ∧ (tabGet 0 k.shadow 0).getLsbD 63 then some s
  else s.prepareShadow core ctx

/-- The shadow plane becomes active (R384 step 1): USED counts the plane before it up to now (R344), and CSM that
it assigns is zeroed (R106). -/
def State.activate (s : State) (core ctx : Nat) : State :=
  ((s.accrue (dieOf core)).modCore core fun k => { k with plane := k.shadow, shadow := [], shadowSt := 0 }).assignCsm ctx

/-- A context restored on a core (R384). -/
def State.restoreCtx (s : State) (core ctx : Nat) : Option State :=
  (s.readyShadow core ctx).bind fun s =>
    if (s.core core).removed then some s
    else
      ((s.activate core ctx).bringTiles core ctx 0 8).map fun s =>
        let dir := s.dirKey ctx core
        let mk := s.keyOn core ctx
        let s := (((s.readImage core ctx).bringCmds core ctx).agentNat mk (dir + 12) 4 0).agentNat mk (dir + 0x19) 1 0
        let now := (s.die (dieOf core)).gnomon.toNat
        (s.newRound core).modCore core fun k => { k with halting := false, next := none, quantum := now, kept := 0 }

/-- The context that a free core takes: the one chosen as its last one left, if that is still a candidate, or the
first-ranked of its candidates (R338, R347). -/
def State.takeNext (s : State) (core : Nat) : Option Nat :=
  match (s.core core).next with
  | some n => if (s.candidatesOf core).contains n then some n else s.nextCtx core none
  | none => s.nextCtx core none

/-- CONTEXT_RESTORE (R338, R384): a free core takes its next context, behind a tick that is due (R344). -/
def execContextRestore (core : Nat) (s : State) : Host.Outcome State Fault Refusal :=
  if !s.coreUsable core ∨ !s.idle core ∨ s.tickDue = true then .next s
  else match s.takeNext core with
    | none => .next s
    | some ctx => orStay s (s.restoreCtx core ctx)

end Sys2Proof.Machine
end

