-- ==== Sys2Proof/Machine/Secure.lean ====
section
/-! DEFINITION. The code scanner and Alidade: admission of code, memory keys, key slots, grants,
attestation, confidential frames and scrubs (R144 to R146, R360, R361, R386 to R408). -/

namespace Sys2Proof.Machine

/-! ## Frames -/

/-- A frame of this package by its global physical address: key of its first byte. -/
def State.ownFrame (s : State) (gpa : Nat) : Option Nat :=
  if s.ownPkg gpa && backed (gpa % 2 ^ 46) && gpa % 65536 == 0 then some (gpaKey gpa) else none

/-- Is a frame in quarantine (R327)?  Runs hold frames as address bits [55:16]. -/
def State.quarantined (s : State) (key : Nat) : Bool :=
  s.dies.any fun d => d.2.quar.any fun q =>
    let f := gpaKey (q.frame * 65536) / 65536
    decide (f ≤ key / 65536) && decide (key / 65536 < f + q.len)

/-- The context that has claimed a frame (R401). -/
def State.claimOf (s : State) (key : Nat) : Option Nat :=
  tabFind (s.die (key / 2 ^ 46)).claims (frameIndex (key % 2 ^ 46))

/-- A frame filled with zeros under a memory key (R402, R404); the writes to a locked one are refused (R361). -/
def State.zeroFrame (s : State) (mk key : Nat) : State :=
  if (s.lockOf key).isSome then s
  else
  let tags := s.tags.filter fun t => decide (t.1 < key / 128) || decide (key / 128 + 512 ≤ t.1)
  { s with
    mem := s.mem.filter fun c => decide (c.1 < key) || decide (key + 65536 ≤ c.1)
    tags := (List.range 512).foldl (fun t i => tabPut t (key / 128 + i) (mk + 1)) tags }

/-- The frame of a page of a context and its leaf entry, by a walk of the context's own table. -/
def State.pageOf (s : State) (die ctx va : Nat) : Option (Nat × BitVec 64) :=
  match s.walk ⟨die * 128, 0, ctx⟩ va .read with
  | .error _ => none
  | .ok (leaf, big) =>
    (s.ownFrame (leafFrame leaf * 65536 + if big then va % 2 ^ 29 / 65536 * 65536 else 0)).map
      fun k => (k, leaf)

/-- May management-class accesses reach a place of a die's system space (R388)?  The doorbell words count
with their rings (DEDUCED, log 37). -/
def State.mgmtOpen (s : State) (die loc len : Nat) : Bool :=
  let d := s.die die
  let inside := fun (b n : Nat) => decide (b ≤ loc) && decide (loc + len ≤ b + n)
  d.world.toNat < 128 || inside aliRing 0x4000 || inside aliBell 8 || inside scanRing 0x2000 ||
    inside scanBell 8 ||
    (gpaKey d.fqbase.toNat / 2 ^ 46 == die && inside (d.fqbase.toNat % 2 ^ 46) (64 * d.fqsize.toNat))

/-- Do the accesses of a die's Alidade, or its scanner, to `len` bytes at a global physical address under a memory key
get through the die-to-die ports and the HBM controllers (R361, R387, R388)?  Those of CD0's Alidade are of management
class: they reach another die's system space, and no claimed frame (R401). -/
def State.agentSees (s : State) (die gpa len : Nat) (write : Bool) (mk : Nat := 0) (scan : Bool := false) : Bool :=
  let d := gpa / 2 ^ 46 % 4
  let loc := gpa % 2 ^ 46
  let first := gpaKey gpa / 65536
  let mgmt := die == 0 && !scan
  s.ownPkg gpa && !(s.die d).lost &&
    (s.worldOk die d || (mgmt && decide (0x300000000000 ≤ loc) && s.mgmtOpen d loc len)) &&
    !(List.range ((gpaKey gpa + len - 1) / 65536 + 1 - first)).any fun i =>
      s.refused mk ((first + i) * 65536) write || (mgmt && (s.claimOf ((first + i) * 65536)).isSome)

/-! ## The code scanner (R144 to R146, R360) -/

/-- What a scan finds: the boundary bitmap, or a reason and the parcel offset. -/
inductive Scan where
  | passed (bitmap : Nat)
  | failed (reason : Reason) (offset : Nat)

/-- Is an instruction one that a class may not hold (R144)? -/
def barredIn (cls : Nat) (x : BitVec 96) (i : Instr) : Bool :=
  ((fld x 2 6).toNat == 0x3E && cls == 0) || match i with
    | .wlatch _ => cls != 2
    | .wlatchSw _ => cls != 2
    | _ => false

/-- The check of one instruction of `n` parcels, of which `have` are there. -/
def checkInstr (cls : Nat) (x : BitVec 96) (n there : Nat) : Option Reason :=
  match if n ≤ there then decodeBits x else decodeCut x there with
  | .error e => some e
  | .ok i => if barredIn cls x i then some .privilege else if n ≤ there then none else some .truncated

/-- The scan from parcel `off` on. -/
def scanParcels (cls off bitmap : Nat) (ps : List Nat) : Nat → Scan
  | 0 => .passed bitmap
  | fuel + 1 =>
    match ps with
    | [] => .passed bitmap
    | p :: _ =>
      let n := lengthOfBits (BitVec.ofNat 96 p)
      let x := BitVec.ofNat 96 ((ps.take n).zipIdx.map fun e => e.1 * 2 ^ (32 * e.2)).sum
      match checkInstr cls x n ps.length with
      | some r => .failed r off
      | none => scanParcels cls (off + n) (bitmap + 2 ^ off) (ps.drop n) fuel

/-- Parcels of a byte list. -/
def parcelsOf (bs : List (BitVec 8)) : Nat → List Nat
  | 0 => []
  | n + 1 => leNat (bs.take 4) :: parcelsOf (bs.drop 4) n

/-- The measurement of a section (R146). -/
def measure (cls : Nat) (bs : List (BitVec 8)) : List (BitVec 8) :=
  sha384 (leBytes 8 cls ++ leBytes 8 bs.length ++ bs)

/-- TLB entries that name a frame of a list dropped. -/
def State.dropFrames (s : State) (frames : List Nat) : State :=
  let names := fun (t : TlbEntry) =>
    let f := gpaKey (leafFrame t.leaf * 65536) / 65536
    leafType t.leaf != 1 && frames.any fun x => decide (f ≤ x) && decide (x < f + if t.big then 8192 else 1)
  let keep := fun (l : List TlbEntry) => l.filter fun t => !names t
  { s with
    cores := s.cores.map fun k => (k.1, { k.2 with tlb := keep k.2.tlb })
    clusters := s.clusters.map fun k => (k.1, { k.2 with tlb := keep k.2.tlb }) }

/-- A scan request's fields (R360). -/
structure ScanReq where
  key : Nat
  frames : Nat
  pages : Nat
  cls : Nat
  ctx : Nat
  vbase : Nat
  sem : Nat
  mkey : Nat
  deriving DecidableEq, Repr

/-- The request in a slot of the scan ring. -/
def State.scanReq (s : State) (die slot : Nat) : ScanReq :=
  let k := physKey die (scanRing + 128 * slot)
  let f := fun off n => s.readNat 0 (k + off) n
  ⟨k, f 0 8, f 8 4, f 12 1, f 14 2 % 4096, f 16 8, f 24 1, f 26 2 % 4096⟩

/-- Frame addresses that a request lists. -/
def State.scanList (s : State) (r : ScanReq) : List Nat :=
  (List.range r.pages).map fun i => s.readNat 0 (gpaKey (r.frames + 8 * i)) 8

/-- Frames that a request lists, as keys; none where one is no backed frame of this package. -/
def State.scanFrames (s : State) (r : ScanReq) : Option (List Nat) := (s.scanList r).mapM s.ownFrame

/-- Is a byte of a request that no field names not 0? -/
def State.reserved (s : State) (key len : Nat) (named : List (Nat × Nat)) : Bool :=
  (List.range len).any fun i =>
    !(named.any fun n => decide (n.1 ≤ i) && decide (i < n.1 + n.2)) && s.byte (key + i) != 0

/-- Fields that R360 and R388 refuse.  No field or status of R360 carries a signature: that a section of class 2
is signed by Alidade is not checked here (DESIGN CHOICE, log 93). -/
def State.scanBad (s : State) (die : Nat) (r : ScanReq) : Bool :=
  r.pages == 0 || decide (4096 < r.pages) || decide (2 < r.cls) || r.vbase % 65536 != 0 ||
    decide (2 ^ 54 < r.vbase + 65536 * r.pages) || !s.agentSees die r.frames (8 * r.pages) false 0 true ||
    (s.scanFrames r).isNone || !((s.scanList r).all fun a => s.agentSees die a 65536 false r.mkey true) ||
    (r.cls == 1 && decide (128 ≤ (s.die die).world.toNat)) ||
    s.reserved r.key 128 [(0, 8), (8, 4), (12, 1), (14, 2), (16, 8), (24, 1), (26, 2), (32, 1), (33, 1),
      (36, 4), (48, 48)]

/-- The request in the slot at a key answered, and a semaphore of C0x000 signalled. -/
def State.endScan (s : State) (die key sem status reason off : Nat) : State :=
  let s := ((s.writeNat 0 (key + 32) 1 status).writeNat 0 (key + 33) 1 reason).writeNat 0 (key + 36) 4 off
  let s := (s.semAdd 0 sem 1).getD s
  s.modDie die fun d => { d with bells := d.bells.eraseP fun b => b.1 == 0, scan := none }

/-- Key of the leaf entry of a page in a context's table; none where it cannot be written (R360 step 5): a table
that the scanner of the die does not reach counts as not present (R387; log 102). -/
def State.leafPlace (s : State) (die ctx va : Nat) : Option Nat :=
  let t1 := (s.descWord ctx 1).toNat % 2 ^ 56
  let e1 := s.tableEntry t1 (va / 2 ^ 42 % 8192)
  if !s.agentSees die t1 65536 false 0 true || !leafP e1 || leafL e1 then none
  else
    let t2 := leafFrame e1 * 65536
    let e2 := s.tableEntry t2 (va / 2 ^ 29 % 8192)
    if !s.agentSees die t2 65536 false 0 true || !leafP e2 || leafL e2 then none
    else
      let t := leafFrame e2 * 65536
      if !s.agentSees die t 65536 true 0 true || leafP (s.tableEntry t (va / 2 ^ 16 % 8192)) then none
      else some (gpaKey (t + 8 * (va / 2 ^ 16 % 8192)))

/-- A leaf entry of code (R357, R360). -/
def codeLeaf (gpa cls mkey : Nat) : Nat :=
  3 + 3 * 16 + cls * 128 + gpa / 65536 % 2 ^ 40 * 4096 + mkey * 2 ^ 52

/-- The leaf entries of a section written, each at its place. -/
def State.writeLeaves (s : State) (cls mkey : Nat) : List (Nat × Nat) → State
  | [] => s
  | (k, gpa) :: ks => (s.writeNat 0 k 8 (codeLeaf gpa cls mkey)).writeLeaves cls mkey ks

/-- Steps 4 to 6: the locked frames are scanned, measured and mapped, as the request was read (R360); frames whose key
is dead by now cannot be read (R391; log 102). -/
def State.finishScan (s : State) (die : Nat) (j : ScanJob) (c : Section) : State :=
  let bs := (c.frames.map fun f => s.readBytes j.mkey (f * 65536) 65536).flatten
  let free := { s with sections := s.sections.filter fun x => x.id != c.id }
  let n := 16384 * c.frames.length
  if !(j.gpas.all fun a => s.agentSees die a 65536 false j.mkey true) then free.endScan die j.key j.sem 5 0 0
  else match scanParcels j.cls 0 0 (parcelsOf bs n) n with
  | .failed e off => free.endScan die j.key j.sem 2 e.code off
  | .passed bitmap =>
    match (List.range j.gpas.length).mapM fun i => s.leafPlace die j.ctx (j.vbase + 65536 * i) with
    | none => free.endScan die j.key j.sem 3 0 0
    | some places =>
      let m := measure j.cls bs
      let done := { c with bitmap := bitmap, meas := BitVec.ofNat 384 (leNat m), admitted := true }
      let s : State := { free with sections := free.sections ++ [done] }
      ((s.writeLeaves j.cls j.mkey (places.zip j.gpas)).writeBytes 0 (j.key + 48) m).endScan die j.key j.sem 1 0 0

/-- SCAN_REQUEST (R360): the request at the head of the doorbells is checked and its frames are locked;
once QDONE reaches the epoch of that moment it is finished, with the fields as they were read then. -/
def execScanRequest (die slot : Nat) (s : State) : Host.Outcome State Fault Refusal :=
  if ((s.die die).bells.filter fun b => b.1 == 0).head? ≠ some (0, slot) then .next s
  else
    let r := s.scanReq die slot
    let refuse := fun status => Host.Outcome.next (s.endScan die r.key r.sem status 0 0)
    match (s.die die).scan with
    | some j => (match s.sections.find? fun c => c.id == j.sect with
      | some c => .next (if s.quiesced c.epoch then s.finishScan die j c else s)
      | none => .next s)
    | none =>
      if s.scanBad die r then refuse 5
      else match s.scanFrames r with
        | none => refuse 5
        | some ks =>
          let busy := ks.any fun k => (s.lockOf k).isSome || s.quarantined k || (s.claimOf k).isSome ||
            s.refused 0 k true
          if busy || (ascending ks).length < ks.length then refuse 4
          else
            let (id, s) := s.fresh
            let frames := ks.map (· / 65536)
            let c : Section := ⟨id, die, r.ctx, r.cls, r.vbase, r.pages, frames, 0, 0, false,
              (s.die die).epochNow.toNat⟩
            let j : ScanJob := ⟨id, r.key, r.cls, r.ctx, r.vbase, r.sem, r.mkey, s.scanList r⟩
            .next (({ s with sections := s.sections ++ [c] }.dropFrames frames).modDie die fun d =>
              { d with scan := some j })

/-! ## The request ring (R389, R390) -/

/-- Key of a request slot. -/
def reqKey (die slot : Nat) : Nat := physKey die (aliRing + 256 * slot)

/-- A field of a request. -/
def State.reqF (s : State) (die slot off n : Nat) : Nat := s.readNat 0 (reqKey die slot + off) n

/-- STATUS written and SEM of C0x000 signalled (R389). -/
def State.reqStatus (s : State) (die slot status : Nat) : State :=
  let s := s.writeNat 0 (reqKey die slot + 1) 1 status
  (s.semAdd 0 (s.reqF die slot 2 1) 1).getD s

/-- A request taken off the ring. -/
def State.reqPop (s : State) (die slot : Nat) : State :=
  s.modDie die fun d => { d with bells := d.bells.erase (1, slot) }

/-- A request answered. -/
def State.reqEnd (s : State) (die slot status : Nat) : State := (s.reqStatus die slot status).reqPop die slot

def sDone : Nat := 1
def sBadreq : Nat := 2
def sBusy : Nat := 3
def sPolicy : Nat := 4
def sUnwrap : Nat := 5
def sWorld : Nat := 6

/-- A request of the ring at its turn: `named` are its own fields.  A reserved OP is answered by the
step of OP 1 (log 36). -/
def alidade (die slot op : Nat) (named : List (Nat × Nat)) (body : State → State) (s : State) :
    Host.Outcome State Fault Refusal :=
  if ((s.die die).bells.filter fun b => b.1 == 1).head? ≠ some (1, slot) then .next s
  else
    let o := s.reqF die slot 0 1
    if (o = 0 ∨ 11 < o) ∧ op = 1 then .next (s.reqEnd die slot sBadreq)
    else if o ≠ op then .next s
    else if s.reserved (reqKey die slot) 256 ([(0, 3), (4, 2)] ++ named) then
      .next (s.reqEnd die slot sBadreq)
    else .next (body s)

/-- CTX of a request. -/
def State.reqCtx (s : State) (die slot : Nat) : Nat := s.reqF die slot 4 2 % 4096

/-- WORLD of a context (R314). -/
def State.worldOf (s : State) (ctx : Nat) : Nat := (s.descWord ctx 0).toNat / 2 ^ 48 % 256

/-- Is a request for a world taken at another die (R389)? -/
def State.wrongWorld (s : State) (die w : Nat) : Bool :=
  !(s.die die).latched || (s.die die).world.toNat != w

/-! ## Memory keys (R391) -/

/-- MKEY_NEW (R391): the lowest free index; what was written under an earlier key of that index stays
unreadable. -/
def State.mkeyNew (s : State) (die slot : Nat) : State :=
  let w := s.reqF die slot 8 1
  if s.wrongWorld die w then s.reqEnd die slot sWorld
  else if s.scrubs.any fun r => r.die == die && r.slot == 64 then s.reqEnd die slot sBusy
  else match (List.range 4096).find? fun i => i != 0 && (tabFind s.mkeys i).isNone with
    | none => s.reqEnd die slot sBusy
    | some i =>
      let (id, s) := s.fresh
      let tags := s.tags.map fun t => if t.2 = i + 1 then (t.1, 4097 + id) else t
      let s := { s with mkeys := tabPut s.mkeys i (1, w), tags := tags }
      (s.writeNat 0 (reqKey die slot + 16) 2 i).reqEnd die slot sDone

def execMkeyNew (die slot : Nat) (s : State) : Host.Outcome State Fault Refusal :=
  alidade die slot 1 [(8, 1), (16, 2)] (fun s => s.mkeyNew die slot) s

/-- A memory key zeroised and its index dead (R391): what was written under it can be read under no key again. -/
def State.killKey (s : State) (i : Nat) : State :=
  let (id, s) := s.fresh
  { s with
    mkeys := tabPut s.mkeys i (2, (tabGet (0, 0) s.mkeys i).2)
    tags := s.tags.map fun t => if t.2 = i + 1 then (t.1, 4097 + id) else t }

/-- MKEY_KILL (R391). -/
def execMkeyKill (die slot : Nat) (s : State) : Host.Outcome State Fault Refusal :=
  alidade die slot 2 [(8, 2)] (fun s =>
    let i := s.reqF die slot 8 2
    if i = 0 ∨ 4096 ≤ i then s.reqEnd die slot sBadreq
    else (s.killKey i).reqEnd die slot sDone) s

/-! ## Key slots and grants (R392 to R398) -/

/-- A blob's wrapped policy opened (R394): the status, or the slot's contents but for the owner. -/
def State.openBlob (s : State) (die : Nat) (b : List (BitVec 8)) (owner : Nat) : Except Nat KeySlot :=
  let f := fun off n => (b.drop off).take n
  let priv := (s.die die).unwrap.getD 0
  let target := sha384 (pointBytes (publicPoint priv))
  let rsv := f 1 15 ++ f 0xA1 7 ++ f 0x110 0x30
  if leNat (f 0 1) ≠ 1 ∨ rsv.any (· != 0) then .error sBadreq
  else if f 0x10 48 ≠ target ∨ (s.die die).unwrap = none then .error sUnwrap
  else match pointOf (f 0x40 97) with
    | none => .error sUnwrap
    | some q =>
      let z := match pointMul priv (some q) none 384 with
        | some (x, _) => beBytes 48 x
        | none => List.replicate 48 0
      let info := "Gleivo slot wrap".toList.map fun c => BitVec.ofNat 8 c.toNat
      match keyUnwrap (hkdf384 target z info 32) (f 0xA8 104) with
      | none => .error sUnwrap
      | some p =>
        let g := fun off n => leNat ((p.drop off).take n)
        if g 88 1 ≠ (s.die die).world.toNat then .error sWorld
        else if g 84 4 < g 80 4 ∨ g 89 7 ≠ 0 then .error sUnwrap
        else .ok ⟨BitVec.ofNat 256 (g 0 32), BitVec.ofNat 384 (g 32 48), g 80 4, g 84 4, owner⟩

/-- SLOT_LOAD (R394, R395). -/
def State.slotLoad (s : State) (die slot : Nat) : State :=
  let ctx := s.reqCtx die slot
  let n := s.reqF die slot 8 2
  if 1024 ≤ n ∨ s.ctxState ctx ≠ 1 then s.reqEnd die slot sBadreq
  else if s.wrongWorld die (s.worldOf ctx) then s.reqEnd die slot sWorld
  else if (tabFind (s.die die).slots n).isSome then s.reqEnd die slot sBusy
  else if !s.agentSees die (s.reqF die slot 16 8) 320 false then s.reqEnd die slot sBadreq
  else match s.openBlob die (s.readBytes 0 (gpaKey (s.reqF die slot 16 8)) 320) ctx with
    | .error c => s.reqEnd die slot c
    | .ok k => (s.modDie die fun d => { d with slots := tabPut d.slots n k }).reqEnd die slot sDone

def execSlotLoad (die slot : Nat) (s : State) : Host.Outcome State Fault Refusal :=
  alidade die slot 3 [(8, 2), (16, 8)] (fun s => s.slotLoad die slot) s

/-- Buffers in use by the command that holds the array. -/
def Core.busyBufs (k : Core) : List Nat :=
  match k.arrayUser with
  | none => []
  | some c => match c.buf with
    | some (n, _) => [n]
    | none => buffersUsed c.instr

/-- Grants of a die that `p` names cleared: the buffers filled under them are emptied, those in use when
their command or segment ends (R397). -/
def State.clearGrants (s : State) (die : Nat) (p : Nat → Grant → Bool) : State :=
  let s := s.modDie die fun d => { d with grants := d.grants.filter fun g => !p g.1 g.2 }
  let grants := (s.die die).grants
  let stale := fun (b : PhysBuf) => match b.grant with
    | some g => (tabFind grants g).isNone
    | none => false
  { s with cores := s.cores.map fun k =>
      if dieOf k.1 = die then
        (k.1, { k.2 with bufs := k.2.bufs.filter fun b => !stale b.2 || k.2.busyBufs.contains b.1 })
      else k }

/-- Is a buffer of a die still filled under a grant that no longer stands? -/
def State.staleBufs (s : State) (die : Nat) : Bool :=
  s.cores.any fun k => dieOf k.1 == die && k.2.bufs.any fun b => match b.2.grant with
    | some g => (tabFind (s.die die).grants g).isNone
    | none => false

/-- SLOT_CLEAR (R397): STATUS waits until the buffers are empty. -/
def execSlotClear (die slot : Nat) (s : State) : Host.Outcome State Fault Refusal :=
  alidade die slot 4 [(8, 2)] (fun s =>
    let n := s.reqF die slot 8 2
    if 1024 ≤ n then s.reqEnd die slot sBadreq
    else
      let s := s.clearGrants die fun _ g => g.slot == n
      if s.staleBufs die then s
      else (s.modDie die fun d => { d with slots := tabDel d.slots n }).reqEnd die slot sDone) s

/-- GRANT_SET (R396). -/
def State.grantSet (s : State) (die slot : Nat) : State :=
  let f := fun off n => s.reqF die slot off n
  let d := s.die die
  let ctx := s.reqCtx die slot
  let meas := BitVec.ofNat 384 (f 24 48)
  if 4096 ≤ f 8 2 ∨ 1024 ≤ f 10 2 then s.reqEnd die slot sBadreq
  else if s.wrongWorld die (s.worldOf ctx) then s.reqEnd die slot sWorld
  else if (tabFind d.grants (f 8 2)).isSome then s.reqEnd die slot sBusy
  else match tabFind d.slots (f 10 2) with
    | none => s.reqEnd die slot sPolicy
    | some k =>
      if k.owner ≠ ctx ∨ meas ≠ k.meas ∨ !(decide (k.tlo ≤ f 16 4) && decide (f 16 4 ≤ f 20 4) &&
          decide (f 20 4 ≤ k.thi)) then s.reqEnd die slot sPolicy
      else
        let g : Grant := ⟨ctx, f 10 2, f 16 4, f 20 4, meas⟩
        (s.modDie die fun d => { d with grants := tabPut d.grants (f 8 2) g }).reqEnd die slot sDone

def execGrantSet (die slot : Nat) (s : State) : Host.Outcome State Fault Refusal :=
  alidade die slot 5 [(8, 2), (10, 2), (16, 4), (20, 4), (24, 48)] (fun s => s.grantSet die slot) s

/-- GRANT_CLEAR (R397). -/
def execGrantClear (die slot : Nat) (s : State) : Host.Outcome State Fault Refusal :=
  alidade die slot 6 [(8, 2)] (fun s =>
    let n := s.reqF die slot 8 2
    if 4096 ≤ n then s.reqEnd die slot sBadreq
    else
      let s := s.clearGrants die fun g _ => g == n
      if s.staleBufs die then s else s.reqEnd die slot sDone) s

/-! ## Attestation (R399, R400) -/

/-- The quote before its signature (R399). -/
def State.quote (s : State) (die ctx : Nat) (nonce : List (BitVec 8)) : List (BitVec 8) :=
  let d := s.die die
  let all := if ctx = 0 then [] else s.sections.filter fun c => c.ctx == ctx && c.admitted
  let cs := all.take 16
  leBytes 4 1 ++ leBytes 1 die ++ leBytes 1 d.world.toNat ++ leBytes 1 (if 16 < all.length then 1 else 0) ++
    [(0 : BitVec 8)] ++ leBytes 16 Config.serial.toNat ++ leBytes 2 ctx ++ leBytes 2 cs.length ++
    List.replicate 4 (0 : BitVec 8) ++ nonce ++ leBytes 48 d.fwmeas.toNat ++
    pointBytes (match d.unwrap with
      | some k => publicPoint k
      | none => none) ++ List.replicate 7 (0 : BitVec 8) ++
    (cs.map fun c => leBytes 4 c.cls ++ leBytes 48 c.meas.toNat).flatten

/-- ATTEST (R399); an OUT that the quote cannot be written to gives BADREQ (R361, R387; log 102). -/
def State.attest (s : State) (die slot : Nat) : State :=
  let ctx := s.reqCtx die slot
  if ctx ≠ 0 ∧ s.wrongWorld die (s.worldOf ctx) then s.reqEnd die slot sWorld
  else
    let q := s.quote die ctx (s.readBytes 0 (reqKey die slot + 24) 48)
    let sig := ecdsaSign (privateKey (Config.identityKey die)) (privateKey (Config.signNonce s.ticks)) (sha384 q)
    let out := s.reqF die slot 16 8
    if s.agentSees die out (q ++ sig).length true then (s.writeBytes 0 (gpaKey out) (q ++ sig)).reqEnd die slot sDone
    else s.reqEnd die slot sBadreq

def execAttest (die slot : Nat) (s : State) : Host.Outcome State Fault Refusal :=
  alidade die slot 7 [(16, 8), (24, 48)] (fun s => s.attest die slot) s

/-! ## Confidential frames (R401, R402) -/

/-- The handshake page of a request: its key, OP, COUNT, SEQ and pages. -/
structure Handshake where
  key : Nat
  op : Nat
  count : Nat
  seq : Nat
  pages : List Nat

/-- The handshake page read under its context's key. -/
def State.handshake (s : State) (ctx key : Nat) : Handshake :=
  let mk := s.ctxKey ctx
  let f := fun off n => s.readNat mk (key + off) n
  let count := f 4 4
  ⟨key, f 0 4, count, f 8 8, (List.range (min count 4096)).map fun i => f (64 + 8 * i) 8⟩

/-- May a page be accepted (R402)? -/
def State.acceptable (s : State) (die ctx va : Nat) : Option Nat :=
  if va % 65536 ≠ 0 ∨ 2 ^ 54 ≤ va then none
  else match s.pageOf die ctx va with
    | none => none
    | some (k, leaf) =>
      if (leafType leaf = 0 ∨ leafType leaf = 2) ∧ leafKey leaf = s.ctxKey ctx ∧ k / 2 ^ 46 = die ∧
          (s.claimOf k).isNone ∧ (s.lockOf k).isNone ∧ s.quarantined k = false then some k else none

/-- The frame of a page that a context has claimed. -/
def State.claimedFrame (s : State) (die ctx va : Nat) : Option Nat :=
  if va % 65536 ≠ 0 ∨ 2 ^ 54 ≤ va then none
  else (s.pageOf die ctx va).bind fun x => if s.claimOf x.1 = some ctx then some x.1 else none

/-- The same, in the claim table of the die. -/
def State.claimedPage (s : State) (die ctx va : Nat) : Option Nat :=
  (s.claimedFrame die ctx va).bind fun k => if k / 2 ^ 46 = die then some k else none

/-- The handshake page of a context, claimed on any die of its world (R387, R402). -/
def State.claimedHs (s : State) (die ctx va : Nat) : Option Nat :=
  (s.claimedFrame die ctx va).bind fun k =>
    if s.worldOk die (k / 2 ^ 46) ∧ !(s.die (k / 2 ^ 46)).lost then some k else none

/-- A claim made or dropped. -/
def State.setClaim (s : State) (key : Nat) (c : Option Nat) : State :=
  let i := frameIndex (key % 2 ^ 46)
  s.modDie (key / 2 ^ 46) fun d => { d with claims := match c with
    | some x => tabPut d.claims i x
    | none => tabDel d.claims i }

/-- Is a SEQ above every one that this Alidade has served for a context (R402)? -/
def State.freshSeq (s : State) (die ctx seq : Nat) : Bool :=
  match tabFind (s.die die).hsSeq ctx with
  | some n => decide (n < seq)
  | none => true

/-- Has a context claimed nothing and been served nothing here yet? -/
def State.firstAccept (s : State) (die ctx : Nat) : Bool :=
  (tabFind (s.die die).hsSeq ctx).isNone && !s.dies.any fun d => d.2.claims.any fun c => c.2 == ctx

/-- A frame zeroed for ACCEPT and RELEASE, unless its writes are refused (R361, R404). -/
def State.wipeFrame (s : State) (mk key : Nat) : State := if s.refused mk key true then s else s.zeroFrame mk key

/-- ACCEPT and RELEASE (R402): OP 1 or 2 of the handshake page, which cannot be read under a dead key (R391). -/
def State.serveHandshake (s : State) (die slot op : Nat) : State :=
  let ctx := s.reqCtx die slot
  let hs := s.reqF die slot 16 8
  let first := op = 1 ∧ s.firstAccept die ctx = true
  if s.wrongWorld die (s.worldOf ctx) then s.reqEnd die slot sWorld
  else if (tabGet (0, 0) s.mkeys (s.ctxKey ctx)).1 = 2 then s.reqEnd die slot sBadreq
  else match if first then s.acceptable die ctx hs else s.claimedHs die ctx hs with
    | none => s.reqEnd die slot sBadreq
    | some key =>
      let h := s.handshake ctx key
      if h.op ≠ op ∨ h.count = 0 ∨ 4096 < h.count ∨ s.freshSeq die ctx h.seq = false then
        s.reqEnd die slot sBadreq
      else match h.pages.mapM fun va =>
          if op = 1 then s.acceptable die ctx va else s.claimedPage die ctx va with
        | none => s.reqEnd die slot sBadreq
        | some ks =>
          let mk := s.ctxKey ctx
          let s := if first then s.setClaim key (some ctx) else s
          let s := ks.foldl (fun s k =>
            (s.wipeFrame mk k).setClaim k (if op = 1 then some ctx else none)) s
          let s := s.agentNat mk (key + 16) 8 h.seq
          (s.modDie die fun d => { d with hsSeq := tabPut d.hsSeq ctx h.seq }).reqEnd die slot sDone

/-- ACCEPT (R402). -/
def execAccept (die slot : Nat) (s : State) : Host.Outcome State Fault Refusal :=
  alidade die slot 8 [(16, 8)] (fun s => s.serveHandshake die slot 1) s

/-- RELEASE (R402). -/
def execRelease (die slot : Nat) (s : State) : Host.Outcome State Fault Refusal :=
  alidade die slot 9 [(16, 8)] (fun s => s.serveHandshake die slot 2) s

/-! ## Forced reclaim (R403) -/

/-- The launch rings of a context emptied (R419). -/
def State.emptyRings (s : State) (ctx : Nat) : State :=
  (List.range 4).foldl (fun s p => s.agentNat 0 ((s.launchRing ctx p).key + 12) 4 (s.launchRing ctx p).tail) s

/-- A context's launches, queued ones among them, dropped with it (R403, R419). -/
def State.dropLaunches (s : State) (ctx : Nat) : State :=
  let uids := (s.teams.filter fun t => t.2.ctx == ctx && decide (16 ≤ t.1)).map (·.1)
  let s := uids.foldl (fun s u => s.killTeam u) s
  let gone := fun (c : Cmd) => c.ctx == ctx
  let images := s.images.map fun m => if m.ctx = ctx then { m with cmds := [], sb := [] } else m
  let cores := s.cores.map fun k => (k.1, { k.2 with cmds := k.2.cmds.filter fun c => !gone c })
  let s := { s with images := images, cores := cores }
  (s.emptyRings ctx).modCtx ctx fun c => { c with launches := [], gtabs := [] }

/-- The halt of a context on every die, as HALT makes it (R328, R403). -/
def State.haltEverywhere (s : State) (ctx : Nat) : State :=
  [0, 1, 2, 3].foldl (fun s d => s.requestHalt ctx true ((s.coresOf d ctx).filter fun c =>
    !(s.core c).halting)) s

/-- Slots and grants of a context cleared on every die. -/
def State.dropSecrets (s : State) (ctx : Nat) : State :=
  [0, 1, 2, 3].foldl (fun s d =>
    let slots := ((s.die d).slots.filter fun k => k.2.owner == ctx).map (·.1)
    (s.clearGrants d fun _ g => g.ctx == ctx || slots.contains g.slot).modDie d fun k => { k with
      slots := k.slots.filter fun x => x.2.owner != ctx }) s

/-- DESTROY (R403): STATE 3 and the halt; then, all cores halted, its keys, slots, grants and claims. -/
def State.destroy (s : State) (die slot : Nat) : State :=
  let ctx := s.reqCtx die slot
  if ctx = 0 ∨ s.wrongWorld die (s.worldOf ctx) then s.reqEnd die slot (if ctx = 0 then sBadreq else sWorld)
  else
    let s := (s.setCtxState ctx 3).haltEverywhere ctx
    if [0, 1, 2, 3].any fun d => !s.offDie d ctx then s
    else
      let mk := s.ctxKey ctx
      let s := s.dropLanded ctx
      let s := if mk = 0 then s else s.killKey mk
      let s := s.writeNat 0 (gpaKey (s.ctxbase.toNat + 256 * ctx + 24)) 8 0
      let s := (s.modCtx ctx fun c => { c with rkey := c.rkey.map fun _ => 0, landKey := none }).dropSecrets ctx
      if [0, 1, 2, 3].any s.staleBufs then s
      else
        let drop := fun (d : Die) => { d with claims := d.claims.filter fun c => c.2 != ctx, hsSeq := tabDel d.hsSeq ctx }
        let dies := s.dies.map fun d => (d.1, drop d.2)
        let s := { s with dies := dies }
        let s := (s.zeroCsm (s.ctx ctx).csm).modCtx ctx fun c => { c with csm := [] }
        (s.dropLaunches ctx).reqEnd die slot sDone

def execDestroy (die slot : Nat) (s : State) : Host.Outcome State Fault Refusal :=
  alidade die slot 10 [] (fun s => s.destroy die slot) s

/-! ## Scrubs (R404) -/

/-- The runs of a SCRUB: first local frame and length; none where one is malformed or not of the die. -/
def State.scrubRuns (s : State) (die slot : Nat) : Option (List (Nat × Nat)) :=
  (List.range (s.reqF die slot 10 2)).mapM fun i =>
    let e := s.readNat 0 (gpaKey (s.reqF die slot 16 8 + 8 * i)) 8
    let gpa := e % 2 ^ 40 * 65536
    let n := e / 2 ^ 40 % 2 ^ 13 + 1
    let own := fun j => match s.ownFrame (gpa + 65536 * j) with
      | some k => k / 2 ^ 46 == die
      | none => false
    if e / 2 ^ 53 = 0 ∧ own 0 = true ∧ own (n - 1) = true then some (gpa % 2 ^ 46 / 65536, n) else none

/-- Slots offered to the Alidade of a die and not answered, in doorbell order. -/
def State.offered (s : State) (die : Nat) : List Nat := ((s.die die).bells.filter fun b => b.1 == 1).map (·.2)

/-- Has Alidade taken the request of a slot, whose answer is still to come: a scrub under way, or an answer that
waits for an earlier one (R389)? -/
def State.takenSlot (s : State) (die slot : Nat) : Bool :=
  (s.scrubs.any fun r => r.die == die && r.slot == slot) || (tabFind (s.die die).owed slot).isSome

/-- The answer of a SCRUB: at its turn, or kept until then (R389). -/
def State.owe (s : State) (die slot status : Nat) : State :=
  if (s.offered die).head? = some slot then s.reqEnd die slot status
  else s.modDie die fun d => { d with owed := tabPut d.owed slot status }

/-- SCRUB taken (R404): the runs of a dead key are recorded; the frames are zeroed later. -/
def State.startScrub (s : State) (die slot : Nat) : State :=
  let key := s.reqF die slot 8 2
  let n := s.reqF die slot 10 2
  if s.reserved (reqKey die slot) 256 [(0, 3), (4, 2), (8, 2), (10, 2), (16, 8)] ∨
      (tabGet (0, 0) s.mkeys key).1 ≠ 2 ∨ n = 0 ∨ 256 < n ∨ !s.agentSees die (s.reqF die slot 16 8) (8 * n) false then
    s.owe die slot sBadreq
  else if 4 ≤ (s.scrubs.filter fun r => r.die == die).length then s.owe die slot sBusy
  else match s.scrubRuns die slot with
    | none => s.owe die slot sBadreq
    | some runs =>
      let r : ScrubRec := ⟨die, key, runs, 0, 0, (s.die die).epochNow.toNat, s.reqF die slot 2 1, slot⟩
      { s with scrubs := s.scrubs ++ [r] }

/-- SCRUB (R389, R404): taken once every request offered before it has been taken; requests are answered in
doorbell order, so one behind it that is no SCRUB waits until it is over (log 60). -/
def execScrub (die slot : Nat) (s : State) : Host.Outcome State Fault Refusal :=
  let l := s.offered die
  if !l.contains slot ∨ s.reqF die slot 0 1 ≠ 11 ∨ !(l.takeWhile fun x => x != slot).all (s.takenSlot die) then .next s
  else match tabFind (s.die die).owed slot with
    | some status =>
      if l.head? ≠ some slot then .next s
      else .next ((s.reqEnd die slot status).modDie die fun d => { d with owed := tabDel d.owed slot })
    | none => .next (if s.takenSlot die slot then s else s.startScrub die slot)

/-- The watermark after a frame (R404). -/
def ScrubRec.advance (r : ScrubRec) : ScrubRec :=
  match r.runs[r.run]? with
  | some (_, n) => if r.frame + 1 < n then { r with frame := r.frame + 1 } else { r with run := r.run + 1, frame := 0 }
  | none => r

/-- May a scrub go on: its die is up, QDONE has reached its epoch, and no scrub of the die was recorded before it
(R389, R404)? -/
def State.scrubbing (s : State) (r : ScrubRec) : Bool :=
  (s.die r.die).up && s.quiesced r.epoch && (s.scrubs.find? fun x => x.die == r.die) == some r

/-- SCRUB_FRAME_ZERO (R404, R405): the next frame of a scrub of a key is zeroed under the system key; after the
last one the record is erased, the index, if it is still dead, is free, and the request is answered at its turn, unless
power was lost since. -/
def execScrubFrameZero (key : Nat) (s : State) : Host.Outcome State Fault Refusal :=
  match s.scrubs.find? fun r => r.key == key && s.scrubbing r with
  | none => .next s
  | some r => match r.runs[r.run]? with
      | none => .next s
      | some (f, _) =>
        let s := s.zeroFrame 0 (physKey r.die (65536 * (f + r.frame)))
        let r' := r.advance
        if r'.run < r.runs.length then
          .next { s with scrubs := s.scrubs.map fun x => if x = r then r' else x }
        else
          let s := { s with
            scrubs := s.scrubs.erase r
            mkeys := if (tabGet (0, 0) s.mkeys key).1 = 2 then tabDel s.mkeys key else s.mkeys }
          .next (if r.slot < 64 then s.owe r.die r.slot sDone else s)

end Sys2Proof.Machine
end

