-- ==== Sys2Proof/Machine/HostLink.lean ====
section
/-! DEFINITION. The host's side: the adapter's registers, the data aperture, the launch windows, and the
registers that system software and the debug agent set from outside (R342, R285, R286, R409 to R412,
R422, R424). -/

namespace Sys2Proof.Machine

/-! ## Adapter registers (R410) -/

/-- APCTL written; RSV bits stay 0 (R6). -/
def State.setApctl (s : State) (v : W64) : State := { s with apctl := v &&& 0xFFFFFFFF0000FFFF }

/-- LINK. -/
def State.linkWord (s : State) : W64 := w64 (s.lanes.toNat + if s.linkUp then 16 else 0)

/-- The register at an offset of BAR0; the rest reads as RSV. -/
def State.adapterReg (s : State) (off : Nat) : W64 :=
  match off with
  | 0x000 => s.apctl
  | 0x008 => s.hwbase
  | 0x010 => s.aperr.zeroExtend 64
  | 0x018 => s.linkWord
  | _ => 0

/-- Byte of BAR0. -/
def State.adapterByte (s : State) (off : Nat) : BitVec 8 :=
  BitVec.ofNat 8 ((s.adapterReg (off / 8 * 8)).toNat / 2 ^ (8 * (off % 8)))

/-- A word with one of its bytes replaced. -/
def putByte (w : W64) (i : Nat) (b : BitVec 8) : W64 :=
  (w &&& ~~~((0xFF : W64) <<< (8 * i))) ||| (b.zeroExtend 64 <<< (8 * i))

/-- Bytes written from an offset of BAR0 up: the RO and HW registers ignore them (R5). -/
def State.writeAdapter (s : State) (off : Nat) : List (BitVec 8) → State
  | [] => s
  | b :: bs =>
    let s := if off < 8 then s.setApctl (putByte s.apctl off b)
      else if off < 16 then { s with hwbase := putByte s.hwbase (off - 8) b }
      else s
    s.writeAdapter (off + 1) bs

/-! ## The aperture (R387, R388, R401, R411) -/

/-- Units of a MODE 0 access: system space of the die, or none where it is refused. -/
def State.apertureSystem (s : State) (va len : Nat) : Option (List Span) :=
  let die := s.apctl.toNat / 4 % 4
  if 0x300000000000 ≤ va ∧ va + len ≤ 0x400000000000 ∧ (s.die die).up = true ∧ (s.die die).lost = false ∧
      s.mgmtOpen die va len then
    some ((units va len).map fun u => ⟨u.1, u.2, .mem (physKey die u.1), 0⟩)
  else none

/-- The place of a unit of a versioned granule: its newest version (R102). -/
def State.newestAt (s : State) (ctx n va : Nat) : Option (Nat × Nat) :=
  match s.region ctx n with
  | none => none
  | some r =>
    if va < r.base ∨ r.base + 128 * r.size ≤ va then none
    else
      let g := (va - r.base) / 128
      some (r.slot g (s.latest ctx r g) + (va - r.base) % 128, r.home)

/-- Does the die of a key take accesses of a world, and is its frame nobody's claim (R387, R401)? -/
def State.hostReach (s : State) (w key : Nat) : Bool :=
  let d := s.die (key / 2 ^ 46)
  decide (2 ^ 48 ≤ key) || (d.latched && !d.lost && d.world.toNat == w && (s.claimOf key).isNone)

/-- Units of a MODE 1 access, translated as CTX's own access on the debug path; system space as in MODE 0 (R411). -/
def State.apertureUnits (s : State) (ctx : Nat) (write : Bool) : List (Nat × Nat) → Option (List Span)
  | [] => some []
  | (va, n) :: us =>
    let w := s.worldOf ctx
    let t := s.modDie (s.homeDie ctx) fun d => { d with world := BitVec.ofNat 8 w, latched := true }
    let here : Option Span := match t.xlate (s.fabricWho ctx) (w64 va) n .debug write with
      | .ok (.mem k) key =>
        if s.hostReach w k && (decide (k % 2 ^ 46 < 0x300000000000) || s.mgmtOpen (k / 2 ^ 46) (k % 2 ^ 46) n) then
          some ⟨va, n, .mem k, key⟩ else none
      | .ok loc key => some ⟨va, n, loc, key⟩
      | .ver r => (s.newestAt ctx r va).bind fun p =>
          if s.hostReach w p.1 ∧ !(s.die p.2).lost then some ⟨va, n, .mem p.1, s.ctxKey ctx⟩ else none
      | _ => none
    match here, s.apertureUnits ctx write us with
    | some u, some r => some (u :: r)
    | _, _ => none

/-- Units of an access through BAR4, or none where it is refused (R411). -/
def State.apertureSpans (s : State) (va len : Nat) (write : Bool) : Option (List Span) :=
  let ctx := s.apctl.toNat / 16 % 4096
  match s.apctl.toNat % 4 with
  | 0 => s.apertureSystem va len
  | 1 =>
    let st := s.ctxState ctx
    if (s.descWord ctx 0).toNat.testBit 24 ∨ st = 0 ∨ st = 3 ∨ 2 ^ 54 < va + len then none
    else (s.apertureUnits ctx write (units va len)).bind fun sp =>
      if (s.spansRefused sp write).isSome then none else some sp
  | _ => none

/-- An access through BAR4: done, or refused and counted. -/
def State.aperture (s : State) (a : ApertureAcc) : State :=
  let len := if a.write then a.data.length else a.len
  match s.apertureSpans (s.apctl.toNat / 2 ^ 32 * 2 ^ 32 + a.off) len a.write with
  | none =>
    let s := { s with aperr := s.aperr + 1 }
    if a.write then s else { s with outbox := s.outbox ++ [.hostRead none] }
  | some sp =>
    if a.write then s.putUnits sp a.data
    else { s with outbox := s.outbox ++ [.hostRead (some (s.readSpans sp))] }

/-! ## Launch windows (R412) -/

/-- The staged record of a window. -/
def State.stagedBytes (s : State) (window : Nat) : List (BitVec 8) :=
  (List.range 256).map fun i => tabGet 0 s.staged (window * 256 + i)

/-- A doorbell of a window handled (R331, R412). -/
def State.doorbell (s : State) (window value : Nat) : State :=
  if !s.linkUp ∨ 2 ^ 33 ≤ value then s
  else
    let (code, s) := s.acceptLaunch (s.fabricWho window) window (s.stagedBytes window) none
    let s := { s with winStatus := tabSet 0 s.winStatus window (winWord value code) }
    if value.testBit 32 then { s with outbox := s.outbox ++ [.msix (window % 2047)] } else s

/-- HOST_DOORBELL (R412). -/
def execHostDoorbell (window value : Nat) (s : State) : Host.Outcome State Fault Refusal :=
  .next (s.doorbell (window % 4096) value)

/-- Bytes staged from an offset of BAR2 up. -/
def State.stage (s : State) (off : Nat) : List (BitVec 8) → State
  | [] => s
  | b :: bs =>
    let s := if off % 4096 < 256 then
        { s with staged := tabSet 0 s.staged (off / 4096 * 256 + off % 4096) b } else s
    s.stage (off + 1) bs

/-- Byte of BAR2. -/
def State.windowByte (s : State) (off : Nat) : BitVec 8 :=
  let o := off % 4096
  if o < 256 then tabGet 0 s.staged (off / 4096 * 256 + o)
  else if 0x108 ≤ o ∧ o < 0x110 then
    BitVec.ofNat 8 ((tabGet 0 s.winStatus (off / 4096)).toNat / 2 ^ (8 * (o - 0x108)))
  else 0

/-- A write to BAR2: the doorbell takes 8 bytes. -/
def State.writeWindow (s : State) (off : Nat) (bs : List (BitVec 8)) : State :=
  if off % 4096 = 0x100 then
    if bs.length = 8 then s.doorbell (off / 4096) (leNat bs) else s
  else s.stage off bs

/-- APERTURE_ACCESS (R409, R411): one host access through a base address register, once the link is up
(R420). -/
def execApertureAccess (acc : ApertureAcc) (s : State) : Host.Outcome State Fault Refusal :=
  let len := if acc.write then acc.data.length else acc.len
  let read := fun (f : Nat → BitVec 8) =>
    { s with outbox := s.outbox ++ [.hostRead (some ((List.range len).map fun i => f (acc.off + i)))] }
  if !s.linkUp then .next s
  else match acc.bar with
    | 0 =>
      if 65536 < acc.off + len then .next s
      else .next (if acc.write then s.writeAdapter acc.off acc.data else read s.adapterByte)
    | 2 =>
      if 2 ^ 24 < acc.off + len then .next s
      else .next (if acc.write then s.writeWindow acc.off acc.data else read s.windowByte)
    | 4 => if 2 ^ 32 < acc.off + len then .next s else .next (s.aperture acc)
    | _ => .next s

/-! ## Registers set from outside -/

/-- One word of a fairness entry written: it takes effect at the next tick (R342), behind those that are due (R344). -/
def State.writeFair (s : State) (die entry word : Nat) (v : BitVec 32) : State :=
  if die < 4 ∧ entry < 256 ∧ word < 8 then
    s.modDie die fun d => { d with
      fairPend := tabPut d.fairPend (d.ticksDue * 2 ^ 20 + entry * 8 + word) v }
  else s

/-- REGISTER_WRITE (R5, R6, R285, R286, R342, R410, R422, R424). -/
def execRegisterWrite (reg : HostReg) (s : State) : Host.Outcome State Fault Refusal :=
  match reg with
  | .apctl v => .next (s.setApctl v)
  | .hwbase v => .next { s with hwbase := v }
  | .plimit p => .next (if 1000000 ≤ p ∧ p ≤ 3000000 then { s with plimit := p } else s)
  | .downMask pkg m => .next { s with downMask := tabSet 0 s.downMask pkg m }
  | .fairness die entry word v => .next (s.writeFair die entry word v)
  | .portShare port a b c =>
    let p := tabGet portReset s.ports port
    .next (if a + b + c = 100 then { s with ports := tabPut s.ports port { p with shares := (a, b, c) } } else s)
  | .exportSet pkg ctx base len r w =>
    .next { s with exports := s.exports ++ [⟨pkg, ctx, base, len, r, w⟩] }
  | .exportClear pkg ctx =>
    .next { s with exports := s.exports.filter fun e => !(e.pkg == pkg && e.ctx == ctx) }
  | .breakRelease team =>
    .next (s.modTeam team fun t => { t with task := t.task.map fun k =>
      if k.hold = .brk then { k with hold := .free } else k })

end Sys2Proof.Machine
end

