-- ==== Sys2Proof/Machine/Health.lean ====
section
/-! DEFINITION. The health block and the links: bring-up, power, machine checks, the loss of a die, flits
and ports (R289, R405, R414 to R416, R420 to R425). -/

namespace Sys2Proof.Machine

/-! ## Termination from outside the launch (R364, R423, R424) -/

/-- Die whose fault queue takes a TERM record: the one named, or else the lowest that is up. -/
def State.termDie (s : State) (die : Nat) : Option Nat :=
  (die :: List.range 4).find? fun d => (s.die d).up && !(s.die d).lost

/-- Is a team on a lost die, or on its way to one? -/
def State.teamLost (s : State) (uid : Nat) (t : Team) : Bool :=
  match t.core with
  | some c => (s.die (dieOf c)).lost
  | none => s.packs.any fun p => p.team == uid && (s.die p.toDie).lost

/-- Teams of a launch that are lost with a die leave the machine. -/
def State.dropLost (s : State) (ctx slot : Nat) : State :=
  let gone := (s.teams.filter fun t => t.2.ctx == ctx && t.2.slot == slot && decide (16 ≤ t.1) &&
    s.teamLost t.1 t.2).map (·.1)
  let s := { s with
    teams := s.teams.filter fun t => !gone.contains t.1
    packs := s.packs.filter fun p => !gone.contains p.team }
  s.modLaunch ctx slot fun l => { l with retired := l.retired + gone.length }

/-- One launch terminated with its TERM record.  `none` while the record must wait for room. -/
def State.doom (s : State) (d : Doom) : Option State :=
  match (s.ctx d.ctx).launches.find? fun l => l.slot == d.slot with
  | none => some s
  | some l =>
    let finish := fun (s : State) => (s.dropLost d.ctx d.slot).killLaunch d.ctx d.slot
    match s.termDie d.die with
    | none => some (finish s)
    | some die =>
      if (s.die die).fqFull then none
      else some (finish (s.queueFault
        { die := die, code := d.code, source := 5, flags := 8, unit := 0, ctx := d.ctx, core := d.core
          pc := 0, addr := w64 d.addr, tag := l.tag, team := d.slot * 2 ^ 16, mpc := 0, origin := 0
          uid := 0, recId := 0, cmd := 0 }))

/-- Launches that wait for their records, in order, while there is room. -/
def State.drainDoom (s : State) : List Doom → State
  | [] => { s with doomed := [] }
  | d :: ds =>
    match s.doom d with
    | some t => t.drainDoom ds
    | none => { s with doomed := d :: ds }

/-- Launches added to those that wait. -/
def State.addDoom (s : State) (l : List Doom) : State :=
  let l := l.filter fun d => !s.doomed.any fun e => e.ctx == d.ctx && e.slot == d.slot
  s.drainDoom (s.doomed ++ l)

/-! ## Loss of a target (R289) -/

/-- Every open queue pair of the package, those without an entry among them, for which `p` holds. -/
def State.loseQps (s : State) (p : QpDesc → Bool) : State :=
  let l := ((List.range 64).map fun cl => (List.range 256).filterMap fun qp =>
    let d := s.qpDesc cl qp
    if d.state = 1 ∧ p d = true then some (cl, qp, d.target) else none).flatten
  l.foldl (fun s x => s.loseQp x.1 x.2.1 x.2.2) s

/-- A package is lost. -/
def State.losePkg (s : State) (pkg : Nat) : State :=
  if s.lostPkgs.contains pkg then s
  else { s with lostPkgs := s.lostPkgs ++ [pkg] }.loseQps fun d => d.target == pkg

/-! ## Loss of a die (R424, R425) -/

/-- Continuations parked on semaphores homed on a die resume with PEER_LOST; the requests of commands
go to the file again. -/
def State.loseSems (s : State) (die : Nat) : State :=
  let lost := s.semChains.filter fun e => s.homeDie (e.1 / 256) == die
  let s := { s with semChains := s.semChains.filter fun e => s.homeDie (e.1 / 256) != die }
  (lost.map fun e => e.2.map fun w => (e.1, w)).flatten.foldl (fun s x => match x.2 with
    | .task t r _ => s.wakeRec t r cPeerLost
    | w => s.putReq (.semWait (x.1 / 256) (x.1 % 256) w)) s

/-- Continuations parked on barrier objects of a die. -/
def State.loseBars (s : State) (die : Nat) : State :=
  let lost := s.barChains.filter fun e => keyDie e.1 == die
  let s := { s with
    barChains := s.barChains.filter fun e => keyDie e.1 != die
    barriers := s.barriers.filter fun k => keyDie k != die }
  (lost.map (·.2)).flatten.foldl (fun s w => match w with
    | .task t r _ => s.wakeRec t r cPeerLost
    | _ => s) s

/-- Is a region homed on a die? -/
def State.homedOn (s : State) (ctx n die : Nat) : Bool := (s.region ctx n).any fun r => r.home == die

/-- Continuations parked on granules of regions homed on a die resume, and held creates are answered.  A CPYV chunk
that waits on such a granule is no continuation, and waits for ever (R294, R424; log 114). -/
def State.loseRegions (s : State) (die : Nat) : State :=
  let on := fun (key : Nat) => s.homedOn (key / 2 ^ 26 / 256) (key / 2 ^ 26 % 256) die
  let lost := s.verChains.filter fun e => on e.1
  let held := s.vreqs.filter fun v => v.2.held && s.homedOn v.2.ctx v.2.region die
  let s := lost.foldl (fun s e => s.setVerChain e.1 []) s
  let s := (s.pwait.filter fun e => s.homedOn (e.1 / 256) (e.1 % 256) die).foldl
    (fun s e => s.setPwait (e.1 / 256) (e.1 % 256) []) s
  let s := (lost.map (·.2)).flatten.foldl (fun s w => match w with
    | .task t r _ => s.wakeRec t r cPeerLost
    | .cmd _ _ => s) s
  held.foldl (fun s v => s.answer v.1 v.2 cPeerLost v.2.va) s

/-- Launches with a team on a lost die. -/
def State.lostLaunches (s : State) (die : Nat) : List Doom :=
  s.teams.filterMap fun t =>
    if 16 ≤ t.1 ∧ s.teamLost t.1 t.2 = true ∧ t.2.dead = false then
      some ⟨t.2.ctx, t.2.slot, cPeerLost, s.homeDie t.2.ctx, t.2.core.getD (die * 128), 0⟩
    else none

/-- Contexts whose home is a die: STATE 2 where they are live. -/
def State.suspendHomed (s : State) (die : Nat) : List Nat → State
  | [] => s
  | c :: cs => (if c ≠ 0 ∧ s.homeDie c = die ∧ s.ctxState c = 1 then s.setCtxState c 2 else s).suspendHomed die cs

/-- What stood on the die's own parts is gone. -/
def State.clearDie (s : State) (die : Nat) : State :=
  let mine := fun (c : Nat) => dieOf c == die
  let stays := fun (t : Team) => !t.core.any mine
  let gone : Req → Bool := fun r => match r with
    | .semWait _ _ (.cmd c _) => mine c
    | .semSig _ _ _ _ _ c _ _ (some _) _ => mine c
    | _ => false
  let world := (s.die die).gnomon
  let focus := match s.issuer with
    | some e => if mine e.core then none else s.focus
    | none => s.focus
  let ctxs := s.ctxs.map fun c => (c.1, { c.2 with
    resid := tabDel c.2.resid die, nextOn := tabDel c.2.nextOn die, desc := tabDel c.2.desc die
    csm := c.2.csm.filter fun u => u / 4096 != die })
  let vreqs := s.vreqs.filter fun v => match v.2.src with
    | .task t c => !mine c && (tabFind s.teams t).all stays
    | .copy c _ => !mine c
    | _ => true
  { s with
    dies := tabPut s.dies die { dieReset with lost := true, gnomon := world }
    cores := s.cores.filter fun c => !mine c.1
    clusters := s.clusters.filter fun c => c.1 / 16 != die
    teams := tabDel s.teams (sysTeam die)
    images := s.images.filter fun m => !mine m.core
    reqs := s.reqs.filter fun r => !gone r.2
    vreqs := vreqs, ctxs := ctxs, focus := focus
    outbox := s.outbox ++ [.dieLost die] }

/-- A die of this package lost. -/
def State.loseDie (s : State) (die : Nat) : State :=
  if 4 ≤ die ∨ (s.die die).lost then s
  else
    let s := s.loseRegions die
    let s := (s.clearDie die).loseQps fun d => d.target == s.pkg.toNat && s.homeDie d.tctx == die
    let s := (s.loseSems die).loseBars die
    (s.suspendHomed die s.liveCtxs).addDoom (s.lostLaunches die)

/-- DIE_LOSS (R424): a die of this package, or of another, whose queue pairs aimed there are closed (R289; log 106). -/
def execDieLoss (pkg die : Nat) (s : State) : Host.Outcome State Fault Refusal :=
  if pkg = s.pkg.toNat ∨ pkg = 255 then .next (s.loseDie die)
  else if s.lostDies.contains (pkg, die) then .next s
  else
    let s : State := { s with lostDies := s.lostDies ++ [(pkg, die)] }
    let s := s.loseQps s.aimLost
    .next (if (List.range 4).all fun d => s.lostDies.contains (pkg, d) then s.losePkg pkg else s)

/-! ## Machine checks (R313, R423) -/

/-- Number that stands for no context in a MACHINE_CHECK. -/
def noCtx : Nat := 4096

/-- What a context has under way on a core stops: the data in error is not delivered to it (R423; DESIGN CHOICE,
log 103). -/
def State.stopReads (s : State) (core ctx : Nat) : State :=
  (s.modCore core fun q => { q with loads := q.loads.filter fun a => a.ctx != ctx }).dropCmds core fun c =>
    c.ctx == ctx && c.started && !c.held

/-- A machine check. -/
def State.machineCheck (s : State) (die code core ctx addr : Nat) : State :=
  let s := s.logCheck code die core (if ctx < noCtx then ctx else 0) addr
  if noCtx ≤ ctx then s.loseDie die
  else if ctx = 0 then
    (match tabFind s.teams (sysTeam die) with
    | some t => if t.core = some core then (s.stopReads core 0).abortTask (sysTeam die) else s
    | none => s)
  else
    let ls := (s.ctx ctx).launches.map fun l => (⟨ctx, l.slot, code, die, core, addr⟩ : Doom)
    ((s.stopReads core ctx).setCtxState ctx 2).addDoom ls

/-- MACHINE_CHECK (R423): codes 0xE0 to 0xE6; 1 stands for a corrected soft error, which is counted; any other value
only goes on with the terminations that wait for room (log 115). -/
def execMachineCheck (die code core ctx addr : Nat) (s : State) : Host.Outcome State Fault Refusal :=
  if code = 1 then .next { s with corrected := s.corrected + 1 }
  else if code < 0xE0 ∨ 0xE6 < code ∨ 4 ≤ die then .next (s.drainDoom s.doomed)
  else .next (s.machineCheck die code core ctx addr)

/-! ## Bring-up (R420, R421) -/

/-- Cores of a die reset, with the verdict of their self-test. -/
def State.testCores (s : State) (die : Nat) (bad : List Nat) : State :=
  (List.range 128).foldl (fun s i =>
    let s := s.setCore (die * 128 + i) { coreReset with usable := !bad.contains i }
    if bad.contains i then s.logCheck 0xE0 die (die * 128 + i) 0 0 else s) s

/-- Communication masters (R421). -/
def State.appoint (s : State) (die : Nat) : State :=
  (List.range 16).foldl (fun s i =>
    let cl := die * 16 + i
    let m := (List.range 8).find? fun c => (s.core (cl * 8 + c)).usable
    s.setCluster cl { clusterReset with master := m.map fun c => cl * 8 + c }) s

/-- What the firmware places: bytes of this die's memory and system space, but for what is refused (R361, R405). -/
def State.loadBytes (s : State) (die : Nat) : List (Nat × BitVec 8) → State
  | [] => s
  | (k, b) :: l =>
    (if k / 2 ^ 46 = die then s.agentWrite 0 k [b] else s).loadBytes die l

/-- The firmware's section, admitted as class 2 where the scanner passes it (R144, R360, R400) and no scrub holds a
frame of it (R405). -/
def State.admitFirmware (s : State) (die : Nat) (bu : Bringup) : State :=
  let bs := (bu.frames.map fun f => s.readBytes 0 (f * 65536) 65536).flatten
  let n := 16384 * bu.frames.length
  if bu.frames.any fun f => s.refused 0 (f * 65536) true then s
  else match scanParcels 2 0 0 (parcelsOf bs n) n with
  | .failed _ _ => s
  | .passed bitmap =>
    let (id, s) := s.fresh
    let c : Section := ⟨id, die, 0, 2, bu.vbase, bu.frames.length, bu.frames, bitmap,
      BitVec.ofNat 384 (leNat (measure 2 bs)), true, 0⟩
    { s with sections := s.sections ++ [c] }

/-- The handler core: core 0 of the die, or the first that passed (R318, R420). -/
def handlerCore (bad : List Nat) : Nat := ((List.range 128).find? fun i => !bad.contains i).getD 0

/-- C0x000's team and its first task on the handler core (R420 step 6). -/
def State.startFirmware (s : State) (die : Nat) (bu : Bringup) : State :=
  let h := handlerCore bu.badCores
  let t := teamStart 0 0 0 (die * 128 + h) 0 0 0 0 [] []
  let s := s.setTeam (sysTeam die) { t with ready := [] }
  let s := { s with ctxbase := bu.ctxbase }
  let s := s.modDie die fun d => { d with hcore := BitVec.ofNat 7 h }
  (s.startSystem die bu.entry []).latch die bu.world

/-- Does a port train in step 5 of a die (R414, R420)?  A scale-up port does that is down and whose partner reports
this package's index; a die's Ethernet port is its own. -/
def State.trains (s : State) (die pkg : Nat) (p : Nat × Nat) : Bool :=
  let q := tabGet portReset s.ports p.1
  !q.up && q.sent.isEmpty && (if p.1 < 18 then p.2 == pkg else p.1 == 18 + die)

/-- Steps 4 to 7. -/
def State.bringUp (s : State) (die : Nat) (bu : Bringup) : State :=
  let s := s.modDie die fun d => { d with up := true, fwmeas := Config.firmwareMeas die }
  let s := (s.testCores die bu.badCores).appoint die
  let ports := (bu.ports.filter (s.trains die bu.pkg)).foldl (fun t p => tabPut t p.1 { portReset with up := true }) s.ports
  let s := { s with ports := ports, pkg := BitVec.ofNat 8 bu.pkg }
  let s := ((s.loadBytes die bu.load).admitFirmware die bu).startFirmware die bu
  let s := { s with qdone := s.newQdone }
  if die = 0 then { s with linkUp := decide (0 < bu.lanes), lanes := BitVec.ofNat 4 (min bu.lanes 8) } else s

/-- DIE_BRINGUP (R420): a die that fails a step is logged and lost (R424). -/
def execDieBringup (die : Nat) (bu : Bringup) (s : State) : Host.Outcome State Fault Refusal :=
  let d := s.die die
  if 4 ≤ die ∨ d.up ∨ d.lost then .next s
  else if !bu.firmwareOk then .next ((s.logCheck 0xE6 die 0x1FF 0 0).loseDie die)
  else if !bu.hbmOk then .next ((s.logCheck 0xE1 die 0x1FF 0 0).loseDie die)
  else .next ((s.setDie die dieReset).bringUp die bu)

/-! ## Power (R405, R422) -/

/-- POWER_LOSS (R405): the always-on block keeps the scrub records, the machine-check log with its counts and the down
mask; HBM keeps what is now ciphertext under destroyed keys. -/
def execPowerLoss (s : State) : Host.Outcome State Fault Refusal :=
  let (id, s) := s.fresh
  let scrubs := s.scrubs.map fun r => { r with slot := 64, epoch := 0 }
  .next { State.reset with
    mem := s.mem.filter fun c => isHbm c.1
    tags := s.tags.map fun t => (t.1, 4097 + id)
    scrubs := scrubs
    mkeys := scrubs.foldl (fun t r => tabPut t r.key (2, 0)) []
    mclog := s.mclog, mcNext := s.mcNext, corrected := s.corrected, downMask := s.downMask
    agenda := s.agenda, nextId := s.nextId, ticks := s.ticks, outbox := s.outbox }

/-- POWER_WINDOW (R422): the throttle follows the power of a window of 1 ms. -/
def execPowerWindow (milliwatts : Nat) (s : State) : Host.Outcome State Fault Refusal :=
  .next { s with duty :=
    if s.plimit < milliwatts then max 4 (s.duty - 1)
    else if milliwatts * 100 ≤ s.plimit * 95 then min 16 (s.duty + 1)
    else s.duty }

/-! ## Links (R414 to R416) -/

/-- Is a link up? -/
def State.portUp (s : State) (p : Nat) : Bool :=
  if p = hostPort then s.linkUp else decide (p < 18) && s.planeUp p

/-- Is a sequence number at or before another, modulo 2^12? -/
def seqBefore (a b : BitVec 12) : Bool := decide ((b - a).toNat < 2048)

/-- What a far end has acknowledged leaves the retry buffer; progress ends a run of failed replays. -/
def Port.ack (p : Port) (a : BitVec 12) : Port :=
  let retry := p.retry.filter fun f => !seqBefore f.seq a
  let sent := p.sent.filter fun x => !seqBefore x.1 a
  { p with
    retry := retry, sent := sent, resent := p.resent.filter fun o => sent.any fun x => x.2 == o
    replays := if retry.length < p.retry.length then 0 else p.replays }

/-- FLIT_RECEIVE (R415): the next flit in order is accepted and its payload handed on, one accepted before is dropped, and a bad or
early one is answered with a NAK. -/
def execFlitReceive (port : Nat) (flit : Flit) (s : State) : Host.Outcome State Fault Refusal :=
  if !s.portUp port then .next s
  else
    let p := s.port port
    let nak := { s with outbox := s.outbox ++ [.nak port p.expect] }
    if !flit.crcOk then .next nak
    else
      let s := s.setPort port (p.ack flit.ack)
      let p := s.port port
      if flit.seq = p.expect then
        let t := s.setPort port { p with expect := p.expect + 1 }
        .next { t with outbox := t.outbox ++ [.delivered port flit.payload] }
      else if seqBefore flit.seq (p.expect - 1) then .next s
      else .next { s with outbox := s.outbox ++ [.nak port p.expect] }

/-- Flits of the retry buffer from one on, sent again. -/
def State.resend (s : State) (port : Nat) (seq : BitVec 12) : State :=
  let fs := (s.port port).retry.filter fun f => seqBefore seq f.seq
  { s with outbox := s.outbox ++ fs.map fun f => .flit port f }

/-- LINK_REPLAY (R415): a NAK makes the sender replay from the flit named; after 16 replays without
progress the link has to retrain. -/
def execLinkReplay (port seq : Nat) (s : State) : Host.Outcome State Fault Refusal :=
  let p := s.port port
  if !s.portUp port ∨ 16 ≤ p.replays then .next s
  else .next ((s.setPort port { p with replays := p.replays + 1 }).resend port (BitVec.ofNat 12 seq))

/-- A link goes down (R416): what stands acknowledged stands; the rest, and the loads not answered, are sent again by
another plane, as far as it has room at once; with no plane left every other package is lost. -/
def State.dropPort (s : State) (port : Nat) : State :=
  if port = hostPort then { s with linkUp := false, lanes := 0 }
  else
    let p := s.port port
    let loads := p.asked.map fun o => (p.nextSeq, o)
    let down := { p with up := false, retry := [], sent := [], asked := [], resent := [], replays := 0 }
    let t := s.setPort port down
    if t.livePlanes.isEmpty then
      ((List.range 144).filter fun k => k != t.pkg.toNat).foldl (fun s k => s.losePkg k) t
    else
      let again := (p.sent.filter fun x => !p.asked.contains x.2) ++ loads
      (t.setPort port { down with sent := again }).reroute port again.length

/-- LINK_RETRAIN (R415): a link that replayed 16 times in vain retrains and goes on, or is down. -/
def execLinkRetrain (port : Nat) (ok : Bool) (s : State) : Host.Outcome State Fault Refusal :=
  let p := s.port port
  if !s.portUp port ∨ p.replays < 16 then .next s
  else if ok then
    .next ((s.setPort port { p with replays := 0 }).resend port ((p.retry.head?.map (·.seq)).getD p.nextSeq))
  else .next (s.dropPort port)

/-- PORT_DOWN (R416). -/
def execPortDown (port : Nat) (s : State) : Host.Outcome State Fault Refusal :=
  .next (if s.portUp port then s.dropPort port else s)

end Sys2Proof.Machine
end

