-- ==== Sys2Proof/Machine/Candidates.lean ====
section
/-! DEFINITION. What can happen next when no input waits and no task is selected: the items of work that
stand in the state, each as the step of the part that serves it.  A step that cannot be taken yet leaves
the state as it is. -/

namespace Sys2Proof.Machine

/-- A step that may be taken: the meaning of one row (each is `exec` of an `Instr`; the value itself is not
built, for the compiler has no room for so many constructors). -/
abbrev Work := State → Host.Outcome State Fault Refusal

/-- The value that a place outside the package returns to a load; none where another package refuses it (R286;
log 20). -/
def State.outsideValue (s : State) (p : Piece) : Option (BitVec 64) :=
  match p.loc with
  | some (.mem _) => none
  | some (.remote q a) =>
    if Config.outsideRefuses s.ticks q a then none
    else some (BitVec.ofNat 64 (leNat ((List.range p.len).map fun i => s.byteAt p.mkey i (.remote q a))))
  | some l => some (BitVec.ofNat 64 (leNat ((List.range p.len).map fun i => s.byteAt p.mkey i l)))
  | none => none

/-- Steps of a load-queue entry. -/
def loadWork (s : State) (n : Nat) (a : Access) : List Work :=
  (if a.xlate then a.nextPage.toList.map fun p => execTlbWalkComplete n a.id p else []) ++
    (match a.kind with
      | .ver => [execVcQuery a.id]
      | .scales => if a.pieces.isEmpty then [execLoadPerform n a.id 0 none]
          else a.pieces.zipIdx.map fun p => execLoadPerform n a.id p.2 (s.outsideValue p.1)
      | _ => a.pieces.zipIdx.filterMap fun p =>
          if p.1.stage < 4 then some (execLoadPerform n a.id p.2 (s.outsideValue p.1)) else none)

/-- The next stage of a piece of a store; a write to another package is performed there by an input,
unless that package is lost. -/
def storeWork (s : State) (n : Nat) (a : Access) (p : Piece) (i : Nat) : List Work :=
  match p.loc with
  | none => []
  | some (.remote pkg addr) =>
    if p.stage < 3 ∨ s.locLost (.remote pkg addr) then [execStorePerform n a.id i (p.stage + 1)] else []
  | some _ =>
    if p.lastStage ≤ p.stage then []
    else if p.stage = 3 ∧ s.onBarrier p then [execBarrierObjectStore n a.id i]
    else [execStorePerform n a.id i (p.stage + 1)]

/-- Steps of a store-queue entry. -/
def storesWork (s : State) (n : Nat) (a : Access) : List Work :=
  (if a.xlate then a.nextPage.toList.map fun p => execTlbWalkComplete n a.id p else []) ++
    (match a.kind with
      | .ver => [execVcRelease a.id]
      | _ => (a.pieces.zipIdx.map fun p => storeWork s n a p.1 p.2).flatten)

/-- Steps of an engine command, each with a walker where it needs one (R355). -/
def cmdWork (n : Nat) (c : Cmd) : List Work :=
  List.map (withWalker (dieOf n)) <| if c.parked then (if c.retry then [execParkedRetry c.id] else [])
  else match c.queue with
    | .matrix => [execPassRow n c.id, execBufferRefill n c.id, execMmagSegment n c.id]
    | .copy _ => [execCopyChunk n c.id, execAcwPortStep n c.id, execBarrierArriveStep n c.id]
    | .sync => [execSemRead n c.id, execFflushComplete c.id false, execLaunchRecordArrival (.task c.id) c.ctx []]
    | .fabric => [execEntryAppend c.id]
    | .mailbox => [execEntryAppend c.id]
    | _ => []

/-- Steps of one core. -/
def coreWork (s : State) (n : Nat) (c : Core) : List Work :=
  (if s.teams.any fun t => t.2.core == some n && t.2.task.isSome then [execTaskIssueSelect n] else []) ++
    (c.results.map fun r => execResultArrival n r.id) ++ (c.loads.map fun a => loadWork s n a).flatten ++
    (c.stores.map fun a => storesWork s n a).flatten ++ (c.cmds.map fun d => cmdWork n d).flatten ++
    (if c.cmds.any fun d => d.queue == .matrix then [execMatrixCommandStart n] else []) ++
    (if c.usable then [execQuantumEnd n, execShadowPrepare n, withWalker (dieOf n) (execContextRestore n)] else []) ++
    (if c.halting then [execPreemption n] else [])

/-- Steps of a request between a core and a memory-side unit. -/
def reqWork (id : Nat) : Req → Work
  | .semWait _ _ _ => execSemWaitRequest id
  | .semSig _ _ _ _ _ _ _ _ _ _ => execSemSignal id
  | .fabricAdd _ _ _ _ _ _ => execSemSignal id
  | .barWait _ _ _ _ _ => execBarrierWaitRequest id
  | .unlink _ _ _ => execWaitbUnlink id

/-- Steps of a versioned request. -/
def vreqWork (id : Nat) (q : VReq) : List Work :=
  if q.held || q.answer.isSome then []
  else match q.op with
    | .create => [execVcCreate id]
    | .read => (List.range q.count).filterMap fun k => if (tabFind q.got k).isSome then none else some (execVcRead id k)
    | _ => []

/-- Steps of a cluster's queue pairs. -/
def qpWork (cl : Nat) (n : Nat) (q : Qp) : List Work :=
  (if q.entries.isEmpty then [] else [withWalker (cl / 16) (execEntryFire (cl / 16) (cl % 16) n), execEntryComplete (cl / 16) (cl % 16) n]) ++
    (if !q.retry.isEmpty then [execLandFullRetry (cl / 16) (cl % 16) n] else []) ++
    (if q.parked && q.replay then [execParkedRetry (2 ^ 40 + cl * 512 + n)] else [])

/-- Steps of a context. -/
def ctxWork (n : Nat) (c : Ctx) : List Work :=
  (if c.launches.length < 16 then [execLaunchSlotTake n] else []) ++
    (c.launches.filterMap fun l => if l.placed < l.teams then some (execTeamPlacement n l.slot) else none) ++
    (c.resid.filterMap fun r => if r.2 = .arriving || !c.behind.isEmpty then some (withWalker r.1 (execLandingApply r.1 n)) else none)

/-- Steps of a team. -/
def teamWork (uid : Nat) (t : Team) : List Work :=
  (if t.task.isNone then (if t.ready.isEmpty then [execTeamRetire uid] else [execTaskStart uid]) else []) ++
    (match t.task with
      | some k => (match k.hold with
        | .answer _ => [execVersionAnswerArrival uid]
        | _ => [])
      | none => []) ++
    (t.recs.filterMap fun r =>
      if r.kind = 2 ∧ r.state = 0 ∧ r.deadline ≠ 0 then some (execWaitbDeadline r.id) else none)

/-- The step that serves a request of Alidade's ring (R390). -/
def ringStep (op die slot : Nat) : Work :=
  match op with
  | 2 => execMkeyKill die slot
  | 3 => execSlotLoad die slot
  | 4 => execSlotClear die slot
  | 5 => execGrantSet die slot
  | 6 => execGrantClear die slot
  | 7 => execAttest die slot
  | 8 => execAccept die slot
  | 9 => execRelease die slot
  | 10 => execDestroy die slot
  | 11 => execScrub die slot
  | _ => execMkeyNew die slot

/-- Steps of a die. -/
def dieWork (s : State) (n : Nat) (d : Die) : List Work :=
  if !d.up then []
  else
    [execResidencyChoice n, execFairnessTick n, execFairnessWindow n, execUsedAccrual n, execMigrationAdvertise n,
        execQepochAdvance n] ++
      (d.fair.filterMap fun f => if f.2.spins.isEmpty then none else some (execSpinDemotion n f.1)) ++
      (match d.bells.find? fun b => b.1 == 0 with
        | some b => [execScanRequest n b.2]
        | none => []) ++
      (match d.bells.find? fun b => b.1 == 1 with
        | some b => [ringStep (s.reqF n b.2 0 1) n b.2]
        | none => []) ++
      (d.bells.filterMap fun b => if b.1 = 1 ∧ s.reqF n b.2 0 1 = 11 then some (execScrub n b.2) else none)

/-- Steps of a package-wide kind: messages, packs, scrubs, the down mask, terminations that wait. -/
def packageWork (s : State) : List Work :=
  ((List.range 24).map fun p => execFabricMessageSend p) ++ (s.net.map fun m => withWalker (s.homeDie m.tctx) (execFabricMessageArrival m)) ++
    (s.packs.map fun p => execMigrationLanding p.team p.toCore) ++
    (s.scrubs.map fun r => execScrubFrameZero r.key) ++
    (s.downMask.map fun m => (List.range 4).filterMap fun d =>
      if m.2.getLsbD d then some (execDieLoss m.1 d) else none).flatten ++
    (if s.doomed.isEmpty then [] else [execMachineCheck 0 0 0 0 0])

/-- Everything that can happen next. -/
def State.candidates (s : State) : List Work :=
  (s.cores.map fun c => coreWork s c.1 c.2).flatten ++ (s.reqs.map fun r => reqWork r.1 r.2) ++
    (s.vreqs.map fun v => vreqWork v.1 v.2).flatten ++
    (s.clusters.map fun c => (c.2.qps.map fun q => qpWork c.1 q.1 q.2).flatten).flatten ++
    (s.ctxs.map fun c => ctxWork c.1 c.2).flatten ++ (s.teams.map fun t => teamWork t.1 t.2).flatten ++
    (s.dies.map fun d => dieWork s d.1 d.2).flatten ++ packageWork s

/-- The choice that the spec leaves open (log 5). -/
def State.chosen (s : State) : Option Work :=
  let l := s.candidates
  l[Config.pick s.ticks % l.length]?

end Sys2Proof.Machine
end

