-- ==== Sys2Proof/Machine/Scalar.lean ====
section
/-! DEFINITION. Integer register instructions: majors 0x00 to 0x06 (R157 to R162). -/

namespace Sys2Proof.Machine

/-! ## Values -/

/-- Shift amount of SHL, SHR, SHRA and ROTR (R159). -/
def shiftAmount (b : W64) (imm : BitVec 22) : Nat := (b.toNat + imm.toNat % 64) % 64

/-- High half of the 128-bit product (R159). -/
def mulHigh (unsigned : Bool) (a b : W64) : W64 :=
  if unsigned then ((a.zeroExtend 128 * b.zeroExtend 128) >>> 64).truncate 64
  else ((a.signExtend 128 * b.signExtend 128) >>> 64).truncate 64

/-- Quotient of DIV (R160). -/
def quotient (unsigned : Bool) (a b : W64) : W64 :=
  if b = 0 then BitVec.allOnes 64
  else if unsigned then a / b
  else a.sdiv b

/-- Remainder of REM (R160). -/
def remainder (unsigned : Bool) (a b : W64) : W64 :=
  if b = 0 then a
  else if unsigned then a % b
  else a.srem b

/-- The smaller value (R159). -/
def minVal (unsigned : Bool) (a b : W64) : W64 :=
  if (if unsigned then a.ult b else a.slt b) then a else b

/-- The larger value (R159). -/
def maxVal (unsigned : Bool) (a b : W64) : W64 :=
  if (if unsigned then b.ult a else b.slt a) then a else b

/-- Leading zero bits among the low `n` bits (R161). -/
def clzN (a : W64) : Nat → Nat
  | 0 => 0
  | n + 1 => if a.getLsbD n then 0 else 1 + clzN a n

/-- Trailing zero bits, counting from bit `i` with `n` bits to go (R161). -/
def ctzN (a : W64) (i : Nat) : Nat → Nat
  | 0 => 0
  | n + 1 => if a.getLsbD i then 0 else 1 + ctzN a (i + 1) n

/-- Set bits among the low `n` (R161). -/
def popN (a : W64) : Nat → Nat
  | 0 => 0
  | n + 1 => (if a.getLsbD n then 1 else 0) + popN a n

/-- The low `w` bits of a value (R161). -/
def lowBits (a : W64) (w : Nat) : W64 := a &&& w64 (2 ^ w - 1)

/-- The low `w` bits sign-extended, 1 ≤ w ≤ 64 (R161). -/
def signLow (a : W64) (w : Nat) : W64 :=
  if a.getLsbD (w - 1) then lowBits a w ||| ~~~(w64 (2 ^ w - 1)) else lowBits a w

/-- The condition of SETC (R161). -/
def setcHolds (cond : Nat) (a b : W64) : Bool :=
  match cond with
  | 0 => a == b
  | 1 => a != b
  | 2 => a.slt b
  | 3 => !a.slt b
  | 4 => a.ult b
  | _ => !a.ult b

/-- BFX (R161): POS, WIDTH and SX of IMM22. -/
def bitExtract (a : W64) (imm : BitVec 22) : W64 :=
  let pos := imm.toNat % 64
  let w := imm.toNat / 64 % 128
  if imm.getLsbD 13 then signLow (a >>> pos) w else lowBits (a >>> pos) w

/-- BFI (R161): the low WIDTH bits of b placed at POS of a. -/
def bitInsert (a b : W64) (imm : BitVec 22) : W64 :=
  let pos := imm.toNat % 64
  let w := imm.toNat / 64 % 128
  (a &&& ~~~(w64 (2 ^ w - 1) <<< pos)) ||| (lowBits b w <<< pos)

/-- LEA (R161): SH in IMM22 [1:0], the displacement in [21:2]. -/
def leaVal (a b : W64) (imm : BitVec 22) : W64 :=
  a + (b <<< (imm.toNat % 4)) + sx (imm.extractLsb' 2 20)

/-- U of the SW forms (R159). -/
def uBit (imm : BitVec 22) : Bool := imm.getLsbD 0

/-! ## Major 0x00 -/

/-- ADD, format S (R159). -/
def execAdd (f : FS) (s : State) : Host.Outcome State Fault Refusal :=
  scalarS f (fun a b => a + b) s

/-- ADD, format SW (R159, R158). -/
def execAddSw (f : FSW) (s : State) : Host.Outcome State Fault Refusal :=
  scalarSW f (fun a b _ => a + b) s

/-- SUB, format S (R159). -/
def execSub (f : FS) (s : State) : Host.Outcome State Fault Refusal :=
  scalarS f (fun a b => a - b) s

/-- SUB, format SW (R159, R158). -/
def execSubSw (f : FSW) (s : State) : Host.Outcome State Fault Refusal :=
  scalarSW f (fun a b _ => a - b) s

/-- MUL, format S (R159). -/
def execMul (f : FS) (s : State) : Host.Outcome State Fault Refusal :=
  scalarS f (fun a b => a * b) s

/-- MUL, format SW (R159, R158). -/
def execMulSw (f : FSW) (s : State) : Host.Outcome State Fault Refusal :=
  scalarSW f (fun a b _ => a * b) s

/-- MULH, format S (R159). -/
def execMulh (f : FS) (s : State) : Host.Outcome State Fault Refusal :=
  scalarS f (mulHigh false) s

/-- MULH, format SW (R159, R158). -/
def execMulhSw (f : FSW) (s : State) : Host.Outcome State Fault Refusal :=
  scalarSW f (fun a b i => mulHigh (uBit i) a b) s

/-- DIV, format S (R160). -/
def execDiv (f : FS) (s : State) : Host.Outcome State Fault Refusal :=
  scalarS f (quotient false) s

/-- DIV, format SW (R160, R158). -/
def execDivSw (f : FSW) (s : State) : Host.Outcome State Fault Refusal :=
  scalarSW f (fun a b i => quotient (uBit i) a b) s

/-- REM, format S (R160). -/
def execRem (f : FS) (s : State) : Host.Outcome State Fault Refusal :=
  scalarS f (remainder false) s

/-- REM, format SW (R160, R158). -/
def execRemSw (f : FSW) (s : State) : Host.Outcome State Fault Refusal :=
  scalarSW f (fun a b i => remainder (uBit i) a b) s

/-- AND, format S (R159). -/
def execAnd (f : FS) (s : State) : Host.Outcome State Fault Refusal :=
  scalarS f (fun a b => a &&& b) s

/-- AND, format SW (R159, R158). -/
def execAndSw (f : FSW) (s : State) : Host.Outcome State Fault Refusal :=
  scalarSW f (fun a b _ => a &&& b) s

/-- OR, format S (R159). -/
def execOr (f : FS) (s : State) : Host.Outcome State Fault Refusal :=
  scalarS f (fun a b => a ||| b) s

/-- OR, format SW (R159, R158). -/
def execOrSw (f : FSW) (s : State) : Host.Outcome State Fault Refusal :=
  scalarSW f (fun a b _ => a ||| b) s

/-- XOR, format S (R159). -/
def execXor (f : FS) (s : State) : Host.Outcome State Fault Refusal :=
  scalarS f (fun a b => a ^^^ b) s

/-- XOR, format SW (R159, R158). -/
def execXorSw (f : FSW) (s : State) : Host.Outcome State Fault Refusal :=
  scalarSW f (fun a b _ => a ^^^ b) s

/-- ANDN, format S (R159). -/
def execAndn (f : FS) (s : State) : Host.Outcome State Fault Refusal :=
  scalarS f (fun a b => a &&& ~~~b) s

/-- ANDN, format SW (R159, R158). -/
def execAndnSw (f : FSW) (s : State) : Host.Outcome State Fault Refusal :=
  scalarSW f (fun a b _ => a &&& ~~~b) s

/-- SHL, format S (R159). -/
def execShl (f : FS) (s : State) : Host.Outcome State Fault Refusal :=
  scalarS f (fun a b => a <<< shiftAmount b 0) s

/-- SHL, format SW (R159, R158). -/
def execShlSw (f : FSW) (s : State) : Host.Outcome State Fault Refusal :=
  scalarSW f (fun a b i => a <<< shiftAmount b i) s

/-- SHR, format S (R159). -/
def execShr (f : FS) (s : State) : Host.Outcome State Fault Refusal :=
  scalarS f (fun a b => a >>> shiftAmount b 0) s

/-- SHR, format SW (R159, R158). -/
def execShrSw (f : FSW) (s : State) : Host.Outcome State Fault Refusal :=
  scalarSW f (fun a b i => a >>> shiftAmount b i) s

/-- SHRA, format S (R159). -/
def execShra (f : FS) (s : State) : Host.Outcome State Fault Refusal :=
  scalarS f (fun a b => a.sshiftRight (shiftAmount b 0)) s

/-- SHRA, format SW (R159, R158). -/
def execShraSw (f : FSW) (s : State) : Host.Outcome State Fault Refusal :=
  scalarSW f (fun a b i => a.sshiftRight (shiftAmount b i)) s

/-- ROTR, format S (R159). -/
def execRotr (f : FS) (s : State) : Host.Outcome State Fault Refusal :=
  scalarS f (fun a b => a.rotateRight (shiftAmount b 0)) s

/-- ROTR, format SW (R159, R158). -/
def execRotrSw (f : FSW) (s : State) : Host.Outcome State Fault Refusal :=
  scalarSW f (fun a b i => a.rotateRight (shiftAmount b i)) s

/-- MIN, format S (R159). -/
def execMin (f : FS) (s : State) : Host.Outcome State Fault Refusal :=
  scalarS f (minVal false) s

/-- MIN, format SW (R159, R158). -/
def execMinSw (f : FSW) (s : State) : Host.Outcome State Fault Refusal :=
  scalarSW f (fun a b i => minVal (uBit i) a b) s

/-- MAX, format S (R159). -/
def execMax (f : FS) (s : State) : Host.Outcome State Fault Refusal :=
  scalarS f (maxVal false) s

/-- MAX, format SW (R159, R158). -/
def execMaxSw (f : FSW) (s : State) : Host.Outcome State Fault Refusal :=
  scalarSW f (fun a b i => maxVal (uBit i) a b) s

/-! ## Major 0x01 -/

/-- CLZ, format S (R161). -/
def execClz (f : FS) (s : State) : Host.Outcome State Fault Refusal :=
  scalarS f (fun a _ => w64 (clzN a 64)) s

/-- CLZ, format SW (R161). -/
def execClzSw (f : FSW) (s : State) : Host.Outcome State Fault Refusal :=
  scalarSW f (fun a _ _ => w64 (clzN a 64)) s

/-- CTZ, format S (R161). -/
def execCtz (f : FS) (s : State) : Host.Outcome State Fault Refusal :=
  scalarS f (fun a _ => w64 (ctzN a 0 64)) s

/-- CTZ, format SW (R161). -/
def execCtzSw (f : FSW) (s : State) : Host.Outcome State Fault Refusal :=
  scalarSW f (fun a _ _ => w64 (ctzN a 0 64)) s

/-- POPC, format S (R161). -/
def execPopc (f : FS) (s : State) : Host.Outcome State Fault Refusal :=
  scalarS f (fun a _ => w64 (popN a 64)) s

/-- POPC, format SW (R161). -/
def execPopcSw (f : FSW) (s : State) : Host.Outcome State Fault Refusal :=
  scalarSW f (fun a _ _ => w64 (popN a 64)) s

/-- SEXT (R161): WIDTH is IMM22. -/
def execSext (f : FSW) (s : State) : Host.Outcome State Fault Refusal :=
  scalarSW f (fun a _ i => signLow a i.toNat) s

/-- ZEXT (R161): WIDTH is IMM22. -/
def execZext (f : FSW) (s : State) : Host.Outcome State Fault Refusal :=
  scalarSW f (fun a _ i => lowBits a i.toNat) s

/-- SETC (R161): COND is IMM22. -/
def execSetc (f : FSW) (s : State) : Host.Outcome State Fault Refusal :=
  scalarSW f (fun a b i => boolW (setcHolds i.toNat a b)) s

/-- SEL (R161). -/
def execSel (f : FSW) (s : State) : Host.Outcome State Fault Refusal :=
  scalar f.st.toNat 8 f.xd (FSW.srcs3 f)
    (fun t => if t.getX f.xc ≠ 0 then t.getX f.xa else t.getX f.xb) s

/-- LEA (R161). -/
def execLea (f : FSW) (s : State) : Host.Outcome State Fault Refusal :=
  scalarSW f leaVal s

/-- BFX (R161). -/
def execBfx (f : FSW) (s : State) : Host.Outcome State Fault Refusal :=
  scalarSW f (fun a _ i => bitExtract a i) s

/-- BFI (R161). -/
def execBfi (f : FSW) (s : State) : Host.Outcome State Fault Refusal :=
  scalarSW f bitInsert s

/-! ## Majors 0x02 to 0x06 -/

/-- ADDI, format SI (R162). -/
def execAddi (f : FSI) (s : State) : Host.Outcome State Fault Refusal :=
  scalar 0 4 f.xd [.x f.xa f.fea] (fun t => t.getX f.xa + sx f.imm) s

/-- ADDI, format SW (R162). -/
def execAddiSw (f : FSW) (s : State) : Host.Outcome State Fault Refusal :=
  scalar f.st.toNat 8 f.xd [.x f.xa f.fea] (fun t => t.getX f.xa + sx f.imm) s

/-- ANDI, format SI (R162). -/
def execAndi (f : FSI) (s : State) : Host.Outcome State Fault Refusal :=
  scalar 0 4 f.xd [.x f.xa f.fea] (fun t => t.getX f.xa &&& sx f.imm) s

/-- ANDI, format SW (R162). -/
def execAndiSw (f : FSW) (s : State) : Host.Outcome State Fault Refusal :=
  scalar f.st.toNat 8 f.xd [.x f.xa f.fea] (fun t => t.getX f.xa &&& sx f.imm) s

/-- ORI, format SI (R162). -/
def execOri (f : FSI) (s : State) : Host.Outcome State Fault Refusal :=
  scalar 0 4 f.xd [.x f.xa f.fea] (fun t => t.getX f.xa ||| sx f.imm) s

/-- ORI, format SW (R162). -/
def execOriSw (f : FSW) (s : State) : Host.Outcome State Fault Refusal :=
  scalar f.st.toNat 8 f.xd [.x f.xa f.fea] (fun t => t.getX f.xa ||| sx f.imm) s

/-- XORI, format SI (R162). -/
def execXori (f : FSI) (s : State) : Host.Outcome State Fault Refusal :=
  scalar 0 4 f.xd [.x f.xa f.fea] (fun t => t.getX f.xa ^^^ sx f.imm) s

/-- XORI, format SW (R162). -/
def execXoriSw (f : FSW) (s : State) : Host.Outcome State Fault Refusal :=
  scalar f.st.toNat 8 f.xd [.x f.xa f.fea] (fun t => t.getX f.xa ^^^ sx f.imm) s

/-- MOVI, format SI (R162). -/
def execMovi (f : FSI) (s : State) : Host.Outcome State Fault Refusal :=
  scalar 0 4 f.xd [] (fun _ => sx f.imm) s

/-- MOVI, format SW (R162). -/
def execMoviSw (f : FSW) (s : State) : Host.Outcome State Fault Refusal :=
  scalar f.st.toNat 8 f.xd [] (fun _ => sx f.imm) s

/-- MOVI, format X3 (R162): the whole 64-bit value. -/
def execMoviX3 (f : FX3) (s : State) : Host.Outcome State Fault Refusal :=
  scalar f.st.toNat 12 f.xd [] (fun _ => f.imm) s

end Sys2Proof.Machine
end

