-- ==== Sys2Proof/Machine/Dispatch.lean ====
section
/-! DEFINITION. The dispatch: one arm per constructor of Instr. -/

namespace Sys2Proof.Machine

/-- The effect of an instruction or of a step of the part. -/
def exec (i : Instr) (s : State) : Host.Outcome State Fault Refusal :=
  match i with
  | .add f => Sys2Proof.Machine.execAdd f s
  | .addSw f => Sys2Proof.Machine.execAddSw f s
  | .sub f => Sys2Proof.Machine.execSub f s
  | .subSw f => Sys2Proof.Machine.execSubSw f s
  | .mul f => Sys2Proof.Machine.execMul f s
  | .mulSw f => Sys2Proof.Machine.execMulSw f s
  | .mulh f => Sys2Proof.Machine.execMulh f s
  | .mulhSw f => Sys2Proof.Machine.execMulhSw f s
  | .div f => Sys2Proof.Machine.execDiv f s
  | .divSw f => Sys2Proof.Machine.execDivSw f s
  | .rem f => Sys2Proof.Machine.execRem f s
  | .remSw f => Sys2Proof.Machine.execRemSw f s
  | .and f => Sys2Proof.Machine.execAnd f s
  | .andSw f => Sys2Proof.Machine.execAndSw f s
  | .or f => Sys2Proof.Machine.execOr f s
  | .orSw f => Sys2Proof.Machine.execOrSw f s
  | .xor f => Sys2Proof.Machine.execXor f s
  | .xorSw f => Sys2Proof.Machine.execXorSw f s
  | .andn f => Sys2Proof.Machine.execAndn f s
  | .andnSw f => Sys2Proof.Machine.execAndnSw f s
  | .shl f => Sys2Proof.Machine.execShl f s
  | .shlSw f => Sys2Proof.Machine.execShlSw f s
  | .shr f => Sys2Proof.Machine.execShr f s
  | .shrSw f => Sys2Proof.Machine.execShrSw f s
  | .shra f => Sys2Proof.Machine.execShra f s
  | .shraSw f => Sys2Proof.Machine.execShraSw f s
  | .rotr f => Sys2Proof.Machine.execRotr f s
  | .rotrSw f => Sys2Proof.Machine.execRotrSw f s
  | .min f => Sys2Proof.Machine.execMin f s
  | .minSw f => Sys2Proof.Machine.execMinSw f s
  | .max f => Sys2Proof.Machine.execMax f s
  | .maxSw f => Sys2Proof.Machine.execMaxSw f s
  | .clz f => Sys2Proof.Machine.execClz f s
  | .clzSw f => Sys2Proof.Machine.execClzSw f s
  | .ctz f => Sys2Proof.Machine.execCtz f s
  | .ctzSw f => Sys2Proof.Machine.execCtzSw f s
  | .popc f => Sys2Proof.Machine.execPopc f s
  | .popcSw f => Sys2Proof.Machine.execPopcSw f s
  | .sext f => Sys2Proof.Machine.execSext f s
  | .zext f => Sys2Proof.Machine.execZext f s
  | .setc f => Sys2Proof.Machine.execSetc f s
  | .sel f => Sys2Proof.Machine.execSel f s
  | .lea f => Sys2Proof.Machine.execLea f s
  | .bfx f => Sys2Proof.Machine.execBfx f s
  | .bfi f => Sys2Proof.Machine.execBfi f s
  | .addi f => Sys2Proof.Machine.execAddi f s
  | .addiSw f => Sys2Proof.Machine.execAddiSw f s
  | .andi f => Sys2Proof.Machine.execAndi f s
  | .andiSw f => Sys2Proof.Machine.execAndiSw f s
  | .ori f => Sys2Proof.Machine.execOri f s
  | .oriSw f => Sys2Proof.Machine.execOriSw f s
  | .xori f => Sys2Proof.Machine.execXori f s
  | .xoriSw f => Sys2Proof.Machine.execXoriSw f s
  | .movi f => Sys2Proof.Machine.execMovi f s
  | .moviSw f => Sys2Proof.Machine.execMoviSw f s
  | .moviX3 f => Sys2Proof.Machine.execMoviX3 f s
  | .br f => Sys2Proof.Machine.execBr f s
  | .call f => Sys2Proof.Machine.execCall f s
  | .bc f => Sys2Proof.Machine.execBc f s
  | .jmp f => Sys2Proof.Machine.execJmp f s
  | .ret f => Sys2Proof.Machine.execRet f s
  | .lstart f => Sys2Proof.Machine.execLstart f s
  | .lnext f => Sys2Proof.Machine.execLnext f s
  | .lexit f => Sys2Proof.Machine.execLexit f s
  | .endTask f => Sys2Proof.Machine.execEndTask f s
  | .endTaskSw f => Sys2Proof.Machine.execEndTaskSw f s
  | .spawn f => Sys2Proof.Machine.execSpawn f s
  | .spawnSw f => Sys2Proof.Machine.execSpawnSw f s
  | .yield f => Sys2Proof.Machine.execYield f s
  | .yieldSw f => Sys2Proof.Machine.execYieldSw f s
  | .trap f => Sys2Proof.Machine.execTrap f s
  | .trapSw f => Sys2Proof.Machine.execTrapSw f s
  | .rdcr f => Sys2Proof.Machine.execRdcr f s
  | .wrcr f => Sys2Proof.Machine.execWrcr f s
  | .nop f => Sys2Proof.Machine.execNop f s
  | .nopSw f => Sys2Proof.Machine.execNopSw f s
  | .breakTask f => Sys2Proof.Machine.execBreakTask f s
  | .breakTaskSw f => Sys2Proof.Machine.execBreakTaskSw f s
  | .fadd ty f => Sys2Proof.Machine.execFadd ty f s
  | .faddSw ty f => Sys2Proof.Machine.execFaddSw ty f s
  | .fsub ty f => Sys2Proof.Machine.execFsub ty f s
  | .fsubSw ty f => Sys2Proof.Machine.execFsubSw ty f s
  | .fmul ty f => Sys2Proof.Machine.execFmul ty f s
  | .fmulSw ty f => Sys2Proof.Machine.execFmulSw ty f s
  | .fdiv ty f => Sys2Proof.Machine.execFdiv ty f s
  | .fdivSw ty f => Sys2Proof.Machine.execFdivSw ty f s
  | .fsqrt ty f => Sys2Proof.Machine.execFsqrt ty f s
  | .fsqrtSw ty f => Sys2Proof.Machine.execFsqrtSw ty f s
  | .fmin ty f => Sys2Proof.Machine.execFmin ty f s
  | .fminSw ty f => Sys2Proof.Machine.execFminSw ty f s
  | .fmax ty f => Sys2Proof.Machine.execFmax ty f s
  | .fmaxSw ty f => Sys2Proof.Machine.execFmaxSw ty f s
  | .fsetc ty f => Sys2Proof.Machine.execFsetc ty f s
  | .fcvt ty f => Sys2Proof.Machine.execFcvt ty f s
  | .ffma ty f => Sys2Proof.Machine.execFfma ty f s
  | .ld fn f => Sys2Proof.Machine.execLd fn f s
  | .st fn f => Sys2Proof.Machine.execSt fn f s
  | .mark f => Sys2Proof.Machine.execMark f s
  | .pf f => Sys2Proof.Machine.execPf f s
  | .pfE3 f => Sys2Proof.Machine.execPfE3 f s
  | .sqld f => Sys2Proof.Machine.execSqld f s
  | .vadd f => Sys2Proof.Machine.execVadd f s
  | .vsub f => Sys2Proof.Machine.execVsub f s
  | .vmul f => Sys2Proof.Machine.execVmul f s
  | .vfma f => Sys2Proof.Machine.execVfma f s
  | .vfms f => Sys2Proof.Machine.execVfms f s
  | .vmin f => Sys2Proof.Machine.execVmin f s
  | .vmax f => Sys2Proof.Machine.execVmax f s
  | .vabs f => Sys2Proof.Machine.execVabs f s
  | .vneg f => Sys2Proof.Machine.execVneg f s
  | .vcpys f => Sys2Proof.Machine.execVcpys f s
  | .vrcp f => Sys2Proof.Machine.execVrcp f s
  | .vrsq f => Sys2Proof.Machine.execVrsq f s
  | .vexp2 f => Sys2Proof.Machine.execVexp2 f s
  | .vlog2 f => Sys2Proof.Machine.execVlog2 f s
  | .vtanh f => Sys2Proof.Machine.execVtanh f s
  | .vsin f => Sys2Proof.Machine.execVsin f s
  | .vcos f => Sys2Proof.Machine.execVcos f s
  | .viadd f => Sys2Proof.Machine.execViadd f s
  | .visub f => Sys2Proof.Machine.execVisub f s
  | .vimul f => Sys2Proof.Machine.execVimul f s
  | .vimad f => Sys2Proof.Machine.execVimad f s
  | .vand f => Sys2Proof.Machine.execVand f s
  | .vor f => Sys2Proof.Machine.execVor f s
  | .vxor f => Sys2Proof.Machine.execVxor f s
  | .vnot f => Sys2Proof.Machine.execVnot f s
  | .vshl f => Sys2Proof.Machine.execVshl f s
  | .vshr f => Sys2Proof.Machine.execVshr f s
  | .vshra f => Sys2Proof.Machine.execVshra f s
  | .vimin f => Sys2Proof.Machine.execVimin f s
  | .vimax f => Sys2Proof.Machine.execVimax f s
  | .viabs f => Sys2Proof.Machine.execViabs f s
  | .vcmp f => Sys2Proof.Machine.execVcmp f s
  | .vsel f => Sys2Proof.Machine.execVsel f s
  | .vcvt f => Sys2Proof.Machine.execVcvt f s
  | .vqnt f => Sys2Proof.Machine.execVqnt f s
  | .vdqt f => Sys2Proof.Machine.execVdqt f s
  | .vrsum f => Sys2Proof.Machine.execVrsum f s
  | .vrmax f => Sys2Proof.Machine.execVrmax f s
  | .vrmin f => Sys2Proof.Machine.execVrmin f s
  | .vscan f => Sys2Proof.Machine.execVscan f s
  | .vtrn f => Sys2Proof.Machine.execVtrn f s
  | .vbcr f => Sys2Proof.Machine.execVbcr f s
  | .vbcc f => Sys2Proof.Machine.execVbcc f s
  | .vperm f => Sys2Proof.Machine.execVperm f s
  | .vsld f => Sys2Proof.Machine.execVsld f s
  | .vrot f => Sys2Proof.Machine.execVrot f s
  | .vmov f => Sys2Proof.Machine.execVmov f s
  | .vmovWhole f => Sys2Proof.Machine.execVmovWhole f s
  | .vspl f => Sys2Proof.Machine.execVspl f s
  | .vext f => Sys2Proof.Machine.execVext f s
  | .vins f => Sys2Proof.Machine.execVins f s
  | .vidx f => Sys2Proof.Machine.execVidx f s
  | .pset f => Sys2Proof.Machine.execPset f s
  | .pwhl f => Sys2Proof.Machine.execPwhl f s
  | .pmov f => Sys2Proof.Machine.execPmov f s
  | .vsets f => Sys2Proof.Machine.execVsets f s
  | .vld f => Sys2Proof.Machine.execVld f s
  | .vst f => Sys2Proof.Machine.execVst f s
  | .vldg f => Sys2Proof.Machine.execVldg f s
  | .vstx f => Sys2Proof.Machine.execVstx f s
  | .vldb f => Sys2Proof.Machine.execVldb f s
  | .vldv f => Sys2Proof.Machine.execVldv f s
  | .vstv f => Sys2Proof.Machine.execVstv f s
  | .vqry f => Sys2Proof.Machine.execVqry f s
  | .vrelv f => Sys2Proof.Machine.execVrelv f s
  | .mrec f => Sys2Proof.Machine.execMrec f s
  | .mldb f => Sys2Proof.Machine.execMldb f s
  | .mma f => Sys2Proof.Machine.execMma f s
  | .mmav f => Sys2Proof.Machine.execMmav f s
  | .mmag f => Sys2Proof.Machine.execMmag f s
  | .mrank f => Sys2Proof.Machine.execMrank f s
  | .mzero f => Sys2Proof.Machine.execMzero f s
  | .mdrain f => Sys2Proof.Machine.execMdrain f s
  | .mmova f => Sys2Proof.Machine.execMmova f s
  | .mmovv f => Sys2Proof.Machine.execMmovv f s
  | .mqry f => Sys2Proof.Machine.execMqry f s
  | .cpy f => Sys2Proof.Machine.execCpy f s
  | .cpyv f => Sys2Proof.Machine.execCpyv f s
  | .cpys f => Sys2Proof.Machine.execCpys f s
  | .acw f => Sys2Proof.Machine.execAcw f s
  | .acwArrive f => Sys2Proof.Machine.execAcwArrive f s
  | .waits f => Sys2Proof.Machine.execWaits f s
  | .sigs f => Sys2Proof.Machine.execSigs f s
  | .sigsE3 f => Sys2Proof.Machine.execSigsE3 f s
  | .semrd f => Sys2Proof.Machine.execSemrd f s
  | .waitb f => Sys2Proof.Machine.execWaitb f s
  | .fqpost f => Sys2Proof.Machine.execFqpost f s
  | .fmbox f => Sys2Proof.Machine.execFmbox f s
  | .fput f => Sys2Proof.Machine.execFput f s
  | .fflush f => Sys2Proof.Machine.execFflush f s
  | .launch f => Sys2Proof.Machine.execLaunch f s
  | .rdpr f => Sys2Proof.Machine.execRdpr f s
  | .wrpr f => Sys2Proof.Machine.execWrpr f s
  | .eret f => Sys2Proof.Machine.execEret f s
  | .asave f => Sys2Proof.Machine.execAsave f s
  | .arest f => Sys2Proof.Machine.execArest f s
  | .tlbinv f => Sys2Proof.Machine.execTlbinv f s
  | .tlbinvSw f => Sys2Proof.Machine.execTlbinvSw f s
  | .replay f => Sys2Proof.Machine.execReplay f s
  | .replaySw f => Sys2Proof.Machine.execReplaySw f s
  | .quar f => Sys2Proof.Machine.execQuar f s
  | .quarSw f => Sys2Proof.Machine.execQuarSw f s
  | .qstat f => Sys2Proof.Machine.execQstat f s
  | .qstatSw f => Sys2Proof.Machine.execQstatSw f s
  | .cfgdiff f => Sys2Proof.Machine.execCfgdiff f s
  | .cfgdiffSw f => Sys2Proof.Machine.execCfgdiffSw f s
  | .wlatch f => Sys2Proof.Machine.execWlatch f s
  | .wlatchSw f => Sys2Proof.Machine.execWlatchSw f s
  | .halt f => Sys2Proof.Machine.execHalt f s
  | .haltSw f => Sys2Proof.Machine.execHaltSw f s
  | .idle f => Sys2Proof.Machine.execIdle f s
  | .idleSw f => Sys2Proof.Machine.execIdleSw f s
  | .taskStart team => Sys2Proof.Machine.execTaskStart team s
  | .taskIssueSelect core => Sys2Proof.Machine.execTaskIssueSelect core s
  | .resultArrival core id => Sys2Proof.Machine.execResultArrival core id s
  | .versionAnswerArrival team => Sys2Proof.Machine.execVersionAnswerArrival team s
  | .storePerform core id piece stage => Sys2Proof.Machine.execStorePerform core id piece stage s
  | .loadPerform core id piece ext => Sys2Proof.Machine.execLoadPerform core id piece ext s
  | .tlbWalkComplete core id page => Sys2Proof.Machine.execTlbWalkComplete core id page s
  | .teamPlacement ctx slot => Sys2Proof.Machine.execTeamPlacement ctx slot s
  | .launchSlotTake ctx => Sys2Proof.Machine.execLaunchSlotTake ctx s
  | .teamRetire team => Sys2Proof.Machine.execTeamRetire team s
  | .launchRecordArrival src ctx bytes => Sys2Proof.Machine.execLaunchRecordArrival src ctx bytes s
  | .hostDoorbell window value => Sys2Proof.Machine.execHostDoorbell window value s
  | .apertureAccess acc => Sys2Proof.Machine.execApertureAccess acc s
  | .registerWrite reg => Sys2Proof.Machine.execRegisterWrite reg s
  | .semWaitRequest id => Sys2Proof.Machine.execSemWaitRequest id s
  | .semSignal id => Sys2Proof.Machine.execSemSignal id s
  | .semRead core id => Sys2Proof.Machine.execSemRead core id s
  | .barrierArriveStep core id => Sys2Proof.Machine.execBarrierArriveStep core id s
  | .barrierWaitRequest id => Sys2Proof.Machine.execBarrierWaitRequest id s
  | .barrierObjectStore core id piece => Sys2Proof.Machine.execBarrierObjectStore core id piece s
  | .waitbDeadline id => Sys2Proof.Machine.execWaitbDeadline id s
  | .waitbUnlink id => Sys2Proof.Machine.execWaitbUnlink id s
  | .acwPortStep core id => Sys2Proof.Machine.execAcwPortStep core id s
  | .vcCreate id => Sys2Proof.Machine.execVcCreate id s
  | .vcRead id granule => Sys2Proof.Machine.execVcRead id granule s
  | .vcRelease id => Sys2Proof.Machine.execVcRelease id s
  | .vcQuery id => Sys2Proof.Machine.execVcQuery id s
  | .matrixCommandStart core => Sys2Proof.Machine.execMatrixCommandStart core s
  | .passRow core id => Sys2Proof.Machine.execPassRow core id s
  | .bufferRefill core id => Sys2Proof.Machine.execBufferRefill core id s
  | .mmagSegment core id => Sys2Proof.Machine.execMmagSegment core id s
  | .copyChunk core id => Sys2Proof.Machine.execCopyChunk core id s
  | .parkedRetry id => Sys2Proof.Machine.execParkedRetry id s
  | .entryAppend id => Sys2Proof.Machine.execEntryAppend id s
  | .entryFire die cluster qp => Sys2Proof.Machine.execEntryFire die cluster qp s
  | .fabricMessageSend port => Sys2Proof.Machine.execFabricMessageSend port s
  | .fabricMessageArrival msg => Sys2Proof.Machine.execFabricMessageArrival msg s
  | .fabricRefusalReturn team target code msg => Sys2Proof.Machine.execFabricRefusalReturn team target code msg s
  | .entryComplete die cluster qp => Sys2Proof.Machine.execEntryComplete die cluster qp s
  | .landFullRetry die cluster qp => Sys2Proof.Machine.execLandFullRetry die cluster qp s
  | .landingApply die ctx => Sys2Proof.Machine.execLandingApply die ctx s
  | .remoteAccess req => Sys2Proof.Machine.execRemoteAccess req s
  | .fflushComplete id lost => Sys2Proof.Machine.execFflushComplete id lost s
  | .quantumEnd core => Sys2Proof.Machine.execQuantumEnd core s
  | .shadowPrepare core => Sys2Proof.Machine.execShadowPrepare core s
  | .preemption core => Sys2Proof.Machine.execPreemption core s
  | .contextRestore core => Sys2Proof.Machine.execContextRestore core s
  | .residencyChoice die => Sys2Proof.Machine.execResidencyChoice die s
  | .fairnessTick die => Sys2Proof.Machine.execFairnessTick die s
  | .fairnessWindow die => Sys2Proof.Machine.execFairnessWindow die s
  | .usedAccrual die => Sys2Proof.Machine.execUsedAccrual die s
  | .spinDemotion die entry => Sys2Proof.Machine.execSpinDemotion die entry s
  | .migrationAdvertise die => Sys2Proof.Machine.execMigrationAdvertise die s
  | .migrationLanding team core => Sys2Proof.Machine.execMigrationLanding team core s
  | .qepochAdvance die => Sys2Proof.Machine.execQepochAdvance die s
  | .scanRequest die slot => Sys2Proof.Machine.execScanRequest die slot s
  | .mkeyNew die slot => Sys2Proof.Machine.execMkeyNew die slot s
  | .mkeyKill die slot => Sys2Proof.Machine.execMkeyKill die slot s
  | .slotLoad die slot => Sys2Proof.Machine.execSlotLoad die slot s
  | .slotClear die slot => Sys2Proof.Machine.execSlotClear die slot s
  | .grantSet die slot => Sys2Proof.Machine.execGrantSet die slot s
  | .grantClear die slot => Sys2Proof.Machine.execGrantClear die slot s
  | .attest die slot => Sys2Proof.Machine.execAttest die slot s
  | .accept die slot => Sys2Proof.Machine.execAccept die slot s
  | .release die slot => Sys2Proof.Machine.execRelease die slot s
  | .destroy die slot => Sys2Proof.Machine.execDestroy die slot s
  | .scrub die slot => Sys2Proof.Machine.execScrub die slot s
  | .scrubFrameZero key => Sys2Proof.Machine.execScrubFrameZero key s
  | .dieBringup die bu => Sys2Proof.Machine.execDieBringup die bu s
  | .powerLoss => Sys2Proof.Machine.execPowerLoss s
  | .powerWindow milliwatts => Sys2Proof.Machine.execPowerWindow milliwatts s
  | .machineCheck die code core ctx addr => Sys2Proof.Machine.execMachineCheck die code core ctx addr s
  | .dieLoss pkg die => Sys2Proof.Machine.execDieLoss pkg die s
  | .flitReceive port flit => Sys2Proof.Machine.execFlitReceive port flit s
  | .linkReplay port seq => Sys2Proof.Machine.execLinkReplay port seq s
  | .linkRetrain port ok => Sys2Proof.Machine.execLinkRetrain port ok s
  | .portDown port => Sys2Proof.Machine.execPortDown port s
  | .launchStatusReturn id code => Sys2Proof.Machine.execLaunchStatusReturn id code s

end Sys2Proof.Machine
end

