-- ==== Sys2Proof/Machine/Step.lean ====
section
/-! DEFINITION. One step of the machine: the next input or choice of the agenda, or else one instruction
of the task selected for issue, or else one of the things that can happen next. -/

namespace Sys2Proof.Machine

/-- The outcome with what the part follows from `s0` on (R341, R345), and with time moved on. -/
def ticked (s0 : State) (o : Host.Outcome State Fault Refusal) : Host.Outcome State Fault Refusal :=
  match o with
  | .next s => .next (s0.followSpin s).syncQueues.tick
  | .fault f => .fault f
  | .refused r => .refused r

/-- Does the fetch of a task need a walk while all walkers of its die are busy (R355; log 14)? -/
def State.fetchWaits (s : State) (e : Env) : Bool :=
  s.walkersBusy e.die && [e.task.pc, e.task.pc + 11].any fun va => match s.look e.who va 1 .fetch false with
    | .miss => true
    | _ => false

/-- One instruction of the issuing task: fetched, decoded and executed (R147, R164, R367). -/
def runTask (s : State) (e : Env) : Host.Outcome State Fault Refusal :=
  if s.fetchWaits e then .next (s.holdTask e)
  else match s.fetch e with
  | .instr i => exec i (s.fetchFill e)
  | .fault r => .next ((s.fetchFill e).raise e r)
  | .undecodable => .refused .undecodable

/-- One step. -/
def step (s : State) : Host.Outcome State Fault Refusal :=
  match s.agenda with
  | i :: rest =>
    if i.isForm then .refused .notAnEvent else ticked s (exec i { s with agenda := rest })
  | [] =>
    match s.runner with
    | some e => ticked s (runTask s e)
    | none =>
      match s.chosen with
      | some w => ticked s (w s)
      | none => ticked s (.next s)

/-- The state in which `step` fetches and runs an instruction next: its bytes at the PC of a running
task of C0x001 on core 0 of die 0 (log 15).  Die 0 is up, the context is resident with one launch of
one team, the core's active plane names the context, and the code page is in the core's TLB. -/
def State.withFetchWord (s : State) (nbits w : Nat) : State :=
  fetchState s (leBytes 12 (w % 2 ^ nbits))

end Sys2Proof.Machine
end

