-- ==== Sys2Proof/Safety.lean ====
section
/-! DEFINITION. What counts as a safe run, and the terms in which the claims are stated. -/

namespace Sys2Proof.Machine

/-- The invariant of the machine: memory and its key tags stand in their canonical form. -/
def State.Inv (s : State) : Prop := Memory.wf s.mem = true ∧ tabSorted s.tags = true

/-- A step that neither stops with a fault of the model nor is refused. -/
def Runs (s : State) : Prop := ∃ t, step s = .next t

/-- The task of `e` is selected, nothing holds it, stage `st` is active and no operand is empty (R13,
R83, R85): an instruction with these operands issues. -/
abbrev CanIssue (s : State) (e : Env) (st : Nat) (srcs : List SrcOp) (dsts : List DstOp) : Prop :=
  s.issuer = some e ∧ e.task.hold = .free ∧ e.task.stageActive st = true ∧
    srcs.any e.task.srcEmpty = false ∧ dsts.any e.task.dstEmpty = false

/-- Only the team of `e` has changed, to `m`, and its task is no longer selected.  Every other piece of
state is as before: every byte of memory, every special register and every other team among it. -/
def OnlyTeam (s t : State) (e : Env) (m : Team) : Prop :=
  t = { s with teams := t.teams, focus := none } ∧
    ∀ u, tabFind t.teams u = if u = e.uid then some m else tabFind s.teams u

/-- Only the task of `e` has changed, to `k`, and it is no longer selected. -/
def OnlyTask (s t : State) (e : Env) (k : Task) : Prop := OnlyTeam s t e { e.team with task := some k }

/-- `k` is the task `t` with scalar register `d` holding `v` and the PC `n` bytes on; x0 keeps reading 0
(R72).  `held` and `issued` are the model's own. -/
def Wrote (t k : Task) (d : BitVec 6) (v : W64) (n : Nat) : Prop :=
  k = { t with x := k.x, pc := t.pc + w64 n, held := k.held, issued := k.issued } ∧
    ∀ r, k.getX r = if r = d ∧ r ≠ 0 then v else t.getX r

/-- `k` is the task `t` with the PC `n` bytes on. -/
def Moved (t k : Task) (n : Nat) : Prop :=
  k = { t with pc := t.pc + w64 n, held := k.held, issued := k.issued }

/-- `k` is the task `t` at another PC, to which it came by a transfer: a fault that the target's page meets in the
state `s` is raised when the target is fetched (R164). -/
def Went (s : State) (e : Env) (t k : Task) (pc : W64) : Prop :=
  k = { t with pc := pc, badFetch := s.targetFault e.who pc, held := k.held, issued := k.issued }

/-- `b` is the state `s` but for what its TLBs hold. -/
def TlbsOnly (s b : State) : Prop :=
  b = { s with cores := b.cores, clusters := b.clusters } ∧
    (∀ c, b.core c = { s.core c with tlb := (b.core c).tlb }) ∧
    ∀ c, b.cluster c = { s.cluster c with tlb := (b.cluster c).tlb }

/-- An instruction completes with `v` in scalar register `d`, `n` bytes on, and nothing else changed. -/
def Computes (i : Instr) (s : State) (e : Env) (d : BitVec 6) (v : W64) (n : Nat) : Prop :=
  ∃ t k, exec i s = .next t ∧ OnlyTask s t e k ∧ Wrote e.task k d v n

/-- The same with the floating-point flags `fl` added to the team's (R60). -/
def Flags (i : Instr) (s : State) (e : Env) (d : BitVec 6) (r : W64 × Fl) (n : Nat) : Prop :=
  ∃ t k, exec i s = .next t ∧
    OnlyTeam s t e { e.team with task := some k, fpflags := e.team.fpflags ||| r.2 } ∧
    Wrote e.task k d r.1 n

/-- An instruction completes with its task become `k`, and nothing else changed. -/
def Becomes (i : Instr) (s : State) (e : Env) (k : Task → Prop) : Prop :=
  ∃ t k', exec i s = .next t ∧ OnlyTask s t e k' ∧ k k'

/-- The same of a transfer, which translates its target (R164, R355). -/
def Leads (i : Instr) (s : State) (e : Env) (k : Task → Prop) : Prop :=
  ∃ b t k', exec i s = .next t ∧ TlbsOnly s b ∧ OnlyTask b t e k' ∧ k k'

/-- An instruction does not issue: its task stays before it (R13), and nothing else but the choice of the
task that is asked next has changed (R340). -/
def Holds (i : Instr) (s : State) (e : Env) : Prop := exec i s = .next (s.holdTask e)

/-- An instruction raises a fault: what its task's fault entry makes of the state (R38, R364, R365). -/
def Faults (i : Instr) (s : State) (e : Env) (code : Nat) (addr : W64) : Prop :=
  ∃ w f l, exec i s = .next (s.raise e ⟨code, addr, w, f, l⟩)

/-! ## Records in the pool -/

/-- The `n` bytes from key `base` up lie in HBM. -/
def Hbm (base n : Nat) : Prop := ∀ a, base ≤ a → a < base + n → isHbm a = true

/-- Memory key `mk` writes the `n` bytes from key `base` up, and reads them back: no lock and no scrub holds them,
and the key is installed there (R361, R391, R404). -/
def Writable (s : State) (mk base n : Nat) : Prop :=
  ∀ a, base ≤ a → a < base + n → s.refused mk a true = false ∧ s.installed mk a = true

/-- Memory reads otherwise in the units at `places` alone: no other granule under any key, and no other byte
under `mk`. -/
def Within (s b : State) (mk : Nat) (places : List Nat) : Prop :=
  (∀ key a, (∀ p ∈ places, ∀ i, i < 64 → a / 128 ≠ (gpaKey p + i) / 128) →
    b.readByte key a = s.readByte key a) ∧
  ∀ a, s.installed mk a = true → (∀ p ∈ places, a < gpaKey p ∨ gpaKey p + 64 ≤ a) →
    b.readByte mk a = s.readByte mk a

/-- The first unit of the record `r` of the team `m` holds its header (R33). -/
def Headed (s b : State) (mk : Nat) (m : Team) (r : Rec) : Prop :=
  ∀ p, r.places.head? = some p → Hbm (gpaKey p) 64 → Writable s mk (gpaKey p) 64 →
    s.reaches m.core (gpaKey p) = true →
    ∃ link, b.readBytes mk (gpaKey p) 64 = ((r.words m.index m.slot link).map (leBytes 8)).flatten

/-- Its later units hold the values of its live registers, eight to a unit (R32, R37). -/
def Valued (s b : State) (mk : Nat) (m : Team) (r : Rec) : Prop :=
  r.places.Pairwise (fun p q => gpaKey p + 64 ≤ gpaKey q ∨ gpaKey q + 64 ≤ gpaKey p) →
  ∀ j x p, (liveRegs r.live)[j]? = some x → r.places[1 + j / 8]? = some p → Hbm (gpaKey p) 64 →
    Writable s mk (gpaKey p) 64 → s.reaches m.core (gpaKey p) = true →
    b.readNat mk (gpaKey p + 8 * (j % 8)) 8 = (tabGet 0 r.regs x).toNat

/-- No other record of the team `m` bears the name of `r`. -/
def Named (m : Team) (r : Rec) : Prop := ∀ q ∈ m.recs, q.id = r.id → q = r

/-- The record `r` of the team `m` is written to its units, and nothing else has changed. -/
def Recorded (s b : State) (mk : Nat) (m : Team) (r : Rec) : Prop :=
  b = { s with mem := b.mem, tags := b.tags } ∧
    (Named m r → Within s b mk r.places ∧ Headed s b mk m r ∧ Valued s b mk m r)

/-- The same of its header alone. -/
def Shown (s b : State) (mk : Nat) (m : Team) (r : Rec) : Prop :=
  b = { s with mem := b.mem, tags := b.tags } ∧
    (Named m r → Within s b mk (r.places.take 1) ∧ Headed s b mk m r)

/-! ## Tasks that end -/

/-- `r` is a record of the issuing task's making: at `pc`, with the registers that `mask` names as
they stand (R32, R33). -/
def Carries (e : Env) (r : Rec) (id : Nat) (pc mask : W64) (kind state : Nat) : Prop :=
  r.id = id ∧ r.pc = pc ∧ r.live = mask &&& ~~~ 1 ∧ r.kind = kind ∧ r.state = state ∧
    r.units = recUnits (liveRegs mask).length ∧
    ∀ i : BitVec 6, tabGet 0 r.regs i.toNat = if mask.getLsbD i.toNat then e.task.getX i else 0

/-- The team of `e` once its task is gone, with the new records `rs`, of which `rdy` are ready: its origin record is
freed (R34). -/
def Env.without (e : Env) (rs : List Rec) (rdy : List Nat) : Team :=
  { e.team with
    task := none, recs := (e.team.recs.filter fun r => some r.id != e.task.origin) ++ rs
    ready := (e.team.ready.filter fun r => r == 0 || some r != e.task.origin) ++ rdy }

/-- What is left of a core: nothing is filled for the task of `e` any more (R86). -/
def Core.without (k : Core) (e : Env) : Core :=
  { k with
    results := k.results.filter fun r => r.team != e.uid
    loads := k.loads.map fun a => if a.team = e.uid then { a with dst := .none } else a
    cmds := k.cmds.map fun d => if d.team = e.uid then { d with regs := [] } else d }

/-- The saved commands of contexts, the same. -/
def Env.unfilled (e : Env) (ms : List Image) : List Image :=
  ms.map fun m => { m with cmds := m.cmds.map fun d => if d.team = e.uid then { d with regs := [] } else d }

/-- The record `r` lies in free units of its context's pool, behind the directory (R33, R37). -/
def Pooled (s : State) (core : Nat) (r : Rec) (ctx : Nat) : Prop :=
  r.places = s.poolPlaces core ctx r.units ∧ ∀ p ∈ r.places, ∃ u, p = s.poolBase core ctx + 64 * u ∧
    512 ≤ u ∧ u < s.poolSize ctx ∧ u ∉ s.unitsHeld (s.poolBase core ctx) ctx

/-- The task of `e` is gone and left the records `rs`, of which `rdy` are ready; what was to be filled of it is filled
no more (R34, R86).  No other team, no other core and no byte of memory outside the records has changed. -/
def Ended (s t : State) (e : Env) (rs : List Rec) (rdy : List Nat) (focus : Option Nat := none) : Prop :=
  ∃ b, b = { s with teams := b.teams, cores := b.cores, images := e.unfilled s.images, focus := focus } ∧
    (∀ u, tabFind b.teams u = if u = e.uid then some (e.without rs rdy) else tabFind s.teams u) ∧
    (∀ c, b.core c = if c = e.core then (s.core c).without e else s.core c) ∧
    (rs = [] → t = b) ∧
    ∀ r, rs = [r] → Recorded b t (s.keyOn e.core e.team.ctx) (e.without rs rdy) r ∧
      Pooled (s.endTask e.uid) e.core r e.team.ctx

/-- A fault of the task of `e` that does not requeue it passes to FHANDLER: its older accesses have
translated, it is no task of C0x000 and no handler task, and FHANDLER is not 0 (R38, R40, R364). -/
def Handled (s : State) (e : Env) : Prop :=
  s.translated e.core e.uid = true ∧ e.team.ctx ≠ 0 ∧ e.task.handler = false ∧ e.team.dead = false ∧
    ∃ l, s.launchOf e.team = some l ∧ l.fhandler ≠ 0

/-- A handler task of the team of `e` stands ready at FHANDLER with x1 to x4, behind the team's ready
tasks, and the faulted task is gone (R40), with the queue entries younger than the fault (R365).  Its record is
written to the pool, and no other byte of memory, no other team, no other core and no special register has
changed. -/
def Passed (s t : State) (e : Env) (code : Nat) (addr : W64) : Prop :=
  let older := fun a : Access => a.team != e.uid || a.cmd != 0 || decide (a.id < s.nextId)
  ∃ l r b, s.launchOf e.team = some l ∧ r.pc = l.fhandler ∧ r.kind = 5 ∧ r.state = 1 ∧ r.live = 0x1E ∧
    tabGet 0 r.regs 1 = w64 code ∧ tabGet 0 r.regs 2 = e.task.pc ∧ tabGet 0 r.regs 3 = addr ∧
    tabGet 0 r.regs 4 =
      originWord (e.task.origin.bind fun o => e.team.recs.find? fun r => r.id == o) ∧
    b = { s with
      teams := b.teams, cores := b.cores, vreqs := b.vreqs, images := e.unfilled s.images
      nextId := s.nextId + 1, focus := none } ∧ r.id = s.nextId ∧
    (∀ u, tabFind b.teams u = if u = e.uid then some (e.without [r] [r.id]) else tabFind s.teams u) ∧
    (∀ c, b.core c = if c = e.core then { s.core c with
      loads := (s.core c).loads.filter older, stores := (s.core c).stores.filter older }.without e
      else s.core c) ∧
    b.vreqs = (s.vreqs.filter fun q =>
      !(q.2.src == .task e.uid e.core && decide (s.nextId ≤ q.2.seq) && !q.2.held)) ∧
    Recorded b t (s.keyOn e.core e.team.ctx) (e.without [r] [r.id]) r ∧
    Pooled (s.endTask e.uid) e.core r e.team.ctx

/-! ## Tiles -/

/-- VSHAPE is legal (R76). -/
def Task.Legal (t : Task) : Prop :=
  1 ≤ t.rows.toNat ∧ t.rows.toNat ≤ 16 ∧ 1 ≤ t.cols.toNat ∧ t.cols.toNat ≤ 32 * 2 ^ t.wc.toNat

/-- `k` is the task `t` after an instruction of `n` bytes that writes vector registers and nothing else. -/
def VMoved (t k : Task) (n : Nat) : Prop :=
  k = { t with v := k.v, pc := t.pc + w64 n, held := k.held, issued := k.issued }

/-- The group of registers at `d` in `k` holds the tile `val`, of `n` elements of `w` bits, `c` to a row
(R77); where `val` is none the element is as in `t`, and so is every bit outside the tile. -/
def Tile (t k : Task) (w c d n : Nat) (val : Nat → Option Nat) : Prop :=
  (∀ i, i < n → k.elem w c d i = (match val i with
    | some v => v % 2 ^ w
    | none => t.elem w c d i)) ∧
  (∀ r row b, r < 32 → row < 16 → b < 1024 →
    (r < d ∨ t.rows.toNat ≤ row ∨ c * w ≤ b ∨ n ≤ ((r - d) * t.rows.toNat + row) * c + b / w) →
    (k.vrow r row).getLsbD b = (t.vrow r row).getLsbD b)

/-- Flags of the elements below `n`. -/
def flagsOf (n : Nat) (fl : Nat → Fl) : Fl := (List.range n).foldl (fun a i => a ||| fl i) 0

/-- What an element-wise instruction writes: `op` of the active elements, zeros or nothing (R79, R181). -/
def framed (z : Bool) (act : Nat) (op : Nat → Nat) (i : Nat) : Option Nat :=
  if i < act then some (op i) else if z then some 0 else none

/-- An instruction over tiles writes the tile `val` to the group at `d`, adds flags and changes nothing
else. -/
def TileOp (i : Instr) (s : State) (e : Env) (w c d n : Nat) (val : Nat → Option Nat) (fl : Fl) : Prop :=
  ∃ t k, exec i s = .next t ∧ VMoved e.task k 8 ∧ Tile e.task k w c d n val ∧
    OnlyTeam s t e { e.team with task := some k, fpflags := e.team.fpflags ||| fl }

/-- An element-wise instruction of format V with its operands full (R79, R181, R184): `op` gives each
active element's value and flags, for `c` elements in a row.  A shape that T does not divide, and a
predicate of another width, raise SHAPE. -/
def Elements (i : Instr) (s : State) (e : Env) (f : FV) (op : Nat → Nat → Nat × Fl) : Prop :=
  let w := FV.w f
  (∀ c, e.task.shapeBits = c * w → e.task.predFits f.p.toNat w = true →
    let n := f.g.toNat * e.task.rows.toNat * c
    let act := e.task.activeN f.p.toNat n
    TileOp i s e w c f.vd.toNat n (framed f.z act fun j => (op c j).1) (flagsOf act fun j => (op c j).2)) ∧
  ((e.task.shapeBits % w ≠ 0 ∨ e.task.predFits f.p.toNat w = false) → Faults i s e cShape 0)

/-- A special function (R84, R187): the destination group is marked empty, and what it will hold is on its
way to it. -/
def Special (i : Instr) (s : State) (e : Env) (f : FV) (fn : FVal → FVal × Fl) : Prop :=
  let k := e.task
  let w := FV.w f
  let d := f.vd.toNat
  let op := fun c j =>
    let x := fn (FV.val f e.team (FV.a f k c j))
    let r := (FV.fmt f).encode .rne e.team.ftz x.1
    (r.1, x.2 ||| r.2)
  (∀ c, k.shapeBits = c * w → k.predFits f.p.toNat w = true →
    let n := f.g.toNat * k.rows.toNat * c
    let act := k.activeN f.p.toNat n
    ∃ t k' h, exec i s = .next t ∧ VMoved k h 0 ∧
      Tile k h w c d n (framed f.z act fun j => (op c j).1) ∧
      k' = { k with pc := k.pc + 8, vEmpty := k'.vEmpty, held := k'.held, issued := k'.issued } ∧
      (∀ r, k'.vEmpty.getLsbD r = (k.vEmpty.getLsbD r || (k.physList d f.g.toNat).contains r)) ∧
      OnlyTeam { s with cores := t.cores, nextId := s.nextId + 1 } t e { e.team with
        task := some k', fpflags := e.team.fpflags ||| flagsOf act fun j => (op c j).2 } ∧
      ∀ q, t.core q = if q = e.core then { s.core q with results := (s.core q).results ++
        [⟨s.nextId, e.uid, none, h.groupRows d f.g.toNat, k.physList d f.g.toNat⟩] } else s.core q) ∧
  ((k.shapeBits % w ≠ 0 ∨ k.predFits f.p.toNat w = false) → Faults i s e cShape 0)

/-- `v` stands in predicate `p` (p0 discards it, R78), and nothing else but the PC has changed. -/
def PredSet (t k : Task) (p : Nat) (v : BitVec 16) : Prop :=
  k = { t with p := k.p, pc := t.pc + 8, held := k.held, issued := k.issued } ∧
    ∀ q, k.pred q = if q = p ∧ q ≠ 0 then v else t.pred q

/-! ## Accesses and commands -/

/-- Nothing holds an access: no MARK, no acquire, its queue has room, and it overlaps no range that an
engine command holds (R110, R117, R121, R204). -/
def Enterable (s : State) (e : Env) (store : Bool) (sp : AccSpec) : Prop :=
  s.memClear e = true ∧ s.room e.core store sp.entries = true ∧
    sp.pieces.any (fun q => s.sbHit e q.va.toNat q.len) = false

/-- What an access finds as it enters its queue: behind an older one of its task that still waits for a walk it is not
looked at yet, and otherwise the TLBs place its pieces (R205, R366). -/
def Finds (s : State) (e : Env) (store : Bool) (sp : AccSpec) :
    List Piece × Option (Nat × Nat) × Option (Nat × Nat) :=
  if s.behindWalk e.core store then (sp.pieces, none, none)
  else s.place e.who sp.kind.path sp.kind.writes sp.pieces

/-- What a load whose pieces have taken their values brings to the registers of the task `k` (R84, R206, R208 to
R210): a scalar, extended as its instruction says, or for each run of a tile load the bits of its pieces, zeros
behind them, and the rest of the row as it stood. -/
def Brings (k : Task) (a : Access) (r : Result) : Prop :=
  r.id = a.id ∧ r.team = a.team ∧
  (∀ d n sg p, a.dst = .x d n sg → a.pieces = [p] → n = 1 ∨ n = 2 ∨ n = 4 ∨ n = 8 →
    r.rows = [] ∧ r.regs = [] ∧ r.xs = some (d, if sg then (BitVec.ofNat (8 * n) p.data.toNat).signExtend 64
      else w64 (p.data.toNat % 2 ^ (8 * n)))) ∧
  ∀ regs runs, a.dst = .v regs runs → r.xs = none ∧ r.regs = regs ∧
    ∀ u ∈ runs, (∀ w ∈ runs, w.row = u.row → w = u) →
      let bit := fun j => (tabGet 0 r.rows u.row).getLsbD j
      let ps := (a.pieces.drop u.first).take u.count
      let lo := u.dstBit + u.nbits
      (∀ j p, j < u.nbits → u.dstBit + j < 1024 → p ∈ ps → (∀ q ∈ ps, q.data.toNat < 2 ^ (8 * q.len) ∧
        (8 * q.va.toNat ≤ u.srcBit + j → u.srcBit + j < 8 * (q.va.toNat + q.len) → q = p)) →
        8 * p.va.toNat ≤ u.srcBit + j → u.srcBit + j < 8 * (p.va.toNat + p.len) →
        bit (u.dstBit + j) = p.data.getLsbD (u.srcBit + j - 8 * p.va.toNat)) ∧
      (∀ j, lo ≤ j → j < lo + u.zero → bit j = false) ∧
      ∀ j, j < 1024 → j < u.dstBit ∨ lo + u.zero ≤ j → bit j = (tabGet 0 k.v u.row).getLsbD j

/-- From the load queue `q` of a core those loads of a team leave that have taken their values, from its oldest on,
and none passes an older one (R116, R204); their results are on their way, for a task that still runs (R84, R86).
Nothing else has changed. -/
def Leaves (s t : State) (c uid : Nat) (q : List Access) : Prop :=
  let mine := fun a : Access => a.team == uid && a.cmd == 0 && a.kind != .prefetch
  let rest := fun (out : List Access) => q.filter fun b => out.all fun a => b.id != a.id
  ∃ (out : List Access) (rs : List Result),
    (∀ i a, out[i]? = some a → (rest (out.take i)).find? mine = some a ∧ a.taken = true) ∧
    (∀ b, (rest out).find? mine = some b → b.taken = false) ∧
    t = { s with cores := t.cores } ∧ (∀ d, d ≠ c → t.core d = s.core d) ∧
    t.core c = { s.core c with loads := rest out, results := (s.core c).results ++ rs } ∧
    let filling := out.filter fun a => a.dst != .none
    (∀ m k, tabFind s.teams uid = some m → m.task = some k → rs.length = filling.length ∧
      ∀ (i : Nat) a r, filling[i]? = some a → rs[i]? = some r → Brings k a r) ∧
    ((∀ m, tabFind s.teams uid = some m → m.task = none) → rs = [])

/-- A walk has ended at a leaf: the TLBs of the core that asked and of its cluster hit, and so do those of the cores
of its die whose entries wait for the same page; no other part of the state has changed (R355). -/
def Fills (s b : State) (w : Who) (va : Nat) (e : BitVec 64) (big : Bool) : Prop :=
  let hit := some (⟨w.ctx, if big then va / 2 ^ 29 else va / 2 ^ 16, big, e⟩ : TlbEntry)
  TlbsOnly s b ∧ tlbHit (b.core w.core).tlb w.ctx va = hit ∧
    tlbHit (b.cluster (clusterOf w.core)).tlb w.ctx va = hit ∧
    ∀ c a, dieOf c = dieOf w.core → a ∈ (s.core c).loads ++ (s.core c).stores → a.xlate = true → a.ctx = w.ctx →
      a.nextPage = some (va / 65536) → tlbHit (b.core c).tlb w.ctx va = hit

/-- The queue entry of an access, named `id`, with its pieces as the TLBs place them. -/
def entryOf (s : State) (e : Env) (store : Bool) (sp : AccSpec) : Access where
  id := s.nextId; team := e.uid; ctx := e.team.ctx; seq := e.task.seq; pc := e.task.pc; kind := sp.kind
  entries := sp.entries
  xlate := (Finds s e store sp).1.any fun p => p.loc.isNone
  pieces := (Finds s e store sp).1
  dst := sp.dst; rel := sp.rel; acq := sp.acq; inOrder := sp.inOrder; grain := 1; cmd := 0

/-- The task of `e` after an instruction of `n` bytes whose access fills `d`: those registers are empty,
and an acquire is remembered. -/
def Loading (s : State) (e : Env) (k : Task) (n : Nat) (sp : AccSpec) : Prop :=
  k = { e.task.emptyDst sp.dst with
    pc := e.task.pc + w64 n, acqs := if sp.acq then e.task.acqs ++ [s.nextId] else e.task.acqs
    held := k.held, issued := k.issued }

/-- A load or store with nothing in its way issues: it enters its queue at the tail (R204, R366), where no
byte of memory has changed, or, where a piece faults below every address that must still be walked, it
raises that fault (R205).  With no active element nothing is accessed; a store leaves no entry behind, and a load
leaves once every older load of its task has (R116). -/
def Enters (i : Instr) (s : State) (e : Env) (n : Nat) (store : Bool) (sp : AccSpec) : Prop :=
  let r := Finds s e store sp
  (faultFirst r.2.1 r.2.2 = none → sp.pieces ≠ [] → ∃ t k, exec i s = .next t ∧ Loading s e k n sp ∧
    OnlyTeam { s with cores := t.cores, nextId := s.nextId + 1 } t e { e.team with task := some k } ∧
    ∀ c, t.core c = if c = e.core then (if store then
        { s.core c with stores := (s.core c).stores ++ [entryOf s e store sp] }
        else { s.core c with loads := (s.core c).loads ++ [entryOf s e store sp] }) else s.core c) ∧
  (sp.pieces = [] → ∃ t k, exec i s = .next t ∧ Loading s e k n sp ∧
    OnlyTeam { s with cores := t.cores, nextId := s.nextId + 1 } t e { e.team with task := some k } ∧
    (∀ c, c ≠ e.core → t.core c = s.core c) ∧
    (store = true → t.core e.core = { s.core e.core with stores := (s.core e.core).stores.filter fun a =>
      a.id != s.nextId }) ∧
    (store = false → t.core e.core = { s.core e.core with
      loads := (t.core e.core).loads, results := (t.core e.core).results } ∧
      ((∀ a ∈ (s.core e.core).loads, a.team ≠ e.uid ∧ a.id ≠ s.nextId) →
        (t.core e.core).loads = (s.core e.core).loads))) ∧
  ∀ va c, faultFirst r.2.1 r.2.2 = some (va, c) → Faults i s e c (w64 va)

/-- Nothing holds an engine command: no MARK, no acquire, its task's older accesses have translated where
that matters, its queue has room and so has the range scoreboard (R39, R110, R117, R121, R223, R248). -/
def CmdOpen (s : State) (e : Env) (q : Queue) (after : Bool) (ranges : Nat) : Prop :=
  s.memClear e = true ∧ (after = true → s.translated e.core e.uid = true) ∧ s.cmdRoom e.core q = true ∧
    (s.core e.core).sb.length + ranges ≤ 32

/-- What an accepted command is made of: its token fields, queue, operands and address ranges, the
registers of its task that it leaves empty, what its instruction adds to it, and a request of its own. -/
structure CmdSpec where
  f : FE2
  q : Queue
  x : W64 × W64 × W64
  sb : List (W64 × Nat)
  dst : Task → Task
  fix : Cmd → Cmd
  own : Cmd → Option Req

/-- A command of the plainest kind. -/
def plainCmd (f : FE2) (q : Queue) (x : W64 × W64 × W64) : CmdSpec :=
  ⟨f, q, x, [], fun k => k, fun c => c, fun _ => none⟩

/-- An engine command is accepted in the state `b`, whose issuing team is `m` (R39, R81, R140, R141): it
stands at the tail of its queue with what its consumed tokens stand for, its produced token stands for it
too, and the request of its wait field is on its way.  Nothing else has changed. -/
def Accepts (i : Instr) (s : State) (e : Env) (n : Nat) (b : State) (m : Team) (sp : CmdSpec) : Prop :=
  ∀ deps, e.task.consume (FE2.cts sp.f) = some deps → ∃ t k c, exec i s = .next t ∧
    c = sp.fix (newCmd b e i sp.f sp.q b.nextId (deps.filter fun d => !b.depOver d) sp.x.1 sp.x.2.1
      sp.x.2.2) ∧
    k = { sp.dst e.task with
      tok := k.tok, pc := e.task.pc + w64 n, held := k.held, issued := k.issued } ∧
    (∀ j, ¬ (sp.f.pv = true ∧ j = sp.f.pt.toNat) →
      tabGet .unproduced k.tok j = tabGet .unproduced e.task.tok j) ∧
    (sp.f.pv = true → ∃ ds, tabGet .unproduced k.tok sp.f.pt.toNat = .produced (ds ++ [.cmd b.nextId]) ∧
      ∀ d ∈ ds, ∃ old, tabGet .unproduced e.task.tok sp.f.pt.toNat = .produced old ∧ d ∈ old) ∧
    OnlyTeam { b with
      cores := t.cores, openCmds := b.openCmds ++ [b.nextId], reqs := t.reqs, nextId := t.nextId } t e
      { m with task := some k } ∧
    (∀ q, t.core q = if q = e.core then { b.core q with
      cmds := (b.core q).cmds ++ [c], sb := (b.core q).sb ++ sp.sb.map fun r => sbRange e c.id r.1 r.2 }
      else b.core q) ∧
    let w := if sp.f.wv then 1 else 0
    let waits := if sp.f.wv then
      tabPut b.reqs (b.nextId + 1) (.semWait e.team.ctx c.wsem (.cmd e.core c.id)) else b.reqs
    t.reqs = match sp.own c with
      | none => waits
      | some r => tabPut waits (b.nextId + 1 + w) r

/-! ## Memory -/

/-- The bytes `bs` stand from key `base` up, as memory key `mk` reads them where it is installed; no other byte reads
otherwise (R105), and a granule that holds none of them reads the same under every key. -/
def Stored (s t : State) (mk base : Nat) (bs : List (BitVec 8)) : Prop :=
  (∀ a, s.installed mk a = true → t.readByte mk a =
    if base ≤ a ∧ a < base + bs.length then bs.getD (a - base) 0 else s.readByte mk a) ∧
  ∀ key a, (∀ i, i < bs.length → a / 128 ≠ (base + i) / 128) → t.readByte key a = s.readByte key a

/-! ## Commands and synchronization -/

/-- The command `c` of the state `b` is over (R125, R141, R253): it stands in no queue of its core, its token is
done, and the addition that it signals is on its way. -/
def Over (b t : State) (c : Cmd) : Prop :=
  (t.core c.core).cmds = (b.core c.core).cmds.filter (fun d => d.id != c.id) ∧ t.openCmds = b.openCmds.filter (fun i => i != c.id) ∧
    ∀ n, c.sig = some n → ∃ k, tabFind t.reqs k =
      some (.semSig c.ctx n 1 c.team c.id c.core c.pc c.scope none c.seq)

/-- The writes of the command `c` stand behind those of its core (R125), past the core's port: the bytes `bs`
for the units `sp`, in atomic units of `grain` pieces (R128), translated at the epoch `ep` (R369). -/
def Sends (s t : State) (c : Cmd) (sp : List Span) (bs : List (BitVec 8)) (grain : Nat := 1)
    (ep : Nat := s.epoch c.core) : Prop :=
  (sp = [] → (t.core c.core).stores = (s.core c.core).stores) ∧
    (sp ≠ [] → ∃ id, (t.core c.core).stores = (s.core c.core).stores ++ [
      { id := id, team := c.team, ctx := c.ctx, seq := c.seq, pc := c.pc, kind := .engine, entries := 0
        xlate := false, pieces := writeSpans id ep sp bs, dst := .none, rel := none, acq := false, inOrder := false
        grain := grain, cmd := c.id }])

/-- The record `r` of a team reads as `f` makes it, in its header too, and `rdy` are enqueued behind the team's
ready tasks; nothing else has changed (R32, R33, R36). -/
def Changed (s t : State) (team r : Nat) (f : Rec → Rec) (rdy : List Nat) : Prop :=
  ∃ b, b = { s with teams := b.teams } ∧
    (∀ u, tabFind b.teams u = if u = team then (tabFind s.teams u).map fun m => { m with
      recs := m.recs.map fun q => if q.id = r then f q else q
      ready := m.ready ++ rdy } else tabFind s.teams u) ∧
    ∀ m q, tabFind b.teams team = some m → q ∈ m.recs → q.id = r →
      Shown b t (s.keyOn (m.core.getD 512) m.ctx) m q

/-- A record of the team that is parked is ready with a status, behind the team's ready tasks (R32, R115). -/
def Woken (s t : State) (team r status : Nat) : Prop :=
  Changed s t team r (fun q => { q with state := 1, status := status }) [r]

/-- A parked record of a team. -/
def Parked (s : State) (team r : Nat) (q : Rec) : Prop := s.recOf team r = some q ∧ q.state = 0

/-- `amount` is added to a semaphore of a context, and its waiters proceed from the head on while the value lets
them (R261): `j` of them.  What they proceed with apart, nothing else has changed. -/
def Adds (s t : State) (ctx n amount : Nat) : Prop :=
  let v := (s.semVal ctx n).toNat + amount
  let chain := s.semChain ctx n
  ∃ j, j ≤ chain.length ∧
    let used := ((chain.take j).map Waiter.count).sum
    let p := (chain.take j).foldl State.proceed s
    used ≤ v ∧ (t.semVal ctx n).toNat = v - used ∧ t.semChain ctx n = chain.drop j ∧
    (∀ w, chain[j]? = some w → v - used < w.count) ∧
    (∀ c k, (c, k) ≠ (ctx, n) → t.semVal c k = s.semVal c k) ∧
    (∀ k, k ≠ ctx * 256 + n → tabGet [] t.semChains k = tabGet [] s.semChains k) ∧
    (∀ c, t.ctx c = { s.ctx c with sems := (t.ctx c).sems }) ∧
    t = { p with ctxs := t.ctxs, semChains := t.semChains }

/-- A barrier object lies whole in the CSM image of a cluster (R95, R266). -/
def CsmObj (k : Nat) : Prop :=
  ∃ die cl off, die < 4 ∧ cl < 16 ∧ off + 16 ≤ 2 ^ 24 ∧ k = csmKey die cl off

/-- The bank has written the object at `k`, which is `o` now; no byte outside it reads otherwise, and nothing else
has changed (R266). -/
def BarIs (s t : State) (k : Nat) (o : Bar) : Prop :=
  t.bar k = o ∧ (∀ key a, a < k ∨ k + 16 ≤ a → t.readByte key a = s.readByte key a) ∧
    t = { s with mem := t.mem, barriers := t.barriers }

/-- Every waiter of the object at `k` proceeds, and its chain is empty (R267). -/
def State.chainFreed (s : State) (k : Nat) : State :=
  (tabGet [] s.barChains k).foldl State.proceed { s with barChains := tabDel s.barChains k }

/-- The request `id` is off its way, and the others are as before. -/
def Served (s t : State) (id : Nat) : Prop :=
  ∀ k, tabFind t.reqs k = if k = id then none else tabFind s.reqs k

/-! ## Versioned regions -/

/-- The bytes from key `k` up lie in HBM or in the CSM image of one cluster. -/
def InMemory (k n : Nat) : Prop :=
  Hbm k n ∨ ∃ die cl off, die < 4 ∧ cl < 16 ∧ off + n ≤ 2 ^ 24 ∧ k = csmKey die cl off

/-- Every granule of the run takes `v` as its next version (R109). -/
def NextAll (s : State) (ctx : Nat) (r : Region) (g v n : Nat) : Prop :=
  ∀ j, j < n → v = s.latest ctx r (g + j) + 1

/-- The waiter chain of a granule is `l`, and its directory entry says whether it is empty (R108). -/
def Chained (s t : State) (ctx n g : Nat) (l : List Waiter) : Prop :=
  (∀ k, tabGet [] t.verChains k = if k = verKey ctx n g then l else tabGet [] s.verChains k) ∧
  t = { s with verChains := t.verChains, mem := t.mem, tags := t.tags } ∧
  ∀ r, s.region ctx n = some r → ctx < 4096 → n < 256 → g < 2 ^ 26 →
    let k := gpaKey (r.dir + 16 * g) + 8
    Hbm k 8 → Writable s (s.ctxKey ctx) k 8 →
    ∃ h, Stored s t (s.ctxKey ctx) k (leBytes 8 (if l = [] then 0 else h))

/-- The PWAIT chain of a region is `l`, and its descriptor says whether it is empty (R107). -/
def Pwaits (s t : State) (ctx n : Nat) (l : List Nat) : Prop :=
  (∀ k, tabGet [] t.pwait k = if k = ctx * 256 + n then l else tabGet [] s.pwait k) ∧
  t = { s with pwait := t.pwait, mem := t.mem, tags := t.tags } ∧
  ∀ r, s.region ctx n = some r → Hbm (r.addr + 48) 8 → Writable s 0 (r.addr + 48) 8 →
    ∃ h, Stored s t 0 (r.addr + 48) (leBytes 8 (if l = [] then 0 else h))

/-- Version `v` of granule `g` is made (R109, R218): its slot holds the row, LATEST is `v`, and the waiters on it go on
in park order. -/
def Makes (s t : State) (ctx n : Nat) (r : Region) (v g : Nat) (row : Row) : Prop :=
  let mk := s.ctxKey ctx
  let dir := gpaKey (r.dir + 16 * g)
  let chain : List Waiter := tabGet [] s.verChains (verKey ctx n g)
  ∃ a b c, a = { s with mem := a.mem, tags := a.tags } ∧ b = { s with mem := b.mem, tags := b.tags } ∧
    (Hbm (r.slot g v) 128 → Writable s mk (r.slot g v) 128 → Stored s a mk (r.slot g v) (leBytes 128 row.toNat)) ∧
    (Hbm dir 4 → Writable s mk dir 4 → Stored a b mk dir (leBytes 4 v)) ∧
    ((∀ w ∈ chain, w.wants v = false) → c = b) ∧
    ((∃ w ∈ chain, w.wants v = true) → Chained b c ctx n g (chain.filter fun w => !w.wants v)) ∧
    t = (chain.filter (Waiter.wants v)).foldl State.versionMade c

/-- The same of a run of granules from `g` up. -/
def MakesAll (s t : State) (ctx n : Nat) (r : Region) (v g : Nat) : List Row → Prop
  | [] => t = s
  | row :: rows => ∃ b, Makes s b ctx n r v g row ∧ MakesAll b t ctx n r v (g + 1) rows

/-- A task's versioned request is answered (R216): its queue entry is gone, and the answer is on its way to the task
that waits for it. -/
def Answers (s t : State) (id team core : Nat) (q : VReq) (code : Nat) (addr : W64) : Prop :=
  ∃ b u, b = { s with cores := b.cores } ∧ (∀ c, c ≠ core → b.core c = s.core c) ∧
    b.core core = { s.core core with
      loads := (s.core core).loads.filter fun a => a.id != id
      stores := (s.core core).stores.filter fun a => a.id != id } ∧
    Leaves b u core team (b.core core).loads ∧ t = { u with vreqs := t.vreqs } ∧
    ∀ k, tabFind t.vreqs k = if k = id then (if s.awaits team id then
        some { q with held := false, answer := some (code, addr) } else none) else tabFind s.vreqs k

/-! ## Messages of the fabric -/

/-- A message has left the package by its port (R281, R285, R414), one to an Ethernet peer as an RDMA WRITE under the
peer's entry and the next PSN (R417, R418; log 104). -/
def SentOut (s t : State) (m : FabricMsg) : Prop :=
  t.net = s.net ∧
    (∀ k, m.eth = none → s.portOf m = some k → t.dies = s.dies ∧ t.outbox = s.outbox ++ [.message m] ∧
      t.ports = if k < 18 then (s.transmit k (.message m)).ports else s.ports) ∧
    ∀ p, m.eth = some p →
      let die := m.scl / 16
      let entry := s.readBytes 0 (physKey die (peerLocal + 64 * p)) 64
      let psn := (tabFind (s.die die).psn p).getD (BitVec.ofNat 24 (leNat ((entry.drop 0x1C).take 3)))
      let bytes := roceHeader m ++ m.payload
      t.ports = s.ports ∧ t.outbox = s.outbox ++
          [.roce entry psn m.rsem.isSome m.va.toNat m.tctx bytes.length bytes m] ∧
        ∀ d, t.die d = if d = die then { s.die d with
          psn := tabPut (s.die d).psn p (psn + BitVec.ofNat 24 ((bytes.length + 4095) / 4096)) } else s.die d

/-- A message has left by its port, towards a context of its own package or out of it. -/
def Left (s t : State) (m : FabricMsg) : Prop :=
  let here := s.ownMsg m = true ∧ m.tpkg = s.pkg.toNat
  (here → t.net = s.net ++ [m] ∧ t.outbox = s.outbox ∧ t.ports = s.ports ∧ t.dies = s.dies) ∧ (¬ here → SentOut s t m)

/-- Writes on their way to a target and refusals of it, as a team's next FFLUSH there finds them once an answer to `ref`
has come: `code` 0, or why it was refused (R272). -/
def Team.told (k : Team) (ref target code : Nat) : Team :=
  { k with
    posted := dropPosted ref target k.posted
    refusals := if code = 0 ∨ (k.refusals.any fun r => r.1 == target) = true then k.refusals
      else k.refusals ++ [(target, code)] }

/-- The team that sent a message from this package, and its queue pair, learn what became of it: performed (`code` 0),
or refused for good, after which it never counts as performed (R272, R280, R281, R351). -/
def Learns (s t : State) (m : FabricMsg) (code : Nat) : Prop :=
  t = { s with teams := t.teams, clusters := t.clusters } ∧
    (∀ u, tabFind t.teams u = if u = m.team then
      (tabFind s.teams u).map fun k => k.told m.ref (msgTarget m) code else tabFind s.teams u) ∧
    (∀ c, t.cluster c = { s.cluster c with qps := (t.cluster c).qps }) ∧
    ∀ c n, tabFind (t.cluster c).qps n = if c = m.scl ∧ n = m.qp then
      (tabFind (s.cluster c).qps n).map fun q => { q with
        unperformed := if code = 0 then q.unperformed - 1 else q.unperformed
        retry := q.retry.filter fun r => r.msg != m } else tabFind (s.cluster c).qps n

/-- The sender of a message that has come here is told what became of it, in this package or out of it. -/
def Told (s t : State) (m : FabricMsg) (code : Nat) : Prop :=
  let out : Out := if code = 0 then .performed m.spkg m else .refusal m.spkg m code
  (s.ownMsg m = true → Learns s t m code) ∧
    (s.ownMsg m = false → t = { s with outbox := s.outbox ++ [out] })

/-- A message's number is in the window of its path at its target, where it bears one (R288). -/
def Noted (s t : State) (die : Nat) (m : FabricMsg) : Prop :=
  t = { s with dies := t.dies } ∧ ∀ d, t.die d = if d = die ∧ m.windowed = true then
    let w := tabPut (s.die d).window (msgPath m) (takeNo (tabGet [] (s.die d).window (msgPath m)) m.msgno)
    { s.die d with window := w } else s.die d

/-- The fairness entry of a gang on a die becomes what `g` makes of it, where it has one (R342, R343). -/
def GangIs (s t : State) (die gang : Nat) (g : Fair → Fair) : Prop :=
  t = { s with dies := t.dies } ∧
    (∀ d, d ≠ die ∨ (s.die die).gangEntry gang = none → t.die d = s.die d) ∧
    ∀ i f, (s.die die).gangEntry gang = some (i, f) → t.die die = { s.die die with fair := (t.die die).fair } ∧
      ∀ j, tabFind (t.die die).fair j = if j = i then some (g f) else tabFind (s.die die).fair j

/-- What a counted message makes of its gang's entry: BOOST and GATHERED rise by INC, within CAP and ALLOW (R343), and a
demotion ends (R345). -/
def counted (f : Fair) : Fair :=
  let add := min f.inc (min (f.cap - f.boost) (f.allow - f.gathered))
  { f with boost := f.boost + add, gathered := f.gathered + add, demoted := false, spins := [] }

/-- A message has come to its turn: those behind it wait for it no longer (R280). -/
def Turned (s t : State) (m : FabricMsg) : Prop :=
  t = { s with fullNos := t.fullNos } ∧ ∀ k, tabFind t.fullNos k =
    if k = msgPath m ∧ tabFind s.fullNos k = some m.msgno then none else tabFind s.fullNos k

/-- `n` bytes from key `k` up hold what a software store of `data` leaves there: the bits that only the machine writes
stay (R5). -/
def Puts (s t : State) (mk k n : Nat) (data : BitVec 64) : Prop :=
  let m := BitVec.ofNat 64 (2 ^ (8 * n) - 1) &&& s.softMask k n
  Stored s t mk k (leBytes n ((BitVec.ofNat 64 (s.readNat mk k n) &&& ~~~m) ||| (data &&& m)).toNat)

/-! ## Placement -/

/-- The core that R334 names for the next team of a launch: the team fits there, on a die that DIEMASK and DIES permit
and where the context is resident; no other such die on which it fits has more free team slots, or as many and a
lower number; and no other core of the die on which it fits has more free scratchpad, or as much and a lower
number. -/
def Best (s : State) (ctx : Nat) (l : Launch) (core : Nat) : Prop :=
  let takes := fun c => s.fits c ctx l.allot l.acct = true
  let opens := fun d => d < 4 ∧ permits l.diemask d = true ∧ (s.diesOf ctx).testBit d = true ∧
    s.residOn ctx d = .resident
  let d := dieOf core
  takes core ∧ opens d ∧
    (∀ c, takes c → opens (dieOf c) →
      s.freeSlots (dieOf c) < s.freeSlots d ∨ (s.freeSlots (dieOf c) = s.freeSlots d ∧ d ≤ dieOf c)) ∧
    ∀ c, takes c → dieOf c = d → s.padFree c < s.padFree core ∨ (s.padFree c = s.padFree core ∧ core ≤ c)

/-- The next team of a launch is placed on a core (R24, R26, R80): in the lowest free team slot, with its allotment,
tiles that no other team of its context holds there, and its first task ready.  Nothing else has changed. -/
def Places (s t : State) (ctx : Nat) (l : Launch) (core : Nat) : Prop :=
  t = { s with teams := t.teams, ctxs := t.ctxs, nextId := s.nextId + 1 } ∧
    (∀ u, u ≠ s.nextId → tabFind t.teams u = tabFind s.teams u) ∧
    (∃ m : Team, tabFind t.teams s.nextId = some m ∧ m.ctx = ctx ∧ m.slot = l.slot ∧ m.index = l.placed ∧
      m.core = some core ∧ m.allot = l.allot ∧ m.acct = l.acct ∧ m.prio = l.prio ∧ m.tslot < 8 ∧
      (∀ x ∈ s.teamsOn core, x.2.tslot ≠ m.tslot) ∧
      (∀ i, i < m.tslot → ∃ x ∈ s.teamsOn core, x.2.tslot = i) ∧ m.tiles.length = l.acct ∧
      (∀ i ∈ m.tiles, i ∈ s.tilesFree core ctx) ∧ m.tiles.Nodup ∧ m.groups = l.groupsOf l.placed ∧
      m.ready = [0] ∧ m.task = none ∧ m.recs = [] ∧ m.dead = false) ∧
    ∀ c, t.ctx c = if c = ctx then { s.ctx ctx with launches := (s.ctx ctx).launches.map fun x =>
      if x.slot = l.slot then { x with placed := x.placed + 1 } else x } else s.ctx c

/-- The next `n` teams of a launch are placed one after another, each on the core that R334 names. -/
def PlacesAll (s t : State) (ctx : Nat) (l : Launch) : Nat → Prop
  | 0 => t = s
  | n + 1 => ∃ core b, Best s ctx l core ∧ Places s b ctx l core ∧
      PlacesAll b t ctx { l with placed := l.placed + 1 } n

/-! ## Cores, their contexts and teams -/

/-- A core's shadow has become its active plane (R315, R384): USED counts what ran before (R344), and CSM that the
context gains or loses by it is zeroed, and what it gains no other context holds (R106; log 101).  Nothing else has
changed. -/
def Activates (s t : State) (core ctx : Nat) : Prop :=
  t = { s with cores := t.cores, dies := t.dies, ctxs := t.ctxs, mem := t.mem, barriers := t.barriers } ∧
    (∀ q, t.core q = if q = core then { s.core q with plane := (s.core q).shadow, shadow := [], shadowSt := 0 }
      else s.core q) ∧
    (∀ d, t.die d = if d = dieOf core then { s.die d with fair := (t.die d).fair, usedAt := (t.die d).usedAt }
      else s.die d) ∧
    (let came := (t.ctx ctx).csm.filter fun u => !(s.ctx ctx).csm.contains u
    ∀ c, t.ctx c = { s.ctx c with
      csm := if c = ctx then (t.ctx c).csm else (s.ctx c).csm.filter (fun u => !came.contains u) }) ∧
    (t.ctx ctx).csm = t.csmGiven ctx ∧
    let moved := fun u a => (u ∈ (s.ctx ctx).csm ↔ u ∉ (t.ctx ctx).csm) ∧ csmUnitKey u ≤ a ∧ a < csmUnitKey u + 65536
    (∀ u a, u < 16384 → moved u a → t.byte a = 0) ∧ ∀ a, (∀ u, ¬ moved u a) → t.byte a = s.byte a

/-- A team whose image is at `place` is back on its core (R379, R380, R384): its team record, and, where one stands
there, its task record, stood in memory `s`. -/
def Restores (s : State) (m : Image) (uid place : Nat) (run : Bool) (x y : Team) : Prop :=
  let mk := m.mkey
  let f := fun off n => s.readNat mk (place + off) n
  y = { x with
    fpmode := BitVec.ofNat 4 (f 8 1), fpflags := BitVec.ofNat 5 (f 9 1), sat := (f 10 1).testBit 0
    dirty := BitVec.ofNat 512 (f 0x540 64), qrec := y.qrec, scales := y.scales, bufs := y.bufs, task := y.task } ∧
    (∀ i, tabFind y.bufs i = if i < 2 then s.readBuf mk (place + 0x440 + 128 * i) else none) ∧
    (∀ i, i < 16 → tabGet 0 y.qrec i = BitVec.ofNat 512 (f (0x40 + 64 * i) 64)) ∧
    y.scales.take (min (f 0x14 2) 2048) = s.readBytes mk (place + 0x580) (min (f 0x14 2) 2048) ∧
    (run = false → y.task = x.task) ∧
    ∀ k, run = true → x.task = some k → ∃ k', y.task = some k' ∧
      k' = { k with
        pc := w64 (f 0x1000 8), seq := BitVec.ofNat 32 (f 0x1010 4), hold := k.hold.read (f 0x1029 1)
        origin := x.readOrigin (w64 (f 0x1008 8)) k.origin, tok := k'.tok, rows := BitVec.ofNat 5 (f 0x1014 1), cols := BitVec.ofNat 9 (f 0x1015 2)
        wc := BitVec.ofNat 2 (f 0x1017 1), left := BitVec.ofNat 35 (f 0x1018 8)
        active := BitVec.ofNat 8 (f 0x1020 1), last := BitVec.ofNat 3 (f 0x1021 1)
        rs := BitVec.ofNat 4 (f 0x1021 1 / 16), rrb := BitVec.ofNat 4 (f 0x1022 1)
        semBase := BitVec.ofNat 8 (f 0x1028 1), p := k'.p, x := k'.x, v := k'.v } ∧
      (∀ i, i < 16 → tabGet .unproduced k'.tok i = s.readTok m uid (f 0x1024 4 / 4 ^ i % 4) (f 0x1010 4) i
        (tabGet .unproduced k.tok i)) ∧
      (∀ q, 1 ≤ q → q ≤ 7 → tabGet 0x3FFF k'.p q = BitVec.ofNat 16 (f (0x102E + 2 * (q - 1)) 2)) ∧
      (∀ r, 1 ≤ r → r ≤ 63 → tabGet 0 k'.x r = w64 (f (0x1040 + 8 * (r - 1)) 8)) ∧
      ∀ r, r < 512 → tabGet 0 k'.v r =
        BitVec.ofNat 1024 (leNat (((s.unblock mk (f 0x1240 64) (place + 0x1280) 256).1.drop (128 * r)).take 128))

/-- A team moves towards the die that receives it, or stays where none does (R43, R353): it has given up its core,
buffers and tiles, has taken a slot and tiles of the core on which it will land, and its deadlines are counted as the
time that is left. -/
def Moves (s t : State) (die uid : Nat) (m : Team) : Prop :=
  let dest := (s.launchOf m).bind fun l => s.receiver die m.ctx m.allot m.acct l.diemask
  (dest = none → t = s) ∧ ∀ d c, dest = some (d, c) → ∃ p,
    t = { s with teams := t.teams, cores := t.cores, packs := s.packs ++ [p] } ∧
    p.team = uid ∧ p.toDie = d ∧ p.toCore = c ∧ p.left = (m.recs.filterMap fun r =>
      if r.kind = 2 ∧ r.deadline ≠ 0 then some (r.id, r.deadline - (s.die die).gnomon.toNat) else none) ∧
    (∀ u, tabFind t.teams u = if u = uid then some { m with
      core := none, tslot := s.slotFor c, tiles := (s.tilesFree c m.ctx).take m.acct } else tabFind s.teams u) ∧
    ∀ q, t.core q = if m.core = some q then { s.core q with
      bufs := (s.core q).bufs.filter fun x => x.2.team != uid } else s.core q

/-- The teams of a list move so, one after another. -/
def MovesAll (s t : State) (die : Nat) : List (Nat × Team) → Prop
  | [] => t = s
  | (uid, m) :: ts => ∃ b, Moves s b die uid m ∧ MovesAll b t die ts

/-- At most `n` teams of a context that are not placed go to other dies (R353; log 62): each, of the launch that
placement serves (R333), where the launch is no GATHER launch, is permitted on the die, and fits none of its cores, is
placed on the core of the die that receives it, unless a context that ranks before it competes for its slot (R347). -/
def Offers (s t : State) (die ctx : Nat) : Nat → Prop
  | 0 => t = s
  | n + 1 => ∀ r, s.serveCtx ctx = r →
      (r = none → t = s) ∧ ∀ l c x, r = some (l, c, x) →
        let goes := l.gather = false ∧ permits l.diemask die = true ∧ s.coreFor die ctx l.allot l.acct = none
        let dest := s.receiver die ctx l.allot l.acct l.diemask
        (¬ goes ∨ dest = none → t = s) ∧ ∀ d q, goes → dest = some (d, q) → ∃ b, Places s b ctx l q ∧
          (s.rivals b ctx = true → t = s) ∧ (s.rivals b ctx = false → Offers b t die ctx n)

/-- The contexts of a list one after another. -/
def OffersAll (s t : State) (die : Nat) : List Nat → Prop
  | [] => t = s
  | c :: cs => ∃ b, Offers s b die c (s.unplaced c) ∧ OffersAll b t die cs

/-! ## Requests of C0x000 -/

/-- A request of the ring at its turn, with the OP that its event serves and no reserved byte set (R389). -/
def Asked (s : State) (die slot op : Nat) (named : List (Nat × Nat)) : Prop :=
  die < 4 ∧ slot < 64 ∧ ((s.die die).bells.filter fun b => b.1 == 1).head? = some (1, slot) ∧
    s.reqF die slot 0 1 = op ∧ s.reserved (reqKey die slot) 256 ([(0, 3), (4, 2)] ++ named) = false

/-- Semaphore `n` of C0x000 is signalled, unless it would overflow (R261, R389). -/
def Signals (s t : State) (n : Nat) : Prop :=
  ((s.semVal 0 n).toNat + 1 < 2 ^ 32 → Adds s t 0 n 1) ∧ (2 ^ 32 ≤ (s.semVal 0 n).toNat + 1 → t = s)

/-- The request is answered in the state `b`: STATUS is written, SEM of C0x000 is signalled, and it is off its ring
(R389).  Nothing else has changed. -/
def Answered (b t : State) (die slot status : Nat) : Prop :=
  ∃ m u, m = { b with mem := m.mem, tags := m.tags } ∧ Stored b m 0 (reqKey die slot + 1) (leBytes 1 status) ∧
    Signals m u (b.reqF die slot 2 1) ∧ t = { u with dies := t.dies } ∧
    ∀ d, t.die d = if d = die then { u.die d with bells := (u.die d).bells.erase (1, slot) } else u.die d

/-- The same of a scan request in the slot at key `k` (R360). -/
def Scanned (b t : State) (die k sem status reason off : Nat) : Prop :=
  ∃ m u, m = { b with mem := m.mem, tags := m.tags } ∧
    m.readNat 0 (k + 32) 1 = status ∧ m.readNat 0 (k + 33) 1 = reason ∧ m.readNat 0 (k + 36) 4 = off ∧
    (∀ key a, a ≠ k + 32 → a ≠ k + 33 → a < k + 36 ∨ k + 40 ≤ a → m.readByte key a = b.readByte key a) ∧
    Signals m u sem ∧ t = { u with dies := t.dies } ∧
    ∀ d, t.die d = if d = die then { u.die d with
      bells := (u.die d).bells.eraseP (fun x => x.1 == 0), scan := none } else u.die d

/-- What was written under a memory key can be read under no key any more (R391): a granule bears the name of a key
that nothing installs. -/
def Unreadable (s t : State) (i : Nat) : Prop :=
  ∀ g, tabGet 0 t.tags g = if tabGet 0 s.tags g = i + 1 then 4097 + s.nextId else tabGet 0 s.tags g

end Sys2Proof.Machine
end

