-- ==== Sys2Proof/Certificates/Slice0/Obligations.lean ====
section
/-! DEFINITION. The statements for the provers. -/

open Sys2Proof Sys2Proof.Machine

/-! ## Instructions -/

/-- R159 to R161, format S: with its operands full, each of these instructions writes its result to XD (x0
discards it, R72), goes on to the next parcel, and changes nothing else, no byte of memory, no flag and no
other register among it. R158 to R160, format SW: the same results in an active stage, with U in IMM22[0] for
MULH, DIV, REM, MIN and MAX and the shift amount added to IMM22[5:0]. -/
def Obligations.scalarInteger : Prop :=
  (∀ (s : State) (e : Env) (f : FS),
    CanIssue s e 0 [.x f.xa f.fea, .x f.xb f.feb] [.x f.xd] →
    let a := e.task.getX f.xa
    let b := e.task.getX f.xb
    let n := b.toNat % 64
    Computes (.add f) s e f.xd (a + b) 4 ∧
    Computes (.sub f) s e f.xd (a - b) 4 ∧
    Computes (.mul f) s e f.xd (a * b) 4 ∧
    Computes (.mulh f) s e f.xd (BitVec.ofInt 64 (a.toInt * b.toInt / 2 ^ 64)) 4 ∧
    Computes (.div f) s e f.xd
      (if b = 0 then 0xFFFFFFFFFFFFFFFF else BitVec.ofInt 64 (a.toInt.tdiv b.toInt)) 4 ∧
    Computes (.rem f) s e f.xd (if b = 0 then a else BitVec.ofInt 64 (a.toInt.tmod b.toInt)) 4 ∧
    Computes (.and f) s e f.xd (a &&& b) 4 ∧
    Computes (.or f) s e f.xd (a ||| b) 4 ∧
    Computes (.xor f) s e f.xd (a ^^^ b) 4 ∧
    Computes (.andn f) s e f.xd (a &&& ~~~b) 4 ∧
    Computes (.shl f) s e f.xd (a <<< n) 4 ∧
    Computes (.shr f) s e f.xd (a >>> n) 4 ∧
    Computes (.shra f) s e f.xd (a.sshiftRight n) 4 ∧
    Computes (.rotr f) s e f.xd (a.rotateRight n) 4 ∧
    Computes (.min f) s e f.xd (if a.toInt ≤ b.toInt then a else b) 4 ∧
    Computes (.max f) s e f.xd (if a.toInt ≤ b.toInt then b else a) 4) ∧
  (∀ (s : State) (e : Env) (f : FSW),
    CanIssue s e f.st.toNat [.x f.xa f.fea, .x f.xb f.feb] [.x f.xd] →
    let a := e.task.getX f.xa
    let b := e.task.getX f.xb
    let u := f.imm.getLsbD 0
    let n := (b.toNat + f.imm.toNat % 64) % 64
    Computes (.addSw f) s e f.xd (a + b) 8 ∧
    Computes (.subSw f) s e f.xd (a - b) 8 ∧
    Computes (.mulSw f) s e f.xd (a * b) 8 ∧
    Computes (.mulhSw f) s e f.xd (if u then w64 (a.toNat * b.toNat / 2 ^ 64)
      else BitVec.ofInt 64 (a.toInt * b.toInt / 2 ^ 64)) 8 ∧
    Computes (.divSw f) s e f.xd (if b = 0 then 0xFFFFFFFFFFFFFFFF
      else if u then w64 (a.toNat / b.toNat) else BitVec.ofInt 64 (a.toInt.tdiv b.toInt)) 8 ∧
    Computes (.remSw f) s e f.xd (if b = 0 then a
      else if u then w64 (a.toNat % b.toNat) else BitVec.ofInt 64 (a.toInt.tmod b.toInt)) 8 ∧
    Computes (.andSw f) s e f.xd (a &&& b) 8 ∧
    Computes (.orSw f) s e f.xd (a ||| b) 8 ∧
    Computes (.xorSw f) s e f.xd (a ^^^ b) 8 ∧
    Computes (.andnSw f) s e f.xd (a &&& ~~~b) 8 ∧
    Computes (.shlSw f) s e f.xd (a <<< n) 8 ∧
    Computes (.shrSw f) s e f.xd (a >>> n) 8 ∧
    Computes (.shraSw f) s e f.xd (a.sshiftRight n) 8 ∧
    Computes (.rotrSw f) s e f.xd (a.rotateRight n) 8 ∧
    Computes (.minSw f) s e f.xd
      (if (if u then a.toNat ≤ b.toNat else a.toInt ≤ b.toInt) then a else b) 8 ∧
    Computes (.maxSw f) s e f.xd
      (if (if u then a.toNat ≤ b.toNat else a.toInt ≤ b.toInt) then b else a) 8)

/-- R161, R162: SEL, and the immediate forms of ADD, AND, OR, XOR and MOVI, with the immediate sign-extended
(R137); and nothing else changes. R161, format S: CLZ, CTZ and POPC: n zero bits stand above bit 63 − n, n
zero bits below bit n, n bits are set; and nothing else changes. R161, format SW: the counts, the extensions,
SETC, LEA, BFX and BFI of a well-formed instruction, said bit by bit; and nothing else changes. -/
def Obligations.scalarOthers : Prop :=
  ((∀ (s : State) (e : Env) (f : FSI),
    (CanIssue s e 0 [.x f.xa f.fea] [.x f.xd] →
      let a := e.task.getX f.xa
      let i : W64 := f.imm.signExtend 64
      Computes (.addi f) s e f.xd (a + i) 4 ∧ Computes (.andi f) s e f.xd (a &&& i) 4 ∧
      Computes (.ori f) s e f.xd (a ||| i) 4 ∧ Computes (.xori f) s e f.xd (a ^^^ i) 4) ∧
    (CanIssue s e 0 [] [.x f.xd] → Computes (.movi f) s e f.xd (f.imm.signExtend 64) 4)) ∧
  (∀ (s : State) (e : Env) (f : FSW),
    (CanIssue s e f.st.toNat [.x f.xa f.fea] [.x f.xd] →
      let a := e.task.getX f.xa
      let i : W64 := f.imm.signExtend 64
      Computes (.addiSw f) s e f.xd (a + i) 8 ∧ Computes (.andiSw f) s e f.xd (a &&& i) 8 ∧
      Computes (.oriSw f) s e f.xd (a ||| i) 8 ∧ Computes (.xoriSw f) s e f.xd (a ^^^ i) 8) ∧
    (CanIssue s e f.st.toNat [] [.x f.xd] →
      Computes (.moviSw f) s e f.xd (f.imm.signExtend 64) 8) ∧
    (CanIssue s e f.st.toNat [.x f.xa f.fea, .x f.xb f.feb, .x f.xc f.fec] [.x f.xd] →
      Computes (.sel f) s e f.xd
        (if e.task.getX f.xc ≠ 0 then e.task.getX f.xa else e.task.getX f.xb) 8)) ∧
  (∀ (s : State) (e : Env) (f : FX3), CanIssue s e f.st.toNat [] [.x f.xd] →
    Computes (.moviX3 f) s e f.xd f.imm 12)) ∧
  (∀ (s : State) (e : Env) (f : FS),
    CanIssue s e 0 [.x f.xa f.fea, .x f.xb f.feb] [.x f.xd] →
    let a := e.task.getX f.xa
    (∃ n, n ≤ 64 ∧ (∀ i, 64 - n ≤ i → a.getLsbD i = false) ∧ (n < 64 → a.getLsbD (63 - n) = true) ∧
      Computes (.clz f) s e f.xd (w64 n) 4) ∧
    (∃ n, n ≤ 64 ∧ (∀ i, i < n → a.getLsbD i = false) ∧ (n < 64 → a.getLsbD n = true) ∧
      Computes (.ctz f) s e f.xd (w64 n) 4) ∧
    Computes (.popc f) s e f.xd (w64 ((List.range 64).countP fun i => a.getLsbD i)) 4) ∧
  (∀ (s : State) (e : Env) (f : FSW),
    CanIssue s e f.st.toNat [.x f.xa f.fea, .x f.xb f.feb] [.x f.xd] →
    let a := e.task.getX f.xa
    let b := e.task.getX f.xb
    let imm := f.imm.toNat
    let pos := imm % 64
    let w := imm / 64 % 128
    (∃ n, n ≤ 64 ∧ (∀ i, 64 - n ≤ i → a.getLsbD i = false) ∧ (n < 64 → a.getLsbD (63 - n) = true) ∧
      Computes (.clzSw f) s e f.xd (w64 n) 8) ∧
    (∃ n, n ≤ 64 ∧ (∀ i, i < n → a.getLsbD i = false) ∧ (n < 64 → a.getLsbD n = true) ∧
      Computes (.ctzSw f) s e f.xd (w64 n) 8) ∧
    Computes (.popcSw f) s e f.xd (w64 ((List.range 64).countP fun i => a.getLsbD i)) 8 ∧
    ((Instr.sext f).wf = true → ∃ v : W64,
      (∀ i, i < 64 → v.getLsbD i = a.getLsbD (min i (imm - 1))) ∧ Computes (.sext f) s e f.xd v 8) ∧
    ((Instr.zext f).wf = true → Computes (.zext f) s e f.xd (w64 (a.toNat % 2 ^ imm)) 8) ∧
    ((Instr.setc f).wf = true → Computes (.setc f) s e f.xd
      (if (imm = 0 ∧ a = b) ∨ (imm = 1 ∧ a ≠ b) ∨ (imm = 2 ∧ a.toInt < b.toInt) ∨
        (imm = 3 ∧ b.toInt ≤ a.toInt) ∨ (imm = 4 ∧ a.toNat < b.toNat) ∨ (imm = 5 ∧ b.toNat ≤ a.toNat)
        then 1 else 0) 8) ∧
    Computes (.lea f) s e f.xd (a + b * w64 (2 ^ (imm % 4)) + (f.imm.extractLsb' 2 20).signExtend 64) 8 ∧
    ((Instr.bfx f).wf = true → ∃ v : W64, (∀ i, i < 64 → v.getLsbD i =
        if i < w then a.getLsbD (pos + i) else f.imm.getLsbD 13 && a.getLsbD (pos + w - 1)) ∧
      Computes (.bfx f) s e f.xd v 8) ∧
    ((Instr.bfi f).wf = true → ∃ v : W64, (∀ i, i < 64 → v.getLsbD i =
        if pos ≤ i ∧ i < pos + w then b.getLsbD (i - pos) else a.getLsbD i) ∧
      Computes (.bfi f) s e f.xd v 8))

/-- R85: an instruction with an empty source whose FE bit is 1 raises FE_TRAP, and one with an empty source or
destination otherwise stays where it is. Said for ADD in both formats, for FADD in format SW and for the
vector VADD with its group of VA. That FE_TRAP comes at once where another register is empty too is the
model's choice (log 89). R83, R138: in a loop, an instruction whose stage is not active has no effect but the
PC's advance by its length, whatever its operands hold. -/
def Obligations.operandRules : Prop :=
  (∀ (s : State) (e : Env), s.issuer = some e → e.task.hold = .free →
    (∀ f : FS, e.task.stageActive 0 = true →
      (f.fea && e.task.xIsEmpty f.xa || f.feb && e.task.xIsEmpty f.xb) = true →
      Faults (.add f) s e cFeTrap 0) ∧
    (∀ f : FS, (f.fea && e.task.xIsEmpty f.xa || f.feb && e.task.xIsEmpty f.xb) = false →
      (e.task.xIsEmpty f.xa || e.task.xIsEmpty f.xb || e.task.xIsEmpty f.xd) = true →
      e.task.stageActive 0 = true → Holds (.add f) s e) ∧
    (∀ f : FSW, e.task.stageActive f.st.toNat = true →
      ((f.fea && e.task.xIsEmpty f.xa || f.feb && e.task.xIsEmpty f.xb) = true →
        Faults (.addSw f) s e cFeTrap 0) ∧
      ((f.fea && e.task.xIsEmpty f.xa || f.feb && e.task.xIsEmpty f.xb) = false →
        (e.task.xIsEmpty f.xa || e.task.xIsEmpty f.xb || e.task.xIsEmpty f.xd) = true →
        Holds (.addSw f) s e)) ∧
    (∀ (ty : FTy) (f : FSW), e.task.stageActive f.st.toNat = true →
      (f.fea && e.task.xIsEmpty f.xa || f.feb && e.task.xIsEmpty f.xb) = true →
      Faults (.faddSw ty f) s e cFeTrap 0) ∧
    (∀ f : FV, e.task.stageActive f.st.toNat = true → f.fea = true →
      e.task.vIsEmpty f.va.toNat f.g.toNat = true → Faults (.vadd f) s e cFeTrap 0)) ∧
  (∀ (s : State) (e : Env), s.issuer = some e → e.task.hold = .free →
    (∀ f : FS, e.task.stageActive 0 = false → Becomes (.add f) s e (Moved e.task · 4)) ∧
    (∀ f : FSW, e.task.stageActive f.st.toNat = false → Becomes (.addSw f) s e (Moved e.task · 8)) ∧
    (∀ f : FX3, e.task.stageActive f.st.toNat = false → Becomes (.moviX3 f) s e (Moved e.task · 12)) ∧
    (∀ fn (f : FM), e.task.stageActive f.st.toNat = false →
      Becomes (.ld fn f) s e (Moved e.task · 8) ∧ Becomes (.st fn f) s e (Moved e.task · 8)) ∧
    (∀ f : FV, e.task.stageActive f.st.toNat = false →
      Becomes (.vadd f) s e (Moved e.task · 8) ∧ Becomes (.vmov f) s e (Moved e.task · 8)) ∧
    (∀ f : FVM, e.task.stageActive f.st.toNat = false → Becomes (.vld f) s e (Moved e.task · 8)) ∧
    (∀ f : FVV, e.task.stageActive f.st.toNat = false → Becomes (.vldv f) s e (Moved e.task · 8)) ∧
    (∀ f : FE2, e.task.stageActive f.st.toNat = false → Becomes (.mzero f) s e (Moved e.task · 8)) ∧
    (∀ f : FE3, e.task.stageActive f.e.st.toNat = false →
      Becomes (.mma f) s e (Moved e.task · 12) ∧ Becomes (.cpy f) s e (Moved e.task · 12)))

/-- R169, R170: FADD to FMAX in both formats, FSETC and FFMA: the exact result of the operands, read in the
major's format, rounded once by FPMODE; FPFLAGS takes the flags of the operation and of the rounding, and
nothing else changes. R171: FCVT between the major's format and another, one rounding of the exact value; an
integer result is saturated, and sign-extended (INT32, INT64) or zero-extended (Z32, Z64) to 64 bits. -/
def Obligations.scalarFloating : Prop :=
  (∀ (s : State) (e : Env) (ty : FTy),
    let rnd := e.team.rnd
    let val := fun r => fpRead ty e.team (e.task.getX r)
    let round := fpRound ty e.team
    (∀ f : FS, CanIssue s e 0 [.x f.xa f.fea, .x f.xb f.feb] [.x f.xd] →
      let a := val f.xa
      let b := val f.xb
      Flags (.fadd ty f) s e f.xd (round (FVal.add rnd a b)) 4 ∧
      Flags (.fsub ty f) s e f.xd (round (FVal.add rnd a b.neg)) 4 ∧
      Flags (.fmul ty f) s e f.xd (round (FVal.mul a b)) 4 ∧
      Flags (.fdiv ty f) s e f.xd (round (FVal.div a b)) 4 ∧
      Flags (.fsqrt ty f) s e f.xd (round (FVal.sqrt a)) 4 ∧
      Flags (.fmin ty f) s e f.xd (round (FVal.min a b, 0)) 4 ∧
      Flags (.fmax ty f) s e f.xd (round (FVal.max a b, 0)) 4) ∧
    (∀ f : FSW, CanIssue s e f.st.toNat [.x f.xa f.fea, .x f.xb f.feb] [.x f.xd] →
      let a := val f.xa
      let b := val f.xb
      Flags (.faddSw ty f) s e f.xd (round (FVal.add rnd a b)) 8 ∧
      Flags (.fsubSw ty f) s e f.xd (round (FVal.add rnd a b.neg)) 8 ∧
      Flags (.fmulSw ty f) s e f.xd (round (FVal.mul a b)) 8 ∧
      Flags (.fdivSw ty f) s e f.xd (round (FVal.div a b)) 8 ∧
      Flags (.fsqrtSw ty f) s e f.xd (round (FVal.sqrt a)) 8 ∧
      Flags (.fminSw ty f) s e f.xd (round (FVal.min a b, 0)) 8 ∧
      Flags (.fmaxSw ty f) s e f.xd (round (FVal.max a b, 0)) 8 ∧
      Flags (.fsetc ty f) s e f.xd (match FVal.cmp a b with
        | none => (if f.imm = 1 ∨ f.imm = 4 then 1 else 0, if f.imm = 2 ∨ f.imm = 3 then flIV else 0)
        | some o => (if (f.imm = 0 ∧ o = .eq) ∨ (f.imm = 1 ∧ o ≠ .eq) ∨ (f.imm = 2 ∧ o = .lt) ∨
            (f.imm = 3 ∧ o ≠ .gt) then 1 else 0, 0)) 8) ∧
    (∀ f : FSW, CanIssue s e f.st.toNat [.x f.xa f.fea, .x f.xb f.feb, .x f.xc f.fec] [.x f.xd] →
      Flags (.ffma ty f) s e f.xd (round (FVal.fma rnd (val f.xa) (val f.xb) (val f.xc))) 8)) ∧
  (∀ (s : State) (e : Env) (ty : FTy) (f : FSW), CanIssue s e f.st.toNat [.x f.xa f.fea] [.x f.xd] →
    let v := e.task.getX f.xa
    let go := fun r => Flags (.fcvt ty f) s e f.xd r 8
    let int := fun lo hi =>
      let r := encodeInt lo hi e.team.rnd (fpRead ty e.team v)
      (BitVec.ofInt 64 r.1, r.2)
    (f.imm = 0 → go (fpRound .f32 e.team (fpRead ty e.team v, 0))) ∧
    (f.imm = 1 → go (fpRound .bf16 e.team (fpRead ty e.team v, 0))) ∧
    (f.imm = 2 → go (fpRound .f16 e.team (fpRead ty e.team v, 0))) ∧
    (f.imm = 3 → go (int (-(2 ^ 31)) (2 ^ 31 - 1))) ∧
    (f.imm = 4 → go (int (-(2 ^ 63)) (2 ^ 63 - 1))) ∧
    (f.imm = 5 → go (int 0 (2 ^ 32 - 1))) ∧
    (f.imm = 6 → go (int 0 (2 ^ 64 - 1))) ∧
    (f.imm = 8 → go (fpRound ty e.team (fpRead .f32 e.team v, 0))) ∧
    (f.imm = 9 → go (fpRound ty e.team (fpRead .bf16 e.team v, 0))) ∧
    (f.imm = 10 → go (fpRound ty e.team (fpRead .f16 e.team v, 0))) ∧
    (f.imm = 11 → go (fpRound ty e.team (FVal.ofInt (v.extractLsb' 0 32).toInt, 0))) ∧
    (f.imm = 12 → go (fpRound ty e.team (FVal.ofInt v.toInt, 0))) ∧
    (f.imm = 13 → go (fpRound ty e.team (FVal.ofInt (v.extractLsb' 0 32).toNat, 0))) ∧
    (f.imm = 14 → go (fpRound ty e.team (FVal.ofInt v.toNat, 0))))

/-- R163: BR, CALL, BC, JMP and RET to a target that R164 allows; nothing else changes but x63, the return
stack and the TLBs, as the entry says, and a fault that the target's page meets waits for its fetch. R164: a
target whose bits [1:0] are not zero raises BRANCH_TARGET at the transfer, with the target as the fault
address; so does one on a present page that is no code page, and one on a code page where the boundary bitmap
has no instruction start. Said of BR, CALL, JMP, RET, LEXIT, a BC that is taken and an LNEXT that goes round.
On an absent or malformed page the transfer is made, and the fault is raised at the target's fetch, whatever
the page has become by then. -/
def Obligations.transfers : Prop :=
  (∀ (s : State) (e : Env),
    let ok := fun p => s.badTarget e.who p = false
    (∀ f : FB, let p := e.task.pc + f.off.signExtend 64 * 4
      (CanIssue s e 0 [] [] → ok p → Leads (.br f) s e (Went s e e.task · p)) ∧
      (CanIssue s e 0 [] [.x 63] → ok p → Leads (.call f) s e fun k =>
        k = { e.task with
          pc := p, badFetch := s.targetFault e.who p, x := k.x, ret := ((e.task.pc + 4) :: e.task.ret).take 8
          held := k.held, issued := k.issued } ∧
        ∀ r, k.getX r = if r = 63 then e.task.pc + 4 else e.task.getX r)) ∧
    (∀ f : FBC, CanIssue s e 0 [.x f.xa f.fea] [] → f.cc.toNat ≤ 5 →
      let v := (e.task.getX f.xa).toInt
      let p := e.task.pc + f.off.signExtend 64 * 4
      let cond := (f.cc = 0 ∧ v = 0) ∨ (f.cc = 1 ∧ v ≠ 0) ∨ (f.cc = 2 ∧ v < 0) ∨ (f.cc = 3 ∧ 0 ≤ v) ∨
        (f.cc = 4 ∧ 0 < v) ∨ (f.cc = 5 ∧ v ≤ 0)
      (cond → ok p → Leads (.bc f) s e (Went s e e.task · p)) ∧
      (¬ cond → Becomes (.bc f) s e (Moved e.task · 4))) ∧
    (∀ f : FS, CanIssue s e 0 [.x f.xa f.fea] [] → ok (e.task.getX f.xa) →
      Leads (.jmp f) s e (Went s e e.task · (e.task.getX f.xa)) ∧
      Leads (.ret f) s e (Went s e { e.task with ret := e.task.ret.drop 1 } · (e.task.getX f.xa)))) ∧
  ((∀ (s : State) (w : Who) (p : W64), p.toNat % 4 ≠ 0 → s.badTarget w p = true) ∧
  (∀ (s : State) (w : Who) (p : W64) (l : BitVec 64) (big : Bool), p.toNat % 4 = 0 →
    p.toNat < 2 ^ 54 → s.fetchLeaf w p.toNat = .ok (l, big) →
    let key := gpaKey (leafFrame l * 65536 + p.toNat % (if big then 2 ^ 29 else 2 ^ 16))
    s.badTarget w p = true ↔ leafType l ≠ 3 ∨ s.isStart key = false) ∧
  (∀ (s : State) (w : Who) (p : W64) (c : Nat), p.toNat % 4 = 0 → p.toNat < 2 ^ 54 →
    s.fetchLeaf w p.toNat = .error c → s.badTarget w p = false ∧ s.targetFault w p = some c) ∧
  (∀ (s : State) (e : Env) (c : Nat), e.task.badFetch = some c → e.task.issued ≠ 0 →
    s.fetch e = .fault ⟨c, e.task.pc, false, true, false⟩) ∧
  (∀ (s : State) (e : Env),
    (∀ f : FB, let p := e.task.pc + f.off.signExtend 64 * 4
      s.badTarget e.who p = true →
        (CanIssue s e 0 [] [] → Faults (.br f) s e cBranchTarget p ∧ Faults (.lexit f) s e cBranchTarget p) ∧
        (CanIssue s e 0 [] [.x 63] → Faults (.call f) s e cBranchTarget p) ∧
        (s.issuer = some e → e.task.hold = .free → e.task.active ≠ 0 → e.task.left ≠ 0 →
          Faults (.lnext f) s e cBranchTarget p)) ∧
    (∀ f : FBC, CanIssue s e 0 [.x f.xa f.fea] [] →
      let v := (e.task.getX f.xa).toInt
      let p := e.task.pc + f.off.signExtend 64 * 4
      ((f.cc = 0 ∧ v = 0) ∨ (f.cc = 1 ∧ v ≠ 0) ∨ (f.cc = 2 ∧ v < 0) ∨ (f.cc = 3 ∧ 0 ≤ v) ∨
        (f.cc = 4 ∧ 0 < v) ∨ (f.cc = 5 ∧ v ≤ 0)) →
      s.badTarget e.who p = true → Faults (.bc f) s e cBranchTarget p) ∧
    (∀ f : FS, CanIssue s e 0 [.x f.xa f.fea] [] → s.badTarget e.who (e.task.getX f.xa) = true →
      Faults (.jmp f) s e cBranchTarget (e.task.getX f.xa) ∧
      Faults (.ret f) s e cBranchTarget (e.task.getX f.xa))))

/-- R165, R166, R167: LSTART, LNEXT and LEXIT set LOOPC, LSTAGE and the PC as their pseudocode does, and
change nothing else; an LNEXT that goes round, and an LEXIT, to a target that R164 refuses raise BRANCH_TARGET
with the target. That LSTART with a count of 0 goes to EXIT with no check of the target is the model's reading
(log 91). -/
def Obligations.loops : Prop :=
  ∀ (s : State) (e : Env),
    (∀ f : FSW, CanIssue s e f.st.toNat [.x f.xa f.fea] [] →
      let n := (e.task.getX f.xa).toNat % 2 ^ 32
      let last := f.imm.toNat % 8
      (n = 0 → Becomes (.lstart f) s e fun k => k = { e.task with
        active := 0, last := 0, rs := 0, rrb := 0, left := 0
        pc := e.task.pc + 4 * w64 (f.imm.toNat / 128), held := k.held, issued := k.issued }) ∧
      (n ≠ 0 → Becomes (.lstart f) s e fun k => k = { e.task with
        left := BitVec.ofNat 35 (n + last - 1), last := BitVec.ofNat 3 last
        rs := BitVec.ofNat 4 (f.imm.toNat / 8), rrb := 0, active := 1, pc := e.task.pc + 8
        held := k.held, issued := k.issued })) ∧
    (∀ f : FB, s.issuer = some e → e.task.hold = .free →
      let p := e.task.pc + f.off.signExtend 64 * 4
      (e.task.active = 0 → Becomes (.lnext f) s e (Moved e.task · 4)) ∧
      (e.task.active ≠ 0 → e.task.left = 0 → Becomes (.lnext f) s e fun k => k = { e.task with
        active := 0, last := 0, rs := 0, rrb := 0, left := 0, pc := e.task.pc + 4
        held := k.held, issued := k.issued }) ∧
      (e.task.active ≠ 0 → e.task.left ≠ 0 → s.badTarget e.who p = false →
        Leads (.lnext f) s e fun k => k = { e.task with
          left := e.task.left - 1, active := k.active, rrb := e.task.rrb + e.task.rs, pc := p
          badFetch := s.targetFault e.who p, held := k.held, issued := k.issued } ∧
          ∀ i, i < 8 → k.active.getLsbD i = (decide (i ≤ e.task.last.toNat) &&
            if i = 0 then decide (e.task.last.toNat < e.task.left.toNat) else e.task.active.getLsbD (i - 1))) ∧
      (CanIssue s e 0 [] [] → s.badTarget e.who p = false → Leads (.lexit f) s e fun k =>
        k = { e.task with
          active := 0, last := 0, rs := 0, rrb := 0, left := 0, pc := p
          badFetch := s.targetFault e.who p, held := k.held, issued := k.issued }) ∧
      (s.badTarget e.who p = true →
        (e.task.active ≠ 0 → e.task.left ≠ 0 → Faults (.lnext f) s e cBranchTarget p) ∧
        (CanIssue s e 0 [] [] → Faults (.lexit f) s e cBranchTarget p)))

/-- R34, R86, R173: END, once the task's older accesses have translated (log 18): the task is gone and its
origin record freed; results in flight, and what loads and commands would fill of it, are discarded. R32, R33,
R35, R37, R174: SPAWN writes a ready record of KIND 0 with the registers that the mask names, behind the
team's earlier ready tasks, in free units of the pool, and its task goes on. R175: YIELD ends the task and
leaves a ready continuation of KIND 4 at the next instruction. R38, R40, R176: TRAP raises USER_TRAP: the task
is aborted, and a handler task of its team stands ready at FHANDLER with the code in x1, the PC in x2, the
trap value in x3 and its origin in x4. Every older load and store of the task stays in its queue, which is the
model's reading of R38, R131 and R365 (logs 82, 83). -/
def Obligations.tasks : Prop :=
  (∀ (s : State) (e : Env), s.translated e.core e.uid = true →
    (∀ f : FS, CanIssue s e 0 [] [] → ∃ (t : State), exec (.endTask f) s = .next t ∧ Ended s t e [] []) ∧
    (∀ f : FSW, CanIssue s e f.st.toNat [] [] → ∃ (t : State), exec (.endTaskSw f) s = .next t ∧ Ended s t e [] [])) ∧
  (∀ (s : State) (e : Env) (mask : W64), e.task.liveFull mask = true → s.translated e.core e.uid = true →
    e.team.records < 1024 → s.poolRoom e.team.ctx mask = true →
    let s1 := { s with nextId := s.nextId + 1 }
    let made := fun (i : Instr) (target : W64) (n : Nat) => ∃ b t k r, exec i s = .next t ∧
      OnlyTeam s1 b e { e.team with
        task := some k, recs := e.team.recs ++ [r], ready := e.team.ready ++ [s.nextId] } ∧
      Recorded b t (s.keyOn e.core e.team.ctx) { e.team with recs := e.team.recs ++ [r] } r ∧
      Pooled s e.core r e.team.ctx ∧ Moved e.task k n ∧ Carries e r s.nextId target mask 0 1
    (∀ f : FS, CanIssue s e 0 [.x f.xa f.fea, .x f.xb f.feb] [] → mask = e.task.getX f.xa →
      made (.spawn f) (e.task.getX f.xb) 4) ∧
    (∀ f : FSW, CanIssue s e f.st.toNat [.x f.xa f.fea] [] → mask = e.task.getX f.xa →
      made (.spawnSw f) (e.task.pc + f.imm.signExtend 64 * 4) 8)) ∧
  (∀ (s : State) (e : Env) (mask : W64), e.task.liveFull mask = true → s.translated e.core e.uid = true →
    s.poolRoom e.team.ctx mask = true →
    let s1 := { s with nextId := s.nextId + 1 }
    let made := fun (i : Instr) (n : Nat) => ∃ t r, exec i s = .next t ∧ Ended s1 t e [r] [r.id] ∧
      Carries e r s.nextId (e.task.pc + w64 n) mask 4 1
    (∀ f : FS, CanIssue s e 0 [.x f.xa f.fea] [] → mask = e.task.getX f.xa → made (.yield f) 4) ∧
    (∀ f : FSW, CanIssue s e f.st.toNat [.x f.xa f.fea] [] → mask = e.task.getX f.xa →
      made (.yieldSw f) 8)) ∧
  (∀ (s : State) (e : Env), Handled s e →
    (∀ f : FS, CanIssue s e 0 [.x f.xa f.fea] [] →
      ∃ (t : State), exec (.trap f) s = .next t ∧ Passed s t e 0x70 (e.task.getX f.xa)) ∧
    (∀ f : FSW, CanIssue s e f.st.toNat [] [] →
      ∃ (t : State), exec (.trapSw f) s = .next t ∧ Passed s t e 0x70 (f.imm.signExtend 64)))

/-- R179: NOP does nothing, and nor does BREAK where DEBUG is 0 in the active plane. R179, R322: BREAK where
DEBUG is 1 and the fault queue has room: a record with code 0, a report to the debug agent, and the task
stands before its next instruction until the record is released. -/
def Obligations.nopBreak : Prop :=
  (∀ (s : State) (e : Env),
    (∀ f : FS, CanIssue s e 0 [] [] → Becomes (.nop f) s e (Moved e.task · 4) ∧
      ((tabGet 0 (s.core e.core).plane 7).getLsbD 0 = false →
        Becomes (.breakTask f) s e (Moved e.task · 4))) ∧
    (∀ f : FSW, CanIssue s e f.st.toNat [] [] → Becomes (.nopSw f) s e (Moved e.task · 8) ∧
      ((tabGet 0 (s.core e.core).plane 7).getLsbD 0 = false →
        Becomes (.breakTaskSw f) s e (Moved e.task · 8)))) ∧
  (∀ (s : State) (e : Env), (tabGet 0 (s.core e.core).plane 7).getLsbD 0 = true →
    (s.die e.die).fqFull = false →
    let stops := fun (i : Instr) (n : Nat) => ∃ t m k r, exec i s = .next t ∧
      tabFind t.teams e.uid = some m ∧ m.task = some k ∧
      k = { e.task with pc := e.task.pc + w64 n, hold := .brk, held := k.held, issued := k.issued } ∧
      (t.die e.die).fq = (s.die e.die).fq ++ [r] ∧ r.code = 0 ∧ r.pc = e.task.pc ∧ r.team = e.uid ∧
      t.outbox = s.outbox ++ [.breakReport e.uid] ∧ t.focus = none ∧ t.cores = s.cores ∧ t.ctxs = s.ctxs
    (∀ f : FS, CanIssue s e 0 [] [] → stops (.breakTask f) 4) ∧
    (∀ f : FSW, CanIssue s e f.st.toNat [] [] → stops (.breakTaskSw f) 8))

/-- R88 to R92, R177: RDCR of each control register, with reserved bits 0. R61, R76, R89, R91, R178: WRCR of
VSHAPE, FPMODE, FPFLAGS, MSTAT and SEMBASE. A VSHAPE outside R76 raises SHAPE. FPMODE's SEED loads the core's
LFSR, where 0 loads 1; 1 bits clear flags. -/
def Obligations.controlRegisters : Prop :=
  (∀ (s : State) (e : Env) (f : FSW), CanIssue s e f.st.toNat [] [.x f.xd] →
    let k := e.task
    let m := e.team
    let reads := fun n v => f.imm = n → Computes (.rdcr f) s e f.xd v 8
    reads 0x000 (k.rows.zeroExtend 64 ||| k.cols.zeroExtend 64 <<< 8 ||| k.wc.zeroExtend 64 <<< 24) ∧
    reads 0x001 (m.fpmode.zeroExtend 64 ||| (s.core e.core).lfsr.zeroExtend 64 <<< 32) ∧
    reads 0x002 (m.fpflags.zeroExtend 64) ∧
    reads 0x003 (if m.sat then 1 else 0) ∧
    reads 0x004 (w64 (m.scales.length +
      (if m.sqPend.length < 256 then m.sqPend.length else (Config.manyPend m.sqPend.length).toNat) * 2 ^ 16)) ∧
    reads 0x005 (k.left.zeroExtend 64) ∧
    reads 0x006 (k.active.zeroExtend 64 ||| k.last.zeroExtend 64 <<< 8 ||| k.rs.zeroExtend 64 <<< 12 |||
      k.rrb.zeroExtend 64 <<< 16) ∧
    reads 0x007 (k.semBase.zeroExtend 64) ∧
    reads 0x008 (k.seq.zeroExtend 64) ∧
    reads 0x009 (w64 (m.index + m.slot * 2 ^ 16)) ∧
    reads 0x00A (w64 (e.core + s.pkg.toNat * 2 ^ 16)) ∧
    reads 0x00B (w64 m.ctx) ∧
    (∀ j, j < 4 → reads (BitVec.ofNat 22 (0x010 + j)) (match m.groups[j]? with
      | some (g, count, rank) => w64 (rank + count * 2 ^ 16 + g * 2 ^ 40 + 2 ^ 63)
      | none => 0)) ∧
    reads 0x018 (s.die e.die).gnomon) ∧
  (∀ (s : State) (e : Env) (f : FSW), CanIssue s e f.st.toNat [.x f.xa f.fea] [] →
    let v := e.task.getX f.xa
    let rows := v.toNat % 32
    let cols := v.toNat / 2 ^ 8 % 2 ^ 9
    let wc := v.toNat / 2 ^ 24 % 4
    let legal := 1 ≤ rows ∧ rows ≤ 16 ∧ 1 ≤ cols ∧ cols ≤ 32 * 2 ^ wc
    let sets := fun (m : Team → Team) => ∃ t k, exec (.wrcr f) s = .next t ∧ Moved e.task k 8 ∧
      OnlyTeam s t e (m { e.team with task := some k })
    (f.imm = 0x000 → legal → Becomes (.wrcr f) s e fun k => k = { e.task with
      rows := BitVec.ofNat 5 rows, cols := BitVec.ofNat 9 cols, wc := BitVec.ofNat 2 wc
      pc := e.task.pc + 8, held := k.held, issued := k.issued }) ∧
    (f.imm = 0x000 → ¬ legal → Faults (.wrcr f) s e cShape 0) ∧
    (f.imm = 0x001 → ∃ t k, exec (.wrcr f) s = .next t ∧ Moved e.task k 8 ∧
      OnlyTeam { s with cores := t.cores } t e { e.team with task := some k, fpmode := v.extractLsb' 0 4 } ∧
      ∀ c, t.core c = if c = e.core then
        { s.core c with lfsr := if v.extractLsb' 32 32 = 0 then 1 else v.extractLsb' 32 32 } else s.core c) ∧
    (f.imm = 0x002 → sets fun m => { m with fpflags := m.fpflags &&& ~~~ v.extractLsb' 0 5 }) ∧
    (f.imm = 0x003 → sets fun m => { m with sat := m.sat && !v.getLsbD 0 }) ∧
    (f.imm = 0x007 → Becomes (.wrcr f) s e fun k => k = { e.task with
      semBase := v.extractLsb' 0 8, pc := e.task.pc + 8, held := k.held, issued := k.issued }))

/-- R185, R186: the floating-point instructions of major 0x20, element by element, with the scalar in place of
VB where SB is 1 (R183); one rounding each, and none for VABS, VNEG and VCPYS, which set no flag. R84, R187,
R188: the special functions leave their destination group empty until the result arrives. -/
def Obligations.vectorFloat : Prop :=
  (∀ (s : State) (e : Env) (f : FV), e.task.Legal → f.vd.toNat + f.g.toNat ≤ 32 →
    let st := f.st.toNat
    let g := f.g.toNat
    let m := e.team
    let sb := f.mod.getLsbD 0
    let va := SrcOp.v f.va.toNat g f.fea
    let vb := if sb then SrcOp.x f.xs f.fes else SrcOp.v f.vb.toNat g f.feb
    let vc := SrcOp.v f.vc.toNat g f.fec
    let vd := [DstOp.v f.vd.toNat g]
    let w := FV.w f
    let val := fun n : Nat => FV.val f m n
    let a := fun c j => val (e.task.elem w c f.va.toNat j)
    let b := fun c j => val (if sb then (e.task.getX f.xs).toNat % 2 ^ w else e.task.elem w c f.vb.toNat j)
    let d := fun c j => val (e.task.elem w c f.vc.toNat j)
    let exact := fun x : FVal => (((FV.fmt f).encode .rne false x).1, (0 : Fl))
    (CanIssue s e st [va, vb] vd →
      Elements (.vadd f) s e f (fun c j => FV.round f m (FVal.add m.rnd (a c j) (b c j))) ∧
      Elements (.vsub f) s e f (fun c j => FV.round f m (FVal.add m.rnd (a c j) (b c j).neg)) ∧
      Elements (.vmul f) s e f (fun c j => FV.round f m (FVal.mul (a c j) (b c j))) ∧
      Elements (.vmin f) s e f (fun c j => FV.round f m (FVal.min (a c j) (b c j), 0)) ∧
      Elements (.vmax f) s e f (fun c j => FV.round f m (FVal.max (a c j) (b c j), 0)) ∧
      Elements (.vcpys f) s e f (fun c j => exact
        (if (b c j).isNan then .nan else (a c j).withSign (b c j).isNeg))) ∧
    (CanIssue s e st [va, vb, vc] vd →
      Elements (.vfma f) s e f (fun c j => FV.round f m (FVal.fma m.rnd (a c j) (b c j) (d c j))) ∧
      Elements (.vfms f) s e f (fun c j => FV.round f m (FVal.fma m.rnd (a c j) (b c j) (d c j).neg))) ∧
    (CanIssue s e st [va] vd →
      Elements (.vabs f) s e f (fun c j => exact ((a c j).withSign false)) ∧
      Elements (.vneg f) s e f (fun c j => exact (a c j).neg))) ∧
  (∀ (s : State) (e : Env) (f : FV), e.task.Legal → f.vd.toNat + f.g.toNat ≤ 32 →
    CanIssue s e f.st.toNat [.v f.va.toNat f.g.toNat f.fea] [.v f.vd.toNat f.g.toNat] →
    Special (.vrcp f) s e f sfuRcp ∧ Special (.vrsq f) s e f sfuRsq ∧ Special (.vexp2 f) s e f sfuExp2 ∧
    Special (.vlog2 f) s e f sfuLog2 ∧ Special (.vtanh f) s e f sfuTanh ∧ Special (.vsin f) s e f sfuSin ∧
    Special (.vcos f) s e f sfuCos)

/-- R189, R190: the integer instructions of major 0x22: exact results, saturated to the type's range where
MOD[1] is 1 and wrapped otherwise; shifts by the count modulo the width; no flag. R191, R192, R200: VCMP gives
all ones or zeros, VSEL selects bit by bit, and VMOV, VSPL and VIDX copy elements, spread a scalar and number
the elements from it. -/
def Obligations.vectorInteger : Prop :=
  (∀ (s : State) (e : Env) (f : FV), e.task.Legal → f.vd.toNat + f.g.toNat ≤ 32 →
    let st := f.st.toNat
    let g := f.g.toNat
    let sb := f.mod.getLsbD 0
    let va := SrcOp.v f.va.toNat g f.fea
    let vb := if sb then SrcOp.x f.xs f.fes else SrcOp.v f.vb.toNat g f.feb
    let vc := SrcOp.v f.vc.toNat g f.fec
    let vd := [DstOp.v f.vd.toNat g]
    let w := FV.w f
    let a := fun c j => e.task.elem w c f.va.toNat j
    let b := fun c j => if sb then (e.task.getX f.xs).toNat % 2 ^ w else e.task.elem w c f.vb.toNat j
    let d := fun c j => e.task.elem w c f.vc.toNat j
    let signed := isSigned f.t.toNat f.u
    let int := fun n : Nat => if signed ∧ 2 ^ (w - 1) ≤ n then (n : Int) - 2 ^ w else n
    let lo : Int := if signed then -(2 ^ (w - 1)) else 0
    let hi : Int := if signed then 2 ^ (w - 1) - 1 else 2 ^ w - 1
    let res := fun v : Int =>
      (((if f.mod.getLsbD 1 then max lo (min hi v) else v) % 2 ^ w).toNat, (0 : Fl))
    let bits := fun n : Nat => (n, (0 : Fl))
    (CanIssue s e st [va, vb] vd →
      Elements (.viadd f) s e f (fun c j => res (int (a c j) + int (b c j))) ∧
      Elements (.visub f) s e f (fun c j => res (int (a c j) - int (b c j))) ∧
      Elements (.vimul f) s e f (fun c j => res (int (a c j) * int (b c j))) ∧
      Elements (.vand f) s e f (fun c j => bits (a c j &&& b c j)) ∧
      Elements (.vor f) s e f (fun c j => bits (a c j ||| b c j)) ∧
      Elements (.vxor f) s e f (fun c j => bits (a c j ^^^ b c j)) ∧
      Elements (.vshl f) s e f (fun c j => bits (a c j * 2 ^ (b c j % w))) ∧
      Elements (.vshr f) s e f (fun c j => bits (a c j / 2 ^ (b c j % w))) ∧
      Elements (.vshra f) s e f (fun c j => bits
        (((if 2 ^ (w - 1) ≤ a c j then (a c j : Int) - 2 ^ w else a c j) / 2 ^ (b c j % w) % 2 ^ w).toNat)) ∧
      Elements (.vimin f) s e f (fun c j => bits (if int (a c j) ≤ int (b c j) then a c j else b c j)) ∧
      Elements (.vimax f) s e f (fun c j => bits (if int (a c j) ≤ int (b c j) then b c j else a c j))) ∧
    (CanIssue s e st [va, vb, vc] vd →
      Elements (.vimad f) s e f (fun c j => res (int (a c j) * int (b c j) + int (d c j)))) ∧
    (CanIssue s e st [va] vd →
      Elements (.vnot f) s e f (fun c j => bits (2 ^ w - 1 - a c j)) ∧
      Elements (.viabs f) s e f (fun c j => res (int (a c j)).natAbs))) ∧
  (∀ (s : State) (e : Env) (f : FV), e.task.Legal → f.vd.toNat + f.g.toNat ≤ 32 →
    let st := f.st.toNat
    let g := f.g.toNat
    let m := e.team
    let sb := f.mod.getLsbD 0
    let va := SrcOp.v f.va.toNat g f.fea
    let vb := SrcOp.v f.vb.toNat g f.feb
    let vd := [DstOp.v f.vd.toNat g]
    let w := FV.w f
    let x := (e.task.getX f.xs).toNat
    let a := fun c j => e.task.elem w c f.va.toNat j
    let b := fun c j => e.task.elem w c f.vb.toNat j
    let d := fun c j => e.task.elem w c f.vc.toNat j
    let cond := f.mod.toNat / 2 % 8
    let order := fun p q : Nat => match ffmt f.t.toNat with
      | some _ => FVal.cmp (FV.val f m p) (FV.val f m q)
      | none => some (compare (FV.int f p) (FV.int f q))
    let holds := fun o : Option Ordering => match o with
      | none => cond = 1 ∨ cond = 6
      | some o => (cond = 0 ∧ o = .eq) ∨ (cond = 1 ∧ o ≠ .eq) ∨ (cond = 2 ∧ o = .lt) ∨
          (cond = 3 ∧ o ≠ .gt) ∨ (cond = 4 ∧ o = .gt) ∨ (cond = 5 ∧ o ≠ .lt)
    (CanIssue s e st [va, if sb then SrcOp.x f.xs f.fes else vb] vd → ∀ r : Nat → Nat → Nat × Fl,
      (∀ c j, let o := order (a c j) (if sb then x % 2 ^ w else b c j)
        (holds o → (r c j).1 = 2 ^ w - 1) ∧ (¬ holds o → (r c j).1 = 0) ∧
        (r c j).2 = if o = none ∧ 2 ≤ cond ∧ cond ≤ 5 then flIV else 0) →
      Elements (.vcmp f) s e f r) ∧
    (CanIssue s e st [va, vb, .v f.vc.toNat g f.fec] vd →
      Elements (.vsel f) s e f (fun c j =>
        ((a c j &&& d c j) ||| (b c j &&& (2 ^ w - 1 - d c j)), 0))) ∧
    (CanIssue s e st [va] vd → Elements (.vmov f) s e f (fun c j => (a c j, 0))) ∧
    (CanIssue s e st [.x f.xs f.fes] vd →
      Elements (.vspl f) s e f (fun _ _ => (x, 0)) ∧ Elements (.vidx f) s e f (fun _ j => (j + x, 0))))

/-- R193, R194, R196: VCVT and VDQT, over groups of the two widths; VCVT rounds once from the exact value, by
stochastic draws where SR is 1 and the format does not widen, and leaves the LFSR after the draws. A shape
that the wider format does not divide, a predicate of another width, and for VDQT rows or tiles of no whole
blocks raise SHAPE. R54, R195: VQNT: each block of 32 elements that has an active one gets a scale byte in VC
and its quantised elements in VD, with the flags of each; the other elements of VD's tile are zeroed under Z
or left (log 94), and the other bytes of VC and every other bit of every register are left. Where VC lies in
the destination group no value is stated for the two. A shape that the wider format does not divide, a
predicate of another width, and rows or tiles of no whole blocks raise SHAPE. -/
def Obligations.vectorConvert : Prop :=
  (∀ (s : State) (e : Env) (f : FV) (cw : Nat), e.task.Legal →
    let k := e.task
    let src := f.mod.toNat % 16
    let ws := fmtWidth src
    let wd := FV.w f
    let cs := k.shapeBits / ws
    let cd := k.shapeBits / wd
    let va := SrcOp.v f.va.toNat (convRegs f.g.toNat ws wd) f.fea
    let d := f.vd.toNat
    let gd := convRegs f.g.toNat wd ws
    let n := f.g.toNat * k.rows.toNat * cw
    let act := k.activeN f.p.toNat n
    (k.shapeBits % max ws wd ≠ 0 ∨ k.predFits f.p.toNat wd = false →
      (CanIssue s e f.st.toNat [va] [.v d gd] → Faults (.vcvt f) s e cShape 0) ∧
      (CanIssue s e f.st.toNat [va, .v f.vc.toNat 1 f.fec] [.v d gd] → Faults (.vdqt f) s e cShape 0)) ∧
    (k.shapeBits = cw * max ws wd → cs % 32 ≠ 0 ∨ n % 32 ≠ 0 →
      CanIssue s e f.st.toNat [va, .v f.vc.toNat 1 f.fec] [.v d gd] → Faults (.vdqt f) s e cShape 0) ∧
    (d + gd ≤ 32 → k.shapeBits = cw * max ws wd → k.predFits f.p.toNat wd = true →
      CanIssue s e f.st.toNat [va] [.v d gd] →
      let rs := roundings (e.team.sr && !widens src f.t.toNat f.u) e.team.rnd n (s.core e.core).lfsr
      let op := fun j => encodeTo f.t.toNat f.u (rs.1.getD j .rne) e.team.ftz
        (widen src false e.team.ftz 0x7F (k.elem ws cs f.va.toNat j))
      ∃ t k', exec (.vcvt f) s = .next t ∧ VMoved k k' 8 ∧
        Tile k k' wd cd d n (framed f.z act fun j => (op j).1) ∧
        OnlyTeam { s with cores := t.cores } t e { e.team with
          task := some k', fpflags := e.team.fpflags ||| flagsOf act fun j => (op j).2 } ∧
        ∀ q, t.core q = if q = e.core then { s.core q with lfsr := rs.2 } else s.core q) ∧
    (d + gd ≤ 32 → k.shapeBits = cw * max ws wd → k.predFits f.p.toNat wd = true →
      CanIssue s e f.st.toNat [va, .v f.vc.toNat 1 f.fec] [.v d gd] → cs % 32 = 0 → n % 32 = 0 →
      let op := fun j => encodeTo f.t.toNat false e.team.rnd e.team.ftz
        (widen src true e.team.ftz (k.elemRC 8 f.vc.toNat (j / 32 / 128) (j / 32 % 128))
          (k.elem ws cs f.va.toNat j))
      TileOp (.vdqt f) s e wd cd d n (framed f.z act fun j => (op j).1) (flagsOf act fun j => (op j).2))) ∧
  (∀ (s : State) (e : Env) (f : FV) (cw : Nat), e.task.Legal →
    let k := e.task
    let src := f.mod.toNat % 16
    let ws := fmtWidth src
    let wd := FV.w f
    let cs := k.shapeBits / ws
    let cd := k.shapeBits / wd
    let d := f.vd.toNat
    let vc := f.vc.toNat
    let gd := convRegs f.g.toNat wd ws
    let n := f.g.toNat * k.rows.toNat * cw
    let act := k.activeN f.p.toNat n
    let rs := roundings e.team.sr e.team.rnd n (s.core e.core).lfsr
    let val := fun j => widen src false e.team.ftz 0x7F (k.elem ws cs f.va.toNat j)
    let x := fun b => blockScale f.t.toNat
      ((List.range (min 32 (act - 32 * b))).map fun j => val (32 * b + j))
    let q := fun j => quantElem f.t.toNat (x (j / 32)) (rs.1.getD j .rne) e.team.ftz (val j)
    let apart := vc < d ∨ d + gd ≤ vc
    CanIssue s e f.st.toNat [.v f.va.toNat (convRegs f.g.toNat ws wd) f.fea] [.v d gd, .v vc 1] →
    (k.shapeBits % max ws wd ≠ 0 ∨ k.predFits f.p.toNat wd = false → Faults (.vqnt f) s e cShape 0) ∧
    (k.shapeBits = cw * max ws wd → cd % 32 ≠ 0 ∨ n % 32 ≠ 0 → Faults (.vqnt f) s e cShape 0) ∧
    (d + gd ≤ 32 → k.shapeBits = cw * max ws wd → k.predFits f.p.toNat wd = true → cd % 32 = 0 → n % 32 = 0 →
      ∃ t k', exec (.vqnt f) s = .next t ∧ VMoved k k' 8 ∧
        OnlyTeam { s with cores := t.cores } t e { e.team with
          task := some k', fpflags := e.team.fpflags ||| flagsOf act fun j => (q j).2 } ∧
        (∀ c, t.core c = if c = e.core then { s.core c with lfsr := rs.2 } else s.core c) ∧
        (apart → ∀ j, j < n → k'.elem wd cd d j = match framed f.z act (fun j => (q j).1) j with
          | some v => v % 2 ^ wd
          | none => k.elem wd cd d j) ∧
        (apart → ∀ b, b < 2048 → k'.elemRC 8 vc (b / 128) (b % 128) =
          if 32 * b < act then scaleCode (x b) % 256 else k.elemRC 8 vc (b / 128) (b % 128)) ∧
        ∀ r row b, r < 32 → row < 16 → b < 1024 → r ≠ vc →
          (r < d ∨ k.rows.toNat ≤ row ∨ cd * wd ≤ b ∨ n ≤ ((r - d) * k.rows.toNat + row) * cd + b / wd) →
          (k'.vrow r row).getLsbD b = (k.vrow r row).getLsbD b))

/-- R71, R197, R198: VRSUM, VRMAX and VRMIN of each row's active elements, to every element of the row where
MOD[0] is 1 and to its first otherwise; VSCAN's inclusive prefix sums. -/
def Obligations.vectorReduce : Prop :=
  ∀ (s : State) (e : Env) (f : FV) (c : Nat), e.task.Legal → f.vd.toNat + f.g.toNat ≤ 32 →
    e.task.shapeBits = c * FV.w f → e.task.predFits f.p.toNat (FV.w f) = true →
    CanIssue s e f.st.toNat [.v f.va.toNat f.g.toNat f.fea] [.v f.vd.toNat f.g.toNat] →
    let k := e.task
    let m := e.team
    let w := FV.w f
    let d := f.vd.toNat
    let lines := f.g.toNat * k.rows.toNat
    let n := lines * c
    let act := k.activeN f.p.toNat n
    let row := fun r => (List.range (min c (act - r * c))).map fun j => k.elem w c f.va.toNat (r * c + j)
    let all := f.mod.getLsbD 0
    let fp := (ffmt f.t.toNat).isSome
    let code := fun x => ((FV.fmt f).encode .rne false x).1
    let range := intRange f.t.toNat f.u
    let whole := fun v : Int => (v % 2 ^ w).toNat
    let red := fun (i : Instr) (op : List Nat → Nat × Fl) =>
      TileOp i s e w c d n (fun j => if all ∨ j % c = 0 then some (op (row (j / c))).1 else none)
        (flagsOf lines fun r => (op (row r)).2)
    red (.vrsum f) (fun xs => if fp then treeSum (FV.addCodes f m) (xs.map (FV.clean f m))
      else (whole (xs.map (FV.int f)).sum, 0)) ∧
    red (.vrmax f) (fun xs => (if fp then code ((xs.map (FV.val f m)).foldl FVal.max (.inf true))
      else whole ((xs.map (FV.int f)).foldl max range.1), 0)) ∧
    red (.vrmin f) (fun xs => (if fp then code ((xs.map (FV.val f m)).foldl FVal.min (.inf false))
      else whole ((xs.map (FV.int f)).foldl min range.2), 0)) ∧
    (let scan := fun r => if fp then scanRow (FV.addCodes f m) ((row r).map (FV.clean f m))
      else scanRow (fun a b => (whole ((a : Int) + b), 0)) (row r)
    TileOp (.vscan f) s e w c d n
      (framed f.z act fun j => ((scan (j / c)).1.getD (j % c) 0)) (flagsOf lines fun r => (scan r).2))

/-- R199: VTRN, VBCR, VBCC, VPERM, VSLD and VROT, register by register of the group, from the registers as
they stood; an operand out of range raises SHAPE. -/
def Obligations.vectorRearrange : Prop :=
  ∀ (s : State) (e : Env) (f : FV) (c : Nat), e.task.Legal → f.vd.toNat + f.g.toNat ≤ 32 →
    e.task.shapeBits = c * FV.w f →
    let k := e.task
    let w := FV.w f
    let d := f.vd.toNat
    let rows := k.rows.toNat
    let x := (k.getX f.xs).toNat
    let a := fun g r j => k.elemRC w (f.va.toNat + g) r j
    let b := fun g r j => k.elemRC w (f.vb.toNat + g) r j
    let va := SrcOp.v f.va.toNat f.g.toNat f.fea
    let vb := SrcOp.v f.vb.toNat f.g.toNat f.feb
    let xs := SrcOp.x f.xs f.fes
    let vd := [DstOp.v d f.g.toNat]
    let moves := fun (i : Instr) (val : Nat → Nat → Nat → Nat) =>
      TileOp i s e w c d (f.g.toNat * rows * c)
        (fun j => some (val (j / (rows * c)) (j % (rows * c) / c) (j % c))) 0
    (CanIssue s e f.st.toNat [va] vd →
      (c ≤ 16 → ∃ t k', exec (.vtrn f) s = .next t ∧ VMoved k k' 8 ∧ OnlyTask s t e k' ∧
        (∀ g r j, g < f.g.toNat → r < rows → j < c → k'.elemRC w (d + g) j r = a g r j) ∧
        (∀ r row b, r < 32 → row < 16 → (r < d ∨ d + f.g.toNat ≤ r ∨ c ≤ row ∨ rows * w ≤ b) →
          (k'.vrow r row).getLsbD b = (k.vrow r row).getLsbD b)) ∧
      (16 < c → Faults (.vtrn f) s e cShape 0)) ∧
    (CanIssue s e f.st.toNat [va, xs] vd →
      (x < rows → moves (.vbcr f) fun g _ j => a g x j) ∧ (rows ≤ x → Faults (.vbcr f) s e cShape 0) ∧
      (x < c → moves (.vbcc f) fun g r _ => a g r x) ∧ (c ≤ x → Faults (.vbcc f) s e cShape 0) ∧
      moves (.vrot f) fun g r j =>
        if f.mod.getLsbD 0 then a g ((r + x) % rows) j else a g r ((j + x) % c)) ∧
    (CanIssue s e f.st.toNat [va, vb] vd →
      moves (.vperm f) fun g r j => if b g r j < c then a g r (b g r j) else 0) ∧
    (CanIssue s e f.st.toNat [va, vb, xs] vd →
      (x ≤ c → moves (.vsld f) fun g r j => if j + x < c then a g r (j + x) else b g r (j + x - c)) ∧
      (c < x → Faults (.vsld f) s e cShape 0))

/-- R200: VMOV of whole registers, VEXT and VINS; a position outside the tile raises SHAPE. R76, R78, R201:
PSET, PWHL, the three PMOVs and VSETS; a VSETS outside R76 raises SHAPE. -/
def Obligations.vectorMoves : Prop :=
  (∀ (s : State) (e : Env) (f : FV), f.vd.toNat + f.g.toNat ≤ 32 →
    let k := e.task
    let w := FV.w f
    let row := f.vb.toNat % 16
    let col := f.vc.toNat * 8 + f.mod.toNat % 8
    let old := k.elemRC w f.va.toNat row col
    (CanIssue s e f.st.toNat [.v f.va.toNat f.g.toNat f.fea] [.v f.vd.toNat f.g.toNat] →
      ∃ t k', exec (.vmovWhole f) s = .next t ∧ VMoved k k' 8 ∧ OnlyTask s t e k' ∧
        ∀ r l, r < 32 → l < 16 → k'.vrow r l =
          if f.vd.toNat ≤ r ∧ r < f.vd.toNat + f.g.toNat then k.vrow (f.va.toNat + (r - f.vd.toNat)) l
          else k.vrow r l) ∧
    (∀ c, k.Legal → k.shapeBits = c * w →
      (CanIssue s e f.st.toNat [.v f.va.toNat 1 f.fea] [.x f.xs] →
        (row < k.rows.toNat → col < c → Computes (.vext f) s e f.xs
          (if isSigned f.t.toNat f.u ∧ 2 ^ (w - 1) ≤ old then BitVec.ofInt 64 (old - 2 ^ w) else w64 old) 8) ∧
        (k.rows.toNat ≤ row ∨ c ≤ col → Faults (.vext f) s e cShape 0)) ∧
      (CanIssue s e f.st.toNat [.x f.xs f.fes] [.v f.vd.toNat 1] →
        (row < k.rows.toNat → col < c → ∃ t k', exec (.vins f) s = .next t ∧ VMoved k k' 8 ∧
          OnlyTask s t e k' ∧ ∀ r l b, r < 32 → l < 16 → b < 1024 → (k'.vrow r l).getLsbD b =
            if r = f.vd.toNat ∧ l = row ∧ col * w ≤ b ∧ b < (col + 1) * w then
              (k.getX f.xs).getLsbD (b - col * w) else (k.vrow r l).getLsbD b) ∧
        (k.rows.toNat ≤ row ∨ c ≤ col → Faults (.vins f) s e cShape 0)))) ∧
  (∀ (s : State) (e : Env) (f : FV),
    let k := e.task
    let w := FV.w f
    let pd := f.vd.toNat % 8
    let pa := f.va.toNat % 8
    let x := k.getX f.xs
    let st := f.st.toNat
    let code := fun count : Nat => BitVec.ofNat 16 (count +
      (if w = 32 then 0 else if w = 16 then 1 else if w = 8 then 2 else 3) * 2 ^ 14)
    let legal := 1 ≤ x.toNat % 32 ∧ x.toNat % 32 ≤ 16 ∧ 1 ≤ x.toNat / 2 ^ 8 % 2 ^ 9 ∧
      x.toNat / 2 ^ 8 % 2 ^ 9 ≤ 32 * 2 ^ (x.toNat / 2 ^ 24 % 4)
    (CanIssue s e st [] [] →
      Becomes (.pset f) s e (PredSet k · pd (code (f.vb.toNat * 512 + f.vc.toNat * 16 + f.mod.toNat % 16))) ∧
      (f.mod.toNat % 4 = 0 → Becomes (.pmov f) s e (PredSet k · pd (k.pred pa))) ∧
      (f.mod.getLsbD 4 = false → Becomes (.vsets f) s e fun k' => k' = { k with
        rows := f.vb, cols := BitVec.ofNat 9 (f.vc.toNat * 16 + f.mod.toNat % 16)
        wc := if w = 32 then 0 else if w = 16 then 1 else if w = 8 then 2 else 3
        pc := k.pc + 8, held := k'.held, issued := k'.issued })) ∧
    (CanIssue s e st [] [.x f.xs] → f.mod.toNat % 4 = 1 →
      Computes (.pmov f) s e f.xs ((k.pred pa).zeroExtend 64) 8) ∧
    (CanIssue s e st [.x f.xs f.fes] [] →
      Becomes (.pwhl f) s e (PredSet k · pd (code
        (min 16383 (if w = 4 then (x.toInt.toNat + 1) / 2 else x.toInt.toNat)))) ∧
      (2 ≤ f.mod.toNat % 4 → Becomes (.pmov f) s e (PredSet k · pd (x.extractLsb' 0 16))) ∧
      (f.mod.getLsbD 4 = true → legal → Becomes (.vsets f) s e fun k' => k' = { k with
        rows := x.extractLsb' 0 5, cols := x.extractLsb' 8 9, wc := x.extractLsb' 24 2
        pc := k.pc + 8, held := k'.held, issued := k'.issued }) ∧
      (f.mod.getLsbD 4 = true → ¬ legal → Faults (.vsets f) s e cShape 0)))

/-- R206: LD and ST of every width, aligned or not: one access at XA + (XB << SH) + DISP, with the low bytes
of XD as a store's data, entered into its queue (R204) or faulting. R205, R206: an LD or ST whose address is
not a multiple of its bytes, below 2^54, raises ALIGN at that address, whatever the page. -/
def Obligations.scalarAccess : Prop :=
  (∀ (s : State) (e : Env) (fn : BitVec 4) (f : FM),
    let k := e.task
    let a := k.getX f.xa + (k.getX f.xb <<< f.sh.toNat) + f.disp.signExtend 64
    let n := accessBytes fn.toNat
    let ld : AccSpec := ⟨.load, 1, oneAccess a n 0 0,
      if f.xd = 0 then .none else .x f.xd.toNat n (decide (4 ≤ fn.toNat)), none, f.ord == 2, false⟩
    let st : AccSpec := ⟨.store, 1, oneAccess a n ((k.getX f.xd).toNat % 2 ^ (8 * n)) (2 ^ (8 * n) - 1),
      .none, if f.ord = 1 then some f.scope.toNat else none, false, false⟩
    (CanIssue s e f.st.toNat [.x f.xa f.fea, .x f.xb f.feb] [.x f.xd] → Enterable s e false ld →
      Enters (.ld fn f) s e 8 false ld) ∧
    (CanIssue s e f.st.toNat [.x f.xa f.fea, .x f.xb f.feb, .x f.xd f.fed] [] → Enterable s e true st →
      Enters (.st fn f) s e 8 true st)) ∧
  (∀ (s : State) (e : Env) (fn : BitVec 4) (f : FM),
    let a := e.task.getX f.xa + (e.task.getX f.xb <<< f.sh.toNat) + f.disp.signExtend 64
    a.toNat % accessBytes fn.toNat ≠ 0 → a.toNat < 2 ^ 54 → s.memClear e = true →
    s.sbHit e a.toNat (accessBytes fn.toNat) = false →
    (CanIssue s e f.st.toNat [.x f.xa f.fea, .x f.xb f.feb] [.x f.xd] → s.room e.core false 1 = true →
      Faults (.ld fn f) s e cAlign a) ∧
    (CanIssue s e f.st.toNat [.x f.xa f.fea, .x f.xb f.feb, .x f.xd f.fed] [] →
      s.room e.core true 1 = true → Faults (.st fn f) s e cAlign a))

/-- R208 to R210: VLD, VST, VLDG, VSTX and VLDB: the active elements of the tile that VSHAPE gives, line after
line of memory, or a line at each index of VB; a predicate of another width raises SHAPE, once no MARK, no
acquire and no full queue holds the instruction (R13, R117, R204). R213, R214: SQLD of at most 2,048 bytes
reserves its places, stands as a command, and its reads enter the load queue, their pages walked (R355); more
bytes raise RANGE; and while the queue has no room for its bytes it is held, whatever its other operands are
(R13, R214). -/
def Obligations.tileAccess : Prop :=
  (∀ (s : State) (e : Env) (f : FVM),
    let k := e.task
    let w := 32 / 2 ^ k.wc.toNat
    let c := k.cols.toNat
    let g := f.g.toNat
    let lines := g * k.rows.toNat
    let act := k.activeN f.p.toNat (lines * c)
    let n := fun r => min c (act - r * c)
    let a := k.getX f.xa + (k.getX f.xb <<< f.sh.toNat) + f.disp.signExtend 64
    let at' := fun r => FVM.rowAddr f k r
    let vb := SrcOp.v (f.xb.toNat % 32) 1 f.feb
    let vd := f.vd.toNat
    let fits := k.predFits f.p.toNat w
    let shape := fun (i : Instr) (st : Bool) => fits = false →
      (s.memClear e = true → s.room e.core st g = true → Faults i s e cShape 0) ∧
      (s.memClear e = false ∨ s.room e.core st g = false → Holds i s e)
    let rel := if f.ord = 1 then some f.scope.toNat else none
    let ok := fun b : W64 => w == 4 || b.toNat % (w / 8) == 0
    let zero := fun r => if f.z then (c - n r) * w else 0
    let load := fun ps runs ord => (⟨.load, g, ps, .v (k.physList vd g) runs, none, f.ord == 2, ord⟩ : AccSpec)
    let store := fun ps => (⟨.store, g, ps, .none, rel, false, true⟩ : AccSpec)
    let all := readPieces a.toNat ((act * w + 7) / 8)
    let one := if act = 0 then [] else readPieces a.toNat ((c * w + 7) / 8)
    let got := fun r => if n r = 0 then [] else
      withAlign (ok (at' r)) (at' r) (readPieces (at' r).toNat ((n r * w + 7) / 8))
    let put := fun r => if n r = 0 then [] else withAlign (ok (at' r)) (at' r)
      (writePieces (at' r).toNat ((n r * w + 7) / 8) (k.lineBits vd r (n r * w)) (2 ^ (n r * w) - 1))
    let vld := load (withAlign (ok a) a all)
      ((List.range lines).map fun r =>
        ⟨k.lineKey vd r, 0, 8 * a.toNat + r * c * w, n r * w, zero r, 0, all.length⟩) false
    let vldb := load (withAlign (ok a) a one)
      ((List.range lines).map fun r =>
        ⟨k.lineKey vd r, 0, 8 * a.toNat, n r * w, zero r, 0, one.length⟩) false
    let vldg := load ((List.range lines).map got).flatten
      ((List.range lines).map fun r => ⟨k.lineKey vd r, 0, 8 * (at' r).toNat, n r * w, zero r,
        ((List.range r).map fun j => (got j).length).sum, (got r).length⟩) true
    let vst := store (withAlign (ok a) a
      (writePieces a.toNat ((act * w + 7) / 8) (groupBits k vd w c act lines) (2 ^ (act * w) - 1)))
    let vstx := store ((List.range lines).map put).flatten
    (CanIssue s e f.st.toNat [.x f.xa f.fea, .x f.xb f.feb] [.v vd g] →
      (fits = true → Enterable s e false vld → Enters (.vld f) s e 8 false vld) ∧
      (fits = true → Enterable s e false vldb → Enters (.vldb f) s e 8 false vldb) ∧
      shape (.vld f) false ∧ shape (.vldb f) false) ∧
    (CanIssue s e f.st.toNat [.x f.xa f.fea, vb] [.v vd g] →
      (fits = true → Enterable s e false vldg → Enters (.vldg f) s e 8 false vldg) ∧
      shape (.vldg f) false) ∧
    (CanIssue s e f.st.toNat [.x f.xa f.fea, .x f.xb f.feb, .v vd g f.fed] [] →
      (fits = true → Enterable s e true vst → Enters (.vst f) s e 8 true vst) ∧
      shape (.vst f) true) ∧
    (CanIssue s e f.st.toNat [.x f.xa f.fea, vb, .v vd g f.fed] [] →
      (fits = true → Enterable s e true vstx → Enters (.vstx f) s e 8 true vstx) ∧
      shape (.vstx f) true)) ∧
  (∀ (s : State) (e : Env) (f : FE3) (deps : List Dep),
    CanIssue s e f.e.st.toNat [.x f.e.xa f.e.fea, .x f.xb f.feb, .x f.xc f.fec] [] →
    e.task.consume (FE2.cts f.e) = some deps →
    let a := e.task.getX f.e.xa
    let rows := (e.task.getX f.xb).toNat
    let per := f.imm.toNat % 4096
    let stride := e.task.getX f.xc
    let ps := s.placeAll e.who .plain (sqldPieces a stride per (min rows 2048) 0)
    (2048 < rows * per → s.cmdClear e = true → Faults (.sqld f) s e cRange a) ∧
    (rows * per ≤ 2048 → 2048 < s.scalesHeld e.core + rows * per → Holds (.sqld f) s e) ∧
    (rows * per ≤ 2048 → CmdOpen s e .scale true 0 → ps.2 = none →
      s.scalesHeld e.core + rows * per ≤ 2048 →
      ∃ t c l k, exec (.sqld f) s = .next t ∧
        (t.core e.core).cmds = (s.core e.core).cmds ++ [c] ∧
        (t.core e.core).loads = (s.core e.core).loads ++ [l] ∧
        c.instr = .sqld f ∧ c.id = s.nextId ∧ c.queue = .scale ∧ c.chunk = rows * per ∧
        l.cmd = s.nextId ∧ l.kind = .scales ∧ l.pieces = ps.1 ∧
        (∀ q, q ≠ e.core → t.core q = s.core q) ∧
        (∀ q, q ≠ clusterOf e.core → t.cluster q = s.cluster q) ∧
        t.cluster (clusterOf e.core) = { s.cluster (clusterOf e.core) with
          tlb := (t.cluster (clusterOf e.core)).tlb } ∧
        k = { e.task with
          tok := k.tok, pc := e.task.pc + 12, held := k.held, issued := k.issued } ∧
        OnlyTeam { s with cores := t.cores, clusters := t.clusters, openCmds := s.openCmds ++ [s.nextId], reqs := t.reqs
                          nextId := t.nextId } t e
          { e.team with task := some k, sqPend := e.team.sqPend ++ [(s.nextId, rows * per)] }))

/-- R117, R211, R212: MARK stands for all older accesses and its consumed tokens, and a produced token with
it. PF is held by a full load queue (R204) and by an overlapping range of an engine command (R111); else its
entry joins the load queue (R12), whatever its address is. R215, R216: VLDV and VSTV send their request and
hold their task for the answer, VLDV with the registers that it fills empty (R84); R220, R221: VQRY and VRELV
enter their queues. -/
def Obligations.markPrefetch : Prop :=
  (∀ (s : State) (e : Env),
    (∀ (f : FE2) (deps : List Dep), CanIssue s e f.st.toNat [] [] →
      e.task.consume (FE2.cts f) = some deps →
      Becomes (.mark f) s e fun k => k = { e.task with
        tok := k.tok, marks := k.marks, pc := e.task.pc + 8, held := k.held, issued := k.issued } ∧
        (∃ ms ds, k.marks = ms ++ [.mem e.uid s.nextId :: ds] ∧
          (∀ m ∈ e.task.marks, m ∈ ms ∨ s.depsDone m = true) ∧
          ∀ d ∈ deps, d ∈ ds ∨ s.depOver d = true) ∧
        ∀ j, ¬ (f.pv = true ∧ j = f.pt.toNat) →
          tabGet .unproduced k.tok j = tabGet .unproduced e.task.tok j) ∧
    (let pf := fun (i : Instr) (a : W64) (n : Nat) =>
      (s.room e.core false 1 = false ∨ s.sbHit e a.toNat 1 = true → Holds i s e) ∧
      (s.room e.core false 1 = true → s.sbHit e a.toNat 1 = false →
        ∃ t k x, exec i s = .next t ∧ Moved e.task k n ∧
          OnlyTask { s with cores := t.cores, nextId := s.nextId + 1 } t e k ∧
          x.id = s.nextId ∧ x.kind = .prefetch ∧ x.entries = 1 ∧ x.xlate = true ∧
          x.pieces = [{ newPiece 0 1 0 0 with va := a }] ∧
          ∀ c, t.core c = if c = e.core then
            { s.core c with loads := (s.core c).loads ++ [x] } else s.core c)
    (∀ f : FE2, CanIssue s e f.st.toNat [.x f.xa f.fea] [] → pf (.pf f) (e.task.getX f.xa) 8) ∧
    (∀ f : FE3, CanIssue s e f.e.st.toNat [.x f.e.xa f.e.fea] [] →
      pf (.pfE3 f) (e.task.getX f.e.xa + f.imm.signExtend 64) 12))) ∧
  (∀ (s : State) (e : Env) (f : FVV),
    let k := e.task
    let a := k.getX f.xa + (f.disp.signExtend 64 <<< 7)
    let b := k.getX f.xb
    let m := f.g.toNat * k.rows.toNat
    let keys := (List.range m).map fun r => k.lineKey f.vd.toNat r
    let sends := fun (i : Instr) (store : Bool) (fills : List Nat) (q : VReq) =>
      s.memClear e = true → s.room e.core store 1 = true → s.sbHit e a.toNat (128 * m) = false →
      (∀ c, s.granuleBad e.who a store = some c → Faults i s e c a) ∧
      (s.granuleBad e.who a store = none → ∃ t k' x, exec i s = .next t ∧
        k' = { k with
          pc := k.pc + 8, vEmpty := k'.vEmpty, hold := .answer s.nextId
          held := k'.held, issued := k'.issued } ∧
        (∀ r, k'.vEmpty.getLsbD r = (k.vEmpty.getLsbD r || (decide (r < 32) && fills.contains r))) ∧
        OnlyTask { s with
          cores := t.cores, nextId := s.nextId + 1, vreqs := tabPut s.vreqs s.nextId q } t e k' ∧
        x.id = s.nextId ∧ x.kind = .ver ∧ x.team = e.uid ∧
        ∀ c, t.core c = if c = e.core then (if store then
            { s.core c with stores := (s.core c).stores ++ [x] }
            else { s.core c with loads := (s.core c).loads ++ [x] }) else s.core c)
    let aligned := decide (a.toNat % 128 = 0)
    let qry : AccSpec := ⟨.ver, 1, [{ newPiece 0 128 0 0 with va := a, aligned := aligned }],
      if f.xm = 0 then .none else .x f.xm.toNat 8 false, none, false, false⟩
    let rel : AccSpec := ⟨.ver, 1,
      [{ newPiece 0 128 (b &&& 0xFFFFFFFF) 0 with va := a, aligned := aligned }], .none, none, false, true⟩
    (CanIssue s e f.st.toNat [.x f.xa f.fea, .x f.xb f.feb, .x f.xm f.fem] [.v f.vd.toNat f.g.toNat] →
      k.liveFull (k.getX f.xm) = true → s.poolRoom e.team.ctx (k.getX f.xm) = true →
      sends (.vldv f) false (k.physList f.vd.toNat f.g.toNat) (newVReq e .read a m b [] keys (k.getX f.xm) f.scope.toNat s.nextId)) ∧
    (CanIssue s e f.st.toNat [.x f.xa f.fea, .x f.xb f.feb, .v f.vd.toNat f.g.toNat false] [] →
      sends (.vstv f) true []
        (newVReq e .create a m b (keys.map fun r => tabGet 0 k.v r) [] 0 f.scope.toNat s.nextId)) ∧
    (CanIssue s e f.st.toNat [.x f.xa f.fea] [.x f.xm] → Enterable s e false qry →
      Enters (.vqry f) s e 8 false qry) ∧
    (CanIssue s e f.st.toNat [.x f.xa f.fea, .x f.xb f.feb] [] → Enterable s e true rel →
      Enters (.vrelv f) s e 8 true rel))

/-- R26, R80, R319: a team uses logical tile n: its own is used as it stands; one that nobody holds is taken,
and reads zero; one that another context holds raises ACC_NOT_OWNED with the physical tile, and one at or
above the team's ACCT raises it with 0 (that address is the model's reading, log 44). R228: what a matrix
instruction's operands must be, once nothing holds it (R248): a record address that is no multiple of 64
raises ALIGN, a K0 that is no multiple of 32, a row range past 128 or a reserved bit of XC raises SHAPE, and a
table outside the team's allotment raises RANGE; an unproduced token comes before all of them (R81). That
RANGE and ALIGN report the operand's own address is the model's reading (log 46). -/
def Obligations.matrixChecks : Prop :=
  (∀ (s : State) (e : Env) (n : Nat), s.issuer = some e →
    (e.team.acct ≤ n → s.useTile e n = .error ⟨cAccNotOwned, 0, false, false, false⟩) ∧
    ∀ i, n < e.team.acct → e.team.tiles[n]? = some i →
      let own := (s.core e.core).owner i
      (own.getLsbD 15 = true → own.toNat % 4096 ≠ e.team.ctx →
        s.useTile e n = .error ⟨cAccNotOwned, w64 i, false, false, true⟩) ∧
      (own.getLsbD 15 = false ∨ own.toNat % 4096 = e.team.ctx → ∃ t m, s.useTile e n = .ok (i, t) ∧
        t = { s with teams := t.teams, cores := t.cores } ∧ t.issuer = some { e with team := m } ∧
        m = { e.team with tilesUsed := m.tilesUsed } ∧ m.tilesUsed.contains n = true ∧
        (∀ u, u ≠ e.uid → tabFind t.teams u = tabFind s.teams u) ∧
        (∀ c, c ≠ e.core → t.core c = s.core c) ∧
        (own.getLsbD 15 = true → t.cores = s.cores) ∧
        (own.getLsbD 15 = false → (t.core e.core).owner i = BitVec.ofNat 16 (2 ^ 15 + e.team.ctx % 4096) ∧
          (∀ j, j ≠ i → (t.core e.core).owner j = (s.core e.core).owner j) ∧
          ∀ r, tabGet 0 (t.core e.core).acc r =
            if 128 * i ≤ r ∧ r < 128 * i + 128 then 0 else tabGet 0 (s.core e.core).acc r))) ∧
  (∀ (s : State) (e : Env) (f : FE3),
    let st := f.e.st.toNat
    let a := e.task.getX f.e.xa
    let b := e.task.getX f.xb
    let c := e.task.getX f.xc
    let sa := SrcOp.x f.e.xa f.e.fea
    let sb := SrcOp.x f.xb f.feb
    let sc := SrcOp.x f.xc f.fec
    let past := 128 < c.toNat % 128 + (c.toNat / 256 % 128 + 1)
    CmdOpen s e .matrix true 0 →
    (e.task.consume (FE2.cts f.e) = none →
      (CanIssue s e st [sa] [] → Faults (.mrec f) s e cToken 0) ∧
      (CanIssue s e st [sb, sc] [] → Faults (.mldb f) s e cToken 0) ∧
      (CanIssue s e st [sa, sb, sc] [] → Faults (.mma f) s e cToken 0 ∧ Faults (.mdrain f) s e cToken 0)) ∧
    (∀ deps p t, e.task.consume (FE2.cts f.e) = some deps →
      s.useTile e (f.imm.toNat % 8) = .ok (p, t) →
      (CanIssue s e st [sa] [] → a.toNat % 64 ≠ 0 → Faults (.mrec f) s e cAlign a) ∧
      (CanIssue s e st [sb, sc] [] → b.toNat % 32 ≠ 0 → Faults (.mldb f) s e cShape 0) ∧
      (CanIssue s e st [sa, sb, sc] [] →
        (past ∨ c &&& ~~~ 0x7F7F ≠ 0 → Faults (.mma f) s e cShape 0) ∧
        (past ∨ c &&& ~~~ 0xFFFFFFFF7F7F ≠ 0 → Faults (.mrank f) s e cShape 0) ∧
        (addrForm a.toNat ≠ 1 → Faults (.mmag f) s e cRange a))))

/-- R227 to R243: with its checks met, each matrix instruction gives its command to the core's matrix engine
and changes nothing else: MREC, MLDB and MQRY name no tile, the others use one (R26, R319); MMAV and MMOVV
read their registers at issue, MMOVA and MQRY leave theirs empty. -/
def Obligations.matrixCommands : Prop :=
  ∀ (s : State) (e : Env),
    let x := fun r => e.task.getX r
    let rowsOf := fun v g => ((List.range g).map fun i =>
      (List.range 16).map fun r => e.task.vrow (v + i) r).flatten
    let free := fun (i : Instr) (sp : CmdSpec) => CmdOpen s e .matrix true 0 → Accepts i s e 12 s e.team sp
    let uses := fun (i : Instr) (n tile : Nat) (sp : CmdSpec) => ∀ p b m, s.useTile e tile = .ok (p, b) →
      tabFind b.teams e.uid = some m → CmdOpen b e .matrix true 0 →
      Accepts i s e n b m { sp with fix := fun c => { sp.fix c with tile := some p } }
    (∀ f : FE2, CanIssue s e f.st.toNat [] [] →
      uses (.mzero f) 8 (f.xa.toNat % 8) (plainCmd f .matrix (0, 0, 0))) ∧
    ∀ f : FE3,
      let st := f.e.st.toNat
      let tile := f.imm.toNat % 8
      let a := x f.e.xa
      let b := x f.xb
      let c := x f.xc
      let sa := SrcOp.x f.e.xa f.e.fea
      let sb := SrcOp.x f.xb f.feb
      let sc := SrcOp.x f.xc f.fec
      let whole := plainCmd f.e .matrix (a, b, c)
      let rows := fun v : W64 => v.toNat % 128 + (v.toNat / 256 % 128 + 1) ≤ 128
      let v := f.e.xa.toNat % 32
      let g := f.imm.toNat / 1024 % 8
      let vb := f.xb.toNat % 32
      let need := ((c.toNat / 256 % 128 + 1) * (f.imm.toNat / 512 % 8 + 1) + 7) / 8
      (CanIssue s e st [sa] [] → a.toNat % 64 = 0 → free (.mrec f) (plainCmd f.e .matrix (a, 0, 0))) ∧
      (CanIssue s e st [sb, sc] [] → b.toNat % 32 = 0 →
        free (.mldb f) (plainCmd f.e .matrix (0, b, c))) ∧
      (CanIssue s e st [] [.x f.e.xa] → free (.mqry f) { plainCmd f.e .matrix (0, 0, 0) with
        dst := fun k => k.emptyX f.e.xa
        fix := fun c => { c with regs := if f.e.xa = 0 then [] else [f.e.xa.toNat] } }) ∧
      (CanIssue s e st [sa, sb, sc] [] →
        (rows c → c &&& ~~~ 0x7F7F = 0 → uses (.mma f) 12 tile whole) ∧
        (rows c → c &&& ~~~ 0xFFFFFFFF7F7F = 0 → uses (.mrank f) 12 tile whole) ∧
        (addrForm a.toNat = 1 → s.formBad e a (16 + 16 * 4096) = false → uses (.mmag f) 12 tile whole) ∧
        (b.toNat / 2 ^ 32 % 128 + (f.imm.toNat / 256 % 128 + 1) ≤ 128 → b.toNat < 2 ^ 39 →
          uses (.mdrain f) 12 tile whole)) ∧
      (CanIssue s e st [sc] [] → rows c → c &&& ~~~ 0x7F7F = 0 → vb + need ≤ 32 →
        e.task.vIsEmpty vb need = false → uses (.mmav f) 12 tile { plainCmd f.e .matrix (0, 0, c) with
          fix := fun d => { d with rows := rowsOf vb need } }) ∧
      (CanIssue s e st [] [.v v g] → uses (.mmova f) 12 tile { plainCmd f.e .matrix (0, 0, 0) with
        dst := fun k => k.emptyV v g, fix := fun d => { d with regs := e.task.physList v g } }) ∧
      (CanIssue s e st [.v v g f.e.fea] [] → uses (.mmovv f) 12 tile { plainCmd f.e .matrix (0, 0, 0) with
        fix := fun d => { d with rows := rowsOf v g } })

/-- R249 to R258, R267: CPY, CPYV, CPYS, ACW and ACW.arrive with their checks met stand at the tail of their
channel, and the scoreboard holds their ranges (R110). -/
def Obligations.copyCommands : Prop :=
  ∀ (s : State) (e : Env) (f : FE3),
    CanIssue s e f.e.st.toNat [.x f.e.xa f.e.fea, .x f.xb f.feb, .x f.xc f.fec] [] →
    let a := e.task.getX f.e.xa
    let b := e.task.getX f.xb
    let c := e.task.getX f.xc
    let q := Queue.copy (f.imm.toNat % 4)
    let fits := fun v len => s.formBad e v len = false
    let sp := fun ranges : List (W64 × Nat) => { plainCmd f.e q (a, b, c) with sb := ranges }
    let takes := fun (i : Instr) (ranges : List (W64 × Nat)) =>
      CmdOpen s e q true ranges.length → Accepts i s e 12 s e.team (sp ranges)
    let n := c.toNat
    let vn := 128 * (c.toNat / 2 ^ 32 % 2 ^ 16 + 1)
    let w := acwWidth (f.imm.toNat / 64 % 8)
    let wn := w * (f.imm.toNat / 1024 + 1)
    let fetch := f.imm.getLsbD 9
    (fits a n → fits b n → rangesOverlap a b n = false → n ≤ 2 ^ 32 → takes (.cpy f) [(a, n), (b, n)]) ∧
    (fits a vn → fits b vn → a.toNat % 128 = 0 → b.toNat % 128 = 0 → n < 2 ^ 48 →
      takes (.cpyv f) [(a, vn), (b, vn)]) ∧
    (fits a n → fits b n → a.toNat % 4096 = 0 → b.toNat % 4096 = 0 → n % 4096 = 0 → n ≤ 2 ^ 32 →
      takes (.cpys f) [(a, n), (b, n)]) ∧
    (fits a wn → addrForm a.toNat ≠ 1 → a.toNat % w = 0 → (fetch = true → fits c wn ∧ c.toNat % w = 0) →
      takes (.acw f) ((a, wn) :: if fetch then [(c, wn)] else [])) ∧
    (s.objRange e.who a = false → (c ≠ 0 → fits c 4) → a.toNat % 16 = 0 → c.toNat % 4 = 0 →
      1 ≤ b.toNat → b.toNat < 2 ^ 16 → takes (.acwArrive f) [(a, 16)])

/-- R262, R268: WAITS and WAITB end their task, which leaves a parked record of KIND 1 or 2 at the next
instruction with the registers of its mask, in free units of the pool, and a request for its semaphore or
object. They do not wait for their task's older accesses (R250): while one has no translation yet the task
stands, its end to follow (log 18). A WAITB whose bank is lost leaves a ready record with PEER_LOST, and one
whose operands are not those of R250 faults. R263, R265: SIGS in both formats sends its addition, which
completes it; an amount of 2^32 or more raises SHAPE; SEMRD leaves XA empty until the file answers. -/
def Obligations.semaphoreCommands : Prop :=
  (∀ (s : State) (e : Env) (f : FE3) (deps : List Dep), e.task.consume (FE2.cts f.e) = some deps →
    let leaves := fun (i : Instr) (mask : W64) (kind : Nat) (obj arg : W64) (q : Req) =>
      let s1 := { s with nextId := s.nextId + 2, reqs := tabPut s.reqs (s.nextId + 1) q }
      e.task.liveFull mask = true → s.poolRoom e.team.ctx mask = true → ∃ t r, exec i s = .next t ∧
        (s.translated e.core e.uid = true → Ended s1 t e [r] []) ∧
        (s.translated e.core e.uid = false → ∃ b k,
          OnlyTeam s1 b e { e.team with task := some k, recs := e.team.recs ++ [r] } ∧
          k = { e.task with
            pc := e.task.pc + 12, hold := .ending s.nextId, held := k.held, issued := k.issued } ∧
          Recorded b t (s.keyOn e.core e.team.ctx) { e.team with recs := e.team.recs ++ [r] } r ∧
          Pooled s e.core r e.team.ctx) ∧
        Carries e r s.nextId (e.task.pc + 12) mask kind 0 ∧ r.obj = obj ∧ r.arg = arg ∧ r.deps = deps ∧
        r.scope = f.e.scope.toNat ∧ r.status = 0
    let sem := (f.e.wsem.toNat + e.task.semBase.toNat) % 256
    let va := e.task.getX f.e.xa
    let phase := (e.task.getX f.xb).toNat
    (CanIssue s e f.e.st.toNat [.x f.xb f.feb] [] →
      leaves (.waits f) (e.task.getX f.xb) 1 (w64 sem) (f.imm.zeroExtend 64)
        (.semWait e.team.ctx sem (.task e.uid s.nextId f.imm.toNat))) ∧
    (CanIssue s e f.e.st.toNat [.x f.e.xa f.e.fea, .x f.xb f.feb, .x f.xc f.fec] [] →
      let mask := e.task.getX f.xc
      (∀ k, s.objKey e.who va = .ok k → va.toNat % 16 = 0 → phase ≤ 15 →
        leaves (.waitb f) mask 2 va (e.task.getX f.xb)
          (.barWait k phase (f.imm.toNat % 65536) e.uid s.nextId)) ∧
      (s.objKey e.who va = .error cPeerLost → va.toNat % 16 = 0 → phase ≤ 15 → e.task.liveFull mask = true →
        s.poolRoom e.team.ctx mask = true → s.translated e.core e.uid = true →
        (∀ q ∈ e.team.recs, q.id ≠ s.nextId) → ∃ t r, exec (.waitb f) s = .next t ∧
          Ended { s with nextId := s.nextId + 1 } t e [r] [r.id] ∧
          Carries e r s.nextId (e.task.pc + 12) mask 2 1 ∧ r.obj = va ∧ r.arg = e.task.getX f.xb ∧
          r.status = cPeerLost) ∧
      (s.objRange e.who va = true → Faults (.waitb f) s e cRange va) ∧
      (s.objRange e.who va = false → va.toNat % 16 ≠ 0 → Faults (.waitb f) s e cAlign va) ∧
      (s.objRange e.who va = false → va.toNat % 16 = 0 → 15 < phase → Faults (.waitb f) s e cShape 0))) ∧
  (∀ (s : State) (e : Env),
    let sem := fun n => (n + e.task.semBase.toNat) % 256
    let signals := fun (i : Instr) (n : Nat) (f : FE2) (amount : W64) =>
      (amount.toNat < 2 ^ 32 → CmdOpen s e .sync true 0 → Accepts i s e n s e.team
        { plainCmd f .sync (amount, 0, 0) with
          fix := fun c => { c with sig := none }
          own := fun c => some (.semSig e.team.ctx (sem f.ssem.toNat) amount.toNat e.uid c.id e.core
            e.task.pc f.scope.toNat (some ((e.task.consume (FE2.cts f)).getD [])) e.task.seq) }) ∧
      (∀ deps, 2 ^ 32 ≤ amount.toNat → CmdOpen s e .sync true 0 → e.task.consume (FE2.cts f) = some deps → Faults i s e cShape 0)
    (∀ f : FE2, CanIssue s e f.st.toNat [.x f.xa f.fea] [] → signals (.sigs f) 8 f (e.task.getX f.xa)) ∧
    (∀ f : FE3, CanIssue s e f.e.st.toNat [] [] → signals (.sigsE3 f) 12 f.e (f.imm.zeroExtend 64)) ∧
    (∀ f : FE3, CanIssue s e f.e.st.toNat [] [.x f.e.xa] → CmdOpen s e .sync false 0 →
      Accepts (.semrd f) s e 12 s e.team { plainCmd f.e .sync (0, 0, 0) with
        dst := fun k => k.emptyX f.e.xa
        fix := fun c => { c with regs := [f.e.xa.toNat], wsem := sem (f.imm.toNat % 256) } }))

/-- R270 to R273: FQPOST (on the cluster's communication master), FMBOX, FPUT, FFLUSH and LAUNCH with their
checks met stand in their queues; FQPOST on another core raises ACCESS_DENIED. The alignment of LAUNCH's
status address is the model's choice (log 111). -/
def Obligations.fabricCommands : Prop :=
  ∀ (s : State) (e : Env) (f : FE3),
    let a := e.task.getX f.e.xa
    let b := e.task.getX f.xb
    let c := e.task.getX f.xc
    let fits := fun v len => s.formBad e v len = false
    let status := (c ≠ 0 → fits c 4) ∧ c.toNat % 4 = 0
    let takes := fun (i : Instr) (q : Queue) (x : W64 × W64 × W64) =>
      CmdOpen s e q true 0 → Accepts i s e 12 s e.team (plainCmd f.e q x)
    let boss := (s.cluster (clusterOf e.core)).master = some e.core
    let pkg := b.toNat / 2 ^ 16 % 256
    (CanIssue s e f.e.st.toNat [.x f.e.xa f.e.fea, .x f.xb f.feb, .x f.xc f.fec] [] →
      (fits a 64 → a.toNat % 64 = 0 → status → b.toNat < 256 →
        (boss → takes (.fqpost f) .fabric (a, b, c)) ∧ takes (.fmbox f) .mailbox (a, b, c)) ∧
      (∀ deps, CmdOpen s e .fabric true 0 → e.task.consume (FE2.cts f.e) = some deps → ¬ boss →
        Faults (.fqpost f) s e cAccessDenied 0) ∧
      (fits a 32 → fits b (c.toNat % 4096 + 1) → a.toNat % 32 = 0 → c.toNat / 4096 % 16 = 0 →
        takes (.fput f) .fput (a, b, c)) ∧
      (fits a 256 → a.toNat % 256 = 0 → status → b &&& ~~~ 0xFF0FFF = 0 → pkg < 144 ∨ pkg = 255 →
        takes (.launch f) .sync (a, b, c))) ∧
    (CanIssue s e f.e.st.toNat [.x f.e.xa f.e.fea, .x f.xb f.feb] [] →
      (b ≠ 0 → fits b 4) → b.toNat % 4 = 0 →
      (a.toNat < 144 ∨ a.toNat = 255 ∨ (1024 ≤ a.toNat ∧ a.toNat < 2048)) →
      takes (.fflush f) .sync (a, 0, b))

/-- R317, R318, R320, R321: RDPR of each privileged register of the selected core or of the die; an XB that
selects no core of the die, and a register number outside its row, raise SHAPE. That PSTAT reads the class of
the issuing task, whatever core XB selects, is the model's reading (log 54); QEPOCH counts the advances that
are due by the die's GNOMON. R317 to R321: WRPR of each writable privileged register: its RW fields take the
value, the rest is ignored; FQBASE and FQSIZE only while no record stands in the queue; ACCOWN only once no
earlier command touches the tile. That CTXBASE, FQBASE and TAGBASE take bits that are not aligned is the
model's reading (log 55). -/
def Obligations.privilegedRegisters : Prop :=
  (∀ (s : State) (e : Env) (f : FSW), CanIssue s e f.st.toNat [.x f.xb f.feb, .x f.xc f.fec] [.x f.xd] →
    let xb := (e.task.getX f.xb).toNat
    let base := f.imm.toNat % 4096
    let n := base + (e.task.getX f.xc).toNat
    let here := xb.testBit 31 = false
    let there := xb.testBit 31 = true ∧ xb < 2 ^ 32 ∧ xb / 2 ^ 9 % 2 ^ 22 = 0 ∧ xb % 512 / 128 = e.die
    let inRow := n = base ∨ (16 ≤ base ∧ n < 24)
    let d := s.die e.die
    (inRow → here ∨ there →
      let core := if here then e.core else xb % 512
      let reads := fun m v => n = m → Computes (.rdpr f) s e f.xd v 8
      reads 0x000 (w64 (s.classAt e)) ∧ reads 0x001 (s.ctxbase.zeroExtend 64) ∧
      reads 0x002 (d.hcore.zeroExtend 64) ∧ reads 0x003 (d.hpc.zeroExtend 64) ∧
      reads 0x004 (d.fqbase.zeroExtend 64) ∧ reads 0x005 (d.fqsize.zeroExtend 64) ∧
      reads 0x006 (d.fqhead.zeroExtend 64) ∧ reads 0x007
        (w64 (d.fqtail.toNat + (d.fq.filter fun r => !r.released).length * 2 ^ 16)) ∧
      reads 0x008 (d.epochNow.zeroExtend 64) ∧ reads 0x009 (s.qdone.zeroExtend 64) ∧
      reads 0x00A (w64 (d.world.toNat + if d.latched then 256 else 0)) ∧
      reads 0x00B (w64 ((s.core core).shadowSt.toNat + (tabGet 0 (s.core core).plane 0).toNat % 4096 * 16)) ∧
      reads 0x00C (d.tagbase.zeroExtend 64) ∧
      ∀ i, i < 8 → reads (0x010 + i) (((s.core core).owner i).zeroExtend 64)) ∧
    (¬ inRow ∨ ¬ (here ∨ there) → Faults (.rdpr f) s e cShape 0)) ∧
  (∀ (s : State) (e : Env) (f : FSW),
    CanIssue s e f.st.toNat [.x f.xa f.fea, .x f.xb f.feb, .x f.xc f.fec] [] →
    let v := e.task.getX f.xa
    let d := s.die e.die
    ∀ core n, selectCore e (e.task.getX f.xb) = some core →
      regNumber f.imm (e.task.getX f.xc) = some n →
      let sets := fun m (b : State) => n = m → ∃ t k, exec (.wrpr f) s = .next t ∧ Moved e.task k 8 ∧
        OnlyTask b t e k
      let dies := fun m (g : Die) => sets m (s.setDie e.die g)
      sets 0x001 { s with ctxbase := v.extractLsb' 0 56 } ∧
      dies 0x002 { d with hcore := v.extractLsb' 0 7 } ∧ dies 0x003 { d with hpc := v.extractLsb' 0 55 } ∧
      (d.fq = [] → dies 0x004 { d with fqbase := v.extractLsb' 0 56 }) ∧
      (d.fq ≠ [] → sets 0x004 s ∧ sets 0x005 s) ∧
      (d.fq = [] → (∃ i, i < 9 ∧ (v.extractLsb' 0 13).toNat = 16 * 2 ^ i) →
        dies 0x005 { d with fqsize := v.extractLsb' 0 13 }) ∧
      (¬ (∃ i, i < 9 ∧ (v.extractLsb' 0 13).toNat = 16 * 2 ^ i) → sets 0x005 s) ∧
      dies 0x00C { d with tagbase := v.extractLsb' 0 46 } ∧
      ∀ i, i < 8 → n = 0x010 + i →
        (s.tileFree core i = false → Holds (.wrpr f) s e) ∧
        (s.tileFree core i = true → ∃ t k, exec (.wrpr f) s = .next t ∧ Moved e.task k 8 ∧
          OnlyTask { s with cores := t.cores } t e k ∧
          (∀ c, c ≠ core → t.core c = s.core c) ∧
          t.core core = { s.core core with accown := (t.core core).accown } ∧
          ∀ j, (t.core core).owner j = if j = i then v.extractLsb' 0 16 &&& 0x8FFF else (s.core core).owner j))

/-- R323: ERET ends its task and, at an address where a record stands that is not released, releases the
record: a requeued task's origin is ready again, a task stopped by BREAK goes on, or ends with a handler task
in its place where ACTION is 1, and a TERM record asks for nothing more; where no record stands it does
nothing more. R324: ASAVE writes the tile's 32,768 bytes, zeroes the tile and clears its VALID bit; AREST
loads them and leaves ACCOWN; their pages' walks fill the TLBs (R355). -/
def Obligations.eretAccumulators : Prop :=
  (∀ (s : State) (e : Env) (f : FSW), CanIssue s e f.st.toNat [.x f.xa f.fea] [] →
    s.translated e.core e.uid = true →
    let a := e.task.getX f.xa
    (s.faultAt e.die a = none → ∃ (t : State), exec (.eret f) s = .next t ∧ Ended s t e [] []) ∧
    ∀ r m, s.faultAt e.die a = some r → r.team ≠ e.uid → tabFind s.teams r.team = some m →
      let released := fun (m' : Team) (shows : State → State → Prop) => ∃ (b t : State), exec (.eret f) s = .next t ∧
        t.faultAt e.die a = none ∧ shows b t ∧
        b = { s with
          teams := b.teams, cores := b.cores, dies := b.dies, images := e.unfilled s.images, focus := none } ∧
        (∀ u, tabFind b.teams u = if u = e.uid then some (e.without [] []) else
          if u = r.team then some m' else tabFind s.teams u) ∧
        (∀ c, b.core c = if c = e.core then (s.core c).without e else s.core c) ∧
        ∀ d, d ≠ e.die → b.die d = s.die d
      (r.term = true → released m fun b t => t = b) ∧
      (r.term = false → r.parked = false → f.imm.toNat % 4 = 0 →
        (r.source = 0 → requeues r.code true = true → r.origin ≠ 0 →
          (m.recs.any fun q => q.id == r.origin && q.state == 3) = true →
          let m' := { m with
            recs := m.recs.map fun q => if q.id = r.origin then { q with state := 1 } else q,
            ready := m.ready ++ [r.origin] }
          released m' fun b t => ∀ q ∈ m'.recs, q.id = r.origin →
            Shown b t (s.keyOn (m.core.getD 512) m.ctx) m' q) ∧
        (r.source = 0 → requeues r.code true = true → r.origin = 0 → m.startAborted = true →
          (∀ q ∈ m.recs, q.id ≠ 0) →
          released { m with startAborted := false, ready := m.ready ++ [0] } fun b t => t = b) ∧
        (∀ k, r.source = 6 → r.code = 0 → m.task = some k → k.hold = .brk → k.seq.toNat = r.cmd →
          released { m with task := some { k with hold := .free } } fun b t => t = b)) ∧
      (r.term = false → r.parked = false → f.imm.toNat % 4 = 1 → ∀ k l, r.source = 6 → r.code = 0 →
        m.task = some k → k.hold = .brk → k.seq.toNat = r.cmd → k.handler = false → m.dead = false →
        s.launchOf m = some l → l.fhandler ≠ 0 → ∃ t m' q, exec (.eret f) s = .next t ∧
          t.faultAt e.die a = none ∧ tabFind t.teams r.team = some m' ∧ m'.task = none ∧ q ∈ m'.recs ∧
          m'.ready.getLast? = some q.id ∧ q.kind = 5 ∧ q.pc = l.fhandler ∧ tabGet 0 q.regs 1 = 0 ∧
          tabGet 0 q.regs 2 = r.pc ∧ tabGet 0 q.regs 3 = r.addr ∧
          tabGet 0 q.regs 4 = originWord (k.origin.bind fun o => m.recs.find? fun q => q.id == o))) ∧
  (∀ (s : State) (e : Env) (f : FSW) (core tile : Nat),
    CanIssue s e f.st.toNat [.x f.xa f.fea, .x f.xb f.feb, .x f.xc f.fec] [] →
    areaOperands e f = some (core, tile) → s.tileFree core tile = true →
    let a := e.task.getX f.xa
    (∀ sp m, s.spans e.who .plain true (units a.toNat 32768) = .ok sp → s.spansRefused sp true = none →
      s.spansBlocked e.core sp = false →
      let b := (s.fillUnits e.who .plain true (units a.toNat 32768)).putUnits sp ((s.core core).tileBytes tile)
      tabFind b.teams e.uid = some m → ∃ t k, exec (.asave f) s = .next t ∧ Moved e.task k 8 ∧
        OnlyTeam { b with cores := t.cores } t e { m with task := some k } ∧
        (∀ c, c ≠ core → t.core c = b.core c) ∧
        (∀ j, (t.core core).owner j = if j = tile then (s.core core).owner j &&& 0x7FFF
          else (s.core core).owner j) ∧
        ∀ r, tabGet 0 (t.core core).acc r =
          if 128 * tile ≤ r ∧ r < 128 * tile + 128 then 0 else tabGet 0 (s.core core).acc r) ∧
    (∀ bs, s.engineBytes e.who a 32768 = .ok bs → ∃ t k b, exec (.arest f) s = .next t ∧
      Moved e.task k 8 ∧ TlbsOnly s b ∧ OnlyTask { b with cores := t.cores } t e k ∧
      (∀ c, c ≠ core → t.core c = b.core c) ∧
      t.core core = { b.core core with acc := (t.core core).acc } ∧
      ∀ r, tabGet 0 (t.core core).acc r = if 128 * tile ≤ r ∧ r < 128 * tile + 128 then
        BitVec.ofNat 2048 (leNat ((bs.drop (256 * (r - 128 * tile))).take 256))
        else tabGet 0 (s.core core).acc r))

/-- R287, R325: TLBINV takes every matching entry out of every TLB of the package, and every matching line out
of the instruction caches, and leaves the others: those of a context's page (mode 0), of a context (mode 1),
or all (mode 2). Mode 1 drops the context's kept remote key, and what was accepted under it and is not applied
where that key has been replaced. A context number above 4,095 raises SHAPE. R326: REPLAY reaches the parked
commands and queue pairs of one context, or of all, on its die. R327: QUAR lists a run of 1 to 8,192 whole
frames with the die's QEPOCH and gives 0; it gives 1 where 4,096 runs are listed and 2 where the operands are
bad or a frame is claimed (R401). QSTAT of 0 takes the oldest run once QDONE has reached its epoch and no
scrub holds it, and gives its address and length less one, else 0, epochs being compared modulo 2^32 (the
model's choice, log 113); QSTAT of 1 counts the runs and those that may be released; other operands raise
SHAPE. -/
def Obligations.translationControl : Prop :=
  (∀ (s : State) (e : Env),
    let drops := fun (i : Instr) (n mode : Nat) (xa xb : W64) =>
      let hit := fun t : TlbEntry =>
        if mode = 0 then t.ctx = xb.toNat ∧ t.vpn = xa.toNat / (if t.big then 2 ^ 29 else 2 ^ 16)
        else if mode = 1 then t.ctx = xb.toNat else True
      (mode < 2 → 4096 ≤ xb.toNat → Faults i s e cShape 0) ∧
      (2 ≤ mode ∨ xb.toNat < 4096 → ∃ t k, exec i s = .next t ∧ Moved e.task k n ∧
        (∃ m : Team, tabFind t.teams e.uid = some { m with task := some k }) ∧
        (∀ c x, x ∈ (t.core c).tlb ↔ x ∈ (s.core c).tlb ∧ ¬ hit x) ∧
        (∀ c x, x ∈ (t.cluster c).tlb ↔ x ∈ (s.cluster c).tlb ∧ ¬ hit x) ∧
        (∀ c x, x ∈ (t.core c).icache ↔ x ∈ (s.core c).icache ∧ ¬ (if mode = 0 then
          x.ctx = xb.toNat ∧ x.vpn = xa.toNat / 2 ^ 16 else if mode = 1 then x.ctx = xb.toNat else True)) ∧
        (mode ≠ 1 → OnlyTask { s with cores := t.cores, clusters := t.clusters } t e k) ∧
        (mode = 1 → (t.ctx xb.toNat).rkey = none ∧ ∀ k, (s.ctx xb.toNat).rkey = some k →
          k ≠ s.descMem xb.toNat 3 → (t.ctx xb.toNat).landed = []))
    (∀ f : FS, CanIssue s e 0 [.x f.xa f.fea, .x f.xb f.feb] [] →
      drops (.tlbinv f) 4 0 (e.task.getX f.xa) (e.task.getX f.xb)) ∧
    (∀ f : FSW, CanIssue s e f.st.toNat [.x f.xa f.fea, .x f.xb f.feb] [] →
      drops (.tlbinvSw f) 8 (f.imm.toNat % 4) (e.task.getX f.xa) (e.task.getX f.xb))) ∧
  (∀ (s : State) (e : Env),
    let reaches := fun (i : Instr) (n : Nat) (xa : W64) =>
      let named := fun c : Nat => xa.toNat.testBit 12 || c == xa.toNat % 4096
      (2 ^ 13 ≤ xa.toNat → Faults i s e cShape 0) ∧
      (xa.toNat < 2 ^ 13 → ∃ t k, exec i s = .next t ∧ Moved e.task k n ∧
        OnlyTask { s with cores := t.cores, clusters := t.clusters } t e k ∧
        (∀ c, t.core c = if dieOf c = e.die then { s.core c with
          cmds := (s.core c).cmds.map fun d => if d.parked = true ∧ named d.ctx = true then
            { d with retry := true } else d } else s.core c) ∧
        ∀ c, t.cluster c = if c / 16 = e.die then { s.cluster c with
          qps := (s.cluster c).qps.map fun q =>
            if q.2.parked = true ∧ (q.2.entries.any fun x => named x.ctx) = true then
              (q.1, { q.2 with replay := true }) else q } else s.cluster c)
    (∀ f : FS, CanIssue s e 0 [.x f.xa f.fea] [] → reaches (.replay f) 4 (e.task.getX f.xa)) ∧
    (∀ f : FSW, CanIssue s e f.st.toNat [.x f.xa f.fea] [] → reaches (.replaySw f) 8 (e.task.getX f.xa))) ∧
  (∀ (s : State) (e : Env),
    let d := s.die e.die
    let ends := fun (i : Instr) (n : Nat) (xd : BitVec 6) (v : W64) (b : State) => ∃ t k,
      exec i s = .next t ∧ OnlyTask b t e k ∧ Wrote e.task k xd v n
    let quar := fun (i : Instr) (n : Nat) (xd : BitVec 6) (xa xb : W64) =>
      let bad := xa.toNat % 65536 ≠ 0 ∨ 2 ^ 56 ≤ xa.toNat ∨ xb = 0 ∨ 8192 < xb.toNat ∨
        s.runClaimed (xa.toNat / 65536) xb.toNat = true
      (bad → Computes i s e xd 2 n) ∧
      (¬ bad → 4096 ≤ d.quar.length → Computes i s e xd 1 n) ∧
      (¬ bad → d.quar.length < 4096 → ends i n xd 0 (s.setDie e.die
        { d with quar := d.quar ++ [⟨xa.toNat / 65536, xb.toNat, d.epochNow.toNat⟩] }))
    let qstat := fun (i : Instr) (n : Nat) (xd : BitVec 6) (xa : W64) =>
      (xa = 0 → d.quar = [] → Computes i s e xd 0 n) ∧
      (∀ q qs, xa = 0 → d.quar = q :: qs → s.releasable q = false → Computes i s e xd 0 n) ∧
      (∀ q qs, xa = 0 → d.quar = q :: qs → s.releasable q = true →
        ends i n xd (w64 (q.frame * 65536 + (q.len - 1)))
          ((s.setDie e.die { d with quar := qs }).unlockRun q)) ∧
      (xa = 1 → Computes i s e xd
        (w64 (d.quar.length + (d.quar.filter s.releasable).length * 2 ^ 16)) n) ∧
      (2 ≤ xa.toNat → Faults i s e cShape 0)
    (∀ q : QuarRun, s.releasable q = true ↔
      (s.qdone - BitVec.ofNat 32 q.epoch).toNat < 2 ^ 31 ∧ s.runScrubbed q = false) ∧
    (∀ f : FS, CanIssue s e 0 [.x f.xa f.fea, .x f.xb f.feb] [.x f.xd] →
      quar (.quar f) 4 f.xd (e.task.getX f.xa) (e.task.getX f.xb)) ∧
    (∀ f : FSW, CanIssue s e f.st.toNat [.x f.xa f.fea, .x f.xb f.feb] [.x f.xd] →
      quar (.quarSw f) 8 f.xd (e.task.getX f.xa) (e.task.getX f.xb)) ∧
    (∀ f : FS, CanIssue s e 0 [.x f.xa f.fea] [.x f.xd] →
      qstat (.qstat f) 4 f.xd (e.task.getX f.xa)) ∧
    (∀ f : FSW, CanIssue s e f.st.toNat [.x f.xa f.fea] [.x f.xd] →
      qstat (.qstatSw f) 8 f.xd (e.task.getX f.xa)))

/-- R315, R316, R328: CFGDIFF with its list readable: each named core's shadow becomes its plane with the list
applied where the checksum agrees, and is refused otherwise; XD is 0 where every named core is ready and
CFG_CHECK otherwise. Unnamed cores are untouched, but for the TLBs that the list's pages fill. R328, R386,
R392: WLATCH latches the die's world once and gives 0, and gives 1 from then on; a world above 255 raises
SHAPE. HALT of a context asks each of its cores on the die to halt and gives their number, and holds its task
for those of them that have not halted and saved it. IDLE ends its task as END does. -/
def Obligations.worldControl : Prop :=
  (∀ (s : State) (e : Env) (hd bs : List (BitVec 8)) (n : Nat) (crc : BitVec 32),
    diffHeader hd = some (n, crc) →
    let applies := fun (i : Instr) (len : Nat) (xd : BitVec 6) (xa xb : W64) =>
      let named := fun c : Nat => dieOf c = e.die ∧ xb.toNat.testBit (c / 8 % 16) = true ∧
        (xb.toNat / 2 ^ 16 % 256 = 0 ∨ xb.toNat.testBit (16 + c % 8) = true)
      xb.toNat < 2 ^ 24 → s.engineBytes e.who xa 16 = .ok hd →
      s.engineBytes e.who (xa + 16) (16 * n) = .ok bs → ∃ t k v, exec i s = .next t ∧
        OnlyTask { s with cores := t.cores, clusters := t.clusters } t e k ∧ Wrote e.task k xd v len ∧
        let was := fun c => { s.core c with tlb := (t.core c).tlb }
        (∀ c, t.cluster c = { s.cluster c with tlb := (t.cluster c).tlb }) ∧
        (∀ c, c ≠ e.core → (t.core c).tlb = (s.core c).tlb) ∧
        (∀ c, ¬ named c → t.core c = was c) ∧
        (∀ c, named c → match diffEntries bs n with
          | none => t.core c = { was c with shadow := [], shadowSt := 2 }
          | some l =>
            let p := applyDiff (s.core c).plane l
            (crc32c (planeBytes p) = crc → t.core c = { was c with shadow := p, shadowSt := 1 }) ∧
            (crc32c (planeBytes p) ≠ crc → t.core c = { was c with shadow := [], shadowSt := 2 })) ∧
        ((∀ c, named c → (t.core c).shadowSt = 1) → v = 0) ∧
        ((∃ c, named c ∧ (t.core c).shadowSt ≠ 1) → v = w64 cCfgCheck)
    (∀ f : FS, CanIssue s e 0 [.x f.xa f.fea, .x f.xb f.feb] [.x f.xd] →
      applies (.cfgdiff f) 4 f.xd (e.task.getX f.xa) (e.task.getX f.xb)) ∧
    (∀ f : FSW, CanIssue s e f.st.toNat [.x f.xa f.fea, .x f.xb f.feb] [.x f.xd] →
      applies (.cfgdiffSw f) 8 f.xd (e.task.getX f.xa) (e.task.getX f.xb))) ∧
  (∀ (s : State) (e : Env),
    let d := s.die e.die
    let latch := fun (i : Instr) (n : Nat) (xd : BitVec 6) (xa : W64) =>
      (256 ≤ xa.toNat → Faults i s e cShape 0) ∧
      (xa.toNat < 256 → d.latched = true → Computes i s e xd 1 n) ∧
      (xa.toNat < 256 → d.latched = false → ∃ t k, exec i s = .next t ∧ Wrote e.task k xd 0 n ∧
        OnlyTask { s with dies := t.dies } t e k ∧ (∀ c, c ≠ e.die → t.die c = s.die c) ∧
        t.die e.die = { d with world := xa.extractLsb' 0 8, latched := true, unwrap := (t.die e.die).unwrap })
    let halt := fun (i : Instr) (n : Nat) (xd : BitVec 6) (xa : W64) =>
      let cs := s.coresOf e.die xa.toNat
      (xa = 0 ∨ 4096 ≤ xa.toNat → Faults i s e cShape 0) ∧
      (xa ≠ 0 → xa.toNat < 4096 → ∃ t k, exec i s = .next t ∧
        k = { e.task with
          x := k.x, pc := e.task.pc + w64 n, hold := k.hold, held := k.held, issued := k.issued } ∧
        (∀ r, k.getX r = if r = xd ∧ r ≠ 0 then w64 cs.length else e.task.getX r) ∧
        (let due := cs.filter fun c => !((s.core c).halting && s.saved c xa.toNat)
        k.hold = if due = [] then .free else .halting xa.toNat due) ∧
        OnlyTask { s with cores := t.cores } t e k ∧
        ∀ c, t.core c = if c ∈ cs then { s.core c with
            halting := true, barred := if (s.core c).barred.contains xa.toNat then (s.core c).barred
              else xa.toNat :: (s.core c).barred }
          else s.core c)
    (∀ f : FS, CanIssue s e 0 [.x f.xa f.fea] [.x f.xd] →
      latch (.wlatch f) 4 f.xd (e.task.getX f.xa) ∧ halt (.halt f) 4 f.xd (e.task.getX f.xa)) ∧
    (∀ f : FSW, CanIssue s e f.st.toNat [.x f.xa f.fea] [.x f.xd] →
      latch (.wlatchSw f) 8 f.xd (e.task.getX f.xa) ∧ halt (.haltSw f) 8 f.xd (e.task.getX f.xa)) ∧
    (s.translated e.core e.uid = true →
      (∀ f : FS, CanIssue s e 0 [] [] → ∃ (t : State), exec (.idle f) s = .next t ∧ Ended s t e [] []) ∧
      (∀ f : FSW, CanIssue s e f.st.toNat [] [] → ∃ (t : State), exec (.idleSw f) s = .next t ∧ Ended s t e [] [])))

/-! ## The machine -/

/-- Memory and the key tags of the reset state stand in canonical form. -/
def Obligations.resetInv : Prop := State.reset.Inv

/-- R318, R420, R422: every die is down after reset with GNOMON, HCORE, HPC, FQBASE, FQHEAD, FQTAIL, QEPOCH,
TAGBASE and WORLD at 0, FQSIZE at 16 and no world latched; CTXBASE and QDONE are 0, every ACCOWN entry,
CFGSTAT.SHADOW and the active context are 0, PLIMIT is 2,600 W, and no link is up. -/
def Obligations.resetState : Prop :=
  let s := State.reset
  (∀ d, (s.die d).up = false ∧ (s.die d).gnomon = 0 ∧ (s.die d).hcore = 0 ∧ (s.die d).hpc = 0 ∧
    (s.die d).fqbase = 0 ∧ (s.die d).fqsize = 16 ∧ (s.die d).fqhead = 0 ∧ (s.die d).fqtail = 0 ∧
    (s.die d).fq = [] ∧ (s.die d).qepoch = 0 ∧ (s.die d).tagbase = 0 ∧ (s.die d).world = 0 ∧
    (s.die d).latched = false) ∧
  s.ctxbase = 0 ∧ s.qdone = 0 ∧
  (∀ c, (s.core c).shadowSt = 0 ∧ (s.core c).activeCtx = none ∧ ∀ i, (s.core c).owner i = 0) ∧
  s.plimit = 2600000 ∧ s.linkUp = false ∧ ∀ p, (tabGet portReset s.ports p).up = false

/-- Every step of every state keeps memory and its key tags in canonical form: addresses strictly rising and
no byte listed that an unlisted address reads as. The form is the model's (log 3). -/
def Obligations.stepKeepsInv : Prop :=
 ∀ s t : State, s.Inv → step s = .next t → t.Inv

/-- Decode and encode agree: the bytes of a well-formed instruction, with whatever bytes after them, decode to
it and leave those bytes, for every operand value. -/
def Obligations.decodeEncode : Prop :=
  ∀ (i : Instr) (rest : List (BitVec 8)), i.WellFormed → encOf i ≠ none ∧ decode (encode i ++ rest) = .ok (i, rest)

/-- Words of the spec's encodings (R134 to R142, R165 to R168, R261) decode to the instructions they stand
for. -/
def Obligations.decodeWords : Prop :=
  decodeTableWord 32 0x00204300 = some (.add ⟨3, 1, 2, false, false⟩) ∧
  decodeTableWord 32 0x6000003C = some (.nop ⟨0, 0, 0, false, false⟩) ∧
  decodeTableWord 64 0x0000040040A24801 = some (.divSw ⟨8, 9, 10, false, false, 0, 0, false, 1⟩) ∧
  decodeTableWord 64 0x0000080050510305 = some (.setc ⟨3, 4, 5, false, false, 0, 0, false, 2⟩) ∧
  decodeTableWord 32 0xFFEC8728 = some (.bc ⟨7, false, 1, 0x3FFB⟩) ∧
  decodeTableWord 32 0x00510340 = some (.fadd .f32 ⟨3, 4, 5, false, false⟩)

/-- R147, R164, R367: where the bytes at the PC of the running task, as its core's instruction cache and
memory give them (R10, R145), are those of a well-formed instruction, on one page or on two of one section,
and the first fetch of a task lands on an instruction start, a step executes that instruction in the state
that the fetch leaves, whose TLBs and instruction cache alone may differ; then time moves on (R9), the core
queues of ready tasks are kept (R341) and the spinning contexts are followed (R345). A fetch that needs a walk
while every walker of its die is busy holds its task instead (log 14). -/
def Obligations.stepRunsDecoded : Prop :=
  ∀ (s : State) (e : Env) (i : Instr) (k mk : Nat), s.agenda = [] → s.runner = some e → i.WellFormed →
    (e.atStart = true → s.badTarget e.who e.task.pc = false) → e.task.badFetch = none → s.codeByte e e.task.pc = .ok (k, mk) →
    let n := (encode i).length
    let room := 65536 - e.task.pc.toNat % 65536
    let bytes := s.codeBytes e.who e.task.pc.toNat
    let b := s.fetchFill e
    (s.fetchWaits e = true → s.walkersBusy e.die = true ∧ step s = ticked s (.next (s.holdTask e))) ∧
    (b = { s with cores := b.cores, clusters := b.clusters } ∧
      (∀ c, b.core c = { s.core c with tlb := (b.core c).tlb, icache := (b.core c).icache }) ∧
      ∀ c, b.cluster c = { s.cluster c with tlb := (b.cluster c).tlb }) ∧
    ((s.core e.core).icache = [] → ∀ m, bytes mk k m = s.readBytes mk k m) ∧
    (n ≤ room → s.fetchWaits e = false → (∃ x, s.codeByte e (e.task.pc + w64 (n - 1)) = .ok x) →
      bytes mk k n = encode i → step s = ticked s (exec i b)) ∧
    ∀ k2 mk2, room < n → 4 ≤ room → s.fetchWaits e = false → s.codeByte e (e.task.pc + w64 room) = .ok (k2, mk2) →
      (s.lockOf k).map (·.id) = (s.lockOf k2).map (·.id) →
      bytes mk k room ++ s.codeBytes e.who (e.task.pc + w64 room).toNat mk2 k2 (n - room) = encode i →
      step s = ticked s (exec i b)

/-- An input that waits is taken first; with none, and with no task selected, one of the things that can
happen next is done, which the model's open choice names (log 5). Time moves GNOMON of each die that is up and
of no other (R9). -/
def Obligations.stepTakes : Prop :=
  (∀ (s : State) (i : Instr) (rest : List Instr), s.agenda = i :: rest → i.isForm = false →
    step s = ticked s (exec i { s with agenda := rest })) ∧
  (∀ s : State, s.agenda = [] → s.runner = none → ∃ w ∈ s.candidates, s.chosen = some w ∧
    step s = ticked s (w s)) ∧
  ∀ (s : State) (d : Nat), ∃ n, (s.tick.die d).gnomon =
    if (s.die d).up then (s.die d).gnomon + w64 (1 + n) else (s.die d).gnomon

/-- R322, R362: a fault that goes to the queue of a die is a record of 64 bytes at FQBASE + 64 × FQTAIL with
each field in its place, FQTAIL moves on by one record, and a task of the system context stands ready at HPC
with x1 to x5, its record in the pool (R33). No other byte reads otherwise, and nothing else has changed. -/
def Obligations.faultRecord : Prop :=
  ∀ (s : State) (i : FaultInfo) (m : Team), tabFind s.teams (sysTeam i.die) = some m → i.die < 4 →
    i.code < 256 → i.source < 256 → i.flags < 256 → i.unit < 256 → i.ctx < 4096 → i.core < 512 →
    i.team < 2 ^ 32 → i.mpc < 2 ^ 64 →
    let d := s.die i.die
    let base := physKey i.die (d.tailAddr % 2 ^ 46)
    let t := s.queueFault i
    d.tailAddr % 2 ^ 46 + 64 ≤ 0x003000000000 → Writable s 0 base 64 → ∃ (b : State) (r : Rec),
    let field := fun off size => b.readNat 0 (base + off) size
    (field 0x00 1 = i.code ∧ field 0x01 1 = i.source ∧ field 0x02 1 = i.flags ∧ field 0x03 1 = i.unit ∧
      field 0x04 2 = i.ctx ∧ field 0x06 2 = i.core ∧ field 0x08 8 = i.pc.toNat ∧
      field 0x10 8 = i.addr.toNat ∧ field 0x18 8 = i.tag.toNat ∧ field 0x20 4 = i.team ∧
      field 0x24 4 = d.epochNow.toNat ∧ field 0x28 8 = i.mpc ∧ field 0x30 8 = i.origin.toNat ∧
      field 0x38 8 = 0) ∧
    (∀ a, s.installed 0 a = true → a < base ∨ base + 64 ≤ a → b.readByte 0 a = s.readByte 0 a) ∧
    (∀ key a, a / 128 ≠ base / 128 → a / 128 ≠ (base + 63) / 128 → b.readByte key a = s.readByte key a) ∧
    (∀ j, t.die j = if j = i.die then { d with
      fq := (t.die i.die).fq, fqtail := BitVec.ofNat 12 ((d.fqtail.toNat + 1) % d.fqsize.toNat) }
      else s.die j) ∧
    (∃ (r : FaultRec), (t.die i.die).fq = d.fq ++ [r] ∧ r.index = d.fqtail.toNat ∧ r.code = i.code ∧ r.source = i.source ∧
      r.team = i.uid ∧ r.origin = i.recId ∧ r.cmd = i.cmd ∧ r.core = i.core ∧ r.flags = i.flags ∧
      r.unit = i.unit ∧ r.mpc = i.mpc ∧ r.pc = i.pc ∧ r.addr = i.addr ∧ r.parked = i.flags.testBit 2 ∧
      r.term = i.flags.testBit 3 ∧ r.released = false) ∧
    (tabFind t.teams (sysTeam i.die) =
        some { m with recs := m.recs ++ [r], ready := m.ready ++ [r.id] } ∧
      r.id = s.nextId ∧ r.pc = d.hpc.zeroExtend 64 ∧ r.state = 1 ∧ r.live = 0x3E ∧
      tabGet 0 r.regs 1 = w64 d.tailAddr ∧ tabGet 0 r.regs 2 = w64 i.code ∧
      tabGet 0 r.regs 3 = w64 (0x80000000 + i.core) ∧ tabGet 0 r.regs 4 = i.addr ∧
      tabGet 0 r.regs 5 = w64 i.ctx) ∧
    (∀ u, u ≠ sysTeam i.die → tabFind t.teams u = tabFind s.teams u) ∧
    b = { s with mem := b.mem, tags := b.tags, dies := t.dies, teams := t.teams, nextId := s.nextId + 1 } ∧
    let c := { s with mem := b.mem, tags := b.tags }
    Pooled c (m.core.getD 512) r m.ctx ∧
    Recorded b t (c.keyOn (m.core.getD 512) m.ctx) { m with recs := m.recs ++ [r] } r

/-- R38, R322, R365: a requeue fault of a tenant's task ends it, leaves its origin record in STATE 3 with its
TASKID (a first task's start marked instead), keeps every older store, and writes the record that its return
reads. With a full queue the task stays at its boundary. R40, R313, R364: where FHANDLER is 0, or a handler
task faulted, a record with TERM = 1 is written and every team of the launch is discarded; a fault of the
system context is a machine check 0xE4 instead, which ends its task and no other. -/
def Obligations.faultFates : Prop :=
  (∀ (s : State) (e : Env) (f : Raise), s.issuer = some e → e.team.ctx ≠ 0 → e.uid ≠ sysTeam e.die →
    requeues f.code f.lent = true → s.translated e.core e.uid = true → (∀ i, e.task.hold ≠ .ending i) →
    ((s.die e.die).fqFull = true → s.raise e f = s.holdTask e) ∧
    ((s.die e.die).fqFull = false →
      let t := s.raise e f
      (∀ o r, e.task.origin = some o → (e.team.recs.find? fun q => q.id == o) = some r →
        tabFind t.teams e.uid = some (e.without [{ r with state := 3, seq := some e.task.seq }] [])) ∧
      (e.task.origin = none → tabFind t.teams e.uid = some { e.without [] [] with
        startAborted := true, startSeq := some e.task.seq }) ∧
      (∃ (r : FaultRec), (t.die e.die).fq = (s.die e.die).fq ++ [r] ∧ r.code = f.code ∧ r.source = 0 ∧ r.team = e.uid ∧
        r.origin = e.task.origin.getD 0 ∧ r.parked = false ∧ r.term = false ∧ r.pc = e.task.pc ∧
        r.addr = f.addr) ∧
      (∀ a ∈ (s.core e.core).stores, a.id < s.nextId → a ∈ (t.core e.core).stores) ∧
      (∀ u, u ≠ e.uid → u ≠ sysTeam e.die → tabFind t.teams u = tabFind s.teams u) ∧
      (∀ c, c ≠ e.core → t.core c = s.core c) ∧ t.focus = none)) ∧
  (∀ (s : State) (e : Env) (f : Raise), s.issuer = some e → s.translated e.core e.uid = true →
    let t := s.raise e f
    (∀ l, e.team.ctx ≠ 0 → e.uid ≠ sysTeam e.die → requeues f.code f.lent = false →
      s.launchOf e.team = some l → e.team.dead = false → l.fhandler = 0 ∨ e.task.handler = true →
      ((s.die e.die).fqFull = true → t = s.holdTask e) ∧
      ((s.die e.die).fqFull = false →
        (∃ (r : FaultRec), (t.die e.die).fq = (s.die e.die).fq ++ [r] ∧ r.code = f.code ∧ r.term = true ∧
          r.pc = e.task.pc ∧ r.addr = f.addr) ∧
        (∀ u m, tabFind t.teams u = some m → m.ctx = e.team.ctx → m.slot = e.team.slot →
          m.dead = true ∨ ∃ (m' : Team), tabFind s.teams u = some m' ∧ m'.dead = true) ∧
        ∀ q, q ≠ e.die → t.die q = s.die q)) ∧
    (e.team.ctx = 0 → (∃ m : Team, tabFind t.teams e.uid = some m ∧ m.task = none) ∧
      (∀ u, u ≠ e.uid → tabFind t.teams u = tabFind s.teams u) ∧
      (∃ (r : McRec), t.lastCheck = some r ∧ r.code = 0xE4 ∧ r.die = e.die ∧ r.core = e.core ∧
        (0x40 ≤ f.code → f.code ≠ cPeerLost → r.addr = 0)) ∧
      t.outbox = s.outbox ++ [.msix 2047]))

/-! ## Events -/

/-- R27, R29, R30, R32, R34, R92, R365: the oldest ready task of a team starts on its core once the core runs
its context: a first task at ENTRY with x1 and x2, a task from a record at its PC with its registers (and its
status in x1; its header says so, R33), every other register at its value of a start. R340: a round of a
core's front end asks the team of the highest PRIO first, and of these the one that issued least recently,
C0x000's, which run beside the active context, before all (the model's choice, log 29); R422: a throttled core
asks none. -/
def Obligations.taskStarts : Prop :=
  (∀ (s : State) (u n core : Nat) (t : Team) (rest : List Nat), tabFind s.teams u = some t →
    t.ready = n :: rest → s.startCore u t = some core → s.mayStart u t core = true →
    let starts := fun (m : Team) (p : Task → Prop) (shows : State → State → Prop) => ∃ b r k,
      exec (.taskStart u) s = .next r ∧ p k ∧ b = { s with teams := b.teams } ∧ shows b r ∧
      (∀ q, tabFind b.teams q = if q = u then
        some { m with
          core := some core, task := some k, ready := rest
          tslot := if t.core = some core then t.tslot else freeSlot ((s.teamsOn core).filter fun x => x.1 != u) }
        else tabFind s.teams q) ∧
      k.xEmpty = 0 ∧ k.vEmpty = 0 ∧ (∀ j, tabGet .unproduced k.tok j = .unproduced) ∧
      (∀ j row, k.vrow j row = 0) ∧ (∀ j, k.pred j = 0x3FFF) ∧ k.rows = 16 ∧ k.cols = 32 ∧ k.wc = 0 ∧
      k.left = 0 ∧ k.active = 0 ∧ k.last = 0 ∧ k.rs = 0 ∧ k.rrb = 0 ∧ k.semBase = 0 ∧ k.ret = [] ∧
      k.marks = [] ∧ k.acqs = [] ∧ k.hold = .free
    (∀ l, n = 0 → s.launchOf t = some l → starts { t with
        started := if t.startSeq.isSome then t.started else t.started + 1, startSeq := none }
      (fun k => k.pc = l.entry ∧ k.seq = t.startSeq.getD t.started ∧ k.origin = none ∧ k.handler = false ∧
        ∀ i, k.getX i = if i = 1 then w64 t.index else if i = 2 then l.args else 0)
      fun b r => r = b) ∧
    ∀ r, n ≠ 0 → (t.recs.find? fun r => r.id == n) = some r →
      let m := { t with
        started := if r.seq.isSome then t.started else t.started + 1
        recs := t.recs.map fun q => if q.id = r.id then { q with state := 2 } else q }
      starts m (fun k => k.pc = r.pc ∧ k.seq = r.seq.getD t.started ∧ k.origin = some r.id ∧
        (k.handler = true ↔ r.kind = 5) ∧ ∀ i, k.getX i =
          if i = 0 then 0
          else if i = 1 ∧ (r.kind = 1 ∨ r.kind = 2 ∨ (r.kind = 3 ∧ r.status ≠ 0)) then w64 r.status
          else tabGet 0 r.regs i.toNat)
        fun b t' => ∀ q ∈ m.recs, q.id = r.id → Shown b t' (s.keyOn core t.ctx) { m with core := some core } q) ∧
  ∀ (s : State) (c : Nat),
    let asks := fun (m : Team) => m.core = some c ∧ s.isDoomed m = false ∧
      (m.ctx = 0 ∨ (s.core c).activeCtx = some m.ctx ∧ (s.core c).halting = false) ∧
      ∃ k, m.task = some k ∧ k.hold = .free
    (s.duty ≤ (s.die (dieOf c)).gnomon.toNat % 16 → exec (.taskIssueSelect c) s = .next s) ∧
    ((s.die (dieOf c)).gnomon.toNat % 16 < s.duty → ∃ r, exec (.taskIssueSelect c) s = .next r ∧
      r = { s with teams := r.teams, focus := r.focus } ∧
      (∀ u, tabFind r.teams u = (tabFind s.teams u).map fun m => if m.core = some c then
        { m with task := m.task.map fun k => { k with held := false } } else m) ∧
      (r.focus = none → ∀ x ∈ s.teams, ¬ asks x.2) ∧
      ∀ u, r.focus = some u → ∃ m, (u, m) ∈ s.teams ∧ asks m ∧ ∀ x ∈ s.teams, asks x.2 →
        (m.ctx = 0 ∧ x.2.ctx ≠ 0) ∨ ((m.ctx = 0 ↔ x.2.ctx = 0) ∧
          (x.2.prio < m.prio ∨ (x.2.prio = m.prio ∧ m.lastIssue ≤ x.2.lastIssue))))

/-- R24 to R26, R80, R334: the launch that its context serves gets its next team on the core that R334 names:
it fits there, on a die that DIEMASK and DIES permit and where the context is resident, of these with the most
free team slots, and of its cores with the most free scratchpad, lower numbers first; the team has ALLOT and
its tiles, and its first task is ready. R25, R335: a GATHER launch is placed whole, a team for every index
that is left, each so; where they do not all fit, nothing is placed. R333: a launch that is served could
place, and none before it could. R347: no context that ranks before it competes for a core that it takes, else
nothing is placed. A context's only launch, with no launch of another context waiting, is placed. Which launch
is served where one before it cannot place is the model's choice (log 31). R28, R319, R20: a team with nothing
left retires: its slot is free, its allotment reads zero, each tile that its context owns reads zero and has
no owner, and the last team of a launch completes it: the launch leaves its slot and DONEINC is on its way. -/
def Obligations.teamPlacement : Prop :=
  ((∀ (s b : State) (ctx core : Nat) (l : Launch), s.serveCtx ctx = some (l, core, b) →
    l ∈ (s.ctx ctx).launches ∧ l.placed < l.teams ∧ Best s ctx l core ∧
    (∀ m ∈ (s.ctx ctx).launches, m.slot ≠ l.slot → m.placed < m.teams → m.before l = true →
      s.placeNext ctx m = none) ∧
    (∀ m ∈ (s.ctx ctx).launches, m.slot ≠ l.slot → m.placed < m.teams → m.gather = true → l.prio ≤ m.prio →
      s.placeNext ctx m ≠ none) ∧
    (s.rivals b ctx = true → exec (.teamPlacement ctx l.slot) s = .next s) ∧
    (s.rivals b ctx = false → ∃ (t : State), exec (.teamPlacement ctx l.slot) s = .next t ∧
      (l.gather = false → Places s t ctx l core) ∧
      (l.gather = true → PlacesAll s t ctx l (l.teams - l.placed)))) ∧
  (∀ (s : State) (ctx slot : Nat), (∀ l ∈ (s.ctx ctx).launches, l.slot = slot → l.gather = true ∧
      ¬ ∃ t, PlacesAll s t ctx l (l.teams - l.placed)) → exec (.teamPlacement ctx slot) s = .next s) ∧
  ∀ (s : State) (ctx core : Nat) (l : Launch), (s.ctx ctx).launches = [l] → l.placed < l.teams →
    (∀ c, c ≠ ctx → ∀ m ∈ (s.ctx c).launches, m.teams ≤ m.placed) →
    (l.gather = false → Best s ctx l core → ∃ (t : State), exec (.teamPlacement ctx l.slot) s = .next t ∧
      Places s t ctx l core) ∧
    (l.gather = true → s.placeNext ctx l ≠ none → ∃ (t : State),
      exec (.teamPlacement ctx l.slot) s = .next t ∧ PlacesAll s t ctx l (l.teams - l.placed))) ∧
  (∀ (s : State) (u core : Nat) (m : Team), tabFind s.teams u = some m → m.core = some core → 16 ≤ u →
    s.teamOver u m = true → (s.die (dieOf core)).lost = false → ∃ (t : State), exec (.teamRetire u) s = .next t ∧
      (∀ v, tabFind t.teams v = if v = u then none else tabFind s.teams v) ∧
      (∀ key a, t.readByte key a =
        if padKey u ≤ a ∧ a < padKey (u + 1) then 0 else s.readByte key a) ∧
      (∀ c, c ≠ core → t.core c = s.core c) ∧
      (∀ i, (t.core core).owner i = if i ∈ m.tiles ∧ ownedBy ((s.core core).owner i) m.ctx = true then
        (s.core core).owner i &&& 0x7FFF else (s.core core).owner i) ∧
      (∀ r, tabGet 0 (t.core core).acc r =
        if r / 128 ∈ m.tiles ∧ ownedBy ((s.core core).owner (r / 128)) m.ctx = true then 0
        else tabGet 0 (s.core core).acc r) ∧
      (∀ l, ((s.ctx m.ctx).launches.find? fun x => x.slot == m.slot) = some l →
        (l.retired + 1 < l.teams →
          ((t.ctx m.ctx).launches.find? fun x => x.slot == m.slot) =
            some { l with retired := l.retired + 1 } ∧ t.reqs = s.reqs) ∧
        (l.teams ≤ l.retired + 1 →
          ((t.ctx m.ctx).launches.find? fun x => x.slot == m.slot) = none ∧
          ∀ n, l.done = some n → tabFind t.reqs s.nextId =
            some (.semSig m.ctx n l.doneinc.toNat 0 0 0 l.tag 5 none 0))) ∧
      t = { s with mem := t.mem, cores := t.cores, teams := t.teams, ctxs := t.ctxs, reqs := t.reqs,
                   nextId := t.nextId })

/-- R333: with a launch slot free, the head record of the highest queue that is not empty becomes a launch in
the lowest free slot, and HEAD moves on. R412, R331, R19: a record rung in at a launch window is answered in
the window's status word with the first reason that holds, or stands in the slot at TAIL of its priority's
ring, and TAIL moves on; before the host link is up nothing happens. -/
def Obligations.launchQueues : Prop :=
  (∀ (s : State) (ctx slot p : Nat), s.freeLaunch ctx = some slot → s.headPrio ctx = some p →
    s.ctxState ctx = 1 → s.homeResident ctx = true →
    let r := s.launchRing ctx p
    let f := fun off n => s.readNat 0 (r.slotKey r.head + off) n
    Hbm (r.key + 12) 4 → Writable s 0 (r.key + 12) 4 →
    ∃ (t : State) (l : Launch), exec (.launchSlotTake ctx) s = .next t ∧
      Stored s t 0 (r.key + 12) (leBytes 4 ((r.head + 1) % 2 ^ 32)) ∧
      (∀ q, p < q → q < 4 → (s.launchRing ctx q).used = 0) ∧
      (∀ i, i < slot → ∃ x ∈ (s.ctx ctx).launches, x.slot = i) ∧
      (t.ctx ctx).launches = (s.ctx ctx).launches ++ [l] ∧
      l.slot = slot ∧ l.entry.toNat = f 0x00 8 ∧ l.args.toNat = f 0x08 8 ∧ l.fhandler.toNat = f 0x10 8 ∧
      l.teams = f 0x18 2 + 1 ∧ l.allot = f 0x1C 1 ∧ l.acct = f 0x1D 1 ∧ l.prio = f 0x1E 1 % 4 ∧
      l.gather = (f 0x1F 1).testBit 0 ∧ l.nomig = (f 0x1F 1).testBit 1 ∧ l.diemask = f 0x1F 1 / 4 % 16 ∧
      l.done = (if (f 0x2A 2).testBit 15 then some (f 0x2A 2 % 256) else none) ∧
      l.doneinc.toNat = f 0x2C 4 ∧ l.tag.toNat = f 0x30 8 ∧ l.placed = 0 ∧ l.retired = 0 ∧
      (∀ c, c ≠ ctx → t.ctx c = s.ctx c) ∧
      t = { s with mem := t.mem, tags := t.tags, ctxs := t.ctxs, nextId := s.nextId + 1 }) ∧
  ∀ (s : State) (w ctx : Nat) (bs : List (BitVec 8)), bs.length = 256 →
    let prio := recF bs 0x1E 1 % 4
    let r := s.launchRing ctx prio
    let reason := s.recordReason (s.fabricWho ctx) ctx bs
    let answered := fun code => ∃ (t : State), exec (.launchRecordArrival (.host w) ctx bs) s = .next t ∧
      t = { s with winStatus := t.winStatus } ∧
      ∀ x, tabGet 0 t.winStatus x =
        if x = w then winWord ((tabGet 0 s.winStatus w).toNat % 2 ^ 32) code else tabGet 0 s.winStatus x
    let lost := (s.die (s.homeDie ctx)).lost
    (s.linkUp = false → exec (.launchRecordArrival (.host w) ctx bs) s = .next s) ∧
    (s.linkUp = true →
    (s.ctxState ctx ≠ 1 → answered cFabricAcl) ∧
    (s.ctxState ctx = 1 → lost = true → answered cPeerLost) ∧
    (s.ctxState ctx = 1 → lost = false → ∀ c, reason = .error c → answered c) ∧
    (s.ctxState ctx = 1 → lost = false → ∀ g, reason = .ok g → r.size ≤ r.used → answered 6) ∧
    (s.ctxState ctx = 1 → lost = false → ∀ g, reason = .ok g → r.used < r.size →
      Hbm (r.slotKey r.tail) 256 → Writable s 0 (r.slotKey r.tail) 256 → Hbm (r.key + 16) 4 →
      Writable s 0 (r.key + 16) 4 →
      ∃ (b t : State), exec (.launchRecordArrival (.host w) ctx bs) s = .next t ∧
        Stored s b 0 (r.slotKey r.tail) bs ∧
        Stored b t 0 (r.key + 16) (leBytes 4 ((r.tail + 1) % 2 ^ 32)) ∧
        tabGet 0 t.winStatus w = winWord ((tabGet 0 s.winStatus w).toNat % 2 ^ 32) 0 ∧
        tabGet [] (t.ctx ctx).gtabs (prio * 2 ^ 32 + r.tail % max 1 r.size) = g ∧
        t = { s with mem := t.mem, tags := t.tags, ctxs := t.ctxs, winStatus := t.winStatus }))

/-- R5, R6, R285, R286, R342, R410, R422: what system software, the host and the debug agent write from
outside: the register takes the value, reserved bits read zero, and nothing else changes; a fairness word
waits for the first tick whose ac has not come, shares that do not make 100 are ignored, and so is a limit
outside its range (log 68). HWBASE takes an unaligned value (log 55). The debug agent's release lets a task go
on that a BREAK holds, and no other. R84: a result on its way comes to its registers, which then read full;
every other register and everything else of its task is as before. R86: one whose task has ended comes to
nothing. R265: that of a SEMRD ends its command. -/
def Obligations.registerWrites : Prop :=
  (∀ s : State,
    (∀ v, ∃ a, exec (.registerWrite (.apctl v)) s = .next { s with apctl := a } ∧
      ∀ i, i < 64 → a.getLsbD i = (v.getLsbD i && !(decide (16 ≤ i) && decide (i < 32)))) ∧
    (∀ v, exec (.registerWrite (.hwbase v)) s = .next { s with hwbase := v }) ∧
    (∀ p, exec (.registerWrite (.plimit p)) s =
      .next (if 1000000 ≤ p ∧ p ≤ 3000000 then { s with plimit := p } else s)) ∧
    (∀ pkg m, ∃ d, exec (.registerWrite (.downMask pkg m)) s = .next { s with downMask := d } ∧
      ∀ q, tabGet 0 d q = if q = pkg then m else tabGet 0 s.downMask q) ∧
    (∀ die entry word v, die < 4 → entry < 256 → word < 8 → ∃ (t : State),
      exec (.registerWrite (.fairness die entry word v)) s = .next t ∧
      t = { s with dies := t.dies } ∧ (∀ d, d ≠ die → t.die d = s.die d) ∧
      t.die die = { s.die die with fairPend := (t.die die).fairPend } ∧
      ∀ q, tabFind (t.die die).fairPend q =
        if q = (s.die die).ticksDue * 2 ^ 20 + entry * 8 + word then some v else tabFind (s.die die).fairPend q) ∧
    (∀ die entry word v, 4 ≤ die ∨ 256 ≤ entry ∨ 8 ≤ word →
      exec (.registerWrite (.fairness die entry word v)) s = .next s) ∧
    (∀ port a b c, (a + b + c = 100 → ∃ p, exec (.registerWrite (.portShare port a b c)) s =
        .next { s with ports := p } ∧ ∀ q, tabGet portReset p q = if q = port then
          { tabGet portReset s.ports port with shares := (a, b, c) } else tabGet portReset s.ports q) ∧
      (a + b + c ≠ 100 → exec (.registerWrite (.portShare port a b c)) s = .next s)) ∧
    (∀ pkg ctx base len r w, exec (.registerWrite (.exportSet pkg ctx base len r w)) s =
      .next { s with exports := s.exports ++ [⟨pkg, ctx, base, len, r, w⟩] }) ∧
    (∀ pkg ctx, ∃ l, exec (.registerWrite (.exportClear pkg ctx)) s = .next { s with exports := l } ∧
      ∀ x, x ∈ l ↔ x ∈ s.exports ∧ ¬ (x.pkg = pkg ∧ x.ctx = ctx)) ∧
    ∀ u, ∃ (t : State), exec (.registerWrite (.breakRelease u)) s = .next t ∧ t = { s with teams := t.teams } ∧
      (∀ q, q ≠ u → tabFind t.teams q = tabFind s.teams q) ∧
      (∀ m k, tabFind s.teams u = some m → m.task = some k → k.hold = .brk →
        tabFind t.teams u = some { m with task := some { k with hold := .free } }) ∧
      ((∀ m k, tabFind s.teams u = some m → m.task = some k → k.hold ≠ .brk) →
        tabFind t.teams u = tabFind s.teams u)) ∧
  (∀ (s : State) (c id : Nat) (r : Result) (m : Team),
    ((s.core c).results.find? fun q => q.id == id) = some r → tabFind s.teams r.team = some m →
    ∃ (t : State), exec (.resultArrival c id) s = .next t ∧
      (∀ q, q ≠ c → (∀ d, s.cmd c id = some d → q ≠ d.core) → t.core q = s.core q) ∧
      ((∀ d, s.cmd c id = some d → d.queue ≠ .sync) → t = { s with cores := t.cores, teams := t.teams } ∧
        t.core c = { s.core c with results := (s.core c).results.filter fun q => q.id != id }) ∧
      (∀ d, s.cmd c id = some d → d.queue = .sync → d.core = c → Over s t d ∧
        t = { s with cores := t.cores, teams := t.teams, openCmds := t.openCmds, reqs := t.reqs
                     nextId := t.nextId } ∧
        t.core c = { s.core c with
          results := (s.core c).results.filter fun q => q.id != id
          cmds := (s.core c).cmds.filter fun q => q.id != id
          sb := (t.core c).sb }) ∧
      (∀ u, u ≠ r.team → tabFind t.teams u = tabFind s.teams u) ∧
      (m.task = none → tabFind t.teams r.team = some m) ∧
      ∀ k, m.task = some k → ∃ k', tabFind t.teams r.team = some { m with task := some k' } ∧
        k' = { k with x := k'.x, xEmpty := k'.xEmpty, v := k'.v, vEmpty := k'.vEmpty } ∧
        (∀ i : BitVec 6, (∀ v, r.xs = some (i.toNat, v) → i ≠ 0 →
            k'.getX i = v ∧ k'.xIsEmpty i = false) ∧
          ((∀ v, r.xs ≠ some (i.toNat, v)) → (∀ d v, r.xs = some (d, v) → d < 64) →
            k'.getX i = k.getX i ∧ k'.xIsEmpty i = k.xIsEmpty i)) ∧
        (∀ j, j < 32 → k'.vEmpty.getLsbD j = (k.vEmpty.getLsbD j && !r.regs.contains j)) ∧
        (∀ x ∈ r.rows, (∀ y ∈ r.rows, y.1 = x.1 → y.2 = x.2) → tabGet 0 k'.v x.1 = x.2) ∧
        ∀ key, (∀ x ∈ r.rows, x.1 ≠ key) → tabGet 0 k'.v key = tabGet 0 k.v key)

/-- R409 to R412: a host access once the link is up: BAR0 reads its four registers and ignores writes to those
that software cannot write, BAR2 stages the bytes of a launch record and shows the status word, and an access
through BAR4 that R411 refuses counts in APERR and reads as Unsupported Request, while one that it permits
reads or writes the bytes of its units. R412: a doorbell hands its staged record over and its answer, with
SEQ, stands in the status word; bit 32 asks for an MSI-X. With the link down neither does anything. That
writes to offsets which no register has are ignored (log 69), and that MODE 1 is refused for a context that is
not live (log 70), are the model's readings. -/
def Obligations.hostAccess : Prop :=
  (∀ (s : State), s.linkUp = false → (∀ acc : ApertureAcc, exec (.apertureAccess acc) s = .next s) ∧
    ∀ w value, exec (.hostDoorbell w value) s = .next s) ∧
  ∀ s : State, s.linkUp = true →
    let answers := fun acc (bs : Option (List (BitVec 8))) =>
      exec (.apertureAccess acc) s = .next { s with outbox := s.outbox ++ [.hostRead bs] }
    (∀ off v, (off = 0 ∧ v = s.apctl) ∨ (off = 8 ∧ v = s.hwbase) ∨ (off = 16 ∧ v = s.aperr.zeroExtend 64) ∨
        (off = 24 ∧ v = w64 (s.lanes.toNat + if s.linkUp then 16 else 0)) →
      answers ⟨0, false, off, 8, []⟩ (some (leBytes 8 v.toNat))) ∧
    (∀ off bs, 16 ≤ off → off + bs.length ≤ 65536 →
      exec (.apertureAccess ⟨0, true, off, bs.length, bs⟩) s = .next s) ∧
    (∀ w, w < 4096 → answers ⟨2, false, w * 4096 + 0x108, 8, []⟩
      (some (leBytes 8 (tabGet 0 s.winStatus w).toNat))) ∧
    (∀ w off bs, w < 4096 → off + bs.length ≤ 256 → ∃ (t : State),
      exec (.apertureAccess ⟨2, true, w * 4096 + off, bs.length, bs⟩) s = .next t ∧
      t = { s with staged := t.staged } ∧ ∀ v i, i < 256 → tabGet 0 t.staged (v * 256 + i) =
        if v = w ∧ off ≤ i ∧ i < off + bs.length then bs.getD (i - off) 0
        else tabGet 0 s.staged (v * 256 + i)) ∧
    (∀ (off len : Nat) (write : Bool) (data : List (BitVec 8)), off + len ≤ 2 ^ 32 →
      (write = true → data.length = len) →
      let sp := s.apertureSpans (s.apctl.toNat / 2 ^ 32 * 2 ^ 32 + off) len write
      let acc : ApertureAcc := ⟨4, write, off, len, data⟩
      (sp = none → exec (.apertureAccess acc) s = .next { s with
        aperr := s.aperr + 1
        outbox := if write then s.outbox else s.outbox ++ [.hostRead none] }) ∧
      (∀ us, sp = some us → write = false → answers acc (some (s.readSpans us))) ∧
      ∀ us, sp = some us → write = true → exec (.apertureAccess acc) s = .next (s.putUnits us data)) ∧
    (s.apctl.toNat % 4 = 1 → ∀ va len w, s.ctxState (s.apctl.toNat / 16 % 4096) ≠ 1 →
      s.ctxState (s.apctl.toNat / 16 % 4096) ≠ 2 → s.apertureSpans va len w = none) ∧
    (2 ≤ s.apctl.toNat % 4 → ∀ va len w, s.apertureSpans va len w = none) ∧
    ∀ w value, w < 4096 → value < 2 ^ 33 →
      let r := s.acceptLaunch (s.fabricWho w) w (s.stagedBytes w) none
      ∃ (t : State), exec (.hostDoorbell w value) s = .next t ∧
        (tabGet 0 t.winStatus w).toNat % 2 ^ 32 = value % 2 ^ 32 ∧
        (tabGet 0 t.winStatus w).toNat / 2 ^ 32 % 256 = r.1 % 256 ∧
        (∀ x, x ≠ w → tabGet 0 t.winStatus x = tabGet 0 s.winStatus x) ∧
        t = { r.2 with
          winStatus := t.winStatus
          outbox := r.2.outbox ++ if value.testBit 32 then [.msix (w % 2047)] else [] }

/-- R113, R114, R206: a piece of a load takes its value: its place's bytes in this package's memory, or what a
place outside answers, once the load has been sent there by its plane or the host link (R413, R414). No memory
and no register has changed. R84, R116, R208: once every piece has its value and no older load of the task
waits, the load leaves its queue and its value is on its way to its registers. R361, R391, R424: a piece whose
place is lost takes none, nor one that the memory controller refuses; the task takes the fault. R105, R113,
R114, R116, R128: a piece of a store comes to its next point. Before its ordering point no byte of memory has
changed; at the ordering point exactly its bytes have, and of those only the bits that it writes and that
software may write (R5, R6; log 97). R381: a write to the scratchpad marks its regions. R413: a store to host
memory leaves the package there, for HWBASE + the offset, and is read back behind it for the system; R130,
R414: one to another package at the scale-up port. An entry whose pieces have all come to their last point is
gone. -/
def Obligations.loadsStores : Prop :=
  (∀ (s : State) (c id i : Nat) (ext : Option (BitVec 64)) (a : Access) (p : Piece),
    ((s.core c).loads.find? fun a => a.id == id) = some a → a.kind = .load → a.cmd = 0 →
    a.pieces[i]? = some p → s.mayLoad c a i p = true →
    let step := exec (.loadPerform c id i ext) s
    (∀ v, ((∃ k, p.loc = some (.mem k) ∧ s.locLost (.mem k) = false ∧ s.refused p.mkey k false = false ∧
        v = s.readNat p.mkey k p.len)) →
      let a' := { a with pieces := a.pieces.set i { p with data := BitVec.ofNat 64 v, stage := 4 } }
      ∃ (t : State), step = .next t ∧
        Leaves s t c a.team ((s.core c).loads.map fun b => if b.id = id then a' else b)) ∧
    (let asked := { a with pieces := a.pieces.set i { p with stage := 3 } }
    let outside := fun (l : Loc) (o : Out) => p.loc = some l → s.locLost l = false →
      (p.stage < 3 → s.wayFree l = false → step = .next s) ∧
      (p.stage < 3 → s.wayFree l = true → ∃ (t : State), step = .next t ∧ t.outbox = s.outbox ++ [o] ∧
        t = { s with cores := t.cores, ports := t.ports, outbox := t.outbox } ∧
        (∀ q, q ≠ c → t.core q = s.core q) ∧ t.core c = { s.core c with
          loads := (s.core c).loads.map fun b => if b.id = id then asked else b }) ∧
      ∀ x, 3 ≤ p.stage → ext = some x →
        let p' := { p with data := BitVec.ofNat 64 (x.toNat % 2 ^ (8 * p.len)), stage := 4 }
        let a' := { a with pieces := a.pieces.set i p' }
        ∃ (b t : State), b = { s with ports := b.ports } ∧
          (∀ n, b.port n = { s.port n with asked := (s.port n).asked.erase o }) ∧ step = .next t ∧
          Leaves b t c a.team ((s.core c).loads.map fun b => if b.id = id then a' else b)
    (∀ pkg addr : Nat, outside (.remote pkg addr) (.load a.id pkg addr p.len)) ∧
      ∀ off : Nat, outside (.host off) (.hostFetch ((s.hwbase.toNat + off) % 2 ^ 64) p.len)) ∧
    ∀ m k, tabFind s.teams a.team = some m → m.task = some k → k.seq = a.seq →
      let faults := fun code => step = .next ((s.takeFault a.team a.pc ⟨code, p.va, false, false, false⟩ id).getD s)
      (∀ l, p.loc = some l → s.locLost l = true → faults cPeerLost) ∧
      ∀ l, p.loc = some (.mem l) → s.locLost (.mem l) = false → s.refused p.mkey l false = true →
        faults cAccessDenied) ∧
  (∀ (s : State) (c id i stage : Nat) (a : Access) (p : Piece),
    ((s.core c).stores.find? fun a => a.id == id) = some a → a.cmd = 0 → a.grain ≤ 1 → a.pieces[i]? = some p →
    s.mayStore c a i p stage = true → s.onBarrier p = false →
    let moved := { a with pieces := a.pieces.set i { p.moveTo stage s.nextId with stage := stage } }
    let step := exec (.storePerform c id i stage) s
    let queues := fun (t : State) => (∀ q, q ≠ c → t.core q = s.core q) ∧
      t.core c = { s.core c with
        stores := if moved.pieces.all fun q => q.stage == q.lastStage
          then (s.core c).stores.filter fun b => b.id != id
          else (s.core c).stores.map fun b => if b.id = id then moved else b }
    (∀ k : Nat, p.loc = some (.mem k) →
      (stage < 4 → ∃ (t : State), step = .next t ∧ queues t ∧
        t = { s with cores := t.cores, nextId := s.nextId + 1 }) ∧
      (stage = 4 → s.locLost (.mem k) = false → s.refused p.mkey k true = false →
        0 < p.len → p.len ≤ 8 →
        Hbm k p.len ∨ 2 ^ 57 ≤ k ∨ (∃ (die cl off : Nat), die < 4 ∧ cl < 16 ∧ off + p.len ≤ 2 ^ 24 ∧ k = csmKey die cl off) →
        ∃ (t : State), step = .next t ∧ queues t ∧
          (let m := if k < 2 ^ 57 then p.mask &&& s.softMask k p.len else p.mask
          Stored s t p.mkey k (leBytes p.len
            (((BitVec.ofNat 64 (s.readNat p.mkey k p.len) &&& ~~~m) ||| (p.data &&& m)).toNat))) ∧
          (k < 2 ^ 57 → t.teams = s.teams) ∧
          (2 ^ 57 ≤ k → ∀ u, tabFind t.teams u = if u = (k - 2 ^ 57) / 2 ^ 21 then
            (tabFind s.teams u).map fun m => { m with
              dirty := setBit (setBit m.dirty (k % 2 ^ 21 / 4096)) ((k % 2 ^ 21 + p.len - 1) / 4096) }
            else tabFind s.teams u) ∧
          t = { s with mem := t.mem, tags := t.tags, cores := t.cores, teams := t.teams,
                       nextId := s.nextId + 1 })) ∧
    (∀ off : Nat, p.loc = some (.host off) → (stage < 4 ∨ s.wayFree (.host off) = true) →
      let at' := fun o => (s.hwbase.toNat + o) % 2 ^ 64
      ∃ (t : State), step = .next t ∧ queues t ∧
        t = { s with cores := t.cores, nextId := s.nextId + 1, ports := t.ports, outbox := t.outbox } ∧
        (∀ q, q ≠ hostPort → t.port q = s.port q) ∧
        t.outbox = s.outbox ++
          (if p.stage < 4 ∧ 4 ≤ stage then [Out.hostWrite (at' off) p.len p.data p.mask] else []) ++
          if p.stage < 5 ∧ 5 ≤ stage then [Out.hostFetch (at' (off / 4096 * 4096)) 0] else []) ∧
    ∀ pkg addr : Nat, p.loc = some (.remote pkg addr) → s.locLost (.remote pkg addr) = false →
      (s.wayFree (.remote pkg addr) = true ∨ 3 ≤ p.stage ∨ stage < 3) → ∃ (t : State), step = .next t ∧ queues t ∧
        t = { s with cores := t.cores, nextId := s.nextId + 1, ports := t.ports, outbox := t.outbox } ∧
        (3 ≤ p.stage ∨ stage < 3 → t.outbox = s.outbox ∧ t.ports = s.ports) ∧
        ∀ n, p.stage < 3 → 3 ≤ stage → s.planeFor pkg addr = some n →
          t.outbox = s.outbox ++ [.store a.id pkg addr p.len p.data p.mask])

/-- R205, R355, R356, R366: a walk that ends at a leaf fills the TLBs of the core and of its cluster, and of
the cores whose entries wait for the same page; entries translate in the order of their core's queue; the
entry's pieces that the TLBs then translate have their places, or the lowest fault is raised, unless an older
entry of the task has still to be translated. A walk that ends in a fault raises it, under the same condition.
A WAITS or WAITB whose task stands only for these translations ends it once they are all made (R34, R250; that
its task stands until then is the model's reading, log 18). R212: a prefetch leaves the load queue, filling
the TLBs where a load could use the address, and does nothing otherwise. -/
def Obligations.walks : Prop :=
  ∀ (s : State) (c id : Nat) (a : Access) (p : Piece),
    (((s.core c).loads ++ (s.core c).stores).find? fun a => a.id == id && a.xlate) = some a →
    a.nextMiss = some p → s.hasWalker c a = true →
    let va := p.va.toNat
    let w : Who := ⟨c, a.team, a.ctx⟩
    (s.check w p.aligned p.va p.len a.kind.path a.kind.writes = .miss →
    let before := fun (q : List Access) => ∃ b ∈ q, b.cmd = 0 ∧ b.id < id ∧ b.xlate = true ∧ b.kind ≠ .prefetch
    let older := fun (q : List Access) => ∃ b ∈ q, b.team = a.team ∧ b.cmd = 0 ∧ b.id < id ∧ b.xlate = true ∧
      b.kind ≠ .prefetch
    let walk := s.walk w va (if a.kind.writes then .write else .read)
    let step := exec (.tlbWalkComplete c id (va / 65536)) s
    let faults := fun (b : State) (code : Nat) (at' : Nat) =>
      (older (s.core c).loads ∨ older (s.core c).stores → step = .next b) ∧
      (¬ older (s.core c).loads → ¬ older (s.core c).stores → step = .next
        ((b.takeFault a.team a.pc ⟨code, w64 at', a.kind.writes, false, false⟩ id).getD b))
    (a.kind ≠ .prefetch → ((∃ b ∈ (s.core c).stores, b.id = id) → ¬ before (s.core c).stores) →
      ((∀ b ∈ (s.core c).stores, b.id ≠ id) → ¬ before (s.core c).loads) →
      (∀ e big, walk = .ok (e, big) → ∃ b, Fills s b w va e big ∧
        let r := b.place w a.kind.path a.kind.writes a.pieces
        (faultFirst r.2.1 r.2.2 = none → ∃ t, t = { b with cores := t.cores } ∧
          (∀ q, q ≠ c → t.core q = b.core q) ∧
          (let put := fun (l : List Access) => l.map fun x => if x.id = id then
            { a with pieces := r.1, xlate := r.1.any fun p => p.loc.isNone } else x
          t.core c = { b.core c with loads := put (s.core c).loads, stores := put (s.core c).stores }) ∧
          ((∀ m k n, tabFind s.teams a.team = some m → m.task = some k → k.hold ≠ .ending n) → step = .next t) ∧
          ∀ m k n, tabFind s.teams a.team = some m → m.task = some k → k.hold = .ending n →
            step = .next (if t.translated c a.team then
              (t.setTask a.team { k with hold := .free }).endTask a.team else t)) ∧
        ∀ x, faultFirst r.2.1 r.2.2 = some x → faults b x.2 x.1) ∧
      ∀ f, walk = .error f → faults s f va) ∧
    (a.kind = .prefetch →
      let drop := fun (t b : State) => t = { b with cores := t.cores } ∧ (∀ q, q ≠ c → t.core q = b.core q) ∧
        t.core c = { b.core c with loads := (s.core c).loads.filter fun b => b.id != id }
      (∀ e big l k, walk = .ok (e, big) → s.useLeaf w va e big .plain false = .ok l k →
        ∃ t b, step = .next t ∧ drop b s ∧ Fills b t w va e big) ∧
      ((∀ e big, walk = .ok (e, big) → ∀ l k, s.useLeaf w va e big .plain false ≠ .ok l k) →
        ∃ (t : State), step = .next t ∧ drop t s))) ∧
    (a.kind = .prefetch → s.check w p.aligned p.va p.len a.kind.path a.kind.writes ≠ .miss →
      ∃ d t : State, d = { s with cores := d.cores } ∧ (∀ q, q ≠ c → d.core q = s.core q) ∧
        d.core c = { s.core c with loads := (s.core c).loads.filter fun b => b.id != id } ∧
        exec (.tlbWalkComplete c id (va / 65536)) s = .next t ∧
        t = { d with cores := t.cores, clusters := t.clusters } ∧
        (∀ q, t.core q = { d.core q with tlb := (t.core q).tlb }) ∧
        (∀ q, t.cluster q = { d.cluster q with tlb := (t.cluster q).tlb }) ∧
        (2 ^ 54 ≤ va ∨ (∀ l m, d.look w p.va 1 .plain false ≠ .ok l m) → t = d))

/-- R34, R261, R262: a WAITS whose task has ended and whose consumed tokens are done, or the wait field of a
command that only the semaphore may hold, takes its count and proceeds where the chain is empty and the value
suffices, and joins the chain at its end otherwise; before that, and while the home die does not hold the
context's semaphores (R336), it waits; a lost home die resumes the continuation with PEER_LOST. R261, R264: an
addition that fits is made, and waiters proceed from the head on while the value lets them; one that would
overflow changes no semaphore and reports SEM_OVERFLOW (log 22, log 98). R265: SEMRD sends its register the
value, and ends as that arrives. -/
def Obligations.semaphores : Prop :=
  (∀ (s : State) (id ctx n : Nat) (w : Waiter), tabFind s.reqs id = some (.semWait ctx n w) →
    let v := (s.semVal ctx n).toNat
    let lost := (s.die (s.homeDie ctx)).lost
    let takes := s.semChain ctx n = [] ∧ w.count ≤ v
    let step := exec (.semWaitRequest id) s
    let served := fun (b : State) => Served s b id ∧ b = { s with reqs := b.reqs }
    let taken := fun (u : State) => (u.semVal ctx n).toNat = v - w.count ∧
      (∀ c k, (c, k) ≠ (ctx, n) → u.semVal c k = s.semVal c k) ∧
      (∀ c, u.ctx c = { s.ctx c with sems := (u.ctx c).sems })
    let joins := ∃ (t : State), step = .next t ∧ Served s t id ∧
      t = { s with reqs := t.reqs, semChains := t.semChains } ∧
      ∀ k, tabGet [] t.semChains k = if k = ctx * 256 + n then s.semChain ctx n ++ [w] else tabGet [] s.semChains k
    (∀ team r cnt q, w = .task team r cnt → Parked s team r q →
      let ready := s.endsLater team r = false ∧ s.depsDone q.deps = true ∧ s.semsHere ctx = true
      (¬ ready → step = .next s) ∧
      (ready → lost = false → takes → ∃ b u t, step = .next t ∧ served b ∧ taken u ∧
        u = { b with ctxs := u.ctxs } ∧ Woken u t team r 0) ∧
      (ready → lost = false → ¬ takes → joins) ∧
      (ready → lost = true → ∃ (b t : State), step = .next t ∧ served b ∧ Woken b t team r cPeerLost)) ∧
    ∀ core c q, w = .cmd core c → s.cmd core c = some q →
      let ready := s.cmdReady q = true ∧ s.semsHere ctx = true
      (¬ ready → step = .next s) ∧
      (ready → lost = false → takes → ∃ (t : State), step = .next t ∧ Served s t id ∧ taken t ∧
        (∀ k, t.core k = if k = core then { s.core core with
          cmds := (s.core core).cmds.map fun d => if d.id = c then { d with wait := .granted } else d }
          else s.core k) ∧
        t.images = (s.images.map fun m => { m with
          cmds := m.cmds.map fun d => if d.id = c then { d with wait := .granted } else d }) ∧
        t = { s with reqs := t.reqs, ctxs := t.ctxs, cores := t.cores, images := t.images }) ∧
      (ready → lost = false → ¬ takes → joins) ∧
      (ready → lost = true → ∃ b, served b ∧ step = .next ((b.cmdFault q cPeerLost (w64 n) q.source fun d =>
        d.queue == q.queue || (d.queue.isCopy && q.queue.isCopy)).getD s))) ∧
  (∀ (s : State) (id ctx n amount team cmd core scope : Nat) (pc : W64) (deps : Option (List Dep)) (seq : BitVec 32),
    tabFind s.reqs id = some (.semSig ctx n amount team cmd core pc scope deps seq) →
    (deps.isSome = true → (s.cmd core cmd).isSome = true) →
    let step := exec (.semSignal id) s
    let ready := s.mayAdd ctx team cmd core scope deps = true ∧ s.semsHere ctx = true
    let lost := (s.die (s.homeDie ctx)).lost
    let v := (s.semVal ctx n).toNat
    let closed := fun (t : State) => match deps, t.cmd core cmd with
      | some _, some c => t.finishCmd c
      | _, _ => t
    let faults := fun (b : State) (code : Nat) =>
      (b.faultTeam team core code pc (w64 n) seq ⟨0, 0, 0, 0⟩).getD s
    (¬ ready → step = .next s) ∧
    (ready → lost = false → v + amount < 2 ^ 32 → ∃ b u, Served s b id ∧ b = { s with reqs := b.reqs } ∧
      Adds b u ctx n amount ∧ step = .next (closed u)) ∧
    (ready → lost = false → 2 ^ 32 ≤ v + amount →
      let b := closed (s.dropReq id)
      step = .next (if team = 0 then (b.launchOverflow ctx n pc).getD s else faults b cSemOverflow) ∧
      ∃ (t : State), step = .next t ∧ ∀ c k, t.semVal c k = s.semVal c k) ∧
    (ready → lost = true →
      let b := closed (s.dropReq id)
      step = .next (if team = 0 then b else faults b cPeerLost))) ∧
  (∀ (s : State) (id ctx n team core : Nat) (pc : W64) (seq : BitVec 32),
    tabFind s.reqs id = some (.fabricAdd ctx n team core pc seq) →
    (s.semsHere ctx = false → exec (.semSignal id) s = .next s) ∧
    (s.semsHere ctx = true → (s.die (s.homeDie ctx)).lost = false → (s.semVal ctx n).toNat + 1 < 2 ^ 32 →
      ∃ b u, Served s b id ∧ b = { s with reqs := b.reqs } ∧ Adds b u ctx n 1 ∧
        exec (.semSignal id) s = .next u)) ∧
  ∀ (s : State) (id : Nat) (c : Cmd) (f : FE3), s.cmd c.core id = some c → c.instr = .semrd f →
    let step := exec (.semRead c.core id) s
    let ready := s.depsDone c.deps = true ∧ s.semsHere c.ctx = true
    let ends := ∃ (t : State), step = .next t ∧ Over s t c ∧ (∀ q, q ≠ c.core → t.core q = s.core q) ∧
      t.core c.core = { s.core c.core with cmds := (t.core c.core).cmds, sb := (t.core c.core).sb } ∧
      t = { s with cores := t.cores, openCmds := t.openCmds, reqs := t.reqs, nextId := t.nextId }
    (c.sent = false → ¬ ready → step = .next s) ∧
    (c.sent = false → ready → (s.die (s.homeDie c.ctx)).lost = false →
      (∀ d, c.regs = [d] → ∃ (t : State), step = .next t ∧ t = { s with cores := t.cores } ∧
        (∀ q, q ≠ c.core → t.core q = s.core q) ∧
        t.core c.core = { s.core c.core with
          cmds := (s.core c.core).cmds.map fun x => if x.id = id then { c with sent := true } else x
          results := (s.core c.core).results ++
            [⟨id, c.team, some (d, (s.semVal c.ctx c.wsem).zeroExtend 64), [], []⟩] }) ∧
      (c.regs = [] → ends)) ∧
    (c.sent = false → ready → (s.die (s.homeDie c.ctx)).lost = true →
      step = .next ((s.cmdFault c cPeerLost (w64 c.wsem) 0 fun _ => false).getD s)) ∧
    (c.sent = true → (∃ r ∈ (s.core c.core).results, r.id = id) → step = .next s) ∧
    (c.sent = true → (∀ r ∈ (s.core c.core).results, r.id ≠ id) → ends)

/-- R252, R267: an arrival at an object that expects it lowers PENDING; the last one advances PHASE, sets
PENDING to EXPECT and wakes every waiter with status 0; one above PENDING only sets ERR. The status word then
leaves and the command is over. R266: a store to an object takes effect in bytes 0 to 4, and one that changes
PHASE wakes every waiter; WAITERS and LIST stay otherwise. No byte outside the object has changed but those of
the records of the woken. R34, R268: the bank's decision on a WAITB whose task has ended and whose consumed
tokens are done, behind the accepted stores of its core to the object (R114): ready at once with status 0
where PHASE differs, else parked at the chain's end with WAITERS one more and DEADLINE 940 × t cycles on, or
that time left where its team is in transit (R43). A deadline that has passed sends one unlink, while its
context is resident on its die (R337); an unlink that finds its waiter on the chain takes it off, lowers
WAITERS and readies it with TIMEOUT, and does nothing else otherwise. A lost die resumes the continuation with
PEER_LOST. -/
def Obligations.barriers : Prop :=
  ((∀ (s : State) (id k : Nat) (c : Cmd) (f : FE3) (st : List Span), s.cmd c.core id = some c →
    c.instr = .acwArrive f → s.cmdRuns c = true → s.acwReleased c true = true →
    let word := if c.xc = 0 then [] else [(c.xc.toNat, 4)]
    let z := s.fillUnits c.who .plain true word
    s.objKey c.who c.xa = .ok k → CsmObj k → z.spans c.who .plain true word = .ok st →
    s.readBlocked c.core (.mem k) 16 = false →
    let o := s.bar k
    let n := c.xb.toNat
    let arrives := fun (o' : Bar) (code : Nat) (p : State → State) => TlbsOnly s z ∧ ∃ u t,
      exec (.barrierArriveStep c.core id) s = .next t ∧ BarIs z u k o' ∧
      Sends (p u) t c st (leBytes 4 (code + o'.phase * 2 ^ 8 + o'.pending * 2 ^ 16)) ∧ Over (p u) t c ∧
      (∀ q, q ≠ c.core → t.core q = (p u).core q) ∧
      t.core c.core = { (p u).core c.core with
        cmds := (t.core c.core).cmds, stores := (t.core c.core).stores, sb := (t.core c.core).sb } ∧
      t = { p u with cores := t.cores, openCmds := t.openCmds, reqs := t.reqs, nextId := t.nextId }
    (o.pending < n → arrives { o with err := true } cBarrierOverrun fun u => u) ∧
    (n < o.pending → arrives { o with pending := o.pending - n } 0 fun u => u) ∧
    (o.pending = n → arrives
      { o with phase := (o.phase + 1) % 16, pending := o.expect, waiters := 0, list := 0 } 0
      fun u => u.chainFreed k)) ∧
  ∀ (s : State) (c id i k : Nat) (a : Access) (p : Piece),
    ((s.core c).stores.find? fun a => a.id == id) = some a → a.cmd = 0 → a.pieces[i]? = some p →
    s.mayStore c a i p 4 = true → s.onBarrier p = true → p.loc = some (.mem k) → CsmObj k → k % 16 = 0 →
    s.locLost (.mem k) = false →
    p.len = 8 → p.mask = BitVec.allOnes 64 →
    let o := s.bar k
    let d := p.data.toNat
    let new : Bar := { o with
      expect := d % 2 ^ 16, pending := d / 2 ^ 16 % 2 ^ 16, phase := d / 2 ^ 32 % 16, err := d.testBit 36 }
    let wakes := o.phase ≠ new.phase ∧ o.waiters ≠ 0
    let moved := { a with pieces := a.pieces.set i (p.moveTo 4 s.nextId) }
    let leaves := fun (b : State) => ∃ (t : State), exec (.barrierObjectStore c id i) s = .next t ∧
      (∀ q, q ≠ c → t.core q = b.core q) ∧
      t.core c = { b.core c with
        stores := if moved.pieces.all fun q => q.stage == q.lastStage
          then (s.core c).stores.filter fun b => b.id != id
          else (s.core c).stores.map fun b => if b.id = id then moved else b } ∧
      t = { b with cores := t.cores, nextId := s.nextId + 1 }
    (¬ wakes → ∃ u, BarIs s u k new ∧ leaves u) ∧
    (wakes → ∃ u, BarIs s u k { new with waiters := 0, list := 0 } ∧ leaves (u.chainFreed k))) ∧
  ((∀ (s : State) (id k phase dt team r : Nat) (q : Rec),
    tabFind s.reqs id = some (.barWait k phase dt team r) → Parked s team r q → CsmObj k →
    let o := s.bar k
    let ready := s.endsLater team r = false ∧ s.depsDone q.deps = true ∧
      s.readBlocked (s.teamCore team) (.mem k) 16 = false
    let lost := (s.die (keyDie k)).lost
    let step := exec (.barrierWaitRequest id) s
    (¬ ready → step = .next s) ∧
    (ready → ∃ b, Served s b id ∧ b = { s with reqs := b.reqs } ∧
      (lost = true → ∃ (t : State), step = .next t ∧ Woken b t team r cPeerLost) ∧
      (lost = false → o.phase ≠ phase → ∃ u t, step = .next t ∧ BarIs b u k o ∧ Woken u t team r 0) ∧
      (lost = false → o.phase = phase → ∃ u l, BarIs b u k { o with
          waiters := (o.waiters + 1) % 2 ^ 24, list := l } ∧ (o.waiters ≠ 0 → l = o.list) ∧
        ∃ v t, step = .next t ∧ v = { u with barChains := v.barChains } ∧
          (∀ j, (tabGet [] v.barChains j : List Waiter) =
            if j = k then tabGet [] s.barChains k ++ [.task team r phase] else tabGet [] s.barChains j) ∧
          ((∀ x ∈ s.packs, x.team ≠ team) → Changed v t team r (fun q => { q with
            deadline := (s.die (s.teamDie team)).gnomon.toNat + 940 * dt }) []) ∧
          ((∃ x ∈ s.packs, x.team = team) → t = { v with packs := s.packs.map fun x =>
            if x.team = team then { x with left := tabPut x.left r (940 * dt) } else x })))) ∧
  (∀ (s : State) (id team core k : Nat) (q : Rec) (m : Team), s.teamOfRec id = some team →
    s.recOf team id = some q → tabFind s.teams team = some m → m.core = some core → q.kind = 2 →
    q.state = 0 → q.deadline ≠ 0 → s.residOn m.ctx (dieOf core) = .resident → s.barOf team id = some k →
    (s.unlinking team id = true → exec (.waitbDeadline id) s = .next s) ∧ (s.unlinking team id = false →
    ((s.die (dieOf core)).gnomon.toNat < q.deadline → exec (.waitbDeadline id) s = .next s) ∧
    (q.deadline ≤ (s.die (dieOf core)).gnomon.toNat → ∃ (t : State), exec (.waitbDeadline id) s = .next t ∧
      tabFind t.reqs s.nextId = some (.unlink k team id) ∧
      (∀ j, j ≠ s.nextId → tabFind t.reqs j = tabFind s.reqs j) ∧
      t = { s with reqs := t.reqs, nextId := s.nextId + 1 }))) ∧
  ∀ (s : State) (id k team r : Nat), tabFind s.reqs id = some (.unlink k team r) → CsmObj k →
    let l : List Waiter := tabGet [] s.barChains k
    let o := s.bar k
    ((∀ p, .task team r p ∉ l) → ∃ (t : State), exec (.waitbUnlink id) s = .next t ∧ Served s t id ∧
      t = { s with reqs := t.reqs }) ∧
    ∀ p q, .task team r p ∈ l → Parked s team r q → ∃ b u v t, exec (.waitbUnlink id) s = .next t ∧
      Served s b id ∧ b = { s with reqs := b.reqs } ∧
      BarIs b u k { o with waiters := o.waiters - 1, list := (u.bar k).list } ∧
      v = { u with barChains := v.barChains } ∧
      (∀ w, w ∈ (tabGet [] v.barChains k : List Waiter) ↔ w ∈ l ∧ ∀ p', w ≠ .task team r p') ∧
      (∀ j, j ≠ k → tabGet [] v.barChains j = tabGet [] s.barChains j) ∧ Woken v t team r 0x100)

/-- R252 to R256: a chunk of a copy reads its source and sends the bytes on their way through the core's port;
after the last chunk the command is over. A CPYS chunk takes its tag along. A CPYV chunk reads versions, a
granule at a time as one unit (R128), and waits where one is not yet created; or it creates them, held where
the floor is too low. A page that is not present parks the command at its chunk, with a record, and any other
fault is the command's; that a fault of the source is the one reported, whatever the destination would meet,
is the model's choice (log 25). R326, R368: a parked command, or a parked queue pair, that a REPLAY has
reached goes on. R252, R257 to R260: an ACW is first translated whole, then its elements are performed one at
a time at their ports: the element takes the operation's value and nothing else changes, the old value goes to
the return array where one is asked for, and after the last element the command is over. An element of another
package's memory leaves for its port there. That an element of a register's or object's memory writes the bits
alone that a store may is the model's reading (log 97); one on a barrier object is written by its bank (R266).
-/
def Obligations.copies : Prop :=
  ((∀ (s : State) (id : Nat) (c : Cmd), s.cmd c.core id = some c → s.cmdRuns c = true →
    let n := c.xc.toNat
    let k := c.chunk
    let src := c.xb.toNat + 4096 * k
    let dst := c.xa.toNat + 4096 * k
    let step := exec (.copyChunk c.core id) s
    let frame := fun (z t : State) => (∀ q, q ≠ c.core → t.core q = z.core q) ∧
      t.core c.core = { z.core c.core with
        cmds := (t.core c.core).cmds, stores := (t.core c.core).stores, sb := (t.core c.core).sb } ∧
      t = { z with cores := t.cores, openCmds := t.openCmds, reqs := t.reqs, nextId := t.nextId }
    let goesOn := fun (z t : State) (c' : Cmd) (chunks : Nat) =>
      (k + 1 < chunks → (t.core c.core).cmds = (z.core c.core).cmds.map fun d =>
        if d.id = c.id then { c' with started := true, chunk := k + 1, held := false } else d) ∧
      (chunks ≤ k + 1 → Over z t c)
    let len := min 4096 (n - 4096 * k)
    (∀ f, c.instr = .cpy f ∨ c.instr = .cpys f → n = 0 → ∃ (t : State), step = .next t ∧ Over s t c ∧ frame s t) ∧
    (∀ f rd wr, c.instr = .cpy f → n ≠ 0 →
      let z := (s.fillUnits c.who .plain false (units src len)).fillUnits c.who .plain true (units dst len)
      z.spans c.who .plain false (units src len) = .ok rd → z.spans c.who .plain true (units dst len) = .ok wr →
      z.spansRefused rd false = none →
      (z.spansBlocked c.core rd = true → step = .next z) ∧
      (z.spansBlocked c.core rd = false → TlbsOnly s z ∧ ∃ (t : State), step = .next t ∧
        Sends z t c wr (z.readSpans rd) ∧ goesOn z t c ((n + 4095) / 4096) ∧ frame z t)) ∧
    (∀ f rd wr r d rs ds, c.instr = .cpys f → n ≠ 0 →
      let z := (s.fillUnits c.who .sealed false (units src 4096)).fillUnits c.who .sealed true (units dst 4096)
      z.spans c.who .sealed false (units src 4096) = .ok rd → z.spans c.who .sealed true (units dst 4096) = .ok wr →
      z.spansBlocked c.core rd = false → z.tagBlocked c rd = false → z.spansRefused rd false = none →
      rd = r :: rs → wr = d :: ds → TlbsOnly s z ∧ ∃ (b t : State), step = .next t ∧ Sends z b c wr (z.readSpans rd) ∧
        (∀ q, q ≠ c.core → b.core q = z.core q) ∧ b = { z with cores := b.cores, nextId := b.nextId } ∧
        (let key := z.tagKey c.who d.va d.loc
         Sends b t c [⟨d.va, 8, .mem key, 0⟩, ⟨d.va, 8, .mem (key + 8), 0⟩]
          (z.readBytes 0 (z.tagKey c.who r.va r.loc) 16)) ∧ goesOn z t c (n / 4096) ∧ frame z t) ∧
    (∀ f, c.instr = .cpyv f → f.imm.getLsbD 2 = false → c.held = false →
      let m := n / 2 ^ 32 % 2 ^ 16 + 1
      let cnt := min 32 (m - 32 * k)
      let z := (s.fillUnits c.who .versioned false (units src (128 * cnt))).fillUnits c.who .plain true
        (units dst (128 * cnt))
      let got := z.readGranules c src (n % 2 ^ 32) cnt
      ∀ wr, z.spans c.who .plain true (units dst (128 * cnt)) = .ok wr → TlbsOnly s z ∧
        ((∀ g ∈ got, ∃ r, g = VGot.data r) → ∃ (t : State), step = .next t ∧ Sends z t c wr (gotBytes got) 16 ∧
          goesOn z t c ((m + 31) / 32) ∧ frame z t) ∧
        ((∀ g ∈ got, ∀ x, g ≠ VGot.fault x) → ∀ rn g, gotWait got = some (rn, g) →
          ∃ (b t : State), step = .next t ∧ b = { z with cores := b.cores } ∧ (∀ q, q ≠ c.core → b.core q = z.core q) ∧
            b.core c.core = { z.core c.core with cmds := (z.core c.core).cmds.map fun d =>
              if d.id = c.id then { c with started := true, held := true } else d } ∧
            Chained b t c.ctx rn g (tabGet [] s.verChains (verKey c.ctx rn g) ++ [.cmd c.core c.id]))) ∧
    (∀ f rd rn r g, c.instr = .cpyv f → f.imm.getLsbD 2 = true → c.held = false → (∀ v ∈ c.vals, v = w64 rn) →
      let m := n / 2 ^ 32 % 2 ^ 16 + 1
      let cnt := min 32 (m - 32 * k)
      let z := (s.fillUnits c.who .plain false (units src (128 * cnt))).fillUnits c.who .versioned true
        (units dst (128 * cnt))
      z.spans c.who .plain false (units src (128 * cnt)) = .ok rd →
      z.createSpan c.who (w64 dst) (cnt - 1) = .ok (rn, r, g) →
      z.spansBlocked c.core rd = false → z.spansRefused rd false = none →
      let v := n % 2 ^ 32
      let rows := rowsOf (z.readSpans rd) cnt
      let c' := { c with vals := [w64 rn], started := true }
      v ≠ 0xFFFFFFFF → NextAll z c.ctx r g v cnt → TlbsOnly s z ∧
        (v < r.floor + r.k → ∃ (b t : State), step = .next t ∧ MakesAll z b c.ctx rn r v g rows ∧
          goesOn b t c' ((m + 31) / 32) ∧ frame b t) ∧
        (r.floor + r.k ≤ v → ∃ (b p t : State), step = .next t ∧
          b = { z with cores := b.cores, nextId := z.nextId + 1 } ∧ (∀ q, q ≠ c.core → b.core q = z.core q) ∧
          b.core c.core = { z.core c.core with cmds := (z.core c.core).cmds.map fun d =>
            if d.id = c.id then { c' with held := true } else d } ∧
          Pwaits b p c.ctx rn (tabGet [] s.pwait (c.ctx * 256 + rn) ++ [s.nextId]) ∧ t = { p with vreqs := t.vreqs } ∧
          (∀ j, j ≠ s.nextId → tabFind t.vreqs j = tabFind s.vreqs j) ∧
          ∃ (q : VReq), tabFind t.vreqs s.nextId = some q ∧ q.op = .create ∧ q.src = .copy c.core c.id ∧ q.ctx = c.ctx ∧
            q.va = w64 dst ∧ q.count = cnt ∧ q.ver = w64 v ∧ q.rows = rows ∧ q.held = true ∧ q.answer = none ∧
            q.region = rn ∧ q.granule = g)) ∧
    ∀ f va code, c.instr = .cpy f → n ≠ 0 →
      let z := (s.fillUnits c.who .plain false (units src len)).fillUnits c.who .plain true (units dst len)
      z.spans c.who .plain false (units src len) = .error (va, code) →
      (parks code = false → step = .next ((z.cmdFault c code (w64 va) 2 fun d => d.queue.isCopy).getD z)) ∧
      (parks code = true → (s.die (dieOf c.core)).fqFull = true → step = .next z) ∧
      (parks code = true → (s.die (dieOf c.core)).fqFull = false → ∃ (t : State), step = .next t ∧
        (t.core c.core).cmds = (s.core c.core).cmds.map (fun d => if d.id = c.id then
          { c with parked := true, retry := false, started := c.started || c.queue != .fput, code := code } else d) ∧
        ∃ (r : FaultRec), (t.die (dieOf c.core)).fq = (s.die (dieOf c.core)).fq ++ [r] ∧ r.code = code ∧ r.source = 2 ∧
          r.parked = true ∧ r.cmd = c.id ∧ r.team = c.team ∧ r.addr = w64 va)) ∧
  ∀ (s : State) (id : Nat),
    (id < 2 ^ 40 → ∃ (t : State), exec (.parkedRetry id) s = .next t ∧ t = { s with cores := t.cores } ∧
      ∀ k, t.core k = { s.core k with cmds := (s.core k).cmds.map fun c =>
        if c.id = id ∧ c.parked = true ∧ c.retry = true then { c with parked := false, retry := false }
        else c }) ∧
    ∀ cl qp q, id = 2 ^ 40 + cl * 512 + qp → qp < 512 → tabFind (s.cluster cl).qps qp = some q →
      q.parked = true → q.replay = true → ∃ (t : State), exec (.parkedRetry id) s = .next t ∧
        t = { s with clusters := t.clusters } ∧ (∀ k, k ≠ cl → t.cluster k = s.cluster k) ∧
        t.cluster cl = { s.cluster cl with qps := (t.cluster cl).qps } ∧
        ∀ j, tabFind (t.cluster cl).qps j = if j = qp then some { q with parked := false, replay := false }
          else tabFind (s.cluster cl).qps j) ∧
  (∀ (s : State) (id : Nat) (c : Cmd) (f : FE3), s.cmd c.core id = some c → c.instr = .acw f →
    s.cmdRuns c = true → s.acwReleased c (f.e.ord == 1) = true →
    let op := f.imm.toNat / 4 % 16
    let ty := f.imm.toNat / 64 % 8
    let w := acwWidth ty
    let cnt := f.imm.toNat / 1024 + 1
    let fetch := f.imm.getLsbD 9
    let step := exec (.acwPortStep c.core id) s
    let into := if fetch then elements c.xc w cnt else []
    let z := (s.fillUnits c.who .plain true (elements c.xa w cnt)).fillUnits c.who .plain true into
    (∀ dst ret, c.units = [] → z.spans c.who .plain true (elements c.xa w cnt) = .ok dst →
      z.spans c.who .plain true into = .ok ret → hostSpan dst = none →
      (op = 8 → z.spansBlocked c.core ret = false) → TlbsOnly s z ∧ ∃ (t : State), step = .next t ∧
        t = { z with cores := t.cores } ∧ (∀ q, q ≠ c.core → t.core q = z.core q) ∧
        t.core c.core = { z.core c.core with cmds := (z.core c.core).cmds.map fun d =>
          if d.id = c.id then { c with
            started := true
            vals := if op = 8 then ret.map fun u => w64 (leNat (z.readSpans [u])) else []
            units := unitPieces (s.epoch c.core) dst ++ unitPieces (s.epoch c.core) ret } else d }) ∧
    (∀ dst ret va, c.units = [] → z.spans c.who .plain true (elements c.xa w cnt) = .ok dst →
      z.spans c.who .plain true into = .ok ret → hostSpan dst = some va →
      step = .next ((z.cmdFault c cAccessDenied (w64 va) 2 (fun d => d.queue.isCopy) true).getD z)) ∧
    ∀ d, c.units ≠ [] → c.units[c.chunk]? = some d → d.len = w →
      let b := c.xb.toNat % 2 ^ (8 * w)
      let r := (c.vals.getD c.chunk 0).toNat
      let goesOn := fun (t : State) =>
        (c.chunk + 1 < cnt → (t.core c.core).cmds = (s.core c.core).cmds.map fun x =>
          if x.id = c.id then { c with chunk := c.chunk + 1 } else x) ∧
        (cnt ≤ c.chunk + 1 → Over s t c) ∧ (∀ q, q ≠ c.core → t.core q = s.core q) ∧
        t.core c.core = { s.core c.core with
          cmds := (t.core c.core).cmds, stores := (t.core c.core).stores, sb := (t.core c.core).sb }
      (∀ l code, d.loc = some l → s.readBlocked c.core l d.len = false →
        (s.locLost l = true ∧ code = cPeerLost ∨ s.locLost l = false ∧ code = cAccessDenied ∧
          ∃ k, l = .mem k ∧ s.refused d.mkey k true = true) →
        step = .next ((s.cmdFault { c with chunk := 0 } code (w64 d.va.toNat) 2 (fun d => d.queue.isCopy) true).getD s)) ∧
      (∀ k, d.loc = some (.mem k) → InMemory k d.len → s.readBlocked c.core (.mem k) d.len = false →
        s.refused d.mkey k true = false → s.locLost (.mem k) = false →
        let old := s.readNat d.mkey k d.len
        let performs := fun new => ∃ (b t : State), step = .next t ∧
          ((∀ x ∈ s.barriers, k + d.len ≤ x ∨ x + 16 ≤ k) → b = { s with mem := b.mem, tags := b.tags } ∧
            let m := s.softMask k d.len
            Stored s b d.mkey k (leBytes d.len
              ((BitVec.ofNat 64 old &&& ~~~m) ||| (BitVec.ofNat 64 new &&& m)).toNat)) ∧
          (k ∈ s.barriers → CsmObj k → k % 16 = 0 → d.len = 8 →
            let o := s.bar k
            let o' : Bar := { o with
              expect := new % 2 ^ 16, pending := new / 2 ^ 16 % 2 ^ 16, phase := new / 2 ^ 32 % 16
              err := new.testBit 36 }
            (o.phase = o'.phase ∨ o.waiters = 0 → BarIs s b k o') ∧
            (o.phase ≠ o'.phase → o.waiters ≠ 0 →
              ∃ u, BarIs s u k { o' with waiters := 0, list := 0 } ∧ b = u.chainFreed k)) ∧
          (∀ u l, c.units[cnt + c.chunk]? = some u → u.loc = some l →
            Sends b t c [⟨u.va.toNat, u.len, l, u.mkey⟩] (leBytes u.len old) 1 u.epoch) ∧
          (c.units[cnt + c.chunk]? = none → Sends b t c [] []) ∧
          (c.chunk + 1 < cnt → (t.core c.core).cmds = (b.core c.core).cmds.map fun x =>
            if x.id = c.id then { c with chunk := c.chunk + 1 } else x) ∧
          (cnt ≤ c.chunk + 1 → Over b t c) ∧ (∀ q, q ≠ c.core → t.core q = b.core q) ∧
          t.core c.core = { b.core c.core with
            cmds := (t.core c.core).cmds, stores := (t.core c.core).stores, sb := (t.core c.core).sb } ∧
          t = { b with cores := t.cores, openCmds := t.openCmds, reqs := t.reqs, nextId := t.nextId }
        let signed := ty = 0 ∨ ty = 2
        let unsigned := ty = 1 ∨ ty = 3
        let less := fun x y => if signed then (BitVec.ofNat (8 * w) x).slt (BitVec.ofNat (8 * w) y) = true
          else x < y
        (signed ∨ unsigned →
          (op = 0 → performs ((old + b) % 2 ^ (8 * w))) ∧
          (op = 2 → (less b old → performs b) ∧ (¬ less b old → performs old)) ∧
          (op = 3 → (less old b → performs b) ∧ (¬ less old b → performs old)) ∧
          (op = 4 → performs (old &&& b)) ∧ (op = 5 → performs (old ||| b)) ∧
          (op = 6 → performs (old ^^^ b)) ∧ (op = 7 → performs b) ∧
          (op = 8 → (old = r → performs b) ∧ (old ≠ r → performs old))) ∧
        (op = 1 → ty = 4 →
          performs (fp32.encode .rne false (FVal.add .rne (fp32.decode false old) (fp32.decode false b)).1).1) ∧
        (op = 1 → ty = 5 →
          performs (bf16.encode .rne false (FVal.add .rne (bf16.decode false old) (bf16.decode false b)).1).1)) ∧
      (∀ k, d.loc = some (.mem k) → s.readBlocked c.core (.mem k) d.len = true → step = .next s) ∧
      (∀ pkg addr, d.loc = some (.remote pkg addr) → s.locLost (.remote pkg addr) = false →
        s.wayFree (.remote pkg addr) = false → step = .next s) ∧
      ∀ pkg addr, d.loc = some (.remote pkg addr) → s.readBlocked c.core (.remote pkg addr) d.len = false →
        s.locLost (.remote pkg addr) = false → s.wayFree (.remote pkg addr) = true → c.units[cnt + c.chunk]? = none → ∃ t x p, step = .next t ∧ goesOn t ∧
          (t.core c.core).stores = (s.core c.core).stores ++ [x] ∧ x.cmd = c.id ∧ x.pieces = [p] ∧
          p = { d with stage := 3, in1 := p.in1, in2 := p.in2, in3 := p.in3 } ∧
          t = { s with cores := t.cores, openCmds := t.openCmds, reqs := t.reqs, nextId := t.nextId
                       ports := t.ports, outbox := t.outbox } ∧
          ∀ n, s.planeFor pkg addr = some n → t.outbox = s.outbox ++
            [.atomic c.id pkg addr op ty fetch (w64 b) (c.vals.getD c.chunk 0)])

/-- R109, R218: a VSTV that may be released and whose versions are all the next ones is taken whole: each
granule's slot and LATEST are written and the waiters on the version wake; with the floor too low it is held
at the end of its region's chain, and a version that is not the next is VERSION_ORDER. R109, R217: a read
finds the version, or that it is gone, too far or not yet created, and its granules' outcomes form its answer;
older queries of the task have taken their values (R116). R220, R221: a query brings FLOOR and LATEST; a
release only raises the floor, and lets the creates go that were held on it. R216 to R219: the answer reaches
its task when its context is active on its core and not saved, and the task goes on: a VLDV's rows are in its
registers, which are full again (R84); a fault is taken at the instruction; and a version not yet created
leaves a continuation of KIND 3 at the instruction, which is ready at once where it has been created
meanwhile, or its home die has been lost (R44). -/
def Obligations.versions : Prop :=
  ((∀ (s : State) (id team core n g : Nat) (q : VReq) (r : Region), tabFind s.vreqs id = some q →
    q.src = .task team core → q.op = .create → q.held = false → q.answer = none →
    s.releaseReady core team id q.scope = true →
    let who : Who := ⟨core, team, q.ctx⟩
    let z := s.fillUnits who .versioned true (units q.va.toNat (128 * q.count))
    z.createSpan who q.va (q.count - 1) = .ok (n, r, g) →
    let v := q.ver.toNat
    let step := exec (.vcCreate id) s
    let answers := fun (b : State) (code : Nat) (addr : W64) => ∃ (t : State), step = .next t ∧ Answers b t id team core q code addr
    TlbsOnly s z ∧
    (v ≠ 0xFFFFFFFF → NextAll z q.ctx r g v q.rows.length → v < r.floor + r.k →
      ∃ b, MakesAll z b q.ctx n r v g q.rows ∧ answers b 0 0) ∧
    (v ≠ 0xFFFFFFFF → NextAll z q.ctx r g v q.rows.length → r.floor + r.k ≤ v → ∃ (b p t : State), step = .next t ∧
      b = { z with cores := b.cores } ∧ (∀ c, c ≠ core → b.core c = z.core c) ∧
      b.core core = { z.core core with stores := (z.core core).stores.filter fun a => a.id != id } ∧
      Pwaits b p q.ctx n (tabGet [] s.pwait (q.ctx * 256 + n) ++ [id]) ∧ t = { p with vreqs := t.vreqs } ∧
      ∀ k, tabFind t.vreqs k = if k = id then some { q with held := true, region := n, granule := g }
        else tabFind s.vreqs k) ∧
    (v = 0xFFFFFFFF → answers z cVersionWrap q.va) ∧
    ∀ j, v ≠ 0xFFFFFFFF → j < q.rows.length → v ≠ z.latest q.ctx r (g + j) + 1 → NextAll z q.ctx r g v j →
      answers z cVersionOrder (q.va + w64 (128 * j))) ∧
  (∀ (s : State) (id k team core n g : Nat) (q : VReq) (r : Region), tabFind s.vreqs id = some q →
    q.src = .task team core → q.op = .read → q.answer = none → k < q.count → tabFind q.got k = none →
    s.olderPlaced core team id = true →
    (∀ a ∈ (s.core core).loads, a.team = team → a.kind = .ver → a.id < id → ∀ p ∈ a.pieces, p.stage = 4) →
    let who : Who := ⟨core, team, q.ctx⟩
    let va := q.va + w64 (128 * k)
    let z := s.fillMiss who .versioned false va.toNat
    z.granule who va false = .ok (n, r, g) →
    let v := q.ver.toNat
    let l := z.latest q.ctx r g
    let step := exec (.vcRead id k) s
    let takes := fun (out : VGot) =>
      let q' := { q with got := tabPut q.got k out }
      let fault := fun (j code : Nat) => tabFind q'.got j = some (.fault code) ∧
        ∀ i c, i < j → tabFind q'.got i ≠ some (.fault c)
      let faultless := ∀ i c, tabFind q'.got i ≠ some (.fault c)
      (q'.got.length < q.count → step = .next { z with vreqs := tabPut s.vreqs id q' }) ∧
      (q.count ≤ q'.got.length → tabSorted q.got = true → ∃ t code addr, step = .next t ∧
        Answers z t id team core q' code addr ∧
        (∀ j c, fault j c → code = c ∧ addr = q.va + w64 (128 * j)) ∧
        (faultless → (∃ i x y, tabFind q'.got i = some (.wait x y)) → code = 0x1000) ∧
        (faultless → (∀ i x y, tabFind q'.got i ≠ some (.wait x y)) → code = 0))
    TlbsOnly s z ∧
    (v = 0xFFFFFFFF → takes (.fault cVersionWrap)) ∧
    (v ≠ 0xFFFFFFFF → v < 2 ^ 32 → v ≤ l → l < v + r.k →
      takes (.data (BitVec.ofNat 1024 (z.readNat (z.ctxKey q.ctx) (r.slot g v) 128)))) ∧
    (v ≠ 0xFFFFFFFF → v < 2 ^ 32 → v ≤ l → v + r.k ≤ l → takes (.fault cVersionGone)) ∧
    (v ≠ 0xFFFFFFFF → v < 2 ^ 32 → l < v → v ≤ l + r.w → takes (.wait n g)) ∧
    (v ≠ 0xFFFFFFFF → l + r.w < v ∨ 2 ^ 32 ≤ v → takes (.fault cVersionFar))) ∧
  (∀ (s : State) (id core n g : Nat) (a : Access) (p : Piece) (r : Region),
    s.verAccess id false = some (core, a, p) → p.loc ≠ none → p.stage ≠ 4 →
    (∀ b ∈ olderOf (s.core core).loads a, b.kind = .prefetch ∨
      (b.xlate = false ∧ ∀ q ∈ b.pieces, q.stage = 4 ∨ q.samePoint p = false)) →
    s.granule ⟨core, a.team, a.ctx⟩ p.va false = .ok (n, r, g) →
    let a' := { a with pieces := [{ p with
      data := BitVec.ofNat 64 (r.floor * 2 ^ 32 + s.latest a.ctx r g), stage := 4 }] }
    ∃ (t : State), exec (.vcQuery id) s = .next t ∧
      Leaves s t core a.team ((s.core core).loads.map fun b => if b.id = id then a' else b)) ∧
  ∀ (s : State) (id core n g : Nat) (a : Access) (p : Piece) (r : Region),
    s.verAccess id true = some (core, a, p) → p.loc ≠ none →
    (∀ b ∈ olderOf (s.core core).stores a, b.xlate = false ∧ ∀ q ∈ b.pieces, 1 ≤ q.stage) →
    s.granule ⟨core, a.team, a.ctx⟩ p.va false = .ok (n, r, g) →
    let f := p.data.toNat
    let step := exec (.vcRelease id) s
    let held : List Nat := tabGet [] s.pwait (a.ctx * 256 + n)
    ∃ b, b = { s with cores := b.cores } ∧ (∀ q, q ≠ core → b.core q = s.core q) ∧
      b.core core = { s.core core with stores := (s.core core).stores.filter fun b => b.id != id } ∧
      (f ≤ r.floor → step = .next b) ∧
      (r.floor < f → ∃ c, c = { b with mem := c.mem, tags := c.tags } ∧
        (Hbm (r.addr + 20) 4 → Writable s 0 (r.addr + 20) 4 → Stored s c 0 (r.addr + 20) (leBytes 4 f)) ∧
        (held = [] → step = .next c) ∧ step = .next (c.letGo a.ctx n held) ∧
        ∀ j q team core r', held = [j] → tabFind s.vreqs j = some q → q.src = .task team core → q.ctx = a.ctx →
          q.region = n → q.msg = none → c.region a.ctx n = some r' →
          let v := q.ver.toNat
          v ≠ 0xFFFFFFFF → NextAll c a.ctx r' q.granule v q.rows.length →
          (v < r'.floor + r'.k → ∃ (d h t : State), step = .next t ∧ MakesAll c d a.ctx n r' v q.granule q.rows ∧
            Answers d h j team core q 0 0 ∧ Pwaits h t a.ctx n []) ∧
          (r'.floor + r'.k ≤ v → step = .next c))) ∧
  (∀ (s : State) (u id core code : Nat) (addr : W64) (m : Team) (k : Task) (q : VReq),
    tabFind s.teams u = some m → m.task = some k → m.core = some core → k.hold = .answer id →
    tabFind s.vreqs id = some q → q.answer = some (code, addr) →
    let step := exec (.versionAnswerArrival u) s
    let active := (m.ctx = 0 ∨ (s.core core).activeCtx = some m.ctx) ∧ s.saved core m.ctx = false
    let gone : State := { s with vreqs := tabDel s.vreqs id }
    let frees := fun (p : Task → Prop) => ∃ t k', step = .next t ∧ p k' ∧
      t = { gone with teams := t.teams } ∧
      (∀ w, tabFind t.teams w = if w = u then some { m with task := some k' } else tabFind s.teams w) ∧
      k' = { k with v := k'.v, vEmpty := k'.vEmpty, hold := .free, held := false }
    (¬ active → step = .next s) ∧
    (active → code = 0 → q.op ≠ .read → frees fun k' => k'.v = k.v ∧ k'.vEmpty = k.vEmpty) ∧
    (active → code = 0 → q.op = .read → ∀ rows : Nat → Row,
      (∀ j d, q.dst[j]? = some d → ∃ g, q.got[j]? = some (g, VGot.data (rows j))) →
      frees fun k' => (∀ j d, q.dst[j]? = some d → (∀ i, j < i → q.dst[i]? ≠ some d) →
          tabGet 0 k'.v d = rows j) ∧
        (∀ d, d ∉ q.dst → tabGet 0 k'.v d = tabGet 0 k.v d) ∧
        ∀ i, i < 32 → k'.vEmpty.getLsbD i = (k.vEmpty.getLsbD i && !(q.dst.map (· / 16)).contains i)) ∧
    (active → code ≠ 0 → code ≠ 0x1000 → step = .next
      ((gone.takeFault u q.pc ⟨code, addr, q.op == .create, false, false⟩ s.nextId).getD s)) ∧
    (active → code = 0x1000 → s.translated core u = true → ∀ j n g, firstWait q = some (j, n, g) →
      let e : Env := ⟨u, m, k, core⟩
      let base : State := { gone with nextId := s.nextId + 1 }
      ∃ b r t, step = .next t ∧ Carries e r s.nextId q.pc q.xm 3 0 ∧ r.obj = q.va + w64 (128 * j) ∧ r.arg = q.ver ∧
        r.scope = q.scope ∧ Ended base b e [r] [] (if s.focus = some u then none else s.focus) ∧
        let parks := Chained b t q.ctx n g (tabGet [] s.verChains (verKey q.ctx n g) ++ [.task u r.id q.ver.toNat])
        (b.region q.ctx n = none → parks) ∧
        ∀ x, b.region q.ctx n = some x →
          ((s.die x.home).lost = true → Woken b t u r.id cPeerLost) ∧
          ((s.die x.home).lost = false → q.ver.toNat ≤ b.latest q.ctx x g → Woken b t u r.id 0) ∧
          ((s.die x.home).lost = false → b.latest q.ctx x g < q.ver.toNat → parks)))

/-- R224, R225: the oldest startable command of a core starts. MREC reads its record into its slot, MLDB fills
its buffer, MZERO zeroes its tile, MMOVA and MMOVV move rows, MQRY brings the engine's state, each in one
step, and is over; a command of the array, or a drain, is started and goes on row by row. R66, R67, R234 to
R236, R239, R241, R245: one row step of a started command. A pass row of MMA or MMAV adds its products to the
64 words of one accumulator row and draws its scales; a row of MRANK adds its ranks; a row of MDRAIN leaves
for memory and, where the instruction says so, is zeroed. No other accumulator row changes; the command moves
on to its next row, or is over after its last. That FTZ reads MRANK's subnormal scores as zero is the model's
choice (log 117). R226, R232: a started array command whose buffer holds another tile has it filled again from
its team's load descriptor; a fill that faults loses the buffer where one of R232's sealed checks fails, and
leaves it otherwise. R238: an MMAG at the start of a segment loads the segment's B extent, or, where its entry
is no legal one, zeroes the segment's rows, writes SHAPE to its status word and goes on to the next. -/
def Obligations.matrixEngine : Prop :=
  (∀ (s : State) (c : Cmd), s.oldestStart c.core = some c →
    let c' := { c with started := true }
    let b := s.setCmd c'
    let p := c.tile.getD 0
    let step := exec (.matrixCommandStart c.core) s
    let core := fun (t : State) => t.core c.core
    let bare := fun (t : State) (k : Core) => core t = { k with cmds := (core t).cmds, sb := (core t).sb }
    let frame := fun (z t : State) => Over z t c ∧ (∀ q, q ≠ c.core → t.core q = z.core q) ∧
      (∀ u, u ≠ c.team → tabFind t.teams u = tabFind s.teams u) ∧
      t = { z with cores := t.cores, teams := t.teams, openCmds := t.openCmds, reqs := t.reqs
                   nextId := t.nextId }
    let still := fun (t : State) => frame s t ∧ t.teams = s.teams
    (∀ f bs m, c.instr = .mrec f → tabFind s.teams c.team = some m →
      let z := b.fillUnits c.who .plain false (units c.xa.toNat 64)
      z.engineRead c' .plain c.xa.toNat 64 = .ok bs → TlbsOnly b z ∧
      (recordBad (BitVec.ofNat 512 (leNat bs)) = true →
        step = .next ((z.cmdFault c' cShape c.xa 1 fun d => d.queue == .matrix).getD z)) ∧
      (recordBad (BitVec.ofNat 512 (leNat bs)) = false →
      ∃ t m', step = .next t ∧ frame z t ∧ bare t (core z) ∧ tabFind t.teams c.team = some m' ∧
        m' = { m with qrec := m'.qrec } ∧ ∀ j, tabFind m'.qrec j =
          if j = f.imm.toNat % 16 then some (BitVec.ofNat 512 (leNat bs)) else tabFind m.qrec j)) ∧
    (∀ f m r d x, c.instr = .mldb f → tabFind s.teams c.team = some m →
      tabFind m.qrec (f.imm.toNat % 16) = some r →
      descOf r c.xb.toNat c.xc.toNat (f.imm.toNat / 32 % 8 + 1) c.id = some d →
      let z := b.fillLoad c' d
      z.fillBuf c' d = .ok x →
      let n := f.imm.toNat / 16 % 2
      TlbsOnly b z ∧ ∃ t m', step = .next t ∧ frame z t ∧ bare t { core z with bufs := (core t).bufs } ∧
        tabFind t.teams c.team = some m' ∧ m' = { m with bufs := m'.bufs } ∧
        (∀ j, tabFind m'.bufs j = if j = n then some d else tabFind m.bufs j) ∧
        ∀ j, tabFind (core t).bufs j = if j = n then some x else tabFind (core s).bufs j) ∧
    (∀ f, c.instr = .mzero f → ∃ (t : State), step = .next t ∧ still t ∧ bare t { core s with acc := (core t).acc } ∧
      ∀ r, tabGet 0 (core t).acc r =
        if p * 128 ≤ r ∧ r < p * 128 + 128 then 0 else tabGet 0 (core s).acc r) ∧
    (∀ f, c.instr = .mmova f → c.regs ≠ [] → ∃ t rows, step = .next t ∧ still t ∧
      bare t { core s with results := (core s).results ++ [⟨c.id, c.team, none, rows, c.regs⟩] } ∧
      ∀ e j r, c.regs[e]? = some r → (∀ e', c.regs[e']? = some r → e' = e) → j < 8 →
        let a := tabGet 0 (core s).acc (p * 128 + (f.imm.toNat / 8 % 128 + 8 * e + j))
        tabGet 0 rows (r * 16 + 2 * j) = a.extractLsb' 0 1024 ∧
        tabGet 0 rows (r * 16 + 2 * j + 1) = a.extractLsb' 1024 1024) ∧
    (∀ f, c.instr = .mmova f → c.regs = [] → ∃ (t : State), step = .next t ∧ still t ∧ bare t (core s)) ∧
    (∀ f, c.instr = .mmovv f → ∃ (t : State), step = .next t ∧ still t ∧ bare t { core s with acc := (core t).acc } ∧ ∀ r,
      let r0 := p * 128 + f.imm.toNat / 8 % 128
      let i := r - r0
      tabGet 0 (core t).acc r = if r0 ≤ r ∧ r < r0 + 8 * moveRegs f then
        moveIn (f.imm.getLsbD 13) c.ftz (tabGet 0 (core s).acc r) (c.rows.getD (2 * i) 0)
          (c.rows.getD (2 * i + 1) 0) else tabGet 0 (core s).acc r) ∧
    (∀ f d, c.instr = .mqry f → c.regs = [d] → ∃ (t : State), step = .next t ∧ still t ∧
      bare t { core s with results := (core s).results ++ [⟨c.id, c.team, some (d, w64 (if f.imm.toNat % 4 = 0
        then b.engineState c' else b.tileState c' (f.imm.toNat / 4 % 8))), [], []⟩] }) ∧
    (∀ f, c.instr = .mqry f → c.regs = [] → ∃ (t : State), step = .next t ∧ still t ∧ bare t (core s)) ∧
    (byRows c.instr = true → ∃ (t : State), step = .next t ∧ t = { s with cores := t.cores } ∧
      (∀ q, q ≠ c.core → t.core q = s.core q) ∧
      core t = { core s with cmds := (core s).cmds.map fun d =>
        if d.id = c.id then { c with started := true, sent := usesArray c.instr } else d })) ∧
  (∀ (s : State) (id : Nat) (c : Cmd) (m : Team), s.cmd c.core id = some c → c.started = true →
    c.parked = false → (usesArray c.instr = true → c.sent = true) → tabFind s.teams c.team = some m →
    let p := c.tile.getD 0
    let old := fun r => tabGet 0 (s.core c.core).acc (p * 128 + r)
    let goesOn := fun (t : State) (last : Prop) (next : Cmd) =>
      (¬ last → (t.core c.core).cmds =
        (s.core c.core).cmds.map fun d => if d.id = c.id then next else d) ∧ (last → Over s t c)
    let rowIs := fun (t : State) (r : Nat) (word : Nat → Nat) =>
      (∀ n, n < 64 → accWord (tabGet 0 (t.core c.core).acc (p * 128 + r)) n = word n % 2 ^ 32) ∧
      ∀ q, q ≠ p * 128 + r → tabGet 0 (t.core c.core).acc q = tabGet 0 (s.core c.core).acc q
    let frame := fun (z t : State) => TlbsOnly s z ∧ (∀ q, q ≠ c.core → t.core q = z.core q) ∧
      (∀ u, u ≠ c.team → tabFind t.teams u = tabFind s.teams u) ∧
      (∀ x, x ∈ (t.core c.core).bufs → x ∈ (s.core c.core).bufs) ∧
      t.core c.core = { z.core c.core with acc := (t.core c.core).acc, cmds := (t.core c.core).cmds
                                           sb := (t.core c.core).sb, bufs := (t.core c.core).bufs
                                           stores := (t.core c.core).stores } ∧
      t = { z with cores := t.cores, teams := t.teams, openCmds := t.openCmds, reqs := t.reqs
                   nextId := t.nextId }
    let quiet := fun (z t : State) => frame z t ∧ (t.core c.core).stores = (s.core c.core).stores
    let passes := fun (f : FE3) (z : State) (a : Got (List (BitVec 8))) => ∀ d b bs sa,
      tabFind m.bufs (f.imm.toNat / 8 % 2) = some d → f.imm.toNat / 512 % 8 + 1 ≤ d.passes →
      paired (afmtOf f) (opRec d.record).fmt = true →
      s.tileThere c (f.imm.toNat / 8 % 2) d = true →
      tabFind (s.core c.core).bufs (f.imm.toNat / 8 % 2) = some b → a = .ok bs →
      z.drawScales c (ascOf f) (classK (opRec d.record).fmt) = .ok sa →
      let r := c.xc.toNat % 128 + c.row
      let w := fun n => passWord c b d (afmtOf f) (ascOf f) (leNat bs) sa c.pass n (accWord (old r) n)
      let rows := c.xc.toNat / 256 % 128 + 1
      let next := if c.row + 1 < rows then { c with row := c.row + 1 }
        else { c with row := 0, pass := c.pass + 1 }
      ∃ (t : State), exec (.passRow c.core id) s = .next t ∧ rowIs t r (fun n => (w n).1) ∧
        goesOn t (f.imm.toNat / 512 % 8 + 1 ≤ next.pass) next ∧ quiet z t ∧
        tabFind t.teams c.team = some { m with
          scales := m.scales.drop sa.length
          sat := m.sat || (List.range 64).any fun n => (w n).2 }
    (∀ f, c.instr = .mma f →
      let z := s.fillUnits c.who .plain false [((c.xa + w64 c.row * c.xb + w64 (256 * c.pass)).toNat, 256)]
      passes f z (z.aRow c (afmtOf f) (c.xa + w64 c.row * c.xb) (w64 (256 * c.pass)))) ∧
    (∀ f, c.instr = .mmav f → passes f s (.ok (c.vectorRow (f.imm.toNat / 512 % 8 + 1) c.row c.pass))) ∧
    (∀ f bs, c.instr = .mrank f →
      let fmt := (ffmt (afmtOf f)).getD fp32
      let w := fmtWidth (afmtOf f)
      let n0 := c.xc.toNat / 2 ^ 16 % 2 ^ 16
      let len := c.xc.toNat / 2 ^ 32 % 2 ^ 16 + 1
      let row := c.xa + w64 c.row * c.xb
      let r := c.xc.toNat % 128 + c.row
      let z := s.fillUnits c.who .plain false (units row.toNat (len * w / 8))
      row.toNat % (w / 8) = 0 → z.engineRead c .plain row.toNat (len * w / 8) = .ok bs →
      let xs := (List.range len).map fun j => fmt.decode c.ftz (elemOf (leNat bs) w j)
      let v := fun n => if n0 + n < len then intPass (rankOf xs (n0 + n)) (accWord (old r) n)
        else (accWord (old r) n, false)
      ∃ (t : State), exec (.passRow c.core id) s = .next t ∧ rowIs t r (fun n => (v n).1) ∧ quiet z t ∧
        goesOn t (c.xc.toNat / 256 % 128 + 1 ≤ c.row + 1) { c with row := c.row + 1 } ∧
        tabFind t.teams c.team = some { m with sat := m.sat || (List.range 64).any fun n => (v n).2 }) ∧
    ∀ f d e, c.instr = .mdrain f →
      let fmt := f.imm.toNat / 16 % 16
      let w := if fmt = 9 then 32 else fmtWidth fmt
      let row := c.xa + w64 c.row * sx (c.xb.extractLsb' 0 32)
      let r := drainRow0 c.xb + c.row
      let o := drainRow fmt c.ftz (old r)
      let us := units row.toNat o.1.length
      let ue := units (c.xc + w64 (2 * c.row)).toNat o.2.1.length
      let z := (s.fillUnits c.who .plain true us).fillUnits c.who .plain true ue
      (w = 4 ∨ row.toNat % (w / 8) = 0) → z.spans c.who .plain true us = .ok d →
      z.spans c.who .plain true ue = .ok e →
      ∃ t b, exec (.passRow c.core id) s = .next t ∧ Sends z b c d o.1 ∧ Sends b t c e o.2.1 ∧
        b = { z with cores := b.cores, nextId := b.nextId } ∧
        rowIs t r (fun n => if f.imm.getLsbD 3 then 0 else accWord (old r) n) ∧ frame z t ∧
        goesOn t (drainRows f ≤ c.row + 1) { c with row := c.row + 1 } ∧
        tabFind t.teams c.team = some { m with sat := m.sat || o.2.2 }) ∧
  ((∀ (s : State) (id n : Nat) (c : Cmd) (m : Team) (d : BufDesc) (x : PhysBuf), s.cmd c.core id = some c →
    c.needs = some n → tabFind s.teams c.team = some m → tabFind m.bufs n = some d → c.sent = true →
    c.parked = false → c.status = 0 → s.tileThere c n d = false →
    let z := s.fillLoad c d
    z.fillBuf c d = .ok x → TlbsOnly s z ∧
    ∃ t m', exec (.bufferRefill c.core id) s = .next t ∧ t = { z with cores := t.cores, teams := t.teams } ∧
      (∀ q, q ≠ c.core → t.core q = z.core q) ∧
      t.core c.core = { z.core c.core with bufs := (t.core c.core).bufs } ∧
      (∀ j, tabFind (t.core c.core).bufs j = if j = n then some x else tabFind (s.core c.core).bufs j) ∧
      (∀ u, tabFind t.teams u = if u = c.team then some m' else tabFind s.teams u) ∧
      m' = { m with bufs := m'.bufs } ∧ ∀ j, tabFind m'.bufs j = tabFind m.bufs j) ∧
  (∀ (s : State) (id n va code : Nat) (c : Cmd) (m : Team) (d : BufDesc), s.cmd c.core id = some c →
    c.needs = some n → tabFind s.teams c.team = some m → tabFind m.bufs n = some d → c.sent = true →
    c.parked = false → c.status = 0 → s.tileThere c n d = false → (∀ f, c.instr ≠ .mmag f) → parks code = false →
    let z := s.fillLoad c d
    z.fillBuf c d = .fault va code →
    let lost := (opRec d.record).sealed = true ∧ (code = cSealGrant ∨ code = cSealKey ∨ code = cSealTag)
    ∃ b, exec (.bufferRefill c.core id) s = .next ((b.cmdFault c code (w64 va) 1 fun d => d.queue == .matrix).getD b) ∧
      (¬ lost → b = z) ∧ (lost → b = { z with cores := b.cores, teams := b.teams } ∧
        (∀ q, q ≠ c.core → b.core q = z.core q) ∧
        b.core c.core = { z.core c.core with bufs := (b.core c.core).bufs } ∧
        (∀ j, tabFind (b.core c.core).bufs j = if j = n then none else tabFind (s.core c.core).bufs j) ∧
        ∀ u, tabFind b.teams u = if u = c.team then some { m with bufs := tabDel m.bufs n } else tabFind s.teams u)) ∧
  ∀ (s : State) (id : Nat) (c : Cmd) (f : FE3) (h e : List (BitVec 8)), s.cmd c.core id = some c →
    c.instr = .mmag f → c.sent = true → c.parked = false → c.passes = 0 → c.status = 0 →
    let us := [(c.xa.toNat, 16), ((c.xa + w64 (16 + 16 * c.seg)).toNat, 16)]
    let z := s.fillUnits c.who .plain false us
    z.engineReads c .plain us = .ok [h, e] →
    let hf := fun off n => leNat ((h.drop off).take n)
    let ef := fun off n => leNat ((e.drop off).take n)
    let count := hf 0 4
    let bad := ef 2 2 ≠ 0 ∨ 127 < ef 0 1 ∨ ef 1 1 = 0 ∨ 128 < ef 0 1 + ef 1 1 ∨ ef 8 4 % 32 ≠ 0
    count ≠ 0 → count ≤ 4096 → hf 10 2 = 0 → hf 12 4 = 0 → TlbsOnly s z ∧
    let put := fun (t : State) (c' : Cmd) => (t.core c.core).cmds =
      (s.core c.core).cmds.map fun d => if d.id = c.id then c' else d
    (∀ bs r d x, ¬ bad →
      let rec' := (c.xb + w64 (64 * ef 4 4)).toNat
      let y := z.fillUnits c.who .plain false (units rec' 64)
      y.engineRead c .plain rec' 64 = .ok bs →
      r = BitVec.ofNat 512 (leNat bs) → recordBad r = false → paired (afmtOf f) (opRec r).fmt = true →
      let passes := ((opRec r).kext - ef 8 4 + classK (opRec r).fmt - 1) / classK (opRec r).fmt
      ef 8 4 < (opRec r).kext → passes ≤ 8 → descOf r (ef 8 4) (hf 8 2) passes s.nextId = some d →
      let w := State.fillLoad { y with nextId := s.nextId + 1 } c d
      w.fillBuf c d = .ok x → TlbsOnly { s with nextId := s.nextId + 1 } w ∧
      ∃ (t : State), exec (.mmagSegment c.core id) s = .next t ∧
        (∀ j, tabFind (t.core c.core).bufs j =
          if j = c.seg % 2 then some x else tabFind (s.core c.core).bufs j) ∧
        (∀ u, tabFind t.teams u = if u = c.team then
          (tabFind s.teams u).map fun m => { m with bufs := tabPut m.bufs (c.seg % 2) d } else tabFind s.teams u) ∧
        put t { c with
          passes := passes, buf := some (c.seg % 2, s.nextId)
          vals := [w64 (ef 0 1), w64 (ef 1 1), w64 (ef 8 4), sx (BitVec.ofNat 32 (hf 4 4)), w64 count] } ∧
        t.core c.core = { w.core c.core with bufs := (t.core c.core).bufs, cmds := (t.core c.core).cmds } ∧
        (∀ q, q ≠ c.core → t.core q = w.core q) ∧ t = { w with cores := t.cores, teams := t.teams }) ∧
    (∀ sp, bad → c.seg + 1 < count →
      let ws := units (c.xa + w64 (0x1C + 16 * c.seg)).toNat 4
      let y := (z.zeroAcc c (ef 0 1) (ef 1 1)).fillUnits c.who .plain true ws
      y.spans c.who .plain true ws = .ok sp →
      ∃ (t : State), exec (.mmagSegment c.core id) s = .next t ∧ Sends y t c sp (leBytes 4 cShape) ∧
        (∀ r, tabGet 0 (t.core c.core).acc r =
          let i := r - c.tile.getD 0 * 128
          if c.tile.getD 0 * 128 ≤ r ∧ ef 0 1 ≤ i ∧ i < ef 0 1 + ef 1 1 ∧ i < 128 then 0
          else tabGet 0 (s.core c.core).acc r) ∧
        put t { c with
          seg := c.seg + 1, pass := 0, row := 0, passes := 0, buf := none, vals := [], status := 0 } ∧
        (∀ q, q ≠ c.core → t.core q = y.core q) ∧ t = { y with cores := t.cores, nextId := t.nextId }))

/-- R270, R275, R277, R442: a posted entry stands at the end of its queue pair's chain, with status 0; a queue
pair that is not open for the context, or a record that fails R277, gets its code in the status word instead.
R278, R279: an entry that may fire forms its messages, here a WRITE or a VWRITE of one message with the data
as read now, and a FLAG with its value. R289, R424: one aimed at a lost package, or at a context whose home
die there is lost (log 106), is refused. R281: an entry whose messages have left and whose local writes are
performed is complete, and DONE is added, but where its last message was refused before it left. R279, R281,
R285, R414: the path that a port's arbitration chooses sends its oldest message, within the package or out of
it; R271: a direct put's command is over once its message has left; R273: a LAUNCH leaves for its peer with
its record, by its plane (log 75). R351: a message that came back is kept and tried again after its wait.
R300: a refusal by the target's exports stops the queue pair (log 107). R272, R280: an answer's refusal is
recorded once per target, and FFLUSH, once what it covers is performed (log 109), and LAUNCH end with their
status word. -/
def Obligations.fabricEntries : Prop :=
  ((∀ (s : State) (id : Nat) (c : Cmd) (st : List Span), s.findCmd id = some c →
    c.queue = .fabric ∨ c.queue = .mailbox → s.cmdRuns c = true → s.mailboxTurn c = true →
    let z := s.fillFabric c 64
    z.statusSpan c = .ok st →
    let cl := clusterOf c.core
    let n := c.xb.toNat
    let d := s.qpDesc cl n
    let answered := fun (code : Nat) (es : List FEntry) => TlbsOnly s z ∧ ∃ (t : State), exec (.entryAppend id) s = .next t ∧
      Sends z t c st (leBytes 4 code) 1 ((c.units.head?.map (·.epoch)).getD (s.epoch c.core)) ∧ Over z t c ∧
      t.qp cl n = { s.qp cl n with entries := (s.qp cl n).entries ++ es } ∧
      (∀ k j, (k, j) ≠ (cl, n) → t.qp k j = s.qp k j) ∧
      (∀ k, t.cluster k = { z.cluster k with qps := (t.cluster k).qps }) ∧
      (∀ k, k ≠ c.core → t.core k = z.core k) ∧ t.core c.core = { z.core c.core with
        cmds := (t.core c.core).cmds, stores := (t.core c.core).stores, sb := (t.core c.core).sb } ∧
      t = { z with cores := t.cores, clusters := t.clusters, openCmds := t.openCmds, reqs := t.reqs
                   nextId := t.nextId }
    (d.state ≠ 1 ∨ d.ctx ≠ c.ctx → answered cAccessDenied []) ∧
    ∀ bs, d.state = 1 → d.ctx = c.ctx → z.engineBytes c.who c.xa 64 = .ok bs →
      let r := BitVec.ofNat 512 (leNat bs)
      (entryOk r = true → answered 0 [⟨s.nextId, c.team, c.ctx, c.pc, c.seq, r, 0, 0, 0⟩]) ∧
      (entryOk r = false → answered cShape [])) ∧
  (∀ (s : State) (die cluster qp : Nat) (e : FEntry), qp < 256 →
    let cl := die * 16 + cluster
    let q := s.qp cl qp
    let d := s.qpDesc cl qp
    let r := e.record
    let step := exec (.entryFire die cluster qp) s
    q.next = some e → d.state = 1 → q.parked = false →
    (d.target < 1024 → s.lostPkgs.contains d.target = true → s.aimLost d = true) ∧
    (s.aimLost d = true → e.ref ≠ 0 ∨ s.armed e = true →
      step = .next (s.qpError cl qp d e cPeerLost)) ∧
    ((e.ref = 0 ∧ s.armed e = false) → step = .next s) ∧
    let z := s.fillEntry cl e
    let b := { z with nextId := s.nextId + 1 }.addPosted e.team s.nextId d.target 1 none
    let fires := fun (kind : Nat) (bs : List (BitVec 8)) => TlbsOnly s z ∧ ∃ (t : State), step = .next t ∧
      t.qp cl qp = { q with
        out := q.out ++ [⟨e.id,
          { kind := kind, spkg := s.pkg.toNat, sctx := e.ctx, scl := cl, qp := qp, fput := false
            eth := if d.target < 1024 then none else some (d.target - 1024)
            tpkg := d.target % 1024, tctx := d.tctx, key := BitVec.ofNat 64 d.key, gang := s.gangOf e.ctx
            va := w64 (entF r 0x20 8), sva := 0, ver := BitVec.ofNat 32 (entF r 0x30 4), msgno := q.msgno
            rsem := entSem r 0x34, windowed := entOp r == 1 || entOp r == 3 || (entSem r 0x34).isSome
            payload := bs, team := e.team, ref := s.nextId }, []⟩]
        msgno := q.msgno + 1
        entries := q.entries.map fun x => if x.id = e.id then { e with ref := s.nextId, made := 1 } else x } ∧
      (∀ k j, (k, j) ≠ (cl, qp) → t.qp k j = s.qp k j) ∧
      (∀ k, t.cluster k = { z.cluster k with qps := (t.cluster k).qps }) ∧
      (∀ u, u ≠ e.team → tabFind t.teams u = tabFind s.teams u) ∧
      (∀ m, tabFind s.teams e.team = some m → (∀ p ∈ m.posted, p.1 ≠ s.nextId) → tabFind t.teams e.team =
        some { m with posted := m.posted ++ [(s.nextId, d.target, none)] }) ∧
      t = { z with clusters := t.clusters, teams := t.teams, nextId := s.nextId + 1 }
    e.ref = 0 → e.made = 0 → s.armed e = true → s.aimLost d = false →
    (∀ bs, entOp r = 0 ∨ entOp r = 2 → 1 ≤ entLen r → entLen r ≤ 4096 →
      b.engineBytes ⟨s.master cl, 0, e.ctx⟩ (w64 (entF r 0x10 8)) (entLen r) = .ok bs →
      fires (if entOp r = 2 then 1 else 0) bs) ∧
    (entOp r = 3 → entLocal r = false → fires 2 (leBytes 8 (entF r 0x18 8)))) ∧
  ∀ (s : State) (die cluster qp : Nat) (e : FEntry) (es : List FEntry),
    let cl := die * 16 + cluster
    let q := s.qp cl qp
    q.entries = e :: es → e.ref ≠ 0 → entryMsgs e.record ≤ e.made →
    (∀ i ∈ q.out, i.entry ≠ e.id) → s.entryWritten cl e.id = true → ∃ b,
      b = { s with clusters := b.clusters } ∧ b.qp cl qp = { q with entries := es } ∧
      (∀ k j, (k, j) ≠ (cl, qp) → b.qp k j = s.qp k j) ∧
      (∀ k, b.cluster k = { s.cluster k with qps := (b.cluster k).qps }) ∧
      let completes := fun t => exec (.entryComplete die cluster qp) s = .next t
      let lost := (s.die (s.homeDie e.ctx)).lost
      (entSem e.record 6 = none ∨ lost = true ∨ e.cut = 2 → completes b) ∧
      ∀ n, entSem e.record 6 = some n → lost = false → e.cut ≠ 2 →
        (s.semsHere e.ctx = true → (s.semVal e.ctx n).toNat + 1 < 2 ^ 32 →
          ∃ t, completes t ∧ Adds b t e.ctx n 1) ∧
        (s.semsHere e.ctx = false → ∃ t, completes t ∧ (∀ k, tabFind t.reqs k = if k = s.nextId then
            some (.fabricAdd e.ctx n e.team (s.master cl) e.pc e.seq) else tabFind s.reqs k) ∧
          t = { b with reqs := t.reqs, nextId := s.nextId + 1 })) ∧
  ((∀ (s : State) (port path : Nat) (p : Port), port < 23 →
    (port < 18 → (s.port port).up = true ∧ s.portRoom port = true) →
    (tabGet portReset s.ports port).choose (s.readyQps port ++ s.readyPuts port) = some (path, p) →
    let b := { s with ports := tabPut s.ports port p }
    let cl := path / 512
    let n := path % 512
    let step := exec (.fabricMessageSend port) s
    (∀ i, n < 256 → b.qpItem cl n = some i → i.units = [] → i.msg.scl = cl → i.msg.qp = n → i.msg.fput = false →
      let cut := ∃ e ∈ (s.qp cl n).entries, e.id = i.entry ∧ e.cut ≠ 0
      let gone := { s.qp cl n with out := (s.qp cl n).out.drop 1 }
      let rest := fun (t : State) => (∀ k j, (k, j) ≠ (cl, n) → t.qp k j = s.qp k j) ∧
        ∀ k, t.cluster k = { s.cluster k with qps := (t.cluster k).qps }
      (s.refusedHere i.msg = none → ∃ t m, step = .next t ∧ Left b t m ∧ rest t ∧
        (cut → m = { i.msg with rsem := none }) ∧ (¬ cut → m = i.msg) ∧
        t.qp cl n = { gone with unperformed := gone.unperformed + 1 } ∧
        t = { s with clusters := t.clusters, ports := t.ports, net := t.net, outbox := t.outbox, dies := t.dies }) ∧
      ∀ code, s.refusedHere i.msg = some code → code ≠ cPeerLost → ∃ (t : State), step = .next t ∧ rest t ∧
        t.qp cl n = { gone with
          unperformed := gone.unperformed + 1
          entries := gone.entries.map fun e => if e.ref = i.msg.ref then { e with
            cut := if e.made = entryMsgs e.record ∧ (∀ x ∈ gone.out, x.entry ≠ e.id) then 2 else 1 } else e } ∧
        (∀ u, tabFind t.teams u = if u = i.msg.team then (tabFind s.teams u).map fun k =>
          k.told i.msg.ref (msgTarget i.msg) code else tabFind s.teams u) ∧
        t = { b with clusters := t.clusters, teams := t.teams }) ∧
    ∀ c, let core := cl * 8 + (n - 256)
      let z := (b.fillUnits c.who .plain false (units c.xa.toNat 32)).fillUnits c.who .plain false
        [(c.xb.toNat, c.xc.toNat % 4096 + 1)]
      256 ≤ n → n < 264 → b.putCmd core = some c → c.core = core → TlbsOnly b z ∧ ∀ m, z.putMsg c = .msg m →
      let left := s.refusedHere m = none
      ∃ (t : State), step = .next t ∧ Over z t c ∧ (left → Left z t m) ∧
        (¬ left → t.net = s.net ∧ t.outbox = s.outbox ∧ t.dies = z.dies) ∧
        t.qp cl n = { s.qp cl n with
          msgno := (s.qp cl n).msgno + 1
          unperformed := (s.qp cl n).unperformed + if left then 1 else 0 } ∧
        (∀ u, u ≠ c.team → tabFind t.teams u = tabFind s.teams u) ∧
        (∀ k, left → tabFind s.teams c.team = some k → tabFind t.teams c.team =
          some { k with posted := k.posted ++ [(c.id, msgTarget m, some c.seq)] }) ∧
        (∀ q, q ≠ core → t.core q = z.core q) ∧ t.core core = { z.core core with
          cmds := (t.core core).cmds, sb := (t.core core).sb } ∧
        t = { z with
          cores := t.cores, clusters := t.clusters, teams := t.teams, ports := t.ports, net := t.net, dies := t.dies
          outbox := t.outbox, openCmds := t.openCmds, reqs := t.reqs, nextId := t.nextId }) ∧
  (∀ (s : State) (c : Cmd) (st : List Span) (bs : List (BitVec 8)), s.peerLaunch = some c →
    let z := s.fillFabric c 256
    z.statusSpan c = .ok st → z.engineBytes c.who c.xa 256 = .ok bs →
    let pkg := s.pkgTarget (c.xb.toNat / 2 ^ 16 % 256)
    let step := exec (.fabricMessageSend 23) s
    TlbsOnly s z ∧
    (s.lostPkgs.contains pkg = false → ∃ t k, step = .next t ∧ s.launchPlane pkg c.core = some k ∧
      t.outbox = s.outbox ++ [.launch c.id pkg (c.xb.toNat % 4096) c.ctx (s.gangOf c.ctx) bs] ∧
      (∀ j, j ≠ k → t.port j = s.port j) ∧
      (∀ q, t.core q = if q = c.core then { z.core q with cmds := (z.core q).cmds.map fun d => if d.id = c.id then
        { c with started := true, sent := true, units := unitPieces (s.epoch c.core) st } else d } else z.core q) ∧
      t = { z with cores := t.cores, ports := t.ports, outbox := t.outbox }) ∧
    (s.lostPkgs.contains pkg = true → ∃ (t : State), step = .next t ∧ Over z t c ∧
      Sends z t c st (leBytes 4 cPeerLost) 1 ((c.units.head?.map (·.epoch)).getD (s.epoch c.core)) ∧
      t = { z with cores := t.cores, openCmds := t.openCmds, reqs := t.reqs, nextId := t.nextId })) ∧
  (∀ (s : State) (die cluster qp : Nat) (r : Retry) (rs : List Retry),
    let cl := die * 16 + cluster
    let q := s.qp cl qp
    let step := exec (.landFullRetry die cluster qp) s
    let m := r.msg
    let here := m.eth = none ∧ m.tpkg = s.pkg.toNat
    q.retry = r :: rs →
    ((∀ t, r.due = some t → (s.die die).gnomon.toNat < t) ∨ s.mayLeave m = false → step = .next s) ∧
    ∀ due, s.mayLeave m = true → r.due = some due → due ≤ (s.die die).gnomon.toNat → s.targetLost (msgTarget m) = false →
      (s.refusedHere m ≠ none → ∃ (t : State), step = .next t ∧
        Learns (s.setQp cl qp { q with retry := { r with due := none } :: rs }) t m cAccessDenied) ∧
      (s.refusedHere m = none → ∃ (t : State), step = .next t ∧ t.qp cl qp = { q with retry := { r with due := none } :: rs } ∧
        (∀ k j, (k, j) ≠ (cl, qp) → t.qp k j = s.qp k j) ∧
        (∀ k, t.cluster k = { s.cluster k with qps := (t.cluster k).qps }) ∧
        (here → t = { s with clusters := t.clusters, net := m :: s.net }) ∧
        (¬ here → SentOut s t m ∧ t = { s with
          clusters := t.clusters, outbox := t.outbox, ports := t.ports, dies := t.dies }))) ∧
  (∀ (s : State) (u target code : Nat), ∃ (t : State), exec (.fabricRefusalReturn u target code none) s = .next t ∧
    t = { s with teams := t.teams } ∧ ∀ w, tabFind t.teams w = if w = u then
      (tabFind s.teams u).map fun k => { k with refusals :=
        if code = 0 ∨ (k.refusals.any fun r => r.1 == target) = true then k.refusals
        else k.refusals ++ [(target, code)] } else tabFind s.teams w) ∧
  (∀ (s : State) (u target code : Nat) (m : FabricMsg),
    let step := exec (.fabricRefusalReturn u target code (some m)) s
    (m.spkg ≠ s.pkg.toNat → step = .next s) ∧ (m.spkg = s.pkg.toNat →
    (code < 256 → code ≠ cLandFull → code ≠ cPeerLost ∨ m.fput = true → ∃ (t : State), step = .next t ∧
      Learns s t m code) ∧
    (code = cExport → ∃ u t, step = .next t ∧ Learns s u m cAccessDenied ∧ (m.fput = true → t = u) ∧
      (m.fput = false → (t.qpDesc m.scl m.qp).state = 2 ∧ ∀ e es, (u.qp m.scl m.qp).entries = e :: es → e.ref = m.ref →
        ∀ x ∈ (t.qp m.scl m.qp).entries, x.id ≠ e.id)) ∧
    ∀ q, code = cLandFull → tabFind (s.cluster m.scl).qps m.qp = some q →
      let n := ((q.retry.find? fun r => r.msg == m).map (·.count)).getD 0 + 1
      let due := (s.die (m.scl / 16)).gnomon.toNat + 940 * min (2 ^ (n - 1)) 1024
      ∃ (t : State), step = .next t ∧ t = { s with clusters := t.clusters } ∧
        (∀ k j, (k, j) ≠ (m.scl, m.qp) → t.qp k j = s.qp k j) ∧
        (∀ k, t.cluster k = { s.cluster k with qps := (t.cluster k).qps }) ∧
        t.qp m.scl m.qp = { q with retry := (t.qp m.scl m.qp).retry } ∧
        ⟨m, n, some due⟩ ∈ (t.qp m.scl m.qp).retry ∧
        ((t.qp m.scl m.qp).retry.filter fun r => r.msg != m) = q.retry.filter fun r => r.msg != m)) ∧
  (∀ (s : State) (id : Nat) (lost : Bool) (c : Cmd) (f : FE3), s.findCmd id = some c →
    c.instr = .fflush f → s.cmdRuns c = true →
    (∀ st, c.sent = false →
      let z := s.fillFabric c 0
      z.statusSpan c = .ok st → TlbsOnly s z ∧
      ∃ (t : State), exec (.fflushComplete id lost) s = .next t ∧ t = { z with cores := t.cores } ∧
        ∀ q, t.core q = if q = c.core then { z.core q with cmds := (z.core q).cmds.map fun d => if d.id = c.id then
          { c with started := true, sent := true, units := unitPieces (s.epoch c.core) st } else d } else z.core q) ∧
    (c.sent = true →
      let x := s.flushTo c
      let gone := s.targetLost x = true ∨ (lost = true ∧ 1024 ≤ x)
      let st : List Span := c.units.filterMap fun p => p.loc.map fun l => ⟨p.va.toNat, p.len, l, p.mkey⟩
      let ep := (c.units.head?.map (·.epoch)).getD (s.epoch c.core)
      (¬ gone → s.flushed c x = false → exec (.fflushComplete id lost) s = .next s) ∧
      (gone ∨ s.flushed c x = true → ∃ (t : State), exec (.fflushComplete id lost) s = .next t ∧
        (gone → Sends s t c st (leBytes 4 cPeerLost) 1 ep) ∧
        (¬ gone → Sends s t c st (leBytes 4 (s.refusalOf c.team x)) 1 ep) ∧ Over s t c ∧
        (∀ u, tabFind t.teams u = if u = c.team then (tabFind s.teams u).map fun k =>
          { k with refusals := k.refusals.filter fun r => r.1 != x } else tabFind s.teams u) ∧
        (∀ q, q ≠ c.core → t.core q = s.core q) ∧
        t = { s with
          cores := t.cores, teams := t.teams, openCmds := t.openCmds, reqs := t.reqs, nextId := t.nextId }))) ∧
  ∀ (s : State) (id code : Nat) (c : Cmd) (f : FE3), s.findCmd id = some c → c.instr = .launch f →
    c.sent = true → ∃ (t : State), exec (.launchStatusReturn id code) s = .next t ∧ Over s t c ∧
      Sends s t c (c.units.filterMap fun p => p.loc.map fun l => ⟨p.va.toNat, p.len, l, p.mkey⟩)
        (leBytes 4 code) 1 ((c.units.head?.map (·.epoch)).getD (s.epoch c.core)) ∧
      (∀ q, q ≠ c.core → t.core q = s.core q) ∧
      t = { s with cores := t.cores, openCmds := t.openCmds, reqs := t.reqs, nextId := t.nextId })

/-- R280, R287, R288, R343: a message that has come to its turn is placed where its checks hold: its bytes are
in memory, its semaphore is added to, its sender is told, and its gang's entry is counted; a wrong key, a
context that is not live or a page or export that does not admit it refuses it, a repeat is dropped, and
nothing is placed then. One that comes before its turn waits in transit. R349 to R351: with the context out it
stands in its landing buffer, or is turned away with LAND_FULL. R337, R352: what has landed is applied as the
context arrives, an entry behind a held create of its queue pair after that (log 108), and with nothing left
the context is resident. R286, R127: an access of another package is performed where an export admits it, an
element of an ACW in one step. -/
def Obligations.fabricArrives : Prop :=
  (∀ (s : State) (m : FabricMsg), m ∈ s.net ∨ s.ownMsg m = false →
    let step := exec (.fabricMessageArrival m) s
    let a := { s with net := s.net.erase m }
    let key := (a.remoteKey m.tctx).1
    let b := (a.remoteKey m.tctx).2
    let home := a.homeDie m.tctx
    let live := s.ctxState m.tctx = 1 ∨ s.ctxState m.tctx = 2
    let path := msgPath m
    let waits := s.tickDue = true ∨ s.msgWaits m (s.net.take (s.net.idxOf m)) = true ∨
      (m ∈ s.net ∧ s.msgBlocked m = true)
    let refuses := fun code => ∃ (c d t : State), step = .next t ∧ Turned b c m ∧
      (∀ k, tabFind d.refusedRefs k = if k = path then some m.ref else tabFind b.refusedRefs k) ∧
      d = { c with refusedRefs := d.refusedRefs } ∧ (code ≠ cPeerLost ∨ m.fput = true ∨ s.ownMsg m = false →
        Told d t m code)
    (waits → m ∈ s.net → step = .next s) ∧
    (waits → m ∉ s.net → step = .next { s with net := s.net ++ [m] }) ∧
    ((∀ k, (s.ctx m.tctx).rkey = some k → key = k ∧ b = a) ∧
      ((s.ctx m.tctx).rkey = none → key = a.descMem m.tctx 3)) ∧
    (¬ waits →
    ((b.die home).lost = true → refuses cPeerLost) ∧
    ((b.die home).lost = false → ¬ live ∨ key ≠ m.key → refuses cAccessDenied) ∧
    ((b.die home).lost = false → live → key = m.key →
    let again := m.windowed = true ∧ isRepeat (tabGet [] (b.die home).window path) m.msgno = true
    (again → ∃ c t, step = .next t ∧ Turned b c m ∧ Told c t m 0) ∧
    (¬ again → b.homeResident m.tctx = false →
      let l := b.land m.tctx
      let die := b.homeDie m.tctx
      (l.size ≤ l.count → ∃ (c t : State), step = .next t ∧ GangIs b c die m.gang (fun f => { f with nacks := f.nacks + 1 }) ∧
        (∀ k, tabFind t.fullNos k = if k = path ∧ m.fput = false then some m.msgno else tabFind b.fullNos k) ∧
        (s.ownMsg m = false →
          t = { c with fullNos := t.fullNos, outbox := s.outbox ++ [.refusal m.spkg m cLandFull] }) ∧
        (s.ownMsg m = true → t = { c with fullNos := t.fullNos, clusters := t.clusters } ∧
          ∀ q, tabFind (s.cluster m.scl).qps m.qp = some q →
            ∃ r ∈ (t.qp m.scl m.qp).retry, r.msg = m ∧ r.due.isSome = true)) ∧
      (l.count < l.size →
        let k := l.key + 64 + 4160 * l.tail
        let stamp := (b.die (l.key / 2 ^ 46)).gnomon.toNat
        let n := m.payload.length
        Hbm l.key 16 → Writable b l.mkey l.key 16 → Hbm k (64 + n) → Writable b l.mkey k (64 + n) →
        ∃ (c x y p q f g t : State), step = .next t ∧ Turned b c m ∧
          Stored c x l.mkey k (leBytes 64 (landHeader m stamp)) ∧ Stored x y l.mkey (k + 64) m.payload ∧
          Stored y p l.mkey l.key (leBytes 16 (l.head + (l.tail + 1) % max 1 l.size * 2 ^ 32 +
            (l.count + 1) * 2 ^ 64 + l.drops % 2 ^ 32 * 2 ^ 96)) ∧
          (∀ j, p.ctx j = if j = m.tctx then { b.ctx j with landed := (b.ctx j).landed ++ [(path, m.ref)] }
            else b.ctx j) ∧ p = { c with mem := p.mem, tags := p.tags, ctxs := p.ctxs } ∧ Noted p q die m ∧
          GangIs q f die m.gang (fun e => { e with landed := e.landed + 1 }) ∧ GangIs f g die m.gang counted ∧
          Told g t m 0)) ∧
    (¬ again → b.homeResident m.tctx = true → m.kind = 0 ∨ m.kind = 2 →
      let w := b.fabricWho m.tctx
      let us := units m.va.toNat m.payload.length
      ∃ c, Turned b c m ∧
      let z := c.fillUnits w .plain true us
      TlbsOnly c z ∧
      (∀ va code, z.spans w .plain true us = .error (va, code) → refuses code) ∧
      (∀ sp va, z.spans w .plain true us = .ok sp → z.spansRefused sp true = some va → refuses cAccessDenied) ∧
      (∀ sp, z.spans w .plain true us = .ok sp → z.spansRefused sp true = none →
        (s.ownMsg m = false → hostSpan sp ≠ none → refuses cAccessDenied) ∧
        (hostSpan sp = none → s.granted m sp = false → refuses cExport)) ∧
      ∀ va k mk, z.spans w .plain true us = .ok [⟨va, m.payload.length, .mem k, mk⟩] →
        z.spansRefused [⟨va, m.payload.length, .mem k, mk⟩] true = none →
        s.granted m [⟨va, m.payload.length, .mem k, mk⟩] = true → 0 < m.payload.length → m.payload.length ≤ 8 →
        Hbm k m.payload.length → (∀ o ∈ s.barriers, o + 16 ≤ k ∨ k + m.payload.length ≤ o) →
        ∃ (x p q d t : State), step = .next t ∧ Puts z x mk k m.payload.length (w64 (leNat m.payload)) ∧
          x = { z with mem := x.mem, tags := x.tags } ∧ Noted x p home m ∧
          GangIs p q (b.targetDie m) m.gang counted ∧ (m.rsem = none → d = q) ∧
          (∀ n, m.rsem = some n → tabFind s.refusedRefs path = some m.ref → d = q) ∧
          (∀ n, m.rsem = some n → tabFind s.refusedRefs path ≠ some m.ref → q.semsHere m.tctx = true →
            (q.die (q.homeDie m.tctx)).lost = false → (q.semVal m.tctx n).toNat + 1 < 2 ^ 32 → Adds q d m.tctx n 1) ∧ Told d t m 0)))) ∧
  (∀ (s : State) (die ctx : Nat), s.homeDie ctx = die → s.freed ctx = none →
    tabGet Resid.out (s.ctx ctx).resid die = .arriving →
    let step := exec (.landingApply die ctx) s
    let l := s.land ctx
    let path := ((s.ctx ctx).landed.headD (0, 0)).1
    let ref := ((s.ctx ctx).landed.headD (0, 0)).2
    let m := s.landEntry ctx path l
    let waits := m.fput = false ∧ (s.pathHeld path = true ∨ (s.ctx ctx).behindOn path = true)
    let left := if waits then l.count else l.count - 1
    let b := s.popLand ctx l (l.count - left)
    let w := b.fabricWho ctx
    let us := units m.va.toNat m.payload.length
    let z := b.fillUnits w .plain true us
    (l.count = 0 → ∃ (t : State), step = .next t ∧
      tabGet Resid.out (t.ctx ctx).resid die = .resident ∧ ∀ c, c ≠ ctx → t.ctx c = s.ctx c) ∧
    (l.count ≠ 0 → l.count ≤ (s.ctx ctx).behind.length → step = .next s) ∧
    ((s.ctx ctx).behind.length < l.count →
      (Hbm l.key 16 → Writable s l.mkey l.key 16 → Stored s b l.mkey l.key (leBytes 16 ((l.head + 1) % max 1 l.size +
          l.tail * 2 ^ 32 + left * 2 ^ 64 + l.drops % 2 ^ 32 * 2 ^ 96)) ∧
        b = { s with mem := b.mem, tags := b.tags, ctxs := b.ctxs } ∧ ∀ c, b.ctx c = if c = ctx then
          { s.ctx c with landed := (s.ctx c).landed.drop 1 } else s.ctx c) ∧
      (waits → ∃ (t : State), step = .next t ∧ t = { b with ctxs := t.ctxs } ∧ ∀ c, t.ctx c = if c = ctx then
        { b.ctx c with behind := (b.ctx c).behind ++ [(m, path, ref)] } else b.ctx c) ∧
      (¬ waits →
        (∀ code va, code ≠ cVersionOrder → b.placeMsg m (.landing path ref) = .refused code va →
          (b.die (b.homeDie ctx)).fqFull = true → step = .next s) ∧
        ∀ va k mk, m.kind = 0 ∨ m.kind = 2 → TlbsOnly b z ∧
          (z.spans w .plain true us = .ok [⟨va, m.payload.length, .mem k, mk⟩] →
          z.spansRefused [⟨va, m.payload.length, .mem k, mk⟩] true = none →
          b.granted m [⟨va, m.payload.length, .mem k, mk⟩] = true → 0 < m.payload.length →
          m.payload.length ≤ 8 → Hbm k m.payload.length →
          (∀ o ∈ s.barriers, o + 16 ≤ k ∨ k + m.payload.length ≤ o) →
          ∃ (x t : State), step = .next t ∧ Puts z x mk k m.payload.length (w64 (leNat m.payload)) ∧
            x = { z with mem := x.mem, tags := x.tags } ∧ (m.rsem = none → t = x) ∧
            ∀ n, m.rsem = some n → tabFind s.refusedRefs path ≠ some ref → x.semsHere ctx = true →
              (x.die (x.homeDie ctx)).lost = false → (x.semVal ctx n).toNat + 1 < 2 ^ 32 → Adds x t ctx n 1)))) ∧
  ∀ (s : State) (r : RemoteReq),
    let answers := fun (b : State) d c => exec (.remoteAccess r) s =
      .next { b with outbox := s.outbox ++ [Out.remoteAnswer r.pkg r.ref d c] }
    let n := min r.len 8
    (∀ c, s.remoteBad r = some c → answers s none c) ∧
    (s.remoteBad r = none → r.atomic = none → r.write = false →
      answers s (some (BitVec.ofNat 64 (s.readNat r.key r.addr n))) 0) ∧
    (s.remoteBad r = none → r.atomic = none → r.write = true → 0 < r.len → Hbm r.addr n → ∃ b,
      answers b none 0 ∧ Puts s b r.key r.addr n r.data ∧ b = { s with mem := b.mem, tags := b.tags }) ∧
    (∀ op ty ret, s.remoteBad r = none → r.atomic = some (op, ty, ret) → Hbm r.addr (acwWidth ty) →
      let k := acwWidth ty
      let old := s.readNat r.key r.addr k
      ∃ b, answers b (some (BitVec.ofNat 64 old)) 0 ∧ b = { s with mem := b.mem, tags := b.tags } ∧
        Puts s b r.key r.addr k (w64 (acwOp op ty old (r.data.toNat % 2 ^ (8 * k)) (ret.toNat % 2 ^ (8 * k))))) ∧
    (s.exported r = false → ∃ c, s.remoteBad r = some c) ∧
    (s.exported r = false → r.addr % 2 ^ 46 < 0x200000000000 → backed (r.addr % 2 ^ 46) = true →
      (s.die (r.addr / 2 ^ 46 % 4)).lost = false → answers s none cAccessDenied)

/-- R338: a quantum of a core ends after 188,000 GNOMON counts, behind a tick that is due (R344): the context
that ranks first (R347) runs on, for WEIGHT quanta where others tie with it, or the present one is halted for
it; a context without work is halted at once for the first-ranked of those that have (log 30). C0x000 is no
candidate (log 29). R339: in the last 20 µs the next context's plane stands in the shadow; a transfer that
fails its checksum leaves a CFG_CHECK record and goes again whole, and a second failure removes the core.
R384: a free core takes the plane of its next context from the shadow, with the context's saved commands and
teams, its tasks as their image has them (offsets beyond R378 to R380: log 35; what is read back: log 39), its
parked accesses on the die retried (R368), and begins a quantum. R374 to R377: a halted core saves its context
once everything has drained: its commands leave the core with its image, the image and its directory entry
stand in memory, and its buffers are dropped. A task whose oldest access waits for the host is aborted, and is
ready again from its origin (R375). A core that has not drained, or whose context's accesses have not all left
their queues, waits. R328: a task that waits in a HALT goes on once each core that ran the context as it was
requested has halted it. Record fields for which R378 to R380 give no offset stand as log 35 says, and loads
for which the halt waits as log 34. -/
def Obligations.quanta : Prop :=
  ((∀ (s : State) (core : Nat), (s.die (dieOf core)).fairDue = true → exec (.quantumEnd core) s = .next s) ∧
  (∀ (s : State) (core c : Nat), s.coreUsable core = true → (s.die (dieOf core)).fairDue = false →
    (s.core core).halting = false → (s.core core).activeCtx = some c →
    let k := s.core core
    let now := (s.die (dieOf core)).gnomon.toNat
    let becomes := fun k' => ∃ (t : State), exec (.quantumEnd core) s = .next t ∧ t = { s with cores := t.cores } ∧
      ∀ q, t.core q = if q = core then k' else s.core q
    (∀ n, k.quantum + 188000 ≤ now → (s.newQuantum core k.kept).nextCtx core (some c) = some n → becomes
      { k with quantum := now, barred := [], kept := if n = c then k.kept + 1 else 0
               next := if n = c then k.next else some n, halting := decide (n ≠ c) }) ∧
    (k.quantum + 188000 ≤ now → (s.newQuantum core k.kept).nextCtx core (some c) = none → becomes
      { k with quantum := now, barred := [], kept := 0 }) ∧
    (now < k.quantum + 188000 → s.hasWork core c = true ∨ s.workCtx core = none → exec (.quantumEnd core) s = .next s) ∧
    ∀ n, now < k.quantum + 188000 → s.hasWork core c = false → s.workCtx core = some n → n ≠ c →
      (s.hasWork core n = true ∧ n ∈ s.candidatesOf core ∧ ∀ x ∈ s.candidatesOf core, s.hasWork core x = true →
        (s.coreRank core x).before (s.coreRank core n) = false) ∧ becomes { k with halting := true, next := some n }) ∧
  (∀ (s : State) (core x : Nat), x ∈ s.candidatesOf core ↔ (∃ y, (x, y) ∈ s.ctxs) ∧ x ≠ 0 ∧
    s.residOn x (dieOf core) = .resident ∧ x ∉ (s.core core).barred ∧
    ((∃ t ∈ s.teamsOn core, t.2.ctx = x) ∨ s.unplacedFor core x = true)) ∧
  (∀ (s : State) (core n : Nat),
    let l := s.candidatesOf core
    let first := fun x => (s.coreRank core x).before (s.coreRank core n) = false
    let tied := fun x => x ∈ l ∧ (s.coreRank core x).behind = (s.coreRank core n).behind ∧
      (s.coreRank core x).epri = (s.coreRank core n).epri
    (s.nextCtx core none = some n → n ∈ l ∧ ∀ x ∈ l, first x) ∧
    ∀ c, s.nextCtx core (some c) = some n → n ∈ l ∧ (∀ x ∈ l, first x ∨ tied x) ∧
      (¬ tied c → ∀ x ∈ l, first x) ∧
      (tied c → (∀ x, tied x → x = c) ∨ (s.core core).kept + 1 < s.weight (dieOf core) c → n = c) ∧
      (tied c → (∃ x, tied x ∧ x ≠ c) → s.weight (dieOf core) c ≤ (s.core core).kept + 1 →
        n ≠ c ∧ ∀ x, tied x → x ≠ c → first x)) ∧
  (∀ (s : State) (core n : Nat), s.coreUsable core = true →
    let k := s.core core
    let d := dieOf core
    k.quantum + 188000 - 18800 ≤ (s.die d).gnomon.toNat → s.nextCtx core k.activeCtx = some n →
    k.activeCtx ≠ some n → ¬ (k.shadowSt = 1 ∧ (tabGet 0 k.shadow 0).toNat % 4096 = n) → (s.die d).fqFull = false →
    ∃ (t : State), exec (.shadowPrepare core) s = .next t ∧
      (∀ q, q ≠ core → t.core q = s.core q) ∧
      ((t.core core).removed = k.removed →
        t.core core = { k with shadow := (t.core core).shadow, shadowSt := 1 }) ∧
      (Config.planeError s.ticks 0 = 0 → t = { s with cores := t.cores } ∧
        (t.core core).removed = k.removed ∧
        ∀ i, i < 128 → tabGet 0 (t.core core).shadow i = tabGet 0 (s.planeOf d n) i) ∧
      (Config.planeError s.ticks 0 ≠ 0 → (∃ (r : FaultRec), (t.die d).fq = (s.die d).fq ++ [r] ∧ r.code = cCfgCheck) ∧
        ((t.core core).removed = true ↔ Config.planeError s.ticks 1 ≠ 0))) ∧
  ∀ (s : State) (core ctx : Nat), s.coreUsable core = true → s.idle core = true → s.tickDue = false →
    s.takeNext core = some ctx →
    let k := s.core core
    let image := s.images.find? fun m => m.core == core && m.ctx == ctx
    let again := fun (c : Cmd) => if c.parked = true ∧ c.ctx = ctx then { c with retry := true } else c
    ((s.candidatesOf core).contains ctx = true ∧ (k.next = some ctx ∨ s.nextCtx core none = some ctx)) ∧
    (k.shadowSt = 1 → (tabGet 0 k.shadow 0).toNat % 4096 = ctx → (tabGet 0 k.shadow 0).getLsbD 63 = true →
    ∃ a, Activates s a core ctx ∧
    let dir := a.dirKey ctx core
    let mk := a.keyOn core ctx
    (a.readNat mk (dir + 24) 1 = 0 → Hbm dir 32 → Writable a mk dir 32 →
    ∃ (b p q t : State), exec (.contextRestore core) s = .next t ∧
      b = { a with teams := b.teams, mem := b.mem, tags := b.tags } ∧
      (∀ key x, x < 2 ^ 57 → b.readByte key x = a.readByte key x) ∧
      (image = none → b = a) ∧
      (∀ m, image = some m →
        (∀ u, u ∉ m.teams.map (·.1) → tabFind b.teams u = tabFind s.teams u) ∧
        ∀ uid run x, m.teams = [(uid, run)] → tabFind s.teams uid = some x → ∃ (y : Team), tabFind b.teams uid = some y ∧
          Restores a m uid (m.place + 64 + 128 * a.readNat m.mkey (m.place + 6) 2) run x y) ∧
      Stored b p mk (dir + 12) [0, 0, 0, 0] ∧ Stored p q mk (dir + 25) [0] ∧
      (∀ j, j ≠ core → t.core j = if image ≠ none ∧ dieOf j = dieOf core then
        { s.core j with cmds := (s.core j).cmds.map again } else s.core j) ∧
      (∀ cl, t.cluster cl = if image ≠ none ∧ cl / 16 = dieOf core then { s.cluster cl with
        qps := (s.cluster cl).qps.map fun q => if q.2.parked = true ∧ (∃ e ∈ q.2.entries, e.ctx = ctx) then
          (q.1, { q.2 with replay := true }) else q } else s.cluster cl) ∧
      t.core core = { k with
        plane := k.shadow, shadow := [], shadowSt := 0, halting := false, next := none, kept := 0
        quantum := (s.die (dieOf core)).gnomon.toNat, cmds := (t.core core).cmds, sb := (t.core core).sb } ∧
      (∀ m, image = some m → (t.core core).sb = m.sb ++ k.sb ∧ (t.core core).cmds =
        (m.cmds.map (b.readCmd m) ++ k.cmds).map again) ∧
      (∀ m, ∀ c ∈ m.cmds, image = some m → c.id ∈ m.order →
        let c' := b.readCmd m c
        let f := fun off n => b.readNat m.mkey (m.place + 64 + 128 * m.order.idxOf c.id + off) n
        c' = { c with seq := c'.seq, xa := c'.xa, xb := c'.xb, xc := c'.xc, row := c'.row, pass := c'.pass
                      seg := c'.seg, chunk := c'.chunk, wsem := c'.wsem, sig := c'.sig, regs := c'.regs, deps := c'.deps } ∧
          c'.seq = BitVec.ofNat 32 (f 0x10 4) ∧ c'.xa = w64 (f 0x18 8) ∧ c'.xb = w64 (f 0x20 8) ∧ c'.xc = w64 (f 0x28 8) ∧
          ∀ d, d ∈ c'.deps ↔ if ∃ id ∈ m.order, d = .cmd id then
            ∃ j id, m.order[j]? = some id ∧ d = .cmd id ∧ (f 0x40 19).testBit j = true else d ∈ c.deps) ∧
      (image = none → (t.core core).sb = k.sb ∧ (t.core core).cmds = k.cmds) ∧
      t.images = s.images.filter (fun m => !(m.core == core && m.ctx == ctx)) ∧
      (∀ u, tabFind t.teams u = (tabFind b.teams u).map fun m => if m.core = some core then
        { m with task := m.task.map fun k => { k with held := false } } else m) ∧
      t = { b with cores := t.cores, clusters := t.clusters, teams := t.teams, images := t.images, mem := q.mem
                   tags := q.tags }))) ∧
  (∀ (s : State) (core ctx : Nat),
    let k := s.core core
    let die := dieOf core
    k.activeCtx = some ctx → k.halting = true → s.saved core ctx = false →
    (s.drained core ctx = false → exec (.preemption core) s = .next s) ∧
    (∀ l, s.drained core ctx = true → s.entriesOf core ctx = l → l ≠ [] →
      let own := l.filter s.ofTask
      (∀ u ∈ own.map (·.team), (∀ a, oldestOf u own = some a → a.hostBound = false) →
        exec (.preemption core) s = .next s) ∧
      (own = [] → exec (.preemption core) s = .next s) ∧
      ∀ u m k a, own ≠ [] → (∀ x ∈ own, x.team = u) → oldestOf u own = some a → a.hostBound = true →
        tabFind s.teams u = some m → m.task = some k → k.origin = none →
        ∃ t y, exec (.preemption core) s = .next t ∧ tabFind t.teams u = some y ∧ y.task = none ∧
          y.startSeq = some k.seq ∧ y.ready.head? = some 0 ∧
          ∀ j, j ≠ u → tabFind t.teams j = tabFind s.teams j) ∧
    (s.drained core ctx = true → s.entriesOf core ctx = [] → s.residOn ctx die ≠ .leaving →
      let dir := s.dirKey ctx core
      let mk := s.keyOn core ctx
      let place := gpaKey (s.readNat mk dir 8)
      let mine := fun (c : Cmd) => c.ctx == ctx && c.savedWith
      let cmds := (k.cmds.filter mine).map fun c => { c with
        sent := if c.queue = .matrix then false else c.sent }
      let img := s.coreImage core ctx cmds
      let uids := (s.teamsOf core ctx).map (·.1)
      let mates := (s.teamsOf core ctx).map fun t => (t.1, t.2.task.isSome)
      Hbm place img.length → Writable s mk place img.length → Hbm dir 32 → Writable s mk dir 32 → ∃ a b t, exec (.preemption core) s = .next t ∧
        Stored s a mk place img ∧ Stored a b mk (dir + 12) (leBytes 4 img.length) ∧
        Stored b t mk (dir + 25) (leBytes 1 (pinned cmds)) ∧
        t.images = s.images ++ [⟨ctx, core, place, mk, mates, cmds.map (·.id), cmds, k.sb.filter fun b => cmds.any fun c => c.id == b.cmd⟩] ∧
        (∀ q, t.core q = if q = core then { k with
          cmds := k.cmds.filter fun c => !mine c
          sb := k.sb.filter fun b => !cmds.any fun c => c.id == b.cmd
          bufs := k.bufs.filter fun b => !uids.contains b.2.team
          lastRan := tabPut k.lastRan ctx (s.die die).gnomon.toNat } else s.core q) ∧
        (∀ u m, tabFind s.teams u = some m → (∀ x cs, m.task = some x → x.hold ≠ .halting ctx cs) →
          tabFind t.teams u = some m) ∧
        (∀ u m x cs, tabFind s.teams u = some m → m.task = some x → x.hold = .halting ctx cs →
          let left := cs.filter fun c => c != core
          tabFind t.teams u = some { m with task := some { x with
            hold := if left = [] then .free else .halting ctx left } }) ∧
        t = { s with mem := t.mem, tags := t.tags, cores := t.cores, images := t.images, teams := t.teams }))

/-- R337, R347: a die moves its contexts between OUT, ARRIVING, RESIDENT and LEAVING, and every 200 µs, behind
a tick that is due (R344, R438), gives its 16 slots to the contexts that rank first, whose descriptors it
reads then (R314). With 16 that hold one, the first-ranked of those that wait displaces the last-ranked
resident, if it ranks before it: that one is LEAVING, and the other follows it when it is OUT; between the
choices an entry that is behind does so at once (log 59). R318, R369: every 10 µs QEPOCH advances, and QDONE
is the newest epoch of which, and of every earlier one, nothing is in flight (modulo 2^32; it goes back with a
die that comes up later: log 113). -/
def Obligations.residency : Prop :=
  (∀ (s : State) (die : Nat), (s.die die).fairDue = true → exec (.residencyChoice die) s = .next s) ∧
  (∀ (s : State) (die : Nat), (s.die die).up = true → (s.die die).lost = false → (s.die die).fairDue = false →
    let b := (s.ctxs.map (·.1)).foldl (fun s c => if c = 0 then s else s.settleCtx die c) s
    let n := (s.die die).gnomon.toNat / 188000
    ((s.die die).choice < n → ∃ (t : State), exec (.residencyChoice die) s = .next t ∧
      t = { b.giveSlots die false 16 with dies := t.dies } ∧
      ∀ d, t.die d = if d = die then { (b.giveSlots die false 16).die die with choice := n }
        else (b.giveSlots die false 16).die d) ∧
    (n ≤ (s.die die).choice → exec (.residencyChoice die) s = .next (b.giveSlot die true))) ∧
  (∀ (s : State) (die ctx : Nat), ctx ≠ 0 →
    let home := s.homeDie ctx
    let moved := fun (t : State) (r : Resid) => t.residOn ctx die = r ∧
      (∀ c d, c ≠ 0 → (c, d) ≠ (ctx, die) → t.residOn c d = s.residOn c d)
    (s.residOn ctx die = .arriving → die ≠ home → s.residOn ctx home = .resident →
      moved (s.settleCtx die ctx) .resident) ∧
    (s.residOn ctx die = .resident → (s.die home).lost = false →
      2 ≤ s.ctxState ctx ∨ (die ≠ home ∧ s.residOn ctx home ≠ .resident) →
      moved (s.settleCtx die ctx) .leaving ∧
        ∀ c ∈ s.coresOf die ctx, ((s.settleCtx die ctx).core c).halting = true) ∧
    (s.residOn ctx die = .leaving → s.offDie die ctx = true →
      (home = die → (∀ d, d < 4 → d ≠ die → s.residOn ctx d = .out) ∧ s.semIdle ctx = true) →
      ((∀ c ∈ s.ctxs, tabFind c.2.nextOn die ≠ some ctx) → moved (s.settleCtx die ctx) .out) ∧
      ∀ c x, (s.ctxs.find? fun e => tabFind e.2.nextOn die == some ctx) = some (c, x) → c ≠ 0 → c ≠ ctx →
        tabFind (s.ctx ctx).nextOn die ≠ some ctx →
        (s.settleCtx die ctx).residOn ctx die = .out ∧ (s.settleCtx die ctx).residOn c die = .arriving) ∧
    (s.residOn ctx die = .leaving → s.offDie die ctx = false → s.settleCtx die ctx = s) ∧
    ∀ atOnce waiting, waiting = s.liveCtxs.filter (fun c => s.residOn c die == .out &&
        (tabFind (s.ctx c).nextOn die).isNone && s.demand die c && s.mayReside die c) →
      let t := s.giveSlot die atOnce
      let free := (s.slotHolders die).filter fun v => s.residOn v die == .resident
      let full := 16 ≤ (s.slotHolders die).length
      (waiting = [] → t = s) ∧
      (topRank (s.dieRank die) waiting = some ctx →
        (ctx ∈ waiting ∧ ∀ w ∈ waiting, (s.dieRank die w).before (s.dieRank die ctx) = false) ∧
        (atOnce = true → ¬ full ∨ s.isBehind die ctx = false → t = s) ∧
        (atOnce = false → ¬ full → moved t .arriving ∧ ∀ i, i < 14 → t.descOn die ctx i = s.descMem ctx i) ∧
        (full → atOnce = false ∨ s.isBehind die ctx = true →
          (free = [] → t = s) ∧ ∀ v, lastRank (s.dieRank die) free = some v →
            (v ∈ free ∧ ∀ w ∈ free, (s.dieRank die v).before (s.dieRank die w) = false) ∧
            ((s.dieRank die ctx).before (s.dieRank die v) = false → t = s) ∧
            ((s.dieRank die ctx).before (s.dieRank die v) = true →
              t.residOn v die = .leaving ∧ (∀ c ∈ s.coresOf die v, (t.core c).halting = true) ∧
              tabFind (t.ctx ctx).nextOn die = some v ∧
              ∀ c d, c ≠ 0 → (c, d) ≠ (v, die) → t.residOn c d = s.residOn c d)))) ∧
  ∀ (s : State) (die : Nat),
    let d := s.die die
    let due := d.up = true ∧ d.epochAt < d.gnomon.toNat / 9400
    ∃ (t : State), exec (.qepochAdvance die) s = .next t ∧ t = { s with dies := t.dies, qdone := t.qdone } ∧
      (∀ j, t.die j = if j = die ∧ due then { d with qepoch := d.qepoch + 1, epochAt := d.epochAt + 1 }
        else s.die j) ∧
      ∀ es, es = s.epochsOut ++ ((t.dies.filter fun x => x.2.up && !x.2.lost).map fun x => x.2.epochNow.toNat) →
        let ahead := fun (e : Nat) => (BitVec.ofNat 32 e - s.qdone).toInt
        (es = [] → t.qdone = s.qdone) ∧
        (es ≠ [] → ∃ e ∈ es, t.qdone = BitVec.ofNat 32 e - 1 ∧ ∀ x ∈ es, ahead e ≤ ahead x)

/-- R342, R344: a tick of 50 µs takes what was written to the entries since the last one and lowers each BOOST
by 1, to CAP at most; what is written behind a tick that is due waits for its own. A window of 10 ms begins
with GATHERED and USED 0, behind the tick before it; USED counts every µs of each core that runs a context of
the entry, up to the next tick. R345: an entry of which one context has been spinning for SPIN is demoted.
R353: every 10 µs a die advertises its free team slots and its largest free scratchpad, once what was on its
way to it has landed; where a team of it waits for a core, or one of a launch finds no room there, the teams
that may move go, those that are not placed first, then those not dispatched, then the longest parked, one
after another, each to the die with the most free slots that fits it then (log 62). R43: a team that moves
holds no core and no sealed buffers on its way, but slot and tiles where it will land (log 62); its deadlines
are counted on where it lands, in its records too. -/
def Obligations.fairness : Prop :=
  (∀ (s : State) (die : Nat), (s.die die).up = true →
    let d := s.die die
    let now := d.gnomon.toNat
    let becomes := fun i (d' : Die) (n : Nat) (f : Nat → Fair → Fair) => ∃ (t : State), exec i s = .next t ∧
      t = { s with dies := t.dies } ∧ (∀ j, j ≠ die → t.die j = s.die j) ∧
      t.die die = { d' with fair := (t.die die).fair } ∧
      ∀ e, (∀ w ∈ d.fairPend, w.1 < n → w.1 / 8 ≠ e) →
        tabFind (t.die die).fair e = (tabFind d.fair e).map (f e)
    let users := fun i => ((dieCores die).filter fun c =>
      (((s.core c).activeCtx.bind fun x => s.fairOf die x).map (·.1)) == some i).length
    (∀ n, n = d.tick + 1 → n * 47000 ≤ now → n % 200 ≠ 0 ∨ n / 200 ≤ d.win →
      let ticked := fun i (f : Fair) => { f with
        boost := min (f.boost - 1) f.cap, used := f.used + (n * 50 - d.usedAt) * users i }
      becomes (.fairnessTick die) { d with
        tick := n, usedAt := max d.usedAt (n * 50)
        fairPend := (d.fairPend.filter fun w => decide (2 ^ 20 ≤ w.1)).map fun w => (w.1 - 2 ^ 20, w.2) } (2 ^ 20) ticked ∧
      ∀ w v, d.fairPend = [(w, v)] → w < 2 ^ 20 → ∃ (t : State), exec (.fairnessTick die) s = .next t ∧
        tabFind (t.die die).fair (w / 8) = some (((tabFind d.fair (w / 8)).elim fairReset
          (ticked (w / 8))).setWord (w % 8) v)) ∧
    (∀ n, n = d.win + 1 → n * 9400000 ≤ now → n * 200 ≤ d.tick + 1 →
      becomes (.fairnessWindow die) { d with win := n, usedAt := max d.usedAt (n * 10000) } 0
        fun _ f => { f with gathered := 0, used := 0 }) ∧
    (∀ m, m = min (now / 940) ((d.tick + 1) * 50) → d.usedAt < m →
      becomes (.usedAccrual die) { d with usedAt := m } 0 fun i f =>
        { f with used := f.used + (m - d.usedAt) * users i }) ∧
    ∀ i f, tabFind d.fair i = some f → f.valid = true → f.spin ≠ 0 →
      ((∀ x ∈ f.spins, now < x.2 + 940 * f.spin) → exec (.spinDemotion die i) s = .next s) ∧
      ((∃ x ∈ f.spins, x.2 + 940 * f.spin ≤ now) → becomes (.spinDemotion die i) d 0 fun e g =>
        if e = i then { f with demoted := true } else g)) ∧
  ((∀ (s : State) (die pad : Nat), (s.die die).up = true →
    let d := s.die die
    let now := d.gnomon.toNat
    let step := exec (.migrationAdvertise die) s
    (now / 9400 ≤ d.advertAt ∨ (∃ p ∈ s.packs, p.toDie = die) → step = .next s) ∧
    (d.advertAt < now / 9400 → (∀ p ∈ s.packs, p.toDie ≠ die) →
    (∀ c ∈ dieCores die, s.coreUsable c = true → s.padFree c ≤ pad) →
    (pad = 0 ∨ ∃ c ∈ dieCores die, s.coreUsable c = true ∧ s.padFree c = pad) →
    let b := { s with dies := tabPut s.dies die { d with
      advert := some (s.freeSlots die, pad), advertAt := now / 9400 } }
    let short := (∃ x ∈ s.teams, (x.2.core.any fun c => dieOf c == die) = true ∧ s.waitsCore x.2 = true) ∨
      ∃ c ∈ s.ctxs, b.residOn c.1 die = .resident ∧ ∃ l ∈ c.2.launches, l.placed < l.teams ∧
        permits l.diemask die = true ∧ b.coreFor die c.1 l.allot l.acct = none
    (¬ short → step = .next b) ∧
    (short → ∃ (m t : State), step = .next t ∧
      OffersAll b m die ((b.ctxs.map (·.1)).filter fun c => b.residOn c die == .resident) ∧
      MovesAll m t die (m.moveOrder die)))) ∧
  (∀ (s : State) (die : Nat), (s.moveOrder die).Pairwise fun x y =>
    x.2.ready = [] → y.2.ready = [] ∧ x.2.parkedAt ≤ y.2.parkedAt) ∧
  (∀ (s : State) (die uid : Nat) (m : Team), (uid, m) ∈ s.moveOrder die →
    (∃ c, m.core = some c ∧ dieOf c = die) ∧ m.task = none ∧ m.dead = false ∧ m.tilesUsed = [] ∧
    (m.ready = [] ∨ (m.ready = [0] ∧ m.started = 0)) ∧ ∃ l, s.launchOf m = some l ∧ l.nomig = false) ∧
  (∀ (s : State) (die ctx allot acct mask d c : Nat), s.receiver die ctx allot acct mask = some (d, c) →
    let fits := fun e => e ≠ die ∧ e ∈ s.openDies ctx mask ∧ (∃ n pad, (s.die e).advert = some (n, pad) ∧ 0 < n ∧
      allot ≤ pad) ∧ (s.coreFor e ctx allot acct).isSome = true
    let free := fun e => (((s.die e).advert).map (·.1)).getD 0
    fits d ∧ s.coreFor d ctx allot acct = some c ∧ ∀ e, fits e → free e < free d ∨ (free e = free d ∧ d ≤ e)) ∧
  ∀ (s : State) (uid core : Nat) (p : Pack) (m : Team),
    (s.packs.find? fun p => p.team == uid) = some p → tabFind s.teams uid = some m →
    (p.toCore ≠ core → exec (.migrationLanding uid core) s = .next s) ∧
    let landed := { m with
      core := some core
      recs := m.recs.map fun r => match tabFind p.left r.id with
        | some n => { r with deadline := (s.die p.toDie).gnomon.toNat + n }
        | none => r }
    (p.toCore = core → ∃ (b t : State), exec (.migrationLanding uid core) s = .next t ∧
      b = { s with teams := b.teams, packs := s.packs.filter fun q => q.team != uid } ∧
      (∀ u, tabFind b.teams u = if u = uid then some landed else tabFind s.teams u) ∧
      t = { b with mem := t.mem, tags := t.tags } ∧ (p.left = [] → t = b) ∧
      ∀ i n, p.left = [(i, n)] → ∀ q ∈ landed.recs, q.id = i → Shown b t (s.keyOn core m.ctx) landed q))

/-- R360, R388: a scan request at its turn is refused for a field, or for a frame in use; else its frames are
locked until what was under way is over; then it is answered with the first thing found, or its section is
admitted: its leaf entries and measurement are written and it stands with its boundaries. A frame named twice
counts as in use (log 67); what State.agentSees denies the scanner, the frames as they are scanned among it,
gives BADREQ, and a table so denied counts as not present (log 102). -/
def Obligations.scanner : Prop :=
  ∀ (s : State) (die slot : Nat), die < 4 → slot < 64 →
    ((s.die die).bells.filter fun b => b.1 == 0).head? = some (0, slot) →
    let r := s.scanReq die slot
    let step := exec (.scanRequest die slot) s
    ((s.die die).scan = none →
      let ends := fun st => ∃ (t : State), step = .next t ∧ Scanned s t die r.key r.sem st 0 0
      (s.scanBad die r = true → ends 5) ∧
      ∀ ks, s.scanBad die r = false → s.scanFrames r = some ks →
        let busy := (∃ k ∈ ks, (s.lockOf k).isSome = true ∨ s.quarantined k = true ∨ (s.claimOf k).isSome = true ∨
          s.refused 0 k true = true) ∨
          ¬ ks.Nodup
        let names := fun (e : TlbEntry) k => let f := gpaKey (leafFrame e.leaf * 65536) / 65536
          leafType e.leaf ≠ 1 ∧ f ≤ k / 65536 ∧ k / 65536 < f + if e.big then 8192 else 1
        (busy → ends 4) ∧
        (¬ busy → ∃ t c, step = .next t ∧ t.sections = s.sections ++ [c] ∧
          c.id = s.nextId ∧ c.die = die ∧ c.frames = ks.map (· / 65536) ∧ c.ctx = r.ctx ∧ c.cls = r.cls ∧
          c.vbase = r.vbase ∧ c.pages = r.pages ∧ c.admitted = false ∧ c.epoch = (s.die die).epochNow.toNat ∧
          (let job : ScanJob := ⟨s.nextId, r.key, r.cls, r.ctx, r.vbase, r.sem, r.mkey, s.scanList r⟩
            ∀ d, t.die d = if d = die then { s.die d with scan := some job } else s.die d) ∧
          (∀ k ∈ ks, ∀ j mk, j < 65536 → t.refused mk (k + j) true = true) ∧
          (∀ q e, (e ∈ (t.core q).tlb ↔ e ∈ (s.core q).tlb ∧ ∀ k ∈ ks, ¬ names e k) ∧
            (e ∈ (t.cluster q).tlb ↔ e ∈ (s.cluster q).tlb ∧ ∀ k ∈ ks, ¬ names e k)) ∧
          (∀ q, t.core q = { s.core q with tlb := (t.core q).tlb } ∧
            t.cluster q = { s.cluster q with tlb := (t.cluster q).tlb }) ∧
          t = { s with
            sections := t.sections, cores := t.cores, clusters := t.clusters, dies := t.dies
            nextId := s.nextId + 1 })) ∧
    ∀ j c, (s.die die).scan = some j → (s.sections.find? fun c => c.id == j.sect) = some c →
      (s.quiesced c.epoch = false → step = .next s) ∧
      (s.quiesced c.epoch = true →
        let bs := (c.frames.map fun f => s.readBytes j.mkey (f * 65536) 65536).flatten
        let n := 16384 * c.frames.length
        let free := { s with sections := s.sections.filter fun (x : Section) => x.id != c.id }
        let ends := fun (b : State) st e off => ∃ (t : State), step = .next t ∧ Scanned b t die j.key j.sem st e off
        ((∃ a ∈ j.gpas, s.agentSees die a 65536 false j.mkey true = false) → ends free 5 0 0) ∧
        ((∀ a ∈ j.gpas, s.agentSees die a 65536 false j.mkey true = true) →
        match scanParcels j.cls 0 0 (parcelsOf bs n) n with
        | .failed e off => ends free 2 e.code off
        | .passed bitmap =>
          match (List.range j.gpas.length).mapM fun i => s.leafPlace die j.ctx (j.vbase + 65536 * i) with
          | none => ends free 3 0 0
          | some places =>
            let m := measure j.cls bs
            let outside := fun a => (∀ p ∈ places, a < p ∨ p + 8 ≤ a) ∧ (a < j.key + 48 ∨ j.key + 96 ≤ a)
            ∃ b, ends b 1 0 0 ∧ b = { s with sections := b.sections, mem := b.mem, tags := b.tags } ∧
              b.sections = free.sections ++ [{ c with
                bitmap := bitmap, meas := BitVec.ofNat 384 (leNat m), admitted := true }] ∧
              (s.installed 0 0 = true → (∀ p ∈ places, Hbm p 8 ∧ s.installed 0 p = true) →
                places.Pairwise (fun p q => p + 8 ≤ q ∨ q + 8 ≤ p) → j.key = physKey die (scanRing + 128 * slot) →
                (∀ (i p g : Nat), places[i]? = some p → j.gpas[i]? = some g → b.readNat 0 p 8 = codeLeaf g j.cls j.mkey % 2 ^ 64) ∧
                b.readBytes 0 (j.key + 48) 48 = m ∧
                ∀ a, s.installed 0 a = true → outside a → b.readByte 0 a = s.readByte 0 a)))

/-- R391: MKEY_NEW gives the lowest free index to the world, and what was written under an earlier key of that
index stays unreadable; MKEY_KILL kills a key: every access under it is refused from then on, and what was
written under it can be read no more. That an index of 0 or from 4,096 up is refused is log 61. R394 to R397:
SLOT_LOAD opens a blob into a free slot; GRANT_SET gives a context a tag range of a slot that it owns, within
the slot's policy; GRANT_CLEAR and SLOT_CLEAR take grants away, and answer once no buffer is left that was
filled under one. That a blob which State.agentSees denies gives BADREQ is log 102. -/
def Obligations.keys : Prop :=
  (∀ (s : State) (die slot : Nat),
    let req := fun off n => s.reqF die slot off n
    let world := (s.die die).latched = true ∧ (s.die die).world.toNat = req 8 1
    let waits := ∃ r ∈ s.scrubs, r.die = die ∧ r.slot = 64
    (Asked s die slot 1 [(8, 1), (16, 2)] →
      let ends := fun st => ∃ (t : State), exec (.mkeyNew die slot) s = .next t ∧ Answered s t die slot st
      (¬ world → ends 6) ∧ (world → waits → ends 3) ∧
      (world → (∀ j, 1 ≤ j → j < 4096 → tabFind s.mkeys j ≠ none) → ends 3) ∧
      ∀ i, world → ¬ waits → 1 ≤ i → i < 4096 → tabFind s.mkeys i = none →
        (∀ j, 1 ≤ j → j < i → tabFind s.mkeys j ≠ none) →
        ∃ (b t : State), exec (.mkeyNew die slot) s = .next t ∧ Answered b t die slot 1 ∧
          (∀ j, tabFind b.mkeys j = if j = i then some (1, req 8 1) else tabFind s.mkeys j) ∧
          Unreadable s b i ∧
          b.readNat 0 (reqKey die slot + 16) 2 = i ∧
          b = { s with mkeys := b.mkeys, tags := b.tags, mem := b.mem, nextId := s.nextId + 1 }) ∧
    (Asked s die slot 2 [(8, 2)] →
      let i := req 8 2
      (i = 0 ∨ 4096 ≤ i → ∃ (t : State), exec (.mkeyKill die slot) s = .next t ∧ Answered s t die slot 2) ∧
      (0 < i → i < 4096 → ∃ (b t : State), exec (.mkeyKill die slot) s = .next t ∧ Answered b t die slot 1 ∧
        (∀ a w, isHbm a = true → b.refused i a w = true) ∧
        (∀ j, tabFind b.mkeys j = if j = i then some (2, (tabGet (0, 0) s.mkeys i).2) else tabFind s.mkeys j) ∧
        Unreadable s b i ∧ b = { s with mkeys := b.mkeys, tags := b.tags, nextId := s.nextId + 1 }))) ∧
  (∀ (s : State) (die slot : Nat),
    let d := s.die die
    let req := fun off n => s.reqF die slot off n
    let ctx := req 4 2 % 4096
    let world := d.latched = true ∧ d.world.toNat = s.worldOf ctx
    (Asked s die slot 3 [(8, 2), (16, 8)] →
      let n := req 8 2
      let ends := fun b st => ∃ (t : State), exec (.slotLoad die slot) s = .next t ∧ Answered b t die slot st
      (1024 ≤ n ∨ s.ctxState ctx ≠ 1 → ends s 2) ∧
      (n < 1024 → s.ctxState ctx = 1 → ¬ world → ends s 6) ∧
      (n < 1024 → s.ctxState ctx = 1 → world → tabFind d.slots n ≠ none → ends s 3) ∧
      (n < 1024 → s.ctxState ctx = 1 → world → tabFind d.slots n = none →
        s.agentSees die (req 16 8) 320 false = false → ends s 2) ∧
      (n < 1024 → s.ctxState ctx = 1 → world → tabFind d.slots n = none →
        s.agentSees die (req 16 8) 320 false = true →
        match s.openBlob die (s.readBytes 0 (gpaKey (req 16 8)) 320) ctx with
        | .error c => ends s c
        | .ok k => ends { s with dies := tabPut s.dies die { d with slots := tabPut d.slots n k } } 1)) ∧
    (Asked s die slot 5 [(8, 2), (10, 2), (16, 4), (20, 4), (24, 48)] →
      let meas := BitVec.ofNat 384 (req 24 48)
      let ends := fun b st => ∃ (t : State), exec (.grantSet die slot) s = .next t ∧ Answered b t die slot st
      let valid := req 8 2 < 4096 ∧ req 10 2 < 1024
      (¬ valid → ends s 2) ∧ (valid → ¬ world → ends s 6) ∧
      (valid → world → tabFind d.grants (req 8 2) ≠ none → ends s 3) ∧
      (valid → world → tabFind d.grants (req 8 2) = none → tabFind d.slots (req 10 2) = none → ends s 4) ∧
      ∀ k, valid → world → tabFind d.grants (req 8 2) = none → tabFind d.slots (req 10 2) = some k →
        let fits := k.owner = ctx ∧ meas = k.meas ∧ k.tlo ≤ req 16 4 ∧ req 16 4 ≤ req 20 4 ∧ req 20 4 ≤ k.thi
        (¬ fits → ends s 4) ∧
        (fits → ends { s with dies := tabPut s.dies die { d with
          grants := tabPut d.grants (req 8 2) ⟨ctx, req 10 2, req 16 4, req 20 4, meas⟩ } } 1)) ∧
    ∀ (i : Instr) (keep : Nat → Grant → Bool),
      (Asked s die slot 4 [(8, 2)] ∧ i = .slotClear die slot ∧ (∀ g x, keep g x = (x.slot != req 8 2)) ∧
          req 8 2 < 1024) ∨
        (Asked s die slot 6 [(8, 2)] ∧ i = .grantClear die slot ∧ (∀ g x, keep g x = (g != req 8 2)) ∧
          req 8 2 < 4096) →
      ∃ (b t : State), exec i s = .next t ∧ b = { s with dies := b.dies, cores := b.cores } ∧
        (b.die die).grants = d.grants.filter (fun g => keep g.1 g.2) ∧ (∀ j, j ≠ die → b.die j = s.die j) ∧
        (∀ c, b.core c = { s.core c with bufs := (b.core c).bufs } ∧ (dieOf c ≠ die → b.core c = s.core c) ∧
          ∀ x ∈ (b.core c).bufs, x ∈ (s.core c).bufs ∧ (dieOf c = die → ∀ g, x.2.grant = some g →
            tabFind (b.die die).grants g ≠ none ∨ x.1 ∈ (s.core c).busyBufs)) ∧
        (b.staleBufs die = true → t = b) ∧
        (b.staleBufs die = false → ∃ e, Answered e t die slot 1 ∧ e = { b with dies := e.dies } ∧
          e.die die = { b.die die with slots := if i = .slotClear die slot then tabDel d.slots (req 8 2)
            else d.slots }) ∧
        ((∀ x ∈ s.cores, x.2.bufs = []) → b.staleBufs die = false))

/-- R399: ATTEST writes the quote of its die, context and nonce with its signature, where its die's writes get
through (R361, R387); that State.agentSees decides it, and that another OUT gives BADREQ, is log 102. R401,
R402: ACCEPT claims the frames of a handshake's pages for the context and RELEASE gives them up; either zeroes
them, writes the SEQ served into the handshake page and nothing else, and refuses a page, an OP, a COUNT or a
SEQ that does not hold (pages are aligned to 64 KiB: log 66), and every request under a dead key (R391; log
102). -/
def Obligations.confidential : Prop :=
  (∀ (s : State) (die slot : Nat), Asked s die slot 7 [(16, 8), (24, 48)] →
    let ctx := s.reqF die slot 4 2 % 4096
    let world := (s.die die).latched = true ∧ (s.die die).world.toNat = s.worldOf ctx
    (ctx ≠ 0 → ¬ world → ∃ (t : State), exec (.attest die slot) s = .next t ∧ Answered s t die slot 6) ∧
    (ctx = 0 ∨ world →
      let q := s.quote die ctx (s.readBytes 0 (reqKey die slot + 24) 48)
      let out := s.reqF die slot 16 8
      let bs := q ++ ecdsaSign (privateKey (Config.identityKey die)) (privateKey (Config.signNonce s.ticks)) (sha384 q)
      (s.agentSees die out bs.length true = false →
        ∃ (t : State), exec (.attest die slot) s = .next t ∧ Answered s t die slot 2) ∧
      (s.agentSees die out bs.length true = true →
        ∃ (b t : State), exec (.attest die slot) s = .next t ∧ Answered b t die slot 1 ∧
          b = { s with mem := b.mem, tags := b.tags } ∧ (Hbm (gpaKey out) bs.length → Stored s b 0 (gpaKey out) bs)))) ∧
  (∀ (s : State) (die slot op : Nat), op = 1 ∨ op = 2 → Asked s die slot (7 + op) [(16, 8)] →
    let i := if op = 1 then Instr.accept die slot else .release die slot
    let ctx := s.reqF die slot 4 2 % 4096
    let world := (s.die die).latched = true ∧ (s.die die).world.toNat = s.worldOf ctx
    let first := op = 1 ∧ s.firstAccept die ctx = true
    let page := if first then s.acceptable die ctx (s.reqF die slot 16 8)
      else s.claimedHs die ctx (s.reqF die slot 16 8)
    let dead := (tabGet (0, 0) s.mkeys (s.ctxKey ctx)).1 = 2
    let ends := fun st => ∃ (t : State), exec i s = .next t ∧ Answered s t die slot st
    (¬ world → ends 6) ∧ (world → dead ∨ page = none → ends 2) ∧
    ∀ key, world → ¬ dead → page = some key →
      let h := s.handshake ctx key
      let fits := h.op = op ∧ 0 < h.count ∧ h.count ≤ 4096 ∧ ∀ n, tabFind (s.die die).hsSeq ctx = some n → n < h.seq
      let frame := fun va => if op = 1 then s.acceptable die ctx va else s.claimedPage die ctx va
      (¬ fits → ends 2) ∧ (fits → (∃ va ∈ h.pages, frame va = none) → ends 2) ∧
      ∀ ks, fits → h.pages.mapM frame = some ks →
        let mk := s.ctxKey ctx
        (∀ k ∈ key :: ks, s.refused mk k true = false) →
        (∀ a, s.installed mk a = true) →
        ∃ (b t : State), exec i s = .next t ∧ Answered b t die slot 1 ∧
          (∀ k ∈ ks, b.claimOf k = if op = 1 then some ctx else none) ∧
          (first → b.claimOf key = some ctx) ∧
          (∀ a, key + 16 ≤ a → a < key + 24 → b.readByte mk a = (leBytes 8 h.seq).getD (a - (key + 16)) 0) ∧
          (∀ k ∈ ks, ∀ a, k ≤ a → a < k + 65536 → a < key + 16 ∨ key + 24 ≤ a → b.readByte mk a = 0) ∧
          (∀ a, (∀ k ∈ ks, a < k ∨ k + 65536 ≤ a) → a < key + 16 ∨ key + 24 ≤ a →
            b.readByte mk a = s.readByte mk a) ∧
          tabGet 0 (b.die die).hsSeq ctx = h.seq ∧
          b = { s with mem := b.mem, tags := b.tags, dies := b.dies })

/-- R403: DESTROY sets STATE 3 and halts the context on every die; once all its cores have halted and no
buffer is left, its memory key is dead, its remote key 0, its slots, grants and claims are gone, and so are
its launches, those in its rings among them (R419). R404, R405: SCRUB records the runs of a dead key; each
frame is zeroed, the oldest scrub's first, and after the last one the record is gone, the index is free and
the request is answered, or its answer is owed until its turn (turns and owed answers: log 60; what
State.agentSees denies: log 102). -/
def Obligations.reclaim : Prop :=
  (∀ (s : State) (die slot : Nat), Asked s die slot 10 [] →
    let ctx := s.reqF die slot 4 2 % 4096
    let world := (s.die die).latched = true ∧ (s.die die).world.toNat = s.worldOf ctx
    let desc := gpaKey (s.ctxbase.toNat + 256 * ctx)
    (ctx = 0 → ∃ (t : State), exec (.destroy die slot) s = .next t ∧ Answered s t die slot 2) ∧
    (ctx ≠ 0 → ¬ world → ∃ (t : State), exec (.destroy die slot) s = .next t ∧ Answered s t die slot 6) ∧
    (ctx ≠ 0 → world → Hbm desc 256 → (∃ d, d < 4 ∧ ∃ c ∈ s.coresOf d ctx, s.saved c ctx = false) →
      ∃ (t : State), exec (.destroy die slot) s = .next t ∧ Stored s t 0 desc [3] ∧
        (∀ d, d < 4 → ∀ c ∈ s.coresOf d ctx, (t.core c).halting = true) ∧
        (∀ c, t.core c = { s.core c with halting := (t.core c).halting, barred := (t.core c).barred }) ∧
        t = { s with mem := t.mem, tags := t.tags, cores := t.cores }) ∧
    (ctx ≠ 0 → world → Hbm desc 256 → (∀ d, d < 4 → s.offDie d ctx = true) →
      (∀ x ∈ s.cores, x.2.bufs = []) → ∃ b p r q c t, exec (.destroy die slot) s = .next t ∧
        Answered c t die slot 1 ∧ Stored s b 0 desc [3] ∧ b = { s with mem := b.mem, tags := b.tags } ∧
        (let l := b.land ctx;
          (l.count = 0 → p = { b with ctxs := p.ctxs }) ∧
          (l.count ≠ 0 → p = { b with ctxs := p.ctxs, mem := p.mem, tags := p.tags } ∧
            (Hbm l.key 16 → Writable b l.mkey l.key 16 → Stored b p l.mkey l.key (leBytes 16 (l.tail + l.tail * 2 ^ 32 +
              (l.drops + l.count) % 2 ^ 32 * 2 ^ 96))))) ∧
        (let mk := b.ctxKey ctx;
          (mk = 0 → r = p) ∧ (mk ≠ 0 → Unreadable p r mk ∧
            r = { p with mkeys := r.mkeys, tags := r.tags, nextId := s.nextId + 1 } ∧
            ∀ a w, isHbm a = true → r.refused mk a w = true)) ∧
        Stored r q 0 (desc + 24) [0, 0, 0, 0, 0, 0, 0, 0] ∧ q = { r with mem := q.mem, tags := q.tags } ∧
        c.mkeys = r.mkeys ∧
        (∀ d, d < 4 → (∀ x ∈ (c.die d).claims, x.2 ≠ ctx) ∧ (∀ x ∈ (c.die d).grants, x.2.ctx ≠ ctx) ∧
          (∀ x ∈ (c.die d).slots, x.2.owner ≠ ctx) ∧ tabFind (c.die d).hsSeq ctx = none) ∧
        c.ctx ctx = { s.ctx ctx with
          launches := [], gtabs := [], csm := [], landed := [], behind := [], landKey := none
          rkey := (s.ctx ctx).rkey.map fun _ => 0 } ∧
        (∀ k, k ≠ ctx → c.ctx k = s.ctx k) ∧
        ((b.land ctx).count = 0 → (∀ x ∈ s.teams, x.2.ctx = ctx → x.1 < 16) → Writable s 0 desc 256 →
          let ring := fun p => (s.launchRing ctx p).key
          (∀ p, p < 4 → Hbm (ring p) 32 ∧ Writable s 0 (ring p) 32 ∧ (ring p + 32 ≤ desc ∨ desc + 256 ≤ ring p)) →
          ∀ p, p < 4 → c.readNat 0 (ring p + 12) 4 = s.readNat 0 (ring p + 16) 4) ∧
        ∀ u m, 16 ≤ u → tabFind s.teams u = some m →
          (m.ctx = ctx → ∃ (m' : Team), tabFind c.teams u = some m' ∧ m'.dead = true ∧ m'.task = none ∧ m'.ready = []) ∧
          (m.ctx ≠ ctx → (∀ x ∈ s.teams, x.1 = u → x.2 = m) → tabFind c.teams u = some m))) ∧
  (∀ (s : State) (die slot : Nat), die < 4 → slot < 64 → slot ∈ s.offered die → s.reqF die slot 0 1 = 11 →
    let step := exec (.scrub die slot) s
    let turn := ∀ x ∈ (s.offered die).takeWhile (fun x => x != slot), s.takenSlot die x = true
    let head := (s.offered die).head? = some slot
    let key := s.reqF die slot 8 2
    let n := s.reqF die slot 10 2
    let owes := fun st => (head → ∃ (t : State), step = .next t ∧ Answered s t die slot st) ∧
      (¬ head → ∃ (t : State), step = .next t ∧ t = { s with dies := t.dies } ∧ ∀ d, t.die d = if d = die then
        { s.die d with owed := tabPut (s.die d).owed slot st } else s.die d)
    let valid := s.reserved (reqKey die slot) 256 [(0, 3), (4, 2), (8, 2), (10, 2), (16, 8)] = false ∧
      (tabGet (0, 0) s.mkeys key).1 = 2 ∧ 1 ≤ n ∧ n ≤ 256 ∧ s.agentSees die (s.reqF die slot 16 8) (8 * n) false = true
    let pending := (s.scrubs.filter fun r => r.die == die).length
    (¬ turn → step = .next s) ∧
    (∀ st, turn → tabFind (s.die die).owed slot = some st → (¬ head → step = .next s) ∧
      (head → ∃ (b t : State), step = .next t ∧ Answered s b die slot st ∧ t = { b with dies := t.dies } ∧
        ∀ d, t.die d = if d = die then { b.die d with owed := tabDel (b.die d).owed slot } else b.die d)) ∧
    (turn → tabFind (s.die die).owed slot = none → (∀ r ∈ s.scrubs, r.die = die → r.slot ≠ slot) →
      (¬ valid → owes 2) ∧ (valid → 4 ≤ pending → owes 3) ∧
      (valid → pending < 4 → s.scrubRuns die slot = none → owes 2) ∧
      ∀ runs, valid → pending < 4 → s.scrubRuns die slot = some runs → step = .next { s with scrubs := s.scrubs ++
        [⟨die, key, runs, 0, 0, (s.die die).epochNow.toNat, s.reqF die slot 2 1, slot⟩] })) ∧
  ∀ (s : State) (key : Nat),
    let found := s.scrubs.find? fun r => r.key == key && s.scrubbing r
    (found = none → exec (.scrubFrameZero key) s = .next s) ∧
    (∀ r ∈ s.scrubs, s.scrubbing r = true ↔ (s.die r.die).up = true ∧ s.quiesced r.epoch = true ∧
      (s.scrubs.find? fun x => x.die == r.die) = some r) ∧
    ∀ f n r, found = some r →
      let base := physKey r.die (65536 * (f + r.frame))
      r.runs[r.run]? = some (f, n) → r.die < 4 → Hbm base 65536 → s.lockOf base = none →
      ∃ (b t : State), exec (.scrubFrameZero key) s = .next t ∧
        (∀ a, base ≤ a → a < base + 65536 → s.installed 0 a = true → b.readByte 0 a = 0) ∧
        (∀ mk a, a < base ∨ base + 65536 ≤ a → b.readByte mk a = s.readByte mk a) ∧
        (r.advance.run < r.runs.length → t = b ∧
          b = { s with mem := b.mem, tags := b.tags, scrubs := s.scrubs.map fun x => if x = r then r.advance else x }) ∧
        (r.runs.length ≤ r.advance.run →
          b = { s with mem := b.mem, tags := b.tags, scrubs := s.scrubs.erase r, mkeys := b.mkeys } ∧
          (∀ j, tabFind b.mkeys j = if j = key ∧ (tabGet (0, 0) s.mkeys key).1 = 2 then none else tabFind s.mkeys j) ∧
          (64 ≤ r.slot → t = b) ∧ (r.slot < 64 → (s.offered r.die).head? = some r.slot → Answered b t r.die r.slot 1) ∧
          (r.slot < 64 → (s.offered r.die).head? ≠ some r.slot → t = { b with dies := t.dies } ∧
            ∀ d, t.die d = if d = r.die then { s.die d with owed := tabPut (s.die d).owed r.slot 1 } else s.die d))

/-- R420, R421: a die that passes its steps is up, its cores usable but for those that failed their test,
which are logged; the lowest usable core of each cluster is its communication master, the first usable core of
the die is the handler core, and C0x000's team stands on it with its first task ready where the firmware
begins. Of the ports that are down a scale-up port trains whose partner reports this package's index (R414),
and the die's own Ethernet port. A die that fails a step is logged and lost. R405: at a loss of power the
machine is as after reset but for the always-on block, and HBM keeps what it held, under keys that are gone;
each index under a scrub stays dead. R422: over a window above PLIMIT the front ends lose one of 16 cycles,
down to 4; at 95 percent of it or less they gain one. -/
def Obligations.powerUp : Prop :=
  (∀ (s : State) (die : Nat) (bu : Bringup), die < 4 → (s.die die).up = false → (s.die die).lost = false →
    (bu.firmwareOk = true → bu.hbmOk = true → ∃ t m r, exec (.dieBringup die bu) s = .next t ∧
      (t.die die).up = true ∧ (t.die die).lost = false ∧ (t.die die).world = bu.world ∧
      (t.die die).latched = true ∧ (t.die die).hcore.toNat = handlerCore bu.badCores ∧
      (t.die die).fq = [] ∧ (t.die die).qepoch = dieReset.qepoch ∧ (∀ d, d ≠ die → t.die d = s.die d) ∧
      (∀ i, i < 128 → t.core (die * 128 + i) = { coreReset with usable := !bu.badCores.contains i }) ∧
      (∀ c, dieOf c ≠ die → t.core c = s.core c) ∧
      (∀ i, i < 16 → (t.cluster (die * 16 + i)).master = ((List.range 8).find? fun c =>
        !bu.badCores.contains (8 * i + c)).map fun c => (die * 16 + i) * 8 + c) ∧
      tabFind t.teams (sysTeam die) = some m ∧ m.ctx = 0 ∧
      m.core = some (die * 128 + handlerCore bu.badCores) ∧ m.ready = [r.id] ∧ m.recs = [r] ∧
      r.pc = bu.entry ∧ m.task = none ∧ (∀ u, u ≠ sysTeam die → tabFind t.teams u = tabFind s.teams u) ∧
      t.ctxbase = bu.ctxbase ∧ t.pkg.toNat = bu.pkg % 256 ∧
      (let trains := fun (x : Nat × Nat) => (s.port x.1).up = false ∧ (s.port x.1).sent = [] ∧
          ((x.1 < 18 ∧ x.2 = bu.pkg) ∨ x.1 = 18 + die)
      ∀ p, ((∃ x ∈ bu.ports, x.1 = p ∧ trains x) → t.port p = { portReset with up := true }) ∧
        ((∀ x ∈ bu.ports, x.1 = p → ¬ trains x) → t.port p = s.port p)) ∧
      (die = 0 → (t.linkUp = true ↔ 0 < bu.lanes)) ∧ (bu.badCores = [] → t.mclog = s.mclog) ∧
      ∀ i, i < 128 → bu.badCores = [i] → ∃ (q : McRec), t.lastCheck = some q ∧ q.code = 0xE0 ∧ q.die = die ∧
        q.core = die * 128 + i) ∧
    (bu.firmwareOk = false → exec (.dieBringup die bu) s =
      .next ((s.logCheck 0xE6 die 0x1FF 0 0).loseDie die)) ∧
    (bu.firmwareOk = true → bu.hbmOk = false → exec (.dieBringup die bu) s =
      .next ((s.logCheck 0xE1 die 0x1FF 0 0).loseDie die))) ∧
  ((∀ (s : State), ∃ (t : State), exec .powerLoss s = .next t ∧
    (∀ a, t.byte a = if isHbm a = true then s.byte a else memDefault) ∧
    (∀ g, tabGet 0 t.tags g = if (tabFind s.tags g).isSome = true then 4097 + s.nextId else 0) ∧
    (∀ r ∈ s.scrubs, tabFind t.mkeys r.key = some (2, 0)) ∧
    (∀ j, (∀ r ∈ s.scrubs, r.key ≠ j) → tabFind t.mkeys j = none) ∧
    t.scrubs = (s.scrubs.map fun r => { r with slot := 64, epoch := 0 }) ∧
    t = { State.reset with
      mem := t.mem, tags := t.tags, scrubs := t.scrubs, mkeys := t.mkeys, mclog := s.mclog, mcNext := s.mcNext, corrected := s.corrected
      downMask := s.downMask, agenda := s.agenda, nextId := s.nextId + 1, ticks := s.ticks
      outbox := s.outbox }) ∧
  ∀ (s : State) (mw : Nat), ∃ (t : State), exec (.powerWindow mw) s = .next t ∧ t = { s with duty := t.duty } ∧
    (s.plimit < mw → t.duty = max 4 (s.duty - 1)) ∧
    (mw ≤ s.plimit → mw * 100 ≤ s.plimit * 95 → t.duty = min 16 (s.duty + 1)) ∧
    (mw ≤ s.plimit → s.plimit * 95 < mw * 100 → t.duty = s.duty))

/-- R313, R423: a machine check is logged; one of a tenant's context sets STATE 2 and terminates its launches,
each with a TERM record of its code; one of C0x000's task ends that task; one that no context is to be named
for loses the die. A corrected error is counted. R424: a die of this package that is lost is down; with a die
of another package every queue pair is closed that aims at it (R289), and with its last one the package is
lost (log 73). SOURCE 5 of such a TERM record is log 71, that a context's loads and started commands on the
core stop is log 103, what a target context calls home on another package log 106, and CODE 1 of a corrected
error log 115. -/
def Obligations.machineChecks : Prop :=
  (∀ (s : State) (die core ctx addr : Nat),
    exec (.machineCheck die 1 core ctx addr) s = .next { s with corrected := s.corrected + 1 }) ∧
  (∀ (s : State) (die code core ctx addr : Nat), 0xE0 ≤ code → code ≤ 0xE6 → die < 4 →
    let r : McRec := ⟨code, die, core, if ctx < 4096 then ctx else 0, addr, (s.die die).gnomon.toNat⟩
    let l := s.logCheck code die core (if ctx < 4096 then ctx else 0) addr
    let desc := gpaKey (s.ctxbase.toNat + 256 * ctx)
    l.lastCheck = some r ∧ l.outbox = s.outbox ++ [.msix 2047] ∧
      l = { s with mclog := l.mclog, mcNext := l.mcNext, outbox := l.outbox } ∧
    (4096 ≤ ctx → (s.die die).lost = false → ∃ (t : State), exec (.machineCheck die code core ctx addr) s = .next t ∧
      (t.die die).lost = true ∧ (t.die die).up = false ∧ t.lastCheck = some r) ∧
    (ctx = 0 → (∀ m, tabFind s.teams (sysTeam die) = some m → m.core ≠ some core) →
      exec (.machineCheck die code core ctx addr) s = .next l) ∧
    (ctx = 0 → ∀ m, tabFind s.teams (sysTeam die) = some m → m.core = some core →
      ∃ (t : State), exec (.machineCheck die code core ctx addr) s = .next t ∧ t.lastCheck = some r ∧
        (m.task = none → tabFind t.teams (sysTeam die) = some m) ∧
        (∀ k, m.task = some k → (∀ id, k.hold ≠ .ending id) → tabFind t.teams (sysTeam die) = some { m with
          task := none, recs := m.recs.filter fun r => some r.id != k.origin
          ready := m.ready.filter fun r => r == 0 || some r != k.origin }) ∧
        (∀ u, u ≠ sysTeam die → tabFind t.teams u = tabFind s.teams u) ∧ t.mem = s.mem) ∧
    (0 < ctx → ctx < 4096 → Hbm desc 1 → (s.ctx ctx).launches = [] → s.doomed = [] →
      ∃ (t : State), exec (.machineCheck die code core ctx addr) s = .next t ∧ Stored l t 0 desc [2] ∧
        t = { l with mem := t.mem, tags := t.tags, cores := t.cores } ∧
        ∀ q, t.core q = if q = core then { s.core q with
          loads := (s.core q).loads.filter fun a => a.ctx != ctx
          cmds := (s.core q).cmds.filter fun c => !(c.ctx == ctx && c.started && !c.held)
          sb := (t.core q).sb } else s.core q) ∧
    ∀ x, 0 < ctx → ctx < 4096 → (s.ctx ctx).launches = [x] → s.doomed = [] → (s.die die).up = true →
      (s.die die).lost = false → (s.die die).fqFull = false →
      ∃ (t : State) (q : FaultRec), exec (.machineCheck die code core ctx addr) s = .next t ∧ t.lastCheck = some r ∧
        (t.die die).fq = (s.die die).fq ++ [q] ∧ q.code = code ∧ q.source = 5 ∧ q.term = true ∧
        q.addr = w64 addr ∧ t.doomed = [] ∧
        ∀ u m, tabFind t.teams u = some m → m.ctx = ctx → m.slot = x.slot → 16 ≤ u → m.dead = true) ∧
  ∀ (s : State) (pkg die : Nat),
    (pkg = s.pkg.toNat ∨ pkg = 255 → die < 4 → (s.die die).lost = false →
      ∃ (t : State), exec (.dieLoss pkg die) s = .next t ∧ (t.die die).lost = true ∧ (t.die die).up = false ∧
        tabFind t.teams (sysTeam die) = none ∧ t.pkg = s.pkg ∧ t.mclog = s.mclog) ∧
    (pkg ≠ s.pkg.toNat → pkg ≠ 255 → s.lostDies.contains (pkg, die) = false →
      ∃ (t : State), exec (.dieLoss pkg die) s = .next t ∧ t.lostDies = s.lostDies ++ [(pkg, die)] ∧
        ((∀ d, d < 4 → d = die ∨ (pkg, d) ∈ s.lostDies) → pkg ∈ t.lostPkgs) ∧
        ((∃ d, d < 4 ∧ d ≠ die ∧ (pkg, d) ∉ s.lostDies) → t.lostPkgs = s.lostPkgs) ∧
        t = { s with
          lostDies := t.lostDies, lostPkgs := t.lostPkgs, teams := t.teams, clusters := t.clusters, mem := t.mem } ∧
        ∀ cl qp, cl < 64 → qp < 256 →
          let d := s.qpDesc cl qp
          let q := tabFind (s.cluster cl).qps qp
          let aims := d.state = 1 ∧ (s.targetLost d.target = true ∨ (d.target < 1024 ∧ d.target ≠ s.pkg.toNat ∧
            ((d.target, Config.homedAbroad d.target d.tctx % 4) ∈ s.lostDies ∨
              (d.target = pkg ∧ Config.homedAbroad pkg d.tctx % 4 = die))))
          (aims → t.readNat 0 (qpKey cl qp) 1 = 2 ∧ tabFind (t.cluster cl).qps qp = q.map fun q => { q with
            entries := [], out := [], retry := [], parked := false, replay := false }) ∧
          (¬ aims → d.target ≠ pkg → t.readNat 0 (qpKey cl qp) 1 = s.readNat 0 (qpKey cl qp) 1 ∧
            tabFind (t.cluster cl).qps qp = q))

/-- R415: the next flit in order is accepted, an earlier one dropped, a bad or early one answered with a NAK;
what the far end has acknowledged leaves the retry buffer. A NAK sends the flits from the one named again;
after 16 replays without progress the link retrains and goes on, or is down. R416: what a link that is down
had not delivered, and the loads not answered, go by another plane, as its retry buffer has room; with none
left every other package is lost. -/
def Obligations.links : Prop :=
  ∀ (s : State) (port : Nat), s.portUp port = true →
    let p := s.port port
    let nak : State := { s with outbox := s.outbox ++ [.nak port p.expect] }
    let only := fun (i : Instr) (q : Port) (os : List Out) => ∃ (t : State), exec i s = .next t ∧
      t = { s with ports := t.ports, outbox := s.outbox ++ os } ∧
      ∀ k, t.port k = if k = port then q else s.port k
    (∀ f : Flit, f.crcOk = false → exec (.flitReceive port f) s = .next nak) ∧
    (∀ f : Flit, f.crcOk = true →
      let kept := p.retry.filter fun g => !seqBefore g.seq f.ack
      let q : Port := { p with
        retry := kept, sent := p.sent.filter fun x => !seqBefore x.1 f.ack
        resent := p.resent.filter fun o => p.sent.any fun x => !seqBefore x.1 f.ack && x.2 == o
        replays := if kept.length < p.retry.length then 0 else p.replays }
      (f.seq = p.expect → only (.flitReceive port f) { q with expect := p.expect + 1 }
        [.delivered port f.payload]) ∧
      (f.seq ≠ p.expect → seqBefore f.seq (p.expect - 1) = true → only (.flitReceive port f) q []) ∧
      (f.seq ≠ p.expect → seqBefore f.seq (p.expect - 1) = false →
        only (.flitReceive port f) q [.nak port p.expect])) ∧
    (∀ seq, p.replays < 16 → only (.linkReplay port seq) { p with replays := p.replays + 1 }
      ((p.retry.filter fun g => seqBefore (BitVec.ofNat 12 seq) g.seq).map fun g => .flit port g)) ∧
    (∀ seq, 16 ≤ p.replays → exec (.linkReplay port seq) s = .next s) ∧
    (p.replays < 16 → ∀ ok, exec (.linkRetrain port ok) s = .next s) ∧
    (16 ≤ p.replays → only (.linkRetrain port true) { p with replays := 0 }
      ((p.retry.filter fun g => seqBefore ((p.retry.head?.map (·.seq)).getD p.nextSeq) g.seq).map
        fun g => .flit port g)) ∧
    (16 ≤ p.replays → exec (.linkRetrain port false) s = exec (.portDown port) s) ∧
    (port = 24 → exec (.portDown port) s = .next { s with linkUp := false, lanes := 0 }) ∧
    (port < 18 →
      let down := { p with up := false, retry := [], sent := [], asked := [], resent := [], replays := 0 }
      let b := s.setPort port down
      let loads := p.asked.map fun o => (p.nextSeq, o)
      let again := (p.sent.filter fun x => !p.asked.contains x.2) ++ loads
      let waits := s.setPort port { down with sent := again }
      (b.livePlanes ≠ [] → exec (.portDown port) s = .next (waits.reroute port again.length) ∧
        ∀ x o k, again = [(x, o)] → (∃ m, o = .message m ∧ b.portOf m = some k ∧ k ≠ 22) ∨
            (∃ i pkg addr n, o = .load i pkg addr n ∧ b.planeFor pkg addr = some k) →
          (1024 < (s.port k).retry.length + 17 → exec (.portDown port) s = .next waits) ∧
          ((s.port k).retry.length + 17 ≤ 1024 → ∃ (t : State), exec (.portDown port) s = .next t ∧
            t = { s with ports := t.ports, outbox := s.outbox ++ [o] } ∧ t.port port = down ∧
            (t.port k).sent.map (·.2) = (s.port k).sent.map (·.2) ++ [o] ∧
            (t.port k).resent = (s.port k).resent ++ [o])) ∧
      (b.livePlanes = [] → ∃ (t : State), exec (.portDown port) s = .next t ∧
        ∀ k, k < 144 → k ≠ s.pkg.toNat → k ∈ t.lostPkgs))
end

