-- ==== Sys2Proof/Laws/Encoding.lean ====
section
/-! SUPPORT. The formats' fields are read from where the encoder puts them (R134). -/

namespace Sys2Proof.Laws

/-- A field that lies in the low part of a concatenation. -/
theorem extract_append_low {n m : Nat} (x : BitVec n) (y : BitVec m) (lo w : Nat) (h : lo + w ≤ m) :
    (x ++ y).extractLsb' lo w = y.extractLsb' lo w := by
  ext i hi
  simp [BitVec.getLsbD_append]
  omega

/-- A field that lies in the high part of a concatenation. -/
theorem extract_append_high {n m : Nat} (x : BitVec n) (y : BitVec m) (lo w : Nat) (h : m ≤ lo) :
    (x ++ y).extractLsb' lo w = x.extractLsb' (lo - m) w := by
  ext i hi
  have h' : ¬ lo + i < m := by omega
  simp [BitVec.getLsbD_append, h']
  congr 1
  omega

/-- A bit is a field of width 1. -/
theorem bitAt_eq (x : BitVec 96) (i : Nat) : bitAt x i = (fld x i 1).getLsbD 0 := by
  simp [bitAt, fld]

/-- The whole of a field. -/
theorem extract_whole {n : Nat} (x : BitVec n) : x.extractLsb' 0 n = x := by
  ext i hi
  simp

/-- A Boolean field read back. -/
theorem ofBool_bit (b : Bool) : (BitVec.ofBool b).getLsbD 0 = b := by
  cases b <;> rfl


theorem parseS_pack (m n : Nat) (f : FS) : parseS (packS m n f) = f := by
  simp (disch := omega) only [parseS, packS, fld, bitAt_eq, extract_append_low, extract_append_high,
    Nat.reduceSub, extract_whole, bit1, ofBool_bit]

theorem parseSI_pack (m : Nat) (f : FSI) : parseSI (packSI m f) = f := by
  simp (disch := omega) only [parseSI, packSI, fld, bitAt_eq, extract_append_low, extract_append_high,
    Nat.reduceSub, extract_whole, bit1, ofBool_bit]

theorem parseSW_pack (m n : Nat) (f : FSW) : parseSW (packSW m n f) = f := by
  simp (disch := omega) only [parseSW, packSW, fld, bitAt_eq, extract_append_low, extract_append_high,
    Nat.reduceSub, extract_whole, bit1, ofBool_bit]

theorem parseX3_pack (m n : Nat) (f : FX3) : parseX3 (packX3 m n f) = f := by
  simp (disch := omega) only [parseX3, packX3, fld, extract_append_low, extract_append_high,
    Nat.reduceSub, extract_whole]

theorem parseB_pack (m : Nat) (f : FB) : parseB (packB m f) = f := by
  simp (disch := omega) only [parseB, packB, fld, extract_append_low, extract_append_high,
    Nat.reduceSub, extract_whole]

theorem parseBC_pack (m : Nat) (f : FBC) : parseBC (packBC m f) = f := by
  simp (disch := omega) only [parseBC, packBC, fld, bitAt_eq, extract_append_low, extract_append_high,
    Nat.reduceSub, extract_whole, bit1, ofBool_bit]

theorem parseM_pack (m n : Nat) (f : FM) : parseM (packM m n f) = f := by
  simp (disch := omega) only [parseM, packM, fld, bitAt_eq, extract_append_low, extract_append_high,
    Nat.reduceSub, extract_whole, bit1, ofBool_bit]

theorem parseV_pack (m n : Nat) (f : FV) : parseV (packV m n f) = f := by
  simp (disch := omega) only [parseV, packV, fld, bitAt_eq, extract_append_low, extract_append_high,
    Nat.reduceSub, extract_whole, bit1, ofBool_bit]

theorem parseVM_pack (m n : Nat) (f : FVM) : parseVM (packVM m n f) = f := by
  simp (disch := omega) only [parseVM, packVM, fld, bitAt_eq, extract_append_low, extract_append_high,
    Nat.reduceSub, extract_whole, bit1, ofBool_bit]

theorem parseVV_pack (m n : Nat) (f : FVV) : parseVV (packVV m n f) = f := by
  simp (disch := omega) only [parseVV, packVV, fld, bitAt_eq, extract_append_low, extract_append_high,
    Nat.reduceSub, extract_whole, bit1, ofBool_bit]

theorem parseE2_pack (m n : Nat) (f : FE2) : parseE2 (packE2 m n f) = f := by
  simp (disch := omega) only [parseE2, packE2, fld, bitAt_eq, extract_append_low, extract_append_high,
    Nat.reduceSub, extract_whole, bit1, ofBool_bit]

theorem parseE3_pack (m n : Nat) (f : FE3) : parseE3 (packE3 m n f) = f := by
  simp (disch := omega) only [parseE3, parseE2, packE3, fld, bitAt_eq, extract_append_low,
    extract_append_high, Nat.reduceSub, extract_whole, bit1, ofBool_bit]

theorem packS_len (m n : Nat) (f : FS) : fld (packS m n f) 0 2 = 0 := by
  simp (disch := omega) only [packS, fld, extract_append_low, extract_whole]
  rfl

theorem packS_major (m n : Nat) (f : FS) : fld (packS m n f) 2 6 = BitVec.ofNat 6 m := by
  simp (disch := omega) only [packS, fld, extract_append_low, extract_append_high, Nat.reduceSub,
    extract_whole]

theorem packS_fn (m n : Nat) (f : FS) : fld (packS m n f) 28 4 = BitVec.ofNat 4 n := by
  simp (disch := omega) only [packS, fld, extract_append_low, extract_append_high, Nat.reduceSub,
    extract_whole]

theorem packSI_len (m : Nat) (f : FSI) : fld (packSI m f) 0 2 = 0 := by
  simp (disch := omega) only [packSI, fld, extract_append_low, extract_whole]
  rfl

theorem packSI_major (m : Nat) (f : FSI) : fld (packSI m f) 2 6 = BitVec.ofNat 6 m := by
  simp (disch := omega) only [packSI, fld, extract_append_low, extract_append_high, Nat.reduceSub,
    extract_whole]

theorem packSW_len (m n : Nat) (f : FSW) : fld (packSW m n f) 0 2 = 1 := by
  simp (disch := omega) only [packSW, fld, extract_append_low, extract_whole]
  rfl

theorem packSW_major (m n : Nat) (f : FSW) : fld (packSW m n f) 2 6 = BitVec.ofNat 6 m := by
  simp (disch := omega) only [packSW, fld, extract_append_low, extract_append_high, Nat.reduceSub,
    extract_whole]

theorem packSW_fn (m n : Nat) (f : FSW) : fld (packSW m n f) 28 4 = BitVec.ofNat 4 n := by
  simp (disch := omega) only [packSW, fld, extract_append_low, extract_append_high, Nat.reduceSub,
    extract_whole]

theorem packX3_len (m n : Nat) (f : FX3) : fld (packX3 m n f) 0 2 = 2 := by
  simp (disch := omega) only [packX3, fld, extract_append_low, extract_whole]
  rfl

theorem packX3_major (m n : Nat) (f : FX3) : fld (packX3 m n f) 2 6 = BitVec.ofNat 6 m := by
  simp (disch := omega) only [packX3, fld, extract_append_low, extract_append_high, Nat.reduceSub,
    extract_whole]

theorem packX3_fn (m n : Nat) (f : FX3) : fld (packX3 m n f) 28 4 = BitVec.ofNat 4 n := by
  simp (disch := omega) only [packX3, fld, extract_append_low, extract_append_high, Nat.reduceSub,
    extract_whole]

theorem packB_len (m : Nat) (f : FB) : fld (packB m f) 0 2 = 0 := by
  simp (disch := omega) only [packB, fld, extract_append_low, extract_whole]
  rfl

theorem packB_major (m : Nat) (f : FB) : fld (packB m f) 2 6 = BitVec.ofNat 6 m := by
  simp (disch := omega) only [packB, fld, extract_append_low, extract_append_high, Nat.reduceSub,
    extract_whole]

theorem packBC_len (m : Nat) (f : FBC) : fld (packBC m f) 0 2 = 0 := by
  simp (disch := omega) only [packBC, fld, extract_append_low, extract_whole]
  rfl

theorem packBC_major (m : Nat) (f : FBC) : fld (packBC m f) 2 6 = BitVec.ofNat 6 m := by
  simp (disch := omega) only [packBC, fld, extract_append_low, extract_append_high, Nat.reduceSub,
    extract_whole]

theorem packM_len (m n : Nat) (f : FM) : fld (packM m n f) 0 2 = 1 := by
  simp (disch := omega) only [packM, fld, extract_append_low, extract_whole]
  rfl

theorem packM_major (m n : Nat) (f : FM) : fld (packM m n f) 2 6 = BitVec.ofNat 6 m := by
  simp (disch := omega) only [packM, fld, extract_append_low, extract_append_high, Nat.reduceSub,
    extract_whole]

theorem packM_fn (m n : Nat) (f : FM) : fld (packM m n f) 28 4 = BitVec.ofNat 4 n := by
  simp (disch := omega) only [packM, fld, extract_append_low, extract_append_high, Nat.reduceSub,
    extract_whole]

theorem packV_len (m n : Nat) (f : FV) : fld (packV m n f) 0 2 = 1 := by
  simp (disch := omega) only [packV, fld, extract_append_low, extract_whole]
  rfl

theorem packV_major (m n : Nat) (f : FV) : fld (packV m n f) 2 6 = BitVec.ofNat 6 m := by
  simp (disch := omega) only [packV, fld, extract_append_low, extract_append_high, Nat.reduceSub,
    extract_whole]

theorem packV_fn (m n : Nat) (f : FV) : fld (packV m n f) 25 6 = BitVec.ofNat 6 n := by
  simp (disch := omega) only [packV, fld, extract_append_low, extract_append_high, Nat.reduceSub,
    extract_whole]

theorem packVM_len (m n : Nat) (f : FVM) : fld (packVM m n f) 0 2 = 1 := by
  simp (disch := omega) only [packVM, fld, extract_append_low, extract_whole]
  rfl

theorem packVM_major (m n : Nat) (f : FVM) : fld (packVM m n f) 2 6 = BitVec.ofNat 6 m := by
  simp (disch := omega) only [packVM, fld, extract_append_low, extract_append_high, Nat.reduceSub,
    extract_whole]

theorem packVM_fn (m n : Nat) (f : FVM) : fld (packVM m n f) 27 4 = BitVec.ofNat 4 n := by
  simp (disch := omega) only [packVM, fld, extract_append_low, extract_append_high, Nat.reduceSub,
    extract_whole]

theorem packVV_len (m n : Nat) (f : FVV) : fld (packVV m n f) 0 2 = 1 := by
  simp (disch := omega) only [packVV, fld, extract_append_low, extract_whole]
  rfl

theorem packVV_major (m n : Nat) (f : FVV) : fld (packVV m n f) 2 6 = BitVec.ofNat 6 m := by
  simp (disch := omega) only [packVV, fld, extract_append_low, extract_append_high, Nat.reduceSub,
    extract_whole]

theorem packVV_fn (m n : Nat) (f : FVV) : fld (packVV m n f) 27 4 = BitVec.ofNat 4 n := by
  simp (disch := omega) only [packVV, fld, extract_append_low, extract_append_high, Nat.reduceSub,
    extract_whole]

theorem packE2_len (m n : Nat) (f : FE2) : fld (packE2 m n f) 0 2 = 1 := by
  simp (disch := omega) only [packE2, fld, extract_append_low, extract_whole]
  rfl

theorem packE2_major (m n : Nat) (f : FE2) : fld (packE2 m n f) 2 6 = BitVec.ofNat 6 m := by
  simp (disch := omega) only [packE2, fld, extract_append_low, extract_append_high, Nat.reduceSub,
    extract_whole]

theorem packE2_fn (m n : Nat) (f : FE2) : fld (packE2 m n f) 8 3 = BitVec.ofNat 3 n := by
  simp (disch := omega) only [packE2, fld, extract_append_low, extract_append_high, Nat.reduceSub,
    extract_whole]

theorem packE3_len (m n : Nat) (f : FE3) : fld (packE3 m n f) 0 2 = 2 := by
  simp (disch := omega) only [packE3, fld, extract_append_low, extract_whole]
  rfl

theorem packE3_major (m n : Nat) (f : FE3) : fld (packE3 m n f) 2 6 = BitVec.ofNat 6 m := by
  simp (disch := omega) only [packE3, fld, extract_append_low, extract_append_high, Nat.reduceSub,
    extract_whole]

theorem packE3_fn (m n : Nat) (f : FE3) : fld (packE3 m n f) 8 3 = BitVec.ofNat 3 n := by
  simp (disch := omega) only [packE3, fld, extract_append_low, extract_append_high, Nat.reduceSub,
    extract_whole]

end Sys2Proof.Laws
end

