-- ==== Sys2Proof/Laws/Tab.lean ====
section
/-! SUPPORT. Reading and writing tables, and their canonical form. -/

namespace Sys2Proof.Laws

open Sys2Proof.Machine

variable {α : Type}

@[simp] theorem tabFind_tabPut (t : Tab α) (i j : Nat) (v : α) :
    tabFind (tabPut t i v) j = if j = i then some v else tabFind t j := by
  induction t with
  | nil => simp [tabPut, tabFind, eq_comm]
  | cons e t ih =>
    obtain ⟨k, w⟩ := e
    simp only [tabPut]
    by_cases hj : j = i
    · subst hj
      split_ifs with h1 <;> simp_all [tabFind]
    · have hj' : ¬ i = j := fun h => hj h.symm
      split_ifs with h1
      · subst h1
        simp [tabFind, hj']
      · simp [tabFind, hj']
      · simp_all [tabFind]

theorem tabGet_eq (d : α) (t : Tab α) (i : Nat) : tabGet d t i = (tabFind t i).getD d := by
  induction t with
  | nil => rfl
  | cons e t ih =>
    obtain ⟨k, w⟩ := e
    simp only [tabGet, tabFind]
    split_ifs <;> simp [ih]

@[simp] theorem tabGet_tabPut (d : α) (t : Tab α) (i j : Nat) (v : α) :
    tabGet d (tabPut t i v) j = if j = i then v else tabGet d t j := by
  simp only [tabGet_eq, tabFind_tabPut]
  split_ifs <;> rfl

@[simp] theorem tabFind_tabDel (t : Tab α) (i j : Nat) :
    tabFind (tabDel t i) j = if j = i then none else tabFind t j := by
  induction t with
  | nil => simp [tabDel, tabFind]
  | cons e t ih =>
    obtain ⟨k, w⟩ := e
    simp only [tabDel]
    by_cases hj : j = i
    · subst hj
      split_ifs <;> simp_all [tabFind]
    · have hj' : ¬ i = j := fun h => hj h.symm
      split_ifs with h1
      · subst h1
        simp_all [tabFind]
      · simp_all [tabFind]

/-- A table written reads as written, and elsewhere as before. -/
@[simp] theorem tabGet_tabSet [DecidableEq α] (d : α) (t : Tab α) (i j : Nat) (v : α) :
    tabGet d (tabSet d t i v) j = if j = i then v else tabGet d t j := by
  simp only [tabSet]
  split_ifs <;> simp_all [tabGet_eq]

/-- Every key of a table is above `i`. -/
def Above (i : Nat) (t : Tab α) : Prop := ∀ e ∈ t, i < e.1

theorem tabSorted_cons {k : Nat} {w : α} {t : Tab α} :
    tabSorted ((k, w) :: t) = true ↔ Above k t ∧ tabSorted t = true := by
  induction t generalizing k w with
  | nil => simp [tabSorted, Above]
  | cons e t ih =>
    obtain ⟨k', w'⟩ := e
    simp only [tabSorted, Bool.and_eq_true, decide_eq_true_eq]
    constructor
    · rintro ⟨h, hs⟩
      refine ⟨?_, hs⟩
      intro x hx
      rcases List.mem_cons.mp hx with rfl | hx
      · exact h
      · exact lt_trans h ((ih.mp hs).1 x hx)
    · rintro ⟨h, hs⟩
      exact ⟨h _ (List.mem_cons_self ..), hs⟩

theorem above_tabPut {i j : Nat} {t : Tab α} (v : α) (h : Above i t) (hj : i < j) :
    Above i (tabPut t j v) := by
  induction t with
  | nil => simpa [tabPut, Above] using hj
  | cons e t ih =>
    obtain ⟨k, w⟩ := e
    simp only [Above, List.forall_mem_cons] at h
    simp only [tabPut]
    split_ifs
    · simp only [Above, List.forall_mem_cons]
      exact ⟨hj, h.2⟩
    · simp only [Above, List.forall_mem_cons]
      exact ⟨hj, h⟩
    · simp only [Above, List.forall_mem_cons]
      exact ⟨h.1, ih h.2⟩

/-- A write keeps the keys strictly rising. -/
theorem tabSorted_tabPut (t : Tab α) (i : Nat) (v : α) (h : tabSorted t = true) :
    tabSorted (tabPut t i v) = true := by
  induction t with
  | nil => rfl
  | cons e t ih =>
    obtain ⟨k, w⟩ := e
    obtain ⟨ha, hs⟩ := tabSorted_cons.mp h
    simp only [tabPut]
    split_ifs with h1 h2
    · subst h1
      exact tabSorted_cons.mpr ⟨ha, hs⟩
    · refine tabSorted_cons.mpr ⟨?_, h⟩
      simp only [Above, List.forall_mem_cons]
      exact ⟨h2, fun e he => lt_trans h2 (ha e he)⟩
    · exact tabSorted_cons.mpr ⟨above_tabPut v ha (by omega), ih hs⟩

theorem mem_tabDel {t : Tab α} {i : Nat} {e : Nat × α} (h : e ∈ tabDel t i) : e ∈ t := by
  induction t with
  | nil => exact h
  | cons x t ih =>
    obtain ⟨k, w⟩ := x
    simp only [tabDel] at h
    split_ifs at h
    · exact List.mem_cons_of_mem _ (ih h)
    · rcases List.mem_cons.mp h with h | h
      · exact h ▸ List.mem_cons_self ..
      · exact List.mem_cons_of_mem _ (ih h)

theorem mem_tabPut {t : Tab α} {i : Nat} {v : α} {e : Nat × α} (h : e ∈ tabPut t i v) :
    e = (i, v) ∨ e ∈ t := by
  induction t with
  | nil => simpa [tabPut] using h
  | cons x t ih =>
    obtain ⟨k, w⟩ := x
    simp only [tabPut] at h
    split_ifs at h
    · rcases List.mem_cons.mp h with h | h
      · exact .inl h
      · exact .inr (List.mem_cons_of_mem _ h)
    · rcases List.mem_cons.mp h with h | h
      · exact .inl h
      · exact .inr h
    · rcases List.mem_cons.mp h with h | h
      · exact .inr (h ▸ List.mem_cons_self ..)
      · exact (ih h).imp_right (List.mem_cons_of_mem _)

/-- Removing a key keeps the keys strictly rising. -/
theorem tabSorted_tabDel (t : Tab α) (i : Nat) (h : tabSorted t = true) : tabSorted (tabDel t i) = true := by
  induction t with
  | nil => rfl
  | cons e t ih =>
    obtain ⟨k, w⟩ := e
    obtain ⟨ha, hs⟩ := tabSorted_cons.mp h
    simp only [tabDel]
    split_ifs
    · exact ih hs
    · exact tabSorted_cons.mpr ⟨fun e he => ha e (mem_tabDel he), ih hs⟩

theorem tabSorted_tabSet [DecidableEq α] (d : α) (t : Tab α) (i : Nat) (v : α)
    (h : tabSorted t = true) : tabSorted (tabSet d t i v) = true := by
  simp only [tabSet]
  split_ifs
  · exact tabSorted_tabDel t i h
  · exact tabSorted_tabPut t i v h

end Sys2Proof.Laws
end

