-- ==== Sys2Proof/Laws/State.lean ====
section
/-! SUPPORT. What each update of the state leaves as it was: one lemma per field and update. -/

namespace Sys2Proof.Laws

open Sys2Proof.Machine

/-! ## The writes of one entry -/

@[simp] theorem setCore_cores (s : State) (c : Nat) (k : Core) : (s.setCore c k).cores = tabPut s.cores c k := rfl
@[simp] theorem setCore_mem (s : State) (c : Nat) (k : Core) : (s.setCore c k).mem = s.mem := rfl
@[simp] theorem setCore_tags (s : State) (c : Nat) (k : Core) : (s.setCore c k).tags = s.tags := rfl
@[simp] theorem setCore_dies (s : State) (c : Nat) (k : Core) : (s.setCore c k).dies = s.dies := rfl
@[simp] theorem setCore_clusters (s : State) (c : Nat) (k : Core) : (s.setCore c k).clusters = s.clusters := rfl
@[simp] theorem setCore_teams (s : State) (c : Nat) (k : Core) : (s.setCore c k).teams = s.teams := rfl
@[simp] theorem setCore_ctxs (s : State) (c : Nat) (k : Core) : (s.setCore c k).ctxs = s.ctxs := rfl
@[simp] theorem setCore_semChains (s : State) (c : Nat) (k : Core) : (s.setCore c k).semChains = s.semChains := rfl
@[simp] theorem setCore_barChains (s : State) (c : Nat) (k : Core) : (s.setCore c k).barChains = s.barChains := rfl
@[simp] theorem setCore_barriers (s : State) (c : Nat) (k : Core) : (s.setCore c k).barriers = s.barriers := rfl
@[simp] theorem setCore_verChains (s : State) (c : Nat) (k : Core) : (s.setCore c k).verChains = s.verChains := rfl
@[simp] theorem setCore_pwait (s : State) (c : Nat) (k : Core) : (s.setCore c k).pwait = s.pwait := rfl
@[simp] theorem setCore_reqs (s : State) (c : Nat) (k : Core) : (s.setCore c k).reqs = s.reqs := rfl
@[simp] theorem setCore_vreqs (s : State) (c : Nat) (k : Core) : (s.setCore c k).vreqs = s.vreqs := rfl
@[simp] theorem setCore_net (s : State) (c : Nat) (k : Core) : (s.setCore c k).net = s.net := rfl
@[simp] theorem setCore_openCmds (s : State) (c : Nat) (k : Core) : (s.setCore c k).openCmds = s.openCmds := rfl
@[simp] theorem setCore_sections (s : State) (c : Nat) (k : Core) : (s.setCore c k).sections = s.sections := rfl
@[simp] theorem setCore_images (s : State) (c : Nat) (k : Core) : (s.setCore c k).images = s.images := rfl
@[simp] theorem setCore_packs (s : State) (c : Nat) (k : Core) : (s.setCore c k).packs = s.packs := rfl
@[simp] theorem setCore_ctxbase (s : State) (c : Nat) (k : Core) : (s.setCore c k).ctxbase = s.ctxbase := rfl
@[simp] theorem setCore_qdone (s : State) (c : Nat) (k : Core) : (s.setCore c k).qdone = s.qdone := rfl
@[simp] theorem setCore_mkeys (s : State) (c : Nat) (k : Core) : (s.setCore c k).mkeys = s.mkeys := rfl
@[simp] theorem setCore_scrubs (s : State) (c : Nat) (k : Core) : (s.setCore c k).scrubs = s.scrubs := rfl
@[simp] theorem setCore_exports (s : State) (c : Nat) (k : Core) : (s.setCore c k).exports = s.exports := rfl
@[simp] theorem setCore_apctl (s : State) (c : Nat) (k : Core) : (s.setCore c k).apctl = s.apctl := rfl
@[simp] theorem setCore_hwbase (s : State) (c : Nat) (k : Core) : (s.setCore c k).hwbase = s.hwbase := rfl
@[simp] theorem setCore_aperr (s : State) (c : Nat) (k : Core) : (s.setCore c k).aperr = s.aperr := rfl
@[simp] theorem setCore_lanes (s : State) (c : Nat) (k : Core) : (s.setCore c k).lanes = s.lanes := rfl
@[simp] theorem setCore_linkUp (s : State) (c : Nat) (k : Core) : (s.setCore c k).linkUp = s.linkUp := rfl
@[simp] theorem setCore_staged (s : State) (c : Nat) (k : Core) : (s.setCore c k).staged = s.staged := rfl
@[simp] theorem setCore_winStatus (s : State) (c : Nat) (k : Core) : (s.setCore c k).winStatus = s.winStatus := rfl
@[simp] theorem setCore_plimit (s : State) (c : Nat) (k : Core) : (s.setCore c k).plimit = s.plimit := rfl
@[simp] theorem setCore_duty (s : State) (c : Nat) (k : Core) : (s.setCore c k).duty = s.duty := rfl
@[simp] theorem setCore_mclog (s : State) (c : Nat) (k : Core) : (s.setCore c k).mclog = s.mclog := rfl
@[simp] theorem setCore_mcNext (s : State) (c : Nat) (k : Core) : (s.setCore c k).mcNext = s.mcNext := rfl
@[simp] theorem setCore_corrected (s : State) (c : Nat) (k : Core) : (s.setCore c k).corrected = s.corrected := rfl
@[simp] theorem setCore_doomed (s : State) (c : Nat) (k : Core) : (s.setCore c k).doomed = s.doomed := rfl
@[simp] theorem setCore_downMask (s : State) (c : Nat) (k : Core) : (s.setCore c k).downMask = s.downMask := rfl
@[simp] theorem setCore_ports (s : State) (c : Nat) (k : Core) : (s.setCore c k).ports = s.ports := rfl
@[simp] theorem setCore_pkg (s : State) (c : Nat) (k : Core) : (s.setCore c k).pkg = s.pkg := rfl
@[simp] theorem setCore_lostPkgs (s : State) (c : Nat) (k : Core) : (s.setCore c k).lostPkgs = s.lostPkgs := rfl
@[simp] theorem setCore_lostDies (s : State) (c : Nat) (k : Core) : (s.setCore c k).lostDies = s.lostDies := rfl
@[simp] theorem setCore_refusedRefs (s : State) (c : Nat) (k : Core) : (s.setCore c k).refusedRefs = s.refusedRefs := rfl
@[simp] theorem setCore_fullNos (s : State) (c : Nat) (k : Core) : (s.setCore c k).fullNos = s.fullNos := rfl
@[simp] theorem setCore_agenda (s : State) (c : Nat) (k : Core) : (s.setCore c k).agenda = s.agenda := rfl
@[simp] theorem setCore_focus (s : State) (c : Nat) (k : Core) : (s.setCore c k).focus = s.focus := rfl
@[simp] theorem setCore_nextId (s : State) (c : Nat) (k : Core) : (s.setCore c k).nextId = s.nextId := rfl
@[simp] theorem setCore_ticks (s : State) (c : Nat) (k : Core) : (s.setCore c k).ticks = s.ticks := rfl
@[simp] theorem setCore_outbox (s : State) (c : Nat) (k : Core) : (s.setCore c k).outbox = s.outbox := rfl

@[simp] theorem setDie_dies (s : State) (d : Nat) (k : Die) : (s.setDie d k).dies = tabPut s.dies d k := rfl
@[simp] theorem setDie_mem (s : State) (d : Nat) (k : Die) : (s.setDie d k).mem = s.mem := rfl
@[simp] theorem setDie_tags (s : State) (d : Nat) (k : Die) : (s.setDie d k).tags = s.tags := rfl
@[simp] theorem setDie_clusters (s : State) (d : Nat) (k : Die) : (s.setDie d k).clusters = s.clusters := rfl
@[simp] theorem setDie_cores (s : State) (d : Nat) (k : Die) : (s.setDie d k).cores = s.cores := rfl
@[simp] theorem setDie_teams (s : State) (d : Nat) (k : Die) : (s.setDie d k).teams = s.teams := rfl
@[simp] theorem setDie_ctxs (s : State) (d : Nat) (k : Die) : (s.setDie d k).ctxs = s.ctxs := rfl
@[simp] theorem setDie_semChains (s : State) (d : Nat) (k : Die) : (s.setDie d k).semChains = s.semChains := rfl
@[simp] theorem setDie_barChains (s : State) (d : Nat) (k : Die) : (s.setDie d k).barChains = s.barChains := rfl
@[simp] theorem setDie_barriers (s : State) (d : Nat) (k : Die) : (s.setDie d k).barriers = s.barriers := rfl
@[simp] theorem setDie_verChains (s : State) (d : Nat) (k : Die) : (s.setDie d k).verChains = s.verChains := rfl
@[simp] theorem setDie_pwait (s : State) (d : Nat) (k : Die) : (s.setDie d k).pwait = s.pwait := rfl
@[simp] theorem setDie_reqs (s : State) (d : Nat) (k : Die) : (s.setDie d k).reqs = s.reqs := rfl
@[simp] theorem setDie_vreqs (s : State) (d : Nat) (k : Die) : (s.setDie d k).vreqs = s.vreqs := rfl
@[simp] theorem setDie_net (s : State) (d : Nat) (k : Die) : (s.setDie d k).net = s.net := rfl
@[simp] theorem setDie_openCmds (s : State) (d : Nat) (k : Die) : (s.setDie d k).openCmds = s.openCmds := rfl
@[simp] theorem setDie_sections (s : State) (d : Nat) (k : Die) : (s.setDie d k).sections = s.sections := rfl
@[simp] theorem setDie_images (s : State) (d : Nat) (k : Die) : (s.setDie d k).images = s.images := rfl
@[simp] theorem setDie_packs (s : State) (d : Nat) (k : Die) : (s.setDie d k).packs = s.packs := rfl
@[simp] theorem setDie_ctxbase (s : State) (d : Nat) (k : Die) : (s.setDie d k).ctxbase = s.ctxbase := rfl
@[simp] theorem setDie_qdone (s : State) (d : Nat) (k : Die) : (s.setDie d k).qdone = s.qdone := rfl
@[simp] theorem setDie_mkeys (s : State) (d : Nat) (k : Die) : (s.setDie d k).mkeys = s.mkeys := rfl
@[simp] theorem setDie_scrubs (s : State) (d : Nat) (k : Die) : (s.setDie d k).scrubs = s.scrubs := rfl
@[simp] theorem setDie_exports (s : State) (d : Nat) (k : Die) : (s.setDie d k).exports = s.exports := rfl
@[simp] theorem setDie_apctl (s : State) (d : Nat) (k : Die) : (s.setDie d k).apctl = s.apctl := rfl
@[simp] theorem setDie_hwbase (s : State) (d : Nat) (k : Die) : (s.setDie d k).hwbase = s.hwbase := rfl
@[simp] theorem setDie_aperr (s : State) (d : Nat) (k : Die) : (s.setDie d k).aperr = s.aperr := rfl
@[simp] theorem setDie_lanes (s : State) (d : Nat) (k : Die) : (s.setDie d k).lanes = s.lanes := rfl
@[simp] theorem setDie_linkUp (s : State) (d : Nat) (k : Die) : (s.setDie d k).linkUp = s.linkUp := rfl
@[simp] theorem setDie_staged (s : State) (d : Nat) (k : Die) : (s.setDie d k).staged = s.staged := rfl
@[simp] theorem setDie_winStatus (s : State) (d : Nat) (k : Die) : (s.setDie d k).winStatus = s.winStatus := rfl
@[simp] theorem setDie_plimit (s : State) (d : Nat) (k : Die) : (s.setDie d k).plimit = s.plimit := rfl
@[simp] theorem setDie_duty (s : State) (d : Nat) (k : Die) : (s.setDie d k).duty = s.duty := rfl
@[simp] theorem setDie_mclog (s : State) (d : Nat) (k : Die) : (s.setDie d k).mclog = s.mclog := rfl
@[simp] theorem setDie_mcNext (s : State) (d : Nat) (k : Die) : (s.setDie d k).mcNext = s.mcNext := rfl
@[simp] theorem setDie_corrected (s : State) (d : Nat) (k : Die) : (s.setDie d k).corrected = s.corrected := rfl
@[simp] theorem setDie_doomed (s : State) (d : Nat) (k : Die) : (s.setDie d k).doomed = s.doomed := rfl
@[simp] theorem setDie_downMask (s : State) (d : Nat) (k : Die) : (s.setDie d k).downMask = s.downMask := rfl
@[simp] theorem setDie_ports (s : State) (d : Nat) (k : Die) : (s.setDie d k).ports = s.ports := rfl
@[simp] theorem setDie_pkg (s : State) (d : Nat) (k : Die) : (s.setDie d k).pkg = s.pkg := rfl
@[simp] theorem setDie_lostPkgs (s : State) (d : Nat) (k : Die) : (s.setDie d k).lostPkgs = s.lostPkgs := rfl
@[simp] theorem setDie_lostDies (s : State) (d : Nat) (k : Die) : (s.setDie d k).lostDies = s.lostDies := rfl
@[simp] theorem setDie_refusedRefs (s : State) (d : Nat) (k : Die) : (s.setDie d k).refusedRefs = s.refusedRefs := rfl
@[simp] theorem setDie_fullNos (s : State) (d : Nat) (k : Die) : (s.setDie d k).fullNos = s.fullNos := rfl
@[simp] theorem setDie_agenda (s : State) (d : Nat) (k : Die) : (s.setDie d k).agenda = s.agenda := rfl
@[simp] theorem setDie_focus (s : State) (d : Nat) (k : Die) : (s.setDie d k).focus = s.focus := rfl
@[simp] theorem setDie_nextId (s : State) (d : Nat) (k : Die) : (s.setDie d k).nextId = s.nextId := rfl
@[simp] theorem setDie_ticks (s : State) (d : Nat) (k : Die) : (s.setDie d k).ticks = s.ticks := rfl
@[simp] theorem setDie_outbox (s : State) (d : Nat) (k : Die) : (s.setDie d k).outbox = s.outbox := rfl

@[simp] theorem setCluster_clusters (s : State) (c : Nat) (k : Cluster) : (s.setCluster c k).clusters = tabPut s.clusters c k := rfl
@[simp] theorem setCluster_mem (s : State) (c : Nat) (k : Cluster) : (s.setCluster c k).mem = s.mem := rfl
@[simp] theorem setCluster_tags (s : State) (c : Nat) (k : Cluster) : (s.setCluster c k).tags = s.tags := rfl
@[simp] theorem setCluster_dies (s : State) (c : Nat) (k : Cluster) : (s.setCluster c k).dies = s.dies := rfl
@[simp] theorem setCluster_cores (s : State) (c : Nat) (k : Cluster) : (s.setCluster c k).cores = s.cores := rfl
@[simp] theorem setCluster_teams (s : State) (c : Nat) (k : Cluster) : (s.setCluster c k).teams = s.teams := rfl
@[simp] theorem setCluster_ctxs (s : State) (c : Nat) (k : Cluster) : (s.setCluster c k).ctxs = s.ctxs := rfl
@[simp] theorem setCluster_semChains (s : State) (c : Nat) (k : Cluster) : (s.setCluster c k).semChains = s.semChains := rfl
@[simp] theorem setCluster_barChains (s : State) (c : Nat) (k : Cluster) : (s.setCluster c k).barChains = s.barChains := rfl
@[simp] theorem setCluster_barriers (s : State) (c : Nat) (k : Cluster) : (s.setCluster c k).barriers = s.barriers := rfl
@[simp] theorem setCluster_verChains (s : State) (c : Nat) (k : Cluster) : (s.setCluster c k).verChains = s.verChains := rfl
@[simp] theorem setCluster_pwait (s : State) (c : Nat) (k : Cluster) : (s.setCluster c k).pwait = s.pwait := rfl
@[simp] theorem setCluster_reqs (s : State) (c : Nat) (k : Cluster) : (s.setCluster c k).reqs = s.reqs := rfl
@[simp] theorem setCluster_vreqs (s : State) (c : Nat) (k : Cluster) : (s.setCluster c k).vreqs = s.vreqs := rfl
@[simp] theorem setCluster_net (s : State) (c : Nat) (k : Cluster) : (s.setCluster c k).net = s.net := rfl
@[simp] theorem setCluster_openCmds (s : State) (c : Nat) (k : Cluster) : (s.setCluster c k).openCmds = s.openCmds := rfl
@[simp] theorem setCluster_sections (s : State) (c : Nat) (k : Cluster) : (s.setCluster c k).sections = s.sections := rfl
@[simp] theorem setCluster_images (s : State) (c : Nat) (k : Cluster) : (s.setCluster c k).images = s.images := rfl
@[simp] theorem setCluster_packs (s : State) (c : Nat) (k : Cluster) : (s.setCluster c k).packs = s.packs := rfl
@[simp] theorem setCluster_ctxbase (s : State) (c : Nat) (k : Cluster) : (s.setCluster c k).ctxbase = s.ctxbase := rfl
@[simp] theorem setCluster_qdone (s : State) (c : Nat) (k : Cluster) : (s.setCluster c k).qdone = s.qdone := rfl
@[simp] theorem setCluster_mkeys (s : State) (c : Nat) (k : Cluster) : (s.setCluster c k).mkeys = s.mkeys := rfl
@[simp] theorem setCluster_scrubs (s : State) (c : Nat) (k : Cluster) : (s.setCluster c k).scrubs = s.scrubs := rfl
@[simp] theorem setCluster_exports (s : State) (c : Nat) (k : Cluster) : (s.setCluster c k).exports = s.exports := rfl
@[simp] theorem setCluster_apctl (s : State) (c : Nat) (k : Cluster) : (s.setCluster c k).apctl = s.apctl := rfl
@[simp] theorem setCluster_hwbase (s : State) (c : Nat) (k : Cluster) : (s.setCluster c k).hwbase = s.hwbase := rfl
@[simp] theorem setCluster_aperr (s : State) (c : Nat) (k : Cluster) : (s.setCluster c k).aperr = s.aperr := rfl
@[simp] theorem setCluster_lanes (s : State) (c : Nat) (k : Cluster) : (s.setCluster c k).lanes = s.lanes := rfl
@[simp] theorem setCluster_linkUp (s : State) (c : Nat) (k : Cluster) : (s.setCluster c k).linkUp = s.linkUp := rfl
@[simp] theorem setCluster_staged (s : State) (c : Nat) (k : Cluster) : (s.setCluster c k).staged = s.staged := rfl
@[simp] theorem setCluster_winStatus (s : State) (c : Nat) (k : Cluster) : (s.setCluster c k).winStatus = s.winStatus := rfl
@[simp] theorem setCluster_plimit (s : State) (c : Nat) (k : Cluster) : (s.setCluster c k).plimit = s.plimit := rfl
@[simp] theorem setCluster_duty (s : State) (c : Nat) (k : Cluster) : (s.setCluster c k).duty = s.duty := rfl
@[simp] theorem setCluster_mclog (s : State) (c : Nat) (k : Cluster) : (s.setCluster c k).mclog = s.mclog := rfl
@[simp] theorem setCluster_mcNext (s : State) (c : Nat) (k : Cluster) : (s.setCluster c k).mcNext = s.mcNext := rfl
@[simp] theorem setCluster_corrected (s : State) (c : Nat) (k : Cluster) : (s.setCluster c k).corrected = s.corrected := rfl
@[simp] theorem setCluster_doomed (s : State) (c : Nat) (k : Cluster) : (s.setCluster c k).doomed = s.doomed := rfl
@[simp] theorem setCluster_downMask (s : State) (c : Nat) (k : Cluster) : (s.setCluster c k).downMask = s.downMask := rfl
@[simp] theorem setCluster_ports (s : State) (c : Nat) (k : Cluster) : (s.setCluster c k).ports = s.ports := rfl
@[simp] theorem setCluster_pkg (s : State) (c : Nat) (k : Cluster) : (s.setCluster c k).pkg = s.pkg := rfl
@[simp] theorem setCluster_lostPkgs (s : State) (c : Nat) (k : Cluster) : (s.setCluster c k).lostPkgs = s.lostPkgs := rfl
@[simp] theorem setCluster_lostDies (s : State) (c : Nat) (k : Cluster) : (s.setCluster c k).lostDies = s.lostDies := rfl
@[simp] theorem setCluster_refusedRefs (s : State) (c : Nat) (k : Cluster) : (s.setCluster c k).refusedRefs = s.refusedRefs := rfl
@[simp] theorem setCluster_fullNos (s : State) (c : Nat) (k : Cluster) : (s.setCluster c k).fullNos = s.fullNos := rfl
@[simp] theorem setCluster_agenda (s : State) (c : Nat) (k : Cluster) : (s.setCluster c k).agenda = s.agenda := rfl
@[simp] theorem setCluster_focus (s : State) (c : Nat) (k : Cluster) : (s.setCluster c k).focus = s.focus := rfl
@[simp] theorem setCluster_nextId (s : State) (c : Nat) (k : Cluster) : (s.setCluster c k).nextId = s.nextId := rfl
@[simp] theorem setCluster_ticks (s : State) (c : Nat) (k : Cluster) : (s.setCluster c k).ticks = s.ticks := rfl
@[simp] theorem setCluster_outbox (s : State) (c : Nat) (k : Cluster) : (s.setCluster c k).outbox = s.outbox := rfl

@[simp] theorem setTeam_teams (s : State) (u : Nat) (t : Team) : (s.setTeam u t).teams = tabPut s.teams u t := rfl
@[simp] theorem setTeam_mem (s : State) (u : Nat) (t : Team) : (s.setTeam u t).mem = s.mem := rfl
@[simp] theorem setTeam_tags (s : State) (u : Nat) (t : Team) : (s.setTeam u t).tags = s.tags := rfl
@[simp] theorem setTeam_dies (s : State) (u : Nat) (t : Team) : (s.setTeam u t).dies = s.dies := rfl
@[simp] theorem setTeam_clusters (s : State) (u : Nat) (t : Team) : (s.setTeam u t).clusters = s.clusters := rfl
@[simp] theorem setTeam_cores (s : State) (u : Nat) (t : Team) : (s.setTeam u t).cores = s.cores := rfl
@[simp] theorem setTeam_ctxs (s : State) (u : Nat) (t : Team) : (s.setTeam u t).ctxs = s.ctxs := rfl
@[simp] theorem setTeam_semChains (s : State) (u : Nat) (t : Team) : (s.setTeam u t).semChains = s.semChains := rfl
@[simp] theorem setTeam_barChains (s : State) (u : Nat) (t : Team) : (s.setTeam u t).barChains = s.barChains := rfl
@[simp] theorem setTeam_barriers (s : State) (u : Nat) (t : Team) : (s.setTeam u t).barriers = s.barriers := rfl
@[simp] theorem setTeam_verChains (s : State) (u : Nat) (t : Team) : (s.setTeam u t).verChains = s.verChains := rfl
@[simp] theorem setTeam_pwait (s : State) (u : Nat) (t : Team) : (s.setTeam u t).pwait = s.pwait := rfl
@[simp] theorem setTeam_reqs (s : State) (u : Nat) (t : Team) : (s.setTeam u t).reqs = s.reqs := rfl
@[simp] theorem setTeam_vreqs (s : State) (u : Nat) (t : Team) : (s.setTeam u t).vreqs = s.vreqs := rfl
@[simp] theorem setTeam_net (s : State) (u : Nat) (t : Team) : (s.setTeam u t).net = s.net := rfl
@[simp] theorem setTeam_openCmds (s : State) (u : Nat) (t : Team) : (s.setTeam u t).openCmds = s.openCmds := rfl
@[simp] theorem setTeam_sections (s : State) (u : Nat) (t : Team) : (s.setTeam u t).sections = s.sections := rfl
@[simp] theorem setTeam_images (s : State) (u : Nat) (t : Team) : (s.setTeam u t).images = s.images := rfl
@[simp] theorem setTeam_packs (s : State) (u : Nat) (t : Team) : (s.setTeam u t).packs = s.packs := rfl
@[simp] theorem setTeam_ctxbase (s : State) (u : Nat) (t : Team) : (s.setTeam u t).ctxbase = s.ctxbase := rfl
@[simp] theorem setTeam_qdone (s : State) (u : Nat) (t : Team) : (s.setTeam u t).qdone = s.qdone := rfl
@[simp] theorem setTeam_mkeys (s : State) (u : Nat) (t : Team) : (s.setTeam u t).mkeys = s.mkeys := rfl
@[simp] theorem setTeam_scrubs (s : State) (u : Nat) (t : Team) : (s.setTeam u t).scrubs = s.scrubs := rfl
@[simp] theorem setTeam_exports (s : State) (u : Nat) (t : Team) : (s.setTeam u t).exports = s.exports := rfl
@[simp] theorem setTeam_apctl (s : State) (u : Nat) (t : Team) : (s.setTeam u t).apctl = s.apctl := rfl
@[simp] theorem setTeam_hwbase (s : State) (u : Nat) (t : Team) : (s.setTeam u t).hwbase = s.hwbase := rfl
@[simp] theorem setTeam_aperr (s : State) (u : Nat) (t : Team) : (s.setTeam u t).aperr = s.aperr := rfl
@[simp] theorem setTeam_lanes (s : State) (u : Nat) (t : Team) : (s.setTeam u t).lanes = s.lanes := rfl
@[simp] theorem setTeam_linkUp (s : State) (u : Nat) (t : Team) : (s.setTeam u t).linkUp = s.linkUp := rfl
@[simp] theorem setTeam_staged (s : State) (u : Nat) (t : Team) : (s.setTeam u t).staged = s.staged := rfl
@[simp] theorem setTeam_winStatus (s : State) (u : Nat) (t : Team) : (s.setTeam u t).winStatus = s.winStatus := rfl
@[simp] theorem setTeam_plimit (s : State) (u : Nat) (t : Team) : (s.setTeam u t).plimit = s.plimit := rfl
@[simp] theorem setTeam_duty (s : State) (u : Nat) (t : Team) : (s.setTeam u t).duty = s.duty := rfl
@[simp] theorem setTeam_mclog (s : State) (u : Nat) (t : Team) : (s.setTeam u t).mclog = s.mclog := rfl
@[simp] theorem setTeam_mcNext (s : State) (u : Nat) (t : Team) : (s.setTeam u t).mcNext = s.mcNext := rfl
@[simp] theorem setTeam_corrected (s : State) (u : Nat) (t : Team) : (s.setTeam u t).corrected = s.corrected := rfl
@[simp] theorem setTeam_doomed (s : State) (u : Nat) (t : Team) : (s.setTeam u t).doomed = s.doomed := rfl
@[simp] theorem setTeam_downMask (s : State) (u : Nat) (t : Team) : (s.setTeam u t).downMask = s.downMask := rfl
@[simp] theorem setTeam_ports (s : State) (u : Nat) (t : Team) : (s.setTeam u t).ports = s.ports := rfl
@[simp] theorem setTeam_pkg (s : State) (u : Nat) (t : Team) : (s.setTeam u t).pkg = s.pkg := rfl
@[simp] theorem setTeam_lostPkgs (s : State) (u : Nat) (t : Team) : (s.setTeam u t).lostPkgs = s.lostPkgs := rfl
@[simp] theorem setTeam_lostDies (s : State) (u : Nat) (t : Team) : (s.setTeam u t).lostDies = s.lostDies := rfl
@[simp] theorem setTeam_refusedRefs (s : State) (u : Nat) (t : Team) : (s.setTeam u t).refusedRefs = s.refusedRefs := rfl
@[simp] theorem setTeam_fullNos (s : State) (u : Nat) (t : Team) : (s.setTeam u t).fullNos = s.fullNos := rfl
@[simp] theorem setTeam_agenda (s : State) (u : Nat) (t : Team) : (s.setTeam u t).agenda = s.agenda := rfl
@[simp] theorem setTeam_focus (s : State) (u : Nat) (t : Team) : (s.setTeam u t).focus = s.focus := rfl
@[simp] theorem setTeam_nextId (s : State) (u : Nat) (t : Team) : (s.setTeam u t).nextId = s.nextId := rfl
@[simp] theorem setTeam_ticks (s : State) (u : Nat) (t : Team) : (s.setTeam u t).ticks = s.ticks := rfl
@[simp] theorem setTeam_outbox (s : State) (u : Nat) (t : Team) : (s.setTeam u t).outbox = s.outbox := rfl

@[simp] theorem setCtx_ctxs (s : State) (n : Nat) (c : Ctx) : (s.setCtx n c).ctxs = tabPut s.ctxs n c := rfl
@[simp] theorem setCtx_mem (s : State) (n : Nat) (c : Ctx) : (s.setCtx n c).mem = s.mem := rfl
@[simp] theorem setCtx_tags (s : State) (n : Nat) (c : Ctx) : (s.setCtx n c).tags = s.tags := rfl
@[simp] theorem setCtx_dies (s : State) (n : Nat) (c : Ctx) : (s.setCtx n c).dies = s.dies := rfl
@[simp] theorem setCtx_clusters (s : State) (n : Nat) (c : Ctx) : (s.setCtx n c).clusters = s.clusters := rfl
@[simp] theorem setCtx_cores (s : State) (n : Nat) (c : Ctx) : (s.setCtx n c).cores = s.cores := rfl
@[simp] theorem setCtx_teams (s : State) (n : Nat) (c : Ctx) : (s.setCtx n c).teams = s.teams := rfl
@[simp] theorem setCtx_semChains (s : State) (n : Nat) (c : Ctx) : (s.setCtx n c).semChains = s.semChains := rfl
@[simp] theorem setCtx_barChains (s : State) (n : Nat) (c : Ctx) : (s.setCtx n c).barChains = s.barChains := rfl
@[simp] theorem setCtx_barriers (s : State) (n : Nat) (c : Ctx) : (s.setCtx n c).barriers = s.barriers := rfl
@[simp] theorem setCtx_verChains (s : State) (n : Nat) (c : Ctx) : (s.setCtx n c).verChains = s.verChains := rfl
@[simp] theorem setCtx_pwait (s : State) (n : Nat) (c : Ctx) : (s.setCtx n c).pwait = s.pwait := rfl
@[simp] theorem setCtx_reqs (s : State) (n : Nat) (c : Ctx) : (s.setCtx n c).reqs = s.reqs := rfl
@[simp] theorem setCtx_vreqs (s : State) (n : Nat) (c : Ctx) : (s.setCtx n c).vreqs = s.vreqs := rfl
@[simp] theorem setCtx_net (s : State) (n : Nat) (c : Ctx) : (s.setCtx n c).net = s.net := rfl
@[simp] theorem setCtx_openCmds (s : State) (n : Nat) (c : Ctx) : (s.setCtx n c).openCmds = s.openCmds := rfl
@[simp] theorem setCtx_sections (s : State) (n : Nat) (c : Ctx) : (s.setCtx n c).sections = s.sections := rfl
@[simp] theorem setCtx_images (s : State) (n : Nat) (c : Ctx) : (s.setCtx n c).images = s.images := rfl
@[simp] theorem setCtx_packs (s : State) (n : Nat) (c : Ctx) : (s.setCtx n c).packs = s.packs := rfl
@[simp] theorem setCtx_ctxbase (s : State) (n : Nat) (c : Ctx) : (s.setCtx n c).ctxbase = s.ctxbase := rfl
@[simp] theorem setCtx_qdone (s : State) (n : Nat) (c : Ctx) : (s.setCtx n c).qdone = s.qdone := rfl
@[simp] theorem setCtx_mkeys (s : State) (n : Nat) (c : Ctx) : (s.setCtx n c).mkeys = s.mkeys := rfl
@[simp] theorem setCtx_scrubs (s : State) (n : Nat) (c : Ctx) : (s.setCtx n c).scrubs = s.scrubs := rfl
@[simp] theorem setCtx_exports (s : State) (n : Nat) (c : Ctx) : (s.setCtx n c).exports = s.exports := rfl
@[simp] theorem setCtx_apctl (s : State) (n : Nat) (c : Ctx) : (s.setCtx n c).apctl = s.apctl := rfl
@[simp] theorem setCtx_hwbase (s : State) (n : Nat) (c : Ctx) : (s.setCtx n c).hwbase = s.hwbase := rfl
@[simp] theorem setCtx_aperr (s : State) (n : Nat) (c : Ctx) : (s.setCtx n c).aperr = s.aperr := rfl
@[simp] theorem setCtx_lanes (s : State) (n : Nat) (c : Ctx) : (s.setCtx n c).lanes = s.lanes := rfl
@[simp] theorem setCtx_linkUp (s : State) (n : Nat) (c : Ctx) : (s.setCtx n c).linkUp = s.linkUp := rfl
@[simp] theorem setCtx_staged (s : State) (n : Nat) (c : Ctx) : (s.setCtx n c).staged = s.staged := rfl
@[simp] theorem setCtx_winStatus (s : State) (n : Nat) (c : Ctx) : (s.setCtx n c).winStatus = s.winStatus := rfl
@[simp] theorem setCtx_plimit (s : State) (n : Nat) (c : Ctx) : (s.setCtx n c).plimit = s.plimit := rfl
@[simp] theorem setCtx_duty (s : State) (n : Nat) (c : Ctx) : (s.setCtx n c).duty = s.duty := rfl
@[simp] theorem setCtx_mclog (s : State) (n : Nat) (c : Ctx) : (s.setCtx n c).mclog = s.mclog := rfl
@[simp] theorem setCtx_mcNext (s : State) (n : Nat) (c : Ctx) : (s.setCtx n c).mcNext = s.mcNext := rfl
@[simp] theorem setCtx_corrected (s : State) (n : Nat) (c : Ctx) : (s.setCtx n c).corrected = s.corrected := rfl
@[simp] theorem setCtx_doomed (s : State) (n : Nat) (c : Ctx) : (s.setCtx n c).doomed = s.doomed := rfl
@[simp] theorem setCtx_downMask (s : State) (n : Nat) (c : Ctx) : (s.setCtx n c).downMask = s.downMask := rfl
@[simp] theorem setCtx_ports (s : State) (n : Nat) (c : Ctx) : (s.setCtx n c).ports = s.ports := rfl
@[simp] theorem setCtx_pkg (s : State) (n : Nat) (c : Ctx) : (s.setCtx n c).pkg = s.pkg := rfl
@[simp] theorem setCtx_lostPkgs (s : State) (n : Nat) (c : Ctx) : (s.setCtx n c).lostPkgs = s.lostPkgs := rfl
@[simp] theorem setCtx_lostDies (s : State) (n : Nat) (c : Ctx) : (s.setCtx n c).lostDies = s.lostDies := rfl
@[simp] theorem setCtx_refusedRefs (s : State) (n : Nat) (c : Ctx) : (s.setCtx n c).refusedRefs = s.refusedRefs := rfl
@[simp] theorem setCtx_fullNos (s : State) (n : Nat) (c : Ctx) : (s.setCtx n c).fullNos = s.fullNos := rfl
@[simp] theorem setCtx_agenda (s : State) (n : Nat) (c : Ctx) : (s.setCtx n c).agenda = s.agenda := rfl
@[simp] theorem setCtx_focus (s : State) (n : Nat) (c : Ctx) : (s.setCtx n c).focus = s.focus := rfl
@[simp] theorem setCtx_nextId (s : State) (n : Nat) (c : Ctx) : (s.setCtx n c).nextId = s.nextId := rfl
@[simp] theorem setCtx_ticks (s : State) (n : Nat) (c : Ctx) : (s.setCtx n c).ticks = s.ticks := rfl
@[simp] theorem setCtx_outbox (s : State) (n : Nat) (c : Ctx) : (s.setCtx n c).outbox = s.outbox := rfl

/-! ## Memory, names and teams -/

@[simp] theorem setByte_tags (s : State) (k : Nat) (b : BitVec 8) : (s.setByte k b).tags = s.tags := rfl
@[simp] theorem setByte_dies (s : State) (k : Nat) (b : BitVec 8) : (s.setByte k b).dies = s.dies := rfl
@[simp] theorem setByte_clusters (s : State) (k : Nat) (b : BitVec 8) : (s.setByte k b).clusters = s.clusters := rfl
@[simp] theorem setByte_cores (s : State) (k : Nat) (b : BitVec 8) : (s.setByte k b).cores = s.cores := rfl
@[simp] theorem setByte_teams (s : State) (k : Nat) (b : BitVec 8) : (s.setByte k b).teams = s.teams := rfl
@[simp] theorem setByte_ctxs (s : State) (k : Nat) (b : BitVec 8) : (s.setByte k b).ctxs = s.ctxs := rfl
@[simp] theorem setByte_semChains (s : State) (k : Nat) (b : BitVec 8) : (s.setByte k b).semChains = s.semChains := rfl
@[simp] theorem setByte_barChains (s : State) (k : Nat) (b : BitVec 8) : (s.setByte k b).barChains = s.barChains := rfl
@[simp] theorem setByte_barriers (s : State) (k : Nat) (b : BitVec 8) : (s.setByte k b).barriers = s.barriers := rfl
@[simp] theorem setByte_verChains (s : State) (k : Nat) (b : BitVec 8) : (s.setByte k b).verChains = s.verChains := rfl
@[simp] theorem setByte_pwait (s : State) (k : Nat) (b : BitVec 8) : (s.setByte k b).pwait = s.pwait := rfl
@[simp] theorem setByte_reqs (s : State) (k : Nat) (b : BitVec 8) : (s.setByte k b).reqs = s.reqs := rfl
@[simp] theorem setByte_vreqs (s : State) (k : Nat) (b : BitVec 8) : (s.setByte k b).vreqs = s.vreqs := rfl
@[simp] theorem setByte_net (s : State) (k : Nat) (b : BitVec 8) : (s.setByte k b).net = s.net := rfl
@[simp] theorem setByte_openCmds (s : State) (k : Nat) (b : BitVec 8) : (s.setByte k b).openCmds = s.openCmds := rfl
@[simp] theorem setByte_sections (s : State) (k : Nat) (b : BitVec 8) : (s.setByte k b).sections = s.sections := rfl
@[simp] theorem setByte_images (s : State) (k : Nat) (b : BitVec 8) : (s.setByte k b).images = s.images := rfl
@[simp] theorem setByte_packs (s : State) (k : Nat) (b : BitVec 8) : (s.setByte k b).packs = s.packs := rfl
@[simp] theorem setByte_ctxbase (s : State) (k : Nat) (b : BitVec 8) : (s.setByte k b).ctxbase = s.ctxbase := rfl
@[simp] theorem setByte_qdone (s : State) (k : Nat) (b : BitVec 8) : (s.setByte k b).qdone = s.qdone := rfl
@[simp] theorem setByte_mkeys (s : State) (k : Nat) (b : BitVec 8) : (s.setByte k b).mkeys = s.mkeys := rfl
@[simp] theorem setByte_scrubs (s : State) (k : Nat) (b : BitVec 8) : (s.setByte k b).scrubs = s.scrubs := rfl
@[simp] theorem setByte_exports (s : State) (k : Nat) (b : BitVec 8) : (s.setByte k b).exports = s.exports := rfl
@[simp] theorem setByte_apctl (s : State) (k : Nat) (b : BitVec 8) : (s.setByte k b).apctl = s.apctl := rfl
@[simp] theorem setByte_hwbase (s : State) (k : Nat) (b : BitVec 8) : (s.setByte k b).hwbase = s.hwbase := rfl
@[simp] theorem setByte_aperr (s : State) (k : Nat) (b : BitVec 8) : (s.setByte k b).aperr = s.aperr := rfl
@[simp] theorem setByte_lanes (s : State) (k : Nat) (b : BitVec 8) : (s.setByte k b).lanes = s.lanes := rfl
@[simp] theorem setByte_linkUp (s : State) (k : Nat) (b : BitVec 8) : (s.setByte k b).linkUp = s.linkUp := rfl
@[simp] theorem setByte_staged (s : State) (k : Nat) (b : BitVec 8) : (s.setByte k b).staged = s.staged := rfl
@[simp] theorem setByte_winStatus (s : State) (k : Nat) (b : BitVec 8) : (s.setByte k b).winStatus = s.winStatus := rfl
@[simp] theorem setByte_plimit (s : State) (k : Nat) (b : BitVec 8) : (s.setByte k b).plimit = s.plimit := rfl
@[simp] theorem setByte_duty (s : State) (k : Nat) (b : BitVec 8) : (s.setByte k b).duty = s.duty := rfl
@[simp] theorem setByte_mclog (s : State) (k : Nat) (b : BitVec 8) : (s.setByte k b).mclog = s.mclog := rfl
@[simp] theorem setByte_mcNext (s : State) (k : Nat) (b : BitVec 8) : (s.setByte k b).mcNext = s.mcNext := rfl
@[simp] theorem setByte_corrected (s : State) (k : Nat) (b : BitVec 8) : (s.setByte k b).corrected = s.corrected := rfl
@[simp] theorem setByte_doomed (s : State) (k : Nat) (b : BitVec 8) : (s.setByte k b).doomed = s.doomed := rfl
@[simp] theorem setByte_downMask (s : State) (k : Nat) (b : BitVec 8) : (s.setByte k b).downMask = s.downMask := rfl
@[simp] theorem setByte_ports (s : State) (k : Nat) (b : BitVec 8) : (s.setByte k b).ports = s.ports := rfl
@[simp] theorem setByte_pkg (s : State) (k : Nat) (b : BitVec 8) : (s.setByte k b).pkg = s.pkg := rfl
@[simp] theorem setByte_lostPkgs (s : State) (k : Nat) (b : BitVec 8) : (s.setByte k b).lostPkgs = s.lostPkgs := rfl
@[simp] theorem setByte_lostDies (s : State) (k : Nat) (b : BitVec 8) : (s.setByte k b).lostDies = s.lostDies := rfl
@[simp] theorem setByte_refusedRefs (s : State) (k : Nat) (b : BitVec 8) : (s.setByte k b).refusedRefs = s.refusedRefs := rfl
@[simp] theorem setByte_fullNos (s : State) (k : Nat) (b : BitVec 8) : (s.setByte k b).fullNos = s.fullNos := rfl
@[simp] theorem setByte_agenda (s : State) (k : Nat) (b : BitVec 8) : (s.setByte k b).agenda = s.agenda := rfl
@[simp] theorem setByte_focus (s : State) (k : Nat) (b : BitVec 8) : (s.setByte k b).focus = s.focus := rfl
@[simp] theorem setByte_nextId (s : State) (k : Nat) (b : BitVec 8) : (s.setByte k b).nextId = s.nextId := rfl
@[simp] theorem setByte_ticks (s : State) (k : Nat) (b : BitVec 8) : (s.setByte k b).ticks = s.ticks := rfl
@[simp] theorem setByte_outbox (s : State) (k : Nat) (b : BitVec 8) : (s.setByte k b).outbox = s.outbox := rfl

@[simp] theorem fresh_mem (s : State) : s.fresh.2.mem = s.mem := rfl
@[simp] theorem fresh_tags (s : State) : s.fresh.2.tags = s.tags := rfl
@[simp] theorem fresh_dies (s : State) : s.fresh.2.dies = s.dies := rfl
@[simp] theorem fresh_clusters (s : State) : s.fresh.2.clusters = s.clusters := rfl
@[simp] theorem fresh_cores (s : State) : s.fresh.2.cores = s.cores := rfl
@[simp] theorem fresh_teams (s : State) : s.fresh.2.teams = s.teams := rfl
@[simp] theorem fresh_ctxs (s : State) : s.fresh.2.ctxs = s.ctxs := rfl
@[simp] theorem fresh_semChains (s : State) : s.fresh.2.semChains = s.semChains := rfl
@[simp] theorem fresh_barChains (s : State) : s.fresh.2.barChains = s.barChains := rfl
@[simp] theorem fresh_barriers (s : State) : s.fresh.2.barriers = s.barriers := rfl
@[simp] theorem fresh_verChains (s : State) : s.fresh.2.verChains = s.verChains := rfl
@[simp] theorem fresh_pwait (s : State) : s.fresh.2.pwait = s.pwait := rfl
@[simp] theorem fresh_reqs (s : State) : s.fresh.2.reqs = s.reqs := rfl
@[simp] theorem fresh_vreqs (s : State) : s.fresh.2.vreqs = s.vreqs := rfl
@[simp] theorem fresh_net (s : State) : s.fresh.2.net = s.net := rfl
@[simp] theorem fresh_openCmds (s : State) : s.fresh.2.openCmds = s.openCmds := rfl
@[simp] theorem fresh_sections (s : State) : s.fresh.2.sections = s.sections := rfl
@[simp] theorem fresh_images (s : State) : s.fresh.2.images = s.images := rfl
@[simp] theorem fresh_packs (s : State) : s.fresh.2.packs = s.packs := rfl
@[simp] theorem fresh_ctxbase (s : State) : s.fresh.2.ctxbase = s.ctxbase := rfl
@[simp] theorem fresh_qdone (s : State) : s.fresh.2.qdone = s.qdone := rfl
@[simp] theorem fresh_mkeys (s : State) : s.fresh.2.mkeys = s.mkeys := rfl
@[simp] theorem fresh_scrubs (s : State) : s.fresh.2.scrubs = s.scrubs := rfl
@[simp] theorem fresh_exports (s : State) : s.fresh.2.exports = s.exports := rfl
@[simp] theorem fresh_apctl (s : State) : s.fresh.2.apctl = s.apctl := rfl
@[simp] theorem fresh_hwbase (s : State) : s.fresh.2.hwbase = s.hwbase := rfl
@[simp] theorem fresh_aperr (s : State) : s.fresh.2.aperr = s.aperr := rfl
@[simp] theorem fresh_lanes (s : State) : s.fresh.2.lanes = s.lanes := rfl
@[simp] theorem fresh_linkUp (s : State) : s.fresh.2.linkUp = s.linkUp := rfl
@[simp] theorem fresh_staged (s : State) : s.fresh.2.staged = s.staged := rfl
@[simp] theorem fresh_winStatus (s : State) : s.fresh.2.winStatus = s.winStatus := rfl
@[simp] theorem fresh_plimit (s : State) : s.fresh.2.plimit = s.plimit := rfl
@[simp] theorem fresh_duty (s : State) : s.fresh.2.duty = s.duty := rfl
@[simp] theorem fresh_mclog (s : State) : s.fresh.2.mclog = s.mclog := rfl
@[simp] theorem fresh_mcNext (s : State) : s.fresh.2.mcNext = s.mcNext := rfl
@[simp] theorem fresh_corrected (s : State) : s.fresh.2.corrected = s.corrected := rfl
@[simp] theorem fresh_doomed (s : State) : s.fresh.2.doomed = s.doomed := rfl
@[simp] theorem fresh_downMask (s : State) : s.fresh.2.downMask = s.downMask := rfl
@[simp] theorem fresh_ports (s : State) : s.fresh.2.ports = s.ports := rfl
@[simp] theorem fresh_pkg (s : State) : s.fresh.2.pkg = s.pkg := rfl
@[simp] theorem fresh_lostPkgs (s : State) : s.fresh.2.lostPkgs = s.lostPkgs := rfl
@[simp] theorem fresh_lostDies (s : State) : s.fresh.2.lostDies = s.lostDies := rfl
@[simp] theorem fresh_refusedRefs (s : State) : s.fresh.2.refusedRefs = s.refusedRefs := rfl
@[simp] theorem fresh_fullNos (s : State) : s.fresh.2.fullNos = s.fullNos := rfl
@[simp] theorem fresh_agenda (s : State) : s.fresh.2.agenda = s.agenda := rfl
@[simp] theorem fresh_focus (s : State) : s.fresh.2.focus = s.focus := rfl
@[simp] theorem fresh_ticks (s : State) : s.fresh.2.ticks = s.ticks := rfl
@[simp] theorem fresh_outbox (s : State) : s.fresh.2.outbox = s.outbox := rfl
@[simp] theorem fresh_name (s : State) : s.fresh.1 = s.nextId := rfl
@[simp] theorem fresh_nextId (s : State) : s.fresh.2.nextId = s.nextId + 1 := rfl

theorem modTeam_eq (s : State) (u : Nat) (f : Team → Team) :
    s.modTeam u f = { s with teams := (s.modTeam u f).teams } := by
  unfold State.modTeam
  split <;> rfl

@[simp] theorem modTeam_mem (s : State) (u : Nat) (f : Team → Team) : (s.modTeam u f).mem = s.mem := by
  rw [modTeam_eq]
@[simp] theorem modTeam_tags (s : State) (u : Nat) (f : Team → Team) : (s.modTeam u f).tags = s.tags := by
  rw [modTeam_eq]
@[simp] theorem modTeam_dies (s : State) (u : Nat) (f : Team → Team) : (s.modTeam u f).dies = s.dies := by
  rw [modTeam_eq]
@[simp] theorem modTeam_clusters (s : State) (u : Nat) (f : Team → Team) : (s.modTeam u f).clusters = s.clusters := by
  rw [modTeam_eq]
@[simp] theorem modTeam_cores (s : State) (u : Nat) (f : Team → Team) : (s.modTeam u f).cores = s.cores := by
  rw [modTeam_eq]
@[simp] theorem modTeam_ctxs (s : State) (u : Nat) (f : Team → Team) : (s.modTeam u f).ctxs = s.ctxs := by
  rw [modTeam_eq]
@[simp] theorem modTeam_semChains (s : State) (u : Nat) (f : Team → Team) : (s.modTeam u f).semChains = s.semChains := by
  rw [modTeam_eq]
@[simp] theorem modTeam_barChains (s : State) (u : Nat) (f : Team → Team) : (s.modTeam u f).barChains = s.barChains := by
  rw [modTeam_eq]
@[simp] theorem modTeam_barriers (s : State) (u : Nat) (f : Team → Team) : (s.modTeam u f).barriers = s.barriers := by
  rw [modTeam_eq]
@[simp] theorem modTeam_verChains (s : State) (u : Nat) (f : Team → Team) : (s.modTeam u f).verChains = s.verChains := by
  rw [modTeam_eq]
@[simp] theorem modTeam_pwait (s : State) (u : Nat) (f : Team → Team) : (s.modTeam u f).pwait = s.pwait := by
  rw [modTeam_eq]
@[simp] theorem modTeam_reqs (s : State) (u : Nat) (f : Team → Team) : (s.modTeam u f).reqs = s.reqs := by
  rw [modTeam_eq]
@[simp] theorem modTeam_vreqs (s : State) (u : Nat) (f : Team → Team) : (s.modTeam u f).vreqs = s.vreqs := by
  rw [modTeam_eq]
@[simp] theorem modTeam_net (s : State) (u : Nat) (f : Team → Team) : (s.modTeam u f).net = s.net := by
  rw [modTeam_eq]
@[simp] theorem modTeam_openCmds (s : State) (u : Nat) (f : Team → Team) : (s.modTeam u f).openCmds = s.openCmds := by
  rw [modTeam_eq]
@[simp] theorem modTeam_sections (s : State) (u : Nat) (f : Team → Team) : (s.modTeam u f).sections = s.sections := by
  rw [modTeam_eq]
@[simp] theorem modTeam_images (s : State) (u : Nat) (f : Team → Team) : (s.modTeam u f).images = s.images := by
  rw [modTeam_eq]
@[simp] theorem modTeam_packs (s : State) (u : Nat) (f : Team → Team) : (s.modTeam u f).packs = s.packs := by
  rw [modTeam_eq]
@[simp] theorem modTeam_ctxbase (s : State) (u : Nat) (f : Team → Team) : (s.modTeam u f).ctxbase = s.ctxbase := by
  rw [modTeam_eq]
@[simp] theorem modTeam_qdone (s : State) (u : Nat) (f : Team → Team) : (s.modTeam u f).qdone = s.qdone := by
  rw [modTeam_eq]
@[simp] theorem modTeam_mkeys (s : State) (u : Nat) (f : Team → Team) : (s.modTeam u f).mkeys = s.mkeys := by
  rw [modTeam_eq]
@[simp] theorem modTeam_scrubs (s : State) (u : Nat) (f : Team → Team) : (s.modTeam u f).scrubs = s.scrubs := by
  rw [modTeam_eq]
@[simp] theorem modTeam_exports (s : State) (u : Nat) (f : Team → Team) : (s.modTeam u f).exports = s.exports := by
  rw [modTeam_eq]
@[simp] theorem modTeam_apctl (s : State) (u : Nat) (f : Team → Team) : (s.modTeam u f).apctl = s.apctl := by
  rw [modTeam_eq]
@[simp] theorem modTeam_hwbase (s : State) (u : Nat) (f : Team → Team) : (s.modTeam u f).hwbase = s.hwbase := by
  rw [modTeam_eq]
@[simp] theorem modTeam_aperr (s : State) (u : Nat) (f : Team → Team) : (s.modTeam u f).aperr = s.aperr := by
  rw [modTeam_eq]
@[simp] theorem modTeam_lanes (s : State) (u : Nat) (f : Team → Team) : (s.modTeam u f).lanes = s.lanes := by
  rw [modTeam_eq]
@[simp] theorem modTeam_linkUp (s : State) (u : Nat) (f : Team → Team) : (s.modTeam u f).linkUp = s.linkUp := by
  rw [modTeam_eq]
@[simp] theorem modTeam_staged (s : State) (u : Nat) (f : Team → Team) : (s.modTeam u f).staged = s.staged := by
  rw [modTeam_eq]
@[simp] theorem modTeam_winStatus (s : State) (u : Nat) (f : Team → Team) : (s.modTeam u f).winStatus = s.winStatus := by
  rw [modTeam_eq]
@[simp] theorem modTeam_plimit (s : State) (u : Nat) (f : Team → Team) : (s.modTeam u f).plimit = s.plimit := by
  rw [modTeam_eq]
@[simp] theorem modTeam_duty (s : State) (u : Nat) (f : Team → Team) : (s.modTeam u f).duty = s.duty := by
  rw [modTeam_eq]
@[simp] theorem modTeam_mclog (s : State) (u : Nat) (f : Team → Team) : (s.modTeam u f).mclog = s.mclog := by
  rw [modTeam_eq]
@[simp] theorem modTeam_mcNext (s : State) (u : Nat) (f : Team → Team) : (s.modTeam u f).mcNext = s.mcNext := by
  rw [modTeam_eq]
@[simp] theorem modTeam_corrected (s : State) (u : Nat) (f : Team → Team) : (s.modTeam u f).corrected = s.corrected := by
  rw [modTeam_eq]
@[simp] theorem modTeam_doomed (s : State) (u : Nat) (f : Team → Team) : (s.modTeam u f).doomed = s.doomed := by
  rw [modTeam_eq]
@[simp] theorem modTeam_downMask (s : State) (u : Nat) (f : Team → Team) : (s.modTeam u f).downMask = s.downMask := by
  rw [modTeam_eq]
@[simp] theorem modTeam_ports (s : State) (u : Nat) (f : Team → Team) : (s.modTeam u f).ports = s.ports := by
  rw [modTeam_eq]
@[simp] theorem modTeam_pkg (s : State) (u : Nat) (f : Team → Team) : (s.modTeam u f).pkg = s.pkg := by
  rw [modTeam_eq]
@[simp] theorem modTeam_lostPkgs (s : State) (u : Nat) (f : Team → Team) : (s.modTeam u f).lostPkgs = s.lostPkgs := by
  rw [modTeam_eq]
@[simp] theorem modTeam_lostDies (s : State) (u : Nat) (f : Team → Team) : (s.modTeam u f).lostDies = s.lostDies := by
  rw [modTeam_eq]
@[simp] theorem modTeam_refusedRefs (s : State) (u : Nat) (f : Team → Team) : (s.modTeam u f).refusedRefs = s.refusedRefs := by
  rw [modTeam_eq]
@[simp] theorem modTeam_fullNos (s : State) (u : Nat) (f : Team → Team) : (s.modTeam u f).fullNos = s.fullNos := by
  rw [modTeam_eq]
@[simp] theorem modTeam_agenda (s : State) (u : Nat) (f : Team → Team) : (s.modTeam u f).agenda = s.agenda := by
  rw [modTeam_eq]
@[simp] theorem modTeam_focus (s : State) (u : Nat) (f : Team → Team) : (s.modTeam u f).focus = s.focus := by
  rw [modTeam_eq]
@[simp] theorem modTeam_nextId (s : State) (u : Nat) (f : Team → Team) : (s.modTeam u f).nextId = s.nextId := by
  rw [modTeam_eq]
@[simp] theorem modTeam_ticks (s : State) (u : Nat) (f : Team → Team) : (s.modTeam u f).ticks = s.ticks := by
  rw [modTeam_eq]
@[simp] theorem modTeam_outbox (s : State) (u : Nat) (f : Team → Team) : (s.modTeam u f).outbox = s.outbox := by
  rw [modTeam_eq]

/-! ## Changes of one entry -/

@[simp] theorem modCore_def (s : State) (c : Nat) (f : Core → Core) :
    s.modCore c f = s.setCore c (f (s.core c)) := rfl
@[simp] theorem modDie_def (s : State) (d : Nat) (f : Die → Die) :
    s.modDie d f = s.setDie d (f (s.die d)) := rfl
@[simp] theorem modCluster_def (s : State) (c : Nat) (f : Cluster → Cluster) :
    s.modCluster c f = s.setCluster c (f (s.cluster c)) := rfl
@[simp] theorem modCtx_def (s : State) (n : Nat) (f : Ctx → Ctx) :
    s.modCtx n f = s.setCtx n (f (s.ctx n)) := rfl

/-! ## Reads after writes -/

@[simp] theorem core_setCore (s : State) (c d : Nat) (k : Core) :
    (s.setCore c k).core d = if d = c then k else s.core d := by
  simp [State.core]
@[simp] theorem die_setDie (s : State) (c d : Nat) (k : Die) :
    (s.setDie c k).die d = if d = c then k else s.die d := by
  simp [State.die]
@[simp] theorem cluster_setCluster (s : State) (c d : Nat) (k : Cluster) :
    (s.setCluster c k).cluster d = if d = c then k else s.cluster d := by
  simp [State.cluster]
@[simp] theorem ctx_setCtx (s : State) (c d : Nat) (k : Ctx) :
    (s.setCtx c k).ctx d = if d = c then k else s.ctx d := by
  simp [State.ctx]

/-- A team changed, where it exists. -/
theorem tabFind_modTeam (s : State) (u v : Nat) (f : Team → Team) :
    tabFind (s.modTeam u f).teams v = if v = u then (tabFind s.teams u).map f else tabFind s.teams v := by
  unfold State.modTeam
  split
  · rename_i t h
    by_cases hv : v = u <;> simp [hv, h]
  · rename_i h
    by_cases hv : v = u <;> simp [hv, h]

@[simp] theorem core_setDie (s : State) (i : Nat) (d : Nat) (k : Die) : (s.setDie d k).core i = s.core i := rfl
@[simp] theorem core_setCluster (s : State) (i : Nat) (c : Nat) (k : Cluster) : (s.setCluster c k).core i = s.core i := rfl
@[simp] theorem core_setTeam (s : State) (i : Nat) (u : Nat) (t : Team) : (s.setTeam u t).core i = s.core i := rfl
@[simp] theorem core_setCtx (s : State) (i : Nat) (n : Nat) (c : Ctx) : (s.setCtx n c).core i = s.core i := rfl
@[simp] theorem core_setByte (s : State) (i k : Nat) (b : BitVec 8) : (s.setByte k b).core i = s.core i := rfl
@[simp] theorem core_fresh (s : State) (i : Nat) : s.fresh.2.core i = s.core i := rfl
@[simp] theorem core_modTeam (s : State) (i u : Nat) (f : Team → Team) : (s.modTeam u f).core i = s.core i := by
  simp [State.core]
@[simp] theorem die_setCore (s : State) (i : Nat) (c : Nat) (k : Core) : (s.setCore c k).die i = s.die i := rfl
@[simp] theorem die_setCluster (s : State) (i : Nat) (c : Nat) (k : Cluster) : (s.setCluster c k).die i = s.die i := rfl
@[simp] theorem die_setTeam (s : State) (i : Nat) (u : Nat) (t : Team) : (s.setTeam u t).die i = s.die i := rfl
@[simp] theorem die_setCtx (s : State) (i : Nat) (n : Nat) (c : Ctx) : (s.setCtx n c).die i = s.die i := rfl
@[simp] theorem die_setByte (s : State) (i k : Nat) (b : BitVec 8) : (s.setByte k b).die i = s.die i := rfl
@[simp] theorem die_fresh (s : State) (i : Nat) : s.fresh.2.die i = s.die i := rfl
@[simp] theorem die_modTeam (s : State) (i u : Nat) (f : Team → Team) : (s.modTeam u f).die i = s.die i := by
  simp [State.die]
@[simp] theorem cluster_setCore (s : State) (i : Nat) (c : Nat) (k : Core) : (s.setCore c k).cluster i = s.cluster i := rfl
@[simp] theorem cluster_setDie (s : State) (i : Nat) (d : Nat) (k : Die) : (s.setDie d k).cluster i = s.cluster i := rfl
@[simp] theorem cluster_setTeam (s : State) (i : Nat) (u : Nat) (t : Team) : (s.setTeam u t).cluster i = s.cluster i := rfl
@[simp] theorem cluster_setCtx (s : State) (i : Nat) (n : Nat) (c : Ctx) : (s.setCtx n c).cluster i = s.cluster i := rfl
@[simp] theorem cluster_setByte (s : State) (i k : Nat) (b : BitVec 8) : (s.setByte k b).cluster i = s.cluster i := rfl
@[simp] theorem cluster_fresh (s : State) (i : Nat) : s.fresh.2.cluster i = s.cluster i := rfl
@[simp] theorem cluster_modTeam (s : State) (i u : Nat) (f : Team → Team) : (s.modTeam u f).cluster i = s.cluster i := by
  simp [State.cluster]
@[simp] theorem ctx_setCore (s : State) (i : Nat) (c : Nat) (k : Core) : (s.setCore c k).ctx i = s.ctx i := rfl
@[simp] theorem ctx_setDie (s : State) (i : Nat) (d : Nat) (k : Die) : (s.setDie d k).ctx i = s.ctx i := rfl
@[simp] theorem ctx_setCluster (s : State) (i : Nat) (c : Nat) (k : Cluster) : (s.setCluster c k).ctx i = s.ctx i := rfl
@[simp] theorem ctx_setTeam (s : State) (i : Nat) (u : Nat) (t : Team) : (s.setTeam u t).ctx i = s.ctx i := rfl
@[simp] theorem ctx_setByte (s : State) (i k : Nat) (b : BitVec 8) : (s.setByte k b).ctx i = s.ctx i := rfl
@[simp] theorem ctx_fresh (s : State) (i : Nat) : s.fresh.2.ctx i = s.ctx i := rfl
@[simp] theorem ctx_modTeam (s : State) (i u : Nat) (f : Team → Team) : (s.modTeam u f).ctx i = s.ctx i := by
  simp [State.ctx]

end Sys2Proof.Laws
end

