-- ==== Sys2Proof/Laws/Memory.lean ====
section
/-! SUPPORT. Memory: what a read gives after a write, and that every write keeps the canonical form. -/

namespace Sys2Proof.Laws

open Sys2Proof.Machine

theorem wf_iff (m : List Host.Cell) :
    Memory.wf m = true ↔ tabSorted m = true ∧ ∀ c ∈ m, c.2 ≠ memDefault := by
  simp [Memory.wf]

/-- Writing one byte keeps the canonical form. -/
theorem wf_tabSet (m : List Host.Cell) (k : Nat) (b : BitVec 8) (h : Memory.wf m = true) :
    Memory.wf (tabSet memDefault m k b) = true := by
  obtain ⟨hs, hn⟩ := (wf_iff m).mp h
  refine (wf_iff _).mpr ⟨tabSorted_tabSet _ _ _ _ hs, fun c hc => ?_⟩
  simp only [tabSet] at hc
  split_ifs at hc with hb
  · exact hn c (mem_tabDel hc)
  · rcases mem_tabPut hc with rfl | hc
    · exact hb
    · exact hn c hc

/-- A byte read after one was written. -/
@[simp] theorem byte_setByte (s : State) (k i : Nat) (b : BitVec 8) :
    (s.setByte k b).byte i = if i = k then b else s.byte i :=
  tabGet_tabSet _ _ _ _ _

theorem inv_of_eq {s t : State} (hm : t.mem = s.mem) (ht : t.tags = s.tags) (h : s.Inv) : t.Inv := by
  unfold State.Inv at *
  rw [hm, ht]
  exact h

theorem inv_setByte (s : State) (k : Nat) (b : BitVec 8) (h : s.Inv) : (s.setByte k b).Inv :=
  ⟨wf_tabSet _ _ _ h.1, h.2⟩

/-- A fold of steps that keep a property keeps it. -/
theorem fold_keeps {β : Type} {P : State → Prop} (g : State → β → State)
    (hg : ∀ s x, P s → P (g s x)) (l : List β) (s : State) (h : P s) : P (l.foldl g s) := by
  induction l generalizing s with
  | nil => exact h
  | cons x l ih => exact ih _ (hg _ _ h)

theorem inv_rekeyGranule (s : State) (mk k : Nat) (h : s.Inv) : (s.rekeyGranule mk k).Inv := by
  simp only [State.rekeyGranule]
  split_ifs
  · exact ⟨h.1, tabSorted_tabPut _ _ _ h.2⟩
  · have hf := fold_keeps (P := State.Inv)
      (fun s i => s.setByte (k / 128 * 128 + i) (s.readByte mk (k / 128 * 128 + i)))
      (fun s x hs => inv_setByte s _ _ hs) (List.range 128) s h
    exact ⟨hf.1, tabSorted_tabPut _ _ _ hf.2⟩
  · exact h

/-- Writing bytes keeps the canonical form. -/
theorem inv_writeBytes (bs : List (BitVec 8)) (s : State) (mk k : Nat) (h : s.Inv) :
    (s.writeBytes mk k bs).Inv := by
  induction bs generalizing s k with
  | nil => exact h
  | cons b bs ih => exact ih _ _ (inv_setByte _ _ _ (inv_rekeyGranule _ _ _ h))

theorem inv_writeNat (s : State) (mk k n v : Nat) (h : s.Inv) : (s.writeNat mk k n v).Inv :=
  inv_writeBytes _ _ _ _ h

/-! ## Writes by an agent that is no task, and records of the pool -/

theorem rekeyGranule_eq (s : State) (mk k : Nat) :
    s.rekeyGranule mk k = { s with mem := (s.rekeyGranule mk k).mem, tags := (s.rekeyGranule mk k).tags } := by
  have hf : ∀ (l : List Nat) (g : Nat) (b : State),
      l.foldl (fun s i => s.setByte (g + i) (s.readByte mk (g + i))) b =
        { b with mem := (l.foldl (fun s i => s.setByte (g + i) (s.readByte mk (g + i))) b).mem } := by
    intro l g
    induction l with
    | nil => exact fun _ => rfl
    | cons x l ih =>
      intro b
      rw [List.foldl_cons, ih (b.setByte _ _)]
      rfl
  simp only [State.rekeyGranule]
  split_ifs
  · rfl
  · rw [hf]
  · rfl

/-- What an agent writes changes memory and its tags alone. -/
theorem agentWrite_eq (bs : List (BitVec 8)) (s : State) (mk k : Nat) :
    s.agentWrite mk k bs =
      { s with mem := (s.agentWrite mk k bs).mem, tags := (s.agentWrite mk k bs).tags } := by
  induction bs generalizing s k with
  | nil => rfl
  | cons b bs ih =>
    unfold State.agentWrite
    split_ifs
    · exact ih s (k + 1)
    · rw [ih, State.setByte, rekeyGranule_eq]

theorem inv_agentWrite (bs : List (BitVec 8)) (s : State) (mk k : Nat) (h : s.Inv) :
    (s.agentWrite mk k bs).Inv := by
  induction bs generalizing s k with
  | nil => exact h
  | cons b bs ih =>
    unfold State.agentWrite
    split_ifs
    · exact ih s _ h
    · exact ih _ _ (inv_setByte _ _ _ (inv_rekeyGranule _ _ _ h))

theorem inv_agentNat (s : State) (mk k n v : Nat) (h : s.Inv) : (s.agentNat mk k n v).Inv :=
  inv_agentWrite _ _ _ _ h

/-- The header of a record written changes memory and its tags alone. -/
theorem showRec_eq (s : State) (uid id : Nat) :
    s.showRec uid id = { s with mem := (s.showRec uid id).mem, tags := (s.showRec uid id).tags } := by
  unfold State.showRec
  split
  · rfl
  · split
    · rfl
    · split
      · rfl
      · split_ifs
        · rw [agentWrite_eq]
        · rfl

theorem inv_showRec (s : State) (uid id : Nat) (h : s.Inv) : (s.showRec uid id).Inv := by
  unfold State.showRec
  split
  · exact h
  · split
    · exact h
    · split
      · exact h
      · split_ifs
        · exact inv_agentWrite _ _ _ _ h
        · exact h

theorem inv_fillRec (s : State) (core : Option Nat) (mk : Nat) (places : List Nat) (vals : List W64) (h : s.Inv) :
    (s.fillRec core mk places vals).Inv := by
  refine fold_keeps (P := State.Inv) _ (fun s x hs => ?_) _ s h
  split
  · split_ifs
    · exact inv_agentNat _ _ _ _ _ hs
    · exact hs
  · exact hs

/-- A record added keeps the canonical form. -/
theorem inv_addRec (s : State) (uid : Nat) (r : Rec) (h : s.Inv) : (s.addRec uid r).Inv := by
  unfold State.addRec
  split
  · exact h
  · exact inv_showRec _ _ _ (inv_fillRec _ _ _ _ _ (inv_of_eq rfl rfl h))

theorem inv_setVerChain (s : State) (key : Nat) (l : List Waiter) (h : s.Inv) : (s.setVerChain key l).Inv := by
  unfold State.setVerChain
  simp only
  split
  · exact inv_of_eq rfl rfl h
  · exact inv_agentNat _ _ _ _ _ (inv_of_eq rfl rfl h)

theorem inv_setPwait (s : State) (ctx n : Nat) (l : List Nat) (h : s.Inv) : (s.setPwait ctx n l).Inv := by
  unfold State.setPwait
  simp only
  split
  · exact inv_of_eq rfl rfl h
  · exact inv_agentNat _ _ _ _ _ (inv_of_eq rfl rfl h)

end Sys2Proof.Laws
end

