-- ==== Sys2Proof/Laws/Issue.lean ====
section
/-! SUPPORT. What the frame of issue does: one lemma per outcome. -/

namespace Sys2Proof.Laws

open Sys2Proof.Machine

/-- An operand that traps is empty. -/
theorem srcEmpty_of_srcTraps {t : Task} {o : SrcOp} (h : t.srcTraps o = true) : t.srcEmpty o = true := by
  cases o <;> simp_all [Task.srcTraps, Task.srcEmpty]

theorem srcTraps_of_full {t : Task} {l : List SrcOp} (h : l.any t.srcEmpty = false) :
    l.any t.srcTraps = false := by
  simp only [List.any_eq_false] at *
  exact fun o ho ht => h o ho (srcEmpty_of_srcTraps ht)

/-- With everything ready the body decides. -/
theorem issue_ready {s : State} {e : Env} {st n : Nat} {srcs : List SrcOp} {dsts : List DstOp}
    {body : Env → State → Act} (h : CanIssue s e st srcs dsts) :
    issue st n srcs dsts body s = match body e s with
      | .done s' => .next s'
      | .hold => .next (s.holdTask e)
      | .fault r => .next (s.raise e r) := by
  obtain ⟨hi, hf, hs, hsrc, hdst⟩ := h
  cases hb : body e s <;> simp [issue, hi, hf, hs, srcTraps_of_full hsrc, hsrc, hdst, hb]

/-- The task that issues is its team's. -/
theorem issuer_team {s : State} {e : Env} (h : s.issuer = some e) :
    tabFind s.teams e.uid = some e.team ∧ e.team.task = some e.task ∧ e.team.core = some e.core ∧
      s.focus = some e.uid := by
  unfold State.issuer at h
  split at h
  · cases h
  · rename_i u hu
    split at h
    · cases h
    · rename_i t ht
      split at h
      · rename_i k c hk hc
        cases h
        exact ⟨ht, hk, hc, hu⟩
      · cases h

theorem setTask_eq {s : State} {u : Nat} {m : Team} (h : tabFind s.teams u = some m) (k : Task) :
    s.setTask u k = s.setTeam u { m with task := some k } := by
  simp [State.setTask, State.modTeam, h]

/-- What a task leaves behind when it has issued. -/
theorem onlyTask_commit {s : State} {e : Env} (h : s.issuer = some e) (k : Task) :
    OnlyTask s (s.commit e k) e { k with held := false, issued := s.ticks } := by
  have ht := (issuer_team h).1
  simp only [OnlyTask, OnlyTeam, State.commit, setTask_eq ht]
  exact ⟨rfl, fun u => by simp⟩

/-- A scalar register written. -/
theorem getX_setX (t : Task) (d r : BitVec 6) (v : W64) :
    (t.setX d v).getX r = if r = d ∧ r ≠ 0 then v else t.getX r := by
  unfold Task.setX Task.getX
  by_cases hr : r = 0
  · simp [hr]
  · by_cases hd : d = 0
    · have h : ¬ (r = d ∧ r ≠ 0) := fun h => hr (h.1.trans hd)
      rw [if_pos hd, if_neg h, if_neg hr]
    · rw [if_neg hd, if_neg hr, if_neg hr]
      simp only [tabGet_tabSet, BitVec.toNat_inj]
      split_ifs <;> simp_all

theorem setX_eq (t : Task) (d : BitVec 6) (v : W64) : t.setX d v = { t with x := (t.setX d v).x } := by
  unfold Task.setX
  split_ifs <;> rfl

theorem wrote_setX (t : Task) (d : BitVec 6) (v : W64) (n : Nat) (b : Bool) (m : Nat) :
    Wrote t { (t.setX d v).advance n with held := b, issued := m } d v n := by
  refine ⟨?_, fun r => getX_setX t d r v⟩
  rw [setX_eq]
  rfl

/-- An instruction whose whole effect is one scalar result. -/
theorem scalar_computes {s : State} {e : Env} {st n : Nat} {d : BitVec 6} {srcs : List SrcOp}
    {val : Task → W64} (h : CanIssue s e st srcs [.x d]) :
    ∃ t k, scalar st n d srcs val s = .next t ∧ OnlyTask s t e k ∧ Wrote e.task k d (val e.task) n := by
  refine ⟨_, _, ?_, onlyTask_commit h.1 _, wrote_setX _ _ _ _ _ _⟩
  unfold scalar
  rw [issue_ready h]

/-- An instruction that changes only its own task. -/
theorem taskOp_becomes {s : State} {e : Env} {st n : Nat} {srcs : List SrcOp} {f : Task → Task}
    (h : CanIssue s e st srcs []) :
    ∃ t, taskOp st n srcs f s = .next t ∧
      OnlyTask s t e { f e.task with held := false, issued := s.ticks } := by
  refine ⟨_, ?_, onlyTask_commit h.1 _⟩
  unfold taskOp
  rw [issue_ready h]

end Sys2Proof.Laws
end

