-- ==== Sys2Proof/Laws/PerInstr.lean ====
section
/-! SUPPORT. Statements about every instruction as syntax, one lemma per constructor. -/

namespace Sys2Proof.Laws

/-- The bits of an encoding decode to the instruction, whose length they give, and lie within it. -/
def RoundTrip.Statement (i : Instr) : Prop :=
  ∀ e, encOf i = some e → i.wf = true →
    decodeBits e.bits = .ok i ∧ lengthOfBits e.bits = e.parcels

/-- A format that is found, parsed back and named gives the round trip. -/
theorem roundTrip_of {i : Instr} {e : Enc} {f : Format} (he : encOf i = some e)
    (hf : i.wf = true → formatOfBits e.bits = .ok f) (hp : i.wf = true → parse e.bits f = e)
    (hi : i.wf = true → instrOf e = .ok i) (hl : lengthOfBits e.bits = e.parcels) :
    RoundTrip.Statement i := by
  intro x hx hw
  rw [he] at hx
  obtain rfl := Option.some.inj hx
  refine ⟨?_, hl⟩
  simp only [decodeBits, hf hw, bind, Except.bind, hp hw, hi hw, checkFields, hw, if_true]

/-- A step has no encoding. -/
theorem roundTrip_step {i : Instr} (h : encOf i = none) : RoundTrip.Statement i := by
  intro e he
  rw [h] at he
  cases he


/-- The round trip of an entry in format S. -/
theorem roundTrip_ofS {i : Instr} {m n : Nat} {f : FS} (he : encOf i = some (.s m n f))
    (hm : (BitVec.ofNat 6 m).toNat = m) (hn : (BitVec.ofNat 4 n).toNat = n) (hk : majorKnown m = true)
    (hf : formatOf m 1 = some .s) (hi : i.wf = true → instrOf (.s m n f) = .ok i) :
    RoundTrip.Statement i :=
  roundTrip_of (f := .s) he
    (fun _ => by simp [formatOfBits, Enc.bits, packS_len, packS_major, hm, hk, hf])
    (fun _ => by simp [parse, Enc.bits, packS_major, packS_fn, hn, parseS_pack, hm])
    hi (by simp [lengthOfBits, Enc.bits, packS_len, Enc.parcels])

/-- The round trip of an entry in format SI. -/
theorem roundTrip_ofSI {i : Instr} {m : Nat} {f : FSI} (he : encOf i = some (.si m f))
    (hm : (BitVec.ofNat 6 m).toNat = m) (hk : majorKnown m = true)
    (hf : formatOf m 1 = some .si) (hi : i.wf = true → instrOf (.si m f) = .ok i) :
    RoundTrip.Statement i :=
  roundTrip_of (f := .si) he
    (fun _ => by simp [formatOfBits, Enc.bits, packSI_len, packSI_major, hm, hk, hf])
    (fun _ => by simp [parse, Enc.bits, packSI_major, parseSI_pack, hm])
    hi (by simp [lengthOfBits, Enc.bits, packSI_len, Enc.parcels])

/-- The round trip of an entry in format SW. -/
theorem roundTrip_ofSW {i : Instr} {m n : Nat} {f : FSW} (he : encOf i = some (.sw m n f))
    (hm : (BitVec.ofNat 6 m).toNat = m) (hn : (BitVec.ofNat 4 n).toNat = n) (hk : majorKnown m = true)
    (hf : formatOf m 2 = some .sw) (hi : i.wf = true → instrOf (.sw m n f) = .ok i) :
    RoundTrip.Statement i :=
  roundTrip_of (f := .sw) he
    (fun _ => by simp [formatOfBits, Enc.bits, packSW_len, packSW_major, hm, hk, hf])
    (fun _ => by simp [parse, Enc.bits, packSW_major, packSW_fn, hn, parseSW_pack, hm])
    hi (by simp [lengthOfBits, Enc.bits, packSW_len, Enc.parcels])

/-- The round trip of an entry in format X3. -/
theorem roundTrip_ofX3 {i : Instr} {m n : Nat} {f : FX3} (he : encOf i = some (.x3 m n f))
    (hm : (BitVec.ofNat 6 m).toNat = m) (hn : (BitVec.ofNat 4 n).toNat = n) (hk : majorKnown m = true)
    (hf : formatOf m 3 = some .x3) (hi : i.wf = true → instrOf (.x3 m n f) = .ok i) :
    RoundTrip.Statement i :=
  roundTrip_of (f := .x3) he
    (fun _ => by simp [formatOfBits, Enc.bits, packX3_len, packX3_major, hm, hk, hf])
    (fun _ => by simp [parse, Enc.bits, packX3_major, packX3_fn, hn, parseX3_pack, hm])
    hi (by simp [lengthOfBits, Enc.bits, packX3_len, Enc.parcels])

/-- The round trip of an entry in format B. -/
theorem roundTrip_ofB {i : Instr} {m : Nat} {f : FB} (he : encOf i = some (.b m f))
    (hm : (BitVec.ofNat 6 m).toNat = m) (hk : majorKnown m = true)
    (hf : formatOf m 1 = some .b) (hi : i.wf = true → instrOf (.b m f) = .ok i) :
    RoundTrip.Statement i :=
  roundTrip_of (f := .b) he
    (fun _ => by simp [formatOfBits, Enc.bits, packB_len, packB_major, hm, hk, hf])
    (fun _ => by simp [parse, Enc.bits, packB_major, parseB_pack, hm])
    hi (by simp [lengthOfBits, Enc.bits, packB_len, Enc.parcels])

/-- The round trip of an entry in format BC. -/
theorem roundTrip_ofBC {i : Instr} {m : Nat} {f : FBC} (he : encOf i = some (.bc m f))
    (hm : (BitVec.ofNat 6 m).toNat = m) (hk : majorKnown m = true)
    (hf : formatOf m 1 = some .bc) (hi : i.wf = true → instrOf (.bc m f) = .ok i) :
    RoundTrip.Statement i :=
  roundTrip_of (f := .bc) he
    (fun _ => by simp [formatOfBits, Enc.bits, packBC_len, packBC_major, hm, hk, hf])
    (fun _ => by simp [parse, Enc.bits, packBC_major, parseBC_pack, hm])
    hi (by simp [lengthOfBits, Enc.bits, packBC_len, Enc.parcels])

/-- The round trip of an entry in format M. -/
theorem roundTrip_ofM {i : Instr} {m n : Nat} {f : FM} (he : encOf i = some (.m m n f))
    (hm : (BitVec.ofNat 6 m).toNat = m) (hn : (BitVec.ofNat 4 n).toNat = n) (hk : majorKnown m = true)
    (hf : formatOf m 2 = some .m) (hi : i.wf = true → instrOf (.m m n f) = .ok i) :
    RoundTrip.Statement i :=
  roundTrip_of (f := .m) he
    (fun _ => by simp [formatOfBits, Enc.bits, packM_len, packM_major, hm, hk, hf])
    (fun _ => by simp [parse, Enc.bits, packM_major, packM_fn, hn, parseM_pack, hm])
    hi (by simp [lengthOfBits, Enc.bits, packM_len, Enc.parcels])

/-- The round trip of an entry in format V. -/
theorem roundTrip_ofV {i : Instr} {m n : Nat} {f : FV} (he : encOf i = some (.v m n f))
    (hm : (BitVec.ofNat 6 m).toNat = m) (hn : (BitVec.ofNat 6 n).toNat = n) (hk : majorKnown m = true)
    (hf : formatOf m 2 = some .v) (hi : i.wf = true → instrOf (.v m n f) = .ok i) :
    RoundTrip.Statement i :=
  roundTrip_of (f := .v) he
    (fun _ => by simp [formatOfBits, Enc.bits, packV_len, packV_major, hm, hk, hf])
    (fun _ => by simp [parse, Enc.bits, packV_major, packV_fn, hn, parseV_pack, hm])
    hi (by simp [lengthOfBits, Enc.bits, packV_len, Enc.parcels])

/-- The round trip of an entry in format VM. -/
theorem roundTrip_ofVM {i : Instr} {m n : Nat} {f : FVM} (he : encOf i = some (.vm m n f))
    (hm : (BitVec.ofNat 6 m).toNat = m) (hn : (BitVec.ofNat 4 n).toNat = n) (hk : majorKnown m = true)
    (hf : formatOf m 2 = some .vm) (hi : i.wf = true → instrOf (.vm m n f) = .ok i) :
    RoundTrip.Statement i :=
  roundTrip_of (f := .vm) he
    (fun _ => by simp [formatOfBits, Enc.bits, packVM_len, packVM_major, hm, hk, hf])
    (fun _ => by simp [parse, Enc.bits, packVM_major, packVM_fn, hn, parseVM_pack, hm])
    hi (by simp [lengthOfBits, Enc.bits, packVM_len, Enc.parcels])

/-- The round trip of an entry in format VV. -/
theorem roundTrip_ofVV {i : Instr} {m n : Nat} {f : FVV} (he : encOf i = some (.vv m n f))
    (hm : (BitVec.ofNat 6 m).toNat = m) (hn : (BitVec.ofNat 4 n).toNat = n) (hk : majorKnown m = true)
    (hf : formatOf m 2 = some .vv) (hi : i.wf = true → instrOf (.vv m n f) = .ok i) :
    RoundTrip.Statement i :=
  roundTrip_of (f := .vv) he
    (fun _ => by simp [formatOfBits, Enc.bits, packVV_len, packVV_major, hm, hk, hf])
    (fun _ => by simp [parse, Enc.bits, packVV_major, packVV_fn, hn, parseVV_pack, hm])
    hi (by simp [lengthOfBits, Enc.bits, packVV_len, Enc.parcels])

/-- The round trip of an entry in format E2. -/
theorem roundTrip_ofE2 {i : Instr} {m n : Nat} {f : FE2} (he : encOf i = some (.e2 m n f))
    (hm : (BitVec.ofNat 6 m).toNat = m) (hn : (BitVec.ofNat 3 n).toNat = n) (hk : majorKnown m = true)
    (hf : formatOf m 2 = some .e2) (hi : i.wf = true → instrOf (.e2 m n f) = .ok i) :
    RoundTrip.Statement i :=
  roundTrip_of (f := .e2) he
    (fun _ => by simp [formatOfBits, Enc.bits, packE2_len, packE2_major, hm, hk, hf])
    (fun _ => by simp [parse, Enc.bits, packE2_major, packE2_fn, hn, parseE2_pack, hm])
    hi (by simp [lengthOfBits, Enc.bits, packE2_len, Enc.parcels])

/-- The round trip of an entry in format E3. -/
theorem roundTrip_ofE3 {i : Instr} {m n : Nat} {f : FE3} (he : encOf i = some (.e3 m n f))
    (hm : (BitVec.ofNat 6 m).toNat = m) (hn : (BitVec.ofNat 3 n).toNat = n) (hk : majorKnown m = true)
    (hf : formatOf m 3 = some .e3) (hi : i.wf = true → instrOf (.e3 m n f) = .ok i) :
    RoundTrip.Statement i :=
  roundTrip_of (f := .e3) he
    (fun _ => by simp [formatOfBits, Enc.bits, packE3_len, packE3_major, hm, hk, hf])
    (fun _ => by simp [parse, Enc.bits, packE3_major, packE3_fn, hn, parseE3_pack, hm])
    hi (by simp [lengthOfBits, Enc.bits, packE3_len, Enc.parcels])

theorem RoundTrip.add (f : FS) : RoundTrip.Statement (.add f) := roundTrip_ofS rfl rfl rfl rfl rfl fun _ => rfl

theorem RoundTrip.addSw (f : FSW) : RoundTrip.Statement (.addSw f) := roundTrip_ofSW rfl rfl rfl rfl rfl fun _ => rfl

theorem RoundTrip.sub (f : FS) : RoundTrip.Statement (.sub f) := roundTrip_ofS rfl rfl rfl rfl rfl fun _ => rfl

theorem RoundTrip.subSw (f : FSW) : RoundTrip.Statement (.subSw f) := roundTrip_ofSW rfl rfl rfl rfl rfl fun _ => rfl

theorem RoundTrip.mul (f : FS) : RoundTrip.Statement (.mul f) := roundTrip_ofS rfl rfl rfl rfl rfl fun _ => rfl

theorem RoundTrip.mulSw (f : FSW) : RoundTrip.Statement (.mulSw f) := roundTrip_ofSW rfl rfl rfl rfl rfl fun _ => rfl

theorem RoundTrip.mulh (f : FS) : RoundTrip.Statement (.mulh f) := roundTrip_ofS rfl rfl rfl rfl rfl fun _ => rfl

theorem RoundTrip.mulhSw (f : FSW) : RoundTrip.Statement (.mulhSw f) := roundTrip_ofSW rfl rfl rfl rfl rfl fun _ => rfl

theorem RoundTrip.div (f : FS) : RoundTrip.Statement (.div f) := roundTrip_ofS rfl rfl rfl rfl rfl fun _ => rfl

theorem RoundTrip.divSw (f : FSW) : RoundTrip.Statement (.divSw f) := roundTrip_ofSW rfl rfl rfl rfl rfl fun _ => rfl

theorem RoundTrip.rem (f : FS) : RoundTrip.Statement (.rem f) := roundTrip_ofS rfl rfl rfl rfl rfl fun _ => rfl

theorem RoundTrip.remSw (f : FSW) : RoundTrip.Statement (.remSw f) := roundTrip_ofSW rfl rfl rfl rfl rfl fun _ => rfl

theorem RoundTrip.and (f : FS) : RoundTrip.Statement (.and f) := roundTrip_ofS rfl rfl rfl rfl rfl fun _ => rfl

theorem RoundTrip.andSw (f : FSW) : RoundTrip.Statement (.andSw f) := roundTrip_ofSW rfl rfl rfl rfl rfl fun _ => rfl

theorem RoundTrip.or (f : FS) : RoundTrip.Statement (.or f) := roundTrip_ofS rfl rfl rfl rfl rfl fun _ => rfl

theorem RoundTrip.orSw (f : FSW) : RoundTrip.Statement (.orSw f) := roundTrip_ofSW rfl rfl rfl rfl rfl fun _ => rfl

theorem RoundTrip.xor (f : FS) : RoundTrip.Statement (.xor f) := roundTrip_ofS rfl rfl rfl rfl rfl fun _ => rfl

theorem RoundTrip.xorSw (f : FSW) : RoundTrip.Statement (.xorSw f) := roundTrip_ofSW rfl rfl rfl rfl rfl fun _ => rfl

theorem RoundTrip.andn (f : FS) : RoundTrip.Statement (.andn f) := roundTrip_ofS rfl rfl rfl rfl rfl fun _ => rfl

theorem RoundTrip.andnSw (f : FSW) : RoundTrip.Statement (.andnSw f) := roundTrip_ofSW rfl rfl rfl rfl rfl fun _ => rfl

theorem RoundTrip.shl (f : FS) : RoundTrip.Statement (.shl f) := roundTrip_ofS rfl rfl rfl rfl rfl fun _ => rfl

theorem RoundTrip.shlSw (f : FSW) : RoundTrip.Statement (.shlSw f) := roundTrip_ofSW rfl rfl rfl rfl rfl fun _ => rfl

theorem RoundTrip.shr (f : FS) : RoundTrip.Statement (.shr f) := roundTrip_ofS rfl rfl rfl rfl rfl fun _ => rfl

theorem RoundTrip.shrSw (f : FSW) : RoundTrip.Statement (.shrSw f) := roundTrip_ofSW rfl rfl rfl rfl rfl fun _ => rfl

theorem RoundTrip.shra (f : FS) : RoundTrip.Statement (.shra f) := roundTrip_ofS rfl rfl rfl rfl rfl fun _ => rfl

theorem RoundTrip.shraSw (f : FSW) : RoundTrip.Statement (.shraSw f) := roundTrip_ofSW rfl rfl rfl rfl rfl fun _ => rfl

theorem RoundTrip.rotr (f : FS) : RoundTrip.Statement (.rotr f) := roundTrip_ofS rfl rfl rfl rfl rfl fun _ => rfl

theorem RoundTrip.rotrSw (f : FSW) : RoundTrip.Statement (.rotrSw f) := roundTrip_ofSW rfl rfl rfl rfl rfl fun _ => rfl

theorem RoundTrip.min (f : FS) : RoundTrip.Statement (.min f) := roundTrip_ofS rfl rfl rfl rfl rfl fun _ => rfl

theorem RoundTrip.minSw (f : FSW) : RoundTrip.Statement (.minSw f) := roundTrip_ofSW rfl rfl rfl rfl rfl fun _ => rfl

theorem RoundTrip.max (f : FS) : RoundTrip.Statement (.max f) := roundTrip_ofS rfl rfl rfl rfl rfl fun _ => rfl

theorem RoundTrip.maxSw (f : FSW) : RoundTrip.Statement (.maxSw f) := roundTrip_ofSW rfl rfl rfl rfl rfl fun _ => rfl

theorem RoundTrip.clz (f : FS) : RoundTrip.Statement (.clz f) := roundTrip_ofS rfl rfl rfl rfl rfl fun _ => rfl

theorem RoundTrip.clzSw (f : FSW) : RoundTrip.Statement (.clzSw f) := roundTrip_ofSW rfl rfl rfl rfl rfl fun _ => rfl

theorem RoundTrip.ctz (f : FS) : RoundTrip.Statement (.ctz f) := roundTrip_ofS rfl rfl rfl rfl rfl fun _ => rfl

theorem RoundTrip.ctzSw (f : FSW) : RoundTrip.Statement (.ctzSw f) := roundTrip_ofSW rfl rfl rfl rfl rfl fun _ => rfl

theorem RoundTrip.popc (f : FS) : RoundTrip.Statement (.popc f) := roundTrip_ofS rfl rfl rfl rfl rfl fun _ => rfl

theorem RoundTrip.popcSw (f : FSW) : RoundTrip.Statement (.popcSw f) := roundTrip_ofSW rfl rfl rfl rfl rfl fun _ => rfl

theorem RoundTrip.sext (f : FSW) : RoundTrip.Statement (.sext f) := roundTrip_ofSW rfl rfl rfl rfl rfl fun _ => rfl

theorem RoundTrip.zext (f : FSW) : RoundTrip.Statement (.zext f) := roundTrip_ofSW rfl rfl rfl rfl rfl fun _ => rfl

theorem RoundTrip.setc (f : FSW) : RoundTrip.Statement (.setc f) := roundTrip_ofSW rfl rfl rfl rfl rfl fun _ => rfl

theorem RoundTrip.sel (f : FSW) : RoundTrip.Statement (.sel f) := roundTrip_ofSW rfl rfl rfl rfl rfl fun _ => rfl

theorem RoundTrip.lea (f : FSW) : RoundTrip.Statement (.lea f) := roundTrip_ofSW rfl rfl rfl rfl rfl fun _ => rfl

theorem RoundTrip.bfx (f : FSW) : RoundTrip.Statement (.bfx f) := roundTrip_ofSW rfl rfl rfl rfl rfl fun _ => rfl

theorem RoundTrip.bfi (f : FSW) : RoundTrip.Statement (.bfi f) := roundTrip_ofSW rfl rfl rfl rfl rfl fun _ => rfl

theorem RoundTrip.addi (f : FSI) : RoundTrip.Statement (.addi f) := roundTrip_ofSI rfl rfl rfl rfl fun _ => rfl

theorem RoundTrip.addiSw (f : FSW) : RoundTrip.Statement (.addiSw f) := roundTrip_ofSW rfl rfl rfl rfl rfl fun _ => rfl

theorem RoundTrip.andi (f : FSI) : RoundTrip.Statement (.andi f) := roundTrip_ofSI rfl rfl rfl rfl fun _ => rfl

theorem RoundTrip.andiSw (f : FSW) : RoundTrip.Statement (.andiSw f) := roundTrip_ofSW rfl rfl rfl rfl rfl fun _ => rfl

theorem RoundTrip.ori (f : FSI) : RoundTrip.Statement (.ori f) := roundTrip_ofSI rfl rfl rfl rfl fun _ => rfl

theorem RoundTrip.oriSw (f : FSW) : RoundTrip.Statement (.oriSw f) := roundTrip_ofSW rfl rfl rfl rfl rfl fun _ => rfl

theorem RoundTrip.xori (f : FSI) : RoundTrip.Statement (.xori f) := roundTrip_ofSI rfl rfl rfl rfl fun _ => rfl

theorem RoundTrip.xoriSw (f : FSW) : RoundTrip.Statement (.xoriSw f) := roundTrip_ofSW rfl rfl rfl rfl rfl fun _ => rfl

theorem RoundTrip.movi (f : FSI) : RoundTrip.Statement (.movi f) := roundTrip_ofSI rfl rfl rfl rfl fun _ => rfl

theorem RoundTrip.moviSw (f : FSW) : RoundTrip.Statement (.moviSw f) := roundTrip_ofSW rfl rfl rfl rfl rfl fun _ => rfl

theorem RoundTrip.moviX3 (f : FX3) : RoundTrip.Statement (.moviX3 f) := roundTrip_ofX3 rfl rfl rfl rfl rfl fun _ => rfl

theorem RoundTrip.br (f : FB) : RoundTrip.Statement (.br f) := roundTrip_ofB rfl rfl rfl rfl fun _ => rfl

theorem RoundTrip.call (f : FB) : RoundTrip.Statement (.call f) := roundTrip_ofB rfl rfl rfl rfl fun _ => rfl

theorem RoundTrip.bc (f : FBC) : RoundTrip.Statement (.bc f) := roundTrip_ofBC rfl rfl rfl rfl fun _ => rfl

theorem RoundTrip.jmp (f : FS) : RoundTrip.Statement (.jmp f) := roundTrip_ofS rfl rfl rfl rfl rfl fun _ => rfl

theorem RoundTrip.ret (f : FS) : RoundTrip.Statement (.ret f) := roundTrip_ofS rfl rfl rfl rfl rfl fun _ => rfl

theorem RoundTrip.lstart (f : FSW) : RoundTrip.Statement (.lstart f) := roundTrip_ofSW rfl rfl rfl rfl rfl fun _ => rfl

theorem RoundTrip.lnext (f : FB) : RoundTrip.Statement (.lnext f) := roundTrip_ofB rfl rfl rfl rfl fun _ => rfl

theorem RoundTrip.lexit (f : FB) : RoundTrip.Statement (.lexit f) := roundTrip_ofB rfl rfl rfl rfl fun _ => rfl

theorem RoundTrip.endTask (f : FS) : RoundTrip.Statement (.endTask f) := roundTrip_ofS rfl rfl rfl rfl rfl fun _ => rfl

theorem RoundTrip.endTaskSw (f : FSW) : RoundTrip.Statement (.endTaskSw f) := roundTrip_ofSW rfl rfl rfl rfl rfl fun _ => rfl

theorem RoundTrip.spawn (f : FS) : RoundTrip.Statement (.spawn f) := roundTrip_ofS rfl rfl rfl rfl rfl fun _ => rfl

theorem RoundTrip.spawnSw (f : FSW) : RoundTrip.Statement (.spawnSw f) := roundTrip_ofSW rfl rfl rfl rfl rfl fun _ => rfl

theorem RoundTrip.yield (f : FS) : RoundTrip.Statement (.yield f) := roundTrip_ofS rfl rfl rfl rfl rfl fun _ => rfl

theorem RoundTrip.yieldSw (f : FSW) : RoundTrip.Statement (.yieldSw f) := roundTrip_ofSW rfl rfl rfl rfl rfl fun _ => rfl

theorem RoundTrip.trap (f : FS) : RoundTrip.Statement (.trap f) := roundTrip_ofS rfl rfl rfl rfl rfl fun _ => rfl

theorem RoundTrip.trapSw (f : FSW) : RoundTrip.Statement (.trapSw f) := roundTrip_ofSW rfl rfl rfl rfl rfl fun _ => rfl

theorem RoundTrip.rdcr (f : FSW) : RoundTrip.Statement (.rdcr f) := roundTrip_ofSW rfl rfl rfl rfl rfl fun _ => rfl

theorem RoundTrip.wrcr (f : FSW) : RoundTrip.Statement (.wrcr f) := roundTrip_ofSW rfl rfl rfl rfl rfl fun _ => rfl

theorem RoundTrip.nop (f : FS) : RoundTrip.Statement (.nop f) := roundTrip_ofS rfl rfl rfl rfl rfl fun _ => rfl

theorem RoundTrip.nopSw (f : FSW) : RoundTrip.Statement (.nopSw f) := roundTrip_ofSW rfl rfl rfl rfl rfl fun _ => rfl

theorem RoundTrip.breakTask (f : FS) : RoundTrip.Statement (.breakTask f) := roundTrip_ofS rfl rfl rfl rfl rfl fun _ => rfl

theorem RoundTrip.breakTaskSw (f : FSW) : RoundTrip.Statement (.breakTaskSw f) := roundTrip_ofSW rfl rfl rfl rfl rfl fun _ => rfl

theorem RoundTrip.fadd (ty : FTy) (f : FS) : RoundTrip.Statement (.fadd ty f) := by
  cases ty <;> exact roundTrip_ofS rfl rfl rfl rfl rfl fun _ => rfl

theorem RoundTrip.faddSw (ty : FTy) (f : FSW) : RoundTrip.Statement (.faddSw ty f) := by
  cases ty <;> exact roundTrip_ofSW rfl rfl rfl rfl rfl fun _ => rfl

theorem RoundTrip.fsub (ty : FTy) (f : FS) : RoundTrip.Statement (.fsub ty f) := by
  cases ty <;> exact roundTrip_ofS rfl rfl rfl rfl rfl fun _ => rfl

theorem RoundTrip.fsubSw (ty : FTy) (f : FSW) : RoundTrip.Statement (.fsubSw ty f) := by
  cases ty <;> exact roundTrip_ofSW rfl rfl rfl rfl rfl fun _ => rfl

theorem RoundTrip.fmul (ty : FTy) (f : FS) : RoundTrip.Statement (.fmul ty f) := by
  cases ty <;> exact roundTrip_ofS rfl rfl rfl rfl rfl fun _ => rfl

theorem RoundTrip.fmulSw (ty : FTy) (f : FSW) : RoundTrip.Statement (.fmulSw ty f) := by
  cases ty <;> exact roundTrip_ofSW rfl rfl rfl rfl rfl fun _ => rfl

theorem RoundTrip.fdiv (ty : FTy) (f : FS) : RoundTrip.Statement (.fdiv ty f) := by
  cases ty <;> exact roundTrip_ofS rfl rfl rfl rfl rfl fun _ => rfl

theorem RoundTrip.fdivSw (ty : FTy) (f : FSW) : RoundTrip.Statement (.fdivSw ty f) := by
  cases ty <;> exact roundTrip_ofSW rfl rfl rfl rfl rfl fun _ => rfl

theorem RoundTrip.fsqrt (ty : FTy) (f : FS) : RoundTrip.Statement (.fsqrt ty f) := by
  cases ty <;> exact roundTrip_ofS rfl rfl rfl rfl rfl fun _ => rfl

theorem RoundTrip.fsqrtSw (ty : FTy) (f : FSW) : RoundTrip.Statement (.fsqrtSw ty f) := by
  cases ty <;> exact roundTrip_ofSW rfl rfl rfl rfl rfl fun _ => rfl

theorem RoundTrip.fmin (ty : FTy) (f : FS) : RoundTrip.Statement (.fmin ty f) := by
  cases ty <;> exact roundTrip_ofS rfl rfl rfl rfl rfl fun _ => rfl

theorem RoundTrip.fminSw (ty : FTy) (f : FSW) : RoundTrip.Statement (.fminSw ty f) := by
  cases ty <;> exact roundTrip_ofSW rfl rfl rfl rfl rfl fun _ => rfl

theorem RoundTrip.fmax (ty : FTy) (f : FS) : RoundTrip.Statement (.fmax ty f) := by
  cases ty <;> exact roundTrip_ofS rfl rfl rfl rfl rfl fun _ => rfl

theorem RoundTrip.fmaxSw (ty : FTy) (f : FSW) : RoundTrip.Statement (.fmaxSw ty f) := by
  cases ty <;> exact roundTrip_ofSW rfl rfl rfl rfl rfl fun _ => rfl

theorem RoundTrip.fsetc (ty : FTy) (f : FSW) : RoundTrip.Statement (.fsetc ty f) := by
  cases ty <;> exact roundTrip_ofSW rfl rfl rfl rfl rfl fun _ => rfl

theorem RoundTrip.fcvt (ty : FTy) (f : FSW) : RoundTrip.Statement (.fcvt ty f) := by
  cases ty <;> exact roundTrip_ofSW rfl rfl rfl rfl rfl fun _ => rfl

theorem RoundTrip.ffma (ty : FTy) (f : FSW) : RoundTrip.Statement (.ffma ty f) := by
  cases ty <;> exact roundTrip_ofSW rfl rfl rfl rfl rfl fun _ => rfl

theorem RoundTrip.ld (fn : BitVec 4) (f : FM) : RoundTrip.Statement (.ld fn f) :=
  roundTrip_ofM rfl rfl (by simp) rfl rfl fun h => by
    have h' : fn.toNat < 7 := by
      simp [Instr.wf] at h
      omega
    simp [instrOf, instrOfM, h']

theorem RoundTrip.st (fn : BitVec 4) (f : FM) : RoundTrip.Statement (.st fn f) :=
  roundTrip_ofM rfl rfl (by simp) rfl rfl fun h => by
    have h' : fn.toNat < 4 := by
      simp [Instr.wf] at h
      omega
    simp [instrOf, instrOfM, h']

theorem RoundTrip.mark (f : FE2) : RoundTrip.Statement (.mark f) := roundTrip_ofE2 rfl rfl rfl rfl rfl fun _ => rfl

theorem RoundTrip.pf (f : FE2) : RoundTrip.Statement (.pf f) := roundTrip_ofE2 rfl rfl rfl rfl rfl fun _ => rfl

theorem RoundTrip.pfE3 (f : FE3) : RoundTrip.Statement (.pfE3 f) := roundTrip_ofE3 rfl rfl rfl rfl rfl fun _ => rfl

theorem RoundTrip.sqld (f : FE3) : RoundTrip.Statement (.sqld f) := roundTrip_ofE3 rfl rfl rfl rfl rfl fun _ => rfl

theorem RoundTrip.vadd (f : FV) : RoundTrip.Statement (.vadd f) := roundTrip_ofV rfl rfl rfl rfl rfl fun _ => rfl

theorem RoundTrip.vsub (f : FV) : RoundTrip.Statement (.vsub f) := roundTrip_ofV rfl rfl rfl rfl rfl fun _ => rfl

theorem RoundTrip.vmul (f : FV) : RoundTrip.Statement (.vmul f) := roundTrip_ofV rfl rfl rfl rfl rfl fun _ => rfl

theorem RoundTrip.vfma (f : FV) : RoundTrip.Statement (.vfma f) := roundTrip_ofV rfl rfl rfl rfl rfl fun _ => rfl

theorem RoundTrip.vfms (f : FV) : RoundTrip.Statement (.vfms f) := roundTrip_ofV rfl rfl rfl rfl rfl fun _ => rfl

theorem RoundTrip.vmin (f : FV) : RoundTrip.Statement (.vmin f) := roundTrip_ofV rfl rfl rfl rfl rfl fun _ => rfl

theorem RoundTrip.vmax (f : FV) : RoundTrip.Statement (.vmax f) := roundTrip_ofV rfl rfl rfl rfl rfl fun _ => rfl

theorem RoundTrip.vabs (f : FV) : RoundTrip.Statement (.vabs f) := roundTrip_ofV rfl rfl rfl rfl rfl fun _ => rfl

theorem RoundTrip.vneg (f : FV) : RoundTrip.Statement (.vneg f) := roundTrip_ofV rfl rfl rfl rfl rfl fun _ => rfl

theorem RoundTrip.vcpys (f : FV) : RoundTrip.Statement (.vcpys f) := roundTrip_ofV rfl rfl rfl rfl rfl fun _ => rfl

theorem RoundTrip.vrcp (f : FV) : RoundTrip.Statement (.vrcp f) := roundTrip_ofV rfl rfl rfl rfl rfl fun _ => rfl

theorem RoundTrip.vrsq (f : FV) : RoundTrip.Statement (.vrsq f) := roundTrip_ofV rfl rfl rfl rfl rfl fun _ => rfl

theorem RoundTrip.vexp2 (f : FV) : RoundTrip.Statement (.vexp2 f) := roundTrip_ofV rfl rfl rfl rfl rfl fun _ => rfl

theorem RoundTrip.vlog2 (f : FV) : RoundTrip.Statement (.vlog2 f) := roundTrip_ofV rfl rfl rfl rfl rfl fun _ => rfl

theorem RoundTrip.vtanh (f : FV) : RoundTrip.Statement (.vtanh f) := roundTrip_ofV rfl rfl rfl rfl rfl fun _ => rfl

theorem RoundTrip.vsin (f : FV) : RoundTrip.Statement (.vsin f) := roundTrip_ofV rfl rfl rfl rfl rfl fun _ => rfl

theorem RoundTrip.vcos (f : FV) : RoundTrip.Statement (.vcos f) := roundTrip_ofV rfl rfl rfl rfl rfl fun _ => rfl

theorem RoundTrip.viadd (f : FV) : RoundTrip.Statement (.viadd f) := roundTrip_ofV rfl rfl rfl rfl rfl fun _ => rfl

theorem RoundTrip.visub (f : FV) : RoundTrip.Statement (.visub f) := roundTrip_ofV rfl rfl rfl rfl rfl fun _ => rfl

theorem RoundTrip.vimul (f : FV) : RoundTrip.Statement (.vimul f) := roundTrip_ofV rfl rfl rfl rfl rfl fun _ => rfl

theorem RoundTrip.vimad (f : FV) : RoundTrip.Statement (.vimad f) := roundTrip_ofV rfl rfl rfl rfl rfl fun _ => rfl

theorem RoundTrip.vand (f : FV) : RoundTrip.Statement (.vand f) := roundTrip_ofV rfl rfl rfl rfl rfl fun _ => rfl

theorem RoundTrip.vor (f : FV) : RoundTrip.Statement (.vor f) := roundTrip_ofV rfl rfl rfl rfl rfl fun _ => rfl

theorem RoundTrip.vxor (f : FV) : RoundTrip.Statement (.vxor f) := roundTrip_ofV rfl rfl rfl rfl rfl fun _ => rfl

theorem RoundTrip.vnot (f : FV) : RoundTrip.Statement (.vnot f) := roundTrip_ofV rfl rfl rfl rfl rfl fun _ => rfl

theorem RoundTrip.vshl (f : FV) : RoundTrip.Statement (.vshl f) := roundTrip_ofV rfl rfl rfl rfl rfl fun _ => rfl

theorem RoundTrip.vshr (f : FV) : RoundTrip.Statement (.vshr f) := roundTrip_ofV rfl rfl rfl rfl rfl fun _ => rfl

theorem RoundTrip.vshra (f : FV) : RoundTrip.Statement (.vshra f) := roundTrip_ofV rfl rfl rfl rfl rfl fun _ => rfl

theorem RoundTrip.vimin (f : FV) : RoundTrip.Statement (.vimin f) := roundTrip_ofV rfl rfl rfl rfl rfl fun _ => rfl

theorem RoundTrip.vimax (f : FV) : RoundTrip.Statement (.vimax f) := roundTrip_ofV rfl rfl rfl rfl rfl fun _ => rfl

theorem RoundTrip.viabs (f : FV) : RoundTrip.Statement (.viabs f) := roundTrip_ofV rfl rfl rfl rfl rfl fun _ => rfl

theorem RoundTrip.vcmp (f : FV) : RoundTrip.Statement (.vcmp f) := roundTrip_ofV rfl rfl rfl rfl rfl fun _ => rfl

theorem RoundTrip.vsel (f : FV) : RoundTrip.Statement (.vsel f) := roundTrip_ofV rfl rfl rfl rfl rfl fun _ => rfl

theorem RoundTrip.vcvt (f : FV) : RoundTrip.Statement (.vcvt f) := roundTrip_ofV rfl rfl rfl rfl rfl fun _ => rfl

theorem RoundTrip.vqnt (f : FV) : RoundTrip.Statement (.vqnt f) := roundTrip_ofV rfl rfl rfl rfl rfl fun _ => rfl

theorem RoundTrip.vdqt (f : FV) : RoundTrip.Statement (.vdqt f) := roundTrip_ofV rfl rfl rfl rfl rfl fun _ => rfl

theorem RoundTrip.vrsum (f : FV) : RoundTrip.Statement (.vrsum f) := roundTrip_ofV rfl rfl rfl rfl rfl fun _ => rfl

theorem RoundTrip.vrmax (f : FV) : RoundTrip.Statement (.vrmax f) := roundTrip_ofV rfl rfl rfl rfl rfl fun _ => rfl

theorem RoundTrip.vrmin (f : FV) : RoundTrip.Statement (.vrmin f) := roundTrip_ofV rfl rfl rfl rfl rfl fun _ => rfl

theorem RoundTrip.vscan (f : FV) : RoundTrip.Statement (.vscan f) := roundTrip_ofV rfl rfl rfl rfl rfl fun _ => rfl

theorem RoundTrip.vtrn (f : FV) : RoundTrip.Statement (.vtrn f) := roundTrip_ofV rfl rfl rfl rfl rfl fun _ => rfl

theorem RoundTrip.vbcr (f : FV) : RoundTrip.Statement (.vbcr f) := roundTrip_ofV rfl rfl rfl rfl rfl fun _ => rfl

theorem RoundTrip.vbcc (f : FV) : RoundTrip.Statement (.vbcc f) := roundTrip_ofV rfl rfl rfl rfl rfl fun _ => rfl

theorem RoundTrip.vperm (f : FV) : RoundTrip.Statement (.vperm f) := roundTrip_ofV rfl rfl rfl rfl rfl fun _ => rfl

theorem RoundTrip.vsld (f : FV) : RoundTrip.Statement (.vsld f) := roundTrip_ofV rfl rfl rfl rfl rfl fun _ => rfl

theorem RoundTrip.vrot (f : FV) : RoundTrip.Statement (.vrot f) := roundTrip_ofV rfl rfl rfl rfl rfl fun _ => rfl

theorem RoundTrip.vmov (f : FV) : RoundTrip.Statement (.vmov f) :=
  roundTrip_ofV rfl rfl rfl rfl rfl fun h => by
    have h' : f.mod = 0 := by
      simp [Instr.wf] at h
      exact h.2
    simp [instrOf, instrOfV, h']

theorem RoundTrip.vmovWhole (f : FV) : RoundTrip.Statement (.vmovWhole f) :=
  roundTrip_ofV rfl rfl rfl rfl rfl fun h => by
    have h' : f.mod = 1 := by
      simp [Instr.wf] at h
      exact h.1.1.1.2
    simp [instrOf, instrOfV, h']

theorem RoundTrip.vspl (f : FV) : RoundTrip.Statement (.vspl f) := roundTrip_ofV rfl rfl rfl rfl rfl fun _ => rfl

theorem RoundTrip.vext (f : FV) : RoundTrip.Statement (.vext f) := roundTrip_ofV rfl rfl rfl rfl rfl fun _ => rfl

theorem RoundTrip.vins (f : FV) : RoundTrip.Statement (.vins f) := roundTrip_ofV rfl rfl rfl rfl rfl fun _ => rfl

theorem RoundTrip.vidx (f : FV) : RoundTrip.Statement (.vidx f) := roundTrip_ofV rfl rfl rfl rfl rfl fun _ => rfl

theorem RoundTrip.pset (f : FV) : RoundTrip.Statement (.pset f) := roundTrip_ofV rfl rfl rfl rfl rfl fun _ => rfl

theorem RoundTrip.pwhl (f : FV) : RoundTrip.Statement (.pwhl f) := roundTrip_ofV rfl rfl rfl rfl rfl fun _ => rfl

theorem RoundTrip.pmov (f : FV) : RoundTrip.Statement (.pmov f) := roundTrip_ofV rfl rfl rfl rfl rfl fun _ => rfl

theorem RoundTrip.vsets (f : FV) : RoundTrip.Statement (.vsets f) := roundTrip_ofV rfl rfl rfl rfl rfl fun _ => rfl

theorem RoundTrip.vld (f : FVM) : RoundTrip.Statement (.vld f) := roundTrip_ofVM rfl rfl rfl rfl rfl fun _ => rfl

theorem RoundTrip.vst (f : FVM) : RoundTrip.Statement (.vst f) := roundTrip_ofVM rfl rfl rfl rfl rfl fun _ => rfl

theorem RoundTrip.vldg (f : FVM) : RoundTrip.Statement (.vldg f) := roundTrip_ofVM rfl rfl rfl rfl rfl fun _ => rfl

theorem RoundTrip.vstx (f : FVM) : RoundTrip.Statement (.vstx f) := roundTrip_ofVM rfl rfl rfl rfl rfl fun _ => rfl

theorem RoundTrip.vldb (f : FVM) : RoundTrip.Statement (.vldb f) := roundTrip_ofVM rfl rfl rfl rfl rfl fun _ => rfl

theorem RoundTrip.vldv (f : FVV) : RoundTrip.Statement (.vldv f) := roundTrip_ofVV rfl rfl rfl rfl rfl fun _ => rfl

theorem RoundTrip.vstv (f : FVV) : RoundTrip.Statement (.vstv f) := roundTrip_ofVV rfl rfl rfl rfl rfl fun _ => rfl

theorem RoundTrip.vqry (f : FVV) : RoundTrip.Statement (.vqry f) := roundTrip_ofVV rfl rfl rfl rfl rfl fun _ => rfl

theorem RoundTrip.vrelv (f : FVV) : RoundTrip.Statement (.vrelv f) := roundTrip_ofVV rfl rfl rfl rfl rfl fun _ => rfl

theorem RoundTrip.mrec (f : FE3) : RoundTrip.Statement (.mrec f) := roundTrip_ofE3 rfl rfl rfl rfl rfl fun _ => rfl

theorem RoundTrip.mldb (f : FE3) : RoundTrip.Statement (.mldb f) := roundTrip_ofE3 rfl rfl rfl rfl rfl fun _ => rfl

theorem RoundTrip.mma (f : FE3) : RoundTrip.Statement (.mma f) := roundTrip_ofE3 rfl rfl rfl rfl rfl fun _ => rfl

theorem RoundTrip.mmav (f : FE3) : RoundTrip.Statement (.mmav f) := roundTrip_ofE3 rfl rfl rfl rfl rfl fun _ => rfl

theorem RoundTrip.mmag (f : FE3) : RoundTrip.Statement (.mmag f) := roundTrip_ofE3 rfl rfl rfl rfl rfl fun _ => rfl

theorem RoundTrip.mrank (f : FE3) : RoundTrip.Statement (.mrank f) := roundTrip_ofE3 rfl rfl rfl rfl rfl fun _ => rfl

theorem RoundTrip.mzero (f : FE2) : RoundTrip.Statement (.mzero f) := roundTrip_ofE2 rfl rfl rfl rfl rfl fun _ => rfl

theorem RoundTrip.mdrain (f : FE3) : RoundTrip.Statement (.mdrain f) := roundTrip_ofE3 rfl rfl rfl rfl rfl fun _ => rfl

theorem RoundTrip.mmova (f : FE3) : RoundTrip.Statement (.mmova f) := roundTrip_ofE3 rfl rfl rfl rfl rfl fun _ => rfl

theorem RoundTrip.mmovv (f : FE3) : RoundTrip.Statement (.mmovv f) := roundTrip_ofE3 rfl rfl rfl rfl rfl fun _ => rfl

theorem RoundTrip.mqry (f : FE3) : RoundTrip.Statement (.mqry f) := roundTrip_ofE3 rfl rfl rfl rfl rfl fun _ => rfl

theorem RoundTrip.cpy (f : FE3) : RoundTrip.Statement (.cpy f) := roundTrip_ofE3 rfl rfl rfl rfl rfl fun _ => rfl

theorem RoundTrip.cpyv (f : FE3) : RoundTrip.Statement (.cpyv f) := roundTrip_ofE3 rfl rfl rfl rfl rfl fun _ => rfl

theorem RoundTrip.cpys (f : FE3) : RoundTrip.Statement (.cpys f) := roundTrip_ofE3 rfl rfl rfl rfl rfl fun _ => rfl

theorem RoundTrip.acw (f : FE3) : RoundTrip.Statement (.acw f) :=
  roundTrip_ofE3 rfl rfl rfl rfl rfl fun h => by
    have h' : f.imm.toNat / 4 % 16 ≠ 9 := by
      intro h9
      simp [Instr.wf, acwForm, h9] at h
    simp [instrOf, instrOfE3, h']

theorem RoundTrip.acwArrive (f : FE3) : RoundTrip.Statement (.acwArrive f) :=
  roundTrip_ofE3 rfl rfl rfl rfl rfl fun h => by
    have h' : f.imm.toNat / 4 % 16 = 9 := by
      simp [Instr.wf] at h
      omega
    simp [instrOf, instrOfE3, h']

theorem RoundTrip.waits (f : FE3) : RoundTrip.Statement (.waits f) := roundTrip_ofE3 rfl rfl rfl rfl rfl fun _ => rfl

theorem RoundTrip.sigs (f : FE2) : RoundTrip.Statement (.sigs f) := roundTrip_ofE2 rfl rfl rfl rfl rfl fun _ => rfl

theorem RoundTrip.sigsE3 (f : FE3) : RoundTrip.Statement (.sigsE3 f) := roundTrip_ofE3 rfl rfl rfl rfl rfl fun _ => rfl

theorem RoundTrip.semrd (f : FE3) : RoundTrip.Statement (.semrd f) := roundTrip_ofE3 rfl rfl rfl rfl rfl fun _ => rfl

theorem RoundTrip.waitb (f : FE3) : RoundTrip.Statement (.waitb f) := roundTrip_ofE3 rfl rfl rfl rfl rfl fun _ => rfl

theorem RoundTrip.fqpost (f : FE3) : RoundTrip.Statement (.fqpost f) := roundTrip_ofE3 rfl rfl rfl rfl rfl fun _ => rfl

theorem RoundTrip.fmbox (f : FE3) : RoundTrip.Statement (.fmbox f) := roundTrip_ofE3 rfl rfl rfl rfl rfl fun _ => rfl

theorem RoundTrip.fput (f : FE3) : RoundTrip.Statement (.fput f) := roundTrip_ofE3 rfl rfl rfl rfl rfl fun _ => rfl

theorem RoundTrip.fflush (f : FE3) : RoundTrip.Statement (.fflush f) := roundTrip_ofE3 rfl rfl rfl rfl rfl fun _ => rfl

theorem RoundTrip.launch (f : FE3) : RoundTrip.Statement (.launch f) := roundTrip_ofE3 rfl rfl rfl rfl rfl fun _ => rfl

theorem RoundTrip.rdpr (f : FSW) : RoundTrip.Statement (.rdpr f) := roundTrip_ofSW rfl rfl rfl rfl rfl fun _ => rfl

theorem RoundTrip.wrpr (f : FSW) : RoundTrip.Statement (.wrpr f) := roundTrip_ofSW rfl rfl rfl rfl rfl fun _ => rfl

theorem RoundTrip.eret (f : FSW) : RoundTrip.Statement (.eret f) := roundTrip_ofSW rfl rfl rfl rfl rfl fun _ => rfl

theorem RoundTrip.asave (f : FSW) : RoundTrip.Statement (.asave f) := roundTrip_ofSW rfl rfl rfl rfl rfl fun _ => rfl

theorem RoundTrip.arest (f : FSW) : RoundTrip.Statement (.arest f) := roundTrip_ofSW rfl rfl rfl rfl rfl fun _ => rfl

theorem RoundTrip.tlbinv (f : FS) : RoundTrip.Statement (.tlbinv f) := roundTrip_ofS rfl rfl rfl rfl rfl fun _ => rfl

theorem RoundTrip.tlbinvSw (f : FSW) : RoundTrip.Statement (.tlbinvSw f) := roundTrip_ofSW rfl rfl rfl rfl rfl fun _ => rfl

theorem RoundTrip.replay (f : FS) : RoundTrip.Statement (.replay f) := roundTrip_ofS rfl rfl rfl rfl rfl fun _ => rfl

theorem RoundTrip.replaySw (f : FSW) : RoundTrip.Statement (.replaySw f) := roundTrip_ofSW rfl rfl rfl rfl rfl fun _ => rfl

theorem RoundTrip.quar (f : FS) : RoundTrip.Statement (.quar f) := roundTrip_ofS rfl rfl rfl rfl rfl fun _ => rfl

theorem RoundTrip.quarSw (f : FSW) : RoundTrip.Statement (.quarSw f) := roundTrip_ofSW rfl rfl rfl rfl rfl fun _ => rfl

theorem RoundTrip.qstat (f : FS) : RoundTrip.Statement (.qstat f) := roundTrip_ofS rfl rfl rfl rfl rfl fun _ => rfl

theorem RoundTrip.qstatSw (f : FSW) : RoundTrip.Statement (.qstatSw f) := roundTrip_ofSW rfl rfl rfl rfl rfl fun _ => rfl

theorem RoundTrip.cfgdiff (f : FS) : RoundTrip.Statement (.cfgdiff f) := roundTrip_ofS rfl rfl rfl rfl rfl fun _ => rfl

theorem RoundTrip.cfgdiffSw (f : FSW) : RoundTrip.Statement (.cfgdiffSw f) := roundTrip_ofSW rfl rfl rfl rfl rfl fun _ => rfl

theorem RoundTrip.wlatch (f : FS) : RoundTrip.Statement (.wlatch f) := roundTrip_ofS rfl rfl rfl rfl rfl fun _ => rfl

theorem RoundTrip.wlatchSw (f : FSW) : RoundTrip.Statement (.wlatchSw f) := roundTrip_ofSW rfl rfl rfl rfl rfl fun _ => rfl

theorem RoundTrip.halt (f : FS) : RoundTrip.Statement (.halt f) := roundTrip_ofS rfl rfl rfl rfl rfl fun _ => rfl

theorem RoundTrip.haltSw (f : FSW) : RoundTrip.Statement (.haltSw f) := roundTrip_ofSW rfl rfl rfl rfl rfl fun _ => rfl

theorem RoundTrip.idle (f : FS) : RoundTrip.Statement (.idle f) := roundTrip_ofS rfl rfl rfl rfl rfl fun _ => rfl

theorem RoundTrip.idleSw (f : FSW) : RoundTrip.Statement (.idleSw f) := roundTrip_ofSW rfl rfl rfl rfl rfl fun _ => rfl

theorem RoundTrip.taskStart {team} : RoundTrip.Statement (.taskStart team) := roundTrip_step rfl

theorem RoundTrip.taskIssueSelect {core} : RoundTrip.Statement (.taskIssueSelect core) := roundTrip_step rfl

theorem RoundTrip.resultArrival {core} {id} : RoundTrip.Statement (.resultArrival core id) := roundTrip_step rfl

theorem RoundTrip.versionAnswerArrival {team} : RoundTrip.Statement (.versionAnswerArrival team) := roundTrip_step rfl

theorem RoundTrip.storePerform {core} {id} {piece} {stage} : RoundTrip.Statement (.storePerform core id piece stage) := roundTrip_step rfl

theorem RoundTrip.loadPerform {core} {id} {piece} {ext} : RoundTrip.Statement (.loadPerform core id piece ext) := roundTrip_step rfl

theorem RoundTrip.tlbWalkComplete {core} {id} {page} : RoundTrip.Statement (.tlbWalkComplete core id page) := roundTrip_step rfl

theorem RoundTrip.teamPlacement {ctx} {slot} : RoundTrip.Statement (.teamPlacement ctx slot) := roundTrip_step rfl

theorem RoundTrip.launchSlotTake {ctx} : RoundTrip.Statement (.launchSlotTake ctx) := roundTrip_step rfl

theorem RoundTrip.teamRetire {team} : RoundTrip.Statement (.teamRetire team) := roundTrip_step rfl

theorem RoundTrip.launchRecordArrival {src} {ctx} {bytes} : RoundTrip.Statement (.launchRecordArrival src ctx bytes) := roundTrip_step rfl

theorem RoundTrip.hostDoorbell {window} {value} : RoundTrip.Statement (.hostDoorbell window value) := roundTrip_step rfl

theorem RoundTrip.apertureAccess {acc} : RoundTrip.Statement (.apertureAccess acc) := roundTrip_step rfl

theorem RoundTrip.registerWrite {reg} : RoundTrip.Statement (.registerWrite reg) := roundTrip_step rfl

theorem RoundTrip.semWaitRequest {id} : RoundTrip.Statement (.semWaitRequest id) := roundTrip_step rfl

theorem RoundTrip.semSignal {id} : RoundTrip.Statement (.semSignal id) := roundTrip_step rfl

theorem RoundTrip.semRead {core} {id} : RoundTrip.Statement (.semRead core id) := roundTrip_step rfl

theorem RoundTrip.barrierArriveStep {core} {id} : RoundTrip.Statement (.barrierArriveStep core id) := roundTrip_step rfl

theorem RoundTrip.barrierWaitRequest {id} : RoundTrip.Statement (.barrierWaitRequest id) := roundTrip_step rfl

theorem RoundTrip.barrierObjectStore {core} {id} {piece} : RoundTrip.Statement (.barrierObjectStore core id piece) := roundTrip_step rfl

theorem RoundTrip.waitbDeadline {id} : RoundTrip.Statement (.waitbDeadline id) := roundTrip_step rfl

theorem RoundTrip.waitbUnlink {id} : RoundTrip.Statement (.waitbUnlink id) := roundTrip_step rfl

theorem RoundTrip.acwPortStep {core} {id} : RoundTrip.Statement (.acwPortStep core id) := roundTrip_step rfl

theorem RoundTrip.vcCreate {id} : RoundTrip.Statement (.vcCreate id) := roundTrip_step rfl

theorem RoundTrip.vcRead {id} {granule} : RoundTrip.Statement (.vcRead id granule) := roundTrip_step rfl

theorem RoundTrip.vcRelease {id} : RoundTrip.Statement (.vcRelease id) := roundTrip_step rfl

theorem RoundTrip.vcQuery {id} : RoundTrip.Statement (.vcQuery id) := roundTrip_step rfl

theorem RoundTrip.matrixCommandStart {core} : RoundTrip.Statement (.matrixCommandStart core) := roundTrip_step rfl

theorem RoundTrip.passRow {core} {id} : RoundTrip.Statement (.passRow core id) := roundTrip_step rfl

theorem RoundTrip.bufferRefill {core} {id} : RoundTrip.Statement (.bufferRefill core id) := roundTrip_step rfl

theorem RoundTrip.mmagSegment {core} {id} : RoundTrip.Statement (.mmagSegment core id) := roundTrip_step rfl

theorem RoundTrip.copyChunk {core} {id} : RoundTrip.Statement (.copyChunk core id) := roundTrip_step rfl

theorem RoundTrip.parkedRetry {id} : RoundTrip.Statement (.parkedRetry id) := roundTrip_step rfl

theorem RoundTrip.entryAppend {id} : RoundTrip.Statement (.entryAppend id) := roundTrip_step rfl

theorem RoundTrip.entryFire {die} {cluster} {qp} : RoundTrip.Statement (.entryFire die cluster qp) := roundTrip_step rfl

theorem RoundTrip.fabricMessageSend {port} : RoundTrip.Statement (.fabricMessageSend port) := roundTrip_step rfl

theorem RoundTrip.fabricMessageArrival {msg} : RoundTrip.Statement (.fabricMessageArrival msg) := roundTrip_step rfl

theorem RoundTrip.fabricRefusalReturn {team} {target} {code} {msg} : RoundTrip.Statement (.fabricRefusalReturn team target code msg) := roundTrip_step rfl

theorem RoundTrip.entryComplete {die} {cluster} {qp} : RoundTrip.Statement (.entryComplete die cluster qp) := roundTrip_step rfl

theorem RoundTrip.landFullRetry {die} {cluster} {qp} : RoundTrip.Statement (.landFullRetry die cluster qp) := roundTrip_step rfl

theorem RoundTrip.landingApply {die} {ctx} : RoundTrip.Statement (.landingApply die ctx) := roundTrip_step rfl

theorem RoundTrip.remoteAccess {req} : RoundTrip.Statement (.remoteAccess req) := roundTrip_step rfl

theorem RoundTrip.fflushComplete {id} {lost} : RoundTrip.Statement (.fflushComplete id lost) := roundTrip_step rfl

theorem RoundTrip.quantumEnd {core} : RoundTrip.Statement (.quantumEnd core) := roundTrip_step rfl

theorem RoundTrip.shadowPrepare {core} : RoundTrip.Statement (.shadowPrepare core) := roundTrip_step rfl

theorem RoundTrip.preemption {core} : RoundTrip.Statement (.preemption core) := roundTrip_step rfl

theorem RoundTrip.contextRestore {core} : RoundTrip.Statement (.contextRestore core) := roundTrip_step rfl

theorem RoundTrip.residencyChoice {die} : RoundTrip.Statement (.residencyChoice die) := roundTrip_step rfl

theorem RoundTrip.fairnessTick {die} : RoundTrip.Statement (.fairnessTick die) := roundTrip_step rfl

theorem RoundTrip.fairnessWindow {die} : RoundTrip.Statement (.fairnessWindow die) := roundTrip_step rfl

theorem RoundTrip.usedAccrual {die} : RoundTrip.Statement (.usedAccrual die) := roundTrip_step rfl

theorem RoundTrip.spinDemotion {die} {entry} : RoundTrip.Statement (.spinDemotion die entry) := roundTrip_step rfl

theorem RoundTrip.migrationAdvertise {die} : RoundTrip.Statement (.migrationAdvertise die) := roundTrip_step rfl

theorem RoundTrip.migrationLanding {team} {core} : RoundTrip.Statement (.migrationLanding team core) := roundTrip_step rfl

theorem RoundTrip.qepochAdvance {die} : RoundTrip.Statement (.qepochAdvance die) := roundTrip_step rfl

theorem RoundTrip.scanRequest {die} {slot} : RoundTrip.Statement (.scanRequest die slot) := roundTrip_step rfl

theorem RoundTrip.mkeyNew {die} {slot} : RoundTrip.Statement (.mkeyNew die slot) := roundTrip_step rfl

theorem RoundTrip.mkeyKill {die} {slot} : RoundTrip.Statement (.mkeyKill die slot) := roundTrip_step rfl

theorem RoundTrip.slotLoad {die} {slot} : RoundTrip.Statement (.slotLoad die slot) := roundTrip_step rfl

theorem RoundTrip.slotClear {die} {slot} : RoundTrip.Statement (.slotClear die slot) := roundTrip_step rfl

theorem RoundTrip.grantSet {die} {slot} : RoundTrip.Statement (.grantSet die slot) := roundTrip_step rfl

theorem RoundTrip.grantClear {die} {slot} : RoundTrip.Statement (.grantClear die slot) := roundTrip_step rfl

theorem RoundTrip.attest {die} {slot} : RoundTrip.Statement (.attest die slot) := roundTrip_step rfl

theorem RoundTrip.accept {die} {slot} : RoundTrip.Statement (.accept die slot) := roundTrip_step rfl

theorem RoundTrip.release {die} {slot} : RoundTrip.Statement (.release die slot) := roundTrip_step rfl

theorem RoundTrip.destroy {die} {slot} : RoundTrip.Statement (.destroy die slot) := roundTrip_step rfl

theorem RoundTrip.scrub {die} {slot} : RoundTrip.Statement (.scrub die slot) := roundTrip_step rfl

theorem RoundTrip.scrubFrameZero {key} : RoundTrip.Statement (.scrubFrameZero key) := roundTrip_step rfl

theorem RoundTrip.dieBringup {die} {bu} : RoundTrip.Statement (.dieBringup die bu) := roundTrip_step rfl

theorem RoundTrip.powerLoss : RoundTrip.Statement (.powerLoss) := roundTrip_step rfl

theorem RoundTrip.powerWindow {milliwatts} : RoundTrip.Statement (.powerWindow milliwatts) := roundTrip_step rfl

theorem RoundTrip.machineCheck {die} {code} {core} {ctx} {addr} : RoundTrip.Statement (.machineCheck die code core ctx addr) := roundTrip_step rfl

theorem RoundTrip.dieLoss {pkg} {die} : RoundTrip.Statement (.dieLoss pkg die) := roundTrip_step rfl

theorem RoundTrip.flitReceive {port} {flit} : RoundTrip.Statement (.flitReceive port flit) := roundTrip_step rfl

theorem RoundTrip.linkReplay {port} {seq} : RoundTrip.Statement (.linkReplay port seq) := roundTrip_step rfl

theorem RoundTrip.linkRetrain {port} {ok} : RoundTrip.Statement (.linkRetrain port ok) := roundTrip_step rfl

theorem RoundTrip.portDown {port} : RoundTrip.Statement (.portDown port) := roundTrip_step rfl

theorem RoundTrip.launchStatusReturn {id} {code} : RoundTrip.Statement (.launchStatusReturn id code) := roundTrip_step rfl

end Sys2Proof.Laws
end

