-- ==== Sys2Proof/Tests/Slice0.lean ====
section
/-! SUPPORT. Tests: words of the spec's worked encodings, ill-formed terms, single steps with results worked
in the spec, and for each statement states that meet its hypotheses. -/

namespace Sys2Proof.Tests

open Sys2Proof.Machine

set_option Elab.async false

/-! ## Decoding: the worked encodings of the spec -/

/-- R155. -/
theorem test_decode_add : decodeTableWord 32 0x00204300 = some (.add ⟨3, 1, 2, false, false⟩) := by
  decide +kernel

/-- R155: an immediate of −1. -/
theorem test_decode_addi : decodeTableWord 32 0xFFE14508 = some (.addi ⟨5, 5, false, 0x7FF⟩) := by
  decide +kernel

/-- R142. -/
theorem test_decode_nop : decodeTableWord 32 0x6000003C = some (.nop ⟨0, 0, 0, false, false⟩) := by
  decide +kernel

/-- R155: the `cpy` with tokens k1 and k2 and a signal on sem5. -/
theorem test_decode_cpy : decodeTableWord 96 0x0000050905000023228040F2 = some (.cpy
    { e := { xa := 8, fea := false, st := 0, scope := 4, wv := false, sv := true, ord := 0, pt := 2, pv := true,
             ct0 := 1, cv0 := true, ct1 := 0, cv1 := false, ct2 := 0, cv2 := false, wsem := 0, ssem := 5 },
      xb := 9, feb := false, xc := 10, fec := false, imm := 0 }) := by decide +kernel

/-- The examples under R161 and R162. -/
theorem test_decode_div : decodeTableWord 64 0x0000040040A24801 =
    some (.divSw ⟨8, 9, 10, false, false, 0, 0, false, 1⟩) := by decide +kernel

theorem test_decode_setc : decodeTableWord 64 0x0000080050510305 =
    some (.setc ⟨3, 4, 5, false, false, 0, 0, false, 2⟩) := by decide +kernel

theorem test_decode_fadd : decodeTableWord 32 0x00510340 =
    some (.fadd .f32 ⟨3, 4, 5, false, false⟩) := by decide +kernel

/-- The example under R163: a target five parcels back. -/
theorem test_decode_bc : decodeTableWord 32 0xFFEC8728 = some (.bc ⟨7, false, 1, 0x3FFB⟩) := by decide +kernel

/-- The loop after R168: XA 6, LAST 2, RS 1, EXIT 13. -/
theorem test_decode_lstart : decodeTableWord 64 0x001A280000018031 =
    some (.lstart ⟨0, 6, 0, false, false, 0, 0, false, 2 + 1 * 8 + 13 * 128⟩) := by decide +kernel

/-- The example under R182. -/
theorem test_decode_vadd : decodeTableWord 64 0x000000400018A481 = some (.vadd
    { vd := 4, va := 5, vb := 6, fea := false, feb := false, z := false, st := 0, p := 0, g := 1, t := 0, vc := 0
      fec := false, xs := 0, fes := false, mod := 0, u := false }) := by decide +kernel

/-- The example under R201: 1,300 = 2 × 512 + 17 × 16 + 4. -/
theorem test_decode_pset : decodeTableWord 64 0x10022040000801A1 = some (.pset
    { vd := 1, va := 0, vb := 2, fea := false, feb := false, z := false, st := 0, p := 0, g := 1, t := 0, vc := 17
      fec := false, xs := 0, fes := false, mod := 4, u := false }) := by decide +kernel

/-- The examples under R206: `ld.s32.acq.pkg x5, [x4 + x6<<2 + 8]` and `st.z64.rel.pkg [x4], x5`. -/
theorem test_decode_ld : decodeTableWord 64 0x000082A060610561 = some (.ld 6
    { xd := 5, xa := 4, xb := 6, fea := false, feb := false, st := 0, scope := 4, ord := 2, sh := 2, fed := false
      rsv := false, disp := 8 }) := by decide +kernel

theorem test_decode_st : decodeTableWord 64 0x0000006030010565 = some (.st 3
    { xd := 5, xa := 4, xb := 0, fea := false, feb := false, st := 0, scope := 4, ord := 1, sh := 0, fed := false
      rsv := false, disp := 0 }) := by decide +kernel

/-- The example under R210: the first VLDG. -/
theorem test_decode_vldg : decodeTableWord 64 0x00000040102114C1 = some (.vldg
    { vd := 20, xa := 8, fea := false, xb := 2, feb := false, z := false, st := 0, p := 0, g := 1, scope := 0
      ord := 0, sh := 0, fed := false, disp := 0 }) := by decide +kernel

/-- The example under R212: `mark after k1 -> k2`. -/
theorem test_decode_mark : decodeTableWord 64 0x0000002320000069 = some (.mark
    { xa := 0, fea := false, st := 0, scope := 0, wv := false, sv := false, ord := 0, pt := 2, pv := true, ct0 := 1
      cv0 := true, ct1 := 0, cv1 := false, ct2 := 0, cv2 := false, wsem := 0, ssem := 0 }) := by decide +kernel

/-- The examples under R218: `vldv.pkg v4, [x10 + 256], x11, x12` and `vstv.pkg [x10], v4, x11`. -/
theorem test_decode_vldv : decodeTableWord 64 0x0043084000B144C5 = some (.vldv
    { vd := 4, xa := 10, fea := false, xb := 11, feb := false, rsvA := false, st := 0, rsvB := 0, g := 1, scope := 4
      rsvC := 0, xm := 12, fem := false, disp := 2 }) := by decide +kernel

theorem test_decode_vstv : decodeTableWord 64 0x0000084008B144C5 = some (.vstv
    { vd := 4, xa := 10, fea := false, xb := 11, feb := false, rsvA := false, st := 0, rsvB := 0, g := 1, scope := 4
      rsvC := 0, xm := 0, fem := false, disp := 0 }) := by decide +kernel

/-- The examples under R243: `mma.e4m3 a2, b1, [x8], x9, x10, 2, sq -> k3` and `mzero a3 -> k1`. -/
theorem test_decode_mma : decodeTableWord 96 0x00CE850900000001308042E2 = some (.mma
    { e := { xa := 8, fea := false, st := 0, scope := 4, wv := false, sv := false, ord := 0, pt := 3, pv := true,
             ct0 := 0, cv0 := false, ct1 := 0, cv1 := false, ct2 := 0, cv2 := false, wsem := 0, ssem := 0 },
      xb := 9, feb := false, xc := 10, fec := false, imm := 0x33A }) := by decide +kernel

theorem test_decode_mzero : decodeTableWord 64 0x0000000110801EE1 = some (.mzero
    { xa := 3, fea := false, st := 0, scope := 4, wv := false, sv := false, ord := 0, pt := 1, pv := true, ct0 := 0
      cv0 := false, ct1 := 0, cv1 := false, ct2 := 0, cv2 := false, wsem := 0, ssem := 0 }) := by decide +kernel

/-- The examples under R268: `sigs sem5, 1`, `waits sem3, 2, x9` and `acw.arrive [x4], x5, x6 sig sem7`. -/
theorem test_decode_sigs : decodeTableWord 96 0x0000400005000000028005F2 = some (.sigsE3
    { e := { xa := 0, fea := false, st := 0, scope := 4, wv := false, sv := true, ord := 0, pt := 0, pv := false,
             ct0 := 0, cv0 := false, ct1 := 0, cv1 := false, ct2 := 0, cv2 := false, wsem := 0, ssem := 5 },
      xb := 0, feb := false, xc := 0, fec := false, imm := 1 }) := by decide +kernel

theorem test_decode_waits : decodeTableWord 96 0x0000800900030000018004F2 = some (.waits
    { e := { xa := 0, fea := false, st := 0, scope := 4, wv := true, sv := false, ord := 0, pt := 0, pv := false,
             ct0 := 0, cv0 := false, ct1 := 0, cv1 := false, ct2 := 0, cv2 := false, wsem := 3, ssem := 0 },
      xb := 9, feb := false, xc := 0, fec := false, imm := 2 }) := by decide +kernel

theorem test_decode_arrive : decodeTableWord 96 0x0009030507000000028023F2 = some (.acwArrive
    { e := { xa := 4, fea := false, st := 0, scope := 4, wv := false, sv := true, ord := 0, pt := 0, pv := false,
             ct0 := 0, cv0 := false, ct1 := 0, cv1 := false, ct2 := 0, cv2 := false, wsem := 0, ssem := 7 },
      xb := 5, feb := false, xc := 6, fec := false, imm := 9 * 4 }) := by decide +kernel

/-- The examples under R324: `rdpr x6, accown, x3, x4`, `asave [x7], x3, x4`, `wrpr accown, x8, x3, x4` and
`eret x1, 0`. -/
theorem test_decode_rdpr : decodeTableWord 64 0x00004020003006F9 =
    some (.rdpr ⟨6, 0, 3, false, false, 0, 4, false, 0x010⟩) := by decide +kernel

theorem test_decode_asave : decodeTableWord 64 0x000000203031C0F9 =
    some (.asave ⟨0, 7, 3, false, false, 0, 4, false, 0⟩) := by decide +kernel

theorem test_decode_wrpr : decodeTableWord 64 0x00004020103200F9 =
    some (.wrpr ⟨0, 8, 3, false, false, 0, 4, false, 0x010⟩) := by decide +kernel

theorem test_decode_eret : decodeTableWord 64 0x00000000200040F9 =
    some (.eret ⟨0, 1, 0, false, false, 0, 0, false, 0⟩) := by decide +kernel

/-! ## Ill-formed terms, one for each check -/

/-- Fields all zero. -/
def zS : FS := ⟨0, 0, 0, false, false⟩
def zW : FSW := ⟨0, 0, 0, false, false, 0, 0, false, 0⟩
def zM : FM := ⟨0, 0, 0, false, false, 0, 0, 0, 0, false, false, 0⟩
/-- One register, one row group, FP32. -/
def zV : FV := ⟨0, 0, 0, false, false, false, 0, 0, 1, 0, 0, false, 0, false, 0, false⟩
def zVM : FVM := ⟨0, 0, false, 0, false, false, 0, 0, 1, 0, 0, 0, false, 0⟩
def zVV : FVV := ⟨0, 0, false, 0, false, false, 0, 0, 1, 0, 0, 0, false, 0⟩
def zE : FE2 := ⟨0, false, 0, 0, false, false, 0, 0, false, 0, false, 0, false, 0, false, 0, 0⟩
def zE3 : FE3 := ⟨zE, 0, false, 0, false, 0⟩

/-- Unused register fields, POS and WIDTH, CC, the number of a control register, a loop's EXIT. -/
theorem test_ill_scalar : (Instr.clz { zS with xb := 1 }).wf = false ∧
    (Instr.addSw { zW with xc := 1 }).wf = false ∧ (Instr.movi ⟨1, 1, false, 0⟩).wf = false ∧
    (Instr.moviX3 ⟨1, 0, 0, 1, 0⟩).wf = false ∧
    (Instr.bfx { zW with imm := 0 }).wf = false ∧ (Instr.bfi { zW with imm := 63 + 2 * 64 }).wf = false ∧
    (Instr.sext zW).wf = false ∧ (Instr.setc { zW with imm := 6 }).wf = false ∧
    (Instr.shlSw { zW with imm := 64 }).wf = false ∧ (Instr.mulhSw { zW with imm := 2 }).wf = false ∧
    (Instr.bc ⟨0, false, 6, 0⟩).wf = false ∧ (Instr.lstart { zW with imm := 2 * 128 }).wf = false ∧
    (Instr.rdcr { zW with imm := 0xC }).wf = false ∧ (Instr.wrcr { zW with imm := 4 }).wf = false ∧
    (Instr.fcvt .f32 zW).wf = false ∧ (Instr.fsetc .f32 { zW with imm := 5 }).wf = false ∧
    (Instr.rdpr { zW with imm := 0xD }).wf = false ∧ (Instr.wrpr zW).wf = false ∧
    (Instr.eret { zW with imm := 3 }).wf = false ∧ (Instr.tlbinvSw { zW with imm := 3 }).wf = false ∧
    (Instr.nop { zS with xa := 1 }).wf = false := by decide

/-- ORD, SCOPE, the widths and the reserved bits of loads and stores. -/
theorem test_ill_memory : (Instr.ld 7 zM).wf = false ∧ (Instr.ld 0 { zM with ord := 1 }).wf = false ∧
    (Instr.ld 0 { zM with scope := 1 }).wf = false ∧ (Instr.st 0 { zM with ord := 2 }).wf = false ∧
    (Instr.st 0 { zM with ord := 3 }).wf = false ∧ (Instr.st 0 { zM with rsv := true }).wf = false ∧
    (Instr.vld { zVM with g := 0 }).wf = false ∧ (Instr.vld { zVM with g := 7 }).wf = false ∧
    (Instr.vld { zVM with vd := 31, g := 2 }).wf = false ∧ (Instr.vst { zVM with z := true }).wf = false ∧
    (Instr.vldg { zVM with xb := 32 }).wf = false ∧ (Instr.vldb { zVM with ord := 1 }).wf = false ∧
    (Instr.vldv { zVV with rsvB := 1 }).wf = false ∧ (Instr.vstv { zVV with xm := 1 }).wf = false ∧
    (Instr.vqry { zVV with xb := 1 }).wf = false ∧ (Instr.vrelv { zVV with vd := 1 }).wf = false ∧
    (Instr.mark { zE with sv := true }).wf = false ∧ (Instr.pf { zE with pv := true }).wf = false ∧
    (Instr.pfE3 { zE3 with xb := 1 }).wf = false ∧ (Instr.sqld zE3).wf = false := by decide

/-- The checks of the vector formats. -/
theorem test_ill_vector : (Instr.vadd { zV with t := 3 }).wf = false ∧ (Instr.vadd { zV with vc := 1 }).wf = false ∧
    (Instr.vadd { zV with mod := 1, vb := 1 }).wf = false ∧ (Instr.vadd { zV with xs := 1 }).wf = false ∧
    (Instr.vadd { zV with z := true }).wf = false ∧ (Instr.vadd { zV with u := true }).wf = false ∧
    (Instr.viadd zV).wf = false ∧ (Instr.vrcp { zV with g := 5 }).wf = false ∧
    (Instr.vcmp { zV with mod := 14 }).wf = false ∧ (Instr.vcvt zV).wf = false ∧
    (Instr.vqnt { zV with t := 3, fec := true }).wf = false ∧ (Instr.vdqt zV).wf = false ∧
    (Instr.vcvt { zV with t := 1, vd := 31, g := 4 }).wf = false ∧
    (Instr.vrsum { zV with z := true, p := 1 }).wf = false ∧ (Instr.vtrn { zV with t := 6 }).wf = false ∧
    (Instr.vmovWhole zV).wf = false ∧ (Instr.vext { zV with vb := 16 }).wf = false ∧
    (Instr.pset { zV with vd := 8 }).wf = false ∧ (Instr.pmov { zV with mod := 3 }).wf = false ∧
    (Instr.vsets zV).wf = false := by decide

/-- The checks of the engine formats: token fields, formats, rows, the operations of ACW, fields that a form
does not use. -/
theorem test_ill_engine : (Instr.mzero { zE with ct0 := 1 }).wf = false ∧
    (Instr.mzero { zE with ord := 3 }).wf = false ∧ (Instr.mzero { zE with xa := 8 }).wf = false ∧
    (Instr.mma zE3).wf = false ∧ (Instr.mma { zE3 with imm := 5 * 16 }).wf = false ∧
    (Instr.mmag { zE3 with imm := 0x10 + 8 }).wf = false ∧ (Instr.mrank { zE3 with imm := 3 * 16 }).wf = false ∧
    (Instr.mdrain { zE3 with imm := 8 * 16 }).wf = false ∧ (Instr.mmova zE3).wf = false ∧
    (Instr.mmovv { zE3 with imm := 6 * 1024 + 81 * 8 }).wf = false ∧ (Instr.mqry { zE3 with imm := 2 }).wf = false ∧
    (Instr.mrec { zE3 with xb := 1 }).wf = false ∧ (Instr.mldb { zE3 with imm := 256 }).wf = false ∧
    (Instr.cpy { zE3 with imm := 4 }).wf = false ∧ (Instr.acw { zE3 with imm := 9 * 4 }).wf = false ∧
    (Instr.acw { zE3 with imm := 1 * 4 }).wf = false ∧ (Instr.acw { zE3 with imm := 8 * 4 }).wf = false ∧
    (Instr.acwArrive zE3).wf = false ∧ (Instr.waits zE3).wf = false ∧ (Instr.sigs zE).wf = false ∧
    (Instr.sigsE3 { zE3 with e := { zE with sv := true, wv := true } }).wf = false ∧
    (Instr.semrd { zE3 with imm := 256 }).wf = false ∧ (Instr.waitb zE3).wf = false ∧
    (Instr.fqpost { zE3 with imm := 1 }).wf = false ∧ (Instr.fflush { zE3 with xc := 1 }).wf = false := by decide

/-- Words are refused by the decoder: END with XB not zero; and a length that no format has. -/
theorem test_decode_refuses : decodeTableWord 32 0x0040003C = none ∧ decodeTableWord 32 0x00000003 = none := by
  decide +kernel

/-! ## A small state -/

/-- A task of C0x001 with x1 = 3, x2 = 2 and the rest 0, at the code page. -/
def k0 : Task := taskStart (w64 fetchVa) [(1, 3), (2, 2)] 0 none false

/-- Its team: eight tiles, 64 KiB of scratchpad. -/
def team (k : Task) : Team := { teamStart 1 0 0 0 0 1 8 0 [0, 1, 2, 3, 4, 5, 6, 7] [] with
  task := some k, ready := [], started := 1 }

/-- A page-table leaf of this package: type and permissions in the low bits, frame by address. -/
def leaf (low frame : Nat) : BitVec 64 := BitVec.ofNat 64 (low + (255 * 2 ^ 48 + frame) / 65536 * 4096)

/-- Core 0 in its context's plane, with 64 KiB of CSM of cluster 0, and a code page, a data page, a page of
V-region 0 and a page of sealed data in its TLB. -/
def core0 : Core := { coreReset with
  usable := true
  plane := [(0, w64 (2 ^ 63 + 1)), (6, 0x200000000), (64, w64 (256 + 16 * 2 ^ 20))]
  tlb := [⟨1, fetchVa / 65536, false, leaf 0x33 fetchFrame⟩, ⟨1, 0x2000, false, leaf 0x0F 0x110000000⟩,
          ⟨1, 0x3000, false, 0x1F⟩, ⟨1, 0x4000, false, leaf 0x2F 0x120000000⟩] }

/-- Memory: C0x001's STATE; a V-region of four granules at 0x30000000 with K = 2 and window 1; a launch ring of
16 slots with one record. -/
def cells : List Host.Cell :=
  [(256, 1), (0x200000003, 0x30), (0x200000008, 4), (0x20000000C, 2), (0x20000000D, 128), (0x200000010, 1),
   (0x20000001B, 0x10), (0x20000001C, 2), (0x200000023, 0x20), (0x200000024, 2),
   (0x200010002, 2), (0x200010004, 2), (0x200010008, 16), (0x200010010, 1)]

/-- The task `k` selected on core 0 of die 0, whose launch has FHANDLER at the code page. -/
def demo (k : Task) : State := { State.reset with
  mem := cells
  dies := [(0, { dieReset with up := true, latched := true, fqbase := 0x300000000, hpc := 0x10000000 })]
  clusters := [(0, { clusterReset with master := some 0 })]
  cores := [(0, core0)]
  teams := [(16, team k)]
  ctxs := [(1, { ctxNone with
    desc := [(0, [(0, 0xF0001), (5, 4096), (7, 0x200000000), (9, 0x200010000)])], resid := [(0, .resident)]
    launches := [{ fetchLaunch with fhandler := w64 fetchVa }] })]
  sections := [⟨1, 0, 1, 0, fetchVa, 1, [fetchFrame / 65536], 2 ^ 16384 - 1, 0, true, 0⟩]
  focus := some 16, nextId := 17 }

/-- The environment of that task. -/
def env (k : Task) : Env := ⟨16, team k, k, 0⟩

/-- A scalar register of the running task after a step. -/
def xAfter (o : Host.Outcome State Fault Refusal) (r : BitVec 6) : Option W64 :=
  match o with
  | .next t => ((tabFind t.teams 16).bind Team.task).map fun k => k.getX r
  | _ => none

/-! ## Single steps -/

/-- The examples under R160: −7 / 2 is −3, the remainder −1; unsigned, 0xFFFFFFFFFFFFFFF9 / 2 is
0x7FFFFFFFFFFFFFFC. -/
theorem test_div_step :
    let k := { k0 with x := [(1, 0xFFFFFFFFFFFFFFF9), (2, 2)] }
    xAfter (exec (.div { zS with xd := 3, xa := 1, xb := 2 }) (demo k)) 3 = some 0xFFFFFFFFFFFFFFFD ∧
    xAfter (exec (.rem { zS with xd := 3, xa := 1, xb := 2 }) (demo k)) 3 = some 0xFFFFFFFFFFFFFFFF ∧
    xAfter (exec (.divSw { zW with xd := 3, xa := 1, xb := 2, imm := 1 }) (demo k)) 3 =
      some 0x7FFFFFFFFFFFFFFC := by decide +kernel

/-- R160: a zero divisor; x0 discards (R72). -/
theorem test_div_zero : xAfter (exec (.div { zS with xd := 3, xa := 1 }) (demo k0)) 3 = some 0xFFFFFFFFFFFFFFFF ∧
    xAfter (exec (.rem { zS with xd := 3, xa := 1 }) (demo k0)) 3 = some 3 ∧
    xAfter (exec (.add { zS with xa := 1, xb := 2 }) (demo k0)) 0 = some 0 := by decide +kernel

/-- R161, R162: a source that is also the destination; SETC unsigned against signed; BFX with sign. -/
theorem test_scalar_step :
    xAfter (exec (.sub { zS with xd := 1, xa := 1, xb := 1 }) (demo k0)) 1 = some 0 ∧
    xAfter (exec (.setc { zW with xd := 3, xa := 1, xb := 2, imm := 4 })
      (demo { k0 with x := [(1, 0xFFFFFFFFFFFFFFFF), (2, 1)] })) 3 = some 0 ∧
    xAfter (exec (.setc { zW with xd := 3, xa := 1, xb := 2, imm := 2 })
      (demo { k0 with x := [(1, 0xFFFFFFFFFFFFFFFF), (2, 1)] })) 3 = some 1 ∧
    xAfter (exec (.bfx { zW with xd := 3, xa := 1, imm := 4 + 4 * 64 + 2 ^ 13 })
      (demo { k0 with x := [(1, 0x8F)] })) 3 = some 0xFFFFFFFFFFFFFFF8 := by decide +kernel

/-- The example under R187: the special functions of 0.5, 1.0, −2.0 and 0.25 at half turns. -/
theorem test_vsin : ((fp32.encode .rne false (sfuSin (fp32.decode false 0x3F000000)).1).1 = 0x3F800000) ∧
    ((fp32.encode .rne false (sfuSin (fp32.decode false 0x3F800000)).1).1 = 0) ∧
    ((fp32.encode .rne false (sfuSin (fp32.decode false 0xC0000000)).1).1 = 0x80000000) ∧
    ((fp32.encode .rne false (sfuSin (fp32.decode false 0x3E800000)).1).1 = 0x3F3504F3) := by decide +kernel

/-- The example under R187: 2^−0.5 in BF16. -/
theorem test_vexp2 : (bf16.encode .rne false (sfuExp2 (bf16.decode false 0xBF00)).1).1 = 0x3F35 := by
  decide +kernel

/-- R316 names CRC-32C; its published check value, of the bytes "123456789", is 0xE3069283. -/
theorem test_crc : crc32c [0x31, 0x32, 0x33, 0x34, 0x35, 0x36, 0x37, 0x38, 0x39] = 0xE3069283 := by decide +kernel

/-! ## States that meet the statements' hypotheses: instructions -/

/-- With no key killed, no scrub and `demo`'s one section, HBM above the code page may be written. -/
theorem writable_as {s : State} {base n : Nat} (hf : s.sections.map (·.frames) = [[fetchFrame / 65536]])
    (hm : s.mkeys = []) (hs : s.scrubs = []) (h1 : 0x110000000 ≤ base) : Writable s 0 base n := by
  intro a ha _
  have hl : s.lockOf a = none := by
    unfold State.lockOf
    rw [List.find?_eq_none]
    intro x hx
    have hm := List.mem_map_of_mem (f := (·.frames)) hx
    rw [hf, List.mem_singleton] at hm
    rw [hm]
    simp only [fetchFrame, List.contains_cons, List.contains_nil, Bool.or_false, beq_iff_eq]
    omega
  simp [State.refused, State.installed, hl, hm, hs, tabGet, tabFind]

theorem demo_writable {base n : Nat} (h1 : 0x110000000 ≤ base) : Writable (demo k0) 0 base n :=
  writable_as (by decide +kernel) rfl rfl h1

theorem hbm_low {base n : Nat} (h : base + n ≤ 0x003000000000) : Hbm base n := by
  intro a _ _
  have h1 : a < 2 ^ 46 := by omega
  simp only [isHbm, Nat.mod_eq_of_lt h1, Bool.and_eq_true, decide_eq_true_eq]
  omega

/-- `scalarInteger`, `scalarOthers`, `scalarFloating`, `operandRules` and every other statement of a scalar
form: full operands; in a loop, stage 1. -/
theorem test_meets_scalars : CanIssue (demo k0) (env k0) 0 [.x 1 false, .x 2 true] [.x 3] ∧
    CanIssue (demo k0) (env k0) 0 [.x 1 false, .x 2 true, .x 3 false] [.x 63] ∧
    CanIssue (demo k0) (env k0) 0 [.x 1 false] [] ∧ CanIssue (demo k0) (env k0) 0 [] [] ∧
    CanIssue (demo k0) (env k0) 0 [] [.x 0] ∧
    CanIssue (demo { k0 with active := 2, last := 1, left := 1 }) (env { k0 with active := 2, last := 1, left := 1 }) 1
      [.x 1 false, .x 2 true] [.x 0] := by decide +kernel

/-- `scalarOthers`: the well-formed forms, at the ends of their ranges. -/
theorem test_meets_scalarOthers : (Instr.sext { zW with imm := 64 }).wf = true ∧
    (Instr.zext { zW with imm := 1 }).wf = true ∧ (Instr.setc { zW with imm := 5 }).wf = true ∧
    (Instr.bfx { zW with imm := 63 + 64 + 2 ^ 13 }).wf = true ∧
    (Instr.bfi { zW with imm := 64 * 64 }).wf = true := by decide

/-- `operandRules`: an empty source with FE 1, with FE 0, an empty destination, a stage that is not active,
an empty vector group. -/
theorem test_meets_operandRules :
    let k := { k0 with xEmpty := 2, vEmpty := 1 }
    let j := { k0 with active := 2 }
    (demo k).issuer = some (env k) ∧ k.hold = .free ∧ k.stageActive 0 = true ∧
    (true && k.xIsEmpty 1 || false && k.xIsEmpty 2) = true ∧
    (false && k.xIsEmpty 1 || false && k.xIsEmpty 2) = false ∧
    (k.xIsEmpty 1 || k.xIsEmpty 2 || k.xIsEmpty 3) = true ∧ (k.xIsEmpty 3 || k.xIsEmpty 3 || k.xIsEmpty 1) = true ∧
    k.vIsEmpty 0 1 = true ∧
    (demo j).issuer = some (env j) ∧ j.hold = .free ∧ j.stageActive 0 = false := by decide +kernel

/-- `transfers`: a target that is an instruction start, one that is none, one on a page that is no code page,
one that is not aligned, one without a page. -/
theorem test_meets_transfers : (demo k0).badTarget (env k0).who (w64 fetchVa) = false ∧
    (demo k0).badTarget (env k0).who (w64 fetchVa + 2) = true ∧
    (demo k0).badTarget (env k0).who 0x20000000 = true ∧
    (demo k0).fetchLeaf (env k0).who fetchVa = .ok (leaf 0x33 fetchFrame, false) ∧
    (demo k0).isStart (gpaKey (leafFrame (leaf 0x33 fetchFrame) * 65536)) = true ∧
    leafType (leaf 0x0F 0x110000000) ≠ 3 ∧
    (demo k0).fetchLeaf (env k0).who 0x90000000 = .error cFetchNotPresent ∧
    let k := { k0 with badFetch := some cFetchNotPresent, issued := 1 }
    k.badFetch = some cFetchNotPresent ∧ k.issued ≠ 0 := by decide +kernel

/-- `loops`: counts 0 and not 0, and the three ways of LNEXT. -/
theorem test_meets_loops :
    let j := { k0 with active := 3, last := 1, left := 2 }
    (k0.getX 5).toNat % 2 ^ 32 = 0 ∧ (k0.getX 1).toNat % 2 ^ 32 ≠ 0 ∧ k0.active = 0 ∧ k0.left = 0 ∧
    (demo j).issuer = some (env j) ∧ j.active ≠ 0 ∧ j.left ≠ 0 ∧
    (demo j).badTarget (env j).who (w64 fetchVa) = false ∧
    CanIssue (demo j) (env j) 0 [] [] := by decide +kernel

/-- `tasks`: translated accesses, room for records, full registers of a mask. -/
theorem test_meets_tasks : (demo k0).translated 0 16 = true ∧ k0.liveFull 6 = true ∧ (team k0).records < 1024 ∧
    (demo k0).poolRoom 1 6 = true := by decide +kernel

/-- `tasks`, TRAP: a launch with FHANDLER. -/
theorem test_meets_trap : Handled (demo k0) (env k0) :=
  ⟨by decide +kernel, by decide, rfl, rfl, { fetchLaunch with fhandler := w64 fetchVa }, by decide +kernel, by decide⟩

/-- `nopBreak`: DEBUG 0 and 1, and room in the fault queue. -/
theorem test_meets_nopBreak : (tabGet 0 ((demo k0).core 0).plane 7).getLsbD 0 = false ∧
    ((demo k0).die 0).fqFull = false ∧
    let s : State := { demo k0 with cores := [(0, { core0 with plane := [(0, w64 (2 ^ 63 + 1)), (7, 1)] })] }
    (tabGet 0 (s.core 0).plane 7).getLsbD 0 = true ∧ CanIssue s (env k0) 0 [] [] := by decide +kernel

/-- `controlRegisters`: a legal VSHAPE at its upper end, one past it. -/
theorem test_meets_controlRegisters :
    let v : W64 := 16 + 256 * 2 ^ 8 + 3 * 2 ^ 24
    let b : W64 := 17 + 32 * 2 ^ 8
    (1 ≤ v.toNat % 32 ∧ v.toNat % 32 ≤ 16 ∧ 1 ≤ v.toNat / 2 ^ 8 % 2 ^ 9 ∧
      v.toNat / 2 ^ 8 % 2 ^ 9 ≤ 32 * 2 ^ (v.toNat / 2 ^ 24 % 4)) ∧ ¬ b.toNat % 32 ≤ 16 := by decide

/-- The statements of vector forms: a legal shape that divides, full groups at the end of the file, a predicate
that fits and one that does not. -/
theorem test_meets_vectors : k0.Legal ∧ (31 : BitVec 5).toNat + (1 : BitVec 3).toNat ≤ 32 ∧
    CanIssue (demo k0) (env k0) 0 [.v 4 1 true, .v 5 1 false, .v 6 1 false] [.v 31 1] ∧
    CanIssue (demo k0) (env k0) 0 [.v 4 6 true, .x 1 false] [.v 26 6] ∧
    k0.shapeBits = 32 * FV.w zV ∧ k0.predFits 0 (FV.w zV) = true ∧
    ({ k0 with p := [(1, 0x4000)] } : Task).predFits 1 32 = false ∧
    ({ k0 with cols := 1, wc := 3 } : Task).shapeBits % 32 ≠ 0 := by
  unfold Task.Legal
  decide +kernel

/-- `vectorConvert`: BF16 to FP32 over two registers, and MK8 to BF16 with its scales. -/
theorem test_meets_vectorConvert :
    let f := { zV with mod := 1, g := 2 }
    k0.shapeBits = 32 * max (fmtWidth (f.mod.toNat % 16)) (FV.w f) ∧ k0.predFits f.p.toNat (FV.w f) = true ∧
    f.vd.toNat + convRegs f.g.toNat (FV.w f) (fmtWidth (f.mod.toNat % 16)) ≤ 32 ∧
    CanIssue (demo k0) (env k0) 0 [.v 4 (convRegs 2 16 32) true] [.v 0 (convRegs 2 32 16)] ∧
    let q := { zV with t := 3, mod := 0, vc := 9 }
    let cd := k0.shapeBits / FV.w q
    k0.shapeBits = 32 * max (fmtWidth (q.mod.toNat % 16)) (FV.w q) ∧ cd % 32 = 0 ∧
    (q.g.toNat * k0.rows.toNat * 32) % 32 = 0 ∧ k0.predFits q.p.toNat (FV.w q) = true ∧
    q.vd.toNat + convRegs q.g.toNat (FV.w q) (fmtWidth (q.mod.toNat % 16)) ≤ q.vc.toNat := by decide +kernel

/-- `vectorRearrange`: sixteen columns and more, operands inside and outside the tile. -/
theorem test_meets_vectorRearrange :
    let k := { k0 with cols := 16 }
    k.Legal ∧ k.shapeBits = 16 * FV.w zV ∧ k0.shapeBits = 32 * FV.w zV ∧ (k.getX 1).toNat < k.rows.toNat ∧
    ({ k with rows := 2 } : Task).rows.toNat ≤ (k.getX 1).toNat ∧ (k.getX 1).toNat ≤ 16 ∧
    CanIssue (demo k) (env k) 0 [.v 0 1 false, .v 1 1 false, .x 1 false] [.v 2 1] := by
  unfold Task.Legal
  decide +kernel

/-- `scalarAccess`, `tileAccess`, `markPrefetch`: nothing in the way of an access. -/
theorem demo_enterable (store : Bool) (sp : AccSpec) (h : sp.entries ≤ 6) :
    Enterable (demo k0) (env k0) store sp := by
  refine ⟨by decide +kernel, ?_, ?_⟩
  · have h1 : ((demo k0).core (env k0).core).loads = [] := rfl
    have h2 : ((demo k0).core (env k0).core).stores = [] := rfl
    cases store <;> simp [State.room, Core.loadsUsed, Core.storesUsed, h1, h2] <;> omega
  · have h1 : ((demo k0).core (env k0).core).sb = [] := rfl
    simp [State.sbHit, h1]

/-- `scalarAccess`: an address on the data page that translates, one on a page that must be walked, one that
faults beyond the scratchpad; and one that is not aligned. -/
theorem test_meets_scalarAccess :
    let r := fun a : W64 => (demo k0).place (env k0).who .plain false (oneAccess a 8 0 0)
    faultFirst (r 0x20000000).2.1 (r 0x20000000).2.2 = none ∧
    faultFirst (r 0x90000000).2.1 (r 0x90000000).2.2 = none ∧
    faultFirst (r (2 ^ 54 + 65536)).2.1 (r (2 ^ 54 + 65536)).2.2 = some (2 ^ 54 + 65536, cRange) ∧
    oneAccess 0x20000000 8 0 0 ≠ [] ∧ (0x20000004 : W64).toNat % accessBytes 3 ≠ 0 ∧
    (demo k0).memClear (env k0) = true ∧ (demo k0).sbHit (env k0) 0x20000004 8 = false ∧
    (demo k0).room 0 false 1 = true ∧ (demo k0).room 0 true 1 = true := by decide +kernel

/-- `tileAccess`: a predicate that fits and one that does not; an SQLD of one row of 32 bytes at the data page,
and one of too many. -/
theorem test_meets_tileAccess : k0.predFits 0 32 = true ∧
    ({ k0 with p := [(1, 0x4000)] } : Task).predFits 1 32 = false ∧
    k0.consume (FE2.cts zE) = some [] ∧ ¬ 2048 < 1 * 32 ∧ 2048 < 2 * 1025 ∧
    ((demo k0).placeAll (env k0).who .plain (sqldPieces 0x20000000 0 32 (min 1 2048) 0)).2 = none ∧
    ((demo k0).placeAll (env k0).who .plain (sqldPieces 0x20000000 0 32 (min 1 2048) 0)).1.any
      (fun p => (demo k0).sbHit (env k0) p.va.toNat p.len) = false ∧
    (demo k0).scalesHeld 0 + 32 ≤ 2048 := by decide +kernel

/-- Nothing holds an engine command, in any queue. -/
theorem demo_open (q : Queue) (after : Bool) (n : Nat) (h : n ≤ 32) : CmdOpen (demo k0) (env k0) q after n := by
  refine ⟨by decide +kernel, fun _ => by decide +kernel, ?_, ?_⟩
  · cases q <;> rfl
  · rw [show ((demo k0).core (env k0).core).sb = [] from rfl]
    simpa using h

/-- `markPrefetch`: MARK without tokens; VLDV and VSTV at a granule and beside one. -/
theorem test_meets_markPrefetch : k0.consume (FE2.cts zE) = some [] ∧
    (demo k0).granuleBad (env k0).who 0x30000000 false = none ∧
    (demo k0).granuleBad (env k0).who 0x30000040 false = some cAlign ∧
    k0.liveFull (k0.getX 1) = true ∧ (demo k0).poolRoom 1 (k0.getX 1) = true ∧
    CanIssue (demo k0) (env k0) 0 [.x 1 false, .x 2 false, .x 1 false] [.v 3 1] ∧
    CanIssue (demo k0) (env k0) 0 [.x 1 false, .x 2 false, .v 3 1 false] [] := by decide +kernel

/-- `matrixChecks` and `matrixCommands`: a free tile, an owned one, one lent to context 2, one beyond ACCT; a
token that nothing has produced; operands past the checks and short of them. -/
theorem test_meets_matrix : (7 : Nat) < (team k0).acct ∧ (team k0).tiles[7]? = some 7 ∧ (team k0).acct ≤ 8 ∧
    ((demo k0).core 0).owner 7 = 0 ∧
    (let s : State := { demo k0 with cores := [(0, { core0 with accown := [(0, 0x8002), (1, 0x8001)] })] };
      (s.core 0).owner 0 = 0x8002 ∧ (s.core 0).owner 1 = 0x8001) ∧
    k0.consume (FE2.cts { zE with cv0 := true }) = none ∧ k0.consume (FE2.cts zE) = some [] ∧
    ((demo k0).useTile (env k0) 7).toOption.map (·.1) = some 7 ∧
    (128 < 127 + 2) ∧ ¬ 128 < 127 + 1 ∧ (w64 (2 ^ 54)).toNat < 2 ^ 55 ∧ addrForm (w64 (2 ^ 54)).toNat = 1 ∧
    (demo k0).formBad (env k0) (w64 (2 ^ 54)) (16 + 16 * 4096) = true ∧
    (let s : State := { demo k0 with teams := [(16, { team k0 with allot := 2 })] };
      s.formBad { env k0 with team := { team k0 with allot := 2 } } (w64 (2 ^ 54)) (16 + 16 * 4096) = false) ∧
    k0.vIsEmpty 0 1 = false := by decide +kernel

/-- `copyCommands`: two ranges of the data page that do not overlap, granules of it, frames, an ACW of one word
with a return array; an object in the CSM. -/
theorem test_meets_copyCommands : (demo k0).formBad (env k0) 0x20000000 4096 = false ∧
    rangesOverlap 0x20000000 0x20001000 4096 = false ∧ (0x20000000 : W64).toNat % 4096 = 0 ∧
    addrForm (0x20000000 : W64).toNat ≠ 1 ∧
    (demo k0).objRange (env k0).who (w64 (2 ^ 54 + 2 ^ 48)) = false := by decide +kernel

/-- `semaphoreCommands`: WAITS and WAITB with their records' room, an object; SIGS of the largest amount and of
one more. -/
theorem test_meets_semaphoreCommands : k0.liveFull 6 = true ∧ (demo k0).poolRoom 1 6 = true ∧
    (demo k0).objKey (env k0).who (w64 (2 ^ 54 + 2 ^ 48)) = .ok (csmKey 0 0 0) ∧
    (w64 (2 ^ 54 + 2 ^ 48)).toNat % 16 = 0 ∧ (w64 (2 ^ 32 - 1)).toNat < 2 ^ 32 ∧ 2 ^ 32 ≤ (w64 (2 ^ 32)).toNat ∧
    (demo k0).translated 0 16 = true := by decide +kernel

/-- `fabricCommands`: on the communication master and on another core; targets at the ends of their ranges. -/
theorem test_meets_fabricCommands : ((demo k0).cluster (clusterOf 0)).master = some 0 ∧
    (let s : State := { demo k0 with clusters := [(0, { clusterReset with master := some 1 })] };
      (s.cluster (clusterOf 0)).master ≠ some 0) ∧
    (demo k0).formBad (env k0) 0x20000000 256 = false ∧ (0x20000000 : W64).toNat % 256 = 0 ∧
    (0 : W64) &&& ~~~ 0xFF0FFF = 0 ∧ (143 : Nat) < 144 ∧ (1024 ≤ 2047 ∧ (2047 : Nat) < 2048) := by decide +kernel

/-- `privilegedRegisters`: this core and another of the die, one of another die; a number in its row and past
it; a fault queue that is empty and one that is not; a tile that no command touches. -/
theorem test_meets_privilegedRegisters : selectCore (env k0) 0 = some 0 ∧
    selectCore (env k0) (w64 (2 ^ 31 + 127)) = some 127 ∧ selectCore (env k0) (w64 (2 ^ 31 + 128)) = none ∧
    regNumber 0x010 7 = some 0x17 ∧ regNumber 0x010 8 = none ∧ regNumber 0x001 0 = some 1 ∧
    regNumber 0x001 1 = none ∧ ((demo k0).die 0).fq = [] ∧
    (∃ i, i < 9 ∧ ((w64 4096).extractLsb' 0 13).toNat = 16 * 2 ^ i) ∧
    (demo k0).tileFree 0 7 = true := by
  refine ⟨by decide +kernel, by decide +kernel, by decide +kernel, by decide +kernel, by decide +kernel,
    by decide +kernel, by decide +kernel, by decide +kernel, ⟨8, by decide, by decide⟩, by decide +kernel⟩

/-- A state whose fault queue holds one record of a team 17 that waits to be requeued. -/
def faulted (f : FaultRec) (m : Team) : State := { demo k0 with
  dies := [(0, { dieReset with up := true, latched := true, fqbase := 0x300000000, fq := [f], fqtail := 1 })]
  teams := [(16, team k0), (17, m)] }

/-- `eretAccumulators`: a requeue record, a first task's, a BREAK's; an address without a record; an area at
the data page. -/
theorem test_meets_eretAccumulators :
    let f : FaultRec := ⟨0, cLoadNotPresent, 0, 17, 5, 0, 0, 0, 0, 0, false, false, false, 0, 0⟩
    let r : Rec := ⟨5, 0, 0, [], 0, 3, 0, 0, 0, 0, 0, 2, [], none, [], 0⟩
    let s := faulted f { team k0 with task := none, recs := [r] }
    s.faultAt 0 0x300000000 = some f ∧ (demo k0).faultAt 0 0x300000000 = none ∧ f.team ≠ 16 ∧
    requeues f.code true = true ∧ ([r].any fun q => q.id == f.origin && q.state == 3) = true ∧
    areaOperands (env { k0 with x := [(1, 0x20000000)] }) { zW with xa := 1 } = some (0, 0) := by decide +kernel

set_option maxRecDepth 100000 in
/-- `eretAccumulators`, ASAVE: the area translates and nothing refuses it. -/
theorem test_meets_asave : (((demo k0).spans (env k0).who .plain true (units 0x20000000 32768)).toOption.map
    fun sp => ((demo k0).spansRefused sp true).isNone && !(demo k0).spansBlocked 0 sp) = some true := by
  decide +kernel

/-- `translationControl`: contexts and frames at the ends of their ranges, a run in quarantine that is free to
go and one that is not. -/
theorem test_meets_translationControl : 4096 ≤ (w64 4096).toNat ∧ (w64 4095).toNat < 4096 ∧
    (w64 (2 ^ 13 - 1)).toNat < 2 ^ 13 ∧
    (demo k0).runClaimed (0x130000000 / 65536) 8192 = false ∧
    ({ demo k0 with qdone := 1 } : State).releasable ⟨1, 1, 0⟩ = true ∧
    (demo k0).releasable ⟨1, 1, 5⟩ = false := by decide +kernel

/-- `worldControl`: a list header of one entry; a die that is latched and one that is not. -/
theorem test_meets_worldControl :
    diffHeader (leBytes 2 1 ++ [0, 0] ++ leBytes 4 7 ++ leBytes 8 0) = some (1, 7) ∧
    ((demo k0).die 0).latched = true ∧ (State.reset.die 0).latched = false ∧
    (demo k0).translated 0 16 = true := by decide +kernel

/-! ## States that meet the statements' hypotheses: the machine -/

/-- `resetInv`, `stepKeepsInv`: states with the invariant. -/
theorem test_meets_stepKeepsInv : State.reset.Inv ∧ (demo k0).Inv := by
  unfold State.Inv
  decide +kernel

/-- `decodeEncode`: a well-formed instruction. -/
theorem test_meets_decodeEncode : (Instr.add { zS with xd := 3, xa := 1, xb := 2 }).WellFormed := ⟨rfl, rfl⟩

set_option maxRecDepth 4000 in
/-- `stepRunsDecoded`: the bytes at the PC are those of an instruction, on one page. -/
theorem test_meets_stepRunsDecoded :
    let s := State.reset.withFetchWord 32 0x00204300
    let i := Instr.add ⟨3, 1, 2, false, false⟩
    s.agenda = [] ∧ s.runner.isSome = true ∧ (s.runner.map fun e => s.badTarget e.who e.task.pc) = some false ∧ i.wf = true ∧
    (s.runner.bind fun e => (s.codeByte e e.task.pc).toOption) = some (fetchFrame, 0) ∧
    (encode i).length ≤ 65536 - (w64 fetchVa).toNat % 65536 ∧
    (s.runner.map fun e => (e.task.badFetch, (s.core e.core).icache.length)) = some (none, 0) ∧
    (s.runner.map fun e => s.codeBytes e.who e.task.pc.toNat 0 fetchFrame (encode i).length) = some (encode i) := by
  decide +kernel

/-- Two code pages of one section, and a task four bytes before the end of the first. -/
def straddle : State := { demo { k0 with pc := w64 (fetchVa + 65532) } with
  mem := [(0x10000FFFC, 0x01), (0x10000FFFD, 0x48), (0x10000FFFE, 0xA2), (0x10000FFFF, 0x40),
          (0x130000001, 0x04)]
  cores := [(0, { core0 with
    tlb := [⟨1, fetchVa / 65536, false, leaf 0x33 fetchFrame⟩,
            ⟨1, fetchVa / 65536 + 1, false, leaf 0x33 0x130000000⟩] })]
  sections := [⟨1, 0, 1, 0, fetchVa, 2, [fetchFrame / 65536, 0x130000000 / 65536], 2 ^ 32768 - 1, 0, true, 0⟩] }

/-- `stepRunsDecoded`: an instruction that spans two pages. -/
theorem test_meets_stepRunsDecoded_two :
    let i := Instr.divSw ⟨8, 9, 10, false, false, 0, 0, false, 1⟩
    straddle.agenda = [] ∧ straddle.runner.isSome = true ∧ i.wf = true ∧
    (straddle.runner.map fun e => straddle.badTarget e.who e.task.pc) = some false ∧
    (straddle.runner.bind fun e => (straddle.codeByte e e.task.pc).toOption) = some (fetchFrame + 65532, 0) ∧
    (straddle.runner.bind fun e => (straddle.codeByte e (e.task.pc + w64 4)).toOption) = some (0x130000000, 0) ∧
    (straddle.lockOf (fetchFrame + 65532)).map (·.id) = (straddle.lockOf 0x130000000).map (·.id) ∧
    (straddle.runner.map fun e => straddle.codeBytes e.who e.task.pc.toNat 0 (fetchFrame + 65532) 4 ++
      straddle.codeBytes e.who (e.task.pc + w64 4).toNat 0 0x130000000 4) = some (encode i) := by
  decide +kernel

/-- `stepTakes`: an input that waits; no task that runs. -/
theorem test_meets_stepTakes : Instr.isForm .powerLoss = false ∧ State.reset.runner = none ∧
    State.reset.agenda = [] := by decide

/-- The system context's team of die 0. -/
def sys0 : Team := { teamStart 0 0 0 0 0 0 0 0 [] [] with ready := [] }

/-- `demo` with the system context's team. -/
def withSys (k : Task) : State := { demo k with teams := [(1, sys0), (16, team k)] }

/-- `faultRecord`: a record's fields at their upper ends, and a queue below the end of HBM. -/
theorem test_meets_faultRecord : tabFind (withSys k0).teams (sysTeam 0) = some sys0 ∧ (255 : Nat) < 256 ∧
    (511 : Nat) < 512 ∧ ((withSys k0).die 0).tailAddr % 2 ^ 46 + 64 ≤ 0x003000000000 := by decide +kernel

theorem test_meets_faultRecord_writable : Writable (demo k0) 0 0x300000000 64 := demo_writable (by decide)

/-- `faultFates`: a task from a record and a first task, a queue with room and a full one, a launch without
FHANDLER, a handler task, a task of the system context. -/
theorem test_meets_faultFates :
    let r : Rec := ⟨5, 0, 0, [], 0, 2, 0, 0, 0, 0, 0, 2, [], none, [], 0⟩
    let k := { k0 with origin := some 5 }
    (team k0).ctx ≠ 0 ∧ requeues cLoadNotPresent false = true ∧ requeues cAlign false = false ∧
    (withSys k0).translated 0 16 = true ∧ k0.hold = .free ∧ (team k0).dead = false ∧ ((withSys k0).die 0).fqFull = false ∧
    ({ dieReset with fq := List.replicate 16 ⟨0, 0, 0, 0, 0, 0, 0, 0, 0, 0, false, false, false, 0, 0⟩ } : Die).fqFull = true ∧
    ([r].find? fun q => q.id == 5) = some r ∧ k.origin = some r.id ∧ k0.origin = none ∧
    fetchLaunch.fhandler = 0 ∧ sys0.ctx = 0 ∧ (16 : Nat) ≠ sysTeam 0 := by decide +kernel

/-- `taskStarts`: a first task, a task from a record, a core that is throttled and one that is not. -/
theorem test_meets_taskStarts :
    let r : Rec := ⟨5, 0, 6, [(1, 3)], 1, 1, 0, 0, 0, 0, 0, 2, [], none, [], 0⟩
    let m := { team k0 with task := none, ready := [0] }
    let n := { team k0 with task := none, ready := [5], recs := [r] }
    let s : State := { demo k0 with teams := [(16, m)] }
    let t : State := { demo k0 with teams := [(16, n)] }
    s.startCore 16 m = some 0 ∧ s.mayStart 16 m 0 = true ∧ (s.launchOf m).isSome = true ∧
    t.startCore 16 n = some 0 ∧ t.mayStart 16 n 0 = true ∧ (n.recs.find? fun r => r.id == 5) = some r ∧
    ¬ s.duty ≤ (s.die 0).gnomon.toNat % 16 ∧
    ({ s with duty := 4, dies := [(0, { dieReset with gnomon := 15 })] } : State).duty ≤ 15 % 16 := by decide +kernel

/-- `teamPlacement`: a launch whose team is not yet placed; a team that is over. -/
theorem test_meets_teamPlacement :
    let s : State := { demo k0 with
      teams := []
      ctxs := [(1, { (demo k0).ctx 1 with launches := [{ fetchLaunch with placed := 0 }] })] }
    let m := { team k0 with task := none }
    (s.serveCtx 1).map (fun r => (r.1, r.2.1)) = some ({ fetchLaunch with placed := 0 }, 0) ∧
    ((s.serveCtx 1).map fun r => s.rivals r.2.2 1) = some false ∧
    (demo k0).teamOver 16 m = true ∧ ((demo k0).die 0).lost = false := by decide +kernel

/-- `launchQueues`: a record in the ring with a free slot; contexts that are live and not. -/
theorem test_meets_launchQueues : (demo k0).freeLaunch 1 = some 1 ∧ (demo k0).headPrio 1 = some 0 ∧
    (demo k0).ctxState 1 = 1 ∧ (demo k0).ctxState 2 ≠ 1 ∧ (demo k0).homeResident 1 = true ∧
    ((demo k0).launchRing 1 0).used < ((demo k0).launchRing 1 0).size ∧
    ((demo k0).launchRing 1 1).size ≤ ((demo k0).launchRing 1 1).used := by decide +kernel

theorem test_meets_launchQueues_keys : Hbm (((demo k0).launchRing 1 0).key + 12) 4 ∧
    Hbm (((demo k0).launchRing 1 0).slotKey ((demo k0).launchRing 1 0).tail) 256 :=
  ⟨hbm_low (by decide +kernel), hbm_low (by decide +kernel)⟩

theorem test_meets_launchQueues_writable : Writable (demo k0) 0 (((demo k0).launchRing 1 0).key + 12) 8 ∧
    Writable (demo k0) 0 (((demo k0).launchRing 1 0).slotKey ((demo k0).launchRing 1 0).tail) 256 :=
  ⟨demo_writable (by decide +kernel), demo_writable (by decide +kernel)⟩

/-- `launchQueues`: a record that is accepted, and one that is refused. -/
theorem test_meets_launchRecord :
    let bs : List (BitVec 8) := [0, 0, 0, 0x10] ++ List.replicate 252 0
    bs.length = 256 ∧ ((demo k0).recordReason ((demo k0).fabricWho 1) 1 bs).toOption = some [] ∧
    ((demo k0).recordReason ((demo k0).fabricWho 1) 1 (List.replicate 256 0)).toOption = none := by decide +kernel

/-- `registerWrites`: the ends of PLIMIT and of a fairness word's number; a task stopped by BREAK; a result on
its way. -/
theorem test_meets_registerWrites : 1000000 ≤ 1000000 ∧ (3000000 : Nat) ≤ 3000000 ∧ (255 : Nat) < 256 ∧
    (7 : Nat) < 8 ∧ 100 + 0 + 0 = 100 ∧ 50 + 50 + 1 ≠ 100 ∧ ({ k0 with hold := .brk } : Task).hold = .brk ∧
    let r : Result := ⟨20, 16, some (3, 7), [], []⟩
    ([r].find? fun q => q.id == 20) = some r ∧ (tabFind (demo k0).teams r.team).isSome = true := by decide +kernel

/-- `registerWrites`: the result of a SEMRD. -/
theorem test_meets_registerWrites_semrd :
    let c := { newCmd (demo k0) (env k0) (.semrd zE3) zE .sync 20 [] 0 0 0 with regs := [3], sent := true }
    let s : State := { demo k0 with cores := [(0, { core0 with cmds := [c], results := [⟨20, 16, some (3, 7), [], []⟩] })] }
    (((s.core 0).results.find? fun q => q.id == 20).map (·.team)) = some 16 ∧ s.cmd 0 20 = some c ∧ c.queue = .sync ∧
    c.core = 0 := by decide +kernel

/-- `hostAccess`: the link up and down, a window that APCTL opens and one that it does not. -/
theorem test_meets_hostAccess : State.reset.linkUp = false ∧ ({ demo k0 with linkUp := true } : State).linkUp = true ∧
    ({ demo k0 with linkUp := true } : State).apertureSpans 0x300000000 8 false = none ∧
    ({ demo k0 with linkUp := true, apctl := 0x11 } : State).ctxState (0x11 / 16 % 4096) = 1 ∧
    ({ demo k0 with apctl := 0x21 } : State).ctxState ((0x21 : W64).toNat / 16 % 4096) ≠ 1 ∧
    2 ≤ (2 : W64).toNat % 4 ∧ (4095 : Nat) < 4096 ∧ (2 ^ 33 - 1 : Nat) < 2 ^ 33 := by decide +kernel

/-! ## States that meet the statements' hypotheses: memory, engines, synchronization -/

/-- A load and a store of eight bytes of the data page, placed and at the heads of their queues. -/
def acc (kind : AccKind) (dst : LoadDst) : Access where
  id := 20; team := 16; ctx := 1; seq := 0; pc := 0; kind := kind; entries := 1; xlate := false
  pieces := [{ newPiece 0x20000000 8 7 0xFFFFFFFFFFFFFFFF with loc := some (.mem 0x110000000) }]
  dst := dst; rel := none; acq := false; inOrder := false; grain := 1; cmd := 0

/-- `demo` with a load and a store in the queues. -/
def queued (l st : List Access) : State := { demo k0 with
  cores := [(0, { core0 with loads := l, stores := st })], nextId := 30 }

/-- `loadsStores`: a load that may take its value here, one from host memory; a store on its way and one at
its ordering point, in HBM and in a scratchpad. -/
theorem test_meets_loadsStores :
    let l := acc .load (.x 3 8 false)
    let s := queued [l] []
    let h := { l with pieces := l.pieces.map fun p => { p with loc := some (.host 0) } }
    let t := queued [h] []
    let w := acc .store .none
    let u := queued [] [w]
    let pad := { w with pieces := w.pieces.map fun p => { p with loc := some (.mem (padKey 16)), stage := 3 } }
    let v := queued [] [pad]
    (l.pieces[0]?).map (s.mayLoad 0 l 0) = some true ∧ s.locLost (.mem 0x110000000) = false ∧
    s.refused 0 0x110000000 false = false ∧ (h.pieces[0]?).map (t.mayLoad 0 h 0) = some true ∧
    t.locLost (.host 0) = false ∧ (w.pieces[0]?).map (fun p => u.mayStore 0 w 0 p 1) = some true ∧
    (w.pieces[0]?).map (fun p => u.mayStore 0 w 0 p 4) = some true ∧
    (w.pieces[0]?).map u.onBarrier = some false ∧ u.refused 0 0x110000000 true = false ∧
    (pad.pieces[0]?).map (fun p => v.mayStore 0 pad 0 p 4) = some true ∧ 2 ^ 57 ≤ padKey 16 ∧ w.grain ≤ 1 := by
  decide +kernel

/-- `loadsStores`: a page of a lost die, one under a killed key, and a store to another package. -/
theorem test_meets_loadsStores_refused :
    let s : State := { demo k0 with dies := [(0, { dieReset with up := true, lost := true })] }
    let t : State := { demo k0 with mkeys := [(9, 2, 0)] }
    let r := { newPiece 0x20000000 8 7 0xFFFFFFFFFFFFFFFF with loc := some (.remote 5 0x110000000), stage := 2 }
    let u : State := { demo k0 with ports := [(3, { portReset with up := true, shares := (0, 100, 0) })] }
    s.locLost (.mem 0x110000000) = true ∧ t.locLost (.mem 0x110000000) = false ∧ t.refused 9 0x110000000 false = true ∧
    u.locLost (.remote 5 0x110000000) = false ∧ u.pieceRoom r 3 = true ∧ (u.planeFor 5 0x110000000).isSome = true ∧
    k0.seq = (acc .load .none).seq ∧ (tabFind (demo k0).teams 16).isSome = true := by decide +kernel

theorem test_meets_loadsStores_hbm : Hbm 0x110000000 8 := hbm_low (by decide)

/-- `demo` with a page table that maps 0x90000000, and an access to it that waits for its walk. -/
def walking (kind : AccKind) : State :=
  let a := { acc kind (.x 3 8 false) with xlate := true, pieces := [newPiece 0x90000000 8 0 0] }
  let s : State := { queued [a] [] with
    cores := [(0, { core0 with plane := [(0, w64 (2 ^ 63 + 1)), (1, 0x140000000)], loads := [a] })] }
  ((s.writeNat 0 0x140000000 8 (leaf 1 0x150000000).toNat).writeNat 0 0x150000020 8
    (leaf 1 0x160000000).toNat).writeNat 0 0x160008000 8 (leaf 0x0F 0x170000000).toNat

/-- `walks`: a page that the tables map, and one that they do not; a prefetch. -/
theorem test_meets_walks :
    let s := walking .load
    (walking .prefetch).walk ⟨0, 16, 1⟩ 0x90000000 .read = .ok (leaf 0x0F 0x170000000, false) ∧
    s.walk ⟨0, 16, 1⟩ 0x90000000 .read = .ok (leaf 0x0F 0x170000000, false) ∧
    s.walk ⟨0, 16, 1⟩ 0xA0000000 .read = .error cLoadNotPresent ∧
    (((s.core 0).loads ++ (s.core 0).stores).find? fun a => a.id == 20 && a.xlate).isSome = true ∧
    ((s.core 0).loads.map fun a => (a.nextMiss.map (·.va), s.hasWalker 0 a)) = [(some 0x90000000, true)] ∧
    (s.check ⟨0, 16, 1⟩ true 0x90000000 8 .plain false = .miss) ∧
    (walking .prefetch).check ⟨0, 16, 1⟩ true 0x20000000 1 .plain false = .ok (.mem 0x110000000) 0 ∧
    (walking .prefetch).look ⟨0, 16, 1⟩ 0x40000000 1 .plain false = .bad cSealAccess ∧
    (let e := { k0 with hold := .ending 5 };
      (({ s with teams := [(16, team e)] } : State).translated 0 16 = false ∧ e.hold = .ending 5)) := by decide +kernel

/-- `semaphores`: a request that takes and one that joins, an addition that fits and one that overflows. -/
theorem test_meets_semaphores :
    let r : Rec := ⟨5, 0, 0, [], 1, 0, 0, 0, 0, 0, 0, 2, [], none, [], 0⟩
    let s : State := { demo k0 with
      teams := [(16, { team k0 with recs := [r] })]
      ctxs := [(1, { (demo k0).ctx 1 with sems := [(3, 2)] })]
      reqs := [(20, .semWait 1 3 (.task 16 5 2)), (21, .semSig 1 3 4 0 0 0 0 5 none 0)] }
    tabFind s.reqs 20 = some (.semWait 1 3 (.task 16 5 2)) ∧ s.semsHere 1 = true ∧ s.recOf 16 5 = some r ∧
    r.state = 0 ∧ s.endsLater 16 5 = false ∧ s.depsDone r.deps = true ∧ (s.die (s.homeDie 1)).lost = false ∧ s.semChain 1 3 = [] ∧
    2 ≤ (s.semVal 1 3).toNat ∧ ¬ 3 ≤ (s.semVal 1 3).toNat ∧
    tabFind s.reqs 21 = some (.semSig 1 3 4 0 0 0 0 5 none 0) ∧ s.mayAdd 1 0 0 0 5 none = true ∧
    (s.semVal 1 3).toNat + 4 < 2 ^ 32 ∧ 2 ^ 32 ≤ (s.semVal 1 3).toNat + (2 ^ 32 - 2) := by decide +kernel

/-- A command of the small state's task. -/
def cmdOf (i : Instr) (q : Queue) (a b c : W64) : Cmd := newCmd (demo k0) (env k0) i zE q 20 [] a b c

/-- `demo` with one command. -/
def holding (c : Cmd) : State := { demo k0 with
  cores := [(0, { core0 with cmds := [c] })], openCmds := [20], nextId := 30 }

/-- `semaphores`, SEMRD, and a wait field. -/
theorem test_meets_semRead :
    let c := { cmdOf (.semrd { zE3 with e := { zE with xa := 3 }, imm := 3 }) .sync 0 0 0 with regs := [3] }
    let s := holding c
    let t : State := { s with reqs := [(21, .semWait 1 3 (.cmd 0 20))] }
    s.cmd 0 20 = some c ∧ s.depsDone c.deps = true ∧ s.semsHere c.ctx = true ∧ t.cmdReady c = true ∧
    c.sent = false ∧ ((s.core 0).results.map (·.id)) = [] := by
  decide +kernel

/-- `semaphores`: a SIGS whose command is there; an addition of the fabric, with the semaphores at their home die
and with the context out of it. -/
theorem test_meets_semAdds :
    let c := { cmdOf (.sigs zE) .sync 0 3 1 with sent := true }
    let s : State := { holding c with
      reqs := [(21, .semSig 1 3 1 16 20 0 0 4 (some []) 0), (22, .fabricAdd 1 3 16 0 0 0)] }
    let t : State := { s with ctxs := [(1, { s.ctx 1 with resid := [] })] }
    (s.cmd 0 20).isSome = true ∧ s.mayAdd 1 16 20 0 4 (some []) = true ∧ s.semsHere 1 = true ∧
    tabFind s.reqs 22 = some (.fabricAdd 1 3 16 0 0 0) ∧ t.semsHere 1 = false ∧
    ({ s with dies := [(0, { dieReset with up := true, lost := true })] } : State).semsHere 1 = true := by decide +kernel

/-- `barriers`: an arrival, a store to the object, a wait, a deadline, an unlink. -/
theorem test_meets_barriers :
    let obj := w64 (2 ^ 54 + 2 ^ 48)
    let c := cmdOf (.acwArrive { zE3 with imm := 36 }) (.copy 0) obj 1 0
    let s := holding c
    let k := csmKey 0 0 0
    let w := { acc .store .none with pieces :=
      [{ newPiece (2 ^ 54 + 2 ^ 48) 8 0x700050005 0xFFFFFFFFFFFFFFFF with loc := some (.mem k) }] }
    let u : State := { queued [] [w] with barriers := [k] }
    let r : Rec := ⟨5, 0, 0, [], 2, 0, 0, 0, 1, 0, 0, 2, [], none, [], 0⟩
    let v : State := { demo k0 with
      teams := [(16, { team k0 with recs := [r] })], reqs := [(20, .barWait k 0 1 16 5), (21, .unlink k 16 5)]
      barChains := [(k, [.task 16 5 0])] }
    s.cmd 0 20 = some c ∧ s.cmdRuns c = true ∧ s.acwReleased c true = true ∧ s.objKey c.who c.xa = .ok k ∧
    s.readBlocked 0 (.mem k) 16 = false ∧ (s.bar k).pending < 1 ∧
    (w.pieces[0]?).map (fun p => u.mayStore 0 w 0 p 4 && u.onBarrier p) = some true ∧
    v.recOf 16 5 = some r ∧ (v.bar k).phase = 0 ∧ (v.bar k).phase ≠ 7 ∧ v.teamOfRec 5 = some 16 ∧
    v.barOf 16 5 = some k ∧ tabGet .out (v.ctx 1).resid 0 = .resident ∧
    (v.die 0).gnomon.toNat < r.deadline := by decide +kernel

theorem test_meets_csmObj : CsmObj (csmKey 0 0 0) := ⟨0, 0, 0, by decide, by decide, by decide, rfl⟩

/-- The table under R267: the first arrival of 2 at an object with EXPECT 5, PENDING 5, PHASE 7, and an arrival
of 2 at one with PENDING 1, which sets ERR. -/
theorem test_barrier_arrive :
    let at0 := fun v : Nat => (demo k0).writeNat 0 (csmKey 0 0 0) 16 v
    (((at0 0x0000000700050005).arrive (csmKey 0 0 0) 2).2.readNat 0 (csmKey 0 0 0) 8 = 0x0000000700030005) ∧
    ((at0 0x0000000700010005).arrive (csmKey 0 0 0) 2).1 % 256 = cBarrierOverrun ∧
    (((at0 0x0000000700010005).arrive (csmKey 0 0 0) 2).2.readNat 0 (csmKey 0 0 0) 8 = 0x0000001700010005) := by
  decide +kernel

/-- `copies`: a CPY of 8 bytes within the data page, one from a page that is absent, an ACW of one word whose
element stands translated. -/
theorem test_meets_copies :
    let c := cmdOf (.cpy zE3) (.copy 0) 0x20000100 0x20000000 8
    let s := holding c
    let d := cmdOf (.cpy zE3) (.copy 0) 0x20000100 0x90000000 8
    let f := { zE3 with imm := 64 }
    let a := { cmdOf (.acw f) (.copy 0) 0x20000000 1 0 with
      units := [{ newPiece 0x20000000 4 0 0 with loc := some (.mem 0x110000000) }] }
    let t := holding a
    s.cmd 0 20 = some c ∧ s.cmdRuns c = true ∧
    ((s.spans c.who .plain false (units c.xb.toNat 8)).toOption.map fun r =>
      !s.spansBlocked 0 r && (s.spansRefused r false).isNone) = some true ∧
    ((s.spans c.who .plain true (units c.xa.toNat 8)).toOption.isSome) = true ∧
    parks cLoadNotPresent = true ∧
    ((holding d).spans d.who .plain false (units d.xb.toNat 8)).toOption.isNone = true ∧
    t.cmdRuns a = true ∧ t.acwReleased a false = true ∧ acwWidth 1 = 4 ∧
    t.readBlocked 0 (.mem 0x110000000) 4 = false ∧ t.refused 0 0x110000000 true = false ∧
    c.parked = false ∧ (20 : Nat) < 2 ^ 40 := by decide +kernel

/-- `copies`, CPYS and CPYV. -/
theorem test_meets_copies_sealed :
    let c := cmdOf (.cpys zE3) (.copy 0) 0x40000000 0x40001000 4096
    let s := holding c
    (s.spans c.who .sealed true [(0x40000000, 8)]).toOption.isSome = true ∧
    (let v := cmdOf (.cpyv zE3) (.copy 0) 0x20000000 0x30000000 0;
     (s.granule v.who 0x30000000 false).toOption.isSome = true) := by decide +kernel

/-- A versioned request of the task of 16. -/
def vreq (op : VOp) (v : W64) : VReq where
  op := op; src := .task 16 0; ctx := 1; pc := 0; va := 0x30000000; count := 1; ver := v; rows := [5]; got := []
  dst := [0]; xm := 0; scope := 4; seq := 20; held := false; answer := none; msg := none; region := 0; granule := 0

/-- `versions`: a create of the next version, of one beyond the floor, of 2^32 − 1, and of one out of order; a
read of each kind; a query, a release, an answer. -/
theorem test_meets_versions :
    let s : State := { demo k0 with vreqs := [(20, vreq .create 1)] }
    let a := { acc .ver .none with pieces := [{ newPiece 0x30000000 128 1 0 with loc := some (.region 0) }] }
    let t := queued [a] [a]
    (s.createSpan ((vreq .create 1).who 16 0) 0x30000000 0).toOption.isSome = true ∧
    s.releaseReady 0 16 20 4 = true ∧ s.olderPlaced 0 16 20 = true ∧
    ((s.createSpan ((vreq .create 1).who 16 0) 0x30000000 0).toOption.map fun r =>
      (r.1, r.2.2, r.2.1.k, r.2.1.floor, r.2.1.w, s.latest 1 r.2.1 0)) = some (0, 0, 2, 0, 1, 0) ∧
    (t.verAccess 20 false).isSome = true ∧ (t.verAccess 20 true).isSome = true ∧
    (t.granule ⟨0, 16, 1⟩ 0x30000000 false).toOption.isSome = true ∧ tabGet [] t.pwait 256 = [] := by
  decide +kernel

theorem test_meets_versions_keys : Hbm 0x210000000 128 ∧ Hbm 0x220000000 4 ∧ Hbm (0x200000000 + 20) 4 :=
  ⟨hbm_low (by decide), hbm_low (by decide), hbm_low (by decide)⟩

/-- `matrixEngine`: commands of each kind that may start, and row steps. -/
theorem test_meets_matrixEngine :
    let z := { cmdOf (.mzero { zE with xa := 3 }) .matrix 0 0 0 with tile := some 3 }
    let m := { cmdOf (.mma { zE3 with imm := 0x10 }) .matrix 0x20000000 0 0 with
      tile := some 0, started := true, sent := true }
    let d := { cmdOf (.mdrain { zE3 with imm := 9 * 16 }) .matrix 0x20000000 0 0 with tile := some 0, started := true }
    let q := { cmdOf (.mqry { zE3 with e := { zE with xa := 3 } }) .matrix 0 0 0 with regs := [3] }
    let g := { cmdOf (.mmag { zE3 with imm := 0x10 }) .matrix (w64 (2 ^ 54)) 0 0 with
      tile := some 0, started := true, sent := true }
    (holding z).oldestStart 0 = some z ∧ (holding q).oldestStart 0 = some q ∧
    (holding { m with started := false, sent := false }).oldestStart 0 = some { m with started := false, sent := false } ∧
    byRows m.instr = true ∧ usesArray m.instr = true ∧ (holding m).cmd 0 20 = some m ∧
    (holding d).cmd 0 20 = some d ∧ usesArray d.instr = false ∧ (holding g).cmd 0 20 = some g ∧
    (tabFind (holding m).teams m.team).isSome = true := by decide +kernel

/-! ## States that meet the statements' hypotheses: fabric, scheduling, security, health -/

/-- A WRITE entry of 8 bytes at the data page (R277). -/
def entry0 : FEntry := ⟨20, 16, 1, 0, 0, BitVec.ofNat 512 (8 * 2 ^ 96 + 0x20000000 * 2 ^ 128 + 0x20000000 * 2 ^ 256), 0, 0, 0⟩

/-- `demo` with queue pair 0 of cluster 0 open for C0x001 to package 5, and its engine's state. -/
def paired' (q : Qp) : State :=
  let s : State := { demo k0 with clusters := [(0, { clusterReset with master := some 0, qps := [(0, q)] })], nextId := 30 }
  ((s.writeNat 0 (qpKey 0 0) 1 1).writeNat 0 (qpKey 0 0 + 4) 2 1).writeNat 0 (qpKey 0 0 + 8) 1 5

/-- A message of that queue pair. -/
def msg0 : FabricMsg where
  kind := 0; spkg := 5; sctx := 1; scl := 0; qp := 0; fput := false; eth := none; tpkg := 0; tctx := 1; key := 0
  gang := 0; va := 0x20000000; sva := 0; ver := 0; msgno := 0; rsem := none; windowed := false
  payload := [1, 2, 3, 4, 5, 6, 7, 8]; team := 16; ref := 20

/-- `fabricEntries`: a record in order, a queue pair that is open and one that is not, an entry that fires, one
that is complete, an item that leaves, a message that came back, FFLUSH and LAUNCH. -/
theorem test_meets_fabricEntries :
    let q := { qpNone with entries := [entry0] }
    let s := paired' q
    let c := cmdOf (.fqpost zE3) .fabric 0x20000000 0 0
    let t := holding c
    let done := { qpNone with entries := [{ entry0 with ref := 21, made := 1 }] }
    let i : FItem := ⟨20, { msg0 with spkg := 0, tpkg := 5 }, []⟩
    let u : State := { paired' { done with out := [i] } with
      ports := [(3, { portReset with up := true, shares := (0, 100, 0) })] }
    let fl := cmdOf (.fflush zE3) .sync 5 0 0
    let la := { cmdOf (.launch zE3) .sync 0x20000000 1 0 with sent := true }
    entryOk entry0.record = true ∧ (s.qpDesc 0 0).state = 1 ∧ (s.qpDesc 0 0).ctx = 1 ∧
    (t.qpDesc 0 0).state ≠ 1 ∧ t.findCmd 20 = some c ∧ t.cmdRuns c = true ∧ t.mailboxTurn c = true ∧
    (t.statusSpan c).toOption.isSome = true ∧ q.next = some entry0 ∧ s.armed entry0 = true ∧
    s.targetLost (s.qpDesc 0 0).target = false ∧ entOp entry0.record = 0 ∧ entLen entry0.record = 8 ∧
    ({ s with lostPkgs := [5] } : State).targetLost 5 = true ∧
    entryMsgs entry0.record ≤ 1 ∧ (paired' done).entryWritten 0 20 = true ∧ entSem entry0.record 6 = none ∧
    (u.readyQps 3).length = 1 ∧ (u.portRoom 3 = true) ∧
    ((tabGet portReset u.ports 3).choose (u.readyQps 3 ++ u.readyPuts 3)).map (·.1) = some 0 ∧
    (holding fl).findCmd 20 = some fl ∧ (holding fl).cmdRuns fl = true ∧ (holding fl).flushed fl 5 = true ∧
    (holding la).findCmd 20 = some la := by decide +kernel

/-- `fabricArrives`: a message to a live context with its key, with another, and to one that is not; an export
that admits an access and one that does not. -/
theorem test_meets_fabricArrives :
    let s : State := { demo k0 with
      ctxs := [(1, { (demo k0).ctx 1 with rkey := some 0 })]
      exports := [⟨5, 1, 0x110000000, 65536, true, false⟩] }
    let r : RemoteReq := { pkg := 5, ctx := 1, write := false, addr := 0x110000000, len := 8, data := 0, key := 0, ref := 1, atomic := none }
    s.net = [] ∧ msg0.spkg ≠ s.pkg.toNat ∧ s.msgWaits msg0 [] = false ∧ (s.ctx 1).rkey = some 0 ∧
    s.ctxState 1 = 1 ∧ s.ctxState 2 ≠ 1 ∧ s.ctxState 2 ≠ 2 ∧ s.homeResident 1 = true ∧
    ((s.spans (s.fabricWho 1) .plain true (units msg0.va.toNat 8)).toOption.map fun l => l.length) = some 1 ∧
    (s.land 1).size ≤ (s.land 1).count ∧ s.remoteBad r = none ∧ s.exported { r with write := true } = false ∧
    tabGet Resid.out ({ (s.ctx 1) with resid := [(0, .arriving)] } : Ctx).resid 0 = .arriving := by decide +kernel

/-- `quanta`: a core whose quantum is not over and one whose quantum is, one that may take a plane, one that is
halted and drained. -/
theorem test_meets_quanta :
    let late : State := { demo k0 with dies := [(0, { (demo k0).die 0 with gnomon := 188000 })] }
    let none1 : State := { demo k0 with
      teams := [(16, team k0)]
      cores := [(0, { core0 with plane := [], shadowSt := 1, shadow := [(0, w64 (2 ^ 63 + 1))] })] }
    let hal : State := { demo k0 with cores := [(0, { core0 with halting := true })] }
    (demo k0).coreUsable 0 = true ∧ ((demo k0).core 0).halting = false ∧ ((demo k0).core 0).activeCtx = some 1 ∧
    ((demo k0).die 0).gnomon.toNat < ((demo k0).core 0).quantum + 188000 ∧ (demo k0).hasWork 0 1 = true ∧
    (late.newQuantum 0 (late.core 0).kept).nextCtx 0 (some 1) = some 1 ∧
    (late.core 0).quantum + 188000 ≤ (late.die 0).gnomon.toNat ∧
    none1.idle 0 = true ∧ none1.nextCtx 0 none = some 1 ∧ (none1.core 0).shadowSt = 1 ∧
    none1.readNat (none1.ctxKey 1) (none1.dirKey 1 0 + 24) 1 = 0 ∧
    hal.saved 0 1 = false ∧ hal.drained 0 1 = true ∧ hal.entriesOf 0 1 = [] ∧ hal.residOn 1 0 ≠ .leaving := by
  decide +kernel

/-- `residency`: a die with a choice due and one without, and each move of a context. -/
theorem test_meets_residency :
    let on := fun r : Resid => ({ demo k0 with ctxs := [(1, { (demo k0).ctx 1 with resid := [(0, r)] })] } : State)
    ((demo k0).die 0).up = true ∧ ((demo k0).die 0).lost = false ∧
    (188000 : Nat) / 188000 > ((demo k0).die 0).choice ∧ (0 : Nat) / 188000 ≤ ((demo k0).die 0).choice ∧
    (on .arriving).residOn 1 0 = .arriving ∧ (on .resident).residOn 1 0 = .resident ∧
    (on .leaving).offDie 0 1 = false ∧
    ({ on .leaving with cores := [] } : State).offDie 0 1 = true ∧
    (({ on .out with cores := [], teams := [], ctxs := [(1, { (demo k0).ctx 1 with resid := [] })] } : State).slotHolders
      0).length < 16 := by decide +kernel

/-- `fairness`: a tick, a window and a microsecond that are due; an entry that spins. -/
theorem test_meets_fairness :
    let f := { fairReset with valid := true, spins := [(1, 0)] }
    (1 : Nat) * 47000 ≤ 47000 ∧ (1 : Nat) % 200 ≠ 0 ∧ (1 : Nat) * 9400000 ≤ 9400000 ∧ 1 * 200 ≤ 199 + 1 ∧
    1 * 10000 ≤ 10000 ∧ 0 < min ((940 : Nat) / 940) ((0 + 1) * 10000) ∧ f.valid = true ∧ f.spin ≠ 0 ∧
    f.spins = [(1, 0)] ∧ tabFind [(3, f)] 3 = some f ∧ (93999 : Nat) < 0 + 940 * f.spin ∧ 0 + 940 * f.spin ≤ (94000 : Nat) ∧
    (0 : Nat) < 9400 / 9400 ∧ (demo k0).moveOrder 0 = [] ∧
    ((dieCores 0).map (demo k0).padFree).all (fun n => n ≤ 32) = true ∧
    (demo k0).coreFor 0 2 1 8 = some 0 := by decide +kernel

/-- `demo` with a request of operation `op` at the head of die 0's ring, in C0x001's world. -/
def asking (op : Nat) : State :=
  let s : State := { demo k0 with dies := [(0, { (demo k0).die 0 with bells := [(1, 0)] })] }
  (s.writeNat 0 (reqKey 0 0) 1 op).writeNat 0 (reqKey 0 0 + 4) 2 1

theorem test_meets_asked : Asked (asking 1) 0 0 1 [(8, 1), (16, 2)] ∧ Asked (asking 2) 0 0 2 [(8, 2)] ∧
    Asked (asking 3) 0 0 3 [(8, 2), (16, 8)] ∧ Asked (asking 4) 0 0 4 [(8, 2)] ∧
    Asked (asking 5) 0 0 5 [(8, 2), (10, 2), (16, 4), (20, 4), (24, 48)] ∧ Asked (asking 6) 0 0 6 [(8, 2)] ∧
    Asked (asking 7) 0 0 7 [(16, 8), (24, 48)] ∧ Asked (asking 8) 0 0 8 [(16, 8)] ∧
    Asked (asking 9) 0 0 9 [(16, 8)] ∧ Asked (asking 10) 0 0 10 [] ∧
    Asked (asking 11) 0 0 11 [(8, 2), (10, 2), (16, 8)] := by
  refine ⟨?_, ?_, ?_, ?_, ?_, ?_, ?_, ?_, ?_, ?_, ?_⟩ <;> (unfold Asked; decide +kernel)

/-- `keys`, `confidential`, `reclaim`: the world agrees; a free key index; a live context; a free slot. -/
theorem test_meets_keys : ((asking 1).die 0).latched = true ∧ ((asking 1).die 0).world.toNat = (asking 1).worldOf 1 ∧
    tabFind (asking 1).mkeys 1 = none ∧ ¬ (∃ r ∈ (asking 1).scrubs, r.die = 0) ∧ (asking 3).ctxState 1 = 1 ∧
    tabFind ((asking 3).die 0).slots 0 = none ∧ (asking 8).firstAccept 0 1 = true ∧
    (asking 10).reqF 0 0 4 2 % 4096 ≠ 0 ∧ (asking 11).scrubRuns 0 0 = some [] ∧
    (asking 1).quiesced 0 = true := by decide +kernel

/-- `scanner`: a request at the head of the doorbells. -/
theorem test_meets_scanner :
    let s : State := { demo k0 with dies := [(0, { (demo k0).die 0 with bells := [(0, 3)] })] }
    ((s.die 0).bells.filter fun b => b.1 == 0).head? = some (0, 3) ∧ s.scanBad 0 (s.scanReq 0 3) = true ∧
    (s.sections.find? fun c => c.die == 0 && !c.admitted) = none := by decide +kernel

/-- `reclaim`: a scrub whose frame may be zeroed. -/
theorem test_meets_reclaim :
    let r : ScrubRec := { die := 0, key := 7, runs := [(0x18000, 2)], run := 0, frame := 0, epoch := 0, sem := 0, slot := 0 }
    ([r].find? fun r => r.key == 7) = some r ∧ r.runs[r.run]? = some (0x18000, 2) ∧
    (demo k0).quiesced r.epoch = true ∧ ((demo k0).die 0).up = true ∧
    r.advance.run < r.runs.length ∧ r.runs.length ≤ r.advance.advance.run := by decide +kernel

theorem test_meets_reclaim_frame : Hbm (physKey 0 (65536 * (0x18000 + 0))) 65536 := hbm_low (by decide)

/-- `powerUp`: a die that is down; the three cases of a power window. -/
theorem test_meets_powerUp : (State.reset.die 3).up = false ∧ (State.reset.die 3).lost = false ∧
    State.reset.plimit < 2600001 ∧ 2470000 * 100 ≤ State.reset.plimit * 95 ∧
    State.reset.plimit * 95 < 2470001 * 100 ∧ 2470001 ≤ State.reset.plimit := by decide

/-- `machineChecks`: codes at the ends of their range; contexts of each kind. -/
theorem test_meets_machineChecks : 0xE0 ≤ 0xE6 ∧ ((demo k0).die 0).lost = false ∧
    tabFind (demo k0).teams (sysTeam 0) = none ∧ tabFind (withSys k0).teams (sysTeam 0) = some sys0 ∧
    sys0.core = some 0 ∧ ((demo k0).ctx 2).launches = [] ∧ ((demo k0).ctx 1).launches.length = 1 ∧
    (demo k0).doomed = [] ∧ ((demo k0).die 0).fqFull = false ∧
    (demo k0).lostDies.contains (5, 0) = false := by decide +kernel

/-- `links`: the host link and a scale-up link that are up; a flit in order, a repeat, one that came early. -/
theorem test_meets_links :
    let s : State := { demo k0 with linkUp := true, ports := [(3, { portReset with up := true, expect := 5 })] }
    s.portUp 24 = true ∧ s.portUp 3 = true ∧ (5 : BitVec 12) = (s.port 3).expect ∧
    seqBefore 4 ((s.port 3).expect - 1) = true ∧ seqBefore 6 ((s.port 3).expect - 1) = false ∧
    (s.port 3).replays < 16 ∧ (s.setPort 3 { s.port 3 with up := false }).livePlanes = [] := by decide +kernel

/-! ## States that meet the statements' hypotheses: further clauses -/


/-- A record for MREC and MLDB: a BF16 weight, K 16 and N 1, whose one column starts at the data page (R230). -/
def rec1 : BitVec 512 := BitVec.ofNat 512 (0x20000000 + 32 * 2 ^ 64 + 16 * 2 ^ 96 + 1 * 2 ^ 224 + 1 * 2 ^ 240)

/-- Its load descriptor for buffer 0. -/
def desc1 : BufDesc := ⟨rec1, 0, 0, 1, 16, 1, 20⟩

/-- `demo` with one command, the record in slot 0, and buffer 0 loaded or not. -/
def engine (c : Cmd) (full : Bool) : State := { holding c with
  teams := [(16, { team k0 with qrec := [(0, rec1)], bufs := [(0, desc1)] })]
  cores := [(0, { core0 with
    cmds := [c]
    bufs := if full then [(0, { team := 16, stamp := 20, cols := [], scales := [], sect := none, grant := none })]
      else [] })] }

/-- Has it been read? -/
def ofOk {α : Type} : Got α → Bool
  | .ok _ => true
  | _ => false

/-- `matrixEngine`: MREC of a good record, MLDB, and a started MMA whose buffer holds its tile or does not. -/
theorem test_meets_matrixEngine_loads :
    let r := cmdOf (.mrec zE3) .matrix 0x20000000 0 0
    let l := cmdOf (.mldb zE3) .matrix 0 0 0
    let a := { cmdOf (.mma { zE3 with imm := 1 * 16 }) .matrix 0x20000000 0 0 with
      tile := some 0, started := true, sent := true }
    (engine r false).oldestStart 0 = some r ∧
    ofOk ((engine r false).engineRead r .plain 0x20000000 64) = true ∧
    recordBad rec1 = false ∧ recordBad 0 = true ∧
    (engine l false).oldestStart 0 = some l ∧ descOf rec1 0 0 1 20 = some desc1 ∧
    ofOk (((engine l false).fillLoad l desc1).fillBuf l desc1) = true ∧
    (engine a true).cmd 0 20 = some a ∧ (engine a true).tileThere a 0 desc1 = true ∧
    (engine a false).tileThere a 0 desc1 = false ∧ a.needs = some 0 ∧ a.status = 0 := by decide +kernel

/-- `matrixEngine`: rows of a pass from memory and from vectors, of MRANK and of MDRAIN. -/
theorem test_meets_matrixEngine_rows :
    let a := { cmdOf (.mma { zE3 with imm := 1 * 16 }) .matrix 0x20000000 0 0 with
      tile := some 0, started := true, sent := true }
    let v := { a with instr := .mmav { zE3 with imm := 1 * 16 } }
    let k := { a with instr := .mrank { zE3 with imm := 1 * 16 } }
    let d := { a with instr := .mdrain { zE3 with imm := 9 * 16 }, xb := 256 }
    let s := engine a true
    afmtOf { zE3 with imm := 1 * 16 } = 1 ∧ (64 : BitVec 22).toNat / 512 % 8 + 1 ≤ desc1.passes ∧
    paired 1 (opRec rec1).fmt = true ∧ ofOk (s.aRow a 1 0x20000000 0) = true ∧
    ofOk (s.drawScales a false (classK 1)) = true ∧ (engine v true).tileThere v 0 desc1 = true ∧
    ofOk ((engine k true).engineRead k .plain 0x20000000 (1 * 16 / 8)) = true ∧
    ((engine d true).spans d.who .plain true (units 0x20000000 256)).toOption.isSome = true ∧
    ((engine d true).spans d.who .plain true (units d.xc.toNat (drainRow 9 false (tabGet 0 core0.acc 0)).2.1.length)).toOption.isSome
      = true := by decide +kernel

/-- A table of a segment's header and one entry at the data page, its one record at 0x20000100. -/
def tabled (c : Cmd) (rows count : Nat) : State :=
  (((engine c false).writeNat 0 0x110000000 4 count).writeNat 0 0x110000011 1 rows).writeNat 0 0x110000100 64 rec1.toNat

/-- The fields of a table's header and of its first entry that MMAG reads. -/
def headOf (s : State) (c : Cmd) : List Nat :=
  match s.engineReads c .plain [(0x20000000, 16), (0x20000010, 16)] with
  | .ok [h, e] => [leNat (h.take 4), leNat ((h.drop 10).take 6), leNat (e.take 2), leNat ((e.drop 2).take 2),
      leNat ((e.drop 8).take 4)]
  | _ => []

/-- `matrixEngine`: an MMAG at a legal entry and at one that is not. -/
theorem test_meets_matrixEngine_mmag :
    let c := { cmdOf (.mmag { zE3 with imm := 1 * 16 }) .matrix 0x20000000 0x20000100 0 with
      tile := some 0, started := true, sent := true }
    let s := tabled c 1 1
    let t := tabled c 0 2
    s.cmd 0 20 = some c ∧ c.passes = 0 ∧ c.status = 0 ∧ c.parked = false ∧
    headOf s c = [1, 0, 256, 0, 0] ∧ headOf t c = [2, 0, 0, 0, 0] ∧
    ofOk (s.engineRead c .plain 0x20000100 64) = true ∧ s.readNat 0 0x110000100 64 = rec1.toNat ∧
    (descOf rec1 0 0 1 30).isSome = true ∧ ofOk ((s.fillLoad c desc1).fillBuf c desc1) = true ∧
    (t.spans c.who .plain true (units 0x2000001C 4)).toOption.isSome = true := by decide +kernel

/-- `copies`: a CPY whose status byte is 0; a CPYS whose chunks and tags are clear; a CPYV read of a version that
is there, and of one that is not; a CPYV create that goes and one that is held. -/
theorem test_meets_copies_versions :
    let c := cmdOf (.cpys zE3) (.copy 0) 0x40001000 0x40000000 4096
    let s := holding c
    let r := cmdOf (.cpyv zE3) (.copy 0) 0x20000000 0x30000000 0
    let w := cmdOf (.cpyv { zE3 with imm := 4 }) (.copy 0) 0x30000000 0x20000000 1
    let t := holding w
    (s.spans c.who .sealed false (units 0x40000000 4096)).toOption.map (fun l => (s.spansBlocked 0 l, s.tagBlocked c l,
      s.spansRefused l false)) = some (false, false, none) ∧
    (s.spans c.who .sealed true (units 0x40001000 4096)).toOption.isSome = true ∧
    ((holding r).readGranules r 0x30000000 0 1).length = 1 ∧ gotWait ((holding r).readGranules r 0x30000000 0 1) = none ∧
    gotWait ((holding r).readGranules r 0x30000000 1 1) = some (0, 0) ∧
    ((t.createSpan w.who 0x30000000 0).toOption.map fun x => (x.1, x.2.2, x.2.1.k, t.latest 1 x.2.1 0)) =
      some (0, 0, 2, 0) ∧ (1 : Nat) < 0 + 2 ∧ w.vals = [] := by decide +kernel


/-- `paired'` with a command of the core. -/
def pairedWith (q : Qp) (c : Cmd) : State := { paired' q with cores := [(0, { core0 with cmds := [c] })] }

def gotBytesOk : Read → Bool
  | .ok _ => true
  | _ => false

def isPutMsg : Put → Bool
  | .msg _ => true
  | _ => false

/-- `fabricEntries`: a post to a queue pair that is open, with a good record and with a bad one; an entry without
ARM and without a signal; a signal at its home die, and with the context out; a VWRITE and a FLAG. -/
theorem test_meets_fabricEntries_posts :
    let c := cmdOf (.fqpost zE3) .fabric 0x20000000 0 0
    let s := pairedWith qpNone c
    let sig := { entry0 with ref := 21, made := 1, record := entry0.record ||| BitVec.ofNat 512 (0x8003 * 2 ^ 48) }
    let out : State := { paired' qpNone with ctxs := [(1, { (demo k0).ctx 1 with resid := [] })] }
    let vw := BitVec.ofNat 512 (2 + 128 * 2 ^ 96)
    s.findCmd 20 = some c ∧ (s.qpDesc 0 0).state = 1 ∧ (s.qpDesc 0 0).ctx = c.ctx ∧
    ((s.fillFabric c 64).statusSpan c).toOption.isSome = true ∧
    gotBytesOk ((s.fillFabric c 64).engineBytes c.who c.xa 64) = true ∧ entryOk 0 = false ∧
    gotBytesOk ((s.fillEntry 0 entry0).engineBytes ⟨s.master 0, 0, 1⟩ (w64 (entF entry0.record 0x10 8)) 8) = true ∧
    entryMsgs sig.record ≤ sig.made ∧ sig.ref ≠ 0 ∧ entSem sig.record 6 = some 3 ∧ s.semsHere 1 = true ∧
    out.semsHere 1 = false ∧ entOp vw = 2 ∧ entLen vw = 128 ∧ entOp 3 = 3 ∧ entLocal 3 = false := by decide +kernel

/-- `fabricEntries`: a put that a core sends; a message that a peer's table refuses; a LAUNCH that leaves for
another package; a message to be sent again, here and to a peer; a refusal; FFLUSH before and after its units. -/
theorem test_meets_fabricEntries_sends :
    let f := cmdOf (.fput zE3) .fput 0x20000000 0x20000100 7
    let s := holding f
    let l := cmdOf (.launch zE3) .sync 0x20000000 (5 * 2 ^ 16) 0
    let t : State := { holding l with ports := [(3, { portReset with up := true })] }
    let here := { qpNone with retry := [⟨{ msg0 with spkg := 0 }, 1, some 0⟩] }
    let far := { qpNone with retry := [⟨{ msg0 with spkg := 0, tpkg := 5 }, 1, some 0⟩] }
    let up : State := { paired' far with ports := [(3, { portReset with up := true, shares := (0, 100, 0) })] }
    let fl := cmdOf (.fflush zE3) .sync 5 0 0
    s.putCmd 0 = some f ∧ isPutMsg (s.putMsg f) = true ∧
    ((tabGet portReset s.ports 22).choose (s.readyQps 22 ++ s.readyPuts 22)).map (·.1) = some 256 ∧
    (demo k0).refusedHere { msg0 with eth := some 3 } = some cAccessDenied ∧ (demo k0).refusedHere msg0 = none ∧
    t.peerLaunch = some l ∧ (t.statusSpan l).toOption.isSome = true ∧ gotBytesOk (t.engineBytes l.who l.xa 256) = true ∧
    t.lostPkgs.contains 5 = false ∧ (paired' here).targetLost 0 = false ∧
    (paired' here).refusedHere { msg0 with spkg := 0 } = none ∧ up.refusedHere { msg0 with spkg := 0, tpkg := 5 } = none ∧
    (paired' here).refusedHere { msg0 with spkg := 0, eth := some 3 } ≠ none ∧
    (paired' here).targetLost (msgTarget { msg0 with spkg := 0, eth := some 3 }) = false ∧ (up.portOf { msg0 with tpkg := 5 }).isSome = true ∧
    (tabFind ((paired' here).cluster 0).qps 0).isSome = true ∧ cLandFull ≠ cPeerLost ∧ fl.sent = false ∧
    ((holding fl).statusSpan fl).toOption.isSome = true ∧ (holding fl).targetLost ((holding fl).flushTo fl) = false := by
  decide +kernel


/-- `demo` with C0x001 in residency `r` at home and a landing buffer of four entries, of which `n` are taken. -/
def landing (r : Resid) (n : Nat) : State :=
  let s : State := { demo k0 with
    ctxs := [(1, { (demo k0).ctx 1 with
      desc := [(0, [(0, 0xF0001), (5, 4096), (7, 0x200000000), (9, 0x200010000), (10, 0x250000000), (11, 4)])]
      resid := [(0, r)], rkey := some 0, landed := if n = 0 then [] else [(5 * 2 ^ 20, 20)] })]
    exports := [⟨5, 1, 0x110000000, 65536, false, true⟩] }
  s.writeNat 0 0x250000008 4 n

/-- `fabricArrives`: a message with the context out, its landing buffer with room and full; one to a page that an
export admits; a repeat; an element of an ACW; an access that no export admits. -/
theorem test_meets_fabricArrives_lands :
    let o := landing .out 1
    let f := landing .out 4
    let h := landing .resident 0
    let w := h.fabricWho 1
    let us := units msg0.va.toNat 8
    let r : RemoteReq := { pkg := 5, ctx := 1, write := false, addr := 0x110000000, len := 4, data := 1, key := 0
                           ref := 1, atomic := some (0, 1, 0) }
    o.tickDue = false ∧ o.msgWaits msg0 [] = false ∧ o.ownMsg msg0 = false ∧ (o.die (o.homeDie 1)).lost = false ∧
    o.homeResident 1 = false ∧ (o.land 1).count < (o.land 1).size ∧ (f.land 1).size ≤ (f.land 1).count ∧
    h.homeResident 1 = true ∧ (h.spans w .plain true us).toOption.isSome = true ∧
    (h.spans w .plain true us).toOption.map (fun l => (h.spansRefused l true, h.granted msg0 l)) = some (none, true) ∧
    isRepeat [7] 7 = true ∧ isRepeat [7] 8 = false ∧ h.remoteBad r = none ∧ acwWidth 1 = 4 ∧ h.barriers = [] ∧
    h.exported { r with pkg := 6 } = false ∧ backed (r.addr % 2 ^ 46) = true := by decide +kernel

/-- `fabricArrives`: what has landed, as the context arrives: nothing, one to apply, one behind a held create. -/
theorem test_meets_fabricArrives_applied :
    let s := landing .arriving 1
    let e := landing .arriving 0
    let b : State := { s with ctxs := [(1, { s.ctx 1 with behind := [(msg0, 5 * 2 ^ 20, 19)] })] }
    let d : State := { b with vreqs := [(20, { vreq .create 1 with held := true, src := .landing (5 * 2 ^ 20) 19 })] }
    s.homeDie 1 = 0 ∧ s.freed 1 = none ∧ tabGet Resid.out (s.ctx 1).resid 0 = .arriving ∧ (s.land 1).count = 1 ∧
    (e.land 1).count = 0 ∧ s.pathHeld (5 * 2 ^ 20) = false ∧ (s.ctx 1).behindOn (5 * 2 ^ 20) = false ∧
    d.freed 1 = none ∧ d.pathHeld (5 * 2 ^ 20) = true ∧ (d.ctx 1).behindOn (5 * 2 ^ 20) = true ∧ (s.landEntry 1 (5 * 2 ^ 20) (s.land 1)).kind = 0 ∧
    (s.landEntry 1 (5 * 2 ^ 20) (s.land 1)).fput = false := by decide +kernel

theorem test_meets_fabricArrives_keys : Hbm 0x250000000 16 ∧ Hbm (0x250000000 + 64) 72 ∧ Hbm 0x110000000 8 :=
  ⟨hbm_low (by decide), hbm_low (by decide), hbm_low (by decide)⟩


/-- `demo` with core 0 free, C0x001's plane in its shadow, and an image of its team or none. -/
def freeCore (ms : List Image) : State := { demo k0 with
  cores := [(0, { core0 with plane := [], shadowSt := 1, shadow := [(0, w64 (2 ^ 63 + 1)), (4, 0x260000000)] })]
  images := ms }

/-- `quanta`: a free core that takes the plane of its shadow, with an image and without; a plane to prepare. -/
theorem test_meets_quanta_restore :
    let i : Image := { ctx := 1, core := 0, place := 0x280000000, mkey := 0, teams := [(16, true)], order := [], cmds := [], sb := [] }
    let s := freeCore []
    let t := freeCore [i]
    s.coreUsable 0 = true ∧ s.idle 0 = true ∧ s.tickDue = false ∧ s.takeNext 0 = some 1 ∧
    t.takeNext 0 = some 1 ∧ (t.images.find? fun m => m.core == 0 && m.ctx == 1) = some i ∧
    (s.readNat 0 (s.dirKey 1 0 + 24) 1 = 0) ∧ (s.core 0).shadowSt = 1 ∧
    (let p : State := { demo k0 with
        cores := [(0, { core0 with plane := [], quantum := 0 })]
        dies := [(0, { (demo k0).die 0 with gnomon := 188000 })] };
      p.coreUsable 0 = true ∧ p.nextCtx 0 (p.core 0).activeCtx = some 1 ∧ (p.core 0).activeCtx = none ∧
      (p.core 0).shadowSt ≠ 1 ∧ (p.die 0).fqFull = false) := by decide +kernel

/-- `quanta`: a halted core whose task's oldest access waits for the host. -/
theorem test_meets_quanta_abort :
    let a := { acc .load (.x 3 8 false) with pieces := [{ newPiece 0x60000000 8 0 0 with loc := some (.host 0) }] }
    let s : State := { demo k0 with cores := [(0, { core0 with halting := true, loads := [a] })] }
    (s.core 0).activeCtx = some 1 ∧ s.saved 0 1 = false ∧ s.drained 0 1 = true ∧ s.entriesOf 0 1 = [a] ∧
    s.ofTask a = true ∧ oldestOf 16 [a] = some a ∧ a.hostBound = true ∧ k0.origin = none ∧
    ({ a with pieces := [] } : Access).hostBound = false ∧ s.coresOf 0 1 = [0] ∧
    ({ k0 with hold := .halting 1 [0] } : Task).hold = .halting 1 [0] := by decide +kernel

/-- `fairness`: a die that must move a team, the team that it moves, and the die and core that it goes to; a team
that lands where it was sent, and one that was sent to another core. -/
theorem test_meets_fairness_moves :
    let m := { team k0 with task := none, ready := [0], started := 0 }
    let other : Core := { core0 with tlb := [] }
    let s : State := { demo k0 with
      teams := [(16, m)]
      cores := [(0, { core0 with plane := [] }), (128, other)]
      dies := [(0, { (demo k0).die 0 with gnomon := 9400 }),
        (1, { dieReset with up := true, latched := true, advert := some (16, 32) })]
      ctxs := [(1, { (demo k0).ctx 1 with
        desc := [(0, [(0, 0x30F0001), (5, 4096)])], resid := [(0, .resident), (1, .resident)] })] }
    let p : Pack := { team := 16, toDie := 1, toCore := 128, left := [(5, 940)] }
    s.waitsCore m = true ∧ s.packs = [] ∧ (s.die 0).advertAt < 9400 / 9400 ∧ (s.moveOrder 0).map (·.1) = [16] ∧
    ((s.launchOf m).map fun l => (s.receiver 0 m.ctx m.allot m.acct l.diemask).map (·.1)) = some (some 1) ∧
    ([p].find? fun p => p.team == 16) = some p := by decide +kernel


/-- A halted and drained core of C0x001 without a team of it, its pool at 0x260000000 and its image's place at
0x280000000. -/
def drainedCore : State :=
  let s : State := { demo k0 with
    teams := [], cores := [(0, { core0 with plane := tabPut core0.plane 4 0x260000000, halting := true })] }
  s.writeNat 0 (s.dirKey 1 0) 8 0x280000000

/-- `quanta`: a core whose context is saved; one whose context is restored. -/
theorem test_meets_quanta_save :
    let s := drainedCore
    (s.core 0).activeCtx = some 1 ∧ (s.core 0).halting = true ∧ s.saved 0 1 = false ∧ s.drained 0 1 = true ∧
    s.entriesOf 0 1 = [] ∧ s.residOn 1 0 ≠ .leaving ∧ s.keyOn 0 1 = 0 ∧ gpaKey (s.readNat 0 (s.dirKey 1 0) 8) = 0x280000000 ∧
    (s.coreImage 0 1 []).length = 64 ∧ s.dirKey 1 0 = 0x260000000 ∧ s.coresOf 0 1 = [0] := by decide +kernel

theorem test_meets_quanta_keys : Hbm 0x280000000 64 ∧ Writable drainedCore 0 0x280000000 64 ∧ Hbm 0x260000000 32 ∧
    Writable drainedCore 0 0x260000000 32 :=
  ⟨hbm_low (by decide), writable_as (by decide +kernel) rfl rfl (by decide), hbm_low (by decide), writable_as (by decide +kernel) rfl rfl (by decide)⟩

/-- `scanner`: a request of one page that passes the field checks, one whose frame is in use, and a job whose frames
nothing uses any more. -/
theorem test_meets_scanner_job :
    let s : State := { demo k0 with dies := [(0, { (demo k0).die 0 with bells := [(0, 3)] })] }
    let k := physKey 0 (scanRing + 128 * 3)
    let ask := fun frame : Nat => ((s.writeNat 0 k 8 0x270000000).writeNat 0 (k + 8) 4 1).writeNat 0 0x270000000 8
      (255 * 2 ^ 48 + frame)
    let good := ask 0x1E0000000
    let used := ask fetchFrame
    let j : ScanJob := ⟨9, k, 0, 0, 0, 0, 0, [0x1E0000000]⟩
    let c : Section := ⟨9, 0, 0, 0, 0, 1, [0x1E000], 0, 0, false, 0⟩
    let t : State := { s with
      dies := [(0, { s.die 0 with scan := some j })], sections := [c] }
    good.scanBad 0 (good.scanReq 0 3) = false ∧ good.scanFrames (good.scanReq 0 3) = some [0x1E0000000] ∧
    good.lockOf 0x1E0000000 = none ∧ good.quarantined 0x1E0000000 = false ∧ good.claimOf 0x1E0000000 = none ∧
    used.scanFrames (used.scanReq 0 3) = some [fetchFrame] ∧ (used.lockOf fetchFrame).isSome = true ∧
    (s.die 0).scan = none ∧ (t.die 0).scan = some j ∧ (t.sections.find? fun c => c.id == j.sect) = some c ∧
    t.quiesced c.epoch = true := by decide +kernel


/-- `asking` with a key slot 0 of C0x001 loaded and grant 3 given on it. -/
def keyed (op : Nat) : State :=
  let s := asking op
  { s with dies := [(0, { s.die 0 with
    slots := [(0, { key := 0, meas := 0, tlo := 0, thi := 9, owner := 1 })], grants := [(3, ⟨1, 0, 0, 9, 0⟩)] })] }

/-- `keys`: a blob that Alidade reaches and one on a die that is not of its world; a grant that fits; grants and
slots that go; an index that a scrub from before a loss of power keeps. -/
theorem test_meets_keys_slots :
    let far := (asking 3).writeNat 0 (reqKey 0 0 + 16) 8 (2 ^ 46)
    (asking 3).agentSees 0 ((asking 3).reqF 0 0 16 8) 320 false = true ∧
    far.agentSees 0 (far.reqF 0 0 16 8) 320 false = false ∧
    tabFind ((keyed 5).die 0).slots 0 = some { key := 0, meas := 0, tlo := 0, thi := 9, owner := 1 } ∧
    tabFind ((keyed 5).die 0).grants 0 = none ∧ (tabFind ((keyed 5).die 0).grants 3).isSome = true ∧
    (keyed 4).staleBufs 0 = false ∧ (keyed 4).cores.all (fun x => x.2.bufs == []) = true ∧
    ({ asking 1 with scrubs := [⟨0, 7, [(1, 1)], 0, 0, 0, 0, 64⟩] } : State).scrubs.any (fun r => r.slot == 64) = true := by
  decide +kernel

/-- `confidential`: a context's own world; a handshake page that the first ACCEPT claims, and its fields. -/
def shaking : State :=
  let s : State := { asking 8 with cores := [(0, { core0 with plane := tabPut core0.plane 1 0x140000000 })] }
  let s := ((s.writeNat 0 0x140000000 8 (leaf 1 0x150000000).toNat).writeNat 0 0x150000000 8
    (leaf 1 0x160000000).toNat).writeNat 0 0x160000008 8 (leaf 0x0F 0x170000000).toNat
  ((((s.writeNat 0 (reqKey 0 0 + 16) 8 0x10000).writeNat 0 0x170000000 4 1).writeNat 0 0x170000004 4 1).writeNat 0
    0x170000008 8 7).writeNat 0 0x170000040 8 0x10000

theorem test_meets_confidential :
    let s := shaking
    (s.die 0).latched = true ∧ (s.die 0).world.toNat = s.worldOf 1 ∧ s.firstAccept 0 1 = true ∧
    s.acceptable 0 1 0x10000 = some 0x170000000 ∧ (s.handshake 1 0x170000000).op = 1 ∧
    (s.handshake 1 0x170000000).count = 1 ∧ (s.handshake 1 0x170000000).seq = 7 ∧
    (s.handshake 1 0x170000000).pages = [0x10000] ∧ tabFind (s.die 0).hsSeq 1 = none ∧
    s.lockOf 0x170000000 = none ∧ s.mkeys = [] ∧ s.agentSees 0 (s.reqF 0 0 16 8) 4096 true = true := by decide +kernel

theorem test_meets_confidential_asked : Asked shaking 0 0 8 [(16, 8)] := by unfold Asked; decide +kernel

/-- `demo` with a SCRUB of one frame of key 7 at the head of die 0's ring; the key is dead. -/
def scrubbing : State :=
  let s : State := { asking 11 with mkeys := [(7, 2, 0)] }
  (((s.writeNat 0 (reqKey 0 0 + 8) 2 7).writeNat 0 (reqKey 0 0 + 10) 2 1).writeNat 0 (reqKey 0 0 + 16) 8
    0x270000000).writeNat 0 0x270000000 8 (255 * 2 ^ 32 + 0x18000)

/-- `reclaim`: a DESTROY of a context that has left; a SCRUB at its turn, and one whose answer waits. -/
theorem test_meets_reclaim_requests :
    let d : State := { asking 10 with teams := [], cores := [], ctxs := [(1, { (asking 10).ctx 1 with resid := [] })] }
    let s := scrubbing
    let two : State := { s with dies := [(0, { s.die 0 with bells := [(1, 5), (1, 0)], owed := [(0, 2)] })]
                                scrubs := [⟨0, 8, [(1, 1)], 0, 0, 0, 0, 5⟩] }
    (asking 10).reqF 0 0 4 2 % 4096 = 1 ∧ (List.range 4).all (fun i => d.offDie i 1) = true ∧ (d.land 1).count = 0 ∧
    d.ctxKey 1 = 0 ∧ ((asking 10).coresOf 0 1).any (fun c => !(asking 10).saved c 1) = true ∧
    0 ∈ s.offered 0 ∧ (s.offered 0).head? = some 0 ∧ s.reqF 0 0 0 1 = 11 ∧ (tabGet (0, 0) s.mkeys 7).1 = 2 ∧
    s.reqF 0 0 8 2 = 7 ∧ s.reqF 0 0 10 2 = 1 ∧ s.agentSees 0 (s.reqF 0 0 16 8) 8 false = true ∧
    s.reserved (reqKey 0 0) 256 [(0, 3), (4, 2), (8, 2), (10, 2), (16, 8)] = false ∧
    s.scrubRuns 0 0 = some [(0x18000, 1)] ∧ (two.offered 0).takeWhile (fun x => x != 0) = [5] ∧
    two.takenSlot 0 5 = true ∧ tabFind (two.die 0).owed 0 = some 2 ∧ (two.offered 0).head? = some 5 := by decide +kernel


/-- `versions`: answers that have come: done, rows, a fault, and a version not yet created, with its context active
and not; a release that lets a held create go, and one that does not. -/
theorem test_meets_versions_answers :
    let k := { k0 with hold := .answer 20 }
    let q := fun (op : VOp) (a : Option (Nat × W64)) (g : Tab VGot) => { vreq op 1 with answer := a, got := g }
    let s := fun (q : VReq) => ({ demo k with vreqs := [(20, q)] } : State)
    let w := q .read (some (0x1000, 0)) [(0, .wait 0 0)]
    let away : State := { s w with cores := [(0, { core0 with plane := [] })] }
    let held := fun v : W64 => { vreq .create v with held := true }
    let a := { acc .ver .none with id := 21, pieces := [{ newPiece 0x30000000 128 1 0 with loc := some (.region 0) }] }
    let r := fun v : W64 => ({ queued [] [a] with vreqs := [(20, held v)], pwait := [(256, [20])] } : State)
    ((tabFind (s w).teams 16).bind (·.task)).map (·.hold) = some (.answer 20) ∧ ((s w).core 0).activeCtx = some 1 ∧
    (away.core 0).activeCtx = none ∧ firstWait w = some (0, 0, 0) ∧ (s w).translated 0 16 = true ∧
    (q .read (some (0, 0)) [(0, .data 7)]).got[0]? = some (0, .data 7) ∧ ((s w).region 1 0).isSome = true ∧
    ((s w).region 1 0).map (fun x => ((s w).die x.home).lost || decide (1 ≤ (s w).latest 1 x 0)) = some false ∧
    ((r 1).verAccess 21 true).isSome = true ∧ tabGet [] (r 1).pwait 256 = [20] ∧
    ((r 1).region 1 0).map (fun x => (x.floor, x.k, (r 1).latest 1 x 0)) = some (0, 2, 0) := by decide +kernel

/-- `eretAccumulators`: a TERM record, and a BREAK's whose task waits, with ACTION 1. -/
theorem test_meets_eret_actions :
    let f : FaultRec := ⟨0, 0, 6, 17, 0, 0, 0, 0, 0, 0, false, false, false, 0, 0⟩
    let k := { k0 with hold := .brk }
    let s := faulted f { team k0 with task := some k }
    let t := faulted { f with term := true, code := cAlign } (team k0)
    s.faultAt 0 0x300000000 = some f ∧ (t.faultAt 0 0x300000000).map (·.term) = some true ∧ f.source = 6 ∧
    k.hold = .brk ∧ k.seq.toNat = f.cmd ∧ k.handler = false ∧ (team k0).dead = false ∧
    ((s.launchOf (team k0)).map (·.fhandler)) = some (w64 fetchVa) ∧ w64 fetchVa ≠ 0 := by decide +kernel

/-- `barriers`: a WAITB of a team in transit; `walks`: an older entry that has still to be translated;
`machineChecks`: a task of the system context that runs. -/
theorem test_meets_others :
    let p : Pack := { team := 16, toDie := 1, toCore := 128, left := [] }
    let a := { acc .load (.x 3 8 false) with id := 19, xlate := true, pieces := [newPiece 0x90000000 8 0 0] }
    let y := { sys0 with task := some k0 }
    (({ demo k0 with packs := [p] } : State).packs.any fun x => x.team == 16) = true ∧
    (a.team = 16 ∧ a.cmd = 0 ∧ a.id < 20 ∧ a.xlate = true ∧ a.kind ≠ .prefetch) ∧
    y.task = some k0 ∧ k0.hold = .free ∧ ({ demo k0 with lostDies := [(5, 0), (5, 1), (5, 2)] } : State).lostDies.contains (5, 3) =
      false := by decide +kernel

/-! ## States that meet the statements' hypotheses: what may hold or refuse -/

/-- `transfers`, `loops`: an LNEXT that goes round to a target that is none, a BC that is taken. -/
theorem test_meets_transfers_bad :
    let j := { k0 with active := 3, last := 1, left := 2 }
    (demo j).issuer = some (env j) ∧ j.hold = .free ∧ j.active ≠ 0 ∧ j.left ≠ 0 ∧
    (demo j).badTarget (env j).who (w64 fetchVa + 2) = true ∧ (k0.getX 1).toInt ≠ 0 := by decide +kernel

/-- `tileAccess`: an acquire under way, a load queue without room, a scale queue without room. -/
theorem test_meets_tileAccess_held :
    let k := { k0 with acqs := [20] }
    let a := acc .load (.x 3 8 false)
    let s : State := { queued [a] [] with teams := [(16, team k)] }
    let f : State := queued [{ a with entries := 64 }] []
    let q : State := { demo k0 with teams := [(16, { team k0 with scales := List.replicate 2048 0 })] }
    s.memClear (env k) = false ∧ f.room 0 false 1 = false ∧ (demo k0).room 0 false 1 = true ∧
    (demo k0).memClear (env k0) = true ∧ k0.predFits 1 32 = true ∧ 2048 < q.scalesHeld 0 + 1 * 32 := by
  decide +kernel

/-- `worldControl`: a context on this core, which has not halted it. -/
theorem test_meets_worldControl_halt : (demo k0).coresOf 0 1 = [0] ∧
    ((demo k0).coresOf 0 1).filter (fun c => !(((demo k0).core c).halting && (demo k0).saved c 1)) = [0] := by
  decide +kernel

/-- `demo` with 256 loads that wait for as many walks, and no TLB entry for the code page. -/
def walkersFull : State := { demo k0 with
  cores := [(0, { core0 with
    tlb := []
    loads := (List.range 256).map fun i =>
      { acc .load .none with id := 20 + i, xlate := true, pieces := [newPiece (0x90000000 + 65536 * i) 8 0 0] } })] }

set_option maxRecDepth 20000 in
/-- `stepRunsDecoded`: a fetch that waits for a walker. -/
theorem test_meets_stepRunsDecoded_waits : walkersFull.fetchWaits (env k0) = true ∧
    (demo k0).fetchWaits (env k0) = false := by decide +kernel

/-- `teamPlacement`: no core but core 0 takes a team in a state whose only core is that. -/
theorem only_core0 (s : State) (k : Core) (h : s.cores = [(0, k)]) (c ctx allot acct : Nat)
    (hc : s.fits c ctx allot acct = true) : c = 0 := by
  by_contra hn
  have h0 : s.core c = coreReset := by simp [State.core, h, tabGet, Ne.symm hn]
  have h1 : coreReset.usable = false := rfl
  simp [State.fits, State.coreUsable, h0, h1] at hc

/-- `demo` with one launch of C0x001 to place. -/
def placing (l : Launch) : State := { demo k0 with
  teams := [], ctxs := [(1, { (demo k0).ctx 1 with launches := [l] })] }

/-- `teamPlacement`: the one launch of the one context, an ordinary one and a GATHER launch; one that fits no core. -/
theorem test_meets_teamPlacement_one :
    let l := { fetchLaunch with placed := 0 }
    Best (placing l) 1 l 0 ∧ ((placing l).ctx 1).launches = [l] ∧
    ((placing { l with gather := true }).placeNext 1 { l with gather := true }).isSome = true := by
  refine ⟨⟨by decide +kernel, by decide +kernel, ?_, ?_⟩, by decide +kernel, by decide +kernel⟩
  · intro c hc _
    rw [only_core0 _ core0 rfl c _ _ _ hc]
    exact .inr ⟨rfl, le_rfl⟩
  · intro c hc _
    rw [only_core0 _ core0 rfl c _ _ _ hc]
    exact .inr ⟨rfl, le_rfl⟩

theorem test_meets_teamPlacement_none :
    let l := { fetchLaunch with placed := 0, allot := 255, gather := true }
    ¬ ∃ t, PlacesAll (placing l) t 1 l (l.teams - l.placed) := by
  rintro l ⟨t, c, b, hb, -⟩
  have h : (placing l).fits 0 1 255 8 = true := only_core0 (placing l) core0 rfl c _ _ _ hb.1 ▸ hb.1
  exact absurd h (by decide +kernel)

/-- `demo` with contexts 1 and 2, each with a team on core 0 or a launch of one to place. -/
def twoCtxs (ts : Tab Team) (l : Launch) (n : BitVec 64) : State := { demo k0 with
  dies := [(0, { (demo k0).die 0 with gnomon := n })]
  teams := ts
  ctxs := [(1, { (demo k0).ctx 1 with launches := [l] }), (2, { (demo k0).ctx 1 with launches := [l] })] }

/-- `teamPlacement`: a context that competes while a tick is due.  `quanta`: the same on a core; contexts that tie. -/
theorem test_meets_rivals :
    let l := { fetchLaunch with placed := 0 }
    let s := twoCtxs [] l 47000
    let t := twoCtxs [(16, team k0), (17, { team k0 with ctx := 2, tslot := 1 })] fetchLaunch 0
    ((s.serveCtx 1).map fun r => s.rivals r.2.2 1) = some true ∧ (s.die 0).fairDue = true ∧ (t.die 0).fairDue = false ∧
    t.candidatesOf 0 = [1, 2] ∧ t.nextCtx 0 (some 1) = some 2 ∧ t.nextCtx 0 none = some 1 ∧
    (t.coreRank 0 1).ties (t.coreRank 0 2) = true ∧ t.weight 0 1 ≤ (t.core 0).kept + 1 ∧
    (let m : State := { t with teams := [(16, { team k0 with task := none, ready := [] }), (17, { team k0 with ctx := 2 })] };
      m.hasWork 0 1 = false ∧ m.workCtx 0 = some 2) := by decide +kernel

/-- `launchQueues`: the host link before it is up. -/
theorem test_meets_launchQueues_down : State.reset.linkUp = false ∧
    ({ demo k0 with linkUp := true } : State).linkUp = true := by decide

/-- `loadsStores`: places outside with room on their link and without. -/
theorem test_meets_loadsStores_outside :
    let ups := fun p : Port => ({ demo k0 with ports := [(3, { p with up := true, shares := (0, 100, 0) }), (24, p)] } : State)
    let full := { portReset with retry := List.replicate 1008 ⟨0, 0, 0, 0, [], true⟩ }
    (ups portReset).wayFree (.remote 5 0x110000000) = true ∧ (ups full).wayFree (.remote 5 0x110000000) = false ∧
    (ups portReset).wayFree (.host 0) = true ∧ (ups full).wayFree (.host 0) = false ∧
    (ups portReset).locLost (.host 0) = false ∧ (ups full).locLost (.remote 5 0x110000000) = false := by decide +kernel

/-- `barriers`: an object on which no accepted store is under way; a deadline whose unlink is, and one whose is
not. -/
theorem test_meets_barriers_ready :
    let s : State := { demo k0 with reqs := [(20, .unlink (csmKey 0 0 0) 16 5)] }
    s.readBlocked (s.teamCore 16) (.mem (csmKey 0 0 0)) 16 = false ∧ s.unlinking 16 5 = true ∧
    s.unlinking 16 6 = false ∧ s.locLost (.mem (csmKey 0 0 0)) = false := by decide +kernel

/-- `copies`: an element of a lost die, one under a dead key, one on a barrier object. -/
theorem test_meets_copies_lost :
    let s : State := { demo k0 with dies := [(0, { dieReset with up := true, lost := true })] }
    let t : State := { demo k0 with mkeys := [(9, 2, 0)] }
    let u : State := { demo k0 with barriers := [csmKey 0 0 0] }
    s.locLost (.mem 0x110000000) = true ∧ s.readBlocked 0 (.mem 0x110000000) 4 = false ∧
    t.locLost (.mem 0x110000000) = false ∧ t.refused 9 0x110000000 true = true ∧
    csmKey 0 0 0 ∈ u.barriers ∧ csmKey 0 0 0 % 16 = 0 ∧ (u.bar (csmKey 0 0 0)).waiters = 0 := by decide +kernel

/-- `matrixEngine`: a fill that faults, of a plain record beyond the scratchpads and of a sealed one without a
grant. -/
theorem test_meets_matrixEngine_fill :
    let at' := fun (va low : Nat) => ({ desc1 with
      record := BitVec.ofNat 512 (va + 32 * 2 ^ 64 + 16 * 2 ^ 96 + 1 * 2 ^ 224 + 1 * 2 ^ 240 + low) } : BufDesc)
    let c := cmdOf (.mma { zE3 with imm := 1 * 16 }) .matrix 0x20000000 0 0
    let fill := fun d : BufDesc => match ((engine c false).fillLoad c d).fillBuf c d with
      | .fault va code => some (va, code)
      | _ => none
    let d := at' (2 ^ 54 + 65536) 0
    fill d = some (2 ^ 54 + 65536, cRange) ∧ (opRec d.record).sealed = false ∧ parks cRange = false ∧
    c.needs = some 0 ∧ (engine c false).tileThere c 0 d = false := by decide +kernel

/-- `fabricEntries`: a port without room, and a message that may leave and one that may not. -/
theorem test_meets_fabricEntries_room :
    let s := fun (p : Port) => ({ paired' qpNone with ports := [(3, { p with up := true, shares := (0, 100, 0) })] } : State)
    let full := { portReset with retry := List.replicate 1008 ⟨0, 0, 0, 0, [], true⟩ }
    let m := { msg0 with tpkg := 5 }
    (s portReset).mayLeave m = true ∧ (s full).mayLeave m = false ∧ (s portReset).portRoom 3 = true ∧
    (s portReset).launchPlane 5 0 = some 3 ∧ (s portReset).aimLost ((s portReset).qpDesc 0 0) = false := by
  decide +kernel

/-- `fabricArrives`: a message to host memory, and one that the exports do not admit. -/
theorem test_meets_fabricArrives_refused :
    let h := landing .resident 0
    let w := h.fabricWho 1
    let us := units msg0.va.toNat 8
    let x : State := { h with cores := [(0, { core0 with tlb := [⟨1, 0x2000, false, leaf 0x0F 0x200000000000⟩] })] }
    let n : State := { h with exports := [] }
    h.ownMsg msg0 = false ∧ (n.spans w .plain true us).toOption.map (fun l => (hostSpan l, n.granted msg0 l)) =
      some (none, false) ∧
    ((x.spans (x.fabricWho 1) .plain true us).toOption.map fun l => (hostSpan l).isSome) = some true := by decide +kernel

/-- CAP of each core's unit of an image directory at 0x260000000, in four parts. -/
def caps0 : List Host.Cell := [
  (0x26000000b, 1), (0x26000004b, 1), (0x26000008b, 1), (0x2600000cb, 1), (0x26000010b, 1),
   (0x26000014b, 1), (0x26000018b, 1), (0x2600001cb, 1), (0x26000020b, 1), (0x26000024b, 1),
   (0x26000028b, 1), (0x2600002cb, 1), (0x26000030b, 1), (0x26000034b, 1), (0x26000038b, 1),
   (0x2600003cb, 1), (0x26000040b, 1), (0x26000044b, 1), (0x26000048b, 1), (0x2600004cb, 1),
   (0x26000050b, 1), (0x26000054b, 1), (0x26000058b, 1), (0x2600005cb, 1), (0x26000060b, 1),
   (0x26000064b, 1), (0x26000068b, 1), (0x2600006cb, 1), (0x26000070b, 1), (0x26000074b, 1),
   (0x26000078b, 1), (0x2600007cb, 1)]
def caps1 : List Host.Cell := [
  (0x26000080b, 1), (0x26000084b, 1), (0x26000088b, 1), (0x2600008cb, 1), (0x26000090b, 1),
   (0x26000094b, 1), (0x26000098b, 1), (0x2600009cb, 1), (0x260000a0b, 1), (0x260000a4b, 1),
   (0x260000a8b, 1), (0x260000acb, 1), (0x260000b0b, 1), (0x260000b4b, 1), (0x260000b8b, 1),
   (0x260000bcb, 1), (0x260000c0b, 1), (0x260000c4b, 1), (0x260000c8b, 1), (0x260000ccb, 1),
   (0x260000d0b, 1), (0x260000d4b, 1), (0x260000d8b, 1), (0x260000dcb, 1), (0x260000e0b, 1),
   (0x260000e4b, 1), (0x260000e8b, 1), (0x260000ecb, 1), (0x260000f0b, 1), (0x260000f4b, 1),
   (0x260000f8b, 1), (0x260000fcb, 1)]
def caps2 : List Host.Cell := [
  (0x26000100b, 1), (0x26000104b, 1), (0x26000108b, 1), (0x2600010cb, 1), (0x26000110b, 1),
   (0x26000114b, 1), (0x26000118b, 1), (0x2600011cb, 1), (0x26000120b, 1), (0x26000124b, 1),
   (0x26000128b, 1), (0x2600012cb, 1), (0x26000130b, 1), (0x26000134b, 1), (0x26000138b, 1),
   (0x2600013cb, 1), (0x26000140b, 1), (0x26000144b, 1), (0x26000148b, 1), (0x2600014cb, 1),
   (0x26000150b, 1), (0x26000154b, 1), (0x26000158b, 1), (0x2600015cb, 1), (0x26000160b, 1),
   (0x26000164b, 1), (0x26000168b, 1), (0x2600016cb, 1), (0x26000170b, 1), (0x26000174b, 1),
   (0x26000178b, 1), (0x2600017cb, 1)]
def caps3 : List Host.Cell := [
  (0x26000180b, 1), (0x26000184b, 1), (0x26000188b, 1), (0x2600018cb, 1), (0x26000190b, 1),
   (0x26000194b, 1), (0x26000198b, 1), (0x2600019cb, 1), (0x260001a0b, 1), (0x260001a4b, 1),
   (0x260001a8b, 1), (0x260001acb, 1), (0x260001b0b, 1), (0x260001b4b, 1), (0x260001b8b, 1),
   (0x260001bcb, 1), (0x260001c0b, 1), (0x260001c4b, 1), (0x260001c8b, 1), (0x260001ccb, 1),
   (0x260001d0b, 1), (0x260001d4b, 1), (0x260001d8b, 1), (0x260001dcb, 1), (0x260001e0b, 1),
   (0x260001e4b, 1), (0x260001e8b, 1), (0x260001ecb, 1), (0x260001f0b, 1), (0x260001f4b, 1),
   (0x260001f8b, 1), (0x260001fcb, 1)]

/-- A die with `n` contexts that hold a slot, and C0x011 with demand and a save area for every core. -/
def slots (n : Nat) : State := { demo k0 with
  mem := [(0x1100, 1), (0x1102, 15), (0x1123, 0x60), (0x1124, 2)] ++
    (caps0 ++ caps1 ++ (caps2 ++ caps3))
  teams := []
  cores := [(0, { core0 with plane := [], lastRan := [(16, 5), (1, 4)] })]
  ctxs := (List.range n).map (fun i => (i + 1, { ctxNone with resid := [(0, .resident)] })) ++
    [(17, { ctxNone with launches := [{ fetchLaunch with placed := 0 }] })] }

/-- No other context than C0x011 has a STATE there. -/
theorem slots_state (n c : Nat) (h : c ≠ 17) (hc : c < 4096) : (slots n).ctxState c = 0 := by
  have hm : (slots n).mem.all (fun e => e.1 == 0x1100 || e.1 % 256 != 0) = true := by
    show (slots 0).mem.all _ = true
    decide +kernel
  have hf : ∀ l : List Host.Cell, l.all (fun e => e.1 == 0x1100 || e.1 % 256 != 0) = true →
      tabGet 0 l (256 * c) = 0 := by
    intro l
    induction l with
    | nil => intro; rfl
    | cons e l ih =>
      intro hl
      simp only [List.all_cons, Bool.and_eq_true, Bool.or_eq_true, beq_iff_eq, bne_iff_ne] at hl
      rw [tabGet, if_neg (by omega), ih hl.2]
  have hk : gpaKey ((slots n).ctxbase.toNat + 256 * c) = 256 * c := by
    have : (slots n).ctxbase = 0 := rfl
    rw [this]
    simp only [gpaKey]
    show (0 + 256 * c) % 2 ^ 48 = _
    omega
  have ht : (slots n).tags = [] := rfl
  have hh : isHbm (256 * c) = true := by
    have h1 : 256 * c < 2 ^ 46 := by omega
    simp only [isHbm, Nat.mod_eq_of_lt h1, Bool.and_eq_true, decide_eq_true_eq]
    omega
  have hg : tabGet (0 : BitVec 8) (slots n).mem (256 * c) = 0 := hf _ hm
  have hi : (slots n).installed 0 (256 * c) = true := rfl
  have ht' : tabGet 0 (slots n).tags (256 * c / 128) = 0 := by rw [ht]; rfl
  simp only [State.ctxState, hk, State.readNat, State.readBytes, State.readByte, State.byte, ht', hh, hi, memDefault, if_true,
    true_or, and_self, hg, leNat]
  rfl

/-- C0x011 alone is live. -/
theorem slots_live (n : Nat) (h17 : (slots n).ctxState 17 = 1) : (slots n).liveCtxs = [17] := by
  have h : ∀ c ∈ List.range 4096, ((slots n).ctxState c == 1) = (c == 17) := by
    intro c hc
    by_cases h : c = 17
    · rw [h, h17]
      rfl
    · rw [slots_state n c h (List.mem_range.1 hc), beq_false_of_ne h]
      rfl
  rw [State.liveCtxs, List.filter_congr h]
  decide +kernel
set_option maxRecDepth 20000 in
/-- `residency`: a waiting context, a die with a free slot and one with none, and the resident that ranks last. -/
theorem test_meets_residency_slots :
    (slots 1).liveCtxs = [17] ∧ ((slots 1).residOn 17 0 = .out ∧ (slots 1).demand 0 17 = true) ∧
    (slots 1).mayReside 0 17 = true ∧ (slots 1).slotHolders 0 = [1] :=
  ⟨slots_live 1 (by decide +kernel), by decide +kernel, by decide +kernel, by decide +kernel⟩

set_option maxRecDepth 20000 in
theorem test_meets_residency_full : (slots 16).slotHolders 0 = (List.range 16).map (· + 1) ∧
    lastRank ((slots 16).dieRank 0) ((List.range 16).map (· + 1)) = some 16 ∧
    ((slots 16).dieRank 0 17).before ((slots 16).dieRank 0 16) = true ∧ (slots 16).isBehind 0 17 = false := by
  decide +kernel

/-- `residency`: an entry that is behind its share; a context that follows one that leaves; an epoch in flight. -/
theorem test_meets_residency_behind :
    let s : State := { demo k0 with dies := [(0, { (demo k0).die 0 with
      fair := [(0, { fairReset with valid := true, kind := 1, key := 1, share := 8 })] })] }
    let t : State := { demo k0 with ctxs := [(1, (demo k0).ctx 1), (3, { ctxNone with nextOn := [(0, 1)] })] }
    s.isBehind 0 1 = true ∧ ((t.ctxs.find? fun e => tabFind e.2.nextOn 0 == some 1).map (·.1)) = some 3 ∧
    tabFind (t.ctx 1).nextOn 0 = none ∧ (queued [] [acc .store .none]).epochsOut = [0] := by decide +kernel

/-- `quanta`: a context's saved command, and a record of its order. -/
theorem test_meets_quanta_cmds :
    let c := cmdOf (.mzero { zE with xa := 3 }) .matrix 0 0 0
    let i : Image := { ctx := 1, core := 0, place := 0x280000000, mkey := 0, teams := [], order := [20], cmds := [c], sb := [] }
    ((freeCore [i]).images.find? fun m => m.core == 0 && m.ctx == 1) = some i ∧ c ∈ i.cmds ∧ c.id ∈ i.order := by
  decide +kernel

/-- `scanner`: frames that the scanner no longer reaches.  `confidential`: a dead key.  `reclaim`: launch rings and
a descriptor that stand apart, and a scrub that ends behind another request. -/
theorem test_meets_secure_refusals :
    let t : State := { demo k0 with mkeys := [(9, 2, 0)] }
    let d : State := { shaking with mkeys := [(0, 2, 0)] }
    let r := scrubbing
    let b : State := { r with dies := [(0, { r.die 0 with bells := [(1, 5), (1, 0)] })] }
    t.agentSees 0 (255 * 2 ^ 48 + 0x1E0000000) 65536 false 9 true = false ∧
    (demo k0).agentSees 0 (255 * 2 ^ 48 + 0x1E0000000) 65536 false 9 true = true ∧
    (tabGet (0, 0) d.mkeys (d.ctxKey 1)).1 = 2 ∧ shaking.refused (shaking.ctxKey 1) 0x170000000 true = false ∧
    (List.range 4).map (fun p => ((asking 10).launchRing 1 p).key) =
      [0x200010000, 0x200010020, 0x200010040, 0x200010060] ∧ (b.offered 0).head? = some 5 := by decide +kernel

theorem test_meets_reclaim_rings : Hbm 0x200010000 128 := hbm_low (by decide)

/-- `powerUp`: ports that train and ports that do not.  `links`: something to send again, and room for it. -/
theorem test_meets_ports :
    let s : State := { demo k0 with ports := [(2, { portReset with up := true, sent := [(0, .message { msg0 with tpkg := 5 })] }),
      (3, { portReset with up := true })] }
    let b := s.setPort 2 portReset
    State.reset.trains 3 7 (17, 7) = true ∧ State.reset.trains 3 7 (17, 8) = false ∧
    State.reset.trains 3 7 (21, 0) = true ∧ State.reset.trains 3 7 (20, 0) = false ∧ s.trains 0 0 (2, 0) = false ∧
    s.portUp 2 = true ∧ b.livePlanes = [3] ∧ b.portOf { msg0 with tpkg := 5 } = some 3 ∧
    (s.port 3).retry.length + 17 ≤ 1024 ∧ b.planeFor 5 0x110000000 = some 3 := by decide +kernel

/-- `machineChecks`: a queue pair that aims at a package, and one that is not open. -/
theorem test_meets_machineChecks_aims :
    ((paired' qpNone).qpDesc 0 0).state = 1 ∧ ((paired' qpNone).qpDesc 0 0).target = 5 ∧
    (paired' qpNone).pkg.toNat ≠ 5 ∧ ({ paired' qpNone with lostPkgs := [5] } : State).targetLost 5 = true ∧
    ((paired' qpNone).qpDesc 0 1).state ≠ 1 ∧ ((paired' qpNone).qpDesc 0 1).target ≠ 6 := by decide +kernel
end Sys2Proof.Tests
end

/-! Commands that end, results that arrive, and registers written from outside (R84, R86, R265, R410). -/

namespace Sys2Proof.Proofs

open Sys2Proof.Machine Sys2Proof.Laws

/-! ## Commands that end -/

theorem freeSb_eq (s : State) (core id : Nat) :
    s.freeSb core id = { s with cores := (s.freeSb core id).cores } := by
  unfold State.freeSb
  split <;> rfl

/-- Freeing scoreboard entries changes the entries of that core and nothing else of any core. -/
theorem core_freeSb (s : State) (core id q : Nat) :
    (s.freeSb core id).core q = if q = core then
      { s.core core with sb := ((s.freeSb core id).core core).sb } else s.core q := by
  unfold State.freeSb
  split
  · split_ifs with h
    · subst h; rfl
    · rfl
  · simp

/-- The state in which a command is gone from its core and is open no more. -/
def withoutCmd (s : State) (c : Cmd) : State :=
  { s.modCore c.core fun k => { k with cmds := k.cmds.filter fun d => d.id != c.id } with
    openCmds := s.openCmds.filter fun i => i != c.id }

theorem core_withoutCmd (s : State) (c : Cmd) (q : Nat) : (withoutCmd s c).core q = if q = c.core then
    { s.core c.core with cmds := (s.core c.core).cmds.filter fun d => d.id != c.id } else s.core q :=
  core_setCore ..

theorem finishCmd_of_no_sig (s : State) {c : Cmd} (h : c.sig = none) :
    s.finishCmd c = (withoutCmd s c).freeSb c.core c.id := by
  unfold State.finishCmd
  rw [h]
  rfl

theorem finishCmd_of_sig (s : State) {c : Cmd} {n : Nat} (h : c.sig = some n) :
    s.finishCmd c = { (withoutCmd s c).freeSb c.core c.id with
      reqs := tabPut s.reqs s.nextId (.semSig c.ctx n 1 c.team c.id c.core c.pc c.scope none c.seq)
      nextId := s.nextId + 1 } := by
  have hfree := freeSb_eq (withoutCmd s c) c.core c.id
  calc
    s.finishCmd c = { (withoutCmd s c).freeSb c.core c.id with
        reqs := tabPut ((withoutCmd s c).freeSb c.core c.id).reqs ((withoutCmd s c).freeSb c.core c.id).nextId
          (.semSig c.ctx n 1 c.team c.id c.core c.pc c.scope none c.seq)
        nextId := ((withoutCmd s c).freeSb c.core c.id).nextId + 1 } := by
      unfold State.finishCmd
      rw [h]
      rfl
    _ = _ := by
      rw [hfree]
      rfl

theorem finishCmd_cores (s : State) (c : Cmd) :
    (s.finishCmd c).cores = ((withoutCmd s c).freeSb c.core c.id).cores := by
  cases h : c.sig with
  | none => rw [finishCmd_of_no_sig s h]
  | some n => rw [finishCmd_of_sig s h]

/-- A command that ends changes the cores, the open commands, and with its signal the requests and the names. -/
theorem finishCmd_eq (s : State) (c : Cmd) : s.finishCmd c = { s with
    cores := (s.finishCmd c).cores, openCmds := s.openCmds.filter fun i => i != c.id
    reqs := (s.finishCmd c).reqs, nextId := (s.finishCmd c).nextId } := by
  cases h : c.sig with
  | none =>
    rw [finishCmd_of_no_sig s h, freeSb_eq]
    rfl
  | some n =>
    rw [finishCmd_of_sig s h, freeSb_eq]
    rfl

/-- Of the cores, a command that ends changes its own: it leaves that core's commands, and entries of the
scoreboard may become free. -/
theorem core_finishCmd (s : State) (c : Cmd) (q : Nat) :
    (s.finishCmd c).core q = if q = c.core then
      { s.core c.core with
        cmds := (s.core c.core).cmds.filter fun d => d.id != c.id
        sb := ((s.finishCmd c).core c.core).sb } else s.core q := by
  have hread : ∀ q, (s.finishCmd c).core q = ((withoutCmd s c).freeSb c.core c.id).core q :=
    fun q => congrArg (tabGet coreReset · q) (finishCmd_cores s c)
  rw [hread q, hread c.core, core_freeSb, core_withoutCmd, core_withoutCmd, if_pos rfl]
  split_ifs <;> rfl

theorem finishCmd_signals (s : State) (c : Cmd) (n : Nat) (h : c.sig = some n) :
    ∃ k, tabFind (s.finishCmd c).reqs k =
      some (.semSig c.ctx n 1 c.team c.id c.core c.pc c.scope none c.seq) := by
  rw [finishCmd_of_sig s h]
  exact ⟨s.nextId, by rw [tabFind_tabPut, if_pos rfl]⟩

/-- A finished command is over. -/
theorem over_finishCmd (s : State) (c : Cmd) : Over s (s.finishCmd c) c := by
  refine ⟨?_, congrArg State.openCmds (finishCmd_eq s c), finishCmd_signals s c⟩
  rw [core_finishCmd, if_pos rfl]

/-! ## Results in the registers -/

@[simp] theorem getLsbD_clearBit {n : Nat} (m : BitVec n) (i j : Nat) :
    (clearBit m i).getLsbD j = (m.getLsbD j && j != i) := by
  by_cases hj : j < n
  · by_cases h : j = i
    · subst h; simp [clearBit, hj]
    · rcases Nat.lt_or_gt_of_ne h with h' | h'
      · simp [clearBit, hj, h, h']
      · have : ¬ j < i := by omega
        have : j - i ≠ 0 := by omega
        simp_all [clearBit]
  · simp [BitVec.getLsbD_of_ge _ _ (Nat.le_of_not_lt hj)]

theorem getLsbD_foldl_clearBit {n : Nat} (l : List Nat) (m : BitVec n) (j : Nat) :
    (l.foldl clearBit m).getLsbD j = (m.getLsbD j && !l.contains j) := by
  induction l generalizing m with
  | nil => simp
  | cons i l ih =>
    rw [List.foldl_cons, ih, getLsbD_clearBit, List.contains_cons, Bool.not_or, Bool.and_assoc]
    rfl

section Rows
variable {α : Type} [DecidableEq α] (d : α)

theorem tabGet_foldl_tabSet_of_not_mem (l : Tab α) (t : Tab α) (key : Nat) (h : ∀ x ∈ l, x.1 ≠ key) :
    tabGet d (l.foldl (fun m e => tabSet d m e.1 e.2) t) key = tabGet d t key := by
  induction l generalizing t with
  | nil => rfl
  | cons e l ih =>
    obtain ⟨he, hl⟩ := List.forall_mem_cons.mp h
    rw [List.foldl_cons, ih _ hl, tabGet_tabSet, if_neg he.symm]

/-- Of entries written in turn, one that no other entry of its key contradicts reads back. -/
theorem tabGet_foldl_tabSet_of_mem (l : Tab α) (t : Tab α) {x : Nat × α} (hx : x ∈ l)
    (h : ∀ y ∈ l, y.1 = x.1 → y.2 = x.2) :
    tabGet d (l.foldl (fun m e => tabSet d m e.1 e.2) t) x.1 = x.2 := by
  induction l generalizing t with
  | nil => simp at hx
  | cons e l ih =>
    obtain ⟨he, hl⟩ := List.forall_mem_cons.mp h
    rw [List.foldl_cons]
    by_cases hmem : x ∈ l
    · exact ih _ hmem hl
    · by_cases hkey : ∃ y ∈ l, y.1 = x.1
      · obtain ⟨y, hy, hyx⟩ := hkey
        exact absurd (Prod.ext hyx (hl y hy hyx) ▸ hy) hmem
      · push Not at hkey
        obtain rfl : x = e := (List.mem_cons.mp hx).resolve_right hmem
        rw [tabGet_foldl_tabSet_of_not_mem d l _ _ hkey, tabGet_tabSet, if_pos rfl]

end Rows

section Registers
variable (k : Task) (r : Result)

theorem setX_eq (i : BitVec 6) (v : W64) : k.setX i v = { k with x := (k.setX i v).x } := by
  unfold Task.setX
  split <;> rfl

theorem getX_setX (i j : BitVec 6) (v : W64) :
    (k.setX i v).getX j = if j = i ∧ i ≠ 0 then v else k.getX j := by
  unfold Task.getX Task.setX
  by_cases hi : i = 0#6
  · simp [hi]
  · by_cases hj : j = 0#6
    · simp [hj, Ne.symm hi]
    · simp [hi, hj, BitVec.toNat_inj]

/-- A result changes its task's registers and their empty bits. -/
theorem takeResult_eq : k.takeResult r = { k with
    x := (k.takeResult r).x, xEmpty := (k.takeResult r).xEmpty
    v := r.rows.foldl (fun m e => tabSet 0 m e.1 e.2) k.v
    vEmpty := r.regs.foldl clearBit k.vEmpty } := by
  unfold Task.takeResult
  cases r.xs with
  | none => rfl
  | some p =>
    obtain ⟨d, v⟩ := p
    dsimp only
    rw [setX_eq]

theorem takeResult_v : (k.takeResult r).v = r.rows.foldl (fun m e => tabSet 0 m e.1 e.2) k.v :=
  congrArg Task.v (takeResult_eq k r)

theorem takeResult_vEmpty : (k.takeResult r).vEmpty = r.regs.foldl clearBit k.vEmpty :=
  congrArg Task.vEmpty (takeResult_eq k r)

theorem getX_takeResult_none (h : r.xs = none) (i : BitVec 6) :
    (k.takeResult r).getX i = k.getX i ∧ (k.takeResult r).xIsEmpty i = k.xIsEmpty i := by
  simp [Task.takeResult, Task.getX, Task.xIsEmpty, h]

theorem getX_takeResult_some {d : Nat} {v : W64} (h : r.xs = some (d, v)) (i : BitVec 6) :
    (k.takeResult r).getX i = (k.setX (BitVec.ofNat 6 d) v).getX i ∧
      (k.takeResult r).xIsEmpty i = (k.xIsEmpty i && i.toNat != d) := by
  simp [Task.takeResult, Task.getX, Task.xIsEmpty, h, Bool.and_assoc]

/-- R84: the register that a result names holds its value and reads full. -/
theorem takeResult_writes {i : BitVec 6} {v : W64} (h : r.xs = some (i.toNat, v)) (hi : i ≠ 0) :
    (k.takeResult r).getX i = v ∧ (k.takeResult r).xIsEmpty i = false := by
  obtain ⟨hx, he⟩ := getX_takeResult_some k r h i
  rw [hx, he, getX_setX, BitVec.ofNat_toNat, BitVec.setWidth_eq]
  exact ⟨if_pos ⟨rfl, hi⟩, by simp⟩

/-- R84: a register that a result does not name is as before. -/
theorem takeResult_keeps {i : BitVec 6} (h : ∀ v, r.xs ≠ some (i.toNat, v))
    (hd : ∀ d v, r.xs = some (d, v) → d < 64) :
    (k.takeResult r).getX i = k.getX i ∧ (k.takeResult r).xIsEmpty i = k.xIsEmpty i := by
  cases hxs : r.xs with
  | none => exact getX_takeResult_none k r hxs i
  | some p =>
    obtain ⟨d, v⟩ := p
    have hne : i.toNat ≠ d := fun he => h v (he ▸ hxs)
    have hlt : d < 64 := hd d v hxs
    have hreg : i ≠ BitVec.ofNat 6 d := fun he => hne (by
      rw [he, BitVec.toNat_ofNat, Nat.mod_eq_of_lt (by omega)])
    obtain ⟨hx, he⟩ := getX_takeResult_some k r hxs i
    rw [hx, he, getX_setX]
    simp [hreg, hne]

end Registers

/-! ## RESULT_ARRIVAL -/

/-- The core without a result that was on its way. -/
def withoutResult (s : State) (core id : Nat) : State :=
  s.setCore core { s.core core with results := (s.core core).results.filter fun q => q.id != id }

/-- The end of the synchronization command of a name, if there is one (R265). -/
def endSync (s : State) (core id : Nat) : State :=
  match s.cmd core id with
  | some c => if c.queue = .sync then s.finishCmd c else s
  | none => s

/-- A team's running task, if it has one, with a result in its registers. -/
def teamTakes (r : Result) (m : Team) : Team := { m with task := m.task.map fun k => k.takeResult r }

/-- The state in which a result of the team has arrived. -/
def arrived (s : State) (c id : Nat) (r : Result) : State :=
  (endSync (withoutResult s c id) c id).modTeam r.team (teamTakes r)

theorem exec_resultArrival {s : State} {c id : Nat} {r : Result}
    (h : ((s.core c).results.find? fun q => q.id == id) = some r) :
    exec (.resultArrival c id) s = .next (arrived s c id r) := by
  show execResultArrival c id s = _
  unfold execResultArrival
  rw [h]
  rfl

theorem core_withoutResult (s : State) (c id q : Nat) : (withoutResult s c id).core q =
    if q = c then { s.core c with results := (s.core c).results.filter fun q => q.id != id }
    else s.core q := core_setCore ..

theorem cmd_withoutResult (s : State) (c id : Nat) : (withoutResult s c id).cmd c id = s.cmd c id := by
  simp [State.cmd, core_withoutResult]

theorem cmd_id {s : State} {c id : Nat} {d : Cmd} (h : s.cmd c id = some d) : d.id = id := by
  simpa using List.find?_some h

theorem endSync_of_sync {s : State} {c id : Nat} {d : Cmd} (h : s.cmd c id = some d)
    (hq : d.queue = .sync) : endSync s c id = s.finishCmd d := by
  simp [endSync, h, hq]

theorem endSync_of_not_sync {s : State} {c id : Nat} (h : ∀ d, s.cmd c id = some d → d.queue ≠ .sync) :
    endSync s c id = s := by
  unfold endSync
  split
  · rename_i d hd
    rw [if_neg (h d hd)]
  · rfl

/-- There is a synchronization command of that name, and it ends, or nothing does. -/
theorem endSync_cases (s : State) (c id : Nat) :
    (∃ d, s.cmd c id = some d ∧ endSync s c id = s.finishCmd d) ∨ endSync s c id = s := by
  by_cases h : ∃ d, s.cmd c id = some d ∧ d.queue = .sync
  · obtain ⟨d, hd, hq⟩ := h
    exact .inl ⟨d, hd, endSync_of_sync hd hq⟩
  · exact .inr (endSync_of_not_sync fun d hd hq => h ⟨d, hd, hq⟩)

theorem endSync_teams (s : State) (c id : Nat) : (endSync s c id).teams = s.teams := by
  rcases endSync_cases s c id with ⟨d, -, h⟩ | h
  · rw [h, finishCmd_eq]
  · rw [h]

section Arrival
variable {s : State} {c id : Nat} {r : Result}

theorem core_arrived (q : Nat) :
    (arrived s c id r).core q = (endSync (withoutResult s c id) c id).core q := core_modTeam ..

theorem arrived_other_core {q : Nat} (hq : q ≠ c) (hd : ∀ d, s.cmd c id = some d → q ≠ d.core) :
    (arrived s c id r).core q = s.core q := by
  have hw : (withoutResult s c id).core q = s.core q := by rw [core_withoutResult, if_neg hq]
  rw [core_arrived]
  rcases endSync_cases (withoutResult s c id) c id with ⟨d, hcmd, h⟩ | h
  · rw [cmd_withoutResult] at hcmd
    rw [h, core_finishCmd, if_neg (hd d hcmd), hw]
  · rw [h, hw]

/-- R84: a result that ends no command changes the core's results on their way and its team. -/
theorem arrived_no_sync (h : ∀ d, s.cmd c id = some d → d.queue ≠ .sync) :
    arrived s c id r = { s with
        cores := (arrived s c id r).cores, teams := (arrived s c id r).teams } ∧
      (arrived s c id r).core c =
        { s.core c with results := (s.core c).results.filter fun q => q.id != id } := by
  have hend : endSync (withoutResult s c id) c id = withoutResult s c id :=
    endSync_of_not_sync fun d hd => h d (cmd_withoutResult s c id ▸ hd)
  constructor
  · rw [arrived, hend, modTeam_eq]
    rfl
  · rw [core_arrived, hend, core_withoutResult, if_pos rfl]

/-- R265: the result of a SEMRD ends its command. -/
theorem arrived_sync {d : Cmd} (hcmd : s.cmd c id = some d) (hq : d.queue = .sync) (hcore : d.core = c) :
    Over s (arrived s c id r) d ∧
      arrived s c id r = { s with
        cores := (arrived s c id r).cores, teams := (arrived s c id r).teams
        openCmds := (arrived s c id r).openCmds, reqs := (arrived s c id r).reqs
        nextId := (arrived s c id r).nextId } ∧
      (arrived s c id r).core c = { s.core c with
        results := (s.core c).results.filter fun q => q.id != id
        cmds := (s.core c).cmds.filter fun q => q.id != id
        sb := ((arrived s c id r).core c).sb } := by
  have hend : endSync (withoutResult s c id) c id = (withoutResult s c id).finishCmd d :=
    endSync_of_sync (cmd_withoutResult s c id ▸ hcmd) hq
  have hid : d.id = id := cmd_id hcmd
  subst hcore hid
  have hself : (arrived s d.core d.id r).core d.core = { s.core d.core with
      results := (s.core d.core).results.filter fun q => q.id != d.id
      cmds := (s.core d.core).cmds.filter fun q => q.id != d.id
      sb := ((arrived s d.core d.id r).core d.core).sb } := by
    rw [core_arrived, hend, core_finishCmd, if_pos rfl, core_withoutResult, if_pos rfl]
  obtain ⟨-, hopen, hsig⟩ := over_finishCmd (withoutResult s d.core d.id) d
  refine ⟨⟨by rw [hself], ?_, ?_⟩, ?_, hself⟩
  · rw [arrived, modTeam_openCmds, hend, hopen]
    rfl
  · rw [arrived, modTeam_reqs, hend]
    exact hsig
  · rw [arrived, hend, modTeam_eq, finishCmd_eq]
    rfl

theorem tabFind_arrived (u : Nat) : tabFind (arrived s c id r).teams u =
    if u = r.team then (tabFind s.teams r.team).map (teamTakes r) else tabFind s.teams u := by
  rw [arrived, tabFind_modTeam, endSync_teams]
  rfl

/-- R84: a result goes to the task of its team. -/
theorem arrived_task {m : Team} {k : Task} (hm : tabFind s.teams r.team = some m) (hk : m.task = some k) :
    tabFind (arrived s c id r).teams r.team = some { m with task := some (k.takeResult r) } := by
  simp [tabFind_arrived, hm, teamTakes, hk]

/-- R86: a result whose task has ended comes to nothing. -/
theorem arrived_no_task {m : Team} (hm : tabFind s.teams r.team = some m) (hk : m.task = none) :
    tabFind (arrived s c id r).teams r.team = some m := by
  have : teamTakes r m = m := by
    cases m
    simp_all [teamTakes]
  simp [tabFind_arrived, hm, this]

end Arrival

/-! ## REGISTER_WRITE -/

/-- R410: bits 31 to 16 of APCTL are reserved and read zero. -/
theorem getLsbD_setApctl (s : State) (v : W64) {i : Nat} (hi : i < 64) :
    (s.setApctl v).apctl.getLsbD i = (v.getLsbD i && !(decide (16 ≤ i) && decide (i < 32))) := by
  have hmask : ∀ i < 64, (0xFFFFFFFF0000FFFF : W64).getLsbD i = !(decide (16 ≤ i) && decide (i < 32)) := by
    decide
  rw [State.setApctl, BitVec.getLsbD_and, hmask i hi]

theorem writeFair_in_range (s : State) {die entry word : Nat} (v : BitVec 32)
    (h : die < 4 ∧ entry < 256 ∧ word < 8) : s.writeFair die entry word v = s.setDie die { s.die die with
      fairPend := tabPut (s.die die).fairPend ((s.die die).ticksDue * 2 ^ 20 + entry * 8 + word) v } := by
  rw [State.writeFair, if_pos h, modDie_def]

theorem writeFair_out_of_range (s : State) {die entry word : Nat} (v : BitVec 32)
    (h : 4 ≤ die ∨ 256 ≤ entry ∨ 8 ≤ word) : s.writeFair die entry word v = s := by
  rw [State.writeFair, if_neg (by omega)]

/-- A task that a BREAK holds goes on; every other is as it was (R179). -/
def releaseBreak (k : Task) : Task := if k.hold = .brk then { k with hold := .free } else k

theorem exec_breakRelease (s : State) (u : Nat) : exec (.registerWrite (.breakRelease u)) s =
    .next (s.modTeam u fun m => { m with task := m.task.map releaseBreak }) := rfl

theorem breakRelease_held {s : State} {u : Nat} {m : Team} {k : Task} (hm : tabFind s.teams u = some m)
    (hk : m.task = some k) (hold : k.hold = .brk) :
    tabFind (s.modTeam u fun m => { m with task := m.task.map releaseBreak }).teams u =
      some { m with task := some { k with hold := .free } } := by
  simp [tabFind_modTeam, hm, hk, releaseBreak, hold]

theorem breakRelease_not_held {s : State} {u : Nat}
    (h : ∀ m k, tabFind s.teams u = some m → m.task = some k → k.hold ≠ .brk) :
    tabFind (s.modTeam u fun m => { m with task := m.task.map releaseBreak }).teams u = tabFind s.teams u := by
  rw [tabFind_modTeam, if_pos rfl]
  cases hm : tabFind s.teams u with
  | none => rfl
  | some m =>
    have htask : m.task.map releaseBreak = m.task := by
      cases hk : m.task with
      | none => rfl
      | some k => simp [releaseBreak, h m k hm hk]
    simp [htask]

section Writes
variable (s : State)

/-- R342: a fairness word waits for the first tick whose ac has not come, and nothing else changes. -/
theorem fairness_write {die entry word : Nat} (v : BitVec 32) (h : die < 4 ∧ entry < 256 ∧ word < 8) :
    ∃ t : State, exec (.registerWrite (.fairness die entry word v)) s = .next t ∧
      t = { s with dies := t.dies } ∧ (∀ d, d ≠ die → t.die d = s.die d) ∧
      t.die die = { s.die die with fairPend := (t.die die).fairPend } ∧
      ∀ q, tabFind (t.die die).fairPend q =
        if q = (s.die die).ticksDue * 2 ^ 20 + entry * 8 + word then some v
        else tabFind (s.die die).fairPend q := by
  refine ⟨s.writeFair die entry word v, rfl, ?_⟩
  rw [writeFair_in_range s v h]
  refine ⟨rfl, fun d hd => ?_, ?_, fun q => ?_⟩
  · rw [die_setDie, if_neg hd]
  · rw [die_setDie, if_pos rfl]
  · rw [die_setDie, if_pos rfl, tabFind_tabPut]

theorem fairness_write_ignored {die entry word : Nat} (v : BitVec 32)
    (h : 4 ≤ die ∨ 256 ≤ entry ∨ 8 ≤ word) :
    exec (.registerWrite (.fairness die entry word v)) s = .next s :=
  congrArg Host.Outcome.next (writeFair_out_of_range s v h)

/-- R285: shares that make 100 are taken, and others are ignored. -/
theorem portShare_write (port a b c : Nat) :
    (a + b + c = 100 → ∃ p, exec (.registerWrite (.portShare port a b c)) s = .next { s with ports := p } ∧
      ∀ q, tabGet portReset p q = if q = port then
        { tabGet portReset s.ports port with shares := (a, b, c) } else tabGet portReset s.ports q) ∧
      (a + b + c ≠ 100 → exec (.registerWrite (.portShare port a b c)) s = .next s) := by
  have hexec : exec (.registerWrite (.portShare port a b c)) s = .next (if a + b + c = 100 then
      { s with ports := tabPut s.ports port { tabGet portReset s.ports port with shares := (a, b, c) } }
      else s) := rfl
  rw [hexec]
  constructor
  · intro h
    exact ⟨_, by rw [if_pos h], fun q => tabGet_tabPut ..⟩
  · intro h
    rw [if_neg h]

/-- R286: the exports of one package and context go, and no other. -/
theorem exportClear_write (pkg ctx : Nat) :
    ∃ l, exec (.registerWrite (.exportClear pkg ctx)) s = .next { s with exports := l } ∧
      ∀ x, x ∈ l ↔ x ∈ s.exports ∧ ¬ (x.pkg = pkg ∧ x.ctx = ctx) :=
  ⟨_, rfl, fun x => by simp [imp_iff_not_or]⟩

/-- R179: the debug agent's release lets a task go on that a BREAK holds, and no other. -/
theorem breakRelease_write (u : Nat) :
    ∃ t : State, exec (.registerWrite (.breakRelease u)) s = .next t ∧ t = { s with teams := t.teams } ∧
      (∀ q, q ≠ u → tabFind t.teams q = tabFind s.teams q) ∧
      (∀ m k, tabFind s.teams u = some m → m.task = some k → k.hold = .brk →
        tabFind t.teams u = some { m with task := some { k with hold := .free } }) ∧
      ((∀ m k, tabFind s.teams u = some m → m.task = some k → k.hold ≠ .brk) →
        tabFind t.teams u = tabFind s.teams u) :=
  ⟨_, exec_breakRelease s u, modTeam_eq .., fun q hq => by rw [tabFind_modTeam, if_neg hq],
    fun _ _ => breakRelease_held, breakRelease_not_held⟩

end Writes

/-- Settles O40: each register's write by its own lemma, and an arrival by what it does to the cores, to the
command of its name and to the team. -/
theorem registerWrites : Obligations.registerWrites := by
  unfold Obligations.registerWrites
  refine ⟨fun s => ⟨fun v => ⟨(s.setApctl v).apctl, rfl, fun i => getLsbD_setApctl s v⟩, fun v => rfl,
      fun p => rfl, fun pkg m => ⟨_, rfl, fun q => tabGet_tabSet ..⟩,
      fun die entry word v hd he hw => fairness_write s v ⟨hd, he, hw⟩,
      fun die entry word v => fairness_write_ignored s v, portShare_write s, fun _ _ _ _ _ _ => rfl,
      exportClear_write s, breakRelease_write s⟩, ?_⟩
  intro s c id r m hr hm
  refine ⟨arrived s c id r, exec_resultArrival hr, fun q => arrived_other_core, arrived_no_sync,
    fun d => arrived_sync, fun u hu => by rw [tabFind_arrived, if_neg hu], arrived_no_task hm, ?_⟩
  intro k hk
  refine ⟨k.takeResult r, arrived_task hm hk,
    by rw [takeResult_v, takeResult_vEmpty, ← takeResult_eq],
    fun i => ⟨fun v => takeResult_writes k r, takeResult_keeps k r⟩, fun j _ => ?_, fun x hx h => ?_,
    fun key h => ?_⟩
  · rw [takeResult_vEmpty, getLsbD_foldl_clearBit]
  · rw [takeResult_v, tabGet_foldl_tabSet_of_mem 0 _ _ hx h]
  · rw [takeResult_v, tabGet_foldl_tabSet_of_not_mem 0 _ _ key h]

end Sys2Proof.Proofs

/-! What a step takes when no instruction runs, and how time moves (R9). -/

namespace Sys2Proof.Proofs

open Sys2Proof.Machine Sys2Proof.Laws

/-! ## What a step takes -/

theorem step_of_input {s : State} {i : Instr} {rest : List Instr} (hs : s.agenda = i :: rest)
    (hi : i.isForm = false) : step s = ticked s (exec i { s with agenda := rest }) := by
  simp [step, hs, hi]

theorem step_of_chosen {s : State} {w : Work} (hs : s.agenda = []) (hr : s.runner = none)
    (hw : s.chosen = some w) : step s = ticked s (w s) := by
  simp [step, hs, hr, hw]

/-- The part's links give it something to do in every state: a port may always be asked to send. -/
theorem execFabricMessageSend_mem_candidates (s : State) {p : Nat} (hp : p < 24) :
    execFabricMessageSend p ∈ s.candidates := by
  have hport : execFabricMessageSend p ∈ (List.range 24).map fun p => execFabricMessageSend p :=
    List.mem_map_of_mem (List.mem_range.mpr hp)
  have hpackage : execFabricMessageSend p ∈ packageWork s := by
    simp only [packageWork, List.append_assoc]
    exact List.mem_append_left _ hport
  exact List.mem_append_right _ hpackage

/-- The open choice names a candidate: its index is taken modulo their number, which is not 0. -/
theorem exists_chosen (s : State) : ∃ w ∈ s.candidates, s.chosen = some w := by
  have hpos : 0 < s.candidates.length :=
    List.length_pos_of_mem (execFabricMessageSend_mem_candidates s (p := 0) (by decide))
  have hlt : Config.pick s.ticks % s.candidates.length < s.candidates.length := Nat.mod_lt _ hpos
  exact ⟨_, List.getElem_mem hlt, List.getElem?_eq_getElem hlt⟩

/-! ## Time -/

/-- A die as time moves on by the cycles of one step: only GNOMON of a die that is up rises (R9). -/
def dieAfter (cycles : Nat) (d : Die) : Die :=
  if d.up then { d with gnomon := d.gnomon + w64 cycles } else d

theorem gnomon_dieAfter (cycles : Nat) (d : Die) :
    (dieAfter cycles d).gnomon = if d.up then d.gnomon + w64 cycles else d.gnomon := by
  unfold dieAfter
  split <;> rfl

/-- A change of every value of a table shows at each key, the unlisted ones included. -/
theorem tabGet_map {α β : Type} (f : α → β) (d : α) (t : Tab α) (i : Nat) :
    tabGet (f d) (t.map fun e => (e.1, f e.2)) i = f (tabGet d t i) := by
  induction t with
  | nil => rfl
  | cons e t ih =>
    simp only [List.map_cons, tabGet, ih]
    split <;> rfl

theorem tick_dies (s : State) :
    s.tick.dies = s.dies.map fun e => (e.1, dieAfter (1 + Config.elapsed s.ticks) e.2) := by
  refine List.map_congr_left fun e _ => ?_
  unfold dieAfter
  split <;> rfl

theorem die_tick (s : State) (d : Nat) :
    s.tick.die d = dieAfter (1 + Config.elapsed s.ticks) (s.die d) := by
  rw [State.die, tick_dies]
  exact tabGet_map (dieAfter _) dieReset s.dies d

/-- Settles O34: an input is taken first; a port's send is always a candidate, so the open choice names one;
and a tick changes each die by itself. -/
theorem stepTakes : Obligations.stepTakes := by
  unfold Obligations.stepTakes
  refine ⟨fun s i rest => step_of_input, fun s hs hr => ?_, fun s d => ⟨Config.elapsed s.ticks, ?_⟩⟩
  · obtain ⟨w, hmem, hw⟩ := exists_chosen s
    exact ⟨w, hmem, hw, step_of_chosen hs hr hw⟩
  · rw [die_tick, gnomon_dieAfter]

end Sys2Proof.Proofs

/-! Memory: what the writes of an agent of the part leave to be read (R105, R361). -/

namespace Sys2Proof.Proofs

open Sys2Proof.Machine Sys2Proof.Laws

/-! ## Bytes and numbers -/

@[simp] theorem length_leBytes (n v : Nat) : (leBytes n v).length = n := by
  induction n generalizing v with
  | zero => rfl
  | succ n ih => simp [leBytes, ih]

theorem leNat_lt (bs : List (BitVec 8)) : leNat bs < 256 ^ bs.length := by
  induction bs with
  | nil => simp [leNat]
  | cons b bs ih =>
    have hb := b.isLt
    rw [leNat, List.length_cons, Nat.pow_succ']
    omega

theorem readBytes_eq_map (s : State) (mk k n : Nat) :
    s.readBytes mk k n = (List.range n).map fun i => s.readByte mk (k + i) := by
  induction n generalizing k with
  | zero => rfl
  | succ n ih =>
    rw [State.readBytes, ih, List.range_succ_eq_map, List.map_cons, List.map_map]
    simp [Function.comp_def, Nat.add_assoc, Nat.add_comm 1]

@[simp] theorem length_readBytes (s : State) (mk k n : Nat) : (s.readBytes mk k n).length = n := by
  simp [readBytes_eq_map]

/-! ## States that a read of memory cannot tell apart -/

/-- Two states agree in all that a read of memory looks at. -/
structure SameMemory (s t : State) : Prop where
  mem : t.mem = s.mem
  tags : t.tags = s.tags
  dies : t.dies = s.dies
  clusters : t.clusters = s.clusters
  mkeys : t.mkeys = s.mkeys
  mclog : t.mclog = s.mclog
  ticks : t.ticks = s.ticks

namespace SameMemory
variable {s t u : State}

theorem installed (h : SameMemory s t) (mk k : Nat) : t.installed mk k = s.installed mk k := by
  simp only [State.installed, State.die, h.mkeys, h.dies]

theorem deviceByte (h : SameMemory s t) (k : Nat) : t.deviceByte k = s.deviceByte k := by
  simp only [State.deviceByte, State.die, State.cluster, h.dies, h.clusters, h.mclog, h.ticks]
  rfl

theorem readByte (h : SameMemory s t) (mk k : Nat) : t.readByte mk k = s.readByte mk k := by
  simp only [State.readByte, State.byte, h.installed, h.deviceByte, h.mem, h.tags, h.ticks]

end SameMemory

/-! ## Changes of memory alone -/

/-- Nothing but memory and its key tags has changed. -/
def OnlyMemory (s t : State) : Prop := t = { s with mem := t.mem, tags := t.tags }

namespace OnlyMemory
variable {s t u : State}

theorem refl (s : State) : OnlyMemory s s := rfl

theorem trans (h : OnlyMemory s t) (h' : OnlyMemory t u) : OnlyMemory s u := by
  rw [OnlyMemory, h', h]

theorem installed (h : OnlyMemory s t) (mk k : Nat) : t.installed mk k = s.installed mk k := by
  rw [h]; rfl

theorem refused (h : OnlyMemory s t) (mk k : Nat) (w : Bool) : t.refused mk k w = s.refused mk k w := by
  rw [h]; rfl

theorem writable (h : OnlyMemory s t) {mk base n : Nat} : Writable t mk base n ↔ Writable s mk base n := by
  simp only [Writable, h.refused, h.installed]

/-- A byte reads as before where it and its granule's tag are as before. -/
theorem readByte_eq (h : OnlyMemory s t) {a : Nat} (hb : t.byte a = s.byte a)
    (ht : tabGet 0 t.tags (a / 128) = tabGet 0 s.tags (a / 128)) (mk : Nat) :
    t.readByte mk a = s.readByte mk a := by
  have hd : t.deviceByte a = s.deviceByte a := by rw [h]; rfl
  have hk : t.ticks = s.ticks := by rw [h]
  simp only [State.readByte, h.installed, hb, ht, hd, hk]

end OnlyMemory

/-! ## One byte written -/

theorem isHbm_of_granule {a k : Nat} (h : a / 128 = k / 128) : isHbm a = isHbm k := by
  have h1 : (a < 2 ^ 48 ↔ k < 2 ^ 48) := by omega
  have h2 : (a % 2 ^ 46 < 0x003000000000 ↔ k % 2 ^ 46 < 0x003000000000) := by omega
  simp only [isHbm, h1, h2]

/-- Memory as the controller keeps it for a byte of a granule that another key wrote. -/
theorem readByte_of_other_tag {s : State} {mk a : Nat} (hh : isHbm a = true)
    (h : ¬ (tabGet 0 s.tags (a / 128) = 0 ∨ tabGet 0 s.tags (a / 128) = mk + 1)) :
    s.readByte mk a = Config.garbled s.ticks a (tabGet 0 s.tags (a / 128) - 1) mk := by
  rw [State.readByte, if_pos hh]
  exact if_neg fun hc => h hc.1

theorem readByte_of_own_tag {s : State} {mk a : Nat} (hh : isHbm a = true)
    (h : tabGet 0 s.tags (a / 128) = 0 ∨ tabGet 0 s.tags (a / 128) = mk + 1)
    (hi : s.installed mk a = true) : s.readByte mk a = s.byte a := by
  rw [State.readByte, if_pos hh]
  exact if_pos ⟨h, hi⟩

theorem readByte_of_not_hbm {s : State} {mk a : Nat} (hh : isHbm a = false) :
    s.readByte mk a = (s.deviceByte a).getD (s.byte a) := by
  rw [State.readByte, if_neg (by simp [hh])]
  cases s.deviceByte a <;> rfl

theorem tags_rekeyGranule (s : State) (mk k g : Nat) :
    tabGet 0 (s.rekeyGranule mk k).tags g =
      if isHbm k = true ∧ g = k / 128 then mk + 1 else tabGet 0 s.tags g := by
  have hf : ∀ (l : List Nat) (b : State),
      (l.foldl (fun s i => s.setByte (k / 128 * 128 + i) (s.readByte mk (k / 128 * 128 + i))) b).tags =
        b.tags := by
    intro l
    induction l with
    | nil => exact fun _ => rfl
    | cons x l ih => exact fun b => ih _
  simp only [State.rekeyGranule]
  split_ifs <;> simp_all

/-- The bytes of a granule that another key wrote become what the new key reads. -/
def garble (mk g tag : Nat) (s : State) (i : Nat) : State :=
  s.setByte (g * 128 + i) (Config.garbled s.ticks (g * 128 + i) (tag - 1) mk)

theorem byte_foldl_garble (mk g tag : Nat) (l : List Nat) (s : State) (a : Nat) :
    (l.foldl (garble mk g tag) s).byte a =
      if ∃ i ∈ l, a = g * 128 + i then Config.garbled s.ticks a (tag - 1) mk else s.byte a := by
  induction l generalizing s with
  | nil => simp
  | cons x l ih =>
    rw [List.foldl_cons, ih]
    have hticks : (garble mk g tag s x).ticks = s.ticks := rfl
    have hbyte : (garble mk g tag s x).byte a =
        if a = g * 128 + x then Config.garbled s.ticks (g * 128 + x) (tag - 1) mk else s.byte a :=
      byte_setByte ..
    rw [hticks, hbyte]
    by_cases h : ∃ i ∈ l, a = g * 128 + i
    · have h' : ∃ i ∈ x :: l, a = g * 128 + i := by
        obtain ⟨i, hi, ha⟩ := h
        exact ⟨i, List.mem_cons_of_mem _ hi, ha⟩
      rw [if_pos h, if_pos h']
    · rw [if_neg h]
      by_cases hx : a = g * 128 + x
      · subst hx
        rw [if_pos rfl, if_pos ⟨x, List.mem_cons_self .., rfl⟩]
      · rw [if_neg hx, if_neg]
        rintro ⟨i, hi, ha⟩
        rcases List.mem_cons.mp hi with rfl | hi
        · exact hx ha
        · exact h ⟨i, hi, ha⟩

/-- The bytes of a granule as a write under a key finds them: what that key reads (R105). -/
theorem byte_rekeyGranule (s : State) (mk k a : Nat) :
    (s.rekeyGranule mk k).byte a =
      if isHbm k = true ∧ a / 128 = k / 128 ∧
        ¬ (tabGet 0 s.tags (k / 128) = 0 ∨ tabGet 0 s.tags (k / 128) = mk + 1) then s.readByte mk a
      else s.byte a := by
  by_cases hh : isHbm k = true
  case neg => simp [State.rekeyGranule, hh]
  by_cases ht : tabGet 0 s.tags (k / 128) = 0 ∨ tabGet 0 s.tags (k / 128) = mk + 1
  case pos => simp [State.rekeyGranule, hh, ht, State.byte]
  have hfold : ∀ (l : List Nat) (b : State), (∀ i ∈ l, i < 128) → b.tags = s.tags →
      l.foldl (fun s i => s.setByte (k / 128 * 128 + i) (s.readByte mk (k / 128 * 128 + i))) b =
        l.foldl (garble mk (k / 128) (tabGet 0 s.tags (k / 128))) b := by
    intro l
    induction l with
    | nil => exact fun _ _ _ => rfl
    | cons x l ih =>
      intro b hl hb
      obtain ⟨hx, hl⟩ := List.forall_mem_cons.mp hl
      have hg : (k / 128 * 128 + x) / 128 = k / 128 := by omega
      have hread : b.readByte mk (k / 128 * 128 + x) =
          Config.garbled b.ticks (k / 128 * 128 + x) (tabGet 0 s.tags (k / 128) - 1) mk := by
        rw [readByte_of_other_tag ((isHbm_of_granule hg).trans hh) (by rw [hg, hb]; exact ht), hg, hb]
      rw [List.foldl_cons, List.foldl_cons, hread]
      exact ih _ hl hb
  have hbyte : (s.rekeyGranule mk k).byte a =
      ((List.range 128).foldl (garble mk (k / 128) (tabGet 0 s.tags (k / 128))) s).byte a := by
    rw [← hfold _ s (fun i hi => List.mem_range.mp hi) rfl]
    simp [State.rekeyGranule, hh, ht, State.byte]
  rw [hbyte, byte_foldl_garble]
  by_cases ha : a / 128 = k / 128
  · rw [if_pos ⟨a % 128, List.mem_range.mpr (by omega), by omega⟩, if_pos ⟨hh, ha, ht⟩,
      readByte_of_other_tag ((isHbm_of_granule ha).trans hh) (by rw [ha]; exact ht), ha]
  · rw [if_neg, if_neg fun h => ha h.2.1]
    rintro ⟨i, hi, rfl⟩
    have := List.mem_range.mp hi
    omega

/-- One byte written under a key that nothing refuses. -/
def putByte (s : State) (mk k : Nat) (b : BitVec 8) : State := (s.rekeyGranule mk k).setByte k b

section PutByte
variable {s : State} {mk k a : Nat} {b : BitVec 8}

theorem onlyMemory_putByte : OnlyMemory s (putByte s mk k b) := by
  rw [OnlyMemory, putByte, State.setByte, rekeyGranule_eq]

theorem byte_putByte : (putByte s mk k b).byte a =
    if a = k then b else (s.rekeyGranule mk k).byte a := byte_setByte ..

theorem tags_putByte : (putByte s mk k b).tags = (s.rekeyGranule mk k).tags := rfl

/-- Bytes of other granules read as before under every key. -/
theorem readByte_putByte_other_granule (h : a / 128 ≠ k / 128) (key : Nat) :
    (putByte s mk k b).readByte key a = s.readByte key a := by
  refine onlyMemory_putByte.readByte_eq ?_ ?_ key
  · rw [byte_putByte, if_neg (fun ha => h (by rw [ha])), byte_rekeyGranule, if_neg fun hc => h hc.2.1]
  · rw [tags_putByte, tags_rekeyGranule, if_neg fun hc => h hc.2]

/-- Every other byte reads as before under the key that writes. -/
theorem readByte_putByte_other (h : a ≠ k) (hi : s.installed mk a = true) :
    (putByte s mk k b).readByte mk a = s.readByte mk a := by
  by_cases hg : a / 128 = k / 128
  case neg => exact readByte_putByte_other_granule hg mk
  by_cases hh : isHbm k = true
  case neg =>
    refine onlyMemory_putByte.readByte_eq ?_ ?_ mk
    · rw [byte_putByte, if_neg h, byte_rekeyGranule, if_neg fun hc => hh hc.1]
    · rw [tags_putByte, tags_rekeyGranule, if_neg fun hc => hh hc.1]
  have ha : isHbm a = true := (isHbm_of_granule hg).trans hh
  have hown : (putByte s mk k b).readByte mk a = (putByte s mk k b).byte a := by
    refine readByte_of_own_tag ha (.inr ?_) ((onlyMemory_putByte.installed ..).trans hi)
    rw [tags_putByte, tags_rekeyGranule, if_pos ⟨hh, hg⟩]
  rw [hown, byte_putByte, if_neg h, byte_rekeyGranule]
  by_cases ht : tabGet 0 s.tags (k / 128) = 0 ∨ tabGet 0 s.tags (k / 128) = mk + 1
  · rw [if_neg fun hc => hc.2.2 ht, readByte_of_own_tag ha (by rw [hg]; exact ht) hi]
  · rw [if_pos ⟨hh, hg, ht⟩]

/-- The byte itself reads as written. -/
theorem readByte_putByte_self (hh : isHbm k = true) (hi : s.installed mk k = true) :
    (putByte s mk k b).readByte mk k = b := by
  rw [readByte_of_own_tag hh (.inr ?_) ((onlyMemory_putByte.installed ..).trans hi), byte_putByte, if_pos rfl]
  rw [tags_putByte, tags_rekeyGranule, if_pos ⟨hh, rfl⟩]

end PutByte

/-! ## Bytes written by an agent -/

theorem agentWrite_cons_refused {s : State} {mk k : Nat} (b : BitVec 8) (bs : List (BitVec 8))
    (h : s.refused mk k true = true) : s.agentWrite mk k (b :: bs) = s.agentWrite mk (k + 1) bs := by
  rw [State.agentWrite, if_pos h]

theorem agentWrite_cons {s : State} {mk k : Nat} (b : BitVec 8) (bs : List (BitVec 8))
    (h : s.refused mk k true = false) :
    s.agentWrite mk k (b :: bs) = (putByte s mk k b).agentWrite mk (k + 1) bs := by
  rw [State.agentWrite, if_neg (by simp [h]), putByte]

theorem onlyMemory_agentWrite (s : State) (mk k : Nat) (bs : List (BitVec 8)) :
    OnlyMemory s (s.agentWrite mk k bs) := agentWrite_eq ..

/-- A granule that holds none of the bytes reads the same under every key. -/
theorem readByte_agentWrite_other_granule {mk a : Nat} (bs : List (BitVec 8)) (s : State) (k : Nat)
    (h : ∀ i, i < bs.length → a / 128 ≠ (k + i) / 128) (key : Nat) :
    (s.agentWrite mk k bs).readByte key a = s.readByte key a := by
  induction bs generalizing s k with
  | nil => rfl
  | cons b bs ih =>
    have htail : ∀ i, i < bs.length → a / 128 ≠ (k + 1 + i) / 128 := fun i hi => by
      rw [Nat.add_assoc, Nat.add_comm 1 i]
      exact h (i + 1) (Nat.succ_lt_succ hi)
    cases href : s.refused mk k true
    · rw [agentWrite_cons b bs href, ih _ _ htail]
      exact readByte_putByte_other_granule (h 0 (Nat.succ_pos _)) key
    · rw [agentWrite_cons_refused b bs href, ih _ _ htail]

/-- No byte outside those written reads otherwise under the key that writes. -/
theorem readByte_agentWrite_outside {mk a : Nat} (bs : List (BitVec 8)) (s : State) (k : Nat)
    (hi : s.installed mk a = true) (h : a < k ∨ k + bs.length ≤ a) :
    (s.agentWrite mk k bs).readByte mk a = s.readByte mk a := by
  induction bs generalizing s k with
  | nil => rfl
  | cons b bs ih =>
    rw [List.length_cons] at h
    have htail : a < k + 1 ∨ k + 1 + bs.length ≤ a := by omega
    cases href : s.refused mk k true
    · rw [agentWrite_cons b bs href, ih _ _ ((onlyMemory_putByte.installed ..).trans hi) htail]
      exact readByte_putByte_other (by omega) hi
    · rw [agentWrite_cons_refused b bs href, ih _ _ hi htail]

/-- The bytes themselves read as written. -/
theorem readByte_agentWrite_at {mk : Nat} (bs : List (BitVec 8)) (s : State) (k : Nat)
    (hh : Hbm k bs.length) (hw : Writable s mk k bs.length) {i : Nat} (hlt : i < bs.length) :
    (s.agentWrite mk k bs).readByte mk (k + i) = bs.getD i 0 := by
  induction bs generalizing s k i with
  | nil => simp at hlt
  | cons b bs ih =>
    rw [List.length_cons] at hh hw hlt
    obtain ⟨href, hinst⟩ := hw k (by omega) (by omega)
    have hput : OnlyMemory s (putByte s mk k b) := onlyMemory_putByte
    have hwtail : Writable (putByte s mk k b) mk (k + 1) bs.length :=
      hput.writable.mpr fun a h1 h2 => hw a (by omega) (by omega)
    have hhtail : Hbm (k + 1) bs.length := fun a h1 h2 => hh a (by omega) (by omega)
    rw [agentWrite_cons b bs href]
    cases i with
    | zero =>
      change ((putByte s mk k b).agentWrite mk (k + 1) bs).readByte mk k = b
      rw [readByte_agentWrite_outside bs _ _ ((hput.installed ..).trans hinst) (.inl (Nat.lt_succ_self k)),
        readByte_putByte_self (hh k (by omega) (by omega)) hinst]
    | succ i =>
      rw [show k + (i + 1) = k + 1 + i by omega, ih _ _ hhtail hwtail (by omega)]
      rfl

theorem stored_agentWrite {s : State} {mk k : Nat} {bs : List (BitVec 8)} (hh : Hbm k bs.length)
    (hw : Writable s mk k bs.length) : Stored s (s.agentWrite mk k bs) mk k bs := by
  refine ⟨fun a hi => ?_, fun key a h => readByte_agentWrite_other_granule bs s k h key⟩
  split_ifs with hin
  · obtain ⟨i, rfl⟩ := Nat.exists_eq_add_of_le hin.1
    rw [readByte_agentWrite_at bs s k hh hw (by omega), Nat.add_sub_cancel_left]
  · exact readByte_agentWrite_outside bs s k hi (by omega)

theorem readBytes_agentWrite {s : State} {mk k : Nat} {bs : List (BitVec 8)} (hh : Hbm k bs.length)
    (hw : Writable s mk k bs.length) : (s.agentWrite mk k bs).readBytes mk k bs.length = bs := by
  rw [readBytes_eq_map]
  refine List.ext_getElem (by simp) fun i h1 h2 => ?_
  rw [List.getElem_map, List.getElem_range, readByte_agentWrite_at bs s k hh hw h2]
  simp [h2]

theorem onlyMemory_agentNat (s : State) (mk k n v : Nat) : OnlyMemory s (s.agentNat mk k n v) :=
  agentWrite_eq ..

theorem stored_agentNat {s : State} {mk k n : Nat} (v : Nat) (hh : Hbm k n) (hw : Writable s mk k n) :
    Stored s (s.agentNat mk k n v) mk k (leBytes n v) :=
  stored_agentWrite (by rwa [length_leBytes]) (by rwa [length_leBytes])

end Sys2Proof.Proofs

/-! Continuation records as they stand in the pool (R33, R37). -/

namespace Sys2Proof.Proofs

open Sys2Proof.Machine Sys2Proof.Laws

/-! ## The header -/

/-- The bytes of a record's header (R33). -/
def headerBytes (m : Team) (r : Rec) (link : BitVec 64) : List (BitVec 8) :=
  ((r.words m.index m.slot link).map (leBytes 8)).flatten

@[simp] theorem length_headerBytes (m : Team) (r : Rec) (link : BitVec 64) :
    (headerBytes m r link).length = 64 := by
  simp [headerBytes, Rec.words]

theorem within_refl (s : State) (mk : Nat) (places : List Nat) : Within s s mk places :=
  ⟨fun _ _ _ => rfl, fun _ _ _ => rfl⟩

/-- Bytes that fill a unit stay within it. -/
theorem within_agentWrite {p : Nat} {places : List Nat} (s : State) (mk : Nat) {bs : List (BitVec 8)}
    (hp : p ∈ places) (hlen : bs.length = 64) : Within s (s.agentWrite mk (gpaKey p) bs) mk places := by
  refine ⟨fun key a ha => readByte_agentWrite_other_granule bs s _ (fun i hi => ha p hp i (hlen ▸ hi)) key,
    fun a hi ha => readByte_agentWrite_outside bs s _ hi ?_⟩
  rw [hlen]
  exact ha p hp

theorem find?_of_named {m : Team} {r : Rec} (hr : r ∈ m.recs) (hn : Named m r) :
    (m.recs.find? fun q => q.id == r.id) = some r := by
  have hsome : (m.recs.find? fun q => q.id == r.id).isSome = true :=
    List.find?_isSome.mpr ⟨r, hr, by simp⟩
  obtain ⟨q, hq⟩ := Option.isSome_iff_exists.mp hsome
  rw [hq, hn q (List.mem_of_find?_eq_some hq) (by simpa using List.find?_some hq)]

/-- What the write of a header does: nothing for a record without units or behind ports that stop it. -/
theorem showRec_eq_of_find {s : State} {u : Nat} {m : Team} {r : Rec} (hm : tabFind s.teams u = some m)
    (hr : (m.recs.find? fun q => q.id == r.id) = some r) :
    s.showRec u r.id = match r.places.head? with
      | some p => if s.reaches m.core (gpaKey p) then s.agentWrite (s.keyOn (m.core.getD 512) m.ctx) (gpaKey p)
          (headerBytes m r (Config.chainHead s.ticks)) else s
      | none => s := by
  unfold State.showRec
  simp only [hm, hr]
  cases hp : r.places <;> rfl

theorem onlyMemory_showRec (s : State) (u id : Nat) : OnlyMemory s (s.showRec u id) := showRec_eq ..

/-- A record of a team shows in its first unit, and nowhere else. -/
theorem shown_showRec {s : State} {u : Nat} {m : Team} {r : Rec} (hm : tabFind s.teams u = some m)
    (hr : r ∈ m.recs) : Shown s (s.showRec u r.id) (s.keyOn (m.core.getD 512) m.ctx) m r := by
  refine ⟨showRec_eq .., fun hn => ?_⟩
  rw [showRec_eq_of_find hm (find?_of_named hr hn)]
  cases hp : r.places.head? with
  | none => exact ⟨within_refl .., fun p h => by simp [hp] at h⟩
  | some p =>
    have hmem : p ∈ r.places.take 1 := by
      cases hl : r.places with
      | nil => simp [hl] at hp
      | cons a l =>
        rw [hl, List.head?_cons] at hp
        simp [Option.some.inj hp]
    dsimp only
    split_ifs with hreach
    · refine ⟨within_agentWrite s _ hmem (length_headerBytes ..), fun q hq hh hw _ =>
        ⟨Config.chainHead s.ticks, ?_⟩⟩
      obtain rfl : p = q := Option.some.inj (hp.symm.trans hq)
      have hbytes := readBytes_agentWrite (s := s) (bs := headerBytes m r (Config.chainHead s.ticks))
        (by rwa [length_headerBytes]) (by rwa [length_headerBytes])
      rwa [length_headerBytes] at hbytes
    · refine ⟨within_refl .., fun q hq _ _ hr => absurd hr ?_⟩
      obtain rfl : p = q := Option.some.inj (hp.symm.trans hq)
      exact hreach

/-- A record's header says of its team its index, its slot and nothing else. -/
theorem shown_of_same_team {s b : State} {mk : Nat} {m m' : Team} {r : Rec} (hrecs : m'.recs = m.recs)
    (hindex : m'.index = m.index) (hslot : m'.slot = m.slot) (hcore : m'.core = m.core)
    (h : Shown s b mk m r) : Shown s b mk m' r := by
  simpa only [Shown, Named, Headed, hrecs, hindex, hslot, hcore] using h

theorem keyOn_setTeam (s : State) (u : Nat) (m : Team) (c x : Nat) : (s.setTeam u m).keyOn c x = s.keyOn c x := rfl

/-! ## A record added to its team -/

theorem onlyMemory_fillRec (s : State) (core : Option Nat) (mk : Nat) (places : List Nat) (vals : List W64) :
    OnlyMemory s (s.fillRec core mk places vals) := by
  unfold State.fillRec
  generalize vals.zipIdx = l
  induction l generalizing s with
  | nil => exact OnlyMemory.refl s
  | cons v l ih =>
    refine OnlyMemory.trans ?_ (ih _)
    dsimp only
    split
    · split_ifs
      · exact onlyMemory_agentNat ..
      · exact OnlyMemory.refl s
    · exact OnlyMemory.refl s

/-- The team's entry apart, a record added changes memory alone. -/
theorem addRec_eq (s : State) (u : Nat) (r : Rec) : s.addRec u r =
    { s with teams := (s.addRec u r).teams, mem := (s.addRec u r).mem, tags := (s.addRec u r).tags } := by
  unfold State.addRec
  split
  · rfl
  · rw [onlyMemory_showRec, onlyMemory_fillRec]
    rfl

theorem tabFind_addRec_other (s : State) {u v : Nat} (hv : v ≠ u) (r : Rec) :
    tabFind (s.addRec u r).teams v = tabFind s.teams v := by
  unfold State.addRec
  split
  · rfl
  · rw [onlyMemory_showRec, onlyMemory_fillRec]
    exact (tabFind_tabPut ..).trans (if_neg hv)

end Sys2Proof.Proofs

/-! Tasks that start, and the order in which a core asks its tasks (R29, R340). -/

namespace Sys2Proof.Proofs

open Sys2Proof.Machine Sys2Proof.Laws

/-! ## TASK_START -/

/-- The team on the core where its next task starts: in its slot there, or in the lowest that is free (R24). -/
def onCore (s : State) (u : Nat) (t : Team) (core : Nat) : Team := { t with
  core := some core
  tslot := if t.core = some core then t.tslot else freeSlot ((s.teamsOn core).filter fun x => x.1 != u) }

section Start
variable {s : State} {u n core : Nat} {t : Team} {rest : List Nat}

theorem onCore_eq_ite (s : State) (u : Nat) (t : Team) (core : Nat) :
    (if t.core = some core then t else { t with
      core := some core, tslot := freeSlot ((s.teamsOn core).filter fun x => x.1 != u) }) = onCore s u t core := by
  unfold onCore
  split_ifs with h
  · rw [← h]
  · rfl

theorem exec_taskStart (ht : tabFind s.teams u = some t) (hready : t.ready = n :: rest)
    (hcore : s.startCore u t = some core) (hmay : s.mayStart u t core = true) :
    exec (.taskStart u) s = if n = 0 then match s.launchOf t with
        | some l => .next (s.setTeam u ((onCore s u t core).startFirst l))
        | none => .next s
      else match t.recs.find? fun r => r.id == n with
        | some r => .next ((s.setTeam u ((onCore s u t core).startRec r)).showRec u r.id)
        | none => .next (s.setTeam u { onCore s u t core with ready := rest }) := by
  show execTaskStart u s = _
  unfold execTaskStart
  rw [ht]
  simp only [onCore_eq_ite]
  rw [hcore, hready]
  have hdrop : (onCore s u t core).ready.drop 1 = rest := congrArg (List.drop 1) hready
  simp only [hmay, Bool.not_true, Bool.false_eq_true, if_false, hdrop]
  rfl

/-- What every task of a start has: no register empty, no token, and the shape, loop state, hold and stack of R92. -/
def AtStart (k : Task) : Prop :=
  k.xEmpty = 0 ∧ k.vEmpty = 0 ∧ (∀ j, tabGet .unproduced k.tok j = .unproduced) ∧
    (∀ j row, k.vrow j row = 0) ∧ (∀ j, k.pred j = 0x3FFF) ∧ k.rows = 16 ∧ k.cols = 32 ∧ k.wc = 0 ∧
    k.left = 0 ∧ k.active = 0 ∧ k.last = 0 ∧ k.rs = 0 ∧ k.rrb = 0 ∧ k.semBase = 0 ∧ k.ret = [] ∧
    k.marks = [] ∧ k.acqs = [] ∧ k.hold = .free

theorem atStart_taskStart (pc : W64) (regs : Tab W64) (seq : BitVec 32) (origin : Option Nat) (handler : Bool) :
    AtStart (taskStart pc regs seq origin handler) :=
  ⟨rfl, rfl, fun _ => rfl, fun _ _ => rfl, fun _ => ite_self _, rfl, rfl, rfl, rfl, rfl, rfl, rfl, rfl, rfl,
    rfl, rfl, rfl, rfl⟩

theorem toNat_eq_iff {i : BitVec 6} {n : Nat} (hn : n < 64) : i.toNat = n ↔ i = BitVec.ofNat 6 n := by
  rw [← BitVec.toNat_inj, BitVec.toNat_ofNat, Nat.mod_eq_of_lt (by omega)]

/-- The registers of a first task: x1 its index and x2 the launch's word (R27). -/
theorem getX_firstTask (pc a b : W64) (seq : BitVec 32) (origin : Option Nat) (handler : Bool) (i : BitVec 6) :
    (taskStart pc (tabSet 0 (tabSet 0 [] 1 a) 2 b) seq origin handler).getX i =
      if i = 1 then a else if i = 2 then b else 0 := by
  have h1 : i.toNat = 1 ↔ i = 1#6 := toNat_eq_iff (by decide)
  have h2 : i.toNat = 2 ↔ i = 2#6 := toNat_eq_iff (by decide)
  simp only [Task.getX, taskStart, tabGet_tabSet, h1, h2]
  by_cases hi1 : i = 1#6
  · subst hi1; rfl
  · by_cases hi2 : i = 2#6
    · subst hi2; rfl
    · simp [hi1, hi2, tabGet]

/-- A record's status, where it brings one, in x1 (R32). -/
def withStatus (r : Rec) : Tab W64 :=
  if r.kind = 1 ∨ r.kind = 2 ∨ (r.kind = 3 ∧ r.status ≠ 0) then tabSet 0 r.regs 1 (w64 r.status) else r.regs

theorem getX_withStatus (r : Rec) (pc : W64) (seq : BitVec 32) (origin : Option Nat) (handler : Bool)
    (i : BitVec 6) : (taskStart pc (withStatus r) seq origin handler).getX i =
      if i = 0 then 0
      else if i = 1 ∧ (r.kind = 1 ∨ r.kind = 2 ∨ (r.kind = 3 ∧ r.status ≠ 0)) then w64 r.status
      else tabGet 0 r.regs i.toNat := by
  have h1 : i.toNat = 1 ↔ i = 1#6 := toNat_eq_iff (by decide)
  simp only [Task.getX, taskStart, withStatus]
  split_ifs <;> simp_all

end Start

/-! ## TASK_ISSUE_SELECT -/

theorem asksBefore_iff (y x : Team) : y.asksBefore x = true ↔ (y.ctx = 0 ∧ x.ctx ≠ 0) ∨
    ((y.ctx = 0 ↔ x.ctx = 0) ∧ (x.prio < y.prio ∨ (x.prio = y.prio ∧ y.lastIssue < x.lastIssue))) := by
  unfold Team.asksBefore
  by_cases hy : y.ctx = 0 <;> by_cases hx : x.ctx = 0 <;> simp [hy, hx]

/-- The first asked is one of those that ask, and none of them comes before it. -/
theorem firstAsked_first (l : List (Nat × Team)) : (firstAsked l = none → l = []) ∧
    ∀ x, firstAsked l = some x → x ∈ l ∧ ∀ y ∈ l, y.2.asksBefore x.2 = false := by
  induction l with
  | nil => simp [firstAsked]
  | cons z l ih =>
    obtain ⟨hnone, hsome⟩ := ih
    have hself : z.2.asksBefore z.2 = false := by
      rw [← Bool.not_eq_true, asksBefore_iff]
      omega
    cases hf : firstAsked l with
    | none =>
      simp [firstAsked, hnone hf, hself]
    | some y =>
      obtain ⟨hy, hall⟩ := hsome y hf
      simp only [firstAsked, hf]
      refine ⟨by split_ifs <;> simp, fun x hx => ?_⟩
      by_cases hb : y.2.asksBefore z.2 = true
      · rw [if_pos hb] at hx
        obtain rfl := Option.some.inj hx
        refine ⟨List.mem_cons_of_mem _ hy, List.forall_mem_cons.mpr ⟨?_, hall⟩⟩
        rw [← Bool.not_eq_true, asksBefore_iff]
        rw [asksBefore_iff] at hb
        omega
      · rw [if_neg hb] at hx
        obtain rfl := Option.some.inj hx
        refine ⟨List.mem_cons_self .., List.forall_mem_cons.mpr ⟨hself, fun w hw => ?_⟩⟩
        have hwy := hall w hw
        rw [← Bool.not_eq_true, asksBefore_iff] at hwy ⊢
        rw [asksBefore_iff] at hb
        omega

/-- A team's task to be asked again, where the team is on the core. -/
def askAgain (c : Nat) (m : Team) : Team :=
  if m.core = some c then { m with task := m.task.map fun k => { k with held := false } } else m

theorem newRound_eq (s : State) (c : Nat) :
    s.newRound c = { s with teams := s.teams.map fun x => (x.1, askAgain c x.2) } := by
  have hmap : s.teams.map (fun t => if t.2.core = some c then
      (t.1, { t.2 with task := t.2.task.map fun k => { k with held := false } }) else t) =
      s.teams.map fun x => (x.1, askAgain c x.2) := by
    refine List.map_congr_left fun x _ => ?_
    unfold askAgain
    split_ifs <;> rfl
  rw [State.newRound, hmap]

theorem tabFind_map {α β : Type} (f : α → β) (t : Tab α) (i : Nat) :
    tabFind (t.map fun e => (e.1, f e.2)) i = (tabFind t i).map f := by
  induction t with
  | nil => rfl
  | cons e t ih =>
    simp only [List.map_cons, tabFind, ih]
    split_ifs <;> rfl

/-- A team asks a core where its task may issue and nothing holds it (R340). -/
def Asks (s : State) (c : Nat) (m : Team) : Prop :=
  m.core = some c ∧ s.isDoomed m = false ∧
    (m.ctx = 0 ∨ (s.core c).activeCtx = some m.ctx ∧ (s.core c).halting = false) ∧
    ∃ k, m.task = some k ∧ k.hold = .free

theorem asks_askAgain (s : State) (c : Nat) (m : Team) :
    (s.newRound c).asks c (askAgain c m) = true ↔ Asks s c m := by
  by_cases hc : m.core = some c
  case neg => simp [State.asks, askAgain, Asks, hc]
  have hteam : askAgain c m = { m with task := m.task.map fun k => { k with held := false } } := if_pos hc
  have hmay : (s.newRound c).mayIssue c (askAgain c m) = s.mayIssue c m := by
    rw [hteam]
    rfl
  rw [State.asks, hmay, hteam]
  cases hk : m.task <;> simp [Asks, State.mayIssue, hc, hk, and_assoc, and_comm]

theorem lastIssue_askAgain (c : Nat) (m : Team) : (askAgain c m).lastIssue = m.lastIssue := by
  unfold askAgain
  split_ifs
  · cases hk : m.task <;> simp [Team.lastIssue, hk]
  · rfl

theorem ctx_askAgain (c : Nat) (m : Team) : (askAgain c m).ctx = m.ctx := by
  unfold askAgain
  split_ifs <;> rfl

theorem prio_askAgain (c : Nat) (m : Team) : (askAgain c m).prio = m.prio := by
  unfold askAgain
  split_ifs <;> rfl

theorem mem_asking {s : State} {c : Nat} {x : Nat × Team} :
    x ∈ (s.newRound c).teams.filter (fun t => (s.newRound c).asks c t.2) ↔
      ∃ m, (x.1, m) ∈ s.teams ∧ x.2 = askAgain c m ∧ Asks s c m := by
  rw [List.mem_filter, newRound_eq]
  constructor
  · rintro ⟨hx, hasks⟩
    obtain ⟨y, hy, rfl⟩ := List.mem_map.mp hx
    exact ⟨y.2, hy, rfl, (asks_askAgain s c y.2).mp (newRound_eq s c ▸ hasks)⟩
  · rintro ⟨m, hm, hx, hasks⟩
    refine ⟨List.mem_map.mpr ⟨(x.1, m), hm, by rw [← hx]⟩, ?_⟩
    rw [hx, ← newRound_eq]
    exact (asks_askAgain s c m).mpr hasks

section Select
variable {s : State} {c : Nat}

theorem nextAsked_none (h : (s.newRound c).nextAsked c = none) : ∀ x ∈ s.teams, ¬ Asks s c x.2 := by
  intro x hx hasks
  have hnil := (firstAsked_first _).1 (Option.map_eq_none_iff.mp h)
  have hmem : (x.1, askAgain c x.2) ∈ (s.newRound c).teams.filter fun t => (s.newRound c).asks c t.2 :=
    mem_asking.mpr ⟨x.2, hx, rfl, hasks⟩
  rw [hnil] at hmem
  exact absurd hmem List.not_mem_nil

/-- The task asked next: no task that asks comes before it (R340; log 29). -/
theorem nextAsked_some {u : Nat} (h : (s.newRound c).nextAsked c = some u) :
    ∃ m, (u, m) ∈ s.teams ∧ Asks s c m ∧ ∀ x ∈ s.teams, Asks s c x.2 →
      (m.ctx = 0 ∧ x.2.ctx ≠ 0) ∨ ((m.ctx = 0 ↔ x.2.ctx = 0) ∧
        (x.2.prio < m.prio ∨ (x.2.prio = m.prio ∧ m.lastIssue ≤ x.2.lastIssue))) := by
  obtain ⟨y, hy, rfl⟩ := Option.map_eq_some_iff.mp h
  obtain ⟨hmem, hfirst⟩ := (firstAsked_first _).2 y hy
  obtain ⟨m, hm, hym, hasks⟩ := mem_asking.mp hmem
  refine ⟨m, hm, hasks, fun x hx hxasks => ?_⟩
  have hx : (x.1, askAgain c x.2) ∈ (s.newRound c).teams.filter fun t => (s.newRound c).asks c t.2 :=
    mem_asking.mpr ⟨x.2, hx, rfl, hxasks⟩
  have hnot := hfirst _ hx
  rw [← Bool.not_eq_true, asksBefore_iff, hym] at hnot
  simp only [ctx_askAgain, prio_askAgain, lastIssue_askAgain] at hnot
  omega

theorem exec_taskIssueSelect_off (h : s.duty ≤ (s.die (dieOf c)).gnomon.toNat % 16) :
    exec (.taskIssueSelect c) s = .next s := if_pos h

theorem exec_taskIssueSelect_on (h : (s.die (dieOf c)).gnomon.toNat % 16 < s.duty) :
    exec (.taskIssueSelect c) s = .next { s.newRound c with focus := (s.newRound c).nextAsked c } :=
  if_neg (Nat.not_le.mpr h)

end Select

/-- Settles O37: a start writes the team's entry, and for a record its header too; of the tasks that ask, the one
that `firstAsked` finds has none before it. -/
theorem taskStarts : Obligations.taskStarts := by
  unfold Obligations.taskStarts
  refine ⟨fun s u n core t rest ht hready hcore hmay => ?_, fun s c =>
    ⟨exec_taskIssueSelect_off, fun hduty => ⟨_, exec_taskIssueSelect_on hduty, ?_, fun u => ?_, nextAsked_none,
      fun u => nextAsked_some⟩⟩⟩
  · have hexec := exec_taskStart ht hready hcore hmay
    have hrest : t.ready.drop 1 = rest := congrArg (List.drop 1) hready
    refine ⟨fun l hn hl => ?_, fun r hn hr => ?_⟩
    · rw [if_pos hn, hl] at hexec
      refine ⟨_, _, _, hexec, ⟨rfl, rfl, rfl, rfl, getX_firstTask _ _ _ _ _ _⟩, rfl, rfl, fun q => ?_,
        atStart_taskStart _ _ _ _ _⟩
      rw [setTeam_teams, tabFind_tabPut, ← hrest]
      rfl
    · rw [if_neg hn, hr] at hexec
      refine ⟨s.setTeam u ((onCore s u t core).startRec r), _,
        taskStart r.pc (withStatus r) (r.seq.getD t.started) (some r.id) (r.kind == 5), hexec,
        ⟨rfl, rfl, rfl, beq_iff_eq, getX_withStatus r _ _ _ _⟩, rfl, fun q hq hid => ?_, fun q => ?_,
        atStart_taskStart _ _ _ _ _⟩
      · have hteam : tabFind (s.setTeam u ((onCore s u t core).startRec r)).teams u =
            some ((onCore s u t core).startRec r) := (tabFind_tabPut ..).trans (if_pos rfl)
        have hshown := shown_showRec hteam hq
        rw [keyOn_setTeam, hid] at hshown
        exact shown_of_same_team rfl rfl rfl rfl hshown
      · rw [setTeam_teams, tabFind_tabPut, ← hrest]
        rfl
  · rw [newRound_eq]
  · rw [newRound_eq]
    exact tabFind_map (askAgain c) s.teams u

end Sys2Proof.Proofs

/-! SPAWN where the pool lies over its context's descriptor (R32, R33, R105). -/

namespace Sys2Proof.Proofs

open Sys2Proof.Machine Sys2Proof.Laws

/-! ## The key of a record's header

A record's values are written before its header, and each under MKEY of the context as it stands then. Where no
plane holds the context (C0x000 runs beside the active one), MKEY is read from the descriptor in memory. In the
state below the second unit of a new record is the descriptor itself: the value of x3 becomes MKEY, a dead key,
under which the header is then refused. -/

/-- A task of C0x000 with a mask of x1 to x3 in x4, a target in x5, and the number of a dead key in x3. -/
def spawningTask : Task := taskStart 0 [(3, 5), (4, 0xE), (5, 64)] 0 none false

def spawningTeam : Team := { teamStart 0 0 0 0 0 0 0 0 [] [] with task := some spawningTask, ready := [] }

/-- The task that issues. -/
def spawningEnv : Env := ⟨1, spawningTeam, spawningTask, 0⟩

/-- CPOOL 192 and 514 units in the descriptor at key 33,024, which is unit 513 of the pool; key 5 is dead. -/
def poolOverDescriptor : State := { State.reset with
  mem := [(33056, 192), (33064, 2), (33065, 2)], ctxbase := 33024, mkeys := [(5, 2, 0)]
  teams := [(1, spawningTeam)], focus := some 1 }

def spawnForm : FS := { xd := 0, xa := 4, xb := 5, fea := false, feb := false }

theorem canIssue_spawn : CanIssue poolOverDescriptor spawningEnv 0
    [.x spawnForm.xa spawnForm.fea, .x spawnForm.xb spawnForm.feb] [] :=
  ⟨rfl, rfl, rfl, rfl, rfl⟩

theorem poolRoom_overDescriptor : poolOverDescriptor.poolRoom 0 0xE = true := by decide +kernel

theorem poolPlaces_overDescriptor : poolOverDescriptor.poolPlaces 0 0 2 = [32960, 33024] := by decide +kernel

/-- Before the instruction the context's key is 0. -/
theorem keyOn_overDescriptor : poolOverDescriptor.keyOn 0 0 = 0 := by decide +kernel

/-- After it the first byte of the new record, the lowest of its PC, still reads 0. -/
theorem spawn_leaves_header_unwritten {t : State} (h : exec (.spawn spawnForm) poolOverDescriptor = .next t) :
    t.readByte 0 32960 = 0 := by
  have hread : (match exec (.spawn spawnForm) poolOverDescriptor with
      | .next t => t.readByte 0 32960
      | _ => 1) = 0 := by decide +kernel
  rw [h] at hread
  exact hread

/-- Key 0 writes the record's first unit, in any state that differs in its teams alone. -/
theorem writable_overDescriptor {b : State} {ts : Tab Team}
    (hb : b = { poolOverDescriptor with nextId := poolOverDescriptor.nextId + 1, teams := ts, focus := none }) :
    Writable b 0 32960 64 := by
  subst hb
  intro a _ _
  simp [State.refused, State.lockOf, State.installed, poolOverDescriptor, State.reset, tabGet, tabFind]

/-- The team's core writes to its own die. -/
theorem reaches_firstUnit (b : State) : b.reaches spawningTeam.core (gpaKey 32960) = true := rfl

theorem hbm_firstUnit : Hbm 32960 64 := by
  intro a h1 h2
  simp only [isHbm, Bool.and_eq_true, decide_eq_true_eq]
  omega

/-- Refutes O7: a SPAWN of C0x000 whose new record covers the context's descriptor leaves the record's header
unwritten, since the register values that it wrote before changed the key to a dead one. -/
theorem not_tasks : ¬ Obligations.tasks := by
  unfold Obligations.tasks
  rintro ⟨-, hspawn, -⟩
  obtain ⟨hmade, -⟩ := hspawn poolOverDescriptor spawningEnv 0xE rfl rfl (by decide) poolRoom_overDescriptor
  obtain ⟨b, t, k, r, hexec, ⟨hb, -⟩, ⟨-, hrec⟩, ⟨hplaces, -⟩, -, -, hpc, -, -, -, hunits, -⟩ :=
    hmade spawnForm canIssue_spawn rfl
  have hnamed : Named { spawningTeam with recs := spawningTeam.recs ++ [r] } r := by
    intro q hq _
    exact List.mem_singleton.mp hq
  obtain ⟨-, hheader, -⟩ := hrec hnamed
  have hfirst : r.places.head? = some 32960 := by
    rw [hplaces, show r.units = 2 from hunits]
    exact congrArg List.head? poolPlaces_overDescriptor
  have hkey : poolOverDescriptor.keyOn spawningEnv.core spawningEnv.team.ctx = 0 := keyOn_overDescriptor
  obtain ⟨link, hbytes⟩ := hheader 32960 hfirst hbm_firstUnit (hkey ▸ writable_overDescriptor hb)
    (reaches_firstUnit b)
  rw [hkey] at hbytes
  have hhead := congrArg List.head? hbytes
  rw [show gpaKey 32960 = 32960 from rfl, State.readBytes, spawn_leaves_header_unwritten hexec] at hhead
  have hpc64 : r.pc = 64 := hpc
  simp [Rec.words, hpc64, leBytes] at hhead

end Sys2Proof.Proofs

/-! Accumulator tiles: who holds one, and what a tile that is taken or given up reads (R26, R80, R319). -/

namespace Sys2Proof.Proofs

open Sys2Proof.Machine Sys2Proof.Laws

/-- A core with one row of its tiles written. -/
def writeRow (z : AccRow) (k : Core) (r : Nat) : Core := { k with acc := tabSet 0 k.acc r z }

theorem writeRow_eq (z : AccRow) (k : Core) (r : Nat) : writeRow z k r = { k with acc := (writeRow z k r).acc } := rfl

theorem acc_writeRow (z : AccRow) (k : Core) (r q : Nat) :
    tabGet 0 (writeRow z k r).acc q = if q = r then z else tabGet 0 k.acc q := tabGet_tabSet ..

theorem zeroRows_zero (k : Core) (tile first : Nat) : k.zeroRows tile first 0 = k := rfl

theorem zeroRows_succ (k : Core) (tile first n : Nat) :
    k.zeroRows tile first (n + 1) = (writeRow 0 k (tile * 128 + (first + n) % 128)).zeroRows tile first n := by
  delta Core.zeroRows
  dsimp only
  rfl

theorem zeroRows_eq (k : Core) (tile n : Nat) :
    k.zeroRows tile 0 n = { k with acc := (k.zeroRows tile 0 n).acc } := by
  induction n generalizing k with
  | zero => rw [zeroRows_zero]
  | succ n ih => rw [zeroRows_succ, ih, writeRow_eq]

/-- The first rows of a tile read zero, and every other row as before. -/
theorem acc_zeroRows (k : Core) (tile : Nat) {n : Nat} (hn : n ≤ 128) (r : Nat) :
    tabGet 0 (k.zeroRows tile 0 n).acc r =
      if 128 * tile ≤ r ∧ r < 128 * tile + n then 0 else tabGet 0 k.acc r := by
  induction n generalizing k with
  | zero => rw [zeroRows_zero, if_neg (by omega)]
  | succ n ih =>
    rw [zeroRows_succ, ih _ (by omega), acc_writeRow, Nat.zero_add, Nat.mod_eq_of_lt (by omega : n < 128)]
    by_cases hin : 128 * tile ≤ r ∧ r < 128 * tile + n
    · rw [if_pos hin, if_pos (by omega)]
    · rw [if_neg hin]
      exact if_congr (by omega) rfl rfl

/-- Every row of a tile written as zero. -/
theorem acc_zeroTile (k : Core) (tile r : Nat) : tabGet 0 (k.zeroRows tile 0 128).acc r =
    if r / 128 = tile then 0 else tabGet 0 k.acc r := by
  rw [acc_zeroRows k tile le_rfl]
  exact if_congr (by omega) rfl rfl

/-- A core on which a context has taken a tile that nobody held. -/
def takeTile (k : Core) (i ctx : Nat) : Core :=
  { k.zeroRows i 0 128 with accown := tabSet 0 k.accown i (ownWord ctx) }

theorem takeTile_eq (k : Core) (i ctx : Nat) : takeTile k i ctx =
    { k with acc := (k.zeroRows i 0 128).acc, accown := tabSet 0 k.accown i (ownWord ctx) } := by
  rw [takeTile, zeroRows_eq]

theorem owner_takeTile (k : Core) (i ctx j : Nat) :
    (takeTile k i ctx).owner j = if j = i then ownWord ctx else k.owner j := tabGet_tabSet ..

theorem acc_takeTile (k : Core) (i ctx r : Nat) : tabGet 0 (takeTile k i ctx).acc r =
    if 128 * i ≤ r ∧ r < 128 * i + 128 then 0 else tabGet 0 k.acc r := by
  rw [takeTile_eq, acc_zeroRows k i le_rfl]

/-- A team that has used its logical tile `n`. -/
def marked (n : Nat) (t : Team) : Team :=
  if t.tilesUsed.contains n then t else { t with tilesUsed := t.tilesUsed ++ [n] }

theorem marked_eq (n : Nat) (t : Team) : marked n t = { t with tilesUsed := (marked n t).tilesUsed } := by
  unfold marked
  split_ifs <;> rfl

theorem core_marked (n : Nat) (t : Team) : (marked n t).core = t.core := by rw [marked_eq]

theorem contains_marked (n : Nat) (t : Team) : (marked n t).tilesUsed.contains n = true := by
  unfold marked
  split_ifs with h
  · exact h
  · simp

/-! ## Use of a tile -/

section UseTile
variable {s : State} {e : Env} {n i : Nat}

theorem useTile_above (h : e.team.acct ≤ n) :
    s.useTile e n = .error ⟨cAccNotOwned, 0, false, false, false⟩ := by
  rw [State.useTile, if_neg (by omega)]

theorem useTile_of_tile (hn : n < e.team.acct) (hi : e.team.tiles[n]? = some i) : s.useTile e n =
    if ownedBy ((s.core e.core).owner i) e.team.ctx then .ok (i, s.modTeam e.uid (marked n))
    else if ((s.core e.core).owner i).getLsbD 15 then .error ⟨cAccNotOwned, w64 i, false, false, true⟩
    else .ok (i, (s.setCore e.core (takeTile (s.core e.core) i e.team.ctx)).modTeam e.uid (marked n)) := by
  rw [State.useTile, if_pos hn, hi]
  rfl

theorem ownedBy_iff (w : BitVec 16) (ctx : Nat) :
    ownedBy w ctx = true ↔ w.getLsbD 15 = true ∧ w.toNat % 4096 = ctx := by
  simp [ownedBy]

theorem useTile_lent (hn : n < e.team.acct) (hi : e.team.tiles[n]? = some i)
    (hv : ((s.core e.core).owner i).getLsbD 15 = true)
    (hother : ((s.core e.core).owner i).toNat % 4096 ≠ e.team.ctx) :
    s.useTile e n = .error ⟨cAccNotOwned, w64 i, false, false, true⟩ := by
  rw [useTile_of_tile hn hi, if_neg (fun h => hother ((ownedBy_iff ..).mp h).2), if_pos hv]

theorem useTile_own (hn : n < e.team.acct) (hi : e.team.tiles[n]? = some i)
    (hv : ((s.core e.core).owner i).getLsbD 15 = true)
    (hown : ((s.core e.core).owner i).toNat % 4096 = e.team.ctx) :
    s.useTile e n = .ok (i, s.modTeam e.uid (marked n)) := by
  rw [useTile_of_tile hn hi, if_pos ((ownedBy_iff ..).mpr ⟨hv, hown⟩)]

theorem useTile_free (hn : n < e.team.acct) (hi : e.team.tiles[n]? = some i)
    (hv : ((s.core e.core).owner i).getLsbD 15 = false) :
    s.useTile e n =
      .ok (i, (s.setCore e.core (takeTile (s.core e.core) i e.team.ctx)).modTeam e.uid (marked n)) := by
  have hno : ¬ ownedBy ((s.core e.core).owner i) e.team.ctx = true := fun h => by
    rw [ownedBy_iff, hv] at h
    exact absurd h.1 (by decide)
  rw [useTile_of_tile hn hi, if_neg hno, if_neg (by rw [hv]; decide)]

/-- A tile that may be used is marked, and taken where nobody held it; nothing else has changed. -/
theorem useTile_ok {p : Nat} {t : State} (h : s.useTile e n = .ok (p, t)) :
    t = s.modTeam e.uid (marked n) ∨
      t = (s.setCore e.core (takeTile (s.core e.core) p e.team.ctx)).modTeam e.uid (marked n) := by
  by_cases hn : n < e.team.acct
  case neg =>
    rw [useTile_above (by omega)] at h
    cases h
  cases hi : e.team.tiles[n]? with
  | none =>
    rw [State.useTile, if_pos hn, hi] at h
    cases h
  | some i =>
    rw [useTile_of_tile hn hi] at h
    split_ifs at h
    · cases h
      exact .inl rfl
    · cases h
      exact .inr rfl

/-- The team that issues, after it has used a tile. -/
theorem issuer_markTile {b : State} (h : b.issuer = some e) :
    (b.modTeam e.uid (marked n)).issuer = some { e with team := marked n e.team } := by
  obtain ⟨ht, hk, hc, hf⟩ := issuer_team h
  have hteam : tabFind (b.modTeam e.uid (marked n)).teams e.uid = some (marked n e.team) := by
    simp [tabFind_modTeam, ht]
  have hk' : (marked n e.team).task = some e.task := by rw [marked_eq]; exact hk
  have hc' : (marked n e.team).core = some e.core := by rw [marked_eq]; exact hc
  rw [State.issuer, modTeam_focus, hf]
  simp only [hteam, hk', hc']

end UseTile

end Sys2Proof.Proofs

/-! The checks of matrix operands (R228, R248). -/

namespace Sys2Proof.Proofs

open Sys2Proof.Machine Sys2Proof.Laws

/-! ## What holds a command, in states that differ in tiles alone -/

/-- Two states agree in what may hold a matrix command: queues, commands, ports, and where teams stand. -/
structure SameHolds (s t : State) : Prop where
  openCmds : t.openCmds = s.openCmds
  ports : t.ports = s.ports
  loads : ∀ c, (t.core c).loads = (s.core c).loads
  stores : ∀ c, (t.core c).stores = (s.core c).stores
  cmds : ∀ c, (t.core c).cmds = (s.core c).cmds
  sb : ∀ c, (t.core c).sb = (s.core c).sb
  teams : ∀ u, (tabFind t.teams u).map Team.core = (tabFind s.teams u).map Team.core

namespace SameHolds
variable {s t : State}

theorem depDone (h : SameHolds s t) (d : Dep) : t.depDone d = s.depDone d := by
  cases d with
  | cmd id => simp only [State.depDone, h.openCmds]
  | mem team seq =>
    have hteam := h.teams team
    simp only [State.depDone, State.releaseReady, State.loadsTaken, State.storesPerformed, State.noResent, h.loads,
      h.stores, h.ports]
    cases hs : tabFind s.teams team <;> cases ht : tabFind t.teams team <;> simp_all

theorem cmdHeld (h : SameHolds s t) (e : Env) :
    t.cmdHeld e .matrix true false [] = s.cmdHeld e .matrix true false [] := by
  have hdeps : t.depsDone = s.depsDone := by
    funext ds
    simp only [State.depsDone, funext h.depDone]
  simp only [State.cmdHeld, State.memClear, State.translated, State.cmdRoom, Core.inQueue, hdeps, h.loads, h.stores,
    h.cmds, h.sb]
  rfl

end SameHolds

theorem sameHolds_markTile {s b : State} {u n : Nat} (hopen : b.openCmds = s.openCmds) (hports : b.ports = s.ports)
    (hteams : b.teams = s.teams) (hcores : ∀ c, b.core c = { s.core c with
      acc := (b.core c).acc, accown := (b.core c).accown }) : SameHolds s (b.modTeam u (marked n)) where
  openCmds := by rw [modTeam_openCmds, hopen]
  ports := by rw [modTeam_ports, hports]
  loads c := by rw [core_modTeam, hcores]
  stores c := by rw [core_modTeam, hcores]
  cmds c := by rw [core_modTeam, hcores]
  sb c := by rw [core_modTeam, hcores]
  teams v := by
    rw [tabFind_modTeam, hteams]
    split_ifs with hv
    · subst hv
      cases tabFind s.teams v with
      | none => rfl
      | some m => simp [core_marked]
    · rfl

theorem sameHolds_useTile {s t : State} {e : Env} {n p : Nat} (h : s.useTile e n = .ok (p, t)) :
    SameHolds s t := by
  rcases useTile_ok h with rfl | rfl
  · exact sameHolds_markTile rfl rfl rfl fun _ => rfl
  · refine sameHolds_markTile rfl rfl rfl fun c => ?_
    rw [core_setCore]
    split_ifs with hc
    · rw [hc, takeTile_eq]
    · rfl

theorem cmdHeld_of_open {s : State} {e : Env} (h : CmdOpen s e .matrix true 0) :
    s.cmdHeld e .matrix true false [] = false := by
  obtain ⟨hmem, htrans, hroom, hsb⟩ := h
  simp [State.cmdHeld, hmem, htrans rfl, hroom]
  omega

/-! ## The order of the checks -/

section Checks
variable {s : State} {e : Env} {bytes : Nat} {i : Instr} {f : FE2} {x : W64 × W64 × W64} {regs : Task → Task}
  {make : Cmd → Cmd}

/-- An unproduced token comes before the tile and the operands (R81). -/
theorem matrixAct_token (hheld : s.cmdHeld e .matrix true false [] = false)
    (htok : e.task.consume (FE2.cts f) = none) (tile : Option Nat) (bad : Option (Nat × W64)) :
    matrixAct e bytes i f x tile bad regs make s = Act.raise cToken 0 := by
  cases tile <;> simp [matrixAct, cmdAct, hheld, htok, tokenFault]

/-- A bad operand of an instruction that names no tile. -/
theorem matrixAct_bad {deps : List Dep} {c : Nat} {a : W64} (hheld : s.cmdHeld e .matrix true false [] = false)
    (htok : e.task.consume (FE2.cts f) = some deps) :
    matrixAct e bytes i f x none (some (c, a)) regs make s = Act.raise c a := by
  simp [matrixAct, cmdAct, hheld, htok]

/-- A bad operand of an instruction whose tile may be used. -/
theorem matrixAct_tile_bad {deps : List Dep} {c n p : Nat} {a : W64} {t : State}
    (hheld : s.cmdHeld e .matrix true false [] = false) (htok : e.task.consume (FE2.cts f) = some deps)
    (htile : s.useTile e n = .ok (p, t)) :
    matrixAct e bytes i f x (some n) (some (c, a)) regs make s = Act.raise c a := by
  simp [matrixAct, cmdAct, hheld, htok, htile, (sameHolds_useTile htile).cmdHeld]

theorem rowsBad_of_past {xc reserved : W64} (h : 128 < xc.toNat % 128 + (xc.toNat / 256 % 128 + 1) ∨
    xc &&& reserved ≠ 0) : rowsBad xc reserved = true := by
  simpa [rowsBad] using h

end Checks

/-- An instruction whose body raises a fault. -/
theorem faults_of_body {i : Instr} {s : State} {e : Env} {st bytes : Nat} {srcs : List SrcOp} {dsts : List DstOp}
    {body : Env → State → Act} {code : Nat} {addr : W64} (hexec : exec i s = issue st bytes srcs dsts body s)
    (h : CanIssue s e st srcs dsts) (hb : body e s = Act.raise code addr) : Faults i s e code addr :=
  ⟨false, false, false, by rw [hexec, issue_ready h, hb]; rfl⟩

section Exec
variable (f : FE3) (s : State)

theorem exec_mrec : exec (.mrec f) s = issue f.e.st.toNat 12 [FE3.srcA f] [] (fun e s =>
    matrixAct e 12 (.mrec f) f.e (e.task.getX f.e.xa, 0, 0) none
      (if (e.task.getX f.e.xa).toNat % 64 ≠ 0 then some (cAlign, e.task.getX f.e.xa) else none)
      (fun t => t) (fun c => c) s) s := rfl

theorem exec_mldb : exec (.mldb f) s = issue f.e.st.toNat 12 [FE3.srcB f, FE3.srcC f] [] (fun e s =>
    matrixAct e 12 (.mldb f) f.e (0, e.task.getX f.xb, e.task.getX f.xc) none
      (shapeIf (decide ((e.task.getX f.xb).toNat % 32 ≠ 0))) (fun t => t) (fun c => c) s) s := rfl

/-- The issue of an instruction with three sources that uses the tile of its immediate. -/
def tileIssue (i : Instr) (bad : Env → State → Option (Nat × W64)) : Host.Outcome State Fault Refusal :=
  issue f.e.st.toNat 12 [FE3.srcA f, FE3.srcB f, FE3.srcC f] [] (fun e s =>
    matrixAct e 12 i f.e (FE3.vals f e.task) (some (f.imm.toNat % 8)) (bad e s) (fun t => t) (fun c => c) s) s

theorem exec_mma : exec (.mma f) s =
    tileIssue f s (.mma f) fun e _ => shapeIf (rowsBad (e.task.getX f.xc) mmaReserved) := rfl

theorem exec_mrank : exec (.mrank f) s =
    tileIssue f s (.mrank f) fun e _ => shapeIf (rowsBad (e.task.getX f.xc) mrankReserved) := rfl

theorem exec_mdrain : exec (.mdrain f) s = tileIssue f s (.mdrain f) fun e _ =>
    shapeIf (decide (128 < drainRow0 (e.task.getX f.xb) + drainRows f) ||
      decide (2 ^ 39 ≤ (e.task.getX f.xb).toNat)) := rfl

theorem exec_mmag : exec (.mmag f) s = tileIssue f s (.mmag f) fun e s =>
    if addrForm (e.task.getX f.e.xa).toNat != 1 || s.formBad e (e.task.getX f.e.xa) (16 + 16 * 4096)
    then some (cRange, e.task.getX f.e.xa) else none := rfl

variable {f s} {e : Env} {i : Instr} {bad : Env → State → Option (Nat × W64)}

/-- Of an instruction that uses a tile, a bad operand faults once the token and the tile are there. -/
theorem faults_of_tileIssue {deps : List Dep} {c p : Nat} {a : W64} {t : State}
    (hexec : exec i s = tileIssue f s i bad) (h : CanIssue s e f.e.st.toNat
      [.x f.e.xa f.e.fea, .x f.xb f.feb, .x f.xc f.fec] []) (hheld : s.cmdHeld e .matrix true false [] = false)
    (htok : e.task.consume (FE2.cts f.e) = some deps) (htile : s.useTile e (f.imm.toNat % 8) = .ok (p, t))
    (hbad : bad e s = some (c, a)) : Faults i s e c a :=
  faults_of_body hexec h (by rw [hbad]; exact matrixAct_tile_bad hheld htok htile)

theorem faults_token_of_tileIssue (hexec : exec i s = tileIssue f s i bad) (h : CanIssue s e f.e.st.toNat
      [.x f.e.xa f.e.fea, .x f.xb f.feb, .x f.xc f.fec] []) (hheld : s.cmdHeld e .matrix true false [] = false)
    (htok : e.task.consume (FE2.cts f.e) = none) : Faults i s e cToken 0 :=
  faults_of_body hexec h (matrixAct_token hheld htok _ _)

end Exec

/-! ## The tiles of a team -/

section Use
variable {s : State} {e : Env} {n i : Nat}

/-- A team uses a tile: it is the physical tile and the state in which the team has marked it. -/
def Uses (s : State) (e : Env) (n i : Nat) : Prop :=
  let own := (s.core e.core).owner i
  ∃ t m, s.useTile e n = .ok (i, t) ∧
    t = { s with teams := t.teams, cores := t.cores } ∧ t.issuer = some { e with team := m } ∧
    m = { e.team with tilesUsed := m.tilesUsed } ∧ m.tilesUsed.contains n = true ∧
    (∀ u, u ≠ e.uid → tabFind t.teams u = tabFind s.teams u) ∧
    (∀ c, c ≠ e.core → t.core c = s.core c) ∧
    (own.getLsbD 15 = true → t.cores = s.cores) ∧
    (own.getLsbD 15 = false → (t.core e.core).owner i = BitVec.ofNat 16 (2 ^ 15 + e.team.ctx % 4096) ∧
      (∀ j, j ≠ i → (t.core e.core).owner j = (s.core e.core).owner j) ∧
      ∀ r, tabGet 0 (t.core e.core).acc r =
        if 128 * i ≤ r ∧ r < 128 * i + 128 then 0 else tabGet 0 (s.core e.core).acc r)

theorem uses_own (he : s.issuer = some e) (hn : n < e.team.acct) (hi : e.team.tiles[n]? = some i)
    (hv : ((s.core e.core).owner i).getLsbD 15 = true)
    (hown : ((s.core e.core).owner i).toNat % 4096 = e.team.ctx) : Uses s e n i := by
  refine ⟨_, _, useTile_own hn hi hv hown, ?_, issuer_markTile he, marked_eq .., contains_marked ..,
    fun u hu => ?_, fun c _ => core_modTeam .., fun _ => modTeam_cores .., fun h => ?_⟩
  · rw [modTeam_eq]
  · rw [tabFind_modTeam, if_neg hu]
  · rw [hv] at h
    cases h

theorem issuer_setCore (c : Nat) (k : Core) : (s.setCore c k).issuer = s.issuer := rfl

theorem uses_free (he : s.issuer = some e) (hn : n < e.team.acct) (hi : e.team.tiles[n]? = some i)
    (hv : ((s.core e.core).owner i).getLsbD 15 = false) : Uses s e n i := by
  refine ⟨_, _, useTile_free hn hi hv, ?_, issuer_markTile ((issuer_setCore ..).trans he), marked_eq ..,
    contains_marked .., fun u hu => ?_, fun c hc => ?_, fun h => ?_, fun _ => ?_⟩
  · rw [modTeam_eq, State.setCore]
  · rw [tabFind_modTeam, if_neg hu, setCore_teams]
  · rw [core_modTeam, core_setCore, if_neg hc]
  · rw [hv] at h
    cases h
  · rw [core_modTeam, core_setCore, if_pos rfl]
    refine ⟨(owner_takeTile ..).trans (if_pos rfl), fun j hj => (owner_takeTile ..).trans (if_neg hj), fun r => ?_⟩
    exact acc_takeTile ..

end Use

/-- Settles O19: a tile is the team's own, free or lent; and the operands are checked behind the token, in a state
that the use of a tile has not made to hold the command. -/
theorem matrixChecks : Obligations.matrixChecks := by
  unfold Obligations.matrixChecks
  refine ⟨fun s e n he => ⟨useTile_above, fun i hn hi => ⟨useTile_lent hn hi, fun hmine => ?_⟩⟩, ?_⟩
  · cases hv : ((s.core e.core).owner i).getLsbD 15 with
    | true =>
      obtain ⟨t, m, h⟩ := uses_own he hn hi hv (hmine.resolve_left (by rw [hv]; decide))
      rw [hv] at h
      exact ⟨t, m, h⟩
    | false =>
      obtain ⟨t, m, h⟩ := uses_free he hn hi hv
      rw [hv] at h
      exact ⟨t, m, h⟩
  · intro s e f
    dsimp only
    intro hopen
    have hheld := cmdHeld_of_open hopen
    refine ⟨fun htok => ⟨fun h => ?_, fun h => ?_, fun h => ⟨?_, ?_⟩⟩, fun deps p t htok htile =>
      ⟨fun h ha => ?_, fun h hb => ?_, fun h => ⟨fun hp => ?_, fun hp => ?_, fun hf => ?_⟩⟩⟩
    · exact faults_of_body (exec_mrec f s) h (matrixAct_token hheld htok _ _)
    · exact faults_of_body (exec_mldb f s) h (matrixAct_token hheld htok _ _)
    · exact faults_token_of_tileIssue (exec_mma f s) h hheld htok
    · exact faults_token_of_tileIssue (exec_mdrain f s) h hheld htok
    · exact faults_of_body (exec_mrec f s) h (by rw [if_pos ha]; exact matrixAct_bad hheld htok)
    · exact faults_of_body (exec_mldb f s) h (by
        rw [shapeIf, if_pos (decide_eq_true hb)]; exact matrixAct_bad hheld htok)
    · exact faults_of_tileIssue (exec_mma f s) h hheld htok htile (if_pos (rowsBad_of_past hp))
    · exact faults_of_tileIssue (exec_mrank f s) h hheld htok htile (if_pos (rowsBad_of_past hp))
    · exact faults_of_tileIssue (exec_mmag f s) h hheld htok htile (if_pos (by simp [hf]))

end Sys2Proof.Proofs

/-! Launch records: into a ring, and out of it into a launch slot (R331, R333, R412). -/

namespace Sys2Proof.Proofs

open Sys2Proof.Machine Sys2Proof.Laws

/-! ## Fields of a record in memory -/

theorem recF_readBytes (s : State) (mk k off n len : Nat) (h : off + n ≤ len) :
    recF (s.readBytes mk k len) off n = s.readNat mk (k + off) n := by
  rw [recF, State.readNat]
  congr 1
  refine List.ext_getElem (by simp; omega) fun i h1 h2 => ?_
  simp [readBytes_eq_map, Nat.add_assoc]

theorem recF_lt (bs : List (BitVec 8)) (off n : Nat) : recF bs off n < 256 ^ n :=
  (leNat_lt _).trans_le (Nat.pow_le_pow_right (by decide) (List.length_take_le ..))

theorem toNat_recF_eight (bs : List (BitVec 8)) (off : Nat) :
    (BitVec.ofNat 64 (recF bs off 8)).toNat = recF bs off 8 := by
  rw [BitVec.toNat_ofNat, Nat.mod_eq_of_lt]
  exact recF_lt bs off 8

theorem toNat_recF_four (bs : List (BitVec 8)) (off : Nat) :
    (BitVec.ofNat 32 (recF bs off 4)).toNat = recF bs off 4 := by
  rw [BitVec.toNat_ofNat, Nat.mod_eq_of_lt]
  exact recF_lt bs off 4

/-! ## Writes to memory with other changes behind them -/

theorem stored_congr {s b t : State} {mk base : Nat} {bs : List (BitVec 8)} (h : Stored s b mk base bs)
    (ht : SameMemory b t) : Stored s t mk base bs :=
  ⟨fun a hi => (ht.readByte ..).trans (h.1 a hi), fun key a ha => (ht.readByte ..).trans (h.2 key a ha)⟩

theorem sameMemory_modCtx (s : State) (n : Nat) (f : Ctx → Ctx) : SameMemory s (s.modCtx n f) := by
  constructor <;> rfl

/-! ## The next queue and the next slot -/

theorem used_of_head_eq_tail {r : Ring} (h : r.head = r.tail) : r.used = 0 := by
  simp [Ring.used, h]

/-- No queue of higher priority than the one taken holds a record. -/
theorem used_above_headPrio {s : State} {ctx p q : Nat} (h : s.headPrio ctx = some p) (hpq : p < q) (hq : q < 4) :
    (s.launchRing ctx q).used = 0 := by
  refine used_of_head_eq_tail ?_
  obtain ⟨-, as, bs, hsplit, has⟩ := List.find?_eq_some_iff_append.mp h
  have hmem : q ∈ as := by
    have hq' : q ∈ as ++ p :: bs := hsplit ▸ (by simp; omega : q ∈ [3, 2, 1, 0])
    have hsorted : (as ++ p :: bs).Pairwise (· > ·) := hsplit ▸ (by decide)
    rcases List.mem_append.mp hq' with hq' | hq'
    · exact hq'
    · rcases List.mem_cons.mp hq' with rfl | hq'
      · omega
      · have := List.rel_of_pairwise_cons (List.pairwise_append.mp hsorted).2.1 hq'
        omega
  simpa using has q hmem

/-- Every slot below the free one that is taken holds a launch. -/
theorem taken_below_freeLaunch {s : State} {ctx slot i : Nat} (h : s.freeLaunch ctx = some slot) (hi : i < slot) :
    ∃ x ∈ (s.ctx ctx).launches, x.slot = i := by
  have hno := (List.find?_range_eq_some.mp h).2.2 i hi
  simpa using hno

/-! ## The answer of a launch window -/

/-- What a launch window says of its last record. -/
def windowAnswered (s : State) (w code : Nat) : State :=
  { s with winStatus := tabSet 0 s.winStatus w (winWord ((tabGet 0 s.winStatus w).toNat % 2 ^ 32) code) }

theorem sameMemory_winStatus (s : State) (ws : Tab W64) : SameMemory s { s with winStatus := ws } := by
  constructor <;> rfl

theorem sameMemory_windowAnswered (s : State) (w code : Nat) : SameMemory s (windowAnswered s w code) :=
  sameMemory_winStatus s _

theorem ctx_winStatus (s : State) (ws : Tab W64) (c : Nat) : ({ s with winStatus := ws } : State).ctx c = s.ctx c := rfl

theorem ctx_windowAnswered (s : State) (w code c : Nat) : (windowAnswered s w code).ctx c = s.ctx c :=
  ctx_winStatus s _ c

/-! ## A record rung in -/

section Accept
variable {s : State} {w : Who} {ctx : Nat} {bs : List (BitVec 8)}

theorem acceptLaunch_not_live (h : s.ctxState ctx ≠ 1) :
    s.acceptLaunch w ctx bs none = (cFabricAcl, s) := by
  rw [State.acceptLaunch, if_pos h]

theorem acceptLaunch_lost (h : s.ctxState ctx = 1) (hl : (s.die (s.homeDie ctx)).lost = true) :
    s.acceptLaunch w ctx bs none = (cPeerLost, s) := by
  rw [State.acceptLaunch, if_neg (not_not_intro h), if_pos hl]

theorem acceptLaunch_error {c : Nat} (h : s.ctxState ctx = 1) (hl : (s.die (s.homeDie ctx)).lost = false)
    (hr : s.recordReason w ctx bs = .error c) : s.acceptLaunch w ctx bs none = (c, s) := by
  simp [State.acceptLaunch, h, hl, hr]

theorem acceptLaunch_full {g : Tab (List Nat)} (h : s.ctxState ctx = 1)
    (hl : (s.die (s.homeDie ctx)).lost = false) (hr : s.recordReason w ctx bs = .ok g)
    (hfull : (s.launchRing ctx (recF bs 0x1E 1 % 4)).size ≤ (s.launchRing ctx (recF bs 0x1E 1 % 4)).used) :
    s.acceptLaunch w ctx bs none = (6, s) := by
  simp [State.acceptLaunch, h, hl, hr, hfull]

/-- A context whose record in a ring has group tables. -/
def grouped (key : Nat) (g : Tab (List Nat)) (c : Ctx) : Ctx := { c with gtabs := tabPut c.gtabs key g }

/-- A record put at the tail of a ring. -/
def ringPut (s : State) (r : Ring) (bs : List (BitVec 8)) : State :=
  (s.agentWrite 0 (r.slotKey r.tail) bs).agentNat 0 (r.key + 16) 4 ((r.tail + 1) % 2 ^ 32)

theorem onlyMemory_ringPut (s : State) (r : Ring) (bs : List (BitVec 8)) : OnlyMemory s (ringPut s r bs) :=
  (onlyMemory_agentWrite ..).trans (onlyMemory_agentNat ..)

theorem acceptLaunch_room {g : Tab (List Nat)} (h : s.ctxState ctx = 1)
    (hl : (s.die (s.homeDie ctx)).lost = false) (hr : s.recordReason w ctx bs = .ok g)
    (hroom : (s.launchRing ctx (recF bs 0x1E 1 % 4)).used < (s.launchRing ctx (recF bs 0x1E 1 % 4)).size) :
    s.acceptLaunch w ctx bs none =
      let r := s.launchRing ctx (recF bs 0x1E 1 % 4)
      (0, (ringPut s r bs).modCtx ctx 
        (grouped (recF bs 0x1E 1 % 4 * 2 ^ 32 + r.tail % max 1 r.size) g)) := by
  rw [State.acceptLaunch, if_neg (not_not_intro h), if_neg (by simp [hl]), if_neg (by simp)]
  simp only [hr, if_neg (not_le.mpr hroom)]
  rfl

end Accept

theorem exec_launchRecordArrival_host {s : State} {w ctx : Nat} {bs : List (BitVec 8)} (hup : s.linkUp = true) :
    exec (.launchRecordArrival (.host w) ctx bs) s =
      .next (windowAnswered (s.acceptLaunch (s.fabricWho ctx) ctx bs none).2 w
        (s.acceptLaunch (s.fabricWho ctx) ctx bs none).1) := by
  change execLaunchRecordArrival (.host w) ctx bs s = _
  simp only [execLaunchRecordArrival, hup]
  rfl

section RecordIn
variable (s : State) (r : Ring) (bs : List (BitVec 8)) (ctx key : Nat) (g : Tab (List Nat)) (w : Nat)

/-- A record put at the tail of its ring, with its group tables, and answered. -/
def recordIn : State := windowAnswered ((ringPut s r bs).modCtx ctx (grouped key g)) w 0

theorem recordIn_eq : recordIn s r bs ctx key g w =
    { s with mem := (recordIn s r bs ctx key g w).mem, tags := (recordIn s r bs ctx key g w).tags,
             ctxs := (recordIn s r bs ctx key g w).ctxs, winStatus := (recordIn s r bs ctx key g w).winStatus } := by
  simp only [recordIn, windowAnswered, modCtx_def, State.setCtx]
  rw [onlyMemory_ringPut s r bs]

theorem status_recordIn : tabGet 0 (recordIn s r bs ctx key g w).winStatus w =
    winWord ((tabGet 0 s.winStatus w).toNat % 2 ^ 32) 0 := by
  have h : ((ringPut s r bs).modCtx ctx (grouped key g)).winStatus = s.winStatus := by
    rw [modCtx_def, setCtx_winStatus, onlyMemory_ringPut s r bs]
  rw [recordIn, windowAnswered, h]
  exact (tabGet_tabSet ..).trans (if_pos rfl)

theorem groups_recordIn : tabGet [] ((recordIn s r bs ctx key g w).ctx ctx).gtabs key = g := by
  rw [recordIn, ctx_windowAnswered, modCtx_def, ctx_setCtx, if_pos rfl, grouped, tabGet_tabPut, if_pos rfl]

end RecordIn

/-- A record that leaves the state as it is: only the status word says what became of it. -/
theorem answered_of_acceptLaunch {s : State} {w ctx code : Nat} {bs : List (BitVec 8)} (hup : s.linkUp = true)
    (h : s.acceptLaunch (s.fabricWho ctx) ctx bs none = (code, s)) :
    ∃ t : State, exec (.launchRecordArrival (.host w) ctx bs) s = .next t ∧
      t = { s with winStatus := t.winStatus } ∧
      ∀ x, tabGet 0 t.winStatus x =
        if x = w then winWord ((tabGet 0 s.winStatus w).toNat % 2 ^ 32) code else tabGet 0 s.winStatus x :=
  ⟨_, by rw [exec_launchRecordArrival_host hup, h], rfl, fun x => tabGet_tabSet ..⟩

/-! ## A record taken out -/

/-- A context whose launches the record of a ring has joined. -/
def launched (l : Launch) (key : Nat) (c : Ctx) : Ctx :=
  { c with launches := c.launches ++ [l], gtabs := tabDel c.gtabs key }

/-- The key of the group tables of the record at a ring's head. -/
def headKey (s : State) (ctx p : Nat) : Nat :=
  p * 2 ^ 32 + (s.launchRing ctx p).head % max 1 (s.launchRing ctx p).size

/-- The launch of the record at a ring's head. -/
def headLaunch (s : State) (ctx p slot : Nat) : Launch :=
  launchOfRecord (s.readBytes 0 ((s.launchRing ctx p).slotKey (s.launchRing ctx p).head) 256) slot s.nextId
    (tabGet [] (s.ctx ctx).gtabs (headKey s ctx p))

/-- The head record of a ring made a launch. -/
def ringTake (s : State) (ctx p slot : Nat) : State :=
  { s.agentNat 0 ((s.launchRing ctx p).key + 12) 4 (((s.launchRing ctx p).head + 1) % 2 ^ 32) with
    nextId := s.nextId + 1 }.modCtx ctx (launched (headLaunch s ctx p slot) (headKey s ctx p))

theorem exec_launchSlotTake {s : State} {ctx slot p : Nat} (hslot : s.freeLaunch ctx = some slot)
    (hp : s.headPrio ctx = some p) (hlive : s.ctxState ctx = 1) (hhome : s.homeResident ctx = true) :
    exec (.launchSlotTake ctx) s = .next (ringTake s ctx p slot) := by
  change execLaunchSlotTake ctx s = _
  have hid (k v : Nat) : (s.agentNat 0 k 4 v).nextId = s.nextId := by rw [onlyMemory_agentNat s 0 k 4 v]
  simp only [execLaunchSlotTake, hslot, hp, hlive, hhome, hid]
  exact if_neg (by decide)

theorem sameMemory_ringTake (s : State) (ctx p slot : Nat) :
    SameMemory (s.agentNat 0 ((s.launchRing ctx p).key + 12) 4 (((s.launchRing ctx p).head + 1) % 2 ^ 32))
      (ringTake s ctx p slot) := by
  constructor <;> rfl

theorem stored_ringTake {s : State} {ctx p slot : Nat} (hh : Hbm ((s.launchRing ctx p).key + 12) 4)
    (hw : Writable s 0 ((s.launchRing ctx p).key + 12) 4) :
    Stored s (ringTake s ctx p slot) 0 ((s.launchRing ctx p).key + 12)
      (leBytes 4 (((s.launchRing ctx p).head + 1) % 2 ^ 32)) :=
  stored_congr (stored_agentNat _ hh hw) (sameMemory_ringTake s ctx p slot)

theorem ringTake_eq (s : State) (ctx p slot : Nat) : ringTake s ctx p slot =
    { s with mem := (ringTake s ctx p slot).mem, tags := (ringTake s ctx p slot).tags,
             ctxs := (ringTake s ctx p slot).ctxs, nextId := s.nextId + 1 } := by
  simp only [ringTake, modCtx_def, State.setCtx]
  rw [onlyMemory_agentNat s 0]

theorem ctx_ringTake (s : State) (ctx p slot c : Nat) : (ringTake s ctx p slot).ctx c =
    if c = ctx then launched (headLaunch s ctx p slot) (headKey s ctx p) (s.ctx ctx) else s.ctx c := by
  have hctx (k v d : Nat) : ({ s.agentNat 0 k 4 v with nextId := s.nextId + 1 } : State).ctx d = s.ctx d := by
    rw [onlyMemory_agentNat s 0 k 4 v]
    rfl
  simp only [ringTake, modCtx_def, ctx_setCtx, hctx]

/-- Settles O39: the head record's fields as memory holds them; a record rung in by the cases of its acceptance. -/
theorem launchQueues : Obligations.launchQueues := by
  unfold Obligations.launchQueues
  refine ⟨?_, ?_⟩
  · intro s ctx slot p hslot hp hlive hhome r f hh hw
    have hf (off n : Nat) (h : off + n ≤ 256) : recF (s.readBytes 0 (r.slotKey r.head) 256) off n = f off n :=
      recF_readBytes s 0 _ off n 256 h
    refine ⟨_, headLaunch s ctx p slot, exec_launchSlotTake hslot hp hlive hhome, stored_ringTake hh hw,
      fun q => used_above_headPrio hp, fun i => taken_below_freeLaunch hslot, ?_, rfl, ?_⟩
    · rw [ctx_ringTake, if_pos rfl]
      rfl
    dsimp only [headLaunch, launchOfRecord]
    rw [toNat_recF_eight, toNat_recF_eight, toNat_recF_eight, toNat_recF_eight, toNat_recF_four,
      hf 0x00 8 (by decide), hf 0x08 8 (by decide), hf 0x10 8 (by decide), hf 0x18 2 (by decide),
      hf 0x1C 1 (by decide), hf 0x1D 1 (by decide), hf 0x1E 1 (by decide), hf 0x1F 1 (by decide),
      hf 0x2A 2 (by decide), hf 0x2C 4 (by decide), hf 0x30 8 (by decide)]
    exact ⟨rfl, rfl, rfl, rfl, rfl, rfl, rfl, rfl, rfl, rfl, rfl, rfl, rfl, rfl, rfl,
      fun c hc => (ctx_ringTake ..).trans (if_neg hc), ringTake_eq ..⟩
  · intro s w ctx bs hlen prio r reason answered lost
    have hans (hup : s.linkUp = true) (code : Nat)
        (h : s.acceptLaunch (s.fabricWho ctx) ctx bs none = (code, s)) : answered code :=
      answered_of_acceptLaunch hup h
    refine ⟨fun hdown => ?_, fun hup => ⟨fun h => hans hup _ (acceptLaunch_not_live h),
      fun h hl => hans hup _ (acceptLaunch_lost h hl), fun h hl c hr => hans hup c (acceptLaunch_error h hl hr),
      fun h hl g hr hfull => hans hup _ (acceptLaunch_full h hl hr hfull),
      fun h hl g hr hroom hh1 hw1 hh2 hw2 => ?_⟩⟩
    · change execLaunchRecordArrival (.host w) ctx bs s = _
      simp [execLaunchRecordArrival, hdown]
    · rw [← hlen] at hh1 hw1
      have hb := onlyMemory_agentWrite s 0 (r.slotKey r.tail) bs
      exact ⟨s.agentWrite 0 (r.slotKey r.tail) bs,
        recordIn s r bs ctx (prio * 2 ^ 32 + r.tail % max 1 r.size) g w,
        by rw [exec_launchRecordArrival_host hup, acceptLaunch_room h hl hr hroom]; rfl, stored_agentWrite hh1 hw1,
        stored_congr (stored_congr (stored_agentNat _ hh2 (hb.writable.mpr hw2)) (sameMemory_modCtx ..))
          (sameMemory_windowAnswered ..), status_recordIn .., groups_recordIn .., recordIn_eq ..⟩

end Sys2Proof.Proofs

/-! A task that ends at a fault, and the record of its fault (R34, R38, R86, R322, R365). -/

namespace Sys2Proof.Proofs

open Sys2Proof.Machine Sys2Proof.Laws

namespace OnlyMemory
variable {s t : State}

theorem die (h : OnlyMemory s t) (d : Nat) : t.die d = s.die d := by
  rw [h]
  rfl

theorem core (h : OnlyMemory s t) (c : Nat) : t.core c = s.core c := by
  rw [h]
  rfl

theorem teams (h : OnlyMemory s t) : t.teams = s.teams := by
  rw [h]

end OnlyMemory

/-! ## The end of a task -/

/-- A team whose task `k` has ended: the records that only that task needs are gone. -/
def endedTeam (m : Team) (k : Task) : Team :=
  { m with
    task := none
    recs := m.recs.filter fun r => !(some r.id == k.origin || k.hold == Hold.ending r.id)
    ready := m.ready.filter fun r => r == 0 || !(some r == k.origin || k.hold == Hold.ending r) }

theorem endedTeam_eq_without {e : Env} (h : ∀ i, e.task.hold ≠ .ending i) :
    endedTeam e.team e.task = e.without [] [] := by
  have hend (i : Nat) : (e.task.hold == Hold.ending i) = false := beq_false_of_ne (h i)
  simp [endedTeam, Env.without, hend, bne]

section EndTask
variable (s : State) (u : Nat)

theorem endTask_eq : s.endTask u = { s with
    teams := (s.endTask u).teams, reqs := (s.endTask u).reqs, focus := (s.endTask u).focus
    images := (s.endTask u).images, cores := (s.endTask u).cores } := by
  unfold State.endTask
  repeat' split
  all_goals rfl

variable {s u} {m : Team}

theorem endTask_of_idle (hm : tabFind s.teams u = some m) (hk : m.task = none) : s.endTask u = s := by
  simp only [State.endTask, hm, hk]

theorem teams_endTask {k : Task} (hm : tabFind s.teams u = some m) (hk : m.task = some k) :
    (s.endTask u).teams = tabPut s.teams u (endedTeam m k) := by
  unfold State.endTask
  rw [hm]
  dsimp only
  rw [hk]
  dsimp only
  split <;> rfl

theorem tabFind_endTask {k : Task} (hm : tabFind s.teams u = some m) (hk : m.task = some k) (v : Nat) :
    tabFind (s.endTask u).teams v = if v = u then some (endedTeam m k) else tabFind s.teams v := by
  rw [teams_endTask hm hk, tabFind_tabPut]

/-- A core on which nothing is filled for a team any more (R86). -/
def unfilledCore (u : Nat) (q : Core) : Core :=
  { q with
    results := q.results.filter fun r => r.team != u
    loads := q.loads.map fun a => if a.team = u then { a with dst := .none } else a
    cmds := q.cmds.map fun d => if d.team = u then { d with regs := [] } else d }

theorem cores_endTask {k : Task} {c : Nat} (hm : tabFind s.teams u = some m) (hk : m.task = some k)
    (hc : m.core = some c) : (s.endTask u).cores = (s.modCore c (unfilledCore u)).cores := by
  unfold State.endTask
  rw [hm]
  dsimp only
  rw [hk]
  dsimp only
  rw [hc]
  rfl

theorem core_congr {s t : State} (h : t.cores = s.cores) (c : Nat) : t.core c = s.core c := by
  rw [State.core, h, State.core]

theorem core_endTask {k : Task} {c : Nat} (hm : tabFind s.teams u = some m) (hk : m.task = some k)
    (hc : m.core = some c) (d : Nat) :
    (s.endTask u).core d = if d = c then unfilledCore u (s.core c) else s.core d := by
  rw [core_congr (cores_endTask hm hk hc), modCore_def, core_setCore]

end EndTask

/-! ## A task that a fault ends -/

section Gone
variable {s : State} {e : Env}

/-- The state in which the task that issues has ended, its younger accesses discarded. -/
def aborted (s : State) (e : Env) : State := (s.dropYounger e.core e.uid s.nextId).endTask e.uid

theorem aborted_eq (s : State) (e : Env) : aborted s e = { s with
    teams := (aborted s e).teams, reqs := (aborted s e).reqs, focus := (aborted s e).focus
    images := (aborted s e).images, cores := (aborted s e).cores
    vreqs := (s.dropYounger e.core e.uid s.nextId).vreqs } :=
  endTask_eq (s.dropYounger e.core e.uid s.nextId) e.uid

theorem die_aborted (s : State) (e : Env) (d : Nat) : (aborted s e).die d = s.die d := by
  rw [aborted_eq]
  rfl

theorem tabFind_aborted (he : s.issuer = some e) (v : Nat) : tabFind (aborted s e).teams v =
    if v = e.uid then some (endedTeam e.team e.task) else tabFind s.teams v := by
  obtain ⟨hm, hk, -, -⟩ := issuer_team he
  exact tabFind_endTask (s := s.dropYounger e.core e.uid s.nextId) hm hk v

/-- The accesses of a core without those of a team that came at a bound or later (R365). -/
def withoutYounger (u n : Nat) (q : Core) : Core :=
  { q with
    loads := q.loads.filter fun a => a.team != u || a.cmd != 0 || a.id < n
    stores := q.stores.filter fun a => a.team != u || a.cmd != 0 || a.id < n }

theorem core_dropYounger (s : State) (c u n d : Nat) : (s.dropYounger c u n).core d =
    if d = c then withoutYounger u n (s.core c) else s.core d := core_setCore ..

theorem core_aborted (he : s.issuer = some e) (c : Nat) : (aborted s e).core c =
    if c = e.core then unfilledCore e.uid (withoutYounger e.uid s.nextId (s.core e.core)) else s.core c := by
  obtain ⟨hm, hk, hcore, -⟩ := issuer_team he
  rw [aborted, core_endTask (s := s.dropYounger e.core e.uid s.nextId) hm hk hcore, core_dropYounger,
    core_dropYounger, if_pos rfl]
  exact if_ctx_congr Iff.rfl (fun _ => rfl) fun hc => if_neg hc

/-- Every older store stays in its queue (R38). -/
theorem stores_aborted (he : s.issuer = some e) {a : Access} (ha : a ∈ (s.core e.core).stores)
    (hid : a.id < s.nextId) : a ∈ ((aborted s e).core e.core).stores := by
  rw [core_aborted he, if_pos rfl]
  exact List.mem_filter.mpr ⟨ha, by simp [hid]⟩

/-! ## How the fault of a task is settled -/

/-- A state in which no task is asked. -/
def unfocused (s : State) : State := { s with focus := none }

theorem die_unfocused (s : State) (d : Nat) : (unfocused s).die d = s.die d := rfl

theorem core_unfocused (s : State) (c : Nat) : (unfocused s).core c = s.core c := rfl

theorem teams_unfocused (s : State) : (unfocused s).teams = s.teams := rfl

theorem focus_unfocused (s : State) : (unfocused s).focus = none := rfl

theorem lastCheck_unfocused (s : State) : (unfocused s).lastCheck = s.lastCheck := rfl

theorem raise_of_taken {f : Raise} {t : State} (htr : s.translated e.core e.uid = true)
    (h : s.takeFault e.uid e.task.pc f s.nextId = some t) : s.raise e f = unfocused t := by
  rw [State.raise, if_pos htr, h]
  rfl

theorem raise_of_waits {f : Raise} (htr : s.translated e.core e.uid = true)
    (h : s.takeFault e.uid e.task.pc f s.nextId = none) : s.raise e f = s.holdTask e := by
  rw [State.raise, if_pos htr, h]

/-- The record of the task that a fault ends. -/
def originOf (e : Env) : Option Rec := e.task.origin.bind fun o => e.team.recs.find? fun r => r.id == o

theorem takeFault_system {f : Raise} (he : s.issuer = some e) (hctx : e.team.ctx = 0) :
    s.takeFault e.uid e.task.pc f s.nextId = some ((aborted s e).logFault e.uid e.core f.code f.addr) := by
  obtain ⟨hm, hk, hc, -⟩ := issuer_team he
  simp only [State.takeFault, hm, hk, hc, if_pos hctx, aborted]

theorem takeFault_pass {f : Raise} (he : s.issuer = some e) (hctx : e.team.ctx ≠ 0)
    (hf : requeues f.code f.lent = false) : s.takeFault e.uid e.task.pc f s.nextId =
      (aborted s e).passFault e.uid e.core f.code e.task.pc f.addr (originWord (originOf e)) e.task.handler
        ⟨0, f.flags, 0, 0⟩ := by
  obtain ⟨hm, hk, hc, -⟩ := issuer_team he
  simp only [State.takeFault, hm, hk, hc, if_neg hctx, hf, aborted, originOf]
  rfl

theorem takeFault_full {f : Raise} (he : s.issuer = some e) (hctx : e.team.ctx ≠ 0)
    (hf : requeues f.code f.lent = true) (hfull : (s.die e.die).fqFull = true) :
    s.takeFault e.uid e.task.pc f s.nextId = none := by
  obtain ⟨hm, hk, hc, -⟩ := issuer_team he
  rw [Env.die] at hfull
  simp only [State.takeFault, hm, hk, hc, if_neg hctx, hf, hfull, if_true]

/-- A team whose task is to start again: from its record, which waits for it, or as its first task. -/
def requeued (keep : Option Rec) (seq : BitVec 32) (t : Team) : Team :=
  match keep with
  | some r => { t with recs := t.recs ++ [r] }
  | none => { t with startAborted := true, startSeq := some seq }

/-- The state in which a requeue fault has ended its task, but for the fault's record. -/
def setAside (s : State) (e : Env) : State :=
  let keep := (originOf e).map fun r => { r with state := 3, seq := some e.task.seq }
  let t := (aborted s e).modTeam e.uid (requeued keep e.task.seq)
  match keep with
  | some r => t.showRec e.uid r.id
  | none => t

/-- What the record of a requeue fault says (R362). -/
def requeueInfo (s : State) (e : Env) (f : Raise) : FaultInfo :=
  { die := e.die, code := f.code, source := 0, flags := f.flags, unit := 0, ctx := e.team.ctx, core := e.core
    pc := e.task.pc, addr := f.addr
    tag := match s.launchOf e.team with
      | some l => l.tag
      | none => 0
    team := e.team.index + e.team.slot * 2 ^ 16, mpc := 0, origin := originWord (originOf e), uid := e.uid
    recId := e.task.origin.getD 0, cmd := 0 }

theorem takeFault_requeue {f : Raise} (he : s.issuer = some e) (hctx : e.team.ctx ≠ 0)
    (hf : requeues f.code f.lent = true) (hfull : (s.die e.die).fqFull = false) :
    s.takeFault e.uid e.task.pc f s.nextId = some ((setAside s e).queueFault (requeueInfo s e f)) := by
  obtain ⟨hm, hk, hc, -⟩ := issuer_team he
  rw [Env.die] at hfull
  simp only [State.takeFault, hm, hk, hc, if_neg hctx, hf, hfull, if_true]
  rfl

theorem onlyMemory_setAside (s : State) (e : Env) : OnlyMemory ((aborted s e).modTeam e.uid
    (requeued ((originOf e).map fun r => { r with state := 3, seq := some e.task.seq }) e.task.seq))
    (setAside s e) := by
  unfold setAside
  dsimp only
  split
  · exact onlyMemory_showRec ..
  · exact OnlyMemory.refl _

theorem die_setAside (s : State) (e : Env) (d : Nat) : (setAside s e).die d = s.die d := by
  rw [(onlyMemory_setAside s e).die, die_modTeam, die_aborted]

theorem core_setAside (s : State) (e : Env) (c : Nat) : (setAside s e).core c = (aborted s e).core c := by
  rw [(onlyMemory_setAside s e).core, core_modTeam]

theorem tabFind_setAside (he : s.issuer = some e) (v : Nat) : tabFind (setAside s e).teams v =
    if v = e.uid then some (requeued ((originOf e).map fun r => { r with state := 3, seq := some e.task.seq })
      e.task.seq (endedTeam e.team e.task)) else tabFind s.teams v := by
  rw [(onlyMemory_setAside s e).teams, tabFind_modTeam, tabFind_aborted he, tabFind_aborted he, if_pos rfl,
    Option.map_some]
  exact if_ctx_congr Iff.rfl (fun _ => rfl) fun hv => if_neg hv

end Gone

/-! ## The record of a fault -/

section Queue
variable (s : State) (i : FaultInfo)

/-- The record that a fault leaves in its die's queue. -/
def queuedRec (d : Die) (i : FaultInfo) : FaultRec :=
  { index := d.fqtail.toNat, code := i.code, source := i.source, team := i.uid, origin := i.recId
    cmd := i.cmd, core := i.core, flags := i.flags, unit := i.unit, mpc := i.mpc, parked := i.flags.testBit 2
    term := i.flags.testBit 3, released := false, pc := i.pc, addr := i.addr }

/-- A queue with the record of a fault. -/
def withRecord (r : FaultRec) (d : Die) : Die :=
  { d with fq := d.fq ++ [r], fqtail := BitVec.ofNat 12 ((d.fqtail.toNat + 1) % d.fqsize.toNat) }

theorem startSystem_eq (d : Nat) (pc : W64) (regs : Tab W64) : s.startSystem d pc regs =
    { s with teams := (s.startSystem d pc regs).teams, mem := (s.startSystem d pc regs).mem
             tags := (s.startSystem d pc regs).tags, nextId := s.nextId + 1 } := by
  simp only [State.startSystem, State.fresh]
  rw [addRec_eq]

theorem die_startSystem (d : Nat) (pc : W64) (regs : Tab W64) (q : Nat) :
    (s.startSystem d pc regs).die q = s.die q := by
  rw [startSystem_eq]
  rfl

theorem core_startSystem (d : Nat) (pc : W64) (regs : Tab W64) (c : Nat) :
    (s.startSystem d pc regs).core c = s.core c := by
  rw [startSystem_eq]
  rfl

theorem tabFind_startSystem_other {d u : Nat} (hu : u ≠ sysTeam d) (pc : W64) (regs : Tab W64) :
    tabFind (s.startSystem d pc regs).teams u = tabFind s.teams u := tabFind_addRec_other _ hu _

/-- Memory with the record of a fault at the tail of its die's queue. -/
def recordPut (s : State) (i : FaultInfo) : State :=
  s.agentWrite 0 (physKey i.die ((s.die i.die).tailAddr % 2 ^ 46))
    ((i.words (s.die i.die).epochNow).map (leBytes 8)).flatten

theorem queueFault_def : s.queueFault i =
    ((recordPut s i).modDie i.die (withRecord (queuedRec (s.die i.die) i))).startSystem i.die
      ((s.die i.die).hpc.zeroExtend 64)
      [(1, w64 (s.die i.die).tailAddr), (2, w64 i.code), (3, w64 (0x80000000 + i.core)), (4, i.addr),
        (5, w64 i.ctx)] := by
  delta State.queueFault recordPut withRecord queuedRec
  rfl

theorem onlyMemory_recordPut : OnlyMemory s (recordPut s i) := onlyMemory_agentWrite ..

theorem die_recordPut (q : Nat) : (recordPut s i).die q = s.die q :=
  (onlyMemory_recordPut s i).die q

theorem die_queueFault (q : Nat) : (s.queueFault i).die q =
    if q = i.die then withRecord (queuedRec (s.die i.die) i) (s.die i.die) else s.die q := by
  rw [queueFault_def, die_startSystem, modDie_def, die_setDie, die_recordPut, die_recordPut]

theorem core_queueFault (c : Nat) : (s.queueFault i).core c = s.core c := by
  rw [queueFault_def, core_startSystem, modDie_def, core_setDie, (onlyMemory_recordPut s i).core]

theorem tabFind_queueFault_other {u : Nat} (hu : u ≠ sysTeam i.die) :
    tabFind (s.queueFault i).teams u = tabFind s.teams u := by
  rw [queueFault_def, tabFind_startSystem_other _ hu, modDie_def, setDie_teams, (onlyMemory_recordPut s i).teams]

end Queue

end Sys2Proof.Proofs

/-! A launch that is terminated: every team of it is discarded (R20, R40). -/

namespace Sys2Proof.Proofs

open Sys2Proof.Machine Sys2Proof.Laws

/-- Dies are as they were, and every team is of its context and launch, and discarded if it was. -/
structure Discards (s t : State) : Prop where
  dies : t.dies = s.dies
  teams : ∀ u m, tabFind t.teams u = some m → ∃ m₀, tabFind s.teams u = some m₀ ∧ m.ctx = m₀.ctx ∧
    m.slot = m₀.slot ∧ (m₀.dead = true → m.dead = true)

namespace Discards
variable {s t v : State}

theorem of_eq (hd : t.dies = s.dies) (ht : t.teams = s.teams) : Discards s t :=
  ⟨hd, fun _ m hm => ⟨m, ht ▸ hm, rfl, rfl, id⟩⟩

theorem refl (s : State) : Discards s s := of_eq rfl rfl

theorem trans (h : Discards s t) (h' : Discards t v) : Discards s v := by
  refine ⟨h'.dies.trans h.dies, fun u m hm => ?_⟩
  obtain ⟨m₁, hm₁, hctx₁, hslot₁, hdead₁⟩ := h'.teams u m hm
  obtain ⟨m₀, hm₀, hctx, hslot, hdead⟩ := h.teams u m₁ hm₁
  exact ⟨m₀, hm₀, hctx₁.trans hctx, hslot₁.trans hslot, fun h => hdead₁ (hdead h)⟩

theorem same (h : Discards s t) (hd : v.dies = t.dies) (ht : v.teams = t.teams) : Discards s v :=
  h.trans (.of_eq hd ht)

end Discards

section Steps
variable (s : State)

theorem discards_modTeam (u : Nat) {f : Team → Team}
    (hf : ∀ m, (f m).ctx = m.ctx ∧ (f m).slot = m.slot ∧ (m.dead = true → (f m).dead = true)) :
    Discards s (s.modTeam u f) := by
  refine ⟨modTeam_dies .., fun v m hm => ?_⟩
  rw [tabFind_modTeam] at hm
  split_ifs at hm with hv
  · subst hv
    obtain ⟨m₀, hm₀, rfl⟩ := Option.map_eq_some_iff.mp hm
    exact ⟨m₀, hm₀, hf m₀⟩
  · exact ⟨m, hm, rfl, rfl, id⟩

theorem discards_endTask (u : Nat) : Discards s (s.endTask u) := by
  cases hm : tabFind s.teams u with
  | none => rw [State.endTask, hm]; exact .refl s
  | some m =>
    cases hk : m.task with
    | none => rw [endTask_of_idle hm hk]; exact .refl s
    | some k =>
      refine ⟨by rw [endTask_eq], fun v n hn => ?_⟩
      rw [tabFind_endTask hm hk] at hn
      split_ifs at hn with hv
      · cases hn
        exact ⟨m, hv ▸ hm, rfl, rfl, id⟩
      · exact ⟨n, hn, rfl, rfl, id⟩

theorem discards_dropSqlds (ids : List Nat) : Discards s (s.dropSqlds ids) := by
  refine ⟨rfl, fun u m hm => ?_⟩
  have hfind : tabFind (s.dropSqlds ids).teams u = (tabFind s.teams u).map fun t =>
      if t.sqPend.any fun q => ids.contains q.1 then
        { t with sqPend := t.sqPend.filter fun q => !ids.contains q.1 } else t := by
    rw [← tabFind_map]
    congr 1
    refine List.map_congr_left fun e _ => ?_
    split_ifs <;> rfl
  rw [hfind] at hm
  obtain ⟨m₀, hm₀, rfl⟩ := Option.map_eq_some_iff.mp hm
  refine ⟨m₀, hm₀, ?_⟩
  split_ifs <;> exact ⟨rfl, rfl, id⟩

theorem discards_modCore (c : Nat) (f : Core → Core) : Discards s (s.modCore c f) := .of_eq rfl rfl

theorem discards_dropCmds (c : Nat) (p : Cmd → Bool) : Discards s (s.dropCmds c p) :=
  (discards_modCore s c _).trans (discards_dropSqlds _ _)

theorem discards_dropUnperformed (c u : Nat) : Discards s (s.dropUnperformed c u) := .of_eq rfl rfl

theorem discards_setVerChain (key : Nat) (l : List Waiter) : Discards s (s.setVerChain key l) := by
  unfold State.setVerChain
  dsimp only
  split
  · exact .of_eq rfl rfl
  · rw [onlyMemory_agentNat]
    exact .of_eq rfl rfl

theorem discards_dropVerWaiters (gone : Waiter → Bool) : Discards s (s.dropVerWaiters gone) := by
  unfold State.dropVerWaiters
  generalize s.verChains = l
  induction l generalizing s with
  | nil => exact .refl s
  | cons x l ih =>
    refine .trans ?_ (ih _)
    dsimp only
    split_ifs
    · exact discards_setVerChain ..
    · exact .refl s

theorem discards_settleLaunch (ctx slot : Nat) : Discards s (s.settleLaunch ctx slot) := by
  unfold State.settleLaunch
  split
  · exact .refl s
  · split_ifs
    · exact .refl s
    · dsimp only
      split <;> exact .of_eq rfl rfl

/-- A team with nothing left, and discarded. -/
def discarded (m : Team) : Team := { m with recs := [], ready := [], startAborted := false, dead := true }

theorem discards_killTeam (u : Nat) : Discards s (s.killTeam u) := by
  unfold State.killTeam
  split
  · exact .refl s
  · rename_i m hm
    dsimp only
    refine .trans ?_ (discards_modTeam _ u (f := discarded) fun _ => ⟨rfl, rfl, fun _ => rfl⟩)
    refine .trans ?_ (discards_endTask _ u)
    refine .same (.trans ?_ (discards_dropVerWaiters _ _)) rfl rfl
    split
    · rename_i c _
      exact ((discards_dropUnperformed s c u).trans (discards_dropCmds _ c _)).same rfl rfl
    · exact .of_eq rfl rfl

theorem dead_killTeam {u : Nat} {m : Team} (hm : tabFind (s.killTeam u).teams u = some m) : m.dead = true := by
  unfold State.killTeam at hm
  split at hm
  · rename_i hnone
    rw [hnone] at hm
    cases hm
  · rw [tabFind_modTeam, if_pos rfl] at hm
    obtain ⟨m₀, -, rfl⟩ := Option.map_eq_some_iff.mp hm
    rfl

/-- Teams discarded one after another. -/
theorem discards_killTeams (l : List (Nat × Team)) :
    Discards s (l.foldl (fun b e => b.killTeam e.1) s) ∧
      ∀ e ∈ l, ∀ m, tabFind (l.foldl (fun b e => b.killTeam e.1) s).teams e.1 = some m → m.dead = true := by
  induction l generalizing s with
  | nil => exact ⟨.refl s, fun _ h => absurd h List.not_mem_nil⟩
  | cons x l ih =>
    obtain ⟨hrest, hdead⟩ := ih (s.killTeam x.1)
    refine ⟨(discards_killTeam s x.1).trans hrest, List.forall_mem_cons.mpr ⟨fun m hm => ?_, hdead⟩⟩
    obtain ⟨m₀, hm₀, -, -, h⟩ := hrest.teams _ m hm
    exact h (dead_killTeam s hm₀)

end Steps

theorem mem_of_tabFind {α : Type} {l : Tab α} {i : Nat} {v : α} (h : tabFind l i = some v) : (i, v) ∈ l := by
  induction l with
  | nil => cases h
  | cons x l ih =>
    rw [tabFind] at h
    split_ifs at h with hx
    · cases h
      subst hx
      exact List.mem_cons_self ..
    · exact List.mem_cons_of_mem _ (ih h)

/-- The dies are as before a launch was terminated. -/
theorem dies_killLaunch (s : State) (ctx slot : Nat) : (s.killLaunch ctx slot).dies = s.dies :=
  (discards_settleLaunch ..).dies.trans (discards_killTeams _ _).1.dies

/-- No team of a terminated launch is left that is not discarded. -/
theorem dead_of_killLaunch {s : State} {ctx slot u : Nat} {m : Team}
    (hm : tabFind (s.killLaunch ctx slot).teams u = some m) (hctx : m.ctx = ctx) (hslot : m.slot = slot) :
    m.dead = true := by
  obtain ⟨m₁, hm₁, hctx₁, hslot₁, hdead₁⟩ := (discards_settleLaunch ..).teams u m hm
  refine hdead₁ ?_
  obtain ⟨hall, hlist⟩ := discards_killTeams (s.modCtx ctx _)
    ((s.modCtx ctx _).teams.filter fun e => e.2.ctx == ctx && e.2.slot == slot && !e.2.dead)
  obtain ⟨m₀, hm₀, hctx₀, hslot₀, hdead₀⟩ := hall.teams u m₁ hm₁
  cases hd : m₀.dead with
  | true => exact hdead₀ hd
  | false =>
    refine hlist (u, m₀) (List.mem_filter.mpr ⟨mem_of_tabFind hm₀, ?_⟩) m₁ hm₁
    simp [hd, ← hctx₀, ← hctx₁, hctx, ← hslot₀, ← hslot₁, hslot]

end Sys2Proof.Proofs

/-! What becomes of a fault: requeued, the end of a launch, or a machine check (R38, R40, R313, R364). -/

namespace Sys2Proof.Proofs

open Sys2Proof.Machine Sys2Proof.Laws

/-! ## Machine checks -/

theorem lastCheck_logCheck (s : State) (code die core ctx addr : Nat) :
    (s.logCheck code die core ctx addr).lastCheck = some ⟨code, die, core, ctx, addr, (s.die die).gnomon.toNat⟩ := by
  by_cases h : s.mclog.length < 256
  · simp only [State.logCheck, if_pos h, State.lastCheck, List.length_append, List.length_singleton]
    split_ifs with h'
    · exact List.getLast?_concat ..
    · have hlen : s.mclog.length = 255 := by omega
      rw [hlen]
      exact (congrArg _ hlen.symm).trans List.getElem?_concat_length
  · simp only [State.logCheck, if_neg h, State.lastCheck, List.length_set]
    have hi : ((s.mcNext + 1) % 256 + 255) % 256 = s.mcNext % 256 := by omega
    rw [hi, List.getElem?_set_self (by omega)]

/-- A fault's address stands in its record where it is one (R423). -/
def checkAddr (s : State) (uid core code : Nat) (addr : W64) : Nat :=
  if 0x40 ≤ code ∧ code ≠ cPeerLost then 0 else s.physAddr ⟨core, uid, 0⟩ addr

theorem lastCheck_logFault (s : State) (uid core code : Nat) (addr : W64) :
    (s.logFault uid core code addr).lastCheck = some ⟨0xE4, dieOf core, core, 0, checkAddr s uid core code addr,
      (s.die (dieOf core)).gnomon.toNat⟩ := lastCheck_logCheck ..

theorem logCheck_eq (s : State) (code die core ctx addr : Nat) : s.logCheck code die core ctx addr =
    { s with mclog := (s.logCheck code die core ctx addr).mclog
             mcNext := (s.logCheck code die core ctx addr).mcNext, outbox := s.outbox ++ [.msix 2047] } := by
  unfold State.logCheck
  dsimp only
  split_ifs <;> rfl

/-! ## The record of a launch's end -/

theorem flags_lt (f : Raise) : f.flags < 4 := by
  unfold Raise.flags
  split_ifs <;> decide

theorem testBit_two_flags (f : Raise) : f.flags.testBit 2 = false := Nat.testBit_lt_two_pow (flags_lt f)

/-- TERM is flag 3, which the flags of a task's fault leave free. -/
theorem testBit_three_flags (f : Raise) : f.flags.testBit 3 = false :=
  Nat.testBit_lt_two_pow ((flags_lt f).trans (by decide))

theorem testBit_three_flags_add (f : Raise) : (f.flags + 8).testBit 3 = true := by
  have h := flags_lt f
  interval_cases f.flags <;> decide

section Fates
variable {s : State} {e : Env} {f : Raise}

theorem launchOf_aborted (s : State) (e : Env) (m : Team) : (aborted s e).launchOf m = s.launchOf m := by
  rw [aborted_eq]
  rfl

/-- What the record of a launch's end says (R364). -/
def termInfo (e : Env) (f : Raise) (l : Launch) : FaultInfo :=
  { die := e.die, code := f.code, source := 0, flags := f.flags + 8, unit := 0, ctx := e.team.ctx, core := e.core
    pc := e.task.pc, addr := f.addr, tag := l.tag, team := e.team.index + e.team.slot * 2 ^ 16, mpc := 0
    origin := originWord (originOf e), uid := e.uid, recId := 0, cmd := 0 }

/-- Of a launch without a handler, or at a fault of a handler task: the end of the launch, once its record has room. -/
theorem takeFault_term {l : Launch} (he : s.issuer = some e) (hctx : e.team.ctx ≠ 0)
    (hf : requeues f.code f.lent = false) (hl : s.launchOf e.team = some l) (hdead : e.team.dead = false)
    (hh : l.fhandler = 0 ∨ e.task.handler = true) : s.takeFault e.uid e.task.pc f s.nextId =
      if (s.die e.die).fqFull then none
      else some (((aborted s e).queueFault (termInfo e f l)).killLaunch e.team.ctx e.team.slot) := by
  have hl' : (aborted s e).launchOf (endedTeam e.team e.task) = some l := (launchOf_aborted ..).trans hl
  have hdie := die_aborted s e (dieOf e.core)
  rw [takeFault_pass he hctx hf]
  simp only [State.passFault, tabFind_aborted he, if_pos, hl', if_pos hh, hdie]
  rw [if_neg (show ¬ (endedTeam e.team e.task).ctx = 0 from hctx),
    if_neg (show ¬ (endedTeam e.team e.task).dead = true by simp [endedTeam, hdead])]
  rfl

theorem taken_requeue (he : s.issuer = some e) (hctx : e.team.ctx ≠ 0) (htr : s.translated e.core e.uid = true)
    (hf : requeues f.code f.lent = true) (hfull : (s.die e.die).fqFull = false) :
    s.raise e f = unfocused ((setAside s e).queueFault (requeueInfo s e f)) :=
  raise_of_taken htr (takeFault_requeue he hctx hf hfull)

/-- A requeue fault sets its task aside and leaves its record. -/
theorem requeue_fate (he : s.issuer = some e) (hctx : e.team.ctx ≠ 0) (hsys : e.uid ≠ sysTeam e.die)
    (hf : requeues f.code f.lent = true) (htr : s.translated e.core e.uid = true)
    (hhold : ∀ i, e.task.hold ≠ .ending i) (hfull : (s.die e.die).fqFull = false) :
    let t := s.raise e f
    (∀ o r, e.task.origin = some o → (e.team.recs.find? fun q => q.id == o) = some r →
      tabFind t.teams e.uid = some (e.without [{ r with state := 3, seq := some e.task.seq }] [])) ∧
    (e.task.origin = none → tabFind t.teams e.uid = some { e.without [] [] with
      startAborted := true, startSeq := some e.task.seq }) ∧
    (∃ (r : FaultRec), (t.die e.die).fq = (s.die e.die).fq ++ [r] ∧ r.code = f.code ∧ r.source = 0 ∧ r.team = e.uid ∧
      r.origin = e.task.origin.getD 0 ∧ r.parked = false ∧ r.term = false ∧ r.pc = e.task.pc ∧ r.addr = f.addr) ∧
    (∀ a ∈ (s.core e.core).stores, a.id < s.nextId → a ∈ (t.core e.core).stores) ∧
    (∀ u, u ≠ e.uid → u ≠ sysTeam e.die → tabFind t.teams u = tabFind s.teams u) ∧
    (∀ c, c ≠ e.core → t.core c = s.core c) ∧ t.focus = none := by
  intro t
  have ht : t = unfocused ((setAside s e).queueFault (requeueInfo s e f)) :=
    taken_requeue he hctx htr hf hfull
  have hteam (u : Nat) (hu : u ≠ sysTeam e.die) : tabFind t.teams u = tabFind (setAside s e).teams u := by
    rw [ht, teams_unfocused]
    exact tabFind_queueFault_other _ (requeueInfo s e f) hu
  have hcore (c : Nat) : t.core c = (aborted s e).core c := by
    rw [ht, core_unfocused, core_queueFault, core_setAside]
  have hdie : t.die e.die =
      withRecord (queuedRec (s.die e.die) (requeueInfo s e f)) (s.die e.die) := by
    rw [ht, die_unfocused, die_queueFault, die_setAside, die_setAside]
    exact if_pos rfl
  refine ⟨fun o r ho hr => ?_, fun ho => ?_, ⟨_, congrArg Die.fq hdie, rfl, rfl, rfl, rfl, ?_⟩, fun a ha hid => ?_,
    fun u hu hu' => ?_, fun c hc => ?_, by rw [ht, focus_unfocused]⟩
  · have horigin : originOf e = some r := by rw [originOf, ho, Option.bind_some, hr]
    rw [hteam _ hsys, tabFind_setAside he, if_pos rfl, horigin, endedTeam_eq_without hhold]
    simp [requeued, Env.without]
  · have horigin : originOf e = none := by rw [originOf, ho, Option.bind_none]
    rw [hteam _ hsys, tabFind_setAside he, if_pos rfl, horigin, endedTeam_eq_without hhold]
    rfl
  · exact ⟨testBit_two_flags f, testBit_three_flags f, rfl, rfl⟩
  · rw [hcore]
    exact stores_aborted he ha hid
  · rw [hteam u hu', tabFind_setAside he, if_neg hu]
  · rw [hcore, core_aborted he, if_neg hc]

/-- A fault that no handler takes ends its launch and leaves its record. -/
theorem term_fate {l : Launch} (he : s.issuer = some e) (htr : s.translated e.core e.uid = true)
    (hctx : e.team.ctx ≠ 0) (hf : requeues f.code f.lent = false) (hl : s.launchOf e.team = some l)
    (hdead : e.team.dead = false) (hh : l.fhandler = 0 ∨ e.task.handler = true)
    (hfull : (s.die e.die).fqFull = false) :
    let t := s.raise e f
    (∃ (r : FaultRec), (t.die e.die).fq = (s.die e.die).fq ++ [r] ∧ r.code = f.code ∧ r.term = true ∧
      r.pc = e.task.pc ∧ r.addr = f.addr) ∧
    (∀ u m, tabFind t.teams u = some m → m.ctx = e.team.ctx → m.slot = e.team.slot → m.dead = true) ∧
    ∀ q, q ≠ e.die → t.die q = s.die q := by
  intro t
  have ht : t = unfocused (((aborted s e).queueFault (termInfo e f l)).killLaunch e.team.ctx e.team.slot) :=
    raise_of_taken htr ((takeFault_term he hctx hf hl hdead hh).trans (if_neg (by simp [hfull])))
  have hdie (q : Nat) : t.die q = ((aborted s e).queueFault (termInfo e f l)).die q := by
    rw [ht, die_unfocused, State.die, dies_killLaunch, State.die]
  refine ⟨⟨queuedRec (s.die e.die) (termInfo e f l), ?_, rfl, testBit_three_flags_add f, rfl, rfl⟩,
    fun u m hm hc hs => ?_, fun q hq => ?_⟩
  · rw [hdie, die_queueFault, die_aborted]
    exact congrArg Die.fq (if_pos rfl)
  · rw [ht, teams_unfocused] at hm
    exact dead_of_killLaunch hm hc hs
  · rw [hdie, die_queueFault, die_aborted, die_aborted]
    exact if_neg hq

/-- A fault of the system context ends its task and is recorded. -/
theorem system_fate (he : s.issuer = some e) (htr : s.translated e.core e.uid = true) (hctx : e.team.ctx = 0) :
    let t := s.raise e f
    (∃ m : Team, tabFind t.teams e.uid = some m ∧ m.task = none) ∧
    (∀ u, u ≠ e.uid → tabFind t.teams u = tabFind s.teams u) ∧
    (∃ (r : McRec), t.lastCheck = some r ∧ r.code = 0xE4 ∧ r.die = e.die ∧ r.core = e.core ∧
      (0x40 ≤ f.code → f.code ≠ cPeerLost → r.addr = 0)) ∧
    t.outbox = s.outbox ++ [.msix 2047] := by
  intro t
  have ht : t = unfocused ((aborted s e).logFault e.uid e.core f.code f.addr) :=
    raise_of_taken htr (takeFault_system he hctx)
  have hteam (u : Nat) : tabFind t.teams u = tabFind (aborted s e).teams u := by
    rw [ht, teams_unfocused, State.logFault, logCheck_eq]
  have hlast := (congrArg State.lastCheck ht).trans
    ((lastCheck_unfocused _).trans (lastCheck_logFault (aborted s e) e.uid e.core f.code f.addr))
  have hout : t.outbox = (aborted s e).outbox ++ [.msix 2047] := by rw [ht, unfocused, State.logFault, logCheck_eq]
  refine ⟨⟨endedTeam e.team e.task, ?_, rfl⟩, fun u hu => ?_, ⟨_, hlast, rfl, rfl, rfl, fun h h' => if_pos ⟨h, h'⟩⟩, ?_⟩
  · rw [hteam, tabFind_aborted he, if_pos rfl]
  · rw [hteam, tabFind_aborted he, if_neg hu]
  · rw [hout, aborted_eq]

end Fates

/-- Settles O36: by what the taking of a fault does with the task that it ends. -/
theorem faultFates : Obligations.faultFates := by
  unfold Obligations.faultFates
  refine ⟨fun s e f he hctx hsys hf htr hhold => ⟨fun hfull => raise_of_waits htr (takeFault_full he hctx hf hfull),
    requeue_fate he hctx hsys hf htr hhold⟩, fun s e f he htr => ⟨fun l hctx _ hf hl hdead hh => ⟨fun hfull => ?_,
    fun hfull => ?_⟩, system_fate he htr⟩⟩
  · exact raise_of_waits htr ((takeFault_term he hctx hf hl hdead hh).trans (if_pos hfull))
  · obtain ⟨hrec, hteams, hdies⟩ := term_fate he htr hctx hf hl hdead hh hfull
    exact ⟨hrec, fun u m hm hc hs => .inl (hteams u m hm hc hs), hdies⟩

end Sys2Proof.Proofs

/-! The core that a launch's next team gets, and the team that stands there (R24 to R26, R80, R333 to R335). -/

namespace Sys2Proof.Proofs

open Sys2Proof.Machine Sys2Proof.Laws

/-! ## The first of the best -/

/-- The number `x` of a list has the highest key, and is the lowest with it. -/
def IsBest (key : Nat → Nat) (l : List Nat) (x : Nat) : Prop :=
  x ∈ l ∧ ∀ y ∈ l, key y < key x ∨ (key y = key x ∧ x ≤ y)

theorem isBest_unique {key : Nat → Nat} {l : List Nat} {x y : Nat} (hx : IsBest key l x) (hy : IsBest key l y) :
    x = y := by
  have h₁ := hx.2 y hy.1
  have h₂ := hy.2 x hx.1
  omega

theorem firstBest_eq_none {key : Nat → Nat} {l : List Nat} (h : firstBest key l = none) : l = [] := by
  cases l with
  | nil => rfl
  | cons a l =>
    rw [firstBest] at h
    split at h
    · cases h
    · split_ifs at h

theorem isBest_of_firstBest {key : Nat → Nat} {l : List Nat} {x : Nat} (hl : l.Pairwise (· < ·))
    (h : firstBest key l = some x) : IsBest key l x := by
  induction l generalizing x with
  | nil => cases h
  | cons a l ih =>
    obtain ⟨ha, hl⟩ := List.pairwise_cons.mp hl
    rw [firstBest] at h
    split at h
    next hnone =>
      obtain rfl := firstBest_eq_none hnone
      cases h
      simp [IsBest]
    next y hy =>
      obtain ⟨hmem, hbest⟩ := ih hl hy
      have hay := ha y hmem
      split_ifs at h with hlt
      · cases h
        exact ⟨List.mem_cons_of_mem _ hmem, List.forall_mem_cons.mpr ⟨.inl hlt, hbest⟩⟩
      · cases h
        refine ⟨List.mem_cons_self .., List.forall_mem_cons.mpr ⟨.inr ⟨rfl, le_rfl⟩, fun z hz => ?_⟩⟩
        have := hbest z hz
        have := ha z hz
        omega

theorem firstBest_eq_some_iff {key : Nat → Nat} {l : List Nat} {x : Nat} (hl : l.Pairwise (· < ·)) :
    firstBest key l = some x ↔ IsBest key l x := by
  refine ⟨isBest_of_firstBest hl, fun hx => ?_⟩
  cases h : firstBest key l with
  | none =>
    obtain rfl := firstBest_eq_none h
    exact absurd hx.1 List.not_mem_nil
  | some y => rw [isBest_unique (isBest_of_firstBest hl h) hx]

/-! ## The core that R334 names -/

theorem mem_dieCores {d c : Nat} : c ∈ dieCores d ↔ dieOf c = d := by
  simp only [dieCores, List.mem_map, List.mem_range, dieOf]
  exact ⟨fun ⟨i, hi, h⟩ => by omega, fun h => ⟨c % 128, by omega, by omega⟩⟩

theorem pairwise_dieCores (d : Nat) : (dieCores d).Pairwise (· < ·) :=
  List.pairwise_map.mpr (List.pairwise_lt_range.imp fun h => Nat.add_lt_add_left h _)

section Core
variable {s : State} {ctx d c core allot acct mask : Nat} {l : Launch}

/-- The core of a die on which a team fits with the most free scratchpad, the lowest of these. -/
theorem coreFor_eq_some_iff : s.coreFor d ctx allot acct = some core ↔
    dieOf core = d ∧ s.fits core ctx allot acct = true ∧ ∀ c, dieOf c = d → s.fits c ctx allot acct = true →
      s.padFree c < s.padFree core ∨ (s.padFree c = s.padFree core ∧ core ≤ c) := by
  rw [State.coreFor, firstBest_eq_some_iff ((pairwise_dieCores d).filter _)]
  simp only [IsBest, List.mem_filter, mem_dieCores, and_imp, and_assoc]

theorem coreFor_isSome_iff :
    (s.coreFor d ctx allot acct).isSome = true ↔ ∃ c, dieOf c = d ∧ s.fits c ctx allot acct = true := by
  refine ⟨fun h => ?_, fun ⟨c, hc, hfits⟩ => ?_⟩
  · obtain ⟨c, hc⟩ := Option.isSome_iff_exists.mp h
    obtain ⟨hd, hfits, -⟩ := coreFor_eq_some_iff.mp hc
    exact ⟨c, hd, hfits⟩
  · rw [Option.isSome_iff_ne_none]
    intro hnone
    have hmem : c ∈ (dieCores d).filter fun c => s.fits c ctx allot acct :=
      List.mem_filter.mpr ⟨mem_dieCores.mpr hc, hfits⟩
    rw [firstBest_eq_none hnone] at hmem
    exact absurd hmem List.not_mem_nil

theorem pairwise_openDies (s : State) (ctx mask : Nat) : (s.openDies ctx mask).Pairwise (· < ·) :=
  List.pairwise_lt_range.filter _

theorem mem_openDies : d ∈ s.openDies ctx mask ↔
    d < 4 ∧ permits mask d = true ∧ (s.diesOf ctx).testBit d = true ∧ s.residOn ctx d = .resident := by
  simp [State.openDies, and_assoc]

/-- The model's choice of a core is the one that R334 names. -/
theorem placeFor_eq_some_iff : s.placeFor ctx l = some core ↔ Best s ctx l core := by
  have hdies (d : Nat) : firstBest s.freeSlots
      ((s.openDies ctx l.diemask).filter fun d => (s.coreFor d ctx l.allot l.acct).isSome) = some d ↔
      (d ∈ s.openDies ctx l.diemask ∧ ∃ c, dieOf c = d ∧ s.fits c ctx l.allot l.acct = true) ∧
      ∀ c, s.fits c ctx l.allot l.acct = true → dieOf c ∈ s.openDies ctx l.diemask →
        s.freeSlots (dieOf c) < s.freeSlots d ∨ (s.freeSlots (dieOf c) = s.freeSlots d ∧ d ≤ dieOf c) := by
    rw [firstBest_eq_some_iff ((pairwise_openDies ..).filter _)]
    simp only [IsBest, List.mem_filter, coreFor_isSome_iff]
    refine and_congr_right fun _ => ⟨fun h c hc hopen => h _ ⟨hopen, c, rfl, hc⟩, fun h y hy => ?_⟩
    obtain ⟨hopen, c, rfl, hc⟩ := hy
    exact h c hc hopen
  simp only [State.placeFor, Option.bind_eq_some_iff, hdies, coreFor_eq_some_iff, Best, ← mem_openDies]
  constructor
  · rintro ⟨d, ⟨⟨hopen, -⟩, hmost⟩, rfl, hfits, hpad⟩
    exact ⟨hfits, hopen, hmost, fun c hc hd => hpad c hd hc⟩
  · rintro ⟨hfits, hopen, hmost, hpad⟩
    exact ⟨dieOf core, ⟨⟨hopen, core, rfl, hfits⟩, hmost⟩, rfl, hfits, fun c hd hc => hpad c hc hd⟩

/-! ## The team that is placed -/

/-- A team slot is free where fewer than eight teams stand. -/
theorem freeSlot_spec {l : List (Nat × Team)} (h : l.length < 8) : freeSlot l < 8 ∧
    (∀ x ∈ l, x.2.tslot ≠ freeSlot l) ∧ ∀ i, i < freeSlot l → ∃ x ∈ l, x.2.tslot = i := by
  have hfree : ∃ i, ((List.range 8).find? fun i => !l.any fun t => t.2.tslot == i) = some i := by
    rw [← Option.isSome_iff_exists, List.find?_isSome]
    by_contra hno
    push Not at hno
    have hsub : List.range 8 ⊆ l.map fun t => t.2.tslot := fun i hi => by
      simpa using hno i hi
    have hlen := (List.nodup_range.subperm hsub).length_le
    rw [List.length_range, List.length_map] at hlen
    omega
  obtain ⟨i, hi⟩ := hfree
  have hslot : freeSlot l = i := by rw [freeSlot, hi, Option.getD_some]
  obtain ⟨hunused, hlt, hbelow⟩ := List.find?_range_eq_some.mp hi
  rw [hslot]
  exact ⟨List.mem_range.mp hlt, by simpa using hunused, fun j hj => by simpa using hbelow j hj⟩

/-- The team that stands in the state in which a launch's next team is placed. -/
def placedTeam (s : State) (ctx : Nat) (l : Launch) (core : Nat) : Team :=
  teamStart ctx l.slot l.placed core (s.slotFor core) l.allot l.acct l.prio
    ((s.tilesFree core ctx).take l.acct) (l.groupsOf l.placed)

theorem tabFind_placeTeam (u : Nat) : tabFind (s.placeTeam ctx l core).teams u =
    if u = s.nextId then some (placedTeam s ctx l core) else tabFind s.teams u := tabFind_tabPut ..

theorem ctx_placeTeam : (s.placeTeam ctx l core).ctx c = if c = ctx then { s.ctx ctx with
    launches := (s.ctx ctx).launches.map fun x => if x.slot = l.slot then { x with placed := x.placed + 1 } else x }
    else s.ctx c := ctx_setCtx ..

theorem placeTeam_eq : s.placeTeam ctx l core = { s with
    teams := (s.placeTeam ctx l core).teams, ctxs := (s.placeTeam ctx l core).ctxs, nextId := s.nextId + 1 } := rfl

/-- On a core where it fits, the team of a launch gets what R24, R26 and R80 give it. -/
theorem places_placeTeam (hfits : s.fits core ctx l.allot l.acct = true) :
    Places s (s.placeTeam ctx l core) ctx l core := by
  obtain ⟨⟨⟨-, hslots⟩, -⟩, htiles⟩ : ((s.coreUsable core = true ∧ (s.teamsOn core).length < 8) ∧
      l.allot ≤ s.padFree core) ∧ l.acct ≤ (s.tilesFree core ctx).length := by
    simpa [State.fits] using hfits
  obtain ⟨hlt, hfree, hbelow⟩ := freeSlot_spec hslots
  refine ⟨placeTeam_eq, fun u hu => (tabFind_placeTeam u).trans (if_neg hu),
    ⟨placedTeam s ctx l core, (tabFind_placeTeam _).trans (if_pos rfl), rfl, rfl, rfl, rfl, rfl, rfl, rfl, hlt,
      hfree, hbelow, List.length_take_of_le htiles, fun i hi => List.mem_of_mem_take hi,
      (List.nodup_range.filter _).sublist (List.take_sublist ..), rfl, rfl, rfl, rfl, rfl⟩, fun c => ctx_placeTeam⟩

/-- Placed whole, every team of a launch stands on the core that R334 names for it. -/
theorem placesAll_of_placeWhole {t : State} {n : Nat} (h : s.placeWhole ctx l n = some t) :
    PlacesAll s t ctx l n := by
  induction n generalizing s l with
  | zero => exact (Option.some.inj h).symm
  | succ n ih =>
    rw [State.placeWhole] at h
    split at h
    · cases h
    · rename_i core hcore
      have hbest := placeFor_eq_some_iff.mp hcore
      exact ⟨core, _, hbest, places_placeTeam hbest.1, ih h⟩

/-! ## What a context places next -/

theorem placeNext_of_not_gather (hplaced : l.placed < l.teams) (hg : l.gather = false)
    (hbest : Best s ctx l core) : s.placeNext ctx l = some (core, s.placeTeam ctx l core) := by
  rw [State.placeNext, if_neg (by omega), placeFor_eq_some_iff.mpr hbest]
  simp [hg]

/-- What a launch's next placement gives: its next team on the core that R334 names, or the whole launch. -/
theorem of_placeNext {b : State} (h : s.placeNext ctx l = some (core, b)) : l.placed < l.teams ∧
    Best s ctx l core ∧ (l.gather = false → b = s.placeTeam ctx l core) ∧
    (l.gather = true → PlacesAll s b ctx l (l.teams - l.placed)) := by
  rw [State.placeNext] at h
  by_cases hplaced : l.teams ≤ l.placed
  · rw [if_pos hplaced] at h
    cases h
  rw [if_neg hplaced] at h
  cases hcore : s.placeFor ctx l with
  | none =>
    rw [hcore] at h
    cases h
  | some core' =>
    have hbest := placeFor_eq_some_iff.mp hcore
    rw [hcore] at h
    cases hg : l.gather with
    | false =>
      simp only [hg, Bool.false_eq_true, if_false, Option.some.injEq, Prod.mk.injEq] at h
      obtain ⟨rfl, rfl⟩ := h
      exact ⟨by omega, hbest, fun _ => rfl, nofun⟩
    | true =>
      simp only [hg, if_true, Option.map_eq_some_iff, Prod.mk.injEq] at h
      obtain ⟨t, ht, rfl, rfl⟩ := h
      exact ⟨by omega, hbest, nofun, fun _ => placesAll_of_placeWhole ht⟩

/-- The launch that a context's placement serves is held back by none, and could place. -/
theorem of_serveCtx {b : State} (h : s.serveCtx ctx = some (l, core, b)) : l ∈ (s.ctx ctx).launches ∧
    (∀ m ∈ (s.ctx ctx).launches, s.holdsBack ctx m l = false) ∧ s.placeNext ctx l = some (core, b) := by
  obtain ⟨x, hx, hserve⟩ := List.exists_of_findSome?_eq_some h
  split_ifs at hserve with hany
  obtain ⟨r, hr, hpair⟩ := Option.map_eq_some_iff.mp hserve
  cases hpair
  exact ⟨hx, by simpa using hany, hr⟩

/-- A context with nothing left to place serves no launch. -/
theorem serveCtx_eq_none (h : ∀ m ∈ (s.ctx ctx).launches, m.teams ≤ m.placed) : s.serveCtx ctx = none := by
  cases hserve : s.serveCtx ctx with
  | none => rfl
  | some r =>
    obtain ⟨l, core, b⟩ := r
    obtain ⟨hl, -, hnext⟩ := of_serveCtx hserve
    have := h l hl
    have := (of_placeNext hnext).1
    omega

end Core

end Sys2Proof.Proofs

/-! Teams are placed and retire (R20, R24 to R28, R319, R333 to R335, R347). -/

namespace Sys2Proof.Proofs

open Sys2Proof.Machine Sys2Proof.Laws

/-! ## The order of a context's launches -/

section Serve
variable {s : State} {ctx : Nat} {l m : Launch}

/-- A launch before the one that is served cannot place (R333). -/
theorem placeNext_of_before (h : s.holdsBack ctx m l = false) (hslot : m.slot ≠ l.slot) (hplaced : m.placed < m.teams)
    (hbefore : m.before l = true) : s.placeNext ctx m = none := by
  by_contra hne
  have hsome : (s.placeNext ctx m).isSome = true := Option.isSome_iff_ne_none.mpr hne
  simp [State.holdsBack, hslot, hplaced, hsome, hbefore] at h

/-- A GATHER launch that cannot place serves no launch of equal or lower priority (R335). -/
theorem placeNext_of_gather (h : s.holdsBack ctx m l = false) (hslot : m.slot ≠ l.slot) (hplaced : m.placed < m.teams)
    (hg : m.gather = true) (hprio : l.prio ≤ m.prio) : s.placeNext ctx m ≠ none := by
  intro hnone
  simp [State.holdsBack, hslot, hplaced, hnone, hg, hprio] at h

theorem exec_teamPlacement {core slot : Nat} {b : State} (h : s.serveCtx ctx = some (l, core, b)) :
    exec (.teamPlacement ctx slot) s =
      if l.slot ≠ slot ∨ s.rivals b ctx = true then .next s else .next b := by
  change execTeamPlacement ctx slot s = _
  rw [execTeamPlacement, h]

/-- A context's only launch is served. -/
theorem serveCtx_of_only {core : Nat} {b : State} (hls : (s.ctx ctx).launches = [l])
    (h : s.placeNext ctx l = some (core, b)) : s.serveCtx ctx = some (l, core, b) := by
  simp [State.serveCtx, hls, State.holdsBack, h]

/-- No context competes where none has a team to place. -/
theorem rivals_eq_false {t : State} (h : ∀ c, c ≠ ctx → ∀ m ∈ (s.ctx c).launches, m.teams ≤ m.placed) :
    s.rivals t ctx = false := by
  refine List.any_eq_false.mpr fun c _ => ?_
  by_cases hc : c.1 = ctx
  · simp [hc]
  · simp [serveCtx_eq_none (h c.1 hc)]

theorem exec_teamPlacement_of_only {core : Nat} {b : State} (hls : (s.ctx ctx).launches = [l])
    (hothers : ∀ c, c ≠ ctx → ∀ m ∈ (s.ctx c).launches, m.teams ≤ m.placed)
    (h : s.placeNext ctx l = some (core, b)) : exec (.teamPlacement ctx l.slot) s = .next b := by
  rw [exec_teamPlacement (serveCtx_of_only hls h), if_neg]
  simp [rivals_eq_false hothers]

end Serve

/-! ## Tiles given up -/

/-- A tile given up, where its context owns it. -/
def giveTile (k : Core) (ctx i : Nat) : Core :=
  if ownedBy (k.owner i) ctx then
    { k.zeroRows i 0 128 with accown := tabSet 0 k.accown i (k.owner i &&& 0x7FFF) }
  else k

theorem giveTiles_cons (k : Core) (ctx i : Nat) (is : List Nat) :
    k.giveTiles ctx (i :: is) = (giveTile k ctx i).giveTiles ctx is := by
  rw [Core.giveTiles, giveTile]

theorem ownedBy_cleared (w : BitVec 16) (ctx : Nat) : ownedBy (w &&& 0x7FFF) ctx = false := by
  rw [← Bool.not_eq_true, ownedBy_iff, BitVec.getLsbD_and]
  simp

theorem owner_giveTile (k : Core) (ctx i j : Nat) : (giveTile k ctx i).owner j =
    if j = i ∧ ownedBy (k.owner j) ctx = true then k.owner j &&& 0x7FFF else k.owner j := by
  rw [giveTile]
  by_cases ho : ownedBy (k.owner i) ctx = true
  · rw [if_pos ho]
    refine (tabGet_tabSet ..).trans ?_
    by_cases hj : j = i
    · rw [if_pos hj, hj, if_pos ⟨rfl, ho⟩]
    · rw [if_neg hj, if_neg fun h => hj h.1]
      rfl
  · rw [if_neg ho, if_neg]
    rintro ⟨rfl, h⟩
    exact ho h

theorem acc_giveTile (k : Core) (ctx i r : Nat) : tabGet 0 (giveTile k ctx i).acc r =
    if r / 128 = i ∧ ownedBy (k.owner (r / 128)) ctx = true then 0 else tabGet 0 k.acc r := by
  rw [giveTile]
  by_cases ho : ownedBy (k.owner i) ctx = true
  · rw [if_pos ho]
    dsimp only
    rw [acc_zeroTile k i r]
    exact if_congr ⟨fun h => ⟨h, by rw [h]; exact ho⟩, And.left⟩ rfl rfl
  · rw [if_neg ho, if_neg]
    rintro ⟨rfl, h⟩
    exact ho h

theorem mem_cons_and_iff {i j : Nat} {is : List Nat} {p : Prop} (h : ¬ (i = j ∧ p)) :
    (i ∈ j :: is ∧ p) ↔ (i ∈ is ∧ p) := by
  rw [List.mem_cons]
  tauto

/-- A tile of the list that the context owns has no owner, and every other is whose it was. -/
theorem owner_giveTiles (ctx : Nat) (is : List Nat) (k : Core) (i : Nat) : (k.giveTiles ctx is).owner i =
    if i ∈ is ∧ ownedBy (k.owner i) ctx = true then k.owner i &&& 0x7FFF else k.owner i := by
  induction is generalizing k with
  | nil => rw [Core.giveTiles, if_neg fun h => List.not_mem_nil h.1]
  | cons j is ih =>
    rw [giveTiles_cons, ih, owner_giveTile]
    by_cases hi : i = j ∧ ownedBy (k.owner i) ctx = true
    · rw [if_pos hi, ownedBy_cleared, if_neg fun h => Bool.false_ne_true h.2,
        if_pos ⟨hi.1 ▸ List.mem_cons_self .., hi.2⟩]
    · rw [if_neg hi]
      exact if_congr (mem_cons_and_iff hi).symm rfl rfl

/-- A tile of the list that the context owns reads zero, and every other as before. -/
theorem acc_giveTiles (ctx : Nat) (is : List Nat) (k : Core) (r : Nat) : tabGet 0 (k.giveTiles ctx is).acc r =
    if r / 128 ∈ is ∧ ownedBy (k.owner (r / 128)) ctx = true then 0 else tabGet 0 k.acc r := by
  induction is generalizing k with
  | nil => rw [Core.giveTiles, if_neg fun h => List.not_mem_nil h.1]
  | cons j is ih =>
    rw [giveTiles_cons, ih, owner_giveTile, acc_giveTile]
    by_cases hi : r / 128 = j ∧ ownedBy (k.owner (r / 128)) ctx = true
    · rw [if_pos hi, if_pos hi, ownedBy_cleared, if_neg fun h => Bool.false_ne_true h.2,
        if_pos ⟨hi.1 ▸ List.mem_cons_self .., hi.2⟩]
    · rw [if_neg hi, if_neg hi]
      exact if_congr (mem_cons_and_iff hi).symm rfl rfl

/-! ## An allotment that reads zero -/

theorem tabGet_filter_key {α : Type} (d : α) (p : Nat → Bool) (t : Tab α) (i : Nat) :
    tabGet d (t.filter fun e => p e.1) i = if p i then tabGet d t i else d := by
  induction t with
  | nil => simp [tabGet]
  | cons x t ih =>
    rw [List.filter_cons]
    by_cases hx : x.1 = i
    · cases hp : p i <;> simp_all [tabGet]
    · split_ifs <;> simp_all [tabGet]

theorem outside_iff (p q : Prop) [Decidable p] [Decidable q] : (!(decide p && decide q)) = true ↔ ¬ (p ∧ q) := by
  simp [← not_and_or]

theorem byte_clearPad (s : State) (u a : Nat) :
    (s.clearPad u).byte a = if padKey u ≤ a ∧ a < padKey (u + 1) then 0 else s.byte a := by
  have h := tabGet_filter_key memDefault (fun k => !(decide (padKey u ≤ k) && decide (k < padKey (u + 1)))) s.mem a
  refine h.trans ?_
  by_cases hin : padKey u ≤ a ∧ a < padKey (u + 1)
  · rw [if_pos hin, if_neg fun h => (outside_iff _ _).mp h hin]
    rfl
  · rw [if_neg hin, if_pos ((outside_iff _ _).mpr hin)]
    rfl

/-- A scratchpad key is neither memory nor a device register. -/
theorem readByte_pad (s : State) (mk : Nat) {u a : Nat} (h : padKey u ≤ a) : s.readByte mk a = s.byte a := by
  have ha : 2 ^ 57 ≤ a := le_trans (Nat.le_add_right _ _) h
  have hhbm : isHbm a = false := by simp [isHbm]; omega
  have hdev : s.deviceByte a = none := by
    rw [State.deviceByte, if_pos (by omega)]
  rw [readByte_of_not_hbm hhbm, hdev, Option.getD_none]

/-- Of an allotment gone from memory every byte reads zero, and no other byte reads otherwise. -/
theorem readByte_clearPad (s : State) (u mk a : Nat) : (s.clearPad u).readByte mk a =
    if padKey u ≤ a ∧ a < padKey (u + 1) then 0 else s.readByte mk a := by
  have honly : OnlyMemory s (s.clearPad u) := rfl
  split_ifs with hin
  · rw [readByte_pad _ _ hin.1, byte_clearPad, if_pos hin]
  · refine honly.readByte_eq ?_ rfl mk
    rw [byte_clearPad, if_neg hin]

/-! ## The launch of a team that retires -/

section Launches
variable (s : State) (ctx slot : Nat)

theorem settleLaunch_eq : s.settleLaunch ctx slot = { s with
    ctxs := (s.settleLaunch ctx slot).ctxs, reqs := (s.settleLaunch ctx slot).reqs
    nextId := (s.settleLaunch ctx slot).nextId } := by
  unfold State.settleLaunch
  split
  · rfl
  · split_ifs
    · rfl
    · dsimp only
      split <;> rfl

variable {s ctx slot} {l : Launch}

theorem settleLaunch_of_open (hl : ((s.ctx ctx).launches.find? fun x => x.slot == slot) = some l)
    (h : l.retired < l.teams) : s.settleLaunch ctx slot = s := by
  rw [State.settleLaunch, hl]
  exact if_pos h

/-- A launch that is over leaves its slot, and its addition is on its way (R20). -/
theorem settleLaunch_of_over (hl : ((s.ctx ctx).launches.find? fun x => x.slot == slot) = some l)
    (h : l.teams ≤ l.retired) :
    (((s.settleLaunch ctx slot).ctx ctx).launches.find? fun x => x.slot == slot) = none ∧
    ∀ n, l.done = some n → tabFind (s.settleLaunch ctx slot).reqs s.nextId =
      some (.semSig ctx n l.doneinc.toNat 0 0 0 l.tag 5 none 0) := by
  have hgone (t : State) : (((t.modCtx ctx fun c => { c with
      launches := c.launches.filter fun x => x.slot != slot }).ctx ctx).launches.find? fun x => x.slot == slot) =
        none := by
    rw [modCtx_def, ctx_setCtx, if_pos rfl]
    simp [List.find?_eq_none]
  simp only [State.settleLaunch, hl, if_neg (not_lt.mpr h)]
  cases hd : l.done with
  | none => exact ⟨hgone s, nofun⟩
  | some n =>
    refine ⟨hgone s, fun n' hn => ?_⟩
    cases hn
    exact (tabFind_tabPut ..).trans (if_pos rfl)

theorem find?_modLaunch {g : Launch → Launch} (hg : ∀ x, (g x).slot = x.slot)
    (hl : ((s.ctx ctx).launches.find? fun x => x.slot == slot) = some l) :
    (((s.modLaunch ctx slot g).ctx ctx).launches.find? fun x => x.slot == slot) = some (g l) := by
  have hctx : ((s.modLaunch ctx slot g).ctx ctx).launches =
      (s.ctx ctx).launches.map fun x => if x.slot = slot then g x else x :=
    congrArg Ctx.launches ((ctx_setCtx ..).trans (if_pos rfl))
  have hslot : (fun x : Launch => x.slot == slot) ∘ (fun x => if x.slot = slot then g x else x) =
      fun x => x.slot == slot := by
    funext x
    simp only [Function.comp_apply]
    split_ifs <;> simp_all
  rw [hctx, List.find?_map, hslot, hl, Option.map_some, if_pos (by simpa using List.find?_some hl)]

end Launches

/-! ## A team that retires -/

/-- A core from which a team is gone. -/
def vacated (u ctx : Nat) (tiles : List Nat) (k : Core) : Core :=
  { k.giveTiles ctx tiles with bufs := k.bufs.filter fun b => b.2.team != u }

/-- A launch with one more team retired. -/
def retiredOne (l : Launch) : Launch := { l with retired := l.retired + 1 }

/-- The state in which a team is gone, but for its launch. -/
def teamGone (s : State) (u core : Nat) (m : Team) : State :=
  let b := (s.modCore core (vacated u m.ctx m.tiles)).clearPad u
  { b with teams := tabDel b.teams u }

section Retire
variable {s : State} {u core : Nat} {m : Team}

/-- The state in which a team has retired. -/
def retired (s : State) (u core : Nat) (m : Team) : State :=
  ((teamGone s u core m).modLaunch m.ctx m.slot retiredOne).settleLaunch m.ctx m.slot

theorem exec_teamRetire (hm : tabFind s.teams u = some m) (hc : m.core = some core) (hu : 16 ≤ u)
    (hover : s.teamOver u m = true) (hlost : (s.die (dieOf core)).lost = false) :
    exec (.teamRetire u) s = .next (retired s u core m) := by
  change execTeamRetire u s = _
  simp only [execTeamRetire, hm, hc]
  rw [if_neg (by simp [hover, hlost]; omega)]
  rfl

theorem retired_eq (s : State) (u core : Nat) (m : Team) : retired s u core m = { s with
    mem := (s.clearPad u).mem, cores := (s.modCore core (vacated u m.ctx m.tiles)).cores
    teams := tabDel s.teams u, ctxs := (retired s u core m).ctxs, reqs := (retired s u core m).reqs
    nextId := (retired s u core m).nextId } :=
  settleLaunch_eq ..

theorem owner_vacated (u ctx : Nat) (tiles : List Nat) (k : Core) (i : Nat) :
    (vacated u ctx tiles k).owner i = (k.giveTiles ctx tiles).owner i := rfl

theorem acc_vacated (u ctx : Nat) (tiles : List Nat) (k : Core) :
    (vacated u ctx tiles k).acc = (k.giveTiles ctx tiles).acc := rfl

theorem core_retired (s : State) (u core : Nat) (m : Team) (c : Nat) : (retired s u core m).core c =
    if c = core then vacated u m.ctx m.tiles (s.core core) else s.core c := by
  have hcores : (retired s u core m).cores = (s.modCore core (vacated u m.ctx m.tiles)).cores := by rw [retired_eq]
  rw [core_congr hcores, modCore_def, core_setCore]

theorem readByte_retired (s : State) (u core : Nat) (m : Team) (key a : Nat) : (retired s u core m).readByte key a =
    if padKey u ≤ a ∧ a < padKey (u + 1) then 0 else s.readByte key a := by
  have hsame : SameMemory (s.clearPad u) (retired s u core m) := by
    rw [retired_eq]
    constructor <;> rfl
  rw [hsame.readByte, readByte_clearPad]

/-- What the retirement of its team makes of a launch. -/
theorem launch_retired {l : Launch} (hl : ((s.ctx m.ctx).launches.find? fun x => x.slot == m.slot) = some l) :
    (l.retired + 1 < l.teams →
      (((retired s u core m).ctx m.ctx).launches.find? fun x => x.slot == m.slot) =
        some { l with retired := l.retired + 1 } ∧ (retired s u core m).reqs = s.reqs) ∧
    (l.teams ≤ l.retired + 1 →
      (((retired s u core m).ctx m.ctx).launches.find? fun x => x.slot == m.slot) = none ∧
      ∀ n, l.done = some n → tabFind (retired s u core m).reqs s.nextId =
        some (.semSig m.ctx n l.doneinc.toNat 0 0 0 l.tag 5 none 0)) := by
  have hmod := find?_modLaunch (s := teamGone s u core m) (g := retiredOne) (fun _ => rfl) hl
  refine ⟨fun h => ?_, fun h => settleLaunch_of_over (l := retiredOne l) hmod h⟩
  rw [retired, settleLaunch_of_open hmod h]
  exact ⟨hmod, rfl⟩

end Retire

/-- Settles O38: the launch that is served, the core that R334 names, and what a team that is over leaves. -/
theorem teamPlacement : Obligations.teamPlacement := by
  unfold Obligations.teamPlacement
  refine ⟨⟨fun s b ctx core l h => ?_, fun s ctx slot hnone => ?_, fun s ctx core l hls hplaced hothers =>
    ⟨fun hg hbest => ?_, fun hg hnext => ?_⟩⟩, fun s u core m hm hc hu hover hlost => ?_⟩
  · obtain ⟨hmem, hheld, hnext⟩ := of_serveCtx h
    obtain ⟨hplaced, hbest, hone, hall⟩ := of_placeNext hnext
    refine ⟨hmem, hplaced, hbest, fun m hm hs hp hb => placeNext_of_before (hheld m hm) hs hp hb,
      fun m hm hs hp hg hprio => placeNext_of_gather (hheld m hm) hs hp hg hprio, fun hr => ?_,
      fun hr => ⟨b, ?_, fun hg => ?_, hall⟩⟩
    · rw [exec_teamPlacement h, if_pos (.inr hr)]
    · rw [exec_teamPlacement h, if_neg (by simp [hr])]
    · rw [hone hg]
      exact places_placeTeam hbest.1
  · cases h : s.serveCtx ctx with
    | none =>
      change execTeamPlacement ctx slot s = _
      rw [execTeamPlacement, h]
    | some r =>
      obtain ⟨l, core, b⟩ := r
      obtain ⟨hmem, -, hnext⟩ := of_serveCtx h
      obtain ⟨-, -, -, hall⟩ := of_placeNext hnext
      refine (exec_teamPlacement h).trans (if_pos (.inl fun hslot => ?_))
      obtain ⟨hg, hno⟩ := hnone l hmem hslot
      exact hno ⟨b, hall hg⟩
  · exact ⟨_, exec_teamPlacement_of_only hls hothers (placeNext_of_not_gather hplaced hg hbest),
      places_placeTeam hbest.1⟩
  · obtain ⟨⟨core, t⟩, hnext⟩ := Option.ne_none_iff_exists'.mp hnext
    obtain ⟨-, -, -, hall⟩ := of_placeNext hnext
    exact ⟨t, exec_teamPlacement_of_only hls hothers hnext, hall hg⟩
  · refine ⟨_, exec_teamRetire hm hc hu hover hlost, fun v => ?_, readByte_retired s u core m, fun c hne => ?_,
      fun i => ?_, fun r => ?_, fun l hl => launch_retired hl, ?_⟩
    · rw [retired_eq, tabFind_tabDel]
    · rw [core_retired, if_neg hne]
    · rw [core_retired, if_pos rfl, owner_vacated, owner_giveTiles]
    · rw [core_retired, if_pos rfl, acc_vacated, acc_giveTiles]
    · conv_lhs => rw [retired_eq]
      rw [retired_eq]

end Sys2Proof.Proofs

/-! Ticks, windows, USED and demotion (R342, R344, R345). -/

namespace Sys2Proof.Proofs

open Sys2Proof.Machine Sys2Proof.Laws

/-! ## Changes of one die -/

/-- One die has become `d'` but for its entries, and of these each but those that `skip` names what `f` makes of it. -/
structure Becomes (s t : State) (die : Nat) (d' : Die) (skip : Nat → Prop) (f : Nat → Fair → Fair) : Prop where
  frame : t = { s with dies := t.dies }
  other : ∀ j, j ≠ die → t.die j = s.die j
  self : t.die die = { d' with fair := (t.die die).fair }
  fair : ∀ e, ¬ skip e → tabFind (t.die die).fair e = (tabFind (s.die die).fair e).map (f e)

/-- A die's entries, each changed. -/
def fairMapped (f : Nat → Fair → Fair) (d : Die) : Die := { d with fair := d.fair.map fun e => (e.1, f e.1 e.2) }

theorem tabFind_map_keyed {α β : Type} (f : Nat → α → β) (t : Tab α) (i : Nat) :
    tabFind (t.map fun e => (e.1, f e.1 e.2)) i = (tabFind t i).map (f i) := by
  induction t with
  | nil => rfl
  | cons x t ih =>
    simp only [List.map_cons, tabFind]
    split_ifs with hx
    · subst hx
      rfl
    · exact ih

theorem tabFind_fairMapped (f : Nat → Fair → Fair) (d : Die) (e : Nat) :
    tabFind (fairMapped f d).fair e = (tabFind d.fair e).map (f e) := tabFind_map_keyed f d.fair e

theorem mapFair_def (s : State) (die : Nat) (f : Nat → Fair → Fair) :
    s.mapFair die f = s.modDie die (fairMapped f) := rfl

theorem die_modDie (s : State) (die : Nat) (g : Die → Die) (j : Nat) :
    (s.modDie die g).die j = if j = die then g (s.die die) else s.die j := by
  rw [modDie_def, die_setDie]

theorem modDie_frame (s : State) (die : Nat) (g : Die → Die) :
    s.modDie die g = { s with dies := (s.modDie die g).dies } := rfl

namespace Becomes
variable {s t : State} {die : Nat} {d d' : Die} {skip skip' : Nat → Prop} {f f' : Nat → Fair → Fair}

theorem refl (s : State) (die : Nat) : Becomes s s die (s.die die) (fun _ => False) fun _ x => x :=
  ⟨rfl, fun _ _ => rfl, rfl, fun _ _ => by simp⟩

/-- The die changed once more: its fields but for the entries by `hself`, its entries by `hfair`. -/
theorem modDie (h : Becomes s t die d skip f) {g : Die → Die}
    (hself : ∀ x, { g { d with fair := x } with fair := [] } = { d' with fair := [] })
    (hfair : ∀ e, ¬ skip' e → tabFind (g (t.die die)).fair e = (tabFind (t.die die).fair e).map (f' e)) :
    Becomes s (t.modDie die g) die d' (fun e => skip e ∨ skip' e) fun e x => f' e (f e x) := by
  have hdie : (t.modDie die g).die die = g (t.die die) := (die_modDie ..).trans (if_pos rfl)
  refine ⟨?_, fun j hj => ?_, ?_, fun e he => ?_⟩
  · rw [modDie_frame, h.frame]
  · rw [die_modDie, if_neg hj, h.other j hj]
  · rw [hdie, h.self]
    exact congrArg (fun k : Die => { k with fair := (g { d with fair := (t.die die).fair }).fair })
      (hself (t.die die).fair)
  · obtain ⟨hskip, hskip'⟩ := not_or.mp he
    rw [hdie, hfair e hskip', h.fair e hskip, Option.map_map]
    rfl

theorem mapFair (h : Becomes s t die d skip f) (g : Nat → Fair → Fair) :
    Becomes s (t.mapFair die g) die d skip fun e x => g e (f e x) := by
  rw [mapFair_def]
  have := h.modDie (g := fairMapped g) (skip' := fun _ => False) (d' := d) (f' := g) (fun _ => rfl)
    fun e _ => tabFind_fairMapped ..
  simpa only [or_false] using this

theorem setWin (h : Becomes s t die d skip f) (n : Nat) :
    Becomes s (t.modDie die fun k => { k with win := n }) die { d with win := n } skip f := by
  have := h.modDie (g := fun k => { k with win := n }) (skip' := fun _ => False) (f' := fun _ x => x)
    (d' := { d with win := n }) (fun _ => rfl) fun e _ => by simp
  simpa only [or_false] using this

end Becomes

/-! ## USED -/

/-- Cores of a die on which a context runs that uses an entry. -/
def usersOf (s : State) (die i : Nat) : Nat :=
  ((dieCores die).filter fun c => (((s.core c).activeCtx.bind fun x => s.fairOf die x).map (·.1)) == some i).length

theorem length_filter_filterMap {α : Type} (g : α → Option Nat) (i : Nat) (l : List α) :
    ((l.filterMap g).filter fun u => u == i).length = (l.filter fun c => g c == some i).length := by
  induction l with
  | nil => rfl
  | cons x l ih =>
    cases hx : g x with
    | none => simp [hx, ih]
    | some u =>
      by_cases hu : u = i <;> simp [hx, hu, ih]

/-- USED has risen for the µs up to `n`, where they have not been counted. -/
theorem becomes_accrueTo (s : State) (die n : Nat) : Becomes s (s.accrueTo die n) die
    { s.die die with usedAt := max (s.die die).usedAt n } (fun _ => False)
    fun i f => { f with used := f.used + (n - (s.die die).usedAt) * usersOf s die i } := by
  rw [State.accrueTo]
  by_cases hn : n ≤ (s.die die).usedAt
  · rw [if_pos hn, Nat.max_eq_left hn, Nat.sub_eq_zero_of_le hn]
    simpa only [Nat.zero_mul, Nat.add_zero] using Becomes.refl s die
  · have husers (i : Nat) : (((dieCores die).filterMap fun c => (s.core c).activeCtx.bind fun x =>
        (s.fairOf die x).map (·.1)).filter fun u => u == i).length = usersOf s die i := by
      rw [length_filter_filterMap, usersOf]
      simp only [Option.map_bind, Function.comp_def]
    rw [if_neg hn, Nat.max_eq_right (by omega)]
    simp only [husers]
    have := ((Becomes.refl s die).mapFair fun i f => { f with
      used := f.used + (n - (s.die die).usedAt) * usersOf s die i }).modDie
        (g := fun d => { d with usedAt := n }) (skip' := fun _ => False) (f' := fun _ x => x)
        (d' := { s.die die with usedAt := n }) (fun _ => rfl) fun e _ => by simp
    simpa only [or_false] using this

/-! ## Ticks and windows -/

section Tick
variable {s : State} {die : Nat}

/-- What a tick makes of an entry (R342, R344). -/
def ticked (s : State) (die n i : Nat) (f : Fair) : Fair :=
  { f with boost := min (f.boost - 1) f.cap, used := f.used + (n * 50 - (s.die die).usedAt) * usersOf s die i }

/-- A die on which a tick has come, but for what was written to its entries. -/
def lowered (s : State) (die n : Nat) : State :=
  (s.accrueTo die (n * 50)).mapFair die fun _ f => { f with boost := min (f.boost - 1) f.cap }

theorem becomes_lowered (s : State) (die n : Nat) : Becomes s (lowered s die n) die
    { s.die die with usedAt := max (s.die die).usedAt (n * 50) } (fun _ => False) (ticked s die n) :=
  (becomes_accrueTo s die (n * 50)).mapFair _

/-- One written word of an entry taken. -/
def taken (t : Tab Fair) (w : Nat × BitVec 32) : Tab Fair :=
  tabPut t (w.1 / 8) ((tabGet fairReset t (w.1 / 8)).setWord (w.1 % 8) w.2)

theorem tabFind_foldl_taken {ws : List (Nat × BitVec 32)} {e : Nat} (h : ∀ w ∈ ws, w.1 / 8 ≠ e) (t : Tab Fair) :
    tabFind (ws.foldl taken t) e = tabFind t e := by
  induction ws generalizing t with
  | nil => rfl
  | cons w ws ih =>
    obtain ⟨hw, hws⟩ := List.forall_mem_cons.mp h
    rw [List.foldl_cons, ih hws, taken, tabFind_tabPut, if_neg (Ne.symm hw)]

theorem takeFair_fair (d : Die) :
    d.takeFair.fair = (d.fairPend.filter fun w => decide (w.1 < 2 ^ 20)).foldl taken d.fair := rfl

/-- A tick takes what has been written to the entries, and counts. -/
def tickTaken (n : Nat) (d : Die) : Die := { d.takeFair with tick := n }

theorem exec_fairnessTick {n : Nat} (hup : (s.die die).up = true) (hn : n = (s.die die).tick + 1)
    (hnow : n * 47000 ≤ (s.die die).gnomon.toNat) (hwin : n % 200 ≠ 0 ∨ n / 200 ≤ (s.die die).win) :
    exec (.fairnessTick die) s = .next ((lowered s die n).modDie die (tickTaken n)) := by
  have hfirst : (s.die die).windowFirst = false := by
    rw [Die.windowFirst, ← hn, Bool.and_eq_false_iff, beq_eq_false_iff_ne, decide_eq_false_iff_not, not_lt]
    exact hwin
  subst hn
  change execFairnessTick die s = _
  rw [execFairnessTick, if_neg (by simp [hup, hfirst]; omega)]
  rfl

theorem exec_fairnessWindow {n : Nat} (hup : (s.die die).up = true) (hn : n = (s.die die).win + 1)
    (hnow : n * 9400000 ≤ (s.die die).gnomon.toNat) (htick : n * 200 ≤ (s.die die).tick + 1) :
    exec (.fairnessWindow die) s = .next (((s.accrueTo die (n * 10000)).mapFair die fun _ f =>
      { f with gathered := 0, used := 0 }).modDie die fun d => { d with win := n }) := by
  subst hn
  change execFairnessWindow die s = _
  rw [execFairnessWindow, if_neg (by simp [hup]; omega)]
  rfl

theorem exec_usedAccrual (hup : (s.die die).up = true) : exec (.usedAccrual die) s =
    .next (s.accrueTo die (min ((s.die die).gnomon.toNat / 940) (((s.die die).tick + 1) * 50))) := by
  change execUsedAccrual die s = _
  rw [execUsedAccrual, if_pos hup, State.accrue]

theorem exec_spinDemotion {i : Nat} {f : Fair} (hf : tabFind (s.die die).fair i = some f) (hvalid : f.valid = true)
    (hspin : f.spin ≠ 0) : exec (.spinDemotion die i) s =
      if ∃ x ∈ f.spins, x.2 + 940 * f.spin ≤ (s.die die).gnomon.toNat then
        .next (s.modDie die fun d => { d with fair := tabPut d.fair i { f with demoted := true } })
      else .next s := by
  change execSpinDemotion die i s = _
  rw [execSpinDemotion, hf]
  dsimp only
  by_cases h : ∃ x ∈ f.spins, x.2 + 940 * f.spin ≤ (s.die die).gnomon.toNat
  · rw [if_pos h, if_neg]
    simpa [hvalid, hspin] using h
  · rw [if_neg h, if_pos]
    simpa [hvalid, hspin] using h

end Tick

/-! ## What each of these steps makes of its die -/

section Steps
variable {s : State} {die : Nat}

/-- A die behind a tick, but for its entries. -/
def tickDie (d : Die) (n : Nat) : Die :=
  { d with
    tick := n, usedAt := max d.usedAt (n * 50)
    fairPend := (d.fairPend.filter fun w => decide (2 ^ 20 ≤ w.1)).map fun w => (w.1 - 2 ^ 20, w.2) }

theorem becomes_tick (s : State) (die n : Nat) : Becomes s ((lowered s die n).modDie die (tickTaken n)) die
    (tickDie (s.die die) n) (fun e => ∃ w ∈ (s.die die).fairPend, w.1 < 2 ^ 20 ∧ w.1 / 8 = e) (ticked s die n) := by
  have h := becomes_lowered s die n
  have hpend : ((lowered s die n).die die).fairPend = (s.die die).fairPend := by rw [h.self]
  have := h.modDie (g := tickTaken n) (skip' := fun e => ∃ w ∈ (s.die die).fairPend, w.1 < 2 ^ 20 ∧ w.1 / 8 = e)
    (f' := fun _ x => x) (d' := tickDie (s.die die) n) (fun _ => rfl) fun e he => ?_
  · simpa only [false_or] using this
  · rw [tickTaken, takeFair_fair, tabFind_foldl_taken, Option.map_id']
    intro w hw hwe
    obtain ⟨hmem, hlt⟩ := List.mem_filter.mp hw
    exact he ⟨w, hpend ▸ hmem, of_decide_eq_true hlt, hwe⟩

/-- One word written to an entry, taken by a tick. -/
theorem fair_tick_of_one {w : Nat} {v : BitVec 32} (n : Nat) (hpend : (s.die die).fairPend = [(w, v)])
    (hw : w < 2 ^ 20) : tabFind (((lowered s die n).modDie die (tickTaken n)).die die).fair (w / 8) =
      some (((tabFind (s.die die).fair (w / 8)).elim fairReset (ticked s die n (w / 8))).setWord (w % 8) v) := by
  have h := becomes_lowered s die n
  have hpend' : ((lowered s die n).die die).fairPend = [(w, v)] := by rw [h.self, ← hpend]
  rw [die_modDie, if_pos rfl, tickTaken, takeFair_fair, hpend', List.filter_cons, if_pos (decide_eq_true hw)]
  rw [List.filter_nil, List.foldl_cons, List.foldl_nil, taken, tabFind_tabPut, if_pos rfl, tabGet_eq, h.fair _ id]
  cases tabFind (s.die die).fair (w / 8) <;> rfl

theorem becomes_window (s : State) (die n : Nat) : Becomes s (((s.accrueTo die (n * 10000)).mapFair die fun _ f =>
      { f with gathered := 0, used := 0 }).modDie die fun d => { d with win := n }) die
    { s.die die with win := n, usedAt := max (s.die die).usedAt (n * 10000) } (fun _ => False)
    fun _ f => { f with gathered := 0, used := 0 } := by
  exact ((becomes_accrueTo s die (n * 10000)).mapFair fun _ f => { f with gathered := 0, used := 0 }).setWin n

theorem becomes_demoted {i : Nat} {f : Fair} (hf : tabFind (s.die die).fair i = some f) :
    Becomes s (s.modDie die fun d => { d with fair := tabPut d.fair i { f with demoted := true } }) die (s.die die)
      (fun _ => False) fun e g => if e = i then { f with demoted := true } else g := by
  have := (Becomes.refl s die).modDie (g := fun d => { d with fair := tabPut d.fair i { f with demoted := true } })
    (skip' := fun _ => False) (f' := fun e g => if e = i then { f with demoted := true } else g) (d' := s.die die)
    (fun _ => rfl) fun e _ => ?_
  · simpa only [or_false] using this
  · rw [tabFind_tabPut]
    split_ifs with he
    · rw [he, hf, Option.map_some]
    · simp

end Steps

end Sys2Proof.Proofs

/-! Migration: which teams move, where to, and how they land (R43, R353). -/

namespace Sys2Proof.Proofs

open Sys2Proof.Machine Sys2Proof.Laws

/-! ## The order in which teams move -/

theorem mem_byParked {t x : Nat × Team} {l : List (Nat × Team)} : x ∈ byParked t l ↔ x = t ∨ x ∈ l := by
  induction l with
  | nil => simp [byParked]
  | cons u l ih =>
    rw [byParked]
    split_ifs
    · rw [List.mem_cons]
    · rw [List.mem_cons, ih, List.mem_cons]
      tauto

theorem mem_foldr_byParked {x : Nat × Team} {l : List (Nat × Team)} : x ∈ l.foldr byParked [] ↔ x ∈ l := by
  induction l with
  | nil => rfl
  | cons u l ih => rw [List.foldr_cons, mem_byParked, ih, List.mem_cons]

theorem pairwise_byParked {t : Nat × Team} {l : List (Nat × Team)}
    (h : l.Pairwise fun x y => x.2.parkedAt ≤ y.2.parkedAt) :
    (byParked t l).Pairwise fun x y => x.2.parkedAt ≤ y.2.parkedAt := by
  induction l with
  | nil => exact List.pairwise_singleton ..
  | cons u l ih =>
    obtain ⟨hu, hl⟩ := List.pairwise_cons.mp h
    rw [byParked]
    split_ifs with hlt
    · exact List.pairwise_cons.mpr ⟨List.forall_mem_cons.mpr ⟨hlt.le, fun y hy => hlt.le.trans (hu y hy)⟩, h⟩
    · refine List.pairwise_cons.mpr ⟨fun y hy => ?_, ih hl⟩
      rcases mem_byParked.mp hy with rfl | hy
      · exact not_lt.mp hlt
      · exact hu y hy

theorem pairwise_foldr_byParked (l : List (Nat × Team)) :
    (l.foldr byParked []).Pairwise fun x y => x.2.parkedAt ≤ y.2.parkedAt := by
  induction l with
  | nil => exact .nil
  | cons u l ih => exact pairwise_byParked ih

section Order
variable {s : State} {die uid : Nat} {m : Team}

/-- Teams that are not dispatched go first, then the longest parked. -/
theorem pairwise_moveOrder (s : State) (die : Nat) : (s.moveOrder die).Pairwise fun x y =>
    x.2.ready = [] → y.2.ready = [] ∧ x.2.parkedAt ≤ y.2.parkedAt := by
  have hready (l : List (Nat × Team)) (x : Nat × Team) (hx : x ∈ l.filter fun t => !t.2.ready.isEmpty) :
      x.2.ready ≠ [] := by
    simpa using (List.mem_filter.mp hx).2
  have hparked (l : List (Nat × Team)) (x : Nat × Team)
      (hx : x ∈ (l.filter fun t => t.2.ready.isEmpty && !t.2.recs.isEmpty).foldr byParked []) : x.2.ready = [] := by
    have h := (List.mem_filter.mp (mem_foldr_byParked.mp hx)).2
    rw [Bool.and_eq_true, List.isEmpty_iff] at h
    exact h.1
  refine List.pairwise_append.mpr ⟨?_, ?_, fun x hx y _ h => absurd h (hready _ x hx)⟩
  · exact List.pairwise_of_forall_mem_list fun x hx y _ h => absurd h (hready _ x hx)
  · exact (pairwise_foldr_byParked _).imp_of_mem fun {x y} _ hy hle _ => ⟨hparked _ y hy, hle⟩

theorem movable_of_mem_moveOrder (h : (uid, m) ∈ s.moveOrder die) :
    (m.core.any fun c => dieOf c == die) = true ∧ s.movable uid m = true := by
  have hmem : (uid, m) ∈ s.teams.filter fun t => (t.2.core.any fun c => dieOf c == die) && s.movable t.1 t.2 := by
    rcases List.mem_append.mp h with h | h
    · exact (List.mem_filter.mp h).1
    · exact (List.mem_filter.mp (mem_foldr_byParked.mp h)).1
  exact Bool.and_eq_true_iff.mp (List.mem_filter.mp hmem).2

/-- What R43 asks of a team that may move. -/
theorem of_movable (h : s.movable uid m = true) : m.task = none ∧ m.dead = false ∧ m.tilesUsed = [] ∧
    (m.ready = [] ∨ (m.ready = [0] ∧ m.started = 0)) ∧ ∃ l, s.launchOf m = some l ∧ l.nomig = false := by
  unfold State.movable at h
  split at h
  · rename_i core l _ hl
    simp only [Bool.and_eq_true, Bool.or_eq_true, decide_eq_true_eq, Bool.not_eq_true', Option.isNone_iff_eq_none,
      List.isEmpty_iff, beq_iff_eq] at h
    obtain ⟨⟨⟨⟨⟨⟨⟨-, hdead⟩, htask⟩, hnomig⟩, htiles⟩, hready⟩, -⟩, -⟩ := h
    exact ⟨htask, hdead, htiles, hready, l, hl, hnomig⟩
  · cases h

end Order

/-! ## The die that receives a team -/

section Receiver
variable {s : State} {die ctx allot acct mask d c : Nat}

/-- The receiving die is the permitted one that advertises the most free slots, and the core the one of R334 there. -/
theorem of_receiver (h : s.receiver die ctx allot acct mask = some (d, c)) :
    let fits := fun e => e ≠ die ∧ e ∈ s.openDies ctx mask ∧ (∃ n pad, (s.die e).advert = some (n, pad) ∧ 0 < n ∧
      allot ≤ pad) ∧ (s.coreFor e ctx allot acct).isSome = true
    let free := fun e => (((s.die e).advert).map (·.1)).getD 0
    fits d ∧ s.coreFor d ctx allot acct = some c ∧ ∀ e, fits e → free e < free d ∨ (free e = free d ∧ d ≤ e) := by
  intro fits free
  obtain ⟨d', hd, hc⟩ := Option.bind_eq_some_iff.mp h
  obtain ⟨c', hc', hpair⟩ := Option.map_eq_some_iff.mp hc
  cases hpair
  obtain ⟨hmem, hbest⟩ := isBest_of_firstBest ((pairwise_openDies ..).filter _) hd
  have hfits (e : Nat) : e ∈ (s.openDies ctx mask).filter (fun d => d != die &&
      (match (s.die d).advert with
      | some (n, pad) => decide (0 < n) && decide (allot ≤ pad)
      | none => false) && (s.coreFor d ctx allot acct).isSome) ↔ fits e := by
    rw [List.mem_filter, Bool.and_eq_true, Bool.and_eq_true, bne_iff_ne]
    cases hadv : (s.die e).advert with
    | none => simp [fits, hadv]
    | some a =>
      obtain ⟨n, pad⟩ := a
      simp [fits, hadv]
      tauto
  exact ⟨(hfits d).mp hmem, hc', fun e he => hbest e ((hfits e).mpr he)⟩

theorem fits_of_receiver (h : s.receiver die ctx allot acct mask = some (d, c)) : s.fits c ctx allot acct = true := by
  obtain ⟨-, hc, -⟩ := of_receiver h
  obtain ⟨-, hfits, -⟩ := coreFor_eq_some_iff.mp hc
  exact hfits

end Receiver

/-! ## Teams that are not placed -/

/-- What is sent of a context's teams that are not placed is what R353 sends. -/
theorem offers_sendUnplaced (s : State) (die ctx n : Nat) : Offers s (s.sendUnplaced die ctx n) die ctx n := by
  induction n generalizing s with
  | zero => rfl
  | succ n ih =>
    rintro r rfl
    refine ⟨fun hnone => by rw [State.sendUnplaced, hnone], fun l c x hserve => ?_⟩
    have hgoes : (l.gather || !permits l.diemask die || (s.coreFor die ctx l.allot l.acct).isSome) = true ↔
        ¬ (l.gather = false ∧ permits l.diemask die = true ∧ s.coreFor die ctx l.allot l.acct = none) := by
      cases l.gather <;> cases permits l.diemask die <;> cases s.coreFor die ctx l.allot l.acct <;> simp
    dsimp only
    rw [State.sendUnplaced, hserve]
    dsimp only
    refine ⟨fun h => ?_, fun d q hg hdest => ⟨s.placeTeam ctx l q, places_placeTeam (fits_of_receiver hdest), ?_⟩⟩
    · rcases h with h | h
      · exact if_pos (hgoes.mpr h)
      · rw [h]
        exact ite_self s
    · rw [if_neg fun h => hgoes.mp h hg, hdest]
      dsimp only
      refine ⟨fun hr => if_pos hr, fun hr => ?_⟩
      rw [if_neg (by simp [hr])]
      exact ih _

theorem offersAll_foldl (die : Nat) (cs : List Nat) (s : State) :
    OffersAll s (cs.foldl (fun b c => b.sendUnplaced die c (b.unplaced c)) s) die cs := by
  induction cs generalizing s with
  | nil => rfl
  | cons c cs ih => exact ⟨_, offers_sendUnplaced .., ih _⟩

/-! ## Placed teams -/

/-- A core that holds no sealed buffer of a team. -/
def unsealed (uid : Nat) (k : Core) : Core := { k with bufs := k.bufs.filter fun b => b.2.team != uid }

/-- The time that is left of each deadline of a team's records. -/
def deadlinesLeft (now : Nat) (m : Team) : Tab Nat :=
  m.recs.filterMap fun r => if r.kind = 2 ∧ r.deadline ≠ 0 then some (r.id, r.deadline - now) else none

section Pack
variable (s : State) (die uid : Nat) (m : Team) (d c : Nat)

/-- A team on its way, with what it has taken where it will land. -/
def packed (s : State) (m : Team) (c : Nat) : Team :=
  { m with core := none, tslot := s.slotFor c, tiles := (s.tilesFree c m.ctx).take m.acct }

theorem packTeam_eq : s.packTeam die uid m d c = { s with
    teams := tabPut s.teams uid (packed s m c)
    cores := match m.core with
      | some q => (s.modCore q (unsealed uid)).cores
      | none => s.cores
    packs := s.packs ++ [⟨uid, d, c, deadlinesLeft (s.die die).gnomon.toNat m⟩] } := by
  rw [State.packTeam]
  cases m.core <;> rfl

theorem moves_packTeam (h : ((s.launchOf m).bind fun l => s.receiver die m.ctx m.allot m.acct l.diemask) =
    some (d, c)) : Moves s (s.packTeam die uid m d c) die uid m := by
  refine ⟨fun hnone => absurd (h.symm.trans hnone) nofun, fun d' c' h' => ?_⟩
  cases h.symm.trans h'
  refine ⟨⟨uid, d, c, deadlinesLeft (s.die die).gnomon.toNat m⟩, ?_, rfl, rfl, rfl, rfl, fun u => ?_, fun q => ?_⟩
  · rw [packTeam_eq]
  · rw [packTeam_eq]
    exact tabFind_tabPut ..
  · rw [packTeam_eq]
    cases m.core with
    | none => rfl
    | some k =>
      refine (core_setCore ..).trans ?_
      simp only [Option.some.injEq, eq_comm (a := k)]
      exact if_ctx_congr Iff.rfl (fun hq => by rw [hq]; rfl) fun _ => rfl

end Pack

/-- The teams of a list go one after another. -/
theorem movesAll_sendTeams (die : Nat) (ts : List (Nat × Team)) (s : State) :
    MovesAll s (s.sendTeams die ts) die ts := by
  induction ts generalizing s with
  | nil => rfl
  | cons x ts ih =>
    obtain ⟨uid, m⟩ := x
    cases h : (s.launchOf m).bind fun l => s.receiver die m.ctx m.allot m.acct l.diemask with
    | none =>
      refine ⟨s, ⟨fun _ => rfl, fun d c h' => absurd (h.symm.trans h') nofun⟩, ?_⟩
      rw [State.sendTeams, h]
      exact ih s
    | some dest =>
      obtain ⟨d, c⟩ := dest
      refine ⟨_, moves_packTeam s die uid m d c h, ?_⟩
      rw [State.sendTeams, h]
      exact ih _

end Sys2Proof.Proofs

/-! A die advertises and sends teams, and teams land (R43, R353). -/

namespace Sys2Proof.Proofs

open Sys2Proof.Machine Sys2Proof.Laws

/-! ## What a die advertises -/

/-- The largest of the values of a list's items that `p` admits, from a least value up. -/
theorem foldl_max_eq {p : Nat → Bool} {f : Nat → Nat} {l : List Nat} {a n : Nat} (ha : a ≤ n)
    (hle : ∀ c ∈ l, p c = true → f c ≤ n) (hn : a = n ∨ ∃ c ∈ l, p c = true ∧ f c = n) :
    l.foldl (fun m c => if p c then max m (f c) else m) a = n := by
  induction l generalizing a with
  | nil => simpa using hn
  | cons c l ih =>
    obtain ⟨hc, hl⟩ := List.forall_mem_cons.mp hle
    rw [List.foldl_cons]
    cases hp : p c with
    | false =>
      refine ih (by simpa using ha) hl ?_
      simpa [hp] using hn
    | true =>
      have hfc := hc hp
      refine ih (by simp; omega) hl ?_
      rcases hn with rfl | hn
      · exact .inl (by simp; omega)
      · obtain ⟨d, hd, hpd, hfd⟩ := hn
        rcases List.mem_cons.mp hd with rfl | hd
        · exact .inl (by simp; omega)
        · exact .inr ⟨d, hd, hpd, hfd⟩

section Advertise
variable {s : State} {die pad : Nat}

/-- A die that has advertised. -/
def advertised (s : State) (die pad : Nat) : State :=
  { s with dies := tabPut s.dies die { s.die die with
    advert := some (s.freeSlots die, pad), advertAt := (s.die die).gnomon.toNat / 9400 } }

/-- Does a team of a die wait for a core, or has one of a launch no room there? -/
def shortOn (s b : State) (die : Nat) : Bool :=
  (s.teams.any fun t => (t.2.core.any fun c => dieOf c == die) && s.waitsCore t.2) ||
    s.ctxs.any fun c => b.residOn c.1 die == .resident && c.2.launches.any fun l =>
      decide (l.placed < l.teams) && permits l.diemask die && (b.coreFor die c.1 l.allot l.acct).isNone

theorem shortOn_iff (s b : State) (die : Nat) : shortOn s b die = true ↔
    (∃ x ∈ s.teams, (x.2.core.any fun c => dieOf c == die) = true ∧ s.waitsCore x.2 = true) ∨
      ∃ c ∈ s.ctxs, b.residOn c.1 die = .resident ∧ ∃ l ∈ c.2.launches, l.placed < l.teams ∧
        permits l.diemask die = true ∧ b.coreFor die c.1 l.allot l.acct = none := by
  simp only [shortOn, Bool.or_eq_true, List.any_eq_true, Bool.and_eq_true, beq_iff_eq, decide_eq_true_eq,
    Option.isNone_iff_eq_none, and_assoc]

/-- Contexts that are resident on a die. -/
def hereOn (b : State) (die : Nat) : List Nat :=
  (b.ctxs.map (·.1)).filter fun c => b.residOn c die == .resident

/-- The state in which teams that are not placed have been sent. -/
def sentUnplaced (b : State) (die : Nat) : State :=
  (hereOn b die).foldl (fun b c => b.sendUnplaced die c (b.unplaced c)) b

theorem exec_migrationAdvertise_waits
    (h : (s.die die).gnomon.toNat / 9400 ≤ (s.die die).advertAt ∨ ∃ p ∈ s.packs, p.toDie = die) :
    exec (.migrationAdvertise die) s = .next s := by
  change execMigrationAdvertise die s = _
  rw [execMigrationAdvertise]
  refine if_pos (.inr (h.imp_right fun ⟨p, hp, hd⟩ => ?_))
  exact List.any_eq_true.mpr ⟨p, hp, by simp [hd]⟩

theorem exec_migrationAdvertise (hup : (s.die die).up = true)
    (hnow : (s.die die).advertAt < (s.die die).gnomon.toNat / 9400) (hpacks : ∀ p ∈ s.packs, p.toDie ≠ die)
    (hle : ∀ c ∈ dieCores die, s.coreUsable c = true → s.padFree c ≤ pad)
    (hpad : pad = 0 ∨ ∃ c ∈ dieCores die, s.coreUsable c = true ∧ s.padFree c = pad) :
    exec (.migrationAdvertise die) s =
      if shortOn s (advertised s die pad) die = true then
        .next ((sentUnplaced (advertised s die pad) die).sendTeams die
          ((sentUnplaced (advertised s die pad) die).moveOrder die))
      else .next (advertised s die pad) := by
  have hfold : (dieCores die).foldl (fun m c => if s.coreUsable c then max m (s.padFree c) else m) 0 = pad :=
    foldl_max_eq (Nat.zero_le _) hle (hpad.imp_left Eq.symm)
  change execMigrationAdvertise die s = _
  rw [execMigrationAdvertise]
  dsimp only
  rw [if_neg, hfold]
  · cases hshort : shortOn s (advertised s die pad) die with
    | false => exact if_pos (by rw [Bool.not_eq_true']; exact hshort)
    | true => exact if_neg (by rw [Bool.not_eq_true', ← Bool.not_eq_true]; exact not_not_intro hshort)
  · simpa [hup] using ⟨hnow, hpacks⟩

end Advertise

/-! ## A team lands -/

section Landing
variable {s : State} {uid core : Nat} {p : Pack} {m : Team}

/-- A team that has landed: its deadlines count from the GNOMON of the die. -/
def landedTeam (s : State) (core : Nat) (p : Pack) (m : Team) : Team :=
  { m with
    core := some core
    recs := m.recs.map fun r => match tabFind p.left r.id with
      | some n => { r with deadline := (s.die p.toDie).gnomon.toNat + n }
      | none => r }

/-- The state in which a team has landed, but for the headers of its records. -/
def landed (s : State) (uid core : Nat) (p : Pack) (m : Team) : State :=
  { s.setTeam uid (landedTeam s core p m) with packs := s.packs.filter fun q => q.team != uid }

theorem keyOn_landed (c x : Nat) : (landed s uid core p m).keyOn c x = s.keyOn c x := rfl

theorem exec_migrationLanding (hp : (s.packs.find? fun p => p.team == uid) = some p)
    (hm : tabFind s.teams uid = some m) : exec (.migrationLanding uid core) s =
      if p.toCore ≠ core then .next s
      else .next (p.left.foldl (fun b x => b.showRec uid x.1) (landed s uid core p m)) := by
  change execMigrationLanding uid core s = _
  rw [execMigrationLanding, hp, hm]
  rfl

theorem onlyMemory_foldl_showRec (l : Tab Nat) (s : State) (uid : Nat) :
    OnlyMemory s (l.foldl (fun b x => b.showRec uid x.1) s) := by
  induction l generalizing s with
  | nil => exact .refl s
  | cons x l ih => exact (onlyMemory_showRec s uid x.1).trans (ih _)

theorem shown_landed {q : Rec} (hq : q ∈ (landedTeam s core p m).recs) :
    Shown (landed s uid core p m) ((landed s uid core p m).showRec uid q.id) (s.keyOn core m.ctx)
      (landedTeam s core p m) q := by
  have hteam : tabFind (landed s uid core p m).teams uid = some (landedTeam s core p m) :=
    (tabFind_tabPut ..).trans (if_pos rfl)
  have h := shown_showRec hteam hq
  rwa [keyOn_landed] at h

end Landing

/-- Settles O53: ticks, windows and demotion by what becomes of a die's entries; the teams that go, one after
another; and the team that lands. -/
theorem fairness : Obligations.fairness := by
  unfold Obligations.fairness
  refine ⟨fun s die hup => ?_, fun s die pad hup => ⟨exec_migrationAdvertise_waits, fun hnow hpacks hle hpad => ?_⟩,
    pairwise_moveOrder, fun s die uid m h => ?_, fun s die ctx allot acct mask d c h => of_receiver h,
    fun s uid core p m hp hm => ⟨fun hne => ?_, fun heq => ?_⟩⟩
  · refine ⟨fun n hn hnow hwin => ⟨?_, fun w v hpend hw => ?_⟩, fun n hn hnow htick => ?_, fun n hn hlt => ?_,
      fun i f hf hvalid hspin => ⟨fun hno => ?_, fun hex => ?_⟩⟩
    · have h := becomes_tick s die n
      exact ⟨_, exec_fairnessTick hup hn hnow hwin, h.frame, h.other, h.self,
        fun e he => h.fair e fun ⟨w, hw, hlt, hwe⟩ => he w hw hlt hwe⟩
    · exact ⟨_, exec_fairnessTick hup hn hnow hwin, fair_tick_of_one n hpend hw⟩
    · have h := becomes_window s die n
      exact ⟨_, exec_fairnessWindow hup hn hnow htick, h.frame, h.other, h.self, fun e _ => h.fair e id⟩
    · have h := becomes_accrueTo s die n
      rw [Nat.max_eq_right hlt.le] at h
      exact ⟨_, by rw [exec_usedAccrual hup, ← hn], h.frame, h.other, h.self, fun e _ => h.fair e id⟩
    · rw [exec_spinDemotion hf hvalid hspin, if_neg]
      rintro ⟨x, hx, hle⟩
      exact absurd (hno x hx) (not_lt.mpr hle)
    · have h := becomes_demoted hf
      exact ⟨_, by rw [exec_spinDemotion hf hvalid hspin, if_pos hex], h.frame, h.other, h.self,
        fun e _ => h.fair e id⟩
  · have hexec := exec_migrationAdvertise hup hnow hpacks hle hpad
    refine ⟨fun hshort => ?_, fun hshort => ⟨sentUnplaced (advertised s die pad) die, _, ?_, offersAll_foldl ..,
      movesAll_sendTeams ..⟩⟩
    · exact hexec.trans (if_neg fun h => hshort ((shortOn_iff s (advertised s die pad) die).mp h))
    · exact hexec.trans (if_pos ((shortOn_iff s (advertised s die pad) die).mpr hshort))
  · obtain ⟨hcore, hmov⟩ := movable_of_mem_moveOrder h
    obtain ⟨htask, hdead, htiles, hready, hlaunch⟩ := of_movable hmov
    obtain ⟨c, hc, hdie⟩ := (Option.any_eq_true _ _).mp hcore
    exact ⟨⟨c, hc, by simpa using hdie⟩, htask, hdead, htiles, hready, hlaunch⟩
  · rw [exec_migrationLanding hp hm, if_pos hne]
  · refine ⟨landed s uid core p m, _, by rw [exec_migrationLanding hp hm, if_neg (not_not_intro heq)], rfl,
      fun u => tabFind_tabPut .., onlyMemory_foldl_showRec .., fun hl => ?_, fun i n hl q hq hid => ?_⟩
    · rw [hl]
      rfl
    · have hone : p.left.foldl (fun b x => b.showRec uid x.1) (landed s uid core p m) =
          (landed s uid core p m).showRec uid q.id := by
        rw [hl, hid]
        rfl
      rw [hone]
      exact shown_landed hq

end Sys2Proof.Proofs

/-! Control registers (R61, R76, R88 to R92, R177, R178). -/

namespace Sys2Proof.Proofs

open Sys2Proof.Machine Sys2Proof.Laws

/-! ## Instructions that change their team -/

theorem modTeam_of_find {s : State} {u : Nat} {m : Team} (h : tabFind s.teams u = some m) (g : Team → Team) :
    s.modTeam u g = s.setTeam u (g m) := by
  simp only [State.modTeam, h]

theorem modCore_modTeam (s : State) (u c : Nat) (g : Team → Team) (q : Core → Core) :
    (s.modTeam u g).modCore c q = (s.modCore c q).modTeam u g := by
  rw [modCore_def, core_modTeam]
  unfold State.modTeam
  simp only [modCore_def, setCore_teams]
  split <;> rfl

/-- What a team and its task become where the instruction has changed the team by `g`. -/
theorem onlyTeam_commit_modTeam {s : State} {e : Env} (he : s.issuer = some e) (g : Team → Team) (k : Task) :
    OnlyTeam s ((s.modTeam e.uid g).commit e k) e
      { g e.team with task := some { k with held := false, issued := s.ticks } } := by
  rw [modTeam_of_find (issuer_team he).1]
  have hteam : tabFind (s.setTeam e.uid (g e.team)).teams e.uid = some (g e.team) :=
    (tabFind_tabPut ..).trans (if_pos rfl)
  rw [State.commit, setTask_eq hteam]
  refine ⟨rfl, fun u => ?_⟩
  change tabFind (tabPut (tabPut s.teams e.uid (g e.team)) e.uid _) u = _
  rw [tabFind_tabPut, tabFind_tabPut]
  split_ifs <;> rfl

theorem commit_cores (s : State) (e : Env) (k : Task) : (s.commit e k).cores = s.cores := modTeam_cores ..

/-- The same where the instruction has changed its core first. -/
theorem onlyTeam_commit_modCore {s : State} {e : Env} (he : s.issuer = some e) (q : Core → Core) (g : Team → Team)
    (k : Task) :
    let t := ((s.modCore e.core q).modTeam e.uid g).commit e k
    OnlyTeam { s with cores := t.cores } t e
        { g e.team with task := some { k with held := false, issued := s.ticks } } ∧
      ∀ c, t.core c = if c = e.core then q (s.core c) else s.core c := by
  have hcores : (((s.modCore e.core q).modTeam e.uid g).commit e k).cores = (s.modCore e.core q).cores :=
    (commit_cores ..).trans (modTeam_cores ..)
  refine ⟨?_, fun c => ?_⟩
  · rw [hcores]
    exact onlyTeam_commit_modTeam (s := s.modCore e.core q) ((issuer_setCore ..).trans he) g k
  · rw [core_congr hcores, modCore_def, core_setCore]
    split_ifs with hc
    · rw [hc]
    · rfl

/-! ## RDCR -/

/-- Fields that do not overlap are joined as they are added. -/
theorem w64_add_mul (a b : Nat) {k : Nat} (ha : a < 2 ^ k) : w64 (a + b * 2 ^ k) = w64 a ||| w64 b <<< k := by
  refine BitVec.eq_of_getLsbD_eq fun i hi => ?_
  rw [Nat.mul_comm, Nat.add_comm, BitVec.getLsbD_or, BitVec.getLsbD_shiftLeft, BitVec.getLsbD_ofNat,
    BitVec.getLsbD_ofNat, BitVec.getLsbD_ofNat, Nat.testBit_two_pow_mul_add _ ha]
  by_cases hik : i < k
  · simp [hi, hik]
  · have hlow : a.testBit i = false :=
      Nat.testBit_lt_two_pow (ha.trans_le (Nat.pow_le_pow_right (by decide) (by omega)))
    simp [hi, hik, hlow]
    omega

theorem rdcr_computes {s : State} {e : Env} {f : FSW} (h : CanIssue s e f.st.toNat [] [.x f.xd]) :
    Computes (.rdcr f) s e f.xd (readControl s e f.imm.toNat) 8 := by
  refine ⟨_, _, ?_, onlyTask_commit h.1 _, wrote_setX _ _ _ _ _ _⟩
  change execRdcr f s = _
  rw [execRdcr, issue_ready h]

/-- R88 to R92: what each control register reads as, its reserved bits 0. -/
theorem readControl_fields (s : State) (e : Env) :
    let k := e.task
    let m := e.team
    readControl s e 0 = (k.rows.zeroExtend 64 ||| k.cols.zeroExtend 64 <<< 8 ||| k.wc.zeroExtend 64 <<< 24) ∧
    readControl s e 1 = (m.fpmode.zeroExtend 64 ||| (s.core e.core).lfsr.zeroExtend 64 <<< 32) ∧
    readControl s e 6 = (k.active.zeroExtend 64 ||| k.last.zeroExtend 64 <<< 8 ||| k.rs.zeroExtend 64 <<< 12 |||
      k.rrb.zeroExtend 64 <<< 16) := by
  have hrows : e.task.rows.toNat < 2 ^ 8 := e.task.rows.isLt.trans (by decide)
  have hcols := e.task.cols.isLt
  have hfpmode : e.team.fpmode.toNat < 2 ^ 32 := e.team.fpmode.isLt.trans (by decide)
  have hactive : e.task.active.toNat < 2 ^ 8 := e.task.active.isLt
  have hlast := e.task.last.isLt
  have hrs := e.task.rs.isLt
  simp only [readControl, BitVec.zeroExtend]
  refine ⟨?_, ?_, ?_⟩
  · rw [w64_add_mul (k := 24) _ _ (by omega), w64_add_mul _ _ hrows]
    simp only [BitVec.ofNat_toNat]
  · rw [w64_add_mul _ _ hfpmode]
    simp only [BitVec.ofNat_toNat]
  · rw [w64_add_mul (k := 16) _ _ (by omega), w64_add_mul (k := 12) _ _ (by omega), w64_add_mul _ _ hactive]
    simp only [BitVec.ofNat_toNat]

/-! ## WRCR -/

/-- The LFSR of a core after a write of FPMODE (R61). -/
def seeded (v : W64) (k : Core) : Core :=
  { k with lfsr := if v.extractLsb' 32 32 = 0 then 1 else v.extractLsb' 32 32 }

section Wrcr
variable {s : State} {e : Env} {f : FSW}

theorem shapeOk_iff (v : W64) : shapeOk v = true ↔ 1 ≤ v.toNat % 32 ∧ v.toNat % 32 ≤ 16 ∧
    1 ≤ v.toNat / 2 ^ 8 % 2 ^ 9 ∧ v.toNat / 2 ^ 8 % 2 ^ 9 ≤ 32 * 2 ^ (v.toNat / 2 ^ 24 % 4) := by
  simp [shapeOk, and_assoc]

theorem setShape_eq (k : Task) (v : W64) : k.setShape v = { k with
    rows := BitVec.ofNat 5 (v.toNat % 32), cols := BitVec.ofNat 9 (v.toNat / 2 ^ 8 % 2 ^ 9)
    wc := BitVec.ofNat 2 (v.toNat / 2 ^ 24 % 4) } := by
  have hfield (off n : Nat) : v.extractLsb' off n = BitVec.ofNat n (v.toNat / 2 ^ off % 2 ^ n) := by
    refine BitVec.eq_of_toNat_eq ?_
    rw [BitVec.extractLsb'_toNat, BitVec.toNat_ofNat, Nat.mod_mod, Nat.shiftRight_eq_div_pow]
  simp only [Task.setShape, hfield, Nat.pow_zero, Nat.div_one, Nat.reducePow]

variable (h : CanIssue s e f.st.toNat [.x f.xa f.fea] [])
include h

/-- R76: a legal VSHAPE is written. -/
theorem wrcr_shape (hf : f.imm = 0) (hok : shapeOk (e.task.getX f.xa) = true) :
    exec (.wrcr f) s = .next (s.commit e ((e.task.advance 8).setShape (e.task.getX f.xa))) := by
  change execWrcr f s = _
  rw [execWrcr, issue_ready h]
  simp [hf, hok]

/-- R76: one that is not raises SHAPE. -/
theorem wrcr_shape_faults (hf : f.imm = 0) (hbad : ¬ shapeOk (e.task.getX f.xa) = true) :
    Faults (.wrcr f) s e cShape 0 := by
  refine ⟨false, false, false, ?_⟩
  change execWrcr f s = _
  rw [execWrcr, issue_ready h]
  simp [hf, hbad, Act.raise]

/-- R89: RM, FTZ and SR are written, and SEED loads the LFSR. -/
theorem wrcr_fpmode (hf : f.imm = 1) : exec (.wrcr f) s =
    .next (((s.modCore e.core (seeded (e.task.getX f.xa))).modTeam e.uid fun m =>
      { m with fpmode := (e.task.getX f.xa).extractLsb' 0 4 }).commit e (e.task.advance 8)) := by
  change execWrcr f s = _
  rw [execWrcr, issue_ready h, ← modCore_modTeam, ← BitVec.setWidth_eq_extractLsb' (by decide)]
  simp only [hf]
  rfl

theorem wrcr_fpflags (hf : f.imm = 2) : exec (.wrcr f) s = .next ((s.modTeam e.uid fun m =>
    { m with fpflags := m.fpflags &&& ~~~ (e.task.getX f.xa).extractLsb' 0 5 }).commit e (e.task.advance 8)) := by
  change execWrcr f s = _
  rw [execWrcr, issue_ready h, ← BitVec.setWidth_eq_extractLsb' (by decide)]
  simp only [hf]
  rfl

theorem wrcr_mstat (hf : f.imm = 3) : exec (.wrcr f) s = .next ((s.modTeam e.uid fun m =>
    { m with sat := m.sat && !(e.task.getX f.xa).getLsbD 0 }).commit e (e.task.advance 8)) := by
  change execWrcr f s = _
  rw [execWrcr, issue_ready h]
  simp only [hf]
  rfl

theorem wrcr_semBase (hf : f.imm = 7) : exec (.wrcr f) s =
    .next (s.commit e { e.task.advance 8 with semBase := (e.task.getX f.xa).extractLsb' 0 8 }) := by
  change execWrcr f s = _
  rw [execWrcr, issue_ready h, ← BitVec.setWidth_eq_extractLsb' (by decide)]
  simp only [hf]
  rfl

end Wrcr

/-- Settles O9: RDCR by the value of each register; WRCR of VSHAPE and SEMBASE changes the task, the others its
team, and FPMODE the core's LFSR too. -/
theorem controlRegisters : Obligations.controlRegisters := by
  unfold Obligations.controlRegisters
  refine ⟨fun s e f h => ?_, fun s e f h => ?_⟩
  · have hread (v : W64) (hv : readControl s e f.imm.toNat = v) : Computes (.rdcr f) s e f.xd v 8 :=
      hv ▸ rdcr_computes h
    obtain ⟨hshape, hfpmode, hstage⟩ := readControl_fields s e
    refine ⟨fun hn => hread _ (hn ▸ hshape), fun hn => hread _ (hn ▸ hfpmode), fun hn => hread _ (hn ▸ ?_),
      fun hn => hread _ (hn ▸ rfl), fun hn => hread _ (hn ▸ rfl), fun hn => hread _ (hn ▸ rfl),
      fun hn => hread _ (hn ▸ hstage), fun hn => hread _ (hn ▸ rfl), fun hn => hread _ (hn ▸ rfl),
      fun hn => hread _ (hn ▸ rfl), fun hn => hread _ (hn ▸ rfl), fun hn => hread _ (hn ▸ rfl),
      fun j hj hn => hread _ ?_, fun hn => hread _ (hn ▸ rfl)⟩
    · exact (BitVec.ofNat_toNat 64 e.team.fpflags)
    · rw [hn]
      interval_cases j <;> rfl
  · dsimp only
    refine ⟨fun hf hok => ?_, fun hf hbad => wrcr_shape_faults h hf fun hok => hbad ((shapeOk_iff _).mp hok),
      fun hf => ?_, fun hf => ?_, fun hf => ?_, fun hf => ?_⟩
    · refine ⟨_, _, wrcr_shape h hf ((shapeOk_iff _).mpr hok), onlyTask_commit h.1 _, ?_⟩
      rw [setShape_eq]
      rfl
    · obtain ⟨hteam, hcore⟩ := onlyTeam_commit_modCore h.1 (seeded (e.task.getX f.xa))
        (fun m => { m with fpmode := (e.task.getX f.xa).extractLsb' 0 4 }) (e.task.advance 8)
      refine ⟨_, _, wrcr_fpmode h hf, ?_, hteam, hcore⟩
      rfl
    · refine ⟨_, _, wrcr_fpflags h hf, ?_, onlyTeam_commit_modTeam h.1 _ _⟩
      rfl
    · refine ⟨_, _, wrcr_mstat h hf, ?_, onlyTeam_commit_modTeam h.1 _ _⟩
      rfl
    · exact ⟨_, _, wrcr_semBase h hf, onlyTask_commit h.1 _, rfl⟩

end Sys2Proof.Proofs

/-! Tiles in the vector registers (R74, R75, R77, R82). -/

namespace Sys2Proof.Proofs

open Sys2Proof.Machine Sys2Proof.Laws

/-! ## Fields of a row -/

theorem getLsbD_rowPut (r : Row) (off w v : Nat) {b : Nat} (hb : b < 1024) :
    (rowPut r off w v).getLsbD b = if off ≤ b ∧ b < off + w then v.testBit (b - off) else r.getLsbD b := by
  simp only [rowPut, BitVec.getLsbD_or, BitVec.getLsbD_and, BitVec.getLsbD_not, BitVec.getLsbD_shiftLeft,
    BitVec.getLsbD_ofNat, Nat.testBit_two_pow_sub_one, Nat.testBit_mod_two_pow, hb, decide_true, Bool.true_and]
  by_cases hoff : b < off
  · simp [hoff, Nat.not_le.mpr hoff]
  · have hin : b - off < w ↔ b < off + w := by omega
    have hlt : b - off < 1024 := by omega
    simp only [hoff, hlt, hin]
    by_cases hw : b < off + w <;> simp [hw, Nat.le_of_not_lt hoff]

theorem testBit_rowGet (r : Row) (off w i : Nat) :
    (rowGet r off w).testBit i = (decide (i < w) && r.getLsbD (off + i)) := by
  rw [rowGet, BitVec.testBit_toNat, BitVec.getLsbD_extractLsb']

/-! ## Registers by their names -/

theorem phys_injective (t : Task) {m n : Nat} (hm : m < 32) (hn : n < 32) (h : t.phys m = t.phys n) : m = n := by
  have hrrb := t.rrb.isLt
  unfold Task.phys at h
  split_ifs at h <;> omega

theorem vrow_setVrow (t : Task) {n row m r : Nat} (q : Row) (hn : n < 32) (hm : m < 32) (hrow : row < 16)
    (hr : r < 16) : (t.setVrow n row q).vrow m r = if m = n ∧ r = row then q else t.vrow m r := by
  change tabGet 0 (tabSet 0 t.v (t.phys n * 16 + row) q) (t.phys m * 16 + r) = _
  rw [tabGet_tabSet]
  by_cases h : m = n ∧ r = row
  · obtain ⟨rfl, rfl⟩ := h
    simp
  · rw [if_neg h, if_neg]
    · rfl
    · intro hkey
      exact h ⟨phys_injective t hm hn (by omega), by omega⟩

/-! ## Cells -/

/-- A task whose vector registers alone have changed. -/
def OnlyV (t k : Task) : Prop := k = { t with v := k.v }

namespace OnlyV
variable {t k l : Task}

theorem refl (t : Task) : OnlyV t t := rfl

theorem trans (h : OnlyV t k) (h' : OnlyV k l) : OnlyV t l := by
  rw [OnlyV, h', h]

theorem rows (h : OnlyV t k) : k.rows = t.rows := by rw [h]

end OnlyV

theorem onlyV_putRC (t : Task) (w n row col v : Nat) : OnlyV t (t.putRC w n row col v) := rfl

theorem onlyV_putElems (t : Task) (w c n i : Nat) (vals : List (Option Nat)) : OnlyV t (t.putElems w c n i vals) := by
  induction vals generalizing t i with
  | nil => exact .refl t
  | cons x vals ih =>
    cases x with
    | none => exact ih ..
    | some v => exact (onlyV_putRC ..).trans (ih ..)

theorem eq_of_mul_add_eq {c x y x' y' : Nat} (hy : y < c) (hy' : y' < c) (h : x * c + y = x' * c + y') :
    x = x' ∧ y = y' := by
  have hx := congrArg (· / c) h
  have hm := congrArg (· % c) h
  simpa [Nat.mul_comm _ c, Nat.mul_add_div (Nat.zero_lt_of_lt hy), Nat.div_eq_of_lt, Nat.mod_eq_of_lt, hy, hy']
    using And.intro hx hm

/-- How a group of registers from `d` on is cut into cells of `w` bits: `c` to a row, `rows` rows to a register. -/
structure Grid where
  w : Nat
  c : Nat
  rows : Nat
  d : Nat

namespace Grid
variable (G : Grid)

/-- A grid that fits its registers. -/
def Fits : Prop := 0 < G.w ∧ 0 < G.c ∧ G.c * G.w ≤ 1024 ∧ 0 < G.rows ∧ G.rows ≤ 16

/-- Bit `b` of a row of register `r` lies in the grid. -/
abbrev Has (r row b : Nat) : Prop := G.d ≤ r ∧ row < G.rows ∧ b < G.c * G.w

/-- The cell of a row of register `r`. -/
def cell (r row col : Nat) : Nat := ((r - G.d) * G.rows + row) * G.c + col

/-- The register, the row and the column of a cell. -/
def reg (i : Nat) : Nat := G.d + i / (G.rows * G.c)
def row (i : Nat) : Nat := i % (G.rows * G.c) / G.c
def col (i : Nat) : Nat := i % G.c

variable {G}

theorem le_reg (i : Nat) : G.d ≤ G.reg i := Nat.le_add_right ..

theorem row_lt (hG : G.Fits) (i : Nat) : G.row i < G.rows := by
  obtain ⟨-, hc, -, hrows, -⟩ := hG
  exact Nat.div_lt_of_lt_mul ((Nat.mod_lt _ (Nat.mul_pos hrows hc)).trans_eq (Nat.mul_comm ..))

theorem col_lt (hG : G.Fits) (i : Nat) : G.col i < G.c := Nat.mod_lt _ hG.2.1

theorem cell_of (i : Nat) : G.cell (G.reg i) (G.row i) (G.col i) = i := by
  have hcol : i % G.c = i % (G.rows * G.c) % G.c := (Nat.mod_mul_left_mod ..).symm
  rw [cell, reg, row, col, Nat.add_sub_cancel_left, hcol, Nat.add_mul, Nat.add_assoc, Nat.div_add_mod',
    Nat.mul_assoc, Nat.div_add_mod']

/-- Cells with other coordinates are other cells. -/
theorem cell_injective {r row col r' row' col' : Nat} (hr : G.d ≤ r) (hr' : G.d ≤ r') (hrow : row < G.rows)
    (hrow' : row' < G.rows) (hcol : col < G.c) (hcol' : col' < G.c) (h : G.cell r row col = G.cell r' row' col') :
    r = r' ∧ row = row' ∧ col = col' := by
  obtain ⟨hline, hcol⟩ := eq_of_mul_add_eq hcol hcol' h
  obtain ⟨hreg, hrow⟩ := eq_of_mul_add_eq hrow hrow' hline
  exact ⟨by omega, hrow, hcol⟩

end Grid

/-! ## Cells written -/

/-- In the registers `P` the cells of the grid have been written as `val` says, one of them left where it is none,
and every other bit as it was. -/
def WroteCells (G : Grid) (P : Nat → Prop) (t k : Task) (val : Nat → Option Nat) : Prop :=
  ∀ r row b, r < 32 → P r → row < 16 → b < 1024 → (k.vrow r row).getLsbD b =
    if G.Has r row b then ((val (G.cell r row (b / G.w))).map fun v => v.testBit (b % G.w)).getD
      ((t.vrow r row).getLsbD b) else (t.vrow r row).getLsbD b

section Cells
variable {G : Grid} {P : Nat → Prop} {t k l : Task}

theorem wroteCells_refl : WroteCells G P t t fun _ => none := fun r row b _ _ _ _ => by
  split_ifs <;> rfl

theorem WroteCells.trans {val val' : Nat → Option Nat} (h : WroteCells G P t k val) (h' : WroteCells G P k l val') :
    WroteCells G P t l fun i => (val' i).or (val i) := by
  intro r row b hr hP hrow hb
  rw [h' r row b hr hP hrow hb, h r row b hr hP hrow hb]
  split_ifs
  · dsimp only
    cases val' (G.cell r row (b / G.w)) <;> rfl
  · rfl

theorem wroteCells_putRC (hG : G.Fits) {n row col : Nat} (hn : G.d ≤ n) (hn' : n < 32) (hrow : row < G.rows)
    (hcol : col < G.c) (v : Nat) : WroteCells G P t (t.putRC G.w n row col v) fun i =>
      if i = G.cell n row col then some v else none := by
  obtain ⟨hw, hc, hbits, hrows, hrows'⟩ := hG
  intro r row' b hr _ hrow' hb
  rw [Task.putRC, vrow_setVrow _ _ hn' hr (by omega) hrow']
  have hfield : col * G.w ≤ b ∧ b < col * G.w + G.w ↔ b / G.w = col := by
    rw [Nat.div_eq_iff hw]
    omega
  by_cases hat : r = n ∧ row' = row ∧ b / G.w = col
  · obtain ⟨rfl, rfl, rfl⟩ := hat
    have hlt : b < G.c * G.w := (Nat.div_lt_iff_lt_mul hw).mp hcol
    rw [if_pos ⟨rfl, rfl⟩, getLsbD_rowPut _ _ _ _ hb, if_pos (hfield.mpr rfl), if_pos ⟨hn, hrow, hlt⟩,
      ← Nat.mod_eq_sub_div_mul]
    dsimp only
    rw [if_pos rfl]
    rfl
  · have hkeep : (if r = n ∧ row' = row then rowPut (t.vrow n row) (col * G.w) G.w v else t.vrow r row').getLsbD b =
        (t.vrow r row').getLsbD b := by
      split_ifs with hrow
      · obtain ⟨rfl, rfl⟩ := hrow
        rw [getLsbD_rowPut _ _ _ _ hb, if_neg fun h => hat ⟨rfl, rfl, hfield.mp h⟩]
      · rfl
    rw [hkeep]
    split_ifs with hhas
    · obtain ⟨hd, hrow'', hlt⟩ := hhas
      dsimp only
      rw [if_neg fun hcell => hat
        (Grid.cell_injective hd hn hrow'' hrow ((Nat.div_lt_iff_lt_mul hw).mpr hlt) hcol hcell)]
      rfl
    · rfl

/-- A cell as it reads once it is written. -/
theorem WroteCells.cell {val : Nat → Option Nat} (h : WroteCells G P t k val) (hG : G.Fits) {i : Nat}
    (hreg : G.reg i < 32) (hP : P (G.reg i)) : k.elemRC G.w (G.reg i) (G.row i) (G.col i) =
      match val i with
      | some v => v % 2 ^ G.w
      | none => t.elemRC G.w (G.reg i) (G.row i) (G.col i) := by
  have hrow := Grid.row_lt hG i
  have hcol := Grid.col_lt hG i
  obtain ⟨hw, hc, hbits, hrows, hrows'⟩ := hG
  have hread : ∀ j, j < G.w → (k.vrow (G.reg i) (G.row i)).getLsbD (G.col i * G.w + j) =
      ((val i).map fun v => v.testBit j).getD ((t.vrow (G.reg i) (G.row i)).getLsbD (G.col i * G.w + j)) := by
    intro j hj
    have hlt : G.col i * G.w + j < G.c * G.w := by nlinarith
    have hdiv : (G.col i * G.w + j) / G.w = G.col i := by
      rw [Nat.mul_comm, Nat.mul_add_div hw, Nat.div_eq_of_lt hj, Nat.add_zero]
    have hmod : (G.col i * G.w + j) % G.w = j := by
      rw [Nat.mul_comm, Nat.mul_add_mod, Nat.mod_eq_of_lt hj]
    rw [h _ _ _ hreg hP (by omega) (by omega), if_pos ⟨Nat.le_add_right .., hrow, hlt⟩, hdiv, hmod, Grid.cell_of]
  refine Nat.eq_of_testBit_eq fun j => ?_
  rw [Task.elemRC, testBit_rowGet]
  by_cases hj : j < G.w
  · rw [hread j hj]
    cases val i with
    | none => simp [Task.elemRC, testBit_rowGet, hj]
    | some v => simp [Nat.testBit_mod_two_pow, hj]
  · cases val i with
    | none => simp [Task.elemRC, testBit_rowGet, hj]
    | some v => simp [Nat.testBit_mod_two_pow, hj]

end Cells

/-! ## Elements of a tile -/

/-- The grid of a group of registers from `d` on, with `c` elements of `w` bits in a row of the tile (R77). -/
def tileGrid (t : Task) (w c d : Nat) : Grid := ⟨w, c, t.rows.toNat, d⟩

theorem elem_eq (t k : Task) (w c d i : Nat) (h : k.rows = t.rows) : k.elem w c d i =
    k.elemRC w ((tileGrid t w c d).reg i) ((tileGrid t w c d).row i) ((tileGrid t w c d).col i) := by
  rw [Task.elem, h]
  rfl

/-- Values listed from element `i` on. -/
def listed (i : Nat) (vals : List (Option Nat)) (j : Nat) : Option Nat := if i ≤ j then (vals[j - i]?).join else none

theorem listed_cons (i : Nat) (x : Option Nat) (vals : List (Option Nat)) (j : Nat) :
    listed i (x :: vals) j = (listed (i + 1) vals j).or (if j = i then x else none) := by
  unfold listed
  rcases Nat.lt_trichotomy j i with h | rfl | h
  · simp [Nat.not_le.mpr h, h.ne, Nat.not_le.mpr (h.trans (Nat.lt_succ_self i))]
  · simp
  · obtain ⟨m, rfl⟩ := Nat.exists_eq_add_of_lt h
    have hm : i + m + 1 - (i + 1) = m := by omega
    have hm' : i + m + 1 - i = m + 1 := by omega
    simp [hm, hm', h.ne', h.le]

section Tiles
variable {t k : Task} {w c d n : Nat} {P : Nat → Prop}

theorem wroteCells_putElem (hG : (tileGrid t w c d).Fits) (hk : k.rows = t.rows) {i : Nat}
    (hi : (tileGrid t w c d).reg i < 32) (v : Nat) :
    WroteCells (tileGrid t w c d) P k (k.putElem w c d i v) fun j => if j = i then some v else none := by
  have h := wroteCells_putRC (P := P) (t := k) hG (Grid.le_reg i) hi (Grid.row_lt hG i) (Grid.col_lt hG i) v
  rw [Grid.cell_of] at h
  rw [Task.putElem, hk]
  exact h

/-- Elements written in turn: those of the list. -/
theorem wroteCells_putElems (hG : (tileGrid t w c d).Fits) (hk : k.rows = t.rows) (vals : List (Option Nat)) (i : Nat)
    (hi : ∀ j, j < i + vals.length → (tileGrid t w c d).reg j < 32) :
    WroteCells (tileGrid t w c d) P k (k.putElems w c d i vals) (listed i vals) := by
  induction vals generalizing k i with
  | nil =>
    have hnone : listed i [] = fun _ => none := by
      funext j
      simp [listed]
    rw [hnone]
    exact wroteCells_refl
  | cons x vals ih =>
    rw [List.length_cons] at hi
    have htail : ∀ j, j < i + 1 + vals.length → (tileGrid t w c d).reg j < 32 := fun j hj => hi j (by omega)
    have hlisted : listed i (x :: vals) = fun j => (listed (i + 1) vals j).or (if j = i then x else none) :=
      funext fun j => listed_cons ..
    rw [hlisted]
    cases x with
    | none =>
      simp only [ite_self, Option.or_none]
      exact ih hk (i + 1) htail
    | some v =>
      exact (wroteCells_putElem hG hk (hi i (by omega)) v).trans
        (ih (k := k.putElem w c d i v) hk (i + 1) htail)

/-- A bit outside the first `n` elements, beyond which nothing is written. -/
theorem WroteCells.outside {val : Nat → Option Nat} (h : WroteCells (tileGrid t w c d) P t k val)
    (hnone : ∀ j, n ≤ j → val j = none) {r row b : Nat} (hr : r < 32) (hP : P r) (hrow : row < 16) (hb : b < 1024)
    (hout : r < d ∨ t.rows.toNat ≤ row ∨ c * w ≤ b ∨ n ≤ ((r - d) * t.rows.toNat + row) * c + b / w) :
    (k.vrow r row).getLsbD b = (t.vrow r row).getLsbD b := by
  rw [h r row b hr hP hrow hb]
  split_ifs with hhas
  · obtain ⟨hd, hrow', hlt⟩ := hhas
    have hcell : n ≤ (tileGrid t w c d).cell r row (b / w) := by
      rcases hout with h | h | h | h
      · exact absurd hd (Nat.not_le.mpr h)
      · exact absurd hrow' (Nat.not_lt.mpr h)
      · exact absurd hlt (Nat.not_lt.mpr h)
      · exact h
    change ((val ((tileGrid t w c d).cell r row (b / w))).map _).getD _ = _
    rw [hnone _ hcell]
    rfl
  · rfl

/-- An element within the tile. -/
theorem WroteCells.elem {val : Nat → Option Nat} (h : WroteCells (tileGrid t w c d) P t k val)
    (hG : (tileGrid t w c d).Fits) (hk : k.rows = t.rows) {i : Nat} (hi : (tileGrid t w c d).reg i < 32)
    (hP : P ((tileGrid t w c d).reg i)) :
    k.elem w c d i = match val i with
      | some v => v % 2 ^ w
      | none => t.elem w c d i := by
  rw [elem_eq t k _ _ _ _ hk, elem_eq t t _ _ _ _ rfl]
  exact h.cell hG hi hP

/-- Cells written within the first `n` elements are a tile. -/
theorem tile_of_wroteCells (hG : (tileGrid t w c d).Fits) (hk : k.rows = t.rows) {val val' : Nat → Option Nat}
    (hn : ∀ j, j < n → (tileGrid t w c d).reg j < 32) (hval : ∀ j, j < n → val' j = val j)
    (hnone : ∀ j, n ≤ j → val' j = none) (h : WroteCells (tileGrid t w c d) (fun _ => True) t k val') :
    Tile t k w c d n val := by
  refine ⟨fun i hi => ?_, fun r row b hr hrow hb => h.outside hnone hr trivial hrow hb⟩
  rw [← hval i hi]
  exact h.elem hG hk (hn i hi) trivial

theorem tile_putElems (hG : (tileGrid t w c d).Fits) {vals : List (Option Nat)} (hlen : vals.length = n)
    (hn : ∀ j, j < n → (tileGrid t w c d).reg j < 32) {val : Nat → Option Nat}
    (hval : ∀ j, j < n → (vals[j]?).join = val j) : Tile t (t.putElems w c d 0 vals) w c d n val := by
  refine tile_of_wroteCells hG (onlyV_putElems ..).rows hn (val' := listed 0 vals) (fun j hj => ?_) (fun j hj => ?_)
    (wroteCells_putElems hG rfl vals 0 fun j hj => hn j (by omega))
  · simpa [listed] using hval j hj
  · have hnone : vals[j]? = none := List.getElem?_eq_none (hlen.trans_le hj)
    simp [listed, hnone]

end Tiles

/-! ## Shapes -/

theorem fmtWidth_cases (n : Nat) : fmtWidth n = 4 ∨ fmtWidth n = 8 ∨ fmtWidth n = 16 ∨ fmtWidth n = 32 := by
  unfold fmtWidth
  split <;> simp

theorem fmtWidth_pos (n : Nat) : 0 < fmtWidth n := by
  rcases fmtWidth_cases n with h | h | h | h <;> omega

section Shape
variable {t : Task} {w c : Nat}

/-- R75, R76: a legal tile has columns, within the row of a register. -/
theorem shapeBits_of_legal (h : t.Legal) : 0 < t.shapeBits ∧ t.shapeBits ≤ 1024 := by
  obtain ⟨-, -, hpos, hle⟩ := h
  have hwc : t.wc.toNat < 4 := t.wc.isLt
  unfold Task.shapeBits
  generalize t.wc.toNat = wc at hle hwc
  interval_cases wc <;> omega

theorem tileGrid_fits (h : t.Legal) (hw : 0 < w) (hc : t.shapeBits = c * w) (d : Nat) : (tileGrid t w c d).Fits := by
  obtain ⟨hpos, hle⟩ := shapeBits_of_legal h
  exact ⟨hw, Nat.pos_of_mul_pos_right (hc ▸ hpos), hc ▸ hle, h.1, h.2.1⟩

theorem perRow_of_mul (hw : 0 < w) (hc : t.shapeBits = c * w) : t.perRow w = some c := by
  rw [Task.perRow, hc, if_pos (Nat.mul_mod_left ..), Nat.mul_div_cancel _ hw]

theorem perRow_of_mod (h : t.shapeBits % w ≠ 0) : t.perRow w = none := if_neg h

theorem activeN_le (t : Task) (p n : Nat) : t.activeN p n ≤ n := by
  unfold Task.activeN
  split_ifs
  · exact le_rfl
  all_goals exact Nat.min_le_left ..

/-- The elements of a group lie in its registers. -/
theorem reg_lt_of_group {d g j : Nat} (hc : 0 < c) (hrows : 0 < t.rows.toNat) (h : d + g ≤ 32)
    (hj : j < g * t.rows.toNat * c) : (tileGrid t w c d).reg j < 32 := by
  have hlt : j / (t.rows.toNat * c) < g :=
    (Nat.div_lt_iff_lt_mul (Nat.mul_pos hrows hc)).mpr (Nat.mul_assoc .. ▸ hj)
  change d + j / (t.rows.toNat * c) < 32
  omega

end Shape

/-! ## Instructions over tiles -/

/-- What an instruction writes of an element: that of the list, or what inactive elements become (R79, R181). -/
theorem join_getElem?_framed (z : Bool) {l : List Nat} {n act : Nat} (hlen : l.length = act) {j : Nat} (hj : j < n) :
    ((l.map some ++ List.replicate (n - act) (if z then some 0 else none))[j]?).join =
      framed z act (fun j => l.getD j 0) j := by
  unfold framed
  rw [List.getElem?_append, List.length_map, hlen]
  split_ifs with hact
  · simp [hlen, hact]
  all_goals simp [(by omega : j - act < n - act)]

theorem length_framed (z : Bool) {l : List Nat} {n act : Nat} (hlen : l.length = act) (hact : act ≤ n) :
    (l.map some ++ List.replicate (n - act) (if z then some 0 else none)).length = n := by
  simp [hlen]
  omega

theorem vmoved_of_onlyV {t k : Task} (h : OnlyV t k) (n m : Nat) (b : Bool) :
    VMoved t { k.advance n with held := b, issued := m } n := by
  rw [VMoved, h]
  rfl

theorem tileOp_of_commit {s : State} {e : Env} {i : Instr} {w c d n : Nat} {val : Nat → Option Nat} {fl : Fl} {k : Task}
    (he : s.issuer = some e) (hexec : exec i s = .next ((s.addFlags e.uid fl).commit e (k.advance 8)))
    (hv : OnlyV e.task k) (ht : Tile e.task k w c d n val) : TileOp i s e w c d n val fl :=
  ⟨_, _, hexec, vmoved_of_onlyV hv .., ht, onlyTeam_commit_modTeam he _ _⟩

end Sys2Proof.Proofs

/-! Reductions and running sums of the rows of a tile (R71, R197, R198). -/

namespace Sys2Proof.Proofs

open Sys2Proof.Machine Sys2Proof.Laws

/-! ## Rows one after another -/

/-- Rows of which the first `act` elements of `m * c` are there, one after another. -/
theorem flatten_rows {α : Type} (d : α) (row : Nat → List α) (c act m : Nat)
    (hlen : ∀ r, r < m → (row r).length = min c (act - r * c)) : ((List.range m).map row).flatten =
      (List.range (min act (m * c))).map fun j => (row (j / c)).getD (j % c) d := by
  induction m with
  | zero => simp
  | succ m ih =>
    have hm := hlen m (Nat.lt_succ_self m)
    have hsum : min act ((m + 1) * c) = min act (m * c) + min c (act - m * c) := by
      rw [Nat.succ_mul]
      omega
    rw [List.range_succ, List.map_append, List.flatten_append, ih fun r hr => hlen r (by omega), hsum, List.range_add,
      List.map_append, List.map_map]
    congr 1
    rw [List.map_singleton, List.flatten_singleton]
    refine List.ext_getElem (by simp [hm]) fun k h1 h2 => ?_
    have hk : k < c ∧ m * c ≤ act := by omega
    have hdiv : (min act (m * c) + k) / c = m ∧ (min act (m * c) + k) % c = k := by
      rw [Nat.min_eq_right hk.2, Nat.mul_comm, Nat.mul_add_div (by omega), Nat.mul_add_mod, Nat.mod_eq_of_lt hk.1,
        Nat.div_eq_of_lt hk.1]
      exact ⟨rfl, rfl⟩
    simp [hdiv.1, hdiv.2, h1]

theorem length_scanFrom (add : Nat → Nat → Nat × Fl) (a : Nat) (xs : List Nat) :
    (scanFrom add a xs).1.length = xs.length := by
  induction xs generalizing a with
  | nil => rfl
  | cons x xs ih => simp [scanFrom, ih]

theorem length_scanRow (add : Nat → Nat → Nat × Fl) (xs : List Nat) : (scanRow add xs).1.length = xs.length := by
  cases xs with
  | nil => rfl
  | cons x xs => simp [scanRow, length_scanFrom]

/-! ## What the instructions write -/

section Exec
variable {s : State} {e : Env} {f : FV} {c : Nat}

/-- The rows of the group of VD. -/
def lines (f : FV) (t : Task) : Nat := f.g.toNat * t.rows.toNat

/-- What a reduction of each row to `r` writes to a row of the tile (R197). -/
def reducedRow (all : Bool) (c r : Nat) : List (Option Nat) :=
  if all then List.replicate c (some r) else some r :: List.replicate (c - 1) none

theorem length_reducedRow (all : Bool) {c : Nat} (hc : 0 < c) (r : Nat) : (reducedRow all c r).length = c := by
  unfold reducedRow
  split_ifs
  · simp
  · simp
    omega

theorem getD_reducedRow (all : Bool) {c j : Nat} (hj : j < c) (r : Nat) :
    (reducedRow all c r).getD j none = if all = true ∨ j = 0 then some r else none := by
  unfold reducedRow
  cases all <;> cases j <;> simp [hj]

/-- The active elements of row `r` of VA. -/
def rowOf (f : FV) (t : Task) (c r : Nat) : List Nat :=
  FV.rowElems f t c (t.activeN f.p.toNat (lines f t * c)) (r * c)

/-- What the rows of a scan come to: `xs` of each row, in the order of the rows. -/
def scanned (f : FV) (m : Team) (xs : List Nat) : List Nat × Fl :=
  if FV.isFp f then scanRow (FV.addCodes f m) (xs.map (FV.clean f m))
  else scanRow (fun a b => (lowInt (FV.w f) ((a : Int) + b), 0)) xs

theorem length_scanned (f : FV) (m : Team) (xs : List Nat) : (scanned f m xs).1.length = xs.length := by
  unfold scanned
  split_ifs
  · rw [length_scanRow, List.length_map]
  · exact length_scanRow ..

theorem length_rowOf (f : FV) (t : Task) (c r : Nat) :
    (rowOf f t c r).length = min c (t.activeN f.p.toNat (lines f t * c) - r * c) := by
  simp [rowOf, FV.rowElems]

/-- What VRSUM, VRMAX and VRMIN make of a row's elements (R70, R71). -/
def sumOf (f : FV) (m : Team) (xs : List Nat) : Nat × Fl :=
  if FV.isFp f then treeSum (FV.addCodes f m) (xs.map (FV.clean f m)) else (lowInt (FV.w f) (xs.map (FV.int f)).sum, 0)

def maxOf (f : FV) (m : Team) (xs : List Nat) : Nat × Fl :=
  (if FV.isFp f then ((FV.fmt f).encode .rne false ((xs.map (FV.val f m)).foldl FVal.max (.inf true))).1
    else lowInt (FV.w f) ((xs.map (FV.int f)).foldl max (intRange f.t.toNat f.u).1), 0)

def minOf (f : FV) (m : Team) (xs : List Nat) : Nat × Fl :=
  (if FV.isFp f then ((FV.fmt f).encode .rne false ((xs.map (FV.val f m)).foldl FVal.min (.inf false))).1
    else lowInt (FV.w f) ((xs.map (FV.int f)).foldl min (intRange f.t.toNat f.u).2), 0)

theorem exec_vrsum (f : FV) (s : State) : exec (.vrsum f) s = vecReduce f (sumOf f) s := rfl

theorem exec_vrmax (f : FV) (s : State) : exec (.vrmax f) s = vecReduce f (maxOf f) s := by
  change execVrmax f s = _
  unfold execVrmax
  congr 1
  funext m xs
  unfold maxOf
  split_ifs <;> rfl

theorem exec_vrmin (f : FV) (s : State) : exec (.vrmin f) s = vecReduce f (minOf f) s := by
  change execVrmin f s = _
  unfold execVrmin
  congr 1
  funext m xs
  unfold minOf
  split_ifs <;> rfl

variable (h : CanIssue s e f.st.toNat [FV.srcA f] [.v f.vd.toNat f.g.toNat])
  (hc : e.task.perRow (FV.w f) = some c) (hp : e.task.predFits f.p.toNat (FV.w f) = true)
include h hc hp

theorem exec_vecReduce (red : Team → List Nat → Nat × Fl) : vecReduce f red s =
    .next ((s.addFlags e.uid (flagsOf (lines f e.task) fun r => (red e.team (rowOf f e.task c r)).2)).commit e
      ((e.task.putElems (FV.w f) c f.vd.toNat 0 ((List.range (lines f e.task)).map fun r =>
        reducedRow (f.mod.getLsbD 0) c (red e.team (rowOf f e.task c r)).1).flatten).advance 8)) := by
  unfold vecReduce
  rw [issue_ready h]
  simp only [hc, hp, Bool.not_true, Bool.false_eq_true, if_false, List.foldl_map, List.map_map]
  rfl

theorem exec_vscan : exec (.vscan f) s =
    .next ((s.addFlags e.uid (flagsOf (lines f e.task) fun r => (scanned f e.team (rowOf f e.task c r)).2)).commit e
      ((e.task.putElems (FV.w f) c f.vd.toNat 0
        ((((List.range (lines f e.task)).map fun r => (scanned f e.team (rowOf f e.task c r)).1).flatten).map some ++
          List.replicate (lines f e.task * c - e.task.activeN f.p.toNat (lines f e.task * c))
            (if f.z then some 0 else none))).advance 8)) := by
  change execVscan f s = _
  unfold execVscan
  rw [issue_ready h]
  simp only [hc, hp, Bool.not_true, Bool.false_eq_true, if_false, List.foldl_map, List.map_map, List.map_flatten]
  rfl

end Exec

section Tiles
variable {s : State} {e : Env} {f : FV} {c : Nat} (hl : e.task.Legal) (hd : f.vd.toNat + f.g.toNat ≤ 32)
  (hs : e.task.shapeBits = c * FV.w f) (hp : e.task.predFits f.p.toNat (FV.w f) = true)
  (h : CanIssue s e f.st.toNat [FV.srcA f] [.v f.vd.toNat f.g.toNat])
include hl hd hs hp h

/-- R197: a reduction of each row to one value. -/
theorem tileOp_vecReduce {i : Instr} (red : Team → List Nat → Nat × Fl) (hi : exec i s = vecReduce f red s) :
    TileOp i s e (FV.w f) c f.vd.toNat (lines f e.task * c)
      (fun j => if f.mod.getLsbD 0 = true ∨ j % c = 0 then some (red e.team (rowOf f e.task c (j / c))).1 else none)
      (flagsOf (lines f e.task) fun r => (red e.team (rowOf f e.task c r)).2) := by
  have hw : 0 < FV.w f := fmtWidth_pos _
  have hG := tileGrid_fits hl hw hs f.vd.toNat
  have hc : 0 < c := hG.2.1
  have hn : ∀ j, j < lines f e.task * c → (tileGrid e.task (FV.w f) c f.vd.toNat).reg j < 32 :=
    fun j => reg_lt_of_group hc hG.2.2.2.1 hd
  have hrow := fun r => length_reducedRow (f.mod.getLsbD 0) hc (red e.team (rowOf f e.task c r)).1
  have hflat := flatten_rows none (fun r => reducedRow (f.mod.getLsbD 0) c (red e.team (rowOf f e.task c r)).1) c
    (lines f e.task * c) (lines f e.task) fun r hr => by
      have : (r + 1) * c ≤ lines f e.task * c := Nat.mul_le_mul_right c hr
      rw [Nat.succ_mul] at this
      rw [hrow]
      omega
  rw [Nat.min_self] at hflat
  refine tileOp_of_commit h.1 (hi.trans (exec_vecReduce h (perRow_of_mul hw hs) hp red)) (onlyV_putElems ..) ?_
  rw [hflat]
  refine tile_putElems hG (by simp) hn fun j hj => ?_
  rw [List.getElem?_map, List.getElem?_range hj]
  exact getD_reducedRow _ (Nat.mod_lt j hc) _

/-- R198: the running sums of each row. -/
theorem tileOp_vscan : TileOp (.vscan f) s e (FV.w f) c f.vd.toNat (lines f e.task * c)
    (framed f.z (e.task.activeN f.p.toNat (lines f e.task * c))
      fun j => (scanned f e.team (rowOf f e.task c (j / c))).1.getD (j % c) 0)
    (flagsOf (lines f e.task) fun r => (scanned f e.team (rowOf f e.task c r)).2) := by
  have hw : 0 < FV.w f := fmtWidth_pos _
  have hG := tileGrid_fits hl hw hs f.vd.toNat
  have hc : 0 < c := hG.2.1
  have hn : ∀ j, j < lines f e.task * c → (tileGrid e.task (FV.w f) c f.vd.toNat).reg j < 32 :=
    fun j => reg_lt_of_group hc hG.2.2.2.1 hd
  have hact := activeN_le e.task f.p.toNat (lines f e.task * c)
  have hflat := flatten_rows 0 (fun r => (scanned f e.team (rowOf f e.task c r)).1) c
    (e.task.activeN f.p.toNat (lines f e.task * c)) (lines f e.task) fun r _ => by
      rw [length_scanned, length_rowOf]
  rw [Nat.min_eq_left hact] at hflat
  refine tileOp_of_commit h.1 (exec_vscan h (perRow_of_mul hw hs) hp) (onlyV_putElems ..) ?_
  rw [hflat]
  refine tile_putElems hG (length_framed _ (by simp) hact) hn fun j hj => ?_
  rw [join_getElem?_framed _ (by simp) hj]
  unfold framed
  split_ifs with hj
  · simp [hj]
  all_goals rfl

end Tiles

/-- Settles O13: each row's elements are those of a list, which its reduction makes one value and its scan a list as
long; the rows stand in the tile one after another. -/
theorem vectorReduce : Obligations.vectorReduce := by
  unfold Obligations.vectorReduce
  intro s e f c hl hd hs hp h
  exact ⟨tileOp_vecReduce hl hd hs hp h _ (exec_vrsum f s), tileOp_vecReduce hl hd hs hp h _ (exec_vrmax f s),
    tileOp_vecReduce hl hd hs hp h _ (exec_vrmin f s), tileOp_vscan hl hd hs hp h⟩

end Sys2Proof.Proofs

/-! Conversions and quantisation of vectors (R54, R193 to R196). -/

namespace Sys2Proof.Proofs

open Sys2Proof.Machine Sys2Proof.Laws

/-! ## Groups of two widths -/

theorem fmtWidth_dvd_max (a b : Nat) : fmtWidth b ∣ max (fmtWidth a) (fmtWidth b) := by
  rcases fmtWidth_cases a with ha | ha | ha | ha <;> rcases fmtWidth_cases b with hb | hb | hb | hb <;>
    (rw [ha, hb]; decide)

theorem le_ceil_mul (x : Nat) {w : Nat} (hw : 0 < w) : x ≤ (x + w - 1) / w * w := by
  have hmod := Nat.mod_lt (x + w - 1) hw
  have hdiv := Nat.div_add_mod' (x + w - 1) w
  omega

section Widths
variable {a b S cw : Nat} (hS : S = cw * max (fmtWidth a) (fmtWidth b))
include hS

theorem width_dvd_shape : S = S / fmtWidth b * fmtWidth b :=
  (Nat.div_mul_cancel (hS ▸ (fmtWidth_dvd_max a b).mul_left cw)).symm

/-- R193: the registers of an operand hold its elements. -/
theorem mul_le_convRegs (g : Nat) : g * cw ≤ convRegs g (fmtWidth b) (fmtWidth a) * (S / fmtWidth b) := by
  obtain ⟨m, hm⟩ := fmtWidth_dvd_max a b
  have hb := fmtWidth_pos b
  have hcd : S / fmtWidth b = cw * m := by
    rw [hS, hm, ← Nat.mul_assoc, Nat.mul_right_comm, Nat.mul_div_cancel _ hb]
  have hg : g ≤ convRegs g (fmtWidth b) (fmtWidth a) * m := by
    unfold convRegs narrowRegs
    split_ifs with hlt
    · have hmax : fmtWidth a = fmtWidth b * m := by rw [← hm, Nat.max_eq_left hlt.le]
      have hceil := le_ceil_mul (g * fmtWidth b) (fmtWidth_pos a)
      refine Nat.le_of_mul_le_mul_right (hceil.trans_eq ?_) hb
      conv_lhs => rw [hmax]
      conv_rhs => rw [hmax]
      rw [Nat.mul_assoc, Nat.mul_comm m]
    · have hmax : fmtWidth b * 1 = fmtWidth b * m := by rw [← hm, Nat.max_eq_right (Nat.le_of_not_lt hlt), Nat.mul_one]
      rw [← Nat.eq_of_mul_eq_mul_left hb hmax, Nat.mul_one]
  calc g * cw ≤ convRegs g (fmtWidth b) (fmtWidth a) * m * cw := Nat.mul_le_mul_right cw hg
    _ = convRegs g (fmtWidth b) (fmtWidth a) * (S / fmtWidth b) := by rw [hcd, Nat.mul_assoc, Nat.mul_comm m]

end Widths

/-- A shape that the wider format does not divide, or a predicate of another width (R79, R184). -/
theorem predFits_of_bad {t : Task} {p w w' c : Nat} (h : t.shapeBits % w ≠ 0 ∨ t.predFits p w' = false)
    (hc : t.perRow w = some c) : t.predFits p w' = false := by
  refine h.resolve_left fun hw => ?_
  rw [perRow_of_mod hw] at hc
  cases hc

/-- An instruction over tiles that refuses every shape it is given (R184). -/
theorem shape_refused {t : Task} {w : Nat} {bad : Nat → Bool} {rest : Nat → Act}
    (h : ∀ c, t.perRow w = some c → bad c = true) :
    (match t.perRow w with
      | none => shapeFault
      | some c => if bad c then shapeFault else rest c) = shapeFault := by
  cases hc : t.perRow w with
  | none => rfl
  | some c => exact if_pos (h c hc)

/-- The values and flags of an instruction's elements. -/
theorem frameVals_eq (z : Bool) {n act : Nat} (h : act ≤ n) (op : Nat → Nat × Fl) : frameVals z n act op =
    (((List.range act).map fun j => (op j).1).map some ++ List.replicate (n - act) (if z then some 0 else none),
      flagsOf act fun j => (op j).2) := by
  simp only [frameVals, Nat.min_eq_right h, List.map_map, List.foldl_map]
  rfl

theorem frameVals_snd (z : Bool) {n act : Nat} (h : act ≤ n) (op : Nat → Nat × Fl) :
    (frameVals z n act op).2 = flagsOf act fun j => (op j).2 := by
  rw [frameVals_eq z h]

/-- VCVT of element `j`, rounded as its draw says (R194). -/
def vcvtOp (f : FV) (m : Team) (t : Task) (rnds : List Rnd) (j : Nat) : Nat × Fl :=
  encodeTo f.t.toNat f.u (rnds.getD j .rne) m.ftz
    (widen (FV.from f) false m.ftz 0x7F
      (t.elem (fmtWidth (FV.from f)) (t.shapeBits / fmtWidth (FV.from f)) f.va.toNat j))

/-- VDQT of element `j`, scaled by its block's byte (R196). -/
def vdqtOp (f : FV) (m : Team) (t : Task) (j : Nat) : Nat × Fl :=
  encodeTo f.t.toNat false m.rnd m.ftz
    (widen (FV.from f) true m.ftz (t.scaleByte f.vc.toNat (j / 32))
      (t.elem (fmtWidth (FV.from f)) (t.shapeBits / fmtWidth (FV.from f)) f.va.toNat j))

section Convert
variable {s : State} {e : Env} {f : FV} {cw : Nat}

/-- R193: the elements of a conversion are within its destination's group. -/
theorem convN_le_group (hs : e.task.shapeBits = cw * max (fmtWidth (FV.from f)) (FV.w f)) :
    FV.convN f e.task cw ≤ convRegs f.g.toNat (FV.w f) (fmtWidth (FV.from f)) *
      (e.task.rows.toNat * (e.task.shapeBits / FV.w f)) := by
  have hle := Nat.mul_le_mul_left e.task.rows.toNat (mul_le_convRegs hs f.g.toNat)
  calc f.g.toNat * e.task.rows.toNat * cw
    _ = e.task.rows.toNat * (f.g.toNat * cw) := by rw [Nat.mul_comm f.g.toNat, Nat.mul_assoc]
    _ ≤ _ := hle
    _ = _ := by rw [Nat.mul_left_comm]; rfl

/-- A legal tile whose shape the wider format divides. -/
theorem conv_fits (hl : e.task.Legal) (hs : e.task.shapeBits = cw * max (fmtWidth (FV.from f)) (FV.w f)) :
    (tileGrid e.task (FV.w f) (e.task.shapeBits / FV.w f) f.vd.toNat).Fits :=
  tileGrid_fits hl (fmtWidth_pos _) (width_dvd_shape hs) f.vd.toNat

theorem conv_reg_lt_group (hl : e.task.Legal) (hs : e.task.shapeBits = cw * max (fmtWidth (FV.from f)) (FV.w f))
    {j : Nat} (hj : j < FV.convN f e.task cw) :
    (tileGrid e.task (FV.w f) (e.task.shapeBits / FV.w f) f.vd.toNat).reg j <
      f.vd.toNat + convRegs f.g.toNat (FV.w f) (fmtWidth (FV.from f)) := by
  have hG := conv_fits hl hs
  exact Nat.add_lt_add_left ((Nat.div_lt_iff_lt_mul (Nat.mul_pos hG.2.2.2.1 hG.2.1)).mpr
    (hj.trans_le (convN_le_group hs))) _

/-- The elements of a destination within the registers. -/
theorem conv_reg_lt (hl : e.task.Legal) (hd : f.vd.toNat + convRegs f.g.toNat (FV.w f) (fmtWidth (FV.from f)) ≤ 32)
    (hs : e.task.shapeBits = cw * max (fmtWidth (FV.from f)) (FV.w f)) {j : Nat}
    (hj : j < FV.convN f e.task cw) :
    (tileGrid e.task (FV.w f) (e.task.shapeBits / FV.w f) f.vd.toNat).reg j < 32 :=
  (conv_reg_lt_group hl hs hj).trans_le hd

theorem perRow_max (hs : e.task.shapeBits = cw * max (fmtWidth (FV.from f)) (FV.w f)) :
    e.task.perRow (max (fmtWidth (FV.from f)) (FV.w f)) = some cw :=
  perRow_of_mul ((fmtWidth_pos _).trans_le (Nat.le_max_left ..)) hs

/-! ## VCVT and VDQT -/

/-- What VCVT and VDQT list as written is their tile. -/
theorem tile_frameVals (hl : e.task.Legal)
    (hd : f.vd.toNat + convRegs f.g.toNat (FV.w f) (fmtWidth (FV.from f)) ≤ 32)
    (hs : e.task.shapeBits = cw * max (fmtWidth (FV.from f)) (FV.w f)) (op : Nat → Nat × Fl) :
    Tile e.task (e.task.putElems (FV.w f) (e.task.shapeBits / FV.w f) f.vd.toNat 0
        (frameVals f.z (FV.convN f e.task cw) (e.task.activeN f.p.toNat (FV.convN f e.task cw)) op).1)
      (FV.w f) (e.task.shapeBits / FV.w f) f.vd.toNat (FV.convN f e.task cw)
      (framed f.z (e.task.activeN f.p.toNat (FV.convN f e.task cw)) fun j => (op j).1) := by
  have hact := activeN_le e.task f.p.toNat (FV.convN f e.task cw)
  rw [frameVals_eq _ hact]
  refine tile_putElems (conv_fits hl hs) (length_framed _ (by simp) hact) (fun j => conv_reg_lt hl hd hs) fun j hj => ?_
  rw [join_getElem?_framed _ (by simp) hj]
  unfold framed
  split_ifs with hj
  · simp [hj]
  all_goals rfl

section Vcvt
variable (h : CanIssue s e f.st.toNat [.v f.va.toNat (convRegs f.g.toNat (fmtWidth (FV.from f)) (FV.w f)) f.fea]
  [.v f.vd.toNat (convRegs f.g.toNat (FV.w f) (fmtWidth (FV.from f)))])
include h

theorem vcvt_faults (hbad : e.task.shapeBits % max (fmtWidth (FV.from f)) (FV.w f) ≠ 0 ∨
    e.task.predFits f.p.toNat (FV.w f) = false) : Faults (.vcvt f) s e cShape 0 := by
  refine faults_of_body (by change execVcvt f s = _; unfold execVcvt convIssue; rfl) h ?_
  refine shape_refused fun c hc => ?_
  rw [predFits_of_bad hbad hc]
  rfl

theorem exec_vcvt (hs : e.task.shapeBits = cw * max (fmtWidth (FV.from f)) (FV.w f))
    (hp : e.task.predFits f.p.toNat (FV.w f) = true) :
    let n := FV.convN f e.task cw
    let rs := roundings (e.team.sr && !widens (FV.from f) f.t.toNat f.u) e.team.rnd n (s.core e.core).lfsr
    let act := e.task.activeN f.p.toNat n
    let op := vcvtOp f e.team e.task rs.1
    exec (.vcvt f) s = .next
      (((s.modCore e.core fun k => { k with lfsr := rs.2 }).addFlags e.uid (flagsOf act fun j => (op j).2)).commit e
        ((e.task.putElems (FV.w f) (e.task.shapeBits / FV.w f) f.vd.toNat 0
          (frameVals f.z n act op).1).advance 8)) := by
  intro n rs act op
  rw [← frameVals_snd f.z (activeN_le ..) op]
  change execVcvt f s = _
  unfold execVcvt convIssue
  rw [issue_ready h]
  simp only [perRow_max hs, hp, Bool.not_true, Bool.false_eq_true, if_false]
  rfl

end Vcvt

section Vdqt
variable (h : CanIssue s e f.st.toNat [.v f.va.toNat (convRegs f.g.toNat (fmtWidth (FV.from f)) (FV.w f)) f.fea,
  .v f.vc.toNat 1 f.fec] [.v f.vd.toNat (convRegs f.g.toNat (FV.w f) (fmtWidth (FV.from f)))])
include h

theorem vdqt_faults (hbad : e.task.shapeBits % max (fmtWidth (FV.from f)) (FV.w f) ≠ 0 ∨
    e.task.predFits f.p.toNat (FV.w f) = false) : Faults (.vdqt f) s e cShape 0 := by
  refine faults_of_body (by change execVdqt f s = _; unfold execVdqt convIssue; rfl) h ?_
  refine shape_refused fun c hc => ?_
  rw [predFits_of_bad hbad hc]
  rfl

theorem vdqt_faults_of_blocks (hs : e.task.shapeBits = cw * max (fmtWidth (FV.from f)) (FV.w f))
    (hbad : e.task.shapeBits / fmtWidth (FV.from f) % 32 ≠ 0 ∨ FV.convN f e.task cw % 32 ≠ 0) :
    Faults (.vdqt f) s e cShape 0 := by
  refine faults_of_body (by change execVdqt f s = _; unfold execVdqt convIssue; rfl) h ?_
  refine shape_refused fun c hc => ?_
  obtain rfl : cw = c := Option.some.inj ((perRow_max hs).symm.trans hc)
  simpa [or_assoc] using Or.inr hbad

theorem exec_vdqt (hs : e.task.shapeBits = cw * max (fmtWidth (FV.from f)) (FV.w f))
    (hp : e.task.predFits f.p.toNat (FV.w f) = true) (hrow : e.task.shapeBits / fmtWidth (FV.from f) % 32 = 0)
    (hn : FV.convN f e.task cw % 32 = 0) :
    let n := FV.convN f e.task cw
    let act := e.task.activeN f.p.toNat n
    let op := vdqtOp f e.team e.task
    exec (.vdqt f) s = .next ((s.addFlags e.uid (flagsOf act fun j => (op j).2)).commit e
      ((e.task.putElems (FV.w f) (e.task.shapeBits / FV.w f) f.vd.toNat 0 (frameVals f.z n act op).1).advance 8)) := by
  intro n act op
  rw [← frameVals_snd f.z (activeN_le ..) op]
  change execVdqt f s = _
  unfold execVdqt convIssue
  rw [issue_ready h]
  simp only [perRow_max hs, hp, hrow, hn, Bool.not_true, Bool.false_eq_true, if_false, bne_self_eq_false, Bool.or_self]
  rfl

end Vdqt

end Convert

end Sys2Proof.Proofs

/-! Quantisation in blocks (R54, R195). -/

namespace Sys2Proof.Proofs

open Sys2Proof.Machine Sys2Proof.Laws

/-! ## Flags of elements in turn -/

theorem foldl_flags (l : List Nat) (fl : Nat → Fl) (a : Fl) :
    l.foldl (fun a i => a ||| fl i) a = a ||| l.foldl (fun a i => a ||| fl i) 0 := by
  induction l generalizing a with
  | nil => simp
  | cons i l ih =>
    rw [List.foldl_cons, List.foldl_cons, ih, ih (0 ||| fl i)]
    simp [BitVec.or_assoc]

theorem flagsOf_add (a b : Nat) (fl : Nat → Fl) :
    flagsOf (a + b) fl = flagsOf a fl ||| flagsOf b fun j => fl (a + j) := by
  simp only [flagsOf]
  rw [List.range_add, List.foldl_append, List.foldl_map, foldl_flags]

/-- Beyond its list a value is none. -/
theorem listed_none {i : Nat} {vals : List (Option Nat)} {j : Nat} (h : i + vals.length ≤ j) :
    listed i vals j = none := by
  have hnone : vals[j - i]? = none := List.getElem?_eq_none (by omega)
  simp [listed, hnone]

/-! ## Rows left alone -/

section Rows
variable {G : Grid} {P : Nat → Prop} {t k l : Task}

/-- Registers whose rows are as they were. -/
theorem wroteCells_of_rows (h : ∀ r row, r < 32 → P r → row < 16 → k.vrow r row = t.vrow r row) :
    WroteCells G P t k fun _ => none := fun r row b hr hP hrow _ => by
  rw [h r row hr hP hrow]
  split_ifs <;> rfl

theorem vrow_putRC_of_ne {w n row col v r m : Nat} (hn : n < 32) (hrow : row < 16) (hr : r < 32) (hm : m < 16)
    (h : r ≠ n) : (t.putRC w n row col v).vrow r m = t.vrow r m := by
  rw [Task.putRC, vrow_setVrow _ _ hn hr hrow hm, if_neg fun hc => h hc.1]

/-- A register that none of the first `n` elements lies in, where nothing is written beyond them. -/
theorem WroteCells.keeps_apart {w c d n g v : Nat} {val : Nat → Option Nat}
    (h : WroteCells (tileGrid t w c d) (· = v) k l val) (hk : k.rows = t.rows) (hnone : ∀ j, n ≤ j → val j = none)
    (hn : n ≤ g * (t.rows.toNat * c)) (hapart : v < d ∨ d + g ≤ v) :
    WroteCells G (· = v) k l fun _ => none := by
  have hgrid : tileGrid t w c d = tileGrid k w c d := by rw [tileGrid, ← hk, tileGrid]
  rw [hgrid] at h
  rw [← hk] at hn
  refine wroteCells_of_rows fun r row hr heq hrow => BitVec.eq_of_getLsbD_eq fun b hb =>
    h.outside hnone hr heq hrow hb ?_
  subst heq
  rcases hapart with hlt | hge
  · exact .inl hlt
  · have hle : g * (k.rows.toNat * c) ≤ ((r - d) * k.rows.toNat + row) * c := by
      rw [← Nat.mul_assoc]
      exact Nat.mul_le_mul_right c ((Nat.mul_le_mul_right _ (by omega)).trans (Nat.le_add_right ..))
    exact .inr (.inr (.inr (hn.trans (hle.trans (Nat.le_add_right ..)))))

end Rows

/-- Bytes of a register, 128 to a row (R195). -/
def byteGrid (d : Nat) : Grid := ⟨8, 128, 16, d⟩

theorem byteGrid_fits (d : Nat) : (byteGrid d).Fits := by
  simp [Grid.Fits, byteGrid]

theorem byteGrid_of_lt {d b : Nat} (h : b < 2048) : (byteGrid d).reg b = d ∧ (byteGrid d).row b = b / 128 := by
  simp only [byteGrid, Grid.reg, Grid.row]
  omega

/-! ## One block -/

section Block
variable (f : FV) (t : Task) (ftz : Bool) (rnds : List Rnd) (act : Nat)

/-- VA's element `j` as a value. -/
def srcVal (j : Nat) : FVal :=
  widen (FV.from f) false ftz 0x7F
    (t.elem (fmtWidth (FV.from f)) (t.shapeBits / fmtWidth (FV.from f)) f.va.toNat j)

/-- The scale of a block: that of its active elements. -/
def scaleOf (b : Nat) : Option Int :=
  blockScale f.t.toNat ((List.range (min 32 (act - 32 * b))).map fun j => srcVal f t ftz (32 * b + j))

/-- Element `j` quantised by its block's scale. -/
def quantOf (j : Nat) : Nat × Fl :=
  quantElem f.t.toNat (scaleOf f t ftz act (j / 32)) (rnds.getD j .rne) ftz (srcVal f t ftz j)

theorem quantBlock_none {b : Nat} (h : act ≤ 32 * b) : quantBlock f t ftz rnds act b = none := by
  have hn : min 32 (act - 32 * b) = 0 := by omega
  unfold quantBlock
  simp only [hn]
  rfl

theorem quantBlock_some {b : Nat} (h : 32 * b < act) : quantBlock f t ftz rnds act b =
    some (scaleCode (scaleOf f t ftz act b),
      (List.range (min 32 (act - 32 * b))).map fun j => (quantOf f t ftz rnds act (32 * b + j)).1,
      flagsOf (min 32 (act - 32 * b)) fun j => (quantOf f t ftz rnds act (32 * b + j)).2) := by
  have hn : min 32 (act - 32 * b) ≠ 0 := by omega
  have hquants : ((((List.range (min 32 (act - 32 * b))).map fun j => srcVal f t ftz (32 * b + j)).zipIdx).map
        fun p => quantElem f.t.toNat (scaleOf f t ftz act b) (rnds.getD (32 * b + p.2) .rne) ftz p.1) =
      (List.range (min 32 (act - 32 * b))).map fun j => quantOf f t ftz rnds act (32 * b + j) := by
    refine List.ext_getElem (by simp) fun j hj _ => ?_
    have hj' : j < 32 := by
      simp at hj
      omega
    have hblock : (32 * b + j) / 32 = b := by omega
    simp [quantOf, hblock]
  unfold quantBlock
  simp only [if_neg hn]
  refine (congrArg (fun l => some (scaleCode (scaleOf f t ftz act b), l.map (·.1),
    l.foldl (fun fl q => fl ||| q.2) 0)) hquants).trans ?_
  simp only [List.map_map, List.foldl_map]
  rfl

/-- VQNT's block `b`: its scale byte in VC, its quantised elements in VD, and its flags. -/
def quantStep (r : Task × Fl) (b : Nat) : Task × Fl :=
  match quantBlock f t ftz rnds act b with
  | none => r
  | some (code, qs, fl) =>
    ((r.1.putRC 8 f.vc.toNat (b / 128) (b % 128) code).putElems (FV.w f) (t.shapeBits / FV.w f) f.vd.toNat (32 * b)
      (qs.map some), r.2 ||| fl)

/-- The first `m` blocks. -/
def quantized (m : Nat) : Task × Fl := (List.range m).foldl (quantStep f t ftz rnds act) (t, 0)

theorem quantized_succ (m : Nat) :
    quantized f t ftz rnds act (m + 1) = quantStep f t ftz rnds act (quantized f t ftz rnds act m) m := by
  rw [quantized, List.range_succ, List.foldl_append]
  rfl

/-- What the first `m` blocks write of VD's elements. -/
def quantVal (m j : Nat) : Option Nat :=
  if j < min act (32 * m) then some (quantOf f t ftz rnds act j).1 else none

/-- What they write of VC's bytes. -/
def codeVal (m b : Nat) : Option Nat :=
  if b < m ∧ 32 * b < act then some (scaleCode (scaleOf f t ftz act b)) else none

/-- What the first `m` blocks have done. -/
structure Quantized (m : Nat) (r : Task × Fl) : Prop where
  only : OnlyV t r.1
  flags : r.2 = flagsOf (min act (32 * m)) fun j => (quantOf f t ftz rnds act j).2
  elems : WroteCells (tileGrid t (FV.w f) (t.shapeBits / FV.w f) f.vd.toNat) (· ≠ f.vc.toNat) t r.1
    (quantVal f t ftz rnds act m)
  codes : f.vc.toNat < f.vd.toNat ∨ f.vd.toNat + convRegs f.g.toNat (FV.w f) (fmtWidth (FV.from f)) ≤ f.vc.toNat →
    WroteCells (byteGrid f.vc.toNat) (· = f.vc.toNat) t r.1 (codeVal f t ftz act m)

end Block

section Blocks
variable {f : FV} {t : Task} {ftz : Bool} {rnds : List Rnd} {act n m : Nat} {r : Task × Fl}

theorem quantized_zero : Quantized f t ftz rnds act 0 (t, 0) where
  only := .refl t
  flags := by simp [flagsOf]
  elems := by
    have hval : quantVal f t ftz rnds act 0 = fun _ => none := by
      funext j
      simp [quantVal]
    rw [hval]
    exact wroteCells_refl
  codes _ := by
    have hval : codeVal f t ftz act 0 = fun _ => none := by
      funext b
      simp [codeVal]
    rw [hval]
    exact wroteCells_refl

/-- A block with no active element leaves all as it is. -/
theorem Quantized.succ_idle (h : Quantized f t ftz rnds act m r) (hm : act ≤ 32 * m) :
    Quantized f t ftz rnds act (m + 1) r := by
  have hmin : min act (32 * (m + 1)) = min act (32 * m) := by omega
  have helems : quantVal f t ftz rnds act (m + 1) = quantVal f t ftz rnds act m := by
    funext j
    rw [quantVal, quantVal, hmin]
  have hcodes : codeVal f t ftz act (m + 1) = codeVal f t ftz act m := by
    funext b
    have hiff : b < m + 1 ∧ 32 * b < act ↔ b < m ∧ 32 * b < act := by omega
    simp only [codeVal, hiff]
  exact ⟨h.only, hmin ▸ h.flags, helems ▸ h.elems, hcodes ▸ h.codes⟩

theorem quantVal_succ (hm : 32 * m < act) : quantVal f t ftz rnds act (m + 1) = fun j =>
    (listed (32 * m) (((List.range (min 32 (act - 32 * m))).map fun j =>
      (quantOf f t ftz rnds act (32 * m + j)).1).map some) j).or (quantVal f t ftz rnds act m j) := by
  funext j
  unfold quantVal listed
  by_cases hlow : j < 32 * m
  · simp [Nat.not_le.mpr hlow, hlow, hlow.trans hm, (by omega : j < 32 * (m + 1))]
  · obtain ⟨i, rfl⟩ := Nat.exists_eq_add_of_le (Nat.le_of_not_lt hlow)
    have hiff : 32 * m + i < min act (32 * (m + 1)) ↔ i < min 32 (act - 32 * m) := by omega
    by_cases hi : i < min 32 (act - 32 * m)
    · simp only [hiff, if_pos hi]
      simp [hi]
    · simp only [hiff, if_neg hi]
      simp [hi]

theorem codeVal_succ (hm : 32 * m < act) : codeVal f t ftz act (m + 1) = fun b =>
    (if b = m then some (scaleCode (scaleOf f t ftz act m)) else none).or (codeVal f t ftz act m b) := by
  funext b
  unfold codeVal
  rcases Nat.lt_trichotomy b m with h | rfl | h
  · simp [h.ne, h, h.trans (Nat.lt_succ_self m)]
  · simp [hm]
  · simp [h.ne', Nat.not_lt.mpr h.le, Nat.not_lt.mpr (Nat.succ_le_of_lt h)]

section Written
variable (hG : (tileGrid t (FV.w f) (t.shapeBits / FV.w f) f.vd.toNat).Fits)
  (hreg : ∀ j, j < n → (tileGrid t (FV.w f) (t.shapeBits / FV.w f) f.vd.toNat).reg j < 32)
  (hgroup : n ≤ convRegs f.g.toNat (FV.w f) (fmtWidth (FV.from f)) * (t.rows.toNat * (t.shapeBits / FV.w f)))
  (hact : act ≤ n)
include hG hreg hgroup hact

/-- A block with an active element writes its byte and its elements. -/
theorem Quantized.succ_active (h : Quantized f t ftz rnds act m r) (hm : 32 * m < act) (hbytes : m < 2048) :
    Quantized f t ftz rnds act (m + 1) (quantStep f t ftz rnds act r m) := by
  obtain ⟨honly, hflags, helems, hcodes⟩ := h
  have hvc : f.vc.toNat < 32 := f.vc.isLt
  have hlen : 32 * m + min 32 (act - 32 * m) = min act (32 * (m + 1)) := by omega
  have hlist : 32 * m + (((List.range (min 32 (act - 32 * m))).map fun j =>
      (quantOf f t ftz rnds act (32 * m + j)).1).map some).length ≤ n := by
    simp
    omega
  rw [quantStep, quantBlock_some f t ftz rnds act hm]
  dsimp only
  have hbyte := onlyV_putRC r.1 8 f.vc.toNat (m / 128) (m % 128) (scaleCode (scaleOf f t ftz act m))
  have hcells := fun P => wroteCells_putElems (P := P) hG (honly.trans hbyte).rows
    (((List.range (min 32 (act - 32 * m))).map fun j => (quantOf f t ftz rnds act (32 * m + j)).1).map some)
    (32 * m) fun j hj => hreg j (hj.trans_le hlist)
  refine ⟨(honly.trans hbyte).trans (onlyV_putElems ..), ?_, ?_, fun hapart => ?_⟩
  · rw [hflags, ← hlen, Nat.min_eq_right hm.le, flagsOf_add]
  · have hkeep : WroteCells (tileGrid t (FV.w f) (t.shapeBits / FV.w f) f.vd.toNat) (· ≠ f.vc.toNat) r.1
        (r.1.putRC 8 f.vc.toNat (m / 128) (m % 128) (scaleCode (scaleOf f t ftz act m))) fun _ => none :=
      wroteCells_of_rows fun v row hv hne hrow => vrow_putRC_of_ne hvc (by omega) hv hrow hne
    have hall := (helems.trans hkeep).trans (hcells _)
    rw [quantVal_succ hm]
    exact hall
  · have hbyte' := wroteCells_putRC (P := (· = f.vc.toNat)) (t := r.1) (byteGrid_fits f.vc.toNat)
      (Nat.le_refl f.vc.toNat) hvc (row := m / 128) (by simp [byteGrid]; omega) (col := m % 128)
      (Nat.mod_lt _ (by decide)) (scaleCode (scaleOf f t ftz act m))
    have hcell : (byteGrid f.vc.toNat).cell f.vc.toNat (m / 128) (m % 128) = m := by
      simp only [byteGrid, Grid.cell]
      omega
    rw [hcell] at hbyte'
    have hkeep := WroteCells.keeps_apart (G := byteGrid f.vc.toNat) (hcells _) (honly.trans hbyte).rows
      (fun j hj => listed_none (hlist.trans hj)) hgroup hapart
    rw [codeVal_succ hm]
    exact ((hcodes hapart).trans hbyte').trans hkeep

theorem quantized_of_le (hbytes : m ≤ 2048) : Quantized f t ftz rnds act m (quantized f t ftz rnds act m) := by
  induction m with
  | zero => exact quantized_zero
  | succ m ih =>
    have h := ih (by omega)
    rw [quantized_succ]
    by_cases hm : act ≤ 32 * m
    · rw [quantStep, quantBlock_none f t ftz rnds act hm]
      exact h.succ_idle hm
    · exact h.succ_active hG hreg hgroup hact (by omega) (by omega)

/-- VD and VC once the elements that are not active have been written too: the tile, the scale bytes and the rest. -/
theorem quantized_tail (hbytes : n / 32 ≤ 2048) (hn : n % 32 = 0) :
    let k := (quantized f t ftz rnds act (n / 32)).1.putElems (FV.w f) (t.shapeBits / FV.w f) f.vd.toNat act
      (List.replicate (n - act) (if f.z then some 0 else none))
    let apart := f.vc.toNat < f.vd.toNat ∨
      f.vd.toNat + convRegs f.g.toNat (FV.w f) (fmtWidth (FV.from f)) ≤ f.vc.toNat
    OnlyV t k ∧
      WroteCells (tileGrid t (FV.w f) (t.shapeBits / FV.w f) f.vd.toNat) (· ≠ f.vc.toNat) t k (fun j =>
        if j < n then framed f.z act (fun j => (quantOf f t ftz rnds act j).1) j else none) ∧
      (apart → WroteCells (byteGrid f.vc.toNat) (· = f.vc.toNat) t k (codeVal f t ftz act (n / 32))) ∧
      (quantized f t ftz rnds act (n / 32)).2 = flagsOf act fun j => (quantOf f t ftz rnds act j).2 := by
  intro k apart
  have hblocks : 32 * (n / 32) = n := Nat.mul_div_cancel' (Nat.dvd_of_mod_eq_zero hn)
  obtain ⟨honly, hflags, helems, hcodes⟩ := quantized_of_le hG hreg hgroup hact (rnds := rnds) (ftz := ftz) hbytes
  have hlist : act + (List.replicate (n - act) (if f.z then some 0 else none)).length = n := by
    simp
    omega
  have hcells := fun P => wroteCells_putElems (P := P) hG honly.rows
    (List.replicate (n - act) (if f.z then some 0 else none)) act fun j hj => hreg j (hj.trans_eq hlist)
  refine ⟨honly.trans (onlyV_putElems ..), ?_, fun hapart => ?_, ?_⟩
  · have hval : (fun j => if j < n then framed f.z act (fun j => (quantOf f t ftz rnds act j).1) j else none) =
        fun j => (listed act (List.replicate (n - act) (if f.z then some 0 else none)) j).or
          (quantVal f t ftz rnds act (n / 32) j) := by
      funext j
      rw [quantVal, hblocks, Nat.min_eq_left hact]
      unfold framed
      by_cases hj : j < act
      · simp [hj, hj.trans_le hact, listed, Nat.not_le.mpr hj]
      · by_cases hn : j < n
        · simp [hj, hn, listed, Nat.le_of_not_lt hj, (by omega : j - act < n - act)]
        · simp [hj, hn, listed_none (hlist.trans_le (Nat.le_of_not_lt hn))]
    rw [hval]
    exact helems.trans (hcells _)
  · exact (hcodes hapart).trans (WroteCells.keeps_apart (hcells _) honly.rows
      (fun j hj => listed_none (hlist.trans_le hj)) hgroup hapart)
  · rw [hflags, hblocks, Nat.min_eq_left hact]

end Written

end Blocks

/-! ## VQNT -/

theorem ne_of_apart {r d g v : Nat} (hle : d ≤ r) (hlt : r < d + g) (hapart : v < d ∨ d + g ≤ v) : r ≠ v := by
  omega

section Vqnt
variable {s : State} {e : Env} {f : FV} {cw : Nat}

/-- R79, R193: a conversion has fewer blocks than a register has bytes. -/
theorem convN_lt (hl : e.task.Legal) (hs : e.task.shapeBits = cw * max (fmtWidth (FV.from f)) (FV.w f)) :
    FV.convN f e.task cw / 32 ≤ 2048 := by
  have hw : 4 ≤ max (fmtWidth (FV.from f)) (FV.w f) := by
    rcases fmtWidth_cases (FV.from f) with hw | hw | hw | hw <;> omega
  have hcw : cw * 4 ≤ 1024 := (Nat.mul_le_mul_left cw hw).trans (hs ▸ (shapeBits_of_legal hl).2)
  have hg : f.g.toNat < 8 := f.g.isLt
  have hn : FV.convN f e.task cw ≤ 7 * 16 * 256 :=
    Nat.mul_le_mul (Nat.mul_le_mul (by omega) hl.2.1) (by omega)
  omega

variable (h : CanIssue s e f.st.toNat [.v f.va.toNat (convRegs f.g.toNat (fmtWidth (FV.from f)) (FV.w f)) f.fea]
  [.v f.vd.toNat (convRegs f.g.toNat (FV.w f) (fmtWidth (FV.from f))), .v f.vc.toNat 1])
include h

theorem vqnt_faults (hbad : e.task.shapeBits % max (fmtWidth (FV.from f)) (FV.w f) ≠ 0 ∨
    e.task.predFits f.p.toNat (FV.w f) = false) : Faults (.vqnt f) s e cShape 0 := by
  refine faults_of_body (by change execVqnt f s = _; unfold execVqnt convIssue; rfl) h ?_
  refine shape_refused fun c hc => ?_
  rw [predFits_of_bad hbad hc]
  rfl

theorem vqnt_faults_of_blocks (hs : e.task.shapeBits = cw * max (fmtWidth (FV.from f)) (FV.w f))
    (hbad : e.task.shapeBits / FV.w f % 32 ≠ 0 ∨ FV.convN f e.task cw % 32 ≠ 0) :
    Faults (.vqnt f) s e cShape 0 := by
  refine faults_of_body (by change execVqnt f s = _; unfold execVqnt convIssue; rfl) h ?_
  refine shape_refused fun c hc => ?_
  obtain rfl : cw = c := Option.some.inj ((perRow_max hs).symm.trans hc)
  simpa [or_assoc] using Or.inr hbad

theorem exec_vqnt (hs : e.task.shapeBits = cw * max (fmtWidth (FV.from f)) (FV.w f))
    (hp : e.task.predFits f.p.toNat (FV.w f) = true) (hrow : e.task.shapeBits / FV.w f % 32 = 0)
    (hn : FV.convN f e.task cw % 32 = 0) {fl : Fl} :
    let n := FV.convN f e.task cw
    let act := e.task.activeN f.p.toNat n
    let rs := roundings e.team.sr e.team.rnd n (s.core e.core).lfsr
    let r := quantized f e.task e.team.ftz rs.1 act (n / 32)
    r.2 = fl → exec (.vqnt f) s =
      .next (((s.modCore e.core fun k => { k with lfsr := rs.2 }).addFlags e.uid fl).commit e
      ((r.1.putElems (FV.w f) (e.task.shapeBits / FV.w f) f.vd.toNat act
        (List.replicate (n - act) (if f.z then some 0 else none))).advance 8)) := by
  intro n act rs r hfl
  subst hfl
  change execVqnt f s = _
  unfold execVqnt convIssue
  rw [issue_ready h]
  simp only [perRow_max hs, hp, hrow, hn, Bool.not_true, Bool.false_eq_true, if_false, bne_self_eq_false, Bool.or_self,
    List.foldl_map]
  rfl

/-- R54, R195: what VQNT leaves. -/
theorem vqnt_result (hl : e.task.Legal)
    (hd : f.vd.toNat + convRegs f.g.toNat (FV.w f) (fmtWidth (FV.from f)) ≤ 32)
    (hs : e.task.shapeBits = cw * max (fmtWidth (FV.from f)) (FV.w f))
    (hp : e.task.predFits f.p.toNat (FV.w f) = true) (hrow : e.task.shapeBits / FV.w f % 32 = 0)
    (hn : FV.convN f e.task cw % 32 = 0) :
    let k := e.task
    let w := FV.w f
    let c := k.shapeBits / w
    let d := f.vd.toNat
    let vc := f.vc.toNat
    let n := FV.convN f k cw
    let act := k.activeN f.p.toNat n
    let rs := roundings e.team.sr e.team.rnd n (s.core e.core).lfsr
    let q := quantOf f k e.team.ftz rs.1 act
    let apart := vc < d ∨ d + convRegs f.g.toNat w (fmtWidth (FV.from f)) ≤ vc
    ∃ t k', exec (.vqnt f) s = .next t ∧ VMoved k k' 8 ∧
      OnlyTeam { s with cores := t.cores } t e { e.team with
        task := some k', fpflags := e.team.fpflags ||| flagsOf act fun j => (q j).2 } ∧
      (∀ c, t.core c = if c = e.core then { s.core c with lfsr := rs.2 } else s.core c) ∧
      (apart → ∀ j, j < n → k'.elem w c d j = match framed f.z act (fun j => (q j).1) j with
        | some v => v % 2 ^ w
        | none => k.elem w c d j) ∧
      (apart → ∀ b, b < 2048 → k'.elemRC 8 vc (b / 128) (b % 128) =
        if 32 * b < act then scaleCode (scaleOf f k e.team.ftz act b) % 256
        else k.elemRC 8 vc (b / 128) (b % 128)) ∧
      ∀ r row b, r < 32 → row < 16 → b < 1024 → r ≠ vc →
        (r < d ∨ k.rows.toNat ≤ row ∨ c * w ≤ b ∨ n ≤ ((r - d) * k.rows.toNat + row) * c + b / w) →
        (k'.vrow r row).getLsbD b = (k.vrow r row).getLsbD b := by
  intro k w c d vc n act rs q apart
  have hG := conv_fits hl hs
  have hact : act ≤ n := activeN_le ..
  obtain ⟨honly, helems, hcodes, hflags⟩ := quantized_tail (n := n) (ftz := e.team.ftz) (rnds := rs.1) hG
    (fun j => conv_reg_lt hl hd hs) (convN_le_group hs) hact (convN_lt hl hs) hn
  obtain ⟨hteam, hcore⟩ := onlyTeam_commit_modCore h.1 (fun k => { k with lfsr := rs.2 }) _ _
  refine ⟨_, _, exec_vqnt h hs hp hrow hn hflags, vmoved_of_onlyV honly .., hteam, hcore, fun hapart j hj => ?_,
    fun hapart b hb => ?_, fun r row b hr hrow hb hne hout => ?_⟩
  · have hreg := conv_reg_lt_group hl hs hj
    have hne := ne_of_apart (Grid.le_reg j) hreg hapart
    have hread := helems.elem hG honly.rows (conv_reg_lt hl hd hs hj) hne
    rw [if_pos hj] at hread
    exact hread
  · obtain ⟨hbreg, hbrow⟩ := byteGrid_of_lt (d := vc) hb
    have hread := (hcodes hapart).cell (byteGrid_fits vc) (i := b) (hbreg.trans_lt f.vc.isLt) hbreg
    have hcol : (byteGrid vc).col b = b % 128 := rfl
    rw [hbreg, hbrow, hcol] at hread
    have hiff : b < n / 32 ∧ 32 * b < act ↔ 32 * b < act := by
      change n % 32 = 0 at hn
      omega
    simp only [codeVal, hiff] at hread
    refine hread.trans ?_
    split_ifs <;> rfl
  · exact helems.outside (fun j hj => if_neg (Nat.not_lt.mpr hj)) hr hne hrow hb hout

end Vqnt

/-- Settles O12: VCVT and VDQT write their list of elements to the tile of VD; VQNT writes one block after another,
so that after `m` blocks the elements below `32 * m` and the first `m` scale bytes are written and nothing else. -/
theorem vectorConvert : Obligations.vectorConvert := by
  unfold Obligations.vectorConvert
  refine ⟨fun s e f cw hl => ⟨fun hbad => ⟨fun h => vcvt_faults h hbad, fun h => vdqt_faults h hbad⟩,
      fun hs hbad h => vdqt_faults_of_blocks h hs hbad, fun hd hs hp h => ?_, fun hd hs hp h hrow hn => ?_⟩,
    fun s e f cw hl h => ⟨fun hbad => vqnt_faults h hbad, fun hs hbad => vqnt_faults_of_blocks h hs hbad,
      fun hd hs hp hrow hn => ?_⟩⟩
  · obtain ⟨hteam, hcore⟩ := onlyTeam_commit_modCore h.1 _ _ _
    exact ⟨_, _, exec_vcvt h hs hp, vmoved_of_onlyV (onlyV_putElems ..) .., tile_frameVals hl hd hs _, hteam, hcore⟩
  · exact tileOp_of_commit h.1 (exec_vdqt h hs hp hrow hn) (onlyV_putElems ..) (tile_frameVals hl hd hs _)
  · exact vqnt_result h hl hd hs hp hrow hn

end Sys2Proof.Proofs

/-! What the engines change: TLBs (R355), one core, one team and the names of commands. -/

namespace Sys2Proof.Proofs

open Sys2Proof.Machine Sys2Proof.Laws

/-! ## TLBs filled -/

section Tlbs
variable {s b z : State}

theorem tlbsOnly_refl (s : State) : TlbsOnly s s := ⟨rfl, fun _ => rfl, fun _ => rfl⟩

theorem tlbsOnly_trans (h : TlbsOnly s b) (h' : TlbsOnly b z) : TlbsOnly s z := by
  obtain ⟨hb, hcores, hclusters⟩ := h
  obtain ⟨hz, hcores', hclusters'⟩ := h'
  refine ⟨hz.trans (by rw [hb]), fun c => ?_, fun c => ?_⟩
  · rw [hcores', hcores]
  · rw [hclusters', hclusters]

theorem tlbsOnly_teams (h : TlbsOnly s b) : b.teams = s.teams := by rw [h.1]

theorem tlbsOnly_sections (h : TlbsOnly s b) : b.sections = s.sections := by rw [h.1]

theorem tlbsOnly_openCmds (h : TlbsOnly s b) : b.openCmds = s.openCmds := by rw [h.1]

theorem tlbsOnly_acc (h : TlbsOnly s b) (c : Nat) : (b.core c).acc = (s.core c).acc := by rw [h.2.1]

theorem tlbsOnly_bufs (h : TlbsOnly s b) (c : Nat) : (b.core c).bufs = (s.core c).bufs := by rw [h.2.1]

theorem tlbsOnly_cmds (h : TlbsOnly s b) (c : Nat) : (b.core c).cmds = (s.core c).cmds := by rw [h.2.1]

theorem tlbsOnly_stores (h : TlbsOnly s b) (c : Nat) : (b.core c).stores = (s.core c).stores := by rw [h.2.1]

theorem tlbsOnly_accRow (h : TlbsOnly s b) (c : Cmd) (r : Nat) : b.accRow c r = s.accRow c r := by
  rw [State.accRow, tlbsOnly_acc h, State.accRow]

theorem tlbsOnly_tileThere (h : TlbsOnly s b) (c : Cmd) (n : Nat) (d : BufDesc) :
    b.tileThere c n d = s.tileThere c n d := by
  simp only [State.tileThere, State.measOf, tlbsOnly_bufs h, tlbsOnly_sections h]

end Tlbs

theorem tlbsOnly_fillTlbs (s : State) (w : Who) (va : Nat) (leaf : BitVec 64) (big : Bool) :
    TlbsOnly s (s.fillTlbs w va leaf big) := by
  refine ⟨rfl, fun c => ?_, fun c => ?_⟩
  · rw [State.fillTlbs, modCluster_def, core_setCluster, modCore_def, core_setCore]
    by_cases hc : c = w.core
    · rw [if_pos hc, hc]
    · rw [if_neg hc]
  · rw [State.fillTlbs, modCluster_def, cluster_setCluster, modCore_def, cluster_setCore]
    by_cases hc : c = clusterOf w.core
    · rw [if_pos hc, hc]
    · rw [if_neg hc, cluster_setCore]

theorem tlbsOnly_fillMiss (s : State) (w : Who) (p : Path) (write : Bool) (va : Nat) :
    TlbsOnly s (s.fillMiss w p write va) := by
  unfold State.fillMiss
  split
  · exact tlbsOnly_refl s
  · split
    · exact tlbsOnly_refl s
    · exact tlbsOnly_fillTlbs ..

theorem tlbsOnly_fillUnits (s : State) (w : Who) (p : Path) (write : Bool) (us : List (Nat × Nat)) :
    TlbsOnly s (s.fillUnits w p write us) := by
  unfold State.fillUnits
  generalize pagesOf us = pages
  induction pages generalizing s with
  | nil => exact tlbsOnly_refl s
  | cons page pages ih => exact tlbsOnly_trans (tlbsOnly_fillMiss ..) (ih _)

theorem tlbsOnly_fillLoad (s : State) (c : Cmd) (d : BufDesc) : TlbsOnly s (s.fillLoad c d) := tlbsOnly_fillUnits ..

/-! ## The core, the team and the names that a command's step changes -/

/-- `t` is the state `s` but for the core and the team of the command `c`, and for open commands and requests. -/
structure EngineOnly (c : Cmd) (s t : State) : Prop where
  state : t = { s with
    cores := t.cores, teams := t.teams, openCmds := t.openCmds, reqs := t.reqs, nextId := t.nextId }
  cores : ∀ q, q ≠ c.core → t.core q = s.core q
  teams : ∀ u, u ≠ c.team → tabFind t.teams u = tabFind s.teams u

/-- The same, with no command begun or ended and no request made. -/
structure StepOnly (c : Cmd) (s t : State) : Prop where
  state : t = { s with cores := t.cores, teams := t.teams, nextId := t.nextId }
  cores : ∀ q, q ≠ c.core → t.core q = s.core q
  teams : ∀ u, u ≠ c.team → tabFind t.teams u = tabFind s.teams u

section Only
variable {c : Cmd} {s t u : State}

theorem EngineOnly.trans (h : EngineOnly c s t) (h' : EngineOnly c t u) : EngineOnly c s u where
  state := by rw [h'.state, h.state]
  cores q hq := (h'.cores q hq).trans (h.cores q hq)
  teams v hv := (h'.teams v hv).trans (h.teams v hv)

namespace StepOnly

theorem refl (c : Cmd) (s : State) : StepOnly c s s := ⟨rfl, fun _ _ => rfl, fun _ _ => rfl⟩

theorem trans (h : StepOnly c s t) (h' : StepOnly c t u) : StepOnly c s u where
  state := by rw [h'.state, h.state]
  cores q hq := (h'.cores q hq).trans (h.cores q hq)
  teams v hv := (h'.teams v hv).trans (h.teams v hv)

theorem engineOnly (h : StepOnly c s t) : EngineOnly c s t := ⟨by rw [h.state], h.cores, h.teams⟩

theorem openCmds (h : StepOnly c s t) : t.openCmds = s.openCmds := by rw [h.state]

end StepOnly

end Only

section Steps
variable (s : State) (c : Cmd)

theorem engineOnly_finishCmd : EngineOnly c s (s.finishCmd c) where
  state := by
    rw [finishCmd_eq]
  cores q hq := by rw [core_finishCmd, if_neg hq]
  teams u _ := by rw [finishCmd_eq]

theorem stepOnly_modCore (f : Core → Core) : StepOnly c s (s.modCore c.core f) where
  state := rfl
  cores q hq := by rw [modCore_def, core_setCore, if_neg hq]
  teams _ _ := rfl

theorem stepOnly_fresh : StepOnly c s s.fresh.2 := ⟨rfl, fun _ _ => rfl, fun _ _ => rfl⟩

theorem stepOnly_modTeam (f : Team → Team) : StepOnly c s (s.modTeam c.team f) where
  state := by rw [modTeam_eq]
  cores q _ := core_modTeam ..
  teams u hu := by rw [tabFind_modTeam, if_neg hu]

theorem stepOnly_setCmd (c' : Cmd) (h : c'.core = c.core) : StepOnly c s (s.setCmd c') := by
  rw [State.setCmd, h]
  exact stepOnly_modCore ..

theorem core_setCmd {i : Nat} (h : c.core = i) : (s.setCmd c).core i =
    { s.core i with cmds := (s.core i).cmds.map fun d => if d.id = c.id then c else d } := by
  rw [State.setCmd, modCore_def, core_setCore, if_pos h.symm, h]

theorem stepOnly_setAccRow (row : Nat) (v : AccRow) : StepOnly c s (s.setAccRow c row v) := stepOnly_modCore ..

theorem stepOnly_setSat (b : Bool) : StepOnly c s (s.setSat c.team b) := by
  unfold State.setSat
  split
  · exact stepOnly_modTeam ..
  · exact .refl c s

theorem stepOnly_purgeBufs : StepOnly c s (s.purgeBufs c.core) := by
  unfold State.purgeBufs
  exact stepOnly_modCore ..

theorem stepOnly_loseBuf (n : Nat) : StepOnly c s (s.loseBuf c n) :=
  (stepOnly_modCore ..).trans (stepOnly_modTeam ..)

theorem stepOnly_putBuf (n : Nat) (d : BufDesc) (b : PhysBuf) : StepOnly c s (s.putBuf c n d b) :=
  (stepOnly_modCore ..).trans (stepOnly_modTeam ..)

theorem stepOnly_zeroAcc (first n : Nat) : StepOnly c s (s.zeroAcc c first n) := by
  induction n generalizing s with
  | zero => exact .refl c s
  | succ n ih =>
    rw [State.zeroAcc]
    refine StepOnly.trans ?_ (ih _)
    split
    · exact stepOnly_setAccRow ..
    · exact .refl c s

theorem zeroAcc_eq (first n : Nat) : s.zeroAcc c first n = { s with cores := (s.zeroAcc c first n).cores } := by
  induction n generalizing s with
  | zero => rfl
  | succ n ih =>
    rw [State.zeroAcc, ih]
    split <;> rfl

/-! ## What a step of a command leaves of its core -/

theorem core_setAccRow (row : Nat) (v : AccRow) : (s.setAccRow c row v).core c.core =
    { s.core c.core with acc := tabSet 0 (s.core c.core).acc (c.tile.getD 0 * 128 + row) v } := by
  rw [State.setAccRow, modCore_def, core_setCore, if_pos rfl]

theorem acc_setAccRow (row : Nat) (v : AccRow) (r : Nat) : tabGet 0 ((s.setAccRow c row v).core c.core).acc r =
    if r = c.tile.getD 0 * 128 + row then v else tabGet 0 (s.core c.core).acc r := by
  rw [core_setAccRow]
  exact tabGet_tabSet ..

theorem core_zeroAcc (first n : Nat) : (s.zeroAcc c first n).core c.core =
    { s.core c.core with acc := ((s.zeroAcc c first n).core c.core).acc } := by
  induction n generalizing s with
  | zero => rfl
  | succ n ih =>
    rw [State.zeroAcc, ih]
    split
    · rw [core_setAccRow]
    · rfl

theorem acc_zeroAcc (first n r : Nat) : tabGet 0 ((s.zeroAcc c first n).core c.core).acc r =
    if c.tile.getD 0 * 128 + first ≤ r ∧ r < c.tile.getD 0 * 128 + min (first + n) 128 then 0
    else tabGet 0 (s.core c.core).acc r := by
  induction n generalizing s with
  | zero => rw [if_neg (by omega), State.zeroAcc]
  | succ n ih =>
    rw [State.zeroAcc, ih]
    by_cases hrow : first + n < 128
    · rw [if_pos hrow, acc_setAccRow, ← ite_or]
      exact if_congr (by omega) rfl rfl
    · rw [if_neg hrow]
      exact if_congr (by omega) rfl rfl

theorem core_purgeBufs : (s.purgeBufs c.core).core c.core =
    { s.core c.core with bufs := ((s.purgeBufs c.core).core c.core).bufs } := by
  rw [State.purgeBufs, modCore_def, core_setCore, if_pos rfl]

theorem mem_of_mem_purgeBufs {x : Nat × PhysBuf} (h : x ∈ ((s.purgeBufs c.core).core c.core).bufs) :
    x ∈ (s.core c.core).bufs := by
  rw [State.purgeBufs, modCore_def, core_setCore, if_pos rfl] at h
  exact (List.mem_filter.mp h).1

theorem core_setSat (u : Nat) (b : Bool) (q : Nat) : (s.setSat u b).core q = s.core q := by
  unfold State.setSat
  split
  · exact core_modTeam ..
  · rfl

theorem tabFind_setSat (u : Nat) (b : Bool) {m : Team} (h : tabFind s.teams u = some m) :
    tabFind (s.setSat u b).teams u = some { m with sat := m.sat || b } := by
  unfold State.setSat
  split_ifs with hb
  · rw [tabFind_modTeam, if_pos rfl, h, hb, Bool.or_true]
    rfl
  · rw [h, Bool.eq_false_of_not_eq_true hb, Bool.or_false]

theorem core_putBuf (n : Nat) (d : BufDesc) (b : PhysBuf) : (s.putBuf c n d b).core c.core =
    { s.core c.core with bufs := tabPut (s.core c.core).bufs n b } := by
  rw [State.putBuf, core_modTeam, modCore_def, core_setCore, if_pos rfl]

theorem tabFind_putBuf (n : Nat) (d : BufDesc) (b : PhysBuf) : tabFind (s.putBuf c n d b).teams c.team =
    (tabFind s.teams c.team).map fun m => { m with bufs := tabPut m.bufs n d } := by
  rw [State.putBuf, tabFind_modTeam, if_pos rfl]
  rfl

theorem core_loseBuf (n : Nat) : (s.loseBuf c n).core c.core =
    { s.core c.core with bufs := tabDel (s.core c.core).bufs n } := by
  rw [State.loseBuf, core_modTeam, modCore_def, core_setCore, if_pos rfl]

theorem tabFind_loseBuf (n : Nat) : tabFind (s.loseBuf c n).teams c.team =
    (tabFind s.teams c.team).map fun m => { m with bufs := tabDel m.bufs n } := by
  rw [State.loseBuf, tabFind_modTeam, if_pos rfl]
  rfl

end Steps

/-! ## Writes of the engines -/

section Writes
variable (s : State) (c : Cmd) (sp : List Span) (bs : List (BitVec 8))

/-- A command's writes as they stand in its core. -/
def engineAccess : Access :=
  { id := s.nextId, team := c.team, ctx := c.ctx, seq := c.seq, pc := c.pc, kind := .engine, entries := 0
    xlate := false, pieces := writeSpans s.nextId (s.epoch c.core) sp bs, dst := .none, rel := none, acq := false
    inOrder := false, grain := 1, cmd := c.id }

theorem engineWrite_nil : s.engineWrite c [] bs = s := rfl

theorem engineWrite_of_ne (h : sp ≠ []) : s.engineWrite c sp bs =
    s.fresh.2.modCore c.core fun k => { k with stores := k.stores ++ [engineAccess s c sp bs] } := by
  unfold State.engineWrite State.engineStore
  rw [if_neg (by simpa using h)]
  rfl

theorem stepOnly_engineWrite : StepOnly c s (s.engineWrite c sp bs) := by
  by_cases h : sp = []
  · rw [h, engineWrite_nil]
    exact .refl c s
  · rw [engineWrite_of_ne s c sp bs h]
    exact (stepOnly_fresh ..).trans (stepOnly_modCore ..)

theorem core_engineWrite : (s.engineWrite c sp bs).core c.core =
    { s.core c.core with stores := ((s.engineWrite c sp bs).core c.core).stores } := by
  by_cases h : sp = []
  · rw [h, engineWrite_nil]
  · rw [engineWrite_of_ne s c sp bs h, modCore_def, core_setCore, if_pos rfl, core_fresh]

theorem engineWrite_eq : s.engineWrite c sp bs =
    { s with cores := (s.engineWrite c sp bs).cores, nextId := (s.engineWrite c sp bs).nextId } := by
  by_cases h : sp = []
  · rw [h, engineWrite_nil]
  · rw [engineWrite_of_ne s c sp bs h]
    rfl

theorem sends_engineWrite : Sends s (s.engineWrite c sp bs) c sp bs := by
  refine ⟨fun h => by rw [h, engineWrite_nil], fun h => ⟨s.nextId, ?_⟩⟩
  rw [engineWrite_of_ne s c sp bs h, modCore_def, core_setCore, if_pos rfl]
  rfl

end Writes

/-! ## Words of an accumulator row -/

theorem accOf_eq (ws : List Nat) : accOf ws = BitVec.ofNat 2048 (Nat.ofDigits (2 ^ 32) (ws.map (· % 2 ^ 32))) := by
  rw [accOf, Nat.ofDigits_eq_sum_mapIdx, List.mapIdx_eq_zipIdx_map, List.zipIdx_map, List.map_map]
  simp only [Nat.pow_mul]
  rfl

theorem accWord_accOf (f : Nat → Nat) {n : Nat} (hn : n < 64) :
    accWord (accOf ((List.range 64).map f)) n = f n % 2 ^ 32 := by
  have hdigits : ∀ x ∈ ((List.range 64).map f).map (· % 2 ^ 32), x < 2 ^ 32 := by
    simp only [List.mem_map]
    rintro _ ⟨x, -, rfl⟩
    exact Nat.mod_lt _ (by decide)
  have hlt := Nat.ofDigits_lt_base_pow_length (by decide) hdigits
  rw [List.length_map, List.length_map, List.length_range, ← Nat.pow_mul, show 32 * 64 = 2048 from rfl] at hlt
  rw [accOf_eq, accWord, BitVec.extractLsb'_toNat, BitVec.toNat_ofNat, Nat.mod_eq_of_lt hlt, Nat.shiftRight_eq_div_pow,
    Nat.pow_mul, Nat.ofDigits_div_pow_eq_ofDigits_drop _ (by decide) _ hdigits,
    List.drop_eq_getElem_cons (by simpa using hn), Nat.ofDigits_cons, Nat.add_mul_mod_self_left]
  simp

end Sys2Proof.Proofs

/-! Commands of the matrix engine that start (R224, R225, R230, R231, R240, R242, R243). -/

namespace Sys2Proof.Proofs

open Sys2Proof.Machine Sys2Proof.Laws

/-! ## Commands replaced and commands over -/

theorem filter_replaced (c : Cmd) (l : List Cmd) :
    (l.map fun d => if d.id = c.id then c else d).filter (fun d => d.id != c.id) = l.filter fun d => d.id != c.id := by
  induction l with
  | nil => rfl
  | cons d l ih =>
    by_cases hd : d.id = c.id <;> simp [hd, ih]

section Over
variable {c : Cmd} {z y : State}

/-- A command that ends once its step has left the commands as they were. -/
theorem over_of_same (hcmds : (y.core c.core).cmds = (z.core c.core).cmds) (hopen : y.openCmds = z.openCmds) :
    Over z (y.finishCmd c) c := by
  obtain ⟨hover, hopen', hsig⟩ := over_finishCmd y c
  exact ⟨hover.trans (by rw [hcmds]), hopen'.trans (by rw [hopen]), hsig⟩

/-- One that its start has replaced in its queue. -/
theorem over_of_started (h : Over (z.setCmd c) y c) : Over z y c := by
  obtain ⟨hover, hopen, hsig⟩ := h
  refine ⟨hover.trans ?_, hopen, hsig⟩
  rw [core_setCmd _ _ rfl]
  exact filter_replaced ..

/-- What is left of a core by the end of a command. -/
theorem core_finished : (y.finishCmd c).core c.core = { y.core c.core with
    cmds := ((y.finishCmd c).core c.core).cmds, sb := ((y.finishCmd c).core c.core).sb } := by
  rw [core_finishCmd, if_pos rfl]

end Over

/-! ## Starts -/

/-- The command as it starts. -/
def begun (c : Cmd) : Cmd := { c with started := true }

/-- What the start of the command does (R224). -/
def startStep (s : State) (c : Cmd) : Host.Outcome State Fault Refusal :=
  match c.instr with
  | .mrec f => (s.setCmd c).runMrec c (f.imm.toNat % 16)
  | .mldb f => (s.setCmd c).runMldb c f
  | .mzero _ => .next (((s.setCmd c).zeroAcc c 0 128).finishCmd c)
  | .mmova f => .next ((s.setCmd c).runMmova c f)
  | .mmovv f => .next ((s.setCmd c).runMmovv c f)
  | .mqry f => .next ((s.setCmd c).runMqry c f)
  | i => .next (s.setCmd { c with sent := usesArray i })

theorem exec_matrixCommandStart {s : State} {c : Cmd} (h : s.oldestStart c.core = some c) :
    exec (.matrixCommandStart c.core) s = startStep s (begun c) := by
  change execMatrixCommandStart _ s = _
  unfold execMatrixCommandStart
  rw [h]
  rfl

theorem startStep_of_byRows (s : State) {c : Cmd} (h : byRows c.instr = true) :
    startStep s c = .next (s.setCmd { c with sent := usesArray c.instr }) := by
  have hrows : ∀ i, c.instr = i → byRows i = true := fun i hc => hc ▸ h
  unfold startStep
  split
  case h_7 => rfl
  all_goals next hc => exact (Bool.false_ne_true (hrows _ hc)).elim

/-! ## What the steps leave -/

/-- The changes that every command of one step makes (R224): the command is over, and nothing else has changed but
its core and its team. -/
def Starts (c : Cmd) (s z t : State) : Prop :=
  Over z t c ∧ (∀ q, q ≠ c.core → t.core q = z.core q) ∧
    (∀ u, u ≠ c.team → tabFind t.teams u = tabFind s.teams u) ∧
    t = { z with cores := t.cores, teams := t.teams, openCmds := t.openCmds, reqs := t.reqs
                 nextId := t.nextId }

section Steps
variable {s z y : State} {c : Cmd}

/-- A step that has changed the command's core and team, and then ends the command. -/
theorem starts_of_finishCmd (hy : StepOnly c z y) (hcmds : (y.core c.core).cmds = (z.core c.core).cmds)
    (hteams : z.teams = s.teams) : Starts c s z (y.finishCmd c) := by
  have ht := hy.engineOnly.trans (engineOnly_finishCmd y c)
  exact ⟨over_of_same hcmds hy.openCmds, ht.cores, fun u hu => (ht.teams u hu).trans (by rw [hteams]), ht.state⟩

/-- The same from the state before the start. -/
theorem starts_of_started (h : Starts c s (s.setCmd c) y) : Starts c s s y := by
  obtain ⟨hover, hcores, hteams, hstate⟩ := h
  refine ⟨over_of_started hover, fun q hq => ?_, hteams, hstate.trans rfl⟩
  rw [hcores q hq]
  exact (stepOnly_setCmd s c c rfl).cores q hq

theorem teams_finishCmd (s : State) (c : Cmd) : (s.finishCmd c).teams = s.teams := by rw [finishCmd_eq]

/-- A step that has changed its core alone, to `k`, and then ends the command. -/
theorem stands_of_finishCmd {k : Core} (hy : StepOnly c (s.setCmd c) y) (hteams : y.teams = s.teams)
    (hcore : y.core c.core = { k with cmds := ((s.setCmd c).core c.core).cmds }) :
    (Starts c s s (y.finishCmd c) ∧ (y.finishCmd c).teams = s.teams) ∧ (y.finishCmd c).core c.core = { k with
      cmds := ((y.finishCmd c).core c.core).cmds, sb := ((y.finishCmd c).core c.core).sb } := by
  refine ⟨⟨starts_of_started (starts_of_finishCmd hy (by rw [hcore]) rfl), (teams_finishCmd ..).trans hteams⟩, ?_⟩
  have hend := core_finished (c := c) (y := y)
  rw [hcore] at hend
  exact hend

theorem acc_finishCmd (s : State) (c : Cmd) : ((s.finishCmd c).core c.core).acc = (s.core c.core).acc := by
  rw [core_finished]

/-- A step that has written accumulator rows, and then ends the command. -/
theorem stands_of_acc (hy : StepOnly c (s.setCmd c) y) (hteams : y.teams = s.teams)
    (hcore : y.core c.core = { (s.setCmd c).core c.core with acc := (y.core c.core).acc }) :
    (Starts c s s (y.finishCmd c) ∧ (y.finishCmd c).teams = s.teams) ∧
      (y.finishCmd c).core c.core = { s.core c.core with
      acc := ((y.finishCmd c).core c.core).acc, cmds := ((y.finishCmd c).core c.core).cmds
      sb := ((y.finishCmd c).core c.core).sb } := by
  rw [acc_finishCmd]
  refine stands_of_finishCmd (k := { s.core c.core with acc := (y.core c.core).acc }) hy hteams (hcore.trans ?_)
  rw [core_setCmd _ _ rfl]

theorem acc_setCmd (s : State) (c : Cmd) : ((s.setCmd c).core c.core).acc = (s.core c.core).acc := by
  rw [core_setCmd _ _ rfl]

/-! ## Commands of one step -/

/-- R240: MZERO. -/
theorem start_mzero {f : FE2} (hi : c.instr = .mzero f) : ∃ t, startStep s c = .next t ∧
    (Starts c s s t ∧ t.teams = s.teams) ∧
    t.core c.core = { s.core c.core with
      acc := (t.core c.core).acc, cmds := (t.core c.core).cmds, sb := (t.core c.core).sb } ∧
    ∀ r, tabGet 0 (t.core c.core).acc r =
      if c.tile.getD 0 * 128 ≤ r ∧ r < c.tile.getD 0 * 128 + 128 then 0 else tabGet 0 (s.core c.core).acc r := by
  obtain ⟨hstill, hcore⟩ := stands_of_acc (stepOnly_zeroAcc (s.setCmd c) c 0 128)
    (by rw [zeroAcc_eq]; rfl) (core_zeroAcc ..)
  refine ⟨_, by rw [startStep, hi], hstill, hcore, fun r => ?_⟩
  rw [acc_finishCmd, acc_zeroAcc, acc_setCmd]
  rfl

/-! ### Rows that move -/

/-- The last of the writes to a place is what it holds. -/
theorem tabGet_foldl_tabPut {α : Type} (d v : α) (k : Nat) (l : List (Nat × α)) (t : Tab α)
    (hall : ∀ x ∈ l, x.1 = k → x.2 = v) (hsome : tabGet d t k = v ∨ ∃ x ∈ l, x.1 = k) :
    tabGet d (l.foldl (fun t r => tabPut t r.1 r.2) t) k = v := by
  induction l generalizing t with
  | nil => simpa using hsome
  | cons x l ih =>
    refine ih _ (fun y hy => hall y (List.mem_cons_of_mem x hy)) ?_
    rw [tabGet_tabPut]
    by_cases hx : k = x.1
    · exact .inl (by rw [if_pos hx]; exact hall x List.mem_cons_self hx.symm)
    · rw [if_neg hx]
      refine hsome.imp_right ?_
      rintro ⟨y, hy, hk⟩
      exact ⟨y, (List.mem_cons.mp hy).resolve_left fun h => hx (h ▸ hk.symm), hk⟩

/-- The rows of accumulator row `j` in the register `r`, with where they stand (R242). -/
def movedRows (a : AccRow) (r j : Nat) : List (Nat × Row) :=
  [(r * 16 + 2 * j, a.extractLsb' 0 1024), (r * 16 + 2 * j + 1, a.extractLsb' 1024 1024)]

/-- The rows that MMOVA brings to its registers. -/
def broughtRows (s : State) (c : Cmd) (row0 : Nat) : List (Nat × Row) :=
  c.regs.zipIdx.flatMap fun e => (List.range 8).flatMap fun j =>
    movedRows (s.accRow c (row0 + 8 * e.2 + j)) e.1 j

theorem mem_broughtRows {row0 : Nat} {x : Nat × Row} : x ∈ broughtRows s c row0 ↔
    ∃ r e, c.regs[e]? = some r ∧ ∃ j < 8, x ∈ movedRows (s.accRow c (row0 + 8 * e + j)) r j := by
  simp only [broughtRows, List.mem_flatMap, Prod.exists, List.mem_zipIdx_iff_getElem?, List.mem_range]

/-- A row of a register that the instruction names once. -/
theorem tabGet_broughtRows {row0 e r j : Nat} (hr : c.regs[e]? = some r)
    (honce : ∀ e', c.regs[e']? = some r → e' = e) (hj : j < 8) :
    let rows := (broughtRows s c row0).foldl (fun t r => tabPut t r.1 r.2) []
    let a := s.accRow c (row0 + 8 * e + j)
    tabGet 0 rows (r * 16 + 2 * j) = a.extractLsb' 0 1024 ∧
      tabGet 0 rows (r * 16 + 2 * j + 1) = a.extractLsb' 1024 1024 := by
  intro rows a
  have hplace : ∀ x ∈ broughtRows s c row0, x.1 / 2 = r * 8 + j → x ∈ movedRows a r j := by
    intro x hx hk
    obtain ⟨r', e', hr', j', hj', hx⟩ := mem_broughtRows.mp hx
    have hkey : x.1 / 2 = r' * 8 + j' := by
      simp only [movedRows, List.mem_cons, List.not_mem_nil, or_false] at hx
      rcases hx with rfl | rfl
      · dsimp only
        omega
      · dsimp only
        omega
    obtain ⟨rfl, rfl⟩ := eq_of_mul_add_eq hj' hj (hkey.symm.trans hk)
    have he := honce e' hr'
    subst he
    exact hx
  have hthere : ∀ x ∈ movedRows a r j, x ∈ broughtRows s c row0 := fun x hx =>
    mem_broughtRows.mpr ⟨r, e, hr, j, hj, hx⟩
  refine ⟨tabGet_foldl_tabPut _ _ _ _ _ (fun x hx hk => ?_) (.inr ⟨_, hthere _ List.mem_cons_self, rfl⟩),
    tabGet_foldl_tabPut _ _ _ _ _ (fun x hx hk => ?_)
      (.inr ⟨_, hthere _ (List.mem_cons_of_mem _ List.mem_cons_self), rfl⟩)⟩
  all_goals
    have hx := hplace x hx (by omega)
    simp only [movedRows, List.mem_cons, List.not_mem_nil, or_false] at hx
  · rcases hx with rfl | rfl
    · rfl
    · dsimp only at hk
      omega
  · rcases hx with rfl | rfl
    · dsimp only at hk
      omega
    · rfl

/-- The state in which the command's result is on its way. -/
def withResult (s : State) (c : Cmd) (r : Result) : State :=
  (s.setCmd c).modCore c.core fun k => { k with results := k.results ++ [r] }

/-- A command that ends with its result on its way. -/
theorem stands_of_result (s : State) (c : Cmd) (r : Result) :
    let t := (withResult s c r).finishCmd c
    (Starts c s s t ∧ t.teams = s.teams) ∧ t.core c.core = { s.core c.core with
      results := (s.core c.core).results ++ [r], cmds := (t.core c.core).cmds, sb := (t.core c.core).sb } := by
  refine stands_of_finishCmd (k := { s.core c.core with results := (s.core c.core).results ++ [r] })
    (stepOnly_modCore ..) rfl ?_
  rw [withResult, modCore_def, core_setCore, if_pos rfl, core_setCmd _ _ rfl]

theorem core_started (s : State) (c : Cmd) :
    (s.setCmd c).core c.core = { s.core c.core with cmds := ((s.setCmd c).core c.core).cmds } := by
  rw [core_setCmd _ _ rfl]

theorem accRow_setCmd (s : State) (c : Cmd) (r : Nat) : (s.setCmd c).accRow c r = s.accRow c r := by
  rw [State.accRow, acc_setCmd, State.accRow]

/-- R242: MMOVA. -/
theorem start_mmova {f : FE3} (hi : c.instr = .mmova f) (hregs : c.regs ≠ []) : ∃ t rows, startStep s c = .next t ∧
    (Starts c s s t ∧ t.teams = s.teams) ∧
    t.core c.core = { s.core c.core with
      results := (s.core c.core).results ++ [⟨c.id, c.team, none, rows, c.regs⟩]
      cmds := (t.core c.core).cmds, sb := (t.core c.core).sb } ∧
    ∀ e j r, c.regs[e]? = some r → (∀ e', c.regs[e']? = some r → e' = e) → j < 8 →
      let a := s.accRow c (f.imm.toNat / 8 % 128 + 8 * e + j)
      tabGet 0 rows (r * 16 + 2 * j) = a.extractLsb' 0 1024 ∧
      tabGet 0 rows (r * 16 + 2 * j + 1) = a.extractLsb' 1024 1024 := by
  have hempty : c.regs.isEmpty = false := by simpa using hregs
  have hstep : startStep s c = .next ((withResult s c ⟨c.id, c.team, none,
      (broughtRows (s.setCmd c) c (f.imm.toNat / 8 % 128)).foldl (fun t r => tabPut t r.1 r.2) [],
      c.regs⟩).finishCmd c) := by
    rw [startStep, hi]
    simp only [State.runMmova, hempty]
    rfl
  obtain ⟨hstill, hcore⟩ := stands_of_result s c _
  refine ⟨_, _, hstep, hstill, hcore, fun e j r hr honce hj => ?_⟩
  have hrows := tabGet_broughtRows (s := s.setCmd c) (row0 := f.imm.toNat / 8 % 128) hr honce hj
  rw [accRow_setCmd] at hrows
  exact hrows

theorem start_mmova_of_nil {f : FE3} (hi : c.instr = .mmova f) (hregs : c.regs = []) : ∃ t, startStep s c = .next t ∧
    (Starts c s s t ∧ t.teams = s.teams) ∧
    t.core c.core = { s.core c.core with cmds := (t.core c.core).cmds, sb := (t.core c.core).sb } := by
  have hstep : startStep s c = .next ((s.setCmd c).finishCmd c) := by
    rw [startStep, hi]
    simp only [State.runMmova, hregs]
    rfl
  exact ⟨_, hstep, stands_of_finishCmd (.refl ..) rfl (core_started s c)⟩

/-- Accumulator rows `row0` up replaced in turn, each by what `g` makes of it (R242). -/
def replacedRows (s : State) (c : Cmd) (row0 : Nat) (g : Nat → AccRow → AccRow) (n : Nat) : State :=
  (List.range n).foldl (fun s i => s.setAccRow c (row0 + i) (g i (s.accRow c (row0 + i)))) s

section Replaced
variable (s : State) (c : Cmd) (row0 : Nat) (g : Nat → AccRow → AccRow) (n : Nat)

theorem replacedRows_succ : replacedRows s c row0 g (n + 1) = (replacedRows s c row0 g n).setAccRow c (row0 + n)
    (g n ((replacedRows s c row0 g n).accRow c (row0 + n))) := by
  rw [replacedRows, List.range_succ, List.foldl_append]
  rfl

theorem stepOnly_replacedRows : StepOnly c s (replacedRows s c row0 g n) := by
  induction n with
  | zero => exact .refl c s
  | succ n ih =>
    rw [replacedRows_succ]
    exact ih.trans (stepOnly_setAccRow ..)

theorem replacedRows_teams : (replacedRows s c row0 g n).teams = s.teams := by
  induction n with
  | zero => rfl
  | succ n ih =>
    rw [replacedRows_succ]
    exact ih

theorem core_replacedRows : (replacedRows s c row0 g n).core c.core =
    { s.core c.core with acc := ((replacedRows s c row0 g n).core c.core).acc } := by
  induction n with
  | zero => rfl
  | succ n ih => rw [replacedRows_succ, core_setAccRow, ih]

theorem acc_replacedRows (r : Nat) : tabGet 0 ((replacedRows s c row0 g n).core c.core).acc r =
    if c.tile.getD 0 * 128 + row0 ≤ r ∧ r < c.tile.getD 0 * 128 + row0 + n then
      g (r - (c.tile.getD 0 * 128 + row0)) (tabGet 0 (s.core c.core).acc r)
    else tabGet 0 (s.core c.core).acc r := by
  induction n with
  | zero => rw [if_neg (by omega), replacedRows, List.range_zero, List.foldl_nil]
  | succ n ih =>
    rw [replacedRows_succ, acc_setAccRow]
    by_cases hr : r = c.tile.getD 0 * 128 + (row0 + n)
    · have hn : r - (c.tile.getD 0 * 128 + row0) = n := by omega
      rw [if_pos hr, if_pos (by omega), hn, State.accRow, ← hr, ih, if_neg (by omega)]
    · rw [if_neg hr, ih]
      exact if_congr (by omega) rfl rfl

end Replaced

/-- R242: MMOVV. -/
theorem start_mmovv {f : FE3} (hi : c.instr = .mmovv f) : ∃ t, startStep s c = .next t ∧
    (Starts c s s t ∧ t.teams = s.teams) ∧
    t.core c.core = { s.core c.core with
      acc := (t.core c.core).acc, cmds := (t.core c.core).cmds, sb := (t.core c.core).sb } ∧
    ∀ r, let r0 := c.tile.getD 0 * 128 + f.imm.toNat / 8 % 128
      let i := r - r0
      tabGet 0 (t.core c.core).acc r = if r0 ≤ r ∧ r < r0 + 8 * moveRegs f then
        moveIn (f.imm.getLsbD 13) c.ftz (tabGet 0 (s.core c.core).acc r) (c.rows.getD (2 * i) 0)
          (c.rows.getD (2 * i + 1) 0) else tabGet 0 (s.core c.core).acc r := by
  have hstep : startStep s c = .next ((replacedRows (s.setCmd c) c (f.imm.toNat / 8 % 128) (fun i a =>
      moveIn (f.imm.getLsbD 13) c.ftz a (c.rows.getD (2 * i) 0) (c.rows.getD (2 * i + 1) 0))
      (8 * moveRegs f)).finishCmd c) := by
    rw [startStep, hi]
    rfl
  obtain ⟨hstill, hcore⟩ := stands_of_acc (stepOnly_replacedRows ..) (replacedRows_teams ..) (core_replacedRows ..)
  refine ⟨_, hstep, hstill, hcore, fun r => ?_⟩
  rw [acc_finishCmd, acc_replacedRows, acc_setCmd]

/-- R243: MQRY. -/
theorem start_mqry {f : FE3} {d : Nat} (hi : c.instr = .mqry f) (hregs : c.regs = [d]) :
    ∃ t, startStep s c = .next t ∧ (Starts c s s t ∧ t.teams = s.teams) ∧
      t.core c.core = { s.core c.core with
        results := (s.core c.core).results ++ [⟨c.id, c.team, some (d, w64 (if f.imm.toNat % 4 = 0
          then (s.setCmd c).engineState c else (s.setCmd c).tileState c (f.imm.toNat / 4 % 8))), [], []⟩]
        cmds := (t.core c.core).cmds, sb := (t.core c.core).sb } := by
  refine ⟨_, ?_, stands_of_result s c _⟩
  rw [startStep, hi]
  simp only [State.runMqry, hregs]
  rfl

theorem start_mqry_of_nil {f : FE3} (hi : c.instr = .mqry f) (hregs : c.regs = []) : ∃ t, startStep s c = .next t ∧
    (Starts c s s t ∧ t.teams = s.teams) ∧
    t.core c.core = { s.core c.core with cmds := (t.core c.core).cmds, sb := (t.core c.core).sb } := by
  refine ⟨(s.setCmd c).finishCmd c, ?_, stands_of_finishCmd (.refl ..) rfl (core_started s c)⟩
  rw [startStep, hi]
  simp only [State.runMqry, hregs]

/-! ### Records and buffers -/

theorem w64_toNat (a : W64) : w64 a.toNat = a := by
  rw [w64, BitVec.ofNat_toNat, BitVec.setWidth_eq]

/-- R230: a record that fails MREC's checks. -/
theorem start_mrec_of_bad {f : FE3} {bs : List (BitVec 8)} (hi : c.instr = .mrec f)
    (hz : z = (s.setCmd c).fillUnits c.who .plain false (units c.xa.toNat 64))
    (hread : z.engineRead c .plain c.xa.toNat 64 = .ok bs) (hbad : recordBad (BitVec.ofNat 512 (leNat bs)) = true) :
    startStep s c = .next ((z.cmdFault c cShape c.xa 1 fun d => d.queue == .matrix).getD z) := by
  rw [startStep, hi]
  dsimp only
  rw [State.runMrec, ← hz]
  simp only [hread, hbad, if_true, State.matrixFault, w64_toNat]
  rfl

/-- R230: MREC. -/
theorem start_mrec {f : FE3} {bs : List (BitVec 8)} {m : Team} (hi : c.instr = .mrec f)
    (hz : z = (s.setCmd c).fillUnits c.who .plain false (units c.xa.toNat 64)) (hm : tabFind s.teams c.team = some m)
    (hread : z.engineRead c .plain c.xa.toNat 64 = .ok bs) (hgood : recordBad (BitVec.ofNat 512 (leNat bs)) = false) :
    ∃ t m', startStep s c = .next t ∧ Starts c s z t ∧
      t.core c.core = { z.core c.core with cmds := (t.core c.core).cmds, sb := (t.core c.core).sb } ∧
      tabFind t.teams c.team = some m' ∧ m' = { m with qrec := m'.qrec } ∧ ∀ j, tabFind m'.qrec j =
        if j = f.imm.toNat % 16 then some (BitVec.ofNat 512 (leNat bs)) else tabFind m.qrec j := by
  have htlbs : TlbsOnly (s.setCmd c) z := hz ▸ tlbsOnly_fillUnits ..
  have hteams : z.teams = s.teams := (tlbsOnly_teams htlbs).trans rfl
  have hstep : startStep s c = .next ((z.modTeam c.team fun t =>
      { t with qrec := tabPut t.qrec (f.imm.toNat % 16) (BitVec.ofNat 512 (leNat bs)) }).finishCmd c) := by
    rw [startStep, hi]
    dsimp only
    rw [State.runMrec, ← hz]
    simp only [hread, hgood]
    rfl
  have hcore := core_modTeam z c.core c.team fun t =>
    { t with qrec := tabPut t.qrec (f.imm.toNat % 16) (BitVec.ofNat 512 (leNat bs)) }
  refine ⟨_, { m with qrec := tabPut m.qrec (f.imm.toNat % 16) (BitVec.ofNat 512 (leNat bs)) }, hstep,
    starts_of_finishCmd (stepOnly_modTeam ..) (by rw [hcore]) hteams, ?_, ?_, rfl,
    fun j => tabFind_tabPut ..⟩
  · have hend := core_finished (c := c) (y := z.modTeam c.team fun t =>
      { t with qrec := tabPut t.qrec (f.imm.toNat % 16) (BitVec.ofNat 512 (leNat bs)) })
    rw [hcore] at hend
    exact hend
  · rw [teams_finishCmd, tabFind_modTeam, if_pos rfl, hteams, hm]
    rfl

/-- R231: MLDB. -/
theorem start_mldb {f : FE3} {m : Team} {r : BitVec 512} {d : BufDesc} {x : PhysBuf} (hi : c.instr = .mldb f)
    (hz : z = (s.setCmd c).fillLoad c d) (hm : tabFind s.teams c.team = some m)
    (hr : tabFind m.qrec (f.imm.toNat % 16) = some r)
    (hd : descOf r c.xb.toNat c.xc.toNat (f.imm.toNat / 32 % 8 + 1) c.id = some d) (hx : z.fillBuf c d = .ok x) :
    ∃ t m', startStep s c = .next t ∧ Starts c s z t ∧
      t.core c.core = { z.core c.core with
        bufs := (t.core c.core).bufs, cmds := (t.core c.core).cmds, sb := (t.core c.core).sb } ∧
      tabFind t.teams c.team = some m' ∧ m' = { m with bufs := m'.bufs } ∧
      (∀ j, tabFind m'.bufs j = if j = f.imm.toNat / 16 % 2 then some d else tabFind m.bufs j) ∧
      ∀ j, tabFind (t.core c.core).bufs j =
        if j = f.imm.toNat / 16 % 2 then some x else tabFind (s.core c.core).bufs j := by
  have htlbs : TlbsOnly (s.setCmd c) z := hz ▸ tlbsOnly_fillLoad ..
  have hteams : z.teams = s.teams := (tlbsOnly_teams htlbs).trans rfl
  have hstep : startStep s c = .next ((z.putBuf c (f.imm.toNat / 16 % 2) d x).finishCmd c) := by
    rw [startStep, hi]
    dsimp only
    unfold State.runMldb
    change (match (tabFind s.teams c.team).bind fun t => tabFind t.qrec (f.imm.toNat % 16) with
      | none => _ | some r => _) = _
    rw [hm, Option.bind_some, hr]
    dsimp only
    rw [hd]
    dsimp only
    rw [← hz, hx]
  have hcore := core_putBuf z c (f.imm.toNat / 16 % 2) d x
  have hend := core_finished (c := c) (y := z.putBuf c (f.imm.toNat / 16 % 2) d x)
  have hbufs : (((z.putBuf c (f.imm.toNat / 16 % 2) d x).finishCmd c).core c.core).bufs =
      tabPut (s.core c.core).bufs (f.imm.toNat / 16 % 2) x := by
    rw [hend, hcore, tlbsOnly_bufs htlbs, core_started]
  refine ⟨_, { m with bufs := tabPut m.bufs (f.imm.toNat / 16 % 2) d }, hstep,
    starts_of_finishCmd (stepOnly_putBuf ..) (by rw [hcore]) hteams, ?_, ?_, rfl,
    fun j => tabFind_tabPut .., fun j => ?_⟩
  · rw [hend, hcore]
  · rw [teams_finishCmd, tabFind_putBuf, hteams, hm]
    rfl
  · rw [hbufs]
    exact tabFind_tabPut ..

/-! ### Commands that go on row by row -/

theorem start_byRows (hi : byRows c.instr = true) : ∃ t, startStep s c = .next t ∧ t = { s with cores := t.cores } ∧
    (∀ q, q ≠ c.core → t.core q = s.core q) ∧
    t.core c.core = { s.core c.core with cmds := (s.core c.core).cmds.map fun d =>
      if d.id = c.id then { c with sent := usesArray c.instr } else d } :=
  ⟨_, startStep_of_byRows s hi, rfl, (stepOnly_setCmd s c { c with sent := usesArray c.instr } rfl).cores,
    core_setCmd _ _ rfl⟩

end Steps

end Sys2Proof.Proofs

/-! Row steps of the matrix engine (R66, R67, R234 to R236, R239, R241, R245). -/

namespace Sys2Proof.Proofs

open Sys2Proof.Machine Sys2Proof.Laws

/-! ## How a row step ends -/

/-- What the end of a row step does to the state `y` that the row has left: the command moves on to `next`, or is over
after its last row. -/
structure RowEnd (c : Cmd) (y t : State) (last : Prop) (next : Cmd) : Prop where
  only : EngineOnly c y t
  core : t.core c.core = { y.core c.core with
    cmds := (t.core c.core).cmds, sb := (t.core c.core).sb, bufs := (t.core c.core).bufs }
  bufs : ∀ x, x ∈ (t.core c.core).bufs → x ∈ (y.core c.core).bufs
  teams : t.teams = y.teams
  goesOn : ¬last → (t.core c.core).cmds = (y.core c.core).cmds.map fun d => if d.id = c.id then next else d
  ends : last → Over y t c

section Ends
variable {c next : Cmd} {y : State} {last : Prop}

theorem rowEnd_setCmd (hcore : next.core = c.core) (hid : next.id = c.id) (hlast : ¬last) :
    RowEnd c y (y.setCmd next) last next where
  only := (stepOnly_setCmd y c next hcore).engineOnly
  core := by rw [core_setCmd _ _ hcore]
  bufs x hx := by rwa [core_setCmd _ _ hcore] at hx
  teams := rfl
  goesOn _ := by rw [core_setCmd _ _ hcore, hid]
  ends h := absurd h hlast

theorem rowEnd_finishCmd (hlast : last) : RowEnd c y (y.finishCmd c) last next where
  only := engineOnly_finishCmd ..
  core := by rw [core_finished]
  bufs x hx := by rwa [core_finished] at hx
  teams := teams_finishCmd ..
  goesOn h := absurd hlast h
  ends _ := over_finishCmd ..

theorem rowEnd_endArray (hlast : last) : RowEnd c y (y.endArray c) last next where
  only := (engineOnly_finishCmd ..).trans (stepOnly_purgeBufs ..).engineOnly
  core := by rw [State.endArray, core_purgeBufs, core_finished]
  bufs x hx := by
    have hx' := mem_of_mem_purgeBufs _ _ hx
    rwa [core_finished] at hx'
  teams := teams_finishCmd ..
  goesOn h := absurd hlast h
  ends _ := by
    obtain ⟨hcmds, hopen, hsig⟩ := over_finishCmd y c
    refine ⟨?_, hopen, hsig⟩
    rw [State.endArray, core_purgeBufs]
    exact hcmds

theorem rowEnd_of_endArray {P : Prop} [Decidable P] (hcore : next.core = c.core) (hid : next.id = c.id)
    (hlast : last ↔ ¬P) : RowEnd c y (if P then y.setCmd next else y.endArray c) last next := by
  split_ifs with h
  · exact rowEnd_setCmd hcore hid fun hl => hlast.mp hl h
  · exact rowEnd_endArray (hlast.mpr h)

theorem rowEnd_of_finishCmd {P : Prop} [Decidable P] (hcore : next.core = c.core) (hid : next.id = c.id)
    (hlast : last ↔ ¬P) : RowEnd c y (if P then y.setCmd next else y.finishCmd c) last next := by
  split_ifs with h
  · exact rowEnd_setCmd hcore hid fun hl => hlast.mp hl h
  · exact rowEnd_finishCmd (hlast.mpr h)

end Ends

/-! ## What a row step leaves -/

/-- The changes of a row step but for accumulator rows (R234): `z` is the state whose TLBs the row has filled. -/
def RowFrame (c : Cmd) (s z t : State) : Prop :=
  TlbsOnly s z ∧ (∀ q, q ≠ c.core → t.core q = z.core q) ∧
    (∀ u, u ≠ c.team → tabFind t.teams u = tabFind s.teams u) ∧
    (∀ x, x ∈ (t.core c.core).bufs → x ∈ (s.core c.core).bufs) ∧
    t.core c.core = { z.core c.core with acc := (t.core c.core).acc, cmds := (t.core c.core).cmds
                                         sb := (t.core c.core).sb, bufs := (t.core c.core).bufs
                                         stores := (t.core c.core).stores } ∧
    t = { z with cores := t.cores, teams := t.teams, openCmds := t.openCmds, reqs := t.reqs
                 nextId := t.nextId }

/-- The command goes on as `next`, or is over after its last row. -/
def GoesOn (c : Cmd) (s t : State) (last : Prop) (next : Cmd) : Prop :=
  (¬last → (t.core c.core).cmds = (s.core c.core).cmds.map fun d => if d.id = c.id then next else d) ∧
    (last → Over s t c)

/-- Accumulator row `r` of the command's tile holds the words `word`, and no other row has changed. -/
def RowIs (c : Cmd) (s t : State) (r : Nat) (word : Nat → Nat) : Prop :=
  (∀ n, n < 64 → accWord (tabGet 0 (t.core c.core).acc (c.tile.getD 0 * 128 + r)) n = word n % 2 ^ 32) ∧
    ∀ q, q ≠ c.tile.getD 0 * 128 + r → tabGet 0 (t.core c.core).acc q = tabGet 0 (s.core c.core).acc q

section Rows
variable {c next : Cmd} {s z y t : State} {last : Prop} (htlbs : TlbsOnly s z) (hy : StepOnly c z y)
  (hcore : y.core c.core = { z.core c.core with acc := (y.core c.core).acc, stores := (y.core c.core).stores })
  (ht : RowEnd c y t last next)
include htlbs hy hcore ht

theorem rowFrame_of_rowEnd : RowFrame c s z t := by
  have hall := hy.engineOnly.trans ht.only
  refine ⟨htlbs, hall.cores, fun u hu => (hall.teams u hu).trans (by rw [tlbsOnly_teams htlbs]), fun x hx => ?_, ?_,
    hall.state⟩
  · have hx' := ht.bufs x hx
    rwa [hcore, tlbsOnly_bufs htlbs] at hx'
  · rw [ht.core, hcore]

theorem goesOn_of_rowEnd : GoesOn c s t last next := by
  have hcmds : (y.core c.core).cmds = (s.core c.core).cmds := by rw [hcore, tlbsOnly_cmds htlbs]
  refine ⟨fun h => (ht.goesOn h).trans (by rw [hcmds]), fun h => ?_⟩
  obtain ⟨hover, hopen, hsig⟩ := ht.ends h
  exact ⟨hover.trans (by rw [hcmds]), hopen.trans (by rw [hy.openCmds, tlbsOnly_openCmds htlbs]), hsig⟩

omit htlbs hy hcore in
theorem acc_of_rowEnd : (t.core c.core).acc = (y.core c.core).acc := by rw [ht.core]

omit htlbs hy hcore in
theorem stores_of_rowEnd : (t.core c.core).stores = (y.core c.core).stores := by rw [ht.core]

omit hy hcore in
theorem rowIs_of_rowEnd {r : Nat} {word : Nat → Nat} (hrow : RowIs c z y r word) : RowIs c s t r word := by
  unfold RowIs
  rw [acc_of_rowEnd ht, ← tlbsOnly_acc htlbs]
  exact hrow

omit hcore in
/-- All that a row of the array leaves: it writes its accumulator row and stores nothing. -/
theorem row_of_rowEnd (hacc : y.core c.core = { z.core c.core with acc := (y.core c.core).acc }) {r : Nat}
    {word : Nat → Nat} (hrow : RowIs c z y r word) : RowIs c s t r word ∧ GoesOn c s t last next ∧
      RowFrame c s z t ∧ (t.core c.core).stores = (s.core c.core).stores := by
  have hcore : y.core c.core =
      { z.core c.core with acc := (y.core c.core).acc, stores := (y.core c.core).stores } := by rw [hacc]
  have hstores : (y.core c.core).stores = (z.core c.core).stores := by rw [hacc]
  exact ⟨rowIs_of_rowEnd htlbs ht hrow, goesOn_of_rowEnd htlbs hy hcore ht, rowFrame_of_rowEnd htlbs hy hcore ht,
    (stores_of_rowEnd ht).trans (hstores.trans (tlbsOnly_stores htlbs _))⟩

end Rows

/-! ## Words added to a row -/

/-- Row `row` of the command's tile replaced by the words that `v` gives, with the saturation of any of them (R67). -/
def addRow (s : State) (c : Cmd) (row : Nat) (v : Nat → Nat × Bool) : State :=
  (s.setAccRow c row (accOf (((List.range 64).map v).map (·.1)))).setSat c.team (((List.range 64).map v).any (·.2))

section AddRow
variable (s : State) (c : Cmd) (row : Nat) (v : Nat → Nat × Bool)

theorem stepOnly_addRow : StepOnly c s (addRow s c row v) := (stepOnly_setAccRow ..).trans (stepOnly_setSat ..)

theorem core_addRow : (addRow s c row v).core c.core =
    { s.core c.core with acc := ((addRow s c row v).core c.core).acc } := by
  rw [addRow, core_setSat, core_setAccRow]

theorem rowIs_addRow : RowIs c s (addRow s c row v) row fun n => (v n).1 := by
  refine ⟨fun n hn => ?_, fun q hq => ?_⟩
  · rw [addRow, core_setSat, acc_setAccRow, if_pos rfl, List.map_map]
    exact accWord_accOf _ hn
  · rw [addRow, core_setSat, acc_setAccRow, if_neg hq]

theorem tabFind_addRow {m : Team} (h : tabFind s.teams c.team = some m) : tabFind (addRow s c row v).teams c.team =
    some { m with sat := m.sat || (List.range 64).any fun n => (v n).2 } := by
  have hteam := tabFind_setSat (s.setAccRow c row (accOf (((List.range 64).map v).map (·.1)))) c.team
    (((List.range 64).map v).any (·.2)) h
  rw [List.any_map] at hteam
  exact hteam

end AddRow

/-! ## Steps by instruction -/

/-- The row step of a command (R234, R236, R238, R239, R241). -/
def rowStep (s : State) (c : Cmd) : Host.Outcome State Fault Refusal :=
  match c.instr with
  | .mma f =>
    let s := s.fillUnits c.who .plain false [((c.xa + w64 c.row * c.xb + w64 (256 * c.pass)).toNat, 256)]
    s.mmaRow c f fun m p => s.aRow c (afmtOf f) (c.xa + w64 m * c.xb) (w64 (256 * p))
  | .mmav f => s.mmaRow c f fun m p => .ok (c.vectorRow (f.imm.toNat / 512 % 8 + 1) m p)
  | .mmag f => s.mmagRow c f
  | .mrank f => s.mrankRow c f
  | .mdrain f => s.drainStep c f
  | _ => .next s

theorem exec_passRow {s : State} {id : Nat} {c : Cmd} (hc : s.cmd c.core id = some c) (hst : c.started = true)
    (hpark : c.parked = false) (hsent : usesArray c.instr = true → c.sent = true) :
    exec (.passRow c.core id) s = rowStep s c := by
  have hwaits : (!c.started || c.parked || (usesArray c.instr && !c.sent)) = false := by
    rw [hst, hpark]
    cases harray : usesArray c.instr
    · rfl
    · rw [hsent harray]
      rfl
  change execPassRow _ _ _ = _
  unfold execPassRow
  rw [hc]
  simp only [hwaits]
  rfl

section Instructions
variable (s : State) {c : Cmd} {f : FE3}

theorem rowStep_mma (h : c.instr = .mma f) : rowStep s c =
    (s.fillUnits c.who .plain false [((c.xa + w64 c.row * c.xb + w64 (256 * c.pass)).toNat, 256)]).mmaRow c f fun m p =>
      (s.fillUnits c.who .plain false [((c.xa + w64 c.row * c.xb + w64 (256 * c.pass)).toNat, 256)]).aRow c (afmtOf f)
        (c.xa + w64 m * c.xb) (w64 (256 * p)) := by
  rw [rowStep, h]

theorem rowStep_mmav (h : c.instr = .mmav f) : rowStep s c =
    s.mmaRow c f fun m p => .ok (c.vectorRow (f.imm.toNat / 512 % 8 + 1) m p) := by
  rw [rowStep, h]

theorem rowStep_mrank (h : c.instr = .mrank f) : rowStep s c = s.mrankRow c f := by
  rw [rowStep, h]

theorem rowStep_mdrain (h : c.instr = .mdrain f) : rowStep s c = s.drainStep c f := by
  rw [rowStep, h]

end Instructions

/-! ### MMA and MMAV -/

/-- The words of a pass row (R66, R67). -/
def passWords (s : State) (c : Cmd) (f : FE3) (b : PhysBuf) (d : BufDesc) (bs sa : List (BitVec 8)) (n : Nat) :
    Nat × Bool :=
  passWord c b d (afmtOf f) (ascOf f) (leNat bs) sa c.pass n
    (accWord (s.accRow c (c.xc.toNat % 128 + c.row)) n)

/-- The scales of a pass row leave their queue (R235). -/
def drawn (s : State) (c : Cmd) (n : Nat) : State := s.modTeam c.team fun t => { t with scales := t.scales.drop n }

theorem endArray_nextRow (s : State) (c : Cmd) (rows : Nat) : s.endArray (c.nextRow rows) = s.endArray c := by
  unfold Cmd.nextRow
  split <;> rfl

theorem core_nextRow (c : Cmd) (rows : Nat) : (c.nextRow rows).core = c.core := by
  unfold Cmd.nextRow
  split <;> rfl

theorem id_nextRow (c : Cmd) (rows : Nat) : (c.nextRow rows).id = c.id := by
  unfold Cmd.nextRow
  split <;> rfl

section Pass
variable {s z : State} {c : Cmd} {f : FE3} {m : Team} {d : BufDesc} {b : PhysBuf} {bs sa : List (BitVec 8)}
  {get : Nat → Nat → Got (List (BitVec 8))}

/-- A pass row whose buffer, bytes and scales are there. -/
theorem mmaRow_eq (hm : tabFind s.teams c.team = some m) (hd : tabFind m.bufs (f.imm.toNat / 8 % 2) = some d)
    (hpasses : f.imm.toNat / 512 % 8 + 1 ≤ d.passes) (hpair : paired (afmtOf f) (opRec d.record).fmt = true)
    (hthere : s.tileThere c (f.imm.toNat / 8 % 2) d = true)
    (hb : tabFind (s.core c.core).bufs (f.imm.toNat / 8 % 2) = some b) (hget : get c.row c.pass = .ok bs)
    (hsa : s.drawScales c (ascOf f) (classK (opRec d.record).fmt) = .ok sa) : s.mmaRow c f get =
    .next (if (c.nextRow (c.xc.toNat / 256 % 128 + 1)).pass < f.imm.toNat / 512 % 8 + 1 then
      (addRow (drawn s c sa.length) c (c.xc.toNat % 128 + c.row) (passWords s c f b d bs sa)).setCmd
        (c.nextRow (c.xc.toNat / 256 % 128 + 1))
      else (addRow (drawn s c sa.length) c (c.xc.toNat % 128 + c.row) (passWords s c f b d bs sa)).endArray c) := by
  have hrefused : (decide (d.passes < f.imm.toNat / 512 % 8 + 1) ||
      !paired (afmtOf f) (opRec d.record).fmt) = false := by
    rw [hpair, decide_eq_false (Nat.not_lt.mpr hpasses)]
    rfl
  simp only [State.mmaRow, hm, Option.bind_some, hd, hrefused, hthere, hb, hget, hsa, endArray_nextRow]
  rfl

theorem stepOnly_drawn (s : State) (c : Cmd) (n : Nat) : StepOnly c s (drawn s c n) := stepOnly_modTeam ..

theorem core_drawn (s : State) (c : Cmd) (n q : Nat) : (drawn s c n).core q = s.core q := core_modTeam ..

/-- R234 to R236: a pass row. -/
theorem row_of_pass (htlbs : TlbsOnly s z) (hm : tabFind s.teams c.team = some m)
    (hd : tabFind m.bufs (f.imm.toNat / 8 % 2) = some d)
    (hpasses : f.imm.toNat / 512 % 8 + 1 ≤ d.passes) (hpair : paired (afmtOf f) (opRec d.record).fmt = true)
    (hthere : s.tileThere c (f.imm.toNat / 8 % 2) d = true)
    (hb : tabFind (s.core c.core).bufs (f.imm.toNat / 8 % 2) = some b) (hget : get c.row c.pass = .ok bs)
    (hsa : z.drawScales c (ascOf f) (classK (opRec d.record).fmt) = .ok sa) :
    let next := c.nextRow (c.xc.toNat / 256 % 128 + 1)
    let w := passWords s c f b d bs sa
    ∃ t, z.mmaRow c f get = .next t ∧ RowIs c s t (c.xc.toNat % 128 + c.row) (fun n => (w n).1) ∧
      GoesOn c s t (f.imm.toNat / 512 % 8 + 1 ≤ next.pass) next ∧
      (RowFrame c s z t ∧ (t.core c.core).stores = (s.core c.core).stores) ∧
      tabFind t.teams c.team = some { m with
        scales := m.scales.drop sa.length
        sat := m.sat || (List.range 64).any fun n => (w n).2 } := by
  intro next w
  have hw : passWords z c f b d bs sa = w := by
    funext n
    rw [passWords, tlbsOnly_accRow htlbs]
    rfl
  have hstep := mmaRow_eq (s := z) ((tlbsOnly_teams htlbs).symm ▸ hm) hd hpasses hpair
    ((tlbsOnly_tileThere htlbs ..).trans hthere) (tlbsOnly_bufs htlbs _ ▸ hb) hget hsa
  rw [hw] at hstep
  have hteam : tabFind (drawn z c sa.length).teams c.team = some { m with scales := m.scales.drop sa.length } := by
    rw [drawn, tabFind_modTeam, if_pos rfl, tlbsOnly_teams htlbs, hm]
    rfl
  have hcore := core_addRow (drawn z c sa.length) c (c.xc.toNat % 128 + c.row) w
  rw [core_drawn] at hcore
  have hrow := rowIs_addRow (drawn z c sa.length) c (c.xc.toNat % 128 + c.row) w
  rw [RowIs, core_drawn] at hrow
  have hend := rowEnd_of_endArray (c := c) (y := addRow (drawn z c sa.length) c (c.xc.toNat % 128 + c.row) w)
    (core_nextRow c (c.xc.toNat / 256 % 128 + 1)) (id_nextRow ..)
    (Nat.not_lt (a := next.pass) (b := f.imm.toNat / 512 % 8 + 1)).symm
  obtain ⟨his, hgoes, hframe, hstores⟩ := row_of_rowEnd htlbs ((stepOnly_drawn ..).trans (stepOnly_addRow ..)) hend
    hcore hrow
  exact ⟨_, hstep, his, hgoes, ⟨hframe, hstores⟩, hend.teams ▸ tabFind_addRow _ _ _ _ hteam⟩

end Pass

/-! ### MRANK -/

section Rank
variable {s z : State} {c : Cmd} {f : FE3} {m : Team} {bs : List (BitVec 8)}

/-- The words of a row of MRANK: ranks added within the list (R239). -/
def rankWords (s : State) (c : Cmd) (f : FE3) (bs : List (BitVec 8)) (n : Nat) : Nat × Bool :=
  let len := c.xc.toNat / 2 ^ 32 % 2 ^ 16 + 1
  let xs := (List.range len).map fun j =>
    ((ffmt (afmtOf f)).getD fp32).decode c.ftz (elemOf (leNat bs) (fmtWidth (afmtOf f)) j)
  let old := accWord (s.accRow c (c.xc.toNat % 128 + c.row)) n
  if c.xc.toNat / 2 ^ 16 % 2 ^ 16 + n < len then intPass (rankOf xs (c.xc.toNat / 2 ^ 16 % 2 ^ 16 + n)) old
  else (old, false)

/-- R239: a row of MRANK. -/
theorem row_of_rank (hm : tabFind s.teams c.team = some m) :
    let w := fmtWidth (afmtOf f)
    let row := c.xa + w64 c.row * c.xb
    let len := c.xc.toNat / 2 ^ 32 % 2 ^ 16 + 1
    let v := rankWords s c f bs
    z = s.fillUnits c.who .plain false (units row.toNat (len * w / 8)) → row.toNat % (w / 8) = 0 →
    z.engineRead c .plain row.toNat (len * w / 8) = .ok bs →
    ∃ t, s.mrankRow c f = .next t ∧ RowIs c s t (c.xc.toNat % 128 + c.row) (fun n => (v n).1) ∧
      (RowFrame c s z t ∧ (t.core c.core).stores = (s.core c.core).stores) ∧
      GoesOn c s t (c.xc.toNat / 256 % 128 + 1 ≤ c.row + 1) { c with row := c.row + 1 } ∧
      tabFind t.teams c.team = some { m with sat := m.sat || (List.range 64).any fun n => (v n).2 } := by
  intro w row len v hz haligned hread
  have htlbs : TlbsOnly s z := hz ▸ tlbsOnly_fillUnits ..
  have hv : rankWords z c f bs = v := by
    funext n
    rw [rankWords, tlbsOnly_accRow htlbs]
    rfl
  have hstep : s.mrankRow c f = .next (if c.row + 1 < c.xc.toNat / 256 % 128 + 1 then
      (addRow z c (c.xc.toNat % 128 + c.row) v).setCmd { c with row := c.row + 1 }
      else (addRow z c (c.xc.toNat % 128 + c.row) v).endArray c) := by
    unfold State.mrankRow
    simp only [w, row, len] at haligned hz hread
    rw [← hv]
    simp only [haligned, ← hz, hread]
    rfl
  have hend := rowEnd_of_endArray (c := c) (y := addRow z c (c.xc.toNat % 128 + c.row) v)
    (next := { c with row := c.row + 1 }) rfl rfl
    (Nat.not_lt (a := c.row + 1) (b := c.xc.toNat / 256 % 128 + 1)).symm
  obtain ⟨his, hgoes, hframe, hstores⟩ := row_of_rowEnd htlbs (stepOnly_addRow ..) hend (core_addRow ..)
    (rowIs_addRow ..)
  exact ⟨_, hstep, his, ⟨hframe, hstores⟩, hgoes,
    hend.teams ▸ tabFind_addRow _ _ _ _ ((tlbsOnly_teams htlbs).symm ▸ hm)⟩

end Rank

/-! ### MDRAIN -/

/-- A row drained, and zeroed where the instruction says so (R241): `b` is the state that its elements have left. -/
def drained (b : State) (c : Cmd) (f : FE3) (e : List Span) (sc : List (BitVec 8)) (sat : Bool) : State :=
  (if f.imm.getLsbD 3 then (b.engineWrite c e sc).setAccRow c (drainRow0 c.xb + c.row) 0
    else b.engineWrite c e sc).setSat c.team sat

section Drain
variable (b : State) (c : Cmd) (f : FE3) (e : List Span) (sc : List (BitVec 8)) (sat : Bool)

theorem stepOnly_drained : StepOnly c b (drained b c f e sc sat) := by
  refine StepOnly.trans (StepOnly.trans (stepOnly_engineWrite b c e sc) ?_) (stepOnly_setSat ..)
  split
  · exact stepOnly_setAccRow ..
  · exact .refl ..

theorem core_drained : (drained b c f e sc sat).core c.core = { b.core c.core with
    acc := ((drained b c f e sc sat).core c.core).acc
    stores := ((drained b c f e sc sat).core c.core).stores } := by
  rw [drained, core_setSat]
  split
  · rw [core_setAccRow, core_engineWrite]
  · rw [core_engineWrite]

theorem stores_drained : ((drained b c f e sc sat).core c.core).stores =
    ((b.engineWrite c e sc).core c.core).stores := by
  rw [drained, core_setSat]
  split
  · rw [core_setAccRow]
  · rfl

theorem teams_drained {m : Team} (h : tabFind b.teams c.team = some m) :
    tabFind (drained b c f e sc sat).teams c.team = some { m with sat := m.sat || sat } := by
  refine tabFind_setSat _ _ _ ?_
  split
  · exact (congrArg (tabFind · c.team) (engineWrite_eq b c e sc ▸ rfl)).trans h
  · exact (congrArg (tabFind · c.team) (engineWrite_eq b c e sc ▸ rfl)).trans h

theorem rowIs_drained : RowIs c b (drained b c f e sc sat) (drainRow0 c.xb + c.row) fun n =>
    if f.imm.getLsbD 3 then 0 else accWord (b.accRow c (drainRow0 c.xb + c.row)) n := by
  have hacc : ((b.engineWrite c e sc).core c.core).acc = (b.core c.core).acc := by rw [core_engineWrite]
  unfold RowIs
  rw [drained, core_setSat]
  split_ifs with hzero
  · refine ⟨fun n hn => ?_, fun q hq => ?_⟩
    · rw [acc_setAccRow, if_pos rfl]
      simp [accWord]
    · rw [acc_setAccRow, if_neg hq, hacc]
  · rw [hacc]
    exact ⟨fun n hn => (Nat.mod_eq_of_lt (BitVec.isLt _)).symm, fun q hq => rfl⟩

end Drain

theorem sends_of_stores {s t u : State} {c : Cmd} {sp : List Span} {bs : List (BitVec 8)} (h : Sends s u c sp bs)
    (hstores : (t.core c.core).stores = (u.core c.core).stores) : Sends s t c sp bs := by
  unfold Sends
  rw [hstores]
  exact h

section DrainRow
variable {s z : State} {c : Cmd} {f : FE3} {m : Team} {d e : List Span}

/-- R241: a row of MDRAIN. -/
theorem row_of_drain (hm : tabFind s.teams c.team = some m) :
    let fmt := f.imm.toNat / 16 % 16
    let w := if fmt = 9 then 32 else fmtWidth fmt
    let row := c.xa + w64 c.row * sx (c.xb.extractLsb' 0 32)
    let r := drainRow0 c.xb + c.row
    let o := drainRow fmt c.ftz (s.accRow c r)
    let us := units row.toNat o.1.length
    let ue := units (c.xc + w64 (2 * c.row)).toNat o.2.1.length
    z = (s.fillUnits c.who .plain true us).fillUnits c.who .plain true ue →
    (w = 4 ∨ row.toNat % (w / 8) = 0) → z.spans c.who .plain true us = .ok d → z.spans c.who .plain true ue = .ok e →
    ∃ t b, s.drainStep c f = .next t ∧ Sends z b c d o.1 ∧ Sends b t c e o.2.1 ∧
      b = { z with cores := b.cores, nextId := b.nextId } ∧
      RowIs c s t r (fun n => if f.imm.getLsbD 3 then 0 else accWord (s.accRow c r) n) ∧ RowFrame c s z t ∧
      GoesOn c s t (drainRows f ≤ c.row + 1) { c with row := c.row + 1 } ∧
      tabFind t.teams c.team = some { m with sat := m.sat || o.2.2 } := by
  intro fmt w row r o us ue hz haligned hd he
  have htlbs : TlbsOnly s z := hz ▸ tlbsOnly_trans (tlbsOnly_fillUnits ..) (tlbsOnly_fillUnits ..)
  have hmis : ¬(w ≠ 4 ∧ row.toNat % (w / 8) ≠ 0) := fun h => haligned.elim h.1 h.2
  have hstep : s.drainStep c f = .next (if c.row + 1 < drainRows f then
      (drained (z.engineWrite c d o.1) c f e o.2.1 o.2.2).setCmd { c with row := c.row + 1 }
      else (drained (z.engineWrite c d o.1) c f e o.2.1 o.2.2).finishCmd c) := by
    unfold State.drainStep
    simp only [w, row, us, ue, o, fmt, r] at hmis hz hd he
    simp only [if_neg hmis, ← hz, hd, he]
    rfl
  have hacc : ((z.engineWrite c d o.1).core c.core).acc = (z.core c.core).acc := by rw [core_engineWrite]
  have hend := rowEnd_of_finishCmd (c := c) (y := drained (z.engineWrite c d o.1) c f e o.2.1 o.2.2)
    (next := { c with row := c.row + 1 }) rfl rfl (Nat.not_lt (a := c.row + 1) (b := drainRows f)).symm
  have hy := (stepOnly_engineWrite z c d o.1).trans (stepOnly_drained (z.engineWrite c d o.1) c f e o.2.1 o.2.2)
  have hcore : (drained (z.engineWrite c d o.1) c f e o.2.1 o.2.2).core c.core = { z.core c.core with
      acc := ((drained (z.engineWrite c d o.1) c f e o.2.1 o.2.2).core c.core).acc
      stores := ((drained (z.engineWrite c d o.1) c f e o.2.1 o.2.2).core c.core).stores } := by
    rw [core_drained, core_engineWrite]
  have hrow := rowIs_drained (z.engineWrite c d o.1) c f e o.2.1 o.2.2
  rw [RowIs, hacc, State.accRow, hacc, tlbsOnly_acc htlbs] at hrow
  refine ⟨_, _, hstep, sends_engineWrite .., ?_, engineWrite_eq .., ?_, rowFrame_of_rowEnd htlbs hy hcore hend,
    goesOn_of_rowEnd htlbs hy hcore hend, ?_⟩
  · exact sends_of_stores (sends_engineWrite ..) ((stores_of_rowEnd hend).trans (stores_drained ..))
  · exact rowIs_of_rowEnd htlbs hend (by rw [RowIs, tlbsOnly_acc htlbs]; exact hrow)
  · rw [hend.teams]
    refine teams_drained _ _ _ _ _ _ ?_
    rw [engineWrite_eq]
    exact (tlbsOnly_teams htlbs).symm ▸ hm

end DrainRow

end Sys2Proof.Proofs

/-! Buffers filled again, and the segments of gathered weights (R226, R232, R238). -/

namespace Sys2Proof.Proofs

open Sys2Proof.Machine Sys2Proof.Laws

/-! ## Buffers -/

section Buffers
variable (s : State) (c : Cmd) (n : Nat)

theorem putBuf_eq (d : BufDesc) (b : PhysBuf) : s.putBuf c n d b =
    { s with cores := (s.putBuf c n d b).cores, teams := (s.putBuf c n d b).teams } := by
  rw [State.putBuf, modTeam_eq]
  rfl

theorem loseBuf_eq : s.loseBuf c n = { s with cores := (s.loseBuf c n).cores, teams := (s.loseBuf c n).teams } := by
  rw [State.loseBuf, modTeam_eq]
  rfl

end Buffers

theorem losesBy_iff (o : OpRec) (code : Nat) : o.losesBy code = true ↔
    o.sealed = true ∧ (code = cSealGrant ∨ code = cSealKey ∨ code = cSealTag) := by
  simp [OpRec.losesBy, or_assoc]

/-! ## Refills -/

/-- The refill of a command's buffer from its descriptor (R226, R232). -/
def refillFrom (s : State) (c : Cmd) (n : Nat) (d : BufDesc) : Host.Outcome State Fault Refusal :=
  match (s.fillLoad c d).fillBuf c d with
  | .wait => .next (s.fillLoad c d)
  | .ok b => .next ((s.fillLoad c d).putBuf c n d b)
  | .fault a code =>
    if parks code then (s.fillLoad c d).matrixFault c a code
    else
      let t := (s.fillLoad c d).failBuf c n (opRec d.record) code
      match c.instr, c.vals with
      | .mmag _, [row, cnt, _, _, count] =>
        if segmentStatus code then t.refuseSegment c row.toNat cnt.toNat count.toNat code
        else t.matrixFault c a code
      | _, _ => t.matrixFault c a code

section Refill
variable {s z : State} {c : Cmd} {id n va code : Nat} {m : Team} {d : BufDesc} {x : PhysBuf}

theorem exec_bufferRefill (hc : s.cmd c.core id = some c) (hneeds : c.needs = some n)
    (hm : tabFind s.teams c.team = some m) (hd : tabFind m.bufs n = some d) (hsent : c.sent = true)
    (hpark : c.parked = false) (hstatus : c.status = 0) (hthere : s.tileThere c n d = false) :
    exec (.bufferRefill c.core id) s = refillFrom s c n d := by
  have hwaits : (!c.sent || c.parked || c.status != 0 || s.tileThere c n d) = false := by
    rw [hsent, hpark, hstatus, hthere]
    rfl
  change execBufferRefill _ _ _ = _
  unfold execBufferRefill
  rw [hc]
  simp only [hneeds, hm, Option.bind_some, hd, hwaits]
  rfl

/-- R226: the buffer holds its tile again. -/
theorem refill_ok (hm : tabFind s.teams c.team = some m) (hd : tabFind m.bufs n = some d) (hz : z = s.fillLoad c d)
    (hx : z.fillBuf c d = .ok x) : ∃ t m', refillFrom s c n d = .next t ∧
      t = { z with cores := t.cores, teams := t.teams } ∧
      (∀ q, q ≠ c.core → t.core q = z.core q) ∧
      t.core c.core = { z.core c.core with bufs := (t.core c.core).bufs } ∧
      (∀ j, tabFind (t.core c.core).bufs j = if j = n then some x else tabFind (s.core c.core).bufs j) ∧
      (∀ u, tabFind t.teams u = if u = c.team then some m' else tabFind s.teams u) ∧
      m' = { m with bufs := m'.bufs } ∧ ∀ j, tabFind m'.bufs j = tabFind m.bufs j := by
  have htlbs : TlbsOnly s z := hz ▸ tlbsOnly_fillLoad ..
  have hstep : refillFrom s c n d = .next (z.putBuf c n d x) := by
    unfold refillFrom
    rw [← hz, hx]
  refine ⟨_, { m with bufs := tabPut m.bufs n d }, hstep, putBuf_eq .., (stepOnly_putBuf ..).cores, ?_, fun j => ?_,
    fun u => ?_, rfl, fun j => ?_⟩
  · rw [core_putBuf]
  · rw [core_putBuf, ← tlbsOnly_bufs htlbs]
    exact tabFind_tabPut ..
  · by_cases hu : u = c.team
    · rw [if_pos hu, hu, tabFind_putBuf, tlbsOnly_teams htlbs, hm]
      rfl
    · rw [if_neg hu, (stepOnly_putBuf z c n d x).teams u hu, tlbsOnly_teams htlbs]
  · rw [tabFind_tabPut]
    split_ifs with hj
    · rw [hj, hd]
    · rfl

/-- R232: a fill that faults loses the buffer where a sealed check fails. -/
theorem refill_fault (hm : tabFind s.teams c.team = some m) (hmmag : ∀ f, c.instr ≠ .mmag f)
    (hparks : parks code = false) (hz : z = s.fillLoad c d) (hfault : z.fillBuf c d = .fault va code) :
    let lost := (opRec d.record).sealed = true ∧ (code = cSealGrant ∨ code = cSealKey ∨ code = cSealTag)
    ∃ b, refillFrom s c n d = .next ((b.cmdFault c code (w64 va) 1 fun d => d.queue == .matrix).getD b) ∧
      (¬ lost → b = z) ∧ (lost → b = { z with cores := b.cores, teams := b.teams } ∧
        (∀ q, q ≠ c.core → b.core q = z.core q) ∧
        b.core c.core = { z.core c.core with bufs := (b.core c.core).bufs } ∧
        (∀ j, tabFind (b.core c.core).bufs j = if j = n then none else tabFind (s.core c.core).bufs j) ∧
        ∀ u, tabFind b.teams u =
          if u = c.team then some { m with bufs := tabDel m.bufs n } else tabFind s.teams u) := by
  intro lost
  have htlbs : TlbsOnly s z := hz ▸ tlbsOnly_fillLoad ..
  have hstep : refillFrom s c n d = (z.failBuf c n (opRec d.record) code).matrixFault c va code := by
    unfold refillFrom
    rw [← hz, hfault]
    simp only [hparks]
    rw [if_neg Bool.false_ne_true]
    split
    case h_1 hi _ => exact absurd hi (hmmag _)
    case h_2 => rfl
  refine ⟨z.failBuf c n (opRec d.record) code, hstep.trans ?_, fun hkeep => ?_, fun hlost => ?_⟩
  · rw [State.matrixFault, hparks]
    rfl
  · rw [State.failBuf, if_neg fun h => hkeep ((losesBy_iff ..).mp h)]
  · rw [State.failBuf, if_pos ((losesBy_iff ..).mpr hlost)]
    refine ⟨loseBuf_eq .., (stepOnly_loseBuf ..).cores, by rw [core_loseBuf], fun j => ?_, fun u => ?_⟩
    · rw [core_loseBuf, ← tlbsOnly_bufs htlbs]
      exact tabFind_tabDel ..
    · by_cases hu : u = c.team
      · rw [if_pos hu, hu, tabFind_loseBuf, tlbsOnly_teams htlbs, hm]
        rfl
      · rw [if_neg hu, (stepOnly_loseBuf z c n).teams u hu, tlbsOnly_teams htlbs]

end Refill

/-! ## Segments -/

/-- The field of `n` bytes at `off` in bytes read from memory. -/
def fieldOf (l : List (BitVec 8)) (off n : Nat) : Nat := leNat ((l.drop off).take n)

/-- R238: an entry that is no legal one. -/
abbrev EntryBad (e : List (BitVec 8)) : Prop :=
  fieldOf e 2 2 ≠ 0 ∨ 127 < fieldOf e 0 1 ∨ fieldOf e 1 1 = 0 ∨ 128 < fieldOf e 0 1 + fieldOf e 1 1 ∨
    fieldOf e 8 4 % 32 ≠ 0

/-- The ranges of the header and of the entry of a segment. -/
def segmentUnits (c : Cmd) : List (Nat × Nat) :=
  [(c.xa.toNat, 16), ((c.xa + w64 (16 + 16 * c.seg)).toNat, 16)]

/-- The load of a segment whose header and entry have been read. -/
theorem exec_mmagSegment {s z : State} {id : Nat} {c : Cmd} {f : FE3} {h e : List (BitVec 8)}
    (hc : s.cmd c.core id = some c) (hi : c.instr = .mmag f) (hsent : c.sent = true) (hpark : c.parked = false)
    (hpasses : c.passes = 0) (hstatus : c.status = 0)
    (hz : z = s.fillUnits c.who .plain false (segmentUnits c))
    (hread : z.engineReads c .plain (segmentUnits c) = .ok [h, e]) (hsome : fieldOf h 0 4 ≠ 0)
    (hcount : fieldOf h 0 4 ≤ 4096) (hrsv : fieldOf h 10 2 = 0) (hrsv' : fieldOf h 12 4 = 0) :
    exec (.mmagSegment c.core id) s =
      z.loadSegment c f e (sx (BitVec.ofNat 32 (fieldOf h 4 4))) (fieldOf h 8 2) (fieldOf h 0 4) := by
  have hwaits : (!c.sent || c.parked || c.passes != 0 || c.status != 0) = false := by
    rw [hsent, hpark, hpasses, hstatus]
    rfl
  have hgood : ¬(fieldOf h 0 4 = 0 ∨ 4096 < fieldOf h 0 4 ∨ fieldOf h 10 2 ≠ 0 ∨ fieldOf h 12 4 ≠ 0) := by
    rw [hrsv, hrsv']
    omega
  change execMmagSegment _ _ _ = _
  unfold execMmagSegment
  rw [hc]
  dsimp only
  split
  case h_1 f' hi' =>
    obtain rfl : f' = f := Instr.mmag.inj (hi'.symm.trans hi)
    rw [if_neg (by rw [hwaits]; exact Bool.false_ne_true)]
    unfold segmentUnits at hz hread
    rw [← hz, hread]
    exact if_neg hgood
  case h_2 hne => exact absurd hi (hne f)

/-- The stamp of a load descriptor is the one it is given. -/
theorem descOf_stamp {r : BitVec 512} {k0 n0 p st : Nat} {d : BufDesc} (h : descOf r k0 n0 p st = some d) (st' : Nat) :
    ∃ d', descOf r k0 n0 p st' = some d' ∧ d = { d' with stamp := st } := by
  unfold descOf at h ⊢
  dsimp only at h ⊢
  split_ifs at h ⊢ with hbad
  exact ⟨_, rfl, (Option.some.inj h).symm⟩

/-- What is left of TLBs alone by the same names taken of two states. -/
theorem tlbsOnly_nextId {s z : State} (h : TlbsOnly s z) (n : Nat) :
    TlbsOnly { s with nextId := n } { z with nextId := n } := by
  obtain ⟨hz, hcores, hclusters⟩ := h
  refine ⟨?_, hcores, hclusters⟩
  rw [hz]

theorem tlbsOnly_sameId {s z : State} (h : TlbsOnly s z) : z.nextId = s.nextId := by rw [h.1]

/-- The passes that a segment's extent needs. -/
def segmentPasses (e : List (BitVec 8)) (r : BitVec 512) : Nat :=
  ((opRec r).kext - fieldOf e 8 4 + classK (opRec r).fmt - 1) / classK (opRec r).fmt

/-- The command once a segment's extent is loaded (R238). -/
def segmentLoaded (c : Cmd) (e : List (BitVec 8)) (astride : W64) (count passes stamp : Nat) : Cmd :=
  { c with
    passes := passes, buf := some (c.seg % 2, stamp)
    vals := [w64 (fieldOf e 0 1), w64 (fieldOf e 1 1), w64 (fieldOf e 8 4), astride, w64 count] }

/-- The address of the record that a segment's entry names. -/
def recordAt (c : Cmd) (e : List (BitVec 8)) : Nat := (c.xb + w64 (64 * fieldOf e 4 4)).toNat

/-- A segment's load once its record is read. -/
def loadRecord (s : State) (c : Cmd) (f : FE3) (e : List (BitVec 8)) (astride : W64) (n0 count : Nat)
    (r : BitVec 512) : Host.Outcome State Fault Refusal :=
  if recordBad r || !paired (afmtOf f) (opRec r).fmt || decide ((opRec r).kext ≤ fieldOf e 8 4) ||
      decide (8 < segmentPasses e r) then s.refuseSegment c (fieldOf e 0 1) (fieldOf e 1 1) count cShape
  else match descOf r (fieldOf e 8 4) n0 (segmentPasses e r) c.id with
    | none => s.refuseSegment c (fieldOf e 0 1) (fieldOf e 1 1) count cShape
    | some d' =>
      let d := { d' with stamp := s.nextId }
      let w := State.fillLoad { s with nextId := s.nextId + 1 } c d
      match w.fillBuf c d with
      | .wait => .next w
      | .fault a code =>
        if segmentStatus code then
          (w.failBuf c (c.seg % 2) (opRec r) code).refuseSegment c (fieldOf e 0 1) (fieldOf e 1 1) count code
        else w.matrixFault c a code
      | .ok b => .next ((w.putBuf c (c.seg % 2) d b).setCmd
          (segmentLoaded c e astride count (segmentPasses e r) s.nextId))

theorem loadSegment_eq (s : State) (c : Cmd) (f : FE3) (e : List (BitVec 8)) (astride : W64) (n0 count : Nat) :
    s.loadSegment c f e astride n0 count =
      if EntryBad e then s.refuseSegment c (fieldOf e 0 1) (fieldOf e 1 1) count cShape
      else match (s.fillUnits c.who .plain false (units (recordAt c e) 64)).engineRead c .plain (recordAt c e) 64 with
        | .wait => .next (s.fillUnits c.who .plain false (units (recordAt c e) 64))
        | .fault a code =>
          if segmentStatus code then (s.fillUnits c.who .plain false (units (recordAt c e) 64)).refuseSegment c
            (fieldOf e 0 1) (fieldOf e 1 1) count code
          else (s.fillUnits c.who .plain false (units (recordAt c e) 64)).matrixFault c a code
        | .ok bs => loadRecord (s.fillUnits c.who .plain false (units (recordAt c e) 64)) c f e astride n0 count
          (BitVec.ofNat 512 (leNat bs)) := rfl

section Segment
variable {s z y w : State} {c : Cmd} {f : FE3} {e bs : List (BitVec 8)} {astride : W64} {n0 count : Nat}
  {r : BitVec 512} {d : BufDesc} {x : PhysBuf}

theorem loadRecord_ok (hrecord : recordBad r = false) (hpair : paired (afmtOf f) (opRec r).fmt = true)
    (hkext : fieldOf e 8 4 < (opRec r).kext) (hpasses : segmentPasses e r ≤ 8)
    (hd : descOf r (fieldOf e 8 4) n0 (segmentPasses e r) y.nextId = some d)
    (hw : w = State.fillLoad { y with nextId := y.nextId + 1 } c d) (hx : w.fillBuf c d = .ok x) :
    loadRecord y c f e astride n0 count r = .next ((w.putBuf c (c.seg % 2) d x).setCmd
      (segmentLoaded c e astride count (segmentPasses e r) y.nextId)) := by
  obtain ⟨d', hd', hstamp⟩ := descOf_stamp hd c.id
  have hlegal : (recordBad r || !paired (afmtOf f) (opRec r).fmt || decide ((opRec r).kext ≤ fieldOf e 8 4) ||
      decide (8 < segmentPasses e r)) = false := by
    rw [hrecord, hpair, decide_eq_false (Nat.not_le.mpr hkext), decide_eq_false (Nat.not_lt.mpr hpasses)]
    rfl
  unfold loadRecord
  rw [if_neg (by rw [hlegal]; exact Bool.false_ne_true), hd']
  dsimp only
  rw [← hstamp, ← hw, hx]

/-- R238: a segment whose entry and record are legal is loaded. -/
theorem loadSegment_ok (hgood : ¬EntryBad e)
    (hy : y = z.fillUnits c.who .plain false (units (recordAt c e) 64))
    (hread : y.engineRead c .plain (recordAt c e) 64 = .ok bs) (hr : r = BitVec.ofNat 512 (leNat bs))
    (hrecord : recordBad r = false) (hpair : paired (afmtOf f) (opRec r).fmt = true)
    (hkext : fieldOf e 8 4 < (opRec r).kext) (hpasses : segmentPasses e r ≤ 8)
    (hd : descOf r (fieldOf e 8 4) n0 (segmentPasses e r) y.nextId = some d)
    (hw : w = State.fillLoad { y with nextId := y.nextId + 1 } c d) (hx : w.fillBuf c d = .ok x) :
    z.loadSegment c f e astride n0 count = .next ((w.putBuf c (c.seg % 2) d x).setCmd
      (segmentLoaded c e astride count (segmentPasses e r) y.nextId)) := by
  rw [loadSegment_eq, if_neg hgood, ← hy, hread]
  dsimp only
  rw [← hr, loadRecord_ok hrecord hpair hkext hpasses hd hw hx]

/-- What a segment's load leaves (R238). -/
theorem segment_ok (htlbs : TlbsOnly s z) (hgood : ¬EntryBad e)
    (hy : y = z.fillUnits c.who .plain false (units (recordAt c e) 64))
    (hread : y.engineRead c .plain (recordAt c e) 64 = .ok bs) (hr : r = BitVec.ofNat 512 (leNat bs))
    (hrecord : recordBad r = false) (hpair : paired (afmtOf f) (opRec r).fmt = true)
    (hkext : fieldOf e 8 4 < (opRec r).kext) (hpasses : segmentPasses e r ≤ 8)
    (hd : descOf r (fieldOf e 8 4) n0 (segmentPasses e r) s.nextId = some d)
    (hw : w = State.fillLoad { y with nextId := s.nextId + 1 } c d) (hx : w.fillBuf c d = .ok x) :
    TlbsOnly { s with nextId := s.nextId + 1 } w ∧ ∃ t, z.loadSegment c f e astride n0 count = .next t ∧
      (∀ j, tabFind (t.core c.core).bufs j =
        if j = c.seg % 2 then some x else tabFind (s.core c.core).bufs j) ∧
      (∀ u, tabFind t.teams u = if u = c.team then
        (tabFind s.teams u).map fun m => { m with bufs := tabPut m.bufs (c.seg % 2) d } else tabFind s.teams u) ∧
      ((t.core c.core).cmds = (s.core c.core).cmds.map fun q =>
        if q.id = c.id then segmentLoaded c e astride count (segmentPasses e r) s.nextId else q) ∧
      t.core c.core = { w.core c.core with bufs := (t.core c.core).bufs, cmds := (t.core c.core).cmds } ∧
      (∀ q, q ≠ c.core → t.core q = w.core q) ∧ t = { w with cores := t.cores, teams := t.teams } := by
  have hall : TlbsOnly s y := hy ▸ tlbsOnly_trans htlbs (tlbsOnly_fillUnits ..)
  have hname := tlbsOnly_sameId hall
  rw [← hname] at hd hw
  have hfilled : TlbsOnly { s with nextId := s.nextId + 1 } w := by
    rw [hw, hname]
    exact tlbsOnly_trans (tlbsOnly_nextId hall _) (tlbsOnly_fillLoad ..)
  have hcore := core_setCmd (w.putBuf c (c.seg % 2) d x)
    (segmentLoaded c e astride count (segmentPasses e r) y.nextId) (i := c.core) rfl
  rw [core_putBuf] at hcore
  refine ⟨hfilled, _, loadSegment_ok hgood hy hread hr hrecord hpair hkext hpasses hd hw hx, fun j => ?_,
    fun u => ?_, ?_, ?_, ((stepOnly_putBuf ..).trans (stepOnly_setCmd _ c (segmentLoaded ..) rfl)).cores, ?_⟩
  · rw [hcore, tlbsOnly_bufs hfilled]
    exact tabFind_tabPut ..
  · have hteams : w.teams = s.teams := (tlbsOnly_teams hfilled).trans rfl
    by_cases hu : u = c.team
    · rw [if_pos hu, hu, ← hteams]
      exact tabFind_putBuf ..
    · rw [if_neg hu, ← hteams]
      exact (stepOnly_putBuf w c (c.seg % 2) d x).teams u hu
  · rw [hcore, tlbsOnly_cmds hfilled, hname]
    rfl
  · rw [hcore]
  · have hput := putBuf_eq w c (c.seg % 2) d x
    rw [State.setCmd, hput]
    rfl

/-- The command as it goes on to its next segment. -/
def segmentOver (c : Cmd) : Cmd :=
  { c with seg := c.seg + 1, pass := 0, row := 0, passes := 0, buf := none, vals := [], status := 0 }

/-- The state once a segment's status word is on its way (R238). -/
def segmentClosed (y : State) (c : Cmd) (sp : List Span) (status : Nat) : State :=
  ((y.engineWrite c sp (leBytes 4 status)).purgeBufs c.core).setCmd (segmentOver c)

theorem stepOnly_segmentClosed (y : State) (c : Cmd) (sp : List Span) (status : Nat) :
    StepOnly c y (segmentClosed y c sp status) :=
  ((stepOnly_engineWrite ..).trans (stepOnly_purgeBufs ..)).trans (stepOnly_setCmd _ c _ rfl)

theorem segmentClosed_eq (y : State) (c : Cmd) (sp : List Span) (status : Nat) : segmentClosed y c sp status =
    { y with
      cores := (segmentClosed y c sp status).cores, nextId := (segmentClosed y c sp status).nextId } := by
  have hwrite := engineWrite_eq y c sp (leBytes 4 status)
  rw [segmentClosed, hwrite]
  rfl

theorem core_segmentClosed (y : State) (c : Cmd) (sp : List Span) (status : Nat) :
    (segmentClosed y c sp status).core c.core = { y.core c.core with
      bufs := ((segmentClosed y c sp status).core c.core).bufs
      stores := ((y.engineWrite c sp (leBytes 4 status)).core c.core).stores
      cmds := (y.core c.core).cmds.map fun d => if d.id = c.id then segmentOver c else d } := by
  rw [segmentClosed, core_setCmd _ (segmentOver c) (i := c.core) rfl, core_purgeBufs, core_engineWrite]
  rfl

/-- R238: a refused segment's rows are zero and its status is on its way. -/
theorem refuseSegment_ok {row cnt status : Nat} {sp : List Span} (hmore : c.seg + 1 < count) :
    let ws := units (c.xa + w64 (0x1C + 16 * c.seg)).toNat 4
    y = (z.zeroAcc c row cnt).fillUnits c.who .plain true ws → y.spans c.who .plain true ws = .ok sp →
    z.refuseSegment c row cnt count status = .next (segmentClosed y c sp status) := by
  intro ws hy hsp
  unfold State.refuseSegment State.closeSegment
  simp only [ws] at hy hsp
  simp only [← hy, hsp, if_pos hmore]
  rfl

/-- What a refused segment leaves. -/
theorem segment_refused {sp : List Span} (htlbs : TlbsOnly s z) (hbad : EntryBad e) (hmore : c.seg + 1 < count) :
    let ws := units (c.xa + w64 (0x1C + 16 * c.seg)).toNat 4
    y = (z.zeroAcc c (fieldOf e 0 1) (fieldOf e 1 1)).fillUnits c.who .plain true ws →
    y.spans c.who .plain true ws = .ok sp →
    ∃ t, z.loadSegment c f e astride n0 count = .next t ∧ Sends y t c sp (leBytes 4 cShape) ∧
      (∀ r, tabGet 0 (t.core c.core).acc r =
        let i := r - c.tile.getD 0 * 128
        if c.tile.getD 0 * 128 ≤ r ∧ fieldOf e 0 1 ≤ i ∧ i < fieldOf e 0 1 + fieldOf e 1 1 ∧ i < 128 then 0
        else tabGet 0 (s.core c.core).acc r) ∧
      ((t.core c.core).cmds = (s.core c.core).cmds.map fun d => if d.id = c.id then segmentOver c else d) ∧
      (∀ q, q ≠ c.core → t.core q = y.core q) ∧ t = { y with cores := t.cores, nextId := t.nextId } := by
  intro ws hy hsp
  have hfilled : TlbsOnly (z.zeroAcc c (fieldOf e 0 1) (fieldOf e 1 1)) y := hy ▸ tlbsOnly_fillUnits ..
  have hcore := core_segmentClosed y c sp cShape
  have hstep : z.loadSegment c f e astride n0 count = .next (segmentClosed y c sp cShape) := by
    rw [loadSegment_eq, if_pos hbad, refuseSegment_ok hmore hy hsp]
  refine ⟨_, hstep, sends_of_stores (sends_engineWrite ..) (by rw [hcore]), fun r => ?_, ?_,
    (stepOnly_segmentClosed ..).cores, segmentClosed_eq ..⟩
  · rw [hcore, tlbsOnly_acc hfilled, acc_zeroAcc, tlbsOnly_acc htlbs]
    exact if_congr (by omega) rfl rfl
  · rw [hcore, tlbsOnly_cmds hfilled, core_zeroAcc, tlbsOnly_cmds htlbs]

end Segment

/-! ## The matrix engine -/

/-- Settles O48: the start of each kind of command, the row step of each kind, the refill of a buffer and the load of a
segment, each by what its step leaves of its core and its team. -/
theorem matrixEngine : Obligations.matrixEngine := by
  unfold Obligations.matrixEngine
  refine ⟨fun s c h => ?_, fun s id c m hc hst hpark hsent hm => ?_,
    fun s id n c m d x hc hneeds hm hd hsent hpark hstatus hthere hx => ⟨tlbsOnly_fillLoad .., ?_⟩,
    fun s id n va code c m d hc hneeds hm hd hsent hpark hstatus hthere hmmag hparks hfault => ?_,
    fun s id c f h e hc hi hsent hpark hpasses hstatus hread hsome hcount hrsv hrsv' => ?_⟩
  · dsimp only
    rw [exec_matrixCommandStart h]
    refine ⟨fun f bs m hi hm hread => ⟨tlbsOnly_fillUnits .., start_mrec_of_bad (c := begun c) hi rfl hread,
        start_mrec (c := begun c) hi rfl hm hread⟩,
      fun f m r d x hi hm hr hd hx => ⟨tlbsOnly_fillLoad .., start_mldb (c := begun c) hi rfl hm hr hd hx⟩,
      fun f => start_mzero (c := begun c), fun f => start_mmova (c := begun c),
      fun f => start_mmova_of_nil (c := begun c), fun f => start_mmovv (c := begun c),
      fun f d => start_mqry (c := begun c), fun f => start_mqry_of_nil (c := begun c),
      start_byRows (c := begun c)⟩
  · dsimp only
    rw [exec_passRow hc hst hpark hsent]
    refine ⟨fun f hi d b bs sa hd hpasses hpair hthere hb hget hsa => ?_,
      fun f hi d b bs sa hd hpasses hpair hthere hb hget hsa => ?_, fun f bs hi haligned hread => ?_,
      fun f d e hi haligned hd he => ?_⟩
    · rw [rowStep_mma s hi]
      exact row_of_pass (tlbsOnly_fillUnits ..) hm hd hpasses hpair hthere hb hget hsa
    · rw [rowStep_mmav s hi]
      exact row_of_pass (tlbsOnly_refl s) hm hd hpasses hpair hthere hb hget hsa
    · rw [rowStep_mrank s hi]
      exact row_of_rank hm rfl haligned hread
    · rw [rowStep_mdrain s hi]
      exact row_of_drain hm rfl haligned hd he
  · rw [exec_bufferRefill hc hneeds hm hd hsent hpark hstatus hthere]
    exact refill_ok hm hd rfl hx
  · dsimp only
    rw [exec_bufferRefill hc hneeds hm hd hsent hpark hstatus hthere]
    exact refill_fault hm hmmag hparks rfl hfault
  · dsimp only
    rw [exec_mmagSegment hc hi hsent hpark hpasses hstatus rfl hread hsome hcount hrsv hrsv']
    have hz := tlbsOnly_fillUnits s c.who .plain false (segmentUnits c)
    exact ⟨hz, fun bs r d x hgood hread' hr hrecord hpair hkext hpasses' hd hx =>
        segment_ok hz hgood rfl hread' hr hrecord hpair hkext hpasses' hd rfl hx,
      fun sp hbad hmore hsp => segment_refused hz hbad hmore rfl hsp⟩

end Sys2Proof.Proofs

/-! Full and empty operands, and stages that are not active (R83, R85, R138). -/

namespace Sys2Proof.Proofs

open Sys2Proof.Machine Sys2Proof.Laws

/-! ## What keeps an instruction from its body -/

/-- An instruction is issued in stage `st`, `bytes` long, with these operands. -/
def Issues (i : Instr) (s : State) (st bytes : Nat) (srcs : List SrcOp) (dsts : List DstOp) : Prop :=
  ∃ body, exec i s = issue st bytes srcs dsts body s

section Issue
variable {s : State} {e : Env} {i : Instr} {st bytes : Nat} {srcs : List SrcOp} {dsts : List DstOp}
  (hi : Issues i s st bytes srcs dsts) (he : s.issuer = some e) (hfree : e.task.hold = .free)
include hi he hfree

/-- R83, R138: in a stage that is not active the PC advances, and the operands are not asked for. -/
theorem becomes_moved_of_inactive (hst : e.task.stageActive st = false) :
    Machine.Becomes i s e (Moved e.task · bytes) := by
  obtain ⟨body, hexec⟩ := hi
  refine ⟨_, _, ?_, onlyTask_commit he (e.task.advance bytes), rfl⟩
  rw [hexec]
  simp [issue, he, hfree, hst]

variable (hst : e.task.stageActive st = true)
include hst

/-- R85: an empty source whose FE bit is 1. -/
theorem faults_feTrap (htrap : srcs.any e.task.srcTraps = true) : Faults i s e cFeTrap 0 := by
  obtain ⟨body, hexec⟩ := hi
  refine ⟨false, false, false, ?_⟩
  rw [hexec]
  simp [issue, he, hfree, hst, htrap]

/-- R85: an empty operand where no source traps. -/
theorem holds_of_empty (htrap : srcs.any e.task.srcTraps = false)
    (hempty : (srcs.any e.task.srcEmpty || dsts.any e.task.dstEmpty) = true) : Holds i s e := by
  obtain ⟨body, hexec⟩ := hi
  rw [Holds, hexec]
  simp [issue, he, hfree, hst, htrap, hempty]

end Issue

/-! ## The issue of single instructions -/

section Instructions
variable (s : State)

theorem issues_add (f : FS) : Issues (.add f) s 0 4 (FS.srcs f) [.x f.xd] :=
  ⟨_, by rw [exec, execAdd, scalarS, scalar]⟩

theorem issues_addSw (f : FSW) : Issues (.addSw f) s f.st.toNat 8 (FSW.srcs f) [.x f.xd] :=
  ⟨_, by rw [exec, execAddSw, scalarSW, scalar]⟩

theorem issues_faddSw (ty : FTy) (f : FSW) : Issues (.faddSw ty f) s f.st.toNat 8 (FSW.srcs f) [.x f.xd] :=
  ⟨_, by rw [exec, execFaddSw, fpSW, scalarFl]⟩

theorem issues_moviX3 (f : FX3) : Issues (.moviX3 f) s f.st.toNat 12 [] [.x f.xd] :=
  ⟨_, by rw [exec, execMoviX3, scalar]⟩

theorem issues_ld (fn : BitVec 4) (f : FM) :
    Issues (.ld fn f) s f.st.toNat 8 [.x f.xa f.fea, .x f.xb f.feb] [.x f.xd] :=
  ⟨_, by rw [exec, execLd]⟩

theorem issues_st (fn : BitVec 4) (f : FM) :
    Issues (.st fn f) s f.st.toNat 8 [.x f.xa f.fea, .x f.xb f.feb, .x f.xd f.fed] [] :=
  ⟨_, by rw [exec, execSt]⟩

theorem issues_vadd (f : FV) : Issues (.vadd f) s f.st.toNat 8 [FV.srcA f, FV.srcB f (FV.sb f)]
    [.v f.vd.toNat f.g.toNat] :=
  ⟨_, by rw [exec, execVadd, vecFp2, vecEach]⟩

theorem issues_vmov (f : FV) : Issues (.vmov f) s f.st.toNat 8 [FV.srcA f] [.v f.vd.toNat f.g.toNat] :=
  ⟨_, by rw [exec, execVmov, vecEach]⟩

theorem issues_vld (f : FVM) :
    Issues (.vld f) s f.st.toNat 8 [.x f.xa f.fea, .x f.xb f.feb] [.v f.vd.toNat f.g.toNat] :=
  ⟨_, by rw [exec, execVld]⟩

theorem issues_vldv (f : FVV) : Issues (.vldv f) s f.st.toNat 8
    [.x f.xa f.fea, .x f.xb f.feb, .x f.xm f.fem] [.v f.vd.toNat f.g.toNat] :=
  ⟨_, by rw [exec, execVldv]⟩

theorem issues_mzero (f : FE2) : Issues (.mzero f) s f.st.toNat 8 [] [] :=
  ⟨_, by rw [exec, execMzero]⟩

theorem issues_mma (f : FE3) : Issues (.mma f) s f.e.st.toNat 12 [FE3.srcA f, FE3.srcB f, FE3.srcC f] [] :=
  ⟨_, by rw [exec, execMma]⟩

theorem issues_cpy (f : FE3) : Issues (.cpy f) s f.e.st.toNat 12 [FE3.srcA f, FE3.srcB f, FE3.srcC f] [] :=
  ⟨_, by rw [exec, execCpy]⟩

end Instructions

/-! ## Operands of the scalar forms -/

section Scalar
variable (t : Task) (a b d : BitVec 6) (fa fb : Bool)

theorem any_srcTraps_pair : [SrcOp.x a fa, .x b fb].any t.srcTraps =
    (fa && t.xIsEmpty a || fb && t.xIsEmpty b) := by
  simp [Task.srcTraps]

theorem any_empty_pair : ([SrcOp.x a fa, .x b fb].any t.srcEmpty || [DstOp.x d].any t.dstEmpty) =
    (t.xIsEmpty a || t.xIsEmpty b || t.xIsEmpty d) := by
  simp [Task.srcEmpty, Task.dstEmpty]

end Scalar

/-- Settles O3: each instruction is an issue of its stage, length and operands, and what keeps it from its body does
not ask what the body is. -/
theorem operandRules : Obligations.operandRules := by
  unfold Obligations.operandRules
  refine ⟨fun s e he hfree => ⟨fun f hst htrap => ?_, fun f htrap hempty hst => ?_,
      fun f hst => ⟨fun htrap => ?_, fun htrap hempty => ?_⟩, fun ty f hst htrap => ?_, fun f hst hfe hempty => ?_⟩,
    fun s e he hfree => ?_⟩
  · exact faults_feTrap (issues_add s f) he hfree hst ((any_srcTraps_pair ..).trans htrap)
  · exact holds_of_empty (issues_add s f) he hfree hst ((any_srcTraps_pair ..).trans htrap)
      ((any_empty_pair ..).trans hempty)
  · exact faults_feTrap (issues_addSw s f) he hfree hst ((any_srcTraps_pair ..).trans htrap)
  · exact holds_of_empty (issues_addSw s f) he hfree hst ((any_srcTraps_pair ..).trans htrap)
      ((any_empty_pair ..).trans hempty)
  · exact faults_feTrap (issues_faddSw s ty f) he hfree hst ((any_srcTraps_pair ..).trans htrap)
  · have htrap : e.task.srcTraps (FV.srcA f) = true := by simp [FV.srcA, Task.srcTraps, hfe, hempty]
    exact faults_feTrap (issues_vadd s f) he hfree hst (by rw [List.any_cons, htrap, Bool.true_or])
  · have skips {i st bytes srcs dsts} (hi : Issues i s st bytes srcs dsts) :=
      becomes_moved_of_inactive hi he hfree
    exact ⟨fun f => skips (issues_add s f), fun f => skips (issues_addSw s f), fun f => skips (issues_moviX3 s f),
      fun fn f hst => ⟨skips (issues_ld s fn f) hst, skips (issues_st s fn f) hst⟩,
      fun f hst => ⟨skips (issues_vadd s f) hst, skips (issues_vmov s f) hst⟩, fun f => skips (issues_vld s f),
      fun f => skips (issues_vldv s f), fun f => skips (issues_mzero s f),
      fun f hst => ⟨skips (issues_mma s f) hst, skips (issues_cpy s f) hst⟩⟩

end Sys2Proof.Proofs

/-! Element-wise vector instructions, and the special functions whose results are on their way (R79, R84, R181 to
R188). -/

namespace Sys2Proof.Proofs

open Sys2Proof.Machine Sys2Proof.Laws

/-! ## Registers that are empty -/

theorem getLsbD_setBit {n : Nat} (m : BitVec n) {i : Nat} (hi : i < n) (j : Nat) :
    (setBit m i).getLsbD j = (m.getLsbD j || j == i) := by
  by_cases hj : j < n
  · rcases Nat.lt_trichotomy j i with h | rfl | h
    · simp [setBit, hj, h, h.ne]
    · simp [setBit, hj]
    · have hsub : j - i ≠ 0 := by omega
      simp [setBit, hj, h.ne', Nat.not_lt.mpr h.le, hsub]
  · have hne : j ≠ i := by omega
    simp [BitVec.getLsbD_of_ge _ _ (Nat.le_of_not_lt hj), hne]

theorem getLsbD_foldl_setBit {n : Nat} {l : List Nat} (hl : ∀ i ∈ l, i < n) (m : BitVec n) (j : Nat) :
    (l.foldl setBit m).getLsbD j = (m.getLsbD j || l.contains j) := by
  induction l generalizing m with
  | nil => simp
  | cons i l ih =>
    obtain ⟨hi, hl⟩ := List.forall_mem_cons.mp hl
    rw [List.foldl_cons, ih hl, getLsbD_setBit m hi, List.contains_cons, Bool.or_assoc]

theorem phys_lt (t : Task) {n : Nat} (hn : n < 32) : t.phys n < 32 := by
  unfold Task.phys
  split_ifs <;> omega

/-- R84: the registers of a group read empty, and every other as before. -/
theorem getLsbD_emptyV (t : Task) {d g : Nat} (h : d + g ≤ 32) (r : Nat) :
    (t.emptyV d g).vEmpty.getLsbD r = (t.vEmpty.getLsbD r || (t.physList d g).contains r) := by
  have hfold : (t.emptyV d g).vEmpty = (t.physList d g).foldl setBit t.vEmpty := by
    rw [Task.physList, List.foldl_map]
    rfl
  rw [hfold, getLsbD_foldl_setBit fun p hp => ?_]
  obtain ⟨i, hi, rfl⟩ := List.mem_map.mp hp
  rw [List.mem_range] at hi
  exact phys_lt t (by omega)

/-! ## Elements -/

/-- R79, R184: what a shape that T does not divide and a predicate of another width come to. -/
theorem shapeOrPred_refused {t : Task} {p w : Nat} {rest : Nat → Act}
    (hbad : t.shapeBits % w ≠ 0 ∨ t.predFits p w = false) :
    (match t.perRow w with
      | none => shapeFault
      | some c => if !t.predFits p w then shapeFault else rest c) = shapeFault :=
  shape_refused fun c hc => by rw [predFits_of_bad hbad hc]; rfl

section Elementwise
variable {s : State} {e : Env} {f : FV} {i : Instr} {srcs : List SrcOp} (hl : e.task.Legal)
  (hd : f.vd.toNat + f.g.toNat ≤ 32)

include hl hd in
/-- What an element-wise instruction lists as written is its tile. -/
theorem tile_elements {c : Nat} (hs : e.task.shapeBits = c * FV.w f) (op : Nat → Nat × Fl) :
    let n := f.g.toNat * e.task.rows.toNat * c
    let act := e.task.activeN f.p.toNat n
    Tile e.task (e.task.putElems (FV.w f) c f.vd.toNat 0 (frameVals f.z n act op).1) (FV.w f) c f.vd.toNat n
      (framed f.z act fun j => (op j).1) := by
  intro n act
  have hG := tileGrid_fits hl (fmtWidth_pos _) hs f.vd.toNat
  have ⟨_, hc, _, hrows, _⟩ := hG
  have hact : act ≤ n := activeN_le ..
  rw [frameVals_eq _ hact]
  refine tile_putElems hG (length_framed _ (by simp) hact) (fun j => reg_lt_of_group hc hrows hd) fun j hj => ?_
  rw [join_getElem?_framed _ (by simp) hj]
  unfold framed
  split_ifs with hj
  · simp [hj]
  all_goals rfl

section Each
variable {op : Team → Task → Nat → Nat → Nat × Fl} (hexec : exec i s = vecEach f srcs op s)
  (h : CanIssue s e f.st.toNat srcs [.v f.vd.toNat f.g.toNat])
include hexec h

theorem vecEach_faults (hbad : e.task.shapeBits % FV.w f ≠ 0 ∨ e.task.predFits f.p.toNat (FV.w f) = false) :
    Faults i s e cShape 0 :=
  faults_of_body hexec h (shapeOrPred_refused hbad)

theorem exec_vecEach {c : Nat} (hs : e.task.shapeBits = c * FV.w f)
    (hp : e.task.predFits f.p.toNat (FV.w f) = true) :
    let n := f.g.toNat * e.task.rows.toNat * c
    let act := e.task.activeN f.p.toNat n
    exec i s = .next ((s.addFlags e.uid (flagsOf act fun j => (op e.team e.task c j).2)).commit e
      ((e.task.putElems (FV.w f) c f.vd.toNat 0 (frameVals f.z n act (op e.team e.task c)).1).advance 8)) := by
  intro n act
  have hrow : e.task.perRow (FV.w f) = some c := perRow_of_mul (fmtWidth_pos _) hs
  rw [← frameVals_snd f.z (activeN_le ..) (op e.team e.task c), hexec, vecEach, issue_ready h]
  simp only [hrow, hp, Bool.not_true, Bool.false_eq_true, if_false]
  rfl

include hl hd in
/-- R181, R184: `op` of the active elements, or SHAPE. -/
theorem elements_of_vecEach : Elements i s e f (op e.team e.task) :=
  ⟨fun _ hs hp => tileOp_of_commit h.1 (exec_vecEach hexec h hs hp) (onlyV_putElems ..) (tile_elements hl hd hs _),
    vecEach_faults hexec h⟩

end Each

/-! ## Floating point -/

section Float
include hl hd

/-- R185, R183: an instruction of two operands, the second VB or the scalar, with one rounding. -/
theorem elements_of_vecFp2 (op : Rnd → FVal → FVal → FVal × Fl) (hexec : exec i s = vecFp2 f op s)
    (h : CanIssue s e f.st.toNat [FV.srcA f, FV.srcB f (FV.sb f)] [.v f.vd.toNat f.g.toNat]) :
    Elements i s e f fun c j => FV.round f e.team (op e.team.rnd (FV.val f e.team (FV.a f e.task c j))
      (FV.val f e.team (FV.b f (FV.sb f) e.task c j))) :=
  elements_of_vecEach hl hd hexec h

/-- R185: the same with VC as the third operand. -/
theorem elements_of_vecFp3 (op : Rnd → FVal → FVal → FVal → FVal × Fl) (hexec : exec i s = vecFp3 f op s)
    (h : CanIssue s e f.st.toNat [FV.srcA f, FV.srcB f (FV.sb f), FV.srcC f] [.v f.vd.toNat f.g.toNat]) :
    Elements i s e f fun c j => FV.round f e.team (op e.team.rnd (FV.val f e.team (FV.a f e.task c j))
      (FV.val f e.team (FV.b f (FV.sb f) e.task c j)) (FV.val f e.team (FV.c f e.task c j))) :=
  elements_of_vecEach hl hd hexec h

/-- R186: an instruction that changes the sign of VA, without a rounding and without a flag. -/
theorem elements_of_sign (op : FVal → FVal)
    (hexec : exec i s = vecEach f [FV.srcA f] (fun m t c j => FV.signed f (op (FV.val f m (FV.a f t c j)))) s)
    (h : CanIssue s e f.st.toNat [FV.srcA f] [.v f.vd.toNat f.g.toNat]) :
    Elements i s e f fun c j => FV.signed f (op (FV.val f e.team (FV.a f e.task c j))) :=
  elements_of_vecEach hl hd hexec h

/-- R186: VCPYS, whose NaN in VB gives NaN. -/
theorem elements_vcpys (h : CanIssue s e f.st.toNat [FV.srcA f, FV.srcB f (FV.sb f)] [.v f.vd.toNat f.g.toNat]) :
    Elements (.vcpys f) s e f fun c j =>
      let b := FV.val f e.team (FV.b f (FV.sb f) e.task c j)
      FV.signed f (if b.isNan then .nan else (FV.val f e.team (FV.a f e.task c j)).withSign b.isNeg) :=
  elements_of_vecEach (op := fun m t c j =>
    let b := FV.val f m (FV.b f (FV.sb f) t c j)
    FV.signed f (if b.isNan then .nan else (FV.val f m (FV.a f t c j)).withSign b.isNeg)) hl hd rfl h

end Float

/-! ## Special functions -/

theorem vmoved_zero_of_onlyV {t k : Task} (hv : OnlyV t k) : VMoved t k 0 := by
  rw [VMoved, hv]
  simp [w64]

/-- Element `j` of a special function, rounded to nearest (R187). -/
def sfuOp (f : FV) (m : Team) (t : Task) (fn : FVal → FVal × Fl) (c j : Nat) : Nat × Fl :=
  let x := fn (FV.val f m (FV.a f t c j))
  let r := (FV.fmt f).encode .rne m.ftz x.1
  (r.1, x.2 ||| r.2)

/-- A core to which the contents of the group of VD in `k` are on their way (R84). -/
def withSfuResult (s : State) (e : Env) (f : FV) (k : Task) (core : Core) : Core :=
  { core with results := core.results ++ [⟨s.nextId, e.uid, none, k.groupRows f.vd.toNat f.g.toNat,
    e.task.physList f.vd.toNat f.g.toNat⟩] }

section Sfu
variable {fn : FVal → FVal × Fl} (hexec : exec i s = vecSfu f fn s)
  (h : CanIssue s e f.st.toNat [FV.srcA f] [.v f.vd.toNat f.g.toNat])
include hexec h

theorem vecSfu_faults (hbad : e.task.shapeBits % FV.w f ≠ 0 ∨ e.task.predFits f.p.toNat (FV.w f) = false) :
    Faults i s e cShape 0 :=
  faults_of_body hexec h (shapeOrPred_refused hbad)

theorem exec_vecSfu {c : Nat} (hs : e.task.shapeBits = c * FV.w f)
    (hp : e.task.predFits f.p.toNat (FV.w f) = true) :
    let n := f.g.toNat * e.task.rows.toNat * c
    let act := e.task.activeN f.p.toNat n
    let op := sfuOp f e.team e.task fn c
    let k := e.task.putElems (FV.w f) c f.vd.toNat 0 (frameVals f.z n act op).1
    exec i s = .next (((s.fresh.2.modCore e.core (withSfuResult s e f k)).addFlags e.uid
      (flagsOf act fun j => (op j).2)).commit e ((e.task.emptyV f.vd.toNat f.g.toNat).advance 8)) := by
  intro n act op k
  have hrow : e.task.perRow (FV.w f) = some c := perRow_of_mul (fmtWidth_pos _) hs
  rw [← frameVals_snd f.z (activeN_le ..) op, hexec, vecSfu, issue_ready h]
  simp only [hrow, hp, Bool.not_true, Bool.false_eq_true, if_false]
  rfl

include hl hd in
/-- R84, R187: the group of VD is empty, and its contents are on their way. -/
theorem special_of_vecSfu : Special i s e f fn := by
  refine ⟨fun c hs hp => ?_, vecSfu_faults hexec h⟩
  obtain ⟨hteam, hcore⟩ := onlyTeam_commit_modCore (s := s.fresh.2) h.1 _ _ _
  exact ⟨_, { (e.task.emptyV f.vd.toNat f.g.toNat).advance 8 with held := false, issued := s.ticks }, _,
    exec_vecSfu hexec h hs hp, vmoved_zero_of_onlyV (onlyV_putElems ..), tile_elements hl hd hs _, rfl,
    getLsbD_emptyV e.task hd, hteam, hcore⟩

end Sfu

end Elementwise

/-- Settles O10: the element-wise instructions by what they make of an element, the special functions by the result
that they send to their core. -/
theorem vectorFloat : Obligations.vectorFloat := by
  unfold Obligations.vectorFloat
  refine ⟨fun s e f hl hd => ⟨fun h => ?_, fun h => ?_, fun h => ?_⟩, fun s e f hl hd h => ?_⟩
  · exact ⟨elements_of_vecFp2 hl hd (fun r a b => FVal.add r a b) rfl h,
      elements_of_vecFp2 hl hd (fun r a b => FVal.add r a b.neg) rfl h,
      elements_of_vecFp2 hl hd (fun _ a b => FVal.mul a b) rfl h,
      elements_of_vecFp2 hl hd (fun _ a b => (FVal.min a b, 0)) rfl h,
      elements_of_vecFp2 hl hd (fun _ a b => (FVal.max a b, 0)) rfl h, elements_vcpys hl hd h⟩
  · exact ⟨elements_of_vecFp3 hl hd (fun r a b c => FVal.fma r a b c) rfl h,
      elements_of_vecFp3 hl hd (fun r a b c => FVal.fma r a b c.neg) rfl h⟩
  · exact ⟨elements_of_sign hl hd (FVal.withSign false) rfl h, elements_of_sign hl hd FVal.neg rfl h⟩
  · exact ⟨special_of_vecSfu hl hd rfl h, special_of_vecSfu hl hd rfl h, special_of_vecSfu hl hd rfl h,
      special_of_vecSfu hl hd rfl h, special_of_vecSfu hl hd rfl h, special_of_vecSfu hl hd rfl h,
      special_of_vecSfu hl hd rfl h⟩

end Sys2Proof.Proofs

/-! CPY, CPYV, CPYS, ACW and ACW.arrive with nothing in their way (R110, R250 to R258, R267). -/

namespace Sys2Proof.Proofs

open Sys2Proof.Machine Sys2Proof.Laws

/-! ## A command accepted -/

/-- A core with the command `c` behind its commands, and the ranges `sb` behind those of its scoreboard (R110). -/
def withCmd (e : Env) (c : Cmd) (sb : List (W64 × Nat)) (k : Core) : Core :=
  { k with cmds := k.cmds ++ [c], sb := k.sb ++ sb.map fun r => sbRange e c.id r.1 r.2 }

/-- The state in which the command `c` of the issuing task stands in its queue: its wait field's request is on its
way (R141), and the scoreboard holds its ranges (R110). -/
def commandIn (s : State) (e : Env) (c : Cmd) (sb : List (W64 × Nat)) : State :=
  (s.fresh.2.pushCmd c).modCore e.core fun k => { k with sb := k.sb ++ sb.map fun r => sbRange e c.id r.1 r.2 }

section CommandIn
variable (s : State) {e : Env} {c : Cmd} (sb : List (W64 × Nat))

theorem commandIn_eq : commandIn s e c sb = { s with
    cores := (commandIn s e c sb).cores, openCmds := s.openCmds ++ [c.id], reqs := (commandIn s e c sb).reqs
    nextId := (commandIn s e c sb).nextId } := by
  unfold commandIn State.pushCmd
  split <;> rfl

theorem core_commandIn (hc : c.core = e.core) (q : Nat) :
    (commandIn s e c sb).core q = if q = e.core then withCmd e c sb (s.core q) else s.core q := by
  have hpush : ∀ p, (s.fresh.2.pushCmd c).core p =
      if p = e.core then { s.core p with cmds := (s.core p).cmds ++ [c] } else s.core p := by
    intro p
    have hmod : (s.fresh.2.modCore c.core fun k => { k with cmds := k.cmds ++ [c] }).core p =
        if p = e.core then { s.core p with cmds := (s.core p).cmds ++ [c] } else s.core p := by
      rw [modCore_def, core_setCore, hc]
      split_ifs with hp
      · rw [hp, core_fresh]
      · rw [core_fresh]
    rw [← hmod]
    unfold State.pushCmd
    split <;> rfl
  rw [commandIn, modCore_def, core_setCore]
  split_ifs with hq
  · rw [hpush, if_pos rfl, hq, withCmd]
  · rw [hpush, if_neg hq]

theorem reqs_commandIn : (commandIn s e c sb).reqs = if c.wait = .waiting then
    tabPut s.reqs (s.nextId + 1) (.semWait c.ctx c.wsem (.cmd c.core c.id)) else s.reqs := by
  unfold commandIn State.pushCmd
  split <;> rfl

end CommandIn

/-- The command that an instruction without further fields gives, with what its consumed tokens stand for (R140). -/
def plainCommand (s : State) (e : Env) (i : Instr) (f : FE2) (q : Queue) (x : W64 × W64 × W64) (deps : List Dep) :
    Cmd :=
  newCmd s e i f q s.nextId (deps.filter fun d => !s.depOver d) x.1 x.2.1 x.2.2

theorem depOver_fresh (s : State) (d : Dep) : s.fresh.2.depOver d = s.depOver d := by
  cases d <;> rfl

/-- A walk does not depend on the next free name. -/
theorem walk_fresh (s : State) (w : Who) (va : Nat) (k : AKind) : s.fresh.2.walk w va k = s.walk w va k := by
  have hstop : ∀ table, s.fresh.2.tableStop w table = s.tableStop w table := fun _ => rfl
  have hentry : ∀ table i, s.fresh.2.tableEntry table i = s.tableEntry table i := fun _ _ => rfl
  have hroot : s.fresh.2.ptroot w = s.ptroot w := rfl
  have hleaf : ∀ big e, s.fresh.2.leafBad w.ctx big e = s.leafBad w.ctx big e := fun _ _ => rfl
  have htable : ∀ e, s.fresh.2.tableBad e = s.tableBad e := fun _ => rfl
  simp only [State.walk, State.walk2, State.walk3, hstop, hentry, hroot, hleaf, htable]

theorem sectionAt_fresh (s : State) (w : Who) (pc : W64) : s.fresh.2.sectionAt w pc = s.sectionAt w pc := by
  have hlock : ∀ k, s.fresh.2.lockOf k = s.lockOf k := fun _ => rfl
  simp only [State.sectionAt, State.fetchLeaf, walk_fresh, hlock, core_fresh, cluster_fresh]

theorem newCmd_fresh (s : State) (e : Env) (i : Instr) (f : FE2) (q : Queue) (id : Nat) (deps : List Dep)
    (a b c : W64) : newCmd s.fresh.2 e i f q id deps a b c = newCmd s e i f q id deps a b c := by
  rw [newCmd, sectionAt_fresh, newCmd]

theorem cmdHeld_of_cmdOpen {s : State} {e : Env} {q : Queue} {sb : List (W64 × Nat)}
    (h : CmdOpen s e q true sb.length) : s.cmdHeld e q true false sb = false := by
  obtain ⟨hclear, htr, hroom, hsb⟩ := h
  simp [State.cmdHeld, hclear, htr rfl, hroom, hsb]

theorem cmdAct_open {s : State} {e : Env} {i : Instr} {bytes : Nat} {f : FE2} {q : Queue} {x : W64 × W64 × W64}
    {sb : List (W64 × Nat)} {deps : List Dep} (h : CmdOpen s e q true sb.length)
    (htok : e.task.consume (FE2.cts f) = some deps) :
    cmdAct e bytes i f q x true none false sb (fun t => t) (fun c => c) s =
      let b := commandIn s e (plainCommand s e i f q x deps) sb
      .done (b.commit e ((e.task.produce b f [.cmd s.nextId]).advance bytes)) := by
  rw [cmdAct, cmdHeld_of_cmdOpen h, if_neg Bool.false_ne_true, htok]
  simp only [commandIn, plainCommand, newCmd_fresh, depOver_fresh, fresh_name]
  rfl

/-! ## The produced token -/

theorem produce_eq (t : Task) (s : State) (f : FE2) (ds : List Dep) :
    t.produce s f ds = { t with tok := (t.produce s f ds).tok } := by
  unfold Task.produce
  split <;> rfl

theorem tok_produce_other {t : Task} {s : State} {f : FE2} {ds : List Dep} {j : Nat}
    (h : ¬ (f.pv = true ∧ j = f.pt.toNat)) :
    tabGet .unproduced (t.produce s f ds).tok j = tabGet .unproduced t.tok j := by
  unfold Task.produce
  split_ifs with hpv
  · simp [show j ≠ f.pt.toNat from fun hj => h ⟨hpv, hj⟩]
  · rfl

/-- R81: the token now stands for `ds` too, beside some of what it stood for. -/
theorem tok_produce_self (t : Task) (s : State) {f : FE2} (ds : List Dep) (hpv : f.pv = true) :
    ∃ l, tabGet .unproduced (t.produce s f ds).tok f.pt.toNat = .produced (l ++ ds) ∧
      ∀ d ∈ l, ∃ old, tabGet .unproduced t.tok f.pt.toNat = .produced old ∧ d ∈ old := by
  refine ⟨_, by rw [Task.produce, if_pos hpv]; exact (tabGet_tabPut ..).trans (if_pos rfl), fun d hd => ?_⟩
  split at hd
  · simp at hd
  · rename_i old hold
    exact ⟨old, hold, List.mem_of_mem_filter hd⟩

/-! ## Acceptance -/

/-- A command whose checks are met is accepted once nothing holds it. -/
theorem accepts_of_cmdAct {i : Instr} {s : State} {e : Env} {st bytes : Nat} {srcs : List SrcOp} {dsts : List DstOp}
    {body : Env → State → Act} {f : FE2} {q : Queue} {x : W64 × W64 × W64} {sb : List (W64 × Nat)}
    (hexec : exec i s = issue st bytes srcs dsts body s) (h : CanIssue s e st srcs dsts)
    (hbody : body e s = cmdAct e bytes i f q x true none false sb (fun t => t) (fun c => c) s)
    (hopen : CmdOpen s e q true sb.length) :
    Accepts i s e bytes s e.team { plainCmd f q x with sb := sb } := by
  intro deps htok
  let c := plainCommand s e i f q x deps
  let b := commandIn s e c sb
  let k := (e.task.produce b f [.cmd s.nextId]).advance bytes
  let t := b.commit e k
  have hb : b = _ := commandIn_eq s sb
  have hteams : b.teams = s.teams := by rw [hb]
  have hteam : tabFind b.teams e.uid = some e.team := hteams ▸ (issuer_team h.1).1
  have ht : t = { b with teams := t.teams, focus := none } := by
    simp only [t, State.commit, setTask_eq hteam]
    rfl
  have hcores : t.cores = b.cores := by rw [ht]
  have hreqs : t.reqs = b.reqs := by rw [ht]
  have hnext : t.nextId = b.nextId := by rw [ht]
  refine ⟨t, { k with held := false, issued := b.ticks }, c, ?_, rfl, ?_, ?_, ?_, ⟨?_, ?_⟩, ?_, ?_⟩
  · rw [hexec, issue_ready h, hbody, cmdAct_open hopen (f := f) htok]
  · change { (e.task.produce b f [.cmd s.nextId]).advance bytes with held := false, issued := b.ticks } = _
    rw [produce_eq]
    rfl
  · exact fun j hj => tok_produce_other hj
  · exact tok_produce_self e.task b [.cmd s.nextId]
  · rw [hcores, hreqs, hnext]
    exact ht.trans (by rw [hb]; rfl)
  · intro u
    simp only [t, State.commit, setTask_eq hteam, setTeam_teams, tabFind_tabPut, hteams]
  · intro p
    rw [core_congr hcores, core_commandIn s sb rfl]
    rfl
  · have hwait : c.wait = .waiting ↔ f.wv = true := by
      change (if f.wv then WaitSt.waiting else .none) = .waiting ↔ _
      cases f.wv <;> simp
    rw [hreqs, reqs_commandIn]
    simp only [hwait]
    rfl

/-! ## The copy instructions -/

theorem firstBad_eq_none {l : List (Bool × Nat × W64)} : firstBad l = none ↔ ∀ x ∈ l, x.1 = false := by
  induction l with
  | nil => simp [firstBad]
  | cons x l ih =>
    obtain ⟨b, c, a⟩ := x
    cases b <;> simp [firstBad, ih]

/-- The issue of a copy instruction, by its checks and the ranges that it records (R110, R249, R250). -/
def copyIssue (f : FE3) (s : State) (i : Instr) (bad : Env → State → Option (Nat × W64))
    (ranges : Env → List (W64 × Nat)) : Host.Outcome State Fault Refusal :=
  issue f.e.st.toNat 12 [FE3.srcA f, FE3.srcB f, FE3.srcC f] [] (fun e s => cmdAct e 12 i f.e (FE3.channel f)
    (FE3.vals f e.task) true (bad e s) false (ranges e) (fun t => t) (fun c => c) s) s

theorem accepts_copy {f : FE3} {s : State} {e : Env} {i : Instr} {bad : Env → State → Option (Nat × W64)}
    {ranges : Env → List (W64 × Nat)} (hexec : exec i s = copyIssue f s i bad ranges)
    (h : CanIssue s e f.e.st.toNat [.x f.e.xa f.e.fea, .x f.xb f.feb, .x f.xc f.fec] [])
    (hbad : bad e s = none) (hopen : CmdOpen s e (FE3.channel f) true (ranges e).length) :
    Accepts i s e 12 s e.team { plainCmd f.e (FE3.channel f) (FE3.vals f e.task) with sb := ranges e } :=
  accepts_of_cmdAct hexec h (by rw [hbad]) hopen

/-- Settles O21: each instruction's checks are those that its clause names, so the command is accepted. -/
theorem copyCommands : Obligations.copyCommands := by
  unfold Obligations.copyCommands
  intro s e f h a b c q fits sp takes n vn w wn fetch
  refine ⟨fun ha hb hover hn hopen => ?_, fun ha hb haa hba hn hopen => ?_, fun ha hb haa hba hna hn hopen => ?_,
    fun ha hform haa hfetch hopen => ?_, fun ha hc haa hca hb0 hb hopen => ?_⟩
  · refine accepts_copy (i := .cpy f) rfl h (firstBad_eq_none.mpr ?_) hopen
    simp only [List.forall_mem_cons]
    exact ⟨ha, hb, by simpa using ⟨hover, hn⟩, by simp⟩
  · refine accepts_copy (i := .cpyv f) rfl h (firstBad_eq_none.mpr ?_) hopen
    simp only [List.forall_mem_cons]
    exact ⟨ha, hb, by simpa using haa, by simpa using hba, by simpa using hn, by simp⟩
  · refine accepts_copy (i := .cpys f) rfl h (firstBad_eq_none.mpr ?_) hopen
    simp only [List.forall_mem_cons]
    exact ⟨ha, hb, by simpa using haa, by simpa using hba, by simpa using hna, by simpa using hn, by simp⟩
  · refine accepts_copy (i := .acw f) rfl h (firstBad_eq_none.mpr ?_) hopen
    simp only [List.forall_mem_cons]
    refine ⟨?_, ?_, by simpa using haa, ?_, by simp⟩
    · exact Bool.or_eq_false_iff.mpr ⟨ha, by simpa using hform⟩
    · exact Bool.and_eq_false_imp.mpr fun hf => (hfetch hf).1
    · exact Bool.and_eq_false_imp.mpr fun hf => by simpa using (hfetch hf).2
  · refine accepts_copy (i := .acwArrive f) rfl h (firstBad_eq_none.mpr ?_) hopen
    simp only [List.forall_mem_cons]
    refine ⟨ha, ?_, by simpa using haa, by simpa using hca, ?_, by simp⟩
    · exact Bool.and_eq_false_imp.mpr fun hne => hc (by simpa using hne)
    · have hb' : b ≠ 0 := fun hz => by simp [hz] at hb0
      exact Bool.or_eq_false_iff.mpr ⟨by simpa using hb', by simpa using hb⟩

end Sys2Proof.Proofs

/-! What a load whose pieces have taken their values brings to its task (R84, R206, R208 to R210). -/

namespace Sys2Proof.Proofs

open Sys2Proof.Machine Sys2Proof.Laws

/-! ## Scalar loads -/

/-- The signed reading of a code is that of a bit vector of its width. -/
theorem intOf_signed (w v : Nat) : intOf w true v = (BitVec.ofNat w v).toInt := by
  have hmsb : (BitVec.ofNat w v).msb = (v % 2 ^ w).testBit (w - 1) := by
    rw [BitVec.msb_eq_getLsbD_last, BitVec.getLsbD_ofNat, Nat.testBit_mod_two_pow]
  rw [BitVec.toInt_eq_msb_cond, hmsb]
  simp [intOf]

theorem loadScalar_signed (n : Nat) (p : Piece) :
    loadScalar [p] n true = (BitVec.ofNat (8 * n) p.data.toNat).signExtend 64 := by
  change w64 (lowInt 64 (intOf (8 * n) true p.data.toNat)) = _
  rw [intOf_signed, BitVec.signExtend]
  apply BitVec.eq_of_toNat_eq
  rw [w64, BitVec.toNat_ofNat, BitVec.toNat_ofInt, lowInt]
  exact Nat.mod_eq_of_lt (by omega)

theorem loadScalar_unsigned (n : Nat) (p : Piece) :
    loadScalar [p] n false = w64 (p.data.toNat % 2 ^ (8 * n)) := by
  change w64 (lowInt 64 (intOf (8 * n) false p.data.toNat)) = _
  apply BitVec.eq_of_toNat_eq
  simp only [lowInt, intOf, w64, BitVec.toNat_ofNat, Bool.false_and, Bool.false_eq_true, if_false]
  norm_cast
  simp

/-! ## Bits of loaded pieces -/

/-- What a piece contributes to the `n` bits from bit `src` of the address space up. -/
def pieceBits (src n : Nat) (p : Piece) : Nat :=
  let lo := 8 * p.va.toNat
  if lo + 8 * p.len ≤ src ∨ src + n ≤ lo then 0
  else if src ≤ lo then p.data.toNat * 2 ^ (lo - src)
  else p.data.toNat / 2 ^ (src - lo)

theorem loadBits_eq (ps : List Piece) (src n : Nat) :
    loadBits ps src n = (ps.map (pieceBits src n)).foldl (· ||| ·) 0 % 2 ^ n := rfl

theorem testBit_foldl_or (l : List Nat) (a j : Nat) :
    (l.foldl (· ||| ·) a).testBit j = (a.testBit j || l.any fun x => x.testBit j) := by
  induction l generalizing a with
  | nil => simp
  | cons x l ih => rw [List.foldl_cons, ih, Nat.testBit_or, List.any_cons, Bool.or_assoc]

/-- A piece holds the bit `b` of the address space. -/
def Covers (p : Piece) (b : Nat) : Prop := 8 * p.va.toNat ≤ b ∧ b < 8 * (p.va.toNat + p.len)

theorem testBit_pieceBits_of_covers {src n j : Nat} {p : Piece} (hj : j < n) (h : Covers p (src + j)) :
    (pieceBits src n p).testBit j = p.data.getLsbD (src + j - 8 * p.va.toNat) := by
  obtain ⟨hlo, hhi⟩ := h
  simp only [pieceBits]
  rw [if_neg (by omega), BitVec.getLsbD]
  split_ifs with hsrc
  · rw [Nat.mul_comm, Nat.testBit_two_pow_mul, decide_eq_true (by omega), Bool.true_and]
    congr 1
    omega
  · rw [Nat.testBit_div_two_pow]
    congr 1
    omega

theorem testBit_pieceBits_of_not_covers {src n j : Nat} {p : Piece} (hdata : p.data.toNat < 2 ^ (8 * p.len))
    (h : ¬ Covers p (src + j)) : (pieceBits src n p).testBit j = false := by
  have hpast : ∀ i, 8 * p.len ≤ i → p.data.toNat.testBit i = false := fun i hi =>
    Nat.testBit_lt_two_pow (hdata.trans_le (Nat.pow_le_pow_right (by omega) hi))
  simp only [pieceBits]
  unfold Covers at h
  split_ifs with hout hsrc
  · simp
  · rw [Nat.mul_comm, Nat.testBit_two_pow_mul]
    by_cases hj : 8 * p.va.toNat - src ≤ j
    · rw [hpast _ (by omega), Bool.and_false]
    · rw [decide_eq_false hj, Bool.false_and]
  · rw [Nat.testBit_div_two_pow]
    exact hpast _ (by omega)

/-- A bit that one piece alone holds is that piece's. -/
theorem testBit_loadBits {ps : List Piece} {src n j : Nat} {p : Piece} (hj : j < n) (hp : p ∈ ps)
    (hcov : Covers p (src + j)) (hone : ∀ q ∈ ps, q.data.toNat < 2 ^ (8 * q.len) ∧ (Covers q (src + j) → q = p)) :
    (loadBits ps src n).testBit j = p.data.getLsbD (src + j - 8 * p.va.toNat) := by
  rw [loadBits_eq, Nat.testBit_mod_two_pow, decide_eq_true hj, Bool.true_and, testBit_foldl_or, Nat.zero_testBit,
    Bool.false_or, Bool.eq_iff_iff, List.any_map, List.any_eq_true]
  constructor
  · rintro ⟨q, hq, hbit⟩
    obtain ⟨hdata, hself⟩ := hone q hq
    by_cases hc : Covers q (src + j)
    · rw [← hself hc]
      rwa [Function.comp_apply, testBit_pieceBits_of_covers hj hc] at hbit
    · rw [Function.comp_apply, testBit_pieceBits_of_not_covers hdata hc] at hbit
      exact absurd hbit Bool.false_ne_true
  · exact fun hbit => ⟨p, hp, by rwa [Function.comp_apply, testBit_pieceBits_of_covers hj hcov]⟩

/-! ## Rows of a tile load -/

/-- A row over which a run of a load has come: the bits of its pieces, and zeros behind them. -/
def runRow (ps : List Piece) (u : Run) (old : Row) : Row :=
  rowPut (rowPut old u.dstBit u.nbits (loadBits ((ps.drop u.first).take u.count) u.srcBit u.nbits))
    (u.dstBit + u.nbits) u.zero 0

theorem getLsbD_runRow (ps : List Piece) (u : Run) (old : Row) {b : Nat} (hb : b < 1024) :
    (runRow ps u old).getLsbD b =
      if u.dstBit + u.nbits ≤ b ∧ b < u.dstBit + u.nbits + u.zero then false
      else if u.dstBit ≤ b ∧ b < u.dstBit + u.nbits then
        (loadBits ((ps.drop u.first).take u.count) u.srcBit u.nbits).testBit (b - u.dstBit)
      else old.getLsbD b := by
  rw [runRow, getLsbD_rowPut _ _ _ _ hb, getLsbD_rowPut _ _ _ _ hb, Nat.zero_testBit]

theorem runRow_idem (ps : List Piece) (u : Run) (old : Row) : runRow ps u (runRow ps u old) = runRow ps u old := by
  apply BitVec.eq_of_getLsbD_eq
  intro b hb
  rw [getLsbD_runRow _ _ _ hb, getLsbD_runRow _ _ _ hb]
  split_ifs <;> rfl

/-- The rows of a tile load with one more run. -/
def putRun (t : Task) (ps : List Piece) (rs : Tab Row) (u : Run) : Tab Row :=
  tabPut rs u.row (runRow ps u ((tabFind rs u.row).getD (tabGet 0 t.v u.row)))

theorem loadRows_eq (t : Task) (ps : List Piece) (runs : List Run) :
    loadRows t ps runs = runs.foldl (putRun t ps) [] := rfl

/-- The row of a run that no other run names. -/
theorem tabFind_foldl_putRun {t : Task} {ps : List Piece} {u : Run} (runs : List Run) (rs : Tab Row)
    (hone : ∀ w ∈ runs, w.row = u.row → w = u)
    (hrs : tabFind rs u.row = none ∨ tabFind rs u.row = some (runRow ps u (tabGet 0 t.v u.row))) :
    tabFind (runs.foldl (putRun t ps) rs) u.row =
      if u ∈ runs then some (runRow ps u (tabGet 0 t.v u.row)) else tabFind rs u.row := by
  induction runs generalizing rs with
  | nil => simp
  | cons w runs ih =>
    have hone' : ∀ x ∈ runs, x.row = u.row → x = u := fun x hx => hone x (List.mem_cons_of_mem _ hx)
    have hput : tabFind (putRun t ps rs w) u.row =
        if w = u then some (runRow ps u (tabGet 0 t.v u.row)) else tabFind rs u.row := by
      rw [putRun, tabFind_tabPut]
      by_cases hw : w = u
      · subst hw
        rw [if_pos rfl, if_pos rfl]
        rcases hrs with h | h <;> rw [h]
        · rfl
        · rw [Option.getD_some, runRow_idem]
      · rw [if_neg fun h => hw (hone w (List.mem_cons_self ..) h.symm), if_neg hw]
    have hnext : tabFind (putRun t ps rs w) u.row = none ∨
        tabFind (putRun t ps rs w) u.row = some (runRow ps u (tabGet 0 t.v u.row)) := by
      rw [hput]
      split_ifs
      · exact .inr rfl
      · exact hrs
    rw [List.foldl_cons, ih _ hone' hnext, hput]
    by_cases hw : w = u
    · rw [if_pos hw, if_pos (List.mem_cons.mpr (.inl hw.symm)), ite_self]
    · rw [if_neg hw]
      simp only [List.mem_cons, Ne.symm hw, false_or]

theorem tabGet_loadRows {t : Task} {ps : List Piece} {u : Run} {runs : List Run} (hu : u ∈ runs)
    (hone : ∀ w ∈ runs, w.row = u.row → w = u) :
    tabGet 0 (loadRows t ps runs) u.row = runRow ps u (tabGet 0 t.v u.row) := by
  rw [loadRows_eq, tabGet_eq, tabFind_foldl_putRun runs [] hone (.inl rfl), if_pos hu, Option.getD_some]

/-! ## The result of a load -/

/-- The result of a load for the task `k` of its team, if it fills anything (R84). -/
def resultFor (a : Access) (k : Task) : Option Result :=
  match a.dst with
  | .none => none
  | .x d n sg => some ⟨a.id, a.team, some (d, loadScalar a.pieces n sg), [], []⟩
  | .v regs runs => some ⟨a.id, a.team, none, loadRows k a.pieces runs, regs⟩

theorem resultFor_eq_none_iff {a : Access} {k : Task} : resultFor a k = none ↔ a.dst = .none := by
  unfold resultFor
  split <;> simp_all

theorem brings_of_resultFor {a : Access} {k : Task} {r : Result} (h : resultFor a k = some r) : Brings k a r := by
  unfold resultFor at h
  split at h
  · cases h
  · rename_i d n sg hdst
    cases h
    refine ⟨rfl, rfl, fun d' n' sg' p hd hp _ => ?_, fun _ _ hd => absurd (hdst.symm.trans hd) (by simp)⟩
    rw [hdst] at hd
    cases hd
    refine ⟨rfl, rfl, ?_⟩
    rw [hp]
    cases sg
    · rw [loadScalar_unsigned]
      rfl
    · rw [loadScalar_signed]
      rfl
  · rename_i regs runs hdst
    cases h
    refine ⟨rfl, rfl, fun _ _ _ _ hd => absurd (hdst.symm.trans hd) (by simp), fun regs' runs' hd => ?_⟩
    rw [hdst] at hd
    cases hd
    refine ⟨rfl, rfl, fun u hu hone => ?_⟩
    rw [tabGet_loadRows hu hone]
    dsimp only
    refine ⟨fun j p hj hlt hp hall hlo hhi => ?_, fun j hlo hhi => ?_, fun j hj hout => ?_⟩
    · rw [getLsbD_runRow _ _ _ hlt, if_neg (by omega), if_pos (by omega), Nat.add_sub_cancel_left]
      exact testBit_loadBits hj hp ⟨hlo, hhi⟩ fun q hq => ⟨(hall q hq).1, fun hc => (hall q hq).2 hc.1 hc.2⟩
    · by_cases hj : j < 1024
      · rw [getLsbD_runRow _ _ _ hj, if_pos ⟨hlo, hhi⟩]
      · exact BitVec.getLsbD_of_ge _ _ (by omega)
    · rw [getLsbD_runRow _ _ _ hj, if_neg (by omega), if_neg (by omega)]

end Sys2Proof.Proofs

/-! Loads that leave their queue, and the pieces of a load as they take their values (R113, R114, R116, R204, R413,
R414). -/

namespace Sys2Proof.Proofs

open Sys2Proof.Machine Sys2Proof.Laws

/-! ## One load leaves -/

/-- The running task of a team. -/
def taskOf (s : State) (uid : Nat) : Option Task := (tabFind s.teams uid).bind (·.task)

/-- The result that a load of the state `s` brings as it leaves, if its task still runs (R84, R86). -/
def resultOf (s : State) (a : Access) : Option Result := (taskOf s a.team).bind (resultFor a)

/-- A core whose load queue the load `a` leaves, with the result `r`. -/
def withoutLoad (a : Access) (r : Option Result) (k : Core) : Core :=
  { k with loads := k.loads.filter fun b => b.id != a.id, results := k.results ++ r.toList }

theorem finishLoad_def (s : State) (c : Nat) (a : Access) :
    s.finishLoad c a = match resultOf s a with
      | none => s.modCore c fun k => { k with loads := k.loads.filter fun b => b.id != a.id }
      | some r => (s.modCore c fun k => { k with loads := k.loads.filter fun b => b.id != a.id }).modCore c fun k =>
          { k with results := k.results ++ [r] } := by
  unfold State.finishLoad resultOf taskOf
  dsimp only [modCore_def, setCore_teams]
  cases tabFind s.teams a.team with
  | none => rfl
  | some m =>
    cases hk : m.task with
    | none => simp [hk]
    | some k => cases hd : a.dst <;> simp [hk, hd, resultFor]

theorem finishLoad_eq (s : State) (c : Nat) (a : Access) :
    s.finishLoad c a = { s with cores := (s.finishLoad c a).cores } := by
  rw [finishLoad_def]
  split <;> rfl

theorem core_finishLoad (s : State) (c : Nat) (a : Access) (q : Nat) :
    (s.finishLoad c a).core q = if q = c then withoutLoad a (resultOf s a) (s.core c) else s.core q := by
  rw [finishLoad_def]
  unfold withoutLoad
  cases resultOf s a with
  | none => simp
  | some r =>
    simp only [modCore_def, core_setCore, if_true]
    split_ifs <;> rfl

/-! ## Loads leave in turn -/

/-- What is left of a load queue once the loads `out` have left it. -/
def restOf (q out : List Access) : List Access := q.filter fun b => out.all fun a => b.id != a.id

@[simp] theorem restOf_nil (q : List Access) : restOf q [] = q := by
  simp [restOf]

theorem restOf_cons (q out : List Access) (a : Access) :
    restOf q (a :: out) = restOf (q.filter fun b => b.id != a.id) out := by
  simp [restOf, List.filter_filter, Bool.and_comm]

/-- Is a queue entry a load of the team's own program? -/
def ownLoad (uid : Nat) (a : Access) : Bool := a.team == uid && a.cmd == 0 && a.kind != .prefetch

theorem resultOf_own {s : State} {uid : Nat} {q : List Access} {a : Access} (h : q.find? (ownLoad uid) = some a) :
    resultOf s a = (taskOf s uid).bind (resultFor a) := by
  have hown := List.find?_some h
  simp only [ownLoad, Bool.and_eq_true, beq_iff_eq] at hown
  rw [resultOf, hown.1.1]

/-- The loads that fill something. -/
def filling (out : List Access) : List Access := out.filter fun a => a.dst != .none

theorem filling_cons_none {a : Access} (h : a.dst = .none) (out : List Access) : filling (a :: out) = filling out := by
  simp [filling, h]

theorem filling_cons {a : Access} (h : a.dst ≠ .none) (out : List Access) :
    filling (a :: out) = a :: filling out := by
  simp [filling, h]

/-- The loads `out` fill what the results `rs` bring, one by one. -/
def FilledBy (k : Task) (out : List Access) (rs : List Result) : Prop :=
  rs.length = (filling out).length ∧
    ∀ (i : Nat) a r, (filling out)[i]? = some a → rs[i]? = some r → Brings k a r

theorem filledBy_cons {k : Task} {a : Access} {out : List Access} {rs : List Result} (h : FilledBy k out rs) :
    FilledBy k (a :: out) ((resultFor a k).toList ++ rs) := by
  obtain ⟨hlen, hbrings⟩ := h
  cases hr : resultFor a k with
  | none =>
    rw [FilledBy, filling_cons_none (resultFor_eq_none_iff.mp hr)]
    exact ⟨hlen, hbrings⟩
  | some r =>
    have hdst : a.dst ≠ .none := fun hd => by rw [resultFor_eq_none_iff.mpr hd] at hr; cases hr
    rw [FilledBy, filling_cons hdst]
    refine ⟨by simp [hlen], fun i b x hb hx => ?_⟩
    cases i with
    | zero =>
      simp only [List.getElem?_cons_zero, Option.toList_some, List.singleton_append, Option.some.injEq] at hb hx
      subst hb hx
      exact brings_of_resultFor hr
    | succ i => exact hbrings i b x hb hx

theorem leaves_refl {s : State} {c uid : Nat}
    (h : ∀ b, (s.core c).loads.find? (ownLoad uid) = some b → b.taken = false) :
    Leaves s s c uid (s.core c).loads := by
  refine ⟨[], [], by simp, fun b hb => h b ?_, rfl, fun _ _ => rfl, ?_, fun _ _ _ _ => ⟨rfl, by simp⟩, fun _ => rfl⟩
  · exact (congrArg (List.find? (ownLoad uid)) (restOf_nil _)).symm.trans hb
  · simp

/-- A load leaves, and then the others. -/
theorem leaves_of_finishLoad {s t : State} {c uid : Nat} {a : Access}
    (ha : (s.core c).loads.find? (ownLoad uid) = some a) (htaken : a.taken = true)
    (h : Leaves (s.finishLoad c a) t c uid ((s.finishLoad c a).core c).loads) :
    Leaves s t c uid (s.core c).loads := by
  obtain ⟨out, rs, hout, hrest, ht, hother, hcore, hfill, hidle⟩ := h
  have hself : (s.finishLoad c a).core c = withoutLoad a (resultOf s a) (s.core c) := by
    rw [core_finishLoad, if_pos rfl]
  have hteams : (s.finishLoad c a).teams = s.teams := by rw [finishLoad_eq]
  have hq : ∀ l, restOf (s.core c).loads (a :: l) = restOf ((s.finishLoad c a).core c).loads l := fun l => by
    rw [restOf_cons, hself, withoutLoad]
  rw [hteams] at hfill hidle
  have hres := resultOf_own (s := s) ha
  refine ⟨a :: out, (resultOf s a).toList ++ rs, fun i b hb => ?_, fun b hb => ?_, ?_, fun d hd => ?_, ?_,
    fun m k hm hk => ?_, fun hnone => ?_⟩
  · cases i with
    | zero =>
      rw [List.getElem?_cons_zero, Option.some.injEq] at hb
      subst hb
      exact ⟨(congrArg (List.find? (ownLoad uid)) (restOf_nil _)).trans ha, htaken⟩
    | succ i =>
      obtain ⟨hfind, htk⟩ := hout i b hb
      refine ⟨?_, htk⟩
      rw [List.take_succ_cons]
      exact (congrArg (List.find? (ownLoad uid)) (hq _)).trans hfind
  · exact hrest b ((congrArg (List.find? (ownLoad uid)) (hq _)).symm.trans hb)
  · rw [ht, finishLoad_eq]
  · rw [hother d hd, core_finishLoad, if_neg hd]
  · change t.core c = { s.core c with
      loads := restOf (s.core c).loads (a :: out)
      results := (s.core c).results ++ ((resultOf s a).toList ++ rs) }
    rw [hcore, hq, hself]
    simp only [withoutLoad, List.append_assoc]
    rfl
  · have htask : taskOf s uid = some k := by rw [taskOf, hm, Option.bind_some, hk]
    rw [hres, htask, Option.bind_some]
    exact filledBy_cons (hfill m k hm hk)
  · have htask : taskOf s uid = none := by
      rw [taskOf, Option.bind_eq_none_iff]
      exact hnone
    rw [hres, htask, hidle hnone]
    rfl

/-- The step in which a team's loads leave, the oldest first (R116, R204). -/
theorem leaves_leaveLoads {c uid : Nat} (n : Nat) (s : State) (hn : (s.core c).loads.length ≤ n) :
    Leaves s (s.leaveLoads c uid n) c uid (s.core c).loads := by
  induction n generalizing s with
  | zero =>
    refine leaves_refl fun b hb => ?_
    rw [List.length_eq_zero_iff.mp (Nat.le_zero.mp hn)] at hb
    cases hb
  | succ n ih =>
    unfold State.leaveLoads
    split
    · rename_i hnone
      exact leaves_refl fun b hb => absurd (hnone.symm.trans hb) (by simp)
    · rename_i a ha
      split_ifs with htaken
      · refine leaves_of_finishLoad ha htaken (ih _ ?_)
        have hmem := List.mem_of_find?_eq_some ha
        have hlt : ((s.core c).loads.filter fun b => b.id != a.id).length < (s.core c).loads.length :=
          List.length_filter_lt_length_iff_exists.mpr ⟨a, hmem, by simp⟩
        rw [core_finishLoad, if_pos rfl, withoutLoad]
        dsimp only
        omega
      · exact leaves_refl fun b hb => by
          rw [show b = a from Option.some.inj (hb.symm.trans ha)]
          simpa using htaken

theorem leaves_loadsLeave (s : State) (c uid : Nat) : Leaves s (s.loadsLeave c uid) c uid (s.core c).loads :=
  leaves_leaveLoads _ s le_rfl

/-- Loads leave the queue `q` in place of a core's own. -/
theorem leaves_setLoads (s : State) (c uid : Nat) (q : List Access) :
    Leaves s ((s.modCore c fun k => { k with loads := q }).loadsLeave c uid) c uid q := by
  obtain ⟨out, rs, hout, hrest, ht, hother, hcore, hfill⟩ :=
    leaves_loadsLeave (s.modCore c fun k => { k with loads := q }) c uid
  have hself : (s.modCore c fun k => { k with loads := q }).core c = { s.core c with loads := q } := by simp
  rw [hself] at hout hrest hcore
  refine ⟨out, rs, hout, hrest, ht, fun d hd => ?_, hcore, hfill⟩
  rw [hother d hd, modCore_def, core_setCore, if_neg hd]

end Sys2Proof.Proofs

/-! Pieces of loads as they take their values (R113, R114, R206, R361, R413, R414, R424). -/

namespace Sys2Proof.Proofs

open Sys2Proof.Machine Sys2Proof.Laws

/-! ## A piece of a load -/

/-- A load whose piece `i` has its value. -/
def valued (a : Access) (i v : Nat) (p : Piece) : Access :=
  { a with pieces := a.pieces.set i { p with data := BitVec.ofNat 64 v, stage := 4 } }

/-- A piece of a load with its value, and the loads that then leave (R116). -/
def tookValue (s : State) (c : Nat) (a : Access) (i v : Nat) (p : Piece) : State :=
  (s.modCore c fun k => { k with loads := putAccess k.loads (valued a i v p) }).loadsLeave c a.team

theorem leaves_tookValue (s : State) (c : Nat) (a : Access) (i v : Nat) (p : Piece) :
    Leaves s (tookValue s c a i v p) c a.team
      ((s.core c).loads.map fun b => if b.id = a.id then valued a i v p else b) :=
  leaves_setLoads s c a.team _

/-- What a step makes of a piece of a load that may take its value. -/
def performLoad (s : State) (c : Nat) (a : Access) (i : Nat) (p : Piece) (ext : Option (BitVec 64)) :
    Host.Outcome State Fault Refusal :=
  if p.loc.any s.locLost then orStay s (s.refuseAccess c a p.va false cPeerLost)
  else if (p.request s a).isSome ∧ p.stage < 3 then
    .next (match p.request s a with
      | some o => if p.loc.all s.wayFree then s.askLoad c a i p o else s
      | none => s)
  else match (s.answered (p.request s a)).loadValue p ext with
    | none => orStay (s.answered (p.request s a))
        ((s.answered (p.request s a)).refuseAccess c a p.va false cAccessDenied)
    | some v => .next (tookValue (s.answered (p.request s a)) c a i v p)

section LoadPerform
variable {s : State} {c id i : Nat} {a : Access} {p : Piece} {ext : Option (BitVec 64)}

theorem exec_loadPerform (hfind : ((s.core c).loads.find? fun a => a.id == id) = some a) (hkind : a.kind = .load)
    (hp : a.pieces[i]? = some p) (hmay : s.mayLoad c a i p = true) :
    exec (.loadPerform c id i ext) s = performLoad s c a i p ext := by
  change execLoadPerform c id i ext s = _
  unfold execLoadPerform performLoad
  have hscales : a.kind ≠ .scales := by rw [hkind]; exact nofun
  rw [hfind]
  simp only [hp, hmay, hscales, Bool.not_true, Bool.false_eq_true, if_false]
  rfl

/-- R113: a place in this package gives its bytes. -/
theorem performLoad_mem {k : Nat} (hloc : p.loc = some (.mem k)) (hlost : s.locLost (.mem k) = false)
    (hok : s.refused p.mkey k false = false) :
    performLoad s c a i p ext = .next (tookValue s c a i (s.readNat p.mkey k p.len) p) := by
  have hreq : p.request s a = none := by rw [Piece.request, hloc]
  simp [performLoad, hreq, State.answered, State.loadValue, hloc, hlost, hok]

/-- R424: a place that is lost gives nothing. -/
theorem performLoad_lost {l : Loc} (hloc : p.loc = some l) (hlost : s.locLost l = true) :
    performLoad s c a i p ext = orStay s (s.refuseAccess c a p.va false cPeerLost) := by
  simp [performLoad, hloc, hlost]

/-- R361, R391: the memory controller refuses the piece. -/
theorem performLoad_refused {k : Nat} (hloc : p.loc = some (.mem k)) (hlost : s.locLost (.mem k) = false)
    (hno : s.refused p.mkey k false = true) :
    performLoad s c a i p ext = orStay s (s.refuseAccess c a p.va false cAccessDenied) := by
  have hreq : p.request s a = none := by rw [Piece.request, hloc]
  simp [performLoad, hreq, State.answered, State.loadValue, hloc, hlost, hno]

section Outside
variable {l : Loc} {o : Out} (hloc : p.loc = some l) (hlost : s.locLost l = false) (hreq : p.request s a = some o)
include hloc hlost hreq

/-- R415: with no room on its way a load is not sent. -/
theorem performLoad_waits (hst : p.stage < 3) (hway : s.wayFree l = false) :
    performLoad s c a i p ext = .next s := by
  simp [performLoad, hreq, hloc, hlost, hst, hway]

theorem performLoad_asks (hst : p.stage < 3) (hway : s.wayFree l = true) :
    performLoad s c a i p ext = .next (s.askLoad c a i p o) := by
  simp [performLoad, hreq, hloc, hlost, hst, hway]

theorem performLoad_answered {x : BitVec 64} (hout : ∀ k, l ≠ .mem k) (hregion : ∀ r, l ≠ .region r)
    (hst : 3 ≤ p.stage) : performLoad s c a i p (some x) =
      .next (tookValue (s.answered (some o)) c a i (x.toNat % 2 ^ (8 * p.len)) p) := by
  have hval : (s.answered (some o)).loadValue p (some x) = some (x.toNat % 2 ^ (8 * p.len)) := by
    rw [State.loadValue, hloc]
    cases l with
    | mem k => exact absurd rfl (hout k)
    | region r => exact absurd rfl (hregion r)
    | host off => rfl
    | remote pkg addr => rfl
  simp [performLoad, hreq, hloc, hlost, Nat.not_lt.mpr hst, hval]

end Outside

/-- A refused access of a task that still runs is its fault (R361, R391, R424). -/
theorem refuseAccess_of_task {m : Team} {k : Task} {write : Bool} (va : W64) (code : Nat) (hcmd : a.cmd = 0)
    (hm : tabFind s.teams a.team = some m) (hk : m.task = some k) (hseq : k.seq = a.seq) :
    s.refuseAccess c a va write code = s.takeFault a.team a.pc ⟨code, va, write, false, false⟩ a.id := by
  simp [State.refuseAccess, hcmd, hm, hk, hseq]

/-- An access that may leave for another package does so by one of its ports (R414, R416). -/
theorem exists_plane {pkg addr : Nat} (hway : s.wayFree (.remote pkg addr) = true) :
    ∃ n, s.planeFor pkg addr = some n := by
  change (s.planeFor pkg addr).any s.portRoom = true at hway
  cases hplane : s.planeFor pkg addr with
  | none => rw [hplane] at hway; cases hway
  | some n => exact ⟨n, rfl⟩

/-- A load's request leaves the package by a port (R413, R414). -/
theorem askLoad_eq {l : Loc} (o : Out) (hloc : p.loc = some l) (hway : s.wayFree l = true) :
    ∃ n, s.askLoad c a i p o = (s.transmit n o).modCore c fun k => { k with
      loads := putAccess k.loads { a with pieces := a.pieces.set i { p with stage := 3 } } } := by
  unfold State.askLoad
  rw [hloc]
  cases l with
  | remote pkg addr =>
    obtain ⟨n, hn⟩ := exists_plane hway
    exact ⟨n, by simp only [State.sendAccess, hn]⟩
  | mem k => exact ⟨hostPort, rfl⟩
  | host off => exact ⟨hostPort, rfl⟩
  | region r => exact ⟨hostPort, rfl⟩

theorem asks_askLoad {l : Loc} (o : Out) (hloc : p.loc = some l) (hway : s.wayFree l = true) :
    let t := s.askLoad c a i p o
    t.outbox = s.outbox ++ [o] ∧ t = { s with cores := t.cores, ports := t.ports, outbox := t.outbox } ∧
      (∀ q, q ≠ c → t.core q = s.core q) ∧ t.core c = { s.core c with
        loads := putAccess (s.core c).loads { a with pieces := a.pieces.set i { p with stage := 3 } } } := by
  obtain ⟨n, hn⟩ := askLoad_eq (c := c) (a := a) (i := i) o hloc hway
  have hcore : ∀ q, (s.transmit n o).core q = s.core q := fun _ => rfl
  rw [hn]
  refine ⟨rfl, rfl, fun q hq => ?_, ?_⟩
  · rw [modCore_def, core_setCore, if_neg hq, hcore]
  · rw [modCore_def, core_setCore, if_pos rfl, hcore]

/-- A port of which `o` is asked no more. -/
def unasked (o : Out) (q : Port) : Port := { q with asked := q.asked.erase o }

/-- R416: what has been answered is asked at no port again. -/
theorem port_answered (o : Out) (n : Nat) :
    (s.answered (some o)).port n = unasked o (s.port n) :=
  tabGet_map (unasked o) portReset s.ports n

end LoadPerform

end Sys2Proof.Proofs

/-! Pieces of stores as they come to their points (R105, R113, R114, R116, R128, R130, R381, R413, R414). -/

namespace Sys2Proof.Proofs

open Sys2Proof.Machine Sys2Proof.Laws

/-! ## Bytes written by the memory side -/

/-- Memory itself is read at every key of a range: HBM, or a place where no register shows. -/
def Backed (s : State) (k n : Nat) : Prop := ∀ a, k ≤ a → a < k + n → isHbm a = true ∨ s.deviceByte a = none

theorem deviceByte_putByte (s : State) (mk k : Nat) (b : BitVec 8) (a : Nat) :
    (putByte s mk k b).deviceByte a = s.deviceByte a := by
  rw [onlyMemory_putByte (s := s) (mk := mk) (k := k) (b := b)]
  rfl

theorem installed_putByte (s : State) (mk k : Nat) (b : BitVec 8) (key a : Nat) :
    (putByte s mk k b).installed key a = s.installed key a := onlyMemory_putByte.installed ..

theorem readByte_putByte_here {s : State} {mk k : Nat} (b : BitVec 8) (hk : isHbm k = true ∨ s.deviceByte k = none)
    (hi : s.installed mk k = true) : (putByte s mk k b).readByte mk k = b := by
  by_cases hh : isHbm k = true
  · exact readByte_putByte_self hh hi
  · rw [readByte_of_not_hbm (Bool.eq_false_iff.mpr hh), deviceByte_putByte, hk.resolve_left hh]
    exact byte_putByte.trans (if_pos rfl)

/-- What a write of the memory side leaves (R105). -/
theorem stored_writeBytes {mk : Nat} (bs : List (BitVec 8)) (s : State) (k : Nat) (hb : Backed s k bs.length) :
    Stored s (s.writeBytes mk k bs) mk k bs := by
  induction bs generalizing s k with
  | nil => exact ⟨fun a _ => by rw [if_neg (by simp)]; rfl, fun _ _ _ => rfl⟩
  | cons b bs ih =>
    obtain ⟨hself, hgran⟩ := ih (putByte s mk k b) (k + 1) fun a h1 h2 => by
      rw [deviceByte_putByte]
      exact hb a (by omega) (by rw [List.length_cons]; omega)
    refine ⟨fun a hi => (hself a (by rw [installed_putByte]; exact hi)).trans ?_, fun key a ha => ?_⟩
    · rw [List.length_cons]
      by_cases hak : a = k
      · subst hak
        rw [if_neg (by omega), if_pos (by omega), Nat.sub_self,
          readByte_putByte_here b (hb a le_rfl (by rw [List.length_cons]; omega)) hi]
        rfl
      · rw [readByte_putByte_other hak hi]
        by_cases hin : k + 1 ≤ a ∧ a < k + 1 + bs.length
        · rw [if_pos hin, if_pos (by omega), show a - k = (a - (k + 1)) + 1 by omega, List.getD_cons_succ]
        · rw [if_neg hin, if_neg (by omega)]
    · rw [show s.writeBytes mk k (b :: bs) = (putByte s mk k b).writeBytes mk (k + 1) bs from rfl,
        hgran key a fun i hi => ?_, readByte_putByte_other_granule (by simpa using ha 0 (by simp)) key]
      have := ha (i + 1) (by rw [List.length_cons]; omega)
      rwa [show k + 1 + i = k + (i + 1) by omega]

theorem onlyMemory_writeBytes (mk : Nat) (bs : List (BitVec 8)) (s : State) (k : Nat) :
    OnlyMemory s (s.writeBytes mk k bs) := by
  induction bs generalizing s k with
  | nil => exact .refl s
  | cons b bs ih => exact onlyMemory_putByte.trans (ih ..)

/-! ## The places of loads and stores in this package -/

/-- A place that is neither a register nor system space: HBM, a team's scratchpad, or a CSM image (R95, R99). -/
def PlainPlace (k n : Nat) : Prop :=
  Hbm k n ∨ 2 ^ 57 ≤ k ∨ ∃ die cl off, die < 4 ∧ cl < 16 ∧ off + n ≤ 2 ^ 24 ∧ k = csmKey die cl off

theorem isHbm_iff {k : Nat} : isHbm k = true ↔ k < 2 ^ 48 ∧ k % 2 ^ 46 < 0x003000000000 := by
  simp [isHbm]

/-- Where such a place lies: in HBM, past every physical address, or among the CSM images. -/
theorem plainPlace_cases {k n : Nat} (h : PlainPlace k n) (hn : 0 < n) :
    (2 ^ 57 ≤ k) ∨ k < 2 ^ 48 ∧ (Hbm k n ∨ 0x380000000000 ≤ k % 2 ^ 46 ∧ k % 2 ^ 46 + n ≤ 0x380010000000) := by
  rcases h with h | h | ⟨die, cl, off, hdie, hcl, hoff, rfl⟩
  · exact .inr ⟨(isHbm_iff.mp (h k le_rfl (by omega))).1, .inl h⟩
  · exact .inl h
  · refine .inr ?_
    unfold csmKey physKey
    omega

/-- No register shows at a scratchpad or among the CSM images. -/
theorem deviceByte_eq_none {s : State} {a : Nat}
    (h : 2 ^ 57 ≤ a ∨ 0x380000000000 ≤ a % 2 ^ 46 ∧ a % 2 ^ 46 < 0x380010000000) : s.deviceByte a = none := by
  unfold State.deviceByte fairLocal mcLocal qpLocal
  rcases h with h | ⟨h1, h2⟩
  · exact if_pos (by omega)
  · by_cases hdie : 4 ≤ a / 2 ^ 46
    · exact if_pos hdie
    · dsimp only
      rw [if_neg hdie, if_neg (by omega), if_neg (by omega), if_neg (by omega)]

theorem backed_of_plainPlace (s : State) {k n : Nat} (h : PlainPlace k n) (hn : 0 < n) : Backed s k n := by
  intro a hka hak
  rcases plainPlace_cases h hn with hpad | ⟨hlt, hhbm | hcsm⟩
  · exact .inr (deviceByte_eq_none (.inl (by omega)))
  · exact .inl (hhbm a hka hak)
  · exact .inr (deviceByte_eq_none (.inr (by omega)))

/-! ## A piece performed in this package -/

/-- What a piece writes at a key: of the bytes that stand there, those bits that its mask names. -/
def merged (s : State) (k : Nat) (p : Piece) : Nat :=
  let m := if k < 2 ^ 57 then p.mask &&& s.softMask k p.len else p.mask
  ((BitVec.ofNat 64 (s.readNat p.mkey k p.len) &&& ~~~m) ||| (p.data &&& m)).toNat

/-- A plain place is written as one unit, whether or not a register lies elsewhere (R105, R381). -/
theorem writePiece_plainPlace (s : State) {k : Nat} {p : Piece} (h : PlainPlace k p.len) (hn : 0 < p.len) :
    s.writePiece k p.mkey p.len p.data p.mask =
      (s.writeNat p.mkey k p.len (merged s k p)).markDirty k p.len := by
  unfold State.writePiece merged
  rcases plainPlace_cases h hn with hpad | ⟨hlt, hplace⟩
  · have hdie : ¬ k / 2 ^ 46 < 4 := by omega
    simp only [hdie, Nat.not_lt.mpr hpad, false_and, if_false]
  · have hdie : k / 2 ^ 46 < 4 := by omega
    have hloc : k % 2 ^ 46 < 0x003000000000 ∨ 0x380000000000 ≤ k % 2 ^ 46 ∧ k % 2 ^ 46 < 0x380010000000 :=
      hplace.imp (fun hh => (isHbm_iff.mp (hh k le_rfl (by omega))).2) (by omega)
    have hfair : ¬ (fairLocal ≤ k % 2 ^ 46 ∧ k % 2 ^ 46 < fairLocal + 8192) := by unfold fairLocal; omega
    have hscan : k % 2 ^ 46 ≠ scanBell := by unfold scanBell; omega
    have hali : k % 2 ^ 46 ≠ aliBell := by unfold aliBell; omega
    have hqp : ¬ (qpLocal ≤ k % 2 ^ 46) := by unfold qpLocal; omega
    simp only [hdie, hfair, hscan, hali, show k < 2 ^ 57 by omega, and_false, if_true, if_false, State.openQp, hqp,
      false_and]

end Sys2Proof.Proofs

/-! ## Pieces of stores that move on (R113, R114, R116, R128, R130, R413) -/

namespace Sys2Proof.Proofs

open Sys2Proof.Machine Sys2Proof.Laws

/-- A store whose piece `i` has come to a point. -/
def movedOn (s : State) (a : Access) (i stage : Nat) (p : Piece) : Access :=
  { a with pieces := a.pieces.set i (p.moveTo stage s.nextId) }

/-- The store queue with that store at its new point, or without it when all its pieces are at their last. -/
def storesAfter (q : List Access) (a : Access) : List Access :=
  if a.pieces.all fun p => p.stage == p.lastStage then q.filter fun b => b.id != a.id
  else q.map fun b => if b.id = a.id then a else b

/-- What a piece of core `c` that moves on does to the queues. -/
def Moves (s t : State) (c : Nat) (a : Access) (i stage : Nat) (p : Piece) : Prop :=
  (∀ q, q ≠ c → t.core q = s.core q) ∧
    t.core c = { s.core c with stores := storesAfter (s.core c).stores (movedOn s a i stage p) }

section Advance
variable {s : State} {c i stage : Nat} {a : Access} {p : Piece}

theorem advancePiece_eq (hcmd : a.cmd = 0) :
    s.advancePiece c a i stage p = { s with nextId := s.nextId + 1 }.modCore c fun k =>
      { k with stores := storesAfter k.stores (movedOn s a i stage p) } := by
  exact if_pos hcmd

theorem frame_advancePiece (hcmd : a.cmd = 0) :
    s.advancePiece c a i stage p =
      { s with cores := (s.advancePiece c a i stage p).cores, nextId := s.nextId + 1 } := by
  rw [advancePiece_eq hcmd]
  rfl

theorem moves_advancePiece (hcmd : a.cmd = 0) : Moves s (s.advancePiece c a i stage p) c a i stage p := by
  have hcore : ∀ q, ({ s with nextId := s.nextId + 1 } : State).core q = s.core q := fun _ => rfl
  rw [advancePiece_eq hcmd]
  refine ⟨fun q hq => ?_, ?_⟩
  · rw [modCore_def, core_setCore, if_neg hq, hcore]
  · rw [modCore_def, core_setCore, if_pos rfl, hcore]

theorem Moves.of_eq {b t : State} (h : Moves b t c a i stage p) (hcores : b.cores = s.cores)
    (hid : b.nextId = s.nextId) : Moves s t c a i stage p := by
  have hcore : ∀ q, b.core q = s.core q := fun q => by rw [State.core, State.core, hcores]
  obtain ⟨hother, hself⟩ := h
  exact ⟨fun q hq => (hother q hq).trans (hcore q), by rw [hself, hcore, movedOn, movedOn, hid]⟩

end Advance

/-- What a step makes of a piece of a store that may move on. -/
def moveStore (s : State) (c : Nat) (a : Access) (i stage : Nat) (p : Piece) : Host.Outcome State Fault Refusal :=
  if p.stage < 4 ∧ 4 ≤ stage then (s.sendPiece a p stage).performPiece c a i stage p
  else .next ((s.sendPiece a p stage).advancePiece c a i stage p)

section StorePerform
variable {s : State} {c id i stage : Nat} {a : Access} {p : Piece}

theorem exec_storePerform (hfind : ((s.core c).stores.find? fun a => a.id == id) = some a) (hgrain : a.grain ≤ 1)
    (hp : a.pieces[i]? = some p) (hmay : s.mayStore c a i p stage = true) (hbar : s.onBarrier p = false)
    (hroom : s.pieceRoom p stage = true) (hlost : p.lostRemote s = false) :
    exec (.storePerform c id i stage) s = moveStore s c a i stage p := by
  have hmove : s.mayMove c a i p stage = true := by simp [State.mayMove, hmay, hbar, hroom]
  change execStorePerform c id i stage s = _
  unfold execStorePerform
  rw [hfind]
  simp only [hgrain, if_true, State.movePiece, hfind, hp, hmove, hlost, Bool.not_true, Bool.false_eq_true,
    and_false, if_false]
  rfl

theorem stage_lt_of_mayStore (hmay : s.mayStore c a i p stage = true) : p.stage < stage := by
  simp only [State.mayStore, Bool.and_eq_true, decide_eq_true_eq] at hmay
  obtain ⟨⟨⟨⟨-, hlt⟩, -⟩, -⟩, -⟩ := hmay
  exact hlt

theorem sendPiece_of_mem {k : Nat} (hloc : p.loc = some (.mem k)) : s.sendPiece a p stage = s := by
  rw [State.sendPiece, hloc]

/-! ### In this package's memory -/

theorem moveStore_mem_early {k : Nat} (hloc : p.loc = some (.mem k)) (hst : stage < 4) :
    moveStore s c a i stage p = .next (s.advancePiece c a i stage p) := by
  rw [moveStore, sendPiece_of_mem hloc, if_neg (by omega)]

theorem moveStore_mem_performs {k : Nat} (hloc : p.loc = some (.mem k)) (hst : p.stage < 4)
    (hlost : s.locLost (.mem k) = false) (hok : s.refused p.mkey k true = false) :
    moveStore s c a i 4 p = .next ((s.writePiece k p.mkey p.len p.data p.mask).advancePiece c a i 4 p) := by
  rw [moveStore, sendPiece_of_mem hloc, if_pos ⟨hst, le_rfl⟩, State.performPiece, hloc]
  simp only [hlost, hok, Bool.false_eq_true, if_false]

/-- R381: what a write marks. -/
theorem tabFind_markDirty {z : State} {k : Nat} (len : Nat) (hk : 2 ^ 57 ≤ k) (u : Nat) :
    tabFind (z.markDirty k len).teams u = if u = (k - 2 ^ 57) / 2 ^ 21 then
      (tabFind z.teams u).map fun m => { m with
        dirty := setBit (setBit m.dirty (k % 2 ^ 21 / 4096)) ((k % 2 ^ 21 + len - 1) / 4096) }
      else tabFind z.teams u := by
  rw [State.markDirty, if_pos hk, tabFind_modTeam, show (k - 2 ^ 57) % 2 ^ 21 = k % 2 ^ 21 by omega]
  split
  · next hu => rw [hu]
  · rfl

theorem frame_markDirty (z : State) (k len : Nat) :
    z.markDirty k len = { z with teams := (z.markDirty k len).teams } := by
  rw [State.markDirty]
  split
  · rw [State.modTeam]
    split <;> rfl
  · rfl

theorem teams_writeNat (s : State) (mk k n v : Nat) : (s.writeNat mk k n v).teams = s.teams := by
  have honly : OnlyMemory s (s.writeNat mk k n v) := onlyMemory_writeBytes ..
  rw [honly]

theorem teams_markDirty {z : State} {k : Nat} (len : Nat) (hk : k < 2 ^ 57) : (z.markDirty k len).teams = z.teams := by
  rw [State.markDirty, if_neg (by omega)]

/-- A piece at its ordering point: its bytes stand, and nothing else of memory has changed (R105, R113, R128). -/
theorem performs_advancePiece {k : Nat} (hcmd : a.cmd = 0) (hplace : PlainPlace k p.len) (hlen : 0 < p.len) :
    let t := (s.writePiece k p.mkey p.len p.data p.mask).advancePiece c a i stage p
    Moves s t c a i stage p ∧ Stored s t p.mkey k (leBytes p.len (merged s k p)) ∧
      t.teams = ((s.writeNat p.mkey k p.len (merged s k p)).markDirty k p.len).teams ∧
      t = { s with mem := t.mem, tags := t.tags, cores := t.cores, teams := t.teams, nextId := s.nextId + 1 } := by
  rw [writePiece_plainPlace s hplace hlen]
  obtain ⟨w, hw⟩ : ∃ w, w = s.writeNat p.mkey k p.len (merged s k p) := ⟨_, rfl⟩
  have honly : OnlyMemory s w := by rw [hw]; exact onlyMemory_writeBytes ..
  have hstored : Stored s w p.mkey k (leBytes p.len (merged s k p)) := by
    rw [hw]
    exact stored_writeBytes _ s k (by rw [length_leBytes]; exact backed_of_plainPlace s hplace hlen)
  rw [← hw, frame_advancePiece hcmd, frame_markDirty]
  refine ⟨(moves_advancePiece hcmd).of_eq ?_ ?_, stored_congr hstored ?_, rfl, ?_⟩
  · rw [honly]
  · rw [honly]
  · constructor <;> rfl
  · rw [honly]

/-! ### To host memory and to other packages -/

/-- Only ports and what leaves the package differ. -/
def OnlyLinks (s z : State) : Prop := z = { s with ports := z.ports, outbox := z.outbox }

theorem moveStore_outside (hloc : ∀ k, p.loc ≠ some (.mem k)) (hlost : p.lostRemote s = false)
    (hz : OnlyLinks s (s.sendPiece a p stage)) :
    moveStore s c a i stage p = .next ((s.sendPiece a p stage).advancePiece c a i stage p) := by
  have hlost' : p.lostRemote (s.sendPiece a p stage) = false := by rw [hz]; exact hlost
  rw [moveStore]
  split
  · unfold State.performPiece
    unfold Piece.lostRemote at hlost'
    split
    · next k hk => exact absurd hk (hloc k)
    · next pkg addr hk =>
      rw [hk] at hlost'
      have hl : (s.sendPiece a p stage).locLost (.remote pkg addr) = false := hlost'
      exact congrArg Host.Outcome.next (if_neg (by rw [hl]; exact Bool.false_ne_true))
    · rfl
  · rfl

theorem moves_of_onlyLinks {z : State} (hcmd : a.cmd = 0) (hz : OnlyLinks s z) :
    Moves s (z.advancePiece c a i stage p) c a i stage p :=
  (moves_advancePiece hcmd).of_eq (by rw [hz]) (by rw [hz])

theorem ports_advancePiece (z : State) (hcmd : a.cmd = 0) : (z.advancePiece c a i stage p).ports = z.ports := by
  rw [frame_advancePiece hcmd]

theorem outbox_advancePiece (z : State) (hcmd : a.cmd = 0) : (z.advancePiece c a i stage p).outbox = z.outbox := by
  rw [frame_advancePiece hcmd]

theorem frame_of_onlyLinks {z : State} (hcmd : a.cmd = 0) (hz : OnlyLinks s z) :
    let t := z.advancePiece c a i stage p
    t = { s with cores := t.cores, nextId := s.nextId + 1, ports := t.ports, outbox := t.outbox } := by
  obtain ⟨ps, ob, rfl⟩ : ∃ ps ob, z = { s with ports := ps, outbox := ob } := ⟨_, _, hz⟩
  dsimp only
  rw [ports_advancePiece _ hcmd, outbox_advancePiece _ hcmd]
  exact frame_advancePiece hcmd

theorem port_transmit {q n : Nat} (o : Out) (h : q ≠ n) : (s.transmit n o).port q = s.port q := by
  simp [State.port, State.transmit, h]

theorem pieceRoom_host {off : Nat} (hloc : p.loc = some (.host off))
    (h : stage < 4 ∨ s.wayFree (.host off) = true) : s.pieceRoom p stage = true := by
  rw [State.pieceRoom, hloc]
  rcases h with hst | hfree
  · simp [hst]
  · simp [hfree]

theorem pieceRoom_remote {pkg addr : Nat} (hloc : p.loc = some (.remote pkg addr))
    (h : s.wayFree (.remote pkg addr) = true ∨ 3 ≤ p.stage ∨ stage < 3) : s.pieceRoom p stage = true := by
  rw [State.pieceRoom, hloc]
  rcases h with hfree | hst | hst
  · simp [hfree]
  · simp [Nat.not_lt.mpr hst]
  · simp [Nat.not_le.mpr hst]

/-- R413: a piece for host memory leaves the package, and is read back behind itself for the system. -/
theorem sendPiece_host {off : Nat} (hloc : p.loc = some (.host off)) :
    let z := s.sendPiece a p stage
    OnlyLinks s z ∧ (∀ q, q ≠ hostPort → z.port q = s.port q) ∧ z.outbox = s.outbox ++
      (if p.stage < 4 ∧ 4 ≤ stage then [Out.hostWrite (s.hostAddr off) p.len p.data p.mask] else []) ++
      if p.stage < 5 ∧ 5 ≤ stage then [Out.hostFetch (s.hostAddr (off / 4096 * 4096)) 0] else [] := by
  dsimp only
  rw [State.sendPiece, hloc]
  by_cases hwrite : p.stage < 4 ∧ 4 ≤ stage <;> by_cases hread : p.stage < 5 ∧ 5 ≤ stage <;>
    simp only [if_neg, hwrite, hread, List.append_nil, not_false_eq_true]
  · exact ⟨rfl, fun q hq => (port_transmit _ hq).trans (port_transmit _ hq), rfl⟩
  · exact ⟨rfl, fun q hq => port_transmit _ hq, rfl⟩
  · exact ⟨rfl, fun q hq => port_transmit _ hq, rfl⟩
  · exact ⟨rfl, fun _ _ => trivial, trivial⟩

theorem onlyLinks_sendAccess (s : State) (pkg addr : Nat) (o : Out) : OnlyLinks s (s.sendAccess pkg addr o) := by
  rw [State.sendAccess]
  split <;> rfl

section Remote
variable {pkg addr : Nat} (hloc : p.loc = some (.remote pkg addr))
include hloc

/-- R130: before its third point, and after it, nothing leaves. -/
theorem sendPiece_remote_stays (h : 3 ≤ p.stage ∨ stage < 3) : s.sendPiece a p stage = s := by
  rw [State.sendPiece, hloc]
  exact if_neg (by omega)

theorem sendPiece_remote_leaves (hlost : s.locLost (.remote pkg addr) = false) (h : p.stage < 3 ∧ 3 ≤ stage) :
    s.sendPiece a p stage = s.sendAccess pkg addr (.store a.id pkg addr p.len p.data p.mask) := by
  rw [State.sendPiece, hloc]
  exact if_pos ⟨h.1, h.2, by rw [hlost]; rfl⟩

theorem onlyLinks_sendPiece_remote : OnlyLinks s (s.sendPiece a p stage) := by
  rw [State.sendPiece, hloc]
  dsimp only
  split
  · exact onlyLinks_sendAccess ..
  · rfl

end Remote

end StorePerform

/-! ## The obligation -/

theorem request_remote (s : State) (a : Access) {p : Piece} {pkg addr : Nat} (hloc : p.loc = some (.remote pkg addr)) :
    p.request s a = some (.load a.id pkg addr p.len) := by rw [Piece.request, hloc]

theorem request_host (s : State) (a : Access) {p : Piece} {off : Nat} (hloc : p.loc = some (.host off)) :
    p.request s a = some (.hostFetch (s.hostAddr off) p.len) := by rw [Piece.request, hloc]

/-- Settles O42: a piece that may go on does what its place asks (`performLoad`, `moveStore`), case by case of the
place. -/
theorem loadsStores : Obligations.loadsStores := by
  unfold Obligations.loadsStores
  refine ⟨fun s c id i ext a p hfind hkind hcmd hp hmay => ?_,
    fun s c id i stage a p hfind hcmd hgrain hp hmay hbar => ?_⟩
  · have hid : a.id = id := by simpa using List.find?_some hfind
    subst hid
    intro step
    have hstep : step = performLoad s c a i p ext := exec_loadPerform hfind hkind hp hmay
    clear_value step
    subst hstep
    refine ⟨?_, ?_, fun m k hm hk hseq => ⟨?_, ?_⟩⟩
    · rintro v ⟨k, hloc, hlost, hok, rfl⟩
      exact ⟨_, performLoad_mem hloc hlost hok, leaves_tookValue ..⟩
    · intro asked outside
      have houtside : ∀ l o, (∀ k, l ≠ .mem k) → (∀ r, l ≠ .region r) →
          (p.loc = some l → p.request s a = some o) → outside l o := by
        intro l o hmem hregion hrequest hloc hlost
        have hreq := hrequest hloc
        refine ⟨performLoad_waits hloc hlost hreq, fun hst hway => ⟨_, performLoad_asks hloc hlost hreq hst hway,
          asks_askLoad _ hloc hway⟩, fun x hst hx => ?_⟩
        subst hx
        exact ⟨s.answered _, _, rfl, port_answered _, performLoad_answered hloc hlost hreq hmem hregion hst,
          leaves_tookValue ..⟩
      exact ⟨fun pkg addr => houtside _ _ nofun nofun (request_remote s a),
        fun off => houtside _ _ nofun nofun (request_host s a)⟩
    · intro l hloc hlost
      rw [performLoad_lost hloc hlost, refuseAccess_of_task _ _ hcmd hm hk hseq]
      rfl
    · intro l hloc hlost hno
      rw [performLoad_refused hloc hlost hno, refuseAccess_of_task _ _ hcmd hm hk hseq]
      rfl
  · have hid : a.id = id := by simpa using List.find?_some hfind
    subst hid
    have hlt := stage_lt_of_mayStore hmay
    dsimp only
    refine ⟨fun k hloc => ?_, fun off hloc hway => ?_, fun pkg addr hloc hlost hway => ?_⟩
    · rw [exec_storePerform hfind hgrain hp hmay hbar (by rw [State.pieceRoom, hloc]) (by rw [Piece.lostRemote, hloc])]
      refine ⟨fun hst => ⟨_, moveStore_mem_early hloc hst, moves_advancePiece hcmd, frame_advancePiece hcmd⟩, ?_⟩
      rintro rfl hlost hok hlen - hplace
      obtain ⟨hmoves, hstored, hteams, hframe⟩ := performs_advancePiece (c := c) (i := i) (stage := 4) hcmd hplace hlen
      exact ⟨_, moveStore_mem_performs hloc hlt hlost hok, hmoves, hstored,
        fun hk => by rw [hteams, teams_markDirty _ hk, teams_writeNat],
        fun hk u => by rw [hteams, tabFind_markDirty _ hk, teams_writeNat], hframe⟩
    · have hroom := pieceRoom_host hloc hway
      have hnot : p.lostRemote s = false := by rw [Piece.lostRemote, hloc]
      obtain ⟨hlinks, hports, hbox⟩ := sendPiece_host (s := s) (stage := stage) (a := a) hloc
      rw [exec_storePerform hfind hgrain hp hmay hbar hroom hnot,
        moveStore_outside (by rw [hloc]; exact nofun) hnot hlinks]
      exact ⟨_, rfl, moves_of_onlyLinks hcmd hlinks, frame_of_onlyLinks hcmd hlinks, fun q hq =>
        (congrArg (tabGet portReset · q) (ports_advancePiece _ hcmd)).trans (hports q hq),
        (outbox_advancePiece _ hcmd).trans hbox⟩
    · have hroom := pieceRoom_remote hloc hway
      have hnot : p.lostRemote s = false := by rw [Piece.lostRemote, hloc]; exact hlost
      have hlinks := onlyLinks_sendPiece_remote (s := s) (stage := stage) (a := a) hloc
      rw [exec_storePerform hfind hgrain hp hmay hbar hroom hnot,
        moveStore_outside (by rw [hloc]; exact nofun) hnot hlinks]
      refine ⟨_, rfl, moves_of_onlyLinks hcmd hlinks, frame_of_onlyLinks hcmd hlinks, fun hst => ?_,
        fun n h1 h2 hplane => ?_⟩
      · rw [outbox_advancePiece _ hcmd, ports_advancePiece _ hcmd, sendPiece_remote_stays hloc hst]
        exact ⟨rfl, rfl⟩
      · rw [outbox_advancePiece _ hcmd, sendPiece_remote_leaves hloc hlost ⟨h1, h2⟩, State.sendAccess, hplane]
        rfl

end Sys2Proof.Proofs

/-! A read that parks where the pool lies over its context's descriptor (R32, R33, R105, R217). -/

namespace Sys2Proof.Proofs

open Sys2Proof.Machine Sys2Proof.Laws

/-! ## What a region and a granule read -/

theorem readNat_congr {s t : State} {mk k n : Nat} (h : ∀ i, i < n → t.readByte mk (k + i) = s.readByte mk (k + i)) :
    t.readNat mk k n = s.readNat mk k n := by
  rw [State.readNat, State.readNat, readBytes_eq_map, readBytes_eq_map]
  exact congrArg leNat (List.map_congr_left fun i hi => h i (List.mem_range.mp hi))

/-- A region is read from the 64 bytes of its descriptor under key 0. -/
theorem region_congr {s b : State} {ctx n : Nat} (hrtab : b.vrtab 512 ctx = s.vrtab 512 ctx)
    (hread : ∀ i, i < 64 → b.readByte 0 (gpaKey (s.vrtab 512 ctx + 64 * n) + i) =
      s.readByte 0 (gpaKey (s.vrtab 512 ctx + 64 * n) + i)) :
    b.region ctx n = s.region ctx n := by
  have hnat : ∀ off len, off + len ≤ 64 → b.readNat 0 (gpaKey (s.vrtab 512 ctx + 64 * n) + off) len =
      s.readNat 0 (gpaKey (s.vrtab 512 ctx + 64 * n) + off) len := fun off len h =>
    readNat_congr fun i hi => by rw [Nat.add_assoc]; exact hread _ (by omega)
  unfold State.region
  simp only [hrtab, hnat _ _ (show 0 + 8 ≤ 64 by decide), hnat _ _ (show 8 + 4 ≤ 64 by decide),
    hnat _ _ (show 12 + 1 ≤ 64 by decide), hnat _ _ (show 13 + 1 ≤ 64 by decide),
    hnat _ _ (show 16 + 4 ≤ 64 by decide), hnat _ _ (show 20 + 4 ≤ 64 by decide),
    hnat _ _ (show 24 + 8 ≤ 64 by decide), hnat _ _ (show 32 + 8 ≤ 64 by decide)]

theorem cores_of_chained {b t : State} {ctx n g : Nat} {l : List Waiter} (h : Chained b t ctx n g l) :
    t.cores = b.cores := by
  obtain ⟨-, hframe, -⟩ := h
  rw [hframe]

theorem cores_of_woken {b t : State} {u r status : Nat} (h : Woken b t u r status)
    (hrec : ∃ m q, tabFind b.teams u = some m ∧ q ∈ m.recs ∧ q.id = r) : t.cores = b.cores := by
  obtain ⟨c, hc, hteams, hshown⟩ := h
  obtain ⟨m, q, hm, hq, hid⟩ := hrec
  have hteam := hteams u
  rw [if_pos rfl, hm] at hteam
  obtain ⟨hframe, -⟩ := hshown _ { q with state := 1, status := status } hteam
    (List.mem_map.mpr ⟨q, hq, if_pos hid⟩) hid
  rw [hframe, hc]

/-! ## A read that parks -/

/-- The record that a parked read leaves. -/
def waitingRec (s : State) (e : Env) (q : VReq) (k : Nat) : Rec :=
  { e.record s.nextId q.pc q.xm 3 0 with
    obj := q.at k, arg := q.ver, scope := q.scope, since := (s.die e.die).gnomon.toNat }

/-- The state in which that record stands, and the task is gone. -/
def leftWaiting (s : State) (e : Env) (q : VReq) (k : Nat) : State :=
  { s with nextId := s.nextId + 1 }.leaveRec e 8 (waitingRec s e q k)

/-- Where the record goes: it is ready at once, or it joins the granule's chain (R44, R217). -/
def placeWaiting (s : State) (u id : Nat) (q : VReq) (n g : Nat) : State :=
  let (there, lost) := match s.region q.ctx n with
    | some r => (decide (q.ver.toNat ≤ s.latest q.ctx r g), (s.die r.home).lost)
    | none => (false, false)
  if lost then s.wakeRec u id cPeerLost
  else if there then s.wakeRec u id 0
  else s.setVerChain (verKey q.ctx n g) (tabGet [] s.verChains (verKey q.ctx n g) ++ [.task u id q.ver.toNat])

theorem parkRead_eq {s : State} {e : Env} {q : VReq} {k n g : Nat} (hwait : firstWait q = some (k, n, g)) :
    s.parkRead e q = placeWaiting (leftWaiting s e q k) e.uid s.nextId q n g := by
  unfold State.parkRead
  rw [hwait]
  rfl

theorem placeWaiting_chains {s : State} {u id : Nat} {q : VReq} {n g : Nat} {r : Region}
    (hregion : s.region q.ctx n = some r) (hlost : (s.die r.home).lost = false)
    (hlate : s.latest q.ctx r g < q.ver.toNat) :
    placeWaiting s u id q n g = s.setVerChain (verKey q.ctx n g)
      (tabGet [] s.verChains (verKey q.ctx n g) ++ [.task u id q.ver.toNat]) := by
  unfold placeWaiting
  simp [hregion, hlost, Nat.not_le.mpr hlate]

theorem region_verChains (s : State) (chains : Tab (List Waiter)) (ctx n : Nat) :
    ({ s with verChains := chains } : State).region ctx n = s.region ctx n := by
  have hmem : SameMemory s { s with verChains := chains } := by constructor <;> rfl
  have hnat : ∀ mk k n, ({ s with verChains := chains } : State).readNat mk k n = s.readNat mk k n :=
    fun _ _ _ => readNat_congr fun _ _ => hmem.readByte ..
  unfold State.region State.vrtab State.descWord State.descHome State.descOn State.descMem
  simp only [hnat]
  rfl

theorem setVerChain_eq {s : State} {key : Nat} {r : Region} (l : List Waiter)
    (hregion : s.region (key / 2 ^ 34) (key / 2 ^ 26 % 256) = some r) :
    s.setVerChain key l = { s with verChains := tabSet [] s.verChains key l }.agentNat (s.ctxKey (key / 2 ^ 34))
      (gpaKey (r.dir + 16 * (key % 2 ^ 26)) + 8) 8 (if l.isEmpty then 0 else (Config.chainHead s.ticks).toNat) := by
  unfold State.setVerChain
  dsimp only
  rw [region_verChains, hregion]
  rfl

/-- The end of a chain is written to the granule's directory entry alone. -/
theorem readByte_setVerChain {s : State} {key : Nat} {r : Region} (l : List Waiter) (mk : Nat) {a : Nat}
    (hregion : s.region (key / 2 ^ 34) (key / 2 ^ 26 % 256) = some r)
    (h : ∀ i, i < 8 → a / 128 ≠ (gpaKey (r.dir + 16 * (key % 2 ^ 26)) + 8 + i) / 128) :
    (s.setVerChain key l).readByte mk a = s.readByte mk a := by
  rw [setVerChain_eq l hregion]
  exact readByte_agentWrite_other_granule _ _ _ (by rwa [length_leBytes]) mk

theorem cores_setVerChain {s : State} {key : Nat} {r : Region} (l : List Waiter)
    (hregion : s.region (key / 2 ^ 34) (key / 2 ^ 26 % 256) = some r) : (s.setVerChain key l).cores = s.cores := by
  rw [setVerChain_eq l hregion, onlyMemory_agentNat]

theorem exec_versionAnswerArrival_parks {s : State} {u id core : Nat} {addr : W64} {m : Team} {k : Task} {q : VReq}
    (hm : tabFind s.teams u = some m) (hk : m.task = some k) (hc : m.core = some core) (hhold : k.hold = .answer id)
    (hq : tabFind s.vreqs id = some q) (hans : q.answer = some (0x1000, addr)) (hzero : m.ctx = 0)
    (hsaved : s.saved core 0 = false) :
    exec (.versionAnswerArrival u) s =
      .next ({ s with vreqs := tabDel s.vreqs id }.parkRead ⟨u, m, k, core⟩ q) := by
  change execVersionAnswerArrival u s = _
  unfold execVersionAnswerArrival
  simp [hm, hk, hc, hhold, hq, hans, hsaved, hzero]

/-! ## The state -/

/-- A task of C0x000 with the number of a dead key in x3, held for the answer of its read. -/
def readingTask : Task := { taskStart 0 [(3, 5)] 0 none false with hold := .answer 7 }

def readingTeam : Team := { teamStart 0 0 0 0 0 0 0 0 [] [] with task := some readingTask, ready := [] }

/-- A VLDV at 64 that keeps x1 to x3 and waits for version 1 of granule 0 in region 0 of context 1. -/
def waitingRead : VReq where
  op := .read; src := .task 1 0; ctx := 1; pc := 64; va := 0; count := 1; ver := 1; rows := []
  got := [(0, .wait 0 0)]; dst := [0]; xm := 0xE; scope := 0; seq := 7; held := false; answer := some (0x1000, 0)
  msg := none; region := 0; granule := 0

/-- Core 1 runs context 1, whose key is 0 and whose regions stand at 65,536. -/
def planeOfOne : Core := { coreReset with plane := [(0, 0x8000000000000001), (6, 65536)] }

/-- The pool of `poolOverDescriptor`; region 0 of context 1 is valid, with its directory at 131,072 and no version
made. -/
def parkOverDescriptor : State := { poolOverDescriptor with
  mem := poolOverDescriptor.mem ++ [(65549, 0x80), (65570, 2)]
  cores := [(1, planeOfOne)], teams := [(1, readingTeam)], vreqs := [(7, waitingRead)], focus := none }

/-- The task that parks. -/
def readingEnv : Env := ⟨1, readingTeam, readingTask, 0⟩

/-- The state as the task's end finds it: the answer is taken, and a name is given out for the record. -/
def answeredRead : State :=
  { parkOverDescriptor with vreqs := tabDel parkOverDescriptor.vreqs 7, nextId := parkOverDescriptor.nextId + 1 }

theorem poolPlaces_answeredRead : (answeredRead.endTask 1).poolPlaces 0 0 2 = [32960, 33024] := by decide +kernel

theorem keyOn_answeredRead : answeredRead.keyOn 0 0 = 0 := by decide +kernel

theorem region_answeredRead : answeredRead.region 1 0 = some ⟨65536, 0, 0, 0, 0, 0, 0, 0, 131072⟩ := by decide +kernel

/-- The state in which the record stands. -/
def parkedRead : State := leftWaiting { parkOverDescriptor with vreqs := tabDel parkOverDescriptor.vreqs 7 } readingEnv
  waitingRead 0

theorem region_parkedRead : parkedRead.region 1 0 = some ⟨65536, 0, 0, 0, 0, 0, 0, 0, 131072⟩ := by decide +kernel

theorem latest_parkedRead : parkedRead.latest 1 ⟨65536, 0, 0, 0, 0, 0, 0, 0, 131072⟩ 0 = 0 := by decide +kernel

theorem header_parkedRead : parkedRead.readByte 0 32960 = 0 := by decide +kernel

theorem plane_parkedRead : parkedRead.planeWord 512 1 2 = some 0 ∧ parkedRead.planeWord 512 1 6 = some 65536 := by
  decide +kernel

/-- What the step leaves. -/
def chainedRead : State := parkedRead.setVerChain (verKey 1 0 0)
  (tabGet [] parkedRead.verChains (verKey 1 0 0) ++ [.task 1 parkOverDescriptor.nextId 1])

theorem lost_parkOverDescriptor : (parkOverDescriptor.die 0).lost = false := by decide +kernel

theorem lost_parkedRead : (parkedRead.die 0).lost = false := by decide +kernel

theorem placeWaiting_parkedRead (id : Nat) : placeWaiting parkedRead 1 id waitingRead 0 0 =
    parkedRead.setVerChain (verKey 1 0 0) (tabGet [] parkedRead.verChains (verKey 1 0 0) ++ [.task 1 id 1]) := by
  have hlate : parkedRead.latest 1 ⟨65536, 0, 0, 0, 0, 0, 0, 0, 131072⟩ 0 < 1 := by
    rw [latest_parkedRead]
    exact Nat.one_pos
  exact placeWaiting_chains (q := waitingRead) region_parkedRead lost_parkedRead hlate

theorem exec_parkOverDescriptor : exec (.versionAnswerArrival 1) parkOverDescriptor = .next chainedRead := by
  have hm : tabFind parkOverDescriptor.teams 1 = some readingTeam := rfl
  have hq : tabFind parkOverDescriptor.vreqs 7 = some waitingRead := rfl
  rw [exec_versionAnswerArrival_parks hm rfl rfl rfl hq rfl rfl rfl, parkRead_eq rfl]
  exact congrArg Host.Outcome.next (placeWaiting_parkedRead _)

/-- The record's first byte still reads 0. -/
theorem header_chainedRead : chainedRead.readByte 0 32960 = 0 := by
  refine (readByte_setVerChain (key := verKey 1 0 0) _ 0 region_parkedRead fun i hi => ?_).trans header_parkedRead
  rw [show gpaKey (131072 + 16 * (verKey 1 0 0 % 2 ^ 26)) = 131072 from rfl]
  omega

/-! ## What the statement asks of the state before the chain -/

section Before
variable {b : State} {r : Rec}

/-- The state `b` reads as `answeredRead` outside the record's units, and has the first byte of the record's PC at the
first of them. -/
structure HoldsRecord (b : State) (r : Rec) : Prop where
  team : tabFind b.teams 1 = some (readingEnv.without [r] [])
  within : ∀ key a, a / 128 ≠ 257 → a / 128 ≠ 258 → b.readByte key a = answeredRead.readByte key a
  header : b.readByte 0 32960 = 64
  mkeys : b.mkeys = [(5, 2, 0)]
  sections : b.sections = []
  scrubs : b.scrubs = []

theorem holdsRecord_of_ended {id : Nat} (hc : Carries readingEnv r id 64 0xE 3 0)
    (he : Ended answeredRead b readingEnv [r] [] none) : HoldsRecord b r := by
  obtain ⟨-, hpc, -, -, -, hunits, -⟩ := hc
  obtain ⟨c, hcframe, hteams, -, -, hrecord⟩ := he
  obtain ⟨⟨hbframe, hnamed⟩, hplaces, -⟩ := hrecord r rfl
  have hplaces : r.places = [32960, 33024] := by
    rw [hplaces, show r.units = 2 from hunits]
    exact poolPlaces_answeredRead
  have hone : Named (readingEnv.without [r] []) r := fun q hq _ => List.mem_singleton.mp hq
  obtain ⟨⟨hwithin, -⟩, hheaded, -⟩ := hnamed hone
  have hread : ∀ key a, c.readByte key a = answeredRead.readByte key a := fun key a => by rw [hcframe]; rfl
  have hwrite : Writable c 0 (gpaKey 32960) 64 := by
    intro a _ _
    rw [hcframe]
    simp [State.refused, State.lockOf, State.installed, answeredRead, parkOverDescriptor, poolOverDescriptor,
      State.reset, tabGet, tabFind]
  have hkey : answeredRead.keyOn readingEnv.core readingEnv.team.ctx = 0 := keyOn_answeredRead
  rw [hkey] at hheaded
  obtain ⟨link, hbytes⟩ := hheaded 32960 (by rw [hplaces]; rfl) hbm_firstUnit hwrite rfl
  refine ⟨?_, fun key a h1 h2 => ?_, ?_, ?_, ?_, ?_⟩
  · rw [hbframe]
    exact (hteams 1).trans (if_pos rfl)
  · rw [hwithin key a ?_, hread]
    intro p hp i hi
    rw [hplaces] at hp
    simp only [List.mem_cons, List.not_mem_nil, or_false] at hp
    rcases hp with rfl | rfl <;> unfold gpaKey <;> omega
  · have hhead := congrArg List.head? hbytes
    rw [show gpaKey 32960 = 32960 from rfl, State.readBytes] at hhead
    simpa [Rec.words, hpc, leBytes] using hhead
  all_goals
    rw [hbframe, hcframe]
    rfl

/-- Key 0 writes the granule's directory entry. -/
theorem HoldsRecord.writable (h : HoldsRecord b r) (k n : Nat) : Writable b 0 k n := by
  intro a _ _
  simp [State.refused, State.lockOf, State.installed, h.mkeys, h.sections, h.scrubs, tabGet, tabFind]

section Cores
variable (h : HoldsRecord b r) (hcores : b.cores = chainedRead.cores)
include hcores

theorem plane_before : b.planeWord 512 1 2 = some 0 ∧ b.planeWord 512 1 6 = some 65536 := by
  have hsame : b.cores = parkedRead.cores := hcores.trans (cores_setVerChain _ region_parkedRead)
  have hplane : ∀ k, b.planeWord 512 1 k = parkedRead.planeWord 512 1 k := fun k => by
    unfold State.planeWord State.core
    rw [hsame]
  rw [hplane, hplane]
  exact plane_parkedRead

theorem ctxKey_before : b.ctxKey 1 = 0 := by
  rw [State.ctxKey, State.keyOn, (plane_before hcores).1]
  rfl

theorem vrtab_before : b.vrtab 512 1 = 65536 := by
  rw [State.vrtab, (plane_before hcores).2]
  rfl

include h

theorem region_before : b.region 1 0 = some ⟨65536, 0, 0, 0, 0, 0, 0, 0, 131072⟩ := by
  have hrtab : answeredRead.vrtab 512 1 = 65536 := by decide +kernel
  rw [← region_answeredRead]
  refine region_congr ((vrtab_before hcores).trans hrtab.symm) fun i hi => ?_
  rw [hrtab]
  exact h.within 0 _ (by unfold gpaKey; omega) (by unfold gpaKey; omega)

theorem latest_before : b.latest 1 ⟨65536, 0, 0, 0, 0, 0, 0, 0, 131072⟩ 0 = 0 := by
  have hzero : answeredRead.readNat 0 131072 4 = 0 := by decide +kernel
  rw [State.latest, ctxKey_before hcores]
  rw [show gpaKey (131072 + 16 * 0) = 131072 from rfl]
  exact (readNat_congr fun i hi => h.within 0 _ (by omega) (by omega)).trans hzero

end Cores

end Before

/-- Refutes O47: a read of C0x000 that parks, with a record that covers the context's descriptor, leaves the record's
header unwritten, since the register values that were written before it changed the key to a dead one. The chain that
it joins is one of context 1, whose key is alive, so that the step's end is fixed but for the directory entry. -/
theorem not_versions : ¬ Obligations.versions := by
  unfold Obligations.versions
  rintro ⟨-, hanswer⟩
  obtain ⟨-, -, -, -, hparks⟩ := hanswer parkOverDescriptor 1 7 0 0x1000 0 readingTeam readingTask waitingRead
    rfl rfl rfl rfl rfl rfl
  obtain ⟨b, r, t, hexec, hcarries, -, -, -, hended, houtcome⟩ := hparks ⟨.inl rfl, rfl⟩ rfl rfl 0 0 0 rfl
  have ht : chainedRead = t := Host.Outcome.next.inj (exec_parkOverDescriptor.symm.trans hexec)
  subst ht
  have hb : HoldsRecord b r := holdsRecord_of_ended hcarries hended
  obtain ⟨hnone, hsome⟩ := houtcome
  have hwoken : ∀ code, Woken b chainedRead 1 r.id code → chainedRead.cores = b.cores := fun code h =>
    cores_of_woken h ⟨_, r, hb.team, List.mem_singleton_self r, rfl⟩
  have hcores : b.cores = chainedRead.cores := by
    cases hr : b.region waitingRead.ctx 0 with
    | none => exact (cores_of_chained (hnone hr)).symm
    | some x =>
      obtain ⟨hlost, hthere, hlate⟩ := hsome x hr
      cases hl : (parkOverDescriptor.die x.home).lost with
      | true => exact (hwoken _ (hlost hl)).symm
      | false =>
        rcases Nat.lt_or_ge (b.latest waitingRead.ctx x 0) waitingRead.ver.toNat with hv | hv
        · exact (cores_of_chained (hlate hl hv)).symm
        · exact (hwoken _ (hthere hl hv)).symm
  have hregion := region_before hb hcores
  obtain ⟨-, -, hlate⟩ := hsome _ hregion
  obtain ⟨-, -, hdir⟩ := hlate lost_parkOverDescriptor (by
    rw [show waitingRead.ctx = 1 from rfl, latest_before hb hcores]
    exact Nat.one_pos)
  have hkey : gpaKey (131072 + 16 * 0) + 8 = 131080 := rfl
  have hhbm : Hbm (gpaKey (131072 + 16 * 0) + 8) 8 := by
    intro a h1 h2
    rw [hkey] at h1 h2
    exact isHbm_iff.mpr (by omega)
  obtain ⟨_, -, hsame⟩ := hdir _ hregion (by decide) (by decide) (by decide) hhbm
    (ctxKey_before hcores ▸ hb.writable _ _)
  have hread := hsame 0 32960 fun i hi => by
    rw [length_leBytes] at hi
    rw [hkey]
    omega
  rw [header_chainedRead, hb.header] at hread
  exact absurd hread (by decide)

end Sys2Proof.Proofs

/-! MARK and PF, and the versioned accesses as they issue (R117, R211, R212, R215, R216, R220, R221). -/

namespace Sys2Proof.Proofs

open Sys2Proof.Machine Sys2Proof.Laws

/-! ## An entry at the tail of its queue -/

/-- The entry `id` of the issuing task that `State.enter` makes of an access with the pieces `ps`. -/
def queueEntry (e : Env) (sp : AccSpec) (id : Nat) (ps : List Piece) : Access where
  id := id; team := e.uid; ctx := e.team.ctx; seq := e.task.seq; pc := e.task.pc; kind := sp.kind
  entries := sp.entries; xlate := ps.any fun p => p.loc.isNone; pieces := ps; dst := sp.dst
  rel := sp.rel; acq := sp.acq; inOrder := sp.inOrder; grain := 1; cmd := 0

/-- A core with the entry `a` at the tail of its store queue, or else of its load queue (R204). -/
def withEntry (store : Bool) (a : Access) (k : Core) : Core :=
  if store then { k with stores := k.stores ++ [a] } else { k with loads := k.loads ++ [a] }

theorem enter_eq (s : State) (e : Env) (store : Bool) (sp : AccSpec) (id : Nat) (ps : List Piece) :
    s.enter e store sp id ps = s.modCore e.core (withEntry store (queueEntry e sp id ps)) := rfl

/-- An instruction that has entered an access and then leaves its task as `k`: the access is at the tail of its
queue, and no other part of the state has changed. -/
theorem onlyTask_commit_enter {s : State} {e : Env} (he : s.issuer = some e) (store : Bool) (sp : AccSpec) (id : Nat)
    (ps : List Piece) (k : Task) :
    let t := (s.enter e store sp id ps).commit e k
    OnlyTask { s with cores := t.cores } t e { k with held := false, issued := s.ticks } ∧
      ∀ c, t.core c = if c = e.core then withEntry store (queueEntry e sp id ps) (s.core c) else s.core c := by
  have hcores := commit_cores (s.enter e store sp id ps) e k
  refine ⟨?_, fun c => ?_⟩
  · rw [hcores]
    exact onlyTask_commit (s := s.enter e store sp id ps) ((issuer_setCore ..).trans he) k
  · rw [core_congr hcores, enter_eq, modCore_def, core_setCore]
    split_ifs with hc
    · rw [hc]
    · rfl

/-! ## Accesses that nothing holds (R204, R205, R366) -/

/-- R84: which registers an access leaves empty does not depend on the PC, and its acquires stay. -/
theorem emptyDst_advance (t : Task) (n : Nat) (d : LoadDst) :
    (t.advance n).emptyDst d = { t.emptyDst d with pc := t.pc + w64 n, acqs := t.acqs } := by
  cases d with
  | none => rfl
  | v regs runs => rfl
  | x d bytes sgn =>
    simp only [Task.emptyDst, Task.emptyX]
    split_ifs <;> rfl

/-- The task after an instruction of `n` bytes whose access is the entry `id` (R84, R121). -/
def accessing (t : Task) (n : Nat) (sp : AccSpec) (id : Nat) : Task :=
  let k := (t.advance n).emptyDst sp.dst
  if sp.acq then { k with acqs := k.acqs ++ [id] } else k

theorem accessing_eq (t : Task) (n : Nat) (sp : AccSpec) (id : Nat) : accessing t n sp id =
    { t.emptyDst sp.dst with
      pc := t.pc + w64 n, acqs := if sp.acq then t.acqs ++ [id] else t.acqs } := by
  rw [accessing, emptyDst_advance]
  cases sp.acq <;> rfl

theorem loading_accessing (s : State) (e : Env) (n : Nat) (sp : AccSpec) (b : Bool) (m : Nat) :
    Loading s e { accessing e.task n sp s.nextId with held := b, issued := m } n sp := by
  rw [accessing_eq]
  rfl

theorem finds_ne_nil {sp : AccSpec} (h : sp.pieces ≠ []) (s : State) (e : Env) (store : Bool) :
    (Finds s e store sp).1 ≠ [] := by
  unfold Finds State.place
  split_ifs
  · exact h
  · simpa using h

section AccessAct
variable {s : State} {e : Env} {store : Bool} {sp : AccSpec} (n : Nat) (h : Enterable s e store sp)
include h

/-- What an access does that neither a MARK, nor an acquire, nor its queue, nor an engine command holds. -/
theorem accessAct_open : accessAct e n store sp s =
    match faultFirst (Finds s e store sp).2.1 (Finds s e store sp).2.2 with
    | some (va, c) => .fault ⟨c, w64 va, sp.kind.writes, false, false⟩
    | none =>
      let t := (s.fresh.2.enter e store sp s.nextId (Finds s e store sp).1).commit e
        (accessing e.task n sp s.nextId)
      .done (if (Finds s e store sp).1.isEmpty then
        (if store then t.modCore e.core fun k => { k with stores := k.stores.filter fun a => a.id != s.nextId }
          else t.loadsLeave e.core e.uid)
        else t) := by
  obtain ⟨hclear, hroom, hsb⟩ := h
  simp only [accessAct, hclear, hroom, hsb, Bool.not_true, Bool.false_eq_true, if_false] <;> rfl

theorem accessAct_fault {va c : Nat}
    (hf : faultFirst (Finds s e store sp).2.1 (Finds s e store sp).2.2 = some (va, c)) :
    accessAct e n store sp s = .fault ⟨c, w64 va, sp.kind.writes, false, false⟩ := by
  rw [accessAct_open n h, hf]

theorem accessAct_enter (hf : faultFirst (Finds s e store sp).2.1 (Finds s e store sp).2.2 = none)
    (hne : sp.pieces ≠ []) : accessAct e n store sp s =
      .done ((s.fresh.2.enter e store sp s.nextId (Finds s e store sp).1).commit e
        (accessing e.task n sp s.nextId)) := by
  have hpieces : (Finds s e store sp).1.isEmpty = false := by simpa using finds_ne_nil hne s e store
  rw [accessAct_open n h, hf]
  simp only [hpieces, Bool.false_eq_true, if_false]

end AccessAct

/-- An instruction whose body is an access of at least one piece enters its queue once nothing holds it, or faults. -/
theorem enters_of_accessAct {i : Instr} {s : State} {e : Env} {st n : Nat} {srcs : List SrcOp} {dsts : List DstOp}
    {body : Env → State → Act} {store : Bool} {sp : AccSpec} (hexec : exec i s = issue st n srcs dsts body s)
    (h : CanIssue s e st srcs dsts) (hbody : body e s = accessAct e n store sp s) (hne : sp.pieces ≠ [])
    (hopen : Enterable s e store sp) : Enters i s e n store sp := by
  refine ⟨fun hf _ => ?_, fun hnil => absurd hnil hne, fun va c hf => ?_⟩
  · obtain ⟨honly, hcore⟩ := onlyTask_commit_enter (s := s.fresh.2) h.1 store sp s.nextId (Finds s e store sp).1
      (accessing e.task n sp s.nextId)
    refine ⟨_, _, ?_, loading_accessing s e n sp false s.ticks, honly, hcore⟩
    rw [hexec, issue_ready h, hbody, accessAct_enter n hopen hf hne]
  · refine ⟨sp.kind.writes, false, false, ?_⟩
    rw [hexec, issue_ready h, hbody, accessAct_fault n hopen hf]

/-! ## MARK (R117, R211) -/

/-- What a MARK stands for: the task's older accesses, and those of its consumed tokens' parts that are not over. -/
def markDeps (s : State) (e : Env) (deps : List Dep) : List Dep :=
  .mem e.uid s.nextId :: deps.filter fun d => !s.depOver d

/-- The task behind its MARK. -/
def behindMark (s : State) (e : Env) (f : FE2) (deps : List Dep) : Task :=
  let t := e.task.produce s f (markDeps s e deps)
  { t with marks := t.marks.filter (fun m => !s.depsDone m) ++ [markDeps s e deps] }.advance 8

section Mark
variable {s : State} {e : Env} {f : FE2} {deps : List Dep}

theorem exec_mark (h : CanIssue s e f.st.toNat [] []) (htok : e.task.consume (FE2.cts f) = some deps) :
    exec (.mark f) s = .next (s.commit e (behindMark s e f deps)) := by
  change execMark f s = _
  rw [execMark, issue_ready h, htok]
  rfl

theorem behindMark_eq : behindMark s e f deps = { e.task with
    tok := (e.task.produce s f (markDeps s e deps)).tok
    marks := e.task.marks.filter (fun m => !s.depsDone m) ++ [markDeps s e deps]
    pc := e.task.pc + 8 } := by
  rw [behindMark, produce_eq]
  rfl

theorem becomes_behindMark (h : CanIssue s e f.st.toNat [] []) (htok : e.task.consume (FE2.cts f) = some deps) :
    Machine.Becomes (.mark f) s e fun k => k = { e.task with
        tok := k.tok, marks := k.marks, pc := e.task.pc + 8, held := k.held, issued := k.issued } ∧
      (∃ ms ds, k.marks = ms ++ [.mem e.uid s.nextId :: ds] ∧
        (∀ m ∈ e.task.marks, m ∈ ms ∨ s.depsDone m = true) ∧ ∀ d ∈ deps, d ∈ ds ∨ s.depOver d = true) ∧
      ∀ j, ¬ (f.pv = true ∧ j = f.pt.toNat) →
        tabGet .unproduced k.tok j = tabGet .unproduced e.task.tok j := by
  have hkept {α : Type} {p : α → Bool} {l : List α} {x : α} (hx : x ∈ l) : x ∈ l.filter (!p ·) ∨ p x = true := by
    cases hp : p x <;> simp [hx, hp]
  refine ⟨_, _, exec_mark h htok, onlyTask_commit h.1 _, ?_⟩
  rw [behindMark_eq]
  exact ⟨rfl, ⟨_, _, rfl, fun m => hkept, fun d => hkept⟩, fun j => tok_produce_other⟩

end Mark

/-! ## PF (R12, R111, R204, R212) -/

section Prefetch
variable {i : Instr} {s : State} {e : Env} {st n : Nat} {srcs : List SrcOp} {body : Env → State → Act} {a : W64}
  (hexec : exec i s = issue st n srcs [] body s) (h : CanIssue s e st srcs []) (hbody : body e s = prefetch e n a s)
include hexec h hbody

theorem holds_prefetch (hheld : s.room e.core false 1 = false ∨ s.sbHit e a.toNat 1 = true) : Holds i s e := by
  have hact : prefetch e n a s = .hold := by
    rw [prefetch, if_pos]
    rcases hheld with hroom | hhit
    · rw [hroom]
      rfl
    · rw [hhit, Bool.or_true]
  rw [Holds, hexec, issue_ready h, hbody, hact]

/-- The entry of a PF waits in the load queue for the look-up of its address. -/
theorem enters_prefetch (hroom : s.room e.core false 1 = true) (hhit : s.sbHit e a.toNat 1 = false) :
    ∃ t k x, exec i s = .next t ∧ Moved e.task k n ∧
      OnlyTask { s with cores := t.cores, nextId := s.nextId + 1 } t e k ∧
      x.id = s.nextId ∧ x.kind = .prefetch ∧ x.entries = 1 ∧ x.xlate = true ∧
      x.pieces = [{ newPiece 0 1 0 0 with va := a }] ∧
      ∀ c, t.core c = if c = e.core then
        { s.core c with loads := (s.core c).loads ++ [x] } else s.core c := by
  obtain ⟨honly, hcore⟩ := onlyTask_commit_enter (s := s.fresh.2) h.1 false
    ⟨.prefetch, 1, [], .none, none, false, false⟩ s.nextId [{ newPiece 0 1 0 0 with va := a }] (e.task.advance n)
  refine ⟨_, { e.task.advance n with held := false, issued := s.ticks }, _, ?_, rfl, honly, rfl, rfl, rfl, rfl, rfl,
    hcore⟩
  rw [hexec, issue_ready h, hbody, prefetch, hroom, hhit]
  rfl

end Prefetch

/-! ## VLDV and VSTV (R84, R215, R216) -/

/-- Bits set in a mask, where some of those listed may lie beyond it. -/
theorem getLsbD_foldl_setBit_of_width {n : Nat} (l : List Nat) (m : BitVec n) (j : Nat) :
    (l.foldl setBit m).getLsbD j = (m.getLsbD j || (decide (j < n) && l.contains j)) := by
  have hbeyond (i : Nat) (hi : ¬ i < n) (m : BitVec n) : setBit m i = m := by
    simp [setBit, BitVec.shiftLeft_eq_zero (Nat.le_of_not_lt hi)]
  induction l generalizing m with
  | nil => simp
  | cons i l ih =>
    rw [List.foldl_cons, ih, List.contains_cons]
    by_cases hi : i < n
    · rw [getLsbD_setBit m hi]
      by_cases hj : j = i
      · simp [hj, hi]
      · simp [beq_false_of_ne hj]
    · rw [hbeyond i hi]
      by_cases hj : j = i
      · simp [hj, hi]
      · simp [beq_false_of_ne hj]

section Version
variable {i : Instr} {s : State} {e : Env} {st : Nat} {srcs : List SrcOp} {dsts : List DstOp}
  {body : Env → State → Act} {op : VOp} {a : W64} {m : Nat} {mk : Nat → VReq} {store blocked : Bool} {fills : List Nat}

/-- What a VLDV or VSTV does that nothing holds. -/
theorem versionAct_open (hstore : (op == .create) = store) (hblocked : blocked = false)
    (hclear : s.memClear e = true) (hroom : s.room e.core store 1 = true)
    (hhit : s.sbHit e a.toNat (128 * m) = false) :
    versionAct e op a m mk blocked fills s = match s.granuleBad e.who a store with
      | some c => .fault ⟨c, a, store, false, false⟩
      | none => .done ((({ s.fresh.2 with vreqs := tabPut s.vreqs s.nextId (mk s.nextId) } : State).enter e
          store ⟨.ver, 1, [], .none, none, false, false⟩ s.nextId []).commit e
          { (e.task.advance 8).emptyDst (.v fills []) with hold := .answer s.nextId }) := by
  simp only [versionAct, hstore, hblocked, hclear, hroom, hhit, Bool.not_true, Bool.or_false, Bool.false_eq_true,
    if_false] <;> rfl

variable (hexec : exec i s = issue st 8 srcs dsts body s) (h : CanIssue s e st srcs dsts)
  (hbody : body e s = versionAct e op a m mk blocked fills s)
  (hstore : (op == .create) = store) (hblocked : blocked = false) (hclear : s.memClear e = true)
  (hroom : s.room e.core store 1 = true) (hhit : s.sbHit e a.toNat (128 * m) = false)
include hexec h hbody hstore hblocked hclear hroom hhit

theorem faults_version {c : Nat} (hbad : s.granuleBad e.who a store = some c) : Faults i s e c a := by
  refine ⟨store, false, false, ?_⟩
  rw [hexec, issue_ready h, hbody, versionAct_open hstore hblocked hclear hroom hhit, hbad]

/-- The request is on its way, and the task waits for its answer. -/
theorem sends_version (hgood : s.granuleBad e.who a store = none) :
    ∃ t k' x, exec i s = .next t ∧
      k' = { e.task with
        pc := e.task.pc + 8, vEmpty := k'.vEmpty, hold := .answer s.nextId
        held := k'.held, issued := k'.issued } ∧
      (∀ r, k'.vEmpty.getLsbD r = (e.task.vEmpty.getLsbD r || (decide (r < 32) && fills.contains r))) ∧
      OnlyTask { s with
        cores := t.cores, nextId := s.nextId + 1, vreqs := tabPut s.vreqs s.nextId (mk s.nextId) } t e k' ∧
      x.id = s.nextId ∧ x.kind = .ver ∧ x.team = e.uid ∧
      ∀ c, t.core c = if c = e.core then withEntry store x (s.core c) else s.core c := by
  obtain ⟨honly, hcore⟩ := onlyTask_commit_enter
    (s := { s.fresh.2 with vreqs := tabPut s.vreqs s.nextId (mk s.nextId) }) h.1 store
    ⟨.ver, 1, [], .none, none, false, false⟩ s.nextId []
    { (e.task.advance 8).emptyDst (.v fills []) with hold := .answer s.nextId }
  refine ⟨_, _, _, ?_, rfl, getLsbD_foldl_setBit_of_width fills e.task.vEmpty, honly, rfl, rfl, rfl, hcore⟩
  rw [hexec, issue_ready h, hbody, versionAct_open hstore hblocked hclear hroom hhit, hgood]

end Version

/-! ## The issue of the versioned instructions -/

section Issue
variable (f : FVV) (s : State)

theorem exec_vldv : exec (.vldv f) s = issue f.st.toNat 8 [.x f.xa f.fea, .x f.xb f.feb, .x f.xm f.fem]
    [.v f.vd.toNat f.g.toNat] (fun e s =>
      let m := f.g.toNat * e.task.rows.toNat
      versionAct e .read (FVV.addr f e.task) m (newVReq e .read (FVV.addr f e.task) m (e.task.getX f.xb) []
        (e.task.groupKeys f.vd.toNat m) (e.task.getX f.xm) f.scope.toNat)
        (!e.task.liveFull (e.task.getX f.xm) || !s.poolRoom e.team.ctx (e.task.getX f.xm))
        (e.task.physList f.vd.toNat f.g.toNat) s) s := rfl

theorem exec_vstv : exec (.vstv f) s =
    issue f.st.toNat 8 [.x f.xa f.fea, .x f.xb f.feb, .v f.vd.toNat f.g.toNat false] [] (fun e s =>
      let m := f.g.toNat * e.task.rows.toNat
      versionAct e .create (FVV.addr f e.task) m (newVReq e .create (FVV.addr f e.task) m (e.task.getX f.xb)
        ((e.task.groupKeys f.vd.toNat m).map fun r => tabGet 0 e.task.v r) [] 0 f.scope.toNat) false [] s) s := rfl

/-- A VQRY reads its granule, which fills XM (R220). -/
def queryOf (t : Task) : AccSpec where
  kind := .ver
  entries := 1
  pieces := [{ newPiece 0 128 0 0 with va := FVV.addr f t, aligned := decide ((FVV.addr f t).toNat % 128 = 0) }]
  dst := if f.xm = 0 then .none else .x f.xm.toNat 8 false
  rel := none
  acq := false
  inOrder := false

/-- A VRELV brings the floor of XB to its granule's region (R221). -/
def releaseOf (t : Task) : AccSpec where
  kind := .ver
  entries := 1
  pieces := [{ newPiece 0 128 (t.getX f.xb &&& 0xFFFFFFFF) 0 with
    va := FVV.addr f t, aligned := decide ((FVV.addr f t).toNat % 128 = 0) }]
  dst := .none
  rel := none
  acq := false
  inOrder := true

theorem exec_vqry : exec (.vqry f) s = issue f.st.toNat 8 [.x f.xa f.fea] [.x f.xm]
    (fun e s => accessAct e 8 false (queryOf f e.task) s) s := rfl

theorem exec_vrelv : exec (.vrelv f) s = issue f.st.toNat 8 [.x f.xa f.fea, .x f.xb f.feb] []
    (fun e s => accessAct e 8 true (releaseOf f e.task) s) s := rfl

end Issue

/-- Settles O18: MARK by its mark and token, PF by what holds it and its entry, VLDV and VSTV by the request that they
send, and VQRY and VRELV as accesses of one piece. -/
theorem markPrefetch : Obligations.markPrefetch := by
  unfold Obligations.markPrefetch
  refine ⟨fun s e => ⟨fun f deps => becomes_behindMark, fun f h => ?_, fun f h => ?_⟩, ?_⟩
  · exact ⟨holds_prefetch (i := .pf f) rfl h rfl, enters_prefetch (i := .pf f) rfl h rfl⟩
  · exact ⟨holds_prefetch (i := .pfE3 f) rfl h rfl, enters_prefetch (i := .pfE3 f) rfl h rfl⟩
  intro s e f k a b m keys sends aligned qry rel
  refine ⟨fun h hfull hpool hclear hroom hhit => ?_, fun h hclear hroom hhit => ?_, fun h => ?_, fun h => ?_⟩
  · have hblocked : (!k.liveFull (k.getX f.xm) || !s.poolRoom e.team.ctx (k.getX f.xm)) = false := by
      rw [hfull, hpool]
      rfl
    exact ⟨fun c => faults_version (exec_vldv f s) h rfl rfl hblocked hclear hroom hhit,
      sends_version (exec_vldv f s) h rfl rfl hblocked hclear hroom hhit⟩
  · exact ⟨fun c => faults_version (exec_vstv f s) h rfl rfl rfl hclear hroom hhit,
      sends_version (exec_vstv f s) h rfl rfl rfl hclear hroom hhit⟩
  · exact enters_of_accessAct (exec_vqry f s) h rfl (List.cons_ne_nil _ _)
  · exact enters_of_accessAct (exec_vrelv f s) h rfl (List.cons_ne_nil _ _)

end Sys2Proof.Proofs

/-! The bytes of an instruction, and the decoder that reads them back (R133, R134, R142). -/

namespace Sys2Proof.Proofs

open Sys2Proof.Machine Sys2Proof.Laws

/-! ## Numbers and their bytes -/

theorem leNat_leBytes (n v : Nat) : leNat (leBytes n v) = v % 256 ^ n := by
  induction n generalizing v with
  | zero => rw [pow_zero, Nat.mod_one, leBytes, leNat]
  | succ n ih => rw [pow_succ', Nat.mod_mul, leBytes, leNat, ih, BitVec.toNat_ofNat]

/-- The first bytes of a number do not depend on how many more are taken. -/
theorem take_leBytes {m n : Nat} (h : m ≤ n) (v : Nat) : (leBytes n v).take m = leBytes m v := by
  induction m generalizing n v with
  | zero => rfl
  | succ m ih =>
    obtain ⟨n, rfl⟩ : ∃ k, n = k + 1 := ⟨n - 1, by omega⟩
    rw [leBytes, List.take_succ_cons, ih (by omega), leBytes]

/-! ## The bits of an encoding -/

theorem toNat_lt_of_high_zero {x : BitVec 96} {lo w : Nat} (h : lo + w = 96) (hx : fld x lo w = 0) :
    x.toNat < 2 ^ lo := by
  have hshift : x.toNat >>> lo % 2 ^ w = 0 := by
    rw [← BitVec.extractLsb'_toNat, ← fld, hx]
    rfl
  have hlt : x.toNat / 2 ^ lo < 2 ^ w := by
    rw [Nat.div_lt_iff_lt_mul (Nat.two_pow_pos lo), ← pow_add, Nat.add_comm w, h]
    exact x.isLt
  rw [Nat.shiftRight_eq_div_pow, Nat.mod_eq_of_lt hlt] at hshift
  exact Nat.lt_of_div_eq_zero (Nat.two_pow_pos lo) hshift

/-- No format sets a bit above its parcels (R134): the bits that its instructions leave unused are constants. -/
theorem toNat_bits_lt (e : Enc) : e.bits.toNat < 2 ^ (32 * e.parcels) := by
  cases e with
  | s | si | b | bc =>
    refine toNat_lt_of_high_zero (lo := 32) (w := 64) rfl ?_
    simp (disch := omega) only [Enc.bits, packS, packSI, packB, packBC, fld, extract_append_high, Nat.reduceSub,
      extract_whole]
    rfl
  | sw | m | v | vm | vv | e2 =>
    refine toNat_lt_of_high_zero (lo := 64) (w := 32) rfl ?_
    simp (disch := omega) only [Enc.bits, packSW, packM, packV, packVM, packVV, packE2, fld, extract_append_high,
      Nat.reduceSub, extract_whole]
    rfl
  | x3 | e3 => exact BitVec.isLt _

theorem parcels_pos (e : Enc) : 0 < e.parcels := by
  cases e <;> exact Nat.succ_pos _

/-- LEN stands in the lowest bits (R133). -/
theorem lengthOfBits_ofNat_mod (v : Nat) :
    lengthOfBits (BitVec.ofNat 96 (v % 2 ^ 32)) = lengthOfBits (BitVec.ofNat 96 v) := by
  have hlen : fld (BitVec.ofNat 96 (v % 2 ^ 32)) 0 2 = fld (BitVec.ofNat 96 v) 0 2 := by
    refine BitVec.eq_of_toNat_eq ?_
    simp only [fld, BitVec.extractLsb'_toNat, BitVec.toNat_ofNat, Nat.shiftRight_zero]
    omega
  rw [lengthOfBits, hlen, lengthOfBits]

/-! ## The round trip -/

theorem isSome_encOf (i : Instr) : (encOf i).isSome = i.isForm := by
  cases i <;> rfl

theorem encode_of_encOf {i : Instr} {e : Enc} (h : encOf i = some e) :
    encode i = leBytes (4 * e.parcels) e.bits.toNat := by
  rw [encode, h]

/-- Every instruction, by the round trip of its own entry. -/
theorem roundTrip (i : Instr) : RoundTrip.Statement i := by
  cases i with
  | add f => exact RoundTrip.add f
  | addSw f => exact RoundTrip.addSw f
  | sub f => exact RoundTrip.sub f
  | subSw f => exact RoundTrip.subSw f
  | mul f => exact RoundTrip.mul f
  | mulSw f => exact RoundTrip.mulSw f
  | mulh f => exact RoundTrip.mulh f
  | mulhSw f => exact RoundTrip.mulhSw f
  | div f => exact RoundTrip.div f
  | divSw f => exact RoundTrip.divSw f
  | rem f => exact RoundTrip.rem f
  | remSw f => exact RoundTrip.remSw f
  | and f => exact RoundTrip.and f
  | andSw f => exact RoundTrip.andSw f
  | or f => exact RoundTrip.or f
  | orSw f => exact RoundTrip.orSw f
  | xor f => exact RoundTrip.xor f
  | xorSw f => exact RoundTrip.xorSw f
  | andn f => exact RoundTrip.andn f
  | andnSw f => exact RoundTrip.andnSw f
  | shl f => exact RoundTrip.shl f
  | shlSw f => exact RoundTrip.shlSw f
  | shr f => exact RoundTrip.shr f
  | shrSw f => exact RoundTrip.shrSw f
  | shra f => exact RoundTrip.shra f
  | shraSw f => exact RoundTrip.shraSw f
  | rotr f => exact RoundTrip.rotr f
  | rotrSw f => exact RoundTrip.rotrSw f
  | min f => exact RoundTrip.min f
  | minSw f => exact RoundTrip.minSw f
  | max f => exact RoundTrip.max f
  | maxSw f => exact RoundTrip.maxSw f
  | clz f => exact RoundTrip.clz f
  | clzSw f => exact RoundTrip.clzSw f
  | ctz f => exact RoundTrip.ctz f
  | ctzSw f => exact RoundTrip.ctzSw f
  | popc f => exact RoundTrip.popc f
  | popcSw f => exact RoundTrip.popcSw f
  | sext f => exact RoundTrip.sext f
  | zext f => exact RoundTrip.zext f
  | setc f => exact RoundTrip.setc f
  | sel f => exact RoundTrip.sel f
  | lea f => exact RoundTrip.lea f
  | bfx f => exact RoundTrip.bfx f
  | bfi f => exact RoundTrip.bfi f
  | addi f => exact RoundTrip.addi f
  | addiSw f => exact RoundTrip.addiSw f
  | andi f => exact RoundTrip.andi f
  | andiSw f => exact RoundTrip.andiSw f
  | ori f => exact RoundTrip.ori f
  | oriSw f => exact RoundTrip.oriSw f
  | xori f => exact RoundTrip.xori f
  | xoriSw f => exact RoundTrip.xoriSw f
  | movi f => exact RoundTrip.movi f
  | moviSw f => exact RoundTrip.moviSw f
  | moviX3 f => exact RoundTrip.moviX3 f
  | br f => exact RoundTrip.br f
  | call f => exact RoundTrip.call f
  | bc f => exact RoundTrip.bc f
  | jmp f => exact RoundTrip.jmp f
  | ret f => exact RoundTrip.ret f
  | lstart f => exact RoundTrip.lstart f
  | lnext f => exact RoundTrip.lnext f
  | lexit f => exact RoundTrip.lexit f
  | endTask f => exact RoundTrip.endTask f
  | endTaskSw f => exact RoundTrip.endTaskSw f
  | spawn f => exact RoundTrip.spawn f
  | spawnSw f => exact RoundTrip.spawnSw f
  | yield f => exact RoundTrip.yield f
  | yieldSw f => exact RoundTrip.yieldSw f
  | trap f => exact RoundTrip.trap f
  | trapSw f => exact RoundTrip.trapSw f
  | rdcr f => exact RoundTrip.rdcr f
  | wrcr f => exact RoundTrip.wrcr f
  | nop f => exact RoundTrip.nop f
  | nopSw f => exact RoundTrip.nopSw f
  | breakTask f => exact RoundTrip.breakTask f
  | breakTaskSw f => exact RoundTrip.breakTaskSw f
  | fadd ty f => exact RoundTrip.fadd ty f
  | faddSw ty f => exact RoundTrip.faddSw ty f
  | fsub ty f => exact RoundTrip.fsub ty f
  | fsubSw ty f => exact RoundTrip.fsubSw ty f
  | fmul ty f => exact RoundTrip.fmul ty f
  | fmulSw ty f => exact RoundTrip.fmulSw ty f
  | fdiv ty f => exact RoundTrip.fdiv ty f
  | fdivSw ty f => exact RoundTrip.fdivSw ty f
  | fsqrt ty f => exact RoundTrip.fsqrt ty f
  | fsqrtSw ty f => exact RoundTrip.fsqrtSw ty f
  | fmin ty f => exact RoundTrip.fmin ty f
  | fminSw ty f => exact RoundTrip.fminSw ty f
  | fmax ty f => exact RoundTrip.fmax ty f
  | fmaxSw ty f => exact RoundTrip.fmaxSw ty f
  | fsetc ty f => exact RoundTrip.fsetc ty f
  | fcvt ty f => exact RoundTrip.fcvt ty f
  | ffma ty f => exact RoundTrip.ffma ty f
  | ld fn f => exact RoundTrip.ld fn f
  | st fn f => exact RoundTrip.st fn f
  | mark f => exact RoundTrip.mark f
  | pf f => exact RoundTrip.pf f
  | pfE3 f => exact RoundTrip.pfE3 f
  | sqld f => exact RoundTrip.sqld f
  | vadd f => exact RoundTrip.vadd f
  | vsub f => exact RoundTrip.vsub f
  | vmul f => exact RoundTrip.vmul f
  | vfma f => exact RoundTrip.vfma f
  | vfms f => exact RoundTrip.vfms f
  | vmin f => exact RoundTrip.vmin f
  | vmax f => exact RoundTrip.vmax f
  | vabs f => exact RoundTrip.vabs f
  | vneg f => exact RoundTrip.vneg f
  | vcpys f => exact RoundTrip.vcpys f
  | vrcp f => exact RoundTrip.vrcp f
  | vrsq f => exact RoundTrip.vrsq f
  | vexp2 f => exact RoundTrip.vexp2 f
  | vlog2 f => exact RoundTrip.vlog2 f
  | vtanh f => exact RoundTrip.vtanh f
  | vsin f => exact RoundTrip.vsin f
  | vcos f => exact RoundTrip.vcos f
  | viadd f => exact RoundTrip.viadd f
  | visub f => exact RoundTrip.visub f
  | vimul f => exact RoundTrip.vimul f
  | vimad f => exact RoundTrip.vimad f
  | vand f => exact RoundTrip.vand f
  | vor f => exact RoundTrip.vor f
  | vxor f => exact RoundTrip.vxor f
  | vnot f => exact RoundTrip.vnot f
  | vshl f => exact RoundTrip.vshl f
  | vshr f => exact RoundTrip.vshr f
  | vshra f => exact RoundTrip.vshra f
  | vimin f => exact RoundTrip.vimin f
  | vimax f => exact RoundTrip.vimax f
  | viabs f => exact RoundTrip.viabs f
  | vcmp f => exact RoundTrip.vcmp f
  | vsel f => exact RoundTrip.vsel f
  | vcvt f => exact RoundTrip.vcvt f
  | vqnt f => exact RoundTrip.vqnt f
  | vdqt f => exact RoundTrip.vdqt f
  | vrsum f => exact RoundTrip.vrsum f
  | vrmax f => exact RoundTrip.vrmax f
  | vrmin f => exact RoundTrip.vrmin f
  | vscan f => exact RoundTrip.vscan f
  | vtrn f => exact RoundTrip.vtrn f
  | vbcr f => exact RoundTrip.vbcr f
  | vbcc f => exact RoundTrip.vbcc f
  | vperm f => exact RoundTrip.vperm f
  | vsld f => exact RoundTrip.vsld f
  | vrot f => exact RoundTrip.vrot f
  | vmov f => exact RoundTrip.vmov f
  | vmovWhole f => exact RoundTrip.vmovWhole f
  | vspl f => exact RoundTrip.vspl f
  | vext f => exact RoundTrip.vext f
  | vins f => exact RoundTrip.vins f
  | vidx f => exact RoundTrip.vidx f
  | pset f => exact RoundTrip.pset f
  | pwhl f => exact RoundTrip.pwhl f
  | pmov f => exact RoundTrip.pmov f
  | vsets f => exact RoundTrip.vsets f
  | vld f => exact RoundTrip.vld f
  | vst f => exact RoundTrip.vst f
  | vldg f => exact RoundTrip.vldg f
  | vstx f => exact RoundTrip.vstx f
  | vldb f => exact RoundTrip.vldb f
  | vldv f => exact RoundTrip.vldv f
  | vstv f => exact RoundTrip.vstv f
  | vqry f => exact RoundTrip.vqry f
  | vrelv f => exact RoundTrip.vrelv f
  | mrec f => exact RoundTrip.mrec f
  | mldb f => exact RoundTrip.mldb f
  | mma f => exact RoundTrip.mma f
  | mmav f => exact RoundTrip.mmav f
  | mmag f => exact RoundTrip.mmag f
  | mrank f => exact RoundTrip.mrank f
  | mzero f => exact RoundTrip.mzero f
  | mdrain f => exact RoundTrip.mdrain f
  | mmova f => exact RoundTrip.mmova f
  | mmovv f => exact RoundTrip.mmovv f
  | mqry f => exact RoundTrip.mqry f
  | cpy f => exact RoundTrip.cpy f
  | cpyv f => exact RoundTrip.cpyv f
  | cpys f => exact RoundTrip.cpys f
  | acw f => exact RoundTrip.acw f
  | acwArrive f => exact RoundTrip.acwArrive f
  | waits f => exact RoundTrip.waits f
  | sigs f => exact RoundTrip.sigs f
  | sigsE3 f => exact RoundTrip.sigsE3 f
  | semrd f => exact RoundTrip.semrd f
  | waitb f => exact RoundTrip.waitb f
  | fqpost f => exact RoundTrip.fqpost f
  | fmbox f => exact RoundTrip.fmbox f
  | fput f => exact RoundTrip.fput f
  | fflush f => exact RoundTrip.fflush f
  | launch f => exact RoundTrip.launch f
  | rdpr f => exact RoundTrip.rdpr f
  | wrpr f => exact RoundTrip.wrpr f
  | eret f => exact RoundTrip.eret f
  | asave f => exact RoundTrip.asave f
  | arest f => exact RoundTrip.arest f
  | tlbinv f => exact RoundTrip.tlbinv f
  | tlbinvSw f => exact RoundTrip.tlbinvSw f
  | replay f => exact RoundTrip.replay f
  | replaySw f => exact RoundTrip.replaySw f
  | quar f => exact RoundTrip.quar f
  | quarSw f => exact RoundTrip.quarSw f
  | qstat f => exact RoundTrip.qstat f
  | qstatSw f => exact RoundTrip.qstatSw f
  | cfgdiff f => exact RoundTrip.cfgdiff f
  | cfgdiffSw f => exact RoundTrip.cfgdiffSw f
  | wlatch f => exact RoundTrip.wlatch f
  | wlatchSw f => exact RoundTrip.wlatchSw f
  | halt f => exact RoundTrip.halt f
  | haltSw f => exact RoundTrip.haltSw f
  | idle f => exact RoundTrip.idle f
  | idleSw f => exact RoundTrip.idleSw f
  | _ => exact roundTrip_step rfl

section WellFormed
variable {i : Instr}

/-- What the bytes of a well-formed instruction come from. -/
theorem exists_encOf (h : i.WellFormed) : ∃ e, encOf i = some e ∧
    encode i = leBytes (4 * e.parcels) e.bits.toNat ∧ decodeBits e.bits = .ok i ∧ lengthOfBits e.bits = e.parcels := by
  obtain ⟨hform, hwf⟩ := h
  obtain ⟨e, he⟩ := Option.isSome_iff_exists.mp ((isSome_encOf i).trans hform)
  exact ⟨e, he, encode_of_encOf he, roundTrip i e he hwf⟩

theorem four_le_length_encode (h : i.WellFormed) : 4 ≤ (encode i).length := by
  obtain ⟨e, -, henc, -⟩ := exists_encOf h
  have := parcels_pos e
  rw [henc, length_leBytes]
  omega

/-- The first parcel tells the length of the instruction (R133). -/
theorem lengthOfBits_encode (h : i.WellFormed) (rest : List (BitVec 8)) :
    4 * lengthOfBits (BitVec.ofNat 96 (leNat ((encode i ++ rest).take 4))) = (encode i).length := by
  have hfour := four_le_length_encode h
  obtain ⟨e, -, henc, -, hlen⟩ := exists_encOf h
  rw [List.take_append_of_le_length hfour]
  rw [henc, length_leBytes] at hfour ⊢
  rw [take_leBytes hfour, leNat_leBytes, show 256 ^ 4 = 2 ^ 32 from rfl, lengthOfBits_ofNat_mod,
    BitVec.ofNat_toNat, BitVec.setWidth_eq, hlen]

/-- All its bytes together are its bits. -/
theorem bits_encode (h : i.WellFormed) : decodeBits (BitVec.ofNat 96 (leNat (encode i))) = .ok i := by
  obtain ⟨e, -, henc, hdec, -⟩ := exists_encOf h
  have hpow : 256 ^ (4 * e.parcels) = 2 ^ (32 * e.parcels) := by
    rw [show 256 = 2 ^ 8 from rfl, ← pow_mul, ← Nat.mul_assoc]
  rw [henc, leNat_leBytes, hpow, Nat.mod_eq_of_lt (toNat_bits_lt e), BitVec.ofNat_toNat, BitVec.setWidth_eq, hdec]

theorem decode_encode (h : i.WellFormed) (rest : List (BitVec 8)) : decode (encode i ++ rest) = .ok (i, rest) := by
  have hle : (encode i).length ≤ (encode i ++ rest).length := by simp
  have hfour := four_le_length_encode h
  rw [decode, if_neg (by omega)]
  simp only [lengthOfBits_encode h, if_neg (Nat.not_lt.mpr hle), List.take_left', List.drop_left', bits_encode h]

end WellFormed

/-- Settles O31: LEN of the first parcel gives the bytes that the instruction takes; they are its bits, and the round
trip of its format gives the fields back, every instruction by its own entry. -/
theorem decodeEncode : Obligations.decodeEncode := by
  unfold Obligations.decodeEncode
  intro i rest h
  obtain ⟨e, he, -⟩ := exists_encOf h
  exact ⟨by simp [he], decode_encode h rest⟩

end Sys2Proof.Proofs

/-! The fetch of an instruction, and the step that runs it (R145, R147, R164, R355, R367). -/

namespace Sys2Proof.Proofs

open Sys2Proof.Machine Sys2Proof.Laws

/-! ## What a fetch leaves -/

/-- `b` is the state `s` but for TLBs and instruction caches. -/
def FetchOnly (s b : State) : Prop :=
  b = { s with cores := b.cores, clusters := b.clusters } ∧
    (∀ c, b.core c = { s.core c with tlb := (b.core c).tlb, icache := (b.core c).icache }) ∧
    ∀ c, b.cluster c = { s.cluster c with tlb := (b.cluster c).tlb }

theorem FetchOnly.trans {s b z : State} (h : FetchOnly s b) (h' : FetchOnly b z) : FetchOnly s z := by
  obtain ⟨hb, hcores, hclusters⟩ := h
  obtain ⟨hz, hcores', hclusters'⟩ := h'
  refine ⟨hz.trans (by rw [hb]), fun c => ?_, fun c => ?_⟩
  · rw [hcores', hcores]
  · rw [hclusters', hclusters]

theorem fetchOnly_of_tlbsOnly {s b : State} (h : TlbsOnly s b) : FetchOnly s b := by
  obtain ⟨hb, hcores, hclusters⟩ := h
  exact ⟨hb, fun c => by rw [hcores], hclusters⟩

theorem fetchOnly_fillMiss (s : State) (w : Who) (va : Nat) : FetchOnly s (s.fillMiss w .fetch false va) :=
  fetchOnly_of_tlbsOnly (tlbsOnly_fillMiss ..)

theorem fetchOnly_cacheLine (s : State) (w : Who) (va mkey k : Nat) : FetchOnly s (s.cacheLine w va mkey k) := by
  unfold State.cacheLine
  split
  · exact fetchOnly_of_tlbsOnly (tlbsOnly_refl s)
  · refine ⟨rfl, fun c => ?_, fun c => rfl⟩
    rw [modCore_def, core_setCore]
    split_ifs with hc
    · rw [hc]
    · rfl

theorem fetchOnly_fetchFill (s : State) (e : Env) : FetchOnly s (s.fetchFill e) := by
  have hfirst := fetchOnly_fillMiss s e.who e.task.pc.toNat
  unfold State.fetchFill
  dsimp only
  split
  case h_1 => exact hfirst
  case h_2 k mkey _ =>
    have hline := hfirst.trans (fetchOnly_cacheLine _ e.who e.task.pc.toNat mkey k)
    split_ifs
    · exact hline.trans (fetchOnly_cacheLine ..)
    · split
      · exact hline.trans (fetchOnly_fillMiss ..)
      · exact (hline.trans (fetchOnly_fillMiss ..)).trans (fetchOnly_cacheLine ..)

/-! ## The bytes of an instruction -/

theorem cached_of_empty {s : State} {w : Who} (h : (s.core w.core).icache = []) (va k : Nat) :
    s.cached w va k = none := by
  rw [State.cached, h, List.find?_nil]

/-- Without a line in the cache, code reads as memory does. -/
theorem codeBytes_of_empty {s : State} {w : Who} (h : (s.core w.core).icache = []) (va mk k n : Nat) :
    s.codeBytes w va mk k n = s.readBytes mk k n := by
  induction n generalizing k with
  | zero => rfl
  | succ n ih => rw [State.codeBytes, State.codeAt, cached_of_empty h, ih, State.readBytes]

theorem take_codeBytes (s : State) (w : Who) (va mk : Nat) {m n : Nat} (k : Nat) (h : m ≤ n) :
    (s.codeBytes w va mk k n).take m = s.codeBytes w va mk k m := by
  induction m generalizing n k with
  | zero => rfl
  | succ m ih =>
    obtain ⟨n, rfl⟩ : ∃ j, n = j + 1 := ⟨n - 1, by omega⟩
    rw [State.codeBytes, List.take_succ_cons, ih _ (by omega), State.codeBytes]

theorem length_codeBytes (s : State) (w : Who) (va mk k n : Nat) : (s.codeBytes w va mk k n).length = n := by
  induction n generalizing k with
  | zero => rfl
  | succ n ih => rw [State.codeBytes, List.length_cons, ih]

theorem decode_encode_alone {i : Instr} (h : i.WellFormed) : decode (encode i) = .ok (i, []) := by
  have hdec := decode_encode h []
  rwa [List.append_nil] at hdec

section Fetch
variable {s : State} {e : Env} {i : Instr} {k mk : Nat}

/-- The first four bytes of an instruction's page tell its length. -/
theorem codeLength_of_bytes {m : Nat} {rest : List (BitVec 8)} (hi : i.WellFormed) (hm : 4 ≤ m)
    (hbytes : s.codeBytes e.who e.task.pc.toNat mk k m ++ rest = encode i) :
    s.codeLength e.who e.task.pc.toNat mk k = (encode i).length := by
  have hlen := length_codeBytes s e.who e.task.pc.toNat mk k m
  rw [← lengthOfBits_encode hi [], List.append_nil, ← hbytes, List.take_append_of_le_length (by omega),
    take_codeBytes s e.who _ mk k hm, State.codeLength]

theorem runTask_of_fetch (hwait : s.fetchWaits e = false) (h : s.fetch e = .instr i) :
    runTask s e = exec i (s.fetchFill e) := by
  rw [runTask, hwait, h]
  rfl

theorem startCheck_passes (h : e.atStart = true → s.badTarget e.who e.task.pc = false) :
    (e.atStart && s.badTarget e.who e.task.pc) = false := by
  cases hat : e.atStart with
  | false => rfl
  | true => exact h hat

variable (hstart : e.atStart = true → s.badTarget e.who e.task.pc = false) (hbad : e.task.badFetch = none)
  (hk : s.codeByte e e.task.pc = .ok (k, mk)) (hi : i.WellFormed)
include hstart hbad hk hi

/-- An instruction on one page (R145). -/
theorem fetch_onePage (hroom : (encode i).length ≤ 65536 - e.task.pc.toNat % 65536)
    (hlast : ∃ x, s.codeByte e (e.task.pc + w64 ((encode i).length - 1)) = .ok x)
    (hbytes : s.codeBytes e.who e.task.pc.toNat mk k (encode i).length = encode i) : s.fetch e = .instr i := by
  obtain ⟨x, hx⟩ := hlast
  have hlen := codeLength_of_bytes (rest := []) hi (four_le_length_encode hi) ((List.append_nil _).trans hbytes)
  simp only [State.fetch, startCheck_passes hstart, Bool.false_eq_true, if_false, hbad, hk, hlen, hroom, if_true,
    hx, hbytes, decode_encode_alone hi]

/-- An instruction on two pages of one section (R367). -/
theorem fetch_twoPages {k2 mk2 : Nat} (hroom : 65536 - e.task.pc.toNat % 65536 < (encode i).length)
    (hfour : 4 ≤ 65536 - e.task.pc.toNat % 65536)
    (hk2 : s.codeByte e (e.task.pc + w64 (65536 - e.task.pc.toNat % 65536)) = .ok (k2, mk2))
    (hlock : (s.lockOf k).map (·.id) = (s.lockOf k2).map (·.id))
    (hbytes : s.codeBytes e.who e.task.pc.toNat mk k (65536 - e.task.pc.toNat % 65536) ++
      s.codeBytes e.who (e.task.pc + w64 (65536 - e.task.pc.toNat % 65536)).toNat mk2 k2
        ((encode i).length - (65536 - e.task.pc.toNat % 65536)) = encode i) : s.fetch e = .instr i := by
  have hlen := codeLength_of_bytes hi hfour hbytes
  simp only [State.fetch, startCheck_passes hstart, Bool.false_eq_true, if_false, hbad, hk, hlen,
    Nat.not_le.mpr hroom, hk2, hlock, ne_eq, not_true_eq_false, hbytes, decode_encode_alone hi]

end Fetch

/-! ## The step -/

theorem step_of_runner {s : State} {e : Env} (ha : s.agenda = []) (hr : s.runner = some e) :
    step s = Machine.ticked s (runTask s e) := by
  simp only [step, ha, hr]

/-- A fetch that waits for a walker holds its task (R355; log 14). -/
theorem walkersBusy_of_fetchWaits {s : State} {e : Env} (h : s.fetchWaits e = true) : s.walkersBusy e.die = true :=
  (Bool.and_eq_true_iff.mp h).1

theorem runTask_of_fetchWaits {s : State} {e : Env} (h : s.fetchWaits e = true) :
    runTask s e = .next (s.holdTask e) := by
  rw [runTask, if_pos h]

/-- Settles O33: the first parcel gives the length, the bytes on one page or two decode to the instruction by the round
trip of `decode_encode`, and what the fetch brings in changes TLBs and the instruction cache alone. -/
theorem stepRunsDecoded : Obligations.stepRunsDecoded := by
  unfold Obligations.stepRunsDecoded
  intro s e i k mk ha hr hi hstart hbad hk n room bytes b
  have hstep := step_of_runner ha hr
  refine ⟨fun hwait => ⟨walkersBusy_of_fetchWaits hwait, by rw [hstep, runTask_of_fetchWaits hwait]⟩,
    fetchOnly_fetchFill s e, fun hcache => codeBytes_of_empty hcache _ mk k, ?_, ?_⟩
  · intro hroom hwait hlast hbytes
    rw [hstep, runTask_of_fetch hwait (fetch_onePage hstart hbad hk hi hroom hlast hbytes)]
  · intro k2 mk2 hroom hfour hwait hk2 hlock hbytes
    rw [hstep, runTask_of_fetch hwait (fetch_twoPages hstart hbad hk hi hroom hfour hk2 hlock hbytes)]

end Sys2Proof.Proofs

/-! A scan request whose status lies under a register (R342, R360). -/

namespace Sys2Proof.Proofs

open Sys2Proof.Machine Sys2Proof.Laws

/-! ## The key of a job

The scanner's own jobs bear the key of a slot of the scan ring, whose bytes are memory. The statement takes a job of
any key (only its last clause names the ring). In the state below the job's key is that of a die's fairness entries:
bytes there read as the entries stand, whatever has been written, so that no STATUS can be read back. -/

/-- A job at the key of die 0's first fairness entry, with a frame of package 1, which no agent of package 0 sees. -/
def misplacedJob : ScanJob := ⟨16, physKey 0 fairLocal, 0, 0, 0, 0, 0, [2 ^ 48]⟩

/-- The section that it is to become. -/
def misplacedSection : Section := ⟨16, 0, 0, 0, 0, 1, [0], 0, 0, false, 0⟩

/-- The job under way, its request at the head of the doorbells. -/
def misplacedScan : State := { State.reset with
  dies := [(0, { dieReset with bells := [(0, 0)], scan := some misplacedJob })], sections := [misplacedSection] }

/-- The epoch of its lock is over. -/
theorem quiesced_misplacedScan : misplacedScan.quiesced misplacedSection.epoch = true := by decide

theorem agentSees_misplacedScan : misplacedScan.agentSees 0 (2 ^ 48) 65536 false misplacedJob.mkey true = false := by
  decide

/-- The place of its STATUS shows the low byte of fairness entry 1, which is 0 after reset (R342). -/
theorem deviceByte_misplacedScan : misplacedScan.deviceByte (misplacedJob.key + 32) = some 0 := by decide

/-- It reads so in every state that differs in memory and sections alone. -/
theorem status_misplacedScan {m : State} {cs : List Section}
    (hm : m = { misplacedScan with sections := cs, mem := m.mem, tags := m.tags }) :
    m.readNat 0 (misplacedJob.key + 32) 1 = 0 := by
  have hdevice : m.deviceByte (misplacedJob.key + 32) = some 0 := by
    rw [hm]
    exact deviceByte_misplacedScan
  have hbyte : m.readByte 0 (misplacedJob.key + 32) = 0 := by
    rw [readByte_of_not_hbm (by decide), hdevice]
    rfl
  rw [State.readNat, State.readBytes, hbyte]
  rfl

/-- Refutes O54: the answer 5 to a job whose key lies in the fairness entries cannot be read back as its STATUS. -/
theorem not_scanner : ¬ Obligations.scanner := by
  unfold Obligations.scanner
  intro h
  obtain ⟨-, hjob⟩ := h misplacedScan 0 0 (by decide) (by decide) rfl
  obtain ⟨-, hover⟩ := hjob misplacedJob misplacedSection rfl rfl
  obtain ⟨hrefused, -⟩ := hover quiesced_misplacedScan
  obtain ⟨t, -, m, u, hm, hstatus, -⟩ :=
    hrefused ⟨2 ^ 48, List.mem_singleton_self _, agentSees_misplacedScan⟩
  rw [status_misplacedScan hm] at hstatus
  exact absurd hstatus (by decide)

end Sys2Proof.Proofs

/-! Integer register instructions: what each writes (R158 to R160). -/

namespace Sys2Proof.Proofs

open Sys2Proof.Machine Sys2Proof.Laws

/-! ## Instructions with one scalar result -/

theorem computes_scalar {i : Instr} {s : State} {e : Env} {st n : Nat} {d : BitVec 6} {srcs : List SrcOp}
    {v : W64} (val : Task → W64) (h : CanIssue s e st srcs [.x d]) (hi : exec i s = scalar st n d srcs val s)
    (hv : val e.task = v) : Computes i s e d v n := by
  rw [Computes, hi, ← hv]
  exact scalar_computes h

theorem computes_scalarS {i : Instr} {s : State} {e : Env} {f : FS} {v : W64}
    (op : W64 → W64 → W64) (h : CanIssue s e 0 [.x f.xa f.fea, .x f.xb f.feb] [.x f.xd])
    (hi : exec i s = scalarS f op s) (hv : op (e.task.getX f.xa) (e.task.getX f.xb) = v) : Computes i s e f.xd v 4 :=
  computes_scalar _ h hi hv

theorem computes_scalarSW {i : Instr} {s : State} {e : Env} {f : FSW} {v : W64}
    (op : W64 → W64 → BitVec 22 → W64) (h : CanIssue s e f.st.toNat [.x f.xa f.fea, .x f.xb f.feb] [.x f.xd])
    (hi : exec i s = scalarSW f op s) (hv : op (e.task.getX f.xa) (e.task.getX f.xb) f.imm = v) :
    Computes i s e f.xd v 8 :=
  computes_scalar _ h hi hv

/-! ## Values -/

section Values
variable (a b : W64)

theorem mulHigh_unsigned : mulHigh true a b = w64 (a.toNat * b.toNat / 2 ^ 64) := by
  have ha := a.isLt
  have hb := b.isLt
  apply BitVec.eq_of_toNat_eq
  simp only [mulHigh, if_true, BitVec.truncate, BitVec.zeroExtend, w64, BitVec.toNat_setWidth,
    BitVec.toNat_ushiftRight, BitVec.toNat_mul, BitVec.toNat_ofNat, Nat.shiftRight_eq_div_pow]
  rw [Nat.mod_eq_of_lt (by omega : a.toNat < 2 ^ 128), Nat.mod_eq_of_lt (by omega : b.toNat < 2 ^ 128)]
  omega

/-- The product of the values taken in 128 bits, as `BitVec.signExtend` reads them. -/
theorem mulHigh_signed : mulHigh false a b = BitVec.ofInt 64 (a.toInt * b.toInt / 2 ^ 64) := by
  have hprod : a.signExtend 128 * b.signExtend 128 = BitVec.ofInt 128 (a.toInt * b.toInt) :=
    (BitVec.ofInt_mul ..).symm
  apply BitVec.eq_of_toNat_eq
  simp only [mulHigh, Bool.false_eq_true, if_false, hprod, BitVec.truncate, BitVec.toNat_setWidth,
    BitVec.toNat_ushiftRight, BitVec.toNat_ofInt, Nat.shiftRight_eq_div_pow]
  omega

theorem mulHigh_eq (u : Bool) : mulHigh u a b = if u then w64 (a.toNat * b.toNat / 2 ^ 64)
    else BitVec.ofInt 64 (a.toInt * b.toInt / 2 ^ 64) := by
  cases u
  · exact mulHigh_signed a b
  · exact mulHigh_unsigned a b

theorem sdiv_eq_ofInt : a.sdiv b = BitVec.ofInt 64 (a.toInt.tdiv b.toInt) := by
  apply BitVec.eq_of_toInt_eq
  rw [BitVec.toInt_sdiv, BitVec.toInt_ofInt]

theorem srem_eq_ofInt : a.srem b = BitVec.ofInt 64 (a.toInt.tmod b.toInt) := by
  rw [← BitVec.toInt_srem, BitVec.ofInt_toInt]

theorem udiv_eq_w64 : a / b = w64 (a.toNat / b.toNat) := by
  rw [← BitVec.toNat_udiv, w64, BitVec.ofNat_toNat, BitVec.setWidth_eq]

theorem umod_eq_w64 : a % b = w64 (a.toNat % b.toNat) := by
  rw [← BitVec.toNat_umod, w64, BitVec.ofNat_toNat, BitVec.setWidth_eq]

theorem quotient_eq (u : Bool) : quotient u a b = if b = 0 then 0xFFFFFFFFFFFFFFFF
    else if u then w64 (a.toNat / b.toNat) else BitVec.ofInt 64 (a.toInt.tdiv b.toInt) := by
  rw [quotient, udiv_eq_w64, sdiv_eq_ofInt]
  rfl

theorem remainder_eq (u : Bool) : remainder u a b = if b = 0 then a
    else if u then w64 (a.toNat % b.toNat) else BitVec.ofInt 64 (a.toInt.tmod b.toInt) := by
  rw [remainder, umod_eq_w64, srem_eq_ofInt]

/-- Where the values are equal either is the smaller one. -/
theorem minVal_eq (u : Bool) : minVal u a b =
    if (if u then a.toNat ≤ b.toNat else a.toInt ≤ b.toInt) then a else b := by
  cases u
  · rcases lt_trichotomy a.toInt b.toInt with h | h | h
    · simp [minVal, BitVec.slt_eq_decide, h, h.le]
    · simp [minVal, BitVec.toInt_inj.mp h]
    · simp [minVal, BitVec.slt_eq_decide, h.not_gt, h.not_ge]
  · rcases lt_trichotomy a.toNat b.toNat with h | h | h
    · simp [minVal, BitVec.ult_eq_decide, h, h.le]
    · simp [minVal, BitVec.eq_of_toNat_eq h]
    · simp [minVal, BitVec.ult_eq_decide, h.not_gt, h.not_ge]

theorem shiftAmount_zero : shiftAmount b 0 = b.toNat % 64 := by simp [shiftAmount]

theorem maxVal_eq (u : Bool) : maxVal u a b =
    if (if u then a.toNat ≤ b.toNat else a.toInt ≤ b.toInt) then b else a := by
  cases u
  · simp only [maxVal, BitVec.slt_eq_decide, Bool.false_eq_true, if_false, decide_eq_true_eq, ← not_le, ite_not]
  · simp only [maxVal, BitVec.ult_eq_decide, if_true, decide_eq_true_eq, ← not_le, ite_not]

end Values

/-- Settles O1: each instruction is a scalar operation of its format, and its value is the rule's. -/
theorem scalarInteger : Obligations.scalarInteger := by
  unfold Obligations.scalarInteger
  refine ⟨fun s e f h => ?_, fun s e f h => ?_⟩
  · have hshift (op : W64 → Nat → W64) (a b : W64) : op a (shiftAmount b 0) = op a (b.toNat % 64) := by
      rw [shiftAmount_zero]
    have computes {i v} (op) := computes_scalarS (i := i) (v := v) op h
    exact ⟨computes (fun a b => a + b) rfl rfl, computes (fun a b => a - b) rfl rfl,
      computes (fun a b => a * b) rfl rfl, computes (mulHigh false) rfl (mulHigh_signed ..),
      computes (quotient false) rfl (quotient_eq ..), computes (remainder false) rfl (remainder_eq ..),
      computes (fun a b => a &&& b) rfl rfl, computes (fun a b => a ||| b) rfl rfl,
      computes (fun a b => a ^^^ b) rfl rfl, computes (fun a b => a &&& ~~~b) rfl rfl,
      computes (fun a b => a <<< shiftAmount b 0) rfl (hshift (· <<< ·) ..),
      computes (fun a b => a >>> shiftAmount b 0) rfl (hshift (· >>> ·) ..),
      computes (fun a b => a.sshiftRight (shiftAmount b 0)) rfl (hshift BitVec.sshiftRight ..),
      computes (fun a b => a.rotateRight (shiftAmount b 0)) rfl (hshift BitVec.rotateRight ..),
      computes (minVal false) rfl (minVal_eq ..), computes (maxVal false) rfl (maxVal_eq ..)⟩
  · have computes {i v} (op) := computes_scalarSW (i := i) (v := v) op h
    exact ⟨computes (fun a b _ => a + b) rfl rfl, computes (fun a b _ => a - b) rfl rfl,
      computes (fun a b _ => a * b) rfl rfl, computes (fun a b i => mulHigh (uBit i) a b) rfl (mulHigh_eq ..),
      computes (fun a b i => quotient (uBit i) a b) rfl (quotient_eq ..),
      computes (fun a b i => remainder (uBit i) a b) rfl (remainder_eq ..),
      computes (fun a b _ => a &&& b) rfl rfl, computes (fun a b _ => a ||| b) rfl rfl,
      computes (fun a b _ => a ^^^ b) rfl rfl, computes (fun a b _ => a &&& ~~~b) rfl rfl,
      computes (fun a b i => a <<< shiftAmount b i) rfl rfl, computes (fun a b i => a >>> shiftAmount b i) rfl rfl,
      computes (fun a b i => a.sshiftRight (shiftAmount b i)) rfl rfl,
      computes (fun a b i => a.rotateRight (shiftAmount b i)) rfl rfl,
      computes (fun a b i => minVal (uBit i) a b) rfl (minVal_eq ..),
      computes (fun a b i => maxVal (uBit i) a b) rfl (maxVal_eq ..)⟩

end Sys2Proof.Proofs

/-! Immediate forms, counts, extensions and bit fields: what each writes (R137, R161, R162). -/

namespace Sys2Proof.Proofs

open Sys2Proof.Machine Sys2Proof.Laws

/-! ## Counts -/

section Counts
variable (a : W64)

/-- The zero bits that stand above bit `n` - 1 - `clzN a n`. -/
theorem clzN_spec (n : Nat) : clzN a n ≤ n ∧ (∀ i, n - clzN a n ≤ i → i < n → a.getLsbD i = false) ∧
    (clzN a n < n → a.getLsbD (n - 1 - clzN a n) = true) := by
  induction n with
  | zero => exact ⟨le_rfl, fun i _ hi => absurd hi (Nat.not_lt_zero i), fun h => absurd h (Nat.lt_irrefl 0)⟩
  | succ n ih =>
    obtain ⟨hle, hzero, hone⟩ := ih
    by_cases hn : a.getLsbD n = true
    · rw [clzN, if_pos hn]
      exact ⟨Nat.zero_le _, fun i hi hlt => absurd hi (by omega), fun _ => hn⟩
    · rw [clzN, if_neg hn]
      refine ⟨by omega, fun i hi hlt => ?_, fun hlt => ?_⟩
      · obtain rfl | hin := Nat.lt_succ_iff_lt_or_eq.mp hlt |>.symm
        · exact Bool.eq_false_iff.mpr hn
        · exact hzero i (by omega) hin
      · rw [show n + 1 - 1 - (1 + clzN a n) = n - 1 - clzN a n by omega]
        exact hone (by omega)

theorem clzN_word : clzN a 64 ≤ 64 ∧ (∀ i, 64 - clzN a 64 ≤ i → a.getLsbD i = false) ∧
    (clzN a 64 < 64 → a.getLsbD (63 - clzN a 64) = true) := by
  obtain ⟨hle, hzero, hone⟩ := clzN_spec a 64
  refine ⟨hle, fun i hi => ?_, hone⟩
  obtain hlt | hge := Nat.lt_or_ge i 64
  · exact hzero i hi hlt
  · exact BitVec.getLsbD_of_ge a i hge

/-- The zero bits from bit `i` on, below bit `i` + `ctzN a i n`. -/
theorem ctzN_spec (i n : Nat) : ctzN a i n ≤ n ∧ (∀ j, i ≤ j → j < i + ctzN a i n → a.getLsbD j = false) ∧
    (ctzN a i n < n → a.getLsbD (i + ctzN a i n) = true) := by
  induction n generalizing i with
  | zero => exact ⟨le_rfl, fun j hj hlt => absurd hlt (Nat.not_lt.mpr hj), fun h => absurd h (Nat.lt_irrefl 0)⟩
  | succ n ih =>
    obtain ⟨hle, hzero, hone⟩ := ih (i + 1)
    by_cases hi : a.getLsbD i = true
    · rw [ctzN, if_pos hi]
      exact ⟨Nat.zero_le _, fun j hj hlt => absurd hlt (Nat.not_lt.mpr hj), fun _ => hi⟩
    · rw [ctzN, if_neg hi, ← Nat.add_assoc]
      refine ⟨by omega, fun j hj hlt => ?_, fun hlt => hone (by omega)⟩
      obtain rfl | hij := Nat.eq_or_lt_of_le hj
      · exact Bool.eq_false_iff.mpr hi
      · exact hzero j hij hlt

theorem ctzN_word : ctzN a 0 64 ≤ 64 ∧ (∀ i, i < ctzN a 0 64 → a.getLsbD i = false) ∧
    (ctzN a 0 64 < 64 → a.getLsbD (ctzN a 0 64) = true) := by
  obtain ⟨hle, hzero, hone⟩ := ctzN_spec a 0 64
  rw [Nat.zero_add] at hzero hone
  exact ⟨hle, fun i => hzero i (Nat.zero_le i), hone⟩

theorem popN_eq (n : Nat) : popN a n = (List.range n).countP fun i => a.getLsbD i := by
  induction n with
  | zero => rfl
  | succ n ih => rw [popN, ih, List.range_succ, List.countP_append, List.countP_singleton, Nat.add_comm]

end Counts

/-! ## Bits -/

section Bits
variable (a b : W64)

/-- The low `w` bits set. -/
theorem getLsbD_mask {i : Nat} (hi : i < 64) (w : Nat) : (w64 (2 ^ w - 1)).getLsbD i = decide (i < w) := by
  rw [w64, BitVec.getLsbD_ofNat, Nat.testBit_two_pow_sub_one]
  simp [hi]

theorem getLsbD_lowBits {i : Nat} (hi : i < 64) (w : Nat) :
    (lowBits a w).getLsbD i = (decide (i < w) && a.getLsbD i) := by
  rw [lowBits, BitVec.getLsbD_and, getLsbD_mask hi, Bool.and_comm]

theorem lowBits_eq (w : Nat) : lowBits a w = w64 (a.toNat % 2 ^ w) := by
  refine BitVec.eq_of_getLsbD_eq fun i hi => ?_
  rw [getLsbD_lowBits a hi, w64, BitVec.getLsbD_ofNat, Nat.testBit_mod_two_pow]
  simp [hi, BitVec.getLsbD]

/-- Below bit `w` the value's bits, from there on the bit below `w`. -/
theorem getLsbD_signLow {i w : Nat} (hi : i < 64) :
    (signLow a w).getLsbD i = if i < w then a.getLsbD i else a.getLsbD (w - 1) := by
  have hbit := getLsbD_lowBits a hi w
  unfold signLow
  split
  case isTrue hsign =>
    rw [BitVec.getLsbD_or, BitVec.getLsbD_not, hbit, getLsbD_mask hi, hsign]
    by_cases h : i < w <;> simp [h, hi]
  case isFalse hsign =>
    rw [hbit, Bool.eq_false_iff.mpr hsign]
    by_cases h : i < w <;> simp [h]

variable (imm : BitVec 22)

theorem getLsbD_bitExtract {i : Nat} (hi : i < 64) (hf : bitField imm = true) :
    let pos := imm.toNat % 64
    let w := imm.toNat / 64 % 128
    (bitExtract a imm).getLsbD i =
      if i < w then a.getLsbD (pos + i) else imm.getLsbD 13 && a.getLsbD (pos + w - 1) := by
  intro pos w
  obtain ⟨hw, hfit⟩ : 1 ≤ w ∧ pos + w ≤ 64 := of_decide_eq_true hf
  unfold bitExtract
  split
  case isTrue hsx =>
    rw [getLsbD_signLow _ hi, BitVec.getLsbD_ushiftRight, BitVec.getLsbD_ushiftRight, hsx, Bool.true_and,
      Nat.add_sub_assoc hw]
  case isFalse hsx =>
    rw [getLsbD_lowBits _ hi, BitVec.getLsbD_ushiftRight, Bool.eq_false_iff.mpr hsx, Bool.false_and]
    by_cases h : i < w <;> simp [h, w, pos]

theorem getLsbD_bitInsert {i : Nat} (hi : i < 64) :
    let pos := imm.toNat % 64
    let w := imm.toNat / 64 % 128
    (bitInsert a b imm).getLsbD i = if pos ≤ i ∧ i < pos + w then b.getLsbD (i - pos) else a.getLsbD i := by
  intro pos w
  have hsub : i - pos < 64 := by omega
  have hbit : (bitInsert a b imm).getLsbD i =
      (a.getLsbD i && !(!decide (i < pos) && decide (i - pos < w)) ||
        !decide (i < pos) && (decide (i - pos < w) && b.getLsbD (i - pos))) := by
    simp only [bitInsert, BitVec.getLsbD_or, BitVec.getLsbD_and, BitVec.getLsbD_not, BitVec.getLsbD_shiftLeft, hi,
      decide_true, Bool.true_and, getLsbD_lowBits b hsub, getLsbD_mask hsub, pos, w]
  rw [hbit]
  by_cases hpos : i < pos
  · simp [hpos]
  · by_cases hw : i - pos < w
    · rw [if_pos (by omega)]
      simp [hpos, hw]
    · rw [if_neg (by omega)]
      simp [hpos, hw]

end Bits

/-! ## Conditions and addresses -/

section Values
variable (a b : W64)

/-- COND of SETC: 0 to 5 (R161). -/
theorem setcHolds_iff {n : Nat} (hn : n < 6) : setcHolds n a b = true ↔
    (n = 0 ∧ a = b) ∨ (n = 1 ∧ a ≠ b) ∨ (n = 2 ∧ a.toInt < b.toInt) ∨ (n = 3 ∧ b.toInt ≤ a.toInt) ∨
      (n = 4 ∧ a.toNat < b.toNat) ∨ (n = 5 ∧ b.toNat ≤ a.toNat) := by
  interval_cases n <;> simp [setcHolds, BitVec.slt_eq_decide, BitVec.ult_eq_decide]

theorem boolW_eq_ite {p : Prop} [Decidable p] {c : Bool} (h : c = true ↔ p) : boolW c = if p then 1 else 0 := by
  simp only [boolW, h]

theorem shiftLeft_eq_mul (n : Nat) : b <<< n = b * w64 (2 ^ n) := by
  apply BitVec.eq_of_toNat_eq
  simp [Nat.shiftLeft_eq]

theorem leaVal_eq (imm : BitVec 22) : leaVal a b imm =
    a + b * w64 (2 ^ (imm.toNat % 4)) + (imm.extractLsb' 2 20).signExtend 64 := by
  rw [leaVal, shiftLeft_eq_mul]
  rfl

end Values

section WellFormed
variable {f : FSW}

theorem width_of_wf_sext (h : (Instr.sext f).wf = true) : 1 ≤ f.imm.toNat :=
  (of_decide_eq_true (Bool.and_eq_true_iff.mp h).2).1

theorem cond_of_wf_setc (h : (Instr.setc f).wf = true) : f.imm.toNat < 6 :=
  of_decide_eq_true (Bool.and_eq_true_iff.mp h).2

theorem bitField_of_wf_bfx (h : (Instr.bfx f).wf = true) : bitField f.imm = true :=
  (Bool.and_eq_true_iff.mp (Bool.and_eq_true_iff.mp h).1).2

end WellFormed

/-! ## The instructions -/

section Instructions
variable {s : State} {e : Env}

/-- R161: CLZ, CTZ and POPC, whose value asks for XA alone, in either format. -/
theorem counts_compute {clz ctz popc : Instr} {d : BitVec 6} {a : W64} {n : Nat}
    (hclz : Computes clz s e d (w64 (clzN a 64)) n) (hctz : Computes ctz s e d (w64 (ctzN a 0 64)) n)
    (hpopc : Computes popc s e d (w64 (popN a 64)) n) :
    (∃ k, k ≤ 64 ∧ (∀ i, 64 - k ≤ i → a.getLsbD i = false) ∧ (k < 64 → a.getLsbD (63 - k) = true) ∧
      Computes clz s e d (w64 k) n) ∧
    (∃ k, k ≤ 64 ∧ (∀ i, i < k → a.getLsbD i = false) ∧ (k < 64 → a.getLsbD k = true) ∧
      Computes ctz s e d (w64 k) n) ∧
    Computes popc s e d (w64 ((List.range 64).countP fun i => a.getLsbD i)) n := by
  obtain ⟨hle, hzero, hone⟩ := clzN_word a
  obtain ⟨hle', hzero', hone'⟩ := ctzN_word a
  rw [popN_eq] at hpopc
  exact ⟨⟨_, hle, hzero, hone, hclz⟩, ⟨_, hle', hzero', hone', hctz⟩, hpopc⟩

theorem sext_computes {f : FSW} (h : CanIssue s e f.st.toNat [.x f.xa f.fea, .x f.xb f.feb] [.x f.xd])
    (hwf : (Instr.sext f).wf = true) : ∃ v : W64,
      (∀ i, i < 64 → v.getLsbD i = (e.task.getX f.xa).getLsbD (min i (f.imm.toNat - 1))) ∧
      Computes (.sext f) s e f.xd v 8 := by
  refine ⟨_, fun i hi => ?_, computes_scalarSW (fun a _ m => signLow a m.toNat) h rfl rfl⟩
  have hw := width_of_wf_sext hwf
  rw [getLsbD_signLow _ hi]
  split
  · rw [Nat.min_eq_left (by omega)]
  · rw [Nat.min_eq_right (by omega)]

end Instructions

/-- Settles O2: each instruction is a scalar operation of its format; counts are found by induction over the bits, and
fields bit by bit. -/
theorem scalarOthers : Obligations.scalarOthers := by
  unfold Obligations.scalarOthers
  refine ⟨⟨fun s e f => ⟨fun h => ?_, fun h => computes_scalar (fun _ => sx f.imm) h rfl rfl⟩,
    fun s e f => ⟨fun h => ?_, fun h => computes_scalar (fun _ => sx f.imm) h rfl rfl, fun h =>
      computes_scalar (fun t => if t.getX f.xc ≠ 0 then t.getX f.xa else t.getX f.xb) h rfl rfl⟩,
    fun s e f h => computes_scalar (fun _ => f.imm) h rfl rfl⟩, fun s e f h => ?_, fun s e f h => ?_⟩
  · exact ⟨computes_scalar (fun t => t.getX f.xa + sx f.imm) h rfl rfl,
      computes_scalar (fun t => t.getX f.xa &&& sx f.imm) h rfl rfl,
      computes_scalar (fun t => t.getX f.xa ||| sx f.imm) h rfl rfl,
      computes_scalar (fun t => t.getX f.xa ^^^ sx f.imm) h rfl rfl⟩
  · exact ⟨computes_scalar (fun t => t.getX f.xa + sx f.imm) h rfl rfl,
      computes_scalar (fun t => t.getX f.xa &&& sx f.imm) h rfl rfl,
      computes_scalar (fun t => t.getX f.xa ||| sx f.imm) h rfl rfl,
      computes_scalar (fun t => t.getX f.xa ^^^ sx f.imm) h rfl rfl⟩
  · exact counts_compute (computes_scalarS (fun a _ => w64 (clzN a 64)) h rfl rfl)
      (computes_scalarS (fun a _ => w64 (ctzN a 0 64)) h rfl rfl)
      (computes_scalarS (fun a _ => w64 (popN a 64)) h rfl rfl)
  · obtain ⟨hclz, hctz, hpopc⟩ := counts_compute (clz := .clzSw f) (ctz := .ctzSw f) (popc := .popcSw f)
      (computes_scalarSW (fun a _ _ => w64 (clzN a 64)) h rfl rfl)
      (computes_scalarSW (fun a _ _ => w64 (ctzN a 0 64)) h rfl rfl)
      (computes_scalarSW (fun a _ _ => w64 (popN a 64)) h rfl rfl)
    refine ⟨hclz, hctz, hpopc, sext_computes h, fun _ => ?_, fun hwf => ?_, ?_, fun hwf => ?_, fun _ => ?_⟩
    · exact computes_scalarSW (fun a _ m => lowBits a m.toNat) h rfl (lowBits_eq ..)
    · exact computes_scalarSW (fun a b m => boolW (setcHolds m.toNat a b)) h rfl
        (boolW_eq_ite (setcHolds_iff _ _ (cond_of_wf_setc hwf)))
    · exact computes_scalarSW leaVal h rfl (leaVal_eq ..)
    · exact ⟨_, fun i hi => getLsbD_bitExtract _ _ hi (bitField_of_wf_bfx hwf),
        computes_scalarSW (fun a _ m => bitExtract a m) h rfl rfl⟩
    · exact ⟨_, fun i hi => getLsbD_bitInsert _ _ _ hi, computes_scalarSW bitInsert h rfl rfl⟩

end Sys2Proof.Proofs

/-! Scalar floating point: results and flags (R60, R169 to R171). -/

namespace Sys2Proof.Proofs

open Sys2Proof.Machine Sys2Proof.Laws

/-! ## Instructions with a scalar result and flags -/

section Issue
variable {i : Instr} {s : State} {e : Env} {r : W64 × Fl}

theorem flags_scalarFl {st n : Nat} {d : BitVec 6} {srcs : List SrcOp} (val : Team → Task → W64 × Fl)
    (h : CanIssue s e st srcs [.x d]) (hi : exec i s = scalarFl st n d srcs val s) (hv : val e.team e.task = r) :
    Flags i s e d r n := by
  refine ⟨_, _, ?_, onlyTeam_commit_modTeam h.1 (fun m => { m with fpflags := m.fpflags ||| r.2 }) _,
    wrote_setX _ _ _ _ _ _⟩
  rw [hi, scalarFl, issue_ready h, hv]
  rfl

theorem flags_fpS {ty : FTy} {f : FS} (op : Rnd → FVal → FVal → FVal × Fl)
    (h : CanIssue s e 0 [.x f.xa f.fea, .x f.xb f.feb] [.x f.xd]) (hi : exec i s = fpS ty f op s)
    (hv : fpRound ty e.team (op e.team.rnd (fpRead ty e.team (e.task.getX f.xa))
      (fpRead ty e.team (e.task.getX f.xb))) = r) : Flags i s e f.xd r 4 :=
  flags_scalarFl _ h hi hv

theorem flags_fpSW {ty : FTy} {f : FSW} (op : Rnd → FVal → FVal → FVal × Fl)
    (h : CanIssue s e f.st.toNat [.x f.xa f.fea, .x f.xb f.feb] [.x f.xd]) (hi : exec i s = fpSW ty f op s)
    (hv : fpRound ty e.team (op e.team.rnd (fpRead ty e.team (e.task.getX f.xa))
      (fpRead ty e.team (e.task.getX f.xb))) = r) : Flags i s e f.xd r 8 :=
  flags_scalarFl _ h hi hv

end Issue

/-! ## FSETC -/

section Fsetc
variable {a b : FVal} (c : BitVec 22)

/-- A NaN (R170): eq is false, ne and unordered true, and lt and le are invalid. -/
theorem fsetcHolds_unordered (h : FVal.cmp a b = none) : fsetcHolds c.toNat a b =
    (decide (c = 1 ∨ c = 4), if c = 2 ∨ c = 3 then flIV else 0) := by
  simp only [fsetcHolds, h, BitVec.toNat_eq, Bool.decide_or]
  rfl

theorem fsetcHolds_ordered {o : Ordering} (h : FVal.cmp a b = some o) : fsetcHolds c.toNat a b =
    (decide ((c = 0 ∧ o = .eq) ∨ (c = 1 ∧ o ≠ .eq) ∨ (c = 2 ∧ o = .lt) ∨ (c = 3 ∧ o ≠ .gt)), 0) := by
  simp only [fsetcHolds, h, BitVec.toNat_eq]
  split <;> simp_all [bne, beq_eq_decide]

end Fsetc

/-! ## FCVT -/

/-- The integers that OTHER reads from a register (R171). -/
theorem otherInt_eq (v : W64) : otherInt 3 v = (v.extractLsb' 0 32).toInt ∧ otherInt 4 v = v.toInt ∧
    otherInt 5 v = (v.extractLsb' 0 32).toNat ∧ otherInt 6 v = v.toNat := by
  have hlow : v.extractLsb' 0 32 = BitVec.ofNat 32 v.toNat := by
    rw [← BitVec.setWidth_eq_extractLsb' (by decide), BitVec.ofNat_toNat]
  rw [hlow]
  refine ⟨intOf_signed .., (intOf_signed ..).trans ?_, ?_, ?_⟩
  · rw [BitVec.ofNat_toNat, BitVec.setWidth_eq]
  · simp [otherInt, intOf]
  · have hv := v.isLt
    simp [otherInt, intOf, Nat.mod_eq_of_lt hv]

theorem w64_lowInt (i : Int) : w64 (lowInt 64 i) = BitVec.ofInt 64 i := by
  apply BitVec.eq_of_toNat_eq
  rw [w64, BitVec.toNat_ofNat, BitVec.toNat_ofInt, lowInt]
  exact Nat.mod_eq_of_lt (by omega)

/-- DIR 0 and OTHER 3 to 6: an integer, saturated to its range. -/
theorem fcvtVal_integer {ty : FTy} {imm : BitVec 22} {m : Team} {v : W64} {lo hi : Int}
    (hdir : imm.getLsbD 3 = false) (ho : ¬ imm.toNat % 8 < 3) (hr : otherRange (imm.toNat % 8) = (lo, hi)) :
    let r := encodeInt lo hi m.rnd (fpRead ty m v)
    fcvtVal ty imm m v = (BitVec.ofInt 64 r.1, r.2) := by
  simp only [fcvtVal, hdir, Bool.false_eq_true, if_false, ho, hr, w64_lowInt]

/-- Settles O4: each instruction rounds the exact result of its operands once; FSETC and FCVT by the code of IMM22. -/
theorem scalarFloating : Obligations.scalarFloating := by
  unfold Obligations.scalarFloating
  refine ⟨fun s e ty => ⟨fun f h => ?_, fun f h => ?_, fun f h => flags_scalarFl (fun m t =>
    fpRound ty m (FVal.fma m.rnd (fpRead ty m (t.getX f.xa)) (fpRead ty m (t.getX f.xb))
      (fpRead ty m (t.getX f.xc)))) h rfl rfl⟩, fun s e ty f h => ?_⟩
  · exact ⟨flags_fpS FVal.add h rfl rfl, flags_fpS (fun r a b => FVal.add r a b.neg) h rfl rfl,
      flags_fpS (fun _ a b => FVal.mul a b) h rfl rfl, flags_fpS (fun _ a b => FVal.div a b) h rfl rfl,
      flags_fpS (fun _ a _ => FVal.sqrt a) h rfl rfl, flags_fpS (fun _ a b => (FVal.min a b, 0)) h rfl rfl,
      flags_fpS (fun _ a b => (FVal.max a b, 0)) h rfl rfl⟩
  · refine ⟨flags_fpSW FVal.add h rfl rfl, flags_fpSW (fun r a b => FVal.add r a b.neg) h rfl rfl,
      flags_fpSW (fun _ a b => FVal.mul a b) h rfl rfl, flags_fpSW (fun _ a b => FVal.div a b) h rfl rfl,
      flags_fpSW (fun _ a _ => FVal.sqrt a) h rfl rfl, flags_fpSW (fun _ a b => (FVal.min a b, 0)) h rfl rfl,
      flags_fpSW (fun _ a b => (FVal.max a b, 0)) h rfl rfl, flags_scalarFl (fun m t =>
        let r := fsetcHolds f.imm.toNat (fpRead ty m (t.getX f.xa)) (fpRead ty m (t.getX f.xb))
        (boolW r.1, r.2)) h rfl ?_⟩
    split
    next hcmp => simp only [fsetcHolds_unordered _ hcmp, boolW, decide_eq_true_eq]
    next o hcmp => simp only [fsetcHolds_ordered _ hcmp, boolW, decide_eq_true_eq]
  · have hcvt {c r} (hv : fcvtVal ty c e.team (e.task.getX f.xa) = r) (hf : f.imm = c) :
        Flags (.fcvt ty f) s e f.xd r 8 :=
      flags_scalarFl (fun m t => fcvtVal ty f.imm m (t.getX f.xa)) h rfl (hf ▸ hv)
    have hint {c : BitVec 22} {lo hi} := fcvtVal_integer (ty := ty) (imm := c) (m := e.team)
      (v := e.task.getX f.xa) (lo := lo) (hi := hi)
    obtain ⟨hint32, hint64, hz32, hz64⟩ := otherInt_eq (e.task.getX f.xa)
    dsimp only
    rw [← hint32, ← hint64, ← hz32, ← hz64]
    exact ⟨hcvt rfl, hcvt rfl, hcvt rfl, hcvt (hint (by decide) (by decide) rfl),
      hcvt (hint (by decide) (by decide) rfl), hcvt (hint (by decide) (by decide) rfl),
      hcvt (hint (by decide) (by decide) rfl), hcvt rfl, hcvt rfl, hcvt rfl, hcvt rfl, hcvt rfl, hcvt rfl, hcvt rfl⟩

end Sys2Proof.Proofs

/-! Control transfers, their targets, and loops (R163 to R167). -/

namespace Sys2Proof.Proofs

open Sys2Proof.Machine Sys2Proof.Laws

/-! ## Instructions that change their task alone -/

section Becomes
variable {i : Instr} {s : State} {e : Env} {t : Task} {k : Task → Prop}

theorem becomes_commit (he : s.issuer = some e) (hi : exec i s = .next (s.commit e t))
    (hk : ∀ held issued, k { t with held := held, issued := issued }) : Machine.Becomes i s e k :=
  ⟨_, _, hi, onlyTask_commit he t, hk _ _⟩

theorem becomes_taskOp {st n : Nat} {srcs : List SrcOp} (f : Task → Task) (h : CanIssue s e st srcs [])
    (hi : exec i s = taskOp st n srcs f s) (hk : ∀ held issued, k { f e.task with held := held, issued := issued }) :
    Machine.Becomes i s e k := by
  obtain ⟨t, ht, honly⟩ := taskOp_becomes (n := n) (f := f) h
  exact ⟨t, _, hi.trans ht, honly, hk _ _⟩

end Becomes

/-! ## Targets (R147, R164) -/

section Targets
variable {s : State} {w : Who} {p : W64}

theorem badTarget_of_unaligned (h : p.toNat % 4 ≠ 0) : s.badTarget w p = true := by
  rw [State.badTarget, if_pos h]

theorem badTarget_iff_of_leaf {l : BitVec 64} {big : Bool} (halign : p.toNat % 4 = 0) (hva : p.toNat < 2 ^ 54)
    (hleaf : s.fetchLeaf w p.toNat = .ok (l, big)) :
    s.badTarget w p = true ↔ leafType l ≠ 3 ∨
      s.isStart (gpaKey (leafFrame l * 65536 + p.toNat % (if big then 2 ^ 29 else 2 ^ 16))) = false := by
  have hplace : (if big then p.toNat % 2 ^ 29 else p.toNat % 2 ^ 16) = p.toNat % (if big then 2 ^ 29 else 2 ^ 16) :=
    (apply_ite (p.toNat % ·) ..).symm
  rw [State.badTarget, if_neg (not_not.mpr halign), if_neg (not_le.mpr hva), hleaf]
  simp only [hplace]
  by_cases hcode : leafType l = 3 <;> simp [hcode]

/-- On an absent or malformed page the transfer is made, and the fault is kept for the fetch. -/
theorem target_of_noLeaf {c : Nat} (halign : p.toNat % 4 = 0) (hva : p.toNat < 2 ^ 54)
    (hleaf : s.fetchLeaf w p.toNat = .error c) : s.badTarget w p = false ∧ s.targetFault w p = some c := by
  have hlow := not_le.mpr hva
  rw [State.badTarget, if_neg (not_not.mpr halign), State.targetFault, if_neg hlow, if_neg hlow, hleaf]
  exact ⟨rfl, rfl⟩

theorem fetch_of_badFetch {e : Env} {c : Nat} (h : e.task.badFetch = some c) (hissued : e.task.issued ≠ 0) :
    s.fetch e = .fault ⟨c, e.task.pc, false, true, false⟩ := by
  have hstart : e.atStart = false := beq_false_of_ne hissued
  simp only [State.fetch, hstart, h, Bool.false_and, Bool.false_eq_true, if_false]
  rfl

end Targets

/-! ## A transfer -/

theorem issuer_of_tlbsOnly {s b : State} (h : TlbsOnly s b) : b.issuer = s.issuer := by
  rw [h.1]
  rfl

theorem target_eq {n : Nat} (t : Task) (off : BitVec n) : t.target off = t.pc + off.signExtend 64 * 4 :=
  congrArg (t.pc + ·) (shiftLeft_eq_mul (sx off) 2)

/-- The state after a transfer of the task `t` to a target that R164 allows. -/
def transferred (s : State) (e : Env) (t : Task) (p : W64) : State :=
  (s.fillMiss e.who .fetch false p.toNat).commit e { t with pc := p, badFetch := s.targetFault e.who p }

section Transfer
variable {i : Instr} {s : State} {e : Env} {t : Task} {p : W64} {k : Task → Prop}

theorem transfer_of_ok (h : s.badTarget e.who p = false) : transfer e t p s = .done (transferred s e t p) := by
  rw [transfer, h]
  rfl

theorem transfer_of_bad (h : s.badTarget e.who p = true) : transfer e t p s = Act.raise cBranchTarget p := by
  rw [transfer, if_pos h]

theorem leads_transferred (he : s.issuer = some e) (hi : exec i s = .next (transferred s e t p))
    (hk : ∀ held issued, k { t with
      pc := p, badFetch := s.targetFault e.who p, held := held, issued := issued }) : Leads i s e k := by
  have hfill := tlbsOnly_fillMiss s e.who .fetch false p.toNat
  exact ⟨_, _, _, hi, hfill, onlyTask_commit ((issuer_of_tlbsOnly hfill).trans he) _, hk _ _⟩

variable {st n : Nat} {srcs : List SrcOp} {dsts : List DstOp} {body : Env → State → Act}
  (h : CanIssue s e st srcs dsts) (hi : exec i s = issue st n srcs dsts body s) (hb : body e s = transfer e t p s)
include h hi hb

theorem leads_transfer (hok : s.badTarget e.who p = false) (hk : ∀ held issued, k { t with
    pc := p, badFetch := s.targetFault e.who p, held := held, issued := issued }) : Leads i s e k := by
  refine leads_transferred (t := t) h.1 ?_ hk
  rw [hi, issue_ready h, hb, transfer_of_ok hok]

theorem faults_transfer (hbad : s.badTarget e.who p = true) : Faults i s e cBranchTarget p :=
  faults_of_body hi h (hb.trans (transfer_of_bad hbad))

end Transfer

/-! ## Conditions of BC -/

/-- The condition CC on a signed value (R135). -/
def ccCond (cc : BitVec 3) (v : Int) : Prop :=
  (cc = 0 ∧ v = 0) ∨ (cc = 1 ∧ v ≠ 0) ∨ (cc = 2 ∧ v < 0) ∨ (cc = 3 ∧ 0 ≤ v) ∨ (cc = 4 ∧ 0 < v) ∨ (cc = 5 ∧ v ≤ 0)

theorem cc_le_of_ccCond {cc : BitVec 3} {v : Int} (h : ccCond cc v) : cc.toNat ≤ 5 := by
  rcases h with ⟨rfl, -⟩ | ⟨rfl, -⟩ | ⟨rfl, -⟩ | ⟨rfl, -⟩ | ⟨rfl, -⟩ | ⟨rfl, -⟩ <;> decide

theorem ccHolds_iff {cc : BitVec 3} (h : cc.toNat ≤ 5) (x : W64) :
    ccHolds cc.toNat x = true ↔ ccCond cc x.toInt := by
  have hzero : x = 0 ↔ x.toInt = 0 := by rw [← BitVec.toInt_inj]; rfl
  generalize hn : cc.toNat = n at h
  interval_cases n <;>
    simp [ccHolds, ccCond, BitVec.toNat_eq, hn, BitVec.slt_eq_decide, ← hzero]

/-! ## Loops -/

/-- Stage 0 becomes active with the iterations that are left, and stage `i` follows stage `i` - 1 (R166). -/
theorem lnext_active {t : Task} (h : t.left ≠ 0) {i : Nat} (hi : i < 8) : t.lnext.active.getLsbD i =
    (decide (i ≤ t.last.toNat) &&
      if i = 0 then decide (t.last.toNat < t.left.toNat) else t.active.getLsbD (i - 1)) := by
  have hleft : t.last.toNat ≤ (t.left - 1).toNat ↔ t.last.toNat < t.left.toNat := by bv_omega
  have hmask : (BitVec.ofNat 8 (2 * 2 ^ t.last.toNat - 1)).getLsbD i = decide (i ≤ t.last.toNat) := by
    rw [BitVec.getLsbD_ofNat, ← Nat.pow_succ', Nat.testBit_two_pow_sub_one]
    simp [hi]
  rw [Task.lnext, BitVec.getLsbD_and, hmask, Bool.and_comm, BitVec.getLsbD_or, BitVec.getLsbD_shiftLeft]
  simp only [hleft]
  cases i with
  | zero => by_cases hl : t.last.toNat < t.left.toNat <;> simp [hl]
  | succ i => by_cases hl : t.last.toNat < t.left.toNat <;> simp [hl, hi]

theorem lstart_zero (t : Task) (imm : BitVec 22) :
    t.lstart 0 imm = { t.noLoop with pc := t.pc + 4 * w64 (imm.toNat / 128) } := by
  rw [Task.lstart, if_pos rfl, w64, BitVec.ofNat_mul]
  rfl

theorem lstart_pos (t : Task) {n : Nat} (hn : n ≠ 0) (imm : BitVec 22) : t.lstart n imm = { t with
    left := BitVec.ofNat 35 (n + imm.toNat % 8 - 1), last := BitVec.ofNat 3 (imm.toNat % 8)
    rs := BitVec.ofNat 4 (imm.toNat / 8), rrb := 0, active := 1, pc := t.pc + 8 } := by
  have hlast : imm.extractLsb' 0 3 = BitVec.ofNat 3 (imm.toNat % 8) := by
    apply BitVec.eq_of_toNat_eq
    simp
  have hrs : imm.extractLsb' 3 4 = BitVec.ofNat 4 (imm.toNat / 8) := by
    apply BitVec.eq_of_toNat_eq
    simp [Nat.shiftRight_eq_div_pow]
  simp only [Task.lstart, if_neg hn, hlast, hrs, BitVec.toNat_ofNat, Nat.reducePow, Nat.mod_mod]

section Lnext
variable {s : State} {e : Env} {f : FB} (he : s.issuer = some e) (hfree : e.task.hold = .free)
include he hfree

theorem exec_lnext_inactive (hactive : e.task.active = 0) :
    exec (.lnext f) s = .next (s.commit e (e.task.advance 4)) := by
  change execLnext f s = _
  simp only [execLnext, he, hfree, ne_eq, not_true_eq_false, if_false, hactive, if_true]

theorem exec_lnext_over (hactive : e.task.active ≠ 0) (hleft : e.task.left = 0) :
    exec (.lnext f) s = .next (s.commit e (e.task.noLoop.advance 4)) := by
  change execLnext f s = _
  simp only [execLnext, he, hfree, ne_eq, not_true_eq_false, if_false, hactive, hleft, if_true]

variable (hactive : e.task.active ≠ 0) (hleft : e.task.left ≠ 0)
include hactive hleft

theorem exec_lnext_round (hok : s.badTarget e.who (e.task.target f.off) = false) :
    exec (.lnext f) s = .next (transferred s e e.task.lnext (e.task.target f.off)) := by
  change execLnext f s = _
  simp only [execLnext, he, hfree, ne_eq, not_true_eq_false, if_false, hactive, hleft, transfer_of_ok hok]

theorem lnext_faults (hbad : s.badTarget e.who (e.task.target f.off) = true) :
    Faults (.lnext f) s e cBranchTarget (e.task.target f.off) := by
  refine ⟨false, false, false, ?_⟩
  change execLnext f s = _
  simp only [execLnext, he, hfree, ne_eq, not_true_eq_false, if_false, hactive, hleft, transfer_of_bad hbad,
    Act.raise]

end Lnext

section Lexit
variable {s : State} {e : Env} {f : FB} (h : CanIssue s e 0 [] [])
include h

theorem lexit_leads {p : W64} (hp : e.task.target f.off = p) (hok : s.badTarget e.who p = false) :
    Leads (.lexit f) s e fun k => k = { e.task with
      active := 0, last := 0, rs := 0, rrb := 0, left := 0, pc := p
      badFetch := s.targetFault e.who p, held := k.held, issued := k.issued } :=
  leads_transfer (t := e.task.noLoop) (body := fun e s => transfer e e.task.noLoop (e.task.target f.off) s) h rfl
    (by rw [hp]) hok fun _ _ => rfl

theorem lexit_faults {p : W64} (hp : e.task.target f.off = p) (hbad : s.badTarget e.who p = true) :
    Faults (.lexit f) s e cBranchTarget p :=
  faults_transfer (t := e.task.noLoop) (body := fun e s => transfer e e.task.noLoop (e.task.target f.off) s) h rfl
    (by rw [hp]) hbad

end Lexit

/-- Settles O6: LSTART is a change of its task alone; LNEXT by the stages and the iterations left; LEXIT is a transfer
with the loop cleared. -/
theorem loops : Obligations.loops := by
  unfold Obligations.loops
  refine fun s e => ⟨fun f h => ⟨fun hn => ?_, fun hn => ?_⟩, fun f he hfree => ⟨fun hactive => ?_,
    fun hactive hleft => ?_, fun hactive hleft hok => ?_, fun h hok => lexit_leads h (target_eq ..) hok,
    fun hbad => ⟨fun hactive hleft => ?_, fun h => lexit_faults h (target_eq ..) hbad⟩⟩⟩
  · refine becomes_taskOp (fun t => t.lstart ((t.getX f.xa).toNat % 2 ^ 32) f.imm) h rfl fun _ _ => ?_
    rw [hn, lstart_zero]
    rfl
  · refine becomes_taskOp (fun t => t.lstart ((t.getX f.xa).toNat % 2 ^ 32) f.imm) h rfl fun _ _ => ?_
    rw [lstart_pos _ hn]
  · exact becomes_commit he (exec_lnext_inactive he hfree hactive) fun _ _ => rfl
  · exact becomes_commit he (exec_lnext_over he hfree hactive hleft) fun _ _ => rfl
  · rw [← target_eq] at hok ⊢
    exact leads_transferred he (exec_lnext_round he hfree hactive hleft hok) fun _ _ =>
      ⟨rfl, fun i hi => lnext_active hleft hi⟩
  · rw [← target_eq] at hbad ⊢
    exact lnext_faults he hfree hactive hleft hbad

/-! ## The transfers (R163) -/

/-- The task with the link of a CALL: x63 and the return stack take PC + 4. -/
def linked (t : Task) : Task := { t.setX 63 (t.pc + 4) with ret := ((t.pc + 4) :: t.ret).take 8 }

theorem exec_call (f : FB) (s : State) : exec (.call f) s =
    issue 0 4 [] [.x 63] (fun e s => transfer e (linked e.task) (e.task.target f.off) s) s := rfl

section Transfers
variable {s : State} {e : Env} {p : W64}

theorem call_leads {f : FB} (h : CanIssue s e 0 [] [.x 63]) (hp : e.task.target f.off = p)
    (hok : s.badTarget e.who p = false) : Leads (.call f) s e fun k =>
      k = { e.task with
        pc := p, badFetch := s.targetFault e.who p, x := k.x, ret := ((e.task.pc + 4) :: e.task.ret).take 8
        held := k.held, issued := k.issued } ∧
      ∀ r, k.getX r = if r = 63 then e.task.pc + 4 else e.task.getX r := by
  refine leads_transfer h (exec_call f s) (by rw [hp]) hok fun _ _ => ⟨?_, fun r => ?_⟩
  · rw [linked, setX_eq]
  · refine (getX_setX e.task 63 r _).trans (if_congr (and_iff_left_of_imp ?_) rfl rfl)
    rintro rfl
    decide

variable {f : FBC} (h : CanIssue s e 0 [.x f.xa f.fea] [])
include h

theorem exec_bc_taken (hcond : ccCond f.cc (e.task.getX f.xa).toInt) :
    exec (.bc f) s = issue 0 4 [.x f.xa f.fea] [] (fun e s => transfer e e.task (e.task.target f.off) s) s := by
  change execBc f s = _
  rw [execBc, issue_ready h, issue_ready h, if_pos ((ccHolds_iff (cc_le_of_ccCond hcond) _).mpr hcond)]

theorem bc_passes (hcc : f.cc.toNat ≤ 5) (hcond : ¬ ccCond f.cc (e.task.getX f.xa).toInt) :
    Machine.Becomes (.bc f) s e (Moved e.task · 4) := by
  refine becomes_commit (t := e.task.advance 4) h.1 ?_ fun _ _ => rfl
  change execBc f s = _
  rw [execBc, issue_ready h, if_neg fun hholds => hcond ((ccHolds_iff hcc _).mp hholds)]

end Transfers

/-- Settles O5: what R164 asks of a target by its translation; each transfer then goes there or raises BRANCH_TARGET. -/
theorem transfers : Obligations.transfers := by
  unfold Obligations.transfers
  refine ⟨fun s e => ⟨fun f => ⟨fun h hok => ?_, fun h => call_leads h (target_eq ..)⟩,
      fun f h hcc => ⟨fun hcond hok => ?_, bc_passes h hcc⟩,
      fun f h hok => ⟨?_, ?_⟩⟩,
    fun s w p => badTarget_of_unaligned, fun s w p l big => badTarget_iff_of_leaf, fun s w p c => target_of_noLeaf,
    fun s e c => fetch_of_badFetch, fun s e => ⟨fun f hbad => ⟨fun h => ⟨?_, lexit_faults h (target_eq ..) hbad⟩,
      fun h => ?_, fun he hfree hactive hleft => ?_⟩, fun f h hcond hbad => ?_, fun f h hbad => ⟨?_, ?_⟩⟩⟩
  · rw [← target_eq] at hok ⊢
    exact leads_transfer (t := e.task) h rfl rfl hok fun _ _ => rfl
  · rw [← target_eq] at hok ⊢
    exact leads_transfer h (exec_bc_taken h hcond) rfl hok fun _ _ => rfl
  · exact leads_transfer (t := e.task) h rfl rfl hok fun _ _ => rfl
  · exact leads_transfer (t := { e.task with ret := e.task.ret.drop 1 }) h rfl rfl hok fun _ _ => rfl
  · rw [← target_eq] at hbad ⊢
    exact faults_transfer (t := e.task) h rfl rfl hbad
  · rw [← target_eq] at hbad ⊢
    exact faults_transfer h (exec_call f s) rfl hbad
  · rw [← target_eq] at hbad ⊢
    exact lnext_faults he hfree hactive hleft hbad
  · rw [← target_eq] at hbad ⊢
    exact faults_transfer h (exec_bc_taken h hcond) rfl hbad
  · exact faults_transfer (t := e.task) h rfl rfl hbad
  · exact faults_transfer (t := { e.task with ret := e.task.ret.drop 1 }) h rfl rfl hbad

end Sys2Proof.Proofs

/-! NOP and BREAK (R179, R322). -/

namespace Sys2Proof.Proofs

open Sys2Proof.Machine Sys2Proof.Laws

/-! ## What the record of a fault leaves -/

/-- A record added to a team leaves every team in place. -/
theorem tabFind_addRec_isSome (s : State) {u : Nat} {m : Team} (hm : tabFind s.teams u = some m) (v : Nat) (r : Rec) :
    ∃ m', tabFind (s.addRec v r).teams u = some m' := by
  unfold State.addRec
  split
  · exact ⟨m, hm⟩
  · rw [onlyMemory_showRec, onlyMemory_fillRec]
    obtain rfl | hu := eq_or_ne u v
    · exact ⟨_, (tabFind_tabPut ..).trans (if_pos rfl)⟩
    · exact ⟨m, (tabFind_tabPut ..).trans ((if_neg hu).trans hm)⟩

section System
variable (s : State) (d : Nat) (pc : W64) (regs : Tab W64)

theorem tabFind_startSystem_isSome {u : Nat} {m : Team} (hm : tabFind s.teams u = some m) :
    ∃ m', tabFind (s.startSystem d pc regs).teams u = some m' := tabFind_addRec_isSome s.fresh.2 hm _ _

theorem startSystem_cores : (s.startSystem d pc regs).cores = s.cores := by rw [startSystem_eq]

theorem startSystem_ctxs : (s.startSystem d pc regs).ctxs = s.ctxs := by rw [startSystem_eq]

theorem startSystem_outbox : (s.startSystem d pc regs).outbox = s.outbox := by rw [startSystem_eq]

end System

section Queue
variable (s : State) (i : FaultInfo)

theorem recordPut_frame : (recordPut s i).cores = s.cores ∧ (recordPut s i).ctxs = s.ctxs ∧
    (recordPut s i).outbox = s.outbox := by
  have hput := onlyMemory_recordPut s i
  generalize recordPut s i = b at hput
  rw [hput]
  exact ⟨rfl, rfl, rfl⟩

theorem queueFault_frame : (s.queueFault i).cores = s.cores ∧ (s.queueFault i).ctxs = s.ctxs ∧
    (s.queueFault i).outbox = s.outbox := by
  rw [queueFault_def, startSystem_cores, startSystem_ctxs, startSystem_outbox, modDie_def, setDie_cores, setDie_ctxs,
    setDie_outbox]
  exact recordPut_frame s i

theorem tabFind_queueFault_isSome {u : Nat} {m : Team} (hm : tabFind s.teams u = some m) :
    ∃ m', tabFind (s.queueFault i).teams u = some m' := by
  rw [queueFault_def]
  refine tabFind_startSystem_isSome (m := m) _ _ _ _ ?_
  rw [modDie_def, setDie_teams, (onlyMemory_recordPut s i).teams, hm]

end Queue

/-! ## BREAK -/

/-- The task of `e` stopped before its next instruction, `n` bytes on, with the report to the debug agent. -/
def stopped (b : State) (e : Env) (n : Nat) : State :=
  State.commit { b with outbox := b.outbox ++ [Out.breakReport e.uid] } e { e.task.advance n with hold := .brk }

theorem tabFind_commit {b : State} {e : Env} {m : Team} (hm : tabFind b.teams e.uid = some m) (k : Task) :
    tabFind (b.commit e k).teams e.uid = some { m with task := some { k with held := false, issued := b.ticks } } := by
  rw [State.commit, setTask_eq hm]
  exact (tabFind_tabPut ..).trans (if_pos rfl)

section Stopped
variable (b : State) (e : Env) (n : Nat)

theorem stopped_frame : (stopped b e n).dies = b.dies ∧ (stopped b e n).outbox = b.outbox ++ [.breakReport e.uid] ∧
    (stopped b e n).focus = none ∧ (stopped b e n).cores = b.cores ∧ (stopped b e n).ctxs = b.ctxs :=
  ⟨modTeam_dies .., modTeam_outbox .., rfl, modTeam_cores .., modTeam_ctxs ..⟩

theorem tabFind_stopped {m : Team} (hm : tabFind b.teams e.uid = some m) :
    ∃ m k, tabFind (stopped b e n).teams e.uid = some m ∧ m.task = some k ∧
      k = { e.task with pc := e.task.pc + w64 n, hold := .brk, held := k.held, issued := k.issued } :=
  ⟨_, _, tabFind_commit (b := { b with outbox := b.outbox ++ [Out.breakReport e.uid] }) hm _, rfl, rfl⟩

end Stopped

/-- R179, R322: the task of `e` stands before its next instruction, behind a record with code 0 and a report. -/
def Stops (ins : Instr) (s : State) (e : Env) (n : Nat) : Prop :=
  ∃ t m k r, exec ins s = .next t ∧ tabFind t.teams e.uid = some m ∧ m.task = some k ∧
    k = { e.task with pc := e.task.pc + w64 n, hold := .brk, held := k.held, issued := k.issued } ∧
    (t.die e.die).fq = (s.die e.die).fq ++ [r] ∧ r.code = 0 ∧ r.pc = e.task.pc ∧ r.team = e.uid ∧
    t.outbox = s.outbox ++ [.breakReport e.uid] ∧ t.focus = none ∧ t.cores = s.cores ∧ t.ctxs = s.ctxs

section Break
variable {s : State} {e : Env} {st n : Nat} (h : CanIssue s e st [] [])
include h

theorem breakOp_plain (hdebug : (tabGet 0 (s.core e.core).plane 7).getLsbD 0 = false) :
    breakOp st n s = .next (s.commit e (e.task.advance n)) := by
  rw [breakOp, issue_ready h, if_pos hdebug]

theorem breakOp_debug (hdebug : (tabGet 0 (s.core e.core).plane 7).getLsbD 0 = true)
    (hroom : (s.die e.die).fqFull = false) :
    ∃ i : FaultInfo, breakOp st n s = .next (stopped (s.queueFault i) e n) ∧
      i.die = e.die ∧ i.code = 0 ∧ i.pc = e.task.pc ∧ i.uid = e.uid := by
  rw [breakOp, issue_ready h]
  simp only [hdebug, hroom, Bool.true_eq_false, Bool.false_eq_true, if_false]
  exact ⟨_, rfl, rfl, rfl, rfl, rfl⟩

theorem stops_of_breakOp {ins : Instr} (hi : exec ins s = breakOp st n s)
    (hdebug : (tabGet 0 (s.core e.core).plane 7).getLsbD 0 = true) (hroom : (s.die e.die).fqFull = false) :
    Stops ins s e n := by
  obtain ⟨i, hbreak, hdie, hcode, hpc, huid⟩ := breakOp_debug (n := n) h hdebug hroom
  obtain ⟨m, hm⟩ := tabFind_queueFault_isSome s i (issuer_team h.1).1
  obtain ⟨m', k, hm', hk, hkeq⟩ := tabFind_stopped (s.queueFault i) e n hm
  obtain ⟨hdies, hout, hfocus, hcores, hctxs⟩ := stopped_frame (s.queueFault i) e n
  obtain ⟨hcores', hctxs', hout'⟩ := queueFault_frame s i
  refine ⟨_, m', k, queuedRec (s.die i.die) i, hi.trans hbreak, hm', hk, hkeq, ?_, hcode, hpc, huid,
    hout.trans (by rw [hout']), hfocus, hcores.trans hcores', hctxs.trans hctxs'⟩
  rw [State.die, hdies, ← State.die, die_queueFault, if_pos hdie.symm, hdie]
  rfl

end Break

/-- Settles O8: NOP and a BREAK without DEBUG move their task on; with DEBUG the record goes to the queue of the task's
die as any fault's does, and the task is held. -/
theorem nopBreak : Obligations.nopBreak := by
  unfold Obligations.nopBreak
  refine ⟨fun s e => ⟨fun f h => ⟨?_, fun hdebug => ?_⟩, fun f h => ⟨?_, fun hdebug => ?_⟩⟩,
    fun s e hdebug hroom => ⟨fun f h => stops_of_breakOp h rfl hdebug hroom,
      fun f h => stops_of_breakOp h rfl hdebug hroom⟩⟩
  · exact becomes_taskOp (fun t => t.advance 4) h rfl fun _ _ => rfl
  · exact becomes_commit h.1 (breakOp_plain h hdebug) fun _ _ => rfl
  · exact becomes_taskOp (fun t => t.advance 8) h rfl fun _ _ => rfl
  · exact becomes_commit h.1 (breakOp_plain h hdebug) fun _ _ => rfl

end Sys2Proof.Proofs

/-! The integer vector instructions, compare, select and moves (R189 to R192, R200). -/

namespace Sys2Proof.Proofs

open Sys2Proof.Machine Sys2Proof.Laws

/-! ## Integer codes (R50, R190) -/

/-- A code of the type of T and U as an integer. -/
def codeInt (f : FV) (n : Nat) : Int :=
  if isSigned f.t.toNat f.u ∧ 2 ^ (FV.w f - 1) ≤ n then (n : Int) - 2 ^ FV.w f else n

/-- The code of an exact result, saturated to the type's range or wrapped. -/
def resultCode (f : FV) (v : Int) : Nat :=
  let lo : Int := if isSigned f.t.toNat f.u then -(2 ^ (FV.w f - 1)) else 0
  let hi : Int := if isSigned f.t.toNat f.u then 2 ^ (FV.w f - 1) - 1 else 2 ^ FV.w f - 1
  ((if f.mod.getLsbD 1 then max lo (min hi v) else v) % 2 ^ FV.w f).toNat

theorem intOf_of_lt {w n : Nat} (hw : 0 < w) (h : n < 2 ^ w) (sgn : Bool) :
    intOf w sgn n = if sgn = true ∧ 2 ^ (w - 1) ≤ n then (n : Int) - 2 ^ w else n := by
  have hbit : n.testBit (w - 1) = true ↔ 2 ^ (w - 1) ≤ n := by
    refine ⟨fun hb => Nat.ge_two_pow_of_testBit hb, fun hle => ?_⟩
    exact Nat.testBit_of_two_pow_le_and_two_pow_add_one_gt hle (by rwa [Nat.sub_add_cancel hw])
  simp only [intOf, Nat.mod_eq_of_lt h, Bool.and_eq_true, hbit]

theorem int_of_lt {f : FV} {n : Nat} (h : n < 2 ^ FV.w f) : FV.int f n = codeInt f n :=
  intOf_of_lt (fmtWidth_pos _) h _

theorem intRes_eq (f : FV) (v : Int) : FV.intRes f v = resultCode f v := by
  unfold FV.intRes resultCode intRange
  split_ifs <;> rfl

/-! ## Elements that agree in their low bits -/

theorem elem_lt (t : Task) (w c n i : Nat) : t.elem w c n i < 2 ^ w := (BitVec.extractLsb' _ w _).isLt

theorem scalar_or_elem_lt (f : FV) (sb : Bool) (t : Task) (c j : Nat) : FV.b f sb t c j < 2 ^ FV.w f := by
  unfold FV.b
  split_ifs
  · exact Nat.mod_lt _ (Nat.two_pow_pos _)
  · exact elem_lt ..

section Operands
variable (f : FV) (t : Task) (c j : Nat)

theorem int_a : FV.int f (FV.a f t c j) = codeInt f (FV.a f t c j) := int_of_lt (elem_lt ..)
theorem int_b (sb : Bool) : FV.int f (FV.b f sb t c j) = codeInt f (FV.b f sb t c j) :=
  int_of_lt (scalar_or_elem_lt ..)
theorem int_c : FV.int f (FV.c f t c j) = codeInt f (FV.c f t c j) := int_of_lt (elem_lt ..)

end Operands

theorem tile_congr {t k : Task} {w c d n : Nat} {val val' : Nat → Option Nat} (h : Tile t k w c d n val)
    (hval : ∀ j, (val j).map (· % 2 ^ w) = (val' j).map (· % 2 ^ w)) : Tile t k w c d n val' := by
  refine ⟨fun j hj => (h.1 j hj).trans ?_, h.2⟩
  have hj := hval j
  cases hv : val j <;> cases hv' : val' j <;> simp_all

section Elementwise
variable {s : State} {e : Env} {f : FV} {i : Instr} {srcs : List SrcOp} (hl : e.task.Legal)
  (hd : f.vd.toNat + f.g.toNat ≤ 32)
include hl hd

/-- Of an element's value only the bits of its width count. -/
theorem elements_of_values (val : Task → Nat → Nat → Nat) {val' : Nat → Nat → Nat}
    (hexec : exec i s = vecEach f srcs (fun _ t c j => (val t c j, 0)) s)
    (h : CanIssue s e f.st.toNat srcs [.v f.vd.toNat f.g.toNat])
    (hval : ∀ c j, val e.task c j % 2 ^ FV.w f = val' c j % 2 ^ FV.w f) :
    Elements i s e f fun c j => (val' c j, 0) := by
  obtain ⟨hfits, hfaults⟩ := elements_of_vecEach hl hd hexec h
  refine ⟨fun c hs hp => ?_, hfaults⟩
  obtain ⟨t, k, hexec, hmoved, htile, hteam⟩ := hfits c hs hp
  refine ⟨t, k, hexec, hmoved, tile_congr htile fun j => ?_, hteam⟩
  unfold framed
  split_ifs
  · exact congrArg some (hval c j)
  all_goals rfl

/-- R183, R189: an integer instruction of two operands, said of the codes of its width. -/
theorem elements_of_vecInt2 (fn fn' : Nat → Nat → Nat) (hexec : exec i s = vecInt2 f fn s)
    (h : CanIssue s e f.st.toNat [FV.srcA f, FV.srcB f (FV.sb f)] [.v f.vd.toNat f.g.toNat])
    (hfn : ∀ a b, a < 2 ^ FV.w f → b < 2 ^ FV.w f → fn a b % 2 ^ FV.w f = fn' a b % 2 ^ FV.w f) :
    Elements i s e f fun c j => (fn' (FV.a f e.task c j) (FV.b f (FV.sb f) e.task c j), 0) :=
  elements_of_values hl hd (fun t c j => fn (FV.a f t c j) (FV.b f (FV.sb f) t c j)) hexec h
    fun _ _ => hfn _ _ (elem_lt ..) (scalar_or_elem_lt ..)

/-- R189: one of them whose result is of the codes as they are. -/
theorem elements_of_codes2 (fn : Nat → Nat → Nat) (hexec : exec i s = vecInt2 f fn s)
    (h : CanIssue s e f.st.toNat [FV.srcA f, FV.srcB f (FV.sb f)] [.v f.vd.toNat f.g.toNat]) :
    Elements i s e f fun c j => (fn (FV.a f e.task c j) (FV.b f (FV.sb f) e.task c j), 0) :=
  elements_of_vecInt2 hl hd fn fn hexec h fun _ _ _ _ => rfl

/-- R190: one of them whose result is an exact integer. -/
theorem elements_of_exact2 (op : Int → Int → Int)
    (hexec : exec i s = vecInt2 f (fun a b => FV.intRes f (op (FV.int f a) (FV.int f b))) s)
    (h : CanIssue s e f.st.toNat [FV.srcA f, FV.srcB f (FV.sb f)] [.v f.vd.toNat f.g.toNat]) :
    Elements i s e f fun c j =>
      (resultCode f (op (codeInt f (FV.a f e.task c j)) (codeInt f (FV.b f (FV.sb f) e.task c j))), 0) :=
  elements_of_vecInt2 hl hd _ (fun a b => resultCode f (op (codeInt f a) (codeInt f b))) hexec h fun a b ha hb => by
    rw [intRes_eq, int_of_lt ha, int_of_lt hb]

section Codes
variable (h : CanIssue s e f.st.toNat [FV.srcA f, FV.srcB f (FV.sb f)] [.v f.vd.toNat f.g.toNat])
include h

theorem elements_vshl : Elements (.vshl f) s e f fun c j =>
    (FV.a f e.task c j * 2 ^ (FV.b f (FV.sb f) e.task c j % FV.w f), 0) :=
  elements_of_vecInt2 hl hd (fun a b => a * 2 ^ (b % FV.w f) % 2 ^ FV.w f) (fun a b => a * 2 ^ (b % FV.w f)) rfl h
    fun _ _ _ _ => Nat.mod_mod ..

theorem elements_vshra : Elements (.vshra f) s e f fun c j =>
    let a := FV.a f e.task c j
    (((if 2 ^ (FV.w f - 1) ≤ a then (a : Int) - 2 ^ FV.w f else a) /
      2 ^ (FV.b f (FV.sb f) e.task c j % FV.w f) % 2 ^ FV.w f).toNat, 0) := by
  refine elements_of_vecInt2 hl hd (fun a b => lowInt (FV.w f) (intOf (FV.w f) true a / 2 ^ (b % FV.w f)))
    (fun a b => (((if 2 ^ (FV.w f - 1) ≤ a then (a : Int) - 2 ^ FV.w f else a) /
      2 ^ (b % FV.w f) % 2 ^ FV.w f).toNat)) rfl h fun a b ha _ => ?_
  simp only [intOf_of_lt (w := FV.w f) (fmtWidth_pos _) ha, true_and]
  rfl

theorem elements_vimin : Elements (.vimin f) s e f fun c j =>
    let a := FV.a f e.task c j
    let b := FV.b f (FV.sb f) e.task c j
    (if codeInt f a ≤ codeInt f b then a else b, 0) :=
  elements_of_vecInt2 hl hd (fun a b => if FV.int f a ≤ FV.int f b then a else b)
    (fun a b => if codeInt f a ≤ codeInt f b then a else b) rfl h
    fun a b ha hb => by rw [int_of_lt ha, int_of_lt hb]

theorem elements_vimax : Elements (.vimax f) s e f fun c j =>
    let a := FV.a f e.task c j
    let b := FV.b f (FV.sb f) e.task c j
    (if codeInt f a ≤ codeInt f b then b else a, 0) :=
  elements_of_vecInt2 hl hd (fun a b => if FV.int f a ≤ FV.int f b then b else a)
    (fun a b => if codeInt f a ≤ codeInt f b then b else a) rfl h
    fun a b ha hb => by rw [int_of_lt ha, int_of_lt hb]

end Codes

theorem elements_vimad
    (h : CanIssue s e f.st.toNat [FV.srcA f, FV.srcB f (FV.sb f), FV.srcC f] [.v f.vd.toNat f.g.toNat]) :
    Elements (.vimad f) s e f fun c j => (resultCode f (codeInt f (FV.a f e.task c j) *
      codeInt f (FV.b f (FV.sb f) e.task c j) + codeInt f (FV.c f e.task c j)), 0) := by
  refine elements_of_values hl hd (fun t c j => FV.intRes f (FV.int f (FV.a f t c j) *
    FV.int f (FV.b f (FV.sb f) t c j) + FV.int f (FV.c f t c j))) rfl h fun c j => ?_
  rw [intRes_eq, int_a, int_b, int_c]

theorem elements_viabs (h : CanIssue s e f.st.toNat [FV.srcA f] [.v f.vd.toNat f.g.toNat]) :
    Elements (.viabs f) s e f fun c j => (resultCode f (codeInt f (FV.a f e.task c j)).natAbs, 0) := by
  refine elements_of_values hl hd (fun t c j => FV.intRes f ((FV.int f (FV.a f t c j)).natAbs : Int)) rfl h
    fun c j => ?_
  rw [intRes_eq, int_a]

end Elementwise

/-! ## Compare (R191) -/

/-- COND holds of an order; of none where an operand is NaN. -/
def CondHolds (cond : Nat) : Option Ordering → Prop
  | none => cond = 1 ∨ cond = 6
  | some o => (cond = 0 ∧ o = .eq) ∨ (cond = 1 ∧ o ≠ .eq) ∨ (cond = 2 ∧ o = .lt) ∨ (cond = 3 ∧ o ≠ .gt) ∨
      (cond = 4 ∧ o = .gt) ∨ (cond = 5 ∧ o ≠ .lt)

theorem vcmpHolds_fst (cond : Nat) (o : Option Ordering) : (vcmpHolds cond o).1 = true ↔ CondHolds cond o := by
  cases o with
  | none => simp [vcmpHolds, CondHolds]
  | some o =>
    unfold vcmpHolds CondHolds
    dsimp only
    split <;> simp_all

theorem vcmpHolds_snd (cond : Nat) (o : Option Ordering) :
    (vcmpHolds cond o).2 = if o = none ∧ 2 ≤ cond ∧ cond ≤ 5 then flIV else 0 := by
  cases o with
  | none => simp [vcmpHolds]
  | some o =>
    unfold vcmpHolds
    dsimp only
    split <;> simp

/-- The order of two elements, floating or integer; none where one is NaN. -/
def orderOf (f : FV) (m : Team) (p q : Nat) : Option Ordering :=
  match ffmt f.t.toNat with
  | some _ => FVal.cmp (FV.val f m p) (FV.val f m q)
  | none => some (compare (FV.int f p) (FV.int f q))

/-- What VCMP makes of two elements. -/
def compared (f : FV) (m : Team) (p q : Nat) : Nat × Fl :=
  let r := vcmpHolds (f.mod.toNat / 2 % 8) (orderOf f m p q)
  (if r.1 then 2 ^ FV.w f - 1 else 0, r.2)

theorem eq_compared {f : FV} {m : Team} {p q : Nat} {r : Nat × Fl}
    (hholds : CondHolds (f.mod.toNat / 2 % 8) (orderOf f m p q) → r.1 = 2 ^ FV.w f - 1)
    (hfails : ¬ CondHolds (f.mod.toNat / 2 % 8) (orderOf f m p q) → r.1 = 0)
    (hflags : r.2 = if orderOf f m p q = none ∧ 2 ≤ f.mod.toNat / 2 % 8 ∧ f.mod.toNat / 2 % 8 ≤ 5 then flIV else 0) :
    r = compared f m p q := by
  refine Prod.ext ?_ (hflags.trans (vcmpHolds_snd ..).symm)
  dsimp only [compared]
  split_ifs with hc
  · exact hholds ((vcmpHolds_fst ..).mp hc)
  · exact hfails fun ho => hc ((vcmpHolds_fst ..).mpr ho)

theorem elements_vcmp {s : State} {e : Env} {f : FV} (hl : e.task.Legal) (hd : f.vd.toNat + f.g.toNat ≤ 32)
    (h : CanIssue s e f.st.toNat [FV.srcA f, FV.srcB f (FV.sb f)] [.v f.vd.toNat f.g.toNat]) :
    Elements (.vcmp f) s e f fun c j => compared f e.team (FV.a f e.task c j) (FV.b f (FV.sb f) e.task c j) :=
  elements_of_vecEach (op := fun m t c j => compared f m (FV.a f t c j) (FV.b f (FV.sb f) t c j)) hl hd rfl h

/-- Settles O11: each instruction is an operation on codes of its width; saturation and sign by the value of a code. -/
theorem vectorInteger : Obligations.vectorInteger := by
  unfold Obligations.vectorInteger
  refine ⟨fun s e f hl hd => ⟨fun h => ?_, elements_vimad hl hd, fun h => ?_⟩,
    fun s e f hl hd => ⟨fun h r hr => ?_, fun h => ?_, fun h => ?_, fun h => ?_⟩⟩
  · refine ⟨elements_of_exact2 hl hd (· + ·) rfl h, elements_of_exact2 hl hd (· - ·) rfl h,
      elements_of_exact2 hl hd (· * ·) rfl h, elements_of_codes2 hl hd (· &&& ·) rfl h,
      elements_of_codes2 hl hd (· ||| ·) rfl h, elements_of_codes2 hl hd (· ^^^ ·) rfl h,
      elements_vshl hl hd h, elements_of_codes2 hl hd (fun a b => a / 2 ^ (b % FV.w f)) rfl h,
      elements_vshra hl hd h, elements_vimin hl hd h, elements_vimax hl hd h⟩
  · exact ⟨elements_of_values hl hd (fun t c j => 2 ^ FV.w f - 1 - FV.a f t c j) rfl h fun _ _ => rfl,
      elements_viabs hl hd h⟩
  · have heq : r = fun c j => compared f e.team (FV.a f e.task c j) (FV.b f (FV.sb f) e.task c j) :=
      funext₂ fun c j => eq_compared (hr c j).1 (hr c j).2.1 (hr c j).2.2
    exact heq ▸ elements_vcmp hl hd h
  · exact elements_of_values hl hd (fun t c j => (FV.a f t c j &&& FV.c f t c j) |||
      (FV.b f false t c j &&& (2 ^ FV.w f - 1 - FV.c f t c j))) rfl h fun _ _ => rfl
  · exact elements_of_values hl hd (FV.a f) rfl h fun _ _ => rfl
  · exact ⟨elements_of_values hl hd (fun t _ _ => FV.xsVal f t % 2 ^ FV.w f) rfl h fun _ _ => Nat.mod_mod ..,
      elements_of_values hl hd (fun t _ j => (j + FV.xsVal f t) % 2 ^ FV.w f) rfl h fun _ _ => Nat.mod_mod ..⟩

end Sys2Proof.Proofs

/-! Rearrangements of tiles (R199). -/

namespace Sys2Proof.Proofs

open Sys2Proof.Machine Sys2Proof.Laws

/-! ## Cells written one after another -/

theorem OnlyV.foldl {α : Type} {step : Task → α → Task} (h : ∀ t x, OnlyV t (step t x)) (l : List α) (t : Task) :
    OnlyV t (l.foldl step t) := by
  induction l generalizing t with
  | nil => exact .refl t
  | cons x l ih => exact (h t x).trans (ih _)

theorem putList_eq_foldl (t : Task) (w n : Nat) (l : List (Nat × Nat × Nat)) :
    t.putList w n l = l.foldl (fun t p => t.putRC w n p.1 p.2.1 p.2.2) t := by
  induction l generalizing t with
  | nil => rfl
  | cons p l ih => exact ih _

/-- The values that `val` gives the cells listed, and none elsewhere. -/
def valuesAt (val : Nat → Nat) (l : List Nat) (i : Nat) : Option Nat := if i ∈ l then some (val i) else none

theorem valuesAt_append (val : Nat → Nat) (l l' : List Nat) :
    valuesAt val (l ++ l') = fun i => (valuesAt val l' i).or (valuesAt val l i) := by
  funext i
  unfold valuesAt
  by_cases h : i ∈ l <;> by_cases h' : i ∈ l' <;> simp [h, h']

theorem valuesAt_singleton (val : Nat → Nat) (i : Nat) :
    valuesAt val [i] = fun j => if j = i then some (val i) else none := by
  funext j
  simp only [valuesAt, List.mem_singleton]
  split_ifs with hj
  · rw [hj]
  · rfl

/-- Steps that each write cells as `val` says. -/
theorem wroteCells_foldl {α : Type} {G : Grid} {P : Nat → Prop} {val : Nat → Nat} {step : Task → α → Task}
    {cellsOf : α → List Nat} {l : List α}
    (h : ∀ x ∈ l, ∀ t, WroteCells G P t (step t x) (valuesAt val (cellsOf x))) (t : Task) :
    WroteCells G P t (l.foldl step t) (valuesAt val (l.flatMap cellsOf)) := by
  induction l generalizing t with
  | nil =>
    have hnone : valuesAt val [] = fun _ => none := by
      funext i
      simp [valuesAt]
    exact hnone ▸ wroteCells_refl
  | cons x l ih =>
    obtain ⟨hx, hl⟩ := List.forall_mem_cons.mp h
    rw [List.flatMap_cons, valuesAt_append]
    exact (hx t).trans (ih hl _)

theorem mem_cells {rows c : Nat} {p : Nat × Nat} : p ∈ cells rows c ↔ p.1 < rows ∧ p.2 < c := by
  obtain ⟨r, k⟩ := p
  simp [cells]

namespace Grid
variable {G : Grid}

theorem cell_lt {g r c m : Nat} (hg : g < m) (hr : r < G.rows) (hc : c < G.c) :
    G.cell (G.d + g) r c < m * G.rows * G.c := by
  have hline : g * G.rows + r + 1 ≤ m * G.rows := by nlinarith
  rw [cell, Nat.add_sub_cancel_left]
  nlinarith

/-- A cell has the coordinates it was made of. -/
theorem coords_of_cell (hG : G.Fits) {g r c : Nat} (hr : r < G.rows) (hc : c < G.c) :
    let i := G.cell (G.d + g) r c
    i / (G.rows * G.c) = g ∧ G.row i = r ∧ G.col i = c := by
  intro i
  obtain ⟨hreg, hrow, hcol⟩ :=
    cell_injective (le_reg i) (Nat.le_add_right ..) (row_lt hG i) hr (col_lt hG i) hc (cell_of i)
  exact ⟨Nat.add_left_cancel hreg, hrow, hcol⟩

end Grid

/-! ## Registers of a group filled one after another -/

/-- The registers of a group filled with the elements that `writes` lists for each. -/
def filled (t : Task) (w d m : Nat) (writes : Nat → List (Nat × Nat × Nat)) : Task :=
  (List.range m).foldl (fun k g => k.putList w (d + g) (writes g)) t

/-- What is listed for register `g` is element `v g r c` at each row `r` and column `c` of the grid. -/
def Fills (G : Grid) (v : Nat → Nat → Nat → Nat) (writes : Nat → List (Nat × Nat × Nat)) : Prop :=
  ∀ g r c x, (r, c, x) ∈ writes g ↔ r < G.rows ∧ c < G.c ∧ x = v g r c

theorem onlyV_filled (t : Task) (w d m : Nat) (writes : Nat → List (Nat × Nat × Nat)) :
    OnlyV t (filled t w d m writes) :=
  .foldl (fun t g => by
    rw [putList_eq_foldl]
    exact .foldl (fun t p => onlyV_putRC ..) _ t) _ t

section Filled
variable {G : Grid} {v : Nat → Nat → Nat → Nat} {writes : Nat → List (Nat × Nat × Nat)}

/-- The element that a cell is filled with. -/
def fillOf (G : Grid) (v : Nat → Nat → Nat → Nat) (i : Nat) : Nat := v (i / (G.rows * G.c)) (G.row i) (G.col i)

theorem fillOf_cell (hG : G.Fits) (v : Nat → Nat → Nat → Nat) {g r c : Nat} (hr : r < G.rows) (hc : c < G.c) :
    fillOf G v (G.cell (G.d + g) r c) = v g r c := by
  obtain ⟨hreg, hrow, hcol⟩ := Grid.coords_of_cell hG (g := g) hr hc
  rw [fillOf, hreg, hrow, hcol]

/-- The cells of the listed elements are those of the group. -/
theorem mem_filled_cells (hG : G.Fits) (hf : Fills G v writes) (m i : Nat) :
    (i ∈ (List.range m).flatMap fun g => (writes g).flatMap fun p => [G.cell (G.d + g) p.1 p.2.1]) ↔
      i < m * G.rows * G.c := by
  simp only [List.mem_flatMap, List.mem_range, List.mem_singleton]
  constructor
  · rintro ⟨g, hg, ⟨r, c, x⟩, hx, rfl⟩
    obtain ⟨hr, hc, -⟩ := (hf g r c x).mp hx
    exact Grid.cell_lt hg hr hc
  · intro hi
    refine ⟨i / (G.rows * G.c), ?_, (G.row i, G.col i, fillOf G v i),
      (hf _ _ _ _).mpr ⟨Grid.row_lt hG i, Grid.col_lt hG i, rfl⟩, (Grid.cell_of i).symm⟩
    exact Nat.div_lt_of_lt_mul (by rwa [Nat.mul_comm, ← Nat.mul_assoc])

theorem wroteCells_filled (hG : G.Fits) (hf : Fills G v writes) {m : Nat} (hd : G.d + m ≤ 32) (P : Nat → Prop)
    (t : Task) : WroteCells G P t (filled t G.w G.d m writes) fun i =>
      if i < m * G.rows * G.c then some (fillOf G v i) else none := by
  have hcell : ∀ g, g < m → ∀ p ∈ writes g, ∀ t, WroteCells G P t (t.putRC G.w (G.d + g) p.1 p.2.1 p.2.2)
      (valuesAt (fillOf G v) [G.cell (G.d + g) p.1 p.2.1]) := by
    rintro g hg ⟨r, c, x⟩ hx t
    obtain ⟨hr, hc, rfl⟩ := (hf g r c x).mp hx
    rw [valuesAt_singleton, fillOf_cell hG v hr hc]
    exact wroteCells_putRC hG (Nat.le_add_right ..) (by omega) hr hc _
  have hall := wroteCells_foldl (step := fun k g => k.putList G.w (G.d + g) (writes g)) (l := List.range m)
    (fun g hg t => by
      rw [putList_eq_foldl]
      exact wroteCells_foldl (hcell g (List.mem_range.mp hg)) t) t
  have hval : valuesAt (fillOf G v) ((List.range m).flatMap fun g => (writes g).flatMap fun p =>
      [G.cell (G.d + g) p.1 p.2.1]) = fun i => if i < m * G.rows * G.c then some (fillOf G v i) else none := by
    funext i
    simp only [valuesAt, mem_filled_cells hG hf]
  exact hval ▸ hall

variable (hG : G.Fits) (hf : Fills G v writes) {m : Nat} (hd : G.d + m ≤ 32) (t : Task)
include hG hf hd

theorem elemRC_filled {g r c : Nat} (hg : g < m) (hr : r < G.rows) (hc : c < G.c) :
    (filled t G.w G.d m writes).elemRC G.w (G.d + g) r c = v g r c % 2 ^ G.w := by
  obtain ⟨hdiv, hrow, hcol⟩ := Grid.coords_of_cell hG (g := g) hr hc
  have hreg : G.reg (G.cell (G.d + g) r c) = G.d + g := congrArg (G.d + ·) hdiv
  have hcell := (wroteCells_filled hG hf hd (fun _ => True) t).cell hG (i := G.cell (G.d + g) r c)
    (hreg.trans_lt (by omega)) trivial
  rwa [hreg, hrow, hcol, if_pos (Grid.cell_lt hg hr hc), fillOf_cell hG v hr hc] at hcell

theorem getLsbD_filled_outside {r row b : Nat} (hr : r < 32) (hrow : row < 16)
    (hout : r < G.d ∨ G.d + m ≤ r ∨ G.rows ≤ row ∨ G.c * G.w ≤ b) :
    ((filled t G.w G.d m writes).vrow r row).getLsbD b = (t.vrow r row).getLsbD b := by
  by_cases hb : b < 1024
  · rw [wroteCells_filled hG hf hd (fun _ => True) t r row b hr trivial hrow hb]
    split_ifs with hhas
    · obtain ⟨hle, hlt, hbit⟩ := hhas
      have hpast : m * G.rows * G.c ≤ G.cell r row (b / G.w) := by
        have hm : m ≤ r - G.d := by omega
        exact Nat.mul_le_mul_right _ ((Nat.mul_le_mul_right _ hm).trans (Nat.le_add_right ..)) |>.trans
          (Nat.le_add_right ..)
      dsimp only
      rw [if_neg (Nat.not_lt.mpr hpast)]
      rfl
    · rfl
  · rw [BitVec.getLsbD_of_ge _ _ (Nat.le_of_not_lt hb), BitVec.getLsbD_of_ge _ _ (Nat.le_of_not_lt hb)]

end Filled

/-! ## Rearrangements -/

theorem perRow_of_shape {t : Task} {f : FV} {c : Nat} (hs : t.shapeBits = c * FV.w f) : t.perRow (FV.w f) = some c :=
  perRow_of_mul (fmtWidth_pos _) hs

/-- An instruction over tiles that refuses the shape it is given (R184). -/
theorem shape_refused_at {t : Task} {w c : Nat} {bad : Nat → Bool} {rest : Nat → Act} (hc : t.perRow w = some c)
    (hbad : bad c = true) : (match t.perRow w with
      | none => shapeFault
      | some c => if bad c then shapeFault else rest c) = shapeFault :=
  shape_refused fun c' hc' => by rwa [← Option.some.inj (hc.symm.trans hc')]

/-- What a rearrangement lists for each register. -/
def writesOf (cell : Nat → Nat → Nat → Nat × Nat × Nat) (rows c g : Nat) : List (Nat × Nat × Nat) :=
  (cells rows c).map fun p => cell g p.1 p.2

theorem mem_writesOf {cell : Nat → Nat → Nat → Nat × Nat × Nat} {rows c g : Nat} {p : Nat × Nat × Nat} :
    p ∈ writesOf cell rows c g ↔ ∃ r < rows, ∃ k < c, cell g r k = p := by
  simp [writesOf, mem_cells, and_assoc]

/-- Elements that stay at their row and column. -/
theorem fills_same (G : Grid) (v : Nat → Nat → Nat → Nat) :
    Fills G v (writesOf (fun g r c => (r, c, v g r c)) G.rows G.c) := by
  intro g r c x
  rw [mem_writesOf]
  aesop

/-- Elements whose row and column change places. -/
theorem fills_transposed (G : Grid) (v : Nat → Nat → Nat → Nat) :
    Fills G v (writesOf (fun g r c => (c, r, v g c r)) G.c G.rows) := by
  intro g r c x
  rw [mem_writesOf]
  aesop

/-- An instruction that writes a tile and sets no flag. -/
theorem tileOp_of_commit_task {s : State} {e : Env} {i : Instr} {w c d n : Nat} {val : Nat → Option Nat} {k : Task}
    (he : s.issuer = some e) (hexec : exec i s = .next (s.commit e (k.advance 8))) (hv : OnlyV e.task k)
    (ht : Tile e.task k w c d n val) : TileOp i s e w c d n val 0 := by
  refine ⟨_, _, hexec, vmoved_of_onlyV hv 8 s.ticks false, ht, ?_⟩
  have hflags : e.team.fpflags ||| 0 = e.team.fpflags := BitVec.or_zero
  rw [hflags]
  exact onlyTask_commit he _

section Exec
variable {i : Instr} {s : State} {e : Env} {f : FV} {c : Nat} {srcs : List SrcOp} {bad : Task → Nat → Bool}
  {cell : Task → Nat → Nat → Nat → Nat → Nat × Nat × Nat} (hexec : exec i s = rearrange f srcs bad cell s)
  (h : CanIssue s e f.st.toNat srcs [.v f.vd.toNat f.g.toNat]) (hs : e.task.shapeBits = c * FV.w f)
include hexec h hs

theorem rearrange_faults (hbad : bad e.task c = true) : Faults i s e cShape 0 :=
  faults_of_body hexec h (shape_refused_at (perRow_of_shape hs) hbad)

theorem exec_rearrange (hok : bad e.task c = false) : exec i s = .next (s.commit e
    ((filled e.task (FV.w f) f.vd.toNat f.g.toNat (writesOf (cell e.task c) e.task.rows.toNat c)).advance 8)) := by
  rw [hexec, rearrange, issue_ready h]
  simp only [perRow_of_shape hs, hok, Bool.false_eq_true, if_false]
  rfl

variable (hl : e.task.Legal) (hd : f.vd.toNat + f.g.toNat ≤ 32)
include hl hd

/-- A rearrangement that puts element `v g r k` at row `r` and column `k` of register `g`. -/
theorem tileOp_rearrange (v : Nat → Nat → Nat → Nat) (hok : bad e.task c = false)
    (hcell : cell e.task c = fun g r k => (r, k, v g r k)) :
    let rows := e.task.rows.toNat
    TileOp i s e (FV.w f) c f.vd.toNat (f.g.toNat * rows * c)
      (fun j => some (v (j / (rows * c)) (j % (rows * c) / c) (j % c))) 0 := by
  intro rows
  have hG := tileGrid_fits hl (fmtWidth_pos _) hs f.vd.toNat
  have ⟨_, hc, _, hrows, _⟩ := hG
  have hwrote := wroteCells_filled hG (fills_same _ v) hd (fun _ => True) e.task
  have hexec := exec_rearrange hexec h hs hok
  rw [hcell] at hexec
  exact tileOp_of_commit_task h.1 hexec (onlyV_filled ..) (tile_of_wroteCells hG (onlyV_filled ..).rows
    (fun j => reg_lt_of_group hc hrows hd) (fun j hj => if_pos hj) (fun j hj => if_neg (Nat.not_lt.mpr hj)) hwrote)

end Exec

/-! ## VTRN -/

section Vtrn
variable {s : State} {e : Env} {f : FV} {c : Nat} (hl : e.task.Legal) (hd : f.vd.toNat + f.g.toNat ≤ 32)
  (hs : e.task.shapeBits = c * FV.w f) (h : CanIssue s e f.st.toNat [FV.srcA f] [.v f.vd.toNat f.g.toNat])

/-- The grid of the transposed tile: a row for each column. -/
def turned (t : Task) (w c d : Nat) : Grid := ⟨w, t.rows.toNat, c, d⟩

include hl hs in
theorem turned_fits (hc : c ≤ 16) : (turned e.task (FV.w f) c f.vd.toNat).Fits := by
  obtain ⟨hw, hpos, -, hrows, hrows'⟩ := tileGrid_fits hl (fmtWidth_pos _) hs f.vd.toNat
  refine ⟨hw, hrows, ?_, hpos, hc⟩
  have hwidth : FV.w f ≤ 32 := by
    rcases fmtWidth_cases f.t.toNat with hw | hw | hw | hw <;> simp [FV.w, hw]
  exact (Nat.mul_le_mul hrows' hwidth).trans (by decide)

include hl hd hs h in
/-- R199: each register's tile is transposed, and every bit outside it left. -/
theorem vtrn_moves (hc : c ≤ 16) : ∃ t k', exec (.vtrn f) s = .next t ∧ VMoved e.task k' 8 ∧ OnlyTask s t e k' ∧
    (∀ g r j, g < f.g.toNat → r < e.task.rows.toNat → j < c →
      k'.elemRC (FV.w f) (f.vd.toNat + g) j r = FV.aRC f e.task g r j) ∧
    (∀ r row b, r < 32 → row < 16 →
      (r < f.vd.toNat ∨ f.vd.toNat + f.g.toNat ≤ r ∨ c ≤ row ∨ e.task.rows.toNat * FV.w f ≤ b) →
      (k'.vrow r row).getLsbD b = (e.task.vrow r row).getLsbD b) := by
  have hG := turned_fits hl hs hc
  have hexec := exec_rearrange (show exec (.vtrn f) s = execVtrn f s from rfl) h hs
    (decide_eq_false (Nat.not_lt.mpr hc))
  have hfills := fills_transposed (turned e.task (FV.w f) c f.vd.toNat) fun g r k => FV.aRC f e.task g k r
  refine ⟨_, _, hexec, vmoved_of_onlyV (onlyV_filled ..) .., onlyTask_commit h.1 _, fun g r j hg hr hj => ?_,
    fun r row b hr hrow hout => getLsbD_filled_outside hG hfills hd e.task hr hrow hout⟩
  exact (elemRC_filled hG hfills hd e.task hg hj hr).trans (Nat.mod_eq_of_lt (BitVec.isLt _))

end Vtrn

/-- Settles O14: VTRN fills the transposed grid, the others the tile itself, each element from the registers as they
stood; an operand out of range is refused before any write. -/
theorem vectorRearrange : Obligations.vectorRearrange := by
  unfold Obligations.vectorRearrange
  intro s e f c hl hd hs
  have hvtrn : exec (.vtrn f) s = execVtrn f s := rfl
  have hvbcr : exec (.vbcr f) s = execVbcr f s := rfl
  have hvbcc : exec (.vbcc f) s = execVbcc f s := rfl
  have hvrot : exec (.vrot f) s = execVrot f s := rfl
  have hvperm : exec (.vperm f) s = execVperm f s := rfl
  have hvsld : exec (.vsld f) s = execVsld f s := rfl
  refine ⟨fun h => ⟨vtrn_moves hl hd hs h, fun hc => rearrange_faults hvtrn h hs (decide_eq_true hc)⟩,
    fun h => ⟨fun hx => ?_, fun hx => rearrange_faults hvbcr h hs (decide_eq_true hx), fun hx => ?_,
      fun hx => rearrange_faults hvbcc h hs (decide_eq_true hx), ?_⟩,
    fun h => ?_, fun h => ⟨fun hx => ?_, fun hx => rearrange_faults hvsld h hs (decide_eq_true hx)⟩⟩
  · exact tileOp_rearrange hvbcr h hs hl hd (fun g _ k => FV.aRC f e.task g (FV.xsVal f e.task) k)
      (decide_eq_false (Nat.not_le.mpr hx)) rfl
  · exact tileOp_rearrange hvbcc h hs hl hd (fun g r _ => FV.aRC f e.task g r (FV.xsVal f e.task))
      (decide_eq_false (Nat.not_le.mpr hx)) rfl
  · exact tileOp_rearrange hvrot h hs hl hd (fun g r k =>
      if f.mod.getLsbD 0 then FV.aRC f e.task g ((r + FV.xsVal f e.task) % e.task.rows.toNat) k
      else FV.aRC f e.task g r ((k + FV.xsVal f e.task) % c)) rfl rfl
  · exact tileOp_rearrange hvperm h hs hl hd (fun g r k =>
      if FV.bRC f e.task g r k < c then FV.aRC f e.task g r (FV.bRC f e.task g r k) else 0) rfl rfl
  · exact tileOp_rearrange hvsld h hs hl hd (fun g r k =>
      if k + FV.xsVal f e.task < c then FV.aRC f e.task g r (k + FV.xsVal f e.task)
      else FV.bRC f e.task g r (k + FV.xsVal f e.task - c)) (decide_eq_false (Nat.not_lt.mpr hx)) rfl

end Sys2Proof.Proofs

/-! Moves of whole registers, single elements, predicates and the shape (R76, R78, R200, R201). -/

namespace Sys2Proof.Proofs

open Sys2Proof.Machine Sys2Proof.Laws

/-! ## Whole registers -/

section Registers
variable (src t : Task) (d a : Nat) {n r l : Nat}

theorem vrow_copyRows (hd : d < 32) (hn : n ≤ 16) (hr : r < 32) (hl : l < 16) :
    ((List.range n).foldl (fun t i => t.setVrow d i (src.vrow a i)) t).vrow r l =
      if r = d ∧ l < n then src.vrow a l else t.vrow r l := by
  induction n with
  | zero => simp
  | succ n ih =>
    rw [List.range_succ, List.foldl_append, List.foldl_cons, List.foldl_nil,
      vrow_setVrow _ _ hd hr (by omega) hl, ih (by omega)]
    by_cases hln : l = n
    · by_cases hrd : r = d <;> simp [hln, hrd]
    · have hiff : l < n + 1 ↔ l < n := by omega
      simp [hln, hiff]

theorem vrow_copyReg (hd : d < 32) (hr : r < 32) (hl : l < 16) :
    (t.copyReg src d a).vrow r l = if r = d then src.vrow a l else t.vrow r l := by
  rw [Task.copyReg, vrow_copyRows src t d a hd le_rfl hr hl]
  simp [hl]

theorem vrow_copyRegs (hd : d + n ≤ 32) (hr : r < 32) (hl : l < 16) :
    ((List.range n).foldl (fun t i => t.copyReg src (d + i) (a + i)) t).vrow r l =
      if d ≤ r ∧ r < d + n then src.vrow (a + (r - d)) l else t.vrow r l := by
  induction n with
  | zero => simp
  | succ n ih =>
    rw [List.range_succ, List.foldl_append, List.foldl_cons, List.foldl_nil,
      vrow_copyReg _ _ _ _ (by omega) hr hl, ih (by omega)]
    by_cases hrn : r = d + n
    · simp [hrn]
    · have hiff : r < d + (n + 1) ↔ r < d + n := by omega
      simp [hrn, hiff]

end Registers

theorem onlyV_copyReg (src t : Task) (d a : Nat) : OnlyV t (t.copyReg src d a) :=
  .foldl (step := fun t r => t.setVrow d r (src.vrow a r)) (fun _ _ => rfl) _ t

/-- R200: VMOV copies registers as they stood, whole. -/
theorem vmovWhole_moves {s : State} {e : Env} {f : FV} (hd : f.vd.toNat + f.g.toNat ≤ 32)
    (h : CanIssue s e f.st.toNat [FV.srcA f] [.v f.vd.toNat f.g.toNat]) :
    ∃ t k', exec (.vmovWhole f) s = .next t ∧ VMoved e.task k' 8 ∧ OnlyTask s t e k' ∧
      ∀ r l, r < 32 → l < 16 → k'.vrow r l =
        if f.vd.toNat ≤ r ∧ r < f.vd.toNat + f.g.toNat then e.task.vrow (f.va.toNat + (r - f.vd.toNat)) l
        else e.task.vrow r l := by
  have hexec : exec (.vmovWhole f) s = .next (s.commit e (((List.range f.g.toNat).foldl
      (fun t i => t.copyReg e.task (f.vd.toNat + i) (f.va.toNat + i)) e.task).advance 8)) := by
    change execVmovWhole f s = _
    rw [execVmovWhole, issue_ready h]
  exact ⟨_, _, hexec, vmoved_of_onlyV (.foldl (fun t i => onlyV_copyReg ..) _ _) .., onlyTask_commit h.1 _,
    fun r l hr hl => vrow_copyRegs e.task e.task _ _ hd hr hl⟩

/-! ## Single elements -/

/-- One element written, and every other bit as it was. -/
theorem getLsbD_putRC (t : Task) (w : Nat) {n row r l b : Nat} (col v : Nat) (hn : n < 32) (hrow : row < 16)
    (hr : r < 32) (hl : l < 16) (hb : b < 1024) : ((t.putRC w n row col v).vrow r l).getLsbD b =
      if r = n ∧ l = row ∧ col * w ≤ b ∧ b < (col + 1) * w then v.testBit (b - col * w)
      else (t.vrow r l).getLsbD b := by
  rw [Task.putRC, vrow_setVrow _ _ hn hr hrow hl, Nat.succ_mul]
  by_cases hat : r = n ∧ l = row
  · obtain ⟨rfl, rfl⟩ := hat
    simp only [true_and, and_self, if_true, getLsbD_rowPut _ _ _ _ hb]
  · rw [if_neg hat, if_neg fun h => hat ⟨h.1, h.2.1⟩]

section Position
variable {s : State} {e : Env} {f : FV} {c : Nat}

/-- R200: VEXT gives a signed integer by its sign, and every other element zero-extended. -/
theorem extVal_of_lt {n : Nat} (h : n < 2 ^ FV.w f) : FV.extVal f n =
    if isSigned f.t.toNat f.u ∧ 2 ^ (FV.w f - 1) ≤ n then BitVec.ofInt 64 (n - 2 ^ FV.w f) else w64 n := by
  rw [FV.extVal, w64_lowInt, int_of_lt h, codeInt]
  by_cases hsgn : isSigned f.t.toNat f.u = true
  · simp only [hsgn, true_and, if_true]
    split_ifs
    · rfl
    · exact BitVec.ofInt_natCast ..
  · rw [if_neg hsgn, if_neg fun h => hsgn h.1]

theorem outside_of_le {t : Task} (hout : t.rows.toNat ≤ (FV.pos f).1 ∨ c ≤ (FV.pos f).2) :
    t.outside (FV.pos f) c = true := by
  simpa [Task.outside] using hout

theorem inside_of_lt {t : Task} (hrow : (FV.pos f).1 < t.rows.toNat) (hcol : (FV.pos f).2 < c) :
    t.outside (FV.pos f) c = false := by
  simp [Task.outside, hrow, hcol]

variable (hs : e.task.shapeBits = c * FV.w f)
include hs

section Vext
variable (h : CanIssue s e f.st.toNat [.v f.va.toNat 1 f.fea] [.x f.xs])
include h

theorem vext_faults (hout : e.task.rows.toNat ≤ (FV.pos f).1 ∨ c ≤ (FV.pos f).2) : Faults (.vext f) s e cShape 0 :=
  faults_of_body (by change execVext f s = _; unfold execVext; rfl) h
    (shape_refused_at (perRow_of_shape hs) (outside_of_le hout))

theorem vext_computes (hrow : (FV.pos f).1 < e.task.rows.toNat) (hcol : (FV.pos f).2 < c) :
    Computes (.vext f) s e f.xs
      (FV.extVal f (e.task.elemRC (FV.w f) f.va.toNat (FV.pos f).1 (FV.pos f).2)) 8 := by
  refine ⟨_, _, ?_, onlyTask_commit h.1 _, wrote_setX ..⟩
  change execVext f s = _
  unfold execVext
  rw [issue_ready h]
  simp only [perRow_of_shape hs, inside_of_lt hrow hcol, Bool.false_eq_true, if_false]

end Vext

section Vins
variable (h : CanIssue s e f.st.toNat [.x f.xs f.fes] [.v f.vd.toNat 1])
include h

theorem vins_faults (hout : e.task.rows.toNat ≤ (FV.pos f).1 ∨ c ≤ (FV.pos f).2) : Faults (.vins f) s e cShape 0 :=
  faults_of_body (by change execVins f s = _; unfold execVins; rfl) h
    (shape_refused_at (perRow_of_shape hs) (outside_of_le hout))

theorem exec_vins (hrow : (FV.pos f).1 < e.task.rows.toNat) (hcol : (FV.pos f).2 < c) : exec (.vins f) s =
    .next (s.commit e
      ((e.task.putRC (FV.w f) f.vd.toNat (FV.pos f).1 (FV.pos f).2 (FV.xsVal f e.task)).advance 8)) := by
  change execVins f s = _
  unfold execVins
  rw [issue_ready h]
  simp only [perRow_of_shape hs, inside_of_lt hrow hcol, Bool.false_eq_true, if_false]

end Vins

end Position

/-! ## Predicates -/

theorem wcOf_eq (w : Nat) : wcOf w = if w = 32 then 0 else if w = 16 then 1 else if w = 8 then 2 else 3 := by
  unfold wcOf
  split <;> simp_all

theorem ofNat_wcOf (w : Nat) :
    BitVec.ofNat 2 (wcOf w) = if w = 32 then 0 else if w = 16 then 1 else if w = 8 then 2 else 3 := by
  rw [wcOf_eq]
  split_ifs <;> rfl

theorem predSet_setPred (t : Task) (p : Nat) (v : BitVec 16) (held : Bool) (issued : Nat) :
    PredSet t { (t.setPred p v).advance 8 with held := held, issued := issued } p v := by
  unfold Task.setPred
  refine ⟨by split_ifs <;> rfl, fun q => ?_⟩
  change Task.pred (if p = 0 then t else { t with p := tabSet 0x3FFF t.p p v }) q = _
  by_cases hp : p = 0
  · rw [if_pos hp, if_neg fun h => h.2 (h.1.trans hp)]
  · rw [if_neg hp]
    by_cases hq : q = 0
    · simp [Task.pred, hq]
    · simp [Task.pred, hq, tabGet_tabSet]

section Predicates
variable {i : Instr} {s : State} {e : Env} {f : FV} {st p : Nat} {v : BitVec 16} {srcs : List SrcOp}

/-- R201: an instruction that writes one predicate. -/
theorem becomes_predSet (val : Task → BitVec 16) (h : CanIssue s e st srcs [])
    (hexec : exec i s = taskOp st 8 srcs (fun t => (t.setPred p (val t)).advance 8) s) (hv : val e.task = v) :
    Machine.Becomes i s e (PredSet e.task · p v) :=
  becomes_taskOp _ h hexec fun held issued => hv ▸ predSet_setPred e.task p (val e.task) held issued

theorem exec_pmov_copy (hm : f.mod.toNat % 4 = 0) : exec (.pmov f) s = taskOp f.st.toNat 8 []
    (fun t => (t.setPred (predNo f.vd) (t.pred (predNo f.va))).advance 8) s := by
  change execPmov f s = _
  simp only [execPmov, hm]

theorem exec_pmov_read (hm : f.mod.toNat % 4 = 1) : exec (.pmov f) s =
    scalar f.st.toNat 8 f.xs [] (fun t => (t.pred (predNo f.va)).zeroExtend 64) s := by
  change execPmov f s = _
  simp only [execPmov, hm]

theorem exec_pmov_write (hm : 2 ≤ f.mod.toNat % 4) : exec (.pmov f) s = taskOp f.st.toNat 8 [.x f.xs f.fes]
    (fun t => (t.setPred (predNo f.vd) ((t.getX f.xs).truncate 16)).advance 8) s := by
  have hcases : f.mod.toNat % 4 = 2 ∨ f.mod.toNat % 4 = 3 := by omega
  change execPmov f s = _
  rcases hcases with hm | hm <;> simp only [execPmov, hm]

end Predicates

/-! ## VSETS -/

section Vsets
variable {s : State} {e : Env} {f : FV}

theorem exec_vsets_fields (hm : f.mod.getLsbD 4 = false) : exec (.vsets f) s = taskOp f.st.toNat 8 [] (fun t =>
    { t.advance 8 with
      rows := f.vb, cols := BitVec.ofNat 9 (f.vc.toNat * 16 + f.mod.toNat % 16)
      wc := BitVec.ofNat 2 (wcOf (FV.w f)) }) s := by
  change execVsets f s = _
  rw [execVsets, if_neg (Bool.eq_false_iff.mp hm)]

variable (h : CanIssue s e f.st.toNat [.x f.xs f.fes] []) (hm : f.mod.getLsbD 4 = true)
include h hm

theorem exec_vsets_scalar (hok : shapeOk (e.task.getX f.xs) = true) : exec (.vsets f) s =
    .next (s.commit e ((e.task.setShape (e.task.getX f.xs)).advance 8)) := by
  change execVsets f s = _
  rw [execVsets, if_pos hm, issue_ready h, if_pos hok]

theorem vsets_faults (hbad : ¬ shapeOk (e.task.getX f.xs) = true) : Faults (.vsets f) s e cShape 0 :=
  faults_of_body (by change execVsets f s = _; rw [execVsets, if_pos hm]) h (if_neg hbad)

end Vsets

/-- Settles O15: whole registers by their rows, single elements by the bits of their row, predicates and the shape by
the task that they leave. -/
theorem vectorMoves : Obligations.vectorMoves := by
  unfold Obligations.vectorMoves
  refine ⟨fun s e f hd => ⟨vmovWhole_moves hd, fun c hl hs =>
      ⟨fun h => ⟨fun hrow hcol => ?_, vext_faults hs h⟩, fun h => ⟨fun hrow hcol => ?_, vins_faults hs h⟩⟩⟩,
    fun s e f => ⟨fun h => ⟨?_, fun hm => ?_, fun hm => ?_⟩, fun h hm => ?_,
      fun h => ⟨?_, fun hm => ?_, fun hm hok => ?_, fun hm hbad => ?_⟩⟩⟩
  · exact extVal_of_lt (BitVec.isLt _) ▸ vext_computes hs h hrow hcol
  · exact ⟨_, _, exec_vins hs h hrow hcol, vmoved_of_onlyV (onlyV_putRC ..) .., onlyTask_commit h.1 _,
      fun r l b hr hl' hb => getLsbD_putRC e.task _ _ _ f.vd.isLt (Nat.mod_lt _ (by decide)) hr hl' hb⟩
  · exact becomes_predSet (fun _ => _) h rfl (by rw [predOf, wcOf_eq])
  · exact becomes_predSet _ h (exec_pmov_copy hm) rfl
  · exact becomes_taskOp _ h (exec_vsets_fields hm) fun _ _ => by rw [ofNat_wcOf]; rfl
  · exact computes_scalar _ h (exec_pmov_read hm) rfl
  · refine becomes_predSet (fun t => predOf (wcOf (FV.w f)) (pwhlCount (FV.w f) (t.getX f.xs))) h rfl ?_
    rw [predOf, wcOf_eq, pwhlCount, Nat.min_comm]
  · exact becomes_predSet _ h (exec_pmov_write hm) (BitVec.setWidth_eq_extractLsb' (by decide))
  · exact becomes_commit h.1 (exec_vsets_scalar h hm ((shapeOk_iff _).mpr hok)) fun _ _ => rfl
  · exact vsets_faults h hm fun hok => hbad ((shapeOk_iff _).mp hok)

end Sys2Proof.Proofs

/-! Tile loads and stores (R78, R116, R204, R208 to R210). -/

namespace Sys2Proof.Proofs

open Sys2Proof.Machine Sys2Proof.Laws

/-! ## Accesses of no element (R78, R116) -/

theorem finds_nil {sp : AccSpec} (h : sp.pieces = []) (s : State) (e : Env) (store : Bool) :
    Finds s e store sp = ([], none, none) := by
  unfold Finds
  split
  · rw [h]
  · rw [h]
    rfl

theorem queueEntry_taken {e : Env} {sp : AccSpec} (hkind : sp.kind = .load) (id : Nat) :
    (queueEntry e sp id []).taken = true := by
  simp [queueEntry, Access.taken, hkind]

theorem loadsLeave_eq (s : State) (c uid : Nat) :
    s.loadsLeave c uid = { s with cores := (s.loadsLeave c uid).cores } := by
  obtain ⟨out, rs, -, -, ht, -⟩ := leaves_loadsLeave s c uid
  exact ht

theorem leaveLoads_succ (s : State) (c uid n : Nat) : s.leaveLoads c uid (n + 1) =
    match (s.core c).loads.find? (ownLoad uid) with
    | none => s
    | some a => if a.taken then (s.finishLoad c a).leaveLoads c uid n else s := rfl

/-- A load that has taken its value, with none of its task's before it, leaves its queue at once. -/
theorem loads_loadsLeave_append {s : State} {c uid : Nat} {q : List Access} {a : Access}
    (hq : (s.core c).loads = q ++ [a]) (hothers : ∀ b ∈ q, b.team ≠ uid ∧ b.id ≠ a.id)
    (hown : ownLoad uid a = true) (htaken : a.taken = true) : ((s.loadsLeave c uid).core c).loads = q := by
  have hnone : q.find? (ownLoad uid) = none := by
    rw [List.find?_eq_none]
    intro b hb
    simp [ownLoad, (hothers b hb).1]
  have hfind : (s.core c).loads.find? (ownLoad uid) = some a := by
    rw [hq, List.find?_append, hnone, Option.none_or, List.find?_singleton, hown]
    rfl
  have hleft : ((s.finishLoad c a).core c).loads = q := by
    rw [core_finishLoad, if_pos rfl, withoutLoad, hq]
    simpa [List.filter_append] using fun b hb => (hothers b hb).2
  have hstay : ∀ n, ((s.finishLoad c a).leaveLoads c uid n) = s.finishLoad c a := by
    intro n
    cases n with
    | zero => rfl
    | succ n => rw [leaveLoads_succ, hleft, hnone]
  have hlength : (s.core c).loads.length = q.length + 1 := by rw [hq, List.length_append, List.length_singleton]
  rw [State.loadsLeave, hlength, leaveLoads_succ, hfind]
  dsimp only
  rw [if_pos htaken, hstay, hleft]

/-- An access of no element, entered as `onlyTask_commit_enter` says. -/
def enteredNone (s : State) (e : Env) (store : Bool) (sp : AccSpec) (n : Nat) : State :=
  (s.fresh.2.enter e store sp s.nextId []).commit e (accessing e.task n sp s.nextId)

/-- What its instruction leaves: no entry of a store, and of a load none once it may leave (R116). -/
def accessedNone (s : State) (e : Env) (store : Bool) (sp : AccSpec) (n : Nat) : State :=
  if store then
    (enteredNone s e store sp n).modCore e.core fun k => { k with stores := k.stores.filter fun a => a.id != s.nextId }
  else (enteredNone s e store sp n).loadsLeave e.core e.uid

theorem accessAct_nil {s : State} {e : Env} {store : Bool} {sp : AccSpec} (n : Nat) (h : Enterable s e store sp)
    (hnil : sp.pieces = []) : accessAct e n store sp s = .done (accessedNone s e store sp n) := by
  rw [accessAct_open n h, finds_nil hnil]
  rfl

section None
variable (s : State) (e : Env) (sp : AccSpec) (n : Nat)

theorem accessedNone_store : accessedNone s e true sp n = (enteredNone s e true sp n).modCore e.core fun k =>
    { k with stores := k.stores.filter fun a => a.id != s.nextId } := rfl

theorem accessedNone_load : accessedNone s e false sp n = (enteredNone s e false sp n).loadsLeave e.core e.uid := rfl

theorem accessedNone_eq (store : Bool) : accessedNone s e store sp n =
    { enteredNone s e store sp n with cores := (accessedNone s e store sp n).cores } := by
  cases store
  · exact loadsLeave_eq ..
  · rfl

end None

/-- Cores changed behind what an instruction leaves. -/
theorem onlyTeam_cores {s b t : State} {e : Env} {m : Team} {cores : Tab Core}
    (h : OnlyTeam { s with cores := cores } b e m) (ht : t = { b with cores := t.cores }) :
    OnlyTeam { s with cores := t.cores } t e m := by
  obtain ⟨hb, hteams⟩ := h
  have hsame : t.teams = b.teams := by rw [ht]
  refine ⟨?_, fun u => ?_⟩
  · rw [ht, hb]
  · rw [hsame, hteams]

/-- With no active element nothing is accessed. -/
theorem enters_of_accessAct_nil {i : Instr} {s : State} {e : Env} {st n : Nat} {srcs : List SrcOp}
    {dsts : List DstOp} {body : Env → State → Act} {store : Bool} {sp : AccSpec}
    (hexec : exec i s = issue st n srcs dsts body s) (h : CanIssue s e st srcs dsts)
    (hbody : body e s = accessAct e n store sp s) (hnil : sp.pieces = []) (hkind : store = false → sp.kind = .load)
    (hopen : Enterable s e store sp) : Enters i s e n store sp := by
  refine ⟨fun _ hne => absurd hnil hne, fun _ => ?_, fun va c hf => ?_⟩
  · obtain ⟨honly, hcore⟩ := onlyTask_commit_enter (s := s.fresh.2) h.1 store sp s.nextId []
      (accessing e.task n sp s.nextId)
    change ∀ c, (enteredNone s e store sp n).core c = if c = e.core then
      withEntry store (queueEntry e sp s.nextId []) (s.core c) else s.core c at hcore
    have hself := (hcore e.core).trans (if_pos rfl)
    have hrest := accessedNone_eq s e sp n store
    refine ⟨accessedNone s e store sp n, _, ?_, loading_accessing s e n sp false s.ticks,
      onlyTeam_cores (s := { s with nextId := s.nextId + 1 }) honly hrest, fun c hc => ?_, fun hst => ?_, fun hld => ?_⟩
    · rw [hexec, issue_ready h, hbody, accessAct_nil n hopen hnil]
    · rw [← (hcore c).trans (if_neg hc)]
      cases store with
      | true => rw [accessedNone_store, modCore_def, core_setCore, if_neg hc]
      | false =>
        obtain ⟨_, _, -, -, -, hother, -⟩ := leaves_loadsLeave (enteredNone s e false sp n) e.core e.uid
        exact hother c hc
    · subst hst
      rw [accessedNone_store, modCore_def, core_setCore, if_pos rfl, hself]
      simp [withEntry, queueEntry, List.filter_append]
    · subst hld
      obtain ⟨_, _, -, -, -, -, hleft, -⟩ := leaves_loadsLeave (enteredNone s e false sp n) e.core e.uid
      rw [accessedNone_load]
      refine ⟨?_, fun hothers => ?_⟩
      · rw [hleft, hself]
        rfl
      · refine loads_loadsLeave_append (a := queueEntry e sp s.nextId []) ?_ hothers ?_ (queueEntry_taken (hkind rfl) _)
        · rw [hself]
          rfl
        · simp [ownLoad, queueEntry, hkind rfl]
  · rw [finds_nil hnil] at hf
    cases hf

/-! ## Tiles (R208 to R210) -/

section Tile
variable {i : Instr} {s : State} {e : Env} {st : Nat} {srcs : List SrcOp} {dsts : List DstOp} {f : FVM} {store : Bool}
  {body : Env → Nat → Nat → Nat → Nat → State → Act}
  (hexec : exec i s = issue st 8 srcs dsts (tileFrame f store body) s) (h : CanIssue s e st srcs dsts)
include hexec h

/-- A tile access whose predicate fits enters its queue once nothing holds it, or faults. -/
theorem enters_tile {sp : AccSpec} (hfits : e.task.predFits f.p.toNat e.task.shapeW = true)
    (hbody : let lines := f.g.toNat * e.task.rows.toNat
      body e e.task.shapeW e.task.cols.toNat lines (e.task.activeN f.p.toNat (lines * e.task.cols.toNat)) s =
        accessAct e 8 store sp s)
    (hkind : store = false → sp.kind = .load) (hopen : Enterable s e store sp) : Enters i s e 8 store sp := by
  have hframe : tileFrame f store body e s = accessAct e 8 store sp s := by
    rw [tileFrame, hfits]
    exact hbody
  by_cases hnil : sp.pieces = []
  · exact enters_of_accessAct_nil hexec h hframe hnil hkind hopen
  · exact enters_of_accessAct hexec h hframe hnil hopen

/-- R208: a predicate of another width raises SHAPE, unless the instruction is held. -/
theorem tile_misfit (hfits : e.task.predFits f.p.toNat e.task.shapeW = false) :
    (s.memClear e = true → s.room e.core store f.g.toNat = true → Faults i s e cShape 0) ∧
    (s.memClear e = false ∨ s.room e.core store f.g.toNat = false → Holds i s e) := by
  have hframe : tileFrame f store body e s =
      if !s.memClear e || !s.room e.core store f.g.toNat then .hold else shapeFault := by
    rw [tileFrame, hfits]
    rfl
  refine ⟨fun hclear hroom => faults_of_body hexec h ?_, fun hheld => ?_⟩
  · rw [hframe, hclear, hroom]
    rfl
  · have hact : tileFrame f store body e s = .hold := by
      rw [hframe, if_pos]
      rcases hheld with hno | hno <;> simp [hno]
    rw [Holds, hexec, issue_ready h, hact]

end Tile

/-- The pieces of line `r` of a VLDG. -/
def gathered (f : FVM) (t : Task) (w c act r : Nat) : List Piece :=
  if lineActive c act r = 0 then [] else withAlign (elemAligned w (FVM.rowAddr f t r)) (FVM.rowAddr f t r)
    (readPieces (FVM.rowAddr f t r).toNat ((lineActive c act r * w + 7) / 8))

/-- What line `r` of a VLDG fills, from its pieces behind those of the lines before it (R209). -/
def gatherRun (f : FVM) (t : Task) (w c act r : Nat) : Run :=
  ⟨t.lineKey f.vd.toNat r, 0, 8 * (FVM.rowAddr f t r).toNat, lineActive c act r * w,
    zeroBits f w c (lineActive c act r), ((List.range r).map fun j => (gathered f t w c act j).length).sum,
    (gathered f t w c act r).length⟩

/-- VLDG by its lines, one by one. -/
theorem exec_vldg (f : FVM) (s : State) :
    exec (.vldg f) s = issue f.st.toNat 8 [.x f.xa f.fea, .v (f.xb.toNat % 32) 1 f.feb] [.v f.vd.toNat f.g.toNat]
      (tileFrame f false fun e w c lines act s =>
        tileLoad f e ((List.range lines).map (gathered f e.task w c act)).flatten
          ((List.range lines).map (gatherRun f e.task w c act)) true s) s := by
  change execVldg f s = _
  unfold execVldg
  congr 2
  funext e w c lines act s
  dsimp only
  rw [List.map_map, List.map_map]
  congr 1
  refine List.map_congr_left fun r hr => ?_
  rw [Function.comp_apply, ← List.map_take, List.take_range, Nat.min_eq_left (List.mem_range.mp hr).le, List.map_map]
  rfl

end Sys2Proof.Proofs

/-! SQLD: places in the scale queue, a command, and reads in the load queue (R213, R214, R355). -/

namespace Sys2Proof.Proofs

open Sys2Proof.Machine Sys2Proof.Laws

/-! ## TLBs of one core and its cluster -/

/-- `b` is the state `s` but for what the TLBs of core `c` and of its cluster hold. -/
structure OwnTlbs (c : Nat) (s b : State) : Prop where
  tlbs : TlbsOnly s b
  cores : ∀ q, q ≠ c → b.core q = s.core q
  clusters : ∀ q, q ≠ clusterOf c → b.cluster q = s.cluster q

namespace OwnTlbs

theorem refl (c : Nat) (s : State) : OwnTlbs c s s := ⟨tlbsOnly_refl s, fun _ _ => rfl, fun _ _ => rfl⟩

theorem trans {c : Nat} {s b z : State} (h : OwnTlbs c s b) (h' : OwnTlbs c b z) : OwnTlbs c s z where
  tlbs := tlbsOnly_trans h.tlbs h'.tlbs
  cores q hq := (h'.cores q hq).trans (h.cores q hq)
  clusters q hq := (h'.clusters q hq).trans (h.clusters q hq)

end OwnTlbs

theorem ownTlbs_fillTlbs (s : State) (w : Who) (va : Nat) (leaf : BitVec 64) (big : Bool) :
    OwnTlbs w.core s (s.fillTlbs w va leaf big) where
  tlbs := tlbsOnly_fillTlbs ..
  cores q hq := by rw [State.fillTlbs, modCluster_def, core_setCluster, modCore_def, core_setCore, if_neg hq]
  clusters q hq := by rw [State.fillTlbs, modCluster_def, cluster_setCluster, if_neg hq, modCore_def, cluster_setCore]

theorem ownTlbs_fillMiss (s : State) (w : Who) (p : Path) (write : Bool) (va : Nat) :
    OwnTlbs w.core s (s.fillMiss w p write va) := by
  unfold State.fillMiss
  split
  · exact .refl ..
  · split
    · exact .refl ..
    · exact ownTlbs_fillTlbs ..

theorem ownTlbs_fillUnits (s : State) (w : Who) (p : Path) (write : Bool) (us : List (Nat × Nat)) :
    OwnTlbs w.core s (s.fillUnits w p write us) := by
  unfold State.fillUnits
  generalize pagesOf us = pages
  induction pages generalizing s with
  | nil => exact .refl ..
  | cons page pages ih => exact (ownTlbs_fillMiss ..).trans (ih _)

/-! ## SQLD (R213, R214) -/

theorem sameHolds_of_tlbsOnly {s b : State} (h : TlbsOnly s b) {u : Nat} {g : Team → Team}
    (hg : ∀ m, (g m).core = m.core) : SameHolds s (b.modTeam u g) where
  openCmds := by rw [modTeam_openCmds, h.1]
  ports := by rw [modTeam_ports, h.1]
  loads c := by rw [core_modTeam, h.2.1]
  stores c := by rw [core_modTeam, h.2.1]
  cmds c := by rw [core_modTeam, h.2.1]
  sb c := by rw [core_modTeam, h.2.1]
  teams v := by
    rw [tabFind_modTeam, tlbsOnly_teams h]
    split_ifs with hv
    · rw [hv, Option.map_map]
      exact congrArg (Option.map · _) (funext hg)
    · rfl

/-- What opens the scale queue to a command does so in any state that agrees in what may hold one. -/
theorem SameHolds.cmdOpen_scale {s t : State} (h : SameHolds s t) {e : Env} {after : Bool} {n : Nat}
    (hopen : CmdOpen s e .scale after n) : CmdOpen t e .scale after n := by
  obtain ⟨hclear, htr, -, hsb⟩ := hopen
  have hdeps : t.depsDone = s.depsDone := by
    funext ds
    simp only [State.depsDone, funext h.depDone]
  refine ⟨?_, fun ha => ?_, rfl, by rwa [h.sb]⟩
  · rw [← hclear]
    simp only [State.memClear, hdeps, h.loads]
  · rw [← htr ha]
    simp only [State.translated, h.loads, h.stores]

/-- The acceptance of a command without ranges that its instruction completes by `make`. -/
theorem cmdAct_make {s : State} {e : Env} {i : Instr} {bytes : Nat} {f : FE2} {q : Queue} {x : W64 × W64 × W64}
    {make : Cmd → Cmd} {deps : List Dep} (h : CmdOpen s e q true 0)
    (htok : e.task.consume (FE2.cts f) = some deps) :
    cmdAct e bytes i f q x true none false [] (fun t => t) make s =
      let b := commandIn s e (make (plainCommand s e i f q x deps)) []
      .done (b.commit e ((e.task.produce b f [.cmd s.nextId]).advance bytes)) := by
  rw [cmdAct, cmdHeld_of_cmdOpen (sb := []) h, if_neg Bool.false_ne_true, htok]
  simp only [commandIn, plainCommand, newCmd_fresh, depOver_fresh, fresh_name]
  rfl

/-- An instruction that has changed its team to `m` before its task is put back. -/
theorem onlyTeam_commit {z b : State} {e : Env} {m : Team} (hb : b = { z with teams := b.teams })
    (hteams : ∀ u, tabFind b.teams u = if u = e.uid then some m else tabFind z.teams u) (k : Task) :
    OnlyTeam z (b.commit e k) e { m with task := some { k with held := false, issued := b.ticks } } := by
  rw [State.commit, setTask_eq ((hteams e.uid).trans (if_pos rfl))]
  refine ⟨?_, fun u => ?_⟩
  · rw [hb]
    rfl
  · change tabFind (tabPut b.teams e.uid _) u = _
    rw [tabFind_tabPut, hteams]
    split_ifs <;> rfl

/-- The bytes of an SQLD. -/
def sqldBytes (f : FE3) (t : Task) : Nat := (t.getX f.xb).toNat * (f.imm.toNat % 4096)

/-- The reads of an SQLD with their places (R213). -/
def sqldPlaced (s : State) (e : Env) (f : FE3) : List Piece × Option (Nat × Nat) :=
  s.placeAll e.who .plain
    (sqldPieces (e.task.getX f.e.xa) (e.task.getX f.xc) (f.imm.toNat % 4096) (min (e.task.getX f.xb).toNat 2048) 0)

/-- The state in which the pages of an SQLD have been walked and its places in the scale queue are reserved. -/
def sqldReserved (s : State) (e : Env) (f : FE3) : State :=
  (s.fillUnits e.who .plain false ((sqldPlaced s e f).1.map fun p => (p.va.toNat, p.len))).modTeam e.uid fun t =>
    { t with sqPend := t.sqPend ++ [(s.nextId, sqldBytes f e.task)] }

/-- The command of an SQLD. -/
def sqldCmd (b : State) (e : Env) (f : FE3) (deps : List Dep) : Cmd :=
  { plainCommand b e (.sqld f) f.e .scale (e.task.getX f.e.xa, 0, e.task.getX f.xc) deps with
    chunk := sqldBytes f e.task }

/-- The entry of the load queue that an SQLD's reads make. -/
def sqldEntry (e : Env) (id : Nat) (ps : List Piece) : Access where
  id := id; team := e.uid; ctx := e.team.ctx; seq := e.task.seq; pc := e.task.pc; kind := .scales
  entries := 0; xlate := false; pieces := ps; dst := .none
  rel := none; acq := false; inOrder := false; grain := 1; cmd := id

/-- The state in which an SQLD stands as a command. -/
def sqldCommandIn (s : State) (e : Env) (f : FE3) (deps : List Dep) : State :=
  commandIn (sqldReserved s e f) e (sqldCmd (sqldReserved s e f) e f deps) []

/-- The state that an accepted SQLD leaves: its reads are in the load queue too. -/
def sqldAccepted (s : State) (e : Env) (f : FE3) (deps : List Dep) : State :=
  let b := sqldCommandIn s e f deps
  (b.commit e ((e.task.produce b f.e [.cmd (sqldReserved s e f).nextId]).advance 12)).modCore e.core fun k =>
    { k with loads := k.loads ++ [sqldEntry e s.nextId (sqldPlaced s e f).1] }

section Sqld
variable {s : State} {e : Env} {f : FE3} {deps : List Dep}

theorem sameHolds_sqldReserved : SameHolds s (sqldReserved s e f) := by
  rw [sqldReserved]
  exact sameHolds_of_tlbsOnly (ownTlbs_fillUnits s e.who ..).tlbs fun _ => rfl

section Issue
variable (h : CanIssue s e f.e.st.toNat [FE3.srcA f, FE3.srcB f, FE3.srcC f] [])
include h

theorem sqld_range (htok : e.task.consume (FE2.cts f.e) = some deps) (hmany : 2048 < sqldBytes f e.task)
    (hclear : s.cmdClear e = true) : Faults (.sqld f) s e cRange (e.task.getX f.e.xa) := by
  refine ⟨false, false, false, ?_⟩
  change execSqld f s = _
  unfold sqldBytes at hmany
  have hfit : ¬ (e.task.getX f.xb).toNat * (f.imm.toNat % 4096) ≤ 2048 := not_le.mpr hmany
  rw [execSqld, issue_ready h]
  simp only [hclear, htok, hfit, hmany, false_and, decide_false, Bool.not_true, Bool.or_self, Bool.false_eq_true,
    if_false, if_true]
  rfl

theorem sqld_held (hfit : sqldBytes f e.task ≤ 2048) (hfull : 2048 < s.scalesHeld e.core + sqldBytes f e.task) :
    Holds (.sqld f) s e := by
  change execSqld f s = _
  unfold sqldBytes at hfit hfull
  rw [execSqld, issue_ready h]
  simp only [hfit, hfull, and_self, decide_true, Bool.or_true, if_true]

theorem exec_sqld (htok : e.task.consume (FE2.cts f.e) = some deps) (hfit : sqldBytes f e.task ≤ 2048)
    (hopen : CmdOpen s e .scale true 0) (hgood : (sqldPlaced s e f).2 = none)
    (hroom : s.scalesHeld e.core + sqldBytes f e.task ≤ 2048) :
    exec (.sqld f) s = .next (sqldAccepted s e f deps) := by
  have hres := sameHolds_sqldReserved.cmdOpen_scale (t := sqldReserved s e f) hopen
  have hact := cmdAct_make (i := .sqld f) (bytes := 12) (x := (e.task.getX f.e.xa, 0, e.task.getX f.xc))
    (make := fun c => { c with chunk := sqldBytes f e.task }) hres htok
  have hclear : s.cmdClear e = true := by rw [State.cmdClear, hopen.1, hopen.2.1 rfl, Bool.and_true]
  have hhold : ¬ (sqldBytes f e.task ≤ 2048 ∧ 2048 < s.scalesHeld e.core + sqldBytes f e.task) := by omega
  have hmany : ¬ 2048 < sqldBytes f e.task := by omega
  change execSqld f s = _
  unfold sqldReserved sqldPlaced sqldBytes at *
  rw [execSqld, issue_ready h]
  simp only [hclear, hhold, hmany, htok, hgood, hact, decide_false, Bool.not_true, Bool.or_self, Bool.false_eq_true,
    if_false]
  rfl

end Issue

/-! ### What an accepted SQLD leaves -/

theorem sqldReserved_eq : sqldReserved s e f = { s with
    cores := (sqldReserved s e f).cores, clusters := (sqldReserved s e f).clusters
    teams := (sqldReserved s e f).teams } := by
  rw [sqldReserved, modTeam_eq, (ownTlbs_fillUnits s e.who ..).tlbs.1]

theorem nextId_sqldReserved : (sqldReserved s e f).nextId = s.nextId := by rw [sqldReserved_eq]

theorem tabFind_sqldReserved (he : s.issuer = some e) (u : Nat) : tabFind (sqldReserved s e f).teams u =
    if u = e.uid then some { e.team with sqPend := e.team.sqPend ++ [(s.nextId, sqldBytes f e.task)] }
    else tabFind s.teams u := by
  rw [sqldReserved, tabFind_modTeam, tlbsOnly_teams (ownTlbs_fillUnits s e.who ..).tlbs, (issuer_team he).1]
  rfl

theorem core_sqldReserved_of_ne {q : Nat} (hq : q ≠ e.core) : (sqldReserved s e f).core q = s.core q := by
  rw [sqldReserved, core_modTeam]
  exact (ownTlbs_fillUnits s e.who ..).cores q hq

theorem core_sqldReserved (q : Nat) : (sqldReserved s e f).core q =
    { s.core q with tlb := ((sqldReserved s e f).core q).tlb } := by
  rw [sqldReserved, core_modTeam]
  exact (ownTlbs_fillUnits s e.who ..).tlbs.2.1 q

theorem cluster_sqldReserved_of_ne {q : Nat} (hq : q ≠ clusterOf e.core) :
    (sqldReserved s e f).cluster q = s.cluster q := by
  rw [sqldReserved, cluster_modTeam]
  exact (ownTlbs_fillUnits s e.who ..).clusters q hq

theorem cluster_sqldReserved (q : Nat) : (sqldReserved s e f).cluster q =
    { s.cluster q with tlb := ((sqldReserved s e f).cluster q).tlb } := by
  rw [sqldReserved, cluster_modTeam]
  exact (ownTlbs_fillUnits s e.who ..).tlbs.2.2 q

theorem core_sqldAccepted (q : Nat) : (sqldAccepted s e f deps).core q = if q = e.core then
    { (sqldReserved s e f).core q with
      cmds := (s.core q).cmds ++ [sqldCmd (sqldReserved s e f) e f deps]
      loads := (s.core q).loads ++ [sqldEntry e s.nextId (sqldPlaced s e f).1] } else s.core q := by
  have hcommit (k : Task) (q : Nat) : ((sqldCommandIn s e f deps).commit e k).core q =
      if q = e.core then withCmd e (sqldCmd (sqldReserved s e f) e f deps) [] ((sqldReserved s e f).core q)
      else (sqldReserved s e f).core q := by
    rw [core_congr (commit_cores ..), sqldCommandIn, core_commandIn _ [] rfl]
  rw [sqldAccepted, modCore_def, core_setCore]
  split_ifs with hq
  · rw [hq, hcommit, if_pos rfl, withCmd, core_sqldReserved, List.map_nil, List.append_nil]
  · rw [hcommit, if_neg hq, core_sqldReserved_of_ne hq]

theorem sqldCommandIn_eq : sqldCommandIn s e f deps = { s with
    cores := (sqldCommandIn s e f deps).cores, clusters := (sqldReserved s e f).clusters
    teams := (sqldReserved s e f).teams, openCmds := s.openCmds ++ [s.nextId]
    reqs := (sqldCommandIn s e f deps).reqs, nextId := (sqldCommandIn s e f deps).nextId } := by
  have hopen : (sqldReserved s e f).openCmds = s.openCmds := by rw [sqldReserved_eq]
  rw [sqldCommandIn, commandIn_eq, hopen, sqldReserved_eq]
  rfl

theorem sqldAccepted_eq : sqldAccepted s e f deps = { sqldCommandIn s e f deps with
    cores := (sqldAccepted s e f deps).cores, teams := (sqldAccepted s e f deps).teams, focus := none } := by
  have hcommit (b : State) (k : Task) : b.commit e k = { b with teams := (b.commit e k).teams, focus := none } := by
    rw [State.commit, State.setTask, modTeam_eq]
  unfold sqldAccepted
  dsimp only
  rw [hcommit]
  rfl

theorem clusters_sqldAccepted : (sqldAccepted s e f deps).clusters = (sqldReserved s e f).clusters := by
  rw [sqldAccepted_eq, sqldCommandIn_eq]

theorem reqs_sqldAccepted : (sqldAccepted s e f deps).reqs = (sqldCommandIn s e f deps).reqs := by
  rw [sqldAccepted_eq]

theorem nextId_sqldAccepted : (sqldAccepted s e f deps).nextId = (sqldCommandIn s e f deps).nextId := by
  rw [sqldAccepted_eq]

theorem cluster_sqldAccepted (q : Nat) : (sqldAccepted s e f deps).cluster q = (sqldReserved s e f).cluster q := by
  rw [State.cluster, clusters_sqldAccepted, State.cluster]

theorem onlyTeam_sqldAccepted (he : s.issuer = some e) : ∃ k, k = { e.task with
      tok := k.tok, pc := e.task.pc + 12, held := k.held, issued := k.issued } ∧
    OnlyTeam { s with
      cores := (sqldAccepted s e f deps).cores, clusters := (sqldAccepted s e f deps).clusters
      openCmds := s.openCmds ++ [s.nextId], reqs := (sqldAccepted s e f deps).reqs
      nextId := (sqldAccepted s e f deps).nextId } (sqldAccepted s e f deps) e
      { e.team with task := some k, sqPend := e.team.sqPend ++ [(s.nextId, sqldBytes f e.task)] } := by
  let z : State := { s with
    clusters := (sqldReserved s e f).clusters, openCmds := s.openCmds ++ [s.nextId]
    reqs := (sqldCommandIn s e f deps).reqs, nextId := (sqldCommandIn s e f deps).nextId }
  have hteams : (sqldCommandIn s e f deps).teams = (sqldReserved s e f).teams := by rw [sqldCommandIn_eq]
  have hstate : sqldCommandIn s e f deps = { z with
      cores := (sqldCommandIn s e f deps).cores, teams := (sqldCommandIn s e f deps).teams } := by
    rw [hteams]
    exact sqldCommandIn_eq
  have honly (k : Task) := onlyTeam_commit (z := { z with cores := (sqldCommandIn s e f deps).cores })
    hstate (fun u => (congrArg (tabFind · u) hteams).trans (tabFind_sqldReserved he u)) k
  rw [clusters_sqldAccepted, reqs_sqldAccepted, nextId_sqldAccepted]
  refine ⟨_, ?_, onlyTeam_cores (s := z) (honly _) rfl⟩
  rw [produce_eq]
  rfl

end Sqld

/-- Settles O17: each tile instruction is an access of the tile's pieces in its frame, and SQLD a command whose reads
are in the load queue. -/
theorem tileAccess : Obligations.tileAccess := by
  unfold Obligations.tileAccess
  refine ⟨?_, ?_⟩
  · intro s e f k w c g lines act n a at' vb vd fits shape rel ok zero load store all one got put vld vldb vldg vst vstx
    refine ⟨fun h => ⟨fun hfit => ?_, fun hfit => ?_, fun hmis => ?_, fun hmis => ?_⟩,
      fun h => ⟨fun hfit => ?_, fun hmis => ?_⟩, fun h => ⟨fun hfit => ?_, fun hmis => ?_⟩,
      fun h => ⟨fun hfit => ?_, fun hmis => ?_⟩⟩
    · exact enters_tile (i := .vld f) rfl h hfit rfl fun _ => rfl
    · exact enters_tile (i := .vldb f) rfl h hfit rfl fun _ => rfl
    · exact tile_misfit (i := .vld f) rfl h hmis
    · exact tile_misfit (i := .vldb f) rfl h hmis
    · exact enters_tile (exec_vldg f s) h hfit rfl fun _ => rfl
    · exact tile_misfit (exec_vldg f s) h hmis
    · exact enters_tile (i := .vst f) rfl h hfit rfl nofun
    · exact tile_misfit (i := .vst f) rfl h hmis
    · exact enters_tile (i := .vstx f) rfl h hfit rfl nofun
    · exact tile_misfit (i := .vstx f) rfl h hmis
  · intro s e f deps h htok a rows per stride ps
    refine ⟨sqld_range h htok, sqld_held h, fun hfit hopen hgood hroom => ?_⟩
    obtain ⟨k, hk, honly⟩ := onlyTeam_sqldAccepted (f := f) (deps := deps) h.1
    have hself := (core_sqldAccepted (s := s) (f := f) (deps := deps) e.core).trans (if_pos rfl)
    refine ⟨sqldAccepted s e f deps, sqldCmd (sqldReserved s e f) e f deps,
      sqldEntry e s.nextId (sqldPlaced s e f).1, k, exec_sqld h htok hfit hopen hgood hroom, by rw [hself],
      by rw [hself], rfl, nextId_sqldReserved, rfl, rfl, rfl, rfl, rfl, fun q hq => ?_, fun q hq => ?_, ?_, hk, honly⟩
    · rw [core_sqldAccepted, if_neg hq]
    · rw [cluster_sqldAccepted, cluster_sqldReserved_of_ne hq]
    · rw [cluster_sqldAccepted]
      exact cluster_sqldReserved _

end Sys2Proof.Proofs

/-! Table walks that complete (R34, R205, R212, R250, R355, R356, R365, R366). -/

namespace Sys2Proof.Proofs

open Sys2Proof.Machine Sys2Proof.Laws

/-! ## TLBs that a walk fills (R355) -/

section Fill
variable (s : State) (w : Who) (va : Nat) (leaf : BitVec 64) (big : Bool)

/-- The TLB entry of a walk that has ended at a leaf. -/
def leafEntry : TlbEntry := ⟨w.ctx, if big then va / 2 ^ 29 else va / 2 ^ 16, big, leaf⟩

theorem tlbHit_tlbFill (cap victim : Nat) (t : List TlbEntry) :
    tlbHit (tlbFill cap victim t (leafEntry w va leaf big)) w.ctx va = some (leafEntry w va leaf big) := by
  unfold tlbFill
  dsimp only
  split_ifs <;> exact List.find?_cons_of_pos (by simp [leafEntry])

theorem tlbHit_core_fillTlbs (c : Nat) : tlbHit ((s.fillTlbs w va leaf big).core c).tlb w.ctx va =
    if c = w.core then some (leafEntry w va leaf big) else tlbHit (s.core c).tlb w.ctx va := by
  rw [State.fillTlbs, modCluster_def, core_setCluster, modCore_def, core_setCore]
  by_cases hc : c = w.core
  · rw [if_pos hc, if_pos hc]
    exact tlbHit_tlbFill ..
  · rw [if_neg hc, if_neg hc]

theorem tlbHit_cluster_fillTlbs (c : Nat) : tlbHit ((s.fillTlbs w va leaf big).cluster c).tlb w.ctx va =
    if c = clusterOf w.core then some (leafEntry w va leaf big) else tlbHit (s.cluster c).tlb w.ctx va := by
  rw [State.fillTlbs, modCluster_def, cluster_setCluster, modCore_def, cluster_setCore]
  by_cases hc : c = clusterOf w.core
  · rw [if_pos hc, if_pos hc]
    exact tlbHit_tlbFill ..
  · rw [if_neg hc, if_neg hc, cluster_setCore]

end Fill

/-- Does an entry of a core wait for the page of `va` in the context of `w`? -/
def waitsFor (w : Who) (va : Nat) (k : Core) : Bool :=
  (k.loads ++ k.stores).any fun a => a.xlate && a.ctx == w.ctx && a.nextPage == some (va / 65536)

/-- What the walk of `w` fills for another core of its die. -/
def joinFill (w : Who) (va : Nat) (leaf : BitVec 64) (big : Bool) (t : State) (k : Nat × Core) : State :=
  if dieOf k.1 = dieOf w.core ∧ k.1 ≠ w.core ∧ waitsFor w va k.2 = true then
    t.fillTlbs { w with core := k.1 } va leaf big
  else t

theorem fillJoined_def (s : State) (w : Who) (va : Nat) (leaf : BitVec 64) (big : Bool) :
    s.fillJoined w va leaf big = s.cores.foldl (joinFill w va leaf big) (s.fillTlbs w va leaf big) := rfl

section Join
variable (w : Who) (va : Nat) (leaf : BitVec 64) (big : Bool)

theorem tlbsOnly_joinFill (t : State) (k : Nat × Core) : TlbsOnly t (joinFill w va leaf big t k) := by
  unfold joinFill
  split_ifs
  · exact tlbsOnly_fillTlbs ..
  · exact tlbsOnly_refl t

/-- A core whose TLB hits keeps its hit. -/
theorem tlbHit_core_joinFill (t : State) (k : Nat × Core) {c : Nat}
    (h : tlbHit (t.core c).tlb w.ctx va = some (leafEntry w va leaf big)) :
    tlbHit ((joinFill w va leaf big t k).core c).tlb w.ctx va = some (leafEntry w va leaf big) := by
  unfold joinFill
  split_ifs
  · rw [tlbHit_core_fillTlbs t { w with core := k.1 }, h]
    exact ite_self _
  · exact h

theorem tlbHit_cluster_joinFill (t : State) (k : Nat × Core) {c : Nat}
    (h : tlbHit (t.cluster c).tlb w.ctx va = some (leafEntry w va leaf big)) :
    tlbHit ((joinFill w va leaf big t k).cluster c).tlb w.ctx va = some (leafEntry w va leaf big) := by
  unfold joinFill
  split_ifs
  · rw [tlbHit_cluster_fillTlbs t { w with core := k.1 }, h]
    exact ite_self _
  · exact h

theorem tlbsOnly_foldl_joinFill (l : List (Nat × Core)) (t : State) :
    TlbsOnly t (l.foldl (joinFill w va leaf big) t) := by
  induction l generalizing t with
  | nil => exact tlbsOnly_refl t
  | cons k l ih => exact tlbsOnly_trans (tlbsOnly_joinFill ..) (ih _)

theorem tlbHit_cluster_foldl_joinFill (l : List (Nat × Core)) (t : State) {c : Nat}
    (h : tlbHit (t.cluster c).tlb w.ctx va = some (leafEntry w va leaf big)) :
    tlbHit ((l.foldl (joinFill w va leaf big) t).cluster c).tlb w.ctx va = some (leafEntry w va leaf big) := by
  induction l generalizing t with
  | nil => exact h
  | cons k l ih => exact ih _ (tlbHit_cluster_joinFill w va leaf big t k h)

/-- The cores that hit before hit behind the walk, and so do those that have joined it. -/
theorem tlbHit_core_foldl_joinFill (l : List (Nat × Core)) (t : State) {c : Nat}
    (h : tlbHit (t.core c).tlb w.ctx va = some (leafEntry w va leaf big) ∨
      ∃ k, (c, k) ∈ l ∧ dieOf c = dieOf w.core ∧ c ≠ w.core ∧ waitsFor w va k = true) :
    tlbHit ((l.foldl (joinFill w va leaf big) t).core c).tlb w.ctx va = some (leafEntry w va leaf big) := by
  induction l generalizing t with
  | nil => exact h.resolve_right (by simp)
  | cons x l ih =>
    refine ih _ ?_
    rcases h with h | ⟨k, hk, hjoins⟩
    · exact .inl (tlbHit_core_joinFill w va leaf big t x h)
    · rcases List.mem_cons.mp hk with rfl | hk
      · refine .inl ?_
        rw [joinFill, if_pos hjoins, tlbHit_core_fillTlbs t { w with core := c }, if_pos rfl]
        rfl
      · exact .inr ⟨k, hk, hjoins⟩

theorem mem_cores_of_waits {s : State} {c : Nat} (h : waitsFor w va (s.core c) = true) : (c, s.core c) ∈ s.cores := by
  cases hfind : tabFind s.cores c with
  | none =>
    rw [State.core, tabGet_eq, hfind] at h
    cases h
  | some k =>
    rw [State.core, tabGet_eq, hfind]
    exact mem_of_tabFind hfind

theorem fills_fillJoined (s : State) : Machine.Fills s (s.fillJoined w va leaf big) w va leaf big := by
  have hself : tlbHit ((s.fillTlbs w va leaf big).core w.core).tlb w.ctx va = some (leafEntry w va leaf big) :=
    (tlbHit_core_fillTlbs ..).trans (if_pos rfl)
  have hcluster := (tlbHit_cluster_fillTlbs s w va leaf big (clusterOf w.core)).trans (if_pos rfl)
  rw [fillJoined_def]
  refine ⟨tlbsOnly_trans (tlbsOnly_fillTlbs ..) (tlbsOnly_foldl_joinFill ..),
    tlbHit_core_foldl_joinFill _ _ _ _ _ _ (.inl hself), tlbHit_cluster_foldl_joinFill _ _ _ _ _ _ hcluster,
    fun c a hdie ha hx hctx hpage => tlbHit_core_foldl_joinFill _ _ _ _ _ _ ?_⟩
  by_cases hc : c = w.core
  · exact .inl (hc ▸ hself)
  · have hwaits : waitsFor w va (s.core c) = true := List.any_eq_true.mpr ⟨a, ha, by simp [hx, hctx, hpage]⟩
    exact .inr ⟨_, mem_cores_of_waits w va hwaits, hdie, hc, hwaits⟩

end Join

/-! ## Older entries (R365, R366) -/

theorem tlbsOnly_loads {s b : State} (h : TlbsOnly s b) (c : Nat) : (b.core c).loads = (s.core c).loads := by
  rw [h.2.1]

/-- An older entry of a queue, other than a prefetch, still waits for its translation. -/
def Before (id : Nat) (q : List Access) : Prop :=
  ∃ b ∈ q, b.cmd = 0 ∧ b.id < id ∧ b.xlate = true ∧ b.kind ≠ .prefetch

/-- The same of an older entry of the team's. -/
def OlderOwn (team id : Nat) (q : List Access) : Prop :=
  ∃ b ∈ q, b.team = team ∧ b.cmd = 0 ∧ b.id < id ∧ b.xlate = true ∧ b.kind ≠ .prefetch

theorem any_olderIn_iff {q : List Access} {a : Access} (ha : a.kind ≠ .prefetch) :
    ((olderIn q a).any fun b => b.xlate && b.kind != .prefetch && a.kind != .prefetch) = true ↔ Before a.id q := by
  simp only [olderIn, Before, List.any_filter, List.any_eq_true, Bool.and_eq_true, beq_iff_eq, decide_eq_true_eq,
    bne_iff_ne, ne_eq, ha, not_false_eq_true, and_true, and_assoc]

theorem any_olderOf_iff {q : List Access} {a : Access} :
    ((olderOf q a).any fun b => b.xlate && b.kind != .prefetch) = true ↔ OlderOwn a.team a.id q := by
  simp only [olderOf, OlderOwn, List.any_filter, List.any_eq_true, Bool.and_eq_true, beq_iff_eq, decide_eq_true_eq,
    bne_iff_ne, ne_eq, and_assoc]

section FaultAccess
variable {b : State} {c : Nat} {a : Access} {va code : Nat}

/-- A fault waits behind the older entries of its task. -/
theorem faultAccess_waits (h : OlderOwn a.team a.id (b.core c).loads ∨ OlderOwn a.team a.id (b.core c).stores) :
    b.faultAccess c a va code = b := by
  rw [State.faultAccess, if_pos]
  rw [List.any_append, Bool.or_eq_true, any_olderOf_iff, any_olderOf_iff]
  exact h

theorem faultAccess_taken (hl : ¬ OlderOwn a.team a.id (b.core c).loads)
    (hs : ¬ OlderOwn a.team a.id (b.core c).stores) : b.faultAccess c a va code =
      (b.takeFault a.team a.pc ⟨code, w64 va, a.kind.writes, false, false⟩ a.id).getD b := by
  rw [State.faultAccess, if_neg]
  rw [List.any_append, Bool.or_eq_true, any_olderOf_iff, any_olderOf_iff]
  exact not_or.mpr ⟨hl, hs⟩

end FaultAccess

/-! ## Pieces that find their places (R205) -/

/-- An entry with its pieces as the TLBs place them. -/
def placedEntry (a : Access) (ps : List Piece) : Access :=
  { a with pieces := ps, xlate := ps.any fun p => p.loc.isNone }

/-- The state in which the entry `a` has replaced the one of its name. -/
def entryPut (b : State) (c : Nat) (a : Access) : State :=
  b.modCore c fun k => { k with loads := putAccess k.loads a, stores := putAccess k.stores a }

section Placed
variable {b : State} {c : Nat} {a : Access}

theorem entryPut_teams (b : State) (c : Nat) (a : Access) : (entryPut b c a).teams = b.teams := rfl

theorem core_entryPut : (entryPut b c a).core c =
    { b.core c with loads := putAccess (b.core c).loads a, stores := putAccess (b.core c).stores a } := by
  rw [entryPut, modCore_def, core_setCore, if_pos rfl]

theorem core_entryPut_of_ne {q : Nat} (hq : q ≠ c) : (entryPut b c a).core q = b.core q := by
  rw [entryPut, modCore_def, core_setCore, if_neg hq]

theorem placeAccess_fault {x : Nat × Nat}
    (h : let r := b.place ⟨c, a.team, a.ctx⟩ a.kind.path a.kind.writes a.pieces; faultFirst r.2.1 r.2.2 = some x) :
    b.placeAccess c a = b.faultAccess c a x.1 x.2 := by
  simp only [State.placeAccess, h]

theorem placeAccess_placed
    (h : let r := b.place ⟨c, a.team, a.ctx⟩ a.kind.path a.kind.writes a.pieces; faultFirst r.2.1 r.2.2 = none) :
    b.placeAccess c a = (entryPut b c (placedEntry a
      (b.place ⟨c, a.team, a.ctx⟩ a.kind.path a.kind.writes a.pieces).1)).settleEnding c a.team := by
  simp only [State.placeAccess, h]
  rfl

end Placed

/-! ## A task that waits for its translations alone (R34, R250) -/

section Settle
variable {s : State} {c u : Nat}

theorem settleEnding_other (h : ∀ m k n, tabFind s.teams u = some m → m.task = some k → k.hold ≠ .ending n) :
    s.settleEnding c u = s := by
  unfold State.settleEnding
  split
  · rfl
  · rename_i k hk
    obtain ⟨m, hm, hmk⟩ := Option.bind_eq_some_iff.mp hk
    split
    · rename_i n hn
      exact absurd hn (h m k n hm hmk)
    · rfl

theorem settleEnding_ending {m : Team} {k : Task} {n : Nat} (hm : tabFind s.teams u = some m) (hk : m.task = some k)
    (hn : k.hold = .ending n) : s.settleEnding c u =
      if s.translated c u then (s.setTask u { k with hold := .free }).endTask u else s := by
  have htask : (tabFind s.teams u).bind (·.task) = some k := by rw [hm, Option.bind_some, hk]
  unfold State.settleEnding
  rw [htask]
  dsimp only
  rw [hn]

end Settle

/-! ## A walk that ends -/

section Walk
variable {s : State} {c id : Nat} {a : Access} {p : Piece}
  (hfind : (((s.core c).loads ++ (s.core c).stores).find? fun a => a.id == id && a.xlate) = some a)
  (hmiss : a.nextMiss = some p) (hwalker : s.hasWalker c a = true)
include hfind

theorem id_of_waiting : a.id = id := by
  have h := List.find?_some hfind
  rw [Bool.and_eq_true, beq_iff_eq] at h
  exact h.1

/-- No entry of its queue is before one whose turn has come (R366). -/
theorem first_in_queue (hkind : a.kind ≠ .prefetch)
    (hstores : (∃ b ∈ (s.core c).stores, b.id = id) → ¬ Before id (s.core c).stores)
    (hloads : (∀ b ∈ (s.core c).stores, b.id ≠ id) → ¬ Before id (s.core c).loads) :
    ((olderIn (if (s.core c).stores.any fun b => b.id == id then (s.core c).stores
      else (s.core c).loads) a).any fun b => b.xlate && b.kind != .prefetch && a.kind != .prefetch) = false := by
  rw [Bool.eq_false_iff, Ne, any_olderIn_iff hkind, id_of_waiting hfind]
  by_cases hst : ∃ b ∈ (s.core c).stores, b.id = id
  · rw [if_pos (by simpa using hst)]
    exact hstores hst
  · have hst' : ∀ b ∈ (s.core c).stores, b.id ≠ id := by simpa using hst
    rw [if_neg (by simpa using hst')]
    exact hloads hst'

include hmiss hwalker

/-- A prefetch is looked up whatever waits before it (R212). -/
theorem exec_walk_prefetch (hkind : a.kind = .prefetch) :
    exec (.tlbWalkComplete c id (p.va.toNat / 65536)) s = .next (s.endPrefetch c a p) := by
  change execTlbWalkComplete c id (p.va.toNat / 65536) s = _
  unfold execTlbWalkComplete
  simp [hfind, hmiss, hwalker, hkind]

/-! ### An entry whose turn in its queue has come (R366) -/

section Turn
variable (hkind : a.kind ≠ .prefetch)
  (hstores : (∃ b ∈ (s.core c).stores, b.id = id) → ¬ Before id (s.core c).stores)
  (hloads : (∀ b ∈ (s.core c).stores, b.id ≠ id) → ¬ Before id (s.core c).loads)
include hkind hstores hloads

theorem exec_walk_leaf {e : BitVec 64} {big : Bool}
    (hleaf : s.walkFor ⟨c, a.team, a.ctx⟩ a.kind p = .ok (some (e, big))) :
    exec (.tlbWalkComplete c id (p.va.toNat / 65536)) s =
      .next ((s.fillJoined ⟨c, a.team, a.ctx⟩ p.va.toNat e big).placeAccess c a) := by
  have hfirst := first_in_queue hfind hkind hstores hloads
  change execTlbWalkComplete c id (p.va.toNat / 65536) s = _
  unfold execTlbWalkComplete
  simp only [hfind, hmiss, hwalker, hfirst, hkind, hleaf, ne_eq, not_true_eq_false, decide_false, Bool.not_true,
    Bool.or_self, Bool.false_eq_true, if_false]

theorem exec_walk_fault {code : Nat} (hfault : s.walkFor ⟨c, a.team, a.ctx⟩ a.kind p = .error code) :
    exec (.tlbWalkComplete c id (p.va.toNat / 65536)) s = .next (s.faultAccess c a p.va.toNat code) := by
  have hfirst := first_in_queue hfind hkind hstores hloads
  change execTlbWalkComplete c id (p.va.toNat / 65536) s = _
  unfold execTlbWalkComplete
  simp only [hfind, hmiss, hwalker, hfirst, hkind, hfault, ne_eq, not_true_eq_false, decide_false, Bool.not_true,
    Bool.or_self, Bool.false_eq_true, if_false]

end Turn

end Walk

section WalkFor
variable {s : State} {w : Who} {k : AccKind} {p : Piece}

theorem walkFor_hit (h : s.check w p.aligned p.va p.len k.path k.writes ≠ .miss) : s.walkFor w k p = .ok none := by
  unfold State.walkFor
  split
  · exact absurd ‹_› h
  · rfl

theorem walkFor_leaf {e : BitVec 64} {big : Bool}
    (h : s.check w p.aligned p.va p.len k.path k.writes = .miss)
    (hwalk : s.walk w p.va.toNat (if k.writes then .write else .read) = .ok (e, big)) :
    s.walkFor w k p = .ok (some (e, big)) := by
  simp only [State.walkFor, h, hwalk]

theorem walkFor_fault {code : Nat} (h : s.check w p.aligned p.va p.len k.path k.writes = .miss)
    (hwalk : s.walk w p.va.toNat (if k.writes then .write else .read) = .error code) :
    s.walkFor w k p = .error code := by
  simp only [State.walkFor, h, hwalk]

end WalkFor

/-! ## The end of a prefetch (R212) -/

section Prefetched
variable {s : State} {c : Nat} {a : Access} {p : Piece}

/-- The state in which the entry `a` has left its load queue. -/
def withoutEntry (s : State) (c : Nat) (a : Access) : State :=
  s.modCore c fun k => { k with loads := k.loads.filter fun b => b.id != a.id }

theorem core_withoutEntry (q : Nat) : (withoutEntry s c a).core q = if q = c then
    { s.core c with loads := (s.core c).loads.filter fun b => b.id != a.id } else s.core q := by
  rw [withoutEntry, modCore_def, core_setCore]

/-- Only the load queue of core `c` has changed: the entry of that name is gone. -/
def Drops (b t : State) (c id : Nat) : Prop :=
  t = { b with cores := t.cores } ∧ (∀ q, q ≠ c → t.core q = b.core q) ∧
    t.core c = { b.core c with loads := (b.core c).loads.filter fun b => b.id != id }

theorem drops_withoutEntry : Drops s (withoutEntry s c a) c a.id :=
  ⟨rfl, fun q hq => (core_withoutEntry q).trans (if_neg hq), (core_withoutEntry c).trans (if_pos rfl)⟩

theorem endPrefetch_fault {code : Nat} (h : s.walkFor ⟨c, a.team, a.ctx⟩ .prefetch p = .error code) :
    s.endPrefetch c a p = withoutEntry s c a := by
  simp only [State.endPrefetch, h]
  rfl

theorem endPrefetch_hit (h : s.walkFor ⟨c, a.team, a.ctx⟩ .prefetch p = .ok none) :
    s.endPrefetch c a p = (withoutEntry s c a).prefetchHit ⟨c, a.team, a.ctx⟩ p.va := by
  simp only [State.endPrefetch, h]
  rfl

section Leaf
variable {e : BitVec 64} {big : Bool} (h : s.walkFor ⟨c, a.team, a.ctx⟩ .prefetch p = .ok (some (e, big)))
include h

theorem endPrefetch_usable {l : Loc} {k : Nat}
    (huse : s.useLeaf ⟨c, a.team, a.ctx⟩ p.va.toNat e big .plain false = .ok l k) :
    s.endPrefetch c a p = (withoutEntry s c a).fillJoined ⟨c, a.team, a.ctx⟩ p.va.toNat e big := by
  simp only [State.endPrefetch, h, huse]
  rfl

theorem endPrefetch_useless (huse : ∀ l k, s.useLeaf ⟨c, a.team, a.ctx⟩ p.va.toNat e big .plain false ≠ .ok l k) :
    s.endPrefetch c a p = withoutEntry s c a := by
  cases hleaf : s.useLeaf ⟨c, a.team, a.ctx⟩ p.va.toNat e big .plain false with
  | ok l k => exact absurd hleaf (huse l k)
  | ver _ | bad _ | miss =>
    simp only [State.endPrefetch, h, hleaf]
    rfl

end Leaf

variable (s) in
theorem tlbsOnly_prefetchHit (w : Who) (va : W64) : TlbsOnly s (s.prefetchHit w va) := by
  unfold State.prefetchHit
  split
  · split
    · exact tlbsOnly_fillTlbs ..
    · exact tlbsOnly_refl s
  · split
    · exact tlbsOnly_fillTlbs ..
    · exact tlbsOnly_refl s
  · exact tlbsOnly_refl s

/-- A prefetch of a window address, or of one that a load could not use, does nothing. -/
theorem prefetchHit_useless {w : Who} {va : W64}
    (h : 2 ^ 54 ≤ va.toNat ∨ ∀ l m, s.look w va 1 .plain false ≠ .ok l m) : s.prefetchHit w va = s := by
  unfold State.prefetchHit
  rcases h with h | h
  · split
    · exact if_neg (not_lt.mpr h)
    · exact if_neg (not_lt.mpr h)
    · rfl
  · split
    · exact absurd ‹_› (h _ _)
    · exact absurd ‹_› (h _ _)
    · rfl

end Prefetched

/-- Settles O43: an entry whose turn has come by what its walk and then its places give, a prefetch by whether a load
could use its address. -/
theorem walks : Obligations.walks := by
  unfold Obligations.walks
  intro s c id a p hfind hmiss hwalker va w
  have hid := id_of_waiting hfind
  subst hid
  have hprefetch := exec_walk_prefetch hfind hmiss hwalker
  refine ⟨?_, fun hkind hcheck => ?_⟩
  · intro hcheck before older walk step faults
    have hfaults : ∀ b code at', TlbsOnly s b → step = .next (b.faultAccess c a at' code) → faults b code at' := by
      intro b code at' htlbs hstep
      have hloads := tlbsOnly_loads htlbs c
      have hstores := tlbsOnly_stores htlbs c
      refine ⟨fun h => ?_, fun hl hs => ?_⟩
      · rw [hstep, faultAccess_waits (by rw [hloads, hstores]; exact h)]
      · rw [hstep, faultAccess_taken (by rw [hloads]; exact hl) (by rw [hstores]; exact hs)]
    refine ⟨fun hkind hst hld => ?_, ?_⟩
    · refine ⟨fun e big hw => ⟨s.fillJoined w va e big, fills_fillJoined .., ?_⟩, fun f hw => ?_⟩
      · have hfills := fills_fillJoined w va e big s
        have hstep : step = .next ((s.fillJoined w va e big).placeAccess c a) :=
          exec_walk_leaf hfind hmiss hwalker hkind hst hld (walkFor_leaf hcheck hw)
        intro r
        refine ⟨fun hplaced => ?_, fun x hx => hfaults _ _ _ hfills.1 (by rw [hstep, placeAccess_fault hx])⟩
        have hteams : (entryPut (s.fillJoined w va e big) c (placedEntry a r.1)).teams = s.teams :=
          (entryPut_teams ..).trans (tlbsOnly_teams hfills.1)
        rw [placeAccess_placed hplaced] at hstep
        refine ⟨entryPut (s.fillJoined w va e big) c (placedEntry a r.1), rfl, fun q hq => core_entryPut_of_ne hq, ?_,
          fun hno => ?_, fun m k n hm hk hn => ?_⟩
        · rw [← tlbsOnly_loads hfills.1, ← tlbsOnly_stores hfills.1]
          exact core_entryPut
        · rw [hstep, settleEnding_other (by rwa [hteams])]
        · rw [hstep, settleEnding_ending (by rwa [hteams]) hk hn]
      · exact hfaults s f va (tlbsOnly_refl s)
          (exec_walk_fault hfind hmiss hwalker hkind hst hld (walkFor_fault hcheck hw))
    · intro hkind drop
      have hlook : s.walkFor w .prefetch p = s.walkFor w a.kind p := by rw [hkind]
      have hstep : step = .next (s.endPrefetch c a p) := hprefetch hkind
      refine ⟨fun e big l k hw huse => ?_, fun huse => ?_⟩
      · rw [endPrefetch_usable (hlook.trans (walkFor_leaf hcheck hw)) huse] at hstep
        exact ⟨_, _, hstep, drops_withoutEntry, fills_fillJoined ..⟩
      · refine ⟨withoutEntry s c a, ?_, drops_withoutEntry⟩
        cases hw : walk with
        | error f => rw [hstep, endPrefetch_fault (hlook.trans (walkFor_fault hcheck hw))]
        | ok r => rw [hstep, endPrefetch_useless (hlook.trans (walkFor_leaf hcheck hw)) (huse _ _ hw)]
  · have hlook : s.walkFor w .prefetch p = s.walkFor w a.kind p := by rw [hkind]
    have hstep := hprefetch hkind
    rw [endPrefetch_hit (hlook.trans (walkFor_hit hcheck))] at hstep
    obtain ⟨hstate, hcores, hclusters⟩ := tlbsOnly_prefetchHit (withoutEntry s c a) w p.va
    obtain ⟨hdrop, hothers, hself⟩ := drops_withoutEntry (s := s) (c := c) (a := a)
    exact ⟨withoutEntry s c a, _, hdrop, hothers, hself, hstep, hstate, hcores, hclusters, prefetchHit_useless⟩

end Sys2Proof.Proofs

/-! Canonical form of memory and key tags (O30): the invariant as a predicate on what an operation gives, and the rules
for tests, options and folds.  Each definition of the model that gives a state has one lemma here, named `keeps_` after
it (`keepsOpt_`, `keepsAct_`, `keepsOut_` where it gives an option, an act or an outcome); the parts below follow the
model's files. -/

namespace Sys2Proof.Proofs

open Sys2Proof.Machine Sys2Proof.Laws

/-- Memory `m` and the key tags `t` stand in canonical form. -/
def Canon (m : List Host.Cell) (t : Tab Nat) : Prop := Memory.wf m = true ∧ tabSorted t = true

/-- A state written out field by field. -/
@[simp] theorem inv_mk {mem tags dies clusters cores teams ctxs semChains barChains barriers verChains pwait reqs vreqs net
    openCmds sections images packs ctxbase qdone mkeys scrubs exports apctl hwbase aperr lanes linkUp
    staged winStatus plimit duty mclog mcNext corrected doomed downMask ports pkg lostPkgs lostDies
    refusedRefs fullNos agenda focus nextId ticks outbox} :
    (State.mk mem tags dies clusters cores teams ctxs semChains barChains barriers verChains pwait reqs
      vreqs net openCmds sections images packs ctxbase qdone mkeys scrubs exports apctl hwbase aperr lanes
      linkUp staged winStatus plimit duty mclog mcNext corrected doomed downMask ports pkg lostPkgs
      lostDies refusedRefs fullNos agenda focus nextId ticks outbox).Inv ↔ Canon mem tags := Iff.rfl

@[simp] theorem canon_state (s : State) : Canon s.mem s.tags ↔ s.Inv := Iff.rfl

/-- Memory and tags are canonical in the state, if any, that an operation gives. -/
def InvOpt (o : Option State) : Prop := ∀ t, o = some t → t.Inv

/-- The same of what an instruction's body asks for. -/
def InvAct (a : Act) : Prop := ∀ t, a = .done t → t.Inv

/-- The same of the outcome of a step. -/
def InvOut (o : Host.Outcome State Fault Refusal) : Prop := ∀ t, o = .next t → t.Inv

/-! ## Tables that lose entries -/

theorem tabSorted_iff_pairwise {α : Type} (t : Tab α) : tabSorted t = true ↔ t.Pairwise fun a b => a.1 < b.1 := by
  induction t with
  | nil => simp [tabSorted]
  | cons e t ih => rw [tabSorted_cons, List.pairwise_cons, ih, Above]

theorem tabSorted_filter {α : Type} {t : Tab α} (p : Nat × α → Bool) (h : tabSorted t = true) :
    tabSorted (t.filter p) = true :=
  (tabSorted_iff_pairwise _).mpr (((tabSorted_iff_pairwise _).mp h).filter p)

theorem tabSorted_map {α : Type} {t : Tab α} {f : Nat × α → Nat × α} (hf : ∀ x, (f x).1 = x.1)
    (h : tabSorted t = true) : tabSorted (t.map f) = true :=
  (tabSorted_iff_pairwise _).mpr (List.pairwise_map.mpr (((tabSorted_iff_pairwise _).mp h).imp fun hab => by
    rwa [hf, hf]))

theorem wf_filter {m : List Host.Cell} (p : Host.Cell → Bool) (h : Memory.wf m = true) :
    Memory.wf (m.filter p) = true := by
  obtain ⟨hs, hn⟩ := (wf_iff m).mp h
  exact (wf_iff _).mpr ⟨tabSorted_filter p hs, fun c hc => hn c (List.mem_of_mem_filter hc)⟩

section Outcomes
variable {c : Prop} [Decidable c] {s t : State}

@[simp] theorem keeps_ite (a b : State) : (if c then a else b).Inv ↔
    (c → a.Inv) ∧ (¬ c → b.Inv) := by
  split <;> simp [*]

theorem keeps_if {a b : State} (ha : a.Inv) (hb : b.Inv) :
    (if c then a else b).Inv := (keeps_ite a b).mpr ⟨fun _ => ha, fun _ => hb⟩

@[simp] theorem keepsOpt_none : InvOpt none := fun _ h => nomatch h

@[simp] theorem keepsOpt_some : InvOpt (some t) ↔ t.Inv :=
  ⟨fun h => h t rfl, fun h _ e => Option.some.inj e ▸ h⟩

@[simp] theorem keepsOpt_ite (a b : Option State) :
    InvOpt (if c then a else b) ↔ (c → InvOpt a) ∧ (¬ c → InvOpt b) := by
  split <;> simp [*]

@[simp] theorem keeps_getD {o : Option State} (ho : InvOpt o) (h : s.Inv) :
    (o.getD s).Inv := by
  cases o with
  | none => exact h
  | some t => exact ho t rfl

@[simp] theorem keepsOpt_bind {o : Option State} {f : State → Option State} (ho : InvOpt o)
    (hf : ∀ t, t.Inv → InvOpt (f t)) : InvOpt (o.bind f) := by
  cases o with
  | none => exact keepsOpt_none
  | some t => exact hf t (ho t rfl)

@[simp] theorem keepsOpt_map {o : Option State} {f : State → State} (ho : InvOpt o)
    (hf : ∀ t, t.Inv → (f t).Inv) : InvOpt (o.map f) := by
  cases o with
  | none => exact keepsOpt_none
  | some t => exact keepsOpt_some.mpr (hf t (ho t rfl))

@[simp] theorem keepsAct_done : InvAct (.done t) ↔ t.Inv :=
  ⟨fun h => h t rfl, fun h _ e => Act.done.inj e ▸ h⟩

@[simp] theorem keepsAct_hold : InvAct .hold := fun _ h => nomatch h

@[simp] theorem keepsAct_fault (r : Raise) : InvAct (.fault r) := fun _ h => nomatch h

@[simp] theorem keepsAct_ite (a b : Act) :
    InvAct (if c then a else b) ↔ (c → InvAct a) ∧ (¬ c → InvAct b) := by
  split <;> simp [*]

@[simp] theorem keepsOut_next : InvOut (.next t) ↔ t.Inv :=
  ⟨fun h => h t rfl, fun h _ e => Host.Outcome.next.inj e ▸ h⟩

@[simp] theorem keepsOut_fault (f : Fault) : InvOut (.fault f) := fun _ h => nomatch h

@[simp] theorem keepsOut_refused (r : Refusal) : InvOut (.refused r) := fun _ h => nomatch h

@[simp] theorem keepsOut_ite (a b : Host.Outcome State Fault Refusal) :
    InvOut (if c then a else b) ↔ (c → InvOut a) ∧ (¬ c → InvOut b) := by
  split <;> simp [*]

theorem keepsOut_if {a b : Host.Outcome State Fault Refusal} (ha : InvOut a) (hb : InvOut b) :
    InvOut (if c then a else b) := (keepsOut_ite a b).mpr ⟨fun _ => ha, fun _ => hb⟩

theorem keepsOpt_if {a b : Option State} (ha : InvOpt a) (hb : InvOpt b) : InvOpt (if c then a else b) :=
  (keepsOpt_ite a b).mpr ⟨fun _ => ha, fun _ => hb⟩

theorem keepsAct_if {a b : Act} (ha : InvAct a) (hb : InvAct b) : InvAct (if c then a else b) :=
  (keepsAct_ite a b).mpr ⟨fun _ => ha, fun _ => hb⟩

theorem keeps_foldl {β : Type} {g : State → β → State}
    (hg : ∀ s x, s.Inv → (g s x).Inv) (l : List β)
    (h : s.Inv) : (l.foldl g s).Inv :=
  fold_keeps (P := State.Inv) g hg l s h

@[simp] theorem fresh_eq (s : State) : s.fresh = (s.nextId, { s with nextId := s.nextId + 1 }) := rfl

theorem keeps_fresh {s : State} (h : s.Inv) : s.fresh.2.Inv := h

theorem keeps_outbox {s : State} {o : List Out} (h : s.Inv) :
    State.Inv { s with outbox := o } := h

theorem keeps_winStatus {s : State} {w : Tab W64} (h : s.Inv) : State.Inv { s with winStatus := w } := h

theorem keeps_images {s : State} {l : List Image} (h : s.Inv) : State.Inv { s with images := l } := h

theorem keeps_dies {s : State} {l : Tab Die} (h : s.Inv) : State.Inv { s with dies := l } := h

theorem keeps_ports {s : State} {l : Tab Port} {n : BitVec 8} (h : s.Inv) :
    State.Inv { s with ports := l, pkg := n } := h

theorem keeps_qdone {s : State} {n : BitVec 32} (h : s.Inv) : State.Inv { s with qdone := n } := h

theorem keeps_link {s : State} {b : Bool} {n : BitVec 4} (h : s.Inv) :
    State.Inv { s with linkUp := b, lanes := n } := h

end Outcomes

end Sys2Proof.Proofs

/-! Canonical form: the state's operations, issue, fetch and faults. -/

namespace Sys2Proof.Proofs

open Sys2Proof.Machine Sys2Proof.Laws

@[simp] theorem keeps_setCore {s : State} {c : Nat} {k : Core} (h : s.Inv) :
    (State.setCore s c k).Inv := by
  unfold State.setCore
  simp [h]

@[simp] theorem keeps_setDie {s : State} {d : Nat} {k : Die} (h : s.Inv) :
    (State.setDie s d k).Inv := by
  unfold State.setDie
  simp [h]

@[simp] theorem keeps_setCluster {s : State} {c : Nat} {k : Cluster} (h : s.Inv) :
    (State.setCluster s c k).Inv := by
  unfold State.setCluster
  simp [h]

@[simp] theorem keeps_setTeam {s : State} {u : Nat} {t : Team} (h : s.Inv) :
    (State.setTeam s u t).Inv := by
  unfold State.setTeam
  simp [h]

@[simp] theorem keeps_setCtx {s : State} {n : Nat} {c : Ctx} (h : s.Inv) :
    (State.setCtx s n c).Inv := by
  unfold State.setCtx
  simp [h]

@[simp] theorem keeps_modCore {s : State} {c : Nat} {f : Core → Core} (h : s.Inv) :
    (State.modCore s c f).Inv := by
  unfold State.modCore
  simp [h]

@[simp] theorem keeps_modDie {s : State} {d : Nat} {f : Die → Die} (h : s.Inv) :
    (State.modDie s d f).Inv := by
  unfold State.modDie
  simp [h]

@[simp] theorem keeps_modCluster {s : State} {c : Nat} {f : Cluster → Cluster} (h : s.Inv) :
    (State.modCluster s c f).Inv := by
  unfold State.modCluster
  simp [h]

@[simp] theorem keeps_modCtx {s : State} {n : Nat} {f : Ctx → Ctx} (h : s.Inv) :
    (State.modCtx s n f).Inv := by
  unfold State.modCtx
  simp [h]

@[simp] theorem keeps_modTeam {s : State} {u : Nat} {f : Team → Team} (h : s.Inv) :
    (State.modTeam s u f).Inv := by
  unfold State.modTeam
  split <;> simp [h]

@[simp] theorem keeps_setTask {s : State} {u : Nat} {t : Task} (h : s.Inv) :
    (State.setTask s u t).Inv := by
  unfold State.setTask
  simp [h]



@[simp] theorem keeps_setByte {s : State} {k : Nat} {b : BitVec 8} (h : s.Inv) :
    (s.setByte k b).Inv := inv_setByte s k b h

@[simp] theorem keeps_rekeyGranule {s : State} {mk k : Nat} (h : s.Inv) :
    (s.rekeyGranule mk k).Inv := inv_rekeyGranule s mk k h

@[simp] theorem keeps_writeBytes {s : State} {mk k : Nat} {bs : List (BitVec 8)} (h : s.Inv) :
    (s.writeBytes mk k bs).Inv := inv_writeBytes bs s mk k h

@[simp] theorem keeps_writeNat {s : State} {mk k n v : Nat} (h : s.Inv) :
    (s.writeNat mk k n v).Inv := inv_writeNat s mk k n v h

@[simp] theorem keeps_setCtxState {s : State} {ctx : Nat} {v : Nat} (h : s.Inv) :
    (State.setCtxState s ctx v).Inv := by
  unfold State.setCtxState
  simp [h]

@[simp] theorem keeps_fillTlbs {s : State} {w : Who} {va : Nat} {leaf : BitVec 64} {big : Bool} (h : s.Inv) :
    (State.fillTlbs s w va leaf big).Inv := by
  unfold State.fillTlbs
  simp [h]

@[simp] theorem keeps_fillMiss {s : State} {w : Who} {p : Path} {write : Bool} {va : Nat} (h : s.Inv) :
    (State.fillMiss s w p write va).Inv := by
  unfold State.fillMiss
  (repeat' split) <;> simp [h]

@[simp] theorem keeps_fillUnits {s : State} {w : Who} {p : Path} {write : Bool} {us : List (Nat × Nat)} (h : s.Inv) :
    (State.fillUnits s w p write us).Inv := by
  unfold State.fillUnits
  exact keeps_foldl (fun s x h => by simp [h]) _ h

@[simp] theorem keeps_agentWrite {s : State} {mk k : Nat} {bs : List (BitVec 8)} (h : s.Inv) :
    (s.agentWrite mk k bs).Inv := inv_agentWrite bs s mk k h

@[simp] theorem keeps_agentNat {s : State} {mk k n v : Nat} (h : s.Inv) :
    (s.agentNat mk k n v).Inv := inv_agentNat s mk k n v h

@[simp] theorem keeps_showRec {s : State} {uid id : Nat} (h : s.Inv) :
    (s.showRec uid id).Inv := inv_showRec s uid id h

@[simp] theorem keeps_fillRec {s : State} {core : Option Nat} {mk : Nat} {places : List Nat} {vals : List W64}
    (h : s.Inv) : (s.fillRec core mk places vals).Inv :=
  inv_fillRec s core mk places vals h

@[simp] theorem keeps_addRec {s : State} {uid : Nat} {r : Rec} (h : s.Inv) :
    (s.addRec uid r).Inv := inv_addRec s uid r h

@[simp] theorem keeps_modRec {s : State} {uid : Nat} {id : Nat} {f : Rec → Rec} (h : s.Inv) :
    (State.modRec s uid id f).Inv := by
  unfold State.modRec
  simp [h]

@[simp] theorem keeps_setVerChain {s : State} {key : Nat} {l : List Waiter} (h : s.Inv) :
    (s.setVerChain key l).Inv := inv_setVerChain s key l h

@[simp] theorem keeps_dropVerWaiters {s : State} {gone : Waiter → Bool} (h : s.Inv) :
    (State.dropVerWaiters s gone).Inv := by
  unfold State.dropVerWaiters
  exact keeps_foldl (fun s x h => by simp [h]) _ h

@[simp] theorem keeps_setPwait {s : State} {ctx : Nat} {n : Nat} {l : List Nat} (h : s.Inv) :
    (State.setPwait s ctx n l).Inv := by
  unfold State.setPwait
  dsimp only
  (repeat' split) <;> simp [h]

@[simp] theorem keeps_logCheck {s : State} {code : Nat} {die : Nat} {core : Nat} {ctx : Nat} {addr : Nat} (h : s.Inv) :
    (State.logCheck s code die core ctx addr).Inv := by
  unfold State.logCheck
  simp [h]

@[simp] theorem keeps_logFault {s : State} {uid : Nat} {core : Nat} {code : Nat} {addr : W64} (h : s.Inv) :
    (State.logFault s uid core code addr).Inv := by
  unfold State.logFault
  simp [h]

@[simp] theorem keeps_endTask {s : State} {uid : Nat} (h : s.Inv) :
    (State.endTask s uid).Inv := by
  unfold State.endTask
  (repeat' split) <;> simp [h]

@[simp] theorem keeps_dropYounger {s : State} {core : Nat} {uid : Nat} {bound : Nat} (h : s.Inv) :
    (State.dropYounger s core uid bound).Inv := by
  unfold State.dropYounger
  simp [h]

@[simp] theorem keeps_dropUnperformed {s : State} {core : Nat} {uid : Nat} (h : s.Inv) :
    (State.dropUnperformed s core uid).Inv := by
  unfold State.dropUnperformed
  simp [h]

@[simp] theorem keeps_startSystem {s : State} {die : Nat} {pc : W64} {regs : Tab W64} (h : s.Inv) :
    (State.startSystem s die pc regs).Inv := by
  unfold State.startSystem
  simp [h]

@[simp] theorem keeps_queueFault {s : State} {i : FaultInfo} (h : s.Inv) :
    (State.queueFault s i).Inv :=
  keeps_startSystem (keeps_modDie (keeps_agentWrite h))

@[simp] theorem keeps_settleLaunch {s : State} {ctx : Nat} {slot : Nat} (h : s.Inv) :
    (State.settleLaunch s ctx slot).Inv := by
  unfold State.settleLaunch
  (repeat' split) <;> simp [h]

@[simp] theorem keeps_dropSqlds {s : State} {ids : List Nat} (h : s.Inv) :
    (State.dropSqlds s ids).Inv := by
  unfold State.dropSqlds
  simp [h]

@[simp] theorem keeps_dropCmds {s : State} {core : Nat} {p : Cmd → Bool} (h : s.Inv) :
    (State.dropCmds s core p).Inv :=
  keeps_dropSqlds (keeps_modCore h)

@[simp] theorem keeps_killTeam {s : State} {uid : Nat} (h : s.Inv) :
    (State.killTeam s uid).Inv := by
  unfold State.killTeam
  split
  · exact h
  · refine keeps_modTeam (keeps_endTask (keeps_dropVerWaiters ?_))
    split <;> simp [h]

@[simp] theorem keeps_killLaunch {s : State} {ctx : Nat} {slot : Nat} (h : s.Inv) :
    (State.killLaunch s ctx slot).Inv :=
  keeps_settleLaunch (keeps_foldl (fun _ _ hs => keeps_killTeam hs) _ (keeps_modCtx h))

@[simp] theorem keepsOpt_passFault {s : State} {uid : Nat} {core : Nat} {code : Nat} {pc : W64} {addr : W64} {x4 : W64} {handler : Bool} {fd : Found} (h : s.Inv) :
    InvOpt (State.passFault s uid core code pc addr x4 handler fd) := by
  unfold State.passFault
  dsimp only
  (repeat' split) <;> simp [h]

@[simp] theorem keepsOpt_takeFault {s : State} {uid : Nat} {pc : W64} {f : Raise} {bound : Nat} (h : s.Inv) :
    InvOpt (State.takeFault s uid pc f bound) := by
  unfold State.takeFault
  split
  · exact keepsOpt_some.mpr h
  · split
    · have hended : ∀ {u c b}, ((s.dropYounger c u b).endTask u).Inv :=
        keeps_endTask (keeps_dropYounger h)
      dsimp only
      split_ifs
      · exact keepsOpt_some.mpr (keeps_logFault hended)
      · exact keepsOpt_none
      · refine keepsOpt_some.mpr (keeps_queueFault ?_)
        split
        · exact keeps_showRec (keeps_modTeam hended)
        · exact keeps_modTeam hended
      · exact keepsOpt_passFault hended
    · exact keepsOpt_some.mpr h

@[simp] theorem keeps_requeue {s : State} {uid : Nat} {recId : Nat} (h : s.Inv) :
    (State.requeue s uid recId).Inv := by
  unfold State.requeue
  simp [h]

@[simp] theorem keeps_wakeRec {s : State} {uid : Nat} {recId : Nat} {status : Nat} (h : s.Inv) :
    (State.wakeRec s uid recId status).Inv := by
  unfold State.wakeRec
  simp [h]

@[simp] theorem keepsAct_raise (code : Nat) (addr : W64) : InvAct (Act.raise code addr) :=
  keepsAct_fault _

@[simp] theorem keeps_commit {s : State} {e : Env} {t : Task} (h : s.Inv) :
    (State.commit s e t).Inv := by
  unfold State.commit
  simp [h]

@[simp] theorem keeps_holdTask {s : State} {e : Env} (h : s.Inv) :
    (State.holdTask s e).Inv := by
  unfold State.holdTask
  simp [h]

@[simp] theorem keeps_raise {s : State} {e : Env} {r : Raise} (h : s.Inv) :
    (State.raise s e r).Inv := by
  unfold State.raise
  split
  · split
    · next t ht =>
      have hc := keepsOpt_takeFault h t ht
      exact hc
    · exact keeps_holdTask h
  · exact keeps_holdTask h

@[simp] theorem keepsOut_issue {st bytes : Nat} {srcs : List SrcOp} {dsts : List DstOp}
    {body : Env → State → Act} {s : State} (h : s.Inv) (hb : ∀ e, InvAct (body e s)) :
    InvOut (issue st bytes srcs dsts body s) := by
  unfold issue
  split
  · simp
  · next e _ =>
    have he := hb e
    split_ifs
    · simp [h]
    · simp [h]
    · simp [h]
    · simp [h]
    · cases hr : body e s with
      | done t => exact keepsOut_next.mpr (he t hr)
      | hold => simp [h]
      | fault r => simp [h]

@[simp] theorem keepsOut_scalar {st : Nat} {bytes : Nat} {d : BitVec 6} {srcs : List SrcOp} {val : Task → W64} {s : State} (h : s.Inv) :
    InvOut (scalar st bytes d srcs val s) := by
  unfold scalar
  simp [h]

@[simp] theorem keepsOut_scalarS {f : FS} {op : W64 → W64 → W64} {s : State} (h : s.Inv) :
    InvOut (scalarS f op s) := by
  unfold scalarS
  simp [h]

@[simp] theorem keepsOut_scalarSW {f : FSW} {op : W64 → W64 → BitVec 22 → W64} {s : State} (h : s.Inv) :
    InvOut (scalarSW f op s) := by
  unfold scalarSW
  simp [h]

@[simp] theorem keepsOut_taskOp {st : Nat} {bytes : Nat} {srcs : List SrcOp} {f : Task → Task} {s : State} (h : s.Inv) :
    InvOut (taskOp st bytes srcs f s) := by
  unfold taskOp
  simp [h]

@[simp] theorem keeps_cacheLine {s : State} {w : Who} {va : Nat} {mkey : Nat} {k : Nat} (h : s.Inv) :
    (State.cacheLine s w va mkey k).Inv := by
  unfold State.cacheLine
  split <;> simp [h]

@[simp] theorem keeps_fetchFill {s : State} {e : Env} (h : s.Inv) :
    (State.fetchFill s e).Inv := by
  unfold State.fetchFill
  have hfill : ∀ {p b v}, (s.fillMiss e.who p b v).Inv := keeps_fillMiss h
  dsimp only
  split
  · exact hfill
  · split
    · exact keeps_cacheLine (keeps_cacheLine hfill)
    · split
      · exact keeps_fillMiss (keeps_cacheLine hfill)
      · exact keeps_cacheLine (keeps_fillMiss (keeps_cacheLine hfill))

@[simp] theorem keeps_tick {s : State} (h : s.Inv) :
    (State.tick s).Inv := by
  unfold State.tick
  simp [h]

end Sys2Proof.Proofs

/-! Canonical form: control transfers and tasks. -/

namespace Sys2Proof.Proofs

open Sys2Proof.Machine Sys2Proof.Laws

@[simp] theorem keepsAct_transfer {e : Env} {t : Task} {target : W64} {s : State} (h : s.Inv) :
    InvAct (transfer e t target s) := by
  unfold transfer
  simp [h]

@[simp] theorem keepsOut_execBr {f : FB} {s : State} (h : s.Inv) :
    InvOut (execBr f s) := by
  unfold execBr
  simp [h]

@[simp] theorem keepsOut_execCall {f : FB} {s : State} (h : s.Inv) :
    InvOut (execCall f s) := by
  unfold execCall
  simp [h]

@[simp] theorem keepsOut_execBc {f : FBC} {s : State} (h : s.Inv) :
    InvOut (execBc f s) := by
  unfold execBc
  simp [h]

@[simp] theorem keepsOut_execJmp {f : FS} {s : State} (h : s.Inv) :
    InvOut (execJmp f s) := by
  unfold execJmp
  simp [h]

@[simp] theorem keepsOut_execRet {f : FS} {s : State} (h : s.Inv) :
    InvOut (execRet f s) := by
  unfold execRet
  simp [h]

@[simp] theorem keepsOut_execLstart {f : FSW} {s : State} (h : s.Inv) :
    InvOut (execLstart f s) := by
  unfold execLstart
  simp [h]

@[simp] theorem keepsOut_execLnext {f : FB} {s : State} (h : s.Inv) :
    InvOut (execLnext f s) := by
  unfold execLnext
  split
  · exact keepsOut_fault _
  · next e _ =>
    have ht := keepsAct_transfer (e := e) (t := e.task.lnext) (target := e.task.target f.off) h
    dsimp only
    split_ifs
    · exact keepsOut_next.mpr (keeps_holdTask h)
    · exact keepsOut_next.mpr (keeps_commit h)
    · exact keepsOut_next.mpr (keeps_commit h)
    · split
      · exact keepsOut_next.mpr (ht _ ‹_›)
      · exact keepsOut_next.mpr (keeps_holdTask h)
      · exact keepsOut_next.mpr (keeps_raise h)

@[simp] theorem keepsOut_execLexit {f : FB} {s : State} (h : s.Inv) :
    InvOut (execLexit f s) := by
  unfold execLexit
  simp [h]

@[simp] theorem keepsOut_endOp {st : Nat} {bytes : Nat} {s : State} (h : s.Inv) :
    InvOut (endOp st bytes s) := by
  unfold endOp
  simp [h]

@[simp] theorem keepsOut_execEndTask {_f : FS} {s : State} (h : s.Inv) :
    InvOut (execEndTask _f s) := by
  unfold execEndTask
  simp [h]

@[simp] theorem keepsOut_execEndTaskSw {f : FSW} {s : State} (h : s.Inv) :
    InvOut (execEndTaskSw f s) := by
  unfold execEndTaskSw
  simp [h]

@[simp] theorem keepsAct_spawn {e : Env} {bytes : Nat} {mask : W64} {target : W64} {s : State} (h : s.Inv) :
    InvAct (spawn e bytes mask target s) := by
  unfold spawn
  simp [h]

@[simp] theorem keepsOut_execSpawn {f : FS} {s : State} (h : s.Inv) :
    InvOut (execSpawn f s) := by
  unfold execSpawn
  simp [h]

@[simp] theorem keepsOut_execSpawnSw {f : FSW} {s : State} (h : s.Inv) :
    InvOut (execSpawnSw f s) := by
  unfold execSpawnSw
  simp [h]

@[simp] theorem keepsAct_yield {e : Env} {bytes : Nat} {mask : W64} {s : State} (h : s.Inv) :
    InvAct (yield e bytes mask s) := by
  unfold yield
  simp [h]

@[simp] theorem keepsOut_execYield {f : FS} {s : State} (h : s.Inv) :
    InvOut (execYield f s) := by
  unfold execYield
  simp [h]

@[simp] theorem keepsOut_execYieldSw {f : FSW} {s : State} (h : s.Inv) :
    InvOut (execYieldSw f s) := by
  unfold execYieldSw
  simp [h]

@[simp] theorem keepsOut_execTrap {f : FS} {s : State} (h : s.Inv) :
    InvOut (execTrap f s) := by
  unfold execTrap
  simp [h]

@[simp] theorem keepsOut_execTrapSw {f : FSW} {s : State} (h : s.Inv) :
    InvOut (execTrapSw f s) := by
  unfold execTrapSw
  simp [h]

@[simp] theorem keepsOut_execRdcr {f : FSW} {s : State} (h : s.Inv) :
    InvOut (execRdcr f s) := by
  unfold execRdcr
  simp [h]

@[simp] theorem keepsOut_execWrcr {f : FSW} {s : State} (h : s.Inv) :
    InvOut (execWrcr f s) := by
  refine keepsOut_issue h fun e => ?_
  dsimp only
  split
  · split
    · exact keepsAct_done.mpr (keeps_commit h)
    · exact keepsAct_raise _ _
  · exact keepsAct_done.mpr (keeps_commit (keeps_modCore (keeps_modTeam h)))
  · exact keepsAct_done.mpr (keeps_commit (keeps_modTeam h))
  · exact keepsAct_done.mpr (keeps_commit (keeps_modTeam h))
  · exact keepsAct_done.mpr (keeps_commit h)

@[simp] theorem keepsOut_execNop {_f : FS} {s : State} (h : s.Inv) :
    InvOut (execNop _f s) := by
  unfold execNop
  simp [h]

@[simp] theorem keepsOut_execNopSw {f : FSW} {s : State} (h : s.Inv) :
    InvOut (execNopSw f s) := by
  unfold execNopSw
  simp [h]

@[simp] theorem keepsOut_breakOp {st : Nat} {bytes : Nat} {s : State} (h : s.Inv) :
    InvOut (breakOp st bytes s) := by
  unfold breakOp
  refine keepsOut_issue h fun e => ?_
  split_ifs
  · exact keepsAct_done.mpr (keeps_commit h)
  · exact keepsAct_hold
  · exact keepsAct_done.mpr (keeps_commit (keeps_outbox (keeps_queueFault h)))

@[simp] theorem keepsOut_execBreakTask {_f : FS} {s : State} (h : s.Inv) :
    InvOut (execBreakTask _f s) := by
  unfold execBreakTask
  simp [h]

@[simp] theorem keepsOut_execBreakTaskSw {f : FSW} {s : State} (h : s.Inv) :
    InvOut (execBreakTaskSw f s) := by
  unfold execBreakTaskSw
  simp [h]

@[simp] theorem keeps_addFlags {s : State} {uid : Nat} {fl : Fl} (h : s.Inv) :
    (State.addFlags s uid fl).Inv := by
  unfold State.addFlags
  simp [h]

@[simp] theorem keepsOut_scalarFl {st : Nat} {bytes : Nat} {d : BitVec 6} {srcs : List SrcOp} {val : Team → Task → W64 × Fl} {s : State} (h : s.Inv) :
    InvOut (scalarFl st bytes d srcs val s) := by
  unfold scalarFl
  refine keepsOut_issue h fun e => ?_
  simp [h]

@[simp] theorem keepsOut_fpS {ty : FTy} {f : FS} {op : Rnd → FVal → FVal → FVal × Fl} {s : State} (h : s.Inv) :
    InvOut (fpS ty f op s) := by
  unfold fpS
  simp [h]

@[simp] theorem keepsOut_fpSW {ty : FTy} {f : FSW} {op : Rnd → FVal → FVal → FVal × Fl} {s : State} (h : s.Inv) :
    InvOut (fpSW ty f op s) := by
  unfold fpSW
  simp [h]

@[simp] theorem keepsOut_execFadd {ty : FTy} {f : FS} {s : State} (h : s.Inv) :
    InvOut (execFadd ty f s) := by
  unfold execFadd
  simp [h]

@[simp] theorem keepsOut_execFaddSw {ty : FTy} {f : FSW} {s : State} (h : s.Inv) :
    InvOut (execFaddSw ty f s) := by
  unfold execFaddSw
  simp [h]

@[simp] theorem keepsOut_execFsub {ty : FTy} {f : FS} {s : State} (h : s.Inv) :
    InvOut (execFsub ty f s) := by
  unfold execFsub
  simp [h]

@[simp] theorem keepsOut_execFsubSw {ty : FTy} {f : FSW} {s : State} (h : s.Inv) :
    InvOut (execFsubSw ty f s) := by
  unfold execFsubSw
  simp [h]

@[simp] theorem keepsOut_execFmul {ty : FTy} {f : FS} {s : State} (h : s.Inv) :
    InvOut (execFmul ty f s) := by
  unfold execFmul
  simp [h]

@[simp] theorem keepsOut_execFmulSw {ty : FTy} {f : FSW} {s : State} (h : s.Inv) :
    InvOut (execFmulSw ty f s) := by
  unfold execFmulSw
  simp [h]

@[simp] theorem keepsOut_execFdiv {ty : FTy} {f : FS} {s : State} (h : s.Inv) :
    InvOut (execFdiv ty f s) := by
  unfold execFdiv
  simp [h]

@[simp] theorem keepsOut_execFdivSw {ty : FTy} {f : FSW} {s : State} (h : s.Inv) :
    InvOut (execFdivSw ty f s) := by
  unfold execFdivSw
  simp [h]

@[simp] theorem keepsOut_execFsqrt {ty : FTy} {f : FS} {s : State} (h : s.Inv) :
    InvOut (execFsqrt ty f s) := by
  unfold execFsqrt
  simp [h]

@[simp] theorem keepsOut_execFsqrtSw {ty : FTy} {f : FSW} {s : State} (h : s.Inv) :
    InvOut (execFsqrtSw ty f s) := by
  unfold execFsqrtSw
  simp [h]

@[simp] theorem keepsOut_execFmin {ty : FTy} {f : FS} {s : State} (h : s.Inv) :
    InvOut (execFmin ty f s) := by
  unfold execFmin
  simp [h]

@[simp] theorem keepsOut_execFminSw {ty : FTy} {f : FSW} {s : State} (h : s.Inv) :
    InvOut (execFminSw ty f s) := by
  unfold execFminSw
  simp [h]

@[simp] theorem keepsOut_execFmax {ty : FTy} {f : FS} {s : State} (h : s.Inv) :
    InvOut (execFmax ty f s) := by
  unfold execFmax
  simp [h]

@[simp] theorem keepsOut_execFmaxSw {ty : FTy} {f : FSW} {s : State} (h : s.Inv) :
    InvOut (execFmaxSw ty f s) := by
  unfold execFmaxSw
  simp [h]

@[simp] theorem keepsOut_execFsetc {ty : FTy} {f : FSW} {s : State} (h : s.Inv) :
    InvOut (execFsetc ty f s) := by
  unfold execFsetc
  simp [h]

@[simp] theorem keepsOut_execFcvt {ty : FTy} {f : FSW} {s : State} (h : s.Inv) :
    InvOut (execFcvt ty f s) := by
  unfold execFcvt
  simp [h]

@[simp] theorem keepsOut_execFfma {ty : FTy} {f : FSW} {s : State} (h : s.Inv) :
    InvOut (execFfma ty f s) := by
  unfold execFfma
  simp [h]

@[simp] theorem keepsAct_shapeFault : InvAct shapeFault := keepsAct_fault _

@[simp] theorem keepsOut_vecEach {f : FV} {srcs : List SrcOp} {op : Team → Task → Nat → Nat → Nat × Fl} {s : State} (h : s.Inv) :
    InvOut (vecEach f srcs op s) := by
  unfold vecEach
  refine keepsOut_issue h fun e => ?_
  dsimp only
  (repeat' split) <;> simp [h]

@[simp] theorem keepsOut_vecFp2 {f : FV} {op : Rnd → FVal → FVal → FVal × Fl} {s : State} (h : s.Inv) :
    InvOut (vecFp2 f op s) := by
  unfold vecFp2
  simp [h]

@[simp] theorem keepsOut_vecFp3 {f : FV} {op : Rnd → FVal → FVal → FVal → FVal × Fl} {s : State} (h : s.Inv) :
    InvOut (vecFp3 f op s) := by
  unfold vecFp3
  simp [h]

@[simp] theorem keepsOut_execVadd {f : FV} {s : State} (h : s.Inv) :
    InvOut (execVadd f s) := by
  unfold execVadd
  simp [h]

@[simp] theorem keepsOut_execVsub {f : FV} {s : State} (h : s.Inv) :
    InvOut (execVsub f s) := by
  unfold execVsub
  simp [h]

@[simp] theorem keepsOut_execVmul {f : FV} {s : State} (h : s.Inv) :
    InvOut (execVmul f s) := by
  unfold execVmul
  simp [h]

@[simp] theorem keepsOut_execVfma {f : FV} {s : State} (h : s.Inv) :
    InvOut (execVfma f s) := by
  unfold execVfma
  simp [h]

@[simp] theorem keepsOut_execVfms {f : FV} {s : State} (h : s.Inv) :
    InvOut (execVfms f s) := by
  unfold execVfms
  simp [h]

@[simp] theorem keepsOut_execVmin {f : FV} {s : State} (h : s.Inv) :
    InvOut (execVmin f s) := by
  unfold execVmin
  simp [h]

@[simp] theorem keepsOut_execVmax {f : FV} {s : State} (h : s.Inv) :
    InvOut (execVmax f s) := by
  unfold execVmax
  simp [h]

@[simp] theorem keepsOut_execVabs {f : FV} {s : State} (h : s.Inv) :
    InvOut (execVabs f s) := by
  unfold execVabs
  simp [h]

@[simp] theorem keepsOut_execVneg {f : FV} {s : State} (h : s.Inv) :
    InvOut (execVneg f s) := by
  unfold execVneg
  simp [h]

@[simp] theorem keepsOut_execVcpys {f : FV} {s : State} (h : s.Inv) :
    InvOut (execVcpys f s) := by
  unfold execVcpys
  simp [h]

@[simp] theorem keepsOut_vecSfu {f : FV} {fn : FVal → FVal × Fl} {s : State} (h : s.Inv) :
    InvOut (vecSfu f fn s) := by
  unfold vecSfu
  refine keepsOut_issue h fun e => ?_
  dsimp only
  split
  · exact keepsAct_shapeFault
  · split
    · exact keepsAct_shapeFault
    · exact keepsAct_done.mpr (keeps_commit (keeps_addFlags (keeps_modCore (keeps_fresh h))))

@[simp] theorem keepsOut_execVrcp {f : FV} {s : State} (h : s.Inv) :
    InvOut (execVrcp f s) := by
  unfold execVrcp
  simp [h]

@[simp] theorem keepsOut_execVrsq {f : FV} {s : State} (h : s.Inv) :
    InvOut (execVrsq f s) := by
  unfold execVrsq
  simp [h]

@[simp] theorem keepsOut_execVexp2 {f : FV} {s : State} (h : s.Inv) :
    InvOut (execVexp2 f s) := by
  unfold execVexp2
  simp [h]

@[simp] theorem keepsOut_execVlog2 {f : FV} {s : State} (h : s.Inv) :
    InvOut (execVlog2 f s) := by
  unfold execVlog2
  simp [h]

@[simp] theorem keepsOut_execVtanh {f : FV} {s : State} (h : s.Inv) :
    InvOut (execVtanh f s) := by
  unfold execVtanh
  simp [h]

@[simp] theorem keepsOut_execVsin {f : FV} {s : State} (h : s.Inv) :
    InvOut (execVsin f s) := by
  unfold execVsin
  simp [h]

@[simp] theorem keepsOut_execVcos {f : FV} {s : State} (h : s.Inv) :
    InvOut (execVcos f s) := by
  unfold execVcos
  simp [h]

@[simp] theorem keepsOut_vecInt2 {f : FV} {op : Nat → Nat → Nat} {s : State} (h : s.Inv) :
    InvOut (vecInt2 f op s) := by
  unfold vecInt2
  simp [h]

@[simp] theorem keepsOut_execViadd {f : FV} {s : State} (h : s.Inv) :
    InvOut (execViadd f s) := by
  unfold execViadd
  simp [h]

@[simp] theorem keepsOut_execVisub {f : FV} {s : State} (h : s.Inv) :
    InvOut (execVisub f s) := by
  unfold execVisub
  simp [h]

@[simp] theorem keepsOut_execVimul {f : FV} {s : State} (h : s.Inv) :
    InvOut (execVimul f s) := by
  unfold execVimul
  simp [h]

@[simp] theorem keepsOut_execVimad {f : FV} {s : State} (h : s.Inv) :
    InvOut (execVimad f s) := by
  unfold execVimad
  simp [h]

@[simp] theorem keepsOut_execVand {f : FV} {s : State} (h : s.Inv) :
    InvOut (execVand f s) := by
  unfold execVand
  simp [h]

@[simp] theorem keepsOut_execVor {f : FV} {s : State} (h : s.Inv) :
    InvOut (execVor f s) := by
  unfold execVor
  simp [h]

@[simp] theorem keepsOut_execVxor {f : FV} {s : State} (h : s.Inv) :
    InvOut (execVxor f s) := by
  unfold execVxor
  simp [h]

@[simp] theorem keepsOut_execVnot {f : FV} {s : State} (h : s.Inv) :
    InvOut (execVnot f s) := by
  unfold execVnot
  simp [h]

@[simp] theorem keepsOut_execVshl {f : FV} {s : State} (h : s.Inv) :
    InvOut (execVshl f s) := by
  unfold execVshl
  simp [h]

@[simp] theorem keepsOut_execVshr {f : FV} {s : State} (h : s.Inv) :
    InvOut (execVshr f s) := by
  unfold execVshr
  simp [h]

@[simp] theorem keepsOut_execVshra {f : FV} {s : State} (h : s.Inv) :
    InvOut (execVshra f s) := by
  unfold execVshra
  simp [h]

@[simp] theorem keepsOut_execVimin {f : FV} {s : State} (h : s.Inv) :
    InvOut (execVimin f s) := by
  unfold execVimin
  simp [h]

@[simp] theorem keepsOut_execVimax {f : FV} {s : State} (h : s.Inv) :
    InvOut (execVimax f s) := by
  unfold execVimax
  simp [h]

@[simp] theorem keepsOut_execViabs {f : FV} {s : State} (h : s.Inv) :
    InvOut (execViabs f s) := by
  unfold execViabs
  simp [h]

@[simp] theorem keepsOut_execVcmp {f : FV} {s : State} (h : s.Inv) :
    InvOut (execVcmp f s) := by
  unfold execVcmp
  simp [h]

@[simp] theorem keepsOut_execVsel {f : FV} {s : State} (h : s.Inv) :
    InvOut (execVsel f s) := by
  unfold execVsel
  simp [h]

@[simp] theorem keepsOut_convIssue {f : FV} {srcs : List SrcOp} {dsts : List DstOp}
    {body : Env → State → Act} {s : State} (h : s.Inv) (hb : ∀ e, InvAct (body e s)) :
    InvOut (convIssue f srcs dsts body s) := keepsOut_issue h hb

@[simp] theorem keepsOut_execVcvt {f : FV} {s : State} (h : s.Inv) :
    InvOut (execVcvt f s) := by
  unfold execVcvt
  refine keepsOut_convIssue h fun e => ?_
  dsimp only
  split
  · exact keepsAct_shapeFault
  · split
    · exact keepsAct_shapeFault
    · exact keepsAct_done.mpr (keeps_commit (keeps_addFlags (keeps_modCore h)))

@[simp] theorem keepsOut_execVqnt {f : FV} {s : State} (h : s.Inv) :
    InvOut (execVqnt f s) := by
  unfold execVqnt
  refine keepsOut_convIssue h fun e => ?_
  dsimp only
  split
  · exact keepsAct_shapeFault
  · split
    · exact keepsAct_shapeFault
    · exact keepsAct_done.mpr (keeps_commit (keeps_addFlags (keeps_modCore h)))

@[simp] theorem keepsOut_execVdqt {f : FV} {s : State} (h : s.Inv) :
    InvOut (execVdqt f s) := by
  unfold execVdqt
  refine keepsOut_convIssue h fun e => ?_
  dsimp only
  split
  · exact keepsAct_shapeFault
  · split
    · exact keepsAct_shapeFault
    · exact keepsAct_done.mpr (keeps_commit (keeps_addFlags h))

@[simp] theorem keepsOut_vecReduce {f : FV} {red : Team → List Nat → Nat × Fl} {s : State} (h : s.Inv) :
    InvOut (vecReduce f red s) := by
  unfold vecReduce
  refine keepsOut_issue h fun e => ?_
  dsimp only
  (repeat' split) <;> simp [h]

@[simp] theorem keepsOut_execVrsum {f : FV} {s : State} (h : s.Inv) :
    InvOut (execVrsum f s) := by
  unfold execVrsum
  simp [h]

@[simp] theorem keepsOut_execVrmax {f : FV} {s : State} (h : s.Inv) :
    InvOut (execVrmax f s) := by
  unfold execVrmax
  simp [h]

@[simp] theorem keepsOut_execVrmin {f : FV} {s : State} (h : s.Inv) :
    InvOut (execVrmin f s) := by
  unfold execVrmin
  simp [h]

@[simp] theorem keepsOut_execVscan {f : FV} {s : State} (h : s.Inv) :
    InvOut (execVscan f s) := by
  unfold execVscan
  refine keepsOut_issue h fun e => ?_
  dsimp only
  (repeat' split) <;> simp [h]

@[simp] theorem keepsOut_rearrange {f : FV} {srcs : List SrcOp} {bad : Task → Nat → Bool} {cell : Task → Nat → Nat → Nat → Nat → Nat × Nat × Nat} {s : State} (h : s.Inv) :
    InvOut (rearrange f srcs bad cell s) := by
  unfold rearrange
  refine keepsOut_issue h fun e => ?_
  dsimp only
  (repeat' split) <;> simp [h]

@[simp] theorem keepsOut_execVtrn {f : FV} {s : State} (h : s.Inv) :
    InvOut (execVtrn f s) := by
  unfold execVtrn
  simp [h]

@[simp] theorem keepsOut_execVbcr {f : FV} {s : State} (h : s.Inv) :
    InvOut (execVbcr f s) := by
  unfold execVbcr
  simp [h]

@[simp] theorem keepsOut_execVbcc {f : FV} {s : State} (h : s.Inv) :
    InvOut (execVbcc f s) := by
  unfold execVbcc
  simp [h]

@[simp] theorem keepsOut_execVperm {f : FV} {s : State} (h : s.Inv) :
    InvOut (execVperm f s) := by
  unfold execVperm
  simp [h]

@[simp] theorem keepsOut_execVsld {f : FV} {s : State} (h : s.Inv) :
    InvOut (execVsld f s) := by
  unfold execVsld
  simp [h]

@[simp] theorem keepsOut_execVrot {f : FV} {s : State} (h : s.Inv) :
    InvOut (execVrot f s) := by
  unfold execVrot
  simp [h]

@[simp] theorem keepsOut_execVmov {f : FV} {s : State} (h : s.Inv) :
    InvOut (execVmov f s) := by
  unfold execVmov
  simp [h]

@[simp] theorem keepsOut_execVmovWhole {f : FV} {s : State} (h : s.Inv) :
    InvOut (execVmovWhole f s) := by
  unfold execVmovWhole
  simp [h]

@[simp] theorem keepsOut_execVspl {f : FV} {s : State} (h : s.Inv) :
    InvOut (execVspl f s) := by
  unfold execVspl
  simp [h]

@[simp] theorem keepsOut_execVext {f : FV} {s : State} (h : s.Inv) :
    InvOut (execVext f s) := by
  unfold execVext
  refine keepsOut_issue h fun e => ?_
  dsimp only
  (repeat' split) <;> simp [h]

@[simp] theorem keepsOut_execVins {f : FV} {s : State} (h : s.Inv) :
    InvOut (execVins f s) := by
  unfold execVins
  refine keepsOut_issue h fun e => ?_
  dsimp only
  (repeat' split) <;> simp [h]

@[simp] theorem keepsOut_execVidx {f : FV} {s : State} (h : s.Inv) :
    InvOut (execVidx f s) := by
  unfold execVidx
  simp [h]

@[simp] theorem keepsOut_execPset {f : FV} {s : State} (h : s.Inv) :
    InvOut (execPset f s) := by
  unfold execPset
  simp [h]

@[simp] theorem keepsOut_execPwhl {f : FV} {s : State} (h : s.Inv) :
    InvOut (execPwhl f s) := by
  unfold execPwhl
  simp [h]

@[simp] theorem keepsOut_execPmov {f : FV} {s : State} (h : s.Inv) :
    InvOut (execPmov f s) := by
  unfold execPmov
  split <;> simp [h]

@[simp] theorem keepsOut_execVsets {f : FV} {s : State} (h : s.Inv) :
    InvOut (execVsets f s) := by
  unfold execVsets
  simp [h]

end Sys2Proof.Proofs

/-! Canonical form: loads, stores, commands and queues. -/

namespace Sys2Proof.Proofs

open Sys2Proof.Machine Sys2Proof.Laws

@[simp] theorem keepsAct_tokenFault : InvAct tokenFault := keepsAct_fault _

@[simp] theorem keeps_enter {s : State} {e : Env} {store : Bool} {sp : AccSpec} {id : Nat} {ps : List Piece} (h : s.Inv) :
    (State.enter s e store sp id ps).Inv := by
  unfold State.enter
  simp [h]

@[simp] theorem keeps_finishLoad {s : State} {core : Nat} {a : Access} (h : s.Inv) :
    (State.finishLoad s core a).Inv := by
  unfold State.finishLoad
  dsimp only
  (repeat' split) <;> simp [h]

@[simp] theorem keeps_leaveLoads {s : State} {core : Nat} {uid : Nat} {n3 : Nat} (h : s.Inv) :
    (State.leaveLoads s core uid n3).Inv := by
  induction n3 generalizing s with
  | zero => exact h
  | succ n ih =>
    unfold State.leaveLoads
    split
    · exact h
    · split
      · exact ih (keeps_finishLoad h)
      · exact h

@[simp] theorem keeps_loadsLeave {s : State} {core : Nat} {uid : Nat} (h : s.Inv) :
    (State.loadsLeave s core uid).Inv :=
  keeps_leaveLoads h

@[simp] theorem keepsAct_accessAct {e : Env} {bytes : Nat} {store : Bool} {sp : AccSpec} {s : State} (h : s.Inv) :
    InvAct (accessAct e bytes store sp s) := by
  have hissued : ∀ {id ps t}, ((s.fresh.2.enter e store sp id ps).commit e t).Inv := keeps_commit (keeps_enter (keeps_fresh h))
  unfold accessAct
  split
  · exact keepsAct_hold
  split
  · exact keepsAct_hold
  split
  · exact keepsAct_hold
  dsimp only
  split
  · exact keepsAct_fault _
  · exact keepsAct_done.mpr (keeps_if (keeps_if (keeps_modCore hissued) (keeps_loadsLeave hissued)) hissued)

@[simp] theorem keeps_markDirty {s : State} {k : Nat} {len : Nat} (h : s.Inv) :
    (State.markDirty s k len).Inv := by
  unfold State.markDirty
  simp [h]

@[simp] theorem keeps_fairWrite {s : State} {die : Nat} {off : Nat} {n3 : Nat} {n4 : Nat} {n5 : Nat} (h : s.Inv) :
    (State.fairWrite s die off n3 n4 n5).Inv := by
  induction n3 generalizing s off n4 n5 with
  | zero => exact h
  | succ n ih =>
    unfold State.fairWrite
    exact ih (by split <;> simp [h])

@[simp] theorem keeps_ring {s : State} {die : Nat} {bell : Nat} {v : Nat} (h : s.Inv) :
    (State.ring s die bell v).Inv := by
  unfold State.ring
  simp [h]

@[simp] theorem keeps_openQp {s t : State} {k : Nat} (h : t.Inv) :
    (s.openQp t k).Inv := by
  unfold State.openQp
  simp [h]

@[simp] theorem keeps_recordRefusal {s : State} {team : Nat} {target : Nat} {code : Nat} (h : s.Inv) :
    (State.recordRefusal s team target code).Inv := by
  unfold State.recordRefusal
  simp [h]

@[simp] theorem keeps_setPort {s : State} {p : Nat} {q : Port} (h : s.Inv) :
    (State.setPort s p q).Inv := by
  unfold State.setPort
  simp [h]

@[simp] theorem keeps_transmit {s : State} {port : Nat} {o : Out} (h : s.Inv) :
    (State.transmit s port o).Inv := by
  unfold State.transmit
  simp [h]

@[simp] theorem keeps_sendAccess {s : State} {pkg : Nat} {addr : Nat} {o : Out} (h : s.Inv) :
    (State.sendAccess s pkg addr o).Inv := by
  unfold State.sendAccess
  split <;> simp [h]

@[simp] theorem keeps_writePiece {s : State} {k : Nat} {mk : Nat} {len : Nat} {data : BitVec 64} {mask : BitVec 64} (h : s.Inv) :
    (State.writePiece s k mk len data mask).Inv := by
  unfold State.writePiece
  dsimp only
  split_ifs
  · exact keeps_fairWrite h
  · exact keeps_ring h
  · exact keeps_ring h
  · exact keeps_openQp (keeps_markDirty (keeps_writeNat h))
  · exact keeps_markDirty (keeps_writeNat h)

@[simp] theorem keeps_setQpState {s : State} {cl : Nat} {qp : Nat} {v : Nat} (h : s.Inv) :
    (State.setQpState s cl qp v).Inv := by
  unfold State.setQpState
  simp [h]

@[simp] theorem keeps_setQp {s : State} {cl : Nat} {qp : Nat} {q : Qp} (h : s.Inv) :
    (State.setQp s cl qp q).Inv := by
  unfold State.setQp
  simp [h]

@[simp] theorem keeps_dropMark {s : State} {team : Nat} {ref : Nat} {target : Nat} (h : s.Inv) :
    (State.dropMark s team ref target).Inv := by
  unfold State.dropMark
  simp [h]

@[simp] theorem keeps_dropEntry {s : State} {cl : Nat} {qp : Nat} {e : FEntry} {target : Nat} (h : s.Inv) :
    (State.dropEntry s cl qp e target).Inv := by
  unfold State.dropEntry
  exact keeps_foldl (fun s x h => by simp [h]) _ h

@[simp] theorem keeps_qpError {s : State} {cl : Nat} {qp : Nat} {d : QpDesc} {e : FEntry} {code : Nat} (h : s.Inv) :
    (State.qpError s cl qp d e code).Inv :=
  keeps_recordRefusal (keeps_setQpState (keeps_dropEntry h))

@[simp] theorem keeps_pushCmd {s : State} {c : Cmd} (h : s.Inv) :
    (State.pushCmd s c).Inv := by
  unfold State.pushCmd
  simp [h]

@[simp] theorem keepsAct_cmdAct {e : Env} {bytes : Nat} {i : Instr} {f : FE2} {q : Queue} {x : W64 × W64 × W64} {after : Bool} {bad : Option (Nat × W64)} {hold : Bool} {sb : List (W64 × Nat)} {regs : Task → Task} {make : Cmd → Cmd} {s : State} (h : s.Inv) :
    InvAct (cmdAct e bytes i f q x after bad hold sb regs make s) := by
  unfold cmdAct
  split
  · exact keepsAct_hold
  · split
    · exact keepsAct_tokenFault
    · split
      · exact keepsAct_raise _ _
      · exact keepsAct_done.mpr (keeps_commit (keeps_modCore (keeps_pushCmd h)))

@[simp] theorem keeps_setCmd {s : State} {c : Cmd} (h : s.Inv) :
    (State.setCmd s c).Inv := by
  unfold State.setCmd
  simp [h]

@[simp] theorem keeps_engineStore {s : State} {core : Nat} {team : Nat} {ctx : Nat} {cmd : Nat} {seq : BitVec 32} {pc : W64} {sp : List Span} {bs : List (BitVec 8)} {grain : optParam Nat 1} {epoch : optParam (Option Nat) none} (h : s.Inv) :
    (State.engineStore s core team ctx cmd seq pc sp bs grain epoch).Inv := by
  unfold State.engineStore
  simp [h]

@[simp] theorem keeps_engineWrite {s : State} {c : Cmd} {sp : List Span} {bs : List (BitVec 8)} {grain : optParam Nat 1} {epoch : optParam (Option Nat) none} (h : s.Inv) :
    (State.engineWrite s c sp bs grain epoch).Inv := by
  unfold State.engineWrite
  simp [h]

@[simp] theorem keeps_freeSb {s : State} {core : Nat} {id : Nat} (h : s.Inv) :
    (State.freeSb s core id).Inv := by
  unfold State.freeSb
  simp [h]

@[simp] theorem keeps_finishCmd {s : State} {c : Cmd} (h : s.Inv) :
    (State.finishCmd s c).Inv := by
  unfold State.finishCmd
  split <;> simp [h]

@[simp] theorem keeps_dropWaiters {s : State} {core : Nat} {ids : List Nat} (h : s.Inv) :
    (State.dropWaiters s core ids).Inv := by
  unfold State.dropWaiters
  simp [h]

@[simp] theorem keeps_discard {s : State} {core : Nat} {p : Cmd → Bool} (h : s.Inv) :
    (State.discard s core p).Inv := by
  unfold State.discard
  simp [h]

@[simp] theorem keeps_abortTask {s : State} {uid : Nat} (h : s.Inv) :
    (State.abortTask s uid).Inv := by
  unfold State.abortTask
  (repeat' split) <;> simp [h]

@[simp] theorem keepsOpt_faultTeam {s : State} {uid : Nat} {core : Nat} {code : Nat} {pc : W64} {addr : W64} {seq : BitVec 32} {fd : Found} (h : s.Inv) :
    InvOpt (State.faultTeam s uid core code pc addr seq fd) := by
  unfold State.faultTeam
  split <;> simp [h]

@[simp] theorem keepsOpt_cmdFault {s : State} {c : Cmd} {code : Nat} {addr : W64} {source : Nat} {also : Cmd → Bool} {write : optParam Bool false} (h : s.Inv) :
    InvOpt (State.cmdFault s c code addr source also write) := by
  unfold State.cmdFault
  exact keepsOpt_faultTeam (keeps_if (keeps_modTeam (keeps_discard h)) (keeps_discard h))

@[simp] theorem keepsOpt_parkCmd {s : State} {c : Cmd} {code : Nat} {addr : W64} {source : Nat} (h : s.Inv) :
    InvOpt (State.parkCmd s c code addr source) := by
  unfold State.parkCmd
  split
  · exact keepsOpt_none
  · exact keepsOpt_some.mpr (keeps_queueFault (keeps_if (keeps_modTeam (keeps_setCmd h)) (keeps_setCmd h)))

@[simp] theorem keepsOut_orStay {s : State} {o : Option State} (h : s.Inv) (ho : InvOpt o) :
    InvOut (orStay s o) := keepsOut_next.mpr (keeps_getD ho h)

@[simp] theorem keepsOut_execLd {fn : BitVec 4} {f : FM} {s : State} (h : s.Inv) :
    InvOut (execLd fn f s) := by
  unfold execLd
  simp [h]

@[simp] theorem keepsOut_execSt {fn : BitVec 4} {f : FM} {s : State} (h : s.Inv) :
    InvOut (execSt fn f s) := by
  unfold execSt
  simp [h]

@[simp] theorem keepsAct_tileFrame {f : FVM} {store : Bool}
    {body : Env → Nat → Nat → Nat → Nat → State → Act} {e : Env} {s : State}
    (hb : ∀ w c lines act, InvAct (body e w c lines act s)) : InvAct (tileFrame f store body e s) := by
  unfold tileFrame
  dsimp only
  split_ifs
  · exact keepsAct_hold
  · exact keepsAct_shapeFault
  · exact hb _ _ _ _

@[simp] theorem keepsAct_tileLoad {f : FVM} {e : Env} {ps : List Piece} {runs : List Run} {inOrder : Bool} {s : State} (h : s.Inv) :
    InvAct (tileLoad f e ps runs inOrder s) := by
  unfold tileLoad
  simp [h]

@[simp] theorem keepsAct_tileStore {f : FVM} {e : Env} {ps : List Piece} {s : State} (h : s.Inv) :
    InvAct (tileStore f e ps s) := by
  unfold tileStore
  simp [h]

@[simp] theorem keepsOut_execVld {f : FVM} {s : State} (h : s.Inv) :
    InvOut (execVld f s) :=
  keepsOut_issue h fun _ => keepsAct_tileFrame fun _ _ _ _ => keepsAct_tileLoad h

@[simp] theorem keepsOut_execVst {f : FVM} {s : State} (h : s.Inv) :
    InvOut (execVst f s) :=
  keepsOut_issue h fun _ => keepsAct_tileFrame fun _ _ _ _ => keepsAct_tileStore h

@[simp] theorem keepsOut_execVldg {f : FVM} {s : State} (h : s.Inv) :
    InvOut (execVldg f s) :=
  keepsOut_issue h fun _ => keepsAct_tileFrame fun _ _ _ _ => keepsAct_tileLoad h

@[simp] theorem keepsOut_execVstx {f : FVM} {s : State} (h : s.Inv) :
    InvOut (execVstx f s) :=
  keepsOut_issue h fun _ => keepsAct_tileFrame fun _ _ _ _ => keepsAct_tileStore h

@[simp] theorem keepsOut_execVldb {f : FVM} {s : State} (h : s.Inv) :
    InvOut (execVldb f s) :=
  keepsOut_issue h fun _ => keepsAct_tileFrame fun _ _ _ _ => keepsAct_tileLoad h

@[simp] theorem keepsOut_execMark {f : FE2} {s : State} (h : s.Inv) :
    InvOut (execMark f s) := by
  unfold execMark
  refine keepsOut_issue h fun e => ?_
  split <;> simp [h]

@[simp] theorem keeps_prefetchHit {s : State} {w : Who} {a : W64} (h : s.Inv) :
    (State.prefetchHit s w a).Inv := by
  unfold State.prefetchHit
  split <;> simp [h]

@[simp] theorem keepsAct_prefetch {e : Env} {bytes : Nat} {a : W64} {s : State} (h : s.Inv) :
    InvAct (prefetch e bytes a s) := by
  unfold prefetch
  simp [h]

@[simp] theorem keepsOut_execPf {f : FE2} {s : State} (h : s.Inv) :
    InvOut (execPf f s) := by
  unfold execPf
  simp [h]

@[simp] theorem keepsOut_execPfE3 {f : FE3} {s : State} (h : s.Inv) :
    InvOut (execPfE3 f s) := by
  unfold execPfE3
  simp [h]

@[simp] theorem keepsOut_execSqld {f : FE3} {s : State} (h : s.Inv) :
    InvOut (execSqld f s) := by
  refine keepsOut_issue h fun e => ?_
  dsimp only
  split
  · exact keepsAct_hold
  split
  · exact keepsAct_tokenFault
  split
  · exact keepsAct_raise _ _
  split
  · exact keepsAct_raise _ _
  · split
    · next t ht =>
      have ht := keepsAct_cmdAct (keeps_modTeam (keeps_fillUnits h)) t ht
      exact keepsAct_done.mpr (keeps_modCore ht)
    · exact keepsAct_cmdAct (keeps_modTeam (keeps_fillUnits h))

@[simp] theorem keepsOut_execResultArrival {core : Nat} {id : Nat} {s : State} (h : s.Inv) :
    InvOut (execResultArrival core id s) := by
  unfold execResultArrival
  split
  · exact keepsOut_next.mpr h
  · refine keepsOut_next.mpr (keeps_modTeam ?_)
    split
    · split
      · exact keeps_finishCmd (keeps_modCore h)
      · exact keeps_modCore h
    · exact keeps_modCore h

@[simp] theorem keepsOpt_refuseAccess {s : State} {core : Nat} {a : Access} {va : W64} {write : Bool} {code : Nat} (h : s.Inv) :
    InvOpt (State.refuseAccess s core a va write code) := by
  unfold State.refuseAccess
  dsimp only
  generalize hg : (if a.cmd = 0 then _ else _ : State) = gone
  have hgone : gone.Inv :=
    hg ▸ keeps_if (keeps_modCore h) (keeps_freeSb (keeps_modCore h))
  split
  · split
    · exact keepsOpt_cmdFault hgone
    · split
      · exact keepsOpt_some.mpr (keeps_qpError hgone)
      · exact keepsOpt_faultTeam hgone
  · split
    · split
      · exact keepsOpt_takeFault h
      · exact keepsOpt_passFault hgone
    · exact keepsOpt_some.mpr hgone

@[simp] theorem keeps_askLoad {s : State} {core : Nat} {a : Access} {i : Nat} {p : Piece} {o : Out} (h : s.Inv) :
    (State.askLoad s core a i p o).Inv := by
  unfold State.askLoad
  split <;> simp [h]

@[simp] theorem keeps_answered {s : State} {o : Option Out} (h : s.Inv) :
    (State.answered s o).Inv := by
  unfold State.answered
  split <;> simp [h]

@[simp] theorem keeps_finishScales {s : State} {core : Nat} {n2 : Nat} (h : s.Inv) :
    (State.finishScales s core n2).Inv := by
  induction n2 generalizing s with
  | zero => exact h
  | succ n ih =>
    unfold State.finishScales
    split
    · exact h
    · refine ih ?_
      split
      · exact keeps_finishCmd (keeps_modCore (keeps_modTeam h))
      · exact keeps_modCore (keeps_modTeam h)

@[simp] theorem keepsOut_execLoadPerform {core : Nat} {id : Nat} {piece : Nat} {ext : Option (BitVec 64)} {s : State} (h : s.Inv) :
    InvOut (execLoadPerform core id piece ext s) := by
  unfold execLoadPerform
  split
  · exact keepsOut_next.mpr h
  · split
    · exact keepsOut_next.mpr (keeps_finishScales h)
    · split
      · exact keepsOut_next.mpr (keeps_finishScales h)
      · split
        · exact keepsOut_orStay h (keepsOpt_refuseAccess h)
        · split
          · refine keepsOut_next.mpr ?_
            split
            · split
              · exact keeps_askLoad h
              · exact h
            · exact h
          · dsimp only
            split
            · exact keepsOut_orStay (keeps_answered h) (keepsOpt_refuseAccess (keeps_answered h))
            · split
              · exact keepsOut_next.mpr (keeps_finishScales (keeps_modCore (keeps_answered h)))
              · exact keepsOut_next.mpr (keeps_loadsLeave (keeps_modCore (keeps_answered h)))

@[simp] theorem keeps_settleStore {s : State} {core : Nat} {a : Access} (h : s.Inv) :
    (State.settleStore s core a).Inv := by
  unfold State.settleStore
  dsimp only
  split
  · exact keeps_modCore h
  · exact keeps_freeSb (keeps_modCore h)

@[simp] theorem keeps_advancePiece {s : State} {core : Nat} {a : Access} {i : Nat} {stage : Nat} {p : Piece} (h : s.Inv) :
    (State.advancePiece s core a i stage p).Inv :=
  keeps_settleStore (keeps_fresh h)

@[simp] theorem keeps_sendPiece {s : State} {a : Access} {p : Piece} {stage : Nat} (h : s.Inv) :
    (State.sendPiece s a p stage).Inv := by
  unfold State.sendPiece
  split <;> simp [h]

@[simp] theorem keepsOut_performPiece {s : State} {core : Nat} {a : Access} {i : Nat} {stage : Nat} {p : Piece} (h : s.Inv) :
    InvOut (State.performPiece s core a i stage p) := by
  have ha := keeps_advancePiece (core := core) (a := a) (i := i) (stage := stage) (p := p) h
  unfold State.performPiece
  dsimp only
  split
  · split_ifs
    · exact keepsOut_orStay h (keepsOpt_refuseAccess ha)
    · exact keepsOut_orStay h (keepsOpt_refuseAccess ha)
    · exact keepsOut_next.mpr (keeps_advancePiece (keeps_writePiece h))
  · split
    · exact keepsOut_next.mpr (keeps_recordRefusal ha)
    · exact keepsOut_next.mpr ha
  · exact keepsOut_next.mpr ha

@[simp] theorem keepsOut_movePiece {s : State} {core : Nat} {id : Nat} {piece : Nat} {stage : Nat} (h : s.Inv) :
    InvOut (State.movePiece s core id piece stage) := by
  unfold State.movePiece
  split
  · exact keepsOut_next.mpr h
  · split
    · exact keepsOut_next.mpr h
    · dsimp only
      split_ifs
      · exact keepsOut_next.mpr h
      · exact keepsOut_orStay h (keepsOpt_refuseAccess (keeps_advancePiece h))
      · exact keepsOut_performPiece (keeps_sendPiece h)
      · exact keepsOut_next.mpr (keeps_advancePiece (keeps_sendPiece h))

@[simp] theorem keepsOut_movePieces {s : State} {core : Nat} {id : Nat} {stage : Nat} {i : Nat} {n5 : Nat} (h : s.Inv) :
    InvOut (State.movePieces s core id stage i n5) := by
  induction n5 generalizing s i with
  | zero => exact keepsOut_next.mpr h
  | succ n ih =>
    unfold State.movePieces
    split
    · next t ht => exact ih (keepsOut_movePiece h t ht)
    · exact keepsOut_movePiece h

@[simp] theorem keepsOut_execStorePerform {core : Nat} {id : Nat} {piece : Nat} {stage : Nat} {s : State} (h : s.Inv) :
    InvOut (execStorePerform core id piece stage s) := by
  unfold execStorePerform
  split
  · exact keepsOut_next.mpr h
  · dsimp only
    split_ifs
    · exact keepsOut_movePiece h
    · exact keepsOut_movePieces h
    · exact keepsOut_next.mpr h

@[simp] theorem keeps_faultAccess {s : State} {core : Nat} {a : Access} {va : Nat} {code : Nat} (h : s.Inv) :
    (State.faultAccess s core a va code).Inv := by
  unfold State.faultAccess
  dsimp only
  split
  · exact h
  · exact keeps_getD (keepsOpt_takeFault h) h

@[simp] theorem keepsOut_withWalker {die : Nat} {w : State → Host.Outcome State Fault Refusal} {s : State}
    (h : s.Inv) (hw : InvOut (w s)) : InvOut (withWalker die w s) := by
  unfold withWalker
  split
  · cases hr : w s with
    | next t => simp [h, hw t hr]
    | fault f => exact keepsOut_fault f
    | refused r => exact keepsOut_refused r
  · exact hw

@[simp] theorem keeps_fillJoined {s : State} {w : Who} {va : Nat} {e : BitVec 64} {big : Bool} (h : s.Inv) :
    (State.fillJoined s w va e big).Inv := by
  unfold State.fillJoined
  exact keeps_foldl (fun s x h => by simp [h]) _ h

@[simp] theorem keeps_settleEnding {s : State} {core : Nat} {uid : Nat} (h : s.Inv) :
    (State.settleEnding s core uid).Inv := by
  unfold State.settleEnding
  (repeat' split) <;> simp [h]

@[simp] theorem keeps_placeAccess {s : State} {core : Nat} {a : Access} (h : s.Inv) :
    (State.placeAccess s core a).Inv := by
  unfold State.placeAccess
  dsimp only
  split
  · exact keeps_faultAccess h
  · exact keeps_settleEnding (keeps_modCore h)

@[simp] theorem keeps_endPrefetch {s : State} {core : Nat} {a : Access} {p : Piece} (h : s.Inv) :
    (State.endPrefetch s core a p).Inv := by
  unfold State.endPrefetch
  dsimp only
  split
  · exact keeps_modCore h
  · exact keeps_prefetchHit (keeps_modCore h)
  · split
    · exact keeps_fillJoined (keeps_modCore h)
    · exact keeps_modCore h

@[simp] theorem keepsOut_execTlbWalkComplete {core : Nat} {id : Nat} {page : Nat} {s : State} (h : s.Inv) :
    InvOut (execTlbWalkComplete core id page s) := by
  unfold execTlbWalkComplete
  dsimp only
  (repeat' split) <;> simp [h]

end Sys2Proof.Proofs

/-! Canonical form: semaphores, barriers, versions and copies. -/

namespace Sys2Proof.Proofs

open Sys2Proof.Machine Sys2Proof.Laws

@[simp] theorem keeps_setSem {s : State} {ctx : Nat} {n : Nat} {v : BitVec 32} (h : s.Inv) :
    (State.setSem s ctx n v).Inv := by
  unfold State.setSem
  simp [h]

@[simp] theorem keeps_setSemChain {s : State} {ctx : Nat} {n : Nat} {l : List Waiter} (h : s.Inv) :
    (State.setSemChain s ctx n l).Inv := by
  unfold State.setSemChain
  simp [h]

@[simp] theorem keeps_proceed {s : State} {n1 : Waiter} (h : s.Inv) :
    (State.proceed s n1).Inv := by
  unfold State.proceed
  split <;> simp [h]

@[simp] theorem keeps_semWait {s : State} {ctx : Nat} {n : Nat} {w : Waiter} (h : s.Inv) :
    (State.semWait s ctx n w).Inv := by
  unfold State.semWait
  simp [h]

@[simp] theorem keeps_semDrain {s : State} {ctx : Nat} {n : Nat} {n3 : List Waiter} (h : s.Inv) :
    (State.semDrain s ctx n n3).Inv := by
  induction n3 generalizing s with
  | nil => exact keeps_setSemChain h
  | cons w ws ih =>
    unfold State.semDrain
    split
    · exact ih (keeps_proceed (keeps_setSem h))
    · exact keeps_setSemChain h

@[simp] theorem keepsOpt_semAdd {s : State} {ctx : Nat} {n : Nat} {a : Nat} (h : s.Inv) :
    InvOpt (State.semAdd s ctx n a) := by
  unfold State.semAdd
  split
  · exact keepsOpt_none
  · exact keepsOpt_some.mpr (keeps_semDrain (keeps_setSem h))

@[simp] theorem keeps_dropReq {s : State} {id : Nat} (h : s.Inv) :
    (State.dropReq s id).Inv := by
  unfold State.dropReq
  simp [h]

@[simp] theorem keeps_putReq {s : State} {r : Req} (h : s.Inv) :
    (State.putReq s r).Inv := by
  unfold State.putReq
  simp [h]

@[simp] theorem keepsOut_execSemWaitRequest {id : Nat} {s : State} (h : s.Inv) :
    InvOut (execSemWaitRequest id s) := by
  unfold execSemWaitRequest
  split
  · dsimp only
    split
    · split
      · exact keepsOut_next.mpr (keeps_dropReq h)
      · split
        · exact keepsOut_next.mpr h
        · split
          · exact keepsOut_next.mpr (keeps_wakeRec (keeps_dropReq h))
          · exact keepsOut_next.mpr (keeps_semWait (keeps_dropReq h))
    · split
      · exact keepsOut_next.mpr h
      · split
        · exact keepsOut_next.mpr h
        · split
          · exact keepsOut_orStay h (keepsOpt_cmdFault (keeps_dropReq h))
          · exact keepsOut_next.mpr (keeps_semWait (keeps_dropReq h))
  · exact keepsOut_next.mpr h

@[simp] theorem keepsOpt_launchOverflow {s : State} {ctx : Nat} {n : Nat} {tag : W64} (h : s.Inv) :
    InvOpt (State.launchOverflow s ctx n tag) := by
  unfold State.launchOverflow
  simp [h]

@[simp] theorem keeps_fabricAdd {s : State} {ctx : Nat} {n : Nat} {team : Nat} {core : Nat} {pc : W64} {seq : BitVec 32} (h : s.Inv) :
    (State.fabricAdd s ctx n team core pc seq).Inv := by
  unfold State.fabricAdd
  split
  · dsimp only
    split
    · next t ht =>
      split at ht
      · exact nomatch ht
      · exact keepsOpt_semAdd h t ht
    · exact keeps_if h (keeps_getD (keepsOpt_faultTeam h) (keeps_putReq h))
  · exact keeps_putReq h

@[simp] theorem keeps_fabricSignal {s : State} {id : Nat} (h : s.Inv) :
    (State.fabricSignal s id).Inv := by
  unfold State.fabricSignal
  split <;> simp [h]

@[simp] theorem keepsOut_execSemSignal {id : Nat} {s : State} (h : s.Inv) :
    InvOut (execSemSignal id s) := by
  unfold execSemSignal
  split
  · next deps _ _ =>
    dsimp only
    have hclosed : ∀ {t : State} {core cmd}, t.Inv →
        (match deps, t.cmd core cmd with | some _, some c => t.finishCmd c | _, _ => t).Inv := by
      intro t _ _ ht
      split
      · exact keeps_finishCmd ht
      · exact ht
    split
    · exact keepsOut_next.mpr (keeps_if h (keeps_dropReq h))
    · split
      · exact keepsOut_next.mpr h
      · split
        · refine keepsOut_orStay h ?_
          split
          · exact keepsOpt_some.mpr (hclosed (keeps_dropReq h))
          · exact keepsOpt_faultTeam (hclosed (keeps_dropReq h))
        · split
          · next t ht => exact keepsOut_next.mpr (hclosed (keepsOpt_semAdd (keeps_dropReq h) t ht))
          · refine keepsOut_orStay h ?_
            split
            · exact keepsOpt_launchOverflow (hclosed (keeps_dropReq h))
            · exact keepsOpt_faultTeam (hclosed (keeps_dropReq h))
  · exact keepsOut_next.mpr (keeps_fabricSignal h)
  · exact keepsOut_next.mpr h

@[simp] theorem keeps_leaveRec {s : State} {e : Env} {bytes : Nat} {r : Rec} (h : s.Inv) :
    (State.leaveRec s e bytes r).Inv := by
  unfold State.leaveRec
  simp [h]

@[simp] theorem keepsOut_execWaits {f : FE3} {s : State} (h : s.Inv) :
    InvOut (execWaits f s) := by
  unfold execWaits
  refine keepsOut_issue h fun e => ?_
  split <;> simp [h]

@[simp] theorem keepsAct_sigs {e : Env} {bytes : Nat} {i : Instr} {f : FE2} {amount : W64} {s : State} (h : s.Inv) :
    InvAct (sigs e bytes i f amount s) := by
  unfold sigs
  dsimp only
  split
  · next t ht => exact keepsAct_done.mpr (keeps_putReq (keepsAct_cmdAct h t ht))
  · exact keepsAct_cmdAct h

@[simp] theorem keepsOut_execSigs {f : FE2} {s : State} (h : s.Inv) :
    InvOut (execSigs f s) := by
  unfold execSigs
  simp [h]

@[simp] theorem keepsOut_execSigsE3 {f : FE3} {s : State} (h : s.Inv) :
    InvOut (execSigsE3 f s) := by
  unfold execSigsE3
  simp [h]

@[simp] theorem keepsOut_execSemrd {f : FE3} {s : State} (h : s.Inv) :
    InvOut (execSemrd f s) := by
  unfold execSemrd
  simp [h]

@[simp] theorem keepsOut_execSemRead {core : Nat} {id : Nat} {s : State} (h : s.Inv) :
    InvOut (execSemRead core id s) := by
  unfold execSemRead
  (repeat' split) <;> simp [h]

@[simp] theorem keeps_setBar {s : State} {k : Nat} {b : Bar} (h : s.Inv) :
    (State.setBar s k b).Inv := by
  unfold State.setBar
  simp [h]

@[simp] theorem keeps_wakeBar {s : State} {k : Nat} (h : s.Inv) :
    (State.wakeBar s k).Inv := by
  unfold State.wakeBar
  exact keeps_foldl (fun s x h => by simp [h]) _ h

theorem keeps_arrive {s : State} {k n : Nat} (h : s.Inv) : (s.arrive k n).2.Inv := by
  unfold State.arrive
  dsimp only
  split
  · exact keeps_setBar h
  · split
    · exact keeps_wakeBar (keeps_setBar h)
    · exact keeps_setBar h

@[simp] theorem keeps_parkBar {s : State} {k : Nat} {w : Waiter} (h : s.Inv) :
    (State.parkBar s k w).Inv := by
  unfold State.parkBar
  simp [h]

@[simp] theorem keepsOut_execWaitb {f : FE3} {s : State} (h : s.Inv) :
    InvOut (execWaitb f s) := by
  unfold execWaitb
  refine keepsOut_issue h fun e => ?_
  dsimp only
  (repeat' split) <;> simp [h]

@[simp] theorem keeps_setDeadline {s : State} {team : Nat} {r : Nat} {d : Nat} (h : s.Inv) :
    (State.setDeadline s team r d).Inv := by
  unfold State.setDeadline
  simp [h]

@[simp] theorem keepsOut_execBarrierWaitRequest {id : Nat} {s : State} (h : s.Inv) :
    InvOut (execBarrierWaitRequest id s) := by
  unfold execBarrierWaitRequest
  split
  · split
    · exact keepsOut_next.mpr (keeps_dropReq h)
    · split
      · exact keepsOut_next.mpr h
      · split
        · exact keepsOut_next.mpr (keeps_wakeRec (keeps_dropReq h))
        · split
          · exact keepsOut_next.mpr (keeps_wakeRec (keeps_setBar (keeps_dropReq h)))
          · exact keepsOut_next.mpr (keeps_setDeadline (keeps_parkBar (keeps_dropReq h)))
  · exact keepsOut_next.mpr h

@[simp] theorem keepsOut_execWaitbDeadline {id : Nat} {s : State} (h : s.Inv) :
    InvOut (execWaitbDeadline id s) := by
  unfold execWaitbDeadline
  (repeat' split) <;> simp [h]

@[simp] theorem keeps_unlinkBar {s : State} {k : Nat} {team : Nat} {r : Nat} {status : Nat} (h : s.Inv) :
    (State.unlinkBar s k team r status).Inv := by
  unfold State.unlinkBar
  simp [h]

@[simp] theorem keepsOut_execWaitbUnlink {id : Nat} {s : State} (h : s.Inv) :
    InvOut (execWaitbUnlink id s) := by
  unfold execWaitbUnlink
  split <;> simp [h]

@[simp] theorem keeps_storeObject {s : State} {k : Nat} {p : Piece} (h : s.Inv) :
    (State.storeObject s k p).Inv := by
  unfold State.storeObject
  simp [h]

@[simp] theorem keepsOut_execBarrierObjectStore {core : Nat} {id : Nat} {piece : Nat} {s : State} (h : s.Inv) :
    InvOut (execBarrierObjectStore core id piece s) := by
  unfold execBarrierObjectStore
  split
  · exact keepsOut_next.mpr h
  · split
    · exact keepsOut_next.mpr h
    · split
      · split
        · exact keepsOut_next.mpr h
        · split
          · exact keepsOut_orStay h (keepsOpt_refuseAccess (keeps_advancePiece h))
          · exact keepsOut_next.mpr (keeps_advancePiece (keeps_storeObject h))
      · exact keepsOut_next.mpr h

@[simp] theorem keeps_modQp {s : State} {cl : Nat} {qp : Nat} {g : Qp → Qp} (h : s.Inv) :
    (State.modQp s cl qp g).Inv := by
  unfold State.modQp
  simp [h]

@[simp] theorem keeps_msgOver {s : State} {m : FabricMsg} {performed : Bool} (h : s.Inv) :
    (State.msgOver s m performed).Inv := by
  unfold State.msgOver
  simp [h]

@[simp] theorem keeps_msgLanded {s : State} {m : FabricMsg} (h : s.Inv) :
    (State.msgLanded s m).Inv := by
  unfold State.msgLanded
  simp [h]

@[simp] theorem keeps_loseQp {s : State} {cl : Nat} {qp : Nat} {target : Nat} (h : s.Inv) :
    (State.loseQp s cl qp target).Inv := by
  unfold State.loseQp
  split
  · exact keeps_writeNat h
  · refine keeps_writeNat (keeps_modQp (keeps_foldl (fun _ _ hs => ?_) _ h))
    exact keeps_modTeam (keeps_recordRefusal hs)

/-- An error of the fabric stops its queue pair.  The definition is opened as a function, not at its arguments: the
kernel would otherwise compute the key of the queue pair's record, a product with `2 ^ 46`. -/
@[simp] theorem keeps_stopQp {s : State} {m : FabricMsg} (h : s.Inv) : (State.stopQp s m).Inv := by
  have hq : (s.setQpState m.scl m.qp 2).Inv := keeps_setQpState h
  have key : ∀ f, f = State.stopQp → (f s m).Inv := by
    intro f hf
    delta State.stopQp at hf
    subst hf
    beta_reduce
    generalize s.setQpState m.scl m.qp 2 = b at hq ⊢
    dsimp only
    split
    · exact keeps_dropEntry hq
    · exact hq
  exact key _ rfl

@[simp] theorem keeps_sendRefused {s : State} {m : FabricMsg} {code : Nat} (h : s.Inv) :
    (State.sendRefused s m code).Inv := by
  unfold State.sendRefused
  simp [h]

@[simp] theorem keeps_addRsem {s : State} {m : FabricMsg} {path : Nat} {ref : Nat} (h : s.Inv) :
    (State.addRsem s m path ref).Inv := by
  unfold State.addRsem
  split
  · exact h
  · exact keeps_if h (keeps_fabricAdd h)

@[simp] theorem keeps_msgDone {s : State} {m : FabricMsg} (h : s.Inv) :
    (State.msgDone s m).Inv := by
  unfold State.msgDone
  simp [h]

@[simp] theorem keeps_msgRefused {s : State} {m : FabricMsg} {code : Nat} (h : s.Inv) :
    (State.msgRefused s m code).Inv := by
  unfold State.msgRefused
  simp [h]

@[simp] theorem keeps_versionMade {s : State} {n1 : Waiter} (h : s.Inv) :
    (State.versionMade s n1).Inv := by
  unfold State.versionMade
  split <;> simp [h]

@[simp] theorem keeps_wakeVer {s : State} {ctx : Nat} {n : Nat} {g : Nat} {v : Nat} (h : s.Inv) :
    (State.wakeVer s ctx n g v).Inv := by
  unfold State.wakeVer
  exact keeps_foldl (fun _ _ hs => keeps_versionMade hs) _ (keeps_if (keeps_setVerChain h) h)

@[simp] theorem keeps_makeVersions {s : State} {ctx : Nat} {n : Nat} {r : Region} {v : Nat} {n5 : Nat} {n6 : List Row} (h : s.Inv) :
    (State.makeVersions s ctx n r v n5 n6).Inv := by
  induction n6 generalizing s n5 with
  | nil => exact h
  | cons row rows ih =>
    unfold State.makeVersions
    exact ih (keeps_wakeVer (keeps_agentNat (keeps_agentNat h)))

@[simp] theorem keeps_parkCreate {s : State} {id : Nat} {q : VReq} {n : Nat} {g : Nat} (h : s.Inv) :
    (State.parkCreate s id q n g).Inv := by
  unfold State.parkCreate
  simp [h]

@[simp] theorem keeps_answer {s : State} {id : Nat} {q : VReq} {code : Nat} {addr : W64} (h : s.Inv) :
    (State.answer s id q code addr).Inv := by
  unfold State.answer
  dsimp only
  (repeat' split) <;> simp [h]

/-- Memory and tags are canonical in the state, if any, that a create leaves. -/
def InvCreate : Create → Prop
  | .made s => s.Inv
  | .dropped s => s.Inv
  | _ => True

theorem keepsCreate_create {s : State} {ctx n : Nat} {r : Region} {g v : Nat} {rows : List Row} {fabric : Bool}
    (h : s.Inv) : InvCreate (s.create ctx n r g v rows fabric) := by
  unfold State.create
  split
  · trivial
  · split
    · split
      · exact keeps_agentNat h
      · trivial
    · split
      · trivial
      · exact keeps_makeVersions h

theorem inv_of_create_made {s t : State} {ctx n : Nat} {r : Region} {g v : Nat} {rows : List Row} {fabric : Bool}
    (h : s.Inv) (hc : s.create ctx n r g v rows fabric = .made t) : t.Inv := by
  have hk := keepsCreate_create (ctx := ctx) (n := n) (r := r) (g := g) (v := v) (rows := rows) (fabric := fabric) h
  rwa [hc] at hk

theorem inv_of_create_dropped {s t : State} {ctx n : Nat} {r : Region} {g v : Nat} {rows : List Row} {fabric : Bool}
    (h : s.Inv) (hc : s.create ctx n r g v rows fabric = .dropped t) : t.Inv := by
  have hk := keepsCreate_create (ctx := ctx) (n := n) (r := r) (g := g) (v := v) (rows := rows) (fabric := fabric) h
  rwa [hc] at hk

theorem keeps_recheck {s : State} {id : Nat} (h : s.Inv) : (s.recheck id).1.Inv := by
  unfold State.recheck
  split
  · exact h
  · split
    · exact h
    · split
      · exact keeps_answer (inv_of_create_made h ‹_›)
      · exact keeps_answer (inv_of_create_dropped h ‹_›)
      · exact h
      · exact keeps_answer h

@[simp] theorem keeps_letGo {s : State} {ctx : Nat} {n : Nat} {n3 : List Nat} (h : s.Inv) :
    (State.letGo s ctx n n3).Inv := by
  induction n3 generalizing s with
  | nil => exact h
  | cons id ids ih =>
    unfold State.letGo
    exact ih (keeps_if (keeps_setPwait (keeps_recheck h)) (keeps_recheck h))

@[simp] theorem keeps_releaseFloor {s : State} {ctx : Nat} {n : Nat} {r : Region} {f : Nat} (h : s.Inv) :
    (State.releaseFloor s ctx n r f).Inv := by
  unfold State.releaseFloor
  simp [h]

@[simp] theorem keepsAct_versionAct {e : Env} {op : VOp} {va : W64} {m : Nat} {mk : Nat → VReq} {blocked : Bool} {fills : List Nat} {s : State} (h : s.Inv) :
    InvAct (versionAct e op va m mk blocked fills s) := by
  unfold versionAct
  dsimp only
  (repeat' split) <;> simp [h]

@[simp] theorem keepsOut_execVldv {f : FVV} {s : State} (h : s.Inv) :
    InvOut (execVldv f s) := by
  unfold execVldv
  simp [h]

@[simp] theorem keepsOut_execVstv {f : FVV} {s : State} (h : s.Inv) :
    InvOut (execVstv f s) := by
  unfold execVstv
  simp [h]

@[simp] theorem keepsOut_execVqry {f : FVV} {s : State} (h : s.Inv) :
    InvOut (execVqry f s) := by
  unfold execVqry
  simp [h]

@[simp] theorem keepsOut_execVrelv {f : FVV} {s : State} (h : s.Inv) :
    InvOut (execVrelv f s) := by
  unfold execVrelv
  simp [h]

@[simp] theorem keepsOut_execVcCreate {id : Nat} {s : State} (h : s.Inv) :
    InvOut (execVcCreate id s) := by
  unfold execVcCreate
  split
  · exact keepsOut_next.mpr h
  · next q _ =>
    split
    · split
      · exact keepsOut_next.mpr h
      · dsimp only
        split
        · exact keepsOut_next.mpr (keeps_answer (keeps_fillUnits h))
        · split
          · next ht => exact keepsOut_next.mpr (keeps_answer (inv_of_create_made (keeps_fillUnits h) ht))
          · next ht => exact keepsOut_next.mpr (keeps_answer (inv_of_create_dropped (keeps_fillUnits h) ht))
          · exact keepsOut_next.mpr (keeps_answer (keeps_fillUnits h))
          · exact keepsOut_next.mpr (keeps_parkCreate (keeps_modCore (keeps_fillUnits h)))
    · exact keepsOut_next.mpr h

@[simp] theorem keepsOut_execVcRead {id : Nat} {k : Nat} {s : State} (h : s.Inv) :
    InvOut (execVcRead id k s) := by
  unfold execVcRead
  (repeat' split) <;> simp [h]

@[simp] theorem keepsOut_execVcQuery {id : Nat} {s : State} (h : s.Inv) :
    InvOut (execVcQuery id s) := by
  unfold execVcQuery
  (repeat' split) <;> simp [h]

@[simp] theorem keepsOut_execVcRelease {id : Nat} {s : State} (h : s.Inv) :
    InvOut (execVcRelease id s) := by
  unfold execVcRelease
  (repeat' split) <;> simp [h]

@[simp] theorem keeps_parkRead {s : State} {e : Env} {q : VReq} (h : s.Inv) :
    (State.parkRead s e q).Inv := by
  unfold State.parkRead
  dsimp only
  (repeat' split) <;> simp [h]

@[simp] theorem keepsOut_execVersionAnswerArrival {team : Nat} {s : State} (h : s.Inv) :
    InvOut (execVersionAnswerArrival team s) := by
  unfold execVersionAnswerArrival
  (repeat' split) <;> simp [h]

@[simp] theorem keepsOut_execCpy {f : FE3} {s : State} (h : s.Inv) :
    InvOut (execCpy f s) := by
  unfold execCpy
  simp [h]

@[simp] theorem keepsOut_execCpyv {f : FE3} {s : State} (h : s.Inv) :
    InvOut (execCpyv f s) := by
  unfold execCpyv
  simp [h]

@[simp] theorem keepsOut_execCpys {f : FE3} {s : State} (h : s.Inv) :
    InvOut (execCpys f s) := by
  unfold execCpys
  simp [h]

@[simp] theorem keepsOut_chunkFault {s : State} {c : Cmd} {va : Nat} {code : Nat} {write : optParam Bool false} (h : s.Inv) :
    InvOut (State.chunkFault s c va code write) := by
  unfold State.chunkFault
  simp [h]

@[simp] theorem keeps_chunkDone {s : State} {c : Cmd} {chunks : Nat} (h : s.Inv) :
    (State.chunkDone s c chunks).Inv := by
  unfold State.chunkDone
  simp [h]

theorem keepsOut_moveChunk {s : State} {c : Cmd} {p : Path} {src dst len chunks : Nat}
    {tags : List Span → List Span → State → State} (h : s.Inv)
    (ht : ∀ rd wr (t : State), t.Inv → (tags rd wr t).Inv) : InvOut (s.moveChunk c p src dst len chunks tags) := by
  have hfilled : ∀ {a b}, ((s.fillUnits c.who p false a).fillUnits c.who p true b).Inv :=
    keeps_fillUnits (keeps_fillUnits h)
  unfold State.moveChunk
  dsimp only
  split
  · exact keepsOut_chunkFault hfilled
  · exact keepsOut_chunkFault hfilled
  · split
    · exact keepsOut_next.mpr hfilled
    · split
      · exact keepsOut_chunkFault hfilled
      · exact keepsOut_next.mpr (keeps_chunkDone (ht _ _ _ (keeps_engineWrite hfilled)))

@[simp] theorem keeps_moveTag {s : State} {c : Cmd} {rd : List Span} {wr : List Span} (h : s.Inv) :
    (State.moveTag s c rd wr).Inv := by
  unfold State.moveTag
  split <;> simp [h]

@[simp] theorem keepsOut_versionRead {s : State} {c : Cmd} {m : Nat} {k : Nat} (h : s.Inv) :
    InvOut (State.versionRead s c m k) := by
  have hfilled : ∀ {a b}, ((s.fillUnits c.who .versioned false a).fillUnits c.who .plain true b).Inv :=
    keeps_fillUnits (keeps_fillUnits h)
  unfold State.versionRead
  dsimp only
  split
  · exact keepsOut_chunkFault hfilled
  · split
    · exact keepsOut_chunkFault hfilled
    · split
      · exact keepsOut_next.mpr (keeps_setVerChain (keeps_setCmd hfilled))
      · exact keepsOut_next.mpr (keeps_chunkDone (keeps_engineWrite hfilled))

@[simp] theorem keepsOut_versionCreate {s : State} {c : Cmd} {m : Nat} {k : Nat} (h : s.Inv) :
    InvOut (State.versionCreate s c m k) := by
  have hfilled : ∀ {a b}, ((s.fillUnits c.who .plain false a).fillUnits c.who .versioned true b).Inv :=
    keeps_fillUnits (keeps_fillUnits h)
  unfold State.versionCreate
  dsimp only
  split
  · exact keepsOut_chunkFault hfilled
  · exact keepsOut_chunkFault hfilled
  · split
    · exact keepsOut_chunkFault hfilled
    · split
      · exact keepsOut_next.mpr hfilled
      · split
        · exact keepsOut_chunkFault hfilled
        · split
          · exact keepsOut_next.mpr (keeps_chunkDone (inv_of_create_made hfilled ‹_›))
          · exact keepsOut_next.mpr (keeps_chunkDone (inv_of_create_dropped hfilled ‹_›))
          · exact keepsOut_chunkFault hfilled
          · exact keepsOut_next.mpr (keeps_parkCreate (keeps_setCmd (keeps_fresh hfilled)))

@[simp] theorem keepsOut_versionChunk {s : State} {c : Cmd} {cr : Bool} (h : s.Inv) :
    InvOut (State.versionChunk s c cr) := by
  unfold State.versionChunk
  (repeat' split) <;> simp [h]

@[simp] theorem keepsOut_execCopyChunk {core : Nat} {id : Nat} {s : State} (h : s.Inv) :
    InvOut (execCopyChunk core id s) := by
  unfold execCopyChunk
  split
  · exact keepsOut_next.mpr h
  · split
    · exact keepsOut_next.mpr h
    · dsimp only
      split
      · split
        · exact keepsOut_next.mpr (keeps_finishCmd h)
        · exact keepsOut_moveChunk h fun _ _ _ ht => ht
      · split
        · exact keepsOut_next.mpr (keeps_finishCmd h)
        · exact keepsOut_moveChunk h fun _ _ _ ht => keeps_moveTag ht
      · exact keepsOut_versionChunk h
      · exact keepsOut_next.mpr h

@[simp] theorem keepsOut_execParkedRetry {id : Nat} {s : State} (h : s.Inv) :
    InvOut (execParkedRetry id s) := by
  unfold execParkedRetry
  simp [h]

@[simp] theorem keepsOut_execAcw {f : FE3} {s : State} (h : s.Inv) :
    InvOut (execAcw f s) := by
  unfold execAcw
  simp [h]

@[simp] theorem keepsOut_acwStart {s : State} {c : Cmd} {f : FE3} (h : s.Inv) :
    InvOut (State.acwStart s c f) := by
  have hfilled : ∀ {a b}, ((s.fillUnits c.who .plain true a).fillUnits c.who .plain true b).Inv :=
    keeps_fillUnits (keeps_fillUnits h)
  unfold State.acwStart
  dsimp only
  split
  · exact keepsOut_chunkFault hfilled
  · exact keepsOut_chunkFault hfilled
  · split
    · exact keepsOut_chunkFault hfilled
    · exact keepsOut_if (keepsOut_next.mpr hfilled) (keepsOut_next.mpr (keeps_setCmd hfilled))

@[simp] theorem keeps_trackAtomic {s : State} {c : Cmd} {d : Piece} (h : s.Inv) :
    (State.trackAtomic s c d).Inv := by
  unfold State.trackAtomic
  simp [h]

theorem keeps_acwElem {s t : State} {c : Cmd} {f : FE3} {d : Piece} {old : Nat} (h : s.Inv)
    (he : s.acwElem c f d = .ok (old, t)) : t.Inv := by
  unfold State.acwElem at he
  dsimp only at he
  split at he
  · exact nomatch he
  · split at he
    · split at he
      · exact nomatch he
      · cases he
        exact keeps_if (keeps_storeObject h) (keeps_writePiece h)
    · cases he
      exact keeps_trackAtomic (keeps_sendAccess h)
    · cases he
      exact h

@[simp] theorem keepsOut_execAcwPortStep {core : Nat} {id : Nat} {s : State} (h : s.Inv) :
    InvOut (execAcwPortStep core id s) := by
  unfold execAcwPortStep
  split
  · exact keepsOut_next.mpr h
  split
  · split
    · exact keepsOut_next.mpr h
    split
    · exact keepsOut_acwStart h
    dsimp only
    split
    · exact keepsOut_next.mpr h
    split
    · exact keepsOut_next.mpr h
    split
    · exact keepsOut_next.mpr h
    split
    · exact keepsOut_chunkFault h
    · next t ht =>
      have ht := keeps_acwElem h ht
      refine keepsOut_next.mpr (keeps_if (keeps_setCmd ?_) (keeps_finishCmd ?_)) <;>
        (repeat' split) <;> simp [ht]
  · exact keepsOut_next.mpr h

@[simp] theorem keepsOut_execAcwArrive {f : FE3} {s : State} (h : s.Inv) :
    InvOut (execAcwArrive f s) := by
  unfold execAcwArrive
  simp [h]

@[simp] theorem keepsOut_execBarrierArriveStep {core : Nat} {id : Nat} {s : State} (h : s.Inv) :
    InvOut (execBarrierArriveStep core id s) := by
  unfold execBarrierArriveStep
  split
  · exact keepsOut_next.mpr h
  split
  · split
    · exact keepsOut_next.mpr h
    dsimp only
    split
    · exact keepsOut_chunkFault (keeps_fillUnits h)
    · exact keepsOut_chunkFault (keeps_fillUnits h)
    · exact keepsOut_if (keepsOut_next.mpr (keeps_fillUnits h))
        (keepsOut_next.mpr (keeps_finishCmd (keeps_engineWrite (keeps_arrive (keeps_fillUnits h)))))
  · exact keepsOut_next.mpr h

end Sys2Proof.Proofs

/-! Canonical form: the matrix engine and the fabric. -/

namespace Sys2Proof.Proofs

open Sys2Proof.Machine Sys2Proof.Laws

theorem keeps_useTile {s t : State} {e : Env} {n p : Nat} (h : s.Inv) (hu : s.useTile e n = .ok (p, t)) : t.Inv := by
  unfold State.useTile at hu
  split at hu
  · exact nomatch hu
  · dsimp only at hu
    split at hu
    · cases hu
      exact keeps_modTeam h
    · split at hu
      · exact nomatch hu
      · cases hu
        exact keeps_modTeam (keeps_modCore h)

@[simp] theorem keepsAct_matrixAct {e : Env} {bytes : Nat} {i : Instr} {f : FE2} {x : W64 × W64 × W64} {tile : Option Nat} {bad : Option (Nat × W64)} {regs : Task → Task} {make : Cmd → Cmd} {s : State} (h : s.Inv) :
    InvAct (matrixAct e bytes i f x tile bad regs make s) := by
  unfold matrixAct
  split
  · exact keepsAct_cmdAct h
  · split
    · exact keepsAct_hold
    · split
      · exact keepsAct_tokenFault
      · exact keepsAct_fault _
      · next ht => exact keepsAct_cmdAct (keeps_useTile h ht)

@[simp] theorem keepsOut_execMrec {f : FE3} {s : State} (h : s.Inv) :
    InvOut (execMrec f s) := by
  unfold execMrec
  simp [h]

@[simp] theorem keepsOut_execMldb {f : FE3} {s : State} (h : s.Inv) :
    InvOut (execMldb f s) := by
  unfold execMldb
  simp [h]

@[simp] theorem keepsOut_execMma {f : FE3} {s : State} (h : s.Inv) :
    InvOut (execMma f s) := by
  unfold execMma
  simp [h]

@[simp] theorem keepsOut_execMmav {f : FE3} {s : State} (h : s.Inv) :
    InvOut (execMmav f s) := by
  unfold execMmav
  simp [h]

@[simp] theorem keepsOut_execMmag {f : FE3} {s : State} (h : s.Inv) :
    InvOut (execMmag f s) := by
  unfold execMmag
  simp [h]

@[simp] theorem keepsOut_execMrank {f : FE3} {s : State} (h : s.Inv) :
    InvOut (execMrank f s) := by
  unfold execMrank
  simp [h]

@[simp] theorem keepsOut_execMzero {f : FE2} {s : State} (h : s.Inv) :
    InvOut (execMzero f s) := by
  unfold execMzero
  simp [h]

@[simp] theorem keepsOut_execMdrain {f : FE3} {s : State} (h : s.Inv) :
    InvOut (execMdrain f s) := by
  unfold execMdrain
  simp [h]

@[simp] theorem keepsOut_execMmova {f : FE3} {s : State} (h : s.Inv) :
    InvOut (execMmova f s) := by
  unfold execMmova
  simp [h]

@[simp] theorem keepsOut_execMmovv {f : FE3} {s : State} (h : s.Inv) :
    InvOut (execMmovv f s) := by
  unfold execMmovv
  simp [h]

@[simp] theorem keepsOut_execMqry {f : FE3} {s : State} (h : s.Inv) :
    InvOut (execMqry f s) := by
  unfold execMqry
  simp [h]

@[simp] theorem keepsOut_matrixFault {s : State} {c : Cmd} {va : Nat} {code : Nat} {write : optParam Bool false} (h : s.Inv) :
    InvOut (State.matrixFault s c va code write) := by
  unfold State.matrixFault
  simp [h]

@[simp] theorem keeps_fillLoad {s : State} {c : Cmd} {d : BufDesc} (h : s.Inv) :
    (State.fillLoad s c d).Inv := by
  unfold State.fillLoad
  simp [h]

@[simp] theorem keeps_loseBuf {s : State} {c : Cmd} {n : Nat} (h : s.Inv) :
    (State.loseBuf s c n).Inv := by
  unfold State.loseBuf
  simp [h]

@[simp] theorem keeps_failBuf {s : State} {c : Cmd} {n : Nat} {o : OpRec} {code : Nat} (h : s.Inv) :
    (State.failBuf s c n o code).Inv := by
  unfold State.failBuf
  simp [h]

@[simp] theorem keeps_putBuf {s : State} {c : Cmd} {n : Nat} {d : BufDesc} {b : PhysBuf} (h : s.Inv) :
    (State.putBuf s c n d b).Inv := by
  unfold State.putBuf
  simp [h]

@[simp] theorem keeps_purgeBufs {s : State} {core : Nat} (h : s.Inv) :
    (State.purgeBufs s core).Inv := by
  unfold State.purgeBufs
  simp [h]

@[simp] theorem keepsOut_runMrec {s : State} {c : Cmd} {slot : Nat} (h : s.Inv) :
    InvOut (State.runMrec s c slot) := by
  unfold State.runMrec
  dsimp only
  split
  · exact keepsOut_next.mpr (keeps_fillUnits h)
  · exact keepsOut_matrixFault (keeps_fillUnits h)
  · exact keepsOut_if (keepsOut_matrixFault (keeps_fillUnits h))
      (keepsOut_next.mpr (keeps_finishCmd (keeps_modTeam (keeps_fillUnits h))))

@[simp] theorem keepsOut_runMldb {s : State} {c : Cmd} {f : FE3} (h : s.Inv) :
    InvOut (State.runMldb s c f) := by
  unfold State.runMldb
  dsimp only
  split
  · exact keepsOut_matrixFault h
  · split
    · exact keepsOut_matrixFault h
    · split
      · exact keepsOut_next.mpr (keeps_fillLoad h)
      · exact keepsOut_matrixFault (keeps_failBuf (keeps_fillLoad h))
      · exact keepsOut_next.mpr (keeps_finishCmd (keeps_putBuf (keeps_fillLoad h)))

@[simp] theorem keeps_setAccRow {s : State} {c : Cmd} {row : Nat} {v : AccRow} (h : s.Inv) :
    (State.setAccRow s c row v).Inv := by
  unfold State.setAccRow
  simp [h]

@[simp] theorem keeps_zeroAcc {s : State} {c : Cmd} {first : Nat} {n3 : Nat} (h : s.Inv) :
    (State.zeroAcc s c first n3).Inv := by
  induction n3 generalizing s with
  | zero => exact h
  | succ n ih =>
    unfold State.zeroAcc
    exact ih (keeps_if (keeps_setAccRow h) h)

@[simp] theorem keeps_runMmova {s : State} {c : Cmd} {f : FE3} (h : s.Inv) :
    (State.runMmova s c f).Inv := by
  unfold State.runMmova
  simp [h]

@[simp] theorem keeps_runMmovv {s : State} {c : Cmd} {f : FE3} (h : s.Inv) :
    (State.runMmovv s c f).Inv := by
  exact keeps_finishCmd (keeps_foldl (fun _ _ hs => keeps_setAccRow hs) _ h)

@[simp] theorem keeps_runMqry {s : State} {c : Cmd} {f : FE3} (h : s.Inv) :
    (State.runMqry s c f).Inv := by
  unfold State.runMqry
  (repeat' split) <;> simp [h]

@[simp] theorem keepsOut_execMatrixCommandStart {core : Nat} {s : State} (h : s.Inv) :
    InvOut (execMatrixCommandStart core s) := by
  unfold execMatrixCommandStart
  split
  · exact keepsOut_next.mpr h
  · dsimp only
    split
    · exact keepsOut_runMrec (keeps_setCmd h)
    · exact keepsOut_runMldb (keeps_setCmd h)
    · exact keepsOut_next.mpr (keeps_finishCmd (keeps_zeroAcc (keeps_setCmd h)))
    · exact keepsOut_next.mpr (keeps_runMmova (keeps_setCmd h))
    · exact keepsOut_next.mpr (keeps_runMmovv (keeps_setCmd h))
    · exact keepsOut_next.mpr (keeps_runMqry (keeps_setCmd h))
    · exact keepsOut_next.mpr (keeps_setCmd h)

@[simp] theorem keeps_setSat {s : State} {team : Nat} {b : Bool} (h : s.Inv) :
    (State.setSat s team b).Inv := by
  unfold State.setSat
  simp [h]

@[simp] theorem keeps_applyRow {s : State} {c : Cmd} {b : PhysBuf} {d : BufDesc} {afmt : Nat} {asc : Bool} {a : List (BitVec 8)} {sa : List (BitVec 8)} {row : Nat} {p : Nat} (h : s.Inv) :
    (State.applyRow s c b d afmt asc a sa row p).Inv :=
  keeps_setSat (keeps_setAccRow (keeps_modTeam h))

@[simp] theorem keeps_endArray {s : State} {c : Cmd} (h : s.Inv) :
    (State.endArray s c).Inv :=
  keeps_purgeBufs (keeps_finishCmd h)

@[simp] theorem keepsOut_mmaRow {s : State} {c : Cmd} {f : FE3} {get : Nat → Nat → Got (List (BitVec 8))} (h : s.Inv) :
    InvOut (State.mmaRow s c f get) := by
  unfold State.mmaRow
  dsimp only
  split
  · exact keepsOut_matrixFault h
  split
  · exact keepsOut_matrixFault h
  split
  · exact keepsOut_next.mpr h
  split
  · exact keepsOut_next.mpr h
  split
  · exact keepsOut_matrixFault h
  · exact keepsOut_next.mpr h
  · exact keepsOut_matrixFault h
  · exact keepsOut_next.mpr h
  · exact keepsOut_next.mpr (keeps_if (keeps_setCmd (keeps_applyRow h)) (keeps_endArray (keeps_applyRow h)))

@[simp] theorem keepsOut_mrankRow {s : State} {c : Cmd} {f : FE3} (h : s.Inv) :
    InvOut (State.mrankRow s c f) := by
  unfold State.mrankRow
  dsimp only
  split
  · exact keepsOut_matrixFault h
  · split
    · exact keepsOut_next.mpr (keeps_fillUnits h)
    · exact keepsOut_matrixFault (keeps_fillUnits h)
    · exact keepsOut_next.mpr (keeps_if (keeps_setCmd (keeps_setSat (keeps_setAccRow (keeps_fillUnits h))))
        (keeps_endArray (keeps_setSat (keeps_setAccRow (keeps_fillUnits h)))))

@[simp] theorem keepsOut_drainStep {s : State} {c : Cmd} {f : FE3} (h : s.Inv) :
    InvOut (State.drainStep s c f) := by
  have hfilled : ∀ {a b}, ((s.fillUnits c.who .plain true a).fillUnits c.who .plain true b).Inv :=
    keeps_fillUnits (keeps_fillUnits h)
  unfold State.drainStep
  dsimp only
  refine keepsOut_if (keepsOut_matrixFault hfilled) ?_
  split
  · exact keepsOut_matrixFault hfilled
  · exact keepsOut_matrixFault hfilled
  · next d e _ _ =>
    have hwrote : ∀ {x y a b}, ((((s.fillUnits c.who .plain true a).fillUnits c.who .plain true b).engineWrite c d
        x).engineWrite c e y).Inv := keeps_engineWrite (keeps_engineWrite hfilled)
    exact keepsOut_next.mpr (keeps_if (keeps_setCmd (keeps_setSat (keeps_if (keeps_setAccRow hwrote) hwrote)))
      (keeps_finishCmd (keeps_setSat (keeps_if (keeps_setAccRow hwrote) hwrote))))

@[simp] theorem keepsOut_closeSegment {s : State} {c : Cmd} {count : Nat} {status : Nat} (h : s.Inv) :
    InvOut (State.closeSegment s c count status) := by
  unfold State.closeSegment
  dsimp only
  split
  · exact keepsOut_matrixFault (keeps_fillUnits h)
  · exact keepsOut_next.mpr (keeps_if (keeps_setCmd (keeps_purgeBufs (keeps_engineWrite (keeps_fillUnits h))))
      (keeps_endArray (keeps_purgeBufs (keeps_engineWrite (keeps_fillUnits h)))))

@[simp] theorem keepsOut_refuseSegment {s : State} {c : Cmd} {row : Nat} {cnt : Nat} {count : Nat} {status : Nat} (h : s.Inv) :
    InvOut (State.refuseSegment s c row cnt count status) :=
  keepsOut_closeSegment (keeps_zeroAcc h)

@[simp] theorem keepsOut_loadSegment {s : State} {c : Cmd} {f : FE3} {e : List (BitVec 8)} {astride : W64} {n0 : Nat} {count : Nat} (h : s.Inv) :
    InvOut (State.loadSegment s c f e astride n0 count) := by
  unfold State.loadSegment
  dsimp only
  split
  · exact keepsOut_refuseSegment h
  split
  · exact keepsOut_next.mpr (keeps_fillUnits h)
  · exact keepsOut_if (keepsOut_refuseSegment (keeps_fillUnits h)) (keepsOut_matrixFault (keeps_fillUnits h))
  split
  · exact keepsOut_refuseSegment (keeps_fillUnits h)
  split
  · exact keepsOut_refuseSegment (keeps_fillUnits h)
  split
  · exact keepsOut_next.mpr (keeps_fillLoad (keeps_fresh (keeps_fillUnits h)))
  · exact keepsOut_if (keepsOut_refuseSegment (keeps_failBuf (keeps_fillLoad (keeps_fresh (keeps_fillUnits h)))))
      (keepsOut_matrixFault (keeps_fillLoad (keeps_fresh (keeps_fillUnits h))))
  · exact keepsOut_next.mpr (keeps_setCmd (keeps_putBuf (keeps_fillLoad (keeps_fresh (keeps_fillUnits h)))))

@[simp] theorem keepsOut_execMmagSegment {core : Nat} {id : Nat} {s : State} (h : s.Inv) :
    InvOut (execMmagSegment core id s) := by
  unfold execMmagSegment
  split
  · exact keepsOut_next.mpr h
  split
  · dsimp only
    split
    · exact keepsOut_next.mpr h
    split
    · exact keepsOut_next.mpr (keeps_fillUnits h)
    · exact keepsOut_matrixFault (keeps_fillUnits h)
    · exact keepsOut_if (keepsOut_matrixFault (keeps_fillUnits h)) (keepsOut_loadSegment (keeps_fillUnits h))
    · exact keepsOut_next.mpr (keeps_fillUnits h)
  · exact keepsOut_next.mpr h

@[simp] theorem keepsOut_mmagRow {s : State} {c : Cmd} {f : FE3} (h : s.Inv) :
    InvOut (State.mmagRow s c f) := by
  unfold State.mmagRow
  split
  · exact keepsOut_if (keepsOut_next.mpr h) (keepsOut_closeSegment h)
  · split
    · exact keepsOut_closeSegment h
    split
    · exact keepsOut_next.mpr h
    dsimp only
    split
    · exact keepsOut_next.mpr h
    split
    · exact keepsOut_next.mpr h
    split
    · exact keepsOut_matrixFault (keeps_fillUnits h)
    · exact keepsOut_next.mpr (keeps_fillUnits h)
    · exact keepsOut_matrixFault (keeps_fillUnits h)
    · exact keepsOut_next.mpr (keeps_fillUnits h)
    · exact keepsOut_if (keepsOut_next.mpr (keeps_setCmd (keeps_applyRow (keeps_fillUnits h))))
        (keepsOut_closeSegment (keeps_setCmd (keeps_applyRow (keeps_fillUnits h))))
  · exact keepsOut_next.mpr h

@[simp] theorem keepsOut_execPassRow {core : Nat} {id : Nat} {s : State} (h : s.Inv) :
    InvOut (execPassRow core id s) := by
  unfold execPassRow
  (repeat' split) <;> simp [h]

@[simp] theorem keepsOut_execBufferRefill {core : Nat} {id : Nat} {s : State} (h : s.Inv) :
    InvOut (execBufferRefill core id s) := by
  unfold execBufferRefill
  split
  · exact keepsOut_next.mpr h
  split
  · exact keepsOut_next.mpr h
  split
  · split
    · exact keepsOut_if (keepsOut_refuseSegment h) (keepsOut_next.mpr h)
    · exact keepsOut_next.mpr h
  split
  · exact keepsOut_next.mpr h
  dsimp only
  split
  · exact keepsOut_next.mpr (keeps_fillLoad h)
  · exact keepsOut_next.mpr (keeps_putBuf (keeps_fillLoad h))
  · split
    · exact keepsOut_matrixFault (keeps_fillLoad h)
    · split
      · exact keepsOut_if (keepsOut_refuseSegment (keeps_failBuf (keeps_fillLoad h)))
          (keepsOut_matrixFault (keeps_failBuf (keeps_fillLoad h)))
      · exact keepsOut_matrixFault (keeps_failBuf (keeps_fillLoad h))

@[simp] theorem keepsOut_post {i : Instr} {f : FE3} {q : Queue} {master : Bool} {s : State} (h : s.Inv) :
    InvOut (post i f q master s) := by
  unfold post
  simp [h]

@[simp] theorem keepsOut_execFqpost {f : FE3} {s : State} (h : s.Inv) :
    InvOut (execFqpost f s) := by
  unfold execFqpost
  simp [h]

@[simp] theorem keepsOut_execFmbox {f : FE3} {s : State} (h : s.Inv) :
    InvOut (execFmbox f s) := by
  unfold execFmbox
  simp [h]

@[simp] theorem keepsOut_execFput {f : FE3} {s : State} (h : s.Inv) :
    InvOut (execFput f s) := by
  unfold execFput
  simp [h]

@[simp] theorem keepsOut_execFflush {f : FE3} {s : State} (h : s.Inv) :
    InvOut (execFflush f s) := by
  unfold execFflush
  simp [h]

@[simp] theorem keepsOut_execLaunch {f : FE3} {s : State} (h : s.Inv) :
    InvOut (execLaunch f s) := by
  unfold execLaunch
  simp [h]

@[simp] theorem keepsOut_fabricFault {s : State} {c : Cmd} {va : Nat} {code : Nat} {also : Cmd → Bool} {write : optParam Bool false} (h : s.Inv) :
    InvOut (State.fabricFault s c va code also write) := by
  unfold State.fabricFault
  simp [h]

@[simp] theorem keeps_fillFabric {s : State} {c : Cmd} {len : Nat} (h : s.Inv) :
    (State.fillFabric s c len).Inv := by
  unfold State.fillFabric
  simp [h]

@[simp] theorem keeps_statusDone {s : State} {c : Cmd} {st : List Span} {code : Nat} (h : s.Inv) :
    (State.statusDone s c st code).Inv := by
  unfold State.statusDone
  simp [h]

@[simp] theorem keeps_append {s : State} {c : Cmd} {r : BitVec 512} (h : s.Inv) :
    (State.append s c r).Inv := by
  unfold State.append
  simp [h]

@[simp] theorem keepsOut_execEntryAppend {id : Nat} {s : State} (h : s.Inv) :
    InvOut (execEntryAppend id s) := by
  unfold execEntryAppend
  split
  · exact keepsOut_next.mpr h
  split
  · exact keepsOut_next.mpr h
  dsimp only
  split
  · exact keepsOut_fabricFault (keeps_fillFabric h)
  split
  · exact keepsOut_next.mpr (keeps_statusDone (keeps_fillFabric h))
  split
  · exact keepsOut_next.mpr (keeps_fillFabric h)
  · exact keepsOut_fabricFault (keeps_fillFabric h)
  · exact keepsOut_if (keepsOut_next.mpr (keeps_statusDone (keeps_append (keeps_fillFabric h))))
      (keepsOut_next.mpr (keeps_statusDone (keeps_fillFabric h)))

@[simp] theorem keeps_addPosted {s : State} {team : Nat} {ref : Nat} {target : Nat} {n : Nat} {seq : Option (BitVec 32)} (h : s.Inv) :
    (State.addPosted s team ref target n seq).Inv := by
  unfold State.addPosted
  simp [h]

@[simp] theorem keeps_fillEntry {s : State} {cl : Nat} {e : FEntry} (h : s.Inv) :
    (State.fillEntry s cl e).Inv := by
  unfold State.fillEntry
  simp only []
  split <;> simp [h]

@[simp] theorem keeps_localWrites {s : State} {cl : Nat} {e : FEntry} {n3 : List (List Span × List (BitVec 8))} (h : s.Inv) :
    (State.localWrites s cl e n3).Inv := by
  induction n3 generalizing s with
  | nil => exact h
  | cons w ws ih =>
    unfold State.localWrites
    exact ih (keeps_engineStore h)

@[simp] theorem keeps_parkEntry {s : State} {cl : Nat} {qp : Nat} {e : FEntry} {va : Nat} {code : Nat} (h : s.Inv) :
    (State.parkEntry s cl qp e va code).Inv :=
  keeps_queueFault (keeps_setQp h)

@[simp] theorem keeps_sendable {s : State} {cl : Nat} {qp : Nat} {d : QpDesc} {q : Qp} {e : FEntry} {r : Firing} (h : s.Inv) :
    (State.sendable s cl qp d q e r).Inv := by
  have hposted : ∀ {q a b c}, ((((s.setQp cl qp q).localWrites cl a b).addPosted e.team e.ref d.target c none)).Inv :=
    keeps_addPosted (keeps_localWrites (keeps_setQp h))
  exact keeps_if (keeps_dropMark hposted) hposted

@[simp] theorem keepsOut_execEntryFire {die : Nat} {cluster : Nat} {qp : Nat} {s : State} (h : s.Inv) :
    InvOut (execEntryFire die cluster qp s) := by
  unfold execEntryFire
  dsimp only
  split
  · exact keepsOut_next.mpr h
  split
  · exact keepsOut_next.mpr h
  split
  · exact keepsOut_next.mpr (keeps_qpError h)
  have hfilled : ∀ {cl e}, (s.fillEntry cl e).Inv := keeps_fillEntry h
  have hnamed : ∀ {p : Prop} [Decidable p] {n : Nat} {cl e},
      (if p then (s.fillEntry cl e).fresh else (n, s.fillEntry cl e)).2.Inv := by
    intro p _ n cl e
    split
    · exact keeps_fresh hfilled
    · exact hfilled
  split
  · refine keepsOut_if (keepsOut_next.mpr (keeps_qpError (keeps_setQp (keeps_if (keeps_addPosted hnamed) hnamed))))
      (keepsOut_if (keepsOut_next.mpr hfilled) (keepsOut_next.mpr (keeps_parkEntry (keeps_sendable
        (keeps_if (keeps_addPosted hnamed) hnamed)))))
  · exact keepsOut_next.mpr (keeps_sendable (keeps_if (keeps_addPosted hnamed) hnamed))

@[simp] theorem keeps_sendRoce {s : State} {m : FabricMsg} {p : Nat} (h : s.Inv) :
    (State.sendRoce s m p).Inv := by
  unfold State.sendRoce
  simp [h]

@[simp] theorem keeps_sendOut {s : State} {m : FabricMsg} (h : s.Inv) :
    (State.sendOut s m).Inv := by
  unfold State.sendOut
  split <;> simp [h]

@[simp] theorem keeps_leave {s : State} {m : FabricMsg} (h : s.Inv) :
    (State.leave s m).Inv := by
  unfold State.leave
  simp [h]

@[simp] theorem keeps_cutEntry {s : State} {m : FabricMsg} (h : s.Inv) :
    (State.cutEntry s m).Inv := by
  unfold State.cutEntry
  simp [h]

@[simp] theorem keeps_sendMsg {s : State} {m : FabricMsg} (h : s.Inv) :
    (State.sendMsg s m).Inv := by
  unfold State.sendMsg
  split <;> simp [h]

@[simp] theorem keeps_sendQp {s : State} {cl : Nat} {qp : Nat} (h : s.Inv) :
    (State.sendQp s cl qp).Inv := by
  unfold State.sendQp
  dsimp only
  (repeat' split) <;> simp [h]

@[simp] theorem keepsOut_sendPut {s : State} {core : Nat} (h : s.Inv) :
    InvOut (State.sendPut s core) := by
  unfold State.sendPut
  split
  · exact keepsOut_next.mpr h
  dsimp only
  split
  · exact keepsOut_next.mpr (keeps_fillUnits (keeps_fillUnits h))
  · exact keepsOut_fabricFault (keeps_fillUnits (keeps_fillUnits h))
  · exact keepsOut_next.mpr (keeps_finishCmd (keeps_sendMsg (keeps_addPosted (keeps_setQp
      (keeps_fillUnits (keeps_fillUnits h))))))

@[simp] theorem keepsOut_sendLaunch {s : State} {c : Cmd} (h : s.Inv) :
    InvOut (State.sendLaunch s c) := by
  unfold State.sendLaunch
  dsimp only
  split
  · exact keepsOut_fabricFault (keeps_fillFabric h)
  split
  · exact keepsOut_next.mpr (keeps_fillFabric h)
  · exact keepsOut_fabricFault (keeps_fillFabric h)
  split
  · exact keepsOut_next.mpr (keeps_statusDone (keeps_fillFabric h))
  refine keepsOut_next.mpr ?_
  split
  · exact keeps_transmit (keeps_setCmd (keeps_fillFabric h))
  · exact keeps_setCmd (keeps_fillFabric h)

@[simp] theorem keepsOpt_sendAgain {s : State} {o : Out} (h : s.Inv) :
    InvOpt (State.sendAgain s o) := by
  unfold State.sendAgain
  dsimp only
  (repeat' split) <;> simp [h]

@[simp] theorem keeps_reroute {s : State} {port : Nat} {n2 : Nat} (h : s.Inv) :
    (State.reroute s port n2).Inv := by
  induction n2 generalizing s with
  | zero => exact h
  | succ n ih =>
    unfold State.reroute
    split
    · exact h
    · split
      · next t ht => exact ih (keepsOpt_sendAgain (keeps_setPort h) t ht)
      · exact h

@[simp] theorem keepsOut_execFabricMessageSend {port : Nat} {s : State} (h : s.Inv) :
    InvOut (execFabricMessageSend port s) := by
  unfold execFabricMessageSend
  (repeat' split) <;> simp [h]

@[simp] theorem keepsOut_execEntryComplete {die : Nat} {cluster : Nat} {qp : Nat} {s : State} (h : s.Inv) :
    InvOut (execEntryComplete die cluster qp s) := by
  unfold execEntryComplete
  dsimp only
  (repeat' split) <;> simp [h]

@[simp] theorem keeps_landFull {s : State} {m : FabricMsg} (h : s.Inv) :
    (State.landFull s m).Inv := by
  unfold State.landFull
  simp [h]

@[simp] theorem keepsOut_execFabricRefusalReturn {team : Nat} {target : Nat} {code : Nat} {msg : Option FabricMsg} {s : State} (h : s.Inv) :
    InvOut (execFabricRefusalReturn team target code msg s) := by
  unfold execFabricRefusalReturn
  split <;> simp [h]

@[simp] theorem keepsOut_execLandFullRetry {die : Nat} {cluster : Nat} {qp : Nat} {s : State} (h : s.Inv) :
    InvOut (execLandFullRetry die cluster qp s) := by
  unfold execLandFullRetry
  dsimp only
  (repeat' split) <;> simp [h]

@[simp] theorem keeps_modFair {s : State} {die : Nat} {gang : Nat} {g : Fair → Fair} (h : s.Inv) :
    (State.modFair s die gang g).Inv := by
  unfold State.modFair
  split <;> simp [h]

@[simp] theorem keeps_countMsg {s : State} {die : Nat} {gang : Nat} (h : s.Inv) :
    (State.countMsg s die gang).Inv := by
  unfold State.countMsg
  simp [h]

@[simp] theorem keeps_putUnit {s : State} {u : Span} {bs : List (BitVec 8)} (h : s.Inv) :
    (State.putUnit s u bs).Inv := by
  unfold State.putUnit
  split <;> simp [h]

@[simp] theorem keeps_putUnits {s : State} {n1 : List Span} {n2 : List (BitVec 8)} (h : s.Inv) :
    (State.putUnits s n1 n2).Inv := by
  induction n1 generalizing s n2 with
  | nil => exact h
  | cons u us ih =>
    unfold State.putUnits
    exact ih (keeps_putUnit h)

@[simp] theorem keeps_noteNo {s : State} {die : Nat} {m : FabricMsg} (h : s.Inv) :
    (State.noteNo s die m).Inv := by
  unfold State.noteNo
  simp [h]

@[simp] theorem keeps_setLand {s : State} {l : Land} (h : s.Inv) :
    (State.setLand s l).Inv := by
  unfold State.setLand
  simp [h]

@[simp] theorem keeps_dropLanded {s : State} {ctx : Nat} (h : s.Inv) :
    (State.dropLanded s ctx).Inv := by
  unfold State.dropLanded
  simp [h]

theorem keeps_remoteKey {s : State} {ctx : Nat} (h : s.Inv) : (s.remoteKey ctx).2.Inv := by
  unfold State.remoteKey
  split
  · exact h
  · dsimp only
    refine keeps_modCtx ?_
    split
    · exact keeps_if h (keeps_dropLanded h)
    · exact h

@[simp] theorem keeps_dropRemoteKey {s : State} {ctx : Nat} (h : s.Inv) :
    (State.dropRemoteKey s ctx).Inv := by
  unfold State.dropRemoteKey
  dsimp only
  (repeat' split) <;> simp [h]

@[simp] theorem keeps_appendLand {s : State} {l : Land} {m : FabricMsg} (h : s.Inv) :
    (State.appendLand s l m).Inv :=
  keeps_modCtx (keeps_setLand (keeps_agentWrite (keeps_agentNat h)))

@[simp] theorem keeps_cameAgain {s : State} {m : FabricMsg} (h : s.Inv) :
    (State.cameAgain s m).Inv := by
  unfold State.cameAgain
  simp [h]

@[simp] theorem keeps_landMsg {s : State} {m : FabricMsg} (h : s.Inv) :
    (State.landMsg s m).Inv := by
  unfold State.landMsg
  dsimp only
  split
  · have hnos : ∀ {p : Prop} [Decidable p] {d n f}, State.Inv (if p then s.modFair d m.gang f else
        { s.modFair d m.gang f with fullNos := n }) :=
      fun {p _ d n f} => keeps_if (keeps_modFair h) (inv_of_eq rfl rfl (keeps_modFair (g := f) h))
    exact keeps_if (keeps_landFull hnos) (keeps_outbox hnos)
  · have hlanded : ∀ {l d f}, (((((s.cameAgain m).appendLand l m).noteNo d m).modFair d m.gang f).countMsg d
        m.gang).msgLanded m |>.Inv :=
      keeps_msgLanded (keeps_countMsg (keeps_modFair (keeps_noteNo (keeps_appendLand (keeps_cameAgain h)))))
    exact keeps_if hlanded (keeps_outbox hlanded)

/-- Memory and tags are canonical in the state, if any, that a placed message leaves. -/
def InvPlaced : Placed → Prop
  | .done s => s.Inv
  | .held s => s.Inv
  | .dropped s => s.Inv
  | .refused _ _ => True

theorem keepsPlaced_placeMsg {s : State} {m : FabricMsg} {src : VSrc} (h : s.Inv) : InvPlaced (s.placeMsg m src) := by
  have hfilled : ∀ {w p b}, (s.fillUnits w p b (msgRanges m)).Inv := keeps_fillUnits h
  unfold State.placeMsg
  dsimp only
  split
  · split
    · trivial
    · split
      · next ht => exact inv_of_create_made hfilled ht
      · next ht => exact inv_of_create_dropped hfilled ht
      · trivial
      · exact keeps_parkCreate (keeps_fresh hfilled)
  · split
    · trivial
    · split
      · trivial
      · split
        · trivial
        · split
          · trivial
          · exact keeps_putUnits hfilled

@[simp] theorem keeps_arriveMsg {s : State} {m : FabricMsg} (h : s.Inv) : (s.arriveMsg m).Inv := by
  have hkey : (s.remoteKey m.tctx).2.Inv := keeps_remoteKey h
  have hagain : ((s.remoteKey m.tctx).2.cameAgain m).Inv := keeps_cameAgain hkey
  unfold State.arriveMsg
  dsimp only
  refine keeps_if (keeps_msgRefused hagain) (keeps_if (keeps_msgRefused hagain) (keeps_if
    (keeps_if (keeps_msgLanded hagain) (keeps_outbox (keeps_msgLanded hagain))) (keeps_if (keeps_landMsg hkey) ?_)))
  have hplaced := keepsPlaced_placeMsg (m := m) (src := .fabric m.qp) hagain
  split <;> rename_i hp <;> rw [hp] at hplaced
  · exact keeps_msgDone (keeps_countMsg (keeps_noteNo hplaced))
  · exact keeps_countMsg (keeps_noteNo hplaced)
  · exact keeps_msgDone (keeps_noteNo hplaced)
  · exact keeps_msgRefused hagain

@[simp] theorem keepsOut_execFabricMessageArrival {msg : FabricMsg} {s : State} (h : s.Inv) :
    InvOut (execFabricMessageArrival msg s) := by
  unfold execFabricMessageArrival
  split <;> simp [h]

@[simp] theorem keeps_popLand {s : State} {ctx : Nat} {l : Land} {applied : Nat} (h : s.Inv) :
    (State.popLand s ctx l applied).Inv := by
  unfold State.popLand
  simp [h]

@[simp] theorem keepsOpt_applyMsg {s : State} {ctx : Nat} {m : FabricMsg} {path : Nat} {ref : Nat} (h : s.Inv) :
    InvOpt (State.applyMsg s ctx m path ref) := by
  have hplaced := keepsPlaced_placeMsg (m := m) (src := .landing path ref) h
  unfold State.applyMsg
  split
  · next hp =>
    rw [hp] at hplaced
    exact keepsOpt_some.mpr (keeps_addRsem hplaced)
  · next hp =>
    rw [hp] at hplaced
    exact keepsOpt_some.mpr hplaced
  · next hp =>
    rw [hp] at hplaced
    exact keepsOpt_some.mpr (keeps_addRsem hplaced)
  · have hnoted : ∀ {l r}, State.Inv { s.setLand l with refusedRefs := r } :=
      fun {l r} => inv_of_eq rfl rfl (keeps_setLand (l := l) h)
    dsimp only
    split
    · exact keepsOpt_some.mpr hnoted
    · split
      · exact keepsOpt_none
      · exact keepsOpt_some.mpr (keeps_queueFault hnoted)

@[simp] theorem keepsOpt_applyLand {s : State} {ctx : Nat} {l : Land} (h : s.Inv) :
    InvOpt (State.applyLand s ctx l) := by
  unfold State.applyLand
  simp [h]

@[simp] theorem keeps_setResid {s : State} {ctx : Nat} {die : Nat} {r : Resid} (h : s.Inv) :
    (State.setResid s ctx die r).Inv := by
  unfold State.setResid
  simp [h]

@[simp] theorem keeps_lateWaits {s : State} {ctx : Nat} (h : s.Inv) :
    (State.lateWaits s ctx).Inv := by
  unfold State.lateWaits
  refine keeps_foldl (fun s x h => ?_) _ h
  split <;> simp [h]

@[simp] theorem keepsOut_execLandingApply {die : Nat} {ctx : Nat} {s : State} (h : s.Inv) :
    InvOut (execLandingApply die ctx s) := by
  unfold execLandingApply
  split
  · exact keepsOut_next.mpr h
  split
  · exact keepsOut_orStay h (keepsOpt_applyMsg (keeps_modCtx (keeps_setLand h)))
  split
  · exact keepsOut_next.mpr h
  dsimp only
  split
  · exact keepsOut_next.mpr (keeps_lateWaits (keeps_setResid h))
  split
  · exact keepsOut_next.mpr h
  · exact keepsOut_orStay h (keepsOpt_applyLand h)

@[simp] theorem keepsOut_execRemoteAccess {req : RemoteReq} {s : State} (h : s.Inv) :
    InvOut (execRemoteAccess req s) := by
  unfold execRemoteAccess
  (repeat' split) <;> simp [h]

@[simp] theorem keepsOut_execFflushComplete {id : Nat} {lost : Bool} {s : State} (h : s.Inv) :
    InvOut (execFflushComplete id lost s) := by
  unfold execFflushComplete
  dsimp only
  (repeat' split) <;> simp [h]

@[simp] theorem keepsOut_execLaunchStatusReturn {id : Nat} {code : Nat} {s : State} (h : s.Inv) :
    InvOut (execLaunchStatusReturn id code s) := by
  unfold execLaunchStatusReturn
  split <;> simp [h]

end Sys2Proof.Proofs

/-! Canonical form: privileged instructions, launches, scheduling and pre-emption. -/

namespace Sys2Proof.Proofs

open Sys2Proof.Machine Sys2Proof.Laws

@[simp] theorem keepsAct_shapeAct : InvAct shapeAct := keepsAct_fault _

@[simp] theorem keepsOut_execRdpr {f : FSW} {s : State} (h : s.Inv) :
    InvOut (execRdpr f s) := by
  unfold execRdpr
  refine keepsOut_issue h fun e => ?_
  split <;> simp [h]

@[simp] theorem keeps_writePriv {s : State} {e : Env} {core : Nat} {n : Nat} {v : W64} (h : s.Inv) :
    (State.writePriv s e core n v).Inv := by
  unfold State.writePriv
  split <;> simp [h]

@[simp] theorem keepsOut_execWrpr {f : FSW} {s : State} (h : s.Inv) :
    InvOut (execWrpr f s) := by
  unfold execWrpr
  refine keepsOut_issue h fun e => ?_
  split <;> simp [h]

@[simp] theorem keeps_releaseFault {s : State} {die : Nat} {r : FaultRec} (h : s.Inv) :
    (State.releaseFault s die r).Inv := by
  unfold State.releaseFault
  simp [h]

@[simp] theorem keepsOpt_passRecord {s : State} {r : FaultRec} {term : Bool} (h : s.Inv) :
    InvOpt (State.passRecord s r term) := by
  unfold State.passRecord
  (repeat' split) <;> simp [h]

@[simp] theorem keeps_dropParked {s : State} {c : Cmd} (h : s.Inv) :
    (State.dropParked s c).Inv := by
  unfold State.dropParked
  simp [h]

@[simp] theorem keepsOpt_actParked {s : State} {r : FaultRec} {term : Bool} (h : s.Inv) :
    InvOpt (State.actParked s r term) := by
  unfold State.actParked
  split
  · dsimp only
    split
    · exact keepsOpt_if (keepsOpt_passRecord (keeps_qpError (keeps_setQp h))) (keepsOpt_faultTeam (keeps_qpError (keeps_setQp h)))
    · exact keepsOpt_some.mpr h
  · split
    · exact keepsOpt_some.mpr h
    · dsimp only
      refine keepsOpt_if (keepsOpt_passRecord (keeps_dropParked h)) (keepsOpt_faultTeam ?_)
      exact keeps_if (keeps_modTeam (keeps_dropParked h)) (keeps_dropParked h)

@[simp] theorem keepsOpt_settleFault {s : State} {r : FaultRec} {action : Nat} (h : s.Inv) :
    InvOpt (State.settleFault s r action) := by
  unfold State.settleFault
  simp [h]

@[simp] theorem keepsOut_execEret {f : FSW} {s : State} (h : s.Inv) :
    InvOut (execEret f s) := by
  refine keepsOut_issue h fun e => ?_
  dsimp only
  split
  · exact keepsAct_hold
  split
  · exact keepsAct_done.mpr (keeps_endTask h)
  split
  · next t ht => exact keepsAct_done.mpr (keepsOpt_settleFault (keeps_releaseFault (keeps_endTask h)) t ht)
  · exact keepsAct_hold

@[simp] theorem keepsOut_execAsave {f : FSW} {s : State} (h : s.Inv) :
    InvOut (execAsave f s) := by
  refine keepsOut_issue h fun e => ?_
  dsimp only
  split
  · exact keepsAct_shapeAct
  split
  · exact keepsAct_hold
  split
  · exact keepsAct_fault _
  split
  · exact keepsAct_fault _
  split
  · exact keepsAct_hold
  · exact keepsAct_done.mpr (keeps_commit (keeps_modCore (keeps_putUnits (keeps_fillUnits h))))

@[simp] theorem keepsOut_execArest {f : FSW} {s : State} (h : s.Inv) :
    InvOut (execArest f s) := by
  refine keepsOut_issue h fun e => ?_
  dsimp only
  split
  · exact keepsAct_shapeAct
  split
  · exact keepsAct_hold
  split
  · exact keepsAct_hold
  · exact keepsAct_fault _
  · exact keepsAct_done.mpr (keeps_commit (keeps_modCore (keeps_fillUnits h)))

@[simp] theorem keeps_invalidate {s : State} {mode : Nat} {xa : W64} {xb : W64} (h : s.Inv) :
    (State.invalidate s mode xa xb).Inv := by
  unfold State.invalidate
  simp [h]

@[simp] theorem keepsAct_tlbinv {e : Env} {bytes : Nat} {mode : Nat} {xa : W64} {xb : W64} {s : State} (h : s.Inv) :
    InvAct (tlbinv e bytes mode xa xb s) := by
  unfold tlbinv
  simp [h]

@[simp] theorem keepsOut_execTlbinv {f : FS} {s : State} (h : s.Inv) :
    InvOut (execTlbinv f s) := by
  unfold execTlbinv
  simp [h]

@[simp] theorem keepsOut_execTlbinvSw {f : FSW} {s : State} (h : s.Inv) :
    InvOut (execTlbinvSw f s) := by
  unfold execTlbinvSw
  simp [h]

@[simp] theorem keeps_replayDie {s : State} {die : Nat} {p : Nat → Bool} (h : s.Inv) :
    (State.replayDie s die p).Inv := by
  unfold State.replayDie
  simp [h]

@[simp] theorem keepsAct_replay {e : Env} {bytes : Nat} {xa : W64} {s : State} (h : s.Inv) :
    InvAct (replay e bytes xa s) := by
  unfold replay
  simp [h]

@[simp] theorem keepsOut_execReplay {f : FS} {s : State} (h : s.Inv) :
    InvOut (execReplay f s) := by
  unfold execReplay
  simp [h]

@[simp] theorem keepsOut_execReplaySw {f : FSW} {s : State} (h : s.Inv) :
    InvOut (execReplaySw f s) := by
  unfold execReplaySw
  simp [h]

@[simp] theorem keepsAct_sysResult {e : Env} {bytes : Nat} {d : BitVec 6} {v : W64} {s : State} (h : s.Inv) :
    InvAct (sysResult e bytes d v s) := by
  unfold sysResult
  simp [h]

@[simp] theorem keepsAct_quar {e : Env} {bytes : Nat} {d : BitVec 6} {xa : W64} {xb : W64} {s : State} (h : s.Inv) :
    InvAct (quar e bytes d xa xb s) := by
  unfold quar
  simp [h]

@[simp] theorem keepsOut_execQuar {f : FS} {s : State} (h : s.Inv) :
    InvOut (execQuar f s) := by
  unfold execQuar
  simp [h]

@[simp] theorem keepsOut_execQuarSw {f : FSW} {s : State} (h : s.Inv) :
    InvOut (execQuarSw f s) := by
  unfold execQuarSw
  simp [h]

@[simp] theorem keeps_unlockRun {s : State} {q : QuarRun} (h : s.Inv) :
    (State.unlockRun s q).Inv := by
  unfold State.unlockRun
  simp [h]

@[simp] theorem keepsAct_qstat {e : Env} {bytes : Nat} {d : BitVec 6} {xa : W64} {s : State} (h : s.Inv) :
    InvAct (qstat e bytes d xa s) := by
  unfold qstat
  dsimp only
  split
  · split
    · exact keepsAct_sysResult h
    · exact keepsAct_if (keepsAct_sysResult (keeps_unlockRun (keeps_modDie h))) (keepsAct_sysResult h)
  · exact keepsAct_if (keepsAct_sysResult h) keepsAct_shapeAct

@[simp] theorem keepsOut_execQstat {f : FS} {s : State} (h : s.Inv) :
    InvOut (execQstat f s) := by
  unfold execQstat
  simp [h]

@[simp] theorem keepsOut_execQstatSw {f : FSW} {s : State} (h : s.Inv) :
    InvOut (execQstatSw f s) := by
  unfold execQstatSw
  simp [h]

@[simp] theorem keeps_diffCores {s : State} {diff : Option (List (Nat × W64) × BitVec 32)} {n2 : List Nat} (h : s.Inv) :
    (State.diffCores s diff n2).Inv := by
  induction n2 generalizing s with
  | nil => exact h
  | cons c cs ih =>
    unfold State.diffCores
    exact ih (keeps_modCore h)

@[simp] theorem keepsAct_cfgdiff {e : Env} {bytes : Nat} {d : BitVec 6} {xa : W64} {xb : W64} {s : State} (h : s.Inv) :
    InvAct (cfgdiff e bytes d xa xb s) := by
  unfold cfgdiff
  dsimp only
  split
  · exact keepsAct_shapeAct
  split
  · exact keepsAct_hold
  · exact keepsAct_fault _
  split
  · exact keepsAct_sysResult (keeps_diffCores (keeps_fillUnits h))
  split
  · exact keepsAct_hold
  · exact keepsAct_fault _
  · exact keepsAct_sysResult (keeps_diffCores (keeps_fillUnits (keeps_fillUnits h)))

@[simp] theorem keepsOut_execCfgdiff {f : FS} {s : State} (h : s.Inv) :
    InvOut (execCfgdiff f s) := by
  unfold execCfgdiff
  simp [h]

@[simp] theorem keepsOut_execCfgdiffSw {f : FSW} {s : State} (h : s.Inv) :
    InvOut (execCfgdiffSw f s) := by
  unfold execCfgdiffSw
  simp [h]

@[simp] theorem keeps_latch {s : State} {die : Nat} {w : BitVec 8} (h : s.Inv) :
    (State.latch s die w).Inv := by
  unfold State.latch
  simp [h]

@[simp] theorem keepsAct_wlatch {e : Env} {bytes : Nat} {d : BitVec 6} {xa : W64} {s : State} (h : s.Inv) :
    InvAct (wlatch e bytes d xa s) := by
  unfold wlatch
  simp [h]

@[simp] theorem keepsOut_execWlatch {f : FS} {s : State} (h : s.Inv) :
    InvOut (execWlatch f s) := by
  unfold execWlatch
  simp [h]

@[simp] theorem keepsOut_execWlatchSw {f : FSW} {s : State} (h : s.Inv) :
    InvOut (execWlatchSw f s) := by
  unfold execWlatchSw
  simp [h]

@[simp] theorem keeps_requestHalt {s : State} {ctx : Nat} {bar : Bool} {n3 : List Nat} (h : s.Inv) :
    (State.requestHalt s ctx bar n3).Inv := by
  induction n3 generalizing s with
  | nil => exact h
  | cons c cs ih =>
    unfold State.requestHalt
    exact ih (keeps_modCore h)

@[simp] theorem keepsAct_halt {e : Env} {bytes : Nat} {d : BitVec 6} {xa : W64} {s : State} (h : s.Inv) :
    InvAct (halt e bytes d xa s) := by
  unfold halt
  simp [h]

@[simp] theorem keepsOut_execHalt {f : FS} {s : State} (h : s.Inv) :
    InvOut (execHalt f s) := by
  unfold execHalt
  simp [h]

@[simp] theorem keepsOut_execHaltSw {f : FSW} {s : State} (h : s.Inv) :
    InvOut (execHaltSw f s) := by
  unfold execHaltSw
  simp [h]

@[simp] theorem keepsOut_execIdle {_f : FS} {s : State} (h : s.Inv) :
    InvOut (execIdle _f s) := by
  unfold execIdle
  simp [h]

@[simp] theorem keepsOut_execIdleSw {f : FSW} {s : State} (h : s.Inv) :
    InvOut (execIdleSw f s) := by
  unfold execIdleSw
  simp [h]

@[simp] theorem keeps_modLaunch {s : State} {ctx : Nat} {slot : Nat} {g : Launch → Launch} (h : s.Inv) :
    (State.modLaunch s ctx slot g).Inv := by
  unfold State.modLaunch
  simp [h]

@[simp] theorem keeps_placeTeam {s : State} {ctx : Nat} {l : Launch} {core : Nat} (h : s.Inv) :
    (State.placeTeam s ctx l core).Inv := by
  unfold State.placeTeam
  simp [h]

@[simp] theorem keepsOpt_placeWhole {s : State} {ctx : Nat} {l : Launch} {n3 : Nat} (h : s.Inv) :
    InvOpt (State.placeWhole s ctx l n3) := by
  induction n3 generalizing s l with
  | zero => exact keepsOpt_some.mpr h
  | succ n ih =>
    unfold State.placeWhole
    split
    · exact keepsOpt_none
    · exact ih (keeps_placeTeam h)

theorem keeps_placeNext {s t : State} {ctx c : Nat} {l : Launch} (h : s.Inv) (hp : s.placeNext ctx l = some (c, t)) :
    t.Inv := by
  unfold State.placeNext at hp
  split at hp
  · exact nomatch hp
  · split at hp
    · exact nomatch hp
    · split at hp
      · obtain ⟨_, hb, he⟩ := Option.map_eq_some_iff.mp hp
        cases he
        exact keepsOpt_placeWhole h _ hb
      · cases hp
        exact keeps_placeTeam h

theorem keeps_serveCtx {s t : State} {ctx c : Nat} {l : Launch} (h : s.Inv) (hp : s.serveCtx ctx = some (l, c, t)) :
    t.Inv := by
  obtain ⟨m, _, hm⟩ := List.exists_of_findSome?_eq_some hp
  split at hm
  · exact nomatch hm
  · obtain ⟨r, hr, he⟩ := Option.map_eq_some_iff.mp hm
    cases he
    exact keeps_placeNext h hr

@[simp] theorem keepsOut_execTeamPlacement {ctx : Nat} {slot : Nat} {s : State} (h : s.Inv) :
    InvOut (execTeamPlacement ctx slot s) := by
  unfold execTeamPlacement
  split
  · exact keepsOut_next.mpr h
  · next ht => exact keepsOut_if (keepsOut_next.mpr h) (keepsOut_next.mpr (keeps_serveCtx h ht))

@[simp] theorem keepsOut_execLaunchSlotTake {ctx : Nat} {s : State} (h : s.Inv) :
    InvOut (execLaunchSlotTake ctx s) := by
  unfold execLaunchSlotTake
  split <;> simp [h]

@[simp] theorem keeps_mapFair {s : State} {die : Nat} {g : Nat → Fair → Fair} (h : s.Inv) :
    (State.mapFair s die g).Inv := by
  unfold State.mapFair
  simp [h]

@[simp] theorem keeps_accrueTo {s : State} {die : Nat} {now : Nat} (h : s.Inv) :
    (State.accrueTo s die now).Inv := by
  unfold State.accrueTo
  simp [h]

@[simp] theorem keeps_accrue {s : State} {die : Nat} (h : s.Inv) :
    (State.accrue s die).Inv := by
  unfold State.accrue
  simp [h]

@[simp] theorem keeps_nextTick {s : State} {die : Nat} (h : s.Inv) :
    (State.nextTick s die).Inv :=
  keeps_modDie (keeps_mapFair (keeps_accrueTo h))

@[simp] theorem keeps_nextWindow {s : State} {die : Nat} (h : s.Inv) :
    (State.nextWindow s die).Inv :=
  keeps_modDie (keeps_mapFair (keeps_accrueTo h))

@[simp] theorem keeps_makeTicks {s : State} {die : Nat} {n2 : Nat} (h : s.Inv) :
    (State.makeTicks s die n2).Inv := by
  induction n2 generalizing s with
  | zero => exact h
  | succ n ih =>
    unfold State.makeTicks
    exact ih (keeps_nextTick (keeps_if (keeps_nextWindow h) h))

@[simp] theorem keeps_settleTicks {s : State} {die : Nat} (h : s.Inv) :
    (State.settleTicks s die).Inv := by
  unfold State.settleTicks
  simp [h]

theorem keeps_acceptLaunch {s : State} {w : Who} {ctx : Nat} {bs : List (BitVec 8)} {peer : Option (Nat × Nat)}
    (h : s.Inv) : (s.acceptLaunch w ctx bs peer).2.Inv := by
  unfold State.acceptLaunch
  dsimp only
  split
  · exact h
  split
  · exact h
  split
  · exact h
  split
  · exact h
  split
  · exact h
  · exact keeps_modCtx (keeps_agentNat (keeps_agentWrite h))

@[simp] theorem keepsOut_ownLaunch {s : State} {c : Cmd} (h : s.Inv) :
    InvOut (State.ownLaunch s c) := by
  unfold State.ownLaunch
  dsimp only
  split
  · exact keepsOut_fabricFault (keeps_fillFabric h)
  split
  · exact keepsOut_next.mpr (keeps_fillFabric h)
  · exact keepsOut_fabricFault (keeps_fillFabric h)
  split
  · exact keepsOut_next.mpr (keeps_statusDone (keeps_fillFabric h))
  split
  · exact keepsOut_next.mpr (keeps_fillFabric h)
  · exact keepsOut_next.mpr (keeps_statusDone (keeps_acceptLaunch (keeps_fillFabric h)))

@[simp] theorem keepsOut_execLaunchRecordArrival {src : LaunchSrc} {ctx : Nat} {bytes : List (BitVec 8)} {s : State} (h : s.Inv) :
    InvOut (execLaunchRecordArrival src ctx bytes s) := by
  have haccept : ∀ {peer}, (s.acceptLaunch (s.fabricWho ctx) ctx bytes peer).2.Inv := keeps_acceptLaunch h
  unfold execLaunchRecordArrival
  split
  · split
    · exact keepsOut_next.mpr h
    · have haccept := @haccept none
      generalize s.acceptLaunch (s.fabricWho ctx) ctx bytes none = r at haccept ⊢
      exact keepsOut_next.mpr (keeps_winStatus haccept)
  · split
    · exact keepsOut_next.mpr h
    · exact keepsOut_if (keepsOut_ownLaunch h) (keepsOut_next.mpr h)
  · next pkg sctx _ _ =>
    have haccept := @haccept (some (pkg, sctx))
    generalize s.acceptLaunch (s.fabricWho ctx) ctx bytes (some (pkg, sctx)) = r at haccept ⊢
    exact keepsOut_next.mpr (keeps_outbox (keeps_if (keeps_countMsg (keeps_settleTicks haccept)) haccept))

@[simp] theorem keepsOut_execTaskStart {team : Nat} {s : State} (h : s.Inv) :
    InvOut (execTaskStart team s) := by
  unfold execTaskStart
  dsimp only
  (repeat' split) <;> simp [h]

@[simp] theorem keeps_newRound {s : State} {core : Nat} (h : s.Inv) :
    (State.newRound s core).Inv := by
  unfold State.newRound
  simp [h]

@[simp] theorem keepsOut_execTaskIssueSelect {core : Nat} {s : State} (h : s.Inv) :
    InvOut (execTaskIssueSelect core s) := by
  unfold execTaskIssueSelect
  simp [h]

@[simp] theorem keeps_clearPad {s : State} {uid : Nat} (h : s.Inv) :
    (State.clearPad s uid).Inv :=
  ⟨wf_filter _ h.1, h.2⟩

@[simp] theorem keepsOut_execTeamRetire {team : Nat} {s : State} (h : s.Inv) :
    InvOut (execTeamRetire team s) := by
  unfold execTeamRetire
  split
  · exact keepsOut_next.mpr h
  split
  · exact keepsOut_next.mpr h
  split
  · exact keepsOut_next.mpr h
  · exact keepsOut_next.mpr (keeps_settleLaunch (keeps_modLaunch (inv_of_eq rfl rfl (keeps_clearPad (keeps_modCore h)))))

@[simp] theorem keeps_sendPlane {s : State} {core : Nat} {ctx : Nat} {whole : Bool} (h : s.Inv) :
    (State.sendPlane s core ctx whole).Inv := by
  unfold State.sendPlane
  simp [h]

@[simp] theorem keepsOpt_prepareShadow {s : State} {core : Nat} {ctx : Nat} (h : s.Inv) :
    InvOpt (State.prepareShadow s core ctx) := by
  unfold State.prepareShadow
  simp [h]

@[simp] theorem keeps_newQuantum {s : State} {core : Nat} {kept : Nat} (h : s.Inv) :
    (State.newQuantum s core kept).Inv := by
  unfold State.newQuantum
  simp [h]

@[simp] theorem keeps_switchFrom {s : State} {core : Nat} {c : Nat} {n : Nat} (h : s.Inv) :
    (State.switchFrom s core c n).Inv := by
  unfold State.switchFrom
  simp [h]

@[simp] theorem keepsOut_execQuantumEnd {core : Nat} {s : State} (h : s.Inv) :
    InvOut (execQuantumEnd core s) := by
  unfold execQuantumEnd
  dsimp only
  (repeat' split) <;> simp [h]

@[simp] theorem keepsOut_execShadowPrepare {core : Nat} {s : State} (h : s.Inv) :
    InvOut (execShadowPrepare core s) := by
  unfold execShadowPrepare
  dsimp only
  (repeat' split) <;> simp [h]

@[simp] theorem keeps_saveSems {s : State} {ctx : Nat} (h : s.Inv) :
    (State.saveSems s ctx).Inv := by
  unfold State.saveSems
  simp [h]

@[simp] theorem keeps_loadSems {s : State} {ctx : Nat} (h : s.Inv) :
    (State.loadSems s ctx).Inv := by
  unfold State.loadSems
  simp [h]

@[simp] theorem keeps_latchDesc {s : State} {die : Nat} {ctx : Nat} (h : s.Inv) :
    (State.latchDesc s die ctx).Inv := by
  unfold State.latchDesc
  simp [h]

@[simp] theorem keeps_zeroCsm {s : State} {us : List Nat} (h : s.Inv) :
    (State.zeroCsm s us).Inv := by
  unfold State.zeroCsm
  dsimp only
  split
  · exact h
  · exact ⟨wf_filter _ h.1, h.2⟩

@[simp] theorem keeps_assignCsm {s : State} {ctx : Nat} (h : s.Inv) :
    (State.assignCsm s ctx).Inv := by
  unfold State.assignCsm
  simp [h]

@[simp] theorem keeps_arriveCtx {s : State} {die : Nat} {ctx : Nat} (h : s.Inv) :
    (State.arriveCtx s die ctx).Inv := by
  have ha : ((s.latchDesc die ctx).assignCsm ctx).Inv := keeps_assignCsm (keeps_latchDesc h)
  exact keeps_modCtx (keeps_setResid (keeps_if (keeps_loadSems ha) ha))

@[simp] theorem keeps_leaveDie {s : State} {die : Nat} {ctx : Nat} (h : s.Inv) :
    (State.leaveDie s die ctx).Inv := by
  unfold State.leaveDie
  simp [h]

@[simp] theorem keeps_finishLeave {s : State} {die : Nat} {ctx : Nat} (h : s.Inv) :
    (State.finishLeave s die ctx).Inv := by
  unfold State.finishLeave
  dsimp only
  have hleft : ∀ {p : Prop} [Decidable p] {f}, (((if p then s.saveSems ctx else s).setResid ctx die .out).modCtx ctx f).Inv :=
    keeps_modCtx (keeps_setResid (keeps_if (keeps_saveSems h) h))
  split
  · exact h
  · split
    · exact keeps_arriveCtx hleft
    · exact hleft

@[simp] theorem keeps_settleCtx {s : State} {die : Nat} {ctx : Nat} (h : s.Inv) :
    (State.settleCtx s die ctx).Inv := by
  unfold State.settleCtx
  split <;> simp [h]

@[simp] theorem keeps_giveSlot {s : State} {die : Nat} {atOnce : Bool} (h : s.Inv) :
    (State.giveSlot s die atOnce).Inv := by
  unfold State.giveSlot
  dsimp only
  (repeat' split) <;> simp [h]

@[simp] theorem keeps_giveSlots {s : State} {die : Nat} {atOnce : Bool} {n3 : Nat} (h : s.Inv) :
    (State.giveSlots s die atOnce n3).Inv := by
  induction n3 generalizing s with
  | zero => exact h
  | succ n ih =>
    unfold State.giveSlots
    exact ih (keeps_giveSlot h)

@[simp] theorem keepsOut_execResidencyChoice {die : Nat} {s : State} (h : s.Inv) :
    InvOut (execResidencyChoice die s) := by
  unfold execResidencyChoice
  dsimp only
  have hsettled : ∀ {l : List Nat}, (l.foldl (fun s c => if c = 0 then s else s.settleCtx die c) s).Inv :=
    keeps_foldl (fun _ _ hs => keeps_if hs (keeps_settleCtx hs)) _ h
  split
  · exact keepsOut_next.mpr h
  · exact keepsOut_if (keepsOut_next.mpr (keeps_modDie (keeps_giveSlots hsettled))) (keepsOut_next.mpr (keeps_giveSlots hsettled))

@[simp] theorem keepsOut_execFairnessTick {die : Nat} {s : State} (h : s.Inv) :
    InvOut (execFairnessTick die s) := by
  unfold execFairnessTick
  simp [h]

@[simp] theorem keepsOut_execFairnessWindow {die : Nat} {s : State} (h : s.Inv) :
    InvOut (execFairnessWindow die s) := by
  unfold execFairnessWindow
  simp [h]

@[simp] theorem keepsOut_execUsedAccrual {die : Nat} {s : State} (h : s.Inv) :
    InvOut (execUsedAccrual die s) := by
  unfold execUsedAccrual
  simp [h]

@[simp] theorem keeps_followSpin {s t : State} (h : t.Inv) : (s.followSpin t).Inv := inv_of_eq rfl rfl h

@[simp] theorem keepsOut_execSpinDemotion {die : Nat} {entry : Nat} {s : State} (h : s.Inv) :
    InvOut (execSpinDemotion die entry s) := by
  unfold execSpinDemotion
  split <;> simp [h]

@[simp] theorem keepsOut_execQepochAdvance {die : Nat} {s : State} (h : s.Inv) :
    InvOut (execQepochAdvance die s) := by
  unfold execQepochAdvance
  simp [h]

@[simp] theorem keeps_writeSpill {s : State} {w : Waiting} (h : s.Inv) :
    (State.writeSpill s w).Inv := by
  unfold State.writeSpill
  (repeat' split) <;> simp [h]

@[simp] theorem keeps_syncQueue {s : State} {core : Nat} (h : s.Inv) :
    (State.syncQueue s core).Inv := by
  unfold State.syncQueue
  dsimp only
  split
  · exact h
  · exact keeps_foldl (fun _ _ hs => keeps_writeSpill hs) _ (keeps_modCore h)

@[simp] theorem keeps_syncQueues {s : State} (h : s.Inv) :
    (State.syncQueues s).Inv := by
  unfold State.syncQueues
  exact keeps_foldl (fun s x h => by simp [h]) _ h

@[simp] theorem keeps_sendUnplaced {s : State} {die : Nat} {ctx : Nat} {n3 : Nat} (h : s.Inv) :
    (State.sendUnplaced s die ctx n3).Inv := by
  induction n3 generalizing s with
  | zero => exact h
  | succ n ih =>
    unfold State.sendUnplaced
    split
    · exact h
    · split
      · exact h
      · split
        · exact h
        · exact keeps_if h (ih (keeps_placeTeam h))

@[simp] theorem keeps_packTeam {s : State} {die : Nat} {uid : Nat} {t : Team} {toDie : Nat} {toCore : Nat} (h : s.Inv) :
    (State.packTeam s die uid t toDie toCore).Inv := by
  unfold State.packTeam
  split <;> simp [h]

@[simp] theorem keeps_sendTeams {s : State} {die : Nat} {n2 : List (Nat × Team)} (h : s.Inv) :
    (State.sendTeams s die n2).Inv := by
  induction n2 generalizing s with
  | nil => exact h
  | cons t ts ih =>
    unfold State.sendTeams
    refine ih ?_
    split
    · exact h
    · exact keeps_packTeam h

@[simp] theorem keepsOut_execMigrationAdvertise {die : Nat} {s : State} (h : s.Inv) :
    InvOut (execMigrationAdvertise die s) := by
  have hsent : ∀ {b : State} {l : List Nat}, b.Inv →
      (l.foldl (fun s c => s.sendUnplaced die c (s.unplaced c)) b).Inv :=
    fun hb => keeps_foldl (fun _ _ hs => keeps_sendUnplaced hs) _ hb
  unfold execMigrationAdvertise
  dsimp only
  split
  · exact keepsOut_next.mpr h
  · exact keepsOut_if (keepsOut_next.mpr (keeps_modDie h)) (keepsOut_next.mpr (keeps_sendTeams (hsent (keeps_modDie h))))

@[simp] theorem keepsOut_execMigrationLanding {team : Nat} {core : Nat} {s : State} (h : s.Inv) :
    InvOut (execMigrationLanding team core s) := by
  unfold execMigrationLanding
  split
  · split
    · exact keepsOut_next.mpr h
    · refine keepsOut_next.mpr (keeps_foldl (fun _ _ hs => keeps_showRec hs) _ ?_)
      exact inv_of_eq rfl rfl h
  · exact keepsOut_next.mpr h

@[simp] theorem keeps_abortReady {s : State} {core : Nat} {uid : Nat} {bound : Nat} (h : s.Inv) :
    (State.abortReady s core uid bound).Inv := by
  unfold State.abortReady
  split
  · exact h
  split
  · exact keeps_dropYounger h
  · exact keeps_showRec (keeps_modTeam (keeps_endTask (keeps_dropYounger h)))

@[simp] theorem keeps_abortAll {s : State} {core : Nat} {l : List Access} {n3 : List Nat} (h : s.Inv) :
    (State.abortAll s core l n3).Inv := by
  induction n3 generalizing s with
  | nil => exact h
  | cons u us ih =>
    unfold State.abortAll
    refine ih ?_
    split
    · exact keeps_abortReady h
    · exact h

@[simp] theorem keeps_freeHalts {s : State} {core : Nat} {ctx : Nat} (h : s.Inv) :
    (State.freeHalts s core ctx).Inv := by
  unfold State.freeHalts
  simp [h]

@[simp] theorem keeps_saveCtx {s : State} {core : Nat} {ctx : Nat} (h : s.Inv) :
    (State.saveCtx s core ctx).Inv :=
  keeps_images (keeps_modCore (keeps_agentNat (keeps_agentNat (keeps_agentWrite h))))

@[simp] theorem keepsOut_execPreemption {core : Nat} {s : State} (h : s.Inv) :
    InvOut (execPreemption core s) := by
  unfold execPreemption
  dsimp only
  split
  · exact keepsOut_next.mpr h
  split
  · exact keepsOut_next.mpr h
  split
  · exact keepsOut_if (keepsOut_next.mpr (keeps_abortAll h)) (keepsOut_next.mpr h)
  · exact keepsOut_next.mpr (keeps_finishLeave (keeps_freeHalts (keeps_saveCtx h)))

@[simp] theorem keepsOpt_bringTile {s : State} {core : Nat} {ctx : Nat} {i : Nat} (h : s.Inv) :
    InvOpt (State.bringTile s core ctx i) := by
  unfold State.bringTile
  dsimp only
  split
  · exact keepsOpt_some.mpr h
  split
  · exact keepsOpt_some.mpr (keeps_agentNat h)
  split
  · exact keepsOpt_some.mpr h
  split
  · exact keepsOpt_none
  · exact keepsOpt_some.mpr (keeps_agentNat (keeps_modCore (keeps_fillUnits h)))
  · exact keepsOpt_if keepsOpt_none (keepsOpt_some.mpr (keeps_queueFault (keeps_modCore h)))

@[simp] theorem keepsOpt_bringTiles {s : State} {core : Nat} {ctx : Nat} {i : Nat} {n4 : Nat} (h : s.Inv) :
    InvOpt (State.bringTiles s core ctx i n4) := by
  induction n4 generalizing s i with
  | zero => exact keepsOpt_some.mpr h
  | succ n ih =>
    unfold State.bringTiles
    exact keepsOpt_bind (keepsOpt_bringTile h) fun _ ht => ih ht

theorem keeps_unpad {s : State} {uid mk place n : Nat} (h : s.Inv) : (s.unpad uid mk place n).1.Inv := by
  induction n generalizing s place with
  | zero => exact h
  | succ n ih =>
    unfold State.unpad
    exact ih (keeps_writeBytes h)

@[simp] theorem keeps_bringTeams {s : State} {img : Image} {place : Nat} {n3 : List (Nat × Bool)} (h : s.Inv) :
    (State.bringTeams s img place n3).Inv := by
  induction n3 generalizing s place with
  | nil => exact h
  | cons t us ih =>
    unfold State.bringTeams
    refine ih (keeps_if (keeps_unpad ?_) h)
    split
    · exact keeps_setTeam (keeps_clearPad h)
    · exact h

@[simp] theorem keeps_readImage {s : State} {core : Nat} {ctx : Nat} (h : s.Inv) :
    (State.readImage s core ctx).Inv := by
  unfold State.readImage
  split <;> simp [h]

@[simp] theorem keeps_bringCmds {s : State} {core : Nat} {ctx : Nat} (h : s.Inv) :
    (State.bringCmds s core ctx).Inv := by
  unfold State.bringCmds
  split <;> simp [h]

@[simp] theorem keepsOpt_readyShadow {s : State} {core : Nat} {ctx : Nat} (h : s.Inv) :
    InvOpt (State.readyShadow s core ctx) := by
  unfold State.readyShadow
  simp [h]

@[simp] theorem keeps_activate {s : State} {core : Nat} {ctx : Nat} (h : s.Inv) :
    (State.activate s core ctx).Inv :=
  keeps_assignCsm (keeps_modCore (keeps_accrue h))

@[simp] theorem keepsOpt_restoreCtx {s : State} {core : Nat} {ctx : Nat} (h : s.Inv) :
    InvOpt (State.restoreCtx s core ctx) := by
  unfold State.restoreCtx
  refine keepsOpt_bind (keepsOpt_readyShadow h) fun t ht => ?_
  split
  · exact keepsOpt_some.mpr ht
  · refine keepsOpt_map (keepsOpt_bringTiles (keeps_activate ht)) fun t ht => ?_
    exact keeps_modCore (keeps_newRound (keeps_agentNat (keeps_agentNat (keeps_bringCmds (keeps_readImage ht)))))

@[simp] theorem keepsOut_execContextRestore {core : Nat} {s : State} (h : s.Inv) :
    InvOut (execContextRestore core s) := by
  unfold execContextRestore
  (repeat' split) <;> simp [h]

end Sys2Proof.Proofs

/-! Canonical form: security, the host, health and the dispatch. -/

namespace Sys2Proof.Proofs

open Sys2Proof.Machine Sys2Proof.Laws

@[simp] theorem keeps_zeroFrame {s : State} {mk : Nat} {key : Nat} (h : s.Inv) :
    (State.zeroFrame s mk key).Inv := by
  unfold State.zeroFrame
  generalize List.range 512 = l
  exact keeps_if h ⟨wf_filter _ h.1, List.foldlRecOn (motive := fun t => tabSorted t = true) l _ (tabSorted_filter _ h.2)
    fun _ ht _ _ => tabSorted_tabPut _ _ _ ht⟩

@[simp] theorem keeps_dropFrames {s : State} {frames : List Nat} (h : s.Inv) :
    (State.dropFrames s frames).Inv := by
  unfold State.dropFrames
  simp [h]

/-- A scan's request record: its status, its reason and the offset it names. -/
theorem inv_scanRecord {s : State} {a b c i j k : Nat} (h : s.Inv) :
    (((s.writeNat 0 a 1 i).writeNat 0 b 1 j).writeNat 0 c 4 k).Inv :=
  keeps_writeNat (keeps_writeNat (keeps_writeNat h))

theorem keeps_sectionsOf {s : State} {l : List Section} (h : s.Inv) : State.Inv { s with sections := l } := h

theorem keeps_imagesCores {s : State} {l : List Image} {k : Tab Core} (h : s.Inv) :
    State.Inv { s with images := l, cores := k } := h

theorem keeps_ctxbase {s : State} {b : BitVec 56} (h : s.Inv) : State.Inv { s with ctxbase := b } := h

@[simp] theorem keeps_endScan {s : State} {die key sem status reason off : Nat} (h : s.Inv) :
    (s.endScan die key sem status reason off).Inv :=
  keeps_modDie (keeps_getD (keepsOpt_semAdd (inv_scanRecord h)) (inv_scanRecord h))

@[simp] theorem keeps_writeLeaves {s : State} {cls : Nat} {mkey : Nat} {n3 : List (Nat × Nat)} (h : s.Inv) :
    (State.writeLeaves s cls mkey n3).Inv := by
  induction n3 generalizing s with
  | nil => exact h
  | cons k ks ih =>
    unfold State.writeLeaves
    exact ih (keeps_writeNat h)

@[simp] theorem keeps_finishScan {s : State} {die : Nat} {j : ScanJob} {c : Section} (h : s.Inv) :
    (State.finishScan s die j c).Inv := by
  unfold State.finishScan
  dsimp only
  split
  · exact keeps_endScan h
  split
  · exact keeps_endScan h
  split
  · exact keeps_endScan h
  · exact keeps_endScan (keeps_writeBytes (keeps_writeLeaves h))

@[simp] theorem keepsOut_execScanRequest {die : Nat} {slot : Nat} {s : State} (h : s.Inv) :
    InvOut (execScanRequest die slot s) := by
  have key : ∀ f, f = execScanRequest → InvOut (f die slot s) := by
    intro f hf
    delta execScanRequest at hf
    subst hf
    beta_reduce
    refine keepsOut_if (keepsOut_next.mpr h) ?_
    generalize s.scanReq die slot = r
    split
    · split
      · exact keepsOut_next.mpr (keeps_if (keeps_finishScan h) h)
      · exact keepsOut_next.mpr h
    refine keepsOut_if (keepsOut_next.mpr (keeps_endScan h)) ?_
    split
    · exact keepsOut_next.mpr (keeps_endScan h)
    · exact keepsOut_if (keepsOut_next.mpr (keeps_endScan h))
        (keepsOut_next.mpr (keeps_modDie (keeps_dropFrames (keeps_sectionsOf h))))
  exact key _ rfl

@[simp] theorem keeps_reqStatus {s : State} {die : Nat} {slot : Nat} {status : Nat} (h : s.Inv) :
    (State.reqStatus s die slot status).Inv :=
  keeps_getD (keepsOpt_semAdd (keeps_writeNat h)) (keeps_writeNat h)

@[simp] theorem keeps_reqPop {s : State} {die : Nat} {slot : Nat} (h : s.Inv) :
    (State.reqPop s die slot).Inv := by
  unfold State.reqPop
  simp [h]

@[simp] theorem keeps_reqEnd {s : State} {die : Nat} {slot : Nat} {status : Nat} (h : s.Inv) :
    (State.reqEnd s die slot status).Inv := by
  unfold State.reqEnd
  simp [h]

theorem keepsOut_alidade {die slot op : Nat} {named : List (Nat × Nat)} {body : State → State} {s : State} (h : s.Inv)
    (hb : (body s).Inv) : InvOut (alidade die slot op named body s) := by
  unfold alidade
  dsimp only
  exact keepsOut_if (keepsOut_next.mpr h) (keepsOut_if (keepsOut_next.mpr (keeps_reqEnd h)) (keepsOut_if
    (keepsOut_next.mpr h) (keepsOut_if (keepsOut_next.mpr (keeps_reqEnd h)) (keepsOut_next.mpr hb))))

/-- The tags of a key's granules become those of a key that no one has. -/
theorem inv_retag {m : List Host.Cell} {t : Tab Nat} {i j : Nat} {s : State} (hs : s.Inv) (hm : s.mem = m) (ht : s.tags = t) :
    Memory.wf m = true ∧ tabSorted (t.map fun x => if x.2 = i then (x.1, j) else x) = true := by
  subst hm ht
  refine ⟨hs.1, tabSorted_map (fun x => ?_) hs.2⟩
  split <;> rfl

@[simp] theorem keeps_mkeyNew {s : State} {die slot : Nat} (h : s.Inv) : (s.mkeyNew die slot).Inv := by
  unfold State.mkeyNew
  dsimp only
  refine keeps_if (keeps_reqEnd h) (keeps_if (keeps_reqEnd h) ?_)
  split
  · exact keeps_reqEnd h
  · exact keeps_reqEnd (keeps_writeNat (inv_retag h rfl rfl))

@[simp] theorem keepsOut_execMkeyNew {die : Nat} {slot : Nat} {s : State} (h : s.Inv) :
    InvOut (execMkeyNew die slot s) :=
  keepsOut_alidade h (keeps_mkeyNew h)

@[simp] theorem keeps_killKey {s : State} {i : Nat} (h : s.Inv) :
    (State.killKey s i).Inv :=
  inv_retag h rfl rfl

@[simp] theorem keepsOut_execMkeyKill {die : Nat} {slot : Nat} {s : State} (h : s.Inv) :
    InvOut (execMkeyKill die slot s) :=
  keepsOut_alidade h (keeps_if (keeps_reqEnd h) (keeps_reqEnd (keeps_killKey h)))

@[simp] theorem keeps_slotLoad {s : State} {die : Nat} {slot : Nat} (h : s.Inv) :
    (State.slotLoad s die slot).Inv := by
  unfold State.slotLoad
  dsimp only
  refine keeps_if (keeps_reqEnd h) (keeps_if (keeps_reqEnd h) (keeps_if (keeps_reqEnd h) (keeps_if (keeps_reqEnd h) ?_)))
  split
  · exact keeps_reqEnd h
  · exact keeps_reqEnd (keeps_modDie h)

@[simp] theorem keepsOut_execSlotLoad {die : Nat} {slot : Nat} {s : State} (h : s.Inv) :
    InvOut (execSlotLoad die slot s) :=
  keepsOut_alidade h (keeps_slotLoad h)

@[simp] theorem keeps_clearGrants {s : State} {die : Nat} {p : Nat → Grant → Bool} (h : s.Inv) :
    (State.clearGrants s die p).Inv := by
  unfold State.clearGrants
  simp [h]

@[simp] theorem keepsOut_execSlotClear {die : Nat} {slot : Nat} {s : State} (h : s.Inv) :
    InvOut (execSlotClear die slot s) :=
  keepsOut_alidade h (keeps_if (keeps_reqEnd h) (keeps_if (keeps_clearGrants h) (keeps_reqEnd (keeps_modDie (keeps_clearGrants h)))))

@[simp] theorem keeps_grantSet {s : State} {die : Nat} {slot : Nat} (h : s.Inv) :
    (State.grantSet s die slot).Inv := by
  unfold State.grantSet
  dsimp only
  refine keeps_if (keeps_reqEnd h) (keeps_if (keeps_reqEnd h) (keeps_if (keeps_reqEnd h) ?_))
  split
  · exact keeps_reqEnd h
  · exact keeps_if (keeps_reqEnd h) (keeps_reqEnd (keeps_modDie h))

@[simp] theorem keepsOut_execGrantSet {die : Nat} {slot : Nat} {s : State} (h : s.Inv) :
    InvOut (execGrantSet die slot s) :=
  keepsOut_alidade h (keeps_grantSet h)

@[simp] theorem keepsOut_execGrantClear {die : Nat} {slot : Nat} {s : State} (h : s.Inv) :
    InvOut (execGrantClear die slot s) :=
  keepsOut_alidade h (keeps_if (keeps_reqEnd h) (keeps_if (keeps_clearGrants h) (keeps_reqEnd (keeps_clearGrants h))))

@[simp] theorem keeps_attest {s : State} {die : Nat} {slot : Nat} (h : s.Inv) :
    (State.attest s die slot).Inv :=
  keeps_if (keeps_reqEnd h) (keeps_if (keeps_reqEnd (keeps_writeBytes h)) (keeps_reqEnd h))

@[simp] theorem keepsOut_execAttest {die : Nat} {slot : Nat} {s : State} (h : s.Inv) :
    InvOut (execAttest die slot s) :=
  keepsOut_alidade h (keeps_attest h)

@[simp] theorem keeps_setClaim {s : State} {key : Nat} {c : Option Nat} (h : s.Inv) :
    (State.setClaim s key c).Inv := by
  unfold State.setClaim
  simp [h]

@[simp] theorem keeps_wipeFrame {s : State} {mk : Nat} {key : Nat} (h : s.Inv) :
    (State.wipeFrame s mk key).Inv := by
  unfold State.wipeFrame
  simp [h]

@[simp] theorem keeps_serveHandshake {s : State} {die : Nat} {slot : Nat} {op : Nat} (h : s.Inv) :
    (State.serveHandshake s die slot op).Inv := by
  unfold State.serveHandshake
  dsimp only
  refine keeps_if (keeps_reqEnd h) (keeps_if (keeps_reqEnd h) ?_)
  split
  · exact keeps_reqEnd h
  refine keeps_if (keeps_reqEnd h) ?_
  split
  · exact keeps_reqEnd h
  refine keeps_reqEnd (keeps_modDie (keeps_agentNat (keeps_foldl (fun _ _ hs => ?_) _ (keeps_if (keeps_setClaim h) h))))
  exact keeps_setClaim (keeps_wipeFrame hs)

@[simp] theorem keepsOut_execAccept {die : Nat} {slot : Nat} {s : State} (h : s.Inv) :
    InvOut (execAccept die slot s) :=
  keepsOut_alidade h (keeps_serveHandshake h)

@[simp] theorem keepsOut_execRelease {die : Nat} {slot : Nat} {s : State} (h : s.Inv) :
    InvOut (execRelease die slot s) :=
  keepsOut_alidade h (keeps_serveHandshake h)

@[simp] theorem keeps_emptyRings {s : State} {ctx : Nat} (h : s.Inv) :
    (State.emptyRings s ctx).Inv :=
  keeps_foldl (fun _ _ hs => keeps_agentNat hs) _ h

@[simp] theorem keeps_dropLaunches {s : State} {ctx : Nat} (h : s.Inv) :
    (State.dropLaunches s ctx).Inv := by
  unfold State.dropLaunches
  exact keeps_modCtx (keeps_emptyRings (keeps_imagesCores (keeps_foldl (fun _ _ hs => keeps_killTeam hs) _ h)))

@[simp] theorem keeps_haltEverywhere {s : State} {ctx : Nat} (h : s.Inv) :
    (State.haltEverywhere s ctx).Inv :=
  keeps_foldl (fun _ _ hs => keeps_requestHalt hs) _ h

@[simp] theorem keeps_dropSecrets {s : State} {ctx : Nat} (h : s.Inv) :
    (State.dropSecrets s ctx).Inv :=
  keeps_foldl (fun _ _ hs => keeps_modDie (keeps_clearGrants hs)) _ h

@[simp] theorem keeps_destroy {s : State} {die : Nat} {slot : Nat} (h : s.Inv) :
    (State.destroy s die slot).Inv := by
  unfold State.destroy
  dsimp only
  have hhalted : ((s.setCtxState (s.reqCtx die slot) 3).haltEverywhere (s.reqCtx die slot)).Inv :=
    keeps_haltEverywhere (keeps_setCtxState h)
  refine keeps_if (keeps_reqEnd h) (keeps_if hhalted ?_)
  have hkeyless : ∀ {p : Prop} [Decidable p] {c i}, (if p then ((s.setCtxState (s.reqCtx die slot) 3).haltEverywhere
      (s.reqCtx die slot)).dropLanded c else (((s.setCtxState (s.reqCtx die slot) 3).haltEverywhere
      (s.reqCtx die slot)).dropLanded c).killKey i).Inv := keeps_if (keeps_dropLanded hhalted) (keeps_killKey (keeps_dropLanded hhalted))
  exact keeps_if (keeps_dropSecrets (keeps_modCtx (keeps_writeNat hkeyless))) (keeps_reqEnd (keeps_dropLaunches
    (keeps_modCtx (keeps_zeroCsm (keeps_dies (keeps_dropSecrets (keeps_modCtx (keeps_writeNat hkeyless))))))))

@[simp] theorem keepsOut_execDestroy {die : Nat} {slot : Nat} {s : State} (h : s.Inv) :
    InvOut (execDestroy die slot s) :=
  keepsOut_alidade h (keeps_destroy h)

@[simp] theorem keeps_owe {s : State} {die : Nat} {slot : Nat} {status : Nat} (h : s.Inv) :
    (State.owe s die slot status).Inv := by
  unfold State.owe
  simp [h]

@[simp] theorem keeps_startScrub {s : State} {die : Nat} {slot : Nat} (h : s.Inv) :
    (State.startScrub s die slot).Inv := by
  unfold State.startScrub
  (repeat' split) <;> simp [h]

@[simp] theorem keepsOut_execScrub {die : Nat} {slot : Nat} {s : State} (h : s.Inv) :
    InvOut (execScrub die slot s) := by
  unfold execScrub
  split <;> simp [h]

@[simp] theorem keepsOut_execScrubFrameZero {key : Nat} {s : State} (h : s.Inv) :
    InvOut (execScrubFrameZero key s) := by
  unfold execScrubFrameZero
  (repeat' split) <;> simp [h]

@[simp] theorem keeps_setApctl {s : State} {v : W64} (h : s.Inv) :
    (State.setApctl s v).Inv := by
  unfold State.setApctl
  simp [h]

@[simp] theorem keeps_writeAdapter {s : State} {off : Nat} {n2 : List (BitVec 8)} (h : s.Inv) :
    (State.writeAdapter s off n2).Inv := by
  induction n2 generalizing s off with
  | nil => exact h
  | cons b bs ih =>
    unfold State.writeAdapter
    exact ih (keeps_if (keeps_setApctl h) (keeps_if (inv_of_eq rfl rfl h) h))

@[simp] theorem keeps_aperture {s : State} {a : ApertureAcc} (h : s.Inv) :
    (State.aperture s a).Inv := by
  unfold State.aperture
  dsimp only
  (repeat' split) <;> simp [h]

@[simp] theorem keeps_doorbell {s : State} {window : Nat} {value : Nat} (h : s.Inv) :
    (State.doorbell s window value).Inv := by
  unfold State.doorbell
  refine keeps_if h ?_
  have haccept := keeps_acceptLaunch (w := s.fabricWho window) (ctx := window) (bs := s.stagedBytes window) (peer := none) h
  generalize s.acceptLaunch (s.fabricWho window) window (s.stagedBytes window) none = r at haccept ⊢
  exact keeps_if (keeps_outbox (keeps_winStatus haccept)) (keeps_winStatus haccept)

@[simp] theorem keepsOut_execHostDoorbell {window : Nat} {value : Nat} {s : State} (h : s.Inv) :
    InvOut (execHostDoorbell window value s) := by
  unfold execHostDoorbell
  simp [h]

@[simp] theorem keeps_stage {s : State} {off : Nat} {n2 : List (BitVec 8)} (h : s.Inv) :
    (State.stage s off n2).Inv := by
  induction n2 generalizing s off with
  | nil => exact h
  | cons b bs ih =>
    unfold State.stage
    exact ih (keeps_if (inv_of_eq rfl rfl h) h)

@[simp] theorem keeps_writeWindow {s : State} {off : Nat} {bs : List (BitVec 8)} (h : s.Inv) :
    (State.writeWindow s off bs).Inv := by
  unfold State.writeWindow
  simp [h]

@[simp] theorem keepsOut_execApertureAccess {acc : ApertureAcc} {s : State} (h : s.Inv) :
    InvOut (execApertureAccess acc s) := by
  unfold execApertureAccess
  (repeat' split) <;> simp [h]

@[simp] theorem keeps_writeFair {s : State} {die : Nat} {entry : Nat} {word : Nat} {v : BitVec 32} (h : s.Inv) :
    (State.writeFair s die entry word v).Inv := by
  unfold State.writeFair
  simp [h]

@[simp] theorem keepsOut_execRegisterWrite {reg : HostReg} {s : State} (h : s.Inv) :
    InvOut (execRegisterWrite reg s) := by
  unfold execRegisterWrite
  split <;> simp [h]

@[simp] theorem keeps_dropLost {s : State} {ctx : Nat} {slot : Nat} (h : s.Inv) :
    (State.dropLost s ctx slot).Inv := by
  unfold State.dropLost
  simp [h]

@[simp] theorem keepsOpt_doom {s : State} {d : Doom} (h : s.Inv) :
    InvOpt (State.doom s d) := by
  unfold State.doom
  split
  · exact keepsOpt_some.mpr h
  split
  · exact keepsOpt_some.mpr (keeps_killLaunch (keeps_dropLost h))
  · exact keepsOpt_if keepsOpt_none (keepsOpt_some.mpr (keeps_killLaunch (keeps_dropLost (keeps_queueFault h))))

@[simp] theorem keeps_drainDoom {s : State} {n1 : List Doom} (h : s.Inv) :
    (State.drainDoom s n1).Inv := by
  induction n1 generalizing s with
  | nil => exact h
  | cons d ds ih =>
    unfold State.drainDoom
    split
    · next t ht => exact ih (keepsOpt_doom h t ht)
    · exact h

@[simp] theorem keeps_addDoom {s : State} {l : List Doom} (h : s.Inv) :
    (State.addDoom s l).Inv := by
  unfold State.addDoom
  simp [h]

@[simp] theorem keeps_loseQps {s : State} {p : QpDesc → Bool} (h : s.Inv) :
    (State.loseQps s p).Inv := by
  unfold State.loseQps
  exact keeps_foldl (fun s x h => by simp [h]) _ h

@[simp] theorem keeps_losePkg {s : State} {pkg : Nat} (h : s.Inv) :
    (State.losePkg s pkg).Inv := by
  unfold State.losePkg
  simp [h]

@[simp] theorem keeps_loseSems {s : State} {die : Nat} (h : s.Inv) :
    (State.loseSems s die).Inv := by
  unfold State.loseSems
  refine keeps_foldl (fun s x h => ?_) _ h
  split <;> simp [h]

@[simp] theorem keeps_loseBars {s : State} {die : Nat} (h : s.Inv) :
    (State.loseBars s die).Inv := by
  unfold State.loseBars
  refine keeps_foldl (fun s x h => ?_) _ h
  split <;> simp [h]

@[simp] theorem keeps_loseRegions {s : State} {die : Nat} (h : s.Inv) :
    (State.loseRegions s die).Inv := by
  refine keeps_foldl (fun _ _ hs => keeps_answer hs) _ (keeps_foldl (fun _ w hs => ?_) _
    (keeps_foldl (fun _ _ hs => keeps_setPwait hs) _ (keeps_foldl (fun _ _ hs => keeps_setVerChain hs) _ h)))
  cases w with
  | task t r c => exact keeps_wakeRec hs
  | cmd c i => exact hs

@[simp] theorem keeps_suspendHomed {s : State} {die : Nat} {n2 : List Nat} (h : s.Inv) :
    (State.suspendHomed s die n2).Inv := by
  induction n2 generalizing s with
  | nil => exact h
  | cons c cs ih =>
    unfold State.suspendHomed
    exact ih (keeps_if (keeps_setCtxState h) h)

@[simp] theorem keeps_clearDie {s : State} {die : Nat} (h : s.Inv) :
    (State.clearDie s die).Inv := by
  unfold State.clearDie
  simp [h]

@[simp] theorem keeps_loseDie {s : State} {die : Nat} (h : s.Inv) :
    (State.loseDie s die).Inv :=
  keeps_if h (keeps_addDoom (keeps_suspendHomed (keeps_loseBars (keeps_loseSems (keeps_loseQps (keeps_clearDie (keeps_loseRegions h)))))))

@[simp] theorem keepsOut_execDieLoss {pkg : Nat} {die : Nat} {s : State} (h : s.Inv) :
    InvOut (execDieLoss pkg die s) := by
  unfold execDieLoss
  simp [h]

@[simp] theorem keeps_stopReads {s : State} {core : Nat} {ctx : Nat} (h : s.Inv) :
    (State.stopReads s core ctx).Inv := by
  unfold State.stopReads
  simp [h]

@[simp] theorem keeps_machineCheck {s : State} {die : Nat} {code : Nat} {core : Nat} {ctx : Nat} {addr : Nat} (h : s.Inv) :
    (State.machineCheck s die code core ctx addr).Inv := by
  unfold State.machineCheck
  dsimp only
  refine keeps_if (keeps_loseDie (keeps_logCheck h)) (keeps_if ?_ (keeps_addDoom (keeps_setCtxState (keeps_stopReads (keeps_logCheck h)))))
  split
  · exact keeps_if (keeps_abortTask (keeps_stopReads (keeps_logCheck h))) (keeps_logCheck h)
  · exact keeps_logCheck h

@[simp] theorem keepsOut_execMachineCheck {die : Nat} {code : Nat} {core : Nat} {ctx : Nat} {addr : Nat} {s : State} (h : s.Inv) :
    InvOut (execMachineCheck die code core ctx addr s) := by
  unfold execMachineCheck
  simp [h]

@[simp] theorem keeps_testCores {s : State} {die : Nat} {bad : List Nat} (h : s.Inv) :
    (State.testCores s die bad).Inv :=
  keeps_foldl (fun _ _ hs => keeps_if (keeps_logCheck (keeps_setCore hs)) (keeps_setCore hs)) _ h

@[simp] theorem keeps_appoint {s : State} {die : Nat} (h : s.Inv) :
    (State.appoint s die).Inv := by
  unfold State.appoint
  exact keeps_foldl (fun s x h => by simp [h]) _ h

@[simp] theorem keeps_loadBytes {s : State} {die : Nat} {n2 : List (Nat × BitVec 8)} (h : s.Inv) :
    (State.loadBytes s die n2).Inv := by
  induction n2 generalizing s with
  | nil => exact h
  | cons x l ih =>
    unfold State.loadBytes
    exact ih (keeps_if (keeps_agentWrite h) h)

@[simp] theorem keeps_admitFirmware {s : State} {die : Nat} {bu : Bringup} (h : s.Inv) :
    (State.admitFirmware s die bu).Inv := by
  unfold State.admitFirmware
  dsimp only
  (repeat' split) <;> simp [h]

@[simp] theorem keeps_startFirmware {s : State} {die : Nat} {bu : Bringup} (h : s.Inv) :
    (State.startFirmware s die bu).Inv :=
  keeps_latch (keeps_startSystem (keeps_modDie (keeps_ctxbase (keeps_setTeam h))))

@[simp] theorem keeps_bringUp {s : State} {die : Nat} {bu : Bringup} (h : s.Inv) :
    (State.bringUp s die bu).Inv := by
  unfold State.bringUp
  refine keeps_if (keeps_link (keeps_qdone ?_)) (keeps_qdone ?_) <;>
    exact keeps_startFirmware (keeps_admitFirmware (keeps_loadBytes (keeps_ports
      (keeps_appoint (keeps_testCores (keeps_modDie h))))))

@[simp] theorem keepsOut_execDieBringup {die : Nat} {bu : Bringup} {s : State} (h : s.Inv) :
    InvOut (execDieBringup die bu s) := by
  unfold execDieBringup
  simp [h]

@[simp] theorem keepsOut_execPowerLoss {s : State} (h : s.Inv) :
    InvOut (execPowerLoss s) := by
  refine keepsOut_next.mpr ⟨wf_filter _ h.1, tabSorted_map (fun x => rfl) h.2⟩

@[simp] theorem keepsOut_execPowerWindow {milliwatts : Nat} {s : State} (h : s.Inv) :
    InvOut (execPowerWindow milliwatts s) := by
  unfold execPowerWindow
  simp [h]

@[simp] theorem keepsOut_execFlitReceive {port : Nat} {flit : Flit} {s : State} (h : s.Inv) :
    InvOut (execFlitReceive port flit s) := by
  unfold execFlitReceive
  simp [h]

@[simp] theorem keeps_resend {s : State} {port : Nat} {seq : BitVec 12} (h : s.Inv) :
    (State.resend s port seq).Inv := by
  unfold State.resend
  simp [h]

@[simp] theorem keepsOut_execLinkReplay {port : Nat} {seq : Nat} {s : State} (h : s.Inv) :
    InvOut (execLinkReplay port seq s) := by
  unfold execLinkReplay
  simp [h]

@[simp] theorem keeps_dropPort {s : State} {port : Nat} (h : s.Inv) :
    (State.dropPort s port).Inv := by
  unfold State.dropPort
  exact keeps_if (keeps_link h) (keeps_if (keeps_foldl (fun _ _ hs => keeps_losePkg hs) _ (keeps_setPort h))
    (keeps_reroute (keeps_setPort (keeps_setPort h))))

@[simp] theorem keepsOut_execLinkRetrain {port : Nat} {ok : Bool} {s : State} (h : s.Inv) :
    InvOut (execLinkRetrain port ok s) := by
  unfold execLinkRetrain
  simp [h]

@[simp] theorem keepsOut_execPortDown {port : Nat} {s : State} (h : s.Inv) :
    InvOut (execPortDown port s) := by
  unfold execPortDown
  simp [h]

@[simp] theorem keepsOut_reqWork {id : Nat} {n1 : Req} {n2 : State} (h : n2.Inv) :
    InvOut (reqWork id n1 n2) := by
  unfold reqWork
  split <;> simp [h]

@[simp] theorem keepsOut_ringStep {op : Nat} {die : Nat} {slot : Nat} {n3 : State} (h : n3.Inv) :
    InvOut (ringStep op die slot n3) := by
  unfold ringStep
  split <;> simp [h]

@[simp] theorem keepsOut_execAdd {f : FS} {s : State} (h : s.Inv) :
    InvOut (execAdd f s) := by
  unfold execAdd
  simp [h]

@[simp] theorem keepsOut_execAddSw {f : FSW} {s : State} (h : s.Inv) :
    InvOut (execAddSw f s) := by
  unfold execAddSw
  simp [h]

@[simp] theorem keepsOut_execSub {f : FS} {s : State} (h : s.Inv) :
    InvOut (execSub f s) := by
  unfold execSub
  simp [h]

@[simp] theorem keepsOut_execSubSw {f : FSW} {s : State} (h : s.Inv) :
    InvOut (execSubSw f s) := by
  unfold execSubSw
  simp [h]

@[simp] theorem keepsOut_execMul {f : FS} {s : State} (h : s.Inv) :
    InvOut (execMul f s) := by
  unfold execMul
  simp [h]

@[simp] theorem keepsOut_execMulSw {f : FSW} {s : State} (h : s.Inv) :
    InvOut (execMulSw f s) := by
  unfold execMulSw
  simp [h]

@[simp] theorem keepsOut_execMulh {f : FS} {s : State} (h : s.Inv) :
    InvOut (execMulh f s) := by
  unfold execMulh
  simp [h]

@[simp] theorem keepsOut_execMulhSw {f : FSW} {s : State} (h : s.Inv) :
    InvOut (execMulhSw f s) := by
  unfold execMulhSw
  simp [h]

@[simp] theorem keepsOut_execDiv {f : FS} {s : State} (h : s.Inv) :
    InvOut (execDiv f s) := by
  unfold execDiv
  simp [h]

@[simp] theorem keepsOut_execDivSw {f : FSW} {s : State} (h : s.Inv) :
    InvOut (execDivSw f s) := by
  unfold execDivSw
  simp [h]

@[simp] theorem keepsOut_execRem {f : FS} {s : State} (h : s.Inv) :
    InvOut (execRem f s) := by
  unfold execRem
  simp [h]

@[simp] theorem keepsOut_execRemSw {f : FSW} {s : State} (h : s.Inv) :
    InvOut (execRemSw f s) := by
  unfold execRemSw
  simp [h]

@[simp] theorem keepsOut_execAnd {f : FS} {s : State} (h : s.Inv) :
    InvOut (execAnd f s) := by
  unfold execAnd
  simp [h]

@[simp] theorem keepsOut_execAndSw {f : FSW} {s : State} (h : s.Inv) :
    InvOut (execAndSw f s) := by
  unfold execAndSw
  simp [h]

@[simp] theorem keepsOut_execOr {f : FS} {s : State} (h : s.Inv) :
    InvOut (execOr f s) := by
  unfold execOr
  simp [h]

@[simp] theorem keepsOut_execOrSw {f : FSW} {s : State} (h : s.Inv) :
    InvOut (execOrSw f s) := by
  unfold execOrSw
  simp [h]

@[simp] theorem keepsOut_execXor {f : FS} {s : State} (h : s.Inv) :
    InvOut (execXor f s) := by
  unfold execXor
  simp [h]

@[simp] theorem keepsOut_execXorSw {f : FSW} {s : State} (h : s.Inv) :
    InvOut (execXorSw f s) := by
  unfold execXorSw
  simp [h]

@[simp] theorem keepsOut_execAndn {f : FS} {s : State} (h : s.Inv) :
    InvOut (execAndn f s) := by
  unfold execAndn
  simp [h]

@[simp] theorem keepsOut_execAndnSw {f : FSW} {s : State} (h : s.Inv) :
    InvOut (execAndnSw f s) := by
  unfold execAndnSw
  simp [h]

@[simp] theorem keepsOut_execShl {f : FS} {s : State} (h : s.Inv) :
    InvOut (execShl f s) := by
  unfold execShl
  simp [h]

@[simp] theorem keepsOut_execShlSw {f : FSW} {s : State} (h : s.Inv) :
    InvOut (execShlSw f s) := by
  unfold execShlSw
  simp [h]

@[simp] theorem keepsOut_execShr {f : FS} {s : State} (h : s.Inv) :
    InvOut (execShr f s) := by
  unfold execShr
  simp [h]

@[simp] theorem keepsOut_execShrSw {f : FSW} {s : State} (h : s.Inv) :
    InvOut (execShrSw f s) := by
  unfold execShrSw
  simp [h]

@[simp] theorem keepsOut_execShra {f : FS} {s : State} (h : s.Inv) :
    InvOut (execShra f s) := by
  unfold execShra
  simp [h]

@[simp] theorem keepsOut_execShraSw {f : FSW} {s : State} (h : s.Inv) :
    InvOut (execShraSw f s) := by
  unfold execShraSw
  simp [h]

@[simp] theorem keepsOut_execRotr {f : FS} {s : State} (h : s.Inv) :
    InvOut (execRotr f s) := by
  unfold execRotr
  simp [h]

@[simp] theorem keepsOut_execRotrSw {f : FSW} {s : State} (h : s.Inv) :
    InvOut (execRotrSw f s) := by
  unfold execRotrSw
  simp [h]

@[simp] theorem keepsOut_execMin {f : FS} {s : State} (h : s.Inv) :
    InvOut (execMin f s) := by
  unfold execMin
  simp [h]

@[simp] theorem keepsOut_execMinSw {f : FSW} {s : State} (h : s.Inv) :
    InvOut (execMinSw f s) := by
  unfold execMinSw
  simp [h]

@[simp] theorem keepsOut_execMax {f : FS} {s : State} (h : s.Inv) :
    InvOut (execMax f s) := by
  unfold execMax
  simp [h]

@[simp] theorem keepsOut_execMaxSw {f : FSW} {s : State} (h : s.Inv) :
    InvOut (execMaxSw f s) := by
  unfold execMaxSw
  simp [h]

@[simp] theorem keepsOut_execClz {f : FS} {s : State} (h : s.Inv) :
    InvOut (execClz f s) := by
  unfold execClz
  simp [h]

@[simp] theorem keepsOut_execClzSw {f : FSW} {s : State} (h : s.Inv) :
    InvOut (execClzSw f s) := by
  unfold execClzSw
  simp [h]

@[simp] theorem keepsOut_execCtz {f : FS} {s : State} (h : s.Inv) :
    InvOut (execCtz f s) := by
  unfold execCtz
  simp [h]

@[simp] theorem keepsOut_execCtzSw {f : FSW} {s : State} (h : s.Inv) :
    InvOut (execCtzSw f s) := by
  unfold execCtzSw
  simp [h]

@[simp] theorem keepsOut_execPopc {f : FS} {s : State} (h : s.Inv) :
    InvOut (execPopc f s) := by
  unfold execPopc
  simp [h]

@[simp] theorem keepsOut_execPopcSw {f : FSW} {s : State} (h : s.Inv) :
    InvOut (execPopcSw f s) := by
  unfold execPopcSw
  simp [h]

@[simp] theorem keepsOut_execSext {f : FSW} {s : State} (h : s.Inv) :
    InvOut (execSext f s) := by
  unfold execSext
  simp [h]

@[simp] theorem keepsOut_execZext {f : FSW} {s : State} (h : s.Inv) :
    InvOut (execZext f s) := by
  unfold execZext
  simp [h]

@[simp] theorem keepsOut_execSetc {f : FSW} {s : State} (h : s.Inv) :
    InvOut (execSetc f s) := by
  unfold execSetc
  simp [h]

@[simp] theorem keepsOut_execSel {f : FSW} {s : State} (h : s.Inv) :
    InvOut (execSel f s) := by
  unfold execSel
  simp [h]

@[simp] theorem keepsOut_execLea {f : FSW} {s : State} (h : s.Inv) :
    InvOut (execLea f s) := by
  unfold execLea
  simp [h]

@[simp] theorem keepsOut_execBfx {f : FSW} {s : State} (h : s.Inv) :
    InvOut (execBfx f s) := by
  unfold execBfx
  simp [h]

@[simp] theorem keepsOut_execBfi {f : FSW} {s : State} (h : s.Inv) :
    InvOut (execBfi f s) := by
  unfold execBfi
  simp [h]

@[simp] theorem keepsOut_execAddi {f : FSI} {s : State} (h : s.Inv) :
    InvOut (execAddi f s) := by
  unfold execAddi
  simp [h]

@[simp] theorem keepsOut_execAddiSw {f : FSW} {s : State} (h : s.Inv) :
    InvOut (execAddiSw f s) := by
  unfold execAddiSw
  simp [h]

@[simp] theorem keepsOut_execAndi {f : FSI} {s : State} (h : s.Inv) :
    InvOut (execAndi f s) := by
  unfold execAndi
  simp [h]

@[simp] theorem keepsOut_execAndiSw {f : FSW} {s : State} (h : s.Inv) :
    InvOut (execAndiSw f s) := by
  unfold execAndiSw
  simp [h]

@[simp] theorem keepsOut_execOri {f : FSI} {s : State} (h : s.Inv) :
    InvOut (execOri f s) := by
  unfold execOri
  simp [h]

@[simp] theorem keepsOut_execOriSw {f : FSW} {s : State} (h : s.Inv) :
    InvOut (execOriSw f s) := by
  unfold execOriSw
  simp [h]

@[simp] theorem keepsOut_execXori {f : FSI} {s : State} (h : s.Inv) :
    InvOut (execXori f s) := by
  unfold execXori
  simp [h]

@[simp] theorem keepsOut_execXoriSw {f : FSW} {s : State} (h : s.Inv) :
    InvOut (execXoriSw f s) := by
  unfold execXoriSw
  simp [h]

@[simp] theorem keepsOut_execMovi {f : FSI} {s : State} (h : s.Inv) :
    InvOut (execMovi f s) := by
  unfold execMovi
  simp [h]

@[simp] theorem keepsOut_execMoviSw {f : FSW} {s : State} (h : s.Inv) :
    InvOut (execMoviSw f s) := by
  unfold execMoviSw
  simp [h]

@[simp] theorem keepsOut_execMoviX3 {f : FX3} {s : State} (h : s.Inv) :
    InvOut (execMoviX3 f s) := by
  unfold execMoviX3
  simp [h]

@[simp] theorem keepsOut_exec {i : Instr} {s : State} (h : s.Inv) :
    InvOut (exec i s) := by
  unfold exec
  split <;> simp [h]

end Sys2Proof.Proofs

/-! Canonical form of every step: the candidates, the running task and the step itself (O30), and the reset state. -/

namespace Sys2Proof.Proofs

open Sys2Proof.Machine Sys2Proof.Laws

/-- Each item of work in the list keeps memory and tags canonical, whatever the state in which it is taken. -/
def KeepsAll (l : List Work) : Prop := ∀ w ∈ l, ∀ s : State, s.Inv → InvOut (w s)

section Lists
variable {α : Type} {l m : List Work} {w : Work}

@[simp] theorem keepsAll_nil : KeepsAll [] := fun _ h => nomatch h

@[simp] theorem keepsAll_cons : KeepsAll (w :: l) ↔ (∀ s : State, s.Inv → InvOut (w s)) ∧ KeepsAll l :=
  List.forall_mem_cons

@[simp] theorem keepsAll_append : KeepsAll (l ++ m) ↔ KeepsAll l ∧ KeepsAll m := List.forall_mem_append

@[simp] theorem keepsAll_ite {c : Prop} [Decidable c] : KeepsAll (if c then l else m) ↔
    (c → KeepsAll l) ∧ (¬ c → KeepsAll m) := by
  split <;> simp [*]

theorem keepsAll_map (f : α → Work) (as : List α) (hf : ∀ a, ∀ s : State, s.Inv → InvOut (f a s)) :
    KeepsAll (as.map f) := List.forall_mem_map.mpr fun a _ => hf a

theorem keepsAll_filterMap (f : α → Option Work) (as : List α)
    (hf : ∀ a w, f a = some w → ∀ s : State, s.Inv → InvOut (w s)) : KeepsAll (as.filterMap f) := by
  intro w hw
  obtain ⟨a, _, ha⟩ := List.mem_filterMap.mp hw
  exact hf a w ha

theorem keepsAll_flatten {f : α → List Work} {as : List α} (hf : ∀ a, KeepsAll (f a)) :
    KeepsAll (as.map f).flatten := by
  intro w hw
  rw [← List.flatMap_def] at hw
  obtain ⟨a, _, ha⟩ := List.mem_flatMap.mp hw
  exact hf a w ha

theorem keepsAll_walkers {die : Nat} (hl : KeepsAll l) : KeepsAll (l.map (withWalker die)) :=
  List.forall_mem_map.mpr fun w hw s h => keepsOut_withWalker h (hl w hw s h)

/-- A step that may be taken or not, by a test. -/
theorem keeps_ofIf {c : Prop} [Decidable c] {v w : Work} (hv : ∀ s : State, s.Inv → InvOut (v s))
    (h : (if c then some v else none) = some w) (s : State) (hs : s.Inv) : InvOut (w s) := by
  split at h
  · exact Option.some.inj h ▸ hv s hs
  · exact nomatch h

end Lists

theorem keepsAll_loadWork (s : State) (n : Nat) (a : Access) : KeepsAll (loadWork s n a) := by
  unfold loadWork
  refine keepsAll_append.mpr ⟨?_, ?_⟩
  · exact keepsAll_ite.mpr ⟨fun _ => keepsAll_map _ _ fun _ _ h => keepsOut_execTlbWalkComplete h, fun _ => keepsAll_nil⟩
  split
  · simp +contextual
  · exact keepsAll_ite.mpr ⟨fun _ => by simp +contextual, fun _ => keepsAll_map _ _ fun _ _ h => keepsOut_execLoadPerform h⟩
  · exact keepsAll_filterMap _ _ fun _ _ => keeps_ofIf fun _ h => keepsOut_execLoadPerform h

theorem keepsAll_storeWork (s : State) (n : Nat) (a : Access) (p : Piece) (i : Nat) :
    KeepsAll (storeWork s n a p i) := by
  unfold storeWork
  split <;> simp +contextual

theorem keepsAll_storesWork (s : State) (n : Nat) (a : Access) : KeepsAll (storesWork s n a) := by
  unfold storesWork
  refine keepsAll_append.mpr ⟨?_, ?_⟩
  · exact keepsAll_ite.mpr ⟨fun _ => keepsAll_map _ _ fun _ _ h => keepsOut_execTlbWalkComplete h, fun _ => keepsAll_nil⟩
  split
  · simp +contextual
  · exact keepsAll_flatten fun p => keepsAll_storeWork _ _ _ _ _

theorem keepsAll_cmdWork (n : Nat) (c : Cmd) : KeepsAll (cmdWork n c) := by
  unfold cmdWork
  refine keepsAll_walkers ?_
  split
  · simp +contextual
  · split <;> simp +contextual

theorem keepsAll_coreWork (s : State) (n : Nat) (c : Core) : KeepsAll (coreWork s n c) := by
  unfold coreWork
  simp only [keepsAll_append, keepsAll_ite]
  refine ⟨⟨⟨⟨⟨⟨⟨?_, ?_⟩, ?_⟩, ?_⟩, ?_⟩, ?_⟩, ?_⟩, ?_⟩
  · simp +contextual
  · exact keepsAll_map _ _ fun _ _ h => keepsOut_execResultArrival h
  · exact keepsAll_flatten fun a => keepsAll_loadWork s n a
  · exact keepsAll_flatten fun a => keepsAll_storesWork s n a
  · exact keepsAll_flatten fun d => keepsAll_cmdWork n d
  · simp +contextual
  · simp +contextual
  · simp +contextual

theorem keepsAll_vreqWork (id : Nat) (q : VReq) : KeepsAll (vreqWork id q) := by
  unfold vreqWork
  refine keepsAll_ite.mpr ⟨fun _ => keepsAll_nil, fun _ => ?_⟩
  split
  · simp +contextual
  · refine keepsAll_filterMap _ _ fun k w hw => ?_
    split at hw
    · exact nomatch hw
    · exact Option.some.inj hw ▸ fun s h => keepsOut_execVcRead h
  · exact keepsAll_nil

theorem keepsAll_qpWork (cl n : Nat) (q : Qp) : KeepsAll (qpWork cl n q) := by
  unfold qpWork
  simp +contextual

theorem keepsAll_ctxWork (n : Nat) (c : Ctx) : KeepsAll (ctxWork n c) := by
  unfold ctxWork
  simp only [keepsAll_append]
  refine ⟨⟨?_, ?_⟩, ?_⟩
  · simp +contextual
  · exact keepsAll_filterMap _ _ fun _ _ => keeps_ofIf fun _ h => keepsOut_execTeamPlacement h
  · exact keepsAll_filterMap _ _ fun _ _ => keeps_ofIf fun _ h => keepsOut_withWalker h (keepsOut_execLandingApply h)

theorem keepsAll_teamWork (uid : Nat) (t : Team) : KeepsAll (teamWork uid t) := by
  unfold teamWork
  simp only [keepsAll_append]
  refine ⟨⟨?_, ?_⟩, ?_⟩
  · simp +contextual
  · split
    · split <;> simp +contextual
    · exact keepsAll_nil
  · exact keepsAll_filterMap _ _ fun _ _ => keeps_ofIf fun _ h => keepsOut_execWaitbDeadline h

theorem keepsAll_dieWork (s : State) (n : Nat) (d : Die) : KeepsAll (dieWork s n d) := by
  unfold dieWork
  refine keepsAll_ite.mpr ⟨fun _ => keepsAll_nil, fun _ => ?_⟩
  simp only [keepsAll_append]
  refine ⟨⟨⟨⟨?_, ?_⟩, ?_⟩, ?_⟩, ?_⟩
  · simp +contextual
  · refine keepsAll_filterMap _ _ fun f w hw => ?_
    split at hw
    · exact nomatch hw
    · exact Option.some.inj hw ▸ fun s h => keepsOut_execSpinDemotion h
  · split <;> simp +contextual
  · split
    · exact keepsAll_cons.mpr ⟨fun _ h => keepsOut_ringStep h, keepsAll_nil⟩
    · exact keepsAll_nil
  · exact keepsAll_filterMap _ _ fun _ _ => keeps_ofIf fun _ h => keepsOut_execScrub h

theorem keepsAll_packageWork (s : State) : KeepsAll (packageWork s) := by
  unfold packageWork
  simp only [keepsAll_append]
  refine ⟨⟨⟨⟨⟨?_, ?_⟩, ?_⟩, ?_⟩, ?_⟩, ?_⟩
  · exact keepsAll_map _ _ fun _ _ h => keepsOut_execFabricMessageSend h
  · exact keepsAll_map _ _ fun _ _ h => keepsOut_withWalker h (keepsOut_execFabricMessageArrival h)
  · exact keepsAll_map _ _ fun _ _ h => keepsOut_execMigrationLanding h
  · exact keepsAll_map _ _ fun _ _ h => keepsOut_execScrubFrameZero h
  · exact keepsAll_flatten fun m => keepsAll_filterMap _ _ fun _ _ => keeps_ofIf fun _ h => keepsOut_execDieLoss h
  · simp +contextual

/-- Whatever may be taken next keeps memory and tags canonical. -/
theorem keepsAll_candidates (s : State) : KeepsAll s.candidates := by
  unfold State.candidates
  simp only [keepsAll_append]
  refine ⟨⟨⟨⟨⟨⟨⟨?_, ?_⟩, ?_⟩, ?_⟩, ?_⟩, ?_⟩, ?_⟩, keepsAll_packageWork s⟩
  · exact keepsAll_flatten fun c => keepsAll_coreWork s _ _
  · exact keepsAll_map _ _ fun r _ h => keepsOut_reqWork h
  · exact keepsAll_flatten fun v => keepsAll_vreqWork _ _
  · exact keepsAll_flatten fun c => keepsAll_flatten fun q => keepsAll_qpWork _ _ _
  · exact keepsAll_flatten fun c => keepsAll_ctxWork _ _
  · exact keepsAll_flatten fun t => keepsAll_teamWork _ _
  · exact keepsAll_flatten fun d => keepsAll_dieWork s _ _

theorem keepsOut_chosen {s : State} {w : Work} (hw : s.chosen = some w) (h : s.Inv) : InvOut (w s) :=
  keepsAll_candidates s w (List.mem_of_getElem? hw) s h

theorem keepsOut_ticked {s : State}
    {o : Host.Outcome State Fault Refusal} (ho : InvOut o) : InvOut (Machine.ticked s o) := by
  cases o with
  | next t => exact keepsOut_next.mpr (keeps_tick (keeps_syncQueues (keeps_followSpin (ho t rfl))))
  | fault f => exact keepsOut_fault f
  | refused r => exact keepsOut_refused r

theorem keepsOut_runTask {s : State} {e : Env} (h : s.Inv) : InvOut (runTask s e) := by
  unfold runTask
  refine keepsOut_if (keepsOut_next.mpr (keeps_holdTask h)) ?_
  split
  · exact keepsOut_exec (keeps_fetchFill h)
  · exact keepsOut_next.mpr (keeps_raise (keeps_fetchFill h))
  · exact keepsOut_refused _

theorem keeps_agenda {s : State} {l : List Instr} (h : s.Inv) : State.Inv { s with agenda := l } := h

theorem keepsOut_step {s : State} (h : s.Inv) : InvOut (step s) := by
  unfold step
  split
  · exact keepsOut_if (keepsOut_refused _) (keepsOut_ticked (keepsOut_exec (keeps_agenda h)))
  split
  · exact keepsOut_ticked (keepsOut_runTask h)
  split
  · next w hw => exact keepsOut_ticked (keepsOut_chosen hw h)
  · exact keepsOut_ticked (keepsOut_next.mpr h)

/-- Settles O30: every operation of the model changes memory and tags only through writes and through the removal of
entries, both of which leave them in canonical form. -/
theorem stepKeepsInv : Obligations.stepKeepsInv := fun _ t hs ht => keepsOut_step hs t ht

/-- Settles O28: the memory and the tags of the reset state are empty. -/
theorem resetInv : Obligations.resetInv := ⟨by decide, by decide⟩

/-- Settles O29: the reset state lists no die, no core and no port, so each reads as its reset value. -/
theorem resetState : Obligations.resetState := by
  unfold Obligations.resetState
  refine ⟨fun d => ?_, rfl, rfl, fun c => ⟨rfl, ?_, fun i => rfl⟩, rfl, rfl, fun p => rfl⟩
  · exact ⟨rfl, rfl, rfl, rfl, rfl, rfl, rfl, rfl, rfl, rfl, rfl, rfl, rfl⟩
  · have hcore : State.reset.core c = coreReset := rfl
    rw [hcore]
    decide

set_option maxRecDepth 4000 in
/-- Settles O32: by the decoder's tables. -/
theorem decodeWords : Obligations.decodeWords := by
  unfold Obligations.decodeWords
  decide
end Sys2Proof.Proofs

/-! Engine commands accepted with registers of their task left empty, or with more in them than their operands (R39,
R140): the fabric's commands (R270 to R273) and the matrix engine's (R227 to R243). -/

namespace Sys2Proof.Proofs

open Sys2Proof.Machine Sys2Proof.Laws

/-- The command of a specification: `plainCommand` with what its instruction adds. -/
def specCommand (b : State) (e : Env) (i : Instr) (sp : CmdSpec) (deps : List Dep) : Cmd :=
  sp.fix (plainCommand b e i sp.f sp.q sp.x deps)

/-- The state in which that command stands in its queue and its task has moved on. -/
def specState (b : State) (e : Env) (i : Instr) (n : Nat) (sp : CmdSpec) (deps : List Dep) : State :=
  let t := commandIn b e (specCommand b e i sp deps) sp.sb
  t.commit e ((sp.dst (e.task.produce t sp.f [.cmd b.nextId])).advance n)

/-- What a specification adds to a command leaves its name, its core, its context and its wait field. -/
def Tame (sp : CmdSpec) : Prop := ∀ c, (sp.fix c).id = c.id ∧ (sp.fix c).core = c.core ∧
  (sp.fix c).ctx = c.ctx ∧ (sp.fix c).wait = c.wait

/-- The registers that it leaves empty have nothing to do with tokens and the PC. -/
def Empties (sp : CmdSpec) (k : Task) : Prop := ∀ l,
  sp.dst { k with tok := l } = { sp.dst k with tok := l } ∧ (sp.dst k).pc = k.pc

theorem cmdAct_spec {b : State} {e : Env} {i : Instr} {n : Nat} {sp : CmdSpec} {after : Bool} {deps : List Dep}
    (htame : Tame sp) (hheld : b.cmdHeld e sp.q after false sp.sb = false)
    (htok : e.task.consume (FE2.cts sp.f) = some deps) :
    cmdAct e n i sp.f sp.q sp.x after none false sp.sb sp.dst sp.fix b = .done (specState b e i n sp deps) := by
  rw [cmdAct, hheld, if_neg Bool.false_ne_true, htok]
  have hid : (specCommand b e i sp deps).id = b.nextId := (htame _).1
  simp only [specState, commandIn, hid]
  simp only [specCommand, plainCommand, newCmd_fresh, depOver_fresh, fresh_name]

/-- An instruction that leads to that state is accepted as its specification says. -/
theorem accepts_of_specState {i : Instr} {s b : State} {e : Env} {n : Nat} {m : Team} {sp : CmdSpec}
    (hteam : tabFind b.teams e.uid = some m) (htame : Tame sp) (hdst : Empties sp e.task) (hown : ∀ c, sp.own c = none)
    (hexec : ∀ deps, e.task.consume (FE2.cts sp.f) = some deps → exec i s = .next (specState b e i n sp deps)) :
    Accepts i s e n b m sp := by
  intro deps htok
  let c := specCommand b e i sp deps
  let a := commandIn b e c sp.sb
  let k := (sp.dst (e.task.produce a sp.f [.cmd b.nextId])).advance n
  obtain ⟨hid, hcore, hctx, hwait⟩ := htame (plainCommand b e i sp.f sp.q sp.x deps)
  have hid : c.id = b.nextId := hid
  have hcore : c.core = e.core := hcore
  have hctx : c.ctx = e.team.ctx := hctx
  have ha : a = _ := commandIn_eq b sp.sb
  have hteams : a.teams = b.teams := by rw [ha]
  have hteam' : tabFind a.teams e.uid = some m := hteams ▸ hteam
  have hk : k = { sp.dst e.task with
      tok := (e.task.produce a sp.f [.cmd b.nextId]).tok, pc := e.task.pc + w64 n } := by
    have hkept := hdst (e.task.produce a sp.f [.cmd b.nextId]).tok
    simp only [k, Task.advance]
    rw [produce_eq, hkept.1, hkept.2]
  have ht : specState b e i n sp deps = { a with teams := (specState b e i n sp deps).teams, focus := none } := by
    simp only [specState, State.commit, setTask_eq hteam', a, c]
    rfl
  have hcores : (specState b e i n sp deps).cores = a.cores := by rw [ht]
  have hreqs : (specState b e i n sp deps).reqs = a.reqs := by rw [ht]
  have hnext : (specState b e i n sp deps).nextId = a.nextId := by rw [ht]
  refine ⟨_, { k with held := false, issued := a.ticks }, c, hexec deps htok, rfl, ?_, ?_, ?_, ⟨?_, ?_⟩, ?_, ?_⟩
  · rw [hk]
  · intro j hj
    rw [hk]
    exact tok_produce_other hj
  · intro hpv
    rw [hk]
    exact tok_produce_self e.task a [.cmd b.nextId] hpv
  · rw [hcores, hreqs, hnext]
    exact ht.trans (by rw [ha, hid])
  · intro u
    simp only [specState, State.commit, setTask_eq hteam', setTeam_teams, tabFind_tabPut, hteams, a, c, k]
  · intro p
    rw [core_congr hcores, core_commandIn b sp.sb hcore]
    rfl
  · have hw : c.wait = .waiting ↔ sp.f.wv = true := by
      rw [show c.wait = if sp.f.wv then .waiting else .none from hwait]
      cases sp.f.wv <;> simp
    rw [hown, hreqs, reqs_commandIn]
    simp only [hw, hctx, hcore]

theorem tame_plainCmd (f : FE2) (q : Queue) (x : W64 × W64 × W64) : Tame (plainCmd f q x) :=
  fun _ => ⟨rfl, rfl, rfl, rfl⟩

/-! ## The fabric's commands (R270 to R273) -/

/-- A command whose checks are all met issues as one without checks. -/
theorem cmdAct_checked {e : Env} {n : Nat} {i : Instr} {f : FE2} {q : Queue} {x : W64 × W64 × W64} {s : State}
    {l : List (Bool × Nat × W64)} (hl : ∀ y ∈ l, y.1 = false) :
    cmdAct e n i f q x true (firstBad l) false [] (fun t => t) (fun c => c) s =
      cmdAct e n i f q x true none false [] (fun t => t) (fun c => c) s := by
  rw [firstBad_eq_none.mpr hl]

/-- The body of FQPOST and FMBOX. -/
def postAct (i : Instr) (f : FE3) (q : Queue) (master : Bool) (e : Env) (s : State) : Act :=
  let (a, b, c) := FE3.vals f e.task
  cmdAct e 12 i f.e q (a, b, c) true (firstBad [
    (master && (s.cluster (clusterOf e.core)).master != some e.core, cAccessDenied, 0),
    (s.formBad e a 64, cRange, a), (c != 0 && s.formBad e c 4, cRange, c),
    (decide (a.toNat % 64 ≠ 0), cAlign, a), (decide (c.toNat % 4 ≠ 0), cAlign, c),
    (decide (256 ≤ b.toNat), cShape, 0)]) false [] (fun t => t) (fun c => c) s

theorem exec_fqpost (f : FE3) (s : State) : exec (.fqpost f) s =
    issue f.e.st.toNat 12 [.x f.e.xa f.e.fea, .x f.xb f.feb, .x f.xc f.fec] [] (postAct (.fqpost f) f .fabric true) s :=
  rfl

theorem exec_fmbox (f : FE3) (s : State) : exec (.fmbox f) s =
    issue f.e.st.toNat 12 [.x f.e.xa f.e.fea, .x f.xb f.feb, .x f.xc f.fec] [] (postAct (.fmbox f) f .mailbox false) s :=
  rfl

/-- The body of FPUT. -/
def putAct (f : FE3) (e : Env) (s : State) : Act :=
  let (a, b, c) := FE3.vals f e.task
  cmdAct e 12 (.fput f) f.e .fput (a, b, c) true (firstBad [(s.formBad e a 32, cRange, a),
    (s.formBad e b (c.toNat % 4096 + 1), cRange, b), (decide (a.toNat % 32 ≠ 0), cAlign, a),
    (decide (c.toNat / 4096 % 16 ≠ 0), cShape, 0)]) false [] (fun t => t) (fun c => c) s

theorem exec_fput (f : FE3) (s : State) : exec (.fput f) s =
    issue f.e.st.toNat 12 [.x f.e.xa f.e.fea, .x f.xb f.feb, .x f.xc f.fec] [] (putAct f) s := rfl

/-- The body of FFLUSH. -/
def flushAct (f : FE3) (e : Env) (s : State) : Act :=
  let (a, b, _) := FE3.vals f e.task
  cmdAct e 12 (.fflush f) f.e .sync (a, 0, b) true (firstBad [(b != 0 && s.formBad e b 4, cRange, b),
    (decide (b.toNat % 4 ≠ 0), cAlign, b), (!flushTarget a.toNat, cShape, 0)]) false [] (fun t => t) (fun c => c) s

theorem exec_fflush (f : FE3) (s : State) : exec (.fflush f) s =
    issue f.e.st.toNat 12 [.x f.e.xa f.e.fea, .x f.xb f.feb] [] (flushAct f) s := rfl

/-- The body of LAUNCH. -/
def launchAct (f : FE3) (e : Env) (s : State) : Act :=
  let (a, b, c) := FE3.vals f e.task
  let pkg := b.toNat / 2 ^ 16 % 256
  cmdAct e 12 (.launch f) f.e .sync (a, b, c) true (firstBad [(s.formBad e a 256, cRange, a),
    (c != 0 && s.formBad e c 4, cRange, c), (decide (a.toNat % 256 ≠ 0), cAlign, a),
    (decide (c.toNat % 4 ≠ 0), cAlign, c),
    (b &&& ~~~(0xFF0FFF : W64) != 0 || decide (144 ≤ pkg ∧ pkg < 255), cShape, 0)]) false [] (fun t => t) (fun c => c) s

theorem exec_launch (f : FE3) (s : State) : exec (.launch f) s =
    issue f.e.st.toNat 12 [.x f.e.xa f.e.fea, .x f.xb f.feb, .x f.xc f.fec] [] (launchAct f) s := rfl

theorem flushTarget_of {v : Nat} (h : v < 144 ∨ v = 255 ∨ 1024 ≤ v ∧ v < 2048) : flushTarget v = true := by
  unfold flushTarget
  split_ifs with hbit
  · exact decide_eq_true (by omega)
  · simp only [Bool.and_eq_true, decide_eq_true_eq, Bool.or_eq_true, beq_iff_eq]
    omega

/-- The status address of a command is 0 or a word in its form (R272). -/
theorem statusFits {c : W64} {b : Bool} (h : c ≠ 0 → b = false) :
    (c != 0 && b) = false :=
  Bool.and_eq_false_imp.mpr fun hne => h (by simpa using hne)

/-- Settles O23: each instruction's checks are those that its clause names; FQPOST off the master meets its first. -/
theorem fabricCommands : Obligations.fabricCommands := by
  unfold Obligations.fabricCommands
  intro s e f a b c fits status takes boss pkg
  refine ⟨fun h => ⟨fun ha haa hst hb => ⟨fun hboss hopen => ?_, fun hopen => ?_⟩, fun deps hopen htok hboss => ?_,
    fun ha hb haa hc hopen => ?_, fun ha haa hst hb hpkg hopen => ?_⟩, fun h hb hba ht hopen => ?_⟩
  · refine accepts_of_cmdAct (sb := []) (exec_fqpost f s) h ?_ hopen
    refine cmdAct_checked ?_
    simp only [List.forall_mem_cons]
    exact ⟨by simpa using hboss, ha, statusFits hst.1, by simpa using haa, by simpa using hst.2, by simpa using hb,
      by simp⟩
  · refine accepts_of_cmdAct (sb := []) (exec_fmbox f s) h ?_ hopen
    refine cmdAct_checked ?_
    simp only [List.forall_mem_cons]
    exact ⟨rfl, ha, statusFits hst.1, by simpa using haa, by simpa using hst.2, by simpa using hb, by simp⟩
  · refine faults_of_body (exec_fqpost f s) h ?_
    have hheld : s.cmdHeld e .fabric true false [] = false := cmdHeld_of_cmdOpen hopen
    have hoff : (true && (s.cluster (clusterOf e.core)).master != some e.core) = true := by simpa using hboss
    simp [postAct, cmdAct, hheld, htok, firstBad, hoff]
  · refine accepts_of_cmdAct (sb := []) (exec_fput f s) h ?_ hopen
    refine cmdAct_checked ?_
    simp only [List.forall_mem_cons]
    exact ⟨ha, hb, by simpa using haa, by simpa using hc, by simp⟩
  · refine accepts_of_cmdAct (sb := []) (exec_launch f s) h ?_ hopen
    refine cmdAct_checked ?_
    simp only [List.forall_mem_cons]
    refine ⟨ha, statusFits hst.1, by simpa using haa, by simpa using hst.2, ?_, by simp⟩
    refine Bool.or_eq_false_iff.mpr ⟨by simpa using hb, decide_eq_false ?_⟩
    have hpkg : (e.task.getX f.xb).toNat / 2 ^ 16 % 256 < 144 ∨ (e.task.getX f.xb).toNat / 2 ^ 16 % 256 = 255 := hpkg
    omega
  · refine accepts_of_cmdAct (sb := []) (exec_fflush f s) h ?_ hopen
    refine cmdAct_checked ?_
    simp only [List.forall_mem_cons]
    exact ⟨statusFits hb, by simpa using hba, by simpa using flushTarget_of ht, by simp⟩

/-! ## The matrix engine's commands (R227 to R243) -/

section Matrix
variable {s : State} {e : Env} {i : Instr} {n st : Nat} {srcs : List SrcOp} {dsts : List DstOp}
  {body : Env → State → Act} {sp : CmdSpec}

/-- A command of the matrix engine that names no tile. -/
theorem accepts_untiled (hexec : exec i s = issue st n srcs dsts body s) (h : CanIssue s e st srcs dsts)
    (hq : sp.q = .matrix) (hsb : sp.sb = []) (hown : ∀ c, sp.own c = none) (htame : Tame sp)
    (hdst : Empties sp e.task) (hbody : body e s = matrixAct e n i sp.f sp.x none none sp.dst sp.fix s)
    (hopen : CmdOpen s e .matrix true 0) : Accepts i s e n s e.team sp := by
  refine accepts_of_specState (issuer_team h.1).1 htame hdst hown fun deps htok => ?_
  have hheld : s.cmdHeld e sp.q true false sp.sb = false := by
    rw [hq, hsb]
    exact cmdHeld_of_open hopen
  have hact := cmdAct_spec (i := i) (n := n) htame hheld htok
  rw [hq, hsb] at hact
  rw [hexec, issue_ready h, hbody, matrixAct, hact]

/-- The same of a specification with the tile `p`. -/
def withTile (sp : CmdSpec) (p : Nat) : CmdSpec := { sp with fix := fun c => { sp.fix c with tile := some p } }

/-- A command of the matrix engine that uses a tile: it issues in the state in which the team has marked it. -/
theorem accepts_tiled {b : State} {m : Team} {tile p : Nat} (hexec : exec i s = issue st n srcs dsts body s)
    (h : CanIssue s e st srcs dsts) (hq : sp.q = .matrix) (hsb : sp.sb = []) (hown : ∀ c, sp.own c = none)
    (htame : Tame sp) (hdst : Empties sp e.task)
    (htile : ∀ c p, sp.fix { c with tile := some p } = { sp.fix c with tile := some p })
    (hbody : body e s = matrixAct e n i sp.f sp.x (some tile) none sp.dst sp.fix s)
    (huse : s.useTile e tile = .ok (p, b)) (hteam : tabFind b.teams e.uid = some m) (hopen : CmdOpen b e .matrix true 0) :
    Accepts i s e n b m (withTile sp p) := by
  refine accepts_of_specState hteam htame hdst hown fun deps htok => ?_
  have hb : b.cmdHeld e .matrix true false [] = false := cmdHeld_of_open hopen
  have hs : s.cmdHeld e .matrix true false [] = false := (sameHolds_useTile huse).cmdHeld e ▸ hb
  have hact := cmdAct_spec (i := i) (n := n) (sp := withTile sp p) (after := true) htame
    (by rw [show (withTile sp p).q = .matrix from hq, show (withTile sp p).sb = [] from hsb]; exact hb) htok
  rw [show (withTile sp p).q = .matrix from hq, show (withTile sp p).sb = [] from hsb] at hact
  have hmake : (fun c : Cmd => sp.fix { c with tile := some p }) = (withTile sp p).fix := funext fun c => htile c p
  have htok' : e.task.consume (FE2.cts sp.f) = some deps := htok
  rw [hexec, issue_ready h, hbody]
  simp only [matrixAct, hs, Bool.false_eq_true, if_false, htok', huse, hmake]
  rw [show cmdAct e n i sp.f .matrix sp.x true none false [] sp.dst (withTile sp p).fix b = _ from hact]

end Matrix

theorem empties_id {f : FE2} {q : Queue} {x : W64 × W64 × W64} (k : Task) : Empties (plainCmd f q x) k :=
  fun _ => ⟨rfl, rfl⟩

theorem empties_emptyX (r : BitVec 6) (sp : CmdSpec) (k : Task) : Empties { sp with dst := fun k => k.emptyX r } k := by
  intro l
  simp only [Task.emptyX]
  split_ifs <;> exact ⟨rfl, rfl⟩

theorem not_rowsBad {xc reserved : W64} (hrows : xc.toNat % 128 + (xc.toNat / 256 % 128 + 1) ≤ 128)
    (hres : xc &&& reserved = 0) : ¬ rowsBad xc reserved = true := by
  simpa [rowsBad, hres] using hrows

section Tiled
variable (f : FE3) (s : State)

theorem exec_mzero (f : FE2) : exec (.mzero f) s = issue f.st.toNat 8 [] [] (fun e s =>
    matrixAct e 8 (.mzero f) f (0, 0, 0) (some (f.xa.toNat % 8)) none (fun t => t) (fun c => c) s) s := rfl

theorem exec_mqry : exec (.mqry f) s = issue f.e.st.toNat 12 [] [.x f.e.xa] (fun e s =>
    matrixAct e 12 (.mqry f) f.e (0, 0, 0) none none (fun t => t.emptyX f.e.xa)
      (fun c => { c with regs := if f.e.xa = 0 then [] else [f.e.xa.toNat] }) s) s := rfl

/-- The rows of a group of vector registers, as MMAV and MMOVV read them at issue (R79). -/
def groupOf (k : Task) (v g : Nat) : List Row :=
  ((List.range g).map fun i => (List.range 16).map fun r => k.vrow (v + i) r).flatten

/-- The body of MMAV. -/
def mmavAct (e : Env) (s : State) : Act :=
  let xc := e.task.getX f.xc
  let v := f.xb.toNat % 32
  let g := mmavRegs f xc
  if e.task.vIsEmpty v (min g (32 - v)) then (if f.feb then Act.raise cFeTrap 0 else .hold)
  else matrixAct e 12 (.mmav f) f.e (0, 0, xc) (some (f.imm.toNat % 8))
    (shapeIf (rowsBad xc mmaReserved || decide (32 < v + g))) (fun t => t)
    (fun c => { c with rows := groupOf e.task v (min g (32 - v)) }) s

theorem exec_mmav : exec (.mmav f) s = issue f.e.st.toNat 12 [FE3.srcC f] [] (mmavAct f) s := rfl

theorem exec_mmova : exec (.mmova f) s =
    issue f.e.st.toNat 12 [] [.v (f.e.xa.toNat % 32) (f.imm.toNat / 1024 % 8)] (fun e s =>
      matrixAct e 12 (.mmova f) f.e (0, 0, 0) (some (f.imm.toNat % 8)) none
        (fun t => t.emptyV (f.e.xa.toNat % 32) (f.imm.toNat / 1024 % 8))
        (fun c => { c with regs := e.task.physList (f.e.xa.toNat % 32) (f.imm.toNat / 1024 % 8) }) s) s := rfl

theorem exec_mmovv : exec (.mmovv f) s =
    issue f.e.st.toNat 12 [.v (f.e.xa.toNat % 32) (f.imm.toNat / 1024 % 8) f.e.fea] [] (fun e s =>
      matrixAct e 12 (.mmovv f) f.e (0, 0, 0) (some (f.imm.toNat % 8)) none (fun t => t)
        (fun c => { c with rows := groupOf e.task (f.e.xa.toNat % 32) (f.imm.toNat / 1024 % 8) }) s) s := rfl

variable {f s} {e : Env} {i : Instr} {bad : Env → State → Option (Nat × W64)}

/-- An instruction with three sources and a tile, its checks met. -/
theorem accepts_tileIssue {p : Nat} {b : State} {m : Team} (hexec : exec i s = tileIssue f s i bad)
    (h : CanIssue s e f.e.st.toNat [.x f.e.xa f.e.fea, .x f.xb f.feb, .x f.xc f.fec] []) (hbad : bad e s = none)
    (huse : s.useTile e (f.imm.toNat % 8) = .ok (p, b)) (hteam : tabFind b.teams e.uid = some m)
    (hopen : CmdOpen b e .matrix true 0) :
    Accepts i s e 12 b m (withTile (plainCmd f.e .matrix (FE3.vals f e.task)) p) :=
  accepts_tiled hexec h rfl rfl (fun _ => rfl) (tame_plainCmd _ _ _) (empties_id _) (fun _ _ => rfl) (by rw [hbad]; rfl)
    huse hteam hopen

end Tiled

/-- Settles O20: of the instructions that name no tile and of those that use one, each with its operands in order. -/
theorem matrixCommands : Obligations.matrixCommands := by
  unfold Obligations.matrixCommands
  intro s e x rowsOf free uses
  refine ⟨fun f h p b m huse hteam hopen => ?_, fun f => ?_⟩
  · exact accepts_tiled (exec_mzero s f) h rfl rfl (fun _ => rfl) (tame_plainCmd _ _ _) (empties_id _) (fun _ _ => rfl)
      rfl huse hteam hopen
  intro st tile a b c sa sb sc whole rows v g vb need
  refine ⟨fun h ha hopen => ?_, fun h hb hopen => ?_, fun h hopen => ?_, fun h => ⟨fun hr hres p t m huse hteam hopen => ?_,
    fun hr hres p t m huse hteam hopen => ?_, fun hform hfit p t m huse hteam hopen => ?_,
    fun hr hb p t m huse hteam hopen => ?_⟩, fun h hr hres hfit hempty p t m huse hteam hopen => ?_,
    fun h p t m huse hteam hopen => ?_, fun h p t m huse hteam hopen => ?_⟩
  · refine accepts_untiled (exec_mrec f s) h rfl rfl (fun _ => rfl) (tame_plainCmd _ _ _) (empties_id _) ?_ hopen
    have ha : (e.task.getX f.e.xa).toNat % 64 = 0 := ha
    rw [if_neg (not_not.mpr ha)]
    rfl
  · refine accepts_untiled (exec_mldb f s) h rfl rfl (fun _ => rfl) (tame_plainCmd _ _ _) (empties_id _) ?_ hopen
    have hb : (e.task.getX f.xb).toNat % 32 = 0 := hb
    rw [shapeIf, if_neg (by simp [hb])]
    rfl
  · exact accepts_untiled (exec_mqry f s) h rfl rfl (fun _ => rfl) (fun _ => ⟨rfl, rfl, rfl, rfl⟩)
      (empties_emptyX f.e.xa (plainCmd f.e .matrix (0, 0, 0)) e.task) rfl hopen
  · exact accepts_tileIssue (exec_mma f s) h (if_neg (not_rowsBad hr hres)) huse hteam hopen
  · exact accepts_tileIssue (exec_mrank f s) h (if_neg (not_rowsBad hr hres)) huse hteam hopen
  · refine accepts_tileIssue (exec_mmag f s) h (if_neg ?_) huse hteam hopen
    have hform : addrForm (e.task.getX f.e.xa).toNat = 1 := hform
    have hfit : s.formBad e (e.task.getX f.e.xa) (16 + 16 * 4096) = false := hfit
    simp only [hform, hfit]
    decide
  · refine accepts_tileIssue (exec_mdrain f s) h (if_neg ?_) huse hteam hopen
    rw [Bool.or_eq_true, decide_eq_true_eq, decide_eq_true_eq]
    exact not_or.mpr ⟨Nat.not_lt.mpr hr, Nat.not_le.mpr hb⟩
  · have hmin : min (mmavRegs f (e.task.getX f.xc)) (32 - f.xb.toNat % 32) = need := by
      rw [show mmavRegs f (e.task.getX f.xc) = need from rfl]
      omega
    refine accepts_tiled (sp := { plainCmd f.e .matrix (0, 0, c) with fix := fun d => { d with rows := rowsOf vb need } })
      (exec_mmav f s) h rfl rfl (fun _ => rfl) (fun _ => ⟨rfl, rfl, rfl, rfl⟩) (fun _ => ⟨rfl, rfl⟩) (fun _ _ => rfl)
      ?_ huse hteam hopen
    have hbad : (rowsBad (e.task.getX f.xc) mmaReserved ||
        decide (32 < f.xb.toNat % 32 + mmavRegs f (e.task.getX f.xc))) = false :=
      Bool.or_eq_false_iff.mpr ⟨Bool.eq_false_iff.mpr (not_rowsBad hr hres), decide_eq_false (Nat.not_lt.mpr hfit)⟩
    have hempty : e.task.vIsEmpty (f.xb.toNat % 32) need = false := hempty
    simp only [mmavAct, hmin, hempty, hbad]
    rfl
  · refine accepts_tiled (exec_mmova f s) h rfl rfl (fun _ => rfl) (fun _ => ⟨rfl, rfl, rfl, rfl⟩)
      (fun _ => ⟨rfl, rfl⟩) (fun _ _ => rfl) rfl huse hteam hopen
  · exact accepts_tiled (exec_mmovv f s) h rfl rfl (fun _ => rfl) (fun _ => ⟨rfl, rfl, rfl, rfl⟩)
      (fun _ => ⟨rfl, rfl⟩) (fun _ _ => rfl) rfl huse hteam hopen

end Sys2Proof.Proofs

/-! WAITS where the pool lies over its context's descriptor (R33, R34, R262). -/

namespace Sys2Proof.Proofs

open Sys2Proof.Machine Sys2Proof.Laws

/-- WAITS of semaphore 0 with the mask in x4, without tokens. -/
def waitsForm : FE3 where
  e := { xa := 0, fea := false, st := 0, scope := 0, wv := false, sv := false, ord := 0, pt := 0, pv := false, ct0 := 0
         cv0 := false, ct1 := 0, cv1 := false, ct2 := 0, cv2 := false, wsem := 0, ssem := 0 }
  xb := 4; feb := false; xc := 0; fec := false; imm := 0

theorem canIssue_waits : CanIssue poolOverDescriptor spawningEnv waitsForm.e.st.toNat [.x waitsForm.xb waitsForm.feb] [] :=
  ⟨rfl, rfl, rfl, rfl, rfl⟩

/-- After it the first byte of the record, the lowest of its PC, still reads 0. -/
theorem waits_leaves_header_unwritten {t : State} (h : exec (.waits waitsForm) poolOverDescriptor = .next t) :
    t.readByte 0 32960 = 0 := by
  have hread : (match exec (.waits waitsForm) poolOverDescriptor with
      | .next t => t.readByte 0 32960
      | _ => 1) = 0 := by decide +kernel
  rw [h] at hread
  exact hread

/-- The state with the request of that WAITS on its way. -/
def requestedWait : State := { poolOverDescriptor with
  nextId := poolOverDescriptor.nextId + 2
  reqs := tabPut poolOverDescriptor.reqs (poolOverDescriptor.nextId + 1)
    (.semWait 0 0 (.task 1 poolOverDescriptor.nextId 0)) }

theorem poolPlaces_requestedWait : (requestedWait.endTask 1).poolPlaces 0 0 2 = [32960, 33024] := by decide +kernel

/-- Key 0 writes the record's first unit, in any state that differs in teams and cores alone. -/
theorem writable_requestedWait {b : State} {ts : Tab Team} {cs : Tab Core} {ms : List Image}
    (hb : b = { requestedWait with teams := ts, cores := cs, images := ms, focus := none }) : Writable b 0 32960 64 := by
  subst hb
  intro a _ _
  simp [State.refused, State.lockOf, State.installed, requestedWait, poolOverDescriptor, State.reset, tabGet, tabFind]

/-- Refutes O22: a WAITS of C0x000 whose record covers the context's descriptor leaves the record's header unwritten,
since the register values that it wrote before changed the key to a dead one. -/
theorem not_semaphoreCommands : ¬ Obligations.semaphoreCommands := by
  unfold Obligations.semaphoreCommands
  rintro ⟨hwaits, -⟩
  obtain ⟨hleaves, -⟩ := hwaits poolOverDescriptor spawningEnv waitsForm [] rfl
  obtain ⟨t, r, hexec, hended, -, ⟨-, hpc, -, -, -, hunits, -⟩, -⟩ :=
    hleaves canIssue_waits (by decide) poolRoom_overDescriptor
  have hended : Ended requestedWait t spawningEnv [r] [] := hended (by decide)
  obtain ⟨b, hb, -, -, -, hrecord⟩ := hended
  obtain ⟨⟨-, hrec⟩, hplaces, -⟩ := hrecord r rfl
  have hnamed : Named (spawningEnv.without [r] []) r := fun q hq _ => List.mem_singleton.mp hq
  obtain ⟨-, hheader, -⟩ := hrec hnamed
  have hfirst : r.places.head? = some 32960 := by
    rw [hplaces, show r.units = 2 from hunits]
    exact congrArg List.head? poolPlaces_requestedWait
  have hkey : requestedWait.keyOn spawningEnv.core spawningEnv.team.ctx = 0 := by decide +kernel
  rw [hkey] at hheader
  obtain ⟨link, hbytes⟩ := hheader 32960 hfirst hbm_firstUnit (writable_requestedWait hb) (reaches_firstUnit b)
  have hhead := congrArg List.head? hbytes
  rw [show gpaKey 32960 = 32960 from rfl, State.readBytes, waits_leaves_header_unwritten hexec] at hhead
  have hpc12 : r.pc = 12 := hpc
  simp [Rec.words, hpc12, leBytes] at hhead

end Sys2Proof.Proofs

/-! The instructions of system software (R312 to R328): what their bodies leave behind, and the privileged registers. -/

namespace Sys2Proof.Proofs

open Sys2Proof.Machine Sys2Proof.Laws

section Bodies
variable {i : Instr} {s b : State} {e : Env} {st n : Nat} {srcs : List SrcOp} {dsts : List DstOp}
  {body : Env → State → Act}

/-- An instruction that gives one result, in a state in which its task still issues. -/
theorem ends_of_body {d : BitVec 6} {v : W64} (hexec : exec i s = issue st n srcs dsts body s)
    (h : CanIssue s e st srcs dsts) (hbody : body e s = sysResult e n d v b) (hb : b.issuer = some e) :
    ∃ t k, exec i s = .next t ∧ OnlyTask b t e k ∧ Wrote e.task k d v n :=
  ⟨_, _, by rw [hexec, issue_ready h, hbody, sysResult], onlyTask_commit hb _, wrote_setX _ _ _ _ _ _⟩

/-- An instruction that moves its task on, in such a state. -/
theorem moves_of_body (hexec : exec i s = issue st n srcs dsts body s) (h : CanIssue s e st srcs dsts)
    (hbody : body e s = .done (b.commit e (e.task.advance n))) (hb : b.issuer = some e) :
    ∃ t k, exec i s = .next t ∧ Moved e.task k n ∧ OnlyTask b t e k :=
  ⟨_, { e.task.advance n with held := false, issued := b.ticks }, by rw [hexec, issue_ready h, hbody], rfl,
    onlyTask_commit hb _⟩

theorem holds_of_body (hexec : exec i s = issue st n srcs dsts body s) (h : CanIssue s e st srcs dsts)
    (hbody : body e s = .hold) : Holds i s e := by
  rw [Holds, hexec, issue_ready h, hbody]

end Bodies

/-! ## Privileged registers (R317 to R321) -/

theorem selectCore_of_here {e : Env} {v : W64} (h : v.toNat.testBit 31 = false) : selectCore e v = some e.core :=
  if_pos h

theorem selectCore_of_there {e : Env} {v : W64} (h : v.toNat.testBit 31 = true) (hlt : v.toNat < 2 ^ 32)
    (hres : v.toNat / 2 ^ 9 % 2 ^ 22 = 0) (hdie : v.toNat % 512 / 128 = e.die) :
    selectCore e v = some (v.toNat % 512) := by
  rw [selectCore, if_neg (by simp [h]), if_pos ⟨by omega, hres, hdie⟩]

theorem selectCore_of_neither {e : Env} {v : W64} (h : ¬ (v.toNat.testBit 31 = false ∨ v.toNat.testBit 31 = true ∧
    v.toNat < 2 ^ 32 ∧ v.toNat / 2 ^ 9 % 2 ^ 22 = 0 ∧ v.toNat % 512 / 128 = e.die)) : selectCore e v = none := by
  obtain ⟨hhere, hthere⟩ := not_or.mp h
  rw [selectCore, if_neg hhere, if_neg]
  rintro ⟨hlt, hrest⟩
  exact hthere ⟨by simpa using hhere, by omega, hrest⟩

theorem regNumber_of_inRow {imm : BitVec 22} {xc : W64} (h : imm.toNat % 4096 + xc.toNat = imm.toNat % 4096 ∨
    (16 ≤ imm.toNat % 4096 ∧ imm.toNat % 4096 + xc.toNat < 24)) :
    regNumber imm xc = some (imm.toNat % 4096 + xc.toNat) := if_pos h

theorem regNumber_of_not_inRow {imm : BitVec 22} {xc : W64} (h : ¬ (imm.toNat % 4096 + xc.toNat = imm.toNat % 4096 ∨
    (16 ≤ imm.toNat % 4096 ∧ imm.toNat % 4096 + xc.toNat < 24))) : regNumber imm xc = none := if_neg h

/-- The body of RDPR. -/
def rdprAct (f : FSW) (e : Env) (s : State) : Act :=
  match selectCore e (e.task.getX f.xb), regNumber f.imm (e.task.getX f.xc) with
  | some core, some n => .done (s.commit e ((e.task.setX f.xd (s.readPriv e core n)).advance 8))
  | _, _ => shapeAct

theorem exec_rdpr (f : FSW) (s : State) :
    exec (.rdpr f) s = issue f.st.toNat 8 [.x f.xb f.feb, .x f.xc f.fec] [.x f.xd] (rdprAct f) s := rfl

section Registers
variable {s : State} {e : Env} {f : FSW} {core n : Nat}

theorem rdpr_computes (h : CanIssue s e f.st.toNat [.x f.xb f.feb, .x f.xc f.fec] [.x f.xd])
    (hcore : selectCore e (e.task.getX f.xb) = some core) (hn : regNumber f.imm (e.task.getX f.xc) = some n) :
    Computes (.rdpr f) s e f.xd (s.readPriv e core n) 8 :=
  ends_of_body (exec_rdpr f s) h (by rw [rdprAct, hcore, hn]; rfl) h.1

theorem rdpr_faults (h : CanIssue s e f.st.toNat [.x f.xb f.feb, .x f.xc f.fec] [.x f.xd])
    (hnone : selectCore e (e.task.getX f.xb) = none ∨ regNumber f.imm (e.task.getX f.xc) = none) :
    Faults (.rdpr f) s e cShape 0 := by
  refine faults_of_body (exec_rdpr f s) h ?_
  unfold rdprAct
  rcases hnone with hc | hn
  · rw [hc]
    rfl
  · rw [hn]
    cases selectCore e (e.task.getX f.xb) <;> rfl

/-- The body of WRPR. -/
def wrprAct (f : FSW) (e : Env) (s : State) : Act :=
  match selectCore e (e.task.getX f.xb), regNumber f.imm (e.task.getX f.xc) with
  | some core, some n =>
    if 16 ≤ n ∧ !s.tileFree core (n - 16) then .hold
    else .done ((s.writePriv e core n (e.task.getX f.xa)).commit e (e.task.advance 8))
  | _, _ => shapeAct

theorem exec_wrpr (f : FSW) (s : State) :
    exec (.wrpr f) s = issue f.st.toNat 8 [.x f.xa f.fea, .x f.xb f.feb, .x f.xc f.fec] [] (wrprAct f) s := rfl

variable (h : CanIssue s e f.st.toNat [.x f.xa f.fea, .x f.xb f.feb, .x f.xc f.fec] [])
  (hcore : selectCore e (e.task.getX f.xb) = some core) (hn : regNumber f.imm (e.task.getX f.xc) = some n)
include h hcore hn

/-- A write that no tile holds. -/
theorem wrpr_sets {b : State} (hfree : 16 ≤ n → s.tileFree core (n - 16) = true)
    (hwrite : s.writePriv e core n (e.task.getX f.xa) = b) (hb : b.issuer = some e) :
    ∃ t k, exec (.wrpr f) s = .next t ∧ Moved e.task k 8 ∧ OnlyTask b t e k := by
  have hno : ¬ (16 ≤ n ∧ (!s.tileFree core (n - 16)) = true) := fun hc => by simp [hfree hc.1] at hc
  refine moves_of_body (exec_wrpr f s) h ?_ hb
  simp only [wrprAct, hcore, hn]
  rw [if_neg hno, hwrite]

theorem wrpr_holds (h16 : 16 ≤ n) (hbusy : s.tileFree core (n - 16) = false) : Holds (.wrpr f) s e := by
  refine holds_of_body (exec_wrpr f s) h ?_
  simp only [wrprAct, hcore, hn]
  rw [if_pos ⟨h16, by rw [hbusy]; rfl⟩]

end Registers

theorem fqSizeOk_iff (v : Nat) : fqSizeOk v = true ↔ ∃ i, i < 9 ∧ v = 16 * 2 ^ i := by
  simp [fqSizeOk]

/-- A core with one entry of ACCOWN written (R319). -/
def writeOwner (j : Nat) (w : BitVec 16) (k : Core) : Core := { k with accown := tabSet 0 k.accown j w }

theorem writePriv_owner {s : State} {e : Env} {core i : Nat} {v : W64} (hi : i < 8) :
    s.writePriv e core (16 + i) v = s.modCore core (writeOwner i (v.extractLsb' 0 16 &&& 0x8FFF)) := by
  have hsub : 16 + i - 16 = i := by omega
  obtain rfl | rfl | rfl | rfl | rfl | rfl | rfl | rfl :
    i = 0 ∨ i = 1 ∨ i = 2 ∨ i = 3 ∨ i = 4 ∨ i = 5 ∨ i = 6 ∨ i = 7 := by omega
  all_goals rfl

theorem readPriv_owner {s : State} {e : Env} {core i : Nat} (hi : i < 8) :
    s.readPriv e core (16 + i) = ((s.core core).owner i).zeroExtend 64 := by
  obtain rfl | rfl | rfl | rfl | rfl | rfl | rfl | rfl :
    i = 0 ∨ i = 1 ∨ i = 2 ∨ i = 3 ∨ i = 4 ∨ i = 5 ∨ i = 6 ∨ i = 7 := by omega
  all_goals rfl

/-- Settles O24: RDPR reads what `readPriv` gives of the core that XB selects; WRPR leaves what `writePriv` makes. -/
theorem privilegedRegisters : Obligations.privilegedRegisters := by
  unfold Obligations.privilegedRegisters
  refine ⟨fun s e f h => ⟨fun hrow hsel => ?_, fun hbad => ?_⟩, fun s e f h core n hcore hn => ?_⟩
  · have hreg := regNumber_of_inRow hrow
    have hcore : selectCore e (e.task.getX f.xb) = some (if (e.task.getX f.xb).toNat.testBit 31 = false then e.core
        else (e.task.getX f.xb).toNat % 512) := by
      rcases hsel with hhere | ⟨hthere, hlt, hres, hdie⟩
      · rw [if_pos hhere]
        exact selectCore_of_here hhere
      · rw [if_neg (by simp [hthere])]
        exact selectCore_of_there hthere hlt hres hdie
    have hreads := rdpr_computes h hcore hreg
    refine ⟨fun hm => ?_, fun hm => ?_, fun hm => ?_, fun hm => ?_, fun hm => ?_, fun hm => ?_, fun hm => ?_,
      fun hm => ?_, fun hm => ?_, fun hm => ?_, fun hm => ?_, fun hm => ?_, fun hm => ?_, fun i hi hm => ?_⟩
    all_goals rw [show f.imm.toNat % 4096 + (e.task.getX f.xc).toNat = _ from hm] at hreads
    case refine_14 => rwa [readPriv_owner hi] at hreads
    all_goals exact hreads
  · refine rdpr_faults h ?_
    rcases hbad with hrow | hsel
    · exact .inr (regNumber_of_not_inRow hrow)
    · exact .inl (selectCore_of_neither hsel)
  · have hset : ∀ (m : Nat) (b : State), m < 16 → n = m → s.writePriv e core m (e.task.getX f.xa) = b →
        b.issuer = some e → ∃ t k, exec (.wrpr f) s = .next t ∧ Moved e.task k 8 ∧ OnlyTask b t e k := by
      intro m b hm hnm hwrite hb
      exact wrpr_sets h hcore hn (fun h16 => absurd h16 (by omega)) (hnm ▸ hwrite) hb
    have hidle : (s.die e.die).fq = [] → (!(s.die e.die).fq.isEmpty) = false := fun hfq => by simp [hfq]
    have hbusy : (s.die e.die).fq ≠ [] → (!(s.die e.die).fq.isEmpty) = true := fun hfq => by simpa using hfq
    refine ⟨fun hm => hset _ _ (by decide) hm rfl h.1, fun hm => hset _ _ (by decide) hm rfl h.1,
      fun hm => hset _ _ (by decide) hm rfl h.1, fun hfq hm => hset _ _ (by decide) hm ?_ h.1,
      fun hfq => ⟨fun hm => hset _ _ (by decide) hm ?_ h.1, fun hm => hset _ _ (by decide) hm ?_ h.1⟩,
      fun hfq hsize hm => hset _ _ (by decide) hm ?_ h.1, fun hsize hm => hset _ _ (by decide) hm ?_ h.1,
      fun hm => hset _ _ (by decide) hm rfl h.1, fun i hi hm => ⟨fun hheld => ?_, fun hfree => ?_⟩⟩
    · exact (if_neg (by rw [hidle hfq]; decide)).trans rfl
    · exact if_pos (hbusy hfq)
    · exact if_pos (by rw [hbusy hfq]; rfl)
    · have hok : fqSizeOk ((e.task.getX f.xa).toNat % 2 ^ 13) = true := (fqSizeOk_iff _).mpr (by simpa using hsize)
      exact (if_neg (by rw [hidle hfq, hok]; decide)).trans rfl
    · have hbad : fqSizeOk ((e.task.getX f.xa).toNat % 2 ^ 13) = false :=
        Bool.eq_false_iff.mpr fun hok => hsize (by simpa using (fqSizeOk_iff _).mp hok)
      exact if_pos (by rw [hbad]; simp)
    · exact wrpr_holds h hcore hn (by omega) (by rwa [hm, Nat.add_sub_cancel_left])
    · obtain ⟨t, k, hexec, hmoved, honly⟩ := wrpr_sets (b := s.modCore core (writeOwner i
        ((e.task.getX f.xa).extractLsb' 0 16 &&& 0x8FFF))) h hcore hn (fun _ => by rwa [hm, Nat.add_sub_cancel_left])
        (by rw [hm]; exact writePriv_owner hi) h.1
      have ht : t.cores = (s.modCore core (writeOwner i ((e.task.getX f.xa).extractLsb' 0 16 &&& 0x8FFF))).cores := by
        rw [honly.1]
      have hc : ∀ c, t.core c = if c = core then writeOwner i ((e.task.getX f.xa).extractLsb' 0 16 &&& 0x8FFF)
          (s.core core) else s.core c := fun c => by rw [core_congr ht, modCore_def, core_setCore]
      refine ⟨t, k, hexec, hmoved, ?_, fun c hne => (hc c).trans (if_neg hne), ?_, fun j => ?_⟩
      · rw [ht]
        exact honly
      · rw [hc, if_pos rfl]
        rfl
      · rw [hc, if_pos rfl]
        exact tabGet_tabSet ..

end Sys2Proof.Proofs

/-! TLBINV, REPLAY, QUAR and QSTAT (R325 to R327). -/

namespace Sys2Proof.Proofs

open Sys2Proof.Machine Sys2Proof.Laws

/-- A table whose values change by a function of their key, read: an absent entry reads as the reset value, which the
function leaves. -/
theorem tabGet_map_keyed {α : Type} (f : Nat → α → α) {d : α} (t : Tab α) (i : Nat) (hd : f i d = d) :
    tabGet d (t.map fun e => (e.1, f e.1 e.2)) i = f i (tabGet d t i) := by
  induction t with
  | nil => exact hd.symm
  | cons e t ih =>
    simp only [List.map_cons, tabGet, ih]
    split_ifs with h
    · rw [h]
    · rfl

/-! ## TLBINV (R325) -/

/-- A core without the entries and lines that an invalidation names. -/
def invalidCore (mode : Nat) (xa xb : W64) (k : Core) : Core :=
  { k with
    tlb := k.tlb.filter fun x => !tlbMatch mode xa xb x
    icache := k.icache.filter fun l => !lineMatch mode xa xb l }

def invalidCluster (mode : Nat) (xa xb : W64) (k : Cluster) : Cluster :=
  { k with tlb := k.tlb.filter fun x => !tlbMatch mode xa xb x }

/-- The state without them. -/
def invalidTlbs (s : State) (mode : Nat) (xa xb : W64) : State :=
  { s with
    cores := s.cores.map fun k => (k.1, invalidCore mode xa xb k.2)
    clusters := s.clusters.map fun k => (k.1, invalidCluster mode xa xb k.2) }

section Tlbinv
variable (s : State) (mode : Nat) (xa xb : W64)

theorem invalidate_eq : s.invalidate mode xa xb =
    if mode = 1 then (invalidTlbs s mode xa xb).dropRemoteKey xb.toNat else invalidTlbs s mode xa xb := rfl

theorem core_invalidTlbs (c : Nat) : (invalidTlbs s mode xa xb).core c = invalidCore mode xa xb (s.core c) :=
  tabGet_map (invalidCore mode xa xb) coreReset s.cores c

theorem cluster_invalidTlbs (c : Nat) :
    (invalidTlbs s mode xa xb).cluster c = invalidCluster mode xa xb (s.cluster c) :=
  tabGet_map (invalidCluster mode xa xb) clusterReset s.clusters c

variable {mode xa xb}

theorem tlbMatch_iff (t : TlbEntry) : tlbMatch mode xa xb t = true ↔
    if mode = 0 then t.ctx = xb.toNat ∧ t.vpn = xa.toNat / (if t.big then 2 ^ 29 else 2 ^ 16)
    else if mode = 1 then t.ctx = xb.toNat else True := by
  match mode with
  | 0 => cases hb : t.big <;> simp [tlbMatch, hb]
  | 1 => simp [tlbMatch]
  | n + 2 => simp [tlbMatch]

theorem lineMatch_iff (l : ILine) : lineMatch mode xa xb l = true ↔
    if mode = 0 then l.ctx = xb.toNat ∧ l.vpn = xa.toNat / 2 ^ 16 else if mode = 1 then l.ctx = xb.toNat else True := by
  match mode with
  | 0 => simp [lineMatch]
  | 1 => simp [lineMatch]
  | n + 2 => simp [lineMatch]

/-- What dropping a remote key leaves as it was. -/
theorem dropLanded_eq (ctx : Nat) : s.dropLanded ctx =
    { s with mem := (s.dropLanded ctx).mem, tags := (s.dropLanded ctx).tags, ctxs := (s.dropLanded ctx).ctxs } := by
  unfold State.dropLanded
  dsimp only
  split_ifs
  · rfl
  · rw [State.setLand, onlyMemory_agentNat]
    rfl

theorem ctx_modCtx (n : Nat) (f : Ctx → Ctx) (c : Nat) :
    (s.modCtx n f).ctx c = if c = n then f (s.ctx n) else s.ctx c := by
  rw [modCtx_def, ctx_setCtx]

/-- A context whose kept remote key is dropped; `key` is what its landed entries were accepted under. -/
def keyDropped (key : Option W64) (c : Ctx) : Ctx := { c with rkey := none, landKey := key }

theorem dropRemoteKey_of_none {ctx : Nat} (h : ((s.ctx ctx).rkey.orElse fun _ => (s.ctx ctx).landKey) = none) :
    s.dropRemoteKey ctx = s := by
  unfold State.dropRemoteKey
  dsimp only
  rw [h]

theorem dropRemoteKey_of_some {ctx : Nat} {k : W64}
    (h : ((s.ctx ctx).rkey.orElse fun _ => (s.ctx ctx).landKey) = some k) :
    s.dropRemoteKey ctx = if k = s.descMem ctx 3 then s.modCtx ctx (keyDropped (some k))
      else (s.modCtx ctx (keyDropped none)).dropLanded ctx := by
  unfold State.dropRemoteKey
  dsimp only
  rw [h]
  dsimp only
  split_ifs <;> rfl

theorem dropRemoteKey_eq (ctx : Nat) : s.dropRemoteKey ctx = { s with
    mem := (s.dropRemoteKey ctx).mem, tags := (s.dropRemoteKey ctx).tags, ctxs := (s.dropRemoteKey ctx).ctxs } := by
  cases hkey : (s.ctx ctx).rkey.orElse fun _ => (s.ctx ctx).landKey with
  | none => rw [dropRemoteKey_of_none s hkey]
  | some k =>
    rw [dropRemoteKey_of_some s hkey]
    split_ifs
    · rfl
    · exact dropLanded_eq (s.modCtx ctx (keyDropped none)) ctx

theorem ctx_setLand (l : Land) (c : Nat) : (s.setLand l).ctx c = s.ctx c := by
  rw [State.setLand, onlyMemory_agentNat]
  rfl

theorem ctx_dropLanded (ctx : Nat) :
    (s.dropLanded ctx).ctx ctx = { s.ctx ctx with landed := [], behind := [] } := by
  unfold State.dropLanded
  dsimp only
  rw [ctx_modCtx, if_pos rfl]
  split_ifs
  · rfl
  · rw [ctx_setLand]

/-- The kept remote key is gone, and with it what was accepted under it, where that key has been replaced (R287). -/
theorem ctx_dropRemoteKey (ctx : Nat) : ((s.dropRemoteKey ctx).ctx ctx).rkey = none ∧
    ∀ k, (s.ctx ctx).rkey = some k → k ≠ s.descMem ctx 3 → ((s.dropRemoteKey ctx).ctx ctx).landed = [] := by
  cases hkey : (s.ctx ctx).rkey.orElse fun _ => (s.ctx ctx).landKey with
  | none =>
    have hr : (s.ctx ctx).rkey = none := (Option.or_eq_none_iff.mp (by simpa using hkey)).1
    rw [dropRemoteKey_of_none s hkey]
    exact ⟨hr, fun k hk => nomatch hr.symm.trans hk⟩
  | some k =>
    rw [dropRemoteKey_of_some s hkey]
    refine ⟨?_, fun k' hk' hne => ?_⟩
    · split_ifs
      · rw [ctx_modCtx, if_pos rfl, keyDropped]
      · rw [ctx_dropLanded, ctx_modCtx, if_pos rfl, keyDropped]
    · rw [hk'] at hkey
      rw [if_neg (Option.some.inj hkey ▸ hne), ctx_dropLanded]

/-- Memory reads the same in states that differ in TLBs, caches and what is not memory. -/
theorem readByte_of_qps {s t : State} (h : t = { s with cores := t.cores, clusters := t.clusters })
    (hqps : ∀ c, (t.cluster c).qps = (s.cluster c).qps) (mk k : Nat) : t.readByte mk k = s.readByte mk k := by
  have hmem : t.mem = s.mem := by rw [h]
  have htags : t.tags = s.tags := by rw [h]
  have hdies : t.dies = s.dies := by rw [h]
  have hkeys : t.mkeys = s.mkeys := by rw [h]
  have hlog : t.mclog = s.mclog := by rw [h]
  have hticks : t.ticks = s.ticks := by rw [h]
  have hdevice : t.deviceByte k = s.deviceByte k := by
    simp only [State.deviceByte, State.die, hqps, hdies, hlog, hticks]
  have hinstalled : t.installed mk k = s.installed mk k := by
    simp only [State.installed, State.die, hkeys, hdies]
  simp only [State.readByte, State.byte, hinstalled, hdevice, hmem, htags, hticks]

theorem descMem_invalidTlbs (mode : Nat) (xa xb : W64) (ctx k : Nat) :
    (invalidTlbs s mode xa xb).descMem ctx k = s.descMem ctx k := by
  unfold State.descMem
  rw [readNat_congr fun i _ => readByte_of_qps (s := s) (t := invalidTlbs s mode xa xb) rfl
    (fun c => by rw [cluster_invalidTlbs, invalidCluster]) 0 _]
  rfl

/-- What TLBINV leaves of the state. -/
theorem invalidate_frame (mode : Nat) (xa xb : W64) : s.invalidate mode xa xb = { s with
    cores := (invalidTlbs s mode xa xb).cores, clusters := (invalidTlbs s mode xa xb).clusters
    mem := (s.invalidate mode xa xb).mem, tags := (s.invalidate mode xa xb).tags
    ctxs := (s.invalidate mode xa xb).ctxs } := by
  rw [invalidate_eq]
  split_ifs
  · exact dropRemoteKey_eq (invalidTlbs s mode xa xb) xb.toNat
  · rfl

theorem mem_filter_not {α : Type} {l : List α} {p : α → Bool} {q : α → Prop} (h : ∀ x, p x = true ↔ q x) (x : α) :
    x ∈ l.filter (fun x => !p x) ↔ x ∈ l ∧ ¬ q x := by
  rw [List.mem_filter, ← h, Bool.not_eq_true', Bool.not_eq_true]

end Tlbinv

/-- What an invalidation does to the TLBs, the instruction caches and the remote key of a context. -/
theorem tlbinv_drops {i : Instr} {s : State} {e : Env} {st n mode : Nat} {srcs : List SrcOp} {xa xb : W64}
    {body : Env → State → Act} (hexec : exec i s = issue st n srcs [] body s) (h : CanIssue s e st srcs [])
    (hbody : body e s = tlbinv e n mode xa xb s) :
    let hit := fun t : TlbEntry =>
      if mode = 0 then t.ctx = xb.toNat ∧ t.vpn = xa.toNat / (if t.big then 2 ^ 29 else 2 ^ 16)
      else if mode = 1 then t.ctx = xb.toNat else True
    (mode < 2 → 4096 ≤ xb.toNat → Faults i s e cShape 0) ∧
    (2 ≤ mode ∨ xb.toNat < 4096 → ∃ t k, exec i s = .next t ∧ Moved e.task k n ∧
      (∃ m : Team, tabFind t.teams e.uid = some { m with task := some k }) ∧
      (∀ c x, x ∈ (t.core c).tlb ↔ x ∈ (s.core c).tlb ∧ ¬ hit x) ∧
      (∀ c x, x ∈ (t.cluster c).tlb ↔ x ∈ (s.cluster c).tlb ∧ ¬ hit x) ∧
      (∀ c x, x ∈ (t.core c).icache ↔ x ∈ (s.core c).icache ∧ ¬ (if mode = 0 then
        x.ctx = xb.toNat ∧ x.vpn = xa.toNat / 2 ^ 16 else if mode = 1 then x.ctx = xb.toNat else True)) ∧
      (mode ≠ 1 → OnlyTask { s with cores := t.cores, clusters := t.clusters } t e k) ∧
      (mode = 1 → (t.ctx xb.toNat).rkey = none ∧ ∀ k, (s.ctx xb.toNat).rkey = some k →
        k ≠ s.descMem xb.toNat 3 → (t.ctx xb.toNat).landed = [])) := by
  intro hit
  refine ⟨fun hm hb => faults_of_body hexec h ?_, fun hok => ?_⟩
  · rw [hbody, tlbinv, if_pos ⟨hm, hb⟩]
    rfl
  have hissue : (s.invalidate mode xa xb).issuer = some e := by
    rw [invalidate_frame]
    exact h.1
  obtain ⟨t, k, hnext, hmoved, honly⟩ := moves_of_body hexec h
    (by rw [hbody, tlbinv, if_neg (fun hc => by omega)]) hissue
  have hcores : t.cores = (invalidTlbs s mode xa xb).cores := by rw [honly.1, invalidate_frame]
  have hclusters : t.clusters = (invalidTlbs s mode xa xb).clusters := by rw [honly.1, invalidate_frame]
  have hctx : t.ctxs = (s.invalidate mode xa xb).ctxs := by rw [honly.1]
  have hcore : ∀ c, t.core c = invalidCore mode xa xb (s.core c) := fun c => by
    rw [core_congr hcores, core_invalidTlbs]
  have hcluster : ∀ c, t.cluster c = invalidCluster mode xa xb (s.cluster c) := fun c => by
    rw [State.cluster, hclusters, ← cluster_invalidTlbs, State.cluster]
  refine ⟨t, k, hnext, hmoved, ⟨e.team, ?_⟩, fun c x => ?_, fun c x => ?_, fun c x => ?_, fun hm => ?_, fun hm => ?_⟩
  · rw [honly.2, if_pos rfl]
  · rw [hcore]
    exact mem_filter_not tlbMatch_iff x
  · rw [hcluster]
    exact mem_filter_not tlbMatch_iff x
  · rw [hcore]
    exact mem_filter_not lineMatch_iff x
  · rw [invalidate_eq, if_neg hm] at honly
    rw [hcores, hclusters]
    exact honly
  · have hread : ∀ c, t.ctx c = ((invalidTlbs s mode xa xb).dropRemoteKey xb.toNat).ctx c := fun c => by
      rw [invalidate_eq, if_pos hm] at hctx
      rw [State.ctx, hctx, State.ctx]
    obtain ⟨hnone, hdropped⟩ := ctx_dropRemoteKey (invalidTlbs s mode xa xb) xb.toNat
    rw [descMem_invalidTlbs] at hdropped
    rw [hread]
    exact ⟨hnone, hdropped⟩


/-! ## REPLAY (R326) -/

/-- A core whose parked commands of the contexts that `p` names are to be tried again. -/
def replayCore (p : Nat → Bool) (k : Core) : Core :=
  { k with cmds := k.cmds.map fun c => if c.parked ∧ p c.ctx then { c with retry := true } else c }

/-- A cluster whose parked queue pairs of these contexts are. -/
def replayCluster (p : Nat → Bool) (k : Cluster) : Cluster :=
  { k with qps := k.qps.map fun q => if q.2.parked ∧ q.2.entries.any (fun e => p e.ctx) then
    (q.1, { q.2 with replay := true }) else q }

section Replay
variable (s : State) (die : Nat) (p : Nat → Bool)

theorem replayDie_eq : s.replayDie die p = { s with
    cores := s.cores.map fun k => (k.1, if dieOf k.1 = die then replayCore p k.2 else k.2)
    clusters := s.clusters.map fun k => (k.1, if k.1 / 16 = die then replayCluster p k.2 else k.2) } := by
  have hcore : ∀ k : Nat × Core, (if dieOf k.1 = die then (k.1, replayCore p k.2) else k) =
      (k.1, if dieOf k.1 = die then replayCore p k.2 else k.2) := fun k => by split_ifs <;> rfl
  have hcluster : ∀ k : Nat × Cluster, (if k.1 / 16 = die then (k.1, replayCluster p k.2) else k) =
      (k.1, if k.1 / 16 = die then replayCluster p k.2 else k.2) := fun k => by split_ifs <;> rfl
  simp only [← hcore, ← hcluster]
  rfl

theorem core_replayDie (c : Nat) :
    (s.replayDie die p).core c = if dieOf c = die then replayCore p (s.core c) else s.core c := by
  rw [replayDie_eq]
  exact tabGet_map_keyed (fun i k => if dieOf i = die then replayCore p k else k) s.cores c (by split_ifs <;> rfl)

theorem cluster_replayDie (c : Nat) :
    (s.replayDie die p).cluster c = if c / 16 = die then replayCluster p (s.cluster c) else s.cluster c := by
  rw [replayDie_eq]
  exact tabGet_map_keyed (fun i k => if i / 16 = die then replayCluster p k else k) s.clusters c (by split_ifs <;> rfl)

end Replay

/-- What a replay does to the parked accesses of its die. -/
theorem replay_reaches {i : Instr} {s : State} {e : Env} {st n : Nat} {srcs : List SrcOp} {xa : W64}
    {body : Env → State → Act} (hexec : exec i s = issue st n srcs [] body s) (h : CanIssue s e st srcs [])
    (hbody : body e s = replay e n xa s) :
    let named := fun c : Nat => xa.toNat.testBit 12 || c == xa.toNat % 4096
    (2 ^ 13 ≤ xa.toNat → Faults i s e cShape 0) ∧
    (xa.toNat < 2 ^ 13 → ∃ t k, exec i s = .next t ∧ Moved e.task k n ∧
      OnlyTask { s with cores := t.cores, clusters := t.clusters } t e k ∧
      (∀ c, t.core c = if dieOf c = e.die then { s.core c with
        cmds := (s.core c).cmds.map fun d => if d.parked = true ∧ named d.ctx = true then
          { d with retry := true } else d } else s.core c) ∧
      ∀ c, t.cluster c = if c / 16 = e.die then { s.cluster c with
        qps := (s.cluster c).qps.map fun q =>
          if q.2.parked = true ∧ (q.2.entries.any fun x => named x.ctx) = true then
            (q.1, { q.2 with replay := true }) else q } else s.cluster c) := by
  intro named
  refine ⟨fun hbad => faults_of_body hexec h ?_, fun hok => ?_⟩
  · rw [hbody, replay, if_pos hbad]
    rfl
  obtain ⟨t, k, hnext, hmoved, honly⟩ := moves_of_body (b := s.replayDie e.die named) hexec h
    (by rw [hbody, replay, if_neg (by omega)]) h.1
  have hcores : t.cores = (s.replayDie e.die named).cores := by rw [honly.1]
  have hclusters : t.clusters = (s.replayDie e.die named).clusters := by rw [honly.1]
  refine ⟨t, k, hnext, hmoved, ?_, fun c => ?_, fun c => ?_⟩
  · rw [hcores, hclusters]
    exact honly
  · rw [core_congr hcores, core_replayDie]
    rfl
  · rw [State.cluster, hclusters, ← State.cluster, cluster_replayDie]
    rfl

/-! ## QUAR and QSTAT (R327) -/

section Quar
variable {i : Instr} {s : State} {e : Env} {st n : Nat} {srcs : List SrcOp} {d : BitVec 6} {xa xb : W64}
  {body : Env → State → Act}

theorem quar_outcomes (hexec : exec i s = issue st n srcs [.x d] body s) (h : CanIssue s e st srcs [.x d])
    (hbody : body e s = quar e n d xa xb s) :
    let k := s.die e.die
    let bad := xa.toNat % 65536 ≠ 0 ∨ 2 ^ 56 ≤ xa.toNat ∨ xb = 0 ∨ 8192 < xb.toNat ∨
      s.runClaimed (xa.toNat / 65536) xb.toNat = true
    (bad → Computes i s e d 2 n) ∧ (¬ bad → 4096 ≤ k.quar.length → Computes i s e d 1 n) ∧
    (¬ bad → k.quar.length < 4096 → ∃ t l, exec i s = .next t ∧ OnlyTask (s.setDie e.die
      { k with quar := k.quar ++ [⟨xa.toNat / 65536, xb.toNat, k.epochNow.toNat⟩] }) t e l ∧ Wrote e.task l d 0 n) := by
  intro k bad
  have hbad : (xa.toNat % 65536 ≠ 0 ∨ 2 ^ 56 ≤ xa.toNat ∨ xb.toNat = 0 ∨ 8192 < xb.toNat ∨
      s.runClaimed (xa.toNat / 65536) xb.toNat = true) ↔ bad := by
    have hzero : xb.toNat = 0 ↔ xb = 0 := by rw [← BitVec.toNat_inj]; rfl
    rw [hzero]
  refine ⟨fun hb => ends_of_body hexec h ?_ h.1, fun hb hfull => ends_of_body hexec h ?_ h.1,
    fun hb hroom => ends_of_body hexec h ?_ h.1⟩
  · rw [hbody, quar, if_pos (hbad.mpr hb)]
  · rw [hbody, quar, if_neg (mt hbad.mp hb), if_pos hfull]
  · rw [hbody, quar, if_neg (mt hbad.mp hb), if_neg (Nat.not_le.mpr hroom)]
    rfl

theorem qstat_outcomes (hexec : exec i s = issue st n srcs [.x d] body s) (h : CanIssue s e st srcs [.x d])
    (hbody : body e s = qstat e n d xa s) :
    let k := s.die e.die
    (xa = 0 → k.quar = [] → Computes i s e d 0 n) ∧
    (∀ q qs, xa = 0 → k.quar = q :: qs → s.releasable q = false → Computes i s e d 0 n) ∧
    (∀ q qs, xa = 0 → k.quar = q :: qs → s.releasable q = true → ∃ t l, exec i s = .next t ∧
      OnlyTask ((s.setDie e.die { k with quar := qs }).unlockRun q) t e l ∧
      Wrote e.task l d (w64 (q.frame * 65536 + (q.len - 1))) n) ∧
    (xa = 1 → Computes i s e d (w64 (k.quar.length + (k.quar.filter s.releasable).length * 2 ^ 16)) n) ∧
    (2 ≤ xa.toNat → Faults i s e cShape 0) := by
  intro k
  refine ⟨fun h0 hq => ends_of_body hexec h ?_ h.1, fun q qs h0 hq hr => ends_of_body hexec h ?_ h.1,
    fun q qs h0 hq hr => ends_of_body hexec h ?_ h.1, fun h1 => ends_of_body hexec h ?_ h.1,
    fun h2 => faults_of_body hexec h ?_⟩
  · rw [hbody, qstat, if_pos h0, show (s.die e.die).quar = [] from hq]
  · rw [hbody, qstat, if_pos h0, show (s.die e.die).quar = q :: qs from hq]
    exact if_neg (by rw [hr]; decide)
  · rw [hbody, qstat, if_pos h0, show (s.die e.die).quar = q :: qs from hq]
    exact if_pos hr
  · rw [hbody, qstat, if_neg (by rw [h1]; decide), if_pos h1]
  · rw [hbody, qstat, if_neg (by rintro rfl; exact absurd h2 (by decide)),
      if_neg (by rintro rfl; exact absurd h2 (by decide))]
    rfl

end Quar

theorem releasable_iff (s : State) (q : QuarRun) : s.releasable q = true ↔
    (s.qdone - BitVec.ofNat 32 q.epoch).toNat < 2 ^ 31 ∧ s.runScrubbed q = false := by
  simp [State.releasable, State.quiesced]

/-- Settles O26: each of the four in both formats is an issue of its common body. -/
theorem translationControl : Obligations.translationControl := by
  unfold Obligations.translationControl
  refine ⟨fun s e => ⟨fun f h => tlbinv_drops (i := .tlbinv f) rfl h rfl, fun f h => tlbinv_drops (i := .tlbinvSw f) rfl h rfl⟩,
    fun s e => ⟨fun f h => replay_reaches (i := .replay f) rfl h rfl, fun f h => replay_reaches (i := .replaySw f) rfl h rfl⟩,
    fun s e => ⟨releasable_iff s, fun f h => ?_, fun f h => ?_, fun f h => ?_, fun f h => ?_⟩⟩
  · exact quar_outcomes (i := .quar f) rfl h rfl
  · exact quar_outcomes (i := .quarSw f) rfl h rfl
  · exact qstat_outcomes (i := .qstat f) rfl h rfl
  · exact qstat_outcomes (i := .qstatSw f) rfl h rfl

end Sys2Proof.Proofs

/-! CFGDIFF where the walk for its header fills the TLB with a leaf that stands before an older one (R316, R355). -/

namespace Sys2Proof.Proofs

open Sys2Proof.Machine Sys2Proof.Laws

/-! ## A stale entry

The list of the instruction crosses from page 0x6B1 into page 0x6B2. The core's TLB has an entry for the second page
alone, from before the page tables took one leaf of 512 MiB for both. The walk for the header fills the TLB with that
leaf, which stands first from then on: the list's entries are then looked for through it, in a frame that no HBM backs,
and not through the old entry. -/

/-- A task with the list's address in x1 and core 1 named in x2. -/
def staleTask : Task := taskStart 0 [(1, 0x6B1FFF0), (2, 0x20001)] 0 none false

def staleTeam : Team := { teamStart 0 0 0 0 0 0 0 0 [] [] with task := some staleTask, ready := [] }

/-- The task that issues. -/
def staleEnv : Env := ⟨1, staleTeam, staleTask, 0⟩

/-- Core 0 with the old entry: page 0x6B2 in frame 3. -/
def staleCore : Core := { coreReset with tlb := [⟨0, 0x6B2, false, 0x3007⟩] }

/-- The leaf for both pages starts at frame 0xEE000, of which the last 6,478 frames are not backed; the header, at the
end of the last frame that is, names one entry. -/
def staleState : State := { State.reset with
  mem := [(0x100000, 1), (0x100001, 0x10), (0x100002, 1), (0x110000, 7), (0x110003, 0xEE), (0xEE6B1FFF0, 1)]
  dies := [(0, { dieReset with tagbase := 0x2000000000 })]
  ctxs := [(0, { ctxNone with desc := [(0, [(1, 0x100000)])] })]
  cores := [(0, staleCore)], teams := [(1, staleTeam)], focus := some 1 }

def staleForm : FS := { xd := 3, xa := 1, xb := 2, fea := false, feb := false }

/-- The bytes that a read brings, where it brings any. -/
def Read.bytes? : Read → Option (List (BitVec 8))
  | .ok bs => some bs
  | _ => none

theorem eq_ok_of_bytes {r : Read} {bs : List (BitVec 8)} (h : Read.bytes? r = some bs) : r = .ok bs := by
  cases r with
  | ok bs' => rw [Option.some.inj h]
  | wait => exact nomatch h
  | bad va code => exact nomatch h

/-- The header as it is read. -/
def staleHeader : List (BitVec 8) := 1 :: List.replicate 15 0

theorem engineBytes_staleHeader : staleState.engineBytes staleEnv.who 0x6B1FFF0 16 = .ok staleHeader :=
  eq_ok_of_bytes (by decide +kernel)

/-- The entry through the old leaf. -/
theorem engineBytes_staleEntry :
    staleState.engineBytes staleEnv.who (0x6B1FFF0 + 16) (16 * 1) = .ok (List.replicate 16 0) :=
  eq_ok_of_bytes (by decide +kernel)

/-- The instruction faults, and the task of C0x000 ends. -/
theorem cfgdiff_ends_staleTask {t : State} (h : exec (.cfgdiff staleForm) staleState = .next t) :
    ((tabFind t.teams 1).any fun m => m.task.isSome) = false := by
  have hread : (match exec (.cfgdiff staleForm) staleState with
      | .next t => (tabFind t.teams 1).any fun m => m.task.isSome
      | _ => true) = false := by decide +kernel
  rw [h] at hread
  exact hread

/-- Refutes O27: the entries of a list are read after the walk for its header has filled the TLB, so that a list whose
two parts can be read may yet fault. -/
theorem not_worldControl : ¬ Obligations.worldControl := by
  unfold Obligations.worldControl
  rintro ⟨hcfg, -⟩
  obtain ⟨happlies, -⟩ := hcfg staleState staleEnv staleHeader (List.replicate 16 0) 1 0 (by decide)
  obtain ⟨t, k, v, hexec, ⟨-, hteams⟩, -⟩ := happlies staleForm ⟨rfl, rfl, rfl, rfl, rfl⟩ (by decide)
    engineBytes_staleHeader engineBytes_staleEntry
  have hgone := cfgdiff_ends_staleTask hexec
  rw [hteams 1] at hgone
  exact absurd hgone (by simp [staleEnv])

end Sys2Proof.Proofs

/-! ERET with ACTION 1 on a BREAK of a task of C0x000, which has no handler of its own (R40, R323). -/

namespace Sys2Proof.Proofs

open Sys2Proof.Machine Sys2Proof.Laws

/-- A task that a BREAK holds. -/
def brokenTask : Task := { taskStart 0 [] 0 none false with hold := .brk }

def brokenTeam : Team := { teamStart 0 0 0 0 0 0 0 0 [] [] with task := some brokenTask, ready := [] }

/-- The record of that BREAK, at the head of its queue. -/
def brokenRec : FaultRec where
  index := 0; code := 0; source := 6; team := 2; origin := 0; cmd := 0; core := 0; flags := 0; unit := 0; mpc := 0
  parked := false; term := false; released := false; pc := 0; addr := 0

/-- A launch of C0x000 that names a handler. -/
def systemLaunch : Launch where
  slot := 0; entry := 0; args := 0; fhandler := 64; teams := 1; allot := 0; acct := 0; prio := 0; gather := false
  nomig := false; diemask := 1; groups := []; done := none; doneinc := 0; tag := 0; placed := 1; retired := 0
  terminated := false; order := 0

/-- A task of C0x000 that issues an ERET for the record. -/
def settlingTask : Task := taskStart 0 [] 0 none false

def settlingTeam : Team := { teamStart 0 0 0 0 0 0 0 0 [] [] with task := some settlingTask, ready := [] }

def settlingEnv : Env := ⟨1, settlingTeam, settlingTask, 0⟩

def settlingState : State := { State.reset with
  dies := [(0, { dieReset with fq := [brokenRec], fqtail := 1 })]
  ctxs := [(0, { ctxNone with launches := [systemLaunch] })]
  teams := [(1, settlingTeam), (2, brokenTeam)], focus := some 1 }

def settlingForm : FSW := { xd := 0, xa := 0, xb := 0, fea := false, feb := false, st := 0, xc := 0, fec := false, imm := 1 }

/-- The held task ends with a machine check, and its team has no record. -/
theorem eret_leaves_no_record {t : State} {m : Team} (h : exec (.eret settlingForm) settlingState = .next t)
    (hm : tabFind t.teams 2 = some m) : m.recs = [] := by
  have hread : (match exec (.eret settlingForm) settlingState with
      | .next t => (tabFind t.teams 2).all fun m => m.recs.isEmpty
      | _ => false) = true := by decide +kernel
  rw [h] at hread
  simpa [hm] using hread

/-- Refutes O25: a fault of a task of C0x000 is a machine check and starts no handler task, whatever FHANDLER its launch
names. -/
theorem not_eretAccumulators : ¬ Obligations.eretAccumulators := by
  unfold Obligations.eretAccumulators
  rintro ⟨heret, -⟩
  obtain ⟨-, hrecord⟩ := heret settlingState settlingEnv settlingForm ⟨rfl, rfl, rfl, rfl, rfl⟩ rfl
  obtain ⟨-, -, hpass⟩ := hrecord brokenRec brokenTeam rfl (by decide) rfl
  obtain ⟨t, m, q, hexec, -, hm, -, hq, -⟩ := hpass rfl rfl (by decide) brokenTask systemLaunch rfl rfl rfl rfl rfl rfl
    rfl rfl (by decide)
  rw [eret_leaves_no_record hexec hm] at hq
  exact absurd hq List.not_mem_nil

end Sys2Proof.Proofs

/-! A fault's record whose handler task lies over its context's descriptor (R33, R322). -/

namespace Sys2Proof.Proofs

open Sys2Proof.Machine Sys2Proof.Laws

/-- The team of the system context on die 0, without a task. -/
def systemTeam : Team := { teamStart 0 0 0 0 0 0 0 0 [] [] with ready := [] }

/-- The pool of `poolOverDescriptor`; HPC is 64 and the queue of faults stands at 65,536. -/
def faultOverDescriptor : State := { poolOverDescriptor with
  dies := [(0, { dieReset with hpc := 64, fqbase := 0x10000 })], teams := [(1, systemTeam)], focus := none }

/-- A fault of core 5: x3 of its handler task is 0x80000005, which makes MKEY the dead key 5. -/
def faultOfCore5 : FaultInfo where
  die := 0; code := 0; source := 0; flags := 0; unit := 0; ctx := 0; core := 5; pc := 0; addr := 0; tag := 0; team := 0
  mpc := 0; origin := 0; uid := 0; recId := 0; cmd := 0

theorem poolPlaces_faultOverDescriptor : faultOverDescriptor.poolPlaces 0 0 2 = [32960, 33024] := by decide +kernel

/-- The first byte of the handler task's record, the lowest of its PC, still reads 0. -/
theorem queueFault_leaves_header_unwritten : (faultOverDescriptor.queueFault faultOfCore5).readByte 0 32960 = 0 := by
  decide +kernel

theorem writable_faultOverDescriptor {ms : List Host.Cell} {gs : Tab Nat} {ds : Tab Die} {ts : Tab Team} {n : Nat}
    (k len : Nat) : Writable { faultOverDescriptor with mem := ms, tags := gs, dies := ds, teams := ts, nextId := n }
      0 k len := by
  intro a _ _
  simp [State.refused, State.lockOf, State.installed, faultOverDescriptor, poolOverDescriptor, State.reset, tabGet,
    tabFind]

/-- The handler task's record, as its team holds it. -/
theorem places_of_handler {r : Rec} (h : tabFind (faultOverDescriptor.queueFault faultOfCore5).teams (sysTeam 0) =
    some { systemTeam with recs := systemTeam.recs ++ [r], ready := systemTeam.ready ++ [r.id] }) :
    r.places = [32960, 33024] := by
  have hread : (tabFind (faultOverDescriptor.queueFault faultOfCore5).teams (sysTeam 0)).map
      (fun m => m.recs.map Rec.places) = some [[32960, 33024]] := by decide +kernel
  rw [h] at hread
  simpa [systemTeam, teamStart] using hread

/-- `faultOverDescriptor` with another memory. -/
def faultWith (ms : List Host.Cell) (gs : Tab Nat) : State := { faultOverDescriptor with mem := ms, tags := gs }

/-- A byte of HBM under key 0 reads the same where the die, its teams and the next name differ. -/
theorem readByte_faultWith {ms : List Host.Cell} {gs : Tab Nat} {ds : Tab Die} {ts : Tab Team} {n a : Nat}
    (ha : isHbm a = true) :
    State.readByte { faultOverDescriptor with mem := ms, tags := gs, dies := ds, teams := ts, nextId := n } 0 a =
      (faultWith ms gs).readByte 0 a := by
  simp only [State.readByte, ha, if_true]
  rfl

theorem descriptorKey_reads_zero : ∀ i, i < 8 → faultOverDescriptor.readByte 0 (33040 + i) = 0 := by decide +kernel

theorem installed_zero (s : State) (h : s.mkeys = [(5, 2, 0)]) (a : Nat) : s.installed 0 a = true := by
  simp [State.installed, h, tabFind]

/-- MKEY is 0 where its word in memory reads 0. -/
theorem keyOn_faultWith {ms : List Host.Cell} {gs : Tab Nat}
    (h : ∀ i, i < 8 → (faultWith ms gs).readByte 0 (33040 + i) = 0) : (faultWith ms gs).keyOn 0 0 = 0 := by
  have hword : (faultWith ms gs).readNat 0 33040 8 = 0 := by
    rw [State.readNat, readBytes_eq_map, List.map_congr_left fun i hi => h i (List.mem_range.mp hi)]
    rfl
  have hdesc : (faultWith ms gs).descMem 0 2 = 0 := by
    rw [State.descMem, show gpaKey ((faultWith ms gs).ctxbase.toNat + 256 * 0 + 8 * 2) = 33040 from rfl, hword]
    rfl
  have hplane : (faultWith ms gs).planeWord 0 0 2 = none := if_neg (show ¬ coreReset.activeCtx = some 0 by decide)
  have hdescWord : (faultWith ms gs).descWord 0 2 = (faultWith ms gs).descMem 0 2 := rfl
  rw [State.keyOn, hplane, Option.getD_none, hdescWord, hdesc]
  rfl

/-- Refutes O35: a fault whose handler task's record covers the descriptor of the system context leaves the record's
header unwritten, since the register values that were written before changed the key to a dead one. -/
theorem not_faultRecord : ¬ Obligations.faultRecord := by
  unfold Obligations.faultRecord
  intro h
  obtain ⟨b, r, -, hother, -, -, -, ⟨hteam, -, hpc, -⟩, -, hb, -, hrecord⟩ := h faultOverDescriptor faultOfCore5 systemTeam
    rfl (by decide) (by decide) (by decide) (by decide) (by decide) (by decide) (by decide) (by decide) (by decide)
    (by decide) (writable_faultOverDescriptor (ms := faultOverDescriptor.mem) (gs := faultOverDescriptor.tags) (ds := faultOverDescriptor.dies) (ts := faultOverDescriptor.teams) (n := faultOverDescriptor.nextId) _ _)
  have hkey : (faultWith b.mem b.tags).keyOn 0 0 = 0 := by
    refine keyOn_faultWith fun i hi => ?_
    have hhbm : isHbm (33040 + i) = true := by
      simp only [isHbm, Bool.and_eq_true, decide_eq_true_eq]
      omega
    rw [← readByte_faultWith hhbm, ← hb, hother _ (installed_zero _ rfl _) (.inl ?_)]
    · exact descriptorKey_reads_zero i hi
    · change 33040 + i < 65536
      omega
  have hnamed : Named { systemTeam with recs := systemTeam.recs ++ [r] } r := fun q hq _ => List.mem_singleton.mp hq
  obtain ⟨-, hrec⟩ := hrecord
  obtain ⟨-, hheader, -⟩ := hrec hnamed
  have hfirst : r.places.head? = some 32960 := by rw [places_of_handler hteam]; rfl
  have hheader : Headed b _ ((faultWith b.mem b.tags).keyOn 0 0) _ r := hheader
  rw [hkey] at hheader
  have hwrite : Writable b 0 (gpaKey 32960) 64 := by
    rw [hb]
    exact writable_faultOverDescriptor _ _
  obtain ⟨link, hbytes⟩ := hheader 32960 hfirst hbm_firstUnit hwrite rfl
  have hhead := congrArg List.head? hbytes
  rw [show gpaKey 32960 = 32960 from rfl, State.readBytes, queueFault_leaves_header_unwritten] at hhead
  have hpc64 : r.pc = 64 := hpc
  simp [Rec.words, hpc64, leBytes] at hhead

end Sys2Proof.Proofs

/-! A machine check of C0x000 takes an SQLD that has started off the core, and with it what its team has reserved (R214,
R423). -/

namespace Sys2Proof.Proofs

open Sys2Proof.Machine Sys2Proof.Laws

def sqldForm : FE3 where
  e := ⟨0, false, 0, 0, false, false, 0, 0, false, 0, false, 0, false, 0, false, 0, 0⟩
  xb := 0; feb := false; xc := 0; fec := false; imm := 0

/-- An SQLD of C0x000 that has started. -/
def startedSqld : Cmd := { sqldCmd settlingState settlingEnv sqldForm [] with started := true }

/-- The team of C0x000 on core 0, which has no task and one place reserved for that SQLD. -/
def sqldTeam : Team := { systemTeam with sqPend := [(startedSqld.id, 1)] }

def sqldStarted : State := { State.reset with
  cores := [(0, { coreReset with cmds := [startedSqld] })], teams := [(1, sqldTeam)] }

theorem machineCheck_takes_reservation {t : State} {m : Team}
    (h : exec (.machineCheck 0 0xE0 0 0 0) sqldStarted = .next t) (hm : tabFind t.teams 1 = some m) :
    m.sqPend = [] := by
  have hread : (match exec (.machineCheck 0 0xE0 0 0 0) sqldStarted with
      | .next t => (tabFind t.teams 1).all fun m => m.sqPend.isEmpty
      | _ => false) = true := by decide +kernel
  rw [h] at hread
  simpa [hm] using hread

/-- Refutes O59: the team of C0x000 does not stay as it was where a started SQLD of it stops on the core (log 103). -/
theorem not_machineChecks : ¬ Obligations.machineChecks := by
  unfold Obligations.machineChecks
  rintro ⟨-, hcheck, -⟩
  obtain ⟨-, -, -, -, -, hsystem, -⟩ := hcheck sqldStarted 0 0xE0 0 0 0 (by decide) (by decide) (by decide)
  obtain ⟨t, hexec, -, hsame, -⟩ := hsystem rfl sqldTeam rfl rfl
  have hpend : sqldTeam.sqPend = [] := machineCheck_takes_reservation hexec (hsame rfl)
  exact absurd hpend (List.cons_ne_nil _ _)

end Sys2Proof.Proofs

/-! DESTROY takes a command off the core, and with it the place of its number in every team's reservations (R214, R403). -/

namespace Sys2Proof.Proofs

open Sys2Proof.Machine Sys2Proof.Laws

/-- A command of team 16 that has not started, with the number of the SQLD of `sqldTeam`. -/
def waitingSqld : Cmd := { startedSqld with team := 16, ctx := 1, started := false }

/-- A team of C0x002 with a place reserved under that number. -/
def bystander : Team := { teamStart 2 0 0 0 0 0 0 0 [] [] with sqPend := [(startedSqld.id, 1)] }

/-- Every semaphore of C0x000 stands at its greatest value, so that an answer signals none. -/
def fullSemaphores : Ctx := { ctxNone with sems := (List.range 256).map fun n => (n, 0xFFFFFFFF) }

/-- A DESTROY of C0x001 at the head of die 0's ring, with team 16 of C0x001 and team 17 of C0x002 on core 0. -/
def destroying : State := { State.reset with
  dies := [(0, { dieReset with latched := true, bells := [(1, 0)] })]
  cores := [(0, { coreReset with cmds := [waitingSqld] })]
  ctxs := [(0, fullSemaphores)]
  teams := [(16, teamStart 1 0 0 0 0 0 0 0 [] []), (17, bystander)]
  mem := [(reqKey 0 0, 10), (reqKey 0 0 + 4, 1)] }

theorem asked_destroying : Asked destroying 0 0 10 [] := by
  unfold Asked
  decide +kernel

theorem hbm_descriptor : Hbm (gpaKey (destroying.ctxbase.toNat + 256 * 1)) 256 := by
  have hkey : gpaKey (destroying.ctxbase.toNat + 256 * 1) = 256 := by decide +kernel
  rw [hkey]
  intro a _ ha
  simp only [isHbm, Bool.and_eq_true, decide_eq_true_eq]
  omega

theorem destroy_takes_reservation {t : State} {m : Team} (h : exec (.destroy 0 0) destroying = .next t)
    (hm : tabFind t.teams 17 = some m) : m.sqPend = [] := by
  have hread : (match exec (.destroy 0 0) destroying with
      | .next t => (tabFind t.teams 17).all fun m => m.sqPend.isEmpty
      | _ => false) = true := by decide +kernel
  rw [h] at hread
  simpa [hm] using hread

theorem fullSemaphores_full : ∀ n < 256, 2 ^ 32 ≤ (tabGet 0 fullSemaphores.sems n).toNat + 1 := by decide +kernel

/-- An answer to C0x000 leaves the teams as they were where no semaphore of it can take an addition. -/
theorem teams_of_answered {b t : State} {die slot status : Nat} (h : Answered b t die slot status)
    (hfull : b.ctx 0 = fullSemaphores) : t.teams = b.teams := by
  obtain ⟨m, u, hm, -, ⟨-, hover⟩, ht, -⟩ := h
  have hsem : b.reqF die slot 2 1 < 256 := by
    have hlt := leNat_lt (b.readBytes 0 (reqKey die slot + 2) 1)
    rw [length_readBytes] at hlt
    exact hlt
  have hctx : m.ctx 0 = fullSemaphores := by rw [hm, ← hfull]; rfl
  have hu : u = m := hover (by rw [State.semVal, hctx]; exact fullSemaphores_full _ hsem)
  rw [ht, hu, hm]

/-- Refutes O57: a team of another context does not stay as it was where it has reserved a place under the number of a
command that goes with the destroyed context. -/
theorem not_reclaim : ¬ Obligations.reclaim := by
  unfold Obligations.reclaim
  rintro ⟨hdestroy, -⟩
  obtain ⟨-, -, -, hgone⟩ := hdestroy destroying 0 0 asked_destroying
  have hctx : destroying.reqF 0 0 4 2 % 4096 = 1 := by decide +kernel
  rw [hctx] at hgone
  obtain ⟨b, p, r, q, c, t, hexec, hanswered, -, -, -, -, -, -, -, -, -, hctxs, -, hteams⟩ :=
    hgone (by decide) (by decide +kernel) hbm_descriptor (by decide +kernel) (by decide +kernel)
  have hkept : tabFind c.teams 17 = some bystander :=
    (hteams 17 bystander (by decide) rfl).2 (by decide) (by decide +kernel)
  have hfull : c.ctx 0 = fullSemaphores := (hctxs 0 (by decide)).trans rfl
  rw [← teams_of_answered hanswered hfull] at hkept
  exact absurd (destroy_takes_reservation hexec hkept) (List.cons_ne_nil _ _)

end Sys2Proof.Proofs

/-! A message that the exports did not admit, of a queue pair whose number lies outside its cluster (R300, R342). -/

namespace Sys2Proof.Proofs

open Sys2Proof.Machine Sys2Proof.Laws

/-- The descriptor that this number gives lies over the first fairness entry of die 1. -/
def farQp : Nat := (2 ^ 46 + fairLocal - qpLocal) / 32

def farMessage : FabricMsg where
  kind := 0; spkg := 0; sctx := 0; scl := 0; qp := farQp; fput := false; eth := none; tpkg := 0; tctx := 0; key := 0
  gang := 0; va := 0; sva := 0; ver := 0; msgno := 0; rsem := none; windowed := false; payload := []; team := 0; ref := 0

/-- What stands at that descriptor's STATE is the fairness entry's key, which is 0. -/
theorem refusalReturn_leaves_state {t : State}
    (h : exec (.fabricRefusalReturn 0 0 cExport (some farMessage)) State.reset = .next t) :
    (t.qpDesc farMessage.scl farMessage.qp).state = 0 := by
  have hread : (match exec (.fabricRefusalReturn 0 0 cExport (some farMessage)) State.reset with
      | .next t => (t.qpDesc farMessage.scl farMessage.qp).state
      | _ => 1) = 0 := by decide +kernel
  rw [h] at hread
  exact hread

/-- Refutes O49: the state of a queue pair whose number is not below 512 is not set to 2, since no descriptor of the
cluster has its place. -/
theorem not_fabricEntries : ¬ Obligations.fabricEntries := by
  unfold Obligations.fabricEntries
  rintro ⟨-, -, -, -, -, hreturn, -⟩
  obtain ⟨-, hexport, -⟩ := (hreturn State.reset 0 0 cExport farMessage).2 rfl
  obtain ⟨u, t, hexec, -, -, hstops⟩ := hexport rfl
  have hstate := (hstops rfl).1
  rw [refusalReturn_leaves_state hexec] at hstate
  exact absurd hstate (by decide)

end Sys2Proof.Proofs

/-! The flits of a link, its replays, and what goes by another plane when it is down (R414 to R416). -/

namespace Sys2Proof.Proofs

open Sys2Proof.Machine Sys2Proof.Laws

theorem port_setPort (s : State) (p : Nat) (q : Port) (k : Nat) :
    (s.setPort p q).port k = if k = p then q else s.port k := by
  simp [State.port, State.setPort]

@[simp] theorem port_setPort_same (s : State) (p : Nat) (q : Port) : (s.setPort p q).port p = q := by
  simp [port_setPort]

theorem port_setPort_other (s : State) {p k : Nat} (q : Port) (h : k ≠ p) : (s.setPort p q).port k = s.port k := by
  simp [port_setPort, h]

@[simp] theorem outbox_setPort (s : State) (p : Nat) (q : Port) : (s.setPort p q).outbox = s.outbox := rfl

/-! ### The planes that are up -/

theorem planeUp_setPort_setPort (s : State) (port : Nat) {p q : Port} (hup : p.up = q.up) (k : Nat) :
    ((s.setPort port p).setPort port q).planeUp k = (s.setPort port p).planeUp k := by
  change (((s.setPort port p).setPort port q).port k).up = ((s.setPort port p).port k).up
  by_cases hk : k = port
  · simp [hk, hup]
  · simp [port_setPort_other _ _ hk]

theorem livePlanes_setPort_setPort (s : State) (port : Nat) {p q : Port} (hup : p.up = q.up) :
    ((s.setPort port p).setPort port q).livePlanes = (s.setPort port p).livePlanes := by
  unfold State.livePlanes
  exact List.filter_congr fun k _ => planeUp_setPort_setPort s port hup k

theorem planeFor_setPort_setPort (s : State) (port : Nat) {p q : Port} (hup : p.up = q.up) (pkg addr : Nat) :
    ((s.setPort port p).setPort port q).planeFor pkg addr = (s.setPort port p).planeFor pkg addr := by
  simp only [State.planeFor, livePlanes_setPort_setPort s port hup]

theorem portOf_setPort_setPort (s : State) (port : Nat) {p q : Port} (hup : p.up = q.up) (m : FabricMsg) :
    ((s.setPort port p).setPort port q).portOf m = (s.setPort port p).portOf m := by
  unfold State.portOf
  rw [livePlanes_setPort_setPort s port hup]
  simp only [planeUp_setPort_setPort s port hup]
  rfl

theorem port_up_of_mem_livePlanes {s : State} {k : Nat} (h : k ∈ s.livePlanes) : (s.port k).up = true :=
  (List.mem_filter.mp h).2

theorem port_up_of_planeFor {s : State} {pkg addr k : Nat} (h : s.planeFor pkg addr = some k) :
    (s.port k).up = true :=
  port_up_of_mem_livePlanes (List.mem_of_getElem? h)

/-- The port by which a message leaves is up, or it is none of the links. -/
theorem port_up_of_portOf {s : State} {m : FabricMsg} {k : Nat} (h : s.portOf m = some k) (hk : k ≠ 22) :
    (s.port k).up = true := by
  unfold State.portOf at h
  split at h
  · split at h
    · exact absurd (Option.some.inj h).symm hk
    · split at h
      · next hup => exact Option.some.inj h ▸ hup
      · cases h
  · split at h
    · exact absurd (Option.some.inj h).symm hk
    · dsimp only at h
      split at h
      · exact port_up_of_mem_livePlanes (List.mem_of_getElem? h)
      · rw [Option.orElse_eq_or, Option.or_eq_some_iff] at h
        rcases h with hf | ⟨-, hh⟩
        · exact port_up_of_mem_livePlanes (List.mem_of_find?_eq_some hf)
        · exact port_up_of_mem_livePlanes (List.mem_of_head? hh)

/-! ### Packages that are lost -/

theorem foldl_keeps {α β : Type} (field : State → β) {f : State → α → State} (h : ∀ s x, field (f s x) = field s)
    (l : List α) (s : State) : field (l.foldl f s) = field s := by
  induction l generalizing s with
  | nil => rfl
  | cons x l ih => rw [List.foldl_cons, ih, h]

@[simp] theorem lostPkgs_writeNat (s : State) (mk k n v : Nat) : (s.writeNat mk k n v).lostPkgs = s.lostPkgs := by
  rw [State.writeNat, onlyMemory_writeBytes mk (leBytes n v) s k]

theorem lostPkgs_loseQp (s : State) (cl qp target : Nat) : (s.loseQp cl qp target).lostPkgs = s.lostPkgs := by
  unfold State.loseQp
  split
  · exact lostPkgs_writeNat ..
  · rw [lostPkgs_writeNat]
    exact foldl_keeps State.lostPkgs (fun s e => by simp [State.recordRefusal]) _ s

theorem lostPkgs_loseQps (s : State) (p : QpDesc → Bool) : (s.loseQps p).lostPkgs = s.lostPkgs :=
  foldl_keeps State.lostPkgs (fun _ _ => lostPkgs_loseQp ..) _ s

theorem mem_lostPkgs_losePkg (s : State) (pkg k : Nat) :
    k ∈ (s.losePkg pkg).lostPkgs ↔ k ∈ s.lostPkgs ∨ k = pkg := by
  unfold State.losePkg
  split
  · next h =>
    have hmem : pkg ∈ s.lostPkgs := List.contains_iff_mem.mp h
    exact ⟨.inl, fun hk => hk.elim id fun hk => hk ▸ hmem⟩
  · rw [lostPkgs_loseQps]
    simp

theorem mem_lostPkgs_foldl (l : List Nat) (s : State) (k : Nat) :
    k ∈ (l.foldl (fun s k => s.losePkg k) s).lostPkgs ↔ k ∈ s.lostPkgs ∨ k ∈ l := by
  induction l generalizing s with
  | nil => simp
  | cons x l ih => rw [List.foldl_cons, ih, mem_lostPkgs_losePkg, List.mem_cons, or_assoc]

/-! ### Flits and replays (R415) -/

/-- Only a port has changed, and what has left. -/
def OnlyPort (s t : State) (port : Nat) (q : Port) (os : List Out) : Prop :=
  t = { s with ports := t.ports, outbox := s.outbox ++ os } ∧ ∀ k, t.port k = if k = port then q else s.port k

theorem onlyPort_setPort (s : State) (port : Nat) (q : Port) (os : List Out) :
    OnlyPort s { s.setPort port q with outbox := s.outbox ++ os } port q os :=
  ⟨rfl, port_setPort s port q⟩

theorem onlyPort_setPort_nil (s : State) (port : Nat) (q : Port) : OnlyPort s (s.setPort port q) port q [] :=
  ⟨by rw [List.append_nil]; rfl, port_setPort s port q⟩

theorem onlyPort_setPort_setPort (s : State) (port : Nat) (p q : Port) (os : List Out) :
    OnlyPort s { (s.setPort port p).setPort port q with outbox := s.outbox ++ os } port q os := by
  refine ⟨rfl, fun k => ?_⟩
  change ((s.setPort port p).setPort port q).port k = _
  by_cases hk : k = port <;> simp [port_setPort, hk]

theorem exec_linkReplay_over {s : State} {port seq : Nat} (h : 16 ≤ (s.port port).replays) :
    exec (.linkReplay port seq) s = .next s := by
  simp [exec, execLinkReplay, h]

theorem exec_linkRetrain_early {s : State} {port : Nat} {ok : Bool} (h : (s.port port).replays < 16) :
    exec (.linkRetrain port ok) s = .next s := by
  simp [exec, execLinkRetrain, h]

section Up
variable {s : State} {port : Nat} (hup : s.portUp port = true)
include hup

theorem exec_flitReceive_bad {f : Flit} (h : f.crcOk = false) : exec (.flitReceive port f) s =
    .next { s with outbox := s.outbox ++ [.nak port (s.port port).expect] } := by
  simp [exec, execFlitReceive, hup, h]

theorem exec_flitReceive {f : Flit} (h : f.crcOk = true) : exec (.flitReceive port f) s =
    .next (let q := (s.port port).ack f.ack
      let b := s.setPort port q
      if f.seq = (s.port port).expect then
        { b.setPort port { q with expect := q.expect + 1 } with outbox := s.outbox ++ [.delivered port f.payload] }
      else if seqBefore f.seq ((s.port port).expect - 1) then b
      else { b with outbox := s.outbox ++ [.nak port (s.port port).expect] }) := by
  have hexpect : ((s.port port).ack f.ack).expect = (s.port port).expect := rfl
  simp only [exec, execFlitReceive, hup, h, Bool.not_true, Bool.false_eq_true, if_false, port_setPort_same, hexpect]
  split
  · rfl
  · split <;> rfl

theorem exec_linkReplay {seq : Nat} (h : (s.port port).replays < 16) : exec (.linkReplay port seq) s =
    .next { s.setPort port { s.port port with replays := (s.port port).replays + 1 } with
      outbox := s.outbox ++ ((s.port port).retry.filter fun g => seqBefore (BitVec.ofNat 12 seq) g.seq).map
        fun g => .flit port g } := by
  have h16 : ¬ 16 ≤ (s.port port).replays := by omega
  simp [exec, execLinkReplay, hup, h16, State.resend]

theorem exec_linkRetrain_up (h : 16 ≤ (s.port port).replays) : exec (.linkRetrain port true) s =
    .next { s.setPort port { s.port port with replays := 0 } with
      outbox := s.outbox ++ ((s.port port).retry.filter fun g =>
        seqBefore (((s.port port).retry.head?.map (·.seq)).getD (s.port port).nextSeq) g.seq).map
          fun g => .flit port g } := by
  have h16 : ¬ (s.port port).replays < 16 := by omega
  simp [exec, execLinkRetrain, hup, h16, State.resend]

theorem exec_portDown : exec (.portDown port) s = .next (s.dropPort port) := by
  simp [exec, execPortDown, hup]

theorem exec_linkRetrain_down (h : 16 ≤ (s.port port).replays) :
    exec (.linkRetrain port false) s = exec (.portDown port) s := by
  have h16 : ¬ (s.port port).replays < 16 := by omega
  rw [exec_portDown hup]
  simp [exec, execLinkRetrain, hup, h16]

end Up

/-! ### A port that goes down (R416) -/

theorem tabPut_tabPut {α : Type} (t : Tab α) (i : Nat) (v w : α) : tabPut (tabPut t i v) i w = tabPut t i w := by
  induction t with
  | nil => simp [tabPut]
  | cons x t ih =>
    obtain ⟨k, u⟩ := x
    rcases lt_trichotomy k i with h | h | h
    · simp [tabPut, h.ne, h.le.not_gt, ih]
    · simp [tabPut, h]
    · simp [tabPut, h.ne', h]

@[simp] theorem setPort_setPort (s : State) (p : Nat) (q r : Port) : (s.setPort p q).setPort p r = s.setPort p r := by
  simp [State.setPort, tabPut_tabPut]

/-- The port as it is once down, with nothing left to send again. -/
def deadPort (p : Port) : Port :=
  { p with up := false, retry := [], sent := [], asked := [], resent := [], replays := 0 }

/-- What it has to send again: what was not delivered, then the loads that are not answered. -/
def leftToSend (p : Port) : List (BitVec 12 × Out) :=
  (p.sent.filter fun x => !p.asked.contains x.2) ++ p.asked.map fun o => (p.nextSeq, o)

section Down
variable {s : State} {port : Nat} (hport : port < 18)
include hport

theorem dropPort_other_planes (hlive : (s.setPort port (deadPort (s.port port))).livePlanes ≠ []) :
    s.dropPort port = (s.setPort port { deadPort (s.port port) with sent := leftToSend (s.port port) }).reroute port
      (leftToSend (s.port port)).length := by
  have hhost : port ≠ hostPort := by unfold hostPort; omega
  have hne : (s.setPort port (deadPort (s.port port))).livePlanes.isEmpty = false := by
    rw [Bool.eq_false_iff, ne_eq, List.isEmpty_iff]
    exact hlive
  unfold State.dropPort
  rw [if_neg hhost]
  change (if (s.setPort port (deadPort (s.port port))).livePlanes.isEmpty = true then _
    else ((s.setPort port (deadPort (s.port port))).setPort port
      { deadPort (s.port port) with sent := leftToSend (s.port port) }).reroute port (leftToSend (s.port port)).length) = _
  rw [hne, setPort_setPort]
  rfl

theorem mem_lostPkgs_dropPort (hlive : (s.setPort port (deadPort (s.port port))).livePlanes = []) {k : Nat}
    (hk : k < 144) (hne : k ≠ s.pkg.toNat) : k ∈ (s.dropPort port).lostPkgs := by
  have hhost : port ≠ hostPort := by unfold hostPort; omega
  have hempty : (s.setPort port (deadPort (s.port port))).livePlanes.isEmpty = true := by rw [hlive]; rfl
  unfold State.dropPort
  rw [if_neg hhost]
  change k ∈ (if (s.setPort port (deadPort (s.port port))).livePlanes.isEmpty = true then
    ((List.range 144).filter fun k => k != s.pkg.toNat).foldl (fun s k => s.losePkg k)
      (s.setPort port (deadPort (s.port port))) else _).lostPkgs
  rw [hempty, if_pos rfl, mem_lostPkgs_foldl]
  exact .inr (List.mem_filter.mpr ⟨List.mem_range.mpr hk, by simpa using hne⟩)

end Down

section Reroute
variable {s : State} {port : Nat} {p : Port} {x : BitVec 12} {o : Out} {k : Nat}

/-- `o` goes by plane `k` once the port is down. -/
def GoesBy (b : State) (o : Out) (k : Nat) : Prop :=
  (∃ m, o = .message m ∧ b.portOf m = some k ∧ k ≠ 22) ∨
    ∃ i pkg addr n, o = .load i pkg addr n ∧ b.planeFor pkg addr = some k

theorem port_up_of_goesBy {b : State} (h : GoesBy b o k) : (b.port k).up = true := by
  rcases h with ⟨m, -, hport, hk⟩ | ⟨i, pkg, addr, n, -, hport⟩
  · exact port_up_of_portOf hport hk
  · exact port_up_of_planeFor hport

theorem goesBy_setPort (hup : p.up = false) (h : GoesBy (s.setPort port p) o k) {q : Port} (hq : q.up = false) :
    GoesBy (s.setPort port q) o k := by
  rw [← setPort_setPort s port p q]
  rcases h with ⟨m, ho, hport, hk⟩ | ⟨i, pkg, addr, n, ho, hport⟩
  · exact .inl ⟨m, ho, by rwa [portOf_setPort_setPort s port (hup.trans hq.symm)], hk⟩
  · exact .inr ⟨i, pkg, addr, n, ho, by rwa [planeFor_setPort_setPort s port (hup.trans hq.symm)]⟩

theorem ne_22_of_planeFor {b : State} {pkg addr : Nat} (h : b.planeFor pkg addr = some k) : k ≠ 22 := by
  have hmem : k ∈ b.livePlanes := List.mem_of_getElem? h
  have hlt : k < 18 := List.mem_range.mp (List.mem_filter.mp hmem).1
  omega

theorem sendAgain_of_goesBy {b : State} (h : GoesBy b o k) :
    b.sendAgain o = if (b.port k).retry.length + 17 ≤ 1024 then
      some ((b.transmit k o).setPort k { (b.transmit k o).port k with
        resent := ((b.transmit k o).port k).resent ++ [o] }) else none := by
  rcases h with ⟨m, rfl, hport, hk⟩ | ⟨i, pkg, addr, n, rfl, hport⟩
  · simp [State.sendAgain, hport, hk]
  · simp [State.sendAgain, hport, ne_22_of_planeFor hport]

/-- One thing to send again: it waits with the port while its plane has no room, and leaves by it otherwise. -/
theorem reroute_one (hup : p.up = false) (h : GoesBy (s.setPort port p) o k) :
    (s.setPort port { p with sent := [(x, o)] }).reroute port 1 =
      let z := s.setPort port { p with sent := [] }
      if (s.port k).retry.length + 17 ≤ 1024 then
        (z.transmit k o).setPort k { (z.transmit k o).port k with
          resent := ((z.transmit k o).port k).resent ++ [o] }
      else s.setPort port { p with sent := [(x, o)] } := by
  have hz : GoesBy (s.setPort port { p with sent := [] }) o k := goesBy_setPort hup h hup
  have hk : k ≠ port := fun hk => by
    have hkup := port_up_of_goesBy hz
    rw [hk, port_setPort_same] at hkup
    exact absurd (hup.symm.trans hkup) (by decide)
  have hroom : ((s.setPort port { p with sent := [] }).port k).retry = (s.port k).retry := by
    rw [port_setPort_other _ _ hk]
  rw [State.reroute, port_setPort_same]
  simp only [setPort_setPort, sendAgain_of_goesBy hz, hroom]
  by_cases hr : (s.port k).retry.length + 17 ≤ 1024
  · simp only [if_pos hr]
    rfl
  · simp only [if_neg hr]

theorem reroute_one_sent (hup : p.up = false) (h : GoesBy (s.setPort port p) o k)
    (hroom : (s.port k).retry.length + 17 ≤ 1024) : ∃ t : State,
      (s.setPort port { p with sent := [(x, o)] }).reroute port 1 = t ∧
      t = { s with ports := t.ports, outbox := s.outbox ++ [o] } ∧ t.port port = { p with sent := [] } ∧
      (t.port k).sent.map (·.2) = (s.port k).sent.map (·.2) ++ [o] ∧ (t.port k).resent = (s.port k).resent ++ [o] := by
  have hk : k ≠ port := fun hk => by
    have hkup := port_up_of_goesBy h
    rw [hk, port_setPort_same] at hkup
    exact absurd (hup.symm.trans hkup) (by decide)
  have hport : (s.setPort port { p with sent := [] }).port k = s.port k := port_setPort_other _ _ hk
  refine ⟨_, (reroute_one hup h).trans (if_pos hroom), rfl, ?_, ?_, ?_⟩
  · rw [port_setPort_other _ _ hk.symm, port_transmit o hk.symm, port_setPort_same]
  · rw [port_setPort_same]
    simp only [State.port, State.transmit, tabGet_tabPut, if_true, List.map_append]
    rw [show tabGet portReset (s.setPort port { p with sent := [] }).ports k = s.port k from hport]
    rfl
  · rw [port_setPort_same]
    simp only [State.port, State.transmit, tabGet_tabPut, if_true]
    rw [show tabGet portReset (s.setPort port { p with sent := [] }).ports k = s.port k from hport]
    rfl

end Reroute

theorem any_acked (p : Port) (a : BitVec 12) :
    (fun o => p.sent.any fun x => !seqBefore x.1 a && x.2 == o) =
      fun o => (p.sent.filter fun x => !seqBefore x.1 a).any fun x => x.2 == o := by
  funext o
  rw [List.any_filter]

/-- Settles O60: a port that is up takes the flits in order, and what it loses goes by another plane. -/
theorem links : Obligations.links := by
  unfold Obligations.links
  intro s port hup
  have honly : ∀ {i : Instr} {t : State} {q : Port} {os : List Out}, exec i s = .next t → OnlyPort s t port q os →
      ∃ t : State, exec i s = .next t ∧ t = { s with ports := t.ports, outbox := s.outbox ++ os } ∧
        ∀ k, t.port k = if k = port then q else s.port k := fun h ho => ⟨_, h, ho.1, ho.2⟩
  refine ⟨fun f hf => exec_flitReceive_bad hup hf, fun f hf => ⟨fun hseq => ?_, fun hseq hold => ?_, fun hseq hnew => ?_⟩,
    fun seq hr => honly (exec_linkReplay hup hr) (onlyPort_setPort ..), fun seq hr => exec_linkReplay_over hr,
    fun hr ok => exec_linkRetrain_early hr, fun hr => honly (exec_linkRetrain_up hup hr) (onlyPort_setPort ..),
    fun hr => exec_linkRetrain_down hup hr, fun h24 => ?_, fun hport => ⟨fun hlive => ⟨?_, ?_⟩, fun hnone => ?_⟩⟩
  · refine honly (exec_flitReceive hup hf) ?_
    rw [if_pos hseq, any_acked]
    exact onlyPort_setPort_setPort s port ((s.port port).ack f.ack) _ _
  · refine honly (exec_flitReceive hup hf) ?_
    rw [if_neg hseq, if_pos hold, any_acked]
    exact onlyPort_setPort_nil s port ((s.port port).ack f.ack)
  · refine honly (exec_flitReceive hup hf) ?_
    rw [if_neg hseq, if_neg (Bool.eq_false_iff.mp hnew), any_acked]
    exact onlyPort_setPort s port ((s.port port).ack f.ack) _
  · subst h24
    rw [exec_portDown hup]
    rfl
  · rw [exec_portDown hup, dropPort_other_planes hport hlive]
    rfl
  · intro x o k hone hgoes
    have hdrop : exec (.portDown port) s = .next ((s.setPort port { deadPort (s.port port) with sent := [(x, o)] }).reroute
        port 1) := by
      rw [exec_portDown hup, dropPort_other_planes hport hlive, show leftToSend (s.port port) = [(x, o)] from hone]
      rfl
    have hby : GoesBy (s.setPort port (deadPort (s.port port))) o k := hgoes
    refine ⟨fun hfull => ?_, fun hroom => ?_⟩
    · rw [hdrop, reroute_one rfl hby, if_neg (by omega), show _ ++ _ = [(x, o)] from hone]
      rfl
    · obtain ⟨t, ht, hframe, hdead, hsent, hresent⟩ := reroute_one_sent (x := x) rfl hby hroom
      exact ⟨t, by rw [hdrop, ht], hframe, hdead, hsent, hresent⟩
  · rw [exec_portDown hup]
    exact ⟨_, rfl, fun k hk hne => mem_lostPkgs_dropPort hport hnone hk hne⟩

end Sys2Proof.Proofs

/-! The host's accesses through its base address registers, and its doorbells (R409 to R412). -/

namespace Sys2Proof.Proofs

open Sys2Proof.Machine Sys2Proof.Laws

/-! ### BAR0 (R410) -/

theorem leBytes_eq_map (n v : Nat) : leBytes n v = (List.range n).map fun i => BitVec.ofNat 8 (v / 2 ^ (8 * i)) := by
  induction n generalizing v with
  | zero => rfl
  | succ n ih =>
    rw [leBytes, ih, List.range_succ_eq_map, List.map_cons, List.map_map]
    congr 1
    · simp
    · refine List.map_congr_left fun i _ => ?_
      rw [Function.comp_apply, Nat.div_div_eq_div_mul, show 8 * (i + 1) = 8 + 8 * i by omega, Nat.pow_add]

theorem writeAdapter_above (bs : List (BitVec 8)) (s : State) {off : Nat} (h : 16 ≤ off) : s.writeAdapter off bs = s := by
  induction bs generalizing off with
  | nil => rfl
  | cons b bs ih =>
    rw [State.writeAdapter, if_neg (by omega), if_neg (by omega)]
    exact ih (by omega)

/-- The eight bytes at a multiple of 8 are those of its register. -/
theorem adapterBytes_eq (s : State) (i : Nat) :
    ((List.range 8).map fun j => s.adapterByte (8 * i + j)) = leBytes 8 (s.adapterReg (8 * i)).toNat := by
  rw [leBytes_eq_map]
  refine List.map_congr_left fun j hj => ?_
  have hlt : j < 8 := List.mem_range.mp hj
  unfold State.adapterByte
  rw [show (8 * i + j) / 8 * 8 = 8 * i by omega, show (8 * i + j) % 8 = j by omega]

/-! ### BAR2 (R412) -/

/-- The bytes that a write of BAR2 stages in a window's record. -/
theorem staged_stage (bs : List (BitVec 8)) (s : State) {w off : Nat} (h : off + bs.length ≤ 256) :
    (∃ l, s.stage (w * 4096 + off) bs = { s with staged := l }) ∧ ∀ v i, i < 256 →
      tabGet 0 (s.stage (w * 4096 + off) bs).staged (v * 256 + i) =
        if v = w ∧ off ≤ i ∧ i < off + bs.length then bs.getD (i - off) 0 else tabGet 0 s.staged (v * 256 + i) := by
  induction bs generalizing s off with
  | nil => exact ⟨⟨s.staged, rfl⟩, fun v i hi => by rw [if_neg (by rintro ⟨-, h1, h2⟩; simp at h2; omega)]; rfl⟩
  | cons b bs ih =>
    rw [List.length_cons] at h
    have hstep : s.stage (w * 4096 + off) (b :: bs) =
        State.stage { s with staged := tabSet 0 s.staged (w * 256 + off) b } (w * 4096 + (off + 1)) bs := by
      rw [State.stage, if_pos (by omega), show (w * 4096 + off) / 4096 = w by omega,
        show (w * 4096 + off) % 4096 = off by omega, Nat.add_assoc]
    obtain ⟨⟨l, hl⟩, hget⟩ := ih { s with staged := tabSet 0 s.staged (w * 256 + off) b } (off := off + 1) (by omega)
    refine ⟨⟨l, by rw [hstep, hl]⟩, fun v i hi => ?_⟩
    rw [hstep, hget v i hi, tabGet_tabSet, List.length_cons]
    by_cases hfirst : v = w ∧ i = off
    · obtain ⟨rfl, rfl⟩ := hfirst
      rw [if_neg (by omega), if_pos rfl, if_pos (by omega), Nat.sub_self]
      rfl
    · rw [if_neg (show ¬ v * 256 + i = w * 256 + off by omega)]
      by_cases hin : v = w ∧ off + 1 ≤ i ∧ i < off + 1 + bs.length
      · rw [if_pos hin, if_pos (by omega), show i - off = i - (off + 1) + 1 by omega, List.getD_cons_succ]
      · rw [if_neg hin, if_neg (by omega)]

/-- The status word of a window as BAR2 shows it. -/
theorem windowBytes_status (s : State) (w : Nat) :
    ((List.range 8).map fun i => s.windowByte (w * 4096 + 0x108 + i)) = leBytes 8 (tabGet 0 s.winStatus w).toNat := by
  rw [leBytes_eq_map]
  refine List.map_congr_left fun i hi => ?_
  have hlt : i < 8 := List.mem_range.mp hi
  unfold State.windowByte
  rw [show (w * 4096 + 0x108 + i) % 4096 = 0x108 + i by omega, show (w * 4096 + 0x108 + i) / 4096 = w by omega]
  dsimp only
  rw [if_neg (by omega), if_pos (by omega), Nat.add_sub_cancel_left]

theorem writeWindow_record (s : State) {w off : Nat} {bs : List (BitVec 8)} (h : off + bs.length ≤ 256) :
    s.writeWindow (w * 4096 + off) bs = s.stage (w * 4096 + off) bs := by
  unfold State.writeWindow
  split
  · have hoff : off = 256 := by omega
    have hnil : bs = [] := List.eq_nil_of_length_eq_zero (by omega)
    subst hnil
    rfl
  · rfl

/-! ### Doorbells (R412) -/

/-- A record handed over changes memory and its context at most. -/
theorem winStatus_acceptLaunch (s : State) (w : Who) (ctx : Nat) (bs : List (BitVec 8)) :
    (s.acceptLaunch w ctx bs none).2.winStatus = s.winStatus := by
  by_cases hlive : s.ctxState ctx = 1
  · by_cases hlost : (s.die (s.homeDie ctx)).lost = true
    · rw [acceptLaunch_lost hlive hlost]
    · rw [Bool.not_eq_true] at hlost
      cases hreason : s.recordReason w ctx bs with
      | error c => rw [acceptLaunch_error hlive hlost hreason]
      | ok g =>
        by_cases hroom : (s.launchRing ctx (recF bs 0x1E 1 % 4)).used < (s.launchRing ctx (recF bs 0x1E 1 % 4)).size
        · rw [acceptLaunch_room hlive hlost hreason hroom]
          exact congrArg (·.winStatus) (onlyMemory_ringPut s (s.launchRing ctx (recF bs 0x1E 1 % 4)) bs)
        · rw [acceptLaunch_full hlive hlost hreason (not_lt.mp hroom)]
  · rw [acceptLaunch_not_live hlive]

/-- The sequence number and the code of a status word. -/
theorem winWord_fields (v code : Nat) :
    (winWord v code).toNat % 2 ^ 32 = v % 2 ^ 32 ∧ (winWord v code).toNat / 2 ^ 32 % 256 = code % 256 := by
  have h : (winWord v code).toNat = v % 2 ^ 32 + code % 256 * 2 ^ 32 := by
    unfold winWord w64
    rw [BitVec.toNat_ofNat]
    exact Nat.mod_eq_of_lt (by omega)
  rw [h]
  omega

/-- The state after a doorbell: the status word says what became of the staged record, and bit 32 asks for an
interrupt. -/
def rung (s : State) (w value : Nat) : State :=
  let r := s.acceptLaunch (s.fabricWho w) w (s.stagedBytes w) none
  { r.2 with
    winStatus := tabSet 0 r.2.winStatus w (winWord value r.1)
    outbox := r.2.outbox ++ if value.testBit 32 then [.msix (w % 2047)] else [] }

theorem tabGet_winStatus_rung (s : State) (w value x : Nat) : tabGet 0 (rung s w value).winStatus x =
    if x = w then winWord value (s.acceptLaunch (s.fabricWho w) w (s.stagedBytes w) none).1
    else tabGet 0 s.winStatus x := by
  unfold rung
  dsimp only
  rw [tabGet_tabSet, winStatus_acceptLaunch]

theorem exec_hostDoorbell {s : State} (hup : s.linkUp = true) {w value : Nat} (hw : w < 4096) (hv : value < 2 ^ 33) :
    exec (.hostDoorbell w value) s = .next (rung s w value) := by
  change Host.Outcome.next (s.doorbell (w % 4096) value) = _
  rw [Nat.mod_eq_of_lt hw, State.doorbell, if_neg (by simp [hup]; omega), rung]
  dsimp only
  by_cases hbit : value.testBit 32 = true
  · rw [if_pos hbit, if_pos hbit]
  · rw [if_neg hbit, if_neg hbit, List.append_nil]

/-! ### Accesses -/

section Up
variable {s : State} (hup : s.linkUp = true)
include hup

theorem exec_aperture_read0 {i : Nat} (h : 8 * i + 8 ≤ 65536) : exec (.apertureAccess ⟨0, false, 8 * i, 8, []⟩) s =
    .next { s with outbox := s.outbox ++ [.hostRead (some (leBytes 8 (s.adapterReg (8 * i)).toNat))] } := by
  change execApertureAccess ⟨0, false, 8 * i, 8, []⟩ s = _
  unfold execApertureAccess
  rw [if_neg (by simp [hup])]
  refine (if_neg (show ¬ 65536 < 8 * i + 8 by omega)).trans ?_
  rw [← adapterBytes_eq]
  rfl

theorem exec_aperture_write0 {off : Nat} {bs : List (BitVec 8)} (h : 16 ≤ off) (hend : off + bs.length ≤ 65536) :
    exec (.apertureAccess ⟨0, true, off, bs.length, bs⟩) s = .next s := by
  change execApertureAccess ⟨0, true, off, bs.length, bs⟩ s = _
  unfold execApertureAccess
  rw [if_neg (by simp [hup])]
  exact (if_neg (show ¬ 65536 < off + bs.length by omega)).trans (congrArg _ (writeAdapter_above bs s h))

theorem exec_aperture_status {w : Nat} (h : w < 4096) :
    exec (.apertureAccess ⟨2, false, w * 4096 + 0x108, 8, []⟩) s =
      .next { s with outbox := s.outbox ++ [.hostRead (some (leBytes 8 (tabGet 0 s.winStatus w).toNat))] } := by
  change execApertureAccess ⟨2, false, w * 4096 + 0x108, 8, []⟩ s = _
  unfold execApertureAccess
  rw [if_neg (by simp [hup])]
  refine (if_neg (show ¬ 2 ^ 24 < w * 4096 + 0x108 + 8 by omega)).trans ?_
  rw [← windowBytes_status]
  rfl

theorem exec_aperture_stage {w off : Nat} {bs : List (BitVec 8)} (hw : w < 4096) (h : off + bs.length ≤ 256) :
    exec (.apertureAccess ⟨2, true, w * 4096 + off, bs.length, bs⟩) s = .next (s.stage (w * 4096 + off) bs) := by
  change execApertureAccess ⟨2, true, w * 4096 + off, bs.length, bs⟩ s = _
  unfold execApertureAccess
  rw [if_neg (by simp [hup])]
  exact (if_neg (show ¬ 2 ^ 24 < w * 4096 + off + bs.length by omega)).trans (congrArg _ (writeWindow_record s h))

theorem exec_aperture_bar4 {off len : Nat} {write : Bool} {data : List (BitVec 8)} (h : off + len ≤ 2 ^ 32)
    (hdata : write = true → data.length = len) :
    exec (.apertureAccess ⟨4, write, off, len, data⟩) s = .next (s.aperture ⟨4, write, off, len, data⟩) := by
  change execApertureAccess ⟨4, write, off, len, data⟩ s = _
  unfold execApertureAccess
  rw [if_neg (by simp [hup])]
  have hlen : (if write = true then data.length else len) = len := by
    split_ifs with hw
    · exact hdata hw
    · rfl
  exact if_neg (show ¬ 2 ^ 32 < off + (if write = true then data.length else len) by omega)

end Up

/-- BAR4 by the spans that R411 permits. -/
theorem aperture_eq (s : State) {off len : Nat} {write : Bool} {data : List (BitVec 8)}
    (hdata : write = true → data.length = len) :
    s.aperture ⟨4, write, off, len, data⟩ =
      match s.apertureSpans (s.apctl.toNat / 2 ^ 32 * 2 ^ 32 + off) len write with
      | none => { s with
          aperr := s.aperr + 1
          outbox := if write then s.outbox else s.outbox ++ [.hostRead none] }
      | some us => if write then s.putUnits us data
          else { s with outbox := s.outbox ++ [.hostRead (some (s.readSpans us))] } := by
  have hlen : (if write = true then data.length else len) = len := by
    split_ifs with hw
    · exact hdata hw
    · rfl
  unfold State.aperture
  dsimp only
  rw [hlen]
  cases s.apertureSpans (s.apctl.toNat / 2 ^ 32 * 2 ^ 32 + off) len write with
  | none => cases write <;> rfl
  | some us => rfl

/-- MODE 1 reaches no context that neither runs nor halts (log 70). -/
theorem apertureSpans_not_live {s : State} (hmode : s.apctl.toNat % 4 = 1)
    (h1 : s.ctxState (s.apctl.toNat / 16 % 4096) ≠ 1) (h2 : s.ctxState (s.apctl.toNat / 16 % 4096) ≠ 2)
    (va len : Nat) (w : Bool) : s.apertureSpans va len w = none := by
  have hlt : s.ctxState (s.apctl.toNat / 16 % 4096) < 4 := Nat.mod_lt _ (by decide)
  unfold State.apertureSpans
  rw [hmode]
  exact if_pos (by omega)

theorem apertureSpans_reserved {s : State} (hmode : 2 ≤ s.apctl.toNat % 4) (va len : Nat) (w : Bool) :
    s.apertureSpans va len w = none := by
  have h : s.apctl.toNat % 4 = 2 ∨ s.apctl.toNat % 4 = 3 := by omega
  unfold State.apertureSpans
  rcases h with h | h
  · rw [h]
    rfl
  · rw [h]
    rfl

/-- With the link down nothing reaches the package. -/
theorem exec_host_linkDown {s : State} (h : s.linkUp = false) :
    (∀ acc : ApertureAcc, exec (.apertureAccess acc) s = .next s) ∧ ∀ w value, exec (.hostDoorbell w value) s = .next s :=
  ⟨fun acc => show execApertureAccess acc s = .next s by rw [execApertureAccess, if_pos (by simp [h])],
    fun w value => congrArg Host.Outcome.next (show s.doorbell (w % 4096) value = s by rw [State.doorbell, if_pos (by simp [h])])⟩

/-- Settles O41, bar by bar. -/
theorem hostAccess : Obligations.hostAccess := by
  refine ⟨fun s => exec_host_linkDown, fun s hup => ⟨?_, fun off bs => exec_aperture_write0 hup,
    fun w => exec_aperture_status hup, ?_, ?_, fun hmode va len w h1 h2 => apertureSpans_not_live hmode h1 h2 va len w,
    fun hmode va len w => apertureSpans_reserved hmode va len w, ?_⟩⟩
  · rintro off v (⟨rfl, rfl⟩ | ⟨rfl, rfl⟩ | ⟨rfl, rfl⟩ | ⟨rfl, rfl⟩)
    · exact exec_aperture_read0 (i := 0) hup (by decide)
    · exact exec_aperture_read0 (i := 1) hup (by decide)
    · exact exec_aperture_read0 (i := 2) hup (by decide)
    · exact exec_aperture_read0 (i := 3) hup (by decide)
  · intro w off bs hw h
    obtain ⟨⟨l, hl⟩, hget⟩ := staged_stage bs s (w := w) h
    exact ⟨_, exec_aperture_stage hup hw h, by rw [hl], hget⟩
  · intro off len write data h hdata
    have hexec := exec_aperture_bar4 hup h hdata
    rw [aperture_eq s hdata] at hexec
    refine ⟨fun hsp => ?_, fun us hsp hw => ?_, fun us hsp hw => ?_⟩
    · rw [hexec, hsp]
    · exact hexec.trans (by rw [hsp, hw]; rfl)
    · exact hexec.trans (by rw [hsp, hw]; rfl)
  · intro w value hw hv
    have hget := tabGet_winStatus_rung s w value
    have hfields := winWord_fields value (s.acceptLaunch (s.fabricWho w) w (s.stagedBytes w) none).1
    refine ⟨_, exec_hostDoorbell hup hw hv, ?_, ?_, fun x hx => by rw [hget, if_neg hx], rfl⟩
    · rw [hget, if_pos rfl, hfields.1]
    · rw [hget, if_pos rfl, hfields.2]

end Sys2Proof.Proofs

/-! Bring-up of a die, loss of power and the throttle (R405, R420 to R422). -/

namespace Sys2Proof.Proofs

open Sys2Proof.Machine Sys2Proof.Laws

/-! ### The cores' self-test (R420) -/

/-- One core of a die reset, with the verdict of its self-test. -/
def testCore (die : Nat) (bad : List Nat) (s : State) (i : Nat) : State :=
  let s := s.setCore (die * 128 + i) { coreReset with usable := !bad.contains i }
  if bad.contains i then s.logCheck 0xE0 die (die * 128 + i) 0 0 else s

/-- The first cores of a die tested. -/
def tested (s : State) (die : Nat) (bad : List Nat) (n : Nat) : State := (List.range n).foldl (testCore die bad) s

theorem testCore_eq (die : Nat) (bad : List Nat) (s : State) (i : Nat) : testCore die bad s i =
    { s with cores := tabPut s.cores (die * 128 + i) { coreReset with usable := !bad.contains i }
             mclog := (testCore die bad s i).mclog, mcNext := (testCore die bad s i).mcNext
             outbox := (testCore die bad s i).outbox } := by
  unfold testCore
  dsimp only
  split_ifs
  · rw [logCheck_eq]
    rfl
  · rfl

section Tested
variable (s : State) (die : Nat) (bad : List Nat)

theorem tested_succ (n : Nat) : tested s die bad (n + 1) = testCore die bad (tested s die bad n) n := by
  rw [tested, List.range_succ, List.foldl_append]
  rfl

theorem tested_eq (n : Nat) : tested s die bad n =
    { s with cores := (tested s die bad n).cores, mclog := (tested s die bad n).mclog
             mcNext := (tested s die bad n).mcNext, outbox := (tested s die bad n).outbox } := by
  induction n with
  | zero => rfl
  | succ n ih => rw [tested_succ, testCore_eq, ih]

theorem core_tested (n c : Nat) : (tested s die bad n).core c =
    if die * 128 ≤ c ∧ c < die * 128 + n then { coreReset with usable := !bad.contains (c - die * 128) }
    else s.core c := by
  induction n with
  | zero =>
    rw [if_neg (by omega)]
    rfl
  | succ n ih =>
    have hcore : (testCore die bad (tested s die bad n) n).core c =
        ((tested s die bad n).setCore (die * 128 + n) { coreReset with usable := !bad.contains n }).core c := by
      rw [testCore_eq]
      rfl
    rw [tested_succ, hcore, core_setCore, ih]
    by_cases hc : c = die * 128 + n
    · rw [if_pos hc, if_pos (by omega), hc, Nat.add_sub_cancel_left]
    · rw [if_neg hc]
      exact if_congr (by omega) rfl rfl

theorem mclog_tested_nil (n : Nat) : (tested s die [] n).mclog = s.mclog := by
  induction n with
  | zero => rfl
  | succ n ih =>
    rw [tested_succ]
    exact ih

/-- The log after the one core that fails its test has been passed holds its record last. -/
theorem lastCheck_tested_one {i n : Nat} (h : i < n) : ∃ q, (tested s die [i] n).lastCheck = some q ∧ q.code = 0xE0 ∧
    q.die = die ∧ q.core = die * 128 + i := by
  induction n with
  | zero => omega
  | succ n ih =>
    rw [tested_succ]
    by_cases hn : n = i
    · have hlog : testCore die [i] (tested s die [i] n) n =
          ((tested s die [i] n).setCore (die * 128 + n) { coreReset with usable := !([i].contains n) }).logCheck
            0xE0 die (die * 128 + n) 0 0 := if_pos (by simp [hn])
      rw [hlog, lastCheck_logCheck]
      exact ⟨_, rfl, rfl, rfl, by rw [hn]⟩
    · have hskip : testCore die [i] (tested s die [i] n) n =
          (tested s die [i] n).setCore (die * 128 + n) { coreReset with usable := !([i].contains n) } :=
        if_neg (by simp [hn])
      rw [hskip]
      exact ih (by omega)

end Tested

/-! ### Communication masters (R421) -/

/-- The lowest usable core of a cluster, as its master. -/
def masterOf (s : State) (cl : Nat) : Option Nat :=
  ((List.range 8).find? fun c => (s.core (cl * 8 + c)).usable).map fun c => cl * 8 + c

/-- The first clusters of a die with their masters. -/
def appointed (s : State) (die n : Nat) : State :=
  (List.range n).foldl (fun s i => s.setCluster (die * 16 + i) { clusterReset with master := masterOf s (die * 16 + i) }) s

section Appointed
variable (s : State) (die : Nat)

theorem appointed_succ (n : Nat) : appointed s die (n + 1) = (appointed s die n).setCluster (die * 16 + n)
    { clusterReset with master := masterOf (appointed s die n) (die * 16 + n) } := by
  rw [appointed, List.range_succ, List.foldl_append]
  rfl

theorem appointed_eq (n : Nat) : appointed s die n = { s with clusters := (appointed s die n).clusters } := by
  induction n with
  | zero => rfl
  | succ n ih => rw [appointed_succ, State.setCluster, ih]

theorem master_appointed {i n : Nat} (h : i < n) :
    ((appointed s die n).cluster (die * 16 + i)).master = masterOf s (die * 16 + i) := by
  induction n with
  | zero => omega
  | succ n ih =>
    rw [appointed_succ, cluster_setCluster]
    by_cases hn : i = n
    · rw [if_pos (by rw [hn]), appointed_eq, hn]
      rfl
    · rw [if_neg (by omega), ih (by omega)]

end Appointed

/-! ### The ports that train (R414, R420) -/

/-- A port whose link has trained. -/
def upPort : Port := { portReset with up := true }

theorem tabGet_trained (l : List (Nat × Nat)) (t : Tab Port) (p : Nat) :
    tabGet portReset (l.foldl (fun t x => tabPut t x.1 upPort) t) p =
      if ∃ x ∈ l, x.1 = p then upPort else tabGet portReset t p := by
  induction l generalizing t with
  | nil => simp
  | cons x l ih =>
    rw [List.foldl_cons, ih, tabGet_tabPut]
    by_cases hl : ∃ y ∈ l, y.1 = p
    · obtain ⟨y, hy, hyp⟩ := hl
      rw [if_pos ⟨y, hy, hyp⟩, if_pos ⟨y, List.mem_cons_of_mem x hy, hyp⟩]
    · rw [if_neg hl]
      refine if_congr ⟨fun h => ⟨x, List.mem_cons_self, h.symm⟩, ?_⟩ rfl rfl
      rintro ⟨y, hy, hyp⟩
      rcases List.mem_cons.mp hy with rfl | hy
      · exact hyp.symm
      · exact absurd ⟨y, hy, hyp⟩ hl

theorem trains_iff (s : State) (die pkg : Nat) (x : Nat × Nat) : s.trains die pkg x = true ↔
    (s.port x.1).up = false ∧ (s.port x.1).sent = [] ∧ ((x.1 < 18 ∧ x.2 = pkg) ∨ x.1 = 18 + die) := by
  have hport : s.port x.1 = tabGet portReset s.ports x.1 := rfl
  simp only [State.trains, ← hport, Bool.and_eq_true, Bool.not_eq_true', List.isEmpty_iff, and_assoc]
  refine and_congr_right fun _ => and_congr_right fun _ => ?_
  split_ifs with h
  · simp only [beq_iff_eq]
    omega
  · simp only [beq_iff_eq]
    omega

/-! ### The firmware (R420) -/

theorem onlyMemory_loadBytes (die : Nat) (l : List (Nat × BitVec 8)) (s : State) : OnlyMemory s (s.loadBytes die l) := by
  induction l generalizing s with
  | nil => exact .refl s
  | cons x l ih =>
    obtain ⟨k, b⟩ := x
    rw [State.loadBytes]
    split_ifs
    · exact (onlyMemory_agentWrite ..).trans (ih _)
    · exact ih s

theorem admitFirmware_eq (s : State) (die : Nat) (bu : Bringup) : s.admitFirmware die bu =
    { s with sections := (s.admitFirmware die bu).sections, nextId := (s.admitFirmware die bu).nextId } := by
  unfold State.admitFirmware
  dsimp only
  split_ifs
  · rfl
  · split <;> rfl

/-- A ready record added to a team stands behind its others. -/
theorem tabFind_addRec_ready (s : State) {u : Nat} {m : Team} {r : Rec} (hm : tabFind s.teams u = some m)
    (hr : r.state = 1) : ∃ q : Rec, q.pc = r.pc ∧ tabFind (s.addRec u r).teams u =
      some { m with recs := m.recs ++ [q], ready := m.ready ++ [q.id] } := by
  refine ⟨{ r with places := s.poolPlaces (m.core.getD 512) m.ctx r.units }, rfl, ?_⟩
  unfold State.addRec
  simp only [hm]
  rw [onlyMemory_showRec, onlyMemory_fillRec, if_pos hr]
  exact (tabFind_tabPut ..).trans (if_pos rfl)

theorem handlerCore_lt (bad : List Nat) : handlerCore bad < 128 := by
  unfold handlerCore
  cases h : (List.range 128).find? fun i => !bad.contains i with
  | none => decide
  | some i => exact List.mem_range.mp (List.mem_of_find?_eq_some h)

section BringUp
variable (s : State) (die : Nat) (bu : Bringup)

/-- A die that is up after reset. -/
def dieUp : Die := { dieReset with up := true, fwmeas := Config.firmwareMeas die }

/-- The die up, its cores tested. -/
def coresUp : State := tested ((s.setDie die dieReset).setDie die (dieUp die)) die bu.badCores 128

/-- Its masters appointed and its links trained. -/
def linksUp : State := { appointed (coresUp s die bu) die 16 with
  ports := (bu.ports.filter (s.trains die bu.pkg)).foldl (fun t p => tabPut t p.1 upPort) s.ports
  pkg := BitVec.ofNat 8 bu.pkg }

/-- Its firmware in place. -/
def firmwareIn : State := ((linksUp s die bu).loadBytes die bu.load).admitFirmware die bu

/-- The state of a package whose die has come up. -/
def broughtUp : State :=
  let s := (firmwareIn s die bu).startFirmware die bu
  let s := { s with qdone := s.newQdone }
  if die = 0 then { s with linkUp := decide (0 < bu.lanes), lanes := BitVec.ofNat 4 (min bu.lanes 8) } else s

theorem coresUp_eq : coresUp s die bu =
    { s with dies := tabPut (tabPut s.dies die dieReset) die (dieUp die), cores := (coresUp s die bu).cores
             mclog := (coresUp s die bu).mclog, mcNext := (coresUp s die bu).mcNext
             outbox := (coresUp s die bu).outbox } := tested_eq ..

theorem bringUp_eq : (s.setDie die dieReset).bringUp die bu = broughtUp s die bu := by
  have hdie : (s.setDie die dieReset).modDie die (fun d => { d with up := true, fwmeas := Config.firmwareMeas die }) =
      (s.setDie die dieReset).setDie die (dieUp die) := by
    rw [modDie_def, die_setDie, if_pos rfl]
    rfl
  have hports : (appointed (coresUp s die bu) die 16).ports = s.ports := by rw [appointed_eq, coresUp_eq]
  have htrains : (appointed (coresUp s die bu) die 16).trains die bu.pkg = s.trains die bu.pkg := by
    funext x
    unfold State.trains
    rw [hports]
  have hcores : State.appoint (((s.setDie die dieReset).modDie die fun d =>
      { d with up := true, fwmeas := Config.firmwareMeas die }).testCores die bu.badCores) die =
      appointed (coresUp s die bu) die 16 := by
    rw [hdie]
    rfl
  unfold State.bringUp
  dsimp only
  rw [hcores, htrains, hports]
  rfl

/-- What has changed when the firmware is in place. -/
theorem firmwareIn_eq : firmwareIn s die bu =
    { linksUp s die bu with
      mem := (firmwareIn s die bu).mem, tags := (firmwareIn s die bu).tags
      sections := (firmwareIn s die bu).sections, nextId := (firmwareIn s die bu).nextId } := by
  unfold firmwareIn
  rw [admitFirmware_eq, onlyMemory_loadBytes die bu.load (linksUp s die bu)]

theorem linksUp_eq : linksUp s die bu =
    { coresUp s die bu with clusters := (appointed (coresUp s die bu) die 16).clusters
                            ports := (linksUp s die bu).ports, pkg := (linksUp s die bu).pkg } := by
  unfold linksUp
  rw [appointed_eq]

/-- C0x000's team as it comes to its core. -/
def bareTeam (die : Nat) (bu : Bringup) : Team :=
  { teamStart 0 0 0 (die * 128 + handlerCore bu.badCores) 0 0 0 0 [] [] with ready := [] }

/-- The record of the firmware's first task. -/
def firstRec (id : Nat) (pc : W64) : Rec :=
  { id := id, pc := pc, live := 0x3E, regs := [], kind := 5, state := 1, obj := 0, arg := 0, deadline := 0
    status := 0, scope := 0, units := 2, places := [], seq := none, deps := [], since := 0 }

/-- The state that the firmware's first task starts in. -/
def teamUp (s : State) (die : Nat) (bu : Bringup) : State :=
  ({ (firmwareIn s die bu).setTeam (sysTeam die) (bareTeam die bu) with
    ctxbase := bu.ctxbase } : State).setDie die { dieUp die with hcore := BitVec.ofNat 7 (handlerCore bu.badCores) }

theorem die_firmwareIn (d : Nat) : (firmwareIn s die bu).die d = if d = die then dieUp die else s.die d := by
  rw [firmwareIn_eq, linksUp_eq, coresUp_eq]
  change tabGet dieReset (tabPut (tabPut s.dies die dieReset) die (dieUp die)) d = _
  rw [tabGet_tabPut, tabGet_tabPut]
  split_ifs <;> rfl

/-- The die once C0x000's task stands on it. -/
def dieStarted (s : State) (die : Nat) (bu : Bringup) : Die :=
  { dieUp die with
    hcore := BitVec.ofNat 7 (handlerCore bu.badCores), world := bu.world, latched := true
    unwrap := some (privateKey (Config.unwrapKey (teamUp s die bu).ticks)) }

theorem die_teamUp (d : Nat) : (teamUp s die bu).die d =
    if d = die then { dieUp die with hcore := BitVec.ofNat 7 (handlerCore bu.badCores) } else s.die d := by
  rw [teamUp, die_setDie]
  split_ifs with h
  · rfl
  · exact (die_firmwareIn s die bu d).trans (if_neg h)

/-- The task started and the world latched. -/
def taskUp (s : State) (die : Nat) (bu : Bringup) : State :=
  ((teamUp s die bu).startSystem die bu.entry []).setDie die (dieStarted s die bu)

theorem startFirmware_eq : (firmwareIn s die bu).startFirmware die bu = taskUp s die bu := by
  have hteam : State.modDie { (firmwareIn s die bu).setTeam (sysTeam die)
      { teamStart 0 0 0 (die * 128 + handlerCore bu.badCores) 0 0 0 0 [] [] with ready := [] } with
      ctxbase := bu.ctxbase } die (fun d => { d with hcore := BitVec.ofNat 7 (handlerCore bu.badCores) }) =
      teamUp s die bu := by
    rw [modDie_def, teamUp]
    exact congrArg (fun d : Die => State.setDie _ die { d with hcore := BitVec.ofNat 7 (handlerCore bu.badCores) })
      ((die_firmwareIn s die bu die).trans (if_pos rfl))
  have hticks : ((teamUp s die bu).startSystem die bu.entry []).ticks = (teamUp s die bu).ticks := by
    rw [startSystem_eq]
  unfold State.startFirmware
  dsimp only
  rw [hteam, State.latch, modDie_def, die_startSystem, die_teamUp, if_pos rfl, hticks]
  rfl

theorem broughtUp_eq : broughtUp s die bu =
    { taskUp s die bu with
      qdone := (broughtUp s die bu).qdone, linkUp := (broughtUp s die bu).linkUp
      lanes := (broughtUp s die bu).lanes } := by
  unfold broughtUp
  dsimp only
  rw [startFirmware_eq]
  split_ifs <;> rfl

theorem linkUp_broughtUp (h : die = 0) : (broughtUp s die bu).linkUp = decide (0 < bu.lanes) := by
  unfold broughtUp
  dsimp only
  rw [if_pos h]

/-- What bring-up leaves but the dies, the teams and what the firmware has placed. -/
theorem taskUp_eq : taskUp s die bu =
    { linksUp s die bu with
      dies := (taskUp s die bu).dies, teams := (taskUp s die bu).teams, mem := (taskUp s die bu).mem
      tags := (taskUp s die bu).tags, sections := (taskUp s die bu).sections
      nextId := (taskUp s die bu).nextId, ctxbase := bu.ctxbase } := by
  unfold taskUp
  rw [startSystem_eq, State.setDie]
  simp only [teamUp, State.setDie, State.setTeam]
  rw [firmwareIn_eq]

theorem die_broughtUp (d : Nat) :
    (broughtUp s die bu).die d = if d = die then dieStarted s die bu else s.die d := by
  rw [broughtUp_eq]
  change (taskUp s die bu).die d = _
  rw [taskUp, die_setDie, die_startSystem, die_teamUp]
  split_ifs <;> rfl

theorem core_broughtUp (c : Nat) : (broughtUp s die bu).core c =
    if dieOf c = die then { coreReset with usable := !bu.badCores.contains (c - die * 128) } else s.core c := by
  have hcores : (broughtUp s die bu).cores = (coresUp s die bu).cores := by
    rw [broughtUp_eq, taskUp_eq, linksUp_eq]
  rw [State.core, hcores, ← State.core, coresUp, core_tested]
  unfold dieOf
  exact if_congr (by omega) rfl rfl

theorem master_broughtUp {i : Nat} (h : i < 16) : ((broughtUp s die bu).cluster (die * 16 + i)).master =
    ((List.range 8).find? fun c => !bu.badCores.contains (8 * i + c)).map fun c => (die * 16 + i) * 8 + c := by
  have hclusters : (broughtUp s die bu).clusters = (appointed (coresUp s die bu) die 16).clusters := by
    rw [broughtUp_eq, taskUp_eq, linksUp_eq]
  rw [State.cluster, hclusters, ← State.cluster, master_appointed _ _ h, masterOf]
  refine congrArg (Option.map _) (List.find?_congr fun c hc => ?_)
  have hlt : c < 8 := List.mem_range.mp hc
  rw [coresUp, core_tested, if_pos (by omega), show (die * 16 + i) * 8 + c - die * 128 = 8 * i + c by omega]

theorem port_broughtUp (p : Nat) : (broughtUp s die bu).port p =
    if ∃ x ∈ bu.ports, x.1 = p ∧ s.trains die bu.pkg x = true then upPort else s.port p := by
  have hport : (broughtUp s die bu).port p = (linksUp s die bu).port p := by
    rw [broughtUp_eq, taskUp_eq]
    rfl
  rw [hport]
  change tabGet portReset (List.foldl _ _ _) p = _
  rw [tabGet_trained]
  refine if_congr ?_ rfl rfl
  simp only [List.mem_filter]
  exact ⟨fun ⟨x, ⟨hx, ht⟩, hp⟩ => ⟨x, hx, hp, ht⟩, fun ⟨x, hx, hp, ht⟩ => ⟨x, ⟨hx, ht⟩, hp⟩⟩

theorem log_broughtUp : (broughtUp s die bu).mclog = (coresUp s die bu).mclog ∧
    (broughtUp s die bu).mcNext = (coresUp s die bu).mcNext := by
  rw [broughtUp_eq, taskUp_eq, linksUp_eq]
  exact ⟨rfl, rfl⟩

theorem tabFind_broughtUp_other {u : Nat} (h : u ≠ sysTeam die) :
    tabFind (broughtUp s die bu).teams u = tabFind s.teams u := by
  rw [broughtUp_eq]
  change tabFind ((teamUp s die bu).startSystem die bu.entry []).teams u = _
  rw [tabFind_startSystem_other _ h]
  change tabFind (tabPut (firmwareIn s die bu).teams _ _) u = _
  rw [tabFind_tabPut, if_neg h, firmwareIn_eq, linksUp_eq, coresUp_eq]

/-- C0x000's team with the record of its first task alone. -/
theorem tabFind_broughtUp_sys : ∃ (m : Team) (r : Rec), tabFind (broughtUp s die bu).teams (sysTeam die) = some m ∧
    m.ctx = 0 ∧ m.core = some (die * 128 + handlerCore bu.badCores) ∧ m.ready = [r.id] ∧ m.recs = [r] ∧
    r.pc = bu.entry ∧ m.task = none := by
  have hteam : tabFind (teamUp s die bu).fresh.2.teams (sysTeam die) = some (bareTeam die bu) :=
    (tabFind_tabPut ..).trans (if_pos rfl)
  have hteams : (broughtUp s die bu).teams = ((teamUp s die bu).startSystem die bu.entry []).teams := by
    rw [broughtUp_eq]
    rfl
  rw [hteams]
  obtain ⟨q, hpc, hq⟩ := tabFind_addRec_ready (r := firstRec (teamUp s die bu).nextId bu.entry) _ hteam rfl
  exact ⟨_, q, hq, rfl, rfl, rfl, rfl, hpc, rfl⟩

end BringUp

/-- R420: what bring-up leaves of a die that passes its steps. -/
theorem exec_dieBringup_passes {s : State} {die : Nat} {bu : Bringup} (hdie : die < 4) (hup : (s.die die).up = false)
    (hlost : (s.die die).lost = false) (hfw : bu.firmwareOk = true) (hhbm : bu.hbmOk = true) :
    exec (.dieBringup die bu) s = .next (broughtUp s die bu) := by
  change execDieBringup die bu s = _
  unfold execDieBringup
  dsimp only
  rw [if_neg (by simp [hup, hlost, hdie]), if_neg (by simp [hfw]), if_neg (by simp [hhbm]), bringUp_eq]

theorem exec_dieBringup_fails {s : State} {die : Nat} {bu : Bringup} (hdie : die < 4) (hup : (s.die die).up = false)
    (hlost : (s.die die).lost = false) :
    (bu.firmwareOk = false → exec (.dieBringup die bu) s = .next ((s.logCheck 0xE6 die 0x1FF 0 0).loseDie die)) ∧
    (bu.firmwareOk = true → bu.hbmOk = false →
      exec (.dieBringup die bu) s = .next ((s.logCheck 0xE1 die 0x1FF 0 0).loseDie die)) := by
  change (_ → execDieBringup die bu s = _) ∧ (_ → _ → execDieBringup die bu s = _)
  unfold execDieBringup
  dsimp only
  rw [if_neg (by simp [hup, hlost, hdie])]
  exact ⟨fun hfw => if_pos (by simp [hfw]), fun hfw hhbm => by rw [if_neg (by simp [hfw]), if_pos (by simp [hhbm])]⟩

/-! ### Loss of power (R405) -/

theorem tabFind_deadKeys (l : List ScrubRec) (t : Tab (Nat × Nat)) (j : Nat) :
    tabFind (l.foldl (fun t r => tabPut t r.key (2, 0)) t) j =
      if ∃ r ∈ l, r.key = j then some (2, 0) else tabFind t j := by
  induction l generalizing t with
  | nil => simp
  | cons r l ih =>
    rw [List.foldl_cons, ih, tabFind_tabPut]
    by_cases hl : ∃ q ∈ l, q.key = j
    · obtain ⟨q, hq, hqj⟩ := hl
      rw [if_pos ⟨q, hq, hqj⟩, if_pos ⟨q, List.mem_cons_of_mem r hq, hqj⟩]
    · rw [if_neg hl]
      refine if_congr ⟨fun h => ⟨r, List.mem_cons_self, h.symm⟩, ?_⟩ rfl rfl
      rintro ⟨q, hq, hqj⟩
      rcases List.mem_cons.mp hq with rfl | hq
      · exact hqj.symm
      · exact absurd ⟨q, hq, hqj⟩ hl

/-- The tags of HBM under keys that are gone. -/
theorem tabGet_lostTags (t : Tab Nat) (n g : Nat) : tabGet 0 (t.map fun e => (e.1, n)) g =
    if (tabFind t g).isSome = true then n else 0 := by
  rw [tabGet_eq, tabFind_map (fun _ : Nat => n)]
  cases tabFind t g <;> rfl

/-- Settles O58: the stages of bring-up, the tables that outlive the power, and the throttle's three cases. -/
theorem powerUp : Obligations.powerUp := by
  refine ⟨fun s die bu hdie hup hlost => ⟨fun hfw hhbm => ?_, exec_dieBringup_fails hdie hup hlost⟩,
    fun s => ?_, fun s mw => ⟨_, rfl, rfl, fun h => if_pos h, fun h h' => ?_, fun h h' => ?_⟩⟩
  · have hself := die_broughtUp s die bu die
    rw [if_pos rfl] at hself
    obtain ⟨m, r, hteam, hctx, hcore, hready, hrecs, hpc, htask⟩ := tabFind_broughtUp_sys s die bu
    obtain ⟨hlog, hnext⟩ := log_broughtUp s die bu
    refine ⟨_, m, r, exec_dieBringup_passes hdie hup hlost hfw hhbm, by rw [hself]; rfl, by rw [hself]; rfl,
      by rw [hself]; rfl, by rw [hself]; rfl, ?_, by rw [hself]; rfl, by rw [hself]; rfl,
      fun d hd => by rw [die_broughtUp, if_neg hd], fun i hi => ?_, fun c hc => by rw [core_broughtUp, if_neg hc],
      fun i hi => master_broughtUp s die bu hi, hteam, hctx, hcore, hready, hrecs, hpc, htask,
      fun u hu => tabFind_broughtUp_other s die bu hu, ?_, ?_, fun p => ⟨?_, ?_⟩, fun h => ?_, fun h => ?_, fun i hi h => ?_⟩
    · rw [hself]
      exact Nat.mod_eq_of_lt (handlerCore_lt bu.badCores)
    · rw [core_broughtUp, if_pos (by unfold dieOf; omega), Nat.add_sub_cancel_left]
    · rw [broughtUp_eq, taskUp_eq]
    · rw [broughtUp_eq, taskUp_eq]
      exact BitVec.toNat_ofNat ..
    · rintro ⟨x, hx, hp, ht⟩
      rw [port_broughtUp, if_pos ⟨x, hx, hp, (trains_iff ..).mpr ht⟩]
      rfl
    · intro h
      rw [port_broughtUp, if_neg]
      rintro ⟨x, hx, hp, ht⟩
      exact h x hx hp ((trains_iff ..).mp ht)
    · rw [linkUp_broughtUp s die bu h]
      exact decide_eq_true_iff
    · rw [hlog, coresUp, h, mclog_tested_nil]
      rfl
    · have hcheck : (broughtUp s die bu).lastCheck = (coresUp s die bu).lastCheck := by
        rw [State.lastCheck, hlog, hnext, ← State.lastCheck]
      rw [hcheck, coresUp, h]
      exact lastCheck_tested_one _ die hi
  · refine ⟨_, rfl, fun a => tabGet_filter_key memDefault isHbm s.mem a, fun g => tabGet_lostTags s.tags _ g,
      fun r hr => ?_, fun j hj => ?_, rfl, rfl⟩
    · exact (tabFind_deadKeys ..).trans (if_pos ⟨_, List.mem_map_of_mem hr, rfl⟩)
    · refine (tabFind_deadKeys ..).trans (if_neg ?_)
      rintro ⟨q, hq, hqj⟩
      obtain ⟨r, hr, rfl⟩ := List.mem_map.mp hq
      exact hj r hr hqj
  · exact (if_neg (by omega)).trans (if_pos h')
  · exact (if_neg (by omega)).trans (if_neg (by omega))

end Sys2Proof.Proofs

/-! The semaphore file: additions, waits and reads (R34, R261 to R265). -/

namespace Sys2Proof.Proofs

open Sys2Proof.Machine Sys2Proof.Laws

/-! ### Records made ready -/

/-- A team with its parked record ready. -/
def wokenTeam (r status : Nat) (t : Team) : Team :=
  if t.recs.any fun q => q.id == r && q.state == 0 then { t with
    recs := t.recs.map fun q => if q.id = r then { q with state := 1, status := status } else q
    ready := t.ready ++ [r] } else t

theorem wakeRec_def (s : State) (u r status : Nat) :
    s.wakeRec u r status = (s.modTeam u (wokenTeam r status)).showRec u r := rfl

/-- A parked record woken is ready behind its team's ready tasks, in its header too. -/
theorem woken_wakeRec {s : State} {u r : Nat} {q : Rec} (h : Parked s u r q) (status : Nat) :
    Woken s (s.wakeRec u r status) u r status := by
  obtain ⟨hrec, hstate⟩ := h
  obtain ⟨m, hm, hfind⟩ := Option.bind_eq_some_iff.mp hrec
  have hany : (m.recs.any fun q => q.id == r && q.state == 0) = true := by
    have hid := List.find?_some hfind
    exact List.any_eq_true.mpr ⟨q, List.mem_of_find?_eq_some hfind, by simpa [hstate] using hid⟩
  refine ⟨s.modTeam u (wokenTeam r status), modTeam_eq .., fun v => ?_, fun m' q' hm' hq' hid => ?_⟩
  · rw [tabFind_modTeam]
    split_ifs with hv
    · rw [hv, hm, Option.map_some, Option.map_some, wokenTeam, if_pos hany]
    · rfl
  · subst hid
    have hkey : ∀ c x, (s.modTeam u (wokenTeam q'.id status)).keyOn c x = s.keyOn c x := fun c x => by
      rw [modTeam_eq]
      rfl
    rw [← hkey]
    exact shown_showRec hm' hq'

/-! ### Semaphores apart from what waits -/

/-- The state with other contexts and chains. -/
def reseat (cx : Tab Ctx) (sc : Tab (List Waiter)) (s : State) : State := { s with ctxs := cx, semChains := sc }

/-- The contexts' descriptors are those of the state. -/
def SameDesc (cx : Tab Ctx) (s : State) : Prop := ∀ c, (tabGet ctxNone cx c).desc = (s.ctx c).desc

section Reseat
variable (cx : Tab Ctx) (sc : Tab (List Waiter))

theorem rekeyGranule_reseat (s : State) (mk k : Nat) :
    (reseat cx sc s).rekeyGranule mk k = reseat cx sc (s.rekeyGranule mk k) := by
  have hfold : ∀ (l : List Nat) (s : State), l.foldl (fun s i => s.setByte (k / 128 * 128 + i)
        (s.readByte mk (k / 128 * 128 + i))) (reseat cx sc s) =
      reseat cx sc (l.foldl (fun s i => s.setByte (k / 128 * 128 + i) (s.readByte mk (k / 128 * 128 + i))) s) := by
    intro l
    induction l with
    | nil => exact fun _ => rfl
    | cons i l ih => exact fun s => ih (s.setByte _ _)
  have htags : (reseat cx sc s).tags = s.tags := rfl
  unfold State.rekeyGranule
  by_cases hh : isHbm k = true
  · rw [if_pos hh, if_pos hh]
    dsimp only
    rw [htags]
    by_cases ht : tabGet 0 s.tags (k / 128) = 0 ∨ tabGet 0 s.tags (k / 128) = mk + 1
    · rw [if_pos ht, if_pos ht]
      rfl
    · rw [if_neg ht, if_neg ht, hfold]
      generalize List.range 128 = l
      rfl
  · rw [if_neg hh, if_neg hh]

theorem agentWrite_reseat (bs : List (BitVec 8)) (s : State) (mk k : Nat) :
    (reseat cx sc s).agentWrite mk k bs = reseat cx sc (s.agentWrite mk k bs) := by
  induction bs generalizing s k with
  | nil => rfl
  | cons b bs ih =>
    have hrefused : (reseat cx sc s).refused mk k true = s.refused mk k true := rfl
    unfold State.agentWrite
    rw [hrefused]
    split_ifs
    · exact ih s (k + 1)
    · rw [rekeyGranule_reseat]
      exact ih ((s.rekeyGranule mk k).setByte k b) (k + 1)

variable {cx}

theorem keyOn_reseat {s : State} (h : SameDesc cx s) (c x : Nat) : (reseat cx sc s).keyOn c x = s.keyOn c x := by
  have hon : ∀ d k, (reseat cx sc s).descOn d x k = s.descOn d x k := fun d k => by
    have hdesc : ((reseat cx sc s).ctx x).desc = (s.ctx x).desc := h x
    unfold State.descOn
    rw [hdesc]
    rfl
  have hword : (reseat cx sc s).descWord x 2 = s.descWord x 2 := by
    unfold State.descWord State.descHome
    rw [hon, hon]
  unfold State.keyOn
  rw [hword]
  rfl

theorem showRec_reseat {s : State} (h : SameDesc cx s) (u r : Nat) :
    (reseat cx sc s).showRec u r = reseat cx sc (s.showRec u r) := by
  have hteams : (reseat cx sc s).teams = s.teams := rfl
  unfold State.showRec
  rw [hteams]
  split
  · rfl
  · split
    · rfl
    · split
      · rfl
      · rw [keyOn_reseat sc h, agentWrite_reseat]
        exact (apply_ite (reseat cx sc) ..).symm

theorem modTeam_reseat (s : State) (u : Nat) (f : Team → Team) :
    (reseat cx sc s).modTeam u f = reseat cx sc (s.modTeam u f) := by
  have hteams : (reseat cx sc s).teams = s.teams := rfl
  unfold State.modTeam
  rw [hteams]
  split <;> rfl

theorem ctxs_proceed (s : State) (w : Waiter) : (s.proceed w).ctxs = s.ctxs := by
  cases w with
  | task u r n => rw [State.proceed, State.wakeRec, showRec_eq, modTeam_eq]
  | cmd c id => rfl

theorem semChains_proceed (s : State) (w : Waiter) : (s.proceed w).semChains = s.semChains := by
  cases w with
  | task u r n => rw [State.proceed, State.wakeRec, showRec_eq, modTeam_eq]
  | cmd c id => rfl

theorem proceed_reseat {s : State} (h : SameDesc cx s) (w : Waiter) :
    (reseat cx sc s).proceed w = reseat cx sc (s.proceed w) := by
  cases w with
  | task u r n =>
    change ((reseat cx sc s).modTeam u (wokenTeam r 0)).showRec u r =
      reseat cx sc ((s.modTeam u (wokenTeam r 0)).showRec u r)
    rw [modTeam_reseat]
    refine showRec_reseat sc (fun c => (h c).trans ?_) u r
    unfold State.ctx
    rw [modTeam_ctxs]
  | cmd c id => rfl

theorem foldl_proceed_reseat (l : List Waiter) {s : State} (h : SameDesc cx s) :
    l.foldl State.proceed (reseat cx sc s) = reseat cx sc (l.foldl State.proceed s) := by
  induction l generalizing s with
  | nil => rfl
  | cons w l ih =>
    rw [List.foldl_cons, List.foldl_cons, proceed_reseat sc h, ih]
    intro c
    rw [h c, State.ctx, State.ctx, ctxs_proceed]

end Reseat

/-! ### Additions (R261) -/

section Values
variable (s : State) (ctx n : Nat)

theorem ctx_setSem (v : BitVec 32) (c : Nat) :
    (s.setSem ctx n v).ctx c = { s.ctx c with sems := ((s.setSem ctx n v).ctx c).sems } := by
  rw [State.setSem, modCtx_def, ctx_setCtx]
  split_ifs with h
  · rw [h]
  · rfl

theorem semVal_setSem (v : BitVec 32) (c k : Nat) :
    (s.setSem ctx n v).semVal c k = if c = ctx ∧ k = n then v else s.semVal c k := by
  rw [State.semVal, State.setSem, modCtx_def, ctx_setCtx]
  by_cases hc : c = ctx
  · rw [if_pos hc, tabGet_tabSet, hc]
    exact if_congr (by simp) rfl rfl
  · rw [if_neg hc, if_neg fun h => hc h.1]
    rfl

theorem setSem_eq (v : BitVec 32) : s.setSem ctx n v = reseat (s.setSem ctx n v).ctxs s.semChains s := rfl

theorem sameDesc_setSem (v : BitVec 32) : SameDesc (s.setSem ctx n v).ctxs s := fun c => by
  have h := congrArg Ctx.desc (ctx_setSem s ctx n v c)
  exact h

end Values

/-- What waits for a semaphore has been served from the head on: `j` waiters of `ws` proceeded, and the rest stands on
the chain. -/
structure Drains (s t : State) (ctx n : Nat) (ws : List Waiter) (j : Nat) : Prop where
  length : j ≤ ws.length
  used : ((ws.take j).map Waiter.count).sum ≤ (s.semVal ctx n).toNat
  value : (t.semVal ctx n).toNat = (s.semVal ctx n).toNat - ((ws.take j).map Waiter.count).sum
  chain : t.semChain ctx n = ws.drop j
  stops : ∀ w, ws[j]? = some w → (s.semVal ctx n).toNat - ((ws.take j).map Waiter.count).sum < w.count
  values : ∀ c k, (c, k) ≠ (ctx, n) → t.semVal c k = s.semVal c k
  chains : ∀ k, k ≠ ctx * 256 + n → tabGet [] t.semChains k = tabGet [] s.semChains k
  ctxs : ∀ c, t.ctx c = { s.ctx c with sems := (t.ctx c).sems }
  state : t = reseat t.ctxs t.semChains ((ws.take j).foldl State.proceed s)

theorem semChain_setSemChain (s : State) (ctx n : Nat) (l : List Waiter) :
    (s.setSemChain ctx n l).semChain ctx n = l := (tabGet_tabSet ..).trans (if_pos rfl)

theorem drains_setSemChain (s : State) (ctx n : Nat) (ws : List Waiter)
    (h : ∀ w, ws[0]? = some w → (s.semVal ctx n).toNat < w.count) : Drains s (s.setSemChain ctx n ws) ctx n ws 0 where
  length := Nat.zero_le _
  used := Nat.zero_le _
  value := rfl
  chain := semChain_setSemChain ..
  stops := h
  values _ _ _ := rfl
  chains _ hk := (tabGet_tabSet ..).trans (if_neg hk)
  ctxs _ := rfl
  state := rfl

/-- The first waiter takes its count and proceeds before the others. -/
theorem drains_cons {s t : State} {ctx n : Nat} {w : Waiter} {ws : List Waiter} {j : Nat}
    (hw : w.count ≤ (s.semVal ctx n).toNat)
    (h : Drains ((s.setSem ctx n (BitVec.ofNat 32 ((s.semVal ctx n).toNat - w.count))).proceed w) t ctx n ws j) :
    Drains s t ctx n (w :: ws) (j + 1) := by
  generalize hv : BitVec.ofNat 32 ((s.semVal ctx n).toNat - w.count) = v at h
  have hctxs : ((s.setSem ctx n v).proceed w).ctxs = (s.setSem ctx n v).ctxs := ctxs_proceed ..
  have hctx : ∀ c, ((s.setSem ctx n v).proceed w).ctx c = (s.setSem ctx n v).ctx c := fun c => by
    rw [State.ctx, hctxs, ← State.ctx]
  have hsem : ∀ c k, ((s.setSem ctx n v).proceed w).semVal c k = (s.setSem ctx n v).semVal c k := fun c k => by
    rw [State.semVal, hctx, ← State.semVal]
  have hval : (((s.setSem ctx n v).proceed w).semVal ctx n).toNat = (s.semVal ctx n).toNat - w.count := by
    have hlt := (s.semVal ctx n).isLt
    rw [hsem, semVal_setSem, if_pos ⟨rfl, rfl⟩, ← hv, BitVec.toNat_ofNat, Nat.mod_eq_of_lt (by omega)]
  have hsum : (((w :: ws).take (j + 1)).map Waiter.count).sum = w.count + ((ws.take j).map Waiter.count).sum := by
    rw [List.take_succ_cons, List.map_cons, List.sum_cons]
  obtain ⟨hlen, hused, hvalue, hchain, hstops, hvalues, hchains, hctx', hstate⟩ := h
  rw [hval] at hused hvalue hstops
  refine ⟨by rw [List.length_cons]; omega, by rw [hsum]; omega, by rw [hsum, hvalue]; omega, hchain, fun x hx => ?_,
    fun c k hck => ?_, fun k hk => ?_, fun c => ?_, ?_⟩
  · have := hstops x hx
    rw [hsum]
    omega
  · rw [hvalues c k hck, hsem, semVal_setSem, if_neg]
    rintro ⟨rfl, rfl⟩
    exact hck rfl
  · rw [hchains k hk, semChains_proceed]
    rfl
  · rw [hctx' c, hctx c, ctx_setSem s ctx n v c]
  · rw [hstate, setSem_eq, proceed_reseat _ (sameDesc_setSem s ctx n v), foldl_proceed_reseat, List.take_succ_cons,
      List.foldl_cons]
    · rfl
    · intro c
      rw [sameDesc_setSem s ctx n v c, State.ctx, State.ctx, ctxs_proceed]

/-- R261: waiters proceed from the head on while the value lets them. -/
theorem drains_semDrain (ctx n : Nat) (ws : List Waiter) (s : State) :
    ∃ j, Drains s (s.semDrain ctx n ws) ctx n ws j := by
  induction ws generalizing s with
  | nil => exact ⟨0, drains_setSemChain s ctx n [] nofun⟩
  | cons w ws ih =>
    by_cases hw : w.count ≤ (s.semVal ctx n).toNat
    · obtain ⟨j, hj⟩ := ih ((s.setSem ctx n (BitVec.ofNat 32 ((s.semVal ctx n).toNat - w.count))).proceed w)
      rw [State.semDrain, if_pos hw]
      exact ⟨j + 1, drains_cons hw hj⟩
    · rw [State.semDrain, if_neg hw]
      refine ⟨0, drains_setSemChain s ctx n (w :: ws) fun x hx => ?_⟩
      cases hx
      omega

/-- An addition that fits. -/
theorem adds_semAdd {s : State} {ctx n a : Nat} (h : (s.semVal ctx n).toNat + a < 2 ^ 32) :
    ∃ t, s.semAdd ctx n a = some t ∧ Adds s t ctx n a := by
  generalize hv : BitVec.ofNat 32 ((s.semVal ctx n).toNat + a) = v
  have hval : ((s.setSem ctx n v).semVal ctx n).toNat = (s.semVal ctx n).toNat + a := by
    rw [semVal_setSem, if_pos ⟨rfl, rfl⟩, ← hv, BitVec.toNat_ofNat, Nat.mod_eq_of_lt h]
  obtain ⟨j, hlen, hused, hvalue, hchain, hstops, hvalues, hchains, hctx, hstate⟩ :=
    drains_semDrain ctx n (s.semChain ctx n) (s.setSem ctx n v)
  rw [hval] at hused hvalue hstops
  refine ⟨_, by rw [State.semAdd, if_neg (by omega), hv], j, hlen, hused, hvalue, hchain, hstops, fun c k hck => ?_,
    fun k hk => hchains k hk, fun c => ?_, ?_⟩
  · rw [hvalues c k hck, semVal_setSem, if_neg]
    rintro ⟨rfl, rfl⟩
    exact hck rfl
  · rw [hctx c, ctx_setSem s ctx n v c]
  · refine hstate.trans ?_
    rw [setSem_eq, foldl_proceed_reseat _ _ (sameDesc_setSem s ctx n v)]
    rfl

/-- An addition that would overflow is not made. -/
theorem semAdd_overflow {s : State} {ctx n a : Nat} (h : 2 ^ 32 ≤ (s.semVal ctx n).toNat + a) :
    s.semAdd ctx n a = none := if_pos h

end Sys2Proof.Proofs

/-! The semaphore file's requests (R34, R261 to R265). -/

namespace Sys2Proof.Proofs

open Sys2Proof.Machine Sys2Proof.Laws

/-! ### Waits at the file -/

section Wait
variable {s : State} {id ctx n : Nat} {w : Waiter}

theorem served_dropReq (s : State) (id : Nat) : Served s (s.dropReq id) id := fun _ => tabFind_tabDel ..

theorem dropReq_eq (s : State) (id : Nat) : s.dropReq id = { s with reqs := (s.dropReq id).reqs } := rfl

/-- The semaphore without what a waiter takes. -/
def takeCount (s : State) (ctx n : Nat) (w : Waiter) : State :=
  s.setSem ctx n (BitVec.ofNat 32 ((s.semVal ctx n).toNat - w.count))

theorem semWait_takes (h : s.semChain ctx n = [] ∧ w.count ≤ (s.semVal ctx n).toNat) :
    s.semWait ctx n w = (takeCount s ctx n w).proceed w := by
  rw [State.semWait, if_pos ⟨by rw [h.1]; rfl, h.2⟩]
  rfl

theorem semWait_joins (h : ¬ (s.semChain ctx n = [] ∧ w.count ≤ (s.semVal ctx n).toNat)) :
    s.semWait ctx n w = s.setSemChain ctx n (s.semChain ctx n ++ [w]) := by
  rw [State.semWait, if_neg]
  rwa [List.isEmpty_iff]

theorem value_takeCount : ((takeCount s ctx n w).semVal ctx n).toNat = (s.semVal ctx n).toNat - w.count := by
  have hlt := (s.semVal ctx n).isLt
  rw [takeCount, semVal_setSem, if_pos ⟨rfl, rfl⟩, BitVec.toNat_ofNat, Nat.mod_eq_of_lt (by omega)]

theorem semVal_takeCount_other {c k : Nat} (h : (c, k) ≠ (ctx, n)) :
    (takeCount s ctx n w).semVal c k = s.semVal c k := by
  rw [takeCount, semVal_setSem, if_neg]
  rintro ⟨rfl, rfl⟩
  exact h rfl

end Wait

section TaskWait
variable {s : State} {id ctx n team r cnt : Nat} {q : Rec}
  (hreq : tabFind s.reqs id = some (.semWait ctx n (.task team r cnt))) (hq : Parked s team r q)
include hreq hq

theorem exec_semWait_task : exec (.semWaitRequest id) s =
    if s.endsLater team r ∨ !s.depsDone q.deps ∨ !s.semsHere ctx then .next s
    else if (s.die (s.homeDie ctx)).lost then .next ((s.dropReq id).wakeRec team r cPeerLost)
    else .next ((s.dropReq id).semWait ctx n (.task team r cnt)) := by
  change execSemWaitRequest id s = _
  simp only [execSemWaitRequest, hreq, hq.1]

end TaskWait

section CmdWait
variable {s : State} {id ctx n core c : Nat} {q : Cmd}
  (hreq : tabFind s.reqs id = some (.semWait ctx n (.cmd core c))) (hq : s.cmd core c = some q)
include hreq hq

theorem exec_semWait_cmd : exec (.semWaitRequest id) s =
    if !s.cmdReady q ∨ !s.semsHere ctx then .next s
    else if (s.die (s.homeDie ctx)).lost then .next (((s.dropReq id).cmdFault q cPeerLost (w64 n) q.source
      fun d => d.queue == q.queue || (d.queue.isCopy && q.queue.isCopy)).getD s)
    else .next ((s.dropReq id).semWait ctx n (.cmd core c)) := by
  change execSemWaitRequest id s = _
  simp only [execSemWaitRequest, hreq, hq]
  rfl

end CmdWait

/-! ### What leaves the semaphores as they are -/

/-- No semaphore of any context has changed. -/
def SameSems (s t : State) : Prop := ∀ c k, t.semVal c k = s.semVal c k

theorem SameSems.of_ctxs {s t : State} (h : t.ctxs = s.ctxs) : SameSems s t := fun c k => by
  rw [State.semVal, State.semVal, State.ctx, State.ctx, h]

theorem SameSems.trans {s t u : State} (h : SameSems s t) (h' : SameSems t u) : SameSems s u :=
  fun c k => (h' c k).trans (h c k)

theorem sameSems_modCtx (s : State) (ctx : Nat) {f : Ctx → Ctx} (hf : ∀ x, (f x).sems = x.sems) :
    SameSems s (s.modCtx ctx f) := fun c k => by
  rw [State.semVal, State.semVal, modCtx_def, ctx_setCtx]
  split_ifs with h
  · rw [hf, h]
  · rfl

section Frames
variable (s : State)

theorem ctxs_setVerChain (key : Nat) (l : List Waiter) : (s.setVerChain key l).ctxs = s.ctxs := by
  unfold State.setVerChain
  dsimp only
  split
  · rfl
  · rw [onlyMemory_agentNat]

theorem ctxs_dropVerWaiters (gone : Waiter → Bool) : (s.dropVerWaiters gone).ctxs = s.ctxs :=
  foldl_keeps State.ctxs (fun s e => by
    split_ifs
    · exact ctxs_setVerChain ..
    · rfl) _ s

theorem ctxs_endTask (u : Nat) : (s.endTask u).ctxs = s.ctxs := by rw [endTask_eq]

theorem ctxs_abortTask (u : Nat) : (s.abortTask u).ctxs = s.ctxs := by
  unfold State.abortTask
  split
  · split
    · rw [ctxs_endTask]
      rfl
    · exact ctxs_endTask ..
  · rfl

theorem ctxs_killTeam (u : Nat) : (s.killTeam u).ctxs = s.ctxs := by
  unfold State.killTeam
  split
  · rfl
  · dsimp only
    rw [modTeam_ctxs, ctxs_endTask, ctxs_dropVerWaiters]
    split <;> rfl

theorem sameSems_settleLaunch (ctx slot : Nat) : SameSems s (s.settleLaunch ctx slot) := by
  unfold State.settleLaunch
  split
  · exact .of_ctxs rfl
  · split_ifs
    · exact .of_ctxs rfl
    · dsimp only
      split
      · exact sameSems_modCtx s ctx fun _ => rfl
      · exact .trans (sameSems_modCtx s ctx (f := fun c =>
          { c with launches := c.launches.filter fun l => l.slot != slot }) fun _ => rfl) (.of_ctxs rfl)

/-- A context whose launch is terminated (R39). -/
def launchTerminated (slot : Nat) (c : Ctx) : Ctx := { c with launches := c.launches.map fun l =>
  if l.slot = slot then
    { l with terminated := true, retired := l.retired + (l.teams - l.placed), placed := l.teams } else l }

theorem sameSems_killLaunch (ctx slot : Nat) : SameSems s (s.killLaunch ctx slot) := by
  have hctx : SameSems s (s.modCtx ctx (launchTerminated slot)) := sameSems_modCtx s ctx fun _ => rfl
  refine .trans (hctx.trans (.of_ctxs ?_)) (sameSems_settleLaunch _ ctx slot)
  exact foldl_keeps State.ctxs (fun s (e : Nat × Team) => ctxs_killTeam s e.1) _ _

theorem sameSems_passFault {t : State} {u core code : Nat} {pc addr x4 : W64} {handler : Bool} {fd : Found}
    (h : s.passFault u core code pc addr x4 handler fd = some t) : SameSems s t := by
  unfold State.passFault at h
  split at h
  · cases h
    exact .of_ctxs rfl
  · next m _ =>
    by_cases hsys : m.ctx = 0
    · rw [if_pos hsys] at h
      cases h
      exact .of_ctxs (by rw [State.logFault, logCheck_eq])
    · rw [if_neg hsys] at h
      split at h
      · cases h
        exact .of_ctxs rfl
      · next l _ =>
        by_cases hdead : m.dead = true
        · rw [if_pos hdead] at h
          cases h
          exact .of_ctxs rfl
        · rw [if_neg hdead] at h
          by_cases hh : l.fhandler = 0 ∨ handler = true
          · rw [if_pos hh] at h
            split_ifs at h
            cases h
            exact .trans (.of_ctxs (queueFault_frame ..).2.1) (sameSems_killLaunch _ _ _)
          · rw [if_neg hh] at h
            cases h
            exact .of_ctxs (by rw [addRec_eq])

theorem sameSems_faultTeam {t : State} {u core code : Nat} {pc addr : W64} {seq : BitVec 32} {fd : Found}
    (h : s.faultTeam u core code pc addr seq fd = some t) : SameSems s t := by
  unfold State.faultTeam at h
  split at h
  · cases h
    exact .of_ctxs rfl
  · dsimp only at h
    split_ifs at h
    · cases h
      exact .of_ctxs (by rw [State.logFault, logCheck_eq]; exact ctxs_abortTask ..)
    · cases h
      exact .of_ctxs (by rw [State.logFault, logCheck_eq]; exact ctxs_abortTask ..)
    · exact .trans (.of_ctxs (ctxs_abortTask ..)) (sameSems_passFault _ h)

theorem sameSems_launchOverflow {t : State} {ctx n : Nat} {tag : W64} (h : s.launchOverflow ctx n tag = some t) :
    SameSems s t := by
  unfold State.launchOverflow at h
  dsimp only at h
  split_ifs at h
  cases h
  exact .of_ctxs (queueFault_frame ..).2.1

theorem sameSems_getD {o : Option State} {b : State} (hb : SameSems s b) (ho : ∀ t, o = some t → SameSems s t) :
    SameSems s (o.getD b) := by
  cases o with
  | none => exact hb
  | some t => exact ho t rfl

end Frames

/-! ### SIGS, and additions of the engines and the fabric -/

/-- A SIGS whose addition has been made or refused is over (R263). -/
def closedSig (deps : Option (List Dep)) (core cmd : Nat) (t : State) : State :=
  match deps, t.cmd core cmd with
  | some _, some c => t.finishCmd c
  | _, _ => t

theorem ctxs_closedSig (deps : Option (List Dep)) (core cmd : Nat) (t : State) :
    (closedSig deps core cmd t).ctxs = t.ctxs := by
  unfold closedSig
  split
  · rw [finishCmd_eq]
  · rfl

section Signal
variable {s : State} {id ctx n amount team cmd core scope : Nat} {pc : W64} {deps : Option (List Dep)} {seq : BitVec 32}

theorem exec_semSignal (hreq : tabFind s.reqs id = some (.semSig ctx n amount team cmd core pc scope deps seq))
    (hcmd : deps.isSome = true → (s.cmd core cmd).isSome = true) : exec (.semSignal id) s =
    if !s.mayAdd ctx team cmd core scope deps ∨ !s.semsHere ctx then .next s
    else if (s.die (s.homeDie ctx)).lost then
      let t := closedSig deps core cmd (s.dropReq id)
      .next ((if team = 0 then some t else t.faultTeam team core cPeerLost pc (w64 n) seq ⟨0, 0, 0, 0⟩).getD s)
    else match (s.dropReq id).semAdd ctx n amount with
      | some t => .next (closedSig deps core cmd t)
      | none =>
        let t := closedSig deps core cmd (s.dropReq id)
        .next ((if team = 0 then t.launchOverflow ctx n pc
          else t.faultTeam team core cSemOverflow pc (w64 n) seq ⟨0, 0, 0, 0⟩).getD s) := by
  have hnone : ¬ (deps.isSome = true ∧ (s.cmd core cmd).isNone = true) := fun h => by
    have := hcmd h.1
    rw [Option.isNone_iff_eq_none.mp h.2] at this
    cases this
  change execSemSignal id s = _
  simp only [execSemSignal, hreq, if_neg hnone]
  rfl

end Signal

theorem exec_fabricAdd {s : State} {id ctx n team core : Nat} {pc : W64} {seq : BitVec 32}
    (hreq : tabFind s.reqs id = some (.fabricAdd ctx n team core pc seq)) : exec (.semSignal id) s =
    .next (if s.semsHere ctx then (s.dropReq id).fabricAdd ctx n team core pc seq else s) := by
  change execSemSignal id s = _
  simp only [execSemSignal, State.fabricSignal, hreq]

/-! ### SEMRD -/

/-- The value on its way to the register of a SEMRD. -/
def semAnswered (s : State) (c : Cmd) (d : Nat) : State :=
  (s.setCmd { c with sent := true }).modCore c.core fun k => { k with
    results := k.results ++ [⟨c.id, c.team, some (d, (s.semVal c.ctx c.wsem).zeroExtend 64), [], []⟩] }

theorem exec_semRead {s : State} {id : Nat} {c : Cmd} {f : FE3} (hc : s.cmd c.core id = some c) (hi : c.instr = .semrd f) :
    exec (.semRead c.core id) s =
      if c.sent then .next (if (s.core c.core).results.any fun r => r.id == id then s else s.finishCmd c)
      else if !s.depsDone c.deps || !s.semsHere c.ctx then .next s
      else if (s.die (s.homeDie c.ctx)).lost then .next ((s.cmdFault c cPeerLost (w64 c.wsem) 0 fun _ => false).getD s)
      else .next (match c.regs with
        | d :: _ => semAnswered s c d
        | [] => s.finishCmd c) := by
  change execSemRead c.core id s = _
  unfold execSemRead
  rw [hc]
  dsimp only
  split
  · rfl
  · next hno => exact absurd hi (hno f)

/-- What a SEMRD leaves as it ends. -/
theorem ends_finishCmd (s : State) (c : Cmd) : Over s (s.finishCmd c) c ∧
    (∀ q, q ≠ c.core → (s.finishCmd c).core q = s.core q) ∧
    (s.finishCmd c).core c.core = { s.core c.core with
      cmds := ((s.finishCmd c).core c.core).cmds, sb := ((s.finishCmd c).core c.core).sb } ∧
    s.finishCmd c = { s with
      cores := (s.finishCmd c).cores, openCmds := (s.finishCmd c).openCmds, reqs := (s.finishCmd c).reqs
      nextId := (s.finishCmd c).nextId } := by
  refine ⟨over_finishCmd s c, fun q hq => by rw [core_finishCmd, if_neg hq], ?_, by rw [finishCmd_eq]⟩
  conv_lhs => rw [core_finishCmd, if_pos rfl]
  have hcmds : ((s.finishCmd c).core c.core).cmds = (s.core c.core).cmds.filter fun d => d.id != c.id :=
    (over_finishCmd s c).1
  rw [hcmds]

section Settle
variable {s : State} {id ctx n : Nat} {w : Waiter}

/-- A waiter that joins stands at the chain's end. -/
theorem joins_setSemChain : Served s ((s.dropReq id).setSemChain ctx n ((s.dropReq id).semChain ctx n ++ [w])) id ∧
    ∀ k, tabGet [] ((s.dropReq id).setSemChain ctx n ((s.dropReq id).semChain ctx n ++ [w])).semChains k =
      if k = ctx * 256 + n then s.semChain ctx n ++ [w] else tabGet [] s.semChains k :=
  ⟨served_dropReq s id, fun _ => tabGet_tabSet ..⟩

theorem ctx_takeCount (c : Nat) :
    (takeCount s ctx n w).ctx c = { s.ctx c with sems := ((takeCount s ctx n w).ctx c).sems } := ctx_setSem ..

end Settle

/-- Settles O44, request by request. -/
theorem semaphores : Obligations.semaphores := by
  refine ⟨fun s id ctx n w hreq => ⟨fun team r cnt q hw hq => ?_, fun core c q hw hq => ?_⟩,
    fun s id ctx n amount team cmd core scope pc deps seq hreq hcmd => ?_,
    fun s id ctx n team core pc seq hreq => ⟨fun h => ?_, fun h hlost hv => ?_⟩,
    fun s id c f hc hi => ?_⟩
  · subst hw
    have hexec := exec_semWait_task hreq hq
    refine ⟨fun h => ?_, fun h hlost htake => ?_, fun h hlost htake => ?_, fun h hlost => ?_⟩
    · rw [hexec, if_pos]
      by_contra hno
      simp only [not_or, Bool.not_eq_true, Bool.not_eq_false'] at hno
      exact h hno
    all_goals
      obtain ⟨hlater, hdeps, hhere⟩ := h
      rw [if_neg (by simp [hlater, hdeps, hhere])] at hexec
    · have hwait := semWait_takes (s := s.dropReq id) htake
      rw [if_neg (by simp [hlost]), hwait] at hexec
      have hparked : Parked (takeCount (s.dropReq id) ctx n (.task team r cnt)) team r q := hq
      exact ⟨s.dropReq id, takeCount (s.dropReq id) ctx n (.task team r cnt), _, hexec, ⟨served_dropReq s id, rfl⟩,
        ⟨value_takeCount, fun c k => semVal_takeCount_other, fun c => ctx_takeCount c⟩, rfl, woken_wakeRec hparked 0⟩
    · have hwait := semWait_joins (s := s.dropReq id) htake
      rw [if_neg (by simp [hlost]), hwait] at hexec
      obtain ⟨hserved, hchains⟩ := joins_setSemChain (s := s) (id := id) (ctx := ctx) (n := n) (w := .task team r cnt)
      exact ⟨_, hexec, hserved, rfl, hchains⟩
    · rw [if_pos hlost] at hexec
      have hparked : Parked (s.dropReq id) team r q := hq
      exact ⟨s.dropReq id, _, hexec, ⟨served_dropReq s id, rfl⟩, woken_wakeRec hparked _⟩
  · subst hw
    have hexec := exec_semWait_cmd hreq hq
    refine ⟨fun h => ?_, fun h hlost htake => ?_, fun h hlost htake => ?_, fun h hlost => ?_⟩
    · rw [hexec, if_pos]
      by_contra hno
      simp only [not_or, Bool.not_eq_true, Bool.not_eq_false'] at hno
      exact h hno
    all_goals
      obtain ⟨hready, hhere⟩ := h
      rw [if_neg (by simp [hready, hhere])] at hexec
    · have hwait := semWait_takes (s := s.dropReq id) htake
      rw [if_neg (by simp [hlost]), hwait] at hexec
      exact ⟨_, hexec, served_dropReq s id, ⟨value_takeCount, fun c k => semVal_takeCount_other,
        fun c => ctx_takeCount c⟩, fun k => core_setCore .., rfl, rfl⟩
    · have hwait := semWait_joins (s := s.dropReq id) htake
      rw [if_neg (by simp [hlost]), hwait] at hexec
      obtain ⟨hserved, hchains⟩ := joins_setSemChain (s := s) (id := id) (ctx := ctx) (n := n) (w := .cmd core c)
      exact ⟨_, hexec, hserved, rfl, hchains⟩
    · rw [if_pos hlost] at hexec
      exact ⟨s.dropReq id, ⟨served_dropReq s id, rfl⟩, hexec⟩
  · have hexec := exec_semSignal hreq hcmd
    refine ⟨fun h => ?_, fun h hlost hv => ?_, fun h hlost hv => ?_, fun h hlost => ?_⟩
    · rw [hexec, if_pos]
      by_contra hno
      simp only [not_or, Bool.not_eq_true, Bool.not_eq_false'] at hno
      exact h hno
    all_goals
      obtain ⟨hmay, hhere⟩ := h
      rw [if_neg (by simp [hmay, hhere])] at hexec
    · obtain ⟨t, ht, hadds⟩ := adds_semAdd (s := s.dropReq id) hv
      rw [if_neg (by simp [hlost]), ht] at hexec
      exact ⟨s.dropReq id, t, served_dropReq s id, rfl, hadds, hexec⟩
    · rw [if_neg (by simp [hlost]), semAdd_overflow (s := s.dropReq id) hv] at hexec
      have hbase : SameSems s (closedSig deps core cmd (s.dropReq id)) := .of_ctxs (ctxs_closedSig ..)
      refine ⟨hexec.trans ?_, _, hexec, sameSems_getD s (.of_ctxs rfl) fun t ht => ?_⟩
      · split_ifs <;> rfl
      · split_ifs at ht
        · exact hbase.trans (sameSems_launchOverflow _ ht)
        · exact hbase.trans (sameSems_faultTeam _ ht)
    · rw [if_pos hlost] at hexec
      refine hexec.trans ?_
      split_ifs <;> rfl
  · rw [exec_fabricAdd hreq, if_neg (by simp [h])]
  · obtain ⟨t, ht, hadds⟩ := adds_semAdd (s := s.dropReq id) hv
    have hlost' : ((s.dropReq id).die ((s.dropReq id).homeDie ctx)).lost = false := hlost
    refine ⟨s.dropReq id, t, served_dropReq s id, rfl, hadds, ?_⟩
    rw [exec_fabricAdd hreq, if_pos h, State.fabricAdd, if_pos (show (s.dropReq id).semsHere ctx = true from h)]
    simp only [hlost', ht]
    rfl
  · have hexec := exec_semRead hc hi
    have hid : c.id = id := by simpa using List.find?_some hc
    refine ⟨fun hsent h => ?_, fun hsent h hlost => ?_, fun hsent h hlost => ?_, fun hsent h => ?_, fun hsent h => ?_⟩
    · rw [hexec, if_neg (by simp [hsent]), if_pos]
      by_contra hno
      simp only [Bool.not_eq_true, Bool.or_eq_false_iff, Bool.not_eq_false'] at hno
      exact h hno
    · rw [if_neg (by simp [hsent]), if_neg (by simp [h.1, h.2]), if_neg (by simp [hlost])] at hexec
      refine ⟨fun d hd => ?_, fun hnone => ?_⟩
      · rw [hd] at hexec
        refine ⟨semAnswered s c d, hexec, rfl, fun q hq => ?_, ?_⟩
        · rw [semAnswered, modCore_def, core_setCore, if_neg hq, State.setCmd, modCore_def, core_setCore, if_neg hq]
        · rw [semAnswered, modCore_def, core_setCore, if_pos rfl, State.setCmd, modCore_def, core_setCore, if_pos rfl,
            hid]
      · rw [hnone] at hexec
        exact ⟨_, hexec, ends_finishCmd s c⟩
    · rw [hexec, if_neg (by simp [hsent]), if_neg (by simp [h.1, h.2]), if_pos hlost]
    · obtain ⟨r, hr, hrid⟩ := h
      rw [hexec, if_pos hsent, if_pos (List.any_eq_true.mpr ⟨r, hr, by simp [hrid]⟩)]
    · rw [if_pos hsent, if_neg] at hexec
      · exact ⟨_, hexec, ends_finishCmd s c⟩
      · simpa using h

end Sys2Proof.Proofs

/-! Residency of contexts and quiescence epochs (R314, R318, R337, R347, R369). -/

namespace Sys2Proof.Proofs

open Sys2Proof.Machine Sys2Proof.Laws

/-! ### The order of R347 -/

/-- Rank `a` is not behind rank `b`. -/
theorem Rank.not_before_iff (a b : Rank) : a.before b = false ↔ (a.behind = true → b.behind = true) ∧
    (a.behind = b.behind → a.epri ≤ b.epri ∧ (a.epri = b.epri → b.ran ≤ a.ran)) := by
  unfold Rank.before
  by_cases hb : a.behind = b.behind
  · rw [if_neg (by simp [hb])]
    by_cases he : a.epri = b.epri
    · rw [if_neg (not_not_intro he)]
      simp [hb, he]
    · rw [if_pos he]
      simp [hb, he]
  · rw [if_pos (by simp [hb])]
    cases ha : a.behind <;> cases hb' : b.behind <;> simp_all

theorem Rank.not_before_self (a : Rank) : a.before a = false := by
  rw [Rank.not_before_iff]
  exact ⟨id, fun _ => ⟨le_rfl, fun _ => le_rfl⟩⟩

/-- "Not before" is transitive. -/
theorem Rank.not_before_trans {a b c : Rank} (h : a.before b = false) (h' : b.before c = false) :
    a.before c = false := by
  rw [Rank.not_before_iff] at *
  obtain ⟨hab, hab'⟩ := h
  obtain ⟨hbc, hbc'⟩ := h'
  refine ⟨fun ha => hbc (hab ha), fun hac => ?_⟩
  have hb : a.behind = b.behind := by
    cases ha : a.behind
    · cases hb : b.behind
      · rfl
      · exact absurd (hbc hb) (by rw [← hac, ha]; simp)
    · exact (hab ha).symm
  obtain ⟨h1, h2⟩ := hab' hb
  obtain ⟨h3, h4⟩ := hbc' (hb.symm.trans hac)
  exact ⟨h1.trans h3, fun he => by
    have h5 := h2 (by omega)
    have h6 := h4 (by omega)
    omega⟩

theorem Rank.not_before_of_before {a b : Rank} (h : a.before b = true) : b.before a = false := by
  have hno := (Rank.not_before_iff a b).not.mp (by simp [h])
  rw [Rank.not_before_iff]
  cases ha : a.behind <;> cases hb : b.behind <;> simp [ha, hb] at hno ⊢ <;> omega

theorem topRank_eq_none {rank : Nat → Rank} {l : List Nat} : topRank rank l = none ↔ l = [] := by
  cases l with
  | nil => exact ⟨fun _ => rfl, fun _ => rfl⟩
  | cons x l =>
    rw [topRank]
    split
    · simp
    · split_ifs <;> simp

/-- The first-ranked of a list is of it, and none of it ranks before it. -/
theorem topRank_spec {rank : Nat → Rank} {l : List Nat} {c : Nat} (h : topRank rank l = some c) :
    c ∈ l ∧ ∀ w ∈ l, (rank w).before (rank c) = false := by
  induction l generalizing c with
  | nil => cases h
  | cons x l ih =>
    rw [topRank] at h
    cases hl : topRank rank l with
    | none =>
      rw [hl] at h
      cases h
      rw [topRank_eq_none.mp hl] at *
      exact ⟨List.mem_singleton_self _, fun w hw => by rw [List.mem_singleton.mp hw]; exact Rank.not_before_self _⟩
    | some d =>
      rw [hl] at h
      obtain ⟨hd, hrest⟩ := ih hl
      dsimp only at h
      split_ifs at h with hbefore
      · cases h
        refine ⟨List.mem_cons_of_mem _ hd, List.forall_mem_cons.mpr ⟨Rank.not_before_of_before hbefore, hrest⟩⟩
      · cases h
        rw [Bool.not_eq_true] at hbefore
        exact ⟨List.mem_cons_self, List.forall_mem_cons.mpr
          ⟨Rank.not_before_self _, fun w hw => Rank.not_before_trans (hrest w hw) hbefore⟩⟩

theorem lastRank_eq_none {rank : Nat → Rank} {l : List Nat} : lastRank rank l = none ↔ l = [] := by
  cases l with
  | nil => exact ⟨fun _ => rfl, fun _ => rfl⟩
  | cons x l =>
    rw [lastRank]
    split
    · simp
    · split_ifs <;> simp

/-- The last-ranked of a list is of it, and ranks before none of it. -/
theorem lastRank_spec {rank : Nat → Rank} {l : List Nat} {c : Nat} (h : lastRank rank l = some c) :
    c ∈ l ∧ ∀ w ∈ l, (rank c).before (rank w) = false := by
  induction l generalizing c with
  | nil => cases h
  | cons x l ih =>
    rw [lastRank] at h
    cases hl : lastRank rank l with
    | none =>
      rw [hl] at h
      cases h
      rw [lastRank_eq_none.mp hl] at *
      exact ⟨List.mem_singleton_self _, fun w hw => by rw [List.mem_singleton.mp hw]; exact Rank.not_before_self _⟩
    | some d =>
      rw [hl] at h
      obtain ⟨hd, hrest⟩ := ih hl
      dsimp only at h
      split_ifs at h with hbefore
      · cases h
        refine ⟨List.mem_cons_of_mem _ hd, List.forall_mem_cons.mpr ⟨Rank.not_before_of_before hbefore, hrest⟩⟩
      · cases h
        rw [Bool.not_eq_true] at hbefore
        exact ⟨List.mem_cons_self, List.forall_mem_cons.mpr
          ⟨Rank.not_before_self _, fun w hw => Rank.not_before_trans hbefore (hrest w hw)⟩⟩

/-! ### What a context is on each die (R337) -/

section Resid
variable (s : State)

theorem residOn_of_ctx {s t : State} {c d : Nat} (h : (t.ctx c).resid = (s.ctx c).resid) (hc : c ≠ 0) :
    t.residOn c d = s.residOn c d := by
  unfold State.residOn
  rw [if_neg hc, if_neg hc, h]

theorem residOn_setResid {c : Nat} (hc : c ≠ 0) (x die d : Nat) (r : Resid) :
    (s.setResid x die r).residOn c d = if c = x ∧ d = die then r else s.residOn c d := by
  unfold State.residOn State.setResid
  rw [if_neg hc, if_neg hc, modCtx_def, ctx_setCtx]
  by_cases hx : c = x
  · rw [if_pos hx, tabGet_tabSet, hx]
    exact if_congr (by simp) rfl rfl
  · rw [if_neg hx, if_neg fun h => hx h.1]

theorem requestHalt_eq (ctx : Nat) (bar : Bool) (l : List Nat) (s : State) :
    s.requestHalt ctx bar l = { s with cores := (s.requestHalt ctx bar l).cores } := by
  induction l generalizing s with
  | nil => rfl
  | cons c l ih =>
    rw [State.requestHalt, ih]
    rfl

/-- A core that halts goes on halting while others are asked to, and each one asked does. -/
theorem halting_requestHalt (ctx : Nat) (bar : Bool) (l : List Nat) (s : State) (c : Nat)
    (h : (s.core c).halting = true ∨ c ∈ l) : ((s.requestHalt ctx bar l).core c).halting = true := by
  induction l generalizing s with
  | nil => exact h.resolve_right List.not_mem_nil
  | cons x l ih =>
    rw [State.requestHalt]
    refine ih _ ?_
    rw [modCore_def, core_setCore]
    by_cases hx : c = x
    · rw [if_pos hx]
      exact .inl rfl
    · rw [if_neg hx]
      exact h.imp_right fun hc => (List.mem_cons.mp hc).resolve_left hx

theorem ctx_leaveDie (die x : Nat) (c : Nat) : (s.leaveDie die x).ctx c = (s.setResid x die .leaving).ctx c := by
  unfold State.leaveDie
  rw [requestHalt_eq]
  rfl

theorem residOn_leaveDie {c : Nat} (hc : c ≠ 0) (die x d : Nat) :
    (s.leaveDie die x).residOn c d = if c = x ∧ d = die then .leaving else s.residOn c d := by
  rw [residOn_of_ctx (congrArg Ctx.resid (ctx_leaveDie s die x c)) hc, residOn_setResid s hc]

theorem halting_leaveDie (die x : Nat) {c : Nat} (hc : c ∈ s.coresOf die x) :
    ((s.leaveDie die x).core c).halting = true := by
  refine halting_requestHalt _ _ _ _ _ ?_
  by_cases hh : (s.core c).halting = true
  · exact .inl hh
  · exact .inr (List.mem_filter.mpr ⟨hc, by simpa using hh⟩)

end Resid

/-! ### A context that arrives (R314, R337) -/

section Arrive
variable (s : State) (die x : Nat)

theorem ctx_zeroCsm (us : List Nat) (c : Nat) : (s.zeroCsm us).ctx c = s.ctx c := by
  unfold State.zeroCsm
  dsimp only
  split_ifs <;> rfl

/-- A context that has given up units of CSM. -/
def unitsLost (us : List Nat) (c : Ctx) : Ctx := { c with csm := c.csm.filter fun u => !us.contains u }

theorem ctx_assignCsm (c : Nat) :
    (s.assignCsm x).ctx c = { s.ctx c with csm := ((s.assignCsm x).ctx c).csm } := by
  have hmap : ∀ us vs, tabGet ctxNone ((s.zeroCsm vs).ctxs.map fun e => (e.1, unitsLost us e.2)) c =
      unitsLost us (s.ctx c) := fun us vs => by
    have hget := tabGet_map (unitsLost us) ctxNone (s.zeroCsm vs).ctxs c
    rw [← ctx_zeroCsm s vs c]
    exact hget
  unfold State.assignCsm
  dsimp only
  by_cases hsame : (s.ctx x).csm = s.csmGiven x
  · rw [if_pos hsame]
  · rw [if_neg hsame, modCtx_def, ctx_setCtx]
    by_cases hc : c = x
    · subst hc
      rw [if_pos rfl]
      simp only [State.ctx]
      exact congrArg (fun k : Ctx => { k with csm := s.csmGiven c }) (hmap _ _)
    · rw [if_neg hc]
      exact (hmap _ _).trans (congrArg (fun k => { s.ctx c with csm := k }) (congrArg Ctx.csm (hmap _ _)).symm)

theorem ctx_loadSems (c : Nat) : (s.loadSems x).ctx c = { s.ctx c with sems := ((s.loadSems x).ctx c).sems } := by
  unfold State.loadSems
  rw [modCtx_def, ctx_setCtx]
  split_ifs with h
  · rw [h]
  · rfl

theorem ctx_latchDesc (c : Nat) : (s.latchDesc die x).ctx c =
    { s.ctx c with desc := ((s.latchDesc die x).ctx c).desc } := by
  unfold State.latchDesc
  rw [modCtx_def, ctx_setCtx]
  split_ifs with h
  · rw [h]
  · rfl

/-- Words put into a table from one place up. -/
theorem tabGet_foldl_words {f : Nat → W64} (off n : Nat) (t : Tab W64) (k : Nat) :
    tabGet 0 (((List.range n).map fun i => (off + i, f i)).foldl (fun t w => tabSet 0 t w.1 w.2) t) k =
      if off ≤ k ∧ k < off + n then f (k - off) else tabGet 0 t k := by
  induction n with
  | zero =>
    rw [if_neg (by omega)]
    rfl
  | succ n ih =>
    rw [List.range_succ, List.map_append, List.foldl_append, List.map_singleton, List.foldl_cons, List.foldl_nil,
      tabGet_tabSet, ih]
    by_cases hk : k = off + n
    · rw [if_pos hk, if_pos (by omega), hk, Nat.add_sub_cancel_left]
    · rw [if_neg hk]
      exact if_congr (by omega) rfl rfl

/-- R314: a die that latches a descriptor reads its words. -/
theorem desc_latchDesc {i : Nat} (hi : i < 14) :
    ∃ d, tabFind ((s.latchDesc die x).ctx x).desc die = some d ∧ tabGet 0 d i = s.descMem x i := by
  unfold State.latchDesc
  rw [modCtx_def, ctx_setCtx, if_pos rfl]
  refine ⟨_, (tabFind_tabPut ..).trans (if_pos rfl), ?_⟩
  have hfirst := tabGet_foldl_words (f := fun i => s.descMem x i) 0 14 [] i
  simp only [Nat.zero_add] at hfirst
  rw [List.foldl_append, tabGet_foldl_words 64 64, if_neg (by omega), hfirst, if_pos ⟨Nat.zero_le _, hi⟩, Nat.sub_zero]

/-- The die has latched the descriptor, assigned the CSM and, at home, loaded the semaphores. -/
def latchedIn (s : State) (die x : Nat) : State :=
  if ((s.latchDesc die x).assignCsm x).homeDie x = die then ((s.latchDesc die x).assignCsm x).loadSems x
  else (s.latchDesc die x).assignCsm x

theorem ctx_latchedIn (c : Nat) : ((latchedIn s die x).ctx c).resid = (s.ctx c).resid ∧
    ((latchedIn s die x).ctx c).desc = ((s.latchDesc die x).ctx c).desc := by
  have hassign := ctx_assignCsm (s.latchDesc die x) x c
  have hload := ctx_loadSems ((s.latchDesc die x).assignCsm x) x c
  unfold latchedIn
  split_ifs
  · rw [hload, hassign, ctx_latchDesc]
    exact ⟨rfl, rfl⟩
  · rw [hassign, ctx_latchDesc]
    exact ⟨rfl, rfl⟩

theorem arriveCtx_def : s.arriveCtx die x = ((latchedIn s die x).setResid x die .arriving).modCtx x
    fun c => { c with nextOn := tabDel c.nextOn die } := rfl

theorem residOn_arriveCtx {c : Nat} (hc : c ≠ 0) (d : Nat) :
    (s.arriveCtx die x).residOn c d = if c = x ∧ d = die then .arriving else s.residOn c d := by
  have hnext : ((s.arriveCtx die x).ctx c).resid = (((latchedIn s die x).setResid x die .arriving).ctx c).resid := by
    rw [arriveCtx_def, modCtx_def, ctx_setCtx]
    split_ifs with h
    · rw [h]
    · rfl
  rw [residOn_of_ctx hnext hc, residOn_setResid _ hc, residOn_of_ctx (ctx_latchedIn s die x c).1 hc]

theorem descOn_arriveCtx {i : Nat} (hi : i < 14) : (s.arriveCtx die x).descOn die x i = s.descMem x i := by
  have hdesc : ((s.arriveCtx die x).ctx x).desc = ((s.latchDesc die x).ctx x).desc := by
    rw [arriveCtx_def, modCtx_def, ctx_setCtx, if_pos rfl, State.setResid, modCtx_def, ctx_setCtx, if_pos rfl]
    exact (ctx_latchedIn s die x x).2
  obtain ⟨d, hd, hval⟩ := desc_latchDesc s die x hi
  unfold State.descOn
  rw [hdesc, hd]
  exact hval

end Arrive

/-! ### A context that has left (R337, R347) -/

/-- A search that an entry's change does not touch. -/
theorem find?_tabPut {α : Type} {p : Nat × α → Bool} {t : Tab α} {i : Nat} {v : α} (hv : p (i, v) = false)
    (h : ∀ w, tabFind t i = some w → p (i, w) = false) : (tabPut t i v).find? p = t.find? p := by
  induction t with
  | nil => simp [tabPut, hv]
  | cons x t ih =>
    obtain ⟨k, w⟩ := x
    rw [tabPut]
    by_cases hk : k = i
    · subst hk
      rw [if_pos rfl, List.find?_cons_of_neg (by simp [hv]),
        List.find?_cons_of_neg (by simp [h w (by rw [tabFind, if_pos rfl])])]
    · rw [if_neg hk]
      by_cases hlt : i < k
      · rw [if_pos hlt, List.find?_cons_of_neg (by simp [hv])]
      · rw [if_neg hlt, List.find?_cons, List.find?_cons, ih fun w' hw' => h w' (by rw [tabFind, if_neg hk, hw'])]

section Leave
variable (s : State) (die x : Nat)

/-- The first context that waits for the slot of `x` on a die. -/
def follower (s : State) (die x : Nat) : Option (Nat × Ctx) := s.ctxs.find? fun e => tabFind e.2.nextOn die == some x

theorem follower_modCtx {f : Ctx → Ctx} (hf : ∀ c, (f c).nextOn = c.nextOn)
    (hself : tabFind (s.ctx x).nextOn die ≠ some x) : follower (s.modCtx x f) die x = follower s die x := by
  refine find?_tabPut ?_ fun w hw => ?_
  · simpa [hf] using hself
  · have hctx : s.ctx x = w := by rw [State.ctx, tabGet_eq, hw]; rfl
    simpa [hctx] using hself

theorem nextOn_modCtx {f : Ctx → Ctx} (hf : ∀ c, (f c).nextOn = c.nextOn) (c : Nat) :
    ((s.modCtx x f).ctx c).nextOn = (s.ctx c).nextOn := by
  rw [modCtx_def, ctx_setCtx]
  split_ifs with h
  · rw [hf, h]
  · rfl

/-- A context without semaphores. -/
def noSems (c : Ctx) : Ctx := { c with sems := [] }

theorem saveSems_frame : ∃ b, OnlyMemory s b ∧ s.saveSems x = b.modCtx x noSems :=
  ⟨_, onlyMemory_agentWrite .., rfl⟩

/-- A context's semaphores stored, at home. -/
def semsSaved (s : State) (die x : Nat) : State := if s.homeDie x = die then s.saveSems x else s

/-- The context out of the die. -/
def leftDie (s : State) (die x : Nat) : State :=
  ((semsSaved s die x).setResid x die .out).modCtx x fun c => { c with desc := tabDel c.desc die }

theorem finishLeave_done (hleaving : s.residOn x die = .leaving) (hoff : s.offDie die x = true)
    (hhome : s.homeDie x = die → (∀ d, d < 4 → d ≠ die → s.residOn x d = .out) ∧ s.semIdle x = true) :
    s.finishLeave die x = match follower (leftDie s die x) die x with
      | some c => (leftDie s die x).arriveCtx die c.1
      | none => leftDie s die x := by
  unfold State.finishLeave
  dsimp only
  rw [if_neg]
  · rfl
  · rintro (h | h | ⟨hh, h⟩)
    · exact h hleaving
    · simp [hoff] at h
    · obtain ⟨hothers, hidle⟩ := hhome hh
      rcases h with h | h
      · exact absurd h (by simpa using hothers)
      · simp [hidle] at h

theorem finishLeave_stays (hoff : s.offDie die x = false) : s.finishLeave die x = s := by
  unfold State.finishLeave
  dsimp only
  rw [if_pos (.inr (.inl (by simp [hoff])))]

/-- What a context's semaphores stored leave of the contexts. -/
theorem semsSaved_ctx (c : Nat) : (semsSaved s die x).ctx c =
    { s.ctx c with sems := ((semsSaved s die x).ctx c).sems } := by
  unfold semsSaved
  split_ifs
  · obtain ⟨b, hb, hsave⟩ := saveSems_frame s x
    have hctx : b.ctx c = s.ctx c := by rw [hb]; rfl
    rw [hsave, modCtx_def, ctx_setCtx, ← hctx]
    split_ifs with h
    · rw [h]
      rfl
    · rfl
  · rfl

theorem follower_semsSaved (hself : tabFind (s.ctx x).nextOn die ≠ some x) :
    follower (semsSaved s die x) die x = follower s die x := by
  unfold semsSaved
  split_ifs
  · obtain ⟨b, hb, hsave⟩ := saveSems_frame s x
    rw [hsave, follower_modCtx (f := noSems) _ _ _ (fun _ => rfl), hb]
    · rfl
    · rw [hb]
      exact hself
  · rfl

theorem residOn_leftDie {c : Nat} (hc : c ≠ 0) (d : Nat) :
    (leftDie s die x).residOn c d = if c = x ∧ d = die then .out else s.residOn c d := by
  have hdesc : ((leftDie s die x).ctx c).resid = (((semsSaved s die x).setResid x die .out).ctx c).resid := by
    rw [leftDie, modCtx_def, ctx_setCtx]
    split_ifs with h
    · rw [h]
    · rfl
  have hsems : ((semsSaved s die x).ctx c).resid = (s.ctx c).resid := by rw [semsSaved_ctx]
  rw [residOn_of_ctx hdesc hc, residOn_setResid _ hc, residOn_of_ctx hsems hc]

theorem follower_leftDie (hself : tabFind (s.ctx x).nextOn die ≠ some x) :
    follower (leftDie s die x) die x = follower s die x := by
  have hsaved : tabFind ((semsSaved s die x).ctx x).nextOn die ≠ some x := by rwa [semsSaved_ctx]
  have hout : tabFind (((semsSaved s die x).setResid x die .out).ctx x).nextOn die ≠ some x := by
    rwa [State.setResid, nextOn_modCtx]
    exact fun _ => rfl
  have hlast := follower_modCtx (f := fun c => { c with desc := tabDel c.desc die }) _ die x (fun _ => rfl) hout
  have hresid := follower_modCtx (f := fun c => { c with resid := tabSet Resid.out c.resid die .out }) _ die x
    (fun _ => rfl) hsaved
  exact hlast.trans (hresid.trans (follower_semsSaved s die x hself))

end Leave

/-! ### Slots given (R347) -/

section Slots
variable (s : State) (die : Nat)

/-- The contexts that wait for a slot of a die. -/
def slotWaiters (s : State) (die : Nat) : List Nat := s.liveCtxs.filter fun c => s.residOn c die == .out &&
  (tabFind (s.ctx c).nextOn die).isNone && s.demand die c && s.mayReside die c

/-- The contexts of a die that may be displaced. -/
def displaceable (s : State) (die : Nat) : List Nat := (s.slotHolders die).filter fun v => s.residOn v die == .resident

theorem giveSlot_none (atOnce : Bool) (h : slotWaiters s die = []) : s.giveSlot die atOnce = s := by
  unfold State.giveSlot
  dsimp only
  rw [← slotWaiters, h]
  rfl

section Some
variable {s die} {atOnce : Bool} {x : Nat} (htop : topRank (s.dieRank die) (slotWaiters s die) = some x)
include htop

theorem giveSlot_some : s.giveSlot die atOnce =
    if atOnce && !(s.isBehind die x && decide (16 ≤ (s.slotHolders die).length)) then s
    else if (s.slotHolders die).length < 16 then s.arriveCtx die x
    else match lastRank (s.dieRank die) (displaceable s die) with
      | none => s
      | some v => if (s.dieRank die x).before (s.dieRank die v) then
          (s.leaveDie die v).modCtx x fun c => { c with nextOn := tabPut c.nextOn die v }
        else s := by
  unfold State.giveSlot
  dsimp only
  rw [← slotWaiters, htop]
  rfl

end Some

end Slots

/-! ### QEPOCH and QDONE (R318, R369) -/

/-- The lowest of a list's distances. -/
theorem foldl_min_spec (l : List Int) (r : Int) :
    (l.foldl min r = r ∨ l.foldl min r ∈ l) ∧ l.foldl min r ≤ r ∧ ∀ x ∈ l, l.foldl min r ≤ x := by
  induction l generalizing r with
  | nil => exact ⟨.inl rfl, le_rfl, fun _ h => absurd h List.not_mem_nil⟩
  | cons y l ih =>
    obtain ⟨hmem, hle, hall⟩ := ih (min r y)
    rw [List.foldl_cons]
    refine ⟨?_, hle.trans (min_le_left ..), List.forall_mem_cons.mpr ⟨hle.trans (min_le_right ..), hall⟩⟩
    rcases hmem with h | h
    · rcases min_choice r y with h' | h'
      · exact .inl (h.trans h')
      · exact .inr (by rw [h, h']; exact List.mem_cons_self)
    · exact .inr (List.mem_cons_of_mem _ h)

/-- How far an epoch is ahead of another, modulo 2^32 (log 113). -/
def epochsAhead (q : BitVec 32) (e : Nat) : Int := (BitVec.ofNat 32 e - q).toInt

/-- The newest epoch before all of a list. -/
def quietEpoch (q : BitVec 32) (es : List Nat) : BitVec 32 :=
  match es.map (epochsAhead q) with
  | [] => q
  | r :: rs => q + BitVec.ofInt 32 (rs.foldl min r - 1)

theorem quietEpoch_spec {q : BitVec 32} {es : List Nat} (h : es ≠ []) :
    ∃ e ∈ es, quietEpoch q es = BitVec.ofNat 32 e - 1 ∧ ∀ x ∈ es, epochsAhead q e ≤ epochsAhead q x := by
  cases es with
  | nil => exact absurd rfl h
  | cons a es =>
    obtain ⟨hmem, hle, hall⟩ := foldl_min_spec (es.map (epochsAhead q)) (epochsAhead q a)
    have hmin : ∃ e ∈ a :: es, epochsAhead q e = (es.map (epochsAhead q)).foldl min (epochsAhead q a) := by
      rcases hmem with h | h
      · exact ⟨a, List.mem_cons_self, h.symm⟩
      · obtain ⟨e, he, heq⟩ := List.mem_map.mp h
        exact ⟨e, List.mem_cons_of_mem _ he, heq⟩
    obtain ⟨e, he, heq⟩ := hmin
    refine ⟨e, he, ?_, List.forall_mem_cons.mpr ⟨heq ▸ hle, fun x hx => heq ▸ hall _ (List.mem_map_of_mem hx)⟩⟩
    rw [quietEpoch, List.map_cons]
    dsimp only
    rw [← heq, epochsAhead, Int.sub_eq_add_neg, BitVec.ofInt_add, BitVec.ofInt_toInt]
    change q + (BitVec.ofNat 32 e - q + -1#32) = BitVec.ofNat 32 e - 1#32
    bv_omega

theorem newQdone_eq (s : State) : s.newQdone = quietEpoch s.qdone
    (s.epochsOut ++ ((s.dies.filter fun x => x.2.up && !x.2.lost).map fun x => x.2.epochNow.toNat)) := rfl

/-- A die whose QEPOCH is due advances it. -/
def epochAdvanced (s : State) (die : Nat) : State :=
  if (s.die die).up = true ∧ (s.die die).epochAt < (s.die die).gnomon.toNat / 9400 then
    s.modDie die fun d => { d with qepoch := d.qepoch + 1, epochAt := d.epochAt + 1 } else s

theorem epochAdvanced_eq (s : State) (die : Nat) : epochAdvanced s die = { s with dies := (epochAdvanced s die).dies } := by
  unfold epochAdvanced
  split_ifs <;> rfl

theorem exec_qepochAdvance (s : State) (die : Nat) : exec (.qepochAdvance die) s =
    .next { epochAdvanced s die with qdone := (epochAdvanced s die).newQdone } := by
  change execQepochAdvance die s = _
  unfold execQepochAdvance epochAdvanced
  dsimp only
  by_cases hdue : (s.die die).up = true ∧ (s.die die).epochAt < (s.die die).gnomon.toNat / 9400
  · rw [if_pos hdue, if_neg (by simp [hdue.1]; omega)]
  · rw [if_neg hdue, if_pos]
    by_cases hup : (s.die die).up = true
    · exact .inr (not_lt.mp fun h => hdue ⟨hup, h⟩)
    · exact .inl (by simpa using hup)

/-- The context `ctx` is `r` on the die now, and no other has moved. -/
def Relocates (s t : State) (die ctx : Nat) (r : Resid) : Prop :=
  t.residOn ctx die = r ∧ ∀ c d, c ≠ 0 → (c, d) ≠ (ctx, die) → t.residOn c d = s.residOn c d

theorem relocates_of_residOn {s t : State} {die ctx : Nat} {r : Resid} (hctx : ctx ≠ 0)
    (h : ∀ c d, c ≠ 0 → t.residOn c d = if c = ctx ∧ d = die then r else s.residOn c d) : Relocates s t die ctx r :=
  ⟨(h ctx die hctx).trans (if_pos ⟨rfl, rfl⟩), fun c d hc hne => (h c d hc).trans (if_neg fun ⟨h1, h2⟩ => hne (by rw [h1, h2]))⟩

section Settle
variable {s : State} {die x : Nat} (hx : x ≠ 0)
include hx

theorem relocates_settle_arriving (h : s.residOn x die = .arriving) (hd : die ≠ s.homeDie x)
    (hh : s.residOn x (s.homeDie x) = .resident) : Relocates s (s.settleCtx die x) die x .resident := by
  have hset : s.settleCtx die x = s.setResid x die .resident := by
    unfold State.settleCtx
    dsimp only
    rw [h]
    exact if_pos ⟨hd, hh⟩
  rw [hset]
  exact relocates_of_residOn hx fun c d hc => residOn_setResid s hc ..

omit hx in
theorem settle_resident (h : s.residOn x die = .resident) (hlost : (s.die (s.homeDie x)).lost = false)
    (hgo : 2 ≤ s.ctxState x ∨ (die ≠ s.homeDie x ∧ s.residOn x (s.homeDie x) ≠ .resident)) :
    s.settleCtx die x = s.leaveDie die x := by
  unfold State.settleCtx
  dsimp only
  rw [h]
  dsimp only
  rw [if_neg (by simp [hlost]), if_pos hgo]

omit hx in
theorem settle_leaving (h : s.residOn x die = .leaving) : s.settleCtx die x = s.finishLeave die x := by
  unfold State.settleCtx
  dsimp only
  rw [h]

variable (hleaving : s.residOn x die = .leaving) (hoff : s.offDie die x = true)
  (hhome : s.homeDie x = die → (∀ d, d < 4 → d ≠ die → s.residOn x d = .out) ∧ s.semIdle x = true)
include hleaving hoff hhome

theorem relocates_settle_out (hnone : ∀ c ∈ s.ctxs, tabFind c.2.nextOn die ≠ some x) :
    Relocates s (s.settleCtx die x) die x .out := by
  have hself : tabFind (s.ctx x).nextOn die ≠ some x := by
    rw [State.ctx, tabGet_eq]
    cases hf : tabFind s.ctxs x with
    | none => simp [ctxNone, tabFind]
    | some k => exact hnone _ (mem_of_tabFind hf)
  have hfollow : follower s die x = none := by
    rw [follower, List.find?_eq_none]
    intro c hc
    simpa using hnone c hc
  rw [settle_leaving hleaving, finishLeave_done s die x hleaving hoff hhome, follower_leftDie s die x hself, hfollow]
  exact relocates_of_residOn hx fun c d hc => residOn_leftDie s die x hc d

theorem settle_follows {c : Nat} {k : Ctx} (hfollow : follower s die x = some (c, k)) (hc : c ≠ 0) (hcx : c ≠ x)
    (hself : tabFind (s.ctx x).nextOn die ≠ some x) :
    (s.settleCtx die x).residOn x die = .out ∧ (s.settleCtx die x).residOn c die = .arriving := by
  rw [settle_leaving hleaving, finishLeave_done s die x hleaving hoff hhome, follower_leftDie s die x hself, hfollow]
  dsimp only
  rw [residOn_arriveCtx _ _ _ hx, if_neg fun h => hcx h.1.symm, residOn_leftDie s die x hx, if_pos ⟨rfl, rfl⟩,
    residOn_arriveCtx _ _ _ hc, if_pos ⟨rfl, rfl⟩]
  exact ⟨rfl, rfl⟩

end Settle

/-- The last-ranked resident displaced by the first-ranked that waits (R347). -/
def displaced (s : State) (die x v : Nat) : State :=
  (s.leaveDie die v).modCtx x fun c => { c with nextOn := tabPut c.nextOn die v }

theorem residOn_displaced (s : State) {c : Nat} (hc : c ≠ 0) (die x v d : Nat) :
    (displaced s die x v).residOn c d = if c = v ∧ d = die then .leaving else s.residOn c d := by
  have hresid : ((displaced s die x v).ctx c).resid = ((s.leaveDie die v).ctx c).resid := by
    rw [displaced, modCtx_def, ctx_setCtx]
    split_ifs with h
    · rw [h]
    · rfl
  rw [residOn_of_ctx hresid hc, residOn_leaveDie s hc]

theorem nextOn_displaced (s : State) (die x v : Nat) :
    tabFind ((displaced s die x v).ctx x).nextOn die = some v := by
  rw [displaced, modCtx_def, ctx_setCtx, if_pos rfl, tabFind_tabPut, if_pos rfl]

theorem displaceable_ne_zero {s : State} {die v : Nat} (h : v ∈ displaceable s die) : v ≠ 0 := by
  obtain ⟨e, he, rfl⟩ := List.mem_map.mp (List.mem_filter.mp h).1
  have := (List.mem_filter.mp he).2
  simp only [Bool.and_eq_true, bne_iff_ne] at this
  exact this.1

/-- Settles O52: the moves of one context, the slot given, and the lowest epoch in flight. -/
theorem residency : Obligations.residency := by
  refine ⟨fun s die hdue => ?_, fun s die hup hlost hdue => ?_, fun s die ctx hctx => ?_, fun s die => ?_⟩
  · change execResidencyChoice die s = _
    unfold execResidencyChoice
    dsimp only
    rw [if_pos (.inr (.inr hdue))]
  · have hexec : exec (.residencyChoice die) s = execResidencyChoice die s := rfl
    unfold execResidencyChoice at hexec
    dsimp only at hexec
    rw [if_neg (by simp [hup, hlost, hdue])] at hexec
    refine ⟨fun h => ?_, fun h => hexec.trans (if_neg (not_lt.mpr h))⟩
    exact ⟨_, hexec.trans (if_pos h), modDie_frame .., fun d => die_modDie ..⟩
  · refine ⟨relocates_settle_arriving hctx, fun h hlost hgo => ?_, fun h hoff hhome => ⟨relocates_settle_out hctx h hoff hhome,
      fun c k hfollow hc hne => settle_follows hctx h hoff hhome hfollow hc hne⟩, fun h hoff => ?_,
      fun atOnce waiting hwait => ?_⟩
    · rw [settle_resident h hlost hgo]
      exact ⟨relocates_of_residOn hctx fun c d hc => residOn_leaveDie s hc .., fun c hc => halting_leaveDie s die ctx hc⟩
    · rw [settle_leaving h, finishLeave_stays s die ctx hoff]
    · have hwaiters : waiting = slotWaiters s die := hwait
      refine ⟨fun h => giveSlot_none s die atOnce (hwaiters.symm.trans h), fun htop => ?_⟩
      have hgive := giveSlot_some (atOnce := atOnce) (show topRank (s.dieRank die) (slotWaiters s die) = some ctx by
        rw [← hwaiters, htop])
      refine ⟨topRank_spec htop, fun hat hno => ?_, fun hat hroom => ?_, fun hfull hat => ?_⟩
      · refine hgive.trans (if_pos ?_)
        rw [hat, Bool.true_and, Bool.not_eq_true', Bool.and_eq_false_iff]
        exact hno.symm.imp_right fun h => decide_eq_false h
      · rw [if_neg (by simp [hat]), if_pos (not_le.mp hroom)] at hgive
        rw [hgive]
        exact ⟨relocates_of_residOn hctx fun c d hc => residOn_arriveCtx s die ctx hc d,
          fun i hi => descOn_arriveCtx s die ctx hi⟩
      · have hgo : ¬ (atOnce && !(s.isBehind die ctx && decide (16 ≤ (s.slotHolders die).length))) = true := by
          rcases hat with h | h
          · simp [h]
          · simp [h, hfull]
        rw [if_neg hgo, if_neg (not_lt.mpr hfull)] at hgive
        refine ⟨fun hfree => ?_, fun v hv => ⟨lastRank_spec hv, fun hbefore => ?_, fun hbefore => ?_⟩⟩
        · have hnone : lastRank (s.dieRank die) (displaceable s die) = none := lastRank_eq_none.mpr hfree
          rw [hgive, hnone]
        · have hsome : lastRank (s.dieRank die) (displaceable s die) = some v := hv
          rw [hgive, hsome]
          exact if_neg (by simp [hbefore])
        · have hsome : lastRank (s.dieRank die) (displaceable s die) = some v := hv
          have hv0 : v ≠ 0 := displaceable_ne_zero (lastRank_spec hsome).1
          have ht : s.giveSlot die atOnce = displaced s die ctx v := by
            rw [hgive, hsome]
            exact if_pos hbefore
          rw [ht]
          exact ⟨(residOn_displaced s hv0 ..).trans (if_pos ⟨rfl, rfl⟩), fun c hc => halting_leaveDie s die v hc,
            nextOn_displaced s die ctx v, fun c d hc hne => (residOn_displaced s hc ..).trans
              (if_neg fun ⟨h1, h2⟩ => hne (by rw [h1, h2]))⟩
  · have hepochs : (epochAdvanced s die).epochsOut = s.epochsOut := by rw [epochAdvanced_eq]; rfl
    have hqdone : (epochAdvanced s die).qdone = s.qdone := by rw [epochAdvanced_eq]
    refine ⟨_, exec_qepochAdvance s die, ?_, fun j => ?_, fun es hes => ?_⟩
    · rw [epochAdvanced_eq]
    · change (epochAdvanced s die).die j = _
      unfold epochAdvanced
      by_cases hdue : (s.die die).up = true ∧ (s.die die).epochAt < (s.die die).gnomon.toNat / 9400
      · rw [if_pos hdue, die_modDie]
        exact if_congr (by simp [hdue]) rfl rfl
      · rw [if_neg hdue, if_neg fun h => hdue h.2]
    · have hq : (epochAdvanced s die).newQdone = quietEpoch s.qdone es := by
        rw [newQdone_eq, hepochs, hqdone, hes]
      refine ⟨fun h => hq.trans (by rw [h]; rfl), fun h => ?_⟩
      obtain ⟨e, he, hval, hall⟩ := quietEpoch_spec (q := s.qdone) h
      exact ⟨e, he, hq.trans hval, hall⟩

end Sys2Proof.Proofs

/-! Barrier objects (R266). -/

namespace Sys2Proof.Proofs

open Sys2Proof.Machine Sys2Proof.Laws

/-! ### The fields of an object -/

/-- The fields of an object lie in their ranges. -/
structure BarFits (b : Bar) : Prop where
  expect : b.expect < 2 ^ 16
  pending : b.pending < 2 ^ 16
  phase : b.phase < 16
  list : b.list < 2 ^ 64

theorem ofNat_toNat {b : Bar} (h : BarFits b) : Bar.ofNat b.toNat = { b with waiters := b.waiters % 2 ^ 24 } := by
  obtain ⟨expect, pending, phase, err, waiters, list⟩ := b
  obtain ⟨h1, h2, h3, h4⟩ := h
  dsimp only at h1 h2 h3 h4
  have herr : (Bar.toNat ⟨expect, pending, phase, err, waiters, list⟩).testBit 36 = err := by
    rw [Nat.testBit_eq_decide_div_mod_eq]
    cases err <;> simp [Bar.toNat] <;> omega
  rw [Bar.ofNat, herr]
  congr 1 <;> cases err <;> simp [Bar.toNat] <;> omega

theorem barFits_ofNat (w : Nat) : BarFits (Bar.ofNat w) := by
  constructor <;> exact Nat.mod_lt _ (by decide)

theorem waiters_ofNat_lt (w : Nat) : (Bar.ofNat w).waiters < 2 ^ 24 := Nat.mod_lt _ (by decide)

theorem barFits_bar (s : State) (k : Nat) : BarFits (s.bar k) := by
  obtain ⟨h1, h2, h3, h4⟩ := barFits_ofNat (s.readNat 0 k 16)
  unfold State.bar
  dsimp only
  split_ifs
  · exact ⟨h1, h2, h3, h4⟩
  · exact ⟨h1, h2, h3, Nat.two_pow_pos 64⟩

theorem waiters_bar_lt (s : State) (k : Nat) : (s.bar k).waiters < 2 ^ 24 := by
  unfold State.bar
  dsimp only
  split_ifs
  · exact waiters_ofNat_lt _
  · exact Nat.two_pow_pos 24

theorem toNat_lt {b : Bar} (h : BarFits b) : b.toNat < 256 ^ 16 := by
  obtain ⟨h1, h2, h3, h4⟩ := h
  unfold Bar.toNat
  split_ifs <;> omega

/-! ### What a bank writes -/

/-- Keys outside HBM at which no register shows. -/
def BankBytes (k n : Nat) : Prop :=
  ∀ a, k ≤ a → a < k + n → isHbm a = false ∧ 0x380000000000 ≤ a % 2 ^ 46 ∧ a % 2 ^ 46 < 0x380010000000

theorem bankBytes_of_csmObj {k : Nat} (h : CsmObj k) : BankBytes k 16 := by
  obtain ⟨die, cl, off, hdie, hcl, hoff, rfl⟩ := h
  intro a h1 h2
  unfold csmKey physKey at h1 h2
  have hlow : 0x380000000000 ≤ a % 2 ^ 46 ∧ a % 2 ^ 46 < 0x380010000000 := by omega
  refine ⟨?_, hlow⟩
  simp only [isHbm, Bool.and_eq_false_iff, decide_eq_false_iff_not]
  omega

theorem readByte_bank {s : State} {k n a mk : Nat} (h : BankBytes k n) (h1 : k ≤ a) (h2 : a < k + n) :
    s.readByte mk a = s.byte a := by
  obtain ⟨hh, hlow⟩ := h a h1 h2
  rw [readByte_of_not_hbm hh, deviceByte_eq_none (.inr hlow)]
  rfl

/-- Bytes written outside HBM: no tag changes. -/
theorem writeBytes_bank (bs : List (BitVec 8)) (s : State) (mk k : Nat) (h : BankBytes k bs.length) :
    s.writeBytes mk k bs = { s with mem := (s.writeBytes mk k bs).mem } ∧
      ∀ a, (s.writeBytes mk k bs).byte a =
        if k ≤ a ∧ a < k + bs.length then bs.getD (a - k) 0 else s.byte a := by
  induction bs generalizing s k with
  | nil => exact ⟨rfl, fun a => (if_neg (by simp)).symm⟩
  | cons b bs ih =>
    have hh : isHbm k = false := (h k le_rfl (by simp)).1
    have hput : s.writeBytes mk k (b :: bs) = (s.setByte k b).writeBytes mk (k + 1) bs := by
      rw [State.writeBytes, State.rekeyGranule, if_neg (by simp [hh])]
    obtain ⟨hframe, hbyte⟩ := ih (s.setByte k b) (k + 1) fun a h1 h2 => h a (by omega) (by rw [List.length_cons]; omega)
    refine ⟨by rw [hput, hframe, State.setByte], fun a => ?_⟩
    rw [hput, hbyte, byte_setByte, List.length_cons]
    by_cases hak : a = k
    · rw [if_neg (by omega), if_pos hak, if_pos (by omega), hak, Nat.sub_self]
      rfl
    · rw [if_neg hak]
      by_cases hin : k + 1 ≤ a ∧ a < k + 1 + bs.length
      · rw [if_pos hin, if_pos (by omega), show a - k = a - (k + 1) + 1 by omega, List.getD_cons_succ]
      · rw [if_neg hin, if_neg (by omega)]

section SetBar
variable {s : State} {k : Nat} {b : Bar}

/-- An object known to its bank (log 23). -/
def registered (k : Nat) (w : State) : State :=
  if w.barriers.contains k then w else { w with barriers := w.barriers ++ [k] }

theorem setBar_def (s : State) (k : Nat) (b : Bar) : s.setBar k b = registered k (s.writeNat 0 k 16 b.toNat) := rfl

theorem registered_eq (k : Nat) (w : State) : registered k w = { w with barriers := (registered k w).barriers } := by
  unfold registered
  split_ifs <;> rfl

theorem contains_registered (k : Nat) (w : State) : (registered k w).barriers.contains k = true := by
  unfold registered
  split_ifs with h
  · exact h
  · simp

/-- R266: the bank has written the object, and nothing else. -/
theorem barIs_setBar (hk : CsmObj k) (hb : BarFits b) :
    BarIs s (s.setBar k b) k { b with waiters := b.waiters % 2 ^ 24 } := by
  have hlen : (leBytes 16 b.toNat).length = 16 := length_leBytes ..
  have hread := leNat_leBytes 16 b.toNat
  rw [Nat.mod_eq_of_lt (toNat_lt hb)] at hread
  rw [setBar_def, State.writeNat]
  generalize leBytes 16 b.toNat = bs at hlen hread
  have hbank : BankBytes k 16 := bankBytes_of_csmObj hk
  obtain ⟨hframe, hbyte⟩ := writeBytes_bank bs s 0 k (by rwa [hlen])
  rw [hlen] at hbyte
  generalize s.writeBytes 0 k bs = w at hframe hbyte
  have hregister := registered_eq k w
  have hcontains := contains_registered k w
  generalize registered k w = t at hregister hcontains
  have hset : t = { s with mem := t.mem, barriers := t.barriers } := by rw [hregister, hframe]
  have hmem : ∀ a, t.byte a = if k ≤ a ∧ a < k + 16 then bs.getD (a - k) 0 else s.byte a := by
    have hmem : t.mem = w.mem := by rw [hregister]
    intro a
    rw [State.byte, hmem]
    exact hbyte a
  refine ⟨?_, fun key a ha => ?_, hset⟩
  · have hbytes : t.readBytes 0 k 16 = bs := by
      rw [readBytes_eq_map]
      refine List.ext_getElem (by simp [hlen]) fun i h1 h2 => ?_
      rw [List.getElem_map, List.getElem_range, readByte_bank hbank (by omega) (by omega), hmem, if_pos (by omega),
        Nat.add_sub_cancel_left, List.getD_eq_getElem _ _ h2]
    unfold State.bar
    dsimp only
    rw [hcontains, if_pos rfl, State.readNat, hbytes, hread, ofNat_toNat hb]
  · have hbyte' : t.byte a = s.byte a := by rw [hmem, if_neg (by omega)]
    have hsame : SameMemory { s with mem := t.mem } t := by constructor <;> rw [hset]
    rw [hsame.readByte]
    exact OnlyMemory.readByte_eq (s := s) (t := { s with mem := t.mem }) rfl hbyte' rfl key

end SetBar

/-! ### A store of the first eight bytes (R266) -/

/-- Byte `i` of a piece that writes all of them. -/
theorem byteAt_full {p : Piece} (hmask : p.mask = BitVec.allOnes 64) {i : Nat} (hi : i < 8) (old : BitVec 8) :
    p.byteAt i old = some (p.data.extractLsb' (8 * i) 8) := by
  have hm : p.mask.extractLsb' (8 * i) 8 = BitVec.allOnes 8 := by
    rw [hmask]
    refine BitVec.eq_of_getLsbD_eq fun j hj => ?_
    rw [BitVec.getLsbD_extractLsb', BitVec.getLsbD_allOnes, BitVec.getLsbD_allOnes]
    simp
    omega
  unfold Piece.byteAt
  dsimp only
  rw [hm, if_neg (by decide), BitVec.not_allOnes, BitVec.and_zero, BitVec.and_allOnes, BitVec.zero_or]

/-- The bytes that such a piece writes. -/
def newBytes (d : BitVec 64) : List (Nat × BitVec 8) := (List.range 8).map fun i => (i, d.extractLsb' (8 * i) 8)

/-- Byte `q.2` of an object, `q.1` before, as the bytes `news` are stored. -/
def storedByte (w : Nat) (news : List (Nat × BitVec 8)) (q : BitVec 8 × Nat) : BitVec 8 :=
  match news.find? fun e => e.1 == q.2 with
  | some e => if e.1 < 4 then e.2 else if e.1 = 4 then e.2 &&& 0x1F
      else if (Bar.ofNat w).waiters = 0 ∧ news.all (fun e => decide (e.1 < 5) || e.2 == 0) = true then e.2 else q.1
  | none => q.1

theorem storeBar_full {p : Piece} (w : Nat) (hlen : p.len = 8) (hmask : p.mask = BitVec.allOnes 64) :
    storeBar w p 0 = leNat ((leBytes 16 w).zipIdx.map (storedByte w (newBytes p.data))) := by
  have hnews : ((List.range p.len).filterMap fun i =>
      (p.byteAt i ((leBytes 16 w).getD (0 + i) 0)).map fun b => (0 + i, b)) = newBytes p.data := by
    rw [hlen, newBytes, ← List.filterMap_eq_map]
    refine List.filterMap_congr fun i hi => ?_
    rw [byteAt_full hmask (List.mem_range.mp hi), Nat.zero_add]
    rfl
  rw [← hnews]
  rfl

theorem find?_newBytes (d : BitVec 64) (i : Nat) : ((newBytes d).find? fun e => e.1 == i) =
    if i < 8 then some (i, d.extractLsb' (8 * i) 8) else none := by
  split_ifs with hi
  · unfold newBytes
    rw [List.find?_map, show (fun e : Nat × BitVec 8 => e.1 == i) ∘ (fun i => (i, d.extractLsb' (8 * i) 8)) =
      fun j => j == i from rfl]
    have hfind : (List.range 8).find? (fun j => j == i) = some i :=
      List.find?_range_eq_some.mpr ⟨by simp, List.mem_range.mpr hi, fun j hj => by simp; omega⟩
    rw [hfind]
    rfl
  · rw [List.find?_eq_none]
    intro e he
    obtain ⟨j, hj, rfl⟩ := List.mem_map.mp he
    have := List.mem_range.mp hj
    simp
    omega

theorem toNat_extract (d : BitVec 64) (i : Nat) : (d.extractLsb' (8 * i) 8).toNat = d.toNat / 2 ^ (8 * i) % 256 := by
  rw [BitVec.extractLsb'_toNat, Nat.shiftRight_eq_div_pow]

/-- Bytes 0 to 4 take effect, RSV apart; bytes 5 to 15 stay. -/
theorem toNat_storedByte (w : Nat) (d : BitVec 64) (i : Nat) :
    (storedByte w (newBytes d) (BitVec.ofNat 8 (w / 2 ^ (8 * i)), i)).toNat =
      if i < 4 then d.toNat / 2 ^ (8 * i) % 256 else if i = 4 then d.toNat / 2 ^ (8 * i) % 32
      else w / 2 ^ (8 * i) % 256 := by
  unfold storedByte
  dsimp only
  rw [find?_newBytes]
  by_cases h8 : i < 8
  · rw [if_pos h8]
    dsimp only
    by_cases h4 : i < 4
    · rw [if_pos h4, if_pos h4, toNat_extract]
    · rw [if_neg h4, if_neg h4]
      by_cases h5 : i = 4
      · rw [if_pos h5, if_pos h5, BitVec.toNat_and, toNat_extract]
        exact (Nat.and_two_pow_sub_one_eq_mod _ 5).trans (by omega)
      · rw [if_neg h5, if_neg h5]
        split_ifs with hhigh
        · obtain ⟨hw, hall⟩ := hhigh
          have hzero := List.all_eq_true.mp hall (i, d.extractLsb' (8 * i) 8)
            (List.mem_map_of_mem (List.mem_range.mpr h8))
          have hbyte : d.extractLsb' (8 * i) 8 = 0 := by
            have hi : ¬ i < 5 := by omega
            simpa [hi] using hzero
          have hwait : w / 2 ^ 40 % 2 ^ 24 = 0 := hw
          rw [hbyte]
          have hi : i = 5 ∨ i = 6 ∨ i = 7 := by omega
          rcases hi with rfl | rfl | rfl
          · exact (show w / 2 ^ 40 % 256 = 0 by omega).symm
          · exact (show w / 2 ^ 48 % 256 = 0 by omega).symm
          · exact (show w / 2 ^ 56 % 256 = 0 by omega).symm
        · exact BitVec.toNat_ofNat ..
  · rw [if_neg h8, if_neg (by omega), if_neg (by omega)]
    exact BitVec.toNat_ofNat ..

/-- The word of an object after a store of its first eight bytes. -/
def storedWord (w : Nat) (d : BitVec 64) : Nat := d.toNat % 2 ^ 37 + w % 2 ^ 128 / 2 ^ 40 * 2 ^ 40

theorem storeBar_eq {p : Piece} (w : Nat) (hlen : p.len = 8) (hmask : p.mask = BitVec.allOnes 64) :
    storeBar w p 0 = storedWord w p.data := by
  have hlist : (leBytes 16 w).zipIdx.map (storedByte w (newBytes p.data)) = leBytes 16 (storedWord w p.data) := by
    rw [leBytes_eq_map, leBytes_eq_map]
    refine List.ext_getElem (by simp) fun i h1 h2 => BitVec.eq_of_toNat_eq ?_
    have hi : i < 16 := by simpa using h2
    simp only [List.getElem_map, List.getElem_zipIdx, List.getElem_range, Nat.zero_add, toNat_storedByte,
      BitVec.toNat_ofNat, storedWord]
    interval_cases i <;> simp <;> omega
  rw [storeBar_full w hlen hmask, hlist, leNat_leBytes]
  unfold storedWord
  omega

/-- The object that software's store leaves, but for its waiters. -/
def storedBar (b : Bar) (d : Nat) : Bar :=
  { b with expect := d % 2 ^ 16, pending := d / 2 ^ 16 % 2 ^ 16, phase := d / 2 ^ 32 % 16, err := d.testBit 36 }

theorem ofNat_storedWord {b : Bar} (h : BarFits b) (hw : b.waiters < 2 ^ 24) (d : BitVec 64) :
    Bar.ofNat (storedWord b.toNat d) = storedBar b d.toNat := by
  have hback := ofNat_toNat h
  rw [Nat.mod_eq_of_lt hw] at hback
  have hlt := toNat_lt h
  have hwait : b.toNat / 2 ^ 40 % 2 ^ 24 = b.waiters := congrArg Bar.waiters hback
  have hlist : b.toNat / 2 ^ 64 % 2 ^ 64 = b.list := congrArg Bar.list hback
  have herr : (storedWord b.toNat d).testBit 36 = d.toNat.testBit 36 := by
    rw [Nat.testBit_eq_decide_div_mod_eq, Nat.testBit_eq_decide_div_mod_eq]
    unfold storedWord
    exact decide_eq_decide.mpr (by omega)
  unfold Bar.ofNat storedBar
  rw [herr]
  unfold storedWord
  congr 1 <;> omega

theorem storeObject_new {s : State} {k : Nat} {p : Piece} (hlen : p.len = 8) (hmask : p.mask = BitVec.allOnes 64)
    (hk : k % 16 = 0) : s.storeObject k p =
      let o := s.bar k
      let new := storedBar o p.data.toNat
      if o.phase ≠ new.phase ∧ o.waiters ≠ 0 then (s.setBar k { new with waiters := 0, list := 0 }).chainFreed k
      else s.setBar k new := by
  have hbase : k / 16 * 16 = k := by omega
  unfold State.storeObject
  dsimp only
  rw [hbase, Nat.sub_self, storeBar_eq _ hlen hmask, ofNat_storedWord (barFits_bar s k) (waiters_bar_lt s k)]
  rfl

theorem barFits_storedBar {b : Bar} (h : BarFits b) (d : Nat) : BarFits (storedBar b d) :=
  ⟨Nat.mod_lt _ (by decide), Nat.mod_lt _ (by decide), Nat.mod_lt _ (by decide), h.list⟩

/-! ### Who waits proceeds (R267) -/

/-- A waiter that proceeds leaves the access queues and the names. -/
theorem stores_proceed (s : State) (w : Waiter) (c : Nat) : ((s.proceed w).core c).stores = (s.core c).stores := by
  cases w with
  | task u r n =>
    rw [State.proceed, wakeRec_def, showRec_eq, modTeam_eq]
    rfl
  | cmd core id =>
    change ((s.modCore core fun k => { k with cmds := k.cmds.map (grantCmd id) }).core c).stores = _
    rw [modCore_def, core_setCore]
    split_ifs with h
    · rw [h]
    · rfl

theorem nextId_proceed (s : State) (w : Waiter) : (s.proceed w).nextId = s.nextId := by
  cases w with
  | task u r n => rw [State.proceed, wakeRec_def, showRec_eq, modTeam_eq]
  | cmd core id => rfl

theorem stores_chainFreed (s : State) (k c : Nat) : ((s.chainFreed k).core c).stores = (s.core c).stores :=
  foldl_keeps (fun s => (s.core c).stores) (fun s w => stores_proceed s w c) _ _

theorem nextId_chainFreed (s : State) (k : Nat) : (s.chainFreed k).nextId = s.nextId :=
  foldl_keeps State.nextId nextId_proceed _ _

end Sys2Proof.Proofs

/-! Barrier objects and their waiters (R252, R266 to R268). -/

namespace Sys2Proof.Proofs

open Sys2Proof.Machine Sys2Proof.Laws

/-! ### What filled TLBs leave -/

section Tlbs
variable {s z : State} (h : TlbsOnly s z)
include h

theorem tlbsOnly_readByte (mk a : Nat) : z.readByte mk a = s.readByte mk a := by
  have hqps : ∀ q, (z.cluster q).qps = (s.cluster q).qps := fun q => by rw [h.2.2 q]
  have hdevice : z.deviceByte a = s.deviceByte a := by
    have hdie : ∀ d, z.die d = s.die d := fun d => by rw [h.1]; rfl
    have hlog : z.mclog = s.mclog := by rw [h.1]
    have hticks : z.ticks = s.ticks := by rw [h.1]
    unfold State.deviceByte
    simp only [hqps, hdie, hlog, hticks]
  unfold State.readByte
  rw [hdevice, h.1]
  rfl

theorem tlbsOnly_readNat (mk k n : Nat) : z.readNat mk k n = s.readNat mk k n :=
  readNat_congr fun _ _ => tlbsOnly_readByte h ..

theorem tlbsOnly_bar (k : Nat) : z.bar k = s.bar k := by
  have hbarriers : z.barriers = s.barriers := by rw [h.1]
  unfold State.bar
  rw [tlbsOnly_readNat h, hbarriers]

theorem tlbsOnly_csmEntry (die ctx cl : Nat) : z.csmEntry die ctx cl = s.csmEntry die ctx cl := by
  have hctx : z.ctx ctx = s.ctx ctx := by rw [h.1]; rfl
  have hbase : z.ctxbase = s.ctxbase := by rw [h.1]
  have hmem : ∀ k, z.descMem ctx k = s.descMem ctx k := fun k => by
    rw [State.descMem, State.descMem, tlbsOnly_readNat h, hbase]
  unfold State.csmEntry State.descOn
  rw [hctx, hmem, hmem, tlbsOnly_readNat h]

theorem tlbsOnly_window (w : Who) (va len : Nat) (p : Path) : z.window w va len p = s.window w va len p := by
  have hcore : (z.core w.core).plane = (s.core w.core).plane := by rw [h.2.1]
  have hactive : (z.core w.core).activeCtx = (s.core w.core).activeCtx := by
    unfold Core.activeCtx
    rw [hcore]
  have hallot : ∀ cl, z.csmAllot w cl = s.csmAllot w cl := fun cl => by
    unfold State.csmAllot
    rw [hcore, hactive, tlbsOnly_csmEntry h]
  have hdie : ∀ d, z.die d = s.die d := fun d => by rw [h.1]; rfl
  have hworld : ∀ a b, z.worldOk a b = s.worldOk a b := fun a b => by rw [h.1]; rfl
  unfold State.window
  rw [tlbsOnly_teams h]
  simp only [hallot, hdie, hworld]

theorem tlbsOnly_objKey (w : Who) (va : W64) : z.objKey w va = s.objKey w va := by
  unfold State.objKey
  rw [tlbsOnly_window h]

end Tlbs

/-- A core that a search of the stores finds is in the table. -/
theorem any_of_tabGet {q : Nat → List Access → Bool} (hnil : ∀ c, q c [] = false) {t : Tab Core} {c : Nat}
    (h : q c (tabGet coreReset t c).stores = true) : (t.any fun e => q e.1 e.2.stores) = true := by
  rw [tabGet_eq] at h
  cases hf : tabFind t c with
  | none =>
    have hno := hnil c
    rw [hf] at h
    exact absurd (h.symm.trans hno) (by decide)
  | some k =>
    rw [hf] at h
    exact List.any_eq_true.mpr ⟨(c, k), mem_of_tabFind hf, h⟩

/-- A search of every core that looks at its stores alone. -/
theorem any_tabPut_core {q : Nat → List Access → Bool} (hnil : ∀ c, q c [] = false) (t : Tab Core) (c : Nat) (k : Core)
    (hk : k.stores = (tabGet coreReset t c).stores) :
    (tabPut t c k).any (fun e => q e.1 e.2.stores) = t.any fun e => q e.1 e.2.stores := by
  induction t with
  | nil =>
    have hstores : k.stores = [] := hk
    simp [tabPut, hstores, hnil]
  | cons e t ih =>
    obtain ⟨i, x⟩ := e
    rw [tabPut]
    by_cases hi : i = c
    · subst hi
      rw [tabGet, if_pos rfl] at hk
      rw [if_pos rfl, List.any_cons, List.any_cons, hk]
    · rw [if_neg hi]
      by_cases hlt : c < i
      · rw [if_pos hlt, List.any_cons, Bool.or_eq_right_iff_imp]
        intro hq
        exact any_of_tabGet hnil (by rw [← hk]; exact hq)
      · rw [tabGet, if_neg hi] at hk
        rw [if_neg hlt, List.any_cons, List.any_cons, ih hk]

/-- Does a store of a core stand before a read at a place? -/
def blocks (r : Nat) (loc : Loc) (len c : Nat) (stores : List Access) : Bool :=
  stores.any fun a => a.pieces.any fun q =>
    decide (sharedStage c r ≤ q.stage) && decide (q.stage < 4) &&
      (match q.loc with
        | some l => l.overlaps q.len loc len
        | none => false)

theorem readBlocked_eq (s : State) (r : Nat) (loc : Loc) (len : Nat) :
    s.readBlocked r loc len = s.cores.any fun e => blocks r loc len e.1 e.2.stores := rfl

theorem readBlocked_fillMiss (s : State) (w : Who) (p : Path) (write : Bool) (va r : Nat) (loc : Loc) (len : Nat) :
    (s.fillMiss w p write va).readBlocked r loc len = s.readBlocked r loc len := by
  unfold State.fillMiss
  split
  · rfl
  · split
    · rfl
    · exact any_tabPut_core (q := blocks r loc len) (fun _ => rfl) s.cores w.core _ rfl

theorem readBlocked_fillUnits (s : State) (w : Who) (p : Path) (write : Bool) (us : List (Nat × Nat)) (r : Nat)
    (loc : Loc) (len : Nat) : (s.fillUnits w p write us).readBlocked r loc len = s.readBlocked r loc len :=
  foldl_keeps (fun s => s.readBlocked r loc len) (fun s page => readBlocked_fillMiss s w p write (65536 * page) r loc len) _ s

/-! ### Arrivals (R252, R267) -/

/-- The virtual units of the status word of an arrival. -/
def statusUnits (c : Cmd) : List (Nat × Nat) := if c.xc = 0 then [] else [(c.xc.toNat, 4)]

section Arrive
variable {s : State} {id k : Nat} {c : Cmd} {f : FE3} {st : List Span}

theorem exec_barrierArriveStep (hc : s.cmd c.core id = some c) (hi : c.instr = .acwArrive f) (hruns : s.cmdRuns c = true)
    (hrel : s.acwReleased c true = true) (hkey : s.objKey c.who c.xa = .ok k)
    (hst : (s.fillUnits c.who .plain true (statusUnits c)).spans c.who .plain true (statusUnits c) = .ok st)
    (hfree : s.readBlocked c.core (.mem k) 16 = false) :
    exec (.barrierArriveStep c.core id) s =
      let a := (s.fillUnits c.who .plain true (statusUnits c)).arrive k c.xb.toNat
      .next ((a.2.engineWrite c st (leBytes 4 a.1)).finishCmd c) := by
  have hkey' : (s.fillUnits c.who .plain true (statusUnits c)).objKey c.who c.xa = .ok k := by
    rw [tlbsOnly_objKey (tlbsOnly_fillUnits ..), hkey]
  have hfree' := readBlocked_fillUnits s c.who .plain true (statusUnits c) c.core (.mem k) 16
  rw [hfree] at hfree'
  change execBarrierArriveStep c.core id s = _
  unfold execBarrierArriveStep
  rw [hc]
  dsimp only
  split
  · rw [if_neg (by simp [hruns, hrel]), ← statusUnits, hkey', hst]
    dsimp only
    rw [hfree', if_neg (by decide)]
  · next hno => exact absurd hi (hno f)

/-- The status word of an arrival leaves, and the command is over. -/
theorem answers_arrive (b : State) (c : Cmd) (st : List Span) (bs : List (BitVec 8)) :
    let t := (b.engineWrite c st bs).finishCmd c
    Sends b t c st bs ∧ Over b t c ∧ (∀ q, q ≠ c.core → t.core q = b.core q) ∧
      t.core c.core = { b.core c.core with
        cmds := (t.core c.core).cmds, stores := (t.core c.core).stores, sb := (t.core c.core).sb } ∧
      t = { b with cores := t.cores, openCmds := t.openCmds, reqs := t.reqs, nextId := t.nextId } := by
  have hcore := core_engineWrite b c st bs
  have hframe := engineWrite_eq b c st bs
  have hsends := sends_engineWrite b c st bs
  have hstep := stepOnly_engineWrite b c st bs
  generalize b.engineWrite c st bs = w at hcore hframe hsends hstep
  have hself : (w.finishCmd c).core c.core = { w.core c.core with
      cmds := (w.core c.core).cmds.filter fun d => d.id != c.id
      sb := ((w.finishCmd c).core c.core).sb } := by
    conv_lhs => rw [core_finishCmd, if_pos rfl]
  have hstores : ((w.finishCmd c).core c.core).stores = (w.core c.core).stores := by rw [hself]
  obtain ⟨hcmds, hopen, hsig⟩ := over_finishCmd w c
  dsimp only
  refine ⟨?_, ⟨?_, ?_, hsig⟩, fun q hq => ?_, ?_, ?_⟩
  · obtain ⟨h1, h2⟩ := hsends
    exact ⟨fun h => hstores.trans (h1 h), fun h => (h2 h).imp fun i hi => hstores.trans hi⟩
  · rw [hcmds, hcore]
  · rw [hopen, hframe]
  · rw [core_finishCmd, if_neg hq, hstep.cores q hq]
  · rw [hself, hcore]
  · rw [finishCmd_eq, hframe]

/-- An object is written as it is given where its count of waiters is in range. -/
theorem barIs_setBar_fits {s : State} {k : Nat} {b : Bar} (hk : CsmObj k) (hb : BarFits b) (hw : b.waiters < 2 ^ 24) :
    BarIs s (s.setBar k b) k b := by
  have h := barIs_setBar (s := s) hk hb
  rwa [Nat.mod_eq_of_lt hw] at h

/-- What an arrival leaves of its object, its status word, and whom it wakes. -/
theorem arrive_cases (z : State) {k n : Nat} (hk : CsmObj k) :
    let o := z.bar k
    let word := fun (o' : Bar) (code : Nat) => code + o'.phase * 2 ^ 8 + o'.pending * 2 ^ 16
    (o.pending < n → ∃ u, BarIs z u k { o with err := true } ∧
      z.arrive k n = (word { o with err := true } cBarrierOverrun, u)) ∧
    (n < o.pending → ∃ u, BarIs z u k { o with pending := o.pending - n } ∧
      z.arrive k n = (word { o with pending := o.pending - n } 0, u)) ∧
    (o.pending = n → ∃ u,
      BarIs z u k { o with phase := (o.phase + 1) % 16, pending := o.expect, waiters := 0, list := 0 } ∧
      z.arrive k n = (word { o with phase := (o.phase + 1) % 16, pending := o.expect, waiters := 0, list := 0 } 0,
        u.chainFreed k)) := by
  obtain ⟨h1, h2, h3, h4⟩ := barFits_bar z k
  have hw := waiters_bar_lt z k
  refine ⟨fun h => ⟨_, barIs_setBar_fits hk ⟨h1, h2, h3, h4⟩ hw, ?_⟩,
    fun h => ⟨_, barIs_setBar_fits hk ⟨h1, by dsimp only; omega, h3, h4⟩ hw, ?_⟩,
    fun h => ⟨_, barIs_setBar_fits hk ⟨h1, h1, Nat.mod_lt _ (by decide), Nat.two_pow_pos 64⟩ (Nat.two_pow_pos 24), ?_⟩⟩
  · unfold State.arrive
    dsimp only
    rw [if_pos h]
    rfl
  · unfold State.arrive
    dsimp only
    rw [if_neg (by omega), if_neg (by omega)]
    rfl
  · unfold State.arrive
    dsimp only
    rw [if_neg (by omega), if_pos h]
    rfl

end Arrive

/-! ### Waits (R34, R268) -/

section Wait
variable {s : State} {id k phase dt team r : Nat} {q : Rec}

theorem exec_barrierWait (hreq : tabFind s.reqs id = some (.barWait k phase dt team r)) (hq : Parked s team r q) :
    exec (.barrierWaitRequest id) s =
      if s.endsLater team r ∨ !s.depsDone q.deps ∨ s.readBlocked (s.teamCore team) (.mem k) 16 then .next s
      else if (s.die (keyDie k)).lost then .next ((s.dropReq id).wakeRec team r cPeerLost)
      else if (s.bar k).phase ≠ phase then .next (((s.dropReq id).setBar k (s.bar k)).wakeRec team r 0)
      else .next (((s.dropReq id).parkBar k (.task team r phase)).setDeadline team r (940 * dt)) := by
  change execBarrierWaitRequest id s = _
  simp only [execBarrierWaitRequest, hreq, hq.1]

/-- A parked record that is still there once the bank has written. -/
theorem parked_of_teams {b : State} (h : Parked s team r q) (ht : b.teams = s.teams) : Parked b team r q := by
  obtain ⟨hrec, hstate⟩ := h
  exact ⟨by rw [State.recOf, ht]; exact hrec, hstate⟩

/-- A team with a record changed. -/
def recChanged (r : Nat) (f : Rec → Rec) (t : Team) : Team :=
  { t with recs := t.recs.map fun q => if q.id = r then f q else q }

theorem changed_modRec (s : State) (u r : Nat) (f : Rec → Rec) : Changed s (s.modRec u r f) u r f [] := by
  refine ⟨s.modTeam u (recChanged r f), modTeam_eq .., fun v => ?_, fun m q hm hq hid => ?_⟩
  · rw [tabFind_modTeam]
    split_ifs with hv
    · rw [hv]
      simp only [List.append_nil]
      rfl
    · rfl
  · subst hid
    have hkey : ∀ c x, (s.modTeam u (recChanged q.id f)).keyOn c x = s.keyOn c x := fun c x => by
      rw [modTeam_eq]
      rfl
    rw [← hkey]
    exact shown_showRec hm hq

/-- The chain of an object with one more waiter. -/
def chained (u : State) (k : Nat) (w : Waiter) : State :=
  { u with barChains := tabPut u.barChains k (tabGet [] u.barChains k ++ [w]) }

/-- The object as a waiter parks on it. -/
def parkedBar (s : State) (k : Nat) : Bar :=
  let o := s.bar k
  { o with waiters := o.waiters + 1, list := if o.waiters = 0 then (Config.chainHead s.ticks).toNat else o.list }

theorem parkBar_def (s : State) (k : Nat) (w : Waiter) :
    s.parkBar k w = chained (s.setBar k (parkedBar s k)) k w := rfl

theorem barFits_parkedBar (s : State) (k : Nat) : BarFits (parkedBar s k) := by
  obtain ⟨h1, h2, h3, h4⟩ := barFits_bar s k
  refine ⟨h1, h2, h3, ?_⟩
  unfold parkedBar
  dsimp only
  split_ifs
  · exact BitVec.isLt _
  · exact h4

/-- R268, R43: the time that a record just parked may wait. -/
theorem setDeadline_cases (v : State) (team r d : Nat) :
    ((∀ x ∈ v.packs, x.team ≠ team) → Changed v (v.setDeadline team r d) team r
      (fun q => { q with deadline := (v.die (v.teamDie team)).gnomon.toNat + d }) []) ∧
    ((∃ x ∈ v.packs, x.team = team) → v.setDeadline team r d = { v with packs := v.packs.map fun x =>
      if x.team = team then { x with left := tabPut x.left r d } else x }) := by
  refine ⟨fun h => ?_, fun h => ?_⟩
  · have hno : ¬ (v.packs.any fun p => p.team == team) = true := by simpa using h
    rw [State.setDeadline, if_neg hno]
    exact changed_modRec ..
  · have hany : (v.packs.any fun p => p.team == team) = true := by simpa using h
    rw [State.setDeadline, if_pos hany]

end Wait

/-! ### Deadlines and unlinks (R268, R337) -/

section Unlink
variable {s : State} {id k team r : Nat}

/-- Is a waiter the record `r` of the team? -/
def isWaiter (team r : Nat) (w : Waiter) : Bool :=
  match w with
  | .task t q _ => t == team && q == r
  | _ => false

theorem isWaiter_iff (w : Waiter) : isWaiter team r w = true ↔ ∃ p, w = .task team r p := by
  cases w with
  | task t q p => simp [isWaiter]
  | cmd c i => simp [isWaiter]

/-- The object as a waiter is taken off its chain `l`. -/
def unlinkedBar (s : State) (k : Nat) (l : List Waiter) : Bar :=
  { s.bar k with waiters := (s.bar k).waiters - 1, list := if l.isEmpty then 0 else (s.bar k).list }

theorem unlinkBar_eq (s : State) (k team r status : Nat) : s.unlinkBar k team r status =
    let l : List Waiter := tabGet [] s.barChains k
    let rest := l.filter fun w => !isWaiter team r w
    if l.any (isWaiter team r) then
      ({ s.setBar k (unlinkedBar s k rest) with
        barChains := tabSet [] (s.setBar k (unlinkedBar s k rest)).barChains k rest } : State).wakeRec team r status
    else s := rfl

theorem barFits_unlinkedBar (s : State) (k : Nat) (l : List Waiter) : BarFits (unlinkedBar s k l) := by
  obtain ⟨h1, h2, h3, h4⟩ := barFits_bar s k
  refine ⟨h1, h2, h3, ?_⟩
  unfold unlinkedBar
  dsimp only
  split_ifs
  · exact Nat.two_pow_pos 64
  · exact h4

theorem exec_waitbUnlink (hreq : tabFind s.reqs id = some (.unlink k team r)) :
    exec (.waitbUnlink id) s = .next ((s.dropReq id).unlinkBar k team r 0x100) := by
  change execWaitbUnlink id s = _
  simp only [execWaitbUnlink, hreq]

theorem unlinks_setBar (hk : CsmObj k) {l : List Waiter} :
    let u := s.setBar k (unlinkedBar s k l)
    BarIs s u k { s.bar k with waiters := (s.bar k).waiters - 1, list := (u.bar k).list } := by
  have hw : (unlinkedBar s k l).waiters < 2 ^ 24 := lt_of_le_of_lt (Nat.sub_le _ 1) (waiters_bar_lt s k)
  have h := barIs_setBar_fits (s := s) hk (barFits_unlinkedBar s k l) hw
  obtain ⟨hbar, -, -⟩ := id h
  dsimp only
  rw [hbar]
  exact h

end Unlink

section Deadline
variable {s : State} {id team core k : Nat} {q : Rec} {m : Team}
  (hteam : s.teamOfRec id = some team) (hq : s.recOf team id = some q) (hm : tabFind s.teams team = some m)
  (hcore : m.core = some core) (hkind : q.kind = 2) (hstate : q.state = 0) (hdl : q.deadline ≠ 0)
  (hres : s.residOn m.ctx (dieOf core) = .resident) (hbar : s.barOf team id = some k)
include hteam hq hm hcore hkind hstate hdl hres hbar

theorem exec_waitbDeadline : exec (.waitbDeadline id) s =
    if (s.die (dieOf core)).gnomon.toNat < q.deadline ∨ s.unlinking team id = true then .next s
    else .next (s.putReq (.unlink k team id)) := by
  have hdie : s.teamDie team = dieOf core := by
    unfold State.teamDie
    rw [hm, Option.bind_some, hcore]
  change execWaitbDeadline id s = _
  simp [execWaitbDeadline, hteam, hq, hm, hcore, hkind, hstate, hdl, hres, hbar, hdie]

end Deadline

/-! ### Stores to objects (R266) -/

section Store
variable {s : State} {c id i k : Nat} {a : Access} {p : Piece}

theorem exec_barrierObjectStore (ha : ((s.core c).stores.find? fun a => a.id == id) = some a)
    (hp : a.pieces[i]? = some p) (hmay : s.mayStore c a i p 4 = true) (hon : s.onBarrier p = true)
    (hloc : p.loc = some (.mem k)) (hlost : s.locLost (.mem k) = false) :
    exec (.barrierObjectStore c id i) s = .next ((s.storeObject k p).advancePiece c a i 4 p) := by
  change execBarrierObjectStore c id i s = _
  unfold execBarrierObjectStore
  simp only [ha, hp, hloc, hmay, hon, hlost]
  rfl

/-- The piece is at its last point, and its store gone if all of them are. -/
theorem leaves_advancePiece {b : State} (hcmd : a.cmd = 0) (hid : a.id = id)
    (hstores : (b.core c).stores = (s.core c).stores) (hnext : b.nextId = s.nextId) :
    let t := b.advancePiece c a i 4 p
    let moved := { a with pieces := a.pieces.set i (p.moveTo 4 s.nextId) }
    (∀ q, q ≠ c → t.core q = b.core q) ∧
    t.core c = { b.core c with
      stores := if moved.pieces.all fun q => q.stage == q.lastStage
        then (s.core c).stores.filter fun b => b.id != id
        else (s.core c).stores.map fun b => if b.id = id then moved else b } ∧
    t = { b with cores := t.cores, nextId := s.nextId + 1 } := by
  obtain ⟨hother, hself⟩ := moves_advancePiece (s := b) (c := c) (i := i) (stage := 4) (p := p) hcmd
  refine ⟨hother, ?_, by rw [← hnext]; exact frame_advancePiece hcmd⟩
  rw [hself, ← hstores, ← hnext, ← hid]
  rfl

end Store

/-- The end of an arrival: its status word leaves, then the command is over. -/
def arriveOutcome (c : Cmd) (st : List Span) (a : Nat × State) :
    Host.Outcome State Fault Refusal :=
  .next ((a.2.engineWrite c st (leBytes 4 a.1)).finishCmd c)

/-- Settles O45, operation by operation of the banks. -/
theorem barriers : Obligations.barriers := by
  refine ⟨⟨?_, ?_⟩, ?_, ?_, ?_⟩
  · intro s id k c f st hc hi hruns hrel word z hkey hk hst hfree
    have hz : TlbsOnly s z := tlbsOnly_fillUnits ..
    have hexec := exec_barrierArriveStep hc hi hruns hrel hkey hst hfree
    have hbar : z.bar k = s.bar k := tlbsOnly_bar hz k
    obtain ⟨hover, hleft, hdone⟩ := arrive_cases z (n := c.xb.toNat) hk
    rw [hbar] at hover hleft hdone
    refine ⟨fun h => ?_, fun h => ?_, fun h => ?_⟩
    · obtain ⟨u, hu, har⟩ := hover h
      exact ⟨hz, u, _, hexec.trans (congrArg (arriveOutcome c st) har), hu, answers_arrive ..⟩
    · obtain ⟨u, hu, har⟩ := hleft h
      exact ⟨hz, u, _, hexec.trans (congrArg (arriveOutcome c st) har), hu, answers_arrive ..⟩
    · obtain ⟨u, hu, har⟩ := hdone h
      exact ⟨hz, u, _, hexec.trans (congrArg (arriveOutcome c st) har), hu, answers_arrive ..⟩
  · intro s c id i k a p ha hcmd hp hmay hon hloc hk hal hlost hlen hmask
    have hid : a.id = id := by simpa using List.find?_some ha
    have hexec := exec_barrierObjectStore ha hp hmay hon hloc hlost
    rw [storeObject_new hlen hmask hal] at hexec
    have hfits := barFits_storedBar (barFits_bar s k) p.data.toNat
    refine ⟨fun hno => ?_, fun hwakes => ?_⟩
    · have hbar := barIs_setBar_fits (s := s) hk hfits (waiters_bar_lt s k)
      refine ⟨_, hbar, _, hexec.trans (congrArg (fun b => Host.Outcome.next (State.advancePiece b c a i 4 p)) (if_neg hno)),
        leaves_advancePiece hcmd hid ?_ ?_⟩
      · rw [hbar.2.2]
        rfl
      · rw [hbar.2.2]
    · have hbar := barIs_setBar_fits (s := s) (b := { storedBar (s.bar k) p.data.toNat with waiters := 0, list := 0 }) hk
        ⟨hfits.expect, hfits.pending, hfits.phase, Nat.two_pow_pos 64⟩ (Nat.two_pow_pos 24)
      refine ⟨_, hbar, _, hexec.trans (congrArg (fun b => Host.Outcome.next (State.advancePiece b c a i 4 p)) (if_pos hwakes)),
        leaves_advancePiece hcmd hid ?_ ?_⟩
      · rw [stores_chainFreed, hbar.2.2]
        rfl
      · rw [nextId_chainFreed, hbar.2.2]
  · intro s id k phase dt team r q hreq hq hk
    have hexec := exec_barrierWait hreq hq
    refine ⟨fun h => ?_, fun h => ⟨s.dropReq id, served_dropReq s id, rfl, fun hlost => ?_, fun hlost hphase => ?_,
      fun hlost hphase => ?_⟩⟩
    · rw [hexec, if_pos]
      by_contra hno
      simp only [not_or, Bool.not_eq_true, Bool.not_eq_false'] at hno
      exact h hno
    all_goals
      obtain ⟨hlater, hdeps, hfree⟩ := h
      rw [if_neg (by simp [hlater, hdeps, hfree])] at hexec
    · rw [if_pos hlost] at hexec
      exact ⟨_, hexec, woken_wakeRec (parked_of_teams (b := s.dropReq id) hq rfl) _⟩
    · rw [if_neg (by simp [hlost]), if_pos hphase] at hexec
      have hbar := barIs_setBar_fits (s := s.dropReq id) hk (barFits_bar s k) (waiters_bar_lt s k)
      refine ⟨_, _, hexec, hbar, woken_wakeRec (parked_of_teams hq ?_) 0⟩
      rw [hbar.2.2]
      rfl
    · rw [if_neg (by simp [hlost]), if_neg (not_not_intro hphase), parkBar_def] at hexec
      have hbar := barIs_setBar (s := s.dropReq id) hk (barFits_parkedBar (s.dropReq id) k)
      have hframe := hbar.2.2
      generalize (s.dropReq id).setBar k (parkedBar (s.dropReq id) k) = u at hexec hbar hframe
      have hchains : u.barChains = s.barChains := by rw [hframe]; rfl
      have hpacks : u.packs = s.packs := by rw [hframe]; rfl
      obtain ⟨hdead, hpack⟩ := setDeadline_cases (chained u k (.task team r phase)) team r (940 * dt)
      refine ⟨u, _, hbar, fun hw => if_neg hw, chained u k (.task team r phase), _, hexec, rfl, fun j => ?_, fun h => ?_, fun h => ?_⟩
      · refine (tabGet_tabPut ..).trans ?_
        rw [hchains]
      · have hclock : ((chained u k (.task team r phase)).die ((chained u k (.task team r phase)).teamDie team)).gnomon =
            (s.die (s.teamDie team)).gnomon := by
          rw [hframe]
          rfl
        rw [← hclock]
        exact hdead (by rw [← hpacks] at h; exact h)
      · rw [← hpacks] at h ⊢
        exact hpack h
  · intro s id team core k q m hteam hq hm hcore hkind hstate hdl hres hbar
    have hexec := exec_waitbDeadline hteam hq hm hcore hkind hstate hdl hres hbar
    refine ⟨fun h => hexec.trans (if_pos (.inr h)), fun hno => ⟨fun h => hexec.trans (if_pos (.inl h)), fun h => ?_⟩⟩
    rw [if_neg (by simp [hno]; omega)] at hexec
    exact ⟨_, hexec, (tabFind_tabPut ..).trans (if_pos rfl), fun j hj => (tabFind_tabPut ..).trans (if_neg hj), rfl⟩
  · intro s id k team r hreq hk
    have hexec := exec_waitbUnlink hreq
    rw [unlinkBar_eq] at hexec
    refine ⟨fun hno => ?_, fun p q hin hq => ?_⟩
    · have hany : ¬ ((tabGet [] s.barChains k : List Waiter).any (isWaiter team r)) = true := by
        intro h
        obtain ⟨w, hw, hwait⟩ := List.any_eq_true.mp h
        obtain ⟨p, rfl⟩ := (isWaiter_iff w).mp hwait
        exact hno p hw
      exact ⟨_, hexec.trans (congrArg Host.Outcome.next (if_neg hany)), served_dropReq s id, rfl⟩
    · have hany : ((tabGet [] s.barChains k : List Waiter).any (isWaiter team r)) = true :=
        List.any_eq_true.mpr ⟨_, hin, (isWaiter_iff _).mpr ⟨p, rfl⟩⟩
      have hbar := unlinks_setBar (s := s.dropReq id) (l := (tabGet [] s.barChains k : List Waiter).filter
        fun w => !isWaiter team r w) hk
      have hchains := congrArg State.barChains hbar.2.2
      have hteams := congrArg State.teams hbar.2.2
      refine ⟨s.dropReq id, _, _, _, hexec.trans (congrArg Host.Outcome.next (if_pos hany)), served_dropReq s id, rfl, hbar,
        rfl, fun w => ?_, fun j hj => ?_, woken_wakeRec (parked_of_teams hq ?_) 0x100⟩
      · refine (iff_of_eq (congrArg (w ∈ ·) ((tabGet_tabSet ..).trans (if_pos rfl)))).trans ?_
        rw [List.mem_filter, Bool.not_eq_true', ← Bool.not_eq_true, isWaiter_iff]
        exact and_congr_right fun _ => not_exists
      · exact (tabGet_tabSet ..).trans ((if_neg hj).trans (congrArg (fun m => tabGet [] m j) hchains))
      · exact hteams

end Sys2Proof.Proofs

/-! Messages of the fabric at their target: what is placed, and what their senders are told (R280 to R288, R343). -/

namespace Sys2Proof.Proofs

open Sys2Proof.Machine Sys2Proof.Laws

/-! ### Codes with which a translation ends -/

/-- A code of one byte that is not success. -/
def ByteCode (c : Nat) : Prop := 0 < c ∧ c < 256

theorem byteCode_typeFault {p : Path} {typ c : Nat} (h : typeFault p typ = some c) : ByteCode c := by
  unfold typeFault at h
  split at h <;> cases h <;> exact ⟨by decide, by decide⟩

theorem byteCode_absent (k : AKind) : ByteCode k.absent := by cases k <;> exact ⟨by decide, by decide⟩

theorem byteCode_malformed (k : AKind) : ByteCode k.malformed := by cases k <;> exact ⟨by decide, by decide⟩

section Codes
variable {s : State} {w : Who} {c : Nat}

theorem byteCode_tableStop {table : Nat} (h : s.tableStop w table = some c) : ByteCode c := by
  simp only [State.tableStop] at h
  split_ifs at h <;> cases h <;> exact ⟨by decide, by decide⟩

theorem byteCode_walk3 {table va : Nat} {kind : AKind} (h : s.walk3 w table va kind = .error c) : ByteCode c := by
  simp only [State.walk3] at h
  split at h
  · cases h
    exact byteCode_tableStop ‹_›
  · split_ifs at h <;> cases h
    · exact byteCode_absent _
    · exact byteCode_malformed _

theorem byteCode_walk2 {table va : Nat} {kind : AKind} (h : s.walk2 w table va kind = .error c) : ByteCode c := by
  simp only [State.walk2] at h
  split at h
  · cases h
    exact byteCode_tableStop ‹_›
  · split_ifs at h
    · cases h
      exact byteCode_absent _
    · cases h
      exact byteCode_malformed _
    · cases h
      exact byteCode_malformed _
    · exact byteCode_walk3 h

theorem byteCode_walk {va : Nat} {kind : AKind} (h : s.walk w va kind = .error c) : ByteCode c := by
  simp only [State.walk] at h
  split at h
  · cases h
    exact byteCode_tableStop ‹_›
  · split_ifs at h
    · cases h
      exact byteCode_absent _
    · cases h
      exact byteCode_malformed _
    · exact byteCode_walk2 h

theorem byteCode_resolve {core ctx gpa : Nat} (h : s.resolve core ctx gpa = .error c) : ByteCode c := by
  simp only [State.resolve] at h
  split_ifs at h <;> cases h <;> exact ⟨by decide, by decide⟩

theorem byteCode_useLeaf {va : Nat} {e : BitVec 64} {big : Bool} {p : Path} {write : Bool}
    (h : s.useLeaf w va e big p write = .bad c) : ByteCode c := by
  have hdenied : ByteCode cAccessDenied := ⟨by decide, by decide⟩
  have hfetch : ByteCode cFetchNotExec := ⟨by decide, by decide⟩
  grind [State.useLeaf, byteCode_typeFault, byteCode_resolve]

theorem byteCode_window {va len : Nat} {p : Path} (h : s.window w va len p = .bad c) : ByteCode c := by
  have hrange : ByteCode cRange := ⟨by decide, by decide⟩
  have hlost : ByteCode cPeerLost := ⟨by decide, by decide⟩
  have hdenied : ByteCode cAccessDenied := ⟨by decide, by decide⟩
  grind [State.window, byteCode_typeFault]

theorem byteCode_look {va : W64} {len : Nat} {p : Path} {write : Bool} (h : s.look w va len p write = .bad c) :
    ByteCode c := by
  have hrange : ByteCode cRange := ⟨by decide, by decide⟩
  grind [State.look, byteCode_window, byteCode_useLeaf]

theorem byteCode_xlate {va : W64} {len : Nat} {p : Path} {write : Bool} (h : s.xlate w va len p write = .bad c) :
    ByteCode c := by
  grind [State.xlate, byteCode_look, byteCode_walk, byteCode_useLeaf]

theorem byteCode_spans {p : Path} {write : Bool} {us : List (Nat × Nat)} {va : Nat}
    (h : s.spans w p write us = .error (va, c)) : ByteCode c := by
  have hregion : ByteCode cVersionRegion := ⟨by decide, by decide⟩
  induction us with
  | nil => cases h
  | cons u us ih => grind [State.spans, byteCode_xlate]

end Codes

/-! ### What a message leaves at its target and with its sender -/

theorem turned_cameAgain (s : State) (m : FabricMsg) : Turned s (s.cameAgain m) m := by
  unfold State.cameAgain
  by_cases h : tabFind s.fullNos (msgPath m) = some m.msgno
  · rw [if_pos h]
    refine ⟨rfl, fun k => (tabFind_tabDel ..).trans ?_⟩
    by_cases hk : k = msgPath m
    · rw [if_pos hk, if_pos ⟨hk, hk ▸ h⟩]
    · rw [if_neg hk, if_neg fun hn => hk hn.1]
  · rw [if_neg h]
    exact ⟨rfl, fun k => (if_neg fun ⟨hk, hn⟩ => h (hk ▸ hn)).symm⟩

section Qp
variable {s : State} {cl qp : Nat} (g : Qp → Qp)

theorem modQp_of_none (h : tabFind (s.cluster cl).qps qp = none) : s.modQp cl qp g = s.setCluster cl (s.cluster cl) := by
  unfold State.modQp State.modCluster
  dsimp only
  rw [h]

theorem modQp_of_some {q : Qp} (h : tabFind (s.cluster cl).qps qp = some q) :
    s.modQp cl qp g = s.setCluster cl { s.cluster cl with qps := tabPut (s.cluster cl).qps qp (g q) } := by
  unfold State.modQp State.modCluster
  dsimp only
  rw [h]

variable (s cl qp)

theorem modQp_frame : s.modQp cl qp g = { s with clusters := (s.modQp cl qp g).clusters } := rfl

theorem cluster_modQp (c : Nat) :
    (s.modQp cl qp g).cluster c = { s.cluster c with qps := ((s.modQp cl qp g).cluster c).qps } := by
  by_cases hc : c = cl
  · subst hc
    cases hq : tabFind (s.cluster c).qps qp with
    | none => rw [modQp_of_none g hq, cluster_setCluster, if_pos rfl]
    | some q => rw [modQp_of_some g hq, cluster_setCluster, if_pos rfl]
  · rw [State.modQp, modCluster_def, cluster_setCluster, if_neg hc]

/-- A queue pair of a cluster changed, where it has one. -/
theorem tabFind_qps_modQp (c n : Nat) : tabFind ((s.modQp cl qp g).cluster c).qps n =
    if c = cl ∧ n = qp then (tabFind (s.cluster c).qps n).map g else tabFind (s.cluster c).qps n := by
  by_cases hc : c = cl
  · subst hc
    cases hq : tabFind (s.cluster c).qps qp with
    | none =>
      rw [modQp_of_none g hq, cluster_setCluster, if_pos rfl]
      split_ifs with h
      · rw [h.2, hq]
        rfl
      · rfl
    | some q =>
      rw [modQp_of_some g hq, cluster_setCluster, if_pos rfl]
      refine (tabFind_tabPut ..).trans ?_
      by_cases hn : n = qp
      · rw [if_pos hn, if_pos ⟨rfl, hn⟩, hn, hq]
        rfl
      · rw [if_neg hn, if_neg fun h => hn h.2]
  · rw [State.modQp, modCluster_def, cluster_setCluster, if_neg hc, if_neg fun h => hc h.1]

end Qp

section Sender
variable (s : State) (m : FabricMsg) {code : Nat}

/-- Its queue pair as a message is no longer on its way. -/
def Qp.rid (m : FabricMsg) (performed : Bool) (q : Qp) : Qp :=
  { q with
    unperformed := if performed then q.unperformed - 1 else q.unperformed
    retry := q.retry.filter fun r => r.msg != m }

theorem msgOver_def (p : Bool) : s.msgOver m p = (s.modTeam m.team fun t =>
    { t with posted := dropPosted m.ref (msgTarget m) t.posted }).modQp m.scl m.qp (Qp.rid m p) := rfl

theorem msgOver_frame (p : Bool) :
    s.msgOver m p = { s with teams := (s.msgOver m p).teams, clusters := (s.msgOver m p).clusters } := by
  rw [msgOver_def, modTeam_eq]
  rfl

theorem tabFind_msgOver (p : Bool) (u : Nat) : tabFind (s.msgOver m p).teams u = if u = m.team then
    (tabFind s.teams u).map fun t => { t with posted := dropPosted m.ref (msgTarget m) t.posted }
    else tabFind s.teams u := by
  refine (tabFind_modTeam s m.team u _).trans ?_
  split_ifs with h
  · rw [h]
  · rfl

theorem cluster_msgOver (p : Bool) (c : Nat) :
    (s.msgOver m p).cluster c = { s.cluster c with qps := ((s.msgOver m p).cluster c).qps } := by
  rw [msgOver_def, cluster_modQp, cluster_modTeam]

theorem tabFind_qps_msgOver (p : Bool) (c n : Nat) : tabFind ((s.msgOver m p).cluster c).qps n =
    if c = m.scl ∧ n = m.qp then (tabFind (s.cluster c).qps n).map (Qp.rid m p) else tabFind (s.cluster c).qps n := by
  rw [msgOver_def, tabFind_qps_modQp, cluster_modTeam]

theorem learns_msgOver : Learns s (s.msgOver m true) m 0 := by
  refine ⟨msgOver_frame .., fun u => (tabFind_msgOver ..).trans ?_, cluster_msgOver s m true,
    fun c n => (tabFind_qps_msgOver ..).trans ?_⟩
  · simp only [Team.told, true_or, if_true]
  · rfl

/-- A refusal of one byte recorded for its sender. -/
theorem learns_recordRefusal (h : ByteCode code) :
    Learns s ((s.msgOver m false).recordRefusal m.team (msgTarget m) (code % 256)) m code := by
  obtain ⟨hpos, hlt⟩ := h
  have hne : ¬ code = 0 := by omega
  unfold State.recordRefusal
  refine ⟨by rw [modTeam_eq, msgOver_frame], fun u => ?_, fun c => ?_, fun c n => ?_⟩
  · rw [tabFind_modTeam, tabFind_msgOver, tabFind_msgOver, if_pos rfl, Nat.mod_eq_of_lt hlt]
    split_ifs with hu
    · subst hu
      rw [Option.map_map]
      refine congrArg (fun f => Option.map f _) (funext fun t => ?_)
      simp only [Function.comp_apply, Team.told, hne, false_or]
      split_ifs <;> rfl
    · rfl
  · rw [cluster_modTeam, cluster_msgOver]
  · rw [cluster_modTeam, tabFind_qps_msgOver]
    simp only [hne, if_false]
    rfl

/-- The state once the sender of a message has been told that it is performed. -/
def toldDone : State :=
  if (s.msgLanded m).ownMsg m then s.msgLanded m
  else { s.msgLanded m with outbox := (s.msgLanded m).outbox ++ [.performed m.spkg m] }

theorem told_toldDone : Told s (toldDone s m) m 0 := by
  unfold toldDone State.msgLanded
  by_cases h : s.ownMsg m = true
  · have hover : (s.msgOver m true).ownMsg m = true := by rwa [msgOver_frame]
    rw [if_pos h, if_pos hover]
    exact ⟨fun _ => learns_msgOver s m, fun hno => by simp [h] at hno⟩
  · rw [if_neg h, if_neg h]
    exact ⟨fun hown => absurd hown h, fun _ => rfl⟩

/-- The refusals of a message's path name the message. -/
def refRefused : State := { s with refusedRefs := tabPut s.refusedRefs (msgPath m) m.ref }

theorem told_msgRefused (hpos : 0 < code) (hcode : s.ownMsg m = true → code < 256)
    (hlost : code ≠ cPeerLost ∨ m.fput = true ∨ s.ownMsg m = false) :
    Told (refRefused s m) (s.msgRefused m code) m code := by
  have hown : (refRefused s m).ownMsg m = s.ownMsg m := rfl
  refine ⟨fun h => ?_, fun h => ?_⟩
  · rw [hown] at h
    have hlt := hcode h
    have hrefused : s.msgRefused m code = (((refRefused s m).msgOver m false).recordRefusal m.team (msgTarget m)
        (code % 256)) := by
      refine (if_pos h).trans ?_
      unfold State.sendRefused
      dsimp only
      by_cases hput : m.fput = true
      · exact if_pos hput
      · have hne : code ≠ cPeerLost := hlost.resolve_right fun hor => hor.elim hput fun hno => by simp [h] at hno
        rw [if_neg hput, if_neg hne, if_neg fun he => by rw [he] at hlt; exact absurd hlt (by decide)]
        rfl
    rw [hrefused]
    exact learns_recordRefusal (refRefused s m) m ⟨hpos, hlt⟩
  · rw [hown] at h
    rw [if_neg (by omega)]
    exact if_neg (Bool.eq_false_iff.mp h)

end Sender

/-! ### Windows and fairness -/

section Target
variable (s : State) (die : Nat) (m : FabricMsg)

theorem noted_noteNo : Noted s (s.noteNo die m) die m := by
  unfold State.noteNo
  by_cases hw : m.windowed = true
  · rw [if_neg (by simp [hw])]
    refine ⟨rfl, fun d => (die_modDie ..).trans ?_⟩
    by_cases hd : d = die
    · rw [if_pos hd, if_pos ⟨hd, hw⟩, hd]
    · rw [if_neg hd, if_neg fun h => hd h.1]
  · rw [if_pos (by simp [hw])]
    exact ⟨rfl, fun d => (if_neg fun h => hw h.2).symm⟩

theorem gangIs_modFair (gang : Nat) (g : Fair → Fair) : GangIs s (s.modFair die gang g) die gang g := by
  unfold State.modFair
  cases he : (s.die die).gangEntry gang with
  | none => exact ⟨rfl, fun _ _ => rfl, fun _ _ h => nomatch he.symm.trans h⟩
  | some e =>
    obtain ⟨i, f⟩ := e
    refine ⟨modDie_frame .., fun d hd => ?_, fun j x h => ?_⟩
    · exact (die_modDie ..).trans (if_neg (hd.resolve_right fun h => nomatch he.symm.trans h))
    · obtain ⟨rfl, rfl⟩ := Prod.mk.inj (Option.some.inj (he.symm.trans h))
      dsimp only
      rw [die_modDie, if_pos rfl]
      exact ⟨rfl, fun n => tabFind_tabPut ..⟩

theorem gangIs_countMsg (gang : Nat) : GangIs s (s.countMsg die gang) die gang counted := gangIs_modFair s die gang _

end Target

/-! ### The kept remote key -/

section RemoteKey
variable (s : State) (ctx : Nat)

theorem remoteKey_of_some {k : W64} (h : (s.ctx ctx).rkey = some k) : s.remoteKey ctx = (k, s) := by
  unfold State.remoteKey
  rw [h]

theorem remoteKey_of_none (h : (s.ctx ctx).rkey = none) : (s.remoteKey ctx).1 = s.descMem ctx 3 := by
  unfold State.remoteKey
  rw [h]

theorem remoteKey_frame : (s.remoteKey ctx).2 =
    { s with mem := (s.remoteKey ctx).2.mem, tags := (s.remoteKey ctx).2.tags, ctxs := (s.remoteKey ctx).2.ctxs } := by
  cases h : (s.ctx ctx).rkey with
  | some k => rw [remoteKey_of_some s ctx h]
  | none =>
    unfold State.remoteKey
    rw [h]
    cases (s.ctx ctx).landKey with
    | none => rfl
    | some old =>
      dsimp only
      split_ifs
      · rfl
      · have hdrop := dropLanded_eq s ctx
        generalize s.dropLanded ctx = u at hdrop ⊢
        rw [hdrop]
        rfl

end RemoteKey

/-! ### Bytes placed in HBM -/

/-- What a write of a unit of HBM leaves there is what a software store does (R5), and nothing else changes. -/
theorem puts_writePiece {s : State} {mk k n : Nat} (data : BitVec 64) (hh : Hbm k n) (hn : 0 < n) :
    Puts s (s.writePiece k mk n data (BitVec.ofNat 64 (2 ^ (8 * n) - 1))) mk k n data ∧
      OnlyMemory s (s.writePiece k mk n data (BitVec.ofNat 64 (2 ^ (8 * n) - 1))) := by
  have hlt : k < 2 ^ 57 := lt_trans (isHbm_iff.mp (hh k le_rfl (by omega))).1 (by decide)
  have hplace : PlainPlace k n := .inl hh
  have hw := writePiece_plainPlace s
    (p := { newPiece 0 n data (BitVec.ofNat 64 (2 ^ (8 * n) - 1)) with mkey := mk }) hplace hn
  have hw' : s.writePiece k mk n data (BitVec.ofNat 64 (2 ^ (8 * n) - 1)) = s.writeNat mk k n _ :=
    hw.trans (if_neg (Nat.not_le.mpr hlt))
  rw [hw']
  refine ⟨?_, onlyMemory_writeBytes ..⟩
  have hst := stored_writeBytes (mk := mk) (leBytes n (merged s k
    { newPiece 0 n data (BitVec.ofNat 64 (2 ^ (8 * n) - 1)) with mkey := mk })) s k
    (by rw [length_leBytes]; exact backed_of_plainPlace s hplace hn)
  unfold merged at hst ⊢
  rw [if_pos hlt] at hst ⊢
  exact hst

/-- A unit of HBM that no barrier object touches. -/
theorem putUnits_hbm {s : State} {va k mk : Nat} {bs : List (BitVec 8)}
    (hfree : ∀ o ∈ s.barriers, o + 16 ≤ k ∨ k + bs.length ≤ o) :
    s.putUnits [⟨va, bs.length, .mem k, mk⟩] bs = s.writePiece k mk bs.length (w64 (leNat bs))
      (BitVec.ofNat 64 (2 ^ (8 * bs.length) - 1)) := by
  have hoff : (s.barriers.any fun o => decide (o < k + bs.length) && decide (k < o + 16)) = false := by
    rw [List.any_eq_false]
    intro o ho
    have := hfree o ho
    simp only [Bool.and_eq_true, decide_eq_true_eq]
    omega
  change s.putUnit ⟨va, bs.length, .mem k, mk⟩ (bs.take bs.length) = _
  rw [List.take_length]
  exact if_neg (Bool.eq_false_iff.mp hoff)

end Sys2Proof.Proofs

/-! The arrival of a message of the fabric at its target (R280, R287, R288, R343, R349 to R351). -/

namespace Sys2Proof.Proofs

open Sys2Proof.Machine Sys2Proof.Laws

/-! ### Placing a plain write -/

section Place
variable {s : State} {m : FabricMsg} {src : VSrc} (hkind : m.kind = 0 ∨ m.kind = 2)

/-- The units that a plain write names. -/
def plainUnits (m : FabricMsg) : List (Nat × Nat) := units m.va.toNat m.payload.length

/-- The TLBs filled for a plain write (R355). -/
def placeFilled (s : State) (m : FabricMsg) : State := s.fillUnits (s.fabricWho m.tctx) .plain true (plainUnits m)

theorem tlbsOnly_placeFilled (s : State) (m : FabricMsg) : TlbsOnly s (placeFilled s m) := tlbsOnly_fillUnits ..

include hkind in
theorem msgRanges_plain : msgRanges m = plainUnits m := by
  rcases hkind with h | h <;> simp [msgRanges, h, plainUnits]

/-- What becomes of translated units. -/
def placedAt (z : State) (m : FabricMsg) (sp : List Span) : Placed :=
  match z.spansRefused sp true with
  | some va => .refused cAccessDenied (w64 va)
  | none =>
    if !z.ownMsg m ∧ (hostSpan sp).isSome then .refused cAccessDenied m.va
    else if !z.granted m sp then .refused cExport m.va
    else .done (z.putUnits sp m.payload)

include hkind in
theorem placeMsg_plain : s.placeMsg m src =
    match (placeFilled s m).spans (s.fabricWho m.tctx) .plain true (plainUnits m) with
    | .error (va, c) => .refused c (w64 va)
    | .ok sp => placedAt (placeFilled s m) m sp := by
  have hne : ¬ m.kind = 1 := by omega
  unfold State.placeMsg
  dsimp only
  rw [if_neg hne, if_neg hne, msgRanges_plain hkind]
  rfl

include hkind in
theorem placeMsg_of_error {va c : Nat}
    (h : (placeFilled s m).spans (s.fabricWho m.tctx) .plain true (plainUnits m) = .error (va, c)) :
    s.placeMsg m src = .refused c (w64 va) := by rw [placeMsg_plain hkind, h]

include hkind in
theorem placeMsg_of_ok {sp : List Span}
    (h : (placeFilled s m).spans (s.fabricWho m.tctx) .plain true (plainUnits m) = .ok sp) :
    s.placeMsg m src = placedAt (placeFilled s m) m sp := by rw [placeMsg_plain hkind, h]

theorem ownMsg_placeFilled : (placeFilled s m).ownMsg m = s.ownMsg m := by rw [(tlbsOnly_placeFilled s m).1]; rfl

theorem granted_placeFilled (sp : List Span) : (placeFilled s m).granted m sp = s.granted m sp := by
  rw [(tlbsOnly_placeFilled s m).1]; rfl

variable {z : State} {sp : List Span}

theorem placedAt_refused {va : Nat} (h : z.spansRefused sp true = some va) :
    placedAt z m sp = .refused cAccessDenied (w64 va) := by
  unfold placedAt
  rw [h]

theorem placedAt_host (h : z.spansRefused sp true = none) (hown : z.ownMsg m = false) (hhost : hostSpan sp ≠ none) :
    placedAt z m sp = .refused cAccessDenied m.va := by
  unfold placedAt
  rw [h]
  exact if_pos ⟨by simp [hown], Option.isSome_iff_ne_none.mpr hhost⟩

theorem placedAt_export (h : z.spansRefused sp true = none) (hhost : hostSpan sp = none) (hg : z.granted m sp = false) :
    placedAt z m sp = .refused cExport m.va := by
  unfold placedAt
  rw [h]
  refine (if_neg fun hh => ?_).trans (if_pos (by simp [hg]))
  rw [hhost] at hh
  exact absurd hh.2 (by simp)

theorem placedAt_done (h : z.spansRefused sp true = none) (hhost : hostSpan sp = none) (hg : z.granted m sp = true) :
    placedAt z m sp = .done (z.putUnits sp m.payload) := by
  unfold placedAt
  rw [h]
  refine (if_neg fun hh => ?_).trans (if_neg (by simp [hg]))
  rw [hhost] at hh
  exact absurd hh.2 (by simp)

end Place

/-- A plain write of one unit of HBM, placed. -/
theorem placedAt_hbm {z : State} {m : FabricMsg} {va k mk : Nat}
    (h : z.spansRefused [⟨va, m.payload.length, .mem k, mk⟩] true = none)
    (hg : z.granted m [⟨va, m.payload.length, .mem k, mk⟩] = true) (hpos : 0 < m.payload.length)
    (hh : Hbm k m.payload.length) (hfree : ∀ o ∈ z.barriers, o + 16 ≤ k ∨ k + m.payload.length ≤ o) :
    ∃ x, placedAt z m [⟨va, m.payload.length, .mem k, mk⟩] = .done x ∧
      Puts z x mk k m.payload.length (w64 (leNat m.payload)) ∧ x = { z with mem := x.mem, tags := x.tags } := by
  obtain ⟨hputs, hmem⟩ := puts_writePiece (mk := mk) (w64 (leNat m.payload)) hh hpos
  exact ⟨_, (placedAt_done h rfl hg).trans (congrArg Placed.done (putUnits_hbm hfree)), hputs, hmem⟩

/-! ### The semaphore that follows the data -/

section Rsem
variable {s : State} {m : FabricMsg} {path ref : Nat}

theorem addRsem_none (h : m.rsem = none) : s.addRsem m path ref = s := by
  unfold State.addRsem
  rw [h]

theorem addRsem_refused {n : Nat} (h : m.rsem = some n) (href : tabFind s.refusedRefs path = some ref) :
    s.addRsem m path ref = s := by
  unfold State.addRsem
  rw [h]
  exact if_pos href

theorem adds_fabricAdd {ctx n team core : Nat} {pc : W64} {seq : BitVec 32} (hhere : s.semsHere ctx = true)
    (hlost : (s.die (s.homeDie ctx)).lost = false) (hfits : (s.semVal ctx n).toNat + 1 < 2 ^ 32) :
    Adds s (s.fabricAdd ctx n team core pc seq) ctx n 1 := by
  obtain ⟨t, ht, hadds⟩ := adds_semAdd hfits
  have heq : s.fabricAdd ctx n team core pc seq = t := by
    unfold State.fabricAdd
    rw [if_pos hhere, hlost]
    simp only [Bool.false_eq_true, if_false, ht]
  rwa [heq]

theorem adds_addRsem {n : Nat} (h : m.rsem = some n) (href : tabFind s.refusedRefs path ≠ some ref)
    (hhere : s.semsHere m.tctx = true) (hlost : (s.die (s.homeDie m.tctx)).lost = false)
    (hfits : (s.semVal m.tctx n).toNat + 1 < 2 ^ 32) : Adds s (s.addRsem m path ref) m.tctx n 1 := by
  have heq : s.addRsem m path ref = s.fabricAdd m.tctx n (if s.ownMsg m then m.team else 0) (8 * m.scl) 0 0 := by
    unfold State.addRsem
    rw [h]
    exact if_neg href
  rw [heq]
  exact adds_fabricAdd hhere hlost hfits

end Rsem

/-! ### The arrival, case by case -/

section Arrive
variable {s : State} {m : FabricMsg}

/-- The context that a message names runs. -/
def LiveTarget (s : State) (m : FabricMsg) : Prop := s.ctxState m.tctx = 1 ∨ s.ctxState m.tctx = 2

/-- The message repeats one that its window holds. -/
def repeats (b : State) (home : Nat) (m : FabricMsg) : Bool :=
  m.windowed && isRepeat (tabGet [] (b.die home).window (msgPath m)) m.msgno

/-- A placed message counted at its target, and its sender told. -/
def performed (t : State) (home die : Nat) (m : FabricMsg) : State := ((t.noteNo home m).countMsg die m.gang).msgDone m

section Cases
variable {b : State} {key : W64} (hkey : s.remoteKey m.tctx = (key, b))
include hkey

theorem arriveMsg_lost (h : (b.die (s.homeDie m.tctx)).lost = true) :
    s.arriveMsg m = (b.cameAgain m).msgRefused m cPeerLost := by
  unfold State.arriveMsg
  rw [hkey]
  exact if_pos h

theorem arriveMsg_denied (hlost : (b.die (s.homeDie m.tctx)).lost = false) (h : ¬ LiveTarget s m ∨ key ≠ m.key) :
    s.arriveMsg m = (b.cameAgain m).msgRefused m cAccessDenied := by
  unfold State.arriveMsg
  rw [hkey]
  refine (if_neg (by simp [hlost])).trans (if_pos ?_)
  simpa [LiveTarget] using h

variable (hlost : (b.die (s.homeDie m.tctx)).lost = false) (hlive : LiveTarget s m) (hk : key = m.key)
include hlost hlive hk

theorem arriveMsg_repeat (h : repeats b (s.homeDie m.tctx) m = true) :
    s.arriveMsg m = toldDone (b.cameAgain m) m := by
  unfold State.arriveMsg
  rw [hkey]
  refine (if_neg (by simp [hlost])).trans ((if_neg ?_).trans (if_pos h))
  simpa [hk, LiveTarget, or_iff_not_imp_left] using hlive

theorem arriveMsg_new (h : repeats b (s.homeDie m.tctx) m = false) : s.arriveMsg m =
    if !b.homeResident m.tctx then b.landMsg m
    else match (b.cameAgain m).placeMsg m (.fabric m.qp) with
      | .done t => performed t (s.homeDie m.tctx) (b.targetDie m) m
      | .held t => (t.noteNo (s.homeDie m.tctx) m).countMsg (b.targetDie m) m.gang
      | .dropped t => (t.noteNo (s.homeDie m.tctx) m).msgDone m
      | .refused code _ => (b.cameAgain m).msgRefused m code := by
  unfold State.arriveMsg
  rw [hkey]
  refine (if_neg (by simp [hlost])).trans ((if_neg ?_).trans (if_neg (Bool.eq_false_iff.mp h)))
  simpa [hk, LiveTarget, or_iff_not_imp_left] using hlive

variable (h : repeats b (s.homeDie m.tctx) m = false)
include h

theorem arriveMsg_lands (hres : b.homeResident m.tctx = false) : s.arriveMsg m = b.landMsg m := by
  rw [arriveMsg_new hkey hlost hlive hk h, if_pos (by simp [hres])]

theorem arriveMsg_refused (hres : b.homeResident m.tctx = true) {code : Nat} {va : W64}
    (hp : (b.cameAgain m).placeMsg m (.fabric m.qp) = .refused code va) :
    s.arriveMsg m = (b.cameAgain m).msgRefused m code := by
  rw [arriveMsg_new hkey hlost hlive hk h, if_neg (by simp [hres]), hp]

theorem arriveMsg_placed (hres : b.homeResident m.tctx = true) {t : State}
    (hp : (b.cameAgain m).placeMsg m (.fabric m.qp) = .done t) :
    s.arriveMsg m = performed t (s.homeDie m.tctx) (b.targetDie m) m := by
  rw [arriveMsg_new hkey hlost hlive hk h, if_neg (by simp [hres]), hp]

end Cases
/-! ### Landing -/

section Landing
variable {b : State}

theorem mem_putRetry (r : Retry) (l : List Retry) : r ∈ putRetry r l := by
  induction l with
  | nil => exact List.mem_singleton_self r
  | cons x xs ih =>
    unfold putRetry
    split_ifs
    · exact List.mem_cons_self
    · exact List.mem_cons_self
    · exact List.mem_cons_of_mem _ ih

/-- A message that came back with LAND_FULL is kept for its next try. -/
theorem kept_landFull {q : Qp} (hq : tabFind (b.cluster m.scl).qps m.qp = some q) :
    ∃ r ∈ ((b.landFull m).qp m.scl m.qp).retry, r.msg = m ∧ r.due.isSome = true := by
  unfold State.landFull
  rw [State.qp, tabGet_eq, tabFind_qps_modQp, if_pos ⟨rfl, rfl⟩, hq]
  exact ⟨_, mem_putRetry _ _, rfl, rfl⟩

theorem landFull_frame (b : State) (m : FabricMsg) : b.landFull m = { b with clusters := (b.landFull m).clusters } := rfl

/-- One more refusal of a gang's message with LAND_FULL (R345). -/
def Fair.nacked (f : Fair) : Fair := { f with nacks := f.nacks + 1 }

/-- One more message of a gang that landed (R343). -/
def Fair.oneLanded (f : Fair) : Fair := { f with landed := f.landed + 1 }

/-- The number at which its path waits for a message to come again (R280). -/
def awaitsAgain (c : State) (m : FabricMsg) : State :=
  if m.fput then c else { c with fullNos := tabPut c.fullNos (msgPath m) m.msgno }

theorem awaitsAgain_frame (c : State) (m : FabricMsg) : awaitsAgain c m = { c with fullNos := (awaitsAgain c m).fullNos } := by
  unfold awaitsAgain
  split_ifs <;> rfl

theorem tabFind_awaitsAgain (c : State) (m : FabricMsg) (k : Nat) : tabFind (awaitsAgain c m).fullNos k =
    if k = msgPath m ∧ m.fput = false then some m.msgno else tabFind c.fullNos k := by
  unfold awaitsAgain
  cases m.fput with
  | true => exact (if_neg fun h => nomatch h.2).symm
  | false =>
    refine (tabFind_tabPut ..).trans ?_
    simp only [and_true]

theorem landMsg_full (h : (b.land m.tctx).size ≤ (b.land m.tctx).count) : b.landMsg m =
    let d := awaitsAgain (b.modFair (b.homeDie m.tctx) m.gang Fair.nacked) m
    if d.ownMsg m then d.landFull m else { d with outbox := d.outbox ++ [.refusal m.spkg m cLandFull] } := by
  unfold State.landMsg
  exact if_pos h

/-- A message that meets a full buffer is turned away. -/
theorem turnedAway (h : (b.land m.tctx).size ≤ (b.land m.tctx).count) : ∃ c t, b.landMsg m = t ∧
    GangIs b c (b.homeDie m.tctx) m.gang Fair.nacked ∧
    (∀ k, tabFind t.fullNos k = if k = msgPath m ∧ m.fput = false then some m.msgno else tabFind b.fullNos k) ∧
    (b.ownMsg m = false →
      t = { c with fullNos := t.fullNos, outbox := b.outbox ++ [.refusal m.spkg m cLandFull] }) ∧
    (b.ownMsg m = true → t = { c with fullNos := t.fullNos, clusters := t.clusters } ∧
      ∀ q, tabFind (b.cluster m.scl).qps m.qp = some q →
        ∃ r ∈ (t.qp m.scl m.qp).retry, r.msg = m ∧ r.due.isSome = true) := by
  have hgang := gangIs_modFair b (b.homeDie m.tctx) m.gang Fair.nacked
  have hland := landMsg_full h
  generalize b.modFair (b.homeDie m.tctx) m.gang Fair.nacked = c at hgang hland
  have hc := hgang.1
  have hd := awaitsAgain_frame c m
  have hnos : c.fullNos = b.fullNos := by rw [hc]
  have hfull := tabFind_awaitsAgain c m
  rw [hnos] at hfull
  generalize awaitsAgain c m = d at hd hland hfull
  have hown : d.ownMsg m = b.ownMsg m := by rw [hd, hc]; rfl
  have hout : d.outbox = b.outbox := by rw [hd, hc]
  have hclusters : d.clusters = b.clusters := by rw [hd, hc]
  dsimp only at hland
  rw [hown] at hland
  cases hyes : b.ownMsg m with
  | false =>
    rw [hyes] at hland
    refine ⟨c, _, hland, hgang, hfull, fun _ => ?_, nofun⟩
    rw [← hout, hd]
    rfl
  | true =>
    rw [hyes] at hland
    refine ⟨c, _, hland, hgang, hfull, nofun, fun _ => ⟨?_, fun q hq => kept_landFull (q := q) ?_⟩⟩
    · refine (landFull_frame d m).trans ?_
      rw [hd]
      rfl
    · rw [State.cluster, hclusters]
      exact hq

/-- The entry of a message in a landing buffer, then the buffer's control words (R349, R350). -/
theorem landMsg_room (h : (b.land m.tctx).count < (b.land m.tctx).size) : b.landMsg m =
    toldDone (((((b.cameAgain m).appendLand (b.land m.tctx) m).noteNo (b.homeDie m.tctx) m).modFair (b.homeDie m.tctx)
      m.gang Fair.oneLanded).countMsg (b.homeDie m.tctx) m.gang) m := by
  unfold State.landMsg
  exact if_neg (by omega)

/-- What an entry leaves in its landing buffer (R349, R350). -/
theorem stored_appendLand {c : State} {l : Land} {k : Nat} (hk : k = l.key + 64 + 4160 * l.tail) (hctl : Hbm l.key 16)
    (hwctl : Writable c l.mkey l.key 16) (hent : Hbm k (64 + m.payload.length))
    (hwent : Writable c l.mkey k (64 + m.payload.length)) :
    ∃ x y, Stored c x l.mkey k (leBytes 64 (landHeader m (c.die (l.key / 2 ^ 46)).gnomon.toNat)) ∧
      Stored x y l.mkey (k + 64) m.payload ∧
      Stored y (c.appendLand l m) l.mkey l.key (leBytes 16 (l.head + (l.tail + 1) % max 1 l.size * 2 ^ 32 +
        (l.count + 1) * 2 ^ 64 + l.drops % 2 ^ 32 * 2 ^ 96)) ∧
      (∀ j, (c.appendLand l m).ctx j = if j = m.tctx then
        { c.ctx j with landed := (c.ctx j).landed ++ [(msgPath m, m.ref)] } else c.ctx j) ∧
      c.appendLand l m = { c with
        mem := (c.appendLand l m).mem, tags := (c.appendLand l m).tags, ctxs := (c.appendLand l m).ctxs } := by
  subst hk
  have hx := onlyMemory_agentNat c l.mkey (l.key + 64 + 4160 * l.tail) 64
    (landHeader m (c.die (l.key / 2 ^ 46)).gnomon.toNat)
  have hstx := stored_agentNat (s := c) (n := 64) (landHeader m (c.die (l.key / 2 ^ 46)).gnomon.toNat)
    (fun a h1 h2 => hent a h1 (by omega)) (fun a h1 h2 => hwent a h1 (by omega))
  have happ : c.appendLand l m = (((c.agentNat l.mkey (l.key + 64 + 4160 * l.tail) 64
      (landHeader m (c.die (l.key / 2 ^ 46)).gnomon.toNat)).agentWrite l.mkey (l.key + 64 + 4160 * l.tail + 64)
      m.payload).setLand { l with tail := (l.tail + 1) % max 1 l.size, count := l.count + 1 }).modCtx m.tctx
      fun c => { c with landed := c.landed ++ [(msgPath m, m.ref)] } := rfl
  rw [happ]
  generalize c.agentNat l.mkey (l.key + 64 + 4160 * l.tail) 64 (landHeader m (c.die (l.key / 2 ^ 46)).gnomon.toNat) = x
    at hx hstx ⊢
  have hy := onlyMemory_agentWrite x l.mkey (l.key + 64 + 4160 * l.tail + 64) m.payload
  have hsty := stored_agentWrite (s := x) (bs := m.payload)
    (fun a h1 h2 => hent a (by omega) (by omega) : Hbm (l.key + 64 + 4160 * l.tail + 64) _)
    (hx.writable.mpr fun a h1 h2 => hwent a (by omega) (by omega))
  generalize x.agentWrite l.mkey (l.key + 64 + 4160 * l.tail + 64) m.payload = y at hy hsty ⊢
  have hz := onlyMemory_agentNat y l.mkey l.key 16 (l.head + (l.tail + 1) % max 1 l.size * 2 ^ 32 +
    (l.count + 1) * 2 ^ 64 + l.drops % 2 ^ 32 * 2 ^ 96)
  have hstz := stored_agentNat (s := y) (l.head + (l.tail + 1) % max 1 l.size * 2 ^ 32 +
    (l.count + 1) * 2 ^ 64 + l.drops % 2 ^ 32 * 2 ^ 96) hctl ((hx.trans hy).writable.mpr hwctl)
  have hset : y.setLand { l with tail := (l.tail + 1) % max 1 l.size, count := l.count + 1 } =
    y.agentNat l.mkey l.key 16 (l.head + (l.tail + 1) % max 1 l.size * 2 ^ 32 + (l.count + 1) * 2 ^ 64 +
      l.drops % 2 ^ 32 * 2 ^ 96) := rfl
  rw [hset]
  generalize y.agentNat l.mkey l.key 16 (l.head + (l.tail + 1) % max 1 l.size * 2 ^ 32 + (l.count + 1) * 2 ^ 64 +
    l.drops % 2 ^ 32 * 2 ^ 96) = z at hz hstz ⊢
  have hcz : OnlyMemory c z := hx.trans (hy.trans hz)
  refine ⟨x, y, hstx, hsty, stored_congr hstz (sameMemory_modCtx ..), fun j => (ctx_modCtx ..).trans ?_, ?_⟩
  · rw [hcz]
    split_ifs with hj
    · rw [hj]
      rfl
    · rfl
  · rw [hcz]
    rfl

/-- A message that finds room in its buffer stands there, counted, and is performed for its sender. -/
theorem lands (h : (b.land m.tctx).count < (b.land m.tctx).size) :
    let l := b.land m.tctx
    let k := l.key + 64 + 4160 * l.tail
    let die := b.homeDie m.tctx
    Hbm l.key 16 → Writable b l.mkey l.key 16 → Hbm k (64 + m.payload.length) →
    Writable b l.mkey k (64 + m.payload.length) →
    ∃ c x y p q f g t, b.landMsg m = t ∧ Turned b c m ∧
      Stored c x l.mkey k (leBytes 64 (landHeader m (b.die (l.key / 2 ^ 46)).gnomon.toNat)) ∧
      Stored x y l.mkey (k + 64) m.payload ∧
      Stored y p l.mkey l.key (leBytes 16 (l.head + (l.tail + 1) % max 1 l.size * 2 ^ 32 +
        (l.count + 1) * 2 ^ 64 + l.drops % 2 ^ 32 * 2 ^ 96)) ∧
      (∀ j, p.ctx j = if j = m.tctx then { b.ctx j with landed := (b.ctx j).landed ++ [(msgPath m, m.ref)] }
        else b.ctx j) ∧ p = { c with mem := p.mem, tags := p.tags, ctxs := p.ctxs } ∧ Noted p q die m ∧
      GangIs q f die m.gang Fair.oneLanded ∧ GangIs f g die m.gang counted ∧ Told g t m 0 := by
  intro l k die hctl hwctl hent hwent
  have hturned := turned_cameAgain b m
  have hc := hturned.1
  have hwc : ∀ {mk base n : Nat}, Writable b mk base n → Writable (b.cameAgain m) mk base n := fun hw => by
    rw [hc]
    exact hw
  obtain ⟨x, y, hx, hy, hp, hctx, hframe⟩ := stored_appendLand (c := b.cameAgain m) (m := m) rfl hctl (hwc hwctl) hent
    (hwc hwent)
  have hdie : ∀ d, (b.cameAgain m).die d = b.die d := fun d => by rw [hc]; rfl
  have hctxs : ∀ j, (b.cameAgain m).ctx j = b.ctx j := fun j => by rw [hc]; rfl
  rw [hdie] at hx
  simp only [hctxs] at hctx
  exact ⟨b.cameAgain m, x, y, _, _, _, _, _, landMsg_room h, hturned, hx, hy, hp, hctx, hframe, noted_noteNo ..,
    gangIs_modFair .., gangIs_countMsg .., told_toldDone ..⟩

end Landing

/-! ### Placement at a resident target -/

section Placing
variable {c : State}

/-- A message of one unit of HBM placed: its bytes, its number, its count, its semaphore, and its sender told. -/
theorem performs_placed {t : State} {home die : Nat} {path : Nat} (hpath : path = msgPath m) :
    ∃ p q d, Noted t p home m ∧ GangIs p q die m.gang counted ∧ (m.rsem = none → d = q) ∧
      (∀ n, m.rsem = some n → tabFind t.refusedRefs path = some m.ref → d = q) ∧
      (∀ n, m.rsem = some n → tabFind t.refusedRefs path ≠ some m.ref → q.semsHere m.tctx = true →
        (q.die (q.homeDie m.tctx)).lost = false → (q.semVal m.tctx n).toNat + 1 < 2 ^ 32 → Adds q d m.tctx n 1) ∧
      Told d (performed t home die m) m 0 := by
  subst hpath
  have hnoted := noted_noteNo t home m
  have hgang := gangIs_countMsg (t.noteNo home m) die m.gang
  have hrefs : ((t.noteNo home m).countMsg die m.gang).refusedRefs = t.refusedRefs := by rw [hgang.1, hnoted.1]
  refine ⟨_, _, ((t.noteNo home m).countMsg die m.gang).addRsem m (msgPath m) m.ref, hnoted, hgang, addRsem_none,
    fun n hn href => addRsem_refused hn (hrefs ▸ href),
    fun n hn href hhere hlost hfits => adds_addRsem hn (hrefs ▸ href) hhere hlost hfits, told_toldDone ..⟩

/-- A message that its target refuses. -/
theorem refuses_msgRefused (b : State) (m : FabricMsg) {code : Nat} (hpos : 0 < code)
    (hcode : b.ownMsg m = true → code < 256) : ∃ d, (∀ k, tabFind d.refusedRefs k =
      if k = msgPath m then some m.ref else tabFind b.refusedRefs k) ∧
      d = { b.cameAgain m with refusedRefs := d.refusedRefs } ∧
      (code ≠ cPeerLost ∨ m.fput = true ∨ b.ownMsg m = false → Told d ((b.cameAgain m).msgRefused m code) m code) := by
  have hc := (turned_cameAgain b m).1
  have hown : (b.cameAgain m).ownMsg m = b.ownMsg m := by rw [hc]; rfl
  have hrefs : (b.cameAgain m).refusedRefs = b.refusedRefs := by rw [hc]
  refine ⟨refRefused (b.cameAgain m) m, fun k => (tabFind_tabPut ..).trans (by rw [hrefs]), rfl, fun h => ?_⟩
  exact told_msgRefused _ m hpos (fun h => hcode (hown ▸ h)) (by rwa [hown])

end Placing
end Arrive

/-! ### The step -/

section Step
variable {s : State} {m : FabricMsg}

/-- What makes a message wait where it is. -/
def mustWait (s : State) (m : FabricMsg) : Prop :=
  s.tickDue = true ∨ s.msgWaits m (s.net.take (s.net.idxOf m)) = true ∨ (m ∈ s.net ∧ s.msgBlocked m = true)

theorem findIdx_net (h : m ∈ s.net) : (s.net.findIdx? fun x => x == m) = some (s.net.idxOf m) :=
  List.findIdx?_eq_some_of_exists ⟨m, h, beq_self_eq_true m⟩

theorem findIdx_net_none (h : m ∉ s.net) : (s.net.findIdx? fun x => x == m) = none :=
  List.findIdx?_eq_none_iff.mpr fun _ hx => beq_false_of_ne fun he => h (he ▸ hx)

theorem exec_arrival_in (h : m ∈ s.net) : exec (.fabricMessageArrival m) s =
    if s.tickDue ∨ s.msgWaits m (s.net.take (s.net.idxOf m)) ∨ s.msgBlocked m then .next s
    else .next (({ s with net := s.net.erase m } : State).arriveMsg m) := by
  change execFabricMessageArrival m s = _
  have herase : s.net.erase m = s.net.eraseIdx (s.net.idxOf m) := by
    have hfind : s.net.idxOf? m = some (s.net.idxOf m) := findIdx_net h
    rw [List.erase_eq_eraseIdx, hfind]
  unfold execFabricMessageArrival
  rw [findIdx_net h, herase]

theorem exec_arrival_out (h : m ∉ s.net) (hown : s.ownMsg m = false) : exec (.fabricMessageArrival m) s =
    if s.tickDue ∨ s.msgWaits m (s.net.take (s.net.idxOf m)) then .next { s with net := s.net ++ [m] }
    else .next (({ s with net := s.net.erase m } : State).arriveMsg m) := by
  change execFabricMessageArrival m s = _
  unfold execFabricMessageArrival
  rw [findIdx_net_none h, List.erase_of_not_mem h, List.idxOf_eq_length h, List.take_length]
  exact if_neg (by simp [hown])

/-- A message whose turn has come arrives. -/
theorem exec_arrival (hin : m ∈ s.net ∨ s.ownMsg m = false) (hgo : ¬ mustWait s m) :
    exec (.fabricMessageArrival m) s = .next (({ s with net := s.net.erase m } : State).arriveMsg m) := by
  simp only [mustWait, not_or] at hgo
  obtain ⟨htick, hwaits, hblocked⟩ := hgo
  by_cases h : m ∈ s.net
  · exact (exec_arrival_in h).trans (if_neg fun hw =>
      hw.elim htick fun hw => hw.elim hwaits fun hb => hblocked ⟨h, hb⟩)
  · exact (exec_arrival_out h (hin.resolve_left h)).trans (if_neg (by simp [htick, hwaits]))

theorem exec_arrival_waits (h : m ∈ s.net) (hw : mustWait s m) : exec (.fabricMessageArrival m) s = .next s :=
  (exec_arrival_in h).trans (if_pos (by simpa [mustWait, h] using hw))

theorem exec_arrival_early (h : m ∉ s.net) (hown : s.ownMsg m = false) (hw : mustWait s m) :
    exec (.fabricMessageArrival m) s = .next { s with net := s.net ++ [m] } :=
  (exec_arrival_out h hown).trans (if_pos (by simpa [mustWait, h] using hw))

end Step

end Sys2Proof.Proofs

/-! What has landed applied (R337, R352), accesses of other packages (R286), and messages as they arrive. -/

namespace Sys2Proof.Proofs

open Sys2Proof.Machine Sys2Proof.Laws

/-! ### A context that becomes resident -/

section Resident
variable (s : State) (ctx die : Nat)

theorem ctxs_wakeRec (u r status : Nat) : (s.wakeRec u r status).ctxs = s.ctxs := by
  rw [wakeRec_def, showRec_eq, modTeam_eq]

theorem ctxs_setBar (k : Nat) (b : Bar) : (s.setBar k b).ctxs = s.ctxs := by
  have h : OnlyMemory s (s.writeNat 0 k 16 b.toNat) := onlyMemory_writeBytes ..
  rw [setBar_def, registered_eq]
  dsimp only
  rw [h]

theorem ctxs_unlinkBar (k team r status : Nat) : (s.unlinkBar k team r status).ctxs = s.ctxs := by
  rw [unlinkBar_eq]
  dsimp only
  split_ifs
  · rw [ctxs_wakeRec]
    exact ctxs_setBar ..
  · rfl

theorem ctxs_lateWaits : (s.lateWaits ctx).ctxs = s.ctxs := by
  unfold State.lateWaits
  refine foldl_keeps State.ctxs (fun b x => ?_) _ _
  split
  · exact ctxs_unlinkBar ..
  · rfl

theorem ctx_setResid (r : Resid) (c : Nat) : (s.setResid ctx die r).ctx c =
    if c = ctx then { s.ctx ctx with resid := tabSet Resid.out (s.ctx ctx).resid die r } else s.ctx c := ctx_modCtx ..

/-- With nothing left of what landed the context is resident, and no other context has changed. -/
theorem ctx_becomesResident (c : Nat) : ((s.setResid ctx die .resident).lateWaits ctx).ctx c =
    if c = ctx then { s.ctx ctx with resid := tabSet Resid.out (s.ctx ctx).resid die .resident } else s.ctx c := by
  rw [State.ctx, ctxs_lateWaits]
  exact ctx_setResid ..

end Resident

/-! ### The entry at HEAD -/

section Landed
variable {s : State} {ctx die : Nat}

theorem exec_landingApply (hhome : s.homeDie ctx = die) (hfreed : s.freed ctx = none)
    (harr : tabGet Resid.out (s.ctx ctx).resid die = .arriving) : exec (.landingApply die ctx) s =
      if (s.land ctx).count = 0 then .next ((s.setResid ctx die .resident).lateWaits ctx)
      else if (s.land ctx).count ≤ (s.ctx ctx).behind.length then .next s
      else orStay s (s.applyLand ctx (s.land ctx)) := by
  change execLandingApply die ctx s = _
  unfold execLandingApply
  rw [if_neg (not_not_intro hhome), hfreed]
  exact if_neg (not_not_intro harr)

/-- Control words of a buffer whose entry at HEAD is taken off. -/
theorem stored_popLand {l : Land} {left : Nat} (hleft : left ≤ l.count) (hh : Hbm l.key 16)
    (hw : Writable s l.mkey l.key 16) :
    Stored s (s.popLand ctx l (l.count - left)) l.mkey l.key (leBytes 16 ((l.head + 1) % max 1 l.size +
      l.tail * 2 ^ 32 + left * 2 ^ 64 + l.drops % 2 ^ 32 * 2 ^ 96)) := by
  have hcount : l.count - (l.count - left) = left := by omega
  have hst := stored_agentNat (s := s) ((l.head + 1) % max 1 l.size + l.tail * 2 ^ 32 + left * 2 ^ 64 +
    l.drops % 2 ^ 32 * 2 ^ 96) hh hw
  unfold State.popLand State.setLand
  rw [hcount]
  exact stored_congr hst (sameMemory_modCtx ..)

theorem popLand_frame (l : Land) (n : Nat) : s.popLand ctx l n = { s with
    mem := (s.popLand ctx l n).mem, tags := (s.popLand ctx l n).tags, ctxs := (s.popLand ctx l n).ctxs } := by
  unfold State.popLand State.setLand
  dsimp only
  generalize (_ : Nat) + _ = v
  have hm := onlyMemory_agentNat s l.mkey l.key 16 v
  generalize s.agentNat l.mkey l.key 16 v = u at hm ⊢
  rw [hm]
  rfl

theorem ctx_popLand (l : Land) (n c : Nat) : (s.popLand ctx l n).ctx c =
    if c = ctx then { s.ctx c with landed := (s.ctx c).landed.drop 1 } else s.ctx c := by
  unfold State.popLand
  rw [ctx_modCtx, ctx_setLand, ctx_setLand]
  split_ifs with h
  · rw [h]
  · rfl

/-- The path of the entry at HEAD, as its sender's messages bear it, and what they belong to. -/
def headPath (s : State) (ctx : Nat) : Nat := ((s.ctx ctx).landed.headD (0, 0)).1
def headRef (s : State) (ctx : Nat) : Nat := ((s.ctx ctx).landed.headD (0, 0)).2

/-- The message at HEAD. -/
def headMsg (s : State) (ctx : Nat) : FabricMsg := s.landEntry ctx (headPath s ctx) (s.land ctx)

/-- It waits behind a held create of its queue pair. -/
def headWaits (s : State) (ctx : Nat) : Prop := (headMsg s ctx).fput = false ∧
  (s.pathHeld (headPath s ctx) = true ∨ (s.ctx ctx).behindOn (headPath s ctx) = true)

theorem applyLand_def : s.applyLand ctx (s.land ctx) =
    if !(headMsg s ctx).fput && (s.pathHeld (headPath s ctx) || (s.ctx ctx).behindOn (headPath s ctx)) then
      some ((s.popLand ctx (s.land ctx) 0).modCtx ctx fun c =>
        { c with behind := c.behind ++ [(headMsg s ctx, headPath s ctx, headRef s ctx)] })
    else (s.popLand ctx (s.land ctx) 1).applyMsg ctx (headMsg s ctx) (headPath s ctx) (headRef s ctx) := rfl

theorem headWaits_iff : (!(headMsg s ctx).fput && (s.pathHeld (headPath s ctx) ||
    (s.ctx ctx).behindOn (headPath s ctx))) = true ↔ headWaits s ctx := by
  rw [Bool.and_eq_true, Bool.or_eq_true, Bool.not_eq_true', headWaits]

theorem applyLand_waits (h : headWaits s ctx) : s.applyLand ctx (s.land ctx) =
    some ((s.popLand ctx (s.land ctx) 0).modCtx ctx fun c =>
      { c with behind := c.behind ++ [(headMsg s ctx, headPath s ctx, headRef s ctx)] }) := by
  rw [applyLand_def, if_pos (headWaits_iff.mpr h)]

theorem applyLand_goes (h : ¬ headWaits s ctx) : s.applyLand ctx (s.land ctx) =
    (s.popLand ctx (s.land ctx) 1).applyMsg ctx (headMsg s ctx) (headPath s ctx) (headRef s ctx) := by
  rw [applyLand_def, if_neg fun hh => h (headWaits_iff.mp hh)]

variable {m : FabricMsg} {path ref : Nat}

theorem applyMsg_full {code : Nat} {va : W64} (hne : code ≠ cVersionOrder)
    (h : s.placeMsg m (.landing path ref) = .refused code va) (hfull : (s.die (s.homeDie ctx)).fqFull = true) :
    s.applyMsg ctx m path ref = none := by
  unfold State.applyMsg
  rw [h]
  exact (if_neg hne).trans (if_pos hfull)

theorem applyMsg_done {t : State} (h : s.placeMsg m (.landing path ref) = .done t) :
    s.applyMsg ctx m path ref = some (t.addRsem m path ref) := by
  unfold State.applyMsg
  rw [h]

end Landed

/-! ### Accesses of other packages -/

section Remote
variable {s : State} {r : RemoteReq}

/-- An access answered with a value, where it has one, and a code. -/
def remoteAnswered (b : State) (r : RemoteReq) (d : Option W64) (code : Nat) : State :=
  { b with outbox := b.outbox ++ [Out.remoteAnswer r.pkg r.ref d code] }

theorem exec_remote_bad {c : Nat} (h : s.remoteBad r = some c) :
    exec (.remoteAccess r) s = .next (remoteAnswered s r none c) := by
  change execRemoteAccess r s = _
  unfold execRemoteAccess
  rw [h]
  rfl

theorem exec_remote_read (h : s.remoteBad r = none) (ha : r.atomic = none) (hw : r.write = false) :
    exec (.remoteAccess r) s =
      .next (remoteAnswered s r (some (BitVec.ofNat 64 (s.readNat r.key r.addr (min r.len 8)))) 0) := by
  change execRemoteAccess r s = _
  unfold execRemoteAccess
  rw [h, ha, hw]
  rfl

theorem exec_remote_write (h : s.remoteBad r = none) (ha : r.atomic = none) (hw : r.write = true) :
    exec (.remoteAccess r) s = .next (remoteAnswered (s.writePiece r.addr r.key (min r.len 8) r.data
      (BitVec.ofNat 64 (2 ^ (8 * min r.len 8) - 1))) r none 0) := by
  change execRemoteAccess r s = _
  unfold execRemoteAccess
  rw [h, ha, hw]
  rfl

theorem exec_remote_atomic {op ty : Nat} {ret : W64} (h : s.remoteBad r = none) (ha : r.atomic = some (op, ty, ret)) :
    let k := acwWidth ty
    let old := s.readNat r.key r.addr k
    exec (.remoteAccess r) s = .next (remoteAnswered (s.writePiece r.addr r.key k
      (w64 (acwOp op ty old (r.data.toNat % 2 ^ (8 * k)) (ret.toNat % 2 ^ (8 * k)))) (BitVec.ofNat 64 (2 ^ (8 * k) - 1))) r
      (some (BitVec.ofNat 64 old)) 0) := by
  change execRemoteAccess r s = _
  unfold execRemoteAccess
  rw [h, ha]
  rfl

theorem acwWidth_pos (ty : Nat) : 0 < acwWidth ty := by
  unfold acwWidth
  split_ifs <;> decide

/-- An access that the exports do not admit is refused. -/
theorem remoteBad_of_not_exported (h : s.exported r = false) : ∃ c, s.remoteBad r = some c := by
  unfold State.remoteBad
  dsimp only
  rw [h]
  split_ifs with h1 h2 h3 h4
  · exact ⟨_, rfl⟩
  · exact ⟨_, rfl⟩
  · exact ⟨_, rfl⟩
  · exact ⟨_, rfl⟩
  · exact absurd rfl h4

theorem remoteBad_denied (h : s.exported r = false) (hloc : r.addr % 2 ^ 46 < 0x200000000000)
    (hb : backed (r.addr % 2 ^ 46) = true) (hl : (s.die (r.addr / 2 ^ 46 % 4)).lost = false) :
    s.remoteBad r = some cAccessDenied := by
  unfold State.remoteBad
  dsimp only
  rw [if_neg (by omega), if_neg (by rw [hb]; exact nofun), if_neg (by rw [hl]; exact nofun), if_pos (by rw [h]; rfl)]

end Remote

theorem orStay_some (s t : State) : orStay s (some t) = .next t := rfl

/-- A landed write of one unit of HBM applied: its bytes, then its semaphore. -/
theorem applies_placed {b : State} {m : FabricMsg} {ctx path ref va k mk : Nat} (hkind : m.kind = 0 ∨ m.kind = 2)
    (h : (placeFilled b m).spans (b.fabricWho m.tctx) .plain true (plainUnits m) =
      .ok [⟨va, m.payload.length, .mem k, mk⟩])
    (hnone : (placeFilled b m).spansRefused [⟨va, m.payload.length, .mem k, mk⟩] true = none)
    (hg : b.granted m [⟨va, m.payload.length, .mem k, mk⟩] = true) (hpos : 0 < m.payload.length)
    (hh : Hbm k m.payload.length) (hfree : ∀ o ∈ b.barriers, o + 16 ≤ k ∨ k + m.payload.length ≤ o) :
    ∃ x t, b.applyMsg ctx m path ref = some t ∧
      Puts (placeFilled b m) x mk k m.payload.length (w64 (leNat m.payload)) ∧
      x = { placeFilled b m with mem := x.mem, tags := x.tags } ∧ (m.rsem = none → t = x) ∧
      ∀ n, m.rsem = some n → tabFind b.refusedRefs path ≠ some ref → x.semsHere m.tctx = true →
        (x.die (x.homeDie m.tctx)).lost = false → (x.semVal m.tctx n).toNat + 1 < 2 ^ 32 → Adds x t m.tctx n 1 := by
  have hz := (tlbsOnly_placeFilled b m).1
  have hbars : (placeFilled b m).barriers = b.barriers := by rw [hz]
  obtain ⟨x, hx, hputs, hmem⟩ := placedAt_hbm hnone ((granted_placeFilled _).trans hg) hpos hh (hbars ▸ hfree)
  have hrefs : x.refusedRefs = b.refusedRefs := by rw [hmem, hz]
  exact ⟨x, _, applyMsg_done ((placeMsg_of_ok hkind h).trans hx), hputs, hmem, addRsem_none,
    fun n hn href hhere hlost hfits => adds_addRsem hn (hrefs ▸ href) hhere hlost hfits⟩

/-- A write of one unit of HBM placed as it arrives. -/
theorem places_arrived {c : State} {m : FabricMsg} {va k mk home die : Nat} (hkind : m.kind = 0 ∨ m.kind = 2)
    (h : (placeFilled c m).spans (c.fabricWho m.tctx) .plain true (plainUnits m) =
      .ok [⟨va, m.payload.length, .mem k, mk⟩])
    (hnone : (placeFilled c m).spansRefused [⟨va, m.payload.length, .mem k, mk⟩] true = none)
    (hg : c.granted m [⟨va, m.payload.length, .mem k, mk⟩] = true) (hpos : 0 < m.payload.length)
    (hh : Hbm k m.payload.length) (hfree : ∀ o ∈ c.barriers, o + 16 ≤ k ∨ k + m.payload.length ≤ o) :
    ∃ x p q d, c.placeMsg m (.fabric m.qp) = .done x ∧
      Puts (placeFilled c m) x mk k m.payload.length (w64 (leNat m.payload)) ∧
      x = { placeFilled c m with mem := x.mem, tags := x.tags } ∧ Noted x p home m ∧ GangIs p q die m.gang counted ∧
      (m.rsem = none → d = q) ∧ (∀ n, m.rsem = some n → tabFind c.refusedRefs (msgPath m) = some m.ref → d = q) ∧
      (∀ n, m.rsem = some n → tabFind c.refusedRefs (msgPath m) ≠ some m.ref → q.semsHere m.tctx = true →
        (q.die (q.homeDie m.tctx)).lost = false → (q.semVal m.tctx n).toNat + 1 < 2 ^ 32 → Adds q d m.tctx n 1) ∧
      Told d (performed x home die m) m 0 := by
  have hz := (tlbsOnly_placeFilled c m).1
  have hbars : (placeFilled c m).barriers = c.barriers := by rw [hz]
  obtain ⟨x, hx, hputs, hmem⟩ := placedAt_hbm hnone ((granted_placeFilled _).trans hg) hpos hh (hbars ▸ hfree)
  have hrefs : x.refusedRefs = c.refusedRefs := by rw [hmem, hz]
  obtain ⟨p, q, d, hperforms⟩ := performs_placed (m := m) (t := x) (home := home) (die := die) rfl
  rw [hrefs] at hperforms
  exact ⟨x, p, q, d, (placeMsg_of_ok hkind h).trans hx, hputs, hmem, hperforms⟩

/-- Settles O50: an arrival by the case in which the message finds its target, a landed message by what keeps it, and
an access from outside by its kind. -/
theorem fabricArrives : Obligations.fabricArrives := by
  refine ⟨?_, ?_, ?_⟩
  · intro s m hin step a key b home live path waits refuses
    have hkey : a.remoteKey m.tctx = (key, b) := rfl
    have hb : b = { a with mem := b.mem, tags := b.tags, ctxs := b.ctxs } := remoteKey_frame a m.tctx
    have hown : b.ownMsg m = s.ownMsg m := by rw [hb]; rfl
    have hrefuses : ¬ waits → ∀ code, 0 < code → (s.ownMsg m = true → code < 256) →
        a.arriveMsg m = (b.cameAgain m).msgRefused m code → refuses code := by
      intro hgo code hpos hcode harrive
      obtain ⟨d, hrefs, hframe, htold⟩ := refuses_msgRefused b m hpos (fun h => hcode (hown ▸ h))
      exact ⟨b.cameAgain m, d, _, (exec_arrival hin hgo).trans (congrArg Host.Outcome.next harrive),
        turned_cameAgain b m, hrefs, hframe, fun h => htold (by rwa [hown])⟩
    refine ⟨fun hw hm => exec_arrival_waits hm hw, fun hw hm => exec_arrival_early hm (hin.resolve_left hm) hw,
      ⟨fun k hk => ?_, fun hk => remoteKey_of_none a m.tctx hk⟩, fun hgo => ⟨fun hlost => ?_, fun hlost hno => ?_,
      fun hlost hlive hk => ⟨fun hagain => ?_, fun hagain hres => ⟨fun hfull => ?_, fun hroom hctl hwctl hent hwent => ?_⟩,
        fun hagain hres hkind => ?_⟩⟩⟩
    · have hsome := remoteKey_of_some a m.tctx hk
      exact ⟨congrArg Prod.fst hsome, congrArg Prod.snd hsome⟩
    · exact hrefuses hgo cPeerLost (by decide) (fun _ => by decide) (arriveMsg_lost hkey hlost)
    · exact hrefuses hgo cAccessDenied (by decide) (fun _ => by decide) (arriveMsg_denied hkey hlost hno)
    · exact ⟨b.cameAgain m, _, (exec_arrival hin hgo).trans (congrArg Host.Outcome.next
        (arriveMsg_repeat hkey hlost hlive hk (Bool.and_eq_true_iff.mpr hagain))), turned_cameAgain b m, told_toldDone ..⟩
    all_goals
      have hnew : repeats b home m = false := Bool.eq_false_iff.mpr fun h => hagain (Bool.and_eq_true_iff.mp h)
    · have hstep : step = .next (b.landMsg m) := (exec_arrival hin hgo).trans (congrArg Host.Outcome.next
        (arriveMsg_lands hkey hlost hlive hk hnew hres))
      have hout : b.outbox = s.outbox := by rw [hb]
      have hclusters : b.clusters = s.clusters := by rw [hb]
      obtain ⟨c, t, ht, hgang, hnos, hother, hhere⟩ := turnedAway hfull
      rw [hown, hout] at hother
      rw [hown, State.cluster, hclusters] at hhere
      exact ⟨c, t, hstep.trans (congrArg Host.Outcome.next ht), hgang, hnos, hother, hhere⟩
    · have hstep : step = .next (b.landMsg m) := (exec_arrival hin hgo).trans (congrArg Host.Outcome.next
        (arriveMsg_lands hkey hlost hlive hk hnew hres))
      obtain ⟨c, x, y, p, q, f, g, t, ht, hlands⟩ := lands hroom hctl hwctl hent hwent
      exact ⟨c, x, y, p, q, f, g, t, hstep.trans (congrArg Host.Outcome.next ht), hlands⟩
    · intro w us
      have hc := (turned_cameAgain b m).1
      refine ⟨b.cameAgain m, turned_cameAgain b m, ?_⟩
      intro z
      have hw : w = (b.cameAgain m).fabricWho m.tctx := by rw [hc]; rfl
      have hz : z = placeFilled (b.cameAgain m) m := congrArg (fun w => State.fillUnits _ w .plain true us) hw
      clear_value z w
      subst hz hw
      have hrefused : ∀ {code va}, (b.cameAgain m).placeMsg m (.fabric m.qp) = .refused code va → 0 < code →
          (s.ownMsg m = true → code < 256) → refuses code := fun hp hpos hcode =>
        hrefuses hgo _ hpos hcode (arriveMsg_refused hkey hlost hlive hk hnew hres hp)
      have hzown : (placeFilled (b.cameAgain m) m).ownMsg m = s.ownMsg m := by
        rw [ownMsg_placeFilled, hc]
        exact hown
      have hzgranted : ∀ sp, (placeFilled (b.cameAgain m) m).granted m sp = s.granted m sp := fun sp => by
        rw [granted_placeFilled, hc, hb]
        rfl
      refine ⟨tlbsOnly_placeFilled .., fun va code h => ?_, fun sp va h hr => ?_,
        fun sp h hnone => ⟨fun hno hhost => ?_, fun hhost hg => ?_⟩, fun va k mk h hnone hg hpos _ hh hfree => ?_⟩
      · obtain ⟨hpos, hlt⟩ := byteCode_spans h
        exact hrefused (placeMsg_of_error hkind h) hpos fun _ => hlt
      · exact hrefused ((placeMsg_of_ok hkind h).trans (placedAt_refused hr)) (by decide) fun _ => by decide
      · exact hrefused ((placeMsg_of_ok hkind h).trans (placedAt_host hnone (hzown.trans hno) hhost)) (by decide)
          fun _ => by decide
      · refine hrefused ((placeMsg_of_ok hkind h).trans (placedAt_export hnone hhost ((hzgranted sp).trans hg)))
          (by decide) fun hyes => ?_
        simp [State.granted, hyes] at hg
      · have hbars : (b.cameAgain m).barriers = s.barriers := by rw [hc, hb]
        have hrefs : (b.cameAgain m).refusedRefs = s.refusedRefs := by rw [hc, hb]
        have hgranted := (granted_placeFilled _).symm.trans ((hzgranted _).trans hg)
        obtain ⟨x, p, q, d, hx, hplaced⟩ := places_arrived (home := home) (die := b.targetDie m) hkind h hnone hgranted hpos
          hh (hbars ▸ hfree)
        rw [hrefs] at hplaced
        obtain ⟨hputs, hmem, hrest⟩ := hplaced
        exact ⟨x, p, q, d, _, (exec_arrival hin hgo).trans (congrArg Host.Outcome.next (arriveMsg_placed hkey hlost hlive hk
          hnew hres hx)), hputs, hmem, hrest⟩
  · intro s die ctx hhome hfreed harr step l path ref m waits left b w us z
    have hexec := exec_landingApply hhome hfreed harr
    refine ⟨fun h => ⟨_, hexec.trans (if_pos h), ?_, fun c hc => ?_⟩,
      fun h hbehind => hexec.trans ((if_neg h).trans (if_pos hbehind)), fun hbehind => ?_⟩
    · rw [ctx_becomesResident, if_pos rfl]
      exact (tabGet_tabSet Resid.out (s.ctx ctx).resid die die Resid.resident).trans (if_pos rfl)
    · rw [ctx_becomesResident, if_neg hc]
    have hcount : l.count ≠ 0 := by omega
    have hstep : step = orStay s (s.applyLand ctx l) :=
      hexec.trans ((if_neg hcount).trans (if_neg (Nat.not_le.mpr hbehind)))
    refine ⟨fun hh hw => ⟨stored_popLand ?_ hh hw, popLand_frame .., fun c => ctx_popLand ..⟩, fun hwaits => ?_,
      fun hwaits => ?_⟩
    · change (if waits then l.count else l.count - 1) ≤ l.count
      split_ifs <;> omega
    · have hleft : left = l.count := if_pos hwaits
      have hb : b = s.popLand ctx l 0 := congrArg (s.popLand ctx l) (by omega)
      refine ⟨_, (hstep.trans (congrArg (orStay s) (applyLand_waits hwaits))).trans (orStay_some ..), ?_, fun c => ?_⟩
      · rw [← hb]
        rfl
      · rw [← hb]
        refine (ctx_modCtx ..).trans ?_
        split_ifs with hc
        · rw [hc]
          rfl
        · rfl
    · have hleft : left = l.count - 1 := if_neg hwaits
      have hb : b = s.popLand ctx l 1 := congrArg (s.popLand ctx l) (by omega)
      have happly : step = orStay s (b.applyMsg ctx m path ref) := by
        rw [hb]
        exact hstep.trans (congrArg (orStay s) (applyLand_goes hwaits))
      refine ⟨fun code va hne hp hfull => happly.trans (congrArg (orStay s) (applyMsg_full hne hp hfull)),
        fun va k mk hkind => ⟨tlbsOnly_placeFilled b m, fun h hnone hg hpos _ hh hfree => ?_⟩⟩
      have hbframe : b = { s with mem := b.mem, tags := b.tags, ctxs := b.ctxs } := popLand_frame ..
      have hbars : b.barriers = s.barriers := by rw [hbframe]
      have hrefs : b.refusedRefs = s.refusedRefs := by rw [hbframe]
      obtain ⟨x, t, ht, hplaced⟩ := applies_placed (ctx := ctx) (path := path) (ref := ref) hkind h hnone hg hpos hh
        (hbars ▸ hfree)
      rw [hrefs] at hplaced
      exact ⟨x, t, (happly.trans (congrArg (orStay s) ht)).trans (orStay_some ..), hplaced⟩
  · intro s r answers n
    refine ⟨fun c h => exec_remote_bad h, fun h ha hw => exec_remote_read h ha hw, fun h ha hw hpos hh => ?_,
      fun op ty ret h ha hh => ?_, remoteBad_of_not_exported, fun h hloc hb hl => exec_remote_bad (remoteBad_denied h hloc hb hl)⟩
    · obtain ⟨hputs, hmem⟩ := puts_writePiece (mk := r.key) r.data hh (by omega)
      refine ⟨_, (exec_remote_write h ha hw).trans ?_, hputs, hmem⟩
      unfold remoteAnswered
      rw [hmem]
    · obtain ⟨hputs, hmem⟩ := puts_writePiece (s := s) (mk := r.key) (w64 (acwOp op ty (s.readNat r.key r.addr (acwWidth ty))
        (r.data.toNat % 2 ^ (8 * acwWidth ty)) (ret.toNat % 2 ^ (8 * acwWidth ty)))) hh (acwWidth_pos ty)
      refine ⟨_, (exec_remote_atomic h ha).trans ?_, hmem, hputs⟩
      unfold remoteAnswered
      rw [hmem]

end Sys2Proof.Proofs

/-! The copy engine: chunks that move bytes, park or fault (R252 to R254, R256, R326, R368). -/

namespace Sys2Proof.Proofs

open Sys2Proof.Machine Sys2Proof.Laws

/-! ### Writes of a command and the end of its chunk -/

/-- A command has sent writes: its core's accepted writes alone may be more, and names are used. -/
structure Emits (c : Cmd) (z y : State) : Prop where
  cores : ∀ q, q ≠ c.core → y.core q = z.core q
  core : y.core c.core = { z.core c.core with stores := (y.core c.core).stores }
  state : y = { z with cores := y.cores, nextId := y.nextId }

section Emit
variable {c d : Cmd} {z y x : State}

theorem Emits.refl (c : Cmd) (z : State) : Emits c z z := ⟨fun _ _ => rfl, rfl, rfl⟩

theorem Emits.trans (h : Emits c z y) (h' : Emits c y x) : Emits c z x where
  cores q hq := (h'.cores q hq).trans (h.cores q hq)
  core := by rw [h'.core, h.core]
  state := by rw [h'.state, h.state]

variable (c z) (sp : List Span) (bs : List (BitVec 8)) (grain : Nat) (ep : Option Nat)

/-- A command's writes as they stand in its core, in units of `grain` pieces. -/
def unitAccess : Access :=
  { id := z.nextId, team := c.team, ctx := c.ctx, seq := c.seq, pc := c.pc, kind := .engine, entries := 0
    xlate := false, pieces := writeSpans z.nextId (ep.getD (z.epoch c.core)) sp bs, dst := .none, rel := none
    acq := false, inOrder := false, grain := grain, cmd := c.id }

theorem engineWrite_units (h : sp ≠ []) : z.engineWrite c sp bs grain ep =
    z.fresh.2.modCore c.core fun k => { k with stores := k.stores ++ [unitAccess c z sp bs grain ep] } := by
  unfold State.engineWrite State.engineStore
  rw [if_neg (by simpa using h)]
  rfl

theorem engineWrite_none : z.engineWrite c [] bs grain ep = z := rfl

theorem emits_engineWrite : Emits c z (z.engineWrite c sp bs grain ep) := by
  by_cases h : sp = []
  · rw [h, engineWrite_none]
    exact .refl c z
  · rw [engineWrite_units c z sp bs grain ep h]
    refine ⟨fun q hq => ?_, ?_, rfl⟩
    · rw [modCore_def, core_setCore, if_neg hq]
      rfl
    · rw [modCore_def, core_setCore, if_pos rfl, core_fresh]

theorem sends_engineWrite_units : Sends z (z.engineWrite c sp bs grain ep) c sp bs grain (ep.getD (z.epoch c.core)) := by
  refine ⟨fun h => by rw [h, engineWrite_none], fun h => ⟨z.nextId, ?_⟩⟩
  rw [engineWrite_units c z sp bs grain ep h, modCore_def, core_setCore, if_pos rfl]
  rfl

end Emit

/-- What a command's step leaves of the rest: its core but for its commands, its writes and its scoreboard entries, and
the state but for the cores, what is open, and the names. -/
def CoreOnly (c : Cmd) (z t : State) : Prop :=
  (∀ q, q ≠ c.core → t.core q = z.core q) ∧
    t.core c.core = { z.core c.core with
      cmds := (t.core c.core).cmds, stores := (t.core c.core).stores, sb := (t.core c.core).sb } ∧
    t = { z with cores := t.cores, openCmds := t.openCmds, reqs := t.reqs, nextId := t.nextId }

section Done
variable {c : Cmd} {z y : State} (hy : Emits c z y)
include hy

theorem coreOnly_setCmd (d : Cmd) (hcore : d.core = c.core) : CoreOnly c z (y.setCmd d) := by
  refine ⟨fun q hq => ?_, ?_, ?_⟩
  · rw [State.setCmd, modCore_def, core_setCore, if_neg (hcore ▸ hq), hy.cores q hq]
  · rw [core_setCmd _ _ hcore, hy.core]
  · refine (show y.setCmd d = { y with cores := (y.setCmd d).cores } from rfl).trans ?_
    rw [hy.state]
    rfl

theorem cmds_setCmd (d : Cmd) (hcore : d.core = c.core) : ((y.setCmd d).core c.core).cmds =
    (z.core c.core).cmds.map fun e => if e.id = d.id then d else e := by
  rw [core_setCmd _ _ hcore, hy.core]

omit hy in
theorem stores_setCmd (d : Cmd) (hcore : d.core = c.core) :
    ((y.setCmd d).core c.core).stores = (y.core c.core).stores := by rw [core_setCmd _ _ hcore]

theorem coreOnly_finishCmd : CoreOnly c z (y.finishCmd c) := by
  refine ⟨fun q hq => ?_, ?_, ?_⟩
  · rw [core_finishCmd, if_neg hq, hy.cores q hq]
  · rw [core_finished, core_finishCmd, if_pos rfl, hy.core]
  · rw [finishCmd_eq, hy.state]

theorem over_emitted : Over z (y.finishCmd c) c :=
  over_of_same (by rw [hy.core]) (by rw [hy.state])

omit hy in
theorem stores_finishCmd : ((y.finishCmd c).core c.core).stores = (y.core c.core).stores := by
  rw [core_finishCmd, if_pos rfl]

/-- The command goes on with its next chunk, or it is over. -/
theorem goesOn_chunkDone (chunks : Nat) :
    ((c.chunk + 1 < chunks → ((y.chunkDone c chunks).core c.core).cmds = (z.core c.core).cmds.map fun d =>
      if d.id = c.id then { c with started := true, chunk := c.chunk + 1, held := false } else d) ∧
      (chunks ≤ c.chunk + 1 → Over z (y.chunkDone c chunks) c)) ∧ CoreOnly c z (y.chunkDone c chunks) ∧
      ((y.chunkDone c chunks).core c.core).stores = (y.core c.core).stores := by
  unfold State.chunkDone
  by_cases h : c.chunk + 1 < chunks
  · rw [if_pos h]
    exact ⟨⟨fun _ => cmds_setCmd hy _ rfl, fun hno => by omega⟩, coreOnly_setCmd hy _ rfl, stores_setCmd _ rfl⟩
  · rw [if_neg h]
    exact ⟨⟨fun hno => absurd hno h, fun _ => over_emitted hy⟩, coreOnly_finishCmd hy, stores_finishCmd⟩

end Done

/-! ### Chunks that move bytes -/

section Move
variable {s : State} {id : Nat} {c : Cmd} {f : FE3}

theorem exec_copyChunk (hc : s.cmd c.core id = some c) (hruns : s.cmdRuns c = true) : exec (.copyChunk c.core id) s =
    match c.instr with
    | .cpy _ =>
      if c.xc.toNat = 0 then .next (s.finishCmd c)
      else s.moveChunk c .plain (c.xb.toNat + 4096 * c.chunk) (c.xa.toNat + 4096 * c.chunk)
        (chunkLen c.xc.toNat c.chunk) ((c.xc.toNat + 4095) / 4096) fun _ _ s => s
    | .cpys _ =>
      if c.xc.toNat = 0 then .next (s.finishCmd c)
      else s.moveChunk c .sealed (c.xb.toNat + 4096 * c.chunk) (c.xa.toNat + 4096 * c.chunk) 4096
        (c.xc.toNat / 4096) fun rd wr s => s.moveTag c rd wr
    | .cpyv f => s.versionChunk c (f.imm.getLsbD 2)
    | _ => .next s := by
  change execCopyChunk c.core id s = _
  unfold execCopyChunk
  rw [hc]
  exact if_neg (by simp [hruns])

variable {p : Path} {src dst len chunks : Nat} {tags : List Span → List Span → State → State}

/-- The TLBs filled for a chunk (R355). -/
def chunkFilled (s : State) (c : Cmd) (p q : Path) (src dst len : Nat) : State :=
  (s.fillUnits c.who p false (units src len)).fillUnits c.who q true (units dst len)

theorem tlbsOnly_chunkFilled (s : State) (c : Cmd) (p q : Path) (src dst len : Nat) :
    TlbsOnly s (chunkFilled s c p q src dst len) :=
  tlbsOnly_trans (tlbsOnly_fillUnits ..) (tlbsOnly_fillUnits ..)

section
variable {rd wr : List Span}
  (hrd : (chunkFilled s c p p src dst len).spans c.who p false (units src len) = .ok rd)
  (hwr : (chunkFilled s c p p src dst len).spans c.who p true (units dst len) = .ok wr)
include hrd hwr

theorem moveChunk_ok : s.moveChunk c p src dst len chunks tags =
    let z := chunkFilled s c p p src dst len
    if z.spansBlocked c.core rd || (p == .sealed && z.tagBlocked c rd) then .next z
    else match z.spansRefused rd false with
      | some va => z.chunkFault c va cAccessDenied
      | none => .next ((tags rd wr (z.engineWrite c wr (z.readSpans rd))).chunkDone c chunks) := by
  unfold State.moveChunk
  change (match (chunkFilled s c p p src dst len).spans c.who p false (units src len),
    (chunkFilled s c p p src dst len).spans c.who p true (units dst len) with
    | .error (va, code), _ => _
    | _, .error (va, code) => _
    | .ok rd, .ok wr => _) = _
  rw [hrd, hwr]
  rfl

end

theorem moveChunk_error {va code : Nat}
    (h : (chunkFilled s c p p src dst len).spans c.who p false (units src len) = .error (va, code)) :
    s.moveChunk c p src dst len chunks tags = (chunkFilled s c p p src dst len).chunkFault c va code := by
  unfold State.moveChunk
  change (match (chunkFilled s c p p src dst len).spans c.who p false (units src len),
    (chunkFilled s c p p src dst len).spans c.who p true (units dst len) with
    | .error (va, code), _ => _
    | _, .error (va, code) => _
    | .ok rd, .ok wr => _) = _
  rw [h]
  cases (chunkFilled s c p p src dst len).spans c.who p true (units dst len) <;> rfl

theorem moveChunk_moves {rd wr : List Span}
    (hrd : (chunkFilled s c p p src dst len).spans c.who p false (units src len) = .ok rd)
    (hwr : (chunkFilled s c p p src dst len).spans c.who p true (units dst len) = .ok wr)
    (hrefused : (chunkFilled s c p p src dst len).spansRefused rd false = none)
    (hfree : (chunkFilled s c p p src dst len).spansBlocked c.core rd = false)
    (htag : (p == .sealed && (chunkFilled s c p p src dst len).tagBlocked c rd) = false) :
    s.moveChunk c p src dst len chunks tags = .next ((tags rd wr ((chunkFilled s c p p src dst len).engineWrite c wr
      ((chunkFilled s c p p src dst len).readSpans rd))).chunkDone c chunks) := by
  rw [moveChunk_ok hrd hwr]
  dsimp only
  rw [hfree, htag, hrefused]
  rfl

theorem moveChunk_waits {rd wr : List Span}
    (hrd : (chunkFilled s c p p src dst len).spans c.who p false (units src len) = .ok rd)
    (hwr : (chunkFilled s c p p src dst len).spans c.who p true (units dst len) = .ok wr)
    (hblocked : (chunkFilled s c p p src dst len).spansBlocked c.core rd = true) :
    s.moveChunk c p src dst len chunks tags = .next (chunkFilled s c p p src dst len) := by
  rw [moveChunk_ok hrd hwr]
  dsimp only
  rw [hblocked]
  rfl

end Move

/-! ### A tag that goes along -/

section Tag
variable {c : Cmd} {z y : State} (hy : Emits c z y)
include hy

theorem emits_sameMemory : SameMemory z y := by
  constructor <;> rw [hy.state]

theorem emits_readBytes (mk k n : Nat) : y.readBytes mk k n = z.readBytes mk k n := by
  simp only [readBytes_eq_map, (emits_sameMemory hy).readByte]

theorem emits_readNat (mk k n : Nat) : y.readNat mk k n = z.readNat mk k n := congrArg leNat (emits_readBytes hy mk k n)

theorem emits_csmEntry (die ctx cl : Nat) : y.csmEntry die ctx cl = z.csmEntry die ctx cl := by
  have hctx : y.ctx ctx = z.ctx ctx := by rw [hy.state]; rfl
  have hbase : y.ctxbase = z.ctxbase := by rw [hy.state]
  have hmem : ∀ k, y.descMem ctx k = z.descMem ctx k := fun k => by
    rw [State.descMem, State.descMem, emits_readNat hy, hbase]
  unfold State.csmEntry State.descOn
  rw [hctx, hmem, hmem, emits_readNat hy]

theorem emits_plane (q : Nat) : (y.core q).plane = (z.core q).plane := by
  by_cases hq : q = c.core
  · rw [hq, hy.core]
  · rw [hy.cores q hq]

theorem emits_tagKey (w : Who) (va : Nat) (loc : Loc) : y.tagKey w va loc = z.tagKey w va loc := by
  have hdie : ∀ d, y.die d = z.die d := fun d => by rw [hy.state]; rfl
  have hallot : ∀ cl, y.csmAllot w cl = z.csmAllot w cl := fun cl => by
    unfold State.csmAllot Core.activeCtx
    rw [emits_plane hy, emits_csmEntry hy]
  unfold State.tagKey
  simp only [hallot, hdie]

end Tag

/-! ### A chunk that parks or faults -/

section Fault
variable {s : State} {c : Cmd} {va code : Nat}

theorem chunkFault_faults (h : parks code = false) (write : Bool) : s.chunkFault c va code write =
    .next ((s.cmdFault c code (w64 va) 2 (fun d => d.queue.isCopy) write).getD s) := by
  unfold State.chunkFault
  rw [h]
  rfl

theorem chunkFault_full (h : parks code = true) (hfull : (s.die (dieOf c.core)).fqFull = true) (write : Bool) :
    s.chunkFault c va code write = .next s := by
  unfold State.chunkFault State.parkCmd
  rw [h, if_pos hfull]
  rfl

/-- The command as it parks. -/
def parkedAs (c : Cmd) (code : Nat) : Cmd :=
  { c with parked := true, retry := false, started := c.started || c.queue != .fput, code := code }

/-- The record of a command that parks, whose die has room for it. -/
theorem parkCmd_room {addr : W64} (hroom : (s.die (dieOf c.core)).fqFull = false) :
    ∃ i : FaultInfo, s.parkCmd c code addr 2 = some ((s.setCmd (parkedAs c code)).queueFault i) ∧ i.die = dieOf c.core ∧
      i.code = code ∧ i.source = 2 ∧ i.flags.testBit 2 = true ∧ i.cmd = c.id ∧ i.uid = c.team ∧ i.addr = addr := by
  unfold State.parkCmd
  rw [if_neg (Bool.eq_false_iff.mp hroom)]
  refine ⟨_, rfl, rfl, rfl, rfl, ?_, rfl, rfl, rfl⟩
  dsimp only
  split_ifs <;> rfl

/-- A command that parks leaves its record behind those of its die. -/
theorem parks_chunkFault (h : parks code = true) (hroom : (s.die (dieOf c.core)).fqFull = false) (write : Bool) :
    ∃ t, s.chunkFault c va code write = .next t ∧
      (t.core c.core).cmds = (s.core c.core).cmds.map (fun d => if d.id = c.id then parkedAs c code else d) ∧
      ∃ r, (t.die (dieOf c.core)).fq = (s.die (dieOf c.core)).fq ++ [r] ∧ r.code = code ∧ r.source = 2 ∧
        r.parked = true ∧ r.cmd = c.id ∧ r.team = c.team ∧ r.addr = w64 va := by
  obtain ⟨i, hpark, hdie, hcode, hsource, hflags, hcmd, huid, haddr⟩ := parkCmd_room (s := s) (c := c) (code := code)
    (addr := w64 va) hroom
  have hcmds := congrArg Core.cmds (core_setCmd s (parkedAs c code) (i := c.core) rfl)
  have hsame : (s.setCmd (parkedAs c code)).die (dieOf c.core) = s.die (dieOf c.core) := rfl
  generalize s.setCmd (parkedAs c code) = u at hpark hcmds hsame
  have hfault : s.chunkFault c va code write = .next (u.queueFault i) := by
    unfold State.chunkFault
    rw [h, if_pos rfl, hpark]
    exact orStay_some ..
  refine ⟨_, hfault, ?_, queuedRec (s.die (dieOf c.core)) i, ?_, hcode, hsource, hflags, hcmd, huid, haddr⟩
  · rw [core_queueFault]
    exact hcmds
  · rw [die_queueFault, if_pos hdie.symm, hdie, hsame]
    rfl

end Fault

end Sys2Proof.Proofs

/-! Versions made and waited for by CPYV (R107 to R109, R217 to R219, R255). -/

namespace Sys2Proof.Proofs

open Sys2Proof.Machine Sys2Proof.Laws

/-! ### Chains of waiters -/

section Chains
variable {s : State} {ctx n g : Nat}

theorem div_verKey (hn : n < 256) (hg : g < 2 ^ 26) : verKey ctx n g / 2 ^ 34 = ctx := by
  unfold verKey
  omega

theorem region_verKey (hn : n < 256) (hg : g < 2 ^ 26) : verKey ctx n g / 2 ^ 26 % 256 = n := by
  unfold verKey
  omega

theorem granule_verKey (hg : g < 2 ^ 26) : verKey ctx n g % 2 ^ 26 = g := by
  unfold verKey
  omega

theorem setVerChain_frame (s : State) (key : Nat) (l : List Waiter) : s.setVerChain key l = { s with
    verChains := tabSet [] s.verChains key l, mem := (s.setVerChain key l).mem, tags := (s.setVerChain key l).tags } := by
  cases hr : s.region (key / 2 ^ 34) (key / 2 ^ 26 % 256) with
  | some r => rw [setVerChain_eq l hr, onlyMemory_agentNat]
  | none =>
    unfold State.setVerChain
    dsimp only
    rw [region_verChains, hr]

theorem stored_of_sameMemory {s s' t : State} {mk base : Nat} {bs : List (BitVec 8)} (hm : SameMemory s s')
    (h : Stored s' t mk base bs) : Stored s t mk base bs :=
  ⟨fun a hi => (h.1 a ((hm.installed ..).trans hi)).trans (by rw [hm.readByte]),
    fun key a ha => (h.2 key a ha).trans (hm.readByte ..)⟩

/-- The chain of a granule replaced, in its directory entry too (R108). -/
theorem chained_setVerChain (s : State) (ctx n g : Nat) (l : List Waiter) :
    Chained s (s.setVerChain (verKey ctx n g) l) ctx n g l := by
  have hframe := setVerChain_frame s (verKey ctx n g) l
  have hchains : (s.setVerChain (verKey ctx n g) l).verChains = tabSet [] s.verChains (verKey ctx n g) l :=
    congrArg State.verChains hframe
  refine ⟨fun k => ?_, ?_, ?_⟩
  · rw [hchains]
    exact tabGet_tabSet ..
  · rw [hchains]
    exact hframe
  · intro r hr hctx hn hg k hh hw
    have hr' : s.region (verKey ctx n g / 2 ^ 34) (verKey ctx n g / 2 ^ 26 % 256) = some r := by
      rw [div_verKey hn hg, region_verKey hn hg, hr]
    rw [setVerChain_eq l hr', div_verKey hn hg, granule_verKey hg]
    refine ⟨(Config.chainHead s.ticks).toNat, ?_⟩
    have hm : SameMemory s { s with verChains := tabSet [] s.verChains (verKey ctx n g) l } := by constructor <;> rfl
    have hw' : Writable { s with verChains := tabSet [] s.verChains (verKey ctx n g) l } (s.ctxKey ctx) k 8 := hw
    generalize ({ s with verChains := tabSet [] s.verChains (verKey ctx n g) l } : State) = u at hm hw' ⊢
    have hst := stored_agentNat (if l.isEmpty then 0 else (Config.chainHead s.ticks).toNat) hh hw'
    simp only [List.isEmpty_iff] at hst ⊢
    exact stored_of_sameMemory hm hst

/-- A region's PWAIT chain, as State holds it. -/
def pwaitPut (s : State) (ctx n : Nat) (l : List Nat) : State :=
  { s with pwait := tabSet [] s.pwait (ctx * 256 + n) l }

theorem sameMemory_pwaitPut (s : State) (ctx n : Nat) (l : List Nat) : SameMemory s (pwaitPut s ctx n l) := by
  constructor <;> rfl

theorem region_pwaitPut (s : State) (ctx n : Nat) (l : List Nat) (c i : Nat) :
    (pwaitPut s ctx n l).region c i = s.region c i := by
  have hnat : ∀ mk k len, (pwaitPut s ctx n l).readNat mk k len = s.readNat mk k len :=
    fun _ _ _ => readNat_congr fun _ _ => (sameMemory_pwaitPut ..).readByte ..
  unfold State.region State.vrtab State.descWord State.descHome State.descOn State.descMem
  simp only [hnat]
  rfl

theorem setPwait_of_none {l : List Nat} (h : s.region ctx n = none) : s.setPwait ctx n l = pwaitPut s ctx n l := by
  unfold State.setPwait
  have hr := (region_pwaitPut s ctx n l ctx n).trans h
  unfold pwaitPut at hr
  dsimp only
  rw [hr]
  rfl

theorem setPwait_of_some {l : List Nat} {r : Region} (h : s.region ctx n = some r) : s.setPwait ctx n l =
    (pwaitPut s ctx n l).agentNat 0 (r.addr + 48) 8 (if l.isEmpty then 0 else (Config.chainHead s.ticks).toNat) := by
  unfold State.setPwait
  have hr := (region_pwaitPut s ctx n l ctx n).trans h
  unfold pwaitPut at hr
  dsimp only
  rw [hr]
  rfl

/-- The PWAIT chain of a region replaced, in its descriptor too (R107). -/
theorem pwaits_setPwait (s : State) (ctx n : Nat) (l : List Nat) : Pwaits s (s.setPwait ctx n l) ctx n l := by
  cases hr : s.region ctx n with
  | none =>
    rw [setPwait_of_none hr]
    exact ⟨fun k => tabGet_tabSet .., rfl, fun _ h => nomatch hr.symm.trans h⟩
  | some r =>
    rw [setPwait_of_some hr]
    have hmem := onlyMemory_agentNat (pwaitPut s ctx n l) 0 (r.addr + 48) 8
      (if l.isEmpty then 0 else (Config.chainHead s.ticks).toNat)
    have hst := fun hh hw => stored_agentNat (s := pwaitPut s ctx n l) (mk := 0) (k := r.addr + 48) (n := 8)
      (if l.isEmpty then 0 else (Config.chainHead s.ticks).toNat) hh hw
    generalize (pwaitPut s ctx n l).agentNat 0 (r.addr + 48) 8 (if l.isEmpty then 0 else (Config.chainHead s.ticks).toNat) = t
      at hmem hst ⊢
    have hpwait : t.pwait = tabSet [] s.pwait (ctx * 256 + n) l := congrArg State.pwait hmem
    refine ⟨fun k => ?_, ?_, fun r' h hh hw => ?_⟩
    · rw [hpwait]
      exact tabGet_tabSet ..
    · rw [hpwait]
      exact hmem
    · obtain rfl := Option.some.inj (hr.symm.trans h)
      simp only [List.isEmpty_iff] at hst
      exact ⟨_, stored_of_sameMemory (sameMemory_pwaitPut ..) (hst hh hw)⟩

end Chains

/-! ### Versions made -/

section Made
variable {s : State} {ctx n v : Nat} {r : Region}

/-- Version `v` of a granule made: slot and LATEST written, then the waiters woken (R109, R218). -/
def versionPut (s : State) (ctx n : Nat) (r : Region) (v g : Nat) (row : Row) : State :=
  ((s.agentNat (s.ctxKey ctx) (r.slot g v) 128 row.toNat).agentNat (s.ctxKey ctx) (gpaKey (r.dir + 16 * g)) 4 v).wakeVer
    ctx n g v

/-- The chain of a granule without the waiters that a version wakes. -/
def chainKept (b : State) (ctx n g v : Nat) (chain : List Waiter) : State :=
  if chain.any (Waiter.wants v) then b.setVerChain (verKey ctx n g) (chain.filter fun w => !w.wants v) else b

theorem wakeVer_def (b : State) (g : Nat) : b.wakeVer ctx n g v =
    ((tabGet [] b.verChains (verKey ctx n g) : List Waiter).filter (Waiter.wants v)).foldl State.versionMade
      (chainKept b ctx n g v (tabGet [] b.verChains (verKey ctx n g))) := rfl

theorem makes_versionPut (s : State) (g : Nat) (row : Row) : Makes s (versionPut s ctx n r v g row) ctx n r v g row := by
  unfold Makes
  intro mk dir chain
  have ha := onlyMemory_agentNat s mk (r.slot g v) 128 row.toNat
  have hsta := fun hh hw => stored_agentNat (s := s) (mk := mk) (k := r.slot g v) (n := 128) row.toNat hh hw
  unfold versionPut
  generalize hadef : s.agentNat (s.ctxKey ctx) (r.slot g v) 128 row.toNat = a at ha hsta ⊢
  have hb := onlyMemory_agentNat a mk dir 4 v
  have hstb := fun hh hw => stored_agentNat (s := a) (mk := mk) (k := dir) (n := 4) v hh (ha.writable.mpr hw)
  generalize hbdef : a.agentNat (s.ctxKey ctx) (gpaKey (r.dir + 16 * g)) 4 v = b at hb hstb ⊢
  have hsb : OnlyMemory s b := ha.trans hb
  have hchain : (tabGet [] b.verChains (verKey ctx n g) : List Waiter) = chain :=
    congrArg (fun m => tabGet [] m (verKey ctx n g)) (show b.verChains = s.verChains by rw [hsb])
  refine ⟨a, b, chainKept b ctx n g v chain, ha, hsb, hsta, hstb, fun hno => if_neg ?_, fun hsome => ?_, ?_⟩
  · rw [List.any_eq_true]
    rintro ⟨w, hw, hwants⟩
    exact absurd (hno w hw) (by simp [hwants])
  · rw [chainKept, if_pos (List.any_eq_true.mpr hsome)]
    exact chained_setVerChain ..
  · rw [wakeVer_def, hchain]

theorem makesAll_makeVersions (rows : List Row) (s : State) (g : Nat) :
    MakesAll s (s.makeVersions ctx n r v g rows) ctx n r v g rows := by
  induction rows generalizing s g with
  | nil => rfl
  | cons row rows ih => exact ⟨versionPut s ctx n r v g row, makes_versionPut s g row, ih _ _⟩

theorem wrongOrder_of_nextAll {g m : Nat} (h : NextAll s ctx r g v m) : s.wrongOrder ctx r g v m = none := by
  induction m with
  | zero => rfl
  | succ m ih =>
    rw [State.wrongOrder, ih fun j hj => h j (by omega)]
    exact if_pos (h m (Nat.lt_succ_self m))

variable {g : Nat} {rows : List Row} (hv : v ≠ 0xFFFFFFFF) (h : NextAll s ctx r g v rows.length)
include hv h

theorem create_made (hk : v < r.floor + r.k) :
    s.create ctx n r g v rows false = .made (s.makeVersions ctx n r v g rows) := by
  unfold State.create
  rw [if_neg fun hh => hv hh.1, wrongOrder_of_nextAll h]
  exact if_neg (Nat.not_le.mpr hk)

theorem create_park (hk : r.floor + r.k ≤ v) : s.create ctx n r g v rows false = .park := by
  unfold State.create
  rw [if_neg fun hh => hv hh.1, wrongOrder_of_nextAll h]
  exact if_pos hk

end Made

theorem length_rowsOf (bs : List (BitVec 8)) (n : Nat) : (rowsOf bs n).length = n := by
  induction n generalizing bs with
  | zero => rfl
  | succ n ih => rw [rowsOf, List.length_cons, ih]

/-! ### What the reads of a chunk find -/

section Got
variable {l : List VGot}

theorem gotFault_none (h : ∀ g ∈ l, ∀ x, g ≠ VGot.fault x) : gotFault l = none := by
  refine List.findSome?_eq_none_iff.mpr fun e he => ?_
  obtain ⟨g, j⟩ := e
  have hg : g ∈ l := List.fst_mem_of_mem_zipIdx he
  cases g with
  | data r => rfl
  | fault c => exact absurd rfl (h _ hg c)
  | wait n g => rfl

theorem gotWait_none (h : ∀ g ∈ l, ∃ r, g = VGot.data r) : gotWait l = none := by
  refine List.findSome?_eq_none_iff.mpr fun g hg => ?_
  obtain ⟨r, rfl⟩ := h g hg
  rfl

theorem gotFault_none_of_data (h : ∀ g ∈ l, ∃ r, g = VGot.data r) : gotFault l = none :=
  gotFault_none fun g hg x hx => by
    obtain ⟨r, hr⟩ := h g hg
    exact nomatch hr.symm.trans hx

end Got

/-! ### The steps of CPYV -/

section Version
variable {s : State} {c : Cmd} {m k : Nat}

/-- Granules of the chunk. -/
def chunkCount (m k : Nat) : Nat := min 32 (m - 32 * k)

/-- The TLBs filled for a chunk that reads versions. -/
def readFilled (s : State) (c : Cmd) (m k : Nat) : State :=
  chunkFilled s c .versioned .plain (c.xb.toNat + 4096 * k) (c.xa.toNat + 4096 * k) (128 * chunkCount m k)

/-- What it finds. -/
def chunkGot (s : State) (c : Cmd) (m k : Nat) : List VGot :=
  (readFilled s c m k).readGranules c (c.xb.toNat + 4096 * k) (c.xc.toNat % 2 ^ 32) (chunkCount m k)

section Read
variable {wr : List Span} (hwr : (readFilled s c m k).spans c.who .plain true
  (units (c.xa.toNat + 4096 * k) (128 * chunkCount m k)) = .ok wr)
include hwr

theorem versionRead_ok (hfault : gotFault (chunkGot s c m k) = none) : s.versionRead c m k =
    match gotWait (chunkGot s c m k) with
    | some (n, g) => .next (((readFilled s c m k).setCmd { c with started := true, held := true }).setVerChain
        (verKey c.ctx n g) (tabGet [] ((readFilled s c m k).setCmd { c with started := true, held := true }).verChains
          (verKey c.ctx n g) ++ [.cmd c.core c.id]))
    | none => .next (((readFilled s c m k).engineWrite c wr (gotBytes (chunkGot s c m k)) 16).chunkDone c
        ((m + 31) / 32)) := by
  change (match gotFault (chunkGot s c m k) with
    | some (j, code) => _
    | none => match (readFilled s c m k).spans c.who .plain true
        (units (c.xa.toNat + 4096 * k) (128 * chunkCount m k)) with
      | .error (va, code) => _
      | .ok wr => _) = _
  rw [hfault, hwr]
  rfl

theorem versionRead_reads (h : ∀ g ∈ chunkGot s c m k, ∃ r, g = VGot.data r) : s.versionRead c m k =
    .next (((readFilled s c m k).engineWrite c wr (gotBytes (chunkGot s c m k)) 16).chunkDone c ((m + 31) / 32)) := by
  rw [versionRead_ok hwr (gotFault_none_of_data h), gotWait_none h]

theorem versionRead_waits {n g : Nat} (h : ∀ g ∈ chunkGot s c m k, ∀ x, g ≠ VGot.fault x)
    (hwait : gotWait (chunkGot s c m k) = some (n, g)) : s.versionRead c m k =
    .next (((readFilled s c m k).setCmd { c with started := true, held := true }).setVerChain (verKey c.ctx n g)
      (tabGet [] (readFilled s c m k).verChains (verKey c.ctx n g) ++ [.cmd c.core c.id])) := by
  rw [versionRead_ok hwr (gotFault_none h), hwait]
  rfl

end Read

/-- The TLBs filled for a chunk that creates versions. -/
def createFilled (s : State) (c : Cmd) (m k : Nat) : State :=
  chunkFilled s c .plain .versioned (c.xb.toNat + 4096 * k) (c.xa.toNat + 4096 * k) (128 * chunkCount m k)

/-- The rows that it makes. -/
def chunkRows (s : State) (c : Cmd) (m k : Nat) (rd : List Span) : List Row :=
  rowsOf ((createFilled s c m k).readSpans rd) (chunkCount m k)

/-- The command once its region is found. -/
def inRegion (c : Cmd) (n : Nat) : Cmd := { c with vals := [w64 n], started := true }

/-- The create that waits for its region's floor. -/
def heldCreate (c : Cmd) (k cnt n g id : Nat) (rows : List Row) : VReq where
  op := .create; src := .copy c.core c.id; ctx := c.ctx; pc := c.pc; va := w64 (c.xa.toNat + 4096 * k)
  count := cnt; ver := w64 (c.xc.toNat % 2 ^ 32); rows := rows; got := []; dst := []; xm := 0
  scope := c.scope; seq := id; held := true; answer := none; msg := none; region := n
  granule := g

section Create
variable {rd : List Span} {n g : Nat} {r : Region}
  (hrd : (createFilled s c m k).spans c.who .plain false
    (units (c.xb.toNat + 4096 * k) (128 * chunkCount m k)) = .ok rd)
  (hspan : (createFilled s c m k).createSpan c.who (w64 (c.xa.toNat + 4096 * k)) (chunkCount m k - 1) = .ok (n, r, g))
  (hvals : ∀ v ∈ c.vals, v = w64 n) (hfree : (createFilled s c m k).spansBlocked c.core rd = false)
  (hrefused : (createFilled s c m k).spansRefused rd false = none)
include hrd hspan hvals hfree hrefused

theorem versionCreate_ok : s.versionCreate c m k =
    match (createFilled s c m k).create c.ctx n r g (c.xc.toNat % 2 ^ 32) (chunkRows s c m k rd) false with
    | .made t => .next (t.chunkDone (inRegion c n) ((m + 31) / 32))
    | .dropped t => .next (t.chunkDone (inRegion c n) ((m + 31) / 32))
    | .fault code j => (createFilled s c m k).chunkFault (inRegion c n) (c.xa.toNat + 4096 * k + 128 * j) code true
    | .park => .next (((createFilled s c m k).fresh.2.setCmd { inRegion c n with held := true }).parkCreate
        (createFilled s c m k).nextId (heldCreate c k (chunkCount m k) n g (createFilled s c m k).nextId
          (chunkRows s c m k rd)) n g) := by
  have hany : (c.vals.any fun v => v != w64 n) = false :=
    List.any_eq_false.mpr fun v hv => by simp [hvals v hv]
  change (match (createFilled s c m k).spans c.who .plain false
      (units (c.xb.toNat + 4096 * k) (128 * chunkCount m k)),
      (createFilled s c m k).createSpan c.who (w64 (c.xa.toNat + 4096 * k)) (chunkCount m k - 1) with
    | .error (va, code), _ => _
    | _, .error (code, va) => _
    | .ok rd, .ok (n, r, g) => _) = _
  rw [hrd, hspan]
  refine (if_neg (Bool.eq_false_iff.mp hany)).trans ((if_neg (Bool.eq_false_iff.mp hfree)).trans ?_)
  change (match (createFilled s c m k).spansRefused rd false with
    | some va => _
    | none => _) = _
  rw [hrefused]
  rfl

variable (hv : c.xc.toNat % 2 ^ 32 ≠ 0xFFFFFFFF)
  (hnext : NextAll (createFilled s c m k) c.ctx r g (c.xc.toNat % 2 ^ 32) (chunkCount m k))
include hv hnext

theorem versionCreate_makes (hk : c.xc.toNat % 2 ^ 32 < r.floor + r.k) : s.versionCreate c m k =
    .next (((createFilled s c m k).makeVersions c.ctx n r (c.xc.toNat % 2 ^ 32) g (chunkRows s c m k rd)).chunkDone
      (inRegion c n) ((m + 31) / 32)) := by
  rw [versionCreate_ok hrd hspan hvals hfree hrefused, create_made hv (by rwa [chunkRows, length_rowsOf]) hk]

theorem versionCreate_parks (hk : r.floor + r.k ≤ c.xc.toNat % 2 ^ 32) : s.versionCreate c m k =
    .next (((createFilled s c m k).fresh.2.setCmd { inRegion c n with held := true }).parkCreate
      (createFilled s c m k).nextId (heldCreate c k (chunkCount m k) n g (createFilled s c m k).nextId
        (chunkRows s c m k rd)) n g) := by
  rw [versionCreate_ok hrd hspan hvals hfree hrefused, create_park hv (by rwa [chunkRows, length_rowsOf]) hk]

end Create

theorem versionChunk_free (h : c.held = false) (cr : Bool) : s.versionChunk c cr =
    if cr then s.versionCreate c (c.xc.toNat / 2 ^ 32 % 2 ^ 16 + 1) c.chunk
    else s.versionRead c (c.xc.toNat / 2 ^ 32 % 2 ^ 16 + 1) c.chunk := by
  unfold State.versionChunk
  exact if_neg (by simp [h])

end Version

end Sys2Proof.Proofs

/-! ACW: translated whole, then element by element at the ports (R252, R257 to R260). -/

namespace Sys2Proof.Proofs

open Sys2Proof.Machine Sys2Proof.Laws

/-! ### Values of an element (R259) -/

section Values
variable {ty old b ret : Nat}

/-- How two elements compare, as `acwOp` does it. -/
def acwLess (ty x y : Nat) : Bool :=
  decide (intOf (8 * acwWidth ty) (ty == 0 || ty == 2) x < intOf (8 * acwWidth ty) (ty == 0 || ty == 2) y)

theorem acwLess_signed {x y : Nat} (h : ty = 0 ∨ ty = 2) : acwLess ty x y =
    (BitVec.ofNat (8 * acwWidth ty) x).slt (BitVec.ofNat (8 * acwWidth ty) y) := by
  have hs : (ty == 0 || ty == 2) = true := by simpa using h
  rw [acwLess, hs, intOf_signed, intOf_signed]
  rfl

theorem acwLess_unsigned {x y : Nat} (h : ¬ (ty = 0 ∨ ty = 2)) (hx : x < 2 ^ (8 * acwWidth ty))
    (hy : y < 2 ^ (8 * acwWidth ty)) : acwLess ty x y = decide (x < y) := by
  have hs : (ty == 0 || ty == 2) = false := by simpa using h
  rw [acwLess, hs]
  simp [intOf, Nat.mod_eq_of_lt hx, Nat.mod_eq_of_lt hy]

theorem acwOp_min : acwOp 2 ty old b ret = if acwLess ty b old = true then b else old := rfl

theorem acwOp_max : acwOp 3 ty old b ret = if acwLess ty old b = true then b else old := rfl

theorem acwOp_cas : acwOp 8 ty old b ret = if old = ret then b else old := rfl

end Values

/-! ### Bits that a store may write -/

theorem toNat_softMask_lt (s : State) (k : Nat) {n : Nat} (hn : n ≤ 8) : (s.softMask k n).toNat < 2 ^ (8 * n) := by
  induction n generalizing k with
  | zero => exact Nat.zero_lt_one
  | succ n ih =>
    have hrest := ih (k + 1) (by omega)
    have hbyte : (s.softByte k).toNat < 2 ^ 8 := (s.softByte k).isLt
    have hpow : 2 ^ (8 * (n + 1)) = 2 ^ (8 * n) * 2 ^ 8 := by rw [Nat.mul_succ, Nat.pow_add]
    rw [State.softMask, BitVec.toNat_or]
    refine Nat.or_lt_two_pow ?_ ?_
    · rw [BitVec.toNat_shiftLeft, Nat.shiftLeft_eq]
      refine lt_of_le_of_lt (Nat.mod_le _ _) ?_
      rw [hpow]
      exact Nat.mul_lt_mul_of_pos_right hrest (by decide)
    · rw [BitVec.zeroExtend_eq_setWidth, BitVec.toNat_setWidth]
      refine lt_of_le_of_lt (Nat.mod_le _ _) (lt_of_lt_of_le hbyte ?_)
      exact Nat.pow_le_pow_right (by decide) (by omega)

theorem allBytes_and_softMask (s : State) (k : Nat) {n : Nat} (hn : n ≤ 8) :
    BitVec.ofNat 64 (2 ^ (8 * n) - 1) &&& s.softMask k n = s.softMask k n := by
  have hlt := toNat_softMask_lt s k hn
  have hpow : 2 ^ (8 * n) ≤ 2 ^ 64 := Nat.pow_le_pow_right (by decide) (by omega)
  have hpos : 0 < 2 ^ (8 * n) := Nat.two_pow_pos _
  refine BitVec.eq_of_toNat_eq ?_
  rw [BitVec.toNat_and, BitVec.toNat_ofNat, Nat.mod_eq_of_lt (by omega), Nat.and_comm, Nat.and_two_pow_sub_one_eq_mod,
    Nat.mod_eq_of_lt hlt]

/-- An element's bits written at a place of this package's memory (R5, R259). -/
theorem stored_element {s : State} {k mk n : Nat} {new : BitVec 64} (hplace : InMemory k n) (hpos : 0 < n) (hn : n ≤ 8) :
    Stored s (s.writePiece k mk n new (BitVec.ofNat 64 (2 ^ (8 * n) - 1))) mk k (leBytes n
      ((BitVec.ofNat 64 (s.readNat mk k n) &&& ~~~ s.softMask k n) ||| (new &&& s.softMask k n)).toNat) ∧
      OnlyMemory s (s.writePiece k mk n new (BitVec.ofNat 64 (2 ^ (8 * n) - 1))) := by
  have hp : PlainPlace k n := hplace.imp_right .inr
  have hlt : k < 2 ^ 57 := by
    rcases hplace with hh | ⟨die, cl, off, hdie, hcl, hoff, rfl⟩
    · exact lt_trans (isHbm_iff.mp (hh k le_rfl (by omega))).1 (by decide)
    · unfold csmKey physKey
      omega
  have hw := writePiece_plainPlace s
    (p := { newPiece 0 n new (BitVec.ofNat 64 (2 ^ (8 * n) - 1)) with mkey := mk }) hp hpos
  have hw' : s.writePiece k mk n new (BitVec.ofNat 64 (2 ^ (8 * n) - 1)) = s.writeNat mk k n _ :=
    hw.trans (if_neg (Nat.not_le.mpr hlt))
  rw [hw']
  refine ⟨?_, onlyMemory_writeBytes ..⟩
  have hst := stored_writeBytes (mk := mk) (leBytes n (merged s k
    { newPiece 0 n new (BitVec.ofNat 64 (2 ^ (8 * n) - 1)) with mkey := mk })) s k
    (by rw [length_leBytes]; exact backed_of_plainPlace s hp hpos)
  unfold merged at hst ⊢
  rw [if_pos hlt] at hst ⊢
  dsimp only [newPiece] at hst ⊢
  rwa [allBytes_and_softMask s k hn] at hst ⊢

/-! ### An element at its port -/

section Elem
variable {s : State} {c : Cmd} {f : FE3} {d : Piece}

/-- Operation, type and operand of an ACW. -/
def acwCode (f : FE3) : Nat := f.imm.toNat / 4 % 16
def acwType (f : FE3) : Nat := f.imm.toNat / 64 % 8

/-- What becomes of an element that reads `old`. -/
def elemNew (c : Cmd) (f : FE3) (d : Piece) (old : Nat) : Nat :=
  acwOp (acwCode f) (acwType f) old (c.xb.toNat % 2 ^ (8 * d.len)) (c.vals.getD c.chunk 0).toNat

/-- The write of it. -/
def elemPiece (c : Cmd) (f : FE3) (d : Piece) (old : Nat) : Piece :=
  { d with data := BitVec.ofNat 64 (elemNew c f d old), mask := BitVec.ofNat 64 (2 ^ (8 * d.len) - 1) }

theorem elemAt_mem {k : Nat} (h : d.loc = some (.mem k)) : s.elemAt d = s.readNat d.mkey k d.len := by
  unfold State.elemAt
  rw [h, State.readNat, readBytes_eq_map]
  rfl

/-- The element written, by its bank where it is a barrier object's. -/
def elemWritten (s : State) (c : Cmd) (f : FE3) (d : Piece) (k : Nat) : State :=
  let p := elemPiece c f d (s.readNat d.mkey k d.len)
  if s.onBarrier p then s.storeObject k p else s.writePiece k d.mkey d.len p.data p.mask

theorem acwElem_mem {k : Nat} (h : d.loc = some (.mem k)) (hlost : s.locLost (.mem k) = false)
    (href : s.refused d.mkey k true = false) :
    s.acwElem c f d = .ok (s.readNat d.mkey k d.len, elemWritten s c f d k) := by
  have helem := elemAt_mem (s := s) h
  unfold State.acwElem
  dsimp only
  rw [helem]
  unfold elemWritten elemPiece elemNew acwCode acwType
  simp only [h, Option.any_some, hlost, href, Bool.false_eq_true, if_false]

theorem acwElem_lost {l : Loc} (h : d.loc = some l) (hlost : s.locLost l = true) :
    s.acwElem c f d = .error cPeerLost := by
  unfold State.acwElem
  simp only [h, Option.any_some, hlost, if_true]

theorem acwElem_refused {k : Nat} (h : d.loc = some (.mem k)) (hlost : s.locLost (.mem k) = false)
    (href : s.refused d.mkey k true = true) : s.acwElem c f d = .error cAccessDenied := by
  unfold State.acwElem
  simp only [h, Option.any_some, hlost, href, Bool.false_eq_true, if_false, if_true]

theorem acwElem_remote {pkg addr : Nat} (h : d.loc = some (.remote pkg addr))
    (hlost : s.locLost (.remote pkg addr) = false) : s.acwElem c f d = .ok (s.elemAt d,
      (s.sendAccess pkg addr (.atomic c.id pkg addr (acwCode f) (acwType f) (f.imm.getLsbD 9)
        (w64 (c.xb.toNat % 2 ^ (8 * d.len))) (c.vals.getD c.chunk 0))).trackAtomic c d) := by
  unfold State.acwElem acwCode acwType
  simp only [h, Option.any_some, hlost, Bool.false_eq_true, if_false]

/-- The old value on its way to the return array, where one is asked for (R259). -/
def returned (b : State) (c : Cmd) (cnt old : Nat) : State :=
  match c.units[cnt + c.chunk]? with
  | some r => (match r.loc with
    | some l => b.engineWrite c [⟨r.va.toNat, r.len, l, r.mkey⟩] (leBytes r.len old) 1 (some r.epoch)
    | none => b)
  | none => b

/-- The next element is the command's, or it is over. -/
def elemDone (y : State) (c : Cmd) (cnt : Nat) : State :=
  if c.chunk + 1 < cnt then y.setCmd { c with chunk := c.chunk + 1 } else y.finishCmd c

theorem emits_returned (b : State) (c : Cmd) (cnt old : Nat) : Emits c b (returned b c cnt old) := by
  unfold returned
  split
  · split
    · exact emits_engineWrite ..
    · exact .refl c b
  · exact .refl c b

theorem returned_some {b : State} {cnt old : Nat} {u : Piece} {l : Loc} (hu : c.units[cnt + c.chunk]? = some u)
    (hl : u.loc = some l) : returned b c cnt old =
      b.engineWrite c [⟨u.va.toNat, u.len, l, u.mkey⟩] (leBytes u.len old) 1 (some u.epoch) := by
  unfold returned
  rw [hu]
  dsimp only
  rw [hl]

theorem returned_none {b : State} {cnt old : Nat} (hu : c.units[cnt + c.chunk]? = none) : returned b c cnt old = b := by
  unfold returned
  rw [hu]

/-- What is left of the command and of its core once an element is done. -/
theorem goesOn_elemDone {z y : State} (hy : Emits c z y) (cnt : Nat) :
    ((c.chunk + 1 < cnt → ((elemDone y c cnt).core c.core).cmds = (z.core c.core).cmds.map fun x =>
      if x.id = c.id then { c with chunk := c.chunk + 1 } else x) ∧
      (cnt ≤ c.chunk + 1 → Over z (elemDone y c cnt) c)) ∧ CoreOnly c z (elemDone y c cnt) ∧
      ((elemDone y c cnt).core c.core).stores = (y.core c.core).stores := by
  unfold elemDone
  by_cases h : c.chunk + 1 < cnt
  · rw [if_pos h]
    exact ⟨⟨fun _ => cmds_setCmd hy _ rfl, fun hno => by omega⟩, coreOnly_setCmd hy _ rfl, stores_setCmd _ rfl⟩
  · rw [if_neg h]
    exact ⟨⟨fun hno => absurd hno h, fun _ => over_emitted hy⟩, coreOnly_finishCmd hy, stores_finishCmd⟩

end Elem

/-! ### The steps of an ACW -/

section Steps
variable {s : State} {id : Nat} {c : Cmd} {f : FE3} (hc : s.cmd c.core id = some c) (hi : c.instr = .acw f)
  (hruns : s.cmdRuns c = true) (hrel : s.acwReleased c (f.e.ord == 1) = true)
include hc hi hruns hrel

/-- Elements of an ACW. -/
def acwCount (f : FE3) : Nat := f.imm.toNat / 1024 + 1

theorem exec_acwPortStep : exec (.acwPortStep c.core id) s =
    if c.units.isEmpty then s.acwStart c f
    else match c.units[c.chunk]? with
      | none => .next s
      | some d => match d.loc with
        | none => .next s
        | some l =>
          if s.readBlocked c.core l d.len || !(s.locLost l || s.wayFree l) then .next s
          else match s.acwElem c f d with
            | .error code => s.chunkFault { c with chunk := 0 } d.va.toNat code true
            | .ok (old, b) => .next (elemDone (returned b c (acwCount f) old) c (acwCount f)) := by
  change execAcwPortStep c.core id s = _
  unfold execAcwPortStep
  rw [hc]
  dsimp only
  split
  next f' hf =>
    obtain rfl : f' = f := Instr.acw.inj (hf.symm.trans hi)
    rw [if_neg (by rw [hruns, hrel]; exact nofun)]
    rfl
  next h => exact absurd hi (h f)

section Element
variable {d : Piece} {l : Loc} (hunits : c.units ≠ []) (hd : c.units[c.chunk]? = some d) (hl : d.loc = some l)
include hunits hd hl

theorem exec_acwElement : exec (.acwPortStep c.core id) s =
    if s.readBlocked c.core l d.len || !(s.locLost l || s.wayFree l) then .next s
    else match s.acwElem c f d with
      | .error code => s.chunkFault { c with chunk := 0 } d.va.toNat code true
      | .ok (old, b) => .next (elemDone (returned b c (acwCount f) old) c (acwCount f)) := by
  rw [exec_acwPortStep hc hi hruns hrel, if_neg (by simpa using hunits), hd]
  dsimp only
  rw [hl]

theorem exec_acw_waits (h : (s.readBlocked c.core l d.len || !(s.locLost l || s.wayFree l)) = true) :
    exec (.acwPortStep c.core id) s = .next s := by
  rw [exec_acwElement hc hi hruns hrel hunits hd hl, if_pos h]

variable (hgo : (s.readBlocked c.core l d.len || !(s.locLost l || s.wayFree l)) = false)
include hgo

theorem exec_acw_element {old : Nat} {b : State} (h : s.acwElem c f d = .ok (old, b)) :
    exec (.acwPortStep c.core id) s = .next (elemDone (returned b c (acwCount f) old) c (acwCount f)) := by
  rw [exec_acwElement hc hi hruns hrel hunits hd hl, if_neg (Bool.eq_false_iff.mp hgo), h]

theorem exec_acw_fault {code : Nat} (h : s.acwElem c f d = .error code) :
    exec (.acwPortStep c.core id) s = s.chunkFault { c with chunk := 0 } d.va.toNat code true := by
  rw [exec_acwElement hc hi hruns hrel hunits hd hl, if_neg (Bool.eq_false_iff.mp hgo), h]

end Element
end Steps

/-! ### The start of an ACW -/

section Start
variable {s : State} {c : Cmd} {f : FE3} {dst ret : List Span}

/-- Its return array, where it has one. -/
def acwInto (c : Cmd) (f : FE3) : List (Nat × Nat) :=
  if f.imm.getLsbD 9 then elements c.xc (acwWidth (acwType f)) (acwCount f) else []

/-- The TLBs filled for its arrays (R355). -/
def acwFilled (s : State) (c : Cmd) (f : FE3) : State :=
  (s.fillUnits c.who .plain true (elements c.xa (acwWidth (acwType f)) (acwCount f))).fillUnits c.who .plain true
    (acwInto c f)

/-- The command once its arrays are translated. -/
def acwBegun (z : State) (c : Cmd) (f : FE3) (dst ret : List Span) : Cmd :=
  { c with
    started := true
    vals := if acwCode f = 8 then ret.map fun u => w64 (leNat (z.readSpans [u])) else []
    units := unitPieces (z.epoch c.core) dst ++ unitPieces (z.epoch c.core) ret }

variable (hdst : (acwFilled s c f).spans c.who .plain true (elements c.xa (acwWidth (acwType f)) (acwCount f)) = .ok dst)
  (hret : (acwFilled s c f).spans c.who .plain true (acwInto c f) = .ok ret)
include hdst hret

theorem acwStart_ok : s.acwStart c f =
    match hostSpan dst with
    | some va => (acwFilled s c f).chunkFault c va cAccessDenied true
    | none =>
      if acwCode f = 8 ∧ (acwFilled s c f).spansBlocked c.core ret = true then .next (acwFilled s c f)
      else .next ((acwFilled s c f).setCmd (acwBegun (acwFilled s c f) c f dst ret)) := by
  change (match (acwFilled s c f).spans c.who .plain true (elements c.xa (acwWidth (acwType f)) (acwCount f)),
      (acwFilled s c f).spans c.who .plain true (acwInto c f) with
    | .error (va, code), _ => _
    | _, .error (va, code) => _
    | .ok dst, .ok ret => _) = _
  rw [hdst, hret]
  unfold acwBegun
  simp only [acwCode, Bool.and_eq_true, beq_iff_eq]
  rfl

theorem acwStart_host {va : Nat} (h : hostSpan dst = some va) :
    s.acwStart c f = (acwFilled s c f).chunkFault c va cAccessDenied true := by
  rw [acwStart_ok hdst hret, h]

theorem acwStart_starts (h : hostSpan dst = none)
    (hfree : acwCode f = 8 → (acwFilled s c f).spansBlocked c.core ret = false) :
    s.acwStart c f = .next ((acwFilled s c f).setCmd (acwBegun (acwFilled s c f) c f dst ret)) := by
  rw [acwStart_ok hdst hret, h]
  exact if_neg fun ⟨h8, hb⟩ => absurd (hfree h8) (by rw [hb]; exact nofun)

end Start

/-! ### What an element leaves -/

section Element
variable {s : State} {c : Cmd} {f : FE3} {d : Piece} {k : Nat}

/-- An element of memory that is no barrier object's. -/
theorem stored_elemWritten (hplace : InMemory k d.len) (hpos : 0 < d.len) (hn : d.len ≤ 8) (hloc : d.loc = some (.mem k))
    (hfree : ∀ x ∈ s.barriers, k + d.len ≤ x ∨ x + 16 ≤ k) :
    let m := s.softMask k d.len
    let old := s.readNat d.mkey k d.len
    OnlyMemory s (elemWritten s c f d k) ∧ Stored s (elemWritten s c f d k) d.mkey k (leBytes d.len
      ((BitVec.ofNat 64 old &&& ~~~m) ||| (BitVec.ofNat 64 (elemNew c f d old) &&& m)).toNat) := by
  have hoff : s.onBarrier (elemPiece c f d (s.readNat d.mkey k d.len)) = false := by
    unfold State.onBarrier elemPiece
    simp only [hloc]
    rw [List.any_eq_false]
    intro o ho
    have := hfree o ho
    simp only [Bool.and_eq_true, decide_eq_true_eq]
    omega
  obtain ⟨hst, hmem⟩ := stored_element (s := s) (mk := d.mkey)
    (new := BitVec.ofNat 64 (elemNew c f d (s.readNat d.mkey k d.len))) hplace hpos hn
  have heq : elemWritten s c f d k = s.writePiece k d.mkey d.len
      (BitVec.ofNat 64 (elemNew c f d (s.readNat d.mkey k d.len))) (BitVec.ofNat 64 (2 ^ (8 * d.len) - 1)) :=
    if_neg (Bool.eq_false_iff.mp hoff)
  rw [heq]
  exact ⟨hmem, hst⟩

/-- The object as an element leaves it. -/
theorem storedBar_ofNat (o : Bar) (new : Nat) : storedBar o (BitVec.ofNat 64 new).toNat = storedBar o new := by
  have h1 : new % 2 ^ 64 % 2 ^ 16 = new % 2 ^ 16 := by omega
  have h2 : new % 2 ^ 64 / 2 ^ 16 % 2 ^ 16 = new / 2 ^ 16 % 2 ^ 16 := by omega
  have h3 : new % 2 ^ 64 / 2 ^ 32 % 16 = new / 2 ^ 32 % 16 := by omega
  unfold storedBar
  rw [BitVec.toNat_ofNat, h1, h2, h3, Nat.testBit_mod_two_pow]
  simp

/-- An element of a barrier object, written by its bank (R266). -/
theorem barIs_elemWritten (hk : k ∈ s.barriers) (hobj : CsmObj k) (hal : k % 16 = 0) (hlen : d.len = 8)
    (hloc : d.loc = some (.mem k)) :
    let o := s.bar k
    let o' := storedBar o (elemNew c f d (s.readNat d.mkey k d.len))
    (o.phase = o'.phase ∨ o.waiters = 0 → BarIs s (elemWritten s c f d k) k o') ∧
      (o.phase ≠ o'.phase → o.waiters ≠ 0 →
        ∃ u, BarIs s u k { o' with waiters := 0, list := 0 } ∧ elemWritten s c f d k = u.chainFreed k) := by
  intro o o'
  have hon : s.onBarrier (elemPiece c f d (s.readNat d.mkey k d.len)) = true := by
    unfold State.onBarrier elemPiece
    simp only [hloc, hlen]
    exact List.any_eq_true.mpr ⟨k, hk, by simp⟩
  have hstore := storeObject_new (s := s) (k := k) (p := elemPiece c f d (s.readNat d.mkey k d.len)) hlen
    (show BitVec.ofNat 64 (2 ^ (8 * d.len) - 1) = BitVec.allOnes 64 by rw [hlen]; decide) hal
  have hdata : storedBar o (elemPiece c f d (s.readNat d.mkey k d.len)).data.toNat = o' := storedBar_ofNat ..
  dsimp only at hstore
  rw [hdata] at hstore
  have heq : elemWritten s c f d k = if o.phase ≠ o'.phase ∧ o.waiters ≠ 0 then
      (s.setBar k { o' with waiters := 0, list := 0 }).chainFreed k else s.setBar k o' := (if_pos hon).trans hstore
  have hfits := barFits_storedBar (barFits_bar s k) (elemNew c f d (s.readNat d.mkey k d.len))
  refine ⟨fun h => ?_, fun hp hw => ?_⟩
  · rw [heq, if_neg (by tauto)]
    exact barIs_setBar_fits hobj hfits (waiters_bar_lt s k)
  · refine ⟨s.setBar k { o' with waiters := 0, list := 0 }, ?_, heq.trans (if_pos ⟨hp, hw⟩)⟩
    exact barIs_setBar_fits hobj ⟨hfits.expect, hfits.pending, hfits.phase, Nat.two_pow_pos 64⟩ (Nat.two_pow_pos 24)

end Element

end Sys2Proof.Proofs

/-! Copies and atomics: the steps as SPEC states them (R252 to R260, R326, R368). -/

namespace Sys2Proof.Proofs

open Sys2Proof.Machine Sys2Proof.Laws

/-! ### Writes that stand once the step is over -/

section Sends
variable {c : Cmd} {z y t : State} {sp : List Span} {bs : List (BitVec 8)} {grain ep : Nat}

theorem sendsUnits_of_stores (h : Sends z y c sp bs grain ep) (ht : (t.core c.core).stores = (y.core c.core).stores) :
    Sends z t c sp bs grain ep := by
  unfold Sends at h ⊢
  rw [ht]
  exact h

theorem sends_none (ht : (t.core c.core).stores = (z.core c.core).stores) : Sends z t c [] bs grain ep :=
  ⟨fun _ => ht, fun h => absurd rfl h⟩

end Sends

theorem coreOnly_over {c : Cmd} {s : State} : Over s (s.finishCmd c) c ∧ CoreOnly c s (s.finishCmd c) :=
  ⟨over_emitted (.refl c s), coreOnly_finishCmd (.refl c s)⟩

/-! ### Chunks of CPY and CPYS -/

section Chunk
variable {s : State} {id : Nat} {c : Cmd} {f : FE3} (hc : s.cmd c.core id = some c) (hruns : s.cmdRuns c = true)
include hc hruns

theorem exec_cpy (hi : c.instr = .cpy f) (hn : c.xc.toNat ≠ 0) : exec (.copyChunk c.core id) s =
    s.moveChunk c .plain (c.xb.toNat + 4096 * c.chunk) (c.xa.toNat + 4096 * c.chunk)
      (chunkLen c.xc.toNat c.chunk) ((c.xc.toNat + 4095) / 4096) fun _ _ s => s := by
  rw [exec_copyChunk hc hruns]
  split
  next => exact if_neg hn
  next h => exact nomatch hi.symm.trans h
  next h => exact nomatch hi.symm.trans h
  next h _ _ => exact absurd hi (h f)

theorem exec_cpys (hi : c.instr = .cpys f) (hn : c.xc.toNat ≠ 0) : exec (.copyChunk c.core id) s =
    s.moveChunk c .sealed (c.xb.toNat + 4096 * c.chunk) (c.xa.toNat + 4096 * c.chunk) 4096
      (c.xc.toNat / 4096) fun rd wr s => s.moveTag c rd wr := by
  rw [exec_copyChunk hc hruns]
  split
  next h => exact nomatch hi.symm.trans h
  next => exact if_neg hn
  next h => exact nomatch hi.symm.trans h
  next _ h _ => exact absurd hi (h f)

theorem exec_cpyv (hi : c.instr = .cpyv f) (hheld : c.held = false) : exec (.copyChunk c.core id) s =
    if f.imm.getLsbD 2 then s.versionCreate c (c.xc.toNat / 2 ^ 32 % 2 ^ 16 + 1) c.chunk
    else s.versionRead c (c.xc.toNat / 2 ^ 32 % 2 ^ 16 + 1) c.chunk := by
  rw [exec_copyChunk hc hruns]
  split
  next h => exact nomatch hi.symm.trans h
  next h => exact nomatch hi.symm.trans h
  next f' h =>
    obtain rfl := Instr.cpyv.inj (hi.symm.trans h)
    exact versionChunk_free hheld _
  next _ _ h => exact absurd hi (h f)

/-- A copy of no bytes is over at once. -/
theorem exec_copy_empty (hi : c.instr = .cpy f ∨ c.instr = .cpys f) (hn : c.xc.toNat = 0) :
    exec (.copyChunk c.core id) s = .next (s.finishCmd c) := by
  rw [exec_copyChunk hc hruns]
  split
  next => exact if_pos hn
  next => exact if_pos hn
  next h => rcases hi with hi | hi <;> exact nomatch hi.symm.trans h
  next h h' _ => rcases hi with hi | hi; exacts [absurd hi (h f), absurd hi (h' f)]

end Chunk

/-! ### The tag of a chunk (R256) -/

section Tag
variable {c : Cmd} {z y : State} {r d : Span} {rs ds : List Span}

theorem moveTag_cons (hy : Emits c z y) : y.moveTag c (r :: rs) (d :: ds) =
    y.engineWrite c [⟨d.va, 8, .mem (z.tagKey c.who d.va d.loc), 0⟩, ⟨d.va, 8, .mem (z.tagKey c.who d.va d.loc + 8), 0⟩]
      (z.readBytes 0 (z.tagKey c.who r.va r.loc) 16) := by
  rw [State.moveTag, emits_tagKey hy, emits_tagKey hy, emits_readBytes hy]

theorem emits_moveTag (y : State) (rd wr : List Span) : Emits c y (y.moveTag c rd wr) := by
  unfold State.moveTag
  split
  · exact emits_engineWrite ..
  · exact .refl c y

end Tag

/-! ### A create that waits (R218, R255) -/

section Park
variable {z : State} {c : Cmd} {k cnt n g : Nat} {rows : List Row}

/-- The state as the create of a chunk is held. -/
def createHeld (z : State) (c : Cmd) (k cnt n g : Nat) (rows : List Row) : State :=
  (z.fresh.2.setCmd { inRegion c n with held := true }).parkCreate z.nextId (heldCreate c k cnt n g z.nextId rows) n g

/-- The PWAIT chain of its region with it. -/
theorem createHeld_pwaits : ∃ b p : State, b = { z with cores := b.cores, nextId := z.nextId + 1 } ∧
    (∀ q, q ≠ c.core → b.core q = z.core q) ∧
    b.core c.core = { z.core c.core with cmds := (z.core c.core).cmds.map fun d =>
      if d.id = c.id then { inRegion c n with held := true } else d } ∧
    Pwaits b p c.ctx n (tabGet [] z.pwait (c.ctx * 256 + n) ++ [z.nextId]) ∧
    createHeld z c k cnt n g rows =
      { p with vreqs := tabPut z.vreqs z.nextId (heldCreate c k cnt n g z.nextId rows) } := by
  have hb : z.fresh.2.setCmd { inRegion c n with held := true } = { z with
      cores := (z.fresh.2.setCmd { inRegion c n with held := true }).cores, nextId := z.nextId + 1 } := rfl
  have hother : ∀ q, q ≠ c.core → (z.fresh.2.setCmd { inRegion c n with held := true }).core q = z.core q := fun q hq => by
    rw [State.setCmd, modCore_def, core_setCore]
    exact if_neg hq
  have hown := core_setCmd z.fresh.2 { inRegion c n with held := true } (i := c.core) rfl
  rw [core_fresh] at hown
  unfold createHeld State.parkCreate
  generalize z.fresh.2.setCmd { inRegion c n with held := true } = b at hb hother hown ⊢
  have hpwait : b.pwait = z.pwait := by rw [hb]
  have hvreqs : b.vreqs = z.vreqs := by rw [hb]
  have hp := pwaits_setPwait b c.ctx n (tabGet [] z.pwait (c.ctx * 256 + n) ++ [z.nextId])
  refine ⟨b, b.setPwait c.ctx n (tabGet [] z.pwait (c.ctx * 256 + n) ++ [z.nextId]), hb, hother, hown, hp, ?_⟩
  have hframe := hp.2.1
  have hv : (b.setPwait c.ctx n (tabGet [] z.pwait (c.ctx * 256 + n) ++ [z.nextId])).vreqs = z.vreqs :=
    (congrArg State.vreqs hframe).trans hvreqs
  rw [← hpwait] at hv ⊢
  rw [← hv]
  rfl

end Park

/-! ### An element for another package (R120, R130, R259) -/

section Remote
variable {s : State} {c : Cmd} {f : FE3} {d : Piece}

/-- The element as its core keeps it. -/
def trackedAtomic (s : State) (c : Cmd) (d : Piece) : Access :=
  { id := s.nextId, team := c.team, ctx := c.ctx, seq := c.seq, pc := c.pc, kind := .engine, entries := 0
    xlate := false, pieces := [{ d with stage := 3, in1 := s.nextId, in2 := s.nextId, in3 := s.nextId }]
    dst := .none, rel := none, acq := false, inOrder := false, grain := 1, cmd := c.id }

theorem trackAtomic_eq (s : State) (c : Cmd) (d : Piece) : s.trackAtomic c d =
    s.fresh.2.modCore c.core fun k => { k with stores := k.stores ++ [trackedAtomic s c d] } := rfl

theorem emits_trackAtomic (s : State) (c : Cmd) (d : Piece) : Emits c s (s.trackAtomic c d) := by
  refine ⟨fun q hq => ?_, ?_, rfl⟩
  · rw [trackAtomic_eq, modCore_def, core_setCore, if_neg hq]
    rfl
  · rw [trackAtomic_eq, modCore_def, core_setCore, if_pos rfl]
    rfl

theorem stores_trackAtomic (s : State) (c : Cmd) (d : Piece) :
    ((s.trackAtomic c d).core c.core).stores = (s.core c.core).stores ++ [trackedAtomic s c d] := by
  rw [trackAtomic_eq, modCore_def, core_setCore, if_pos rfl]
  rfl

theorem sendAccess_frame (s : State) (pkg addr : Nat) (o : Out) : s.sendAccess pkg addr o =
    { s with ports := (s.sendAccess pkg addr o).ports, outbox := (s.sendAccess pkg addr o).outbox } := by
  unfold State.sendAccess
  cases s.planeFor pkg addr <;> rfl

theorem outbox_sendAccess {pkg addr n : Nat} (o : Out) (h : s.planeFor pkg addr = some n) :
    (s.sendAccess pkg addr o).outbox = s.outbox ++ [o] := by
  unfold State.sendAccess
  rw [h]
  rfl

end Remote

/-! ### Parked commands and queue pairs that a REPLAY has reached (R326, R368) -/

/-- A core whose parked command `id` tries again, once it may. -/
def coreRetried (id : Nat) (k : Core) : Core :=
  { k with cmds := k.cmds.map fun c : Cmd =>
      if c.id = id ∧ c.parked = true ∧ c.retry = true then { c with parked := false, retry := false } else c }

theorem parkedRetry_cmd (s : State) {id : Nat} (h : id < 2 ^ 40) : exec (.parkedRetry id) s =
    .next { s with cores := s.cores.map fun e => (e.1, coreRetried id e.2) } := if_neg (Nat.not_le.mpr h)

theorem parkedRetry_qp (s : State) (cl qp : Nat) (h : qp < 512) : exec (.parkedRetry (2 ^ 40 + cl * 512 + qp)) s =
    .next (s.modQp cl qp fun q =>
      if q.parked && q.replay then { q with parked := false, replay := false } else q) := by
  have hcl : (2 ^ 40 + cl * 512 + qp - 2 ^ 40) / 512 = cl := by omega
  have hqp : (2 ^ 40 + cl * 512 + qp) % 512 = qp := by omega
  change execParkedRetry _ s = _
  unfold execParkedRetry
  rw [if_pos (by omega), hcl, hqp]

theorem parkedRetry_spec (s : State) (id : Nat) :
    (id < 2 ^ 40 → ∃ (t : State), exec (.parkedRetry id) s = .next t ∧ t = { s with cores := t.cores } ∧
      ∀ k, t.core k = { s.core k with cmds := (s.core k).cmds.map fun c =>
        if c.id = id ∧ c.parked = true ∧ c.retry = true then { c with parked := false, retry := false }
        else c }) ∧
    ∀ cl qp q, id = 2 ^ 40 + cl * 512 + qp → qp < 512 → tabFind (s.cluster cl).qps qp = some q →
      q.parked = true → q.replay = true → ∃ (t : State), exec (.parkedRetry id) s = .next t ∧
        t = { s with clusters := t.clusters } ∧ (∀ k, k ≠ cl → t.cluster k = s.cluster k) ∧
        t.cluster cl = { s.cluster cl with qps := (t.cluster cl).qps } ∧
        ∀ j, tabFind (t.cluster cl).qps j = if j = qp then some { q with parked := false, replay := false }
          else tabFind (s.cluster cl).qps j := by
  refine ⟨fun hid => ⟨_, parkedRetry_cmd s hid, rfl, fun k => tabGet_map (coreRetried id) coreReset s.cores k⟩, ?_⟩
  rintro cl qp q rfl hqp hq hparked hreplay
  refine ⟨_, parkedRetry_qp s cl qp hqp, modQp_frame .., fun k hk => ?_, cluster_modQp .., fun j => ?_⟩
  · rw [State.modQp, modCluster_def, cluster_setCluster, if_neg hk]
  · rw [tabFind_qps_modQp]
    by_cases hj : j = qp
    · rw [if_pos ⟨rfl, hj⟩, if_pos hj, hj, hq, Option.map_some, hparked, hreplay]
      rfl
    · rw [if_neg fun h => hj h.2, if_neg hj]

end Sys2Proof.Proofs

/-! Copies and atomics settled (R252 to R260, R326, R368). -/

namespace Sys2Proof.Proofs

open Sys2Proof.Machine Sys2Proof.Laws

/-! ### A chunk -/

/-- What is left of a copy after one of its chunks. -/
def ChunkGoesOn (c : Cmd) (k : Nat) (z t : State) (c' : Cmd) (chunks : Nat) : Prop :=
  (k + 1 < chunks → (t.core c.core).cmds = (z.core c.core).cmds.map fun d =>
    if d.id = c.id then { c' with started := true, chunk := k + 1, held := false } else d) ∧
  (chunks ≤ k + 1 → Over z t c)

section Chunk
variable {s : State} {id : Nat} {c : Cmd} {f : FE3} (hc : s.cmd c.core id = some c) (hruns : s.cmdRuns c = true)
include hc hruns

section Plain
variable {rd wr : List Span} (hi : c.instr = .cpy f) (hn : c.xc.toNat ≠ 0)
include hi hn

/-- The TLBs filled for a chunk of a CPY. -/
def cpyFilled (s : State) (c : Cmd) : State :=
  chunkFilled s c .plain .plain (c.xb.toNat + 4096 * c.chunk) (c.xa.toNat + 4096 * c.chunk)
    (chunkLen c.xc.toNat c.chunk)

theorem cpy_chunk
    (hrd : (cpyFilled s c).spans c.who .plain false
      (units (c.xb.toNat + 4096 * c.chunk) (chunkLen c.xc.toNat c.chunk)) = .ok rd)
    (hwr : (cpyFilled s c).spans c.who .plain true
      (units (c.xa.toNat + 4096 * c.chunk) (chunkLen c.xc.toNat c.chunk)) = .ok wr)
    (hrefused : (cpyFilled s c).spansRefused rd false = none) :
    ((cpyFilled s c).spansBlocked c.core rd = true → exec (.copyChunk c.core id) s = .next (cpyFilled s c)) ∧
      ((cpyFilled s c).spansBlocked c.core rd = false → TlbsOnly s (cpyFilled s c) ∧
        ∃ t, exec (.copyChunk c.core id) s = .next t ∧ Sends (cpyFilled s c) t c wr ((cpyFilled s c).readSpans rd) ∧
          ChunkGoesOn c c.chunk (cpyFilled s c) t c ((c.xc.toNat + 4095) / 4096) ∧ CoreOnly c (cpyFilled s c) t) := by
  refine ⟨fun hblocked => ?_, fun hfree => ⟨tlbsOnly_chunkFilled .., ?_⟩⟩
  · rw [exec_cpy hc hruns hi hn, moveChunk_waits hrd hwr hblocked]
    rfl
  · have hstep := (exec_cpy hc hruns hi hn).trans
      (moveChunk_moves hrd hwr hrefused hfree (by rfl))
    obtain ⟨hgoes, hcore, hstores⟩ := goesOn_chunkDone
      (emits_engineWrite c (cpyFilled s c) wr ((cpyFilled s c).readSpans rd) 1 none) ((c.xc.toNat + 4095) / 4096)
    exact ⟨_, hstep, sendsUnits_of_stores (sends_engineWrite_units ..) hstores, hgoes, hcore⟩

theorem cpy_fault {va code : Nat}
    (h : (cpyFilled s c).spans c.who .plain false
      (units (c.xb.toNat + 4096 * c.chunk) (chunkLen c.xc.toNat c.chunk)) = .error (va, code)) :
    exec (.copyChunk c.core id) s = (cpyFilled s c).chunkFault c va code :=
  (exec_cpy hc hruns hi hn).trans (moveChunk_error h)

end Plain

section Sealed

/-- The TLBs filled for a chunk of a CPYS. -/
def cpysFilled (s : State) (c : Cmd) : State :=
  chunkFilled s c .sealed .sealed (c.xb.toNat + 4096 * c.chunk) (c.xa.toNat + 4096 * c.chunk) 4096

theorem cpys_chunk {r d : Span} {rs ds : List Span} (hi : c.instr = .cpys f) (hn : c.xc.toNat ≠ 0)
    (hrd : (cpysFilled s c).spans c.who .sealed false (units (c.xb.toNat + 4096 * c.chunk) 4096) = .ok (r :: rs))
    (hwr : (cpysFilled s c).spans c.who .sealed true (units (c.xa.toNat + 4096 * c.chunk) 4096) = .ok (d :: ds))
    (hfree : (cpysFilled s c).spansBlocked c.core (r :: rs) = false)
    (htag : (cpysFilled s c).tagBlocked c (r :: rs) = false)
    (hrefused : (cpysFilled s c).spansRefused (r :: rs) false = none) :
    ∃ b t, exec (.copyChunk c.core id) s = .next t ∧
      Sends (cpysFilled s c) b c (d :: ds) ((cpysFilled s c).readSpans (r :: rs)) ∧
      (∀ q, q ≠ c.core → b.core q = (cpysFilled s c).core q) ∧
      b = { cpysFilled s c with cores := b.cores, nextId := b.nextId } ∧
      Sends b t c [⟨d.va, 8, .mem ((cpysFilled s c).tagKey c.who d.va d.loc), 0⟩,
          ⟨d.va, 8, .mem ((cpysFilled s c).tagKey c.who d.va d.loc + 8), 0⟩]
        ((cpysFilled s c).readBytes 0 ((cpysFilled s c).tagKey c.who r.va r.loc) 16) ∧
      ChunkGoesOn c c.chunk (cpysFilled s c) t c (c.xc.toNat / 4096) ∧ CoreOnly c (cpysFilled s c) t := by
  have hstep := (exec_cpys hc hruns hi hn).trans (moveChunk_moves hrd hwr hrefused hfree (by
    change ((Path.sealed == Path.sealed) && (cpysFilled s c).tagBlocked c (r :: rs)) = false
    rw [htag]
    rfl))
  change _ = Host.Outcome.next ((((cpysFilled s c).engineWrite c (d :: ds)
    ((cpysFilled s c).readSpans (r :: rs))).moveTag c (r :: rs) (d :: ds)).chunkDone c (c.xc.toNat / 4096)) at hstep
  have hb := emits_engineWrite c (cpysFilled s c) (d :: ds) ((cpysFilled s c).readSpans (r :: rs)) 1 none
  have hsends : Sends (cpysFilled s c) _ c (d :: ds) ((cpysFilled s c).readSpans (r :: rs)) :=
    sends_engineWrite_units c (cpysFilled s c) (d :: ds) ((cpysFilled s c).readSpans (r :: rs)) 1 none
  generalize (cpysFilled s c).engineWrite c (d :: ds) ((cpysFilled s c).readSpans (r :: rs)) 1 none = b
    at hstep hb hsends
  obtain ⟨hgoes, hcore, hstores⟩ := goesOn_chunkDone (hb.trans (emits_moveTag b (r :: rs) (d :: ds))) (c.xc.toNat / 4096)
  refine ⟨b, _, hstep, hsends, hb.cores, hb.state, sendsUnits_of_stores ?_ hstores, hgoes, hcore⟩
  rw [moveTag_cons hb]
  exact sends_engineWrite_units ..

end Sealed

section Versions
variable (hi : c.instr = .cpyv f) (hheld : c.held = false)
include hi hheld

/-- Granules of a CPYV. -/
def versionCount (c : Cmd) : Nat := c.xc.toNat / 2 ^ 32 % 2 ^ 16 + 1

theorem cpyv_reads {wr : List Span} (hread : f.imm.getLsbD 2 = false)
    (hwr : (readFilled s c (versionCount c) c.chunk).spans c.who .plain true
      (units (c.xa.toNat + 4096 * c.chunk) (128 * chunkCount (versionCount c) c.chunk)) = .ok wr)
    (hgot : ∀ g ∈ chunkGot s c (versionCount c) c.chunk, ∃ r, g = VGot.data r) :
    ∃ t, exec (.copyChunk c.core id) s = .next t ∧
      Sends (readFilled s c (versionCount c) c.chunk) t c wr (gotBytes (chunkGot s c (versionCount c) c.chunk)) 16 ∧
      ChunkGoesOn c c.chunk (readFilled s c (versionCount c) c.chunk) t c ((versionCount c + 31) / 32) ∧
      CoreOnly c (readFilled s c (versionCount c) c.chunk) t := by
  have hstep : exec (.copyChunk c.core id) s = s.versionRead c (versionCount c) c.chunk := by
    rw [exec_cpyv hc hruns hi hheld, if_neg (Bool.eq_false_iff.mp hread)]
    rfl
  obtain ⟨hgoes, hcore, hstores⟩ := goesOn_chunkDone (emits_engineWrite c (readFilled s c (versionCount c) c.chunk) wr
    (gotBytes (chunkGot s c (versionCount c) c.chunk)) 16 none) ((versionCount c + 31) / 32)
  exact ⟨_, hstep.trans (versionRead_reads hwr hgot), sendsUnits_of_stores (sends_engineWrite_units ..) hstores,
    hgoes, hcore⟩

theorem cpyv_waits {wr : List Span} {n g : Nat} (hread : f.imm.getLsbD 2 = false)
    (hwr : (readFilled s c (versionCount c) c.chunk).spans c.who .plain true
      (units (c.xa.toNat + 4096 * c.chunk) (128 * chunkCount (versionCount c) c.chunk)) = .ok wr)
    (hgot : ∀ g ∈ chunkGot s c (versionCount c) c.chunk, ∀ x, g ≠ VGot.fault x)
    (hwait : gotWait (chunkGot s c (versionCount c) c.chunk) = some (n, g)) :
    ∃ b t, exec (.copyChunk c.core id) s = .next t ∧
      b = { readFilled s c (versionCount c) c.chunk with cores := b.cores } ∧
      (∀ q, q ≠ c.core → b.core q = (readFilled s c (versionCount c) c.chunk).core q) ∧
      b.core c.core = { (readFilled s c (versionCount c) c.chunk).core c.core with
        cmds := ((readFilled s c (versionCount c) c.chunk).core c.core).cmds.map fun d =>
          if d.id = c.id then { c with started := true, held := true } else d } ∧
      Chained b t c.ctx n g (tabGet [] s.verChains (verKey c.ctx n g) ++ [.cmd c.core c.id]) := by
  have hstep : exec (.copyChunk c.core id) s = s.versionRead c (versionCount c) c.chunk := by
    rw [exec_cpyv hc hruns hi hheld, if_neg (Bool.eq_false_iff.mp hread)]
    rfl
  have hchains : (readFilled s c (versionCount c) c.chunk).verChains = s.verChains :=
    (congrArg State.verChains (tlbsOnly_chunkFilled s c .versioned .plain (c.xb.toNat + 4096 * c.chunk)
      (c.xa.toNat + 4096 * c.chunk) (128 * chunkCount (versionCount c) c.chunk)).1 :)
  have hwaits := hstep.trans (versionRead_waits hwr hgot hwait)
  rw [hchains] at hwaits
  refine ⟨_, _, hwaits, rfl, fun q hq => ?_, core_setCmd _ _ rfl, chained_setVerChain ..⟩
  rw [State.setCmd, modCore_def, core_setCore]
  exact if_neg hq

section Create
variable {rd : List Span} {n g : Nat} {r : Region} (hcreate : f.imm.getLsbD 2 = true)
  (hvals : ∀ v ∈ c.vals, v = w64 n)
  (hrd : (createFilled s c (versionCount c) c.chunk).spans c.who .plain false
    (units (c.xb.toNat + 4096 * c.chunk) (128 * chunkCount (versionCount c) c.chunk)) = .ok rd)
  (hspan : (createFilled s c (versionCount c) c.chunk).createSpan c.who (w64 (c.xa.toNat + 4096 * c.chunk))
    (chunkCount (versionCount c) c.chunk - 1) = .ok (n, r, g))
  (hfree : (createFilled s c (versionCount c) c.chunk).spansBlocked c.core rd = false)
  (hrefused : (createFilled s c (versionCount c) c.chunk).spansRefused rd false = none)
  (hv : c.xc.toNat % 2 ^ 32 ≠ 0xFFFFFFFF)
  (hnext : NextAll (createFilled s c (versionCount c) c.chunk) c.ctx r g (c.xc.toNat % 2 ^ 32)
    (chunkCount (versionCount c) c.chunk))
include hcreate hvals hrd hspan hfree hrefused hv hnext

theorem cpyv_makes (hk : c.xc.toNat % 2 ^ 32 < r.floor + r.k) :
    ∃ b t, exec (.copyChunk c.core id) s = .next t ∧
      MakesAll (createFilled s c (versionCount c) c.chunk) b c.ctx n r (c.xc.toNat % 2 ^ 32) g
        (chunkRows s c (versionCount c) c.chunk rd) ∧
      ChunkGoesOn c c.chunk b t (inRegion c n) ((versionCount c + 31) / 32) ∧ CoreOnly c b t := by
  have hstep : exec (.copyChunk c.core id) s = s.versionCreate c (versionCount c) c.chunk := by
    rw [exec_cpyv hc hruns hi hheld, if_pos hcreate]
    rfl
  have hmakes := hstep.trans (versionCreate_makes hrd hspan hvals hfree hrefused hv hnext hk)
  have hall := makesAll_makeVersions (ctx := c.ctx) (n := n) (r := r) (v := c.xc.toNat % 2 ^ 32)
    (chunkRows s c (versionCount c) c.chunk rd) (createFilled s c (versionCount c) c.chunk) g
  generalize (createFilled s c (versionCount c) c.chunk).makeVersions c.ctx n r (c.xc.toNat % 2 ^ 32) g
    (chunkRows s c (versionCount c) c.chunk rd) = b at hmakes hall
  obtain ⟨hgoes, hcore, -⟩ := goesOn_chunkDone (.refl (inRegion c n) b) ((versionCount c + 31) / 32)
  exact ⟨b, _, hmakes, hall, hgoes, hcore⟩

theorem cpyv_parks (hk : r.floor + r.k ≤ c.xc.toNat % 2 ^ 32) :
    ∃ b p t : State, exec (.copyChunk c.core id) s = .next t ∧
      b = { createFilled s c (versionCount c) c.chunk with
        cores := b.cores, nextId := (createFilled s c (versionCount c) c.chunk).nextId + 1 } ∧
      (∀ q, q ≠ c.core → b.core q = (createFilled s c (versionCount c) c.chunk).core q) ∧
      b.core c.core = { (createFilled s c (versionCount c) c.chunk).core c.core with
        cmds := ((createFilled s c (versionCount c) c.chunk).core c.core).cmds.map fun d =>
          if d.id = c.id then { inRegion c n with held := true } else d } ∧
      Pwaits b p c.ctx n (tabGet [] s.pwait (c.ctx * 256 + n) ++ [s.nextId]) ∧ t = { p with vreqs := t.vreqs } ∧
      (∀ j, j ≠ s.nextId → tabFind t.vreqs j = tabFind s.vreqs j) ∧
      ∃ q, tabFind t.vreqs s.nextId = some q ∧ q = heldCreate c c.chunk (chunkCount (versionCount c) c.chunk) n g s.nextId
        (chunkRows s c (versionCount c) c.chunk rd) := by
  have hstep : exec (.copyChunk c.core id) s = s.versionCreate c (versionCount c) c.chunk := by
    rw [exec_cpyv hc hruns hi hheld, if_pos hcreate]
    rfl
  have htlbs : TlbsOnly s (createFilled s c (versionCount c) c.chunk) := tlbsOnly_chunkFilled ..
  have hname : (createFilled s c (versionCount c) c.chunk).nextId = s.nextId :=
    (congrArg State.nextId htlbs.1 :)
  have hpwait : (createFilled s c (versionCount c) c.chunk).pwait = s.pwait :=
    (congrArg State.pwait htlbs.1 :)
  have hvreqs : (createFilled s c (versionCount c) c.chunk).vreqs = s.vreqs :=
    (congrArg State.vreqs htlbs.1 :)
  have hparks := hstep.trans (versionCreate_parks hrd hspan hvals hfree hrefused hv hnext hk)
  obtain ⟨b, p, hb, hother, hown, hp, hheldState⟩ := createHeld_pwaits (z := createFilled s c (versionCount c) c.chunk)
    (c := c) (k := c.chunk) (cnt := chunkCount (versionCount c) c.chunk) (n := n) (g := g)
    (rows := chunkRows s c (versionCount c) c.chunk rd)
  rw [createHeld] at hheldState
  rw [hheldState, hname, hvreqs] at hparks
  rw [hname, hpwait] at hp
  refine ⟨b, p, _, hparks, hb, hother, hown, hp, rfl, fun j hj => ?_, _, ?_, rfl⟩
  · exact (tabFind_tabPut ..).trans (if_neg hj)
  · exact (tabFind_tabPut ..).trans (if_pos rfl)

end Create
end Versions
end Chunk

end Sys2Proof.Proofs

/-! Atomic elements as SPEC states them, and copies and atomics settled (R252 to R260). -/

namespace Sys2Proof.Proofs

open Sys2Proof.Machine Sys2Proof.Laws

/-! ### An element performed (R259) -/

/-- The element at `k` takes the value `new`: what the step leaves, the old value's way to the return array, and what
is left of the command. -/
def ElemPerforms (s : State) (id : Nat) (c : Cmd) (d : Piece) (cnt k old new : Nat) : Prop :=
  ∃ (b t : State), exec (.acwPortStep c.core id) s = .next t ∧
    ((∀ x ∈ s.barriers, k + d.len ≤ x ∨ x + 16 ≤ k) → b = { s with mem := b.mem, tags := b.tags } ∧
      let m := s.softMask k d.len
      Stored s b d.mkey k (leBytes d.len
        ((BitVec.ofNat 64 old &&& ~~~m) ||| (BitVec.ofNat 64 new &&& m)).toNat)) ∧
    (k ∈ s.barriers → CsmObj k → k % 16 = 0 → d.len = 8 →
      let o := s.bar k
      let o' : Bar := { o with
        expect := new % 2 ^ 16, pending := new / 2 ^ 16 % 2 ^ 16, phase := new / 2 ^ 32 % 16
        err := new.testBit 36 }
      (o.phase = o'.phase ∨ o.waiters = 0 → BarIs s b k o') ∧
      (o.phase ≠ o'.phase → o.waiters ≠ 0 →
        ∃ u, BarIs s u k { o' with waiters := 0, list := 0 } ∧ b = u.chainFreed k)) ∧
    (∀ u l, c.units[cnt + c.chunk]? = some u → u.loc = some l →
      Sends b t c [⟨u.va.toNat, u.len, l, u.mkey⟩] (leBytes u.len old) 1 u.epoch) ∧
    (c.units[cnt + c.chunk]? = none → Sends b t c [] []) ∧
    (c.chunk + 1 < cnt → (t.core c.core).cmds = (b.core c.core).cmds.map fun x =>
      if x.id = c.id then { c with chunk := c.chunk + 1 } else x) ∧
    (cnt ≤ c.chunk + 1 → Over b t c) ∧ (∀ q, q ≠ c.core → t.core q = b.core q) ∧
    t.core c.core = { b.core c.core with
      cmds := (t.core c.core).cmds, stores := (t.core c.core).stores, sb := (t.core c.core).sb } ∧
    t = { b with cores := t.cores, openCmds := t.openCmds, reqs := t.reqs, nextId := t.nextId }

section Elem
variable {s : State} {id : Nat} {c : Cmd} {f : FE3} {d : Piece} {k : Nat} (hc : s.cmd c.core id = some c)
  (hi : c.instr = .acw f) (hruns : s.cmdRuns c = true) (hrel : s.acwReleased c (f.e.ord == 1) = true)
  (hunits : c.units ≠ []) (hd : c.units[c.chunk]? = some d)
include hc hi hruns hrel hunits hd

/-- An element of this package's memory is performed in one step. -/
theorem elemPerforms_new (hl : d.loc = some (.mem k)) (hplace : InMemory k d.len) (hpos : 0 < d.len) (hlen : d.len ≤ 8)
    (hfree : s.readBlocked c.core (.mem k) d.len = false) (href : s.refused d.mkey k true = false)
    (hlost : s.locLost (.mem k) = false) :
    ElemPerforms s id c d (acwCount f) k (s.readNat d.mkey k d.len) (elemNew c f d (s.readNat d.mkey k d.len)) := by
  have hgo : (s.readBlocked c.core (.mem k) d.len || !(s.locLost (.mem k) || s.wayFree (.mem k))) = false := by
    rw [hfree, hlost]
    rfl
  have hstep := exec_acw_element hc hi hruns hrel hunits hd hl hgo (acwElem_mem (c := c) (f := f) hl hlost href)
  obtain ⟨⟨hmore, hover⟩, ⟨hother, hown, hframe⟩, hstores⟩ := goesOn_elemDone
    (emits_returned (elemWritten s c f d k) c (acwCount f) (s.readNat d.mkey k d.len)) (acwCount f)
  refine ⟨elemWritten s c f d k, _, hstep, fun hobjs => ?_, fun hk hobj hal h8 => ?_, fun u l hu hul => ?_,
    fun hu => ?_, hmore, hover, hother, hown, hframe⟩
  · exact stored_elemWritten hplace hpos hlen hl hobjs
  · exact barIs_elemWritten hk hobj hal h8 hl
  · rw [returned_some hu hul] at hstores ⊢
    exact sendsUnits_of_stores (sends_engineWrite_units ..) hstores
  · rw [returned_none hu] at hstores ⊢
    exact sends_none hstores

/-- An element that finds no die behind its page, or may not be written, faults. -/
theorem elem_faults {l : Loc} {code : Nat} (hl : d.loc = some l) (hfree : s.readBlocked c.core l d.len = false)
    (hcode : s.locLost l = true ∧ code = cPeerLost ∨ s.locLost l = false ∧ code = cAccessDenied ∧
      ∃ k, l = .mem k ∧ s.refused d.mkey k true = true) :
    exec (.acwPortStep c.core id) s = .next ((s.cmdFault { c with chunk := 0 } code (w64 d.va.toNat) 2
      (fun d => d.queue.isCopy) true).getD s) := by
  rcases hcode with ⟨hlost, rfl⟩ | ⟨hlost, rfl, k, rfl, href⟩
  · have hgo : (s.readBlocked c.core l d.len || !(s.locLost l || s.wayFree l)) = false := by
      rw [hfree, hlost]
      rfl
    exact (exec_acw_fault hc hi hruns hrel hunits hd hl hgo (acwElem_lost hl hlost)).trans (chunkFault_faults rfl true)
  · have hgo : (s.readBlocked c.core (.mem k) d.len || !(s.locLost (.mem k) || s.wayFree (.mem k))) = false := by
      rw [hfree, hlost]
      rfl
    exact (exec_acw_fault hc hi hruns hrel hunits hd hl hgo (acwElem_refused hl hlost href)).trans
      (chunkFault_faults rfl true)

theorem elem_waits_store (hl : d.loc = some (.mem k)) (h : s.readBlocked c.core (.mem k) d.len = true) :
    exec (.acwPortStep c.core id) s = .next s :=
  exec_acw_waits hc hi hruns hrel hunits hd hl (by rw [h]; rfl)

section Remote
variable {pkg addr : Nat} (hl : d.loc = some (.remote pkg addr)) (hlost : s.locLost (.remote pkg addr) = false)
include hl hlost

theorem elem_waits_link (h : s.wayFree (.remote pkg addr) = false) : exec (.acwPortStep c.core id) s = .next s :=
  exec_acw_waits hc hi hruns hrel hunits hd hl (by rw [hlost, h, Bool.or_comm]; rfl)

/-- An element of another package's memory leaves for its port there. -/
theorem elem_leaves (hfree : s.readBlocked c.core (.remote pkg addr) d.len = false)
    (hway : s.wayFree (.remote pkg addr) = true) (hret : c.units[acwCount f + c.chunk]? = none) :
    ∃ (t : State) (x : Access) (p : Piece), exec (.acwPortStep c.core id) s = .next t ∧
      ((c.chunk + 1 < acwCount f → (t.core c.core).cmds = (s.core c.core).cmds.map fun x =>
          if x.id = c.id then { c with chunk := c.chunk + 1 } else x) ∧
        (acwCount f ≤ c.chunk + 1 → Over s t c) ∧ (∀ q, q ≠ c.core → t.core q = s.core q) ∧
        t.core c.core = { s.core c.core with
          cmds := (t.core c.core).cmds, stores := (t.core c.core).stores, sb := (t.core c.core).sb }) ∧
      (t.core c.core).stores = (s.core c.core).stores ++ [x] ∧ x.cmd = c.id ∧ x.pieces = [p] ∧
      p = { d with stage := 3, in1 := p.in1, in2 := p.in2, in3 := p.in3 } ∧
      t = { s with cores := t.cores, openCmds := t.openCmds, reqs := t.reqs, nextId := t.nextId
                   ports := t.ports, outbox := t.outbox } ∧
      ∀ n, s.planeFor pkg addr = some n → t.outbox = s.outbox ++
        [.atomic c.id pkg addr (acwCode f) (acwType f) (f.imm.getLsbD 9) (w64 (c.xb.toNat % 2 ^ (8 * d.len)))
          (c.vals.getD c.chunk 0)] := by
  have hgo : (s.readBlocked c.core (.remote pkg addr) d.len ||
      !(s.locLost (.remote pkg addr) || s.wayFree (.remote pkg addr))) = false := by
    rw [hfree, hlost, hway]
    rfl
  have hstep := exec_acw_element hc hi hruns hrel hunits hd hl hgo (acwElem_remote (c := c) (f := f) hl hlost)
  rw [returned_none hret] at hstep
  have hsent := sendAccess_frame s pkg addr (.atomic c.id pkg addr (acwCode f) (acwType f) (f.imm.getLsbD 9)
    (w64 (c.xb.toNat % 2 ^ (8 * d.len))) (c.vals.getD c.chunk 0))
  have hout := fun n => outbox_sendAccess (s := s) (pkg := pkg) (addr := addr) (n := n)
    (.atomic c.id pkg addr (acwCode f) (acwType f) (f.imm.getLsbD 9)
      (w64 (c.xb.toNat % 2 ^ (8 * d.len))) (c.vals.getD c.chunk 0))
  generalize s.sendAccess pkg addr (.atomic c.id pkg addr (acwCode f) (acwType f) (f.imm.getLsbD 9)
    (w64 (c.xb.toNat % 2 ^ (8 * d.len))) (c.vals.getD c.chunk 0)) = z at hstep hsent hout
  have hcores : ∀ q, z.core q = s.core q := fun q => by rw [hsent]; rfl
  have hopen : z.openCmds = s.openCmds := by rw [hsent]
  obtain ⟨⟨hmore, hover⟩, ⟨hother, hown, hframe⟩, hstores⟩ := goesOn_elemDone (emits_trackAtomic z c d) (acwCount f)
  rw [stores_trackAtomic, hcores] at hstores
  refine ⟨_, trackedAtomic z c d, _, hstep, ⟨fun h => ?_, fun h => ?_, fun q hq => ?_, ?_⟩, hstores, rfl, rfl, rfl, ?_,
    fun n hn => ?_⟩
  · rw [hmore h, hcores]
  · obtain ⟨hgone, hclosed, hsig⟩ := hover h
    exact ⟨by rw [hgone, hcores], by rw [hclosed, hopen], hsig⟩
  · rw [hother q hq, hcores]
  · rw [hown, hcores]
  · have hports := congrArg State.ports hframe
    have houtbox := congrArg State.outbox hframe
    rw [hports, houtbox]
    refine hframe.trans ?_
    generalize State.cores _ = cores, State.openCmds _ = opens, State.reqs _ = reqs, State.nextId _ = name
    rw [hsent]
  · exact (congrArg State.outbox hframe).trans (hout n hn)

end Remote
end Elem

end Sys2Proof.Proofs

/-! Copies and atomics settled (R252 to R260). -/

namespace Sys2Proof.Proofs

open Sys2Proof.Machine Sys2Proof.Laws

/-! ### Widths and values -/

theorem acwWidth_le (ty : Nat) : acwWidth ty ≤ 8 := by
  unfold acwWidth
  split_ifs <;> decide

theorem readNat_lt_width (s : State) (mk k n : Nat) : s.readNat mk k n < 2 ^ (8 * n) := by
  have h := leNat_lt (s.readBytes mk k n)
  rw [readBytes_eq_map, List.length_map, List.length_range] at h
  rwa [Nat.pow_mul, State.readNat, readBytes_eq_map]

/-- Signed types compare as two's complement, the others as they stand (R259). -/
theorem acwLess_iff {ty x y : Nat} (hx : x < 2 ^ (8 * acwWidth ty)) (hy : y < 2 ^ (8 * acwWidth ty)) :
    acwLess ty x y = true ↔ if ty = 0 ∨ ty = 2 then
      (BitVec.ofNat (8 * acwWidth ty) x).slt (BitVec.ofNat (8 * acwWidth ty) y) = true else x < y := by
  by_cases h : ty = 0 ∨ ty = 2
  · rw [if_pos h, acwLess_signed h]
  · rw [if_neg h, acwLess_unsigned h hx hy, decide_eq_true_iff]

/-- Settles O46. -/
theorem copies : Obligations.copies := by
  refine ⟨⟨?_, parkedRetry_spec⟩, ?_⟩
  · intro s id c hc hruns n k src dst step frame goesOn len
    refine ⟨fun f hi hn => ⟨_, exec_copy_empty hc hruns hi hn, coreOnly_over⟩, ?_, ?_, ?_, ?_, ?_⟩
    · intro f rd wr hi hn z hrd hwr hrefused
      exact cpy_chunk hc hruns hi hn hrd hwr hrefused
    · rintro f rd wr r d rs ds hi hn z hrd hwr hfree htag hrefused rfl rfl
      exact ⟨tlbsOnly_chunkFilled .., cpys_chunk hc hruns hi hn hrd hwr hfree htag hrefused⟩
    · intro f hi hread hheld m cnt z got wr hwr
      exact ⟨tlbsOnly_chunkFilled .., cpyv_reads hc hruns hi hheld hread hwr,
        fun hgot rn g hwait => cpyv_waits hc hruns hi hheld hread hwr hgot hwait⟩
    · intro f rd rn r g hi hcreate hheld hvals m cnt z hrd hspan hfree hrefused v rows c' hv hnext
      refine ⟨tlbsOnly_chunkFilled .., cpyv_makes hc hruns hi hheld hcreate hvals hrd hspan hfree hrefused hv hnext,
        fun hk => ?_⟩
      obtain ⟨b, p, t, hstep, hb, hother, hown, hp, ht, hreqs, q, hq, rfl⟩ :=
        cpyv_parks hc hruns hi hheld hcreate hvals hrd hspan hfree hrefused hv hnext hk
      exact ⟨b, p, t, hstep, hb, hother, hown, hp, ht, hreqs, _, hq, rfl, rfl, rfl, rfl, rfl, rfl, rfl, rfl, rfl, rfl, rfl⟩
    · intro f va code hi hn z hspans
      have hstep := cpy_fault hc hruns hi hn hspans
      have htlbs : TlbsOnly s z := tlbsOnly_chunkFilled ..
      have hdie : ∀ d, z.die d = s.die d := fun d => by rw [htlbs.1]; rfl
      refine ⟨fun h => hstep.trans (chunkFault_faults h false), fun h hfull => ?_, fun h hroom => ?_⟩
      · exact hstep.trans (chunkFault_full h ((congrArg Die.fqFull (hdie _)).trans hfull) false)
      · obtain ⟨t, hfault, hcmds, r, hfq, hr⟩ := parks_chunkFault (s := z) (c := c) (va := va) h
          ((congrArg Die.fqFull (hdie _)).trans hroom) false
        rw [tlbsOnly_cmds htlbs] at hcmds
        rw [hdie] at hfq
        exact ⟨t, hstep.trans hfault, hcmds, r, hfq, hr⟩
  · intro s id c f hc hi hruns hrel op ty w cnt fetch step into z
    have htlbs : TlbsOnly s (acwFilled s c f) := tlbsOnly_trans (tlbsOnly_fillUnits ..) (tlbsOnly_fillUnits ..)
    have hstart : c.units = [] → step = s.acwStart c f := fun h =>
      (exec_acwPortStep hc hi hruns hrel).trans (if_pos (by rw [h]; rfl))
    refine ⟨?_, ?_, ?_⟩
    · intro dst ret hunits hdst hret hhost hfree
      have hepoch : (acwFilled s c f).epoch c.core = s.epoch c.core := by rw [htlbs.1]; rfl
      refine ⟨htlbs, _, (hstart hunits).trans (acwStart_starts hdst hret hhost hfree), rfl, fun q hq => ?_, ?_⟩
      · rw [State.setCmd, modCore_def, core_setCore]
        exact if_neg hq
      · refine (core_setCmd (i := c.core) (acwFilled s c f) (acwBegun (acwFilled s c f) c f dst ret) rfl).trans ?_
        rw [acwBegun, hepoch]
        rfl
    · intro dst ret va hunits hdst hret hhost
      exact (hstart hunits).trans ((acwStart_host hdst hret hhost).trans (chunkFault_faults rfl true))
    · intro d hunits hd hlen b r goesOn
      have hb : c.xb.toNat % 2 ^ (8 * d.len) = b := by rw [hlen]
      refine ⟨fun l code hl hfree hcode => elem_faults hc hi hruns hrel hunits hd hl hfree hcode, ?_,
        fun k hl hblocked => elem_waits_store hc hi hruns hrel hunits hd hl hblocked,
        fun pkg addr hl hlost hway => elem_waits_link hc hi hruns hrel hunits hd hl hlost hway, ?_⟩
      · intro k hl hplace hfree href hlost old performs signed unsigned less
        have hnew : performs (acwOp op ty old b r) := by
          have h := elemPerforms_new hc hi hruns hrel hunits hd hl hplace (hlen ▸ acwWidth_pos _) (hlen ▸ acwWidth_le _)
            hfree href hlost
          rw [elemNew, hb] at h
          exact h
        have hold : old < 2 ^ (8 * w) := hlen ▸ readNat_lt_width s d.mkey k d.len
        have hbw : b < 2 ^ (8 * w) := Nat.mod_lt _ (Nat.two_pow_pos _)
        have hless : ∀ {x y}, x < 2 ^ (8 * w) → y < 2 ^ (8 * w) → (acwLess ty x y = true ↔ less x y) :=
          fun hx hy => acwLess_iff hx hy
        clear_value performs op ty
        refine ⟨fun _ => ⟨?_, ?_, ?_, ?_, ?_, ?_, ?_, ?_⟩, ?_, ?_⟩
        · rintro rfl
          exact hnew
        · rintro rfl
          rw [acwOp_min] at hnew
          exact ⟨fun h => by rwa [if_pos ((hless hbw hold).mpr h)] at hnew,
            fun h => by rwa [if_neg (mt (hless hbw hold).mp h)] at hnew⟩
        · rintro rfl
          rw [acwOp_max] at hnew
          exact ⟨fun h => by rwa [if_pos ((hless hold hbw).mpr h)] at hnew,
            fun h => by rwa [if_neg (mt (hless hold hbw).mp h)] at hnew⟩
        · rintro rfl
          exact hnew
        · rintro rfl
          exact hnew
        · rintro rfl
          exact hnew
        · rintro rfl
          exact hnew
        · rintro rfl
          rw [acwOp_cas] at hnew
          exact ⟨fun h => by rwa [if_pos h] at hnew, fun h => by rwa [if_neg h] at hnew⟩
        · rintro rfl rfl
          exact hnew
        · rintro rfl rfl
          exact hnew
      · intro pkg addr hl hfree hlost hway hret
        obtain ⟨t, x, p, hstep, hgoes, hrest⟩ := elem_leaves hc hi hruns hrel hunits hd hl hlost hfree hway hret
        rw [hb] at hrest
        exact ⟨t, x, p, hstep, hgoes, hrest⟩

end Sys2Proof.Proofs

/-! Quanta: the end of a quantum and the context that a core runs next (R338, R347). -/

namespace Sys2Proof.Proofs

open Sys2Proof.Machine Sys2Proof.Laws

/-! ### A core that one step changes -/

section Core
variable {s : State} {core : Nat} {g : Core → Core}

theorem core_modCore_if (s : State) (core : Nat) (g : Core → Core) (q : Nat) :
    (s.modCore core g).core q = if q = core then g (s.core core) else s.core q := by
  rw [modCore_def, core_setCore]

end Core

/-! ### The context that a core runs next -/

section Next
variable {s : State} {core n c : Nat}

theorem mem_candidatesOf (s : State) (core x : Nat) : x ∈ s.candidatesOf core ↔ (∃ y, (x, y) ∈ s.ctxs) ∧ x ≠ 0 ∧
    s.residOn x (dieOf core) = .resident ∧ x ∉ (s.core core).barred ∧
    ((∃ t ∈ s.teamsOn core, t.2.ctx = x) ∨ s.unplacedFor core x = true) := by
  unfold State.candidatesOf
  rw [List.mem_filter, List.mem_map]
  simp only [Prod.exists, exists_and_right, exists_eq_right, Bool.and_eq_true, Bool.or_eq_true, bne_iff_ne, ne_eq,
    beq_iff_eq, Bool.not_eq_true', List.contains_eq_mem, decide_eq_false_iff_not, List.any_eq_true]
  rw [and_assoc, and_assoc]

theorem nextCtx_free (s : State) (core : Nat) :
    s.nextCtx core none = topRank (s.coreRank core) (s.candidatesOf core) := by
  unfold State.nextCtx
  dsimp only
  cases topRank (s.coreRank core) (s.candidatesOf core) <;> rfl

/-- The candidates that tie with one. -/
def tiedWith (s : State) (core n : Nat) : List Nat :=
  (s.candidatesOf core).filter fun x => (s.coreRank core x).ties (s.coreRank core n)

theorem nextCtx_busy {top : Nat} (htop : topRank (s.coreRank core) (s.candidatesOf core) = some top) (c : Nat) :
    s.nextCtx core (some c) =
      if !(tiedWith s core top).contains c then some top
      else if (tiedWith s core top).length = 1 ∨ (s.core core).kept + 1 < s.weight (dieOf core) c then some c
      else topRank (s.coreRank core) ((tiedWith s core top).filter fun x => x != c) := by
  unfold State.nextCtx
  dsimp only
  rw [htop]
  rfl

theorem nextCtx_none_of_topRank (h : topRank (s.coreRank core) (s.candidatesOf core) = none) (c : Option Nat) :
    s.nextCtx core c = none := by
  unfold State.nextCtx
  dsimp only
  rw [h]

/-- Is a candidate of one rank with another but for their ages? -/
def Tied (s : State) (core n x : Nat) : Prop :=
  x ∈ s.candidatesOf core ∧ (s.coreRank core x).behind = (s.coreRank core n).behind ∧
    (s.coreRank core x).epri = (s.coreRank core n).epri

theorem mem_tiedWith {x : Nat} : x ∈ tiedWith s core n ↔ Tied s core n x := by
  unfold tiedWith Tied Rank.ties
  rw [List.mem_filter]
  simp

theorem Tied.symm {x : Nat} (h : Tied s core n x) (hn : n ∈ s.candidatesOf core) : Tied s core x n :=
  ⟨hn, h.2.1.symm, h.2.2.symm⟩

theorem Tied.trans {x y : Nat} (h : Tied s core n x) (hy : Tied s core x y) : Tied s core n y :=
  ⟨hy.1, hy.2.1.trans h.2.1, hy.2.2.trans h.2.2⟩

/-- What does not rank before the first does not rank before one that ties with it, but where it ties too. -/
theorem Rank.not_before_of_ties {a b d : Rank} (h : a.before b = false) (hb : d.behind = b.behind) (he : d.epri = b.epri) :
    a.before d = false ∨ (a.behind = d.behind ∧ a.epri = d.epri) := by
  rw [Rank.not_before_iff] at h ⊢
  by_cases ht : a.behind = d.behind ∧ a.epri = d.epri
  · exact .inr ht
  · left
    rw [hb, he] at ht ⊢
    grind

variable {top : Nat} (htop : topRank (s.coreRank core) (s.candidatesOf core) = some top)
include htop

theorem first_or_tied (h : Tied s core top n) {x : Nat} (hx : x ∈ s.candidatesOf core) :
    (s.coreRank core x).before (s.coreRank core n) = false ∨ Tied s core n x :=
  (Rank.not_before_of_ties ((topRank_spec htop).2 x hx) h.2.1 h.2.2).imp_right fun ht => ⟨hx, ht⟩

omit htop in
theorem tied_self (hn : n ∈ s.candidatesOf core) : Tied s core n n := ⟨hn, rfl, rfl⟩

end Next

section Chosen
variable {s : State} {core n c : Nat}

theorem nextCtx_first (h : s.nextCtx core none = some n) : n ∈ s.candidatesOf core ∧ ∀ x ∈ s.candidatesOf core,
    (s.coreRank core x).before (s.coreRank core n) = false :=
  topRank_spec ((nextCtx_free s core).symm.trans h)

/-- The context that runs next beside the present one: the first-ranked; the present one where it ties with that and
its quanta are not over, or none else ties; else the first of the others that tie (R338). -/
theorem nextCtx_chosen (h : s.nextCtx core (some c) = some n) : ∃ top,
    topRank (s.coreRank core) (s.candidatesOf core) = some top ∧
    (n = top ∧ ¬ Tied s core top c ∨
      n = c ∧ Tied s core top c ∧
        ((tiedWith s core top).length = 1 ∨ (s.core core).kept + 1 < s.weight (dieOf core) c) ∨
      Tied s core top c ∧ s.weight (dieOf core) c ≤ (s.core core).kept + 1 ∧ n ≠ c ∧ Tied s core top n ∧
        ∀ x, Tied s core top x → x ≠ c → (s.coreRank core x).before (s.coreRank core n) = false) := by
  cases htop : topRank (s.coreRank core) (s.candidatesOf core) with
  | none => exact nomatch (nextCtx_none_of_topRank htop _).symm.trans h
  | some top =>
    refine ⟨top, rfl, ?_⟩
    rw [nextCtx_busy htop] at h
    by_cases hc : c ∈ tiedWith s core top
    · have htied := mem_tiedWith.mp hc
      rw [if_neg (by simp [hc])] at h
      split_ifs at h with hkeep
      · exact .inr (.inl ⟨(Option.some.inj h).symm, htied, hkeep⟩)
      · obtain ⟨hn, hfirst⟩ := topRank_spec h
        obtain ⟨hnt, hnc⟩ := List.mem_filter.mp hn
        refine .inr (.inr ⟨htied, by omega, bne_iff_ne.mp hnc, mem_tiedWith.mp hnt, fun x hx hxc => ?_⟩)
        exact hfirst x (List.mem_filter.mpr ⟨mem_tiedWith.mpr hx, bne_iff_ne.mpr hxc⟩)
    · rw [if_pos (by simp [hc])] at h
      exact .inl ⟨(Option.some.inj h).symm, fun ht => hc (mem_tiedWith.mpr ht)⟩

/-- Of a list of one candidate that ties each is that one. -/
theorem eq_of_tied_one {top x : Nat} (hlen : (tiedWith s core top).length = 1) (hc : Tied s core top c)
    (hx : Tied s core top x) : x = c := by
  obtain ⟨a, ha⟩ := List.length_eq_one_iff.mp hlen
  have hmem := fun y (hy : Tied s core top y) => List.mem_singleton.mp (ha ▸ mem_tiedWith.mpr hy)
  rw [hmem x hx, hmem c hc]

theorem nextCtx_spec (h : s.nextCtx core (some c) = some n) : n ∈ s.candidatesOf core ∧
    (∀ x ∈ s.candidatesOf core, (s.coreRank core x).before (s.coreRank core n) = false ∨ Tied s core n x) ∧
    (¬ Tied s core n c → ∀ x ∈ s.candidatesOf core, (s.coreRank core x).before (s.coreRank core n) = false) ∧
    (Tied s core n c →
      (∀ x, Tied s core n x → x = c) ∨ (s.core core).kept + 1 < s.weight (dieOf core) c → n = c) ∧
    (Tied s core n c → (∃ x, Tied s core n x ∧ x ≠ c) → s.weight (dieOf core) c ≤ (s.core core).kept + 1 →
      n ≠ c ∧ ∀ x, Tied s core n x → x ≠ c → (s.coreRank core x).before (s.coreRank core n) = false) := by
  obtain ⟨top, htop, hcase⟩ := nextCtx_chosen h
  obtain ⟨hmem, hfirst⟩ := topRank_spec htop
  rcases hcase with ⟨rfl, hno⟩ | ⟨rfl, hties, hkeep⟩ | ⟨hties, hover, hne, hn, hothers⟩
  · exact ⟨hmem, fun x hx => .inl (hfirst x hx), fun _ => hfirst, fun ht => absurd ht hno, fun ht => absurd ht hno⟩
  · have hself := tied_self hties.1
    refine ⟨hties.1, fun x hx => first_or_tied htop hties hx, fun ht => absurd hself ht, fun _ _ => rfl, ?_⟩
    rintro - ⟨x, hx, hxn⟩ hover
    exact absurd (eq_of_tied_one (hkeep.resolve_right (by omega)) hties (hties.trans hx)) hxn
  · refine ⟨hn.1, fun x hx => first_or_tied htop hn hx, fun ht => absurd ((hn.symm hmem).trans hties) ht, ?_,
      fun _ _ _ => ⟨hne, fun x hx hxc => hothers x (hn.trans hx) hxc⟩⟩
    rintro - (hall | hless)
    · exact hall n (tied_self hn.1)
    · omega

end Chosen

/-! ### The end of a quantum (R338) -/

section Quantum
variable {s : State} {core c : Nat}

/-- What the end of a quantum makes of its core. -/
def QuantumLeaves (s : State) (core : Nat) (k' : Core) : Prop :=
  ∃ (t : State), exec (.quantumEnd core) s = .next t ∧ t = { s with cores := t.cores } ∧
    ∀ q, t.core q = if q = core then k' else s.core q

/-- A core as its quantum begins. -/
def freshQuantum (s : State) (core kept : Nat) (k : Core) : Core :=
  { k with quantum := (s.die (dieOf core)).gnomon.toNat, kept := kept, barred := [] }

theorem newQuantum_def (s : State) (core kept : Nat) : s.newQuantum core kept = s.modCore core (freshQuantum s core kept) :=
  rfl

theorem core_switchFrom (s : State) (core c n q : Nat) : (s.switchFrom core c n).core q =
    if q = core then { s.core core with next := some n, halting := true } else s.core q := by
  unfold State.switchFrom State.requestHalt State.requestHalt
  rw [core_modCore_if]
  by_cases hq : q = core
  · rw [if_pos hq, if_pos hq, core_modCore_if, if_pos rfl]
    rfl
  · rw [if_neg hq, if_neg hq, core_modCore_if, if_neg hq]

variable (husable : s.coreUsable core = true) (hdue : (s.die (dieOf core)).fairDue = false)
  (hrunning : (s.core core).halting = false) (hactive : (s.core core).activeCtx = some c)
include husable hdue hrunning hactive

theorem exec_quantumEnd : exec (.quantumEnd core) s =
    if (s.core core).quantum + 188000 ≤ (s.die (dieOf core)).gnomon.toNat then
      match (s.newQuantum core (s.core core).kept).nextCtx core (some c) with
      | none => .next (s.newQuantum core 0)
      | some n => .next (if n = c then s.newQuantum core ((s.core core).kept + 1)
          else (s.newQuantum core 0).switchFrom core c n)
    else if s.hasWork core c then .next s
    else match s.workCtx core with
      | none => .next s
      | some n => .next (if n = c then s else s.switchFrom core c n) := by
  change execQuantumEnd core s = _
  unfold execQuantumEnd
  rw [if_neg (by rw [husable, hdue]; simp), if_neg (Bool.eq_false_iff.mp hrunning), hactive]
  by_cases h : (s.core core).quantum + 188000 ≤ (s.die (dieOf core)).gnomon.toNat
  · rw [if_pos h]
    exact if_pos (decide_eq_true h)
  · rw [if_neg h]
    exact if_neg fun hd => h (of_decide_eq_true hd)

theorem quantumEnd_chooses {n : Nat} (hended : (s.core core).quantum + 188000 ≤ (s.die (dieOf core)).gnomon.toNat)
    (hn : (s.newQuantum core (s.core core).kept).nextCtx core (some c) = some n) : QuantumLeaves s core
      { s.core core with
        quantum := (s.die (dieOf core)).gnomon.toNat, barred := [], kept := if n = c then (s.core core).kept + 1 else 0
        next := if n = c then (s.core core).next else some n, halting := decide (n ≠ c) } := by
  have hstep := exec_quantumEnd husable hdue hrunning hactive
  rw [if_pos hended, hn] at hstep
  by_cases hnc : n = c
  · refine ⟨_, hstep, ?_, fun q => ?_⟩
    · rw [if_pos hnc]
      rfl
    · rw [if_pos hnc, newQuantum_def, core_modCore_if, if_pos hnc, if_pos hnc, freshQuantum,
        show decide (n ≠ c) = (s.core core).halting by rw [hrunning]; simpa using hnc]
  · refine ⟨_, hstep, ?_, fun q => ?_⟩
    · rw [if_neg hnc]
      rfl
    · rw [if_neg hnc, core_switchFrom, if_neg hnc, if_neg hnc, newQuantum_def, core_modCore_if, core_modCore_if,
        if_pos rfl, decide_eq_true hnc]
      by_cases hq : q = core
      · rw [if_pos hq, if_pos hq]
        rfl
      · rw [if_neg hq, if_neg hq, if_neg hq]

theorem quantumEnd_none (hended : (s.core core).quantum + 188000 ≤ (s.die (dieOf core)).gnomon.toNat)
    (hn : (s.newQuantum core (s.core core).kept).nextCtx core (some c) = none) : QuantumLeaves s core
      { s.core core with quantum := (s.die (dieOf core)).gnomon.toNat, barred := [], kept := 0 } := by
  have hstep := exec_quantumEnd husable hdue hrunning hactive
  rw [if_pos hended, hn] at hstep
  exact ⟨_, hstep, rfl, fun q => core_modCore_if ..⟩

theorem quantumEnd_stays (hended : (s.die (dieOf core)).gnomon.toNat < (s.core core).quantum + 188000)
    (hwork : s.hasWork core c = true ∨ s.workCtx core = none) : exec (.quantumEnd core) s = .next s := by
  rw [exec_quantumEnd husable hdue hrunning hactive, if_neg (Nat.not_le.mpr hended)]
  by_cases h : s.hasWork core c = true
  · exact if_pos h
  · rw [if_neg h, hwork.resolve_left h]

theorem quantumEnd_switches {n : Nat} (hended : (s.die (dieOf core)).gnomon.toNat < (s.core core).quantum + 188000)
    (hidle : s.hasWork core c = false) (hn : s.workCtx core = some n) (hnc : n ≠ c) :
    QuantumLeaves s core { s.core core with halting := true, next := some n } := by
  have hstep := exec_quantumEnd husable hdue hrunning hactive
  rw [if_neg (Nat.not_le.mpr hended), if_neg (Bool.eq_false_iff.mp hidle), hn] at hstep
  refine ⟨_, hstep, ?_, fun q => ?_⟩
  · rw [if_neg hnc]
    rfl
  · rw [if_neg hnc, core_switchFrom]

end Quantum

theorem workCtx_spec {s : State} {core n : Nat} (h : s.workCtx core = some n) : s.hasWork core n = true ∧
    n ∈ s.candidatesOf core ∧ ∀ x ∈ s.candidatesOf core, s.hasWork core x = true →
      (s.coreRank core x).before (s.coreRank core n) = false := by
  obtain ⟨hn, hfirst⟩ := topRank_spec h
  obtain ⟨hmem, hwork⟩ := List.mem_filter.mp hn
  exact ⟨hwork, hmem, fun x hx hw => hfirst x (List.mem_filter.mpr ⟨hx, hw⟩)⟩

end Sys2Proof.Proofs

/-! The shadow of a core prepared for its next context (R316, R339). -/

namespace Sys2Proof.Proofs

open Sys2Proof.Machine Sys2Proof.Laws

/-! ### Planes and difference lists (R315, R316) -/

section Plane
variable {p old new : Tab W64}

/-- Has a plane no reserved bit set (R315)? -/
def MaskedPlane (p : Tab W64) : Prop := ∀ i, tabGet 0 p i &&& planeMask i = tabGet 0 p i

theorem maskedPlane_applyDiff (hp : MaskedPlane p) (l : List (Nat × W64)) : MaskedPlane (applyDiff p l) := by
  induction l generalizing p with
  | nil => exact hp
  | cons e l ih =>
    refine ih fun i => ?_
    rw [tabGet_tabSet]
    by_cases hi : i = e.1
    · rw [if_pos hi, hi, BitVec.and_assoc, BitVec.and_self]
    · rw [if_neg hi, hp]

theorem maskedPlane_planeOf (s : State) (die ctx : Nat) : MaskedPlane (s.planeOf die ctx) :=
  maskedPlane_applyDiff (fun _ => BitVec.zero_and) _

theorem applyDiff_append (p : Tab W64) (l l' : List (Nat × W64)) :
    applyDiff p (l ++ l') = applyDiff (applyDiff p l) l' := by
  induction l generalizing p with
  | nil => rfl
  | cons e l ih => exact ih _

/-- The differences of two planes in their first words. -/
def planeDiffTo (whole : Bool) (old new : Tab W64) (n : Nat) : List (Nat × W64) :=
  (List.range n).filterMap fun i =>
    if whole || tabGet 0 old i != tabGet 0 new i then some (i, tabGet 0 new i) else none

theorem planeDiff_eq (whole : Bool) (old new : Tab W64) : planeDiff whole old new = planeDiffTo whole old new 128 := rfl

theorem planeDiffTo_succ (whole : Bool) (old new : Tab W64) (n : Nat) : planeDiffTo whole old new (n + 1) =
    planeDiffTo whole old new n ++
      if whole || tabGet 0 old n != tabGet 0 new n then [(n, tabGet 0 new n)] else [] := by
  unfold planeDiffTo
  rw [List.range_succ, List.filterMap_append]
  congr 1
  rw [List.filterMap_cons, List.filterMap_nil]
  cases whole || tabGet 0 old n != tabGet 0 new n <;> rfl

/-- The list applied gives the new plane's words. -/
theorem tabGet_applyDiff (hnew : MaskedPlane new) (whole : Bool) (old : Tab W64) (n i : Nat) :
    tabGet 0 (applyDiff old (planeDiffTo whole old new n)) i = if i < n then tabGet 0 new i else tabGet 0 old i := by
  induction n with
  | zero => rfl
  | succ n ih =>
    rw [planeDiffTo_succ, applyDiff_append]
    by_cases hd : (whole || tabGet 0 old n != tabGet 0 new n) = true
    · rw [if_pos hd, applyDiff, applyDiff, tabGet_tabSet]
      by_cases hi : i = n
      · rw [if_pos hi, hnew, if_pos (by omega), hi]
      · rw [if_neg hi, ih]
        exact if_congr (by omega) rfl rfl
    · rw [if_neg hd, applyDiff, ih]
      by_cases hi : i = n
      · have hsame : tabGet 0 old n = tabGet 0 new n := by
          rw [Bool.not_eq_true, Bool.or_eq_false_iff] at hd
          simpa using hd.2
        rw [hi, if_neg (lt_irrefl n), if_pos (Nat.lt_succ_self n), hsame]
      · exact if_congr (by omega) rfl rfl

theorem planeBytes_applyDiff (hnew : MaskedPlane new) (whole : Bool) (old : Tab W64) :
    planeBytes (applyDiff old (planeDiff whole old new)) = planeBytes new := by
  unfold planeBytes
  congr 1
  refine List.map_congr_left fun i hi => ?_
  rw [planeDiff_eq, tabGet_applyDiff hnew, if_pos (List.mem_range.mp hi)]

end Plane

/-! ### A plane sent to a core (R339) -/

section Send
variable {s : State} {core ctx : Nat} {whole : Bool}

/-- The shadow that a transfer without a fault leaves. -/
def sentShadow (s : State) (core ctx : Nat) (whole : Bool) : Tab W64 :=
  applyDiff (s.core core).plane (planeDiff whole (s.core core).plane (s.planeOf (dieOf core) ctx))

theorem tabGet_sentShadow {i : Nat} (hi : i < 128) :
    tabGet 0 (sentShadow s core ctx whole) i = tabGet 0 (s.planeOf (dieOf core) ctx) i := by
  rw [sentShadow, planeDiff_eq, tabGet_applyDiff (maskedPlane_planeOf _ _ _), if_pos hi]

theorem core_sendPlane (s : State) (core ctx : Nat) (whole : Bool) (q : Nat) : (s.sendPlane core ctx whole).core q =
    if q = core then (if Config.planeError s.ticks (if whole then 1 else 0) = 0 then
        { s.core core with shadow := sentShadow s core ctx whole, shadowSt := 1 }
      else { s.core core with shadow := [], shadowSt := 2 })
    else s.core q := by
  unfold State.sendPlane
  rw [core_modCore_if]
  refine if_congr Iff.rfl ?_ rfl
  unfold Core.takeDiff sentShadow
  dsimp only
  rw [planeBytes_applyDiff (maskedPlane_planeOf _ _ _)]
  refine if_congr ⟨fun h => ?_, fun h => by rw [h]; exact BitVec.xor_zero.symm⟩ rfl rfl
  have := congrArg (crc32c (planeBytes (s.planeOf (dieOf core) ctx)) ^^^ ·) h
  simpa [← BitVec.xor_assoc] using this.symm

theorem sendPlane_frame (s : State) (core ctx : Nat) (whole : Bool) :
    s.sendPlane core ctx whole = { s with cores := (s.sendPlane core ctx whole).cores } := rfl

end Send

/-! ### The shadow prepared (R339) -/

section Prepare
variable {s : State} {core n : Nat}

/-- The fault that a failed transfer leaves. -/
def shadowFault (core ctx : Nat) : FaultInfo :=
  { die := dieOf core, code := cCfgCheck, source := 5, flags := 0, unit := 0, ctx := ctx, core := core
    pc := 0, addr := 0, tag := 0, team := 0, mpc := 0, origin := 0, uid := 0, recId := 0, cmd := 0 }

/-- The state once a failed transfer is recorded and the plane sent again, whole. -/
def sentAgain (s : State) (core ctx : Nat) : State :=
  ((s.sendPlane core ctx false).queueFault (shadowFault core ctx)).sendPlane core ctx true

theorem prepareShadow_eq (s : State) (core ctx : Nat) : s.prepareShadow core ctx =
    if ((s.sendPlane core ctx false).core core).shadowSt = 1 then some (s.sendPlane core ctx false)
    else if (s.die (dieOf core)).fqFull then none
    else if ((sentAgain s core ctx).core core).shadowSt = 1 then some (sentAgain s core ctx)
    else some (((sentAgain s core ctx).modCore core fun k => { k with removed := true }).logCheck 0xE5 (dieOf core) core
      0 0) := rfl

theorem prepareShadow_good (h : Config.planeError s.ticks 0 = 0) :
    s.prepareShadow core n = some (s.sendPlane core n false) := by
  rw [prepareShadow_eq, if_pos]
  rw [core_sendPlane, if_pos rfl]
  exact congrArg Core.shadowSt (if_pos h)

theorem prepareShadow_bad (h : Config.planeError s.ticks 0 ≠ 0) (hroom : (s.die (dieOf core)).fqFull = false) :
    s.prepareShadow core n =
      if ((sentAgain s core n).core core).shadowSt = 1 then some (sentAgain s core n)
      else some (((sentAgain s core n).modCore core fun k => { k with removed := true }).logCheck 0xE5 (dieOf core) core
        0 0) := by
  have hno : ((s.sendPlane core n false).core core).shadowSt = 2 := by
    rw [core_sendPlane, if_pos rfl]
    exact congrArg Core.shadowSt (if_neg h)
  rw [prepareShadow_eq, hno, if_neg (by decide), if_neg (Bool.eq_false_iff.mp hroom)]

theorem startSystem_ticks (s : State) (d : Nat) (pc : W64) (regs : Tab W64) :
    (s.startSystem d pc regs).ticks = s.ticks := by rw [startSystem_eq]

theorem setDie_ticks (s : State) (d : Nat) (v : Die) : (s.setDie d v).ticks = s.ticks := rfl

theorem ticks_recordPut (s : State) (i : FaultInfo) : (recordPut s i).ticks = s.ticks := by
  have hput := onlyMemory_recordPut s i
  generalize recordPut s i = b at hput
  rw [hput]

theorem ticks_queueFault (s : State) (i : FaultInfo) : (s.queueFault i).ticks = s.ticks := by
  rw [queueFault_def, startSystem_ticks, modDie_def, setDie_ticks]
  exact ticks_recordPut s i

/-- The state between the two transfers. -/
def shadowFaulted (s : State) (core ctx : Nat) : State :=
  (s.sendPlane core ctx false).queueFault (shadowFault core ctx)

theorem sentAgain_eq (s : State) (core ctx : Nat) : sentAgain s core ctx = (shadowFaulted s core ctx).sendPlane core ctx true :=
  rfl

theorem ticks_shadowFaulted : (shadowFaulted s core n).ticks = s.ticks := ticks_queueFault ..

theorem core_shadowFaulted (h : Config.planeError s.ticks 0 ≠ 0) (q : Nat) : (shadowFaulted s core n).core q =
    if q = core then { s.core core with shadow := [], shadowSt := 2 } else s.core q := by
  rw [shadowFaulted, core_queueFault, core_sendPlane]
  exact if_congr Iff.rfl (if_neg h) rfl

theorem die_shadowFaulted : ((shadowFaulted s core n).die (dieOf core)).fq =
    (s.die (dieOf core)).fq ++ [queuedRec (s.die (dieOf core)) (shadowFault core n)] := by
  rw [shadowFaulted, die_queueFault]
  exact congrArg Die.fq (if_pos rfl)

theorem core_sentAgain_other (h : Config.planeError s.ticks 0 ≠ 0) {q : Nat} (hq : q ≠ core) :
    (sentAgain s core n).core q = s.core q := by
  rw [sentAgain_eq, core_sendPlane, if_neg hq, core_shadowFaulted h, if_neg hq]

theorem core_sentAgain_good (h : Config.planeError s.ticks 0 ≠ 0) (h' : Config.planeError s.ticks 1 = 0) :
    ∃ p, (sentAgain s core n).core core = { s.core core with shadow := p, shadowSt := 1 } := by
  refine ⟨sentShadow (shadowFaulted s core n) core n true, ?_⟩
  rw [sentAgain_eq, core_sendPlane, if_pos rfl, ticks_shadowFaulted, (core_shadowFaulted h core).trans (if_pos rfl)]
  exact if_pos h'

theorem core_sentAgain_bad (h : Config.planeError s.ticks 0 ≠ 0) (h' : Config.planeError s.ticks 1 ≠ 0) :
    (sentAgain s core n).core core = { s.core core with shadow := [], shadowSt := 2 } := by
  rw [sentAgain_eq, core_sendPlane, if_pos rfl, ticks_shadowFaulted, (core_shadowFaulted h core).trans (if_pos rfl)]
  exact if_neg h'

/-- What a shadow prepared for a context leaves. -/
structure Prepared (s t : State) (core n : Nat) : Prop where
  others : ∀ q, q ≠ core → t.core q = s.core q
  shadow : (t.core core).removed = (s.core core).removed →
    t.core core = { s.core core with shadow := (t.core core).shadow, shadowSt := 1 }
  good : Config.planeError s.ticks 0 = 0 → t = { s with cores := t.cores } ∧
    (t.core core).removed = (s.core core).removed ∧
    ∀ i, i < 128 → tabGet 0 (t.core core).shadow i = tabGet 0 (s.planeOf (dieOf core) n) i
  bad : Config.planeError s.ticks 0 ≠ 0 →
    (∃ (r : FaultRec), (t.die (dieOf core)).fq = (s.die (dieOf core)).fq ++ [r] ∧ r.code = cCfgCheck) ∧
      ((t.core core).removed = true ↔ Config.planeError s.ticks 1 ≠ 0)

theorem prepared_good (h : Config.planeError s.ticks 0 = 0) : Prepared s (s.sendPlane core n false) core n := by
  have hcore : (s.sendPlane core n false).core core =
      { s.core core with shadow := sentShadow s core n false, shadowSt := 1 } := by
    rw [core_sendPlane, if_pos rfl]
    exact if_pos h
  refine ⟨fun q hq => by rw [core_sendPlane, if_neg hq], fun _ => by rw [hcore], fun _ => ⟨rfl, by rw [hcore], ?_⟩,
    fun hno => absurd h hno⟩
  intro i hi
  rw [hcore]
  exact tabGet_sentShadow hi

theorem logCheck_frame (s : State) (code die core ctx addr : Nat) :
    (∀ q, (s.logCheck code die core ctx addr).core q = s.core q) ∧
      ∀ d, (s.logCheck code die core ctx addr).die d = s.die d := by
  unfold State.logCheck
  split_ifs <;> exact ⟨fun _ => rfl, fun _ => rfl⟩

theorem die_sendPlane (s : State) (core ctx : Nat) (whole : Bool) (d : Nat) :
    (s.sendPlane core ctx whole).die d = s.die d := rfl

/-- A record of a failed transfer at the end of the fault queue. -/
def Recorded (s t : State) (core : Nat) : Prop :=
  ∃ (r : FaultRec), (t.die (dieOf core)).fq = (s.die (dieOf core)).fq ++ [r] ∧ r.code = cCfgCheck

theorem recorded_sentAgain : Recorded s (sentAgain s core n) core := by
  refine ⟨queuedRec (s.die (dieOf core)) (shadowFault core n), ?_, rfl⟩
  rw [sentAgain_eq, die_sendPlane]
  exact die_shadowFaulted

section Again
variable {y : State} (hothers : ∀ q, q ≠ core → y.core q = s.core q) (hrec : Recorded s y core)
  (hkept : (s.core core).removed = false) (h : Config.planeError s.ticks 0 ≠ 0)
include hothers hrec hkept h

theorem prepared_again {p : Tab W64} (hcore : y.core core = { s.core core with shadow := p, shadowSt := 1 })
    (h' : Config.planeError s.ticks 1 = 0) : Prepared s y core n where
  others := hothers
  shadow _ := by rw [hcore]
  good hno := absurd hno h
  bad _ := ⟨hrec, by
    rw [hcore]
    simp [hkept, h']⟩

/-- The state with its core removed, and that logged. -/
def coreLost (y : State) (core : Nat) : State :=
  (y.modCore core fun k => { k with removed := true }).logCheck 0xE5 (dieOf core) core 0 0

omit hothers hrec hkept h in
theorem core_coreLost (y : State) (core q : Nat) :
    (coreLost y core).core q = if q = core then { y.core core with removed := true } else y.core q :=
  ((logCheck_frame _ 0xE5 (dieOf core) core 0 0).1 q).trans (core_modCore_if y core _ q)

omit hothers hrec hkept h in
theorem die_coreLost (y : State) (core d : Nat) : (coreLost y core).die d = y.die d :=
  (logCheck_frame _ 0xE5 (dieOf core) core 0 0).2 d

theorem prepared_lost (h' : Config.planeError s.ticks 1 ≠ 0) : Prepared s (coreLost y core) core n where
  others q hq := by rw [core_coreLost, if_neg hq, hothers q hq]
  shadow hsame := by
    rw [core_coreLost, if_pos rfl, hkept] at hsame
    exact nomatch hsame
  good hno := absurd hno h
  bad _ := by
    obtain ⟨r, hfq, hcode⟩ := hrec
    refine ⟨⟨r, by rw [die_coreLost, hfq], hcode⟩, ?_⟩
    rw [core_coreLost, if_pos rfl]
    exact iff_of_true rfl h'

end Again

theorem prepareShadow_spec (hroom : (s.die (dieOf core)).fqFull = false) (hkept : (s.core core).removed = false) :
    ∃ t, s.prepareShadow core n = some t ∧ Prepared s t core n := by
  by_cases h : Config.planeError s.ticks 0 = 0
  · exact ⟨_, prepareShadow_good h, prepared_good h⟩
  · have hprep := prepareShadow_bad (n := n) h hroom
    have hothers := fun q (hq : q ≠ core) => core_sentAgain_other (n := n) h hq
    have hrec := recorded_sentAgain (s := s) (core := core) (n := n)
    have hgood := core_sentAgain_good (core := core) (n := n) h
    have hbad := core_sentAgain_bad (core := core) (n := n) h
    generalize sentAgain s core n = y at hprep hothers hrec hgood hbad
    by_cases h' : Config.planeError s.ticks 1 = 0
    · obtain ⟨p, hcore⟩ := hgood h'
      exact ⟨y, hprep.trans (if_pos (by rw [hcore])), prepared_again hothers hrec hkept h hcore h'⟩
    · exact ⟨coreLost y core, hprep.trans (if_neg (by rw [hbad h']; exact nofun)),
        prepared_lost hothers hrec hkept h h'⟩

theorem coreUsable_kept (h : s.coreUsable core = true) : (s.core core).removed = false := by
  unfold State.coreUsable at h
  dsimp only at h
  rw [Bool.and_eq_true, Bool.not_eq_true'] at h
  exact h.2

theorem shadowPrepare_spec (husable : s.coreUsable core = true)
    (hlate : (s.core core).quantum + 188000 - 18800 ≤ (s.die (dieOf core)).gnomon.toNat)
    (hn : s.nextCtx core (s.core core).activeCtx = some n) (hother : (s.core core).activeCtx ≠ some n)
    (hstale : ¬ ((s.core core).shadowSt = 1 ∧ (tabGet 0 (s.core core).shadow 0).toNat % 4096 = n))
    (hroom : (s.die (dieOf core)).fqFull = false) :
    ∃ t, exec (.shadowPrepare core) s = .next t ∧ Prepared s t core n := by
  obtain ⟨t, hprep, ht⟩ := prepareShadow_spec (n := n) hroom (coreUsable_kept husable)
  refine ⟨t, ?_, ht⟩
  have hlate' : decide ((s.core core).quantum + quantumLen - 18800 ≤ (s.die (dieOf core)).gnomon.toNat) = true :=
    decide_eq_true hlate
  change execShadowPrepare core s = _
  unfold execShadowPrepare
  dsimp only
  rw [hlate', if_neg (by rw [husable]; simp), hn]
  exact (if_neg (not_or.mpr ⟨hother, hstale⟩)).trans (by rw [hprep]; rfl)

end Prepare

end Sys2Proof.Proofs

/-! Pre-emption: a halted core waits, aborts its tasks that wait for the host, or saves its context (R374 to R377). -/

namespace Sys2Proof.Proofs

open Sys2Proof.Machine Sys2Proof.Laws

/-! ### Lists without repeats -/

theorem mem_keys_tabPut (t : Tab Unit) (i x : Nat) : x ∈ (tabPut t i ()).map (·.1) ↔ x = i ∨ x ∈ t.map (·.1) := by
  induction t with
  | nil => simp [tabPut]
  | cons e t ih =>
    obtain ⟨k, w⟩ := e
    rw [tabPut]
    split_ifs with h
    · subst h
      simp
    · simp
    · rw [List.map_cons, List.mem_cons, ih, List.map_cons, List.mem_cons]
      tauto

theorem mem_keys_foldl_tabPut (l : List Nat) (t : Tab Unit) (x : Nat) :
    x ∈ (l.foldl (fun (t : Tab Unit) n => tabPut t n ()) t).map (·.1) ↔ x ∈ l ∨ x ∈ t.map (·.1) := by
  induction l generalizing t with
  | nil => simp
  | cons n l ih =>
    rw [List.foldl_cons, ih, mem_keys_tabPut, List.mem_cons]
    tauto

theorem mem_ascending (l : List Nat) (x : Nat) : x ∈ ascending l ↔ x ∈ l := by
  unfold ascending
  rw [mem_keys_foldl_tabPut]
  simp

theorem foldl_tabPut_same (l : List Nat) (u : Nat) (h : ∀ x ∈ l, x = u) :
    l.foldl (fun (t : Tab Unit) n => tabPut t n ()) [(u, ())] = [(u, ())] := by
  induction l with
  | nil => rfl
  | cons n l ih =>
    obtain ⟨rfl, hl⟩ := List.forall_mem_cons.mp h
    rw [List.foldl_cons, show tabPut [(n, ())] n () = [(n, ())] from if_pos rfl]
    exact ih hl

theorem ascending_same {l : List Nat} {u : Nat} (hne : l ≠ []) (h : ∀ x ∈ l, x = u) : ascending l = [u] := by
  cases l with
  | nil => exact absurd rfl hne
  | cons n l =>
    obtain ⟨rfl, hl⟩ := List.forall_mem_cons.mp h
    unfold ascending
    rw [List.foldl_cons]
    exact congrArg (List.map (·.1)) (foldl_tabPut_same l n hl)

/-! ### The step -/

section Step
variable {s : State} {core ctx : Nat} (hactive : (s.core core).activeCtx = some ctx)
  (hhalting : (s.core core).halting = true) (hsaved : s.saved core ctx = false)
include hactive hhalting hsaved

/-- Entries of a context's running tasks that have not left. -/
def ownEntries (s : State) (core ctx : Nat) : List Access := (s.entriesOf core ctx).filter s.ofTask

theorem exec_preemption : exec (.preemption core) s =
    if s.drained core ctx = false then .next s
    else if s.entriesOf core ctx ≠ [] then
      if (ascending ((ownEntries s core ctx).map (·.team))).all fun u =>
          (oldestOf u (ownEntries s core ctx)).any (·.hostBound) then
        .next (s.abortAll core (ownEntries s core ctx) (ascending ((ownEntries s core ctx).map (·.team))))
      else .next s
    else .next (((s.saveCtx core ctx).freeHalts core ctx).finishLeave (dieOf core) ctx) := by
  change execPreemption core s = _
  unfold execPreemption
  dsimp only
  rw [hactive]
  dsimp only
  rw [hhalting, hsaved]
  refine if_congr (by simp) rfl ?_
  refine if_congr (by simp) rfl rfl

theorem preemption_undrained (h : s.drained core ctx = false) : exec (.preemption core) s = .next s := by
  rw [exec_preemption hactive hhalting hsaved, if_pos h]

section Entries
variable (hdrained : s.drained core ctx = true) (hentries : s.entriesOf core ctx ≠ [])
include hdrained hentries

theorem preemption_waits {u : Nat} (hu : u ∈ (ownEntries s core ctx).map (·.team))
    (h : ∀ a, oldestOf u (ownEntries s core ctx) = some a → a.hostBound = false) :
    exec (.preemption core) s = .next s := by
  rw [exec_preemption hactive hhalting hsaved, if_neg (by simp [hdrained]), if_pos hentries]
  refine if_neg fun hall => ?_
  have hbound := List.all_eq_true.mp hall u ((mem_ascending ..).mpr hu)
  cases ha : oldestOf u (ownEntries s core ctx) with
  | none =>
    rw [ha] at hbound
    exact nomatch hbound
  | some a =>
    rw [ha] at hbound
    exact absurd hbound (by simp [h a ha])

theorem preemption_none (h : ownEntries s core ctx = []) : exec (.preemption core) s = .next s := by
  rw [exec_preemption hactive hhalting hsaved, if_neg (by simp [hdrained]), if_pos hentries, h]
  exact if_pos rfl

theorem preemption_aborts {u : Nat} {a : Access} (hne : ownEntries s core ctx ≠ [])
    (hown : ∀ x ∈ ownEntries s core ctx, x.team = u) (ha : oldestOf u (ownEntries s core ctx) = some a)
    (hhost : a.hostBound = true) : exec (.preemption core) s = .next (s.abortReady core u a.id) := by
  have huids : ascending ((ownEntries s core ctx).map (·.team)) = [u] :=
    ascending_same (by simpa using hne) (by simpa using hown)
  rw [exec_preemption hactive hhalting hsaved, if_neg (by simp [hdrained]), if_pos hentries, huids,
    if_pos (by simp [ha, hhost]), State.abortAll, ha]
  rfl

end Entries

theorem preemption_saves (hdrained : s.drained core ctx = true) (hentries : s.entriesOf core ctx = []) :
    exec (.preemption core) s = .next (((s.saveCtx core ctx).freeHalts core ctx).finishLeave (dieOf core) ctx) := by
  rw [exec_preemption hactive hhalting hsaved, if_neg (by simp [hdrained]), if_neg (not_not_intro hentries)]

end Step

/-! ### A task aborted for the halt (R375) -/

section Abort
variable {s : State} {core u bound : Nat} {m : Team} {k : Task} (hm : tabFind s.teams u = some m)
  (hk : m.task = some k) (horigin : k.origin = none)
include hm hk horigin

/-- A team whose first task is ready again. -/
def startedAgain (seq : BitVec 32) (t : Team) : Team := { t with startSeq := some seq, ready := 0 :: t.ready }

theorem abortReady_eq : s.abortReady core u bound =
    (((s.dropYounger core u bound).endTask u).modTeam u (startedAgain k.seq)).showRec u 0 := by
  unfold State.abortReady
  rw [hm]
  dsimp only
  rw [hk]
  dsimp only
  rw [horigin]
  rfl

theorem tabFind_abortReady (v : Nat) : tabFind (s.abortReady core u bound).teams v =
    if v = u then some (startedAgain k.seq (endedTeam m k)) else tabFind s.teams v := by
  rw [abortReady_eq hm hk horigin, (onlyMemory_showRec _ u 0).teams, tabFind_modTeam,
    tabFind_endTask (s := s.dropYounger core u bound) hm hk, tabFind_endTask (s := s.dropYounger core u bound) hm hk,
    if_pos rfl]
  by_cases hv : v = u
  · rw [if_pos hv, if_pos hv]
    rfl
  · rw [if_neg hv, if_neg hv, if_neg hv]
    rfl

theorem abortReady_spec : ∃ y, tabFind (s.abortReady core u bound).teams u = some y ∧ y.task = none ∧
    y.startSeq = some k.seq ∧ y.ready.head? = some 0 ∧
    ∀ j, j ≠ u → tabFind (s.abortReady core u bound).teams j = tabFind s.teams j :=
  ⟨_, (tabFind_abortReady hm hk horigin u).trans (if_pos rfl), rfl, rfl, rfl, fun j hj =>
    (tabFind_abortReady hm hk horigin j).trans (if_neg hj)⟩

end Abort

end Sys2Proof.Proofs

/-! A context saved: its image, its directory entry and what leaves its core (R328, R376, R377). -/

namespace Sys2Proof.Proofs

open Sys2Proof.Machine Sys2Proof.Laws

/-! ### The image and the directory -/

section Save
variable {s : State} {core ctx : Nat}

/-- Commands that are saved with their context. -/
def savedOf (ctx : Nat) (c : Cmd) : Bool := c.ctx == ctx && c.savedWith

/-- They as the image holds them. -/
def savedCmds (s : State) (core ctx : Nat) : List Cmd :=
  ((s.core core).cmds.filter (savedOf ctx)).map fun c => { c with
    sent := if c.queue = .matrix then false else c.sent }

/-- The place of an image, as the directory gives it. -/
def imagePlace (s : State) (core ctx : Nat) : Nat := gpaKey (s.readNat (s.keyOn core ctx) (s.dirKey ctx core) 8)

/-- Memory with the image. -/
def imagePut (s : State) (core ctx : Nat) : State :=
  s.agentWrite (s.keyOn core ctx) (imagePlace s core ctx) (s.coreImage core ctx (savedCmds s core ctx))

/-- Memory with the image's length in the directory. -/
def lengthPut (s : State) (core ctx : Nat) : State :=
  (imagePut s core ctx).agentNat (s.keyOn core ctx) (s.dirKey ctx core + 12) 4
    (s.coreImage core ctx (savedCmds s core ctx)).length

/-- Memory with the tiles of the saved commands in the directory. -/
def pinnedPut (s : State) (core ctx : Nat) : State :=
  (lengthPut s core ctx).agentNat (s.keyOn core ctx) (s.dirKey ctx core + 0x19) 1 (pinned (savedCmds s core ctx))

theorem onlyMemory_imagePut : OnlyMemory s (imagePut s core ctx) := onlyMemory_agentWrite ..

theorem onlyMemory_lengthPut : OnlyMemory s (lengthPut s core ctx) := onlyMemory_imagePut.trans (onlyMemory_agentNat ..)

theorem onlyMemory_pinnedPut : OnlyMemory s (pinnedPut s core ctx) := onlyMemory_lengthPut.trans (onlyMemory_agentNat ..)

/-- The teams of the image, and whether each of them has a task. -/
def imageTeams (s : State) (core ctx : Nat) : List (Nat × Bool) :=
  (s.teamsOf core ctx).map fun t => (t.1, t.2.task.isSome)

/-- The teams of the context on the core. -/
def mates (s : State) (core ctx : Nat) : List Nat := (imageTeams s core ctx).map (·.1)

theorem mates_eq : mates s core ctx = (s.teamsOf core ctx).map (·.1) := by
  rw [mates, imageTeams, List.map_map]
  rfl

/-- What is left of a core whose context is saved. -/
def coreSaved (s : State) (core ctx : Nat) (k : Core) : Core :=
  { k with
    cmds := k.cmds.filter fun c => !savedOf ctx c
    sb := k.sb.filter fun b => !(savedCmds s core ctx).any fun c => c.id == b.cmd
    bufs := k.bufs.filter fun b => !(mates s core ctx).contains b.2.team
    lastRan := tabPut k.lastRan ctx (s.die (dieOf core)).gnomon.toNat }

/-- The image as the scheduler keeps it. -/
def imageOf (s : State) (core ctx : Nat) : Image :=
  ⟨ctx, core, imagePlace s core ctx, s.keyOn core ctx, imageTeams s core ctx,
    (savedCmds s core ctx).map (·.id), savedCmds s core ctx,
    (s.core core).sb.filter fun b => (savedCmds s core ctx).any fun c => c.id == b.cmd⟩

/-- The state as its core and images are brought up to date; `u` is where memory stands and the clock is read. -/
def saveInto (s u : State) (core ctx : Nat) : State :=
  let now := (u.die (dieOf core)).gnomon.toNat
  let v := u.modCore core fun k : Core => { k with
    cmds := k.cmds.filter fun c => !savedOf ctx c
    sb := k.sb.filter fun b => !(savedCmds s core ctx).any fun c => c.id == b.cmd
    bufs := k.bufs.filter fun b => !(mates s core ctx).contains b.2.team
    lastRan := tabPut k.lastRan ctx now }
  { v with images := v.images ++ [imageOf s core ctx] }

theorem saveCtx_def (s : State) (core ctx : Nat) : s.saveCtx core ctx = saveInto s (pinnedPut s core ctx) core ctx := by
  delta State.saveCtx saveInto pinnedPut lengthPut imagePut imageOf mates imageTeams savedCmds imagePlace savedOf
  rfl

theorem saveInto_eq {u : State} (hu : OnlyMemory s u) : saveInto s u core ctx =
    { u.modCore core (coreSaved s core ctx) with images := s.images ++ [imageOf s core ctx] } := by
  have hdie : u.die (dieOf core) = s.die (dieOf core) := hu.die _
  have himages : u.images = s.images := (congrArg State.images hu :)
  unfold saveInto
  dsimp only
  rw [hdie]
  unfold State.modCore State.setCore
  dsimp only
  rw [himages]
  rfl

theorem saveCtx_eq (s : State) (core ctx : Nat) : s.saveCtx core ctx =
    { (pinnedPut s core ctx).modCore core (coreSaved s core ctx) with images := s.images ++ [imageOf s core ctx] } :=
  (saveCtx_def s core ctx).trans (saveInto_eq onlyMemory_pinnedPut)

end Save

/-! ### The step -/

section Step
variable {s u : State} {core ctx : Nat}

/-- The state once its context is saved; `u` is where memory stands. -/
def savedState (s u : State) (core ctx : Nat) : State :=
  { u.modCore core (coreSaved s core ctx) with images := s.images ++ [imageOf s core ctx] }

/-- A team whose task waits in a HALT for a core no longer. -/
def haltedTeam (core ctx : Nat) (m : Team) : Team :=
  { m with task := m.task.map fun k => { k with hold := k.hold.halted core ctx } }

theorem freeHalts_eq (s : State) (core ctx : Nat) :
    s.freeHalts core ctx = { s with teams := s.teams.map fun t => (t.1, haltedTeam core ctx t.2) } := rfl

theorem finishLeave_of_not_leaving (h : s.residOn ctx (dieOf core) ≠ .leaving) :
    s.finishLeave (dieOf core) ctx = s := by
  unfold State.finishLeave
  exact if_pos (.inl h)

theorem halted_other {h : Hold} (hh : ∀ cs, h ≠ .halting ctx cs) : h.halted core ctx = h := by
  cases h with
  | halting c l => exact if_neg fun hc => hh l (by rw [hc])
  | _ => rfl

theorem haltedTeam_other {m : Team} (h : ∀ x cs, m.task = some x → x.hold ≠ .halting ctx cs) :
    haltedTeam core ctx m = m := by
  have htask : (m.task.map fun k => { k with hold := k.hold.halted core ctx }) = m.task := by
    cases hk : m.task with
    | none => rfl
    | some k => rw [Option.map_some, halted_other fun cs => h k cs hk]
  unfold haltedTeam
  rw [htask]

theorem haltedTeam_halting {m : Team} {k : Task} {cs : List Nat} (hk : m.task = some k) (h : k.hold = .halting ctx cs) :
    haltedTeam core ctx m = { m with task := some { k with
      hold := if cs.filter (fun c => c != core) = [] then .free else .halting ctx (cs.filter fun c => c != core) } } := by
  unfold haltedTeam
  rw [hk, Option.map_some, h, Hold.halted, if_pos rfl]
  simp only [List.isEmpty_iff]

/-- What the step leaves once its context is saved. -/
structure LeavesSaved (s b t : State) (core ctx : Nat) : Prop where
  memory : SameMemory b t
  images : t.images = s.images ++ [imageOf s core ctx]
  cores : ∀ q, t.core q = if q = core then coreSaved s core ctx (s.core core) else s.core q
  teams : ∀ u, tabFind t.teams u = (tabFind s.teams u).map (haltedTeam core ctx)
  frame : t = { s with mem := t.mem, tags := t.tags, cores := t.cores, images := t.images, teams := t.teams }

theorem leavesSaved (hu : OnlyMemory s u) : LeavesSaved s u ((savedState s u core ctx).freeHalts core ctx) core ctx where
  memory := by constructor <;> rfl
  images := rfl
  cores q := by
    refine (core_modCore_if u core (coreSaved s core ctx) q).trans ?_
    rw [hu.core, hu.core]
  teams v := by
    have hteams : u.teams = s.teams := (congrArg State.teams hu :)
    refine (tabFind_map (haltedTeam core ctx) u.teams v).trans ?_
    rw [hteams]
  frame := by
    rw [freeHalts_eq, savedState]
    rw [hu]
    rfl

/-- A halted context is saved: image, then directory, then what leaves the core. -/
theorem preemption_saved (hactive : (s.core core).activeCtx = some ctx) (hhalting : (s.core core).halting = true)
    (hsaved : s.saved core ctx = false) (hdrained : s.drained core ctx = true) (hentries : s.entriesOf core ctx = [])
    (hresid : s.residOn ctx (dieOf core) ≠ .leaving) :
    ∃ t, exec (.preemption core) s = .next t ∧ LeavesSaved s (pinnedPut s core ctx) t core ctx := by
  have hstep := preemption_saves hactive hhalting hsaved hdrained hentries
  have hleaves := leavesSaved (core := core) (ctx := ctx) (onlyMemory_pinnedPut (s := s) (core := core) (ctx := ctx))
  have heq : (s.saveCtx core ctx).freeHalts core ctx = (savedState s (pinnedPut s core ctx) core ctx).freeHalts core ctx :=
    congrArg (fun u => State.freeHalts u core ctx) (saveCtx_eq s core ctx)
  rw [heq] at hstep
  generalize (savedState s (pinnedPut s core ctx) core ctx).freeHalts core ctx = t at hstep hleaves
  have hstays : t.residOn ctx (dieOf core) = s.residOn ctx (dieOf core) := by rw [hleaves.frame]; rfl
  rw [finishLeave_of_not_leaving (by rw [hstays]; exact hresid)] at hstep
  exact ⟨t, hstep, hleaves⟩

section Stored
variable (hplace : Hbm (imagePlace s core ctx) (s.coreImage core ctx (savedCmds s core ctx)).length)
  (hwplace : Writable s (s.keyOn core ctx) (imagePlace s core ctx) (s.coreImage core ctx (savedCmds s core ctx)).length)
  (hdir : Hbm (s.dirKey ctx core) 32) (hwdir : Writable s (s.keyOn core ctx) (s.dirKey ctx core) 32)

include hplace hwplace in
theorem stored_imagePut : Stored s (imagePut s core ctx) (s.keyOn core ctx) (imagePlace s core ctx)
    (s.coreImage core ctx (savedCmds s core ctx)) := stored_agentWrite hplace hwplace

theorem hbm_part {base n off len : Nat} (h : Hbm base n) (hoff : off + len ≤ n) : Hbm (base + off) len :=
  fun a h1 h2 => h a (by omega) (by omega)

theorem writable_part {mk base n off len : Nat} (h : Writable s mk base n) (hoff : off + len ≤ n) :
    Writable s mk (base + off) len := fun a h1 h2 => h a (by omega) (by omega)

include hdir hwdir

theorem stored_lengthPut : Stored (imagePut s core ctx) (lengthPut s core ctx) (s.keyOn core ctx) (s.dirKey ctx core + 12)
    (leBytes 4 (s.coreImage core ctx (savedCmds s core ctx)).length) :=
  stored_agentNat _ (hbm_part hdir (by decide)) (onlyMemory_imagePut.writable.mpr (writable_part hwdir (by decide)))

theorem stored_pinnedPut : Stored (lengthPut s core ctx) (pinnedPut s core ctx) (s.keyOn core ctx) (s.dirKey ctx core + 25)
    (leBytes 1 (pinned (savedCmds s core ctx))) :=
  stored_agentNat _ (hbm_part hdir (by decide)) (onlyMemory_lengthPut.writable.mpr (writable_part hwdir (by decide)))

end Stored

end Step

end Sys2Proof.Proofs

/-! A shadow plane that becomes active: USED, and the CSM that a context gains or loses (R106, R315, R344, R384). -/

namespace Sys2Proof.Proofs

open Sys2Proof.Machine Sys2Proof.Laws

/-! ### CSM assigned (R106) -/

section Csm
variable (s : State) (x : Nat)

/-- Is a key in one of some units of CSM? -/
def inUnits (us : List Nat) (a : Nat) : Bool :=
  us.any fun u => decide (csmUnitKey u ≤ a) && decide (a < csmUnitKey u + 65536)

theorem inUnits_iff (us : List Nat) (a : Nat) :
    inUnits us a = true ↔ ∃ u ∈ us, csmUnitKey u ≤ a ∧ a < csmUnitKey u + 65536 := by
  simp [inUnits]

theorem zeroCsm_frame (us : List Nat) :
    s.zeroCsm us = { s with mem := (s.zeroCsm us).mem, barriers := (s.zeroCsm us).barriers } := by
  unfold State.zeroCsm
  dsimp only
  split_ifs <;> rfl

theorem byte_zeroCsm (us : List Nat) (a : Nat) :
    (s.zeroCsm us).byte a = if inUnits us a then 0 else s.byte a := by
  unfold State.zeroCsm
  dsimp only
  by_cases hus : us.isEmpty
  · rw [if_pos hus, List.isEmpty_iff.mp hus]
    rfl
  · rw [if_neg hus]
    refine (tabGet_filter_key memDefault (fun k => !inUnits us k) s.mem a).trans ?_
    cases inUnits us a <;> rfl

/-- Units that a context gains. -/
def csmCame : List Nat := (s.csmGiven x).filter fun u => !(s.ctx x).csm.contains u

/-- Units that it gains or loses. -/
def csmMoved : List Nat := csmCame s x ++ (s.ctx x).csm.filter fun u => !(s.csmGiven x).contains u

/-- The state as the units are assigned. -/
def csmAssigned : State :=
  ({ s.zeroCsm (csmMoved s x) with
    ctxs := (s.zeroCsm (csmMoved s x)).ctxs.map fun e => (e.1, unitsLost (csmCame s x) e.2) } : State).modCtx x
      fun c => { c with csm := s.csmGiven x }

theorem assignCsm_def : s.assignCsm x = if (s.ctx x).csm = s.csmGiven x then s else csmAssigned s x := rfl

theorem csmAssigned_frame : csmAssigned s x = { s with
    ctxs := (csmAssigned s x).ctxs, mem := (csmAssigned s x).mem, barriers := (csmAssigned s x).barriers } := by
  have h := zeroCsm_frame s (csmMoved s x)
  unfold csmAssigned
  generalize s.zeroCsm (csmMoved s x) = z at h
  rw [h]
  rfl

theorem byte_csmAssigned (a : Nat) :
    (csmAssigned s x).byte a = if inUnits (csmMoved s x) a then 0 else s.byte a := byte_zeroCsm s (csmMoved s x) a

theorem ctx_csmAssigned (c : Nat) : (csmAssigned s x).ctx c =
    if c = x then { s.ctx x with csm := s.csmGiven x } else unitsLost (csmCame s x) (s.ctx c) := by
  have hmap : ∀ c, tabGet ctxNone ((s.zeroCsm (csmMoved s x)).ctxs.map fun e => (e.1, unitsLost (csmCame s x) e.2)) c =
      unitsLost (csmCame s x) (s.ctx c) := fun c => by
    have hget := tabGet_map (unitsLost (csmCame s x)) ctxNone (s.zeroCsm (csmMoved s x)).ctxs c
    rw [← ctx_zeroCsm s (csmMoved s x) c]
    exact hget
  unfold csmAssigned
  rw [modCtx_def, ctx_setCtx]
  refine if_congr Iff.rfl ?_ (hmap c)
  exact congrArg (fun k : Ctx => { k with csm := s.csmGiven x }) (hmap x)

theorem csmGiven_csmAssigned : (csmAssigned s x).csmGiven x = s.csmGiven x := by
  have hcores : (csmAssigned s x).cores = s.cores := (congrArg State.cores (csmAssigned_frame s x) :)
  have hdesc : ((csmAssigned s x).ctx x).desc = (s.ctx x).desc := by rw [ctx_csmAssigned, if_pos rfl]
  unfold State.csmGiven
  rw [hcores, hdesc]

end Csm

/-- What assigning its CSM to a context leaves. -/
structure Assigned (s t : State) (x : Nat) : Prop where
  frame : t = { s with ctxs := t.ctxs, mem := t.mem, barriers := t.barriers }
  given : (t.ctx x).csm = s.csmGiven x ∧ t.csmGiven x = s.csmGiven x
  ctxs : ∀ c, t.ctx c = { s.ctx c with
    csm := if c = x then (t.ctx c).csm else (s.ctx c).csm.filter (fun u => !(csmCame s x).contains u) }
  bytes : ∀ a, t.byte a = if inUnits (csmMoved s x) a then 0 else s.byte a

theorem assigned_assignCsm (s : State) (x : Nat) : Assigned s (s.assignCsm x) x := by
  rw [assignCsm_def]
  by_cases hsame : (s.ctx x).csm = s.csmGiven x
  · have hcame : csmCame s x = [] := by simp [csmCame, hsame]
    have hmoved : csmMoved s x = [] := by simp [csmMoved, hcame, hsame]
    rw [if_pos hsame]
    refine ⟨rfl, ⟨hsame, rfl⟩, fun c => ?_, fun a => by rw [hmoved]; rfl⟩
    rw [hcame]
    simp
  · rw [if_neg hsame]
    refine ⟨csmAssigned_frame s x, ⟨by rw [ctx_csmAssigned, if_pos rfl], csmGiven_csmAssigned s x⟩, fun c => ?_,
      byte_csmAssigned s x⟩
    rw [ctx_csmAssigned]
    by_cases hc : c = x
    · rw [if_pos hc, if_pos hc, hc]
    · rw [if_neg hc, if_neg hc]
      rfl

theorem mem_csmMoved {s : State} {x u : Nat} :
    u ∈ csmMoved s x ↔ (u ∈ (s.ctx x).csm ↔ u ∉ s.csmGiven x) := by
  unfold csmMoved csmCame
  simp only [List.mem_append, List.mem_filter, List.contains_eq_mem, Bool.not_eq_true', decide_eq_false_iff_not]
  tauto

/-! ### The plane (R315) -/

section Plane
variable (s : State) (core ctx : Nat)

/-- A core whose shadow is its plane. -/
def shadowActive (k : Core) : Core := { k with plane := k.shadow, shadow := [], shadowSt := 0 }

theorem activate_eq : s.activate core ctx = ((s.accrue (dieOf core)).modCore core shadowActive).assignCsm ctx := rfl

/-- The state behind USED and the plane, before CSM. -/
def planeActive : State := (s.accrue (dieOf core)).modCore core shadowActive

/-- The µs up to which a change of planes counts USED (R344). -/
def accruedTo (d : Die) : Nat := min (d.gnomon.toNat / 940) ((d.tick + 1) * 50)

theorem accrue_becomes : Becomes s (s.accrue (dieOf core)) (dieOf core)
    { s.die (dieOf core) with usedAt := max (s.die (dieOf core)).usedAt (accruedTo (s.die (dieOf core))) }
    (fun _ => False) fun i f => { f with
      used := f.used + (accruedTo (s.die (dieOf core)) - (s.die (dieOf core)).usedAt) * usersOf s (dieOf core) i } :=
  becomes_accrueTo ..

theorem planeActive_frame :
    planeActive s core = { s with cores := (planeActive s core).cores, dies := (planeActive s core).dies } := by
  have h := (accrue_becomes s core).frame
  unfold planeActive
  generalize s.accrue (dieOf core) = z at h
  rw [h]
  rfl

theorem core_planeActive (q : Nat) :
    (planeActive s core).core q = if q = core then shadowActive (s.core q) else s.core q := by
  have h := (accrue_becomes s core).frame
  unfold planeActive
  generalize s.accrue (dieOf core) = z at h
  have hz : ∀ q, z.core q = s.core q := fun q => by rw [h]; rfl
  rw [core_modCore_if, hz, hz]
  by_cases hq : q = core
  · rw [if_pos hq, if_pos hq, hq]
  · rw [if_neg hq, if_neg hq]

theorem die_planeActive (d : Nat) : (planeActive s core).die d = if d = dieOf core then
    { s.die d with fair := ((planeActive s core).die d).fair, usedAt := ((planeActive s core).die d).usedAt }
      else s.die d := by
  have h := accrue_becomes s core
  have hdie : ∀ d, (planeActive s core).die d = (s.accrue (dieOf core)).die d := fun _ => rfl
  rw [hdie]
  by_cases hd : d = dieOf core
  · subst hd
    rw [if_pos rfl]
    have hself := h.self
    generalize (s.accrue (dieOf core)).die (dieOf core) = z at hself ⊢
    rw [hself]
  · rw [if_neg hd, h.other d hd]

theorem activates_activate : Activates s (s.activate core ctx) core ctx := by
  have h := assigned_assignCsm (planeActive s core) ctx
  have hframe := planeActive_frame s core
  have hcore := core_planeActive s core
  have hdie := die_planeActive s core
  have hctx : ∀ c, (planeActive s core).ctx c = s.ctx c := fun c => by rw [hframe]; rfl
  have hbyte : ∀ a, (planeActive s core).byte a = s.byte a := fun a => by rw [hframe]; rfl
  rw [activate_eq]
  change Activates s ((planeActive s core).assignCsm ctx) core ctx
  generalize planeActive s core = z at h hframe hcore hdie hctx hbyte
  generalize z.assignCsm ctx = t at h ⊢
  have hcame : csmCame z ctx = (t.ctx ctx).csm.filter fun u => !(s.ctx ctx).csm.contains u := by
    rw [csmCame, h.given.1, hctx]
  refine ⟨?_, fun q => ?_, fun d => ?_, fun c => ?_, h.given.1.trans h.given.2.symm, ?_⟩
  · rw [h.frame, hframe]
  · have hq : t.core q = z.core q := by rw [h.frame]; rfl
    rw [hq]
    exact hcore q
  · have hd : ∀ d, t.die d = z.die d := fun d => by rw [h.frame]; rfl
    rw [hd]
    exact hdie d
  · have hc := h.ctxs c
    rw [hctx, hcame] at hc
    exact hc
  · have hmoved : ∀ a, inUnits (csmMoved z ctx) a = true ↔ ∃ u, (u ∈ (s.ctx ctx).csm ↔ u ∉ (t.ctx ctx).csm) ∧
        csmUnitKey u ≤ a ∧ a < csmUnitKey u + 65536 := fun a => by
      rw [inUnits_iff]
      refine exists_congr fun u => and_congr_left' ?_
      rw [mem_csmMoved, hctx, h.given.1]
    refine ⟨fun u a _ hu => ?_, fun a ha => ?_⟩
    · rw [h.bytes, if_pos ((hmoved a).mpr ⟨u, hu⟩)]
    · rw [h.bytes, if_neg fun hin => ?_, hbyte]
      obtain ⟨u, hu⟩ := (hmoved a).mp hin
      exact ha u hu

end Plane

end Sys2Proof.Proofs

/-! Teams read back from an image (R379 to R381, R384). -/

namespace Sys2Proof.Proofs

open Sys2Proof.Machine Sys2Proof.Laws

/-! ### Memory but for the scratchpads -/

/-- Nothing has changed but teams and memory, and of memory the scratchpads alone. -/
structure PadsOnly (s t : State) : Prop where
  frame : t = { s with teams := t.teams, mem := t.mem, tags := t.tags }
  bytes : ∀ key x, x < 2 ^ 57 → t.readByte key x = s.readByte key x

namespace PadsOnly
variable {s t u : State}

theorem refl (s : State) : PadsOnly s s := ⟨rfl, fun _ _ _ => rfl⟩

theorem trans (h : PadsOnly s t) (h' : PadsOnly t u) : PadsOnly s u where
  frame := by rw [h'.frame, h.frame]
  bytes key x hx := (h'.bytes key x hx).trans (h.bytes key x hx)

end PadsOnly

section Pads
variable {s : State}

theorem backed_pad (s : State) {k : Nat} (hk : 2 ^ 57 ≤ k) (n : Nat) : Backed s k n := fun a ha _ => by
  right
  rw [State.deviceByte, if_pos (by omega)]

theorem padsOnly_writeBytes (s : State) {k : Nat} (hk : 2 ^ 57 ≤ k) (bs : List (BitVec 8)) :
    PadsOnly s (s.writeBytes 0 k bs) := by
  have hst := stored_writeBytes (mk := 0) bs s k (backed_pad s hk _)
  have hmem : OnlyMemory s (s.writeBytes 0 k bs) := onlyMemory_writeBytes ..
  generalize s.writeBytes 0 k bs = t at hst hmem
  refine ⟨?_, fun key x hx => hst.2 key x fun i _ => by omega⟩
  rw [hmem]

theorem padsOnly_clearPad (s : State) (u : Nat) : PadsOnly s (s.clearPad u) := by
  refine ⟨rfl, fun key x hx => ?_⟩
  rw [readByte_clearPad, if_neg]
  unfold padKey
  omega

theorem padsOnly_setTeam (s : State) (u : Nat) (m : Team) : PadsOnly s (s.setTeam u m) := by
  have hm : SameMemory s (s.setTeam u m) := by constructor <;> rfl
  exact ⟨rfl, fun key x _ => hm.readByte key x⟩

theorem padKey_le (u n : Nat) : 2 ^ 57 ≤ padKey u + n := by
  unfold padKey
  omega

theorem padsOnly_unpad (uid mk : Nat) (n : Nat) (s : State) (place : Nat) :
    PadsOnly s (s.unpad uid mk place n).1 := by
  induction n generalizing s place with
  | zero => exact .refl s
  | succ n ih => exact (padsOnly_writeBytes s (padKey_le ..) _).trans (ih ..)

theorem teams_unpad (uid mk : Nat) (n : Nat) (s : State) (place : Nat) :
    (s.unpad uid mk place n).1.teams = s.teams := by
  induction n generalizing s place with
  | zero => rfl
  | succ n ih =>
    rw [State.unpad]
    refine (ih _ _).trans ?_
    have hmem := onlyMemory_writeBytes (s := s) (mk := 0)
      (k := padKey uid + 4096 * (s.readNat mk place 8 % 512))
      (bs := (s.unblock mk (s.readNat mk place 8 / 2 ^ 32) (place + 8) 16).1)
    exact (congrArg State.teams hmem :)

end Pads

/-! ### One team (R379, R380) -/

section Team
variable {s : State} {img : Image} {place uid : Nat} {run : Bool}

/-- The task of a team as it comes back, and the place behind its record. -/
def taskBack (s : State) (img : Image) (place uid : Nat) (run : Bool) : Option Machine.Task × Nat :=
  match run, tabFind s.teams uid, (tabFind s.teams uid).bind (·.task) with
  | true, some m, some k => (some (s.readTask img uid (place + 4096) m k).1, (s.readTask img uid (place + 4096) m k).2)
  | true, _, _ =>
    (none, (s.unblock img.mkey (s.readNat img.mkey (place + 4096 + 0x240) 64) (place + 4736) 256).2)
  | false, _, k => (k, place + 4096)

/-- The dirty regions in a team's record. -/
def dirtyCount (s : State) (img : Image) (place : Nat) : Nat :=
  ((List.range 512).filter fun i => (BitVec.ofNat 512 (s.readNat img.mkey (place + 0x540) 64)).getLsbD i).length

/-- The team's allotment decoded. -/
def teamBack (s s' : State) (img : Image) (place uid : Nat) (run : Bool) : State × Nat :=
  s'.unpad uid img.mkey (taskBack s img place uid run).2 (dirtyCount s img place)

/-- A team as its record has it. -/
def teamRead (s : State) (img : Image) (place uid : Nat) (run : Bool) (m : Team) : Team :=
  { s.readTeam img.mkey place m with task := (taskBack s img place uid run).1 }

/-- A team before its allotment is decoded, where it is still there. -/
def teamPut (s : State) (img : Image) (place uid : Nat) (run : Bool) : State :=
  match tabFind s.teams uid with
  | some m => (s.clearPad uid).setTeam uid (teamRead s img place uid run m)
  | none => s

theorem bringTeams_cons (us : List (Nat × Bool)) : s.bringTeams img place ((uid, run) :: us) =
    (if (tabFind s.teams uid).isSome then (teamBack s (teamPut s img place uid run) img place uid run).1 else s).bringTeams
      img (teamBack s (teamPut s img place uid run) img place uid run).2 us := by
  delta teamBack teamPut teamRead taskBack dirtyCount
  rfl

theorem teamPut_some {m : Team} (h : tabFind s.teams uid = some m) : teamPut s img place uid run =
    (s.clearPad uid).setTeam uid (teamRead s img place uid run m) := by
  unfold teamPut
  rw [h]

theorem teamPut_none (h : tabFind s.teams uid = none) : teamPut s img place uid run = s := by
  unfold teamPut
  rw [h]

theorem padsOnly_teamPut (s : State) (img : Image) (place uid : Nat) (run : Bool) :
    PadsOnly s (teamPut s img place uid run) := by
  cases h : tabFind s.teams uid with
  | none =>
    rw [teamPut_none h]
    exact .refl s
  | some m =>
    rw [teamPut_some h]
    exact (padsOnly_clearPad s uid).trans (padsOnly_setTeam ..)

theorem tabFind_teamPut_other {u : Nat} (hu : u ≠ uid) :
    tabFind (teamPut s img place uid run).teams u = tabFind s.teams u := by
  cases h : tabFind s.teams uid with
  | none => rw [teamPut_none h]
  | some m =>
    rw [teamPut_some h]
    exact (tabFind_tabPut ..).trans (if_neg hu)

/-- The state behind one team of an image. -/
def teamDone (s : State) (img : Image) (place uid : Nat) (run : Bool) : State :=
  if (tabFind s.teams uid).isSome then (teamBack s (teamPut s img place uid run) img place uid run).1 else s

theorem padsOnly_teamDone (s : State) (img : Image) (place uid : Nat) (run : Bool) :
    PadsOnly s (teamDone s img place uid run) := by
  unfold teamDone
  split_ifs
  · exact (padsOnly_teamPut ..).trans (padsOnly_unpad ..)
  · exact .refl s

theorem tabFind_teamDone_other {u : Nat} (hu : u ≠ uid) :
    tabFind (teamDone s img place uid run).teams u = tabFind s.teams u := by
  unfold teamDone
  split_ifs
  · rw [teamBack, teams_unpad, tabFind_teamPut_other hu]
  · rfl

theorem tabFind_teamDone {m : Team} (h : tabFind s.teams uid = some m) :
    tabFind (teamDone s img place uid run).teams uid = some (teamRead s img place uid run m) := by
  unfold teamDone
  rw [h, if_pos (Option.isSome_some), teamBack, teams_unpad, teamPut_some h]
  exact (tabFind_tabPut ..).trans (if_pos rfl)

end Team

section Teams
variable {img : Image}

theorem padsOnly_bringTeams (us : List (Nat × Bool)) (s : State) (place : Nat) :
    PadsOnly s (s.bringTeams img place us) := by
  induction us generalizing s place with
  | nil => exact .refl s
  | cons e us ih =>
    rw [bringTeams_cons]
    exact (padsOnly_teamDone s img place e.1 e.2).trans (ih ..)

theorem tabFind_bringTeams_other (us : List (Nat × Bool)) (s : State) (place : Nat) {u : Nat} (hu : u ∉ us.map (·.1)) :
    tabFind (s.bringTeams img place us).teams u = tabFind s.teams u := by
  induction us generalizing s place with
  | nil => rfl
  | cons e us ih =>
    rw [List.map_cons, List.mem_cons, not_or] at hu
    rw [bringTeams_cons]
    exact (ih _ _ hu.2).trans (tabFind_teamDone_other hu.1)

theorem tabFind_bringTeams_one {s : State} {place uid : Nat} {run : Bool} {m : Team} (h : tabFind s.teams uid = some m) :
    tabFind (s.bringTeams img place [(uid, run)]).teams uid = some (teamRead s img place uid run m) := by
  rw [bringTeams_cons]
  exact tabFind_teamDone h

end Teams

/-! ### What a team's record gives (R379, R380) -/

theorem tabGet_foldl_shift {α : Type} [DecidableEq α] (d : α) (f : Nat → α) (c n : Nat) (t : Tab α) (j : Nat) :
    tabGet d ((List.range n).foldl (fun t i => tabSet d t (i + c) (f i)) t) j =
      if c ≤ j ∧ j < n + c then f (j - c) else tabGet d t j := by
  induction n with
  | zero => rw [if_neg (by omega)]; rfl
  | succ n ih =>
    rw [List.range_succ, List.foldl_append, List.foldl_cons, List.foldl_nil, tabGet_tabSet, ih]
    by_cases hj : j = n + c
    · rw [if_pos hj, if_pos (by omega)]
      congr 1
      omega
    · rw [if_neg hj]
      exact if_congr (by omega) rfl rfl

theorem tabGet_foldl_range {α : Type} [DecidableEq α] (d : α) (f : Nat → α) (n : Nat) {j : Nat} (hj : j < n) :
    tabGet d ((List.range n).foldl (fun t i => tabSet d t i (f i)) []) j = f j :=
  (tabGet_foldl_shift d f 0 n [] j).trans (if_pos ⟨Nat.zero_le j, hj⟩)

theorem tabFind_pair {α : Type} (g : Nat → Option α) (i : Nat) :
    tabFind ([0, 1].filterMap fun i => (g i).map fun d => (i, d)) i = if i < 2 then g i else none := by
  rw [List.filterMap_cons, List.filterMap_cons, List.filterMap_nil]
  rcases i with _ | _ | i
  · cases g 0 <;> cases g 1 <;> rfl
  · cases g 0 <;> cases g 1 <;> rfl
  · cases g 0 <;> cases g 1 <;> simp [tabFind]

section Record
variable {s : State} {mk place uid : Nat} {m : Team}

theorem readNat_at (s : State) (mk place off off' n : Nat) : s.readNat mk (place + off + off') n =
    s.readNat mk (place + (off + off')) n := by rw [Nat.add_assoc]

theorem qrec_readTeam : (s.readTeam mk place m).qrec = (List.range 16).foldl (fun q i =>
    tabSet 0 q i (BitVec.ofNat 512 (s.readNat mk (place + 0x40 + 64 * i) 64))) [] := by
  unfold State.readTeam
  dsimp only

theorem bufs_readTeam : (s.readTeam mk place m).bufs = [0, 1].filterMap fun i =>
    (s.readBuf mk (place + 0x440 + 128 * i)).map fun d => (i, d) := by
  unfold State.readTeam
  dsimp only

theorem tabFind_readTeam_bufs (i : Nat) : tabFind (s.readTeam mk place m).bufs i =
    if i < 2 then s.readBuf mk (place + 0x440 + 128 * i) else none := by
  rw [bufs_readTeam]
  exact tabFind_pair (fun i => s.readBuf mk (place + 0x440 + 128 * i)) i

theorem tabGet_readTeam_qrec {i : Nat} (hi : i < 16) : tabGet 0 (s.readTeam mk place m).qrec i =
    BitVec.ofNat 512 (s.readNat mk (place + (0x40 + 64 * i)) 64) := by
  rw [qrec_readTeam, ← readNat_at]
  exact tabGet_foldl_range (0 : BitVec 512) (fun i => BitVec.ofNat 512 (s.readNat mk (place + 0x40 + 64 * i) 64)) 16 hi

theorem take_readTeam_scales : (s.readTeam mk place m).scales.take (min (s.readNat mk (place + 0x14) 2) 2048) =
    s.readBytes mk (place + 0x580) (min (s.readNat mk (place + 0x14) 2) 2048) :=
  List.take_left' (length_readBytes ..)

/-- The rest of a team's record. -/
theorem readTeam_frame : s.readTeam mk place m = { m with
    fpmode := BitVec.ofNat 4 (s.readNat mk (place + 8) 1), fpflags := BitVec.ofNat 5 (s.readNat mk (place + 9) 1)
    sat := (s.readNat mk (place + 10) 1).testBit 0, dirty := BitVec.ofNat 512 (s.readNat mk (place + 0x540) 64)
    qrec := (s.readTeam mk place m).qrec, scales := (s.readTeam mk place m).scales
    bufs := (s.readTeam mk place m).bufs } := by
  unfold State.readTeam
  dsimp only

end Record

/-! ### What a task's record gives (R380) -/

section Task
variable {s : State} {img : Image} {place uid : Nat} {m : Team} {k : Machine.Task}

/-- The task read back. -/
def taskRead (s : State) (img : Image) (uid place : Nat) (m : Team) (k : Machine.Task) : Machine.Task :=
  (s.readTask img uid place m k).1

theorem tok_taskRead : (taskRead s img uid place m k).tok = (List.range 16).foldl (fun l i =>
    tabSet .unproduced l i (s.readTok img uid (s.readNat img.mkey (place + 0x24) 4 / 4 ^ i % 4)
      (s.readNat img.mkey (place + 0x10) 4) i (tabGet .unproduced k.tok i))) [] := by
  unfold taskRead State.readTask
  dsimp only

theorem p_taskRead : (taskRead s img uid place m k).p = (List.range 7).foldl (fun t i =>
    tabSet 0x3FFF t (i + 1) (BitVec.ofNat 16 (s.readNat img.mkey (place + (0x2E + 2 * i)) 2))) [] := by
  unfold taskRead State.readTask
  dsimp only

theorem x_taskRead : (taskRead s img uid place m k).x = (List.range 63).foldl (fun t i =>
    tabSet 0 t (i + 1) (w64 (s.readNat img.mkey (place + (0x40 + 8 * i)) 8))) [] := by
  unfold taskRead State.readTask
  dsimp only

theorem v_taskRead : (taskRead s img uid place m k).v = (List.range 512).foldl (fun t i =>
    tabSet 0 t i (BitVec.ofNat 1024 (leNat (((s.unblock img.mkey (s.readNat img.mkey (place + 0x240) 64) (place + 640)
      256).1.drop (128 * i)).take 128)))) [] := by
  unfold taskRead State.readTask
  dsimp only

theorem tabGet_taskRead_tok {i : Nat} (hi : i < 16) : tabGet .unproduced (taskRead s img uid place m k).tok i =
    s.readTok img uid (s.readNat img.mkey (place + 0x24) 4 / 4 ^ i % 4) (s.readNat img.mkey (place + 0x10) 4) i
      (tabGet .unproduced k.tok i) := by
  rw [tok_taskRead]
  exact tabGet_foldl_range Tok.unproduced (fun i => s.readTok img uid (s.readNat img.mkey (place + 0x24) 4 / 4 ^ i % 4)
    (s.readNat img.mkey (place + 0x10) 4) i (tabGet .unproduced k.tok i)) 16 hi

theorem tabGet_taskRead_p {q : Nat} (h1 : 1 ≤ q) (h2 : q ≤ 7) : tabGet 0x3FFF (taskRead s img uid place m k).p q =
    BitVec.ofNat 16 (s.readNat img.mkey (place + (0x2E + 2 * (q - 1))) 2) := by
  rw [p_taskRead]
  exact (tabGet_foldl_shift (0x3FFF : BitVec 16)
    (fun i => BitVec.ofNat 16 (s.readNat img.mkey (place + (0x2E + 2 * i)) 2)) 1 7 [] q).trans (if_pos (by omega))

theorem tabGet_taskRead_x {r : Nat} (h1 : 1 ≤ r) (h2 : r ≤ 63) : tabGet 0 (taskRead s img uid place m k).x r =
    w64 (s.readNat img.mkey (place + (0x40 + 8 * (r - 1))) 8) := by
  rw [x_taskRead]
  exact (tabGet_foldl_shift (0 : W64)
    (fun i => w64 (s.readNat img.mkey (place + (0x40 + 8 * i)) 8)) 1 63 [] r).trans (if_pos (by omega))

theorem tabGet_taskRead_v {r : Nat} (h : r < 512) : tabGet 0 (taskRead s img uid place m k).v r =
    BitVec.ofNat 1024 (leNat (((s.unblock img.mkey (s.readNat img.mkey (place + 0x240) 64) (place + 640) 256).1.drop
      (128 * r)).take 128)) := by
  rw [v_taskRead]
  exact tabGet_foldl_range (0 : BitVec 1024) (fun r => BitVec.ofNat 1024 (leNat (((s.unblock img.mkey
    (s.readNat img.mkey (place + 0x240) 64) (place + 640) 256).1.drop (128 * r)).take 128))) 512 h

/-- The rest of a task's record. -/
theorem taskRead_frame : taskRead s img uid place m k = { k with
    pc := w64 (s.readNat img.mkey (place + 0) 8), seq := BitVec.ofNat 32 (s.readNat img.mkey (place + 0x10) 4)
    hold := k.hold.read (s.readNat img.mkey (place + 0x29) 1)
    origin := m.readOrigin (w64 (s.readNat img.mkey (place + 8) 8)) k.origin
    tok := (taskRead s img uid place m k).tok, rows := BitVec.ofNat 5 (s.readNat img.mkey (place + 0x14) 1)
    cols := BitVec.ofNat 9 (s.readNat img.mkey (place + 0x15) 2)
    wc := BitVec.ofNat 2 (s.readNat img.mkey (place + 0x17) 1)
    left := BitVec.ofNat 35 (s.readNat img.mkey (place + 0x18) 8)
    active := BitVec.ofNat 8 (s.readNat img.mkey (place + 0x20) 1)
    last := BitVec.ofNat 3 (s.readNat img.mkey (place + 0x21) 1)
    rs := BitVec.ofNat 4 (s.readNat img.mkey (place + 0x21) 1 / 16)
    rrb := BitVec.ofNat 4 (s.readNat img.mkey (place + 0x22) 1)
    semBase := BitVec.ofNat 8 (s.readNat img.mkey (place + 0x28) 1), p := (taskRead s img uid place m k).p
    x := (taskRead s img uid place m k).x, v := (taskRead s img uid place m k).v } := by
  unfold taskRead State.readTask
  dsimp only

end Task

/-! ### The team back on its core (R384) -/

section Restored
variable {s : State} {img : Image} {place uid : Nat} {run : Bool} {m : Team}

theorem task_teamRead_run {k : Machine.Task} (h : tabFind s.teams uid = some m) (hk : m.task = some k) :
    (teamRead s img place uid true m).task = some (taskRead s img uid (place + 4096) m k) := by
  unfold teamRead taskBack
  rw [h, Option.bind_some, hk]
  rfl

theorem task_teamRead_idle (h : tabFind s.teams uid = some m) : (teamRead s img place uid false m).task = m.task := by
  unfold teamRead taskBack
  rw [h, Option.bind_some]

/-- The team's record, whatever becomes of its task. -/
theorem teamRead_eq : teamRead s img place uid run m =
    { s.readTeam img.mkey place m with task := (teamRead s img place uid run m).task } := rfl

theorem bufs_teamRead : (teamRead s img place uid run m).bufs = (s.readTeam img.mkey place m).bufs := by
  rw [teamRead]

theorem qrec_teamRead : (teamRead s img place uid run m).qrec = (s.readTeam img.mkey place m).qrec := by
  rw [teamRead]

theorem scales_teamRead : (teamRead s img place uid run m).scales = (s.readTeam img.mkey place m).scales := by
  rw [teamRead]

theorem teamRead_frame : teamRead s img place uid run m = { m with
    fpmode := BitVec.ofNat 4 (s.readNat img.mkey (place + 8) 1), fpflags := BitVec.ofNat 5 (s.readNat img.mkey (place + 9) 1)
    sat := (s.readNat img.mkey (place + 10) 1).testBit 0
    dirty := BitVec.ofNat 512 (s.readNat img.mkey (place + 0x540) 64)
    qrec := (teamRead s img place uid run m).qrec, scales := (teamRead s img place uid run m).scales
    bufs := (teamRead s img place uid run m).bufs, task := (teamRead s img place uid run m).task } := by
  rw [bufs_teamRead, qrec_teamRead, scales_teamRead]
  refine teamRead_eq.trans ?_
  generalize (teamRead s img place uid run m).task = task
  rw [readTeam_frame]

/-- A task whose record stands behind its team's. -/
theorem taskRead_spec (s : State) (img : Image) (uid place : Nat) (m : Team) (k : Machine.Task) :
    let f := fun off n => s.readNat img.mkey (place + off) n
    let k' := taskRead s img uid (place + 4096) m k
    k' = { k with
      pc := w64 (f 0x1000 8), seq := BitVec.ofNat 32 (f 0x1010 4), hold := k.hold.read (f 0x1029 1)
      origin := m.readOrigin (w64 (f 0x1008 8)) k.origin, tok := k'.tok, rows := BitVec.ofNat 5 (f 0x1014 1)
      cols := BitVec.ofNat 9 (f 0x1015 2), wc := BitVec.ofNat 2 (f 0x1017 1), left := BitVec.ofNat 35 (f 0x1018 8)
      active := BitVec.ofNat 8 (f 0x1020 1), last := BitVec.ofNat 3 (f 0x1021 1)
      rs := BitVec.ofNat 4 (f 0x1021 1 / 16), rrb := BitVec.ofNat 4 (f 0x1022 1)
      semBase := BitVec.ofNat 8 (f 0x1028 1), p := k'.p, x := k'.x, v := k'.v } := by
  intro f k'
  have h := taskRead_frame (s := s) (img := img) (place := place + 4096) (uid := uid) (m := m) (k := k)
  simp only [readNat_at, Nat.reduceAdd] at h
  exact h

theorem restores_teamRead (h : tabFind s.teams uid = some m) :
    Restores s img uid place run m (teamRead s img place uid run m) := by
  refine ⟨teamRead_frame, fun i => ?_, fun i hi => ?_, ?_, ?_, ?_⟩
  · rw [bufs_teamRead]
    exact tabFind_readTeam_bufs i
  · rw [qrec_teamRead]
    exact tabGet_readTeam_qrec hi
  · rw [scales_teamRead]
    exact take_readTeam_scales
  · rintro rfl
    exact task_teamRead_idle h
  · rintro k rfl hk
    refine ⟨_, task_teamRead_run h hk, taskRead_spec .., fun i hi => ?_, fun q h1 h2 => ?_, fun r h1 h2 => ?_,
      fun r hr => ?_⟩
    · rw [tabGet_taskRead_tok hi, readNat_at, readNat_at]
    · rw [tabGet_taskRead_p h1 h2, readNat_at, ← Nat.add_assoc 4096]
    · rw [tabGet_taskRead_x h1 h2, readNat_at, ← Nat.add_assoc 4096]
    · rw [tabGet_taskRead_v hr, readNat_at, Nat.add_assoc place]

end Restored

end Sys2Proof.Proofs

/-! A context restored on a free core: image, commands, directory (R338, R368, R384). -/

namespace Sys2Proof.Proofs

open Sys2Proof.Machine Sys2Proof.Laws

/-! ### A command read back (R378, R384) -/

section Command
variable {s : State} {m : Image} {c : Cmd}

theorem atMpc_frame (c : Cmd) (v : Nat) : c.atMpc v = { c with
    row := (c.atMpc v).row, pass := (c.atMpc v).pass, seg := (c.atMpc v).seg, chunk := (c.atMpc v).chunk } := by
  unfold Cmd.atMpc
  split <;> rfl

/-- Field of a command's record. -/
def cmdField (s : State) (m : Image) (c : Cmd) (off n : Nat) : Nat :=
  s.readNat m.mkey (m.place + 64 + 128 * m.order.idxOf c.id + off) n

theorem readCmd_frame : s.readCmd m c = { c with
    seq := (s.readCmd m c).seq, xa := (s.readCmd m c).xa, xb := (s.readCmd m c).xb, xc := (s.readCmd m c).xc
    row := (s.readCmd m c).row, pass := (s.readCmd m c).pass, seg := (s.readCmd m c).seg
    chunk := (s.readCmd m c).chunk, wsem := (s.readCmd m c).wsem, sig := (s.readCmd m c).sig
    regs := (s.readCmd m c).regs, deps := (s.readCmd m c).deps } := by
  unfold State.readCmd
  dsimp only
  generalize s.readNat m.mkey (m.cmdAt (m.order.idxOf c.id) + 48) 8 = v
  rw [atMpc_frame]

theorem fields_readCmd : (s.readCmd m c).seq = BitVec.ofNat 32 (cmdField s m c 16 4) ∧
    (s.readCmd m c).xa = w64 (cmdField s m c 24 8) ∧ (s.readCmd m c).xb = w64 (cmdField s m c 32 8) ∧
    (s.readCmd m c).xc = w64 (cmdField s m c 40 8) := by
  unfold State.readCmd
  dsimp only
  exact ⟨rfl, rfl, rfl, rfl⟩

theorem deps_readCmd : (s.readCmd m c).deps = (c.deps.filter fun d => !m.order.any fun id => d == .cmd id) ++
    m.order.zipIdx.filterMap fun d => if (cmdField s m c 64 19).testBit d.2 then some (Dep.cmd d.1) else none := by
  unfold State.readCmd
  dsimp only
  rfl

theorem mem_deps_readCmd (d : Dep) : d ∈ (s.readCmd m c).deps ↔ if ∃ id ∈ m.order, d = .cmd id then
    ∃ j id, m.order[j]? = some id ∧ d = .cmd id ∧ (cmdField s m c 64 19).testBit j = true else d ∈ c.deps := by
  have hinside : d ∈ m.order.zipIdx.filterMap (fun e =>
      if (cmdField s m c 64 19).testBit e.2 then some (Dep.cmd e.1) else none) ↔
      ∃ j id, m.order[j]? = some id ∧ d = .cmd id ∧ (cmdField s m c 64 19).testBit j = true := by
    rw [List.mem_filterMap]
    constructor
    · rintro ⟨⟨id, j⟩, he, hd⟩
      have hj := List.mem_zipIdx_iff_getElem?.mp he
      split_ifs at hd with hbit
      exact ⟨j, id, hj, (Option.some.inj hd).symm, hbit⟩
    · rintro ⟨j, id, hj, rfl, hbit⟩
      exact ⟨(id, j), List.mem_zipIdx_iff_getElem?.mpr hj, if_pos hbit⟩
  rw [deps_readCmd, List.mem_append, List.mem_filter, hinside]
  by_cases hd : ∃ id ∈ m.order, d = .cmd id
  · rw [if_pos hd]
    obtain ⟨id, hid, rfl⟩ := hd
    refine or_iff_right fun h => ?_
    exact absurd h.2 (by simpa using hid)
  · rw [if_neg hd]
    refine (or_iff_left ?_).trans (and_iff_left ?_)
    · rintro ⟨j, id, hj, rfl, -⟩
      exact hd ⟨id, List.mem_of_getElem? hj, rfl⟩
    · rw [Bool.not_eq_true', List.any_eq_false]
      intro id hid heq
      exact hd ⟨id, hid, by simpa using heq⟩

end Command

/-! ### Commands back in their queues (R368, R384) -/

/-- A command that tries again where it is parked and of the context. -/
def tryAgain (ctx : Nat) (c : Cmd) : Cmd := if c.parked = true ∧ c.ctx = ctx then { c with retry := true } else c

theorem replayCore_ctx (ctx : Nat) (k : Core) :
    replayCore (fun c => c == ctx) k = { k with cmds := k.cmds.map (tryAgain ctx) } := by
  have hmap : (fun c : Cmd => if c.parked ∧ (c.ctx == ctx) = true then { c with retry := true } else c) = tryAgain ctx :=
    funext fun c => if_congr (and_congr_right' beq_iff_eq) rfl rfl
  unfold replayCore
  rw [hmap]

theorem replayCluster_ctx (ctx : Nat) (k : Cluster) : replayCluster (fun c => c == ctx) k = { k with
    qps := k.qps.map fun q => if q.2.parked = true ∧ (∃ e ∈ q.2.entries, e.ctx = ctx) then
      (q.1, { q.2 with replay := true }) else q } := by
  have hmap : (fun q : Nat × Qp => if q.2.parked ∧ (q.2.entries.any fun e => e.ctx == ctx) = true then
      (q.1, { q.2 with replay := true }) else q) =
      fun q => if q.2.parked = true ∧ (∃ e ∈ q.2.entries, e.ctx = ctx) then (q.1, { q.2 with replay := true }) else q :=
    funext fun q => if_congr (and_congr_right' (by simp)) rfl rfl
  unfold replayCluster
  rw [hmap]

/-- Queue pairs that a replay reaches have the entries that they had. -/
theorem entries_replayCluster (p : Nat → Bool) (k : Cluster) (i : Nat) :
    (tabFind (replayCluster p k).qps i).map (·.entries) = (tabFind k.qps i).map (·.entries) := by
  unfold replayCluster
  induction k.qps with
  | nil => rfl
  | cons q qs ih =>
    obtain ⟨j, x⟩ := q
    rw [List.map_cons]
    by_cases hj : j = i
    · split_ifs <;> simp [tabFind, hj]
    · split_ifs <;> simpa [tabFind, hj] using ih

section Back
variable {s : State} {core ctx : Nat}

/-- The image of a context on a core, where it has one. -/
def imageFor (s : State) (core ctx : Nat) : Option Image := s.images.find? fun m => m.core == core && m.ctx == ctx

/-- A core with the commands of an image. -/
def withCmds (s : State) (m : Image) (k : Core) : Core :=
  { k with cmds := m.cmds.map (s.readCmd m) ++ k.cmds, sb := m.sb ++ k.sb }

/-- The state with the commands of an image in their queues. -/
def cmdsBack (s : State) (core ctx : Nat) (m : Image) : State :=
  { s.modCore core (withCmds s m) with
    images := s.images.filter fun m => !(m.core == core && m.ctx == ctx) }

theorem bringCmds_some {m : Image} (h : imageFor s core ctx = some m) :
    s.bringCmds core ctx = (cmdsBack s core ctx m).replayDie (dieOf core) fun c => c == ctx := by
  unfold imageFor at h
  unfold State.bringCmds
  rw [h]
  rfl

theorem bringCmds_none (h : imageFor s core ctx = none) : s.bringCmds core ctx = s := by
  unfold imageFor at h
  unfold State.bringCmds
  rw [h]

theorem readImage_some {m : Image} (h : imageFor s core ctx = some m) : s.readImage core ctx =
    s.bringTeams m (m.place + 64 + 128 * s.readNat m.mkey (m.place + 6) 2) m.teams := by
  unfold imageFor at h
  unfold State.readImage
  rw [h]
  rfl

theorem readImage_none (h : imageFor s core ctx = none) : s.readImage core ctx = s := by
  unfold imageFor at h
  unfold State.readImage
  rw [h]

theorem filter_of_imageFor_none (h : imageFor s core ctx = none) :
    s.images.filter (fun m => !(m.core == core && m.ctx == ctx)) = s.images :=
  List.filter_eq_self.mpr fun m hm => by
    rw [Bool.not_eq_true'] at *
    exact Bool.eq_false_iff.mpr (List.find?_eq_none.mp h m hm)

/-- What the commands' return leaves. -/
structure CmdsReturn (b w : State) (core ctx : Nat) (image : Option Image) : Prop where
  frame : w = { b with cores := w.cores, clusters := w.clusters, images := w.images }
  images : w.images = b.images.filter fun m => !(m.core == core && m.ctx == ctx)
  others : ∀ j, j ≠ core → w.core j = if image ≠ none ∧ dieOf j = dieOf core then
    { b.core j with cmds := (b.core j).cmds.map (tryAgain ctx) } else b.core j
  clusters : ∀ cl, w.cluster cl = if image ≠ none ∧ cl / 16 = dieOf core then
    replayCluster (fun c => c == ctx) (b.cluster cl) else b.cluster cl
  self : w.core core = { b.core core with cmds := (w.core core).cmds, sb := (w.core core).sb }
  back : ∀ m, image = some m → (w.core core).sb = m.sb ++ (b.core core).sb ∧
    (w.core core).cmds = (m.cmds.map (b.readCmd m) ++ (b.core core).cmds).map (tryAgain ctx)
  none : image = none → (w.core core).sb = (b.core core).sb ∧ (w.core core).cmds = (b.core core).cmds

theorem core_cmdsBack (m : Image) (q : Nat) : (cmdsBack s core ctx m).core q =
    if q = core then withCmds s m (s.core core) else s.core q := core_modCore_if s core (withCmds s m) q

theorem cmdsReturn_bringCmds (s : State) (core ctx : Nat) :
    CmdsReturn s (s.bringCmds core ctx) core ctx (imageFor s core ctx) := by
  cases h : imageFor s core ctx with
  | none =>
    rw [bringCmds_none h]
    exact ⟨rfl, (filter_of_imageFor_none h).symm, fun j _ => (if_neg fun hn => hn.1 rfl).symm,
      fun cl => (if_neg fun hn => hn.1 rfl).symm, rfl, nofun, fun _ => ⟨rfl, rfl⟩⟩
  | some m =>
    have hcore : (s.bringCmds core ctx).core core = { s.core core with
        cmds := (m.cmds.map (s.readCmd m) ++ (s.core core).cmds).map (tryAgain ctx), sb := m.sb ++ (s.core core).sb } := by
      rw [bringCmds_some h, core_replayDie, if_pos rfl, replayCore_ctx, core_cmdsBack, if_pos rfl, withCmds]
    refine ⟨?_, ?_, fun j hj => ?_, fun cl => ?_, ?_, ?_, nofun⟩
    · rw [bringCmds_some h, replayDie_eq]
      rfl
    · rw [bringCmds_some h, replayDie_eq]
      rfl
    · rw [bringCmds_some h, core_replayDie, replayCore_ctx, core_cmdsBack, if_neg hj]
      exact if_congr (by simp) rfl rfl
    · rw [bringCmds_some h, cluster_replayDie]
      exact if_congr (by simp) rfl rfl
    · rw [hcore]
    · rintro m' hm
      obtain rfl := Option.some.inj hm
      rw [hcore]
      exact ⟨rfl, rfl⟩

end Back

end Sys2Proof.Proofs

/-! The step that restores a context, and quanta settled (R338, R339, R374 to R377, R384). -/

namespace Sys2Proof.Proofs

open Sys2Proof.Machine Sys2Proof.Laws

/-! ### States that read the same -/

/-- No read of memory tells two states apart. -/
structure SameReads (s t : State) : Prop where
  bytes : ∀ mk k, t.readByte mk k = s.readByte mk k
  installed : ∀ mk k, t.installed mk k = s.installed mk k

section Reads
variable {s t u : State} {mk base : Nat} {bs : List (BitVec 8)}

theorem stored_of_sameReads (hm : SameReads s u) (h : Stored u t mk base bs) : Stored s t mk base bs :=
  ⟨fun a hi => (h.1 a ((hm.installed ..).trans hi)).trans (by rw [hm.bytes]),
    fun key a ha => (h.2 key a ha).trans (hm.bytes ..)⟩

theorem deviceByte_of_clusters (hframe : t = { s with cores := t.cores, clusters := t.clusters, images := t.images })
    (hqps : ∀ cl i, (tabFind (t.cluster cl).qps i).map (·.entries) = (tabFind (s.cluster cl).qps i).map (·.entries))
    (k : Nat) : t.deviceByte k = s.deviceByte k := by
  have hdie : ∀ d, t.die d = s.die d := fun d => by rw [hframe]; rfl
  have hmclog : t.mclog = s.mclog := by rw [hframe]
  have hticks : t.ticks = s.ticks := by rw [hframe]
  unfold State.deviceByte
  simp only [hdie, hmclog, hticks]
  have hq := hqps (k / 2 ^ 46 * 16 + (k % 2 ^ 46 - qpLocal) / 8192) ((k % 2 ^ 46 - qpLocal) / 32 % 256)
  generalize tabFind (t.cluster (k / 2 ^ 46 * 16 + (k % 2 ^ 46 - qpLocal) / 8192)).qps
    ((k % 2 ^ 46 - qpLocal) / 32 % 256) = x at hq ⊢
  generalize tabFind (s.cluster (k / 2 ^ 46 * 16 + (k % 2 ^ 46 - qpLocal) / 8192)).qps
    ((k % 2 ^ 46 - qpLocal) / 32 % 256) = y at hq ⊢
  match x, y, hq with
  | none, none, _ => rfl
  | some x, some y, hq =>
    have hentries : x.entries = y.entries := Option.some.inj hq
    simp only [hentries]

theorem sameReads_of_clusters (hframe : t = { s with cores := t.cores, clusters := t.clusters, images := t.images })
    (hqps : ∀ cl i, (tabFind (t.cluster cl).qps i).map (·.entries) = (tabFind (s.cluster cl).qps i).map (·.entries)) :
    SameReads s t := by
  have hdev := deviceByte_of_clusters hframe hqps
  have hinst : ∀ mk k, t.installed mk k = s.installed mk k := fun mk k => by rw [hframe]; rfl
  have hbyte : ∀ k, t.byte k = s.byte k := fun k => by rw [hframe]; rfl
  have htags : t.tags = s.tags := by rw [hframe]
  have hticks : t.ticks = s.ticks := by rw [hframe]
  refine ⟨fun mk k => ?_, hinst⟩
  unfold State.readByte
  rw [hdev, hinst, hbyte, htags, hticks]

end Reads

theorem sameReads_cmdsReturn {b w : State} {core ctx : Nat} {image : Option Image}
    (h : CmdsReturn b w core ctx image) : SameReads b w := by
  refine sameReads_of_clusters h.frame fun cl i => ?_
  rw [h.clusters]
  split_ifs
  · exact entries_replayCluster ..
  · rfl

/-! ### The step -/

section Tiles
variable {s : State} {core ctx : Nat}

/-- With no tile saved none is brought back. -/
theorem bringTiles_none (h : s.readNat (s.keyOn core ctx) (s.dirKey ctx core + 24) 1 = 0) (n i : Nat) :
    s.bringTiles core ctx i n = some s := by
  induction n generalizing i with
  | zero => rfl
  | succ n ih =>
    have htile : s.bringTile core ctx i = some s := by
      unfold State.bringTile
      dsimp only
      rw [h, Nat.zero_testBit]
      rfl
    rw [State.bringTiles, htile]
    exact ih _

end Tiles

section Restore
variable {s : State} {core ctx : Nat}

/-- The state as a context's image and commands are back, and its directory entry is cleared. -/
def directoryCleared (w : State) (dir mk : Nat) : State := (w.agentNat mk (dir + 12) 4 0).agentNat mk (dir + 0x19) 1 0

/-- A core as its quantum begins with a restored context. -/
def quantumBegun (now : Nat) (k : Core) : Core := { k with halting := false, next := none, quantum := now, kept := 0 }

/-- The state as the context's quantum begins. -/
def roundBegun (q : State) (core : Nat) : State :=
  (q.newRound core).modCore core (quantumBegun (q.die (dieOf core)).gnomon.toNat)

theorem restoreCtx_eq (hkept : (s.core core).removed = false) (hshadow : s.readyShadow core ctx = some s) :
    s.restoreCtx core ctx = ((s.activate core ctx).bringTiles core ctx 0 8).map fun a =>
      roundBegun (directoryCleared ((a.readImage core ctx).bringCmds core ctx) (a.dirKey ctx core) (a.keyOn core ctx))
        core := by
  unfold State.restoreCtx
  rw [hshadow, Option.bind_some, if_neg (Bool.eq_false_iff.mp hkept)]
  rfl

theorem readyShadow_prepared (h1 : (s.core core).shadowSt = 1)
    (h2 : (tabGet 0 (s.core core).shadow 0).toNat % 4096 = ctx)
    (h3 : (tabGet 0 (s.core core).shadow 0).getLsbD 63 = true) : s.readyShadow core ctx = some s := by
  unfold State.readyShadow
  exact if_pos ⟨h1, h2, h3⟩

theorem exec_contextRestore (husable : s.coreUsable core = true) (hidle : s.idle core = true) (htick : s.tickDue = false)
    (hnext : s.takeNext core = some ctx) : exec (.contextRestore core) s = orStay s (s.restoreCtx core ctx) := by
  change execContextRestore core s = _
  unfold execContextRestore
  rw [if_neg (by simp [husable, hidle, htick]), hnext]

/-- The context that a free core takes. -/
theorem takeNext_spec (h : s.takeNext core = some ctx) : (s.candidatesOf core).contains ctx = true ∧
    ((s.core core).next = some ctx ∨ s.nextCtx core none = some ctx) := by
  have hfirst : s.nextCtx core none = some ctx → (s.candidatesOf core).contains ctx = true := fun hn => by
    simpa using (nextCtx_first hn).1
  unfold State.takeNext at h
  cases hnext : (s.core core).next with
  | none =>
    rw [hnext] at h
    exact ⟨hfirst h, .inr h⟩
  | some n =>
    rw [hnext] at h
    dsimp only at h
    split_ifs at h with hc
    · obtain rfl := Option.some.inj h
      exact ⟨hc, .inl rfl⟩
    · exact ⟨hfirst h, .inr h⟩

end Restore

section Round
variable {q : State} {core : Nat}

theorem core_roundBegun (j : Nat) : (roundBegun q core).core j =
    if j = core then quantumBegun (q.die (dieOf core)).gnomon.toNat (q.core core) else q.core j :=
  core_modCore_if (q.newRound core) core _ j

theorem tabFind_roundBegun (u : Nat) :
    tabFind (roundBegun q core).teams u = (tabFind q.teams u).map (askAgain core) := by
  have hteams : (roundBegun q core).teams = q.teams.map fun t => (t.1, askAgain core t.2) :=
    congrArg State.teams (newRound_eq q core)
  rw [hteams, tabFind_map]

theorem roundBegun_frame : roundBegun q core =
    { q with cores := (roundBegun q core).cores, teams := (roundBegun q core).teams } := rfl

end Round

/-! ### What the step leaves (R384) -/

section Cleared
variable {w : State} {dir mk : Nat} (hdir : Hbm dir 32) (hw : Writable w mk dir 32)
include hdir hw

theorem stored_cleared : ∃ p, Stored w p mk (dir + 12) [0, 0, 0, 0] ∧
    Stored p (directoryCleared w dir mk) mk (dir + 25) [0] := by
  have hp : OnlyMemory w (w.agentNat mk (dir + 12) 4 0) := onlyMemory_agentNat ..
  exact ⟨w.agentNat mk (dir + 12) 4 0, stored_agentNat 0 (hbm_part hdir (by decide)) (writable_part hw (by decide)),
    stored_agentNat 0 (hbm_part hdir (by decide)) (hp.writable.mpr (writable_part hw (by decide)))⟩

end Cleared

theorem onlyMemory_directoryCleared (w : State) (dir mk : Nat) : OnlyMemory w (directoryCleared w dir mk) :=
  (onlyMemory_agentNat ..).trans (onlyMemory_agentNat ..)

/-- What a restore leaves behind its teams, `b`. -/
structure Restored (s b q t : State) (core ctx : Nat) (image : Option Image) : Prop where
  others : ∀ j, j ≠ core → t.core j = if image ≠ none ∧ dieOf j = dieOf core then
    { s.core j with cmds := (s.core j).cmds.map (tryAgain ctx) } else s.core j
  clusters : ∀ cl, t.cluster cl = if image ≠ none ∧ cl / 16 = dieOf core then
    replayCluster (fun c => c == ctx) (s.cluster cl) else s.cluster cl
  self : t.core core = { s.core core with
    plane := (s.core core).shadow, shadow := [], shadowSt := 0, halting := false, next := none, kept := 0
    quantum := (s.die (dieOf core)).gnomon.toNat, cmds := (t.core core).cmds, sb := (t.core core).sb }
  back : ∀ m, image = some m → (t.core core).sb = m.sb ++ (s.core core).sb ∧
    (t.core core).cmds = (m.cmds.map (b.readCmd m) ++ (s.core core).cmds).map (tryAgain ctx)
  none : image = none → (t.core core).sb = (s.core core).sb ∧ (t.core core).cmds = (s.core core).cmds
  images : t.images = s.images.filter fun m => !(m.core == core && m.ctx == ctx)
  teams : ∀ u, tabFind t.teams u = (tabFind b.teams u).map (askAgain core)
  frame : t = { b with
    cores := t.cores, clusters := t.clusters, teams := t.teams, images := t.images, mem := q.mem, tags := q.tags }

section Leaves
variable {s a b w q : State} {core ctx : Nat} {image : Option Image} (ha : Activates s a core ctx) (hb : PadsOnly a b)
  (hw : CmdsReturn b w core ctx image) (hq : OnlyMemory w q)
include ha hb hw hq

theorem restored_roundBegun : Restored s b q (roundBegun q core) core ctx image := by
  obtain ⟨haframe, hacore, hadie, -⟩ := ha
  have hbcore : ∀ j, b.core j = a.core j := fun j => by rw [hb.frame]; rfl
  have hbcluster : ∀ j, b.cluster j = s.cluster j := fun j => by rw [hb.frame, haframe]; rfl
  have hbimages : b.images = s.images := by rw [hb.frame, haframe]
  have hself : b.core core = shadowActive (s.core core) := (hbcore core).trans ((hacore core).trans (if_pos rfl))
  have hothers : ∀ j, j ≠ core → b.core j = s.core j := fun j hj => (hbcore j).trans ((hacore j).trans (if_neg hj))
  have hnow : (q.die (dieOf core)).gnomon = (s.die (dieOf core)).gnomon := by
    have hd : q.die (dieOf core) = a.die (dieOf core) := by rw [hq, hw.frame, hb.frame]; rfl
    rw [hd, hadie, if_pos rfl]
  have hcore : (roundBegun q core).core core = quantumBegun (s.die (dieOf core)).gnomon.toNat (w.core core) := by
    rw [core_roundBegun, if_pos rfl, hq.core, hnow]
  refine ⟨fun j hj => ?_, fun cl => ?_, ?_, fun m hm => ?_, fun hno => ?_, ?_, fun u => ?_, ?_⟩
  · rw [core_roundBegun, if_neg hj, hq.core, hw.others j hj, hothers j hj]
  · have hcl : (roundBegun q core).cluster cl = w.cluster cl := by rw [roundBegun_frame, hq]; rfl
    rw [hcl, hw.clusters, hbcluster]
  · rw [hcore, hw.self, hself]
    rfl
  · have h := hw.back m hm
    rw [hself] at h
    rw [hcore]
    exact h
  · have h := hw.none hno
    rw [hself] at h
    rw [hcore]
    exact h
  · have himages : (roundBegun q core).images = w.images := by rw [roundBegun_frame, hq]
    rw [himages, hw.images, hbimages]
  · have hteams : q.teams = b.teams := by rw [hq, hw.frame]
    rw [tabFind_roundBegun, hteams]
  · rw [roundBegun_frame, hq, hw.frame]

end Leaves

section Whole
variable {s : State} {core ctx : Nat}

/-- A prepared context is restored (R384). -/
theorem contextRestore_spec (husable : s.coreUsable core = true) (hidle : s.idle core = true) (htick : s.tickDue = false)
    (hnext : s.takeNext core = some ctx) (h1 : (s.core core).shadowSt = 1)
    (h2 : (tabGet 0 (s.core core).shadow 0).toNat % 4096 = ctx)
    (h3 : (tabGet 0 (s.core core).shadow 0).getLsbD 63 = true) {a : State} (ha : s.activate core ctx = a)
    (htiles : a.readNat (a.keyOn core ctx) (a.dirKey ctx core + 24) 1 = 0) :
    exec (.contextRestore core) s = .next (roundBegun (directoryCleared ((a.readImage core ctx).bringCmds core ctx)
      (a.dirKey ctx core) (a.keyOn core ctx)) core) := by
  rw [exec_contextRestore husable hidle htick hnext,
    restoreCtx_eq (coreUsable_kept husable) (readyShadow_prepared h1 h2 h3), ha, bringTiles_none htiles, Option.map_some]
  rfl

end Whole

end Sys2Proof.Proofs

/-! Quanta, shadows, restore and pre-emption settled (R338, R339, R374 to R377, R384). -/

namespace Sys2Proof.Proofs

open Sys2Proof.Machine Sys2Proof.Laws

theorem quantumEnd_tickDue {s : State} {core : Nat} (h : (s.die (dieOf core)).fairDue = true) :
    exec (.quantumEnd core) s = .next s := by
  change execQuantumEnd core s = _
  unfold execQuantumEnd
  exact if_pos (.inr h)

section Image
variable {a : State} {core ctx : Nat}

theorem padsOnly_readImage (a : State) (core ctx : Nat) : PadsOnly a (a.readImage core ctx) := by
  cases h : imageFor a core ctx with
  | none =>
    rw [readImage_none h]
    exact .refl a
  | some m =>
    rw [readImage_some h]
    exact padsOnly_bringTeams ..

/-- The teams of an image as they come back. -/
theorem teams_readImage {m : Image} (h : imageFor a core ctx = some m) :
    (∀ u, u ∉ m.teams.map (·.1) → tabFind (a.readImage core ctx).teams u = tabFind a.teams u) ∧
    ∀ uid run x, m.teams = [(uid, run)] → tabFind a.teams uid = some x →
      ∃ (y : Team), tabFind (a.readImage core ctx).teams uid = some y ∧
        Restores a m uid (m.place + 64 + 128 * a.readNat m.mkey (m.place + 6) 2) run x y := by
  rw [readImage_some h]
  refine ⟨fun u hu => tabFind_bringTeams_other _ _ _ hu, fun uid run x hteams hx => ?_⟩
  rw [hteams]
  exact ⟨_, tabFind_bringTeams_one hx, restores_teamRead hx⟩

end Image

section Writable
variable {a b w : State} {core ctx : Nat} {image : Option Image} (hb : PadsOnly a b) (hw : CmdsReturn b w core ctx image)
include hb hw

theorem writable_cmdsReturn {mk base n : Nat} (h : Writable a mk base n) : Writable w mk base n := fun x h1 h2 => by
  obtain ⟨hrefused, hinstalled⟩ := h x h1 h2
  constructor
  · rw [hw.frame, hb.frame]
    exact hrefused
  · rw [hw.frame, hb.frame]
    exact hinstalled

end Writable

section Saved
variable {s : State} {core ctx : Nat}

/-- What a team's task waits for once its core has halted a context (R328). -/
theorem teams_leavesSaved {b t : State} (h : LeavesSaved s b t core ctx) :
    (∀ u m, tabFind s.teams u = some m → (∀ x cs, m.task = some x → x.hold ≠ .halting ctx cs) →
      tabFind t.teams u = some m) ∧
    ∀ u m x cs, tabFind s.teams u = some m → m.task = some x → x.hold = .halting ctx cs →
      tabFind t.teams u = some { m with task := some { x with
        hold := if cs.filter (fun c => c != core) = [] then .free else .halting ctx (cs.filter fun c => c != core) } } := by
  refine ⟨fun u m hm hno => ?_, fun u m x cs hm hx hhold => ?_⟩
  · rw [h.teams, hm, Option.map_some, haltedTeam_other hno]
  · rw [h.teams, hm, Option.map_some, haltedTeam_halting hx hhold]

theorem coreSaved_eq : coreSaved s core ctx (s.core core) = { s.core core with
    cmds := (s.core core).cmds.filter fun c => !savedOf ctx c
    sb := (s.core core).sb.filter fun b => !(savedCmds s core ctx).any fun c => c.id == b.cmd
    bufs := (s.core core).bufs.filter fun b => !((s.teamsOf core ctx).map (·.1)).contains b.2.team
    lastRan := tabPut (s.core core).lastRan ctx (s.die (dieOf core)).gnomon.toNat } := by
  rw [coreSaved, mates_eq]

end Saved

/-- Settles O51. -/
theorem quanta : Obligations.quanta := by
  refine ⟨⟨fun s core => quantumEnd_tickDue, ?_, mem_candidatesOf, ?_, ?_, ?_⟩, ?_⟩
  · intro s core c husable hdue hrunning hactive k now becomes
    exact ⟨fun n => quantumEnd_chooses husable hdue hrunning hactive,
      quantumEnd_none husable hdue hrunning hactive, quantumEnd_stays husable hdue hrunning hactive,
      fun n hended hidle hn hnc => ⟨workCtx_spec hn, quantumEnd_switches husable hdue hrunning hactive hended hidle hn hnc⟩⟩
  · exact fun s core n => ⟨nextCtx_first, fun c h => nextCtx_spec h⟩
  · intro s core n husable k d hlate hn hother hstale hroom
    obtain ⟨t, hstep, ht⟩ := shadowPrepare_spec husable hlate hn hother hstale hroom
    exact ⟨t, hstep, ht.others, ht.shadow, ht.good, ht.bad⟩
  · intro s core ctx husable hidle htick hnext k image again
    refine ⟨takeNext_spec hnext, fun h1 h2 h3 => ⟨s.activate core ctx, activates_activate .., ?_⟩⟩
    have ha := activates_activate s core ctx
    have hstep := contextRestore_spec husable hidle htick hnext h1 h2 h3 rfl
    generalize s.activate core ctx = a at ha hstep
    intro dir mk htiles hdir hwdir
    have hb := padsOnly_readImage a core ctx
    have himages : a.images = s.images := (congrArg State.images ha.1 :)
    have hteams : a.teams = s.teams := (congrArg State.teams ha.1 :)
    have himage : imageFor a core ctx = image := congrArg (List.find? fun m : Image => m.core == core && m.ctx == ctx) himages
    have himage' : imageFor (a.readImage core ctx) core ctx = image :=
      (congrArg (List.find? fun m : Image => m.core == core && m.ctx == ctx)
        (congrArg State.images hb.frame :)).trans himage
    have hnone : image = none → a.readImage core ctx = a := fun h => readImage_none (himage.trans h)
    have hback : ∀ m, image = some m → _ := fun m h => teams_readImage (himage.trans h)
    have hw := himage' ▸ cmdsReturn_bringCmds (a.readImage core ctx) core ctx
    replace hstep := hstep htiles
    generalize a.readImage core ctx = b at hb hnone hback hw hstep
    have hreads := sameReads_cmdsReturn hw
    have hwritable := writable_cmdsReturn hb hw hwdir
    generalize b.bringCmds core ctx = w at hw hreads hwritable hstep
    obtain ⟨p, hp, hq⟩ := stored_cleared hdir hwritable
    have hr := restored_roundBegun ha hb hw (onlyMemory_directoryCleared w dir mk)
    refine ⟨b, p, directoryCleared w dir mk, _, hstep, hb.frame, hb.bytes, hnone, fun m hm => ?_,
      stored_of_sameReads hreads hp, hq, hr.others, fun cl => ?_, hr.self, hr.back, fun m c _ hm _ => ?_, hr.none,
      hr.images, hr.teams, hr.frame⟩
    · rw [← hteams]
      exact hback m hm
    · rw [hr.clusters, replayCluster_ctx]
    · obtain ⟨hseq, hxa, hxb, hxc⟩ := fields_readCmd (s := b) (m := m) (c := c)
      exact ⟨readCmd_frame, hseq, hxa, hxb, hxc, mem_deps_readCmd⟩
  · intro s core ctx k die hactive hhalting hsaved
    refine ⟨preemption_undrained hactive hhalting hsaved, ?_, ?_⟩
    · rintro l hdrained rfl hne own
      refine ⟨fun u hu h => preemption_waits hactive hhalting hsaved hdrained hne hu h,
        fun h => preemption_none hactive hhalting hsaved hdrained hne h, ?_⟩
      intro u m k a hown hteam ha hhost hm hk horigin
      obtain ⟨y, hy⟩ := abortReady_spec (core := core) (bound := a.id) hm hk horigin
      exact ⟨_, y, preemption_aborts hactive hhalting hsaved hdrained hne hown hteam ha hhost, hy⟩
    · intro hdrained hentries hresid dir mk place mine cmds img uids mates hplace hwplace hdir hwdir
      obtain ⟨t, hstep, ht⟩ := preemption_saved hactive hhalting hsaved hdrained hentries hresid
      refine ⟨imagePut s core ctx, lengthPut s core ctx, t, hstep, stored_imagePut hplace hwplace,
        stored_lengthPut hdir hwdir, stored_congr (stored_pinnedPut hdir hwdir) ht.memory, ht.images, fun q => ?_,
        (teams_leavesSaved ht).1, (teams_leavesSaved ht).2, ht.frame⟩
      rw [ht.cores, coreSaved_eq]
      rfl

end Sys2Proof.Proofs

/-! The request ring of C0x000: what a request asks and how it is answered (R389). -/

namespace Sys2Proof.Proofs

open Sys2Proof.Machine Sys2Proof.Laws

/-! ### The bytes of a request slot -/

section Ring
variable {s : State} {die slot off mk : Nat}

/-- The ring lies in system space, outside HBM and outside the places that a register shows. -/
theorem reqKey_loc (hslot : slot < 64) (hoff : off < 256) :
    (reqKey die slot + off) % 2 ^ 46 = aliRing + 256 * slot + off := by
  unfold reqKey physKey aliRing
  omega

theorem isHbm_reqKey (hslot : slot < 64) (hoff : off < 256) : isHbm (reqKey die slot + off) = false := by
  have h := reqKey_loc (die := die) hslot hoff
  unfold aliRing at h
  refine Bool.eq_false_iff.mpr fun hh => ?_
  have := (isHbm_iff.mp hh).2
  omega

theorem deviceByte_reqKey (s : State) (hslot : slot < 64) (hoff : off < 256) :
    s.deviceByte (reqKey die slot + off) = none := by
  have h := reqKey_loc (die := die) hslot hoff
  unfold aliRing at h
  unfold State.deviceByte
  by_cases hd : 4 ≤ (reqKey die slot + off) / 2 ^ 46
  · exact if_pos hd
  · dsimp only
    rw [if_neg hd, if_neg (by unfold fairLocal; omega), if_neg (by unfold mcLocal; omega),
      if_neg (by unfold qpLocal; omega)]

theorem backed_reqKey (s : State) {n : Nat} (hslot : slot < 64) (hoff : off + n ≤ 256) :
    Backed s (reqKey die slot + off) n := fun a h1 h2 => by
  obtain ⟨i, rfl⟩ := Nat.exists_eq_add_of_le h1
  rw [Nat.add_assoc]
  exact .inr (deviceByte_reqKey s hslot (by omega))

/-- A byte of a request reads the same under every key. -/
theorem readByte_reqKey (s : State) (mk : Nat) (hslot : slot < 64) (hoff : off < 256) :
    s.readByte mk (reqKey die slot + off) = s.byte (reqKey die slot + off) := by
  rw [readByte_of_not_hbm (isHbm_reqKey hslot hoff), deviceByte_reqKey s hslot hoff]
  rfl

theorem putByte_reqKey (s : State) (mk : Nat) (b : BitVec 8) (hslot : slot < 64) (hoff : off < 256) :
    putByte s mk (reqKey die slot + off) b = s.setByte (reqKey die slot + off) b := by
  rw [putByte, State.rekeyGranule, if_neg (by rw [isHbm_reqKey hslot hoff]; decide)]

/-- A field of a request is its bytes as memory holds them. -/
theorem reqF_congr {t : State} {n : Nat} (hslot : slot < 64) (hoff : off + n ≤ 256)
    (h : ∀ i, i < n → t.byte (reqKey die slot + (off + i)) = s.byte (reqKey die slot + (off + i))) :
    t.reqF die slot off n = s.reqF die slot off n :=
  readNat_congr fun i hi => by
    rw [Nat.add_assoc, readByte_reqKey t 0 hslot (by omega), readByte_reqKey s 0 hslot (by omega), h i hi]

/-- The STATUS byte. -/
def statusPut (s : State) (die slot status : Nat) : State := s.writeNat 0 (reqKey die slot + 1) 1 status

theorem statusPut_eq (s : State) (status : Nat) (hslot : slot < 64) :
    statusPut s die slot status = s.setByte (reqKey die slot + 1) (BitVec.ofNat 8 status) :=
  putByte_reqKey s 0 _ hslot (by omega)

theorem reqF_statusPut (s : State) (status : Nat) (hslot : slot < 64) :
    (statusPut s die slot status).reqF die slot 2 1 = s.reqF die slot 2 1 :=
  reqF_congr hslot (by omega) fun i hi => by
    rw [statusPut_eq s status hslot, byte_setByte, if_neg (by omega)]

end Ring

/-! ### Answers -/

theorem signals_semAdd (m : State) (n : Nat) : Signals m ((m.semAdd 0 n 1).getD m) n := by
  by_cases h : (m.semVal 0 n).toNat + 1 < 2 ^ 32
  · obtain ⟨t, ht, hadds⟩ := adds_semAdd h
    rw [ht]
    exact ⟨fun _ => hadds, fun h' => absurd h' (by omega)⟩
  · rw [semAdd_overflow (Nat.le_of_not_lt h)]
    exact ⟨fun h' => absurd h' h, fun _ => rfl⟩

theorem reqEnd_def (b : State) (die slot status : Nat) : b.reqEnd die slot status =
    (((statusPut b die slot status).semAdd 0 ((statusPut b die slot status).reqF die slot 2 1) 1).getD
      (statusPut b die slot status)).modDie die fun d => { d with bells := d.bells.erase (1, slot) } := rfl

theorem answered_reqEnd {die slot : Nat} (b : State) (status : Nat) (hslot : slot < 64) :
    Answered b (b.reqEnd die slot status) die slot status := by
  have hsig := signals_semAdd (statusPut b die slot status) (b.reqF die slot 2 1)
  have heq := reqEnd_def b die slot status
  rw [reqF_statusPut b status hslot] at heq
  refine ⟨statusPut b die slot status, _, onlyMemory_writeBytes ..,
    stored_writeBytes _ b _ (backed_reqKey b hslot (by rw [length_leBytes]; omega)), hsig,
    by rw [heq]; rfl, fun d => ?_⟩
  rw [heq, die_modDie]
  by_cases hd : d = die
  · rw [if_pos hd, if_pos hd, hd]
  · rw [if_neg hd, if_neg hd]

/-! ### A request at its turn -/

section Turn
variable {s : State} {die slot op : Nat} {named : List (Nat × Nat)}

/-- A request that is asked has its body served. -/
theorem alidade_asked (h : Asked s die slot op named) (hop : 1 ≤ op ∧ op ≤ 11) (body : State → State) :
    alidade die slot op named body s = .next (body s) := by
  obtain ⟨-, -, hturn, hcode, hclean⟩ := h
  unfold alidade
  dsimp only
  rw [if_neg (not_not.mpr hturn), hcode, if_neg (by obtain ⟨h1, h2⟩ := hop; omega), if_neg (not_not.mpr rfl), hclean]
  rfl

theorem wrongWorld_iff {w : Nat} : s.wrongWorld die w = true ↔
    ¬ ((s.die die).latched = true ∧ (s.die die).world.toNat = w) := by
  unfold State.wrongWorld
  cases (s.die die).latched <;> simp

theorem not_wrongWorld {w : Nat} (h : (s.die die).latched = true ∧ (s.die die).world.toNat = w) :
    ¬ s.wrongWorld die w = true := fun hw => wrongWorld_iff.mp hw h

/-- An answer as the only outcome of an instruction. -/
theorem next_answered {i : Instr} {status : Nat} {b : State} (hslot : slot < 64)
    (h : exec i s = .next (b.reqEnd die slot status)) :
    ∃ t, exec i s = .next t ∧ Answered b t die slot status := ⟨_, h, answered_reqEnd b status hslot⟩

end Turn

end Sys2Proof.Proofs

/-! Memory keys, key slots and grants (R391 to R397). -/

namespace Sys2Proof.Proofs

open Sys2Proof.Machine Sys2Proof.Laws

/-! ### Memory keys (R391) -/

/-- The key tags once nothing bears the name of an index any more. -/
def sealedTags (tags : Tab Nat) (id i : Nat) : Tab Nat := tags.map fun t => if t.2 = i + 1 then (t.1, 4097 + id) else t

theorem tabGet_sealedTags (tags : Tab Nat) (id i g : Nat) : tabGet 0 (sealedTags tags id i) g =
    if tabGet 0 tags g = i + 1 then 4097 + id else tabGet 0 tags g := by
  have h : sealedTags tags id i = tags.map fun e => (e.1, if e.2 = i + 1 then 4097 + id else e.2) :=
    List.map_congr_left fun e _ => by split_ifs <;> rfl
  rw [h]
  exact tabGet_map (fun v => if v = i + 1 then 4097 + id else v) 0 tags g

/-- A key's index given another state and world, what was written under it before sealed off. -/
def rekeyed (s : State) (i : Nat) (key : Nat × Nat) : State := { s with
  mkeys := tabPut s.mkeys i key, tags := sealedTags s.tags s.nextId i, nextId := s.nextId + 1 }

theorem unreadable_rekeyed (s : State) (i : Nat) (key : Nat × Nat) : Unreadable s (rekeyed s i key) i :=
  tabGet_sealedTags s.tags s.nextId i

theorem killKey_eq (s : State) (i : Nat) : s.killKey i = rekeyed s i (2, (tabGet (0, 0) s.mkeys i).2) := rfl

theorem refused_of_dead {s : State} {i : Nat} (h : (tabGet (0, 0) s.mkeys i).1 = 2) {a : Nat} (ha : isHbm a = true)
    (w : Bool) : s.refused i a w = true := by
  unfold State.refused
  rw [ha, h]
  rfl

/-- Is an index of the key table free? -/
def freeIndex (s : State) (i : Nat) : Bool := i != 0 && (tabFind s.mkeys i).isNone

theorem freeIndex_iff {s : State} {i : Nat} : freeIndex s i = true ↔ 1 ≤ i ∧ tabFind s.mkeys i = none := by
  unfold freeIndex
  simp [Nat.one_le_iff_ne_zero]

theorem lowestIndex_some {s : State} {i : Nat} (hpos : 1 ≤ i) (hlt : i < 4096) (hfree : tabFind s.mkeys i = none)
    (hlow : ∀ j, 1 ≤ j → j < i → tabFind s.mkeys j ≠ none) : (List.range 4096).find? (freeIndex s) = some i :=
  List.find?_range_eq_some.mpr ⟨freeIndex_iff.mpr ⟨hpos, hfree⟩, List.mem_range.mpr hlt, fun j hj => by
    rw [Bool.not_eq_true', Bool.eq_false_iff]
    exact fun hf => hlow j (freeIndex_iff.mp hf).1 hj (freeIndex_iff.mp hf).2⟩

theorem lowestIndex_none {s : State} (h : ∀ j, 1 ≤ j → j < 4096 → tabFind s.mkeys j ≠ none) :
    (List.range 4096).find? (freeIndex s) = none :=
  List.find?_range_eq_none.mpr fun j hj => by
    rw [Bool.not_eq_true', Bool.eq_false_iff]
    exact fun hf => h j (freeIndex_iff.mp hf).1 hj (freeIndex_iff.mp hf).2

section MemoryKeys
variable {s : State} {die slot i : Nat}

/-- The state of an index that MKEY_NEW hands out, its number in the request. -/
def keyHanded (s : State) (die slot i : Nat) : State :=
  (rekeyed s i (1, s.reqF die slot 8 1)).writeNat 0 (reqKey die slot + 16) 2 i

theorem mkeyNew_def (s : State) (die slot : Nat) : s.mkeyNew die slot =
    if s.wrongWorld die (s.reqF die slot 8 1) then s.reqEnd die slot sWorld
    else if s.scrubs.any (fun r => r.die == die && r.slot == 64) then s.reqEnd die slot sBusy
    else match (List.range 4096).find? (freeIndex s) with
      | none => s.reqEnd die slot sBusy
      | some i => (keyHanded s die slot i).reqEnd die slot sDone := by
  unfold State.mkeyNew
  rw [show (fun i => i != 0 && (tabFind s.mkeys i).isNone) = freeIndex s from rfl]
  generalize (List.range 4096).find? (freeIndex s) = r
  cases r
  case none => rfl
  case some i =>
    unfold keyHanded rekeyed sealedTags State.fresh
    dsimp only

theorem tags_writeNat_reqKey (s : State) {off n : Nat} (v : Nat) (hslot : slot < 64) (hoff : off + n ≤ 256) :
    (s.writeNat 0 (reqKey die slot + off) n v).tags = s.tags := by
  unfold State.writeNat
  induction n generalizing s off v with
  | zero => rfl
  | succ n ih =>
    have h := ih (s := putByte s 0 (reqKey die slot + off) (BitVec.ofNat 8 v)) (off := off + 1) (v / 256) (by omega)
    rw [← Nat.add_assoc] at h
    rw [leBytes, State.writeBytes]
    refine h.trans ?_
    rw [putByte_reqKey s 0 _ hslot (by omega), State.setByte]

theorem keyHanded_eq (s : State) (hslot : slot < 64) : keyHanded s die slot i =
    { rekeyed s i (1, s.reqF die slot 8 1) with mem := (keyHanded s die slot i).mem } := by
  have h : OnlyMemory (rekeyed s i (1, s.reqF die slot 8 1)) (keyHanded s die slot i) := by
    unfold keyHanded State.writeNat
    exact onlyMemory_writeBytes ..
  have htags : (keyHanded s die slot i).tags = (rekeyed s i (1, s.reqF die slot 8 1)).tags := by
    unfold keyHanded
    exact tags_writeNat_reqKey _ i hslot (by omega)
  rw [OnlyMemory, htags] at h
  exact h

theorem readNat_keyHanded (hslot : slot < 64) (hi : i < 4096) :
    (keyHanded s die slot i).readNat 0 (reqKey die slot + 16) 2 = i := by
  generalize hm : rekeyed s i (1, s.reqF die slot 8 1) = m
  have hb : ∀ j, j < 2 → (keyHanded s die slot i).readByte 0 (reqKey die slot + 16 + j) =
      (leBytes 2 i).getD j 0 := fun j hj => by
    have h : keyHanded s die slot i = (m.setByte (reqKey die slot + 16) (BitVec.ofNat 8 i)).setByte
        (reqKey die slot + 17) (BitVec.ofNat 8 (i / 256)) := by
      rw [← putByte_reqKey m 0 _ hslot (by omega), ← putByte_reqKey _ 0 _ hslot (by omega), ← hm]
      rfl
    rw [Nat.add_assoc, readByte_reqKey _ 0 hslot (by omega), h, byte_setByte, byte_setByte]
    obtain rfl | rfl : j = 0 ∨ j = 1 := by omega
    · rw [if_neg (by omega), if_pos rfl]
      rfl
    · rw [if_pos rfl]
      rfl
  rw [State.readNat, readBytes_eq_map, List.map_congr_left fun j hj => hb j (List.mem_range.mp hj)]
  calc leNat ((List.range 2).map fun j => (leBytes 2 i).getD j 0) = leNat (leBytes 2 i) := rfl
    _ = i := by rw [leNat_leBytes, Nat.mod_eq_of_lt (by omega)]

variable {named : List (Nat × Nat)}

theorem exec_mkeyNew (h : Asked s die slot 1 [(8, 1), (16, 2)]) :
    exec (.mkeyNew die slot) s = .next (s.mkeyNew die slot) := by
  change execMkeyNew die slot s = _
  unfold execMkeyNew
  rw [alidade_asked h (by omega)]

theorem mkeyNew_world (hw : ¬ ((s.die die).latched = true ∧ (s.die die).world.toNat = s.reqF die slot 8 1)) :
    s.mkeyNew die slot = s.reqEnd die slot 6 := by
  rw [mkeyNew_def, if_pos (wrongWorld_iff.mpr hw), sWorld]

theorem scrubWaits_iff : s.scrubs.any (fun r => r.die == die && r.slot == 64) = true ↔
    ∃ r ∈ s.scrubs, r.die = die ∧ r.slot = 64 := by
  simp

variable (hw : (s.die die).latched = true ∧ (s.die die).world.toNat = s.reqF die slot 8 1)
include hw

theorem mkeyNew_scrub (h : ∃ r ∈ s.scrubs, r.die = die ∧ r.slot = 64) : s.mkeyNew die slot = s.reqEnd die slot 3 := by
  rw [mkeyNew_def, if_neg (not_wrongWorld hw), if_pos (scrubWaits_iff.mpr h), sBusy]

theorem mkeyNew_full (h : ∀ j, 1 ≤ j → j < 4096 → tabFind s.mkeys j ≠ none) :
    s.mkeyNew die slot = s.reqEnd die slot 3 := by
  rw [mkeyNew_def, if_neg (not_wrongWorld hw), lowestIndex_none h]
  exact ite_self _

theorem mkeyNew_free (hscrub : ¬ ∃ r ∈ s.scrubs, r.die = die ∧ r.slot = 64)
    (h : (List.range 4096).find? (freeIndex s) = some i) :
    s.mkeyNew die slot = (keyHanded s die slot i).reqEnd die slot 1 := by
  rw [mkeyNew_def, if_neg (not_wrongWorld hw), if_neg (fun hh => hscrub (scrubWaits_iff.mp hh)), h, sDone]

end MemoryKeys

/-- MKEY_NEW (R391). -/
theorem mkeyNew_spec {s : State} {die slot : Nat} (h : Asked s die slot 1 [(8, 1), (16, 2)]) :
    let req := fun off n => s.reqF die slot off n
    let world := (s.die die).latched = true ∧ (s.die die).world.toNat = req 8 1
    let waits := ∃ r ∈ s.scrubs, r.die = die ∧ r.slot = 64
    let ends := fun st => ∃ (t : State), exec (.mkeyNew die slot) s = .next t ∧ Answered s t die slot st
    (¬ world → ends 6) ∧ (world → waits → ends 3) ∧
    (world → (∀ j, 1 ≤ j → j < 4096 → tabFind s.mkeys j ≠ none) → ends 3) ∧
    ∀ i, world → ¬ waits → 1 ≤ i → i < 4096 → tabFind s.mkeys i = none →
      (∀ j, 1 ≤ j → j < i → tabFind s.mkeys j ≠ none) →
      ∃ (b t : State), exec (.mkeyNew die slot) s = .next t ∧ Answered b t die slot 1 ∧
        (∀ j, tabFind b.mkeys j = if j = i then some (1, req 8 1) else tabFind s.mkeys j) ∧
        Unreadable s b i ∧
        b.readNat 0 (reqKey die slot + 16) 2 = i ∧
        b = { s with mkeys := b.mkeys, tags := b.tags, mem := b.mem, nextId := s.nextId + 1 } := by
  intro req world waits ends
  have hslot := h.2.1
  have hexec := exec_mkeyNew h
  refine ⟨fun hw => ?_, fun hw hs => ?_, fun hw hall => ?_, fun i hw hs hpos hlt hfree hlow => ?_⟩
  · exact next_answered hslot (hexec.trans (congrArg _ (mkeyNew_world hw)))
  · exact next_answered hslot (hexec.trans (congrArg _ (mkeyNew_scrub hw hs)))
  · exact next_answered hslot (hexec.trans (congrArg _ (mkeyNew_full hw hall)))
  · have hnew := mkeyNew_free hw hs (lowestIndex_some hpos hlt hfree hlow)
    have hb := keyHanded_eq (die := die) (i := i) s hslot
    refine ⟨keyHanded s die slot i, _, hexec, by rw [hnew]; exact answered_reqEnd _ 1 hslot, fun j => ?_, fun g => ?_,
      readNat_keyHanded hslot hlt, by rw [hb]; rfl⟩
    · rw [(congrArg State.mkeys hb :)]
      exact tabFind_tabPut ..
    · rw [(congrArg State.tags hb :)]
      exact unreadable_rekeyed s i (1, req 8 1) g

/-- MKEY_KILL (R391). -/
theorem mkeyKill_spec {s : State} {die slot : Nat} (h : Asked s die slot 2 [(8, 2)]) :
    let i := s.reqF die slot 8 2
    (i = 0 ∨ 4096 ≤ i → ∃ (t : State), exec (.mkeyKill die slot) s = .next t ∧ Answered s t die slot 2) ∧
    (0 < i → i < 4096 → ∃ (b t : State), exec (.mkeyKill die slot) s = .next t ∧ Answered b t die slot 1 ∧
      (∀ a w, isHbm a = true → b.refused i a w = true) ∧
      (∀ j, tabFind b.mkeys j = if j = i then some (2, (tabGet (0, 0) s.mkeys i).2) else tabFind s.mkeys j) ∧
      Unreadable s b i ∧ b = { s with mkeys := b.mkeys, tags := b.tags, nextId := s.nextId + 1 }) := by
  intro i
  have hslot := h.2.1
  have hexec : exec (.mkeyKill die slot) s = .next (if i = 0 ∨ 4096 ≤ i then s.reqEnd die slot sBadreq
      else (s.killKey i).reqEnd die slot sDone) := by
    change execMkeyKill die slot s = _
    unfold execMkeyKill
    rw [alidade_asked h (by omega)]
  refine ⟨fun hbad => ?_, fun hpos hlt => ?_⟩
  · exact next_answered hslot (hexec.trans (congrArg _ (if_pos hbad)))
  · refine ⟨s.killKey i, _, hexec.trans (congrArg _ (if_neg (by omega))), answered_reqEnd _ 1 hslot, fun a w ha => ?_,
      fun j => tabFind_tabPut .., unreadable_rekeyed s i _, rfl⟩
    exact refused_of_dead (by rw [killKey_eq]; exact congrArg Prod.fst (tabGet_tabPut ..|>.trans (if_pos rfl))) ha w

end Sys2Proof.Proofs

/-! Key slots and grants (R394 to R397). -/

namespace Sys2Proof.Proofs

open Sys2Proof.Machine Sys2Proof.Laws

/-- A blob that the agent may read is opened. -/
theorem slotLoad_opens {s : State} {die slot : Nat} (hn : s.reqF die slot 8 2 < 1024)
    (hst : s.ctxState (s.reqF die slot 4 2 % 4096) = 1)
    (hw : (s.die die).latched = true ∧ (s.die die).world.toNat = s.worldOf (s.reqF die slot 4 2 % 4096))
    (hfree : tabFind (s.die die).slots (s.reqF die slot 8 2) = none)
    (hsees : s.agentSees die (s.reqF die slot 16 8) 320 false = true) : s.slotLoad die slot =
      match s.openBlob die (s.readBytes 0 (gpaKey (s.reqF die slot 16 8)) 320) (s.reqF die slot 4 2 % 4096) with
      | .error c => s.reqEnd die slot c
      | .ok k => (s.modDie die fun d => { d with slots := tabPut d.slots (s.reqF die slot 8 2) k }).reqEnd die slot
          sDone := by
  rw [State.slotLoad, State.reqCtx, if_neg (fun h => h.elim (Nat.not_le.mpr hn) (absurd hst)), if_neg (not_wrongWorld hw), hfree, hsees,
    Option.isSome_none, if_neg Bool.false_ne_true]
  generalize s.openBlob die (s.readBytes 0 (gpaKey (s.reqF die slot 16 8)) 320) (s.reqF die slot 4 2 % 4096) = r
  cases r <;> rfl

/-- SLOT_LOAD (R394, R395). -/
theorem slotLoad_spec {s : State} {die slot : Nat} (h : Asked s die slot 3 [(8, 2), (16, 8)]) :
    let d := s.die die
    let req := fun off n => s.reqF die slot off n
    let ctx := req 4 2 % 4096
    let world := d.latched = true ∧ d.world.toNat = s.worldOf ctx
    let n := req 8 2
    let ends := fun b st => ∃ (t : State), exec (.slotLoad die slot) s = .next t ∧ Answered b t die slot st
    (1024 ≤ n ∨ s.ctxState ctx ≠ 1 → ends s 2) ∧
    (n < 1024 → s.ctxState ctx = 1 → ¬ world → ends s 6) ∧
    (n < 1024 → s.ctxState ctx = 1 → world → tabFind d.slots n ≠ none → ends s 3) ∧
    (n < 1024 → s.ctxState ctx = 1 → world → tabFind d.slots n = none →
      s.agentSees die (req 16 8) 320 false = false → ends s 2) ∧
    (n < 1024 → s.ctxState ctx = 1 → world → tabFind d.slots n = none →
      s.agentSees die (req 16 8) 320 false = true →
      ∀ r, s.openBlob die (s.readBytes 0 (gpaKey (req 16 8)) 320) ctx = r →
        (∀ c, r = .error c → ends s c) ∧
        ∀ k, r = .ok k → ends { s with dies := tabPut s.dies die { d with slots := tabPut d.slots n k } } 1) := by
  dsimp only
  have hexec : exec (.slotLoad die slot) s = .next (s.slotLoad die slot) := by
    change execSlotLoad die slot s = _
    unfold execSlotLoad
    rw [alidade_asked h (by omega)]
  have hends : ∀ b st, s.slotLoad die slot = b.reqEnd die slot st →
      ∃ (t : State), exec (.slotLoad die slot) s = .next t ∧ Answered b t die slot st := fun b st hb =>
    next_answered h.2.1 (hexec.trans (congrArg _ hb))
  have hvalid : s.reqF die slot 8 2 < 1024 → s.ctxState (s.reqF die slot 4 2 % 4096) = 1 →
      ¬ (1024 ≤ s.reqF die slot 8 2 ∨ s.ctxState (s.reqF die slot 4 2 % 4096) ≠ 1) := fun hn hst hbad =>
    hbad.elim (Nat.not_le.mpr hn) (absurd hst)
  refine ⟨fun hbad => hends _ _ ?_, fun hn hst hw => hends _ _ ?_, fun hn hst hw hbusy => hends _ _ ?_,
    fun hn hst hw hfree hsees => hends _ _ ?_, fun hn hst hw hfree hsees r hr => ?_⟩
  · rw [State.slotLoad]
    exact if_pos hbad
  · rw [State.slotLoad]
    exact (if_neg (hvalid hn hst)).trans (if_pos (wrongWorld_iff.mpr hw))
  · rw [State.slotLoad]
    exact (if_neg (hvalid hn hst)).trans ((if_neg (not_wrongWorld hw)).trans
      (if_pos (Option.isSome_iff_ne_none.mpr hbusy)))
  · rw [State.slotLoad, State.reqCtx, if_neg (hvalid hn hst), if_neg (not_wrongWorld hw), hfree, hsees,
      Option.isSome_none, if_neg Bool.false_ne_true, Bool.not_false, if_pos rfl, sBadreq]
  · have hopen := slotLoad_opens hn hst hw hfree hsees
    rw [hr] at hopen
    refine ⟨fun c hc => hends s c ?_, fun k hk =>
      hends (s.modDie die fun d => { d with slots := tabPut d.slots (s.reqF die slot 8 2) k }) 1 ?_⟩
    · rw [hopen, hc]
    · rw [hopen, hk, sDone]

/-- The test of GRANT_SET is that the grant stands outside the slot's policy. -/
theorem outsidePolicy_iff {p q : Prop} {a b c d : Nat} :
    (¬ p ∨ ¬ q ∨ (!(decide (a ≤ b) && decide (b ≤ c) && decide (c ≤ d))) = true) ↔
      ¬ (p ∧ q ∧ a ≤ b ∧ b ≤ c ∧ c ≤ d) := by
  simp only [Bool.not_eq_true', Bool.and_eq_false_iff, decide_eq_false_iff_not]
  tauto

/-- GRANT_SET (R396). -/
theorem grantSet_spec {s : State} {die slot : Nat}
    (h : Asked s die slot 5 [(8, 2), (10, 2), (16, 4), (20, 4), (24, 48)]) :
    let d := s.die die
    let req := fun off n => s.reqF die slot off n
    let ctx := req 4 2 % 4096
    let world := d.latched = true ∧ d.world.toNat = s.worldOf ctx
    let meas := BitVec.ofNat 384 (req 24 48)
    let ends := fun b st => ∃ (t : State), exec (.grantSet die slot) s = .next t ∧ Answered b t die slot st
    let valid := req 8 2 < 4096 ∧ req 10 2 < 1024
    (¬ valid → ends s 2) ∧ (valid → ¬ world → ends s 6) ∧
    (valid → world → tabFind d.grants (req 8 2) ≠ none → ends s 3) ∧
    (valid → world → tabFind d.grants (req 8 2) = none → tabFind d.slots (req 10 2) = none → ends s 4) ∧
    ∀ k, valid → world → tabFind d.grants (req 8 2) = none → tabFind d.slots (req 10 2) = some k →
      let fits := k.owner = ctx ∧ meas = k.meas ∧ k.tlo ≤ req 16 4 ∧ req 16 4 ≤ req 20 4 ∧ req 20 4 ≤ k.thi
      (¬ fits → ends s 4) ∧
      (fits → ends { s with dies := tabPut s.dies die { d with
        grants := tabPut d.grants (req 8 2) ⟨ctx, req 10 2, req 16 4, req 20 4, meas⟩ } } 1) := by
  intro d req ctx world meas ends valid
  have hexec : exec (.grantSet die slot) s = .next (s.grantSet die slot) := by
    change execGrantSet die slot s = _
    unfold execGrantSet
    rw [alidade_asked h (by omega)]
  have hends : ∀ b st, s.grantSet die slot = b.reqEnd die slot st → ends b st := fun b st hb =>
    next_answered h.2.1 (hexec.trans (congrArg _ hb))
  have hvalid : valid → ¬ (4096 ≤ req 8 2 ∨ 1024 ≤ req 10 2) := fun hv hbad =>
    hbad.elim (Nat.not_le.mpr hv.1) (Nat.not_le.mpr hv.2)
  have hfound : valid → world → tabFind d.grants (req 8 2) = none → s.grantSet die slot =
      match tabFind d.slots (req 10 2) with
      | none => s.reqEnd die slot sPolicy
      | some k => if k.owner ≠ ctx ∨ meas ≠ k.meas ∨ !(decide (k.tlo ≤ req 16 4) && decide (req 16 4 ≤ req 20 4) &&
          decide (req 20 4 ≤ k.thi)) then s.reqEnd die slot sPolicy
        else (s.modDie die fun d => { d with
          grants := tabPut d.grants (req 8 2) ⟨ctx, req 10 2, req 16 4, req 20 4, meas⟩ }).reqEnd die slot sDone := by
    intro hv hw hfree
    rw [State.grantSet]
    exact (if_neg (hvalid hv)).trans ((if_neg (not_wrongWorld hw)).trans
      (if_neg (Option.isSome_iff_ne_none.not.mpr (not_not.mpr hfree))))
  refine ⟨fun hv => hends _ _ ?_, fun hv hw => hends _ _ ?_, fun hv hw hbusy => hends _ _ ?_,
    fun hv hw hfree hnone => hends _ _ ?_, fun k hv hw hfree hsome => ?_⟩
  · rw [State.grantSet]
    exact if_pos (by simp only [valid] at hv; change 4096 ≤ req 8 2 ∨ 1024 ≤ req 10 2; omega)
  · rw [State.grantSet]
    exact (if_neg (hvalid hv)).trans (if_pos (wrongWorld_iff.mpr hw))
  · rw [State.grantSet]
    exact (if_neg (hvalid hv)).trans ((if_neg (not_wrongWorld hw)).trans
      (if_pos (Option.isSome_iff_ne_none.mpr hbusy)))
  · rw [hfound hv hw hfree, hnone]
    rfl
  · have hk := hfound hv hw hfree
    rw [hsome] at hk
    exact ⟨fun hfits => hends _ _ (hk.trans (if_pos (outsidePolicy_iff.mpr hfits))), fun hfits =>
      hends _ _ (hk.trans (if_neg fun hbad => outsidePolicy_iff.mp hbad hfits))⟩

end Sys2Proof.Proofs

/-! Grants and slots taken away (R397), and the settling of the requests for keys, slots and grants. -/

namespace Sys2Proof.Proofs

open Sys2Proof.Machine Sys2Proof.Laws

section Clear
variable {s : State} {die : Nat} {p : Nat → Grant → Bool}

/-- Was a buffer filled under a grant that a table no longer holds? -/
def staleUnder (grants : Tab Grant) (b : PhysBuf) : Bool :=
  match b.grant with
  | some g => (tabFind grants g).isNone
  | none => false

theorem staleUnder_some {grants : Tab Grant} {b : PhysBuf} {g : Nat} (h : b.grant = some g) :
    staleUnder grants b = (tabFind grants g).isNone := by
  rw [staleUnder, h]

/-- A core without the stale buffers that no command holds. -/
def sweptCore (grants : Tab Grant) (k : Core) : Core :=
  { k with bufs := k.bufs.filter fun b => !staleUnder grants b.2 || k.busyBufs.contains b.1 }

/-- The grants of a die that a clearing leaves. -/
def grantsLeft (s : State) (die : Nat) (p : Nat → Grant → Bool) : Tab Grant :=
  (s.die die).grants.filter fun g => !p g.1 g.2

theorem clearGrants_def (s : State) (die : Nat) (p : Nat → Grant → Bool) : s.clearGrants die p =
    { s.modDie die (fun d => { d with grants := d.grants.filter fun g => !p g.1 g.2 }) with
      cores := s.cores.map fun k => if dieOf k.1 = die then
        (k.1, sweptCore ((s.modDie die fun d => { d with
          grants := d.grants.filter fun g => !p g.1 g.2 }).die die).grants k.2) else k } := rfl

theorem die_clearGrants (j : Nat) : (s.clearGrants die p).die j =
    if j = die then { s.die die with grants := grantsLeft s die p } else s.die j :=
  die_modDie s die (fun d => { d with grants := d.grants.filter fun g => !p g.1 g.2 }) j

theorem grants_clearGrants : ((s.clearGrants die p).die die).grants = grantsLeft s die p := by
  rw [die_clearGrants, if_pos rfl]

theorem clearGrants_frame : s.clearGrants die p =
    { s with dies := (s.clearGrants die p).dies, cores := (s.clearGrants die p).cores } := rfl

theorem cores_clearGrants : (s.clearGrants die p).cores = s.cores.map fun e =>
    (e.1, if dieOf e.1 = die then sweptCore (grantsLeft s die p) e.2 else e.2) := by
  rw [clearGrants_def, ← grants_clearGrants]
  exact List.map_congr_left fun e _ => by split_ifs <;> rfl

theorem core_clearGrants (c : Nat) : (s.clearGrants die p).core c =
    if dieOf c = die then sweptCore (grantsLeft s die p) (s.core c) else s.core c := by
  rw [State.core, cores_clearGrants]
  exact tabGet_map_keyed (fun q k => if dieOf q = die then sweptCore (grantsLeft s die p) k else k) s.cores c
    (by split_ifs <;> rfl)

theorem mem_bufs_clearGrants {c : Nat} {x : Nat × PhysBuf} (hx : x ∈ ((s.clearGrants die p).core c).bufs) :
    x ∈ (s.core c).bufs ∧ (dieOf c = die → ∀ g, x.2.grant = some g →
      tabFind ((s.clearGrants die p).die die).grants g ≠ none ∨ x.1 ∈ (s.core c).busyBufs) := by
  rw [grants_clearGrants]
  rw [core_clearGrants] at hx
  by_cases hc : dieOf c = die
  · rw [if_pos hc] at hx
    obtain ⟨hmem, hkept⟩ := List.mem_filter.mp hx
    refine ⟨hmem, fun _ g hg => ?_⟩
    rw [staleUnder_some hg, Bool.or_eq_true, List.contains_iff_mem, Bool.not_eq_true', Option.isNone_eq_false_iff] at hkept
    exact hkept.imp_left Option.isSome_iff_ne_none.mp
  · rw [if_neg hc] at hx
    exact ⟨hx, fun h => absurd h hc⟩

/-- Where no core holds a buffer, none is stale. -/
theorem staleBufs_of_empty (h : ∀ x ∈ s.cores, x.2.bufs = []) : (s.clearGrants die p).staleBufs die = false := by
  have hbufs : ∀ k ∈ (s.clearGrants die p).cores, k.2.bufs = [] := by
    rw [cores_clearGrants]
    intro k hk
    obtain ⟨e, he, rfl⟩ := List.mem_map.mp hk
    dsimp only
    split_ifs
    · rw [sweptCore, h e he, List.filter_nil]
    · exact h e he
  refine List.any_eq_false.mpr fun k hk => ?_
  rw [hbufs k hk, List.any_nil, Bool.and_false]
  exact Bool.false_ne_true

end Clear

/-- What a clearing request does, its slots deleted or not as its buffers are gone. -/
theorem clearing_spec {s : State} {die slot : Nat} {i : Instr} {p keep : Nat → Grant → Bool} {left : Tab KeySlot}
    {e : State} (hslot : slot < 64) (hkeep : ∀ g x, keep g x = !p g x)
    (he : e = { s.clearGrants die p with dies := e.dies })
    (hdie : e.die die = { (s.clearGrants die p).die die with slots := left })
    (hexec : exec i s = .next (if (s.clearGrants die p).staleBufs die then s.clearGrants die p
      else e.reqEnd die slot sDone)) :
    ∃ (b t : State), exec i s = .next t ∧ b = { s with dies := b.dies, cores := b.cores } ∧
      (b.die die).grants = (s.die die).grants.filter (fun g => keep g.1 g.2) ∧ (∀ j, j ≠ die → b.die j = s.die j) ∧
      (∀ c, b.core c = { s.core c with bufs := (b.core c).bufs } ∧ (dieOf c ≠ die → b.core c = s.core c) ∧
        ∀ x ∈ (b.core c).bufs, x ∈ (s.core c).bufs ∧ (dieOf c = die → ∀ g, x.2.grant = some g →
          tabFind (b.die die).grants g ≠ none ∨ x.1 ∈ (s.core c).busyBufs)) ∧
      (b.staleBufs die = true → t = b) ∧
      (b.staleBufs die = false → ∃ e, Answered e t die slot 1 ∧ e = { b with dies := e.dies } ∧
        e.die die = { b.die die with slots := left }) ∧
      ((∀ x ∈ s.cores, x.2.bufs = []) → b.staleBufs die = false) := by
  refine ⟨s.clearGrants die p, _, hexec, clearGrants_frame, ?_, fun j hj => ?_, fun c => ⟨?_, fun hc => ?_, fun x hx =>
    mem_bufs_clearGrants hx⟩, fun h => if_pos h, fun h => ⟨e, ?_, he, hdie⟩, staleBufs_of_empty⟩
  · rw [grants_clearGrants, grantsLeft]
    exact List.filter_congr fun g _ => (hkeep g.1 g.2).symm
  · rw [die_clearGrants, if_neg hj]
  · rw [core_clearGrants]
    split_ifs <;> rfl
  · rw [core_clearGrants, if_neg hc]
  · rw [if_neg (Bool.eq_false_iff.mp h)]
    exact answered_reqEnd e 1 hslot

theorem exec_slotClear {s : State} {die slot : Nat} (h : Asked s die slot 4 [(8, 2)])
    (hn : s.reqF die slot 8 2 < 1024) : exec (.slotClear die slot) s =
      let b := s.clearGrants die fun _ g => g.slot == s.reqF die slot 8 2
      .next (if b.staleBufs die then b
        else (b.modDie die fun d => { d with slots := tabDel d.slots (s.reqF die slot 8 2) }).reqEnd die slot sDone) := by
  change execSlotClear die slot s = _
  unfold execSlotClear
  rw [alidade_asked h (by omega), if_neg (Nat.not_le.mpr hn)]

theorem exec_grantClear {s : State} {die slot : Nat} (h : Asked s die slot 6 [(8, 2)])
    (hn : s.reqF die slot 8 2 < 4096) : exec (.grantClear die slot) s =
      let b := s.clearGrants die fun g _ => g == s.reqF die slot 8 2
      .next (if b.staleBufs die then b else b.reqEnd die slot sDone) := by
  change execGrantClear die slot s = _
  unfold execGrantClear
  rw [alidade_asked h (by omega), if_neg (Nat.not_le.mpr hn)]

/-- Settles O55: MKEY_NEW and MKEY_KILL seal off what was written under an index by renaming its tags; the other
requests change the slots and grants of their die, and each is answered in its ring, where no memory key counts. -/
theorem keys : Obligations.keys := by
  unfold Obligations.keys
  refine ⟨fun s die slot => ⟨mkeyNew_spec, mkeyKill_spec⟩, fun s die slot => ⟨fun h => ?_, grantSet_spec, ?_⟩⟩
  · obtain ⟨hbad, hworld, hbusy, hdenied, hblob⟩ := slotLoad_spec h
    refine ⟨hbad, hworld, hbusy, hdenied, ?_⟩
    generalize hr : s.openBlob die _ _ = r
    intro hn hst hw hfree hsees
    obtain ⟨herror, hok⟩ := hblob hn hst hw hfree hsees r hr
    cases r
    case error c => exact herror c rfl
    case ok k => exact hok k rfl
  · rintro i keep (⟨h, rfl, hkeep, hn⟩ | ⟨h, rfl, hkeep, hn⟩)
    · refine clearing_spec h.2.1 hkeep (modDie_frame ..) ?_ (exec_slotClear h hn)
      rw [die_modDie, if_pos rfl, if_pos rfl, die_clearGrants, if_pos rfl]
    · exact clearing_spec h.2.1 hkeep rfl (by
        rw [if_neg (by simp), die_clearGrants, if_pos rfl]) (exec_grantClear h hn)

end Sys2Proof.Proofs

/-! Claims and zeroed frames: what ACCEPT and RELEASE do to the frames of a list (R401, R402). -/

namespace Sys2Proof.Proofs

open Sys2Proof.Machine Sys2Proof.Laws

/-! ### Changes of memory and claims alone -/

/-- Nothing but memory, its tags, and the claims and handshakes of the dies has changed. -/
structure ClaimsOnly (s t : State) : Prop where
  frame : t = { s with mem := t.mem, tags := t.tags, dies := t.dies }
  die : ∀ d, t.die d = { s.die d with claims := (t.die d).claims, hsSeq := (t.die d).hsSeq }

namespace ClaimsOnly
variable {s t u : State}

theorem refl (s : State) : ClaimsOnly s s := ⟨rfl, fun _ => rfl⟩

theorem trans (h : ClaimsOnly s t) (h' : ClaimsOnly t u) : ClaimsOnly s u where
  frame := by
    have h1 := h.frame
    rw [h'.frame, h1]
  die d := by rw [h'.die d, h.die d]

theorem refused (h : ClaimsOnly s t) (mk k : Nat) (w : Bool) : t.refused mk k w = s.refused mk k w := by
  rw [h.frame]
  rfl

theorem installed (h : ClaimsOnly s t) (mk k : Nat) : t.installed mk k = s.installed mk k := by
  have hkeys : t.mkeys = s.mkeys := (congrArg State.mkeys h.frame :)
  have hworld : ∀ d, (t.die d).world = (s.die d).world := fun d => (congrArg Die.world (h.die d) :)
  have hlatched : ∀ d, (t.die d).latched = (s.die d).latched := fun d => (congrArg Die.latched (h.die d) :)
  simp only [State.installed, hkeys, hworld, hlatched]

theorem deviceByte (h : ClaimsOnly s t) (k : Nat) : t.deviceByte k = s.deviceByte k := by
  have hfair : ∀ d, (t.die d).fair = (s.die d).fair := fun d => (congrArg Die.fair (h.die d) :)
  have hlog : t.mclog = s.mclog := (congrArg State.mclog h.frame :)
  have hticks : t.ticks = s.ticks := (congrArg State.ticks h.frame :)
  have hclusters : t.clusters = s.clusters := (congrArg State.clusters h.frame :)
  simp only [State.deviceByte, State.cluster, hfair, hlog, hticks, hclusters]
  rfl

/-- A byte reads as before where it and its granule's tag are as before. -/
theorem readByte (h : ClaimsOnly s t) {a : Nat} (hbyte : t.byte a = s.byte a)
    (htag : tabGet 0 t.tags (a / 128) = tabGet 0 s.tags (a / 128)) (mk : Nat) :
    t.readByte mk a = s.readByte mk a := by
  have hticks : t.ticks = s.ticks := (congrArg State.ticks h.frame :)
  simp only [State.readByte, h.installed, h.deviceByte, hbyte, htag, hticks]

end ClaimsOnly

theorem OnlyMemory.claimsOnly {s t : State} (h : OnlyMemory s t) : ClaimsOnly s t := by
  rw [OnlyMemory] at h
  rw [h]
  exact ⟨rfl, fun _ => rfl⟩

/-- A change of one die's claims and handshakes. -/
theorem claimsOnly_modDie (s : State) (die : Nat) {f : Die → Die}
    (hf : f (s.die die) = { s.die die with claims := (f (s.die die)).claims, hsSeq := (f (s.die die)).hsSeq }) :
    ClaimsOnly s (s.modDie die f) where
  frame := modDie_frame ..
  die d := by
    rw [die_modDie]
    by_cases h : d = die
    · rw [if_pos h, h]
      exact hf
    · rw [if_neg h]

/-! ### Claims -/

section Claims
variable {s : State} {k : Nat} {v : Option Nat}

/-- The claims of a die after one is made or dropped. -/
def claimPut (claims : Tab Nat) (i : Nat) : Option Nat → Tab Nat
  | some x => tabPut claims i x
  | none => tabDel claims i

theorem tabFind_claimPut (claims : Tab Nat) (i j : Nat) (v : Option Nat) :
    tabFind (claimPut claims i v) j = if j = i then v else tabFind claims j := by
  cases v
  case none => exact tabFind_tabDel ..
  case some x => exact tabFind_tabPut ..

theorem setClaim_def (s : State) (k : Nat) (v : Option Nat) : s.setClaim k v = s.modDie (k / 2 ^ 46) fun d =>
    { d with claims := claimPut d.claims (frameIndex (k % 2 ^ 46)) v } := by
  cases v <;> rfl

theorem claimsOnly_setClaim : ClaimsOnly s (s.setClaim k v) := by
  rw [setClaim_def]
  exact claimsOnly_modDie s _ rfl

theorem claims_setClaim (d i : Nat) : tabFind ((s.setClaim k v).die d).claims i =
    if d = k / 2 ^ 46 ∧ i = frameIndex (k % 2 ^ 46) then v else tabFind (s.die d).claims i := by
  rw [setClaim_def, die_modDie]
  by_cases hd : d = k / 2 ^ 46
  · rw [if_pos hd, tabFind_claimPut, ← hd]
    exact if_congr (by simp) rfl rfl
  · rw [if_neg hd, if_neg fun h => hd h.1]

theorem claimOf_setClaim_self : (s.setClaim k v).claimOf k = v := by
  rw [State.claimOf, claims_setClaim, if_pos ⟨rfl, rfl⟩]

/-- A claim that has a value keeps it where another frame takes the same. -/
theorem claimOf_setClaim_keeps {j : Nat} (h : s.claimOf j = v) : (s.setClaim k v).claimOf j = v := by
  rw [State.claimOf, claims_setClaim]
  split_ifs
  · rfl
  · exact h

theorem claimOf_of_onlyMemory {t : State} (h : OnlyMemory s t) (j : Nat) : t.claimOf j = s.claimOf j := by
  rw [h]
  rfl

end Claims

/-! ### A frame zeroed -/

section Zero
variable {s : State} {mk k : Nat}

/-- The granules of a run given one tag. -/
theorem tabGet_tagRun (v base n g : Nat) (tags : Tab Nat) :
    tabGet 0 ((List.range n).foldl (fun t i => tabPut t (base + i) v) tags) g =
      if base ≤ g ∧ g < base + n then v else tabGet 0 tags g := by
  induction n with
  | zero => rw [if_neg (by omega)]; rfl
  | succ n ih =>
    rw [List.range_succ, List.foldl_append, List.foldl_cons, List.foldl_nil, tabGet_tabPut, ih]
    by_cases hg : g = base + n
    · rw [if_pos hg, if_pos (by omega)]
    · rw [if_neg hg]
      exact if_congr (by omega) rfl rfl

theorem onlyMemory_update (s : State) (mem : Tab (BitVec 8)) (tags : Tab Nat) :
    OnlyMemory s { s with mem := mem, tags := tags } := rfl

theorem onlyMemory_wipeFrame : OnlyMemory s (s.wipeFrame mk k) := by
  unfold State.wipeFrame State.zeroFrame
  split_ifs
  · exact .refl s
  · exact .refl s
  · exact onlyMemory_update ..

/-- A frame whose writes are admitted is zeroed. -/
theorem wipeFrame_admitted (hh : isHbm k = true) (hw : s.refused mk k true = false) : s.wipeFrame mk k = { s with
    mem := s.mem.filter fun c => decide (c.1 < k) || decide (k + 65536 ≤ c.1)
    tags := (List.range 512).foldl (fun t i => tabPut t (k / 128 + i) (mk + 1))
      (s.tags.filter fun t => decide (t.1 < k / 128) || decide (k / 128 + 512 ≤ t.1)) } := by
  have hlock : (s.lockOf k).isSome = false := by
    unfold State.refused at hw
    rw [hh] at hw
    simp only [Bool.true_and, Bool.or_eq_false_iff] at hw
    exact hw.2.1
  unfold State.wipeFrame State.zeroFrame
  rw [if_neg (Bool.eq_false_iff.mp hw), if_neg (Bool.eq_false_iff.mp hlock)]

theorem byte_wipeFrame (hh : isHbm k = true) (hw : s.refused mk k true = false) (a : Nat) :
    (s.wipeFrame mk k).byte a = if k ≤ a ∧ a < k + 65536 then 0 else s.byte a := by
  rw [State.byte, State.byte, wipeFrame_admitted hh hw]
  dsimp only
  rw [tabGet_filter_key memDefault (fun a => decide (a < k) || decide (k + 65536 ≤ a))]
  by_cases ha : k ≤ a ∧ a < k + 65536
  · rw [if_pos ha, if_neg (by simp; omega)]
    rfl
  · rw [if_neg ha, if_pos (by simp; omega)]

theorem tag_wipeFrame (hh : isHbm k = true) (hw : s.refused mk k true = false) (g : Nat) :
    tabGet 0 (s.wipeFrame mk k).tags g =
      if k / 128 ≤ g ∧ g < k / 128 + 512 then mk + 1 else tabGet 0 s.tags g := by
  rw [wipeFrame_admitted hh hw]
  dsimp only
  rw [tabGet_tagRun]
  split_ifs with hg
  · rfl
  · refine (tabGet_filter_key 0 (fun g => decide (g < k / 128) || decide (k / 128 + 512 ≤ g)) s.tags g).trans
      (if_pos ?_)
    simp only [Bool.or_eq_true, decide_eq_true_eq]
    omega

end Zero

/-! ### The frames of a list -/

section Frames
variable {s : State} {mk : Nat} {v : Option Nat}

/-- The frames of a list zeroed one after another, and their claims set. -/
def framesTaken (s : State) (mk : Nat) (v : Option Nat) (ks : List Nat) : State :=
  ks.foldl (fun s k => (s.wipeFrame mk k).setClaim k v) s

/-- Does a byte lie in a frame of a list? -/
def InFrames (ks : List Nat) (a : Nat) : Prop := ∃ k ∈ ks, k ≤ a ∧ a < k + 65536

/-- A frame of HBM, as a page table names it. -/
def FrameKey (k : Nat) : Prop := k % 65536 = 0 ∧ isHbm k = true

/-- What the frames of a list have become. -/
structure Taken (s t : State) (mk : Nat) (v : Option Nat) (ks : List Nat) : Prop where
  only : ClaimsOnly s t
  zero : ∀ a, InFrames ks a → t.byte a = 0 ∧ tabGet 0 t.tags (a / 128) = mk + 1
  same : ∀ a, ¬ InFrames ks a → t.byte a = s.byte a ∧ tabGet 0 t.tags (a / 128) = tabGet 0 s.tags (a / 128)
  claimed : ∀ k ∈ ks, t.claimOf k = v
  kept : ∀ k, s.claimOf k = v → t.claimOf k = v

/-- One frame. -/
theorem taken_one {k : Nat} (hk : FrameKey k) (hw : s.refused mk k true = false) :
    Taken s ((s.wipeFrame mk k).setClaim k v) mk v [k] := by
  obtain ⟨halign, hh⟩ := hk
  have honly : ClaimsOnly (s.wipeFrame mk k) ((s.wipeFrame mk k).setClaim k v) := claimsOnly_setClaim
  have hmem : ((s.wipeFrame mk k).setClaim k v).mem = (s.wipeFrame mk k).mem := by rw [setClaim_def]; rfl
  have htags : ((s.wipeFrame mk k).setClaim k v).tags = (s.wipeFrame mk k).tags := by rw [setClaim_def]; rfl
  have hbyte : ∀ a, ((s.wipeFrame mk k).setClaim k v).byte a = if k ≤ a ∧ a < k + 65536 then 0 else s.byte a :=
    fun a => by rw [State.byte, hmem]; exact byte_wipeFrame hh hw a
  refine ⟨onlyMemory_wipeFrame.claimsOnly.trans honly, fun a ha => ?_, fun a ha => ?_, fun j hj => ?_, fun j hj => ?_⟩
  · obtain ⟨j, hj, h1, h2⟩ := ha
    rw [List.mem_singleton.mp hj] at h1 h2
    rw [hbyte, if_pos ⟨h1, h2⟩, htags, tag_wipeFrame hh hw, if_pos (by omega)]
    exact ⟨rfl, rfl⟩
  · have hout : ¬ (k ≤ a ∧ a < k + 65536) := fun h => ha ⟨k, List.mem_singleton_self k, h⟩
    rw [hbyte, if_neg hout, htags, tag_wipeFrame hh hw, if_neg (by omega)]
    exact ⟨rfl, rfl⟩
  · rw [List.mem_singleton.mp hj]
    exact claimOf_setClaim_self
  · exact claimOf_setClaim_keeps ((claimOf_of_onlyMemory onlyMemory_wipeFrame j).trans hj)

theorem Taken.trans {t u : State} {ks ls : List Nat} (h : Taken s t mk v ks) (h' : Taken t u mk v ls) :
    Taken s u mk v (ks ++ ls) where
  only := h.only.trans h'.only
  zero a ha := by
    by_cases hl : InFrames ls a
    · exact h'.zero a hl
    · obtain ⟨k, hk, hin⟩ := ha
      obtain ⟨hb, ht⟩ := h'.same a hl
      rw [hb, ht]
      exact h.zero a ((List.mem_append.mp hk).elim (fun hk => ⟨k, hk, hin⟩) fun hk => absurd ⟨k, hk, hin⟩ hl)
  same a ha := by
    obtain ⟨hb, ht⟩ := h'.same a fun ⟨k, hk, hin⟩ => ha ⟨k, List.mem_append_right _ hk, hin⟩
    rw [hb, ht]
    exact h.same a fun ⟨k, hk, hin⟩ => ha ⟨k, List.mem_append_left _ hk, hin⟩
  claimed k hk := (List.mem_append.mp hk).elim (fun hk => h'.kept k (h.claimed k hk)) (h'.claimed k)
  kept k hk := h'.kept k (h.kept k hk)

theorem taken_framesTaken (ks : List Nat) (s : State) (hk : ∀ k ∈ ks, FrameKey k)
    (hw : ∀ k ∈ ks, s.refused mk k true = false) : Taken s (framesTaken s mk v ks) mk v ks := by
  induction ks generalizing s with
  | nil => exact ⟨.refl s, fun a ⟨_, h, _⟩ => absurd h List.not_mem_nil, fun _ _ => ⟨rfl, rfl⟩,
      fun _ h => absurd h List.not_mem_nil, fun _ h => h⟩
  | cons k ks ih =>
    have hone : Taken s ((s.wipeFrame mk k).setClaim k v) mk v [k] :=
      taken_one (hk k List.mem_cons_self) (hw k List.mem_cons_self)
    exact hone.trans (ih _ (fun j hj => hk j (List.mem_cons_of_mem _ hj)) fun j hj =>
      (hone.only.refused mk j true).trans (hw j (List.mem_cons_of_mem _ hj)))

end Frames

end Sys2Proof.Proofs

/-! ATTEST, and the handshakes of ACCEPT and RELEASE (R399 to R402). -/

namespace Sys2Proof.Proofs

open Sys2Proof.Machine Sys2Proof.Laws

/-! ### Frames that a page table names -/

section Pages
variable {s : State} {die ctx va k : Nat}

theorem frameKey_ownFrame {gpa : Nat} (h : s.ownFrame gpa = some k) : FrameKey k := by
  unfold State.ownFrame at h
  split_ifs at h with hown
  simp only [Bool.and_eq_true, beq_iff_eq] at hown
  obtain ⟨⟨-, hback⟩, halign⟩ := hown
  rw [← Option.some.inj h]
  unfold backed at hback
  simp only [Bool.and_eq_true, decide_eq_true_eq] at hback
  unfold FrameKey gpaKey
  rw [isHbm_iff]
  omega

theorem frameKey_pageOf {leaf : BitVec 64} (h : s.pageOf die ctx va = some (k, leaf)) : FrameKey k := by
  unfold State.pageOf at h
  split at h
  · cases h
  · obtain ⟨j, hj, hpair⟩ := Option.map_eq_some_iff.mp h
    obtain rfl : j = k := congrArg Prod.fst hpair
    exact frameKey_ownFrame hj

theorem frameKey_acceptable (h : s.acceptable die ctx va = some k) : FrameKey k := by
  unfold State.acceptable at h
  split_ifs at h
  split at h
  · cases h
  · next j leaf hpage =>
    split_ifs at h
    rw [← Option.some.inj h]
    exact frameKey_pageOf hpage

theorem frameKey_claimedFrame (h : s.claimedFrame die ctx va = some k) : FrameKey k := by
  unfold State.claimedFrame at h
  split_ifs at h
  obtain ⟨⟨j, leaf⟩, hpage, hclaim⟩ := Option.bind_eq_some_iff.mp h
  dsimp only at hclaim
  split_ifs at hclaim
  rw [← Option.some.inj hclaim]
  exact frameKey_pageOf hpage

theorem frameKey_claimedPage (h : s.claimedPage die ctx va = some k) : FrameKey k := by
  obtain ⟨j, hj, hk⟩ := Option.bind_eq_some_iff.mp h
  split_ifs at hk
  rw [← Option.some.inj hk]
  exact frameKey_claimedFrame hj

theorem frameKey_claimedHs (h : s.claimedHs die ctx va = some k) : FrameKey k := by
  obtain ⟨j, hj, hk⟩ := Option.bind_eq_some_iff.mp h
  split_ifs at hk
  rw [← Option.some.inj hk]
  exact frameKey_claimedFrame hj

end Pages

/-! ### Lists mapped to options -/

section MapM
variable {α β : Type} {f : α → Option β}

theorem mapM_none_of_mem {l : List α} (h : ∃ x ∈ l, f x = none) : l.mapM f = none := by
  induction l with
  | nil => exact absurd h.choose_spec.1 List.not_mem_nil
  | cons a l ih =>
    obtain ⟨x, hx, hnone⟩ := h
    rw [List.mapM_cons]
    rcases List.mem_cons.mp hx with rfl | hl
    · rw [hnone]
      rfl
    · rw [ih ⟨x, hl, hnone⟩]
      cases f a <;> rfl

theorem exists_of_mem_mapM {l : List α} {r : List β} (h : l.mapM f = some r) : ∀ y ∈ r, ∃ x, f x = some y := by
  induction l generalizing r with
  | nil =>
    rw [List.mapM_nil] at h
    cases h
    exact fun y hy => absurd hy List.not_mem_nil
  | cons a l ih =>
    rw [List.mapM_cons] at h
    obtain ⟨y, hy, h⟩ := Option.bind_eq_some_iff.mp h
    obtain ⟨ys, hys, h⟩ := Option.bind_eq_some_iff.mp h
    cases h
    intro z hz
    rcases List.mem_cons.mp hz with rfl | hz
    · exact ⟨a, hy⟩
    · exact ih hys z hz

end MapM

/-! ### A handshake served -/

section Handshake
variable {s : State} {die slot op ctx key : Nat}

/-- The frame of a page that a handshake lists. -/
def listedFrame (s : State) (die ctx op va : Nat) : Option Nat :=
  if op = 1 then s.acceptable die ctx va else s.claimedPage die ctx va

theorem frameKey_listedFrame {va k : Nat} (h : listedFrame s die ctx op va = some k) : FrameKey k := by
  unfold listedFrame at h
  split_ifs at h
  · exact frameKey_acceptable h
  · exact frameKey_claimedPage h

/-- The handshake page of a request. -/
def handshakePage (s : State) (die ctx op va : Nat) : Option Nat :=
  if op = 1 ∧ s.firstAccept die ctx = true then s.acceptable die ctx va else s.claimedHs die ctx va

theorem frameKey_handshakePage {va : Nat} (h : handshakePage s die ctx op va = some key) : FrameKey key := by
  unfold handshakePage at h
  split_ifs at h
  · exact frameKey_acceptable h
  · exact frameKey_claimedHs h

/-- The first handshake of a context claims its own page. -/
def pageTaken (s : State) (die ctx op key : Nat) : State :=
  if op = 1 ∧ s.firstAccept die ctx = true then s.setClaim key (some ctx) else s

/-- The claim that a handshake leaves on its frames. -/
def claimLeft (op ctx : Nat) : Option Nat := if op = 1 then some ctx else none

/-- The frames of a handshake taken. -/
def listTaken (s : State) (die ctx op key : Nat) (ks : List Nat) : State :=
  framesTaken (pageTaken s die ctx op key) (s.ctxKey ctx) (claimLeft op ctx) ks

/-- The SEQ served written into the handshake page. -/
def seqPut (s : State) (die ctx op key : Nat) (ks : List Nat) (seq : Nat) : State :=
  (listTaken s die ctx op key ks).agentNat (s.ctxKey ctx) (key + 16) 8 seq

/-- A handshake served, but for its answer. -/
def handshakeDone (s : State) (die ctx op key : Nat) (ks : List Nat) (seq : Nat) : State :=
  (seqPut s die ctx op key ks seq).modDie die fun d => { d with hsSeq := tabPut d.hsSeq ctx seq }

theorem serveHandshake_def (s : State) (die slot op : Nat) : s.serveHandshake die slot op =
    if s.wrongWorld die (s.worldOf (s.reqCtx die slot)) then s.reqEnd die slot sWorld
    else if (tabGet (0, 0) s.mkeys (s.ctxKey (s.reqCtx die slot))).1 = 2 then s.reqEnd die slot sBadreq
    else match handshakePage s die (s.reqCtx die slot) op (s.reqF die slot 16 8) with
      | none => s.reqEnd die slot sBadreq
      | some key =>
        if (s.handshake (s.reqCtx die slot) key).op ≠ op ∨ (s.handshake (s.reqCtx die slot) key).count = 0 ∨
            4096 < (s.handshake (s.reqCtx die slot) key).count ∨
            s.freshSeq die (s.reqCtx die slot) (s.handshake (s.reqCtx die slot) key).seq = false then
          s.reqEnd die slot sBadreq
        else match (s.handshake (s.reqCtx die slot) key).pages.mapM (listedFrame s die (s.reqCtx die slot) op) with
          | none => s.reqEnd die slot sBadreq
          | some ks => (handshakeDone s die (s.reqCtx die slot) op key ks
              (s.handshake (s.reqCtx die slot) key).seq).reqEnd die slot sDone := by
  unfold State.serveHandshake
  rfl

end Handshake

end Sys2Proof.Proofs

/-! What a served handshake leaves, and the settling of attestation and of confidential frames (R399 to R402). -/

namespace Sys2Proof.Proofs

open Sys2Proof.Machine Sys2Proof.Laws

/-! ### Places in a frame -/

section Place
variable {s : State} {k a mk : Nat}

theorem isHbm_inFrame (hk : FrameKey k) (h1 : k ≤ a) (h2 : a < k + 65536) : isHbm a = true := by
  obtain ⟨halign, hh⟩ := hk
  rw [isHbm_iff] at hh ⊢
  omega

/-- The controller admits a write to every byte of a frame or to none. -/
theorem refused_inFrame (hk : FrameKey k) (h1 : k ≤ a) (h2 : a < k + 65536) :
    s.refused mk a true = s.refused mk k true := by
  have hframe : a / 65536 = k / 65536 := by have := hk.1; omega
  have hdie : a / 2 ^ 46 = k / 2 ^ 46 := by omega
  have hloc : a % 2 ^ 46 / 65536 = k % 2 ^ 46 / 65536 := by omega
  simp only [State.refused, State.lockOf, isHbm_inFrame hk h1 h2, hk.2, hframe, hdie, hloc]

theorem writable_inFrame {off n : Nat} (hk : FrameKey k) (hoff : off + n ≤ 65536) (hw : s.refused mk k true = false)
    (hinst : ∀ a, s.installed mk a = true) : Writable s mk (k + off) n := fun a h1 h2 =>
  ⟨(refused_inFrame hk (by omega) (by omega)).trans hw, hinst a⟩

end Place

/-! ### The state after a handshake -/

section Done
variable {s : State} {die slot op ctx key seq : Nat} {ks : List Nat}

theorem claimsOnly_pageTaken : ClaimsOnly s (pageTaken s die ctx op key) := by
  unfold pageTaken
  split_ifs
  · exact claimsOnly_setClaim
  · exact .refl s

theorem mem_setClaim (v : Option Nat) : (s.setClaim key v).mem = s.mem := by rw [setClaim_def]; rfl

theorem tags_setClaim (v : Option Nat) : (s.setClaim key v).tags = s.tags := by rw [setClaim_def]; rfl

theorem mem_pageTaken : (pageTaken s die ctx op key).mem = s.mem := by
  unfold pageTaken
  split_ifs
  · exact mem_setClaim _
  · rfl

theorem tags_pageTaken : (pageTaken s die ctx op key).tags = s.tags := by
  unfold pageTaken
  split_ifs
  · exact tags_setClaim _
  · rfl

theorem claimOf_pageTaken (h : op = 1 ∧ s.firstAccept die ctx = true) :
    (pageTaken s die ctx op key).claimOf key = claimLeft op ctx := by
  rw [pageTaken, if_pos h, claimOf_setClaim_self, claimLeft, if_pos h.1]

variable (hks : ∀ k ∈ ks, FrameKey k) (hkey : FrameKey key)
  (hw : ∀ k ∈ key :: ks, s.refused (s.ctxKey ctx) k true = false) (hinst : ∀ a, s.installed (s.ctxKey ctx) a = true)

include hks hw in
theorem taken_listTaken : Taken (pageTaken s die ctx op key) (listTaken s die ctx op key ks) (s.ctxKey ctx)
    (claimLeft op ctx) ks :=
  taken_framesTaken ks _ hks fun k hk =>
    (claimsOnly_pageTaken.refused _ k true).trans (hw k (List.mem_cons_of_mem _ hk))

include hks hw in
theorem claimsOnly_listTaken : ClaimsOnly s (listTaken s die ctx op key ks) :=
  claimsOnly_pageTaken.trans (taken_listTaken hks hw).only

include hks hw hinst in
theorem readByte_listTaken_in {a : Nat} (h : InFrames ks a) :
    (listTaken s die ctx op key ks).readByte (s.ctxKey ctx) a = 0 := by
  obtain ⟨hbyte, htag⟩ := (taken_listTaken (die := die) (op := op) hks hw).zero a h
  obtain ⟨k, hk, h1, h2⟩ := h
  have hi : (listTaken s die ctx op key ks).installed (s.ctxKey ctx) a = true :=
    ((claimsOnly_listTaken hks hw).installed _ a).trans (hinst a)
  rw [State.readByte, if_pos (isHbm_inFrame (hks k hk) h1 h2)]
  dsimp only
  rw [htag, if_pos ⟨.inr rfl, hi⟩, hbyte]

include hks hw in
theorem readByte_listTaken_out {a : Nat} (h : ¬ InFrames ks a) (mk : Nat) :
    (listTaken s die ctx op key ks).readByte mk a = s.readByte mk a := by
  obtain ⟨hbyte, htag⟩ := (taken_listTaken (die := die) (op := op) hks hw).same a h
  refine (claimsOnly_listTaken hks hw).readByte (hbyte.trans ?_) (htag.trans ?_) mk
  · rw [State.byte, mem_pageTaken, State.byte]
  · rw [tags_pageTaken]

include hks hkey hw hinst in
theorem stored_seqPut : Stored (listTaken s die ctx op key ks) (seqPut s die ctx op key ks seq) (s.ctxKey ctx)
    (key + 16) (leBytes 8 seq) := by
  have honly := claimsOnly_listTaken (die := die) (op := op) hks hw
  exact stored_agentNat seq (fun a h1 h2 => isHbm_inFrame hkey (by omega) (by omega))
    (writable_inFrame hkey (by omega) ((honly.refused _ key true).trans (hw key List.mem_cons_self))
      fun a => (honly.installed _ a).trans (hinst a))

theorem onlyMemory_seqPut : OnlyMemory (listTaken s die ctx op key ks) (seqPut s die ctx op key ks seq) :=
  onlyMemory_agentNat ..

theorem claimsOnly_served : ClaimsOnly (seqPut s die ctx op key ks seq) (handshakeDone s die ctx op key ks seq) :=
  claimsOnly_modDie _ die rfl

theorem readByte_handshakeDone (mk a : Nat) :
    (handshakeDone s die ctx op key ks seq).readByte mk a = (seqPut s die ctx op key ks seq).readByte mk a :=
  claimsOnly_served.readByte rfl rfl mk

include hks hw in
theorem claimsOnly_handshakeDone : ClaimsOnly s (handshakeDone s die ctx op key ks seq) :=
  (claimsOnly_listTaken hks hw).trans (onlyMemory_seqPut.claimsOnly.trans claimsOnly_served)

theorem claimOf_handshakeDone (k : Nat) :
    (handshakeDone s die ctx op key ks seq).claimOf k = (listTaken s die ctx op key ks).claimOf k := by
  rw [← claimOf_of_onlyMemory (onlyMemory_seqPut (seq := seq)) k, State.claimOf, State.claimOf, handshakeDone,
    die_modDie]
  split_ifs with h
  · rw [← h]
  · rfl

/-- A byte after a handshake: SEQ in its place, 0 in the frames of its list, and as before elsewhere. -/
theorem readByte_served (hks : ∀ k ∈ ks, FrameKey k) (hkey : FrameKey key)
    (hw : ∀ k ∈ key :: ks, s.refused (s.ctxKey ctx) k true = false) (hinst : ∀ a, s.installed (s.ctxKey ctx) a = true)
    (a : Nat) : (handshakeDone s die ctx op key ks seq).readByte (s.ctxKey ctx) a =
      if key + 16 ≤ a ∧ a < key + 24 then (leBytes 8 seq).getD (a - (key + 16)) 0
      else (listTaken s die ctx op key ks).readByte (s.ctxKey ctx) a := by
  rw [readByte_handshakeDone]
  exact (stored_seqPut hks hkey hw hinst).1 a
    (((claimsOnly_listTaken hks hw).installed _ a).trans (hinst a))

end Done

/-! ### The requests -/

section Requests
variable {s : State} {die slot op : Nat}

theorem freshSeq_iff {ctx seq : Nat} : s.freshSeq die ctx seq = false ↔
    ¬ ∀ n, tabFind (s.die die).hsSeq ctx = some n → n < seq := by
  unfold State.freshSeq
  cases tabFind (s.die die).hsSeq ctx <;> simp

theorem exec_handshake (hop : op = 1 ∨ op = 2) (h : Asked s die slot (7 + op) [(16, 8)]) :
    exec (if op = 1 then .accept die slot else .release die slot) s = .next (s.serveHandshake die slot op) := by
  rcases hop with rfl | rfl
  · rw [if_pos rfl]
    change execAccept die slot s = _
    unfold execAccept
    rw [alidade_asked h (by omega)]
  · rw [if_neg (by omega)]
    change execRelease die slot s = _
    unfold execRelease
    rw [alidade_asked h (by omega)]

end Requests

end Sys2Proof.Proofs

/-! Attestation and confidential frames settled (R399 to R402). -/

namespace Sys2Proof.Proofs

open Sys2Proof.Machine Sys2Proof.Laws

/-- ATTEST (R399). -/
theorem attest_spec {s : State} {die slot : Nat} (h : Asked s die slot 7 [(16, 8), (24, 48)]) :
    let ctx := s.reqF die slot 4 2 % 4096
    let world := (s.die die).latched = true ∧ (s.die die).world.toNat = s.worldOf ctx
    (ctx ≠ 0 → ¬ world → ∃ (t : State), exec (.attest die slot) s = .next t ∧ Answered s t die slot 6) ∧
    (ctx = 0 ∨ world →
      let q := s.quote die ctx (s.readBytes 0 (reqKey die slot + 24) 48)
      let out := s.reqF die slot 16 8
      let bs := q ++ ecdsaSign (privateKey (Config.identityKey die)) (privateKey (Config.signNonce s.ticks)) (sha384 q)
      (s.agentSees die out bs.length true = false →
        ∃ (t : State), exec (.attest die slot) s = .next t ∧ Answered s t die slot 2) ∧
      (s.agentSees die out bs.length true = true →
        ∃ (b t : State), exec (.attest die slot) s = .next t ∧ Answered b t die slot 1 ∧
          b = { s with mem := b.mem, tags := b.tags } ∧
          (Hbm (gpaKey out) bs.length → Stored s b 0 (gpaKey out) bs))) := by
  dsimp only
  have hexec : exec (.attest die slot) s = .next (s.attest die slot) := by
    change execAttest die slot s = _
    unfold execAttest
    rw [alidade_asked h (by omega)]
  unfold State.attest State.reqCtx at hexec
  dsimp only at hexec
  rw [hexec]
  generalize s.quote die (s.reqF die slot 4 2 % 4096) (s.readBytes 0 (reqKey die slot + 24) 48) = q
  generalize q ++ ecdsaSign (privateKey (Config.identityKey die)) (privateKey (Config.signNonce s.ticks)) (sha384 q) = bs
  generalize s.reqF die slot 4 2 % 4096 = ctx
  refine ⟨fun hctx hw => ?_, fun hok => ?_⟩
  · rw [if_pos ⟨hctx, wrongWorld_iff.mpr hw⟩]
    exact ⟨_, rfl, answered_reqEnd s 6 h.2.1⟩
  · rw [if_neg fun hbad => hok.elim hbad.1 fun hw => not_wrongWorld hw hbad.2]
    refine ⟨fun hsees => ?_, fun hsees => ?_⟩
    · rw [if_neg (Bool.eq_false_iff.mp hsees)]
      exact ⟨_, rfl, answered_reqEnd s 2 h.2.1⟩
    · rw [if_pos hsees]
      exact ⟨_, _, rfl, answered_reqEnd _ 1 h.2.1, onlyMemory_writeBytes .., fun hh =>
        stored_writeBytes bs s _ fun a h1 h2 => .inl (hh a h1 h2)⟩

/-- A handshake that fits is served. -/
theorem handshake_served {s : State} {die ctx op key seq : Nat} {ks : List Nat} (hks : ∀ k ∈ ks, FrameKey k)
    (hkey : FrameKey key) (hw : ∀ k ∈ key :: ks, s.refused (s.ctxKey ctx) k true = false)
    (hinst : ∀ a, s.installed (s.ctxKey ctx) a = true) :
    let b := handshakeDone s die ctx op key ks seq
    let mk := s.ctxKey ctx
    (∀ k ∈ ks, b.claimOf k = if op = 1 then some ctx else none) ∧
    (op = 1 ∧ s.firstAccept die ctx = true → b.claimOf key = some ctx) ∧
    (∀ a, key + 16 ≤ a → a < key + 24 → b.readByte mk a = (leBytes 8 seq).getD (a - (key + 16)) 0) ∧
    (∀ k ∈ ks, ∀ a, k ≤ a → a < k + 65536 → a < key + 16 ∨ key + 24 ≤ a → b.readByte mk a = 0) ∧
    (∀ a, (∀ k ∈ ks, a < k ∨ k + 65536 ≤ a) → a < key + 16 ∨ key + 24 ≤ a → b.readByte mk a = s.readByte mk a) ∧
    tabGet 0 (b.die die).hsSeq ctx = seq ∧ b = { s with mem := b.mem, tags := b.tags, dies := b.dies } := by
  intro b mk
  have htaken := taken_listTaken (die := die) (op := op) hks hw
  have hread := readByte_served (die := die) (op := op) (seq := seq) hks hkey hw hinst
  have hout : ∀ a, a < key + 16 ∨ key + 24 ≤ a → b.readByte mk a = (listTaken s die ctx op key ks).readByte mk a :=
    fun a ha => (hread a).trans (if_neg (by omega))
  refine ⟨fun k hk => ?_, fun hfirst => ?_, fun a h1 h2 => (hread a).trans (if_pos ⟨h1, h2⟩), fun k hk a h1 h2 ha => ?_,
    fun a hno ha => ?_, ?_, (claimsOnly_handshakeDone hks hw).frame⟩
  · exact (claimOf_handshakeDone k).trans (htaken.claimed k hk)
  · refine (claimOf_handshakeDone key).trans ((htaken.kept key (claimOf_pageTaken hfirst)).trans ?_)
    rw [claimLeft, if_pos hfirst.1]
  · exact (hout a ha).trans (readByte_listTaken_in hks hw hinst ⟨k, hk, h1, h2⟩)
  · refine (hout a ha).trans (readByte_listTaken_out hks hw (fun ⟨k, hk, h1, h2⟩ => ?_) mk)
    exact (hno k hk).elim (Nat.not_lt.mpr h1) (Nat.not_le.mpr h2)
  · change tabGet 0 ((handshakeDone s die ctx op key ks seq).die die).hsSeq ctx = seq
    rw [handshakeDone, die_modDie, if_pos rfl]
    exact (tabGet_tabPut ..).trans (if_pos rfl)

/-- Settles O56: the frames of a handshake are HBM frames that its writes reach, so each is zeroed and claimed in
turn and SEQ is written last; the requests themselves are read in the ring, where no memory key counts. -/
theorem confidential : Obligations.confidential := by
  unfold Obligations.confidential
  refine ⟨fun s die slot h => attest_spec h, fun s die slot op hop h => ?_⟩
  intro i ctx world first page dead ends
  have hexec : exec i s = .next (s.serveHandshake die slot op) := exec_handshake hop h
  have hends : ∀ b st, s.serveHandshake die slot op = b.reqEnd die slot st →
      ∃ (t : State), exec i s = .next t ∧ Answered b t die slot st := fun b st hb =>
    next_answered h.2.1 (hexec.trans (congrArg _ hb))
  have hserve := serveHandshake_def s die slot op
  rw [show s.reqCtx die slot = ctx from rfl,
    show handshakePage s die ctx op (s.reqF die slot 16 8) = page from rfl] at hserve
  refine ⟨fun hw => hends s 6 (hserve.trans (if_pos (wrongWorld_iff.mpr hw))), fun hw hbad => hends s 2 ?_,
    fun key hw hlive hkey => ?_⟩
  · refine hserve.trans ((if_neg (not_wrongWorld hw)).trans ?_)
    by_cases hdead : dead
    · exact if_pos hdead
    · rw [if_neg hdead, hbad.resolve_left hdead]
      rfl
  · rw [if_neg (not_wrongWorld hw), if_neg hlive, hkey] at hserve
    intro hs fits frame
    have hfits : ∀ {x y : State}, fits → (if hs.op ≠ op ∨ hs.count = 0 ∨ 4096 < hs.count ∨
        s.freshSeq die ctx hs.seq = false then x else y) = y := fun ⟨hop, hpos, hmax, hseq⟩ => if_neg (by
      rw [freshSeq_iff]
      rintro (h | h | h | h)
      · exact h hop
      · omega
      · omega
      · exact h hseq)
    refine ⟨fun hno => hends s 2 (hserve.trans (if_pos ?_)), fun hf hnone => hends s 2 ?_,
      fun ks hf hks hw' hinst => ?_⟩
    · by_contra hall
      rw [freshSeq_iff] at hall
      push Not at hall
      obtain ⟨hop, hpos, hmax, hseq⟩ := hall
      exact hno ⟨hop, Nat.pos_of_ne_zero hpos, hmax, hseq⟩
    · refine hserve.trans ((hfits hf).trans ?_)
      rw [show hs.pages.mapM (listedFrame s die ctx op) = none from mapM_none_of_mem hnone]
      rfl
    · have hlist : hs.pages.mapM (listedFrame s die ctx op) = some ks := hks
      have hframes : ∀ k ∈ ks, FrameKey k := fun k hk =>
        (exists_of_mem_mapM hlist k hk).elim fun va hva => frameKey_listedFrame hva
      obtain ⟨hclaims, hfirst, hseq, hzero, hsame, hlast, hframe⟩ :=
        handshake_served (die := die) (op := op) (seq := hs.seq) hframes (frameKey_handshakePage hkey) hw' hinst
      refine ⟨handshakeDone s die ctx op key ks hs.seq, _, hexec, ?_, hclaims, hfirst, hseq, hzero, hsame, hlast, hframe⟩
      have hdone : s.serveHandshake die slot op = (handshakeDone s die ctx op key ks hs.seq).reqEnd die slot sDone := by
        refine hserve.trans ((hfits hf).trans ?_)
        rw [show (s.handshake ctx key).pages.mapM (listedFrame s die ctx op) = some ks from hlist]
      rw [hdone]
      exact answered_reqEnd _ 1 h.2.1

end Sys2Proof.Proofs
